-- ==== Sys2Proof/Word.lean ====
section
/-! DEFINITION. The plain word types of the DB-880 model and two arithmetic functions on them (R4 to R6 of spec/00_scope.md). -/
namespace Sys2Proof

/-- A byte of memory. -/
abbrev Byte := BitVec 8

/-- Bits `hi` down to `lo` of a number (the spec's [hi:lo]). -/
def bits (v hi lo : Nat) : Nat := v / 2 ^ lo % 2 ^ (hi + 1 - lo)

/-- Whether bit `i` of a number is 1. -/
def bit (v i : Nat) : Bool := v / 2 ^ i % 2 == 1

end Sys2Proof
end

