-- ==== Sys2Proof/Config.lean ====
section
/-! DEFINITION. The values the spec leaves open, as constants with no body: nothing in Lean can evaluate one or prove a value
of it, so what is proved holds for every value. A step that needs a fresh one applies it to the model's own counter
`State.free` and advances the counter (notes/assumptions/3.md). -/
namespace Sys2Proof

/-- A value the spec leaves undefined or does not state, taken modulo the width of the field it goes to. -/
opaque Config.freeValue : Nat → Nat

/-- A choice between two outcomes the spec allows (for example the old or the new polder map entry before an invalidation
has completed, R81, R85). -/
opaque Config.freeChoice : Nat → Bool

/-- The firmware version that DEV_GET_INFO returns: the spec gives it no value. -/
opaque Config.firmwareVersion : Nat

/-- Whether the part is SXD880-I-A1 (Table SCP-1); DEV_GET_INFO returns it, and nothing else depends on it (R2). -/
opaque Config.industrialGrade : Bool

/-- The MAC address of the device: its HELLO carries it (R371), and the spec does not say where it comes from. -/
opaque Config.macAddress : Nat

/-- Whether the linear factor of a side-tone gain code, where it is no whole number of units of 2^-28, is rounded up (R329 does not
say). -/
opaque Config.sideGainUp : Nat → Bool

/-- Bytes of an erase block of a boot flash medium (0 xSPI, 1 eMMC), and the records that an archive block of it holds (R395 gives neither). -/
opaque Config.eraseBlock : Nat → Nat
opaque Config.archiveRecords : Nat → Nat

/-- The SHA-256 of Stavrex firmware signing key 0 or 1 as OTP_STX_KEYHASH holds it (Table CRP-4): programmed at the factory, to a value that
the spec does not give. -/
opaque Config.stavrexKeyHash : Nat → Nat

end Sys2Proof
end

