-- ==== Sys2Proof/Syntax.lean ====
section
/-! DEFINITION. The commands of the block: everything that can happen to a DB-880, one constructor per row of
spec/opcode_table.json, and the data its operands are made of. -/
namespace Sys2Proof

/-- By which way an access reaches the device: from a master on the fabric, or through a PCIe base address register
(Table PCI-1), or from the debugger's system bus. -/
inductive Route where
  | fabric | bar0 | bar2 | bar4
  deriving DecidableEq, Repr

/-- What an access carries (R59, R78, Table PCI-1): the master's ID, its polder tag, its secure attribute, and the way it takes. -/
structure Access where
  master : Fin 64
  polder : Fin 32
  secure : Bool
  route : Route
  deriving DecidableEq, Repr

/-- What ECC finds at a read of a word (R123): no error, a single-bit error, or an error that cannot be corrected. -/
inductive Ecc where
  | clean | corrected | uncorrectable
  deriving DecidableEq, Repr

/-- What the link ECC finds at a DRAM read (R142): nothing, an error that the retry did not see, or one it saw again. -/
inductive Retry where
  | none | recovered | failed
  deriving DecidableEq, Repr

/-- The kind of a memory access. -/
inductive Dir where
  | read | write | fetch
  deriving DecidableEq, Repr

/-- A master's access to memory (R78): what it carries, its first byte's address and its length, the bytes a write stores, the
engine work it is part of (block and unit of Table POL-9, for a device master), what ECC finds there, and whether it is still
in the fabric when the step ends (R105, R108), under which tag. -/
structure MemReq where
  acc : Access
  dir : Dir
  addr : BitVec 40
  len : Fin 65
  data : List (BitVec 8)
  block : Fin 256
  unit : Fin 256
  ecc : Ecc
  retry : Retry
  outstanding : Option Nat
  deriving DecidableEq, Repr

/-- What a device reset finds (R404, R409, R430, R431): the boot straps, the coin cell's voltage in mV, whether main power and the coin cell
have both been away, and how long the reset or the state without power lasted, in ns. -/
structure ResetInfo where
  straps : BitVec 3
  vbat : BitVec 12
  lost : Bool
  elapsed : Nat
  deriving DecidableEq, Repr

/-- Why a DRAM channel loses training (R127, R143). -/
inductive LossReason where
  | eye | retries | configuration
  deriving DecidableEq, Repr


/-- What a sink that has been plugged in reports (R246, Table SCN-7): its highest rate as SCN_LINK numbers rates, its lanes, DSC,
MSA_TIMING_PAR_IGNORED, and its EDID or DisplayID. -/
structure SinkInfo where
  rate : Fin 16
  lanes : Fin 8
  dsc : Bool
  varTotal : Bool
  edid : List (BitVec 8)
  deriving DecidableEq, Repr

/-- What the detector of an HPD input holds when Tujan reads it (R245): a level change that lasted `us` microseconds, with the sink
found there; or a low pulse of that length, with whether the sink then reports a link fault. -/
inductive HpdRead where
  | level (high : Bool) (us : Nat) (sink : SinkInfo)
  | lowPulse (us : Nat) (fault : Bool)
  deriving DecidableEq, Repr

/-- The configuration, as rate and lanes of SCN_LINK, at which link training succeeds; `none` when no attempt succeeds. -/
abbrev Trained := Option (Fin 16 × Fin 8)

/-- An access that graphics work makes (R257): a read; a write; or an access to a sparse resource through its residency map (R276), with the
resource's first byte, a read of `len` bytes where no data is given. -/
inductive GfxAccess where
  | read (addr : BitVec 40) (len : Nat)
  | write (addr : BitVec 40) (data : List (BitVec 8))
  | sparse (map base addr : BitVec 40) (len : Nat) (data : Option (List (BitVec 8)))
  deriving DecidableEq, Repr

/-- A fast-cleared attachment of a pass (R273, R274): its flag surface and pitch, its size in pixels, its cleared 8x8 blocks as (column,
row), and its colour surface with pitch and the bytes of a cleared pixel. -/
structure FastClear where
  flagBase : BitVec 40
  flagPitch : Nat
  width : Nat
  height : Nat
  blocks : List (Nat × Nat)
  colourBase : BitVec 40
  colourPitch : Nat
  pixel : List (BitVec 8)
  deriving DecidableEq, Repr

/-- What a DRAW bins (R270 to R275): its primitives, the tiles they cover in all, the tessellation factors clamped, and the accesses that
partial flushes make. -/
structure DrawWork where
  prims : Nat
  covers : Nat
  clamped : Nat
  flush : List GfxAccess
  deriving DecidableEq, Repr

/-- What the parameter sets and headers of an access unit say (R283, R285, R296, R298): whether Table VCD-1 covers it; whether its picture
is a key picture, a reference, or predicts from a picture that was lost or never received; whether it carries film grain parameters; its
units and luma samples; the pool pictures that stay references; and the cropping window as VCD_GET_SESSION reports it. -/
structure AuInfo where
  supported : Bool
  key : Bool
  isRef : Bool
  missing : Bool
  grain : Bool
  units : Nat
  luma : Nat
  keep : List (Fin 24)
  crop : BitVec 32
  deriving DecidableEq, Repr

/-- A decode unit whose dependencies have been met (R285): its session, its number in its picture, and the access unit it belongs to. -/
structure ReadyUnit where
  session : Fin 64
  unit : Nat
  au : AuInfo
  deriving DecidableEq, Repr

/-- A block of a decoded picture (R291): its plane, block row and block column, and its samples in stored order: 256 luma samples, or
64 of Cb and then 64 of Cr. -/
structure CodedBlock where
  chroma : Bool
  row : Nat
  col : Nat
  samples : List (BitVec 10)
  deriving DecidableEq, Repr

/-- How a unit of a decode ends: with an uncorrectable error in the engine's own buffers (R286), with an access outside the session's
descriptors (R289), or done, with the blocks written and whether any was concealed (R297). -/
inductive UnitEnd where
  | engineFault
  | outside
  | done (concealed : Bool) (blocks : List CodedBlock)
  deriving DecidableEq, Repr

/-- A source format of a capture input (R308). -/
inductive CapFormat where
  | rgb8 | rgb10 | yc8 | yc10 | other
  deriving DecidableEq, Repr

/-- What a capture input's receiver sees (R310): whether a source is locked, whether it encrypts, its format, active size and rate in mHz. -/
structure CapSource where
  locked : Bool
  hdcp : Bool
  format : CapFormat
  h : BitVec 14
  v : BitVec 14
  mhz : BitVec 20
  deriving DecidableEq, Repr

/-- The 24-byte header of an Onader frame (Table ONL-3): words 0 to 3, and tx_time. -/
structure OnaderHeader where
  w0 : BitVec 32
  w1 : BitVec 32
  w2 : BitVec 32
  w3 : BitVec 32
  txTime : BitVec 64
  deriving DecidableEq, Repr

/-- What a HELLO carries (R371) that the receiver keeps. -/
structure HelloInfo where
  mac : BitVec 48
  ip4 : BitVec 32
  timeState : Fin 4
  leaving : Bool
  deriving DecidableEq, Repr

/-- The schedule a SCHED carries (R372). -/
structure SchedInfo where
  rate : BitVec 32
  phase : BitVec 32
  latency : BitVec 32
  effective : BitVec 64
  version : BitVec 32
  deriving DecidableEq, Repr

/-- What a PTP Announce message says of its master (IEEE 1588). -/
structure AnnounceInfo where
  priority1 : BitVec 8
  clockClass : BitVec 8
  accuracy : BitVec 8
  variance : BitVec 16
  priority2 : BitVec 8
  identity : BitVec 64
  steps : BitVec 16
  deriving DecidableEq, Repr

/-- Where a frame goes (R361): to the device itself, or to a unicast or multicast address. -/
inductive EthDest where
  | device
  | unicast (mac : BitVec 48)
  | multicast (mac : BitVec 48)
  deriving DecidableEq, Repr

/-- A frame received on a switch port (R361, R362): the port, whether MACsec finds it validly protected, its VLAN, source and destination,
the multicast address that it, as an IGMP or MLD report, joins or leaves, the ports whose egress queue for it is full, and the Onader header
and datagram payload length where it is an Onader frame. -/
structure EthFrame where
  port : Fin 7
  protect : Bool
  vlan : Fin 4096
  src : BitVec 48
  dest : EthDest
  join : Option (BitVec 48)
  leave : Option (BitVec 48)
  full : BitVec 7
  onader : Option (OnaderHeader × Nat)
  deriving DecidableEq, Repr

/-- How an I2C command ends (R449): done, with the byte a read found; not acknowledged; arbitration lost; SCL held low for 25 ms. -/
inductive I2cEnd where
  | done (byte : BitVec 8)
  | nack
  | arbLost
  | timeout
  deriving DecidableEq, Repr

/-- A step of the part: one constructor per row of spec/opcode_table.json, in the table's order. A constructor whose row is
a mailbox command has the pair as its operand: the step is Tujan taking that command from the head of the pair's channel. -/
inductive Instr where
  /-- REGISTER_WRITE (R13). A write to a register field that has no row of its own; it takes effect as its Shadowed value states, and refused or malformed accesses are discarded and recorded. -/
  | registerWrite (a : Access) (addr : BitVec 40) (size : Fin 17) (v : BitVec 64)
  /-- REG64_LOW_READ (R11). A read of the low word of a 64-bit register latches the high word for that master. -/
  | reg64LowRead (a : Access) (addr : BitVec 40) (size : Fin 17)
  /-- REG64_HIGH_WRITE (R12). A write of the high word of a writable 64-bit register applies both halves in one cycle. -/
  | reg64HighWrite (a : Access) (addr : BitVec 40) (v : BitVec 32)
  /-- MEMORY_ACCESS (R78). A master's access to OCM, DRAM, an alias, a window or a hole is checked by region, polder check and outbound window, and is performed or denied. -/
  | memoryAccess (r : MemReq)
  /-- OCM_ECC_WRITEBACK (R123). The bank writes a corrected word back in its next idle cycle. -/
  | ocmEccWriteback (bank : Fin 12)
  /-- OCM_ALIAS_WRITE (R119). A write to the set or clear alias performs an atomic read-modify-write of the OCM word. -/
  | ocmAliasWrite (a : Access) (addr : BitVec 40) (size : Fin 17) (v : BitVec 64) (uncorrectable : Bool)
  /-- FABRIC_TIMEOUT (R108). A device-master transaction not completed within 2 ms is completed by the fabric with a drop or a poison read. -/
  | fabricTimeout (tag : Nat)
  /-- PCI_COMPLETION_TIMEOUT (R108). A PCIe outbound read not completed within 50 ms completes with poison. -/
  | pciCompletionTimeout (tag : Nat)
  /-- PCI_LATE_COMPLETION (R105). A PCIe completion that arrives for a squashed read is discarded and recorded. -/
  | pciLateCompletion (tag : Nat)
  /-- PCI_LINK_DOWN (R113). Loss of the PCIe link starts a polder reset of every polder at location 3 and vacates a PCIe-host warden. -/
  | pciLinkDown
  /-- PCI_HOT_RESET (R113). A hot reset or function-level reset of the endpoint starts a polder reset of every polder at location 3. -/
  | pciHotReset (functionLevel : Bool)
  /-- MBX_PUSH (R33). A write of MBX_CHn_PUSH submits the staged message, which is stamped and delivered into the channel or refused when the channel is full. -/
  | mbxPush (a : Access) (addr : BitVec 40) (v : BitVec 32)
  /-- MBX_POP (R46). A write of MBX_CHn_POP by the admitted receiver removes the head message. -/
  | mbxPop (a : Access) (addr : BitVec 40) (v : BitVec 32)
  /-- MBX_LOCK_ACQUIRE (R41). A read of MBX_LOCKn grants a free lock to one reader by round robin or returns the owner's ID. -/
  | mbxLockAcquire (n : Fin 32) (readers : List (Fin 64))
  /-- MBX_LOCK_RELEASE (R42). A write of MBX_LOCKn by its owner with its own ID frees the lock; any other write is ignored and recorded. -/
  | mbxLockRelease (master : Fin 64) (n : Fin 32) (v : BitVec 32)
  /-- MBX_CROSSWAIT (R38). When both channels of a pair hold an unacknowledged wait_ack message for 10 ms, the pair's bit is set, recorded and signalled. -/
  | mbxCrosswait (k : Fin 32)
  /-- TUJAN_HOLD_DRAIN (R35). When the party's receive channel gains room, Tujan delivers its held outgoing messages in order and resumes taking requests from the pair. -/
  | tujanHoldDrain (k : Fin 32)
  /-- PARTY_ACK (R36). A message with reply or ack set from a party acknowledges Tujan's matching wait_ack message, or is removed without effect. -/
  | partyAck (k : Fin 32)
  /-- DEV_GET_INFO (R32). Returns the part code, stepping, grade, firmware version, device number, warden order and regulated lock. -/
  | devGetInfo (k : Fin 32)
  /-- DEV_GET_STATUS (R32). Returns the power state, warden kind, time synchronisation flag and highest junction temperature. -/
  | devGetStatus (k : Fin 32)
  /-- WARDEN_GET (R32). Returns the warden kind, handover state, claim window state and time since the last change. -/
  | wardenGet (k : Fin 32)
  /-- DEV_GET_PARAM (R58). Reads a parameter object by ID, subject to its level. -/
  | devGetParam (k : Fin 32)
  /-- DEV_SET_PARAM (R58). The warden writes a device-level parameter object by ID. -/
  | devSetParam (k : Fin 32)
  /-- WARDEN_CLAIM (R51). A candidate claims the warden position; it is decided at once or when the claim window closes. -/
  | wardenClaim (k : Fin 32)
  /-- CLAIM_WINDOW_CLOSE (R51). 250 ms after the window opens, the highest-priority claimant becomes warden, claims are answered and WARDEN_CHANGED is sent. -/
  | claimWindowClose
  /-- WARDEN_ACCEPT (R55). The handover target accepts; the position transfers after the SET command in progress, or ST_NO_HANDOVER is returned. -/
  | wardenAccept (k : Fin 32)
  /-- WARDEN_HANDOVER (R54). The warden offers its position to another candidate kind; WARDEN_OFFER is sent to the target. -/
  | wardenHandover (k : Fin 32)
  /-- HANDOVER_LAPSE (R54). 1 s after a handover with no accept, the handover lapses with ST_HANDOVER_LAPSED and the old warden remains. -/
  | handoverLapse
  /-- WARDEN_RELEASE (R52). The warden gives up its position, which becomes vacant and opens a new claim window. -/
  | wardenRelease (k : Fin 32)
  /-- MBX_SET_RX (R32). Sets rx_irq_en and wake_domain on the receive channel of the sender's pair. -/
  | mbxSetRx (k : Fin 32)
  /-- SLUICE (R62). The SLUICE instruction executes as a no-op. -/
  | sluice (h : Fin 8) (w : BitVec 32)
  /-- SLCALL (R64). A normal-world call into a secure entry point that passes its checks switches the hart to the secure world, or raises a sluice fault. -/
  | slcall (h : Fin 8) (w : BitVec 32)
  /-- SLRET (R65). A secure-world return to a non-secure page switches the hart to the normal world, or raises a sluice fault. -/
  | slret (h : Fin 8) (w : BitVec 32)
  /-- POLDER_TAG_WRITE (R72). A write to spolder or svpolder succeeds only for a polder allowed in mpolder_allow, else raises illegal instruction. -/
  | polderTagWrite (h : Fin 8) (guest : Bool) (v : BitVec 64)
  /-- TRAP_TO_MACHINE (R69). A trap into machine mode copies the world bit to mworld.mpw. -/
  | trapToMachine (h : Fin 8) (interrupt : Bool) (code : Fin 64) (tval : BitVec 64)
  /-- MRET (R69). MRET sets the world bit from mworld.mpw. -/
  | mret (h : Fin 8)
  /-- WORLD_WATCHDOG (R71). When mwdogcnt reaches its limit, the hart takes machine interrupt 24. -/
  | worldWatchdog (h : Fin 8)
  /-- PLD_REQ_MAP (R82). A write of req_map in tidemark mode starts validation of the polder map. -/
  | pldReqMap (a : Access) (addr : BitVec 40) (v : BitVec 32)
  /-- MAP_SWITCH_DONE (R82). At the end of validation the device switches to map mode or reports the reason the map is invalid. -/
  | mapSwitchDone (badLine : Option (BitVec 40))
  /-- PLD_REQ_TIDEMARK (R83). A write of req_tidemark in map mode switches to tidemark mode in one cycle with fence_normal set. -/
  | pldReqTidemark (a : Access) (addr : BitVec 40) (v : BitVec 32)
  /-- FENCE_NORMAL_WRITE (R83). A write of 0 to fence_normal is ignored while any other polder exists, with result 5. -/
  | fenceNormalWrite (a : Access) (addr : BitVec 40) (v : BitVec 32)
  /-- PLD_TIDEMARK_WRITE (R77). A new tidemark applies to every later access; values out of range are refused. -/
  | pldTidemarkWrite (a : Access) (addr : BitVec 40) (v : BitVec 32)
  /-- PLD_INV_START (R81). A write of PLD_INV_CTRL.start begins invalidation of cached map lines. -/
  | pldInvStart (a : Access) (addr : BitVec 40) (v : BitVec 32)
  /-- PLD_INV_DONE (R81). Invalidation completes and busy returns to 0; later accesses use the new entries. -/
  | pldInvDone
  /-- PLD_S2_ROOT_WRITE (R86). A permitted write of a polder's second-stage root also records the writer's polder. -/
  | pldS2RootWrite (a : Access) (addr : BitVec 40) (v : BitVec 32)
  /-- PLD_S2_INV (R85). A write of PLD_S2_INVp.inv starts invalidation of a polder's cached translations. -/
  | pldS2Inv (a : Access) (addr : BitVec 40) (v : BitVec 32)
  /-- PLD_S2_INV_DONE (R85). Second-stage invalidation completes and busy returns to 0. -/
  | pldS2InvDone (p : Fin 32)
  /-- SEC_CLAIM_WRITE (R87). A secure-world write of CRP_SEC_CLAIM claims blocks, powering up any that are off. -/
  | secClaimWrite (a : Access) (addr : BitVec 40) (v : BitVec 32)
  /-- DBG_ENABLE_WRITE (R89). A secure-world write of DBG_ENABLE clears debug enables and sets sba_polder. -/
  | dbgEnableWrite (a : Access) (addr : BitVec 40) (v : BitVec 32)
  /-- POLDER_GET_INFO (R93). Returns a polder's state, location, pair, shares, slots and audio budget. -/
  | polderGetInfo (k : Fin 32)
  /-- POLDER_GET_GRANTS (R93). Returns the bitmap of units of one type granted to a polder. -/
  | polderGetGrants (k : Fin 32)
  /-- POLDER_CREATE (R95). Creates a polder at a location, with shares 16, no grants and its default pair if free. -/
  | polderCreate (k : Fin 32)
  /-- POLDER_DESTROY (R95). Resets a polder, revokes its grants, releases its pair and leaves it absent. -/
  | polderDestroy (k : Fin 32)
  /-- POLDER_GRANT (R94). Atomically grants resource units or audio budget from polder 0's holding to a polder. -/
  | polderGrant (k : Fin 32)
  /-- POLDER_REVOKE (R94). Atomically returns resource units or budget from a polder to polder 0. -/
  | polderRevoke (k : Fin 32)
  /-- POLDER_SET_SHARE (R103). Sets a polder's weight on graphics, codec or check values, effective at the engine's next choice. -/
  | polderSetShare (k : Fin 32)
  /-- POLDER_RESET (R105). Starts a polder reset: state resetting, doorbells refused, commits cancelled, engines stop work for the polder. -/
  | polderReset (k : Fin 32)
  /-- POLDER_WORK_ABORT (R105). 2 ms after a polder reset, the polder's running engine work is aborted. -/
  | polderWorkAbort (p : Fin 32)
  /-- CRP_POLDER_SQUASH (R105). 100 µs after Q, transactions of the resetting polder still in the fabric are squashed and counted. -/
  | crpPolderSquash (p : Fin 32)
  /-- POLDER_RESET_DONE (R105). Once no transaction of the polder remains, its queues and entries are cleared, it becomes active and the reset replies ST_OK. -/
  | polderResetDone (p : Fin 32)
  /-- POLDER_ASSIGN_PAIR (R95). Assigns a mailbox pair to a polder, or adds the polder to the pair's share set. -/
  | polderAssignPair (k : Fin 32)
  /-- PCIE_SET_WINDOWS (R111). Sets a polder's PCIe outbound window and BAR4 OCM base. -/
  | pcieSetWindows (k : Fin 32)
  /-- EVL_ENABLE_WRITE (R100). A write of POL_EVL_ENABLE that enables a pending line asserts the interrupt or sends its MSI-X message. -/
  | evlEnableWrite (a : Access) (addr : BitVec 40) (v : BitVec 32)
  /-- DRAM_REFRESH (R133). A refresh falls due and is issued, postponed under urgent flags, or forced when the debt would exceed 8. -/
  | dramRefresh (ch : Fin 16)
  /-- URGENT_FLAG_CHANGE (R131). A real-time master raises or drops its urgent flag as its fetch margin crosses its threshold; postponed refreshes are repaid when none is held. -/
  | urgentFlagChange (master : Fin 64) (ch : Fin 16) (up : Bool)
  /-- REFRESH_WINDOW_START (R136). At the start of each 32 ms refresh window the activation trackers are cleared and throttling ends. -/
  | refreshWindowStart
  /-- ZQ_CALIBRATION (R141). Every 100 ms the pumping station issues a ZQ calibration step in a suitable window. -/
  | zqCalibration
  /-- RETRAIN_STEP (R141). After 10 °C of drift the pumping station runs retraining steps of at most 12 µs. -/
  | retrainStep (ch : Fin 16) (temp : BitVec 16)
  /-- DMC_TRAINING_LOST (R143). A channel's eye below margin or excess retries declares loss of training; all DRAM accesses fail and MEM_DRAM_STATE is sent. -/
  | dmcTrainingLost (ch : Fin 16) (reason : LossReason)
  /-- DMC_RETRAIN_DONE (R144). A retraining attempt after loss completes; success clears failed, three failures make it permanent. -/
  | dmcRetrainDone (success : Bool) (temp : BitVec 16)
  /-- OCM_SCRUB_PASS (R124). The OCM scrubber completes a pass over every word and records it. -/
  | ocmScrubPass
  /-- DRAM_PATROL (R434). A patrol read of a 64 KiB step of DRAM is made, with a failed retry reported. -/
  | dramPatrol (retryFailed : Bool)
  /-- MEM_GET_INFO (R32). Returns DRAM capacity, rate, state, PASR, refresh settings and mapping masks. -/
  | memGetInfo (k : Fin 32)
  /-- MEM_GET_OCM_REGION (R32). Returns the four OCM regions of a master. -/
  | memGetOcmRegion (k : Fin 32)
  /-- MEM_GET_THROTTLE (R32). Returns the throttled masters and time left in the refresh window. -/
  | memGetThrottle (k : Fin 32)
  /-- MEM_SET_OCM_REGION (R116). Sets one OCM region of a master, K0-K1 only from polder 0's secure world. -/
  | memSetOcmRegion (k : Fin 32)
  /-- MEM_SET_PASR (R140). Sets the number of DRAM segments retained in self-refresh. -/
  | memSetPasr (k : Fin 32)
  /-- MEM_SET_REFRESH (R132). Sets refresh mode and postponement. -/
  | memSetRefresh (k : Fin 32)
  /-- MEM_SET_ROWHAMMER (R146). Sets the row-hammer threshold and throttle rate. -/
  | memSetRowhammer (k : Fin 32)
  /-- MEM_SET_RT_MASTERS (R146). Sets the mask of real-time masters. -/
  | memSetRtMasters (k : Fin 32)
  /-- CMP_FLIP_PUSH (R154). A write of the slot number queues the staged buffer entry for validation. -/
  | cmpFlipPush (a : Access) (addr : BitVec 40) (v : BitVec 32)
  /-- FLIP_VALIDATE (R154). Flip validation completes and the entry is queued with its seq, or rejected. -/
  | flipValidate (p : Fin 32)
  /-- CMP_COMMIT (R159). A commit doorbell snapshots the polder's shadow state for an output and queues it for validation. -/
  | cmpCommit (a : Access) (addr : BitVec 40) (v : BitVec 32)
  /-- COMMIT_VALIDATE (R160). The commit unit validates the next commit in order; it is accepted and queued, or rejected whole. -/
  | commitValidate
  /-- LATCH_POINT (R165). At line V_TOTAL minus LOOKAHEAD_LINES, due commits are applied, buffers selected, released, and slots judged for the next frame. -/
  | latchPoint (n : Fin 8)
  /-- LAYER_HEARTBEAT (R208). A write of CMP_LAYERn_HEARTBEAT stores its arrival time as the slot's heartbeat. -/
  | layerHeartbeat (a : Access) (addr : BitVec 40) (v : BitVec 32)
  /-- DSP_GET_LAYER (R464). Returns a slot's configuration in force, status and placement. -/
  | dspGetLayer (k : Fin 32)
  /-- DSP_GET_OUTPUT_COMMIT (R32). Returns an output's latch, budget, commit and demand registers. -/
  | dspGetOutputCommit (k : Fin 32)
  /-- DSP_SET_SLOT (R148). The warden places a slot of polders 1-31 on an output with z and clip. -/
  | dspSetSlot (k : Fin 32)
  /-- DSP_SET_SECURE_SLOT (R148). Polder 0's secure world places one of its own slots. -/
  | dspSetSecureSlot (k : Fin 32)
  /-- DSP_SET_LATCH (R163). Sets an output's LOOKAHEAD_LINES and BERM_LINES by internal commit. -/
  | dspSetLatch (k : Fin 32)
  /-- DSP_SET_BUDGET (R170). Sets an output's fetch and layer-pixel budgets by internal commit. -/
  | dspSetBudget (k : Fin 32)
  /-- DSP_SET_BACKGROUND (R171). Sets an output's background colour from the next latch point. -/
  | dspSetBackground (k : Fin 32)
  /-- DSP_SET_SECURE_Z (R150). Polder 0 sets the z from which positions are reserved to it on an output. -/
  | dspSetSecureZ (k : Fin 32)
  /-- BAND_ELIGIBLE (R175). At line 16b minus LOOKAHEAD_LINES a band's tiles become eligible and take pool entries. -/
  | bandEligible (n : Fin 8) (b : Fin 512)
  /-- TILE_DISPATCH (R176). An idle engine in service is given the first eligible unstarted tile by deadline order. -/
  | tileDispatch
  /-- TILE_COMPLETE (R178). An engine finishes a tile; the pool accepts the write only from the holder with the current epoch before the deadline. -/
  | tileComplete (e : Fin 32)
  /-- ENGINE_FAULT (R179). An uncorrectable error in an engine's local buffers resets it and is reported as a shared fault. -/
  | engineFault (e : Fin 32)
  /-- ENGINE_WATCHDOG (R179). An engine that holds a tile longer than CMP_ENG_WDOG cycles is reset. -/
  | engineWatchdog (e : Fin 32)
  /-- ENGINE_RESET (R178). A reset engine's tile is requeued with a new epoch or abandoned; three faults in 1 s take it out of service. -/
  | engineReset (a : Access) (addr : BitVec 40) (v : BitVec 32)
  /-- ENGINE_RETURN (R178). 64 cycles after its reset the engine returns to service. -/
  | engineReturn (e : Fin 32)
  /-- LAYER_UNDERRUN (R196). At a tile's fetch deadline, layers with incomplete data are dropped for the rest of the frame and reported. -/
  | layerUnderrun (n : Fin 8) (b : Fin 512) (t : Fin 32) (m : Fin 64)
  /-- TILE_ABANDONED (R197). A tile not finished at its deadline is abandoned and its pool entry keeps the older tag. -/
  | tileAbandoned (n : Fin 8) (b : Fin 512) (t : Fin 32)
  /-- WB_BAND_COMPLETE (R194). A write-back band copy finishes; band-complete goes to bound sessions and progress is updated. -/
  | wbBandComplete (n : Fin 8) (b : Fin 512)
  /-- WB_BAND_DROP (R194). A band copy not finished by line 16(b + 2) is abandoned and band-complete carries the dropped flag. -/
  | wbBandDrop (n : Fin 8) (b : Fin 512)
  /-- POOL_ENTRY_RELEASE (R192). At line 16(b + 2), or once scan-out and write-back are done, a band's pool entries are released. -/
  | poolEntryRelease (n : Fin 8) (b : Fin 512)
  /-- DSP_GET_ENGINES (R32). Returns engine busy, offline, steal and requeue counts. -/
  | dspGetEngines (k : Fin 32)
  /-- DSP_GET_SCALER (R32). Returns coefficients of an output's scaler table. -/
  | dspGetScaler (k : Fin 32)
  /-- DSP_SET_COMPOSE (R200). Sets an output's fetch guard and dithering by internal commit. -/
  | dspSetCompose (k : Fin 32)
  /-- DSP_SET_WRITEBACK (R195). Sets an output's write-back control, stride and frame buffers after an ownership check. -/
  | dspSetWriteback (k : Fin 32)
  /-- DSP_SET_SCALER (R200). Writes shadow scaler coefficients and optionally commits them. -/
  | dspSetScaler (k : Fin 32)
  /-- REGION_COMPARE (R216). When a region's last pixel passes the link encoder, its signature is compared with the expected value and its status set. -/
  | regionCompare (n : Fin 8) (r : Fin 16)
  /-- ATTEST_RECORD (R222). At line V_ACTIVE the dike watch forms the frame's authenticated record, writes it to the ring if enabled and streams copies. -/
  | attestRecord (n : Fin 8)
  /-- MOTION_READ_DONE (R211). A motion-window read completes and updates the slot's frozen run. -/
  | motionReadDone (m : Fin 64)
  /-- AUTO_READ_DONE (R218). An AUTO region's read of its subject completes and yields the expected value. -/
  | autoReadDone (n : Fin 8) (r : Fin 16)
  /-- EXPECT_PUSH (R217). A write of EXPECT_PUSH queues a (value, tag) pair for a region, or overflows. -/
  | expectPush (a : Access) (addr : BitVec 40) (v : BitVec 32)
  /-- DKW_BREACH_CLEAR (R221). Polder 0 writes 1 to a breach bit; the action is lifted at the next latch point unless the region breaches again. -/
  | dkwBreachClear (a : Access) (addr : BitVec 40) (v : BitVec 32)
  /-- DKW_RELEARN (R219). A write of RELEARN makes a LEARN region's next frame a learning frame. -/
  | dkwRelearn (a : Access) (addr : BitVec 40) (v : BitVec 32)
  /-- DKW_KEY_LOAD (R224). DKW_KEY_CTRL.load takes the MAC key into use and restarts every chain. -/
  | dkwKeyLoad (a : Access) (addr : BitVec 40) (v : BitVec 32)
  /-- DKW_RING_ENABLE (R225). A 0 to 1 change of ring enable takes base and size, zeroes the indices and restarts the chains. -/
  | dkwRingEnable (a : Access) (addr : BitVec 40) (v : BitVec 32)
  /-- DKW_HEAD_SNAP (R227). Latches the device time and every output's latest frame and mac. -/
  | dkwHeadSnap (a : Access) (addr : BitVec 40) (v : BitVec 32)
  /-- DKW_IMAGE_WRITE (R213). A write of a treatment image entry is applied, or refused when a slot or region in force refers to it. -/
  | dkwImageWrite (a : Access) (addr : BitVec 40) (v : BitVec 32)
  /-- DKW_GET_LAYER (R464). Returns a slot's live-class settings and judged state. -/
  | dkwGetLayer (k : Fin 32)
  /-- DKW_GET_REGION (R32). Returns a region's settings, last signature, status and expected value. -/
  | dkwGetRegion (k : Fin 32)
  /-- DKW_GET_RING (R32). Returns the ring control, indices, overrun count and key state. -/
  | dkwGetRing (k : Fin 32)
  /-- DKW_SET_LAYER_LIVE (R201). The warden sets the live class and limits of a slot of polders 1-31 by internal commit. -/
  | dkwSetLayerLive (k : Fin 32)
  /-- DKW_SET_SECURE_LAYER (R201). Polder 0 sets the live class and limits of any slot by internal commit. -/
  | dkwSetSecureLayer (k : Fin 32)
  /-- DKW_SET_REGION (R214). Polder 0 configures a supervised region by commit. -/
  | dkwSetRegion (k : Fin 32)
  /-- DKW_SET_IMAGE (R213). Polder 0 writes a treatment image table entry. -/
  | dkwSetImage (k : Fin 32)
  /-- DKW_SET_KEY (R224). Polder 0 writes and loads the attestation MAC key. -/
  | dkwSetKey (k : Fin 32)
  /-- DKW_SET_RING (R229). Polder 0 sets the ring base, size, enable and streaming. -/
  | dkwSetRing (k : Fin 32)
  /-- VSYNC (R233). At line VSYNC_START the frame counter increments and VSYNC is raised. -/
  | vsync (n : Fin 8)
  /-- FLIP (R234). When the first pixel of line 0 passes to the link encoder, FLIP is raised, stamped and lock error is measured and trimmed. -/
  | flip (n : Fin 8)
  /-- TILE_SCAN (R235). At a tile's deadline scan-out passes the tile only if its written bit, band and tag match, else sends the no-picture fill. -/
  | tileScan (n : Fin 8)
  /-- HPD_POLL (R245). Every 2 ms Tujan reads the HPD detectors and services plugs, unplugs and IRQ_HPD pulses. -/
  | hpdPoll (reads : List (Fin 6 × HpdRead × Trained))
  /-- LINK_STATUS_POLL (R247). Every 100 ms the sink's link status is read and a lost link is retrained or lowered. -/
  | linkStatusPoll (n : Fin 6) (lost : Bool) (t : Trained)
  /-- MODE_TIMING_STOP (R241). At line V_ACTIVE of the current frame after a mode set, the old timing stops and Tujan reconfigures the output. -/
  | modeTimingStop (n : Fin 8)
  /-- MODE_TIMING_START (R241). After reconfiguration, the new timing starts at VSYNC_START with the frame counter incremented. -/
  | modeTimingStart (n : Fin 8) (trained : Bool)
  /-- DSP_GET_OUTPUT (R32). Returns an output's timing, format, link, lock and frame registers. -/
  | dspGetOutput (k : Fin 32)
  /-- DSP_GET_SINK (R462). Returns a sink's capabilities and copies its EDID or DisplayID. -/
  | dspGetSink (k : Fin 32)
  /-- DSP_SET_MODE (R241). Validates and sets or switches off an output's mode. -/
  | dspSetMode (k : Fin 32)
  /-- DSP_SET_LOCK (R249). Sets an output's presentation lock enable, method, group and phase. -/
  | dspSetLock (k : Fin 32)
  /-- DSP_SET_FILL (R236). Sets an output's no-picture fill. -/
  | dspSetFill (k : Fin 32)
  /-- GFX_DOORBELL (R260). A write of GFX_CTXw_DOORBELL queues the staged submission or reports why not. -/
  | gfxDoorbell (a : Access) (addr : BitVec 40) (v : BitVec 32)
  /-- GFX_BOUNDARY (R266). At the end of a draw, tile or batch, freed clusters go to the highest-priority work and queues are refilled. -/
  | gfxBoundary (p : Fin 32) (w : Fin 16) (clusters : BitVec 16) (work : List GfxAccess)
  /-- GFX_SUBMISSION_DONE (R261). When a submission's accesses complete and are visible, its fence is written and DONE updated. -/
  | gfxSubmissionDone (p : Fin 32) (w : Fin 16)
  /-- NOP (R263). The NOP packet is skipped. -/
  | nop (p : Fin 32) (w : Fin 16)
  /-- CALL (R263). The CALL packet executes another command buffer, at most two levels deep. -/
  | call (p : Fin 32) (w : Fin 16)
  /-- STATE (R256). The STATE packet sets driver-defined pipeline state. -/
  | state (p : Fin 32) (w : Fin 16)
  /-- DRAW (R265). The DRAW packet bins one draw, followed by a draw boundary. -/
  | draw (p : Fin 32) (w : Fin 16) (d : DrawWork)
  /-- DISPATCH (R265). The DISPATCH packet runs a compute dispatch in batches of at most 4,096 workgroups. -/
  | dispatch (p : Fin 32) (w : Fin 16)
  /-- RENDER_BEGIN (R263). The RENDER_BEGIN packet opens a render pass and starts binning. -/
  | renderBegin (p : Fin 32) (w : Fin 16)
  /-- RENDER_END (R274). The RENDER_END packet renders every binned tile and writes attachments and flags. -/
  | renderEnd (p : Fin 32) (w : Fin 16) (tiles : Nat) (clears : List FastClear)
  /-- WAIT_GE (R264). The WAIT_GE packet waits until a memory word reaches a value. -/
  | waitGe (p : Fin 32) (w : Fin 16)
  /-- WAIT_GE_MET (R264). A polled word reaches the WAIT_GE value and the context continues. -/
  | waitGeMet (p : Fin 32) (w : Fin 16)
  /-- WAIT_GE_TIMEOUT (R264). A WAIT_GE timeout passes and the context stops with fault reason 9. -/
  | waitGeTimeout (p : Fin 32) (w : Fin 16)
  /-- WRITE64 (R263). The WRITE64 packet writes a value once earlier work is complete and visible. -/
  | write64 (p : Fin 32) (w : Fin 16)
  /-- TIMESTAMP (R263). The TIMESTAMP packet writes the device time of completion. -/
  | timestamp (p : Fin 32) (w : Fin 16)
  /-- RESIDENCY_INV (R278). The RESIDENCY_INV packet makes later accesses use the residency map as it now stands. -/
  | residencyInv (p : Fin 32) (w : Fin 16)
  /-- BARRIER (R263). The BARRIER packet holds later packets until earlier work completes. -/
  | barrier (p : Fin 32) (w : Fin 16)
  /-- GFX_WATCHDOG (R268). A boundary unit holding a cluster beyond GFX_WDOG resets its clusters and stops the context. -/
  | gfxWatchdog (p : Fin 32) (w : Fin 16)
  /-- GFX_GET_INFO (R32). Returns cluster count, tessellation limit, reserve and priority-3 allowance. -/
  | gfxGetInfo (k : Fin 32)
  /-- GFX_GET_CONTEXT (R32). Returns a window's context status and the polder's area. -/
  | gfxGetContext (k : Fin 32)
  /-- GFX_CTX_SETUP (R258). Binds a granted context to a window with class, priority and save area. -/
  | gfxCtxSetup (k : Fin 32)
  /-- GFX_CTX_SET_PRIORITY (R282). Changes a bound context's priority at its next boundary. -/
  | gfxCtxSetPriority (k : Fin 32)
  /-- GFX_CTX_RESTART (R279). Restarts a stopped context, discarding the faulting or every queued submission. -/
  | gfxCtxRestart (k : Fin 32)
  /-- GFX_CTX_RELEASE (R270). Releases a window's context when it holds no work. -/
  | gfxCtxRelease (k : Fin 32)
  /-- GFX_SET_AREA (R269). Sets a polder's working area in K6-K7. -/
  | gfxSetArea (k : Fin 32)
  /-- GFX_SET_RESERVE (R267). Sets the number of clusters reserved for priority 3. -/
  | gfxSetReserve (k : Fin 32)
  /-- GFX_SET_RT (R282). Sets which polders may use priority 3. -/
  | gfxSetRt (k : Fin 32)
  /-- GFX_SET_SECURE_FLOOR (R267). Polder 0 sets the minimum reserved cluster count. -/
  | gfxSetSecureFloor (k : Fin 32)
  /-- VCD_DOORBELL (R290). A write of VCD_SESs_DOORBELL queues an access unit or source picture. -/
  | vcdDoorbell (a : Access) (addr : BitVec 40) (v : BitVec 32)
  /-- VCD_UNIT_START (R285). An idle codec engine takes the next ready unit chosen by share and picture age. -/
  | vcdUnitStart (e : Fin 16) (ready : List ReadyUnit)
  /-- VCD_UNIT_DONE (R286). An engine finishes a unit and its writes are accepted under the epoch rule. -/
  | vcdUnitDone (e : Fin 16) (how : UnitEnd)
  /-- VCD_ENG_RESET (R286). A codec engine is reset and its unit requeued with a new epoch, or its picture lost. -/
  | vcdEngReset (a : Access) (addr : BitVec 40) (v : BitVec 32)
  /-- VCD_PIC_WATCHDOG (R297). A picture exceeding 6 engine cycles per luma sample resets its engines and is marked lost. -/
  | vcdPicWatchdog (k : Fin 64)
  /-- VCD_PICTURE_OUTPUT (R295). A decoded picture is output in display order and queued to each bound slot with a heartbeat. -/
  | vcdPictureOutput (k : Fin 64) (i : Fin 24)
  /-- ENC_ROW_START (R301). An encode CTU row starts once the band-complete events it needs have arrived. -/
  | encRowStart (e : Fin 16) (ready : List ReadyUnit)
  /-- ENC_ROW_DONE (R306). An encoded row's slice chunk is written to the ring and forwarded, or discarded when the ring is full. -/
  | encRowDone (e : Fin 16) (slice params : List (BitVec 8))
  /-- ENC_RING_RESUME (R307). When the consumer frees ring room after a loss, a gap chunk is written and the next picture is a key picture. -/
  | encRingResume (k : Fin 64)
  /-- VCD_KEYREQ (R303). A write of VCD_SESs_KEYREQ requests a key picture. -/
  | vcdKeyreq (a : Access) (addr : BitVec 40) (v : BitVec 32)
  /-- CAP_PICTURE_DONE (R309). When a captured picture's last line is written it is queued to the slot with its capture time and a heartbeat, or dropped. -/
  | capPictureDone (c : Fin 4) (ago : Nat) (lines : List (List (Fin 1024 × Fin 1024 × Fin 1024)))
  /-- CAP_SIGNAL (R310). Loss of signal, a source change or HDCP stops a capture input and notifies. -/
  | capSignal (c : Fin 4) (src : CapSource)
  /-- VCD_GET_INFO (R32). Returns decode and encode loads and offline engines. -/
  | vcdGetInfo (k : Fin 32)
  /-- VCD_GET_SESSION (R32). Returns a session's descriptor, status and crop. -/
  | vcdGetSession (k : Fin 32)
  /-- CAP_GET_INPUT (R32). Returns a capture input's registers or buffers. -/
  | capGetInput (k : Fin 32)
  /-- VCD_OPEN_DECODE (R288). Opens a decode session from a descriptor. -/
  | vcdOpenDecode (k : Fin 32)
  /-- VCD_OPEN_ENCODE (R299). Opens an encode session from a descriptor. -/
  | vcdOpenEncode (k : Fin 32)
  /-- VCD_CLOSE (R288). Closes a session once its work has stopped and entries are released. -/
  | vcdClose (k : Fin 32)
  /-- VCD_BIND_SLOTS (R295). Binds a decode session to up to four slots. -/
  | vcdBindSlots (k : Fin 32)
  /-- VCD_RESTART (R107). Restarts a stopped session. -/
  | vcdRestart (k : Fin 32)
  /-- CAP_SET_INPUT (R308). Binds a capture input to a slot and buffers. -/
  | capSetInput (k : Fin 32)
  /-- AUD_BLOCK (R325). At each 64-sample block boundary of a domain, programs run the block and rings, gains, swaps and endpoints advance. -/
  | audBlock (d : Fin 3) (rx : List (Fin 256 × List (BitVec 32))) (slips : List (Fin 8 × Bool))
  /-- AUD_SWAP (R326). A write of AUD_SWAP makes the staged program active at the next block boundary with an optional crossfade. -/
  | audSwap (a : Access) (addr : BitVec 40) (v : BitVec 32)
  /-- AUD_GAIN_WRITE (R327). A write of AUD_GAINg ramps the gain over the next block. -/
  | audGainWrite (a : Access) (addr : BitVec 40) (v : BitVec 32)
  /-- AUD_RING_ENABLE (R328). Enabling a ring port checks its ownership. -/
  | audRingEnable (a : Access) (addr : BitVec 40) (v : BitVec 32)
  /-- AUD_DOMAIN_LOCK (R314). A slaved domain locks after 100 ms within range, or loses its reference after 1 ms without an edge. -/
  | audDomainLock (d : Fin 3) (seen : Option (BitVec 16))
  /-- AUD_METER_CLR (R328). A write of AUD_METER_CLR clears meters. -/
  | audMeterClr (a : Access) (addr : BitVec 40) (v : BitVec 32)
  /-- AUD_GET_INFO (R32). Returns domain settings, status and load. -/
  | audGetInfo (k : Fin 32)
  /-- AUD_GET_PROGRAM (R32). Returns a polder's program status and CRCs. -/
  | audGetProgram (k : Fin 32)
  /-- AUD_GET_PATHS (R325). Returns the active path table. -/
  | audGetPaths (k : Fin 32)
  /-- AUD_LOAD_PROGRAM (R324). Checks an image and makes it the polder's staged program. -/
  | audLoadProgram (k : Fin 32)
  /-- AUD_UNLOAD (R324). Unloads the staged program, or ramps out the active one. -/
  | audUnload (k : Fin 32)
  /-- AUD_SET_BRIDGE (R318). Sets a bridge's domains and enable. -/
  | audSetBridge (k : Fin 32)
  /-- AUD_SET_SIDETONE (R329). Sets a side-tone unit's channels, gain and enable. -/
  | audSetSidetone (k : Fin 32)
  /-- AUD_SET_DOMAIN (R313). Sets a domain's reference and rate. -/
  | audSetDomain (k : Fin 32)
  /-- AUD_SET_TDM (R316). Configures a TDM port. -/
  | audSetTdm (k : Fin 32)
  /-- AUD_SET_AES67 (R317). Sets the AES67 channels' domain. -/
  | audSetAes67 (k : Fin 32)
  /-- HAP_TRIGGER (R335). A trigger starts, replaces, defers or drops an effect on a haptic channel. -/
  | hapTrigger (a : Access) (addr : BitVec 40) (v : BitVec 32)
  /-- HAP_CONTROL_SAMPLE (R332). Each 62.5 µs sense frame runs the acceleration loop, ends effects, starts braking and pending triggers. -/
  | hapControlSample (c : Fin 8) (frame : BitVec 32) (current : BitVec 16)
  /-- HAP_OVERDRIVE_END (R333). The overdrive window ends and the current limit returns to inom. -/
  | hapOverdriveEnd (c : Fin 8)
  /-- HAP_BRAKE_END (R334). Braking ends after 16 samples below rest or brake_max, and the channel goes idle or starts a pending effect. -/
  | hapBrakeEnd (c : Fin 8)
  /-- HAP_OVERCURRENT (R336). Current above ilim in three ADC samples turns the gates off and puts the channel in fault. -/
  | hapOvercurrent (c : Fin 8) (a b d : BitVec 16)
  /-- HAP_SENSE_LOST (R336). 16 frames without valid flags put the channel in open loop until 16 valid frames close it. -/
  | hapSenseLost (c : Fin 8)
  /-- HAP_GET_CHANNEL (R32). Returns a haptic channel's registers. -/
  | hapGetChannel (k : Fin 32)
  /-- HAP_SET_CHANNEL (R337). Sets a haptic channel's drive, limit, sense and model. -/
  | hapSetChannel (k : Fin 32)
  /-- HAP_RESTART (R336). Restarts a channel in fault. -/
  | hapRestart (k : Fin 32)
  /-- TOUCH_FRAME (R348). At the end of a touch frame, contacts and sliders are computed, owned, queued, and hops, noise mode and click rules applied. -/
  | touchFrame (c : Fin 2) (steps : List (List (BitVec 16))) (sat : List (Fin 6 × Fin 64)) (listen : List (List (BitVec 16)))
  /-- TCH_START (R354). A channel starts from its baseline snapshot or from averaged raw frames. -/
  | tchStart (c : Fin 2)
  /-- TCH_LONG_CONTACT (R356). After 10 minutes of contact a long-contact record goes to the owner. -/
  | tchLongContact (c : Fin 2) (id : Fin 20)
  /-- TCH_STUCK (R356). A contact lasting stuck_s seconds is ended and its nodes re-baselined. -/
  | tchStuck (c : Fin 2) (id : Fin 20)
  /-- TOUCH_WAKE_RECORD (R357). A held wake record is written to polder 0's queue once it can be. -/
  | touchWakeRecord (c : Fin 2)
  /-- TCH_QUEUE_ENABLE (R348). Enabling a touch queue checks ownership of the ring. -/
  | tchQueueEnable (a : Access) (addr : BitVec 40) (v : BitVec 32)
  /-- TCH_GET_INFO (R347). Returns a channel's settings, status and noise levels. -/
  | tchGetInfo (k : Fin 32)
  /-- TCH_SET_CLICK (R353). Sets a click rule. -/
  | tchSetClick (k : Fin 32)
  /-- TCH_SET_CHANNEL (R338). Sets a touch channel's scan settings. -/
  | tchSetChannel (k : Fin 32)
  /-- TCH_SET_MAP (R344). Sets the panel-to-output mapping. -/
  | tchSetMap (k : Fin 32)
  /-- TCH_SET_SLIDER (R352). Defines a slider or wheel. -/
  | tchSetSlider (k : Fin 32)
  /-- TCH_CALIBRATE (R340). Starts calibration of compensation codes over 64 frames. -/
  | tchCalibrate (k : Fin 32)
  /-- TCH_CALIBRATE_DONE (R340). Calibration completes after 64 frames and replies ST_OK. -/
  | tchCalibrateDone (c : Fin 2)
  /-- TCH_SAVE_SNAPSHOT (R355). Writes the baseline snapshot to flash. -/
  | tchSaveSnapshot (k : Fin 32)
  /-- TCH_REBASELINE (R342). Re-baselines every node at the next frame. -/
  | tchRebaseline (k : Fin 32)
  /-- TCH_GET_NODES (R347). Copies one node table to a buffer. -/
  | tchGetNodes (k : Fin 32)
  /-- ONL_LINK (R360). A switch port's link comes up or goes down. -/
  | onlLink (p : Fin 6) (up : Bool)
  /-- PTP_SYNC (R367). A Sync message updates the offset, slews or steps device time and may change the time state. -/
  | ptpSync (p : Fin 6) (domain : BitVec 8) (interval : Nat) (offset filtered : Int)
  /-- PTP_SYNC_TIMEOUT (R364). No valid Sync for 3 intervals moves SYNC to HOLDOVER. -/
  | ptpSyncTimeout (announce : Bool)
  /-- HOLDOVER_EXPIRY (R364). Holdover lasting its limit moves the time state to LOST. -/
  | holdoverExpiry
  /-- HELLO_SEND (R371). Every 1 s the device sends HELLO. -/
  | helloSend
  /-- HELLO (R371). A received HELLO joins or updates a peer, or reveals a duplicate device number. -/
  | hello (h : OnaderHeader) (len : Nat) (x : HelloInfo)
  /-- PEER_TIMEOUT (R371). A peer silent for 3 s leaves the peer table. -/
  | peerTimeout (d : Fin 16384)
  /-- DUPLICATE_CLEAR (R371). 5 s without a duplicate HELLO lets the device resume sending Onader classes. -/
  | duplicateClear
  /-- SCHED_SEND (R372). Every 1 s the group owner sends its SCHED. -/
  | schedSend
  /-- SCHED (R373). A received SCHED with a higher version is held for its effective time. -/
  | sched (h : OnaderHeader) (len : Nat) (x : SchedInfo)
  /-- SCHED_APPLY (R373). At its effective time a schedule is applied to the group's outputs. -/
  | schedApply (i : Fin 8)
  /-- SLICE (R376). A received slice fragment is reassembled and a complete picture submitted to its session. -/
  | slice (h : OnaderHeader) (payload : List (BitVec 8))
  /-- RX_TIMEOUT (R376). rx_timeout after a picture's first fragment, the incomplete picture is submitted. -/
  | rxTimeout (n : Fin 65536)
  /-- KEYREQ (R377). A received KEYREQ raises a key request for the encode sessions forwarding the stream. -/
  | keyreq (h : OnaderHeader) (len : Nat) (n : Fin 65536)
  /-- MGR_OPEN (R379). A manager OPEN is answered with a CHALLENGE, or refused. -/
  | mgrOpen (h : OnaderHeader) (addr : BitVec 128) (payload : List (BitVec 8))
  /-- MGR_CONFIRM (R379). A valid CONFIRM within 1 s opens the manager session. -/
  | mgrConfirm (h : OnaderHeader) (payload : List (BitVec 8))
  /-- MGR_MESSAGE (R380). A kind 4 manager message is pushed to channel 62 and acknowledged. -/
  | mgrMessage (h : OnaderHeader) (payload : List (BitVec 8))
  /-- MGR_ACK (R380). A kind 5 acknowledgement removes the head of channel 63. -/
  | mgrAck (h : OnaderHeader) (payload : List (BitVec 8))
  /-- MGR_KEEPALIVE (R380). A kind 6 frame keeps the session alive. -/
  | mgrKeepalive (h : OnaderHeader) (payload : List (BitVec 8))
  /-- MGR_CLOSE (R380). A kind 7 CLOSE ends the session. -/
  | mgrClose (h : OnaderHeader) (payload : List (BitVec 8))
  /-- MGR_RESEND (R380). Every 100 ms the head of channel 63 is resent until acknowledged. -/
  | mgrResend
  /-- MGR_SESSION_TIMEOUT (R380). 2 s without a valid frame ends the session, vacating a remote-manager warden. -/
  | mgrSessionTimeout
  /-- NET_GET_INFO (R32). Returns identity, status, time state, offset and time. -/
  | netGetInfo (k : Fin 32)
  /-- NET_GET_PEERS (R32). Copies the peer table. -/
  | netGetPeers (k : Fin 32)
  /-- NET_GET_GROUP (R32). Returns a group's schedule. -/
  | netGetGroup (k : Fin 32)
  /-- NET_GET_STREAM (R378). Returns a receive stream's lateness and counts. -/
  | netGetStream (k : Fin 32)
  /-- NET_SET_TX_STREAM (R375). Binds a transmit stream to the sender's polder. -/
  | netSetTxStream (k : Fin 32)
  /-- NET_SET_RX_STREAM (R376). Binds a receive stream to a decode session. -/
  | netSetRxStream (k : Fin 32)
  /-- NET_CLEAR_STREAM (R378). Clears a stream's statistics. -/
  | netClearStream (k : Fin 32)
  /-- NET_SET_IDENTITY (R370). Sets the device's network identity. -/
  | netSetIdentity (k : Fin 32)
  /-- NET_SET_PORT (R360). Configures a switch port. -/
  | netSetPort (k : Fin 32)
  /-- NET_SET_PTP (R364). Sets PTP mode, domain, holdover and step threshold. -/
  | netSetPtp (k : Fin 32)
  /-- NET_SET_MACSEC (R362). Installs a MACsec secure association. -/
  | netSetMacsec (k : Fin 32)
  /-- NET_SET_QBV (R361). Installs a port's gate control list. -/
  | netSetQbv (k : Fin 32)
  /-- NET_SET_GROUP (R372). Sets, owns or removes a lock group schedule. -/
  | netSetGroup (k : Fin 32)
  /-- NET_SET_EXPORT (R381). Sets the attestation and event export destination. -/
  | netSetExport (k : Fin 32)
  /-- NET_SET_AES67 (R382). Sets the AES67 streams. -/
  | netSetAes67 (k : Fin 32)
  /-- NET_SET_MGR_KEY (R379). Polder 0 installs the manager key, closing any session. -/
  | netSetMgrKey (k : Fin 32)
  /-- WEIR_SUMMARY (R390). When a code's bucket refills with suppressed occurrences pending, a summary record is written. -/
  | weirSummary (code : Fin 4096)
  /-- FREEZE_TIMEOUT (R393). A freeze's timeout passes and the ring thaws, writing the holding FIFO. -/
  | freezeTimeout
  /-- ARCHIVE_BLOCK_WRITE (R395). The pumping station writes an erase block of records to the archive region. -/
  | archiveBlockWrite
  /-- VAULT_QUEUE_WRITE (R397). A queued critical record is written to the vault's next slot. -/
  | vaultQueueWrite
  /-- VLT_METER_SYNC (R396). A write of VLT_METER_CTRL.sync starts copying the meter shadow into the older bank. -/
  | vltMeterSync (a : Access) (addr : BitVec 40) (v : BitVec 32)
  /-- METER_SYNC_DONE (R396). A meter sync completes with a new generation. -/
  | meterSyncDone
  /-- VLT_CNT_INC (R400). A write of VLT_CNT_INC increments a monotonic counter. -/
  | vltCntInc (a : Access) (addr : BitVec 40) (v : BitVec 32)
  /-- VLT_EXT_GO (R401). A write of VLT_EXT_CTRL.go extends a digest slot. -/
  | vltExtGo (a : Access) (addr : BitVec 40) (v : BitVec 32)
  /-- TAMPER_SAMPLE (R398). Every 250 ms tamper inputs are sampled and confirmed changes recorded. -/
  | tamperSample (pins : BitVec 4)
  /-- VBAT_MEASURE (R402). Hourly VBAT measurement sets vbat_low when low. -/
  | vbatMeasure (mv : BitVec 12)
  /-- RTC_SYNC (R399). Hourly while in SYNC, Tujan sets the real-time clock from device time. -/
  | rtcSync
  /-- POWER_FAIL (R403). PWRFAIL_N low for 1 µs starts the power-fail flush of the vault. -/
  | powerFail
  /-- POWER_FAIL_RESET (R430). At P + 2 ms after a flush the device resets and holds reset until PWRFAIL_N is high for 10 ms. -/
  | powerFailReset (r : ResetInfo)
  /-- CVU_START (R404). A write of CVU_CHc_START.go starts a CRC, SHA-256 or HMAC job. -/
  | cvuStart (a : Access) (addr : BitVec 40) (v : BitVec 32)
  /-- CVU_START_ABORT (R408). A write of CVU_CHc_START.abort stops the job at its next 64-byte boundary. -/
  | cvuStartAbort (a : Access) (addr : BitVec 40) (v : BitVec 32)
  /-- CVU_JOB_END (R407). A job ends done, mismatch, fault or aborted, and raises line 63 when enabled. -/
  | cvuJobEnd (c : Fin 8) (timeout : Option (BitVec 40))
  /-- EVR_GET_INFO (R32). Returns recorder sequence, status, loss and archive registers. -/
  | evrGetInfo (k : Fin 32)
  /-- EVR_READ (R388). Copies filtered live-ring records into the caller's buffer. -/
  | evrRead (k : Fin 32)
  /-- EVR_GET_WEIR (R391). Returns a code's weir settings. -/
  | evrGetWeir (k : Fin 32)
  /-- VLT_GET_STATUS (R32). Returns vault status, VBAT, clock and counters. -/
  | vltGetStatus (k : Fin 32)
  /-- VLT_GET_CRITICAL (R388). Copies the filtered critical records. -/
  | vltGetCritical (k : Fin 32)
  /-- CVU_GET_CHANNEL (R32). Returns a check channel's status, progress and result. -/
  | cvuGetChannel (k : Fin 32)
  /-- CVU_FIELD_CHECK (R409). Computes an HMAC over boot flash with a verifier's seed. -/
  | cvuFieldCheck (k : Fin 32)
  /-- CVU_RUN (R410). Starts a check job from a descriptor. -/
  | cvuRun (k : Fin 32)
  /-- CVU_SAVE (R408). Returns a channel's running value. -/
  | cvuSave (k : Fin 32)
  /-- CVU_LOAD (R408). Loads a channel's running value. -/
  | cvuLoad (k : Fin 32)
  /-- CVU_SET_KEY (R406). Sets a channel's HMAC key. -/
  | cvuSetKey (k : Fin 32)
  /-- CVU_ABORT (R408). Aborts a channel's job. -/
  | cvuAbort (k : Fin 32)
  /-- EVR_SET_WEIR (R392). Sets an unprotected code's weir mode, rate and burst. -/
  | evrSetWeir (k : Fin 32)
  /-- EVR_FREEZE (R393). Freezes or thaws the live ring. -/
  | evrFreeze (k : Fin 32)
  /-- EVR_SNAPSHOT (R394). Freezes, copies the whole ring and thaws within 1 ms. -/
  | evrSnapshot (k : Fin 32)
  /-- EVR_SET_ARCHIVE (R395). Sets the archive region and threshold. -/
  | evrSetArchive (k : Fin 32)
  /-- EVR_SET_SECURE_WEIR (R392). Polder 0 sets any code's weir entry. -/
  | evrSetSecureWeir (k : Fin 32)
  /-- EVR_SET_VAULT_SEV (R397). Polder 0 sets the vault severity threshold. -/
  | evrSetVaultSev (k : Fin 32)
  /-- VLT_SET_TAMPER (R398). Polder 0 configures the tamper inputs. -/
  | vltSetTamper (k : Fin 32)
  /-- VLT_SET_RTC (R399). Polder 0 sets the real-time clock. -/
  | vltSetRtc (k : Fin 32)
  /-- VLT_GET_METERS (R396). Polder 0 reads the newest valid meter bank. -/
  | vltGetMeters (k : Fin 32)
  /-- DEVICE_RESET (R413). A device reset returns every block but the vault to reset and starts the boot sequence. -/
  | deviceReset (pin : Bool) (r : ResetInfo)
  /-- TUJAN_WATCHDOG (R413). 500 ms without a firmware service resets the device. -/
  | tujanWatchdog (r : ResetInfo)
  /-- HOST_BOOT_WRITE (R419). In PCIe boot, the host's write of the image length to CRP_HOST_BOOT starts verification. -/
  | hostBootWrite (a : Access) (addr : BitVec 40) (v : BitVec 32)
  /-- DRAM_INIT_DONE (R141). DRAM training completes and init_done allows remaining segments to load. -/
  | dramInitDone (ok : Bool) (temp : BitVec 16)
  /-- HART_RELEASE (R423). When every segment is accepted, the harts start, Tujan reports ready and the claim window opens. -/
  | hartRelease
  /-- SPLASH_HEARTBEAT (R421). Every 250 ms Tujan writes the splash slot's heartbeat until polder 0 takes over. -/
  | splashHeartbeat
  /-- TELEMETRY_READ (R431). Every 10 ms the sensors are read and thermal warning and throttle are set or cleared. -/
  | telemetryRead (temps : List (BitVec 16)) (rails : List (BitVec 16))
  /-- THERMAL_SHUTDOWN (R432). A sensor at 125 °C for 1 ms starts hardware thermal shutdown. -/
  | thermalShutdown (sensor : Fin 12) (temp : BitVec 16)
  /-- QUIET_ACK (R424). A party's acknowledgement of preparing; the last one proceeds with QUIET entry. -/
  | quietAck (k : Fin 32)
  /-- QUIET_ACK_TIMEOUT (R424). 1 s without every acknowledgement ends the entry with ST_PWR_NACK. -/
  | quietAckTimeout
  /-- QUIET_ENTRY_DONE (R424). DRAM self-refresh entry completes and the state becomes QUIET. -/
  | quietEntryDone
  /-- WAKE_EVENT (R427). A wake event latches and starts exit from QUIET. -/
  | wakeEvent
  /-- QUIET_EXIT_DONE (R427). Outputs restart and the state becomes ACTIVE. -/
  | quietExitDone
  /-- SHUTDOWN_COMPLETE (R428). Shutdown work completes, or 2 s pass, and the vault drives SUPPLY_EN low. -/
  | shutdownComplete (complete : Bool)
  /-- STANDBY_WAKE (R428). WAKE_N low for 100 ms in STANDBY raises SUPPLY_EN. -/
  | standbyWake (r : ResetInfo)
  /-- THERMAL_RESTART (R432). 1 s after a thermal shutdown SUPPLY_EN rises again. -/
  | thermalRestart (r : ResetInfo)
  /-- PWR_GET_STATE (R32). Returns power status, domains and gates. -/
  | pwrGetState (k : Fin 32)
  /-- PWR_GET_TELEMETRY (R32). Returns temperatures, rail powers and thermal status. -/
  | pwrGetTelemetry (k : Fin 32)
  /-- BOOT_GET_INFO (R32). Returns boot status, svns and key revocations. -/
  | bootGetInfo (k : Fin 32)
  /-- PUMP_GET_STATUS (R32). Returns the pumping station's counters. -/
  | pumpGetStatus (k : Fin 32)
  /-- PWR_ENTER_QUIET (R424). Starts entry to QUIET with named outputs kept. -/
  | pwrEnterQuiet (k : Fin 32)
  /-- PWR_SHUTDOWN (R428). Starts a clean shutdown to STANDBY. -/
  | pwrShutdown (k : Fin 32)
  /-- PWR_SET_BLOCK (R412). Gates, ungates or resets a block. -/
  | pwrSetBlock (k : Fin 32)
  /-- PWR_RESET (R436). Resets the device with cause 6. -/
  | pwrReset (k : Fin 32) (r : ResetInfo)
  /-- PWR_SET_THERMAL (R431). Sets the thermal warning and throttle thresholds. -/
  | pwrSetThermal (k : Fin 32)
  /-- BOOT_OTP_PROGRAM (R415). Polder 0 as warden blows bits of an OTP field. -/
  | bootOtpProgram (k : Fin 32)
  /-- PMBUS_STEP (R439). Each 1 ms Tujan moves an adaptive rail's set point by at most 10 mV. -/
  | pmbusStep (rail : Fin 2) (target : BitVec 12) (ack : Bool)
  /-- UART_DATA_WRITE (R448). A write of GIO_UARTu_DATA pushes a byte to transmit. -/
  | uartDataWrite (a : Access) (addr : BitVec 40) (v : BitVec 32)
  /-- UART_DATA_READ (R448). A read of GIO_UARTu_DATA pops a received byte with its flags. -/
  | uartDataRead (a : Access) (addr : BitVec 40)
  /-- UART_RX_BYTE (R448). A received byte is stored, or discarded with overrun, or a break stored. -/
  | uartRxByte (u : Fin 8) (byte : BitVec 8) (parityErr : Bool) (frameErr : Bool) (brk : Bool)
  /-- I2C_CMD (R449). A write of GIO_I2Ci_CMD queues a bus command. -/
  | i2cCmd (a : Access) (addr : BitVec 40) (v : BitVec 32)
  /-- I2C_RX_READ (R449). A read of GIO_I2Ci_RX pops a read byte. -/
  | i2cRxRead (a : Access) (addr : BitVec 40)
  /-- I2C_CMD_DONE (R449). A queued I2C command completes, or ends in NACK, lost arbitration or timeout. -/
  | i2cCmdDone (i : Fin 4) (r : I2cEnd)
  /-- SPI_TX_WRITE (R450). A write of GIO_SPIs_TX pushes a word to shift. -/
  | spiTxWrite (a : Access) (addr : BitVec 40) (v : BitVec 32)
  /-- SPI_RX_READ (R450). A read of GIO_SPIs_RX pops a received word. -/
  | spiRxRead (a : Access) (addr : BitVec 40)
  /-- SPI_WORD_DONE (R450). A word finishes shifting and its received word is stored or overflows. -/
  | spiWordDone (k : Fin 4) (rx : BitVec 32)
  /-- GPIO_OUT_SET (R451). A write of GIO_GPIOb_OUT_SET sets output bits. -/
  | gpioOutSet (a : Access) (addr : BitVec 40) (v : BitVec 32)
  /-- GPIO_OUT_CLR (R451). A write of GIO_GPIOb_OUT_CLR clears output bits. -/
  | gpioOutClr (a : Access) (addr : BitVec 40) (v : BitVec 32)
  /-- GPIO_EDGE (R451). A pin edge or level sets its interrupt status and may raise a wake event. -/
  | gpioEdge (pin : Fin 64) (level : Bool)
  /-- PCI_LINK_UP (R113). The PCIe link comes up again, after which the doorbells of location-3 polders are taken once their resets have completed. -/
  | pciLinkUp
  /-- UNDEFINED_OPCODE (R57). Tujan takes a request whose opcode is not defined for its group and class and replies ST_UNSUPPORTED. -/
  | undefinedOpcode (k : Fin 32)
  /-- CUSTOM0_RESERVED_FUNCT3 (R61). A custom-0 instruction with funct3 from 0b011 to 0b111 raises an illegal-instruction exception. -/
  | custom0ReservedFunct3 (h : Fin 8) (w : BitVec 32)
  /-- TRAP_TO_SUPERVISOR (R69). A trap or interrupt delegated to supervisor mode is taken using the bank of the world in which it occurs. -/
  | trapToSupervisor (h : Fin 8) (interrupt : Bool) (code : Fin 64) (tval : BitVec 64)
  /-- GFX_CLUSTER_FAULT (R279). A hardware fault in a shader cluster stops the context using it with fault reason 5. -/
  | gfxClusterFault (c : Fin 16)
  /-- OCM_SCRUB_READ (R124). The scrubber reads an OCM word, correcting or poisoning it under R123, with its priority boost after 100 µs without a grant. -/
  | ocmScrubRead (bank : Fin 12) (ecc : Ecc)
  /-- ETHERNET_FRAME_RX (R361). A frame received on a switch port is forwarded, dropped for a full egress queue or missing MACsec protection, or discarded as an invalid Onader frame. -/
  | ethernetFrameRx (f : EthFrame)
  /-- QBV_LIST_START (R361). At the start time named in NET_SET_QBV the gate control list takes effect and its gates begin cycling on device time. -/
  | qbvListStart (p : Fin 6)
  /-- PTP_ANNOUNCE (R364). A received PTP Announce message can change the port in the slave state and the master, recording ONL_PTP_MASTER. -/
  | ptpAnnounce (p : Fin 6) (domain : BitVec 8) (a : AnnounceInfo)
  /-- EVENT_EXPORT_SEND (R381). Within 10 ms of being recorded, event records at or above the export severity are sent in EVENT frames of up to 40 records, or counted as export drops. -/
  | eventExportSend
  /-- AES67_PACKET_RX (R382). An AES67 packet is received into a stream's buffer, a missing one being played as zeros and counted. -/
  | aes67PacketRx (i : Fin 16) (t : BitVec 64) (frames : List (List (BitVec 32)))
  /-- TEARING_EFFECT_EDGE (R239). A rising edge of a command-mode panel's tearing-effect input after the latch point starts the frame transfer into the panel. -/
  | tearingEffectEdge (n : Fin 8)
  /-- UART_TX_DONE (R448). A UART finishes sending a byte, lowering tx_level and raising the tx_en interrupt condition when the FIFO empties. -/
  | uartTxDone (u : Fin 8)
  /-- TUJAN_FIRMWARE_START (R386). The Tujan manifest is accepted and loaded, Tujan firmware starts, records EVR_START first, and accepts the board record to start DRAM training. -/
  | tujanFirmwareStart (file : Option (List (BitVec 8)))
  /-- SPLASH_SEGMENT_LOADED (R421). The splash segment of the polder 0 image is loaded and checked, and Tujan sets the splash outputs' modes and their internal commit. -/
  | splashSegmentLoaded
  /-- DEBUG_HALT_REQUEST (R89). A halt request from the debugger is taken, ignored, or held until the first normal-world instruction after SLRET, as the enables decide. -/
  | debugHaltRequest (h : Fin 8)
  deriving DecidableEq, Repr

end Sys2Proof
end

