-- ==== Sys2Proof/Decode.lean ====
section
/-! DEFINITION. The command that a word spells. spec/opcode_table.json gives no row any bits: the block's steps are not encoded
in words, so no word spells a command. -/
namespace Sys2Proof

/-- The command a word spells by the table's bits: none (no row of the table has bits). -/
def decodeTableWord (_ _ : Nat) : Option Instr := none

end Sys2Proof
end

