-- ==== Sys2Proof/Machine/Bits.lean ====
section
/-! DEFINITION. Bit-field, sign and byte-order helpers, and the sparse table in which State holds everything that comes in
numbered instances. -/
namespace Sys2Proof.Machine

/-- A Boolean as a bit. -/
def b2n (b : Bool) : Nat := if b then 1 else 0

/-- `v` with bit `i` set to 1. -/
def setBit (v i : Nat) : Nat := v ||| 2 ^ i

/-- `v` with bit `i` set to 0. -/
def clrBit (v i : Nat) : Nat := if bit v i then v - 2 ^ i else v

/-- `v` with every bit that is 1 in `m` set to 0. -/
def andNot (v m : Nat) : Nat := v - (v &&& m)

/-- `a + b`, at most `2^w - 1` (a saturating counter of `w` bits). -/
def satAdd (w a b : Nat) : Nat := min (a + b) (2 ^ w - 1)

/-- `a + b` modulo `2^w` (a wrapping counter of `w` bits). -/
def wrapAdd (w a b : Nat) : Nat := (a + b) % 2 ^ w

/-- The signed value of a `w`-bit two's complement number. -/
def sgn (w v : Nat) : Int := if v % 2 ^ w < 2 ^ (w - 1) then (v % 2 ^ w : Nat) else (v % 2 ^ w : Nat) - (2 ^ w : Nat)

/-- The low `w` bits of an integer's two's complement. -/
def unsgn (w : Nat) (v : Int) : Nat := (v % (2 ^ w : Nat)).toNat

/-- An integer saturated to a signed `w`-bit field, as that field's bits. -/
def satSgn (w : Nat) (v : Int) : Nat :=
  unsgn w (max (-(2 ^ (w - 1) : Nat)) (min ((2 ^ (w - 1) : Nat) - 1) v))

/-- The `n` low bytes of a number, least significant first (R4). -/
def leBytes : Nat → Nat → List Nat
  | 0, _ => []
  | n + 1, v => v % 256 :: leBytes n (v / 256)

/-- The number that bytes spell, least significant first (R4). -/
def leNat : List Nat → Nat
  | [] => 0
  | b :: bs => b % 256 + 256 * leNat bs

/-- The `n` little-endian 32-bit words of a list of bytes. -/
def leWords : Nat → List Nat → List Nat
  | 0, _ => []
  | n + 1, bs => leNat (bs.take 4) :: leWords n (bs.drop 4)

/-- The bytes of little-endian 32-bit words. -/
def wordsBytes (ws : List Nat) : List Nat := ws.flatMap (leBytes 4)

/-- The low 32 bits of a number. -/
def lo32 (v : Nat) : Nat := v % 4294967296

/-- Bits [63:32] of a number. -/
def hi32 (v : Nat) : Nat := v / 4294967296 % 4294967296

/-- The numbers `0` to `n - 1` for which `p` holds. -/
def idxWhere (n : Nat) (p : Nat → Bool) : List Nat := (List.range n).filter p

/-- A quotient rounded up. -/
def ceilDiv (a b : Nat) : Nat := if b = 0 then 0 else (a + b - 1) / b

/-- The number whose bit `i` is `p i`, for `i < n` (a bitmap). -/
def bitmap (n : Nat) (p : Nat → Bool) : Nat := (List.range n).foldl (fun a i => if p i then a + 2 ^ i else a) 0

/-- The number of 1 bits among the low `n` bits of `v`. -/
def popCount (n v : Nat) : Nat := (List.range n).foldl (fun a i => if bit v i then a + 1 else a) 0

/-- The position of the lowest 1 bit below `n`. -/
def lowestBit (n v : Nat) : Option Nat := (List.range n).find? (bit v)

/-! ## Sparse tables -/

/-- A table over numbers with the entries that differ from a default listed, in rising order of their numbers. -/
abbrev Tab (α : Type) := List (Nat × α)

/-- The entry at `i`; `d` where none is listed. -/
def Tab.get {α : Type} (d : α) : Tab α → Nat → α
  | [], _ => d
  | (j, w) :: t, i => if i = j then w else Tab.get d t i

/-- The table with `v` at `i`. -/
def Tab.put {α : Type} : Tab α → Nat → α → Tab α
  | [], i, v => [(i, v)]
  | (j, w) :: t, i, v =>
    if i = j then (i, v) :: t
    else if i < j then (i, v) :: (j, w) :: t
    else (j, w) :: Tab.put t i v

/-- The table without an entry at `i`. -/
def Tab.del {α : Type} (t : Tab α) (i : Nat) : Tab α := t.filter (fun e => e.1 != i)

theorem Tab.get_put_same {α : Type} (d : α) (t : Tab α) (i : Nat) (v : α) : Tab.get d (Tab.put t i v) i = v := by
  induction t with
  | nil => simp [Tab.put, Tab.get]
  | cons e t ih =>
    obtain ⟨j, w⟩ := e
    by_cases h : i = j
    · simp [Tab.put, Tab.get, h]
    · by_cases h2 : i < j <;> simp [Tab.put, Tab.get, h, h2, ih]

theorem Tab.get_put_ne {α : Type} (d : α) (t : Tab α) (i k : Nat) (v : α) (hk : k ≠ i) :
    Tab.get d (Tab.put t i v) k = Tab.get d t k := by
  induction t with
  | nil => simp [Tab.put, Tab.get, hk]
  | cons e t ih =>
    obtain ⟨j, w⟩ := e
    by_cases h : i = j
    · subst h; simp [Tab.put, Tab.get, hk]
    · by_cases h2 : i < j
      · simp [Tab.put, Tab.get, h, h2, hk]
      · simp [Tab.put, Tab.get, h, h2, ih]

end Sys2Proof.Machine
end

