-- ==== Sys2Proof/Machine/Hash.lean ====
section
/-! DEFINITION. Check values and authentication codes: CRCs of any width (R215, R405), SHA-256 (FIPS 180-4) and HMAC-SHA-256
(RFC 2104), the functions that R210, R215, R222, R404 and R406 name. -/
namespace Sys2Proof.Machine

/-! ## CRC -/

/-- The low `w` bits of `v` in reverse order. -/
def reflect (w v : Nat) : Nat := bitmap w (fun i => bit v (w - 1 - i))

/-- One bit of a CRC in its unreflected form: register `c` of `w` bits, polynomial `poly`, input bit `b`. -/
def crcBit (w poly : Nat) (c : Nat) (b : Bool) : Nat :=
  let top := bit c (w - 1)
  let c1 := c * 2 % 2 ^ w
  if top != b then c1 ^^^ poly else c1

/-- One byte of a CRC, most significant bit first, or least significant first where the input is reflected. -/
def crcByte (w poly : Nat) (refin : Bool) (c byte : Nat) : Nat :=
  (List.range 8).foldl (fun c i => crcBit w poly c (bit byte (if refin then i else 7 - i))) c

/-- A CRC register after bytes. -/
def crcBytes (w poly : Nat) (refin : Bool) (c : Nat) (bs : List Nat) : Nat := bs.foldl (crcByte w poly refin) c

/-- CRC-32C (R215): polynomial 0x1EDC6F41, reflected in and out, initial value and final exclusive-or all ones. -/
def crc32c (bs : List Nat) : Nat := reflect 32 (crcBytes 32 0x1EDC6F41 true 0xFFFFFFFF bs) ^^^ 0xFFFFFFFF

/-! ## SHA-256 -/

/-- The round constants of FIPS 180-4. -/
def sha256K : List Nat :=
  [0x428a2f98, 0x71374491, 0xb5c0fbcf, 0xe9b5dba5, 0x3956c25b, 0x59f111f1, 0x923f82a4, 0xab1c5ed5,
   0xd807aa98, 0x12835b01, 0x243185be, 0x550c7dc3, 0x72be5d74, 0x80deb1fe, 0x9bdc06a7, 0xc19bf174,
   0xe49b69c1, 0xefbe4786, 0x0fc19dc6, 0x240ca1cc, 0x2de92c6f, 0x4a7484aa, 0x5cb0a9dc, 0x76f988da,
   0x983e5152, 0xa831c66d, 0xb00327c8, 0xbf597fc7, 0xc6e00bf3, 0xd5a79147, 0x06ca6351, 0x14292967] ++
  [0x27b70a85, 0x2e1b2138, 0x4d2c6dfc, 0x53380d13, 0x650a7354, 0x766a0abb, 0x81c2c92e, 0x92722c85,
   0xa2bfe8a1, 0xa81a664b, 0xc24b8b70, 0xc76c51a3, 0xd192e819, 0xd6990624, 0xf40e3585, 0x106aa070,
   0x19a4c116, 0x1e376c08, 0x2748774c, 0x34b0bcb5, 0x391c0cb3, 0x4ed8aa4a, 0x5b9cca4f, 0x682e6ff3,
   0x748f82ee, 0x78a5636f, 0x84c87814, 0x8cc70208, 0x90befffa, 0xa4506ceb, 0xbef9a3f7, 0xc67178f2]

/-- The initial hash value of FIPS 180-4. -/
def sha256Init : List Nat :=
  [0x6a09e667, 0xbb67ae85, 0x3c6ef372, 0xa54ff53a, 0x510e527f, 0x9b05688c, 0x1f83d9ab, 0x5be0cd19]

/-- A 32-bit rotation to the right. -/
def rotr32 (n v : Nat) : Nat := (v / 2 ^ n) ||| (v * 2 ^ (32 - n) % 4294967296)

/-- The message schedule, newest word first, extended by `n` words. -/
def sha256Extend : Nat → List Nat → List Nat
  | 0, w => w
  | n + 1, w =>
    let w2 := w.getD 1 0
    let w7 := w.getD 6 0
    let w15 := w.getD 14 0
    let w16 := w.getD 15 0
    let s0 := rotr32 7 w15 ^^^ rotr32 18 w15 ^^^ (w15 / 8)
    let s1 := rotr32 17 w2 ^^^ rotr32 19 w2 ^^^ (w2 / 1024)
    sha256Extend n (((w16 + s0 + w7 + s1) % 4294967296) :: w)

/-- One round of the compression function on the working variables a to h. -/
def sha256Round (v : List Nat) (kw : Nat × Nat) : List Nat :=
  match v with
  | [a, b, c, d, e, f, g, h] =>
    let s1 := rotr32 6 e ^^^ rotr32 11 e ^^^ rotr32 25 e
    let ch := (e &&& f) ^^^ ((4294967295 - e) &&& g)
    let t1 := h + s1 + ch + kw.1 + kw.2
    let s0 := rotr32 2 a ^^^ rotr32 13 a ^^^ rotr32 22 a
    let mj := (a &&& b) ^^^ (a &&& c) ^^^ (b &&& c)
    [(t1 + s0 + mj) % 4294967296, a, b, c, (d + t1) % 4294967296, e, f, g]
  | v => v

/-- A big-endian 32-bit word. -/
def beWord (bs : List Nat) : Nat := leNat (bs.take 4).reverse

/-- The `n` big-endian words of a block. -/
def beWords : Nat → List Nat → List Nat
  | 0, _ => []
  | n + 1, bs => beWord bs :: beWords n (bs.drop 4)

/-- The hash value after one 64-byte block. -/
def sha256Block (h : List Nat) (block : List Nat) : List Nat :=
  let w := (sha256Extend 48 (beWords 16 block).reverse).reverse
  List.zipWith (fun a b => (a + b) % 4294967296) h ((List.zip sha256K w).foldl sha256Round h)

/-- The hash value after `n` 64-byte blocks. -/
def sha256Blocks : Nat → List Nat → List Nat → List Nat
  | 0, h, _ => h
  | n + 1, h, bs => sha256Blocks n (sha256Block h (bs.take 64)) (bs.drop 64)

/-- The padding of a message of `len` bytes. -/
def sha256Pad (len : Nat) : List Nat :=
  128 :: List.replicate ((119 - len % 64) % 64) 0 ++ (leBytes 8 (8 * len)).reverse

/-- SHA-256 of bytes, as 32 bytes. -/
def sha256 (bs : List Nat) : List Nat :=
  let m := bs ++ sha256Pad bs.length
  (sha256Blocks (m.length / 64) sha256Init m).flatMap (fun w => (leBytes 4 w).reverse)

/-- HMAC-SHA-256 of bytes under a key of at most 64 bytes. -/
def hmacSha256 (key msg : List Nat) : List Nat :=
  let k := (key ++ List.replicate 64 0).take 64
  sha256 (k.map (· ^^^ 0x5C) ++ sha256 (k.map (· ^^^ 0x36) ++ msg))

end Sys2Proof.Machine
end

