-- ==== Sys2Proof/Machine/Codes.lean ====
section
/-! DEFINITION. The numbers the spec gives names to: event sources and their severities (Tables MAP-3 and MAP-4), reply
statuses (Table MBX-6 and each group's status table) and opcodes with their classes (every command table; Table MBX-5). -/
namespace Sys2Proof.Machine

/-! ## Event sources (Tables MAP-3 and MAP-4) -/
namespace Src

def CRP_BOOT : Nat := 0
def CRP_VERIFY_FAIL : Nat := 1
def CRP_POWER_STATE : Nat := 2
def CRP_THERMAL : Nat := 3
def CRP_WAKE : Nat := 4
def CRP_OTP : Nat := 5
def CRP_PUMP_LATE : Nat := 6
def CRP_REG_VIOLATION : Nat := 7
def CRP_POLDER_STATE : Nat := 8
def CRP_POLDER_SQUASH : Nat := 9
def MBX_RX : Nat := 16
def MBX_TX_OVERFLOW : Nat := 17
def MBX_CROSSWAIT : Nat := 18
def MBX_LOCK_VIOLATION : Nat := 19
def MBX_ACCESS_VIOLATION : Nat := 20
def MBX_WAKE : Nat := 21
def PLD_DENY : Nat := 32
def PLD_MODE_CHANGE : Nat := 33
def PLD_MAP_INVALID : Nat := 34
def PLD_MAP_ERROR : Nat := 35
def PLD_CLAIM_BLOCKED : Nat := 36
def EVR_LOSS : Nat := 40
def EVR_START : Nat := 41
def EVR_FREEZE : Nat := 42
def EVR_ARCHIVE_LOST : Nat := 43
def EVR_REG_VIOLATION : Nat := 44
def CVU_DONE : Nat := 48
def CVU_MISMATCH : Nat := 49
def CVU_FAULT : Nat := 50
def CVU_REG_VIOLATION : Nat := 51
def VLT_PWRFAIL : Nat := 56
def VLT_TAMPER : Nat := 57
def VLT_BATTERY : Nat := 58
def VLT_LOST : Nat := 59
def VLT_RTC_SET : Nat := 60
def VLT_CRIT_DROP : Nat := 61
def VLT_REG_VIOLATION : Nat := 62
def DMC_TRAINING_LOST : Nat := 64
def DMC_ECC_UNCORR : Nat := 65
def DMC_ECC_RETRY : Nat := 66
def DMC_REFRESH_FORCED : Nat := 67
def DMC_ROWHAMMER : Nat := 68
def DMC_RETRAIN_DONE : Nat := 69
def DMC_SELF_REFRESH : Nat := 70
def DMC_REG_VIOLATION : Nat := 71
def OCM_ECC_CORR : Nat := 72
def OCM_ECC_UNCORR : Nat := 73
def OCM_REGION_DENY : Nat := 74
def OCM_ALIAS_FAULT : Nat := 75
def OCM_SCRUB_PASS : Nat := 76
def OCM_REG_VIOLATION : Nat := 77
def CMP_COMMIT_APPLIED : Nat := 80
def CMP_COMMIT_REJECTED : Nat := 81
def CMP_FLIP_REJECTED : Nat := 82
def CMP_DOORBELL_VIOLATION : Nat := 83
def CMP_REG_VIOLATION : Nat := 84
def CMP_COMMIT_CANCELLED : Nat := 85
def CMP_LAYER_UNDERRUN : Nat := 86
def CMP_TILE_REQUEUED : Nat := 87
def CMP_TILE_ABANDONED : Nat := 88
def CMP_ENGINE_FAULT : Nat := 89
def CMP_WB_DROP : Nat := 90
def CMP_WB_DENY : Nat := 91
def DKW_BREACH : Nat := 96
def DKW_BREACH_CLEARED : Nat := 97
def DKW_STALE : Nat := 98
def DKW_FRESH : Nat := 99
def DKW_DEGRADED : Nat := 100
def DKW_EXPECT_OVERFLOW : Nat := 101
def DKW_MOTION_LATE : Nat := 102
def DKW_RING_OVERRUN : Nat := 103
def DKW_CHAIN_RESTART : Nat := 104
def DKW_KEY_LOADED : Nat := 105
def DKW_REG_VIOLATION : Nat := 106
def GFX_CTX_FAULT : Nat := 128
def GFX_SPILL : Nat := 129
def GFX_WATCHDOG : Nat := 130
def GFX_PREEMPT : Nat := 131
def GFX_DOORBELL_VIOLATION : Nat := 132
def GFX_REG_VIOLATION : Nat := 133
def VCD_SES_FAULT : Nat := 144
def VCD_PIC_LOST : Nat := 145
def VCD_CONCEALED : Nat := 146
def VCD_KEY_REQUEST_SENT : Nat := 147
def VCD_RC_OVERSHOOT : Nat := 148
def VCD_RING_FULL : Nat := 149
def VCD_ENGINE_FAULT : Nat := 150
def VCD_UNIT_REQUEUED : Nat := 151
def VCD_PIC_SKIPPED : Nat := 152
def VCD_WB_ROW_SKIPPED : Nat := 153
def VCD_DOORBELL_VIOLATION : Nat := 154
def VCD_REG_VIOLATION : Nat := 155
def CAP_SIGNAL : Nat := 160
def CAP_DROP : Nat := 161
def CAP_REG_VIOLATION : Nat := 162
def AUD_PROGRAM_LOADED : Nat := 168
def AUD_PROGRAM_REJECTED : Nat := 169
def AUD_SWAP_DONE : Nat := 170
def AUD_RING_UNDERRUN : Nat := 171
def AUD_RING_OVERRUN : Nat := 172
def AUD_DOMAIN_LOCK : Nat := 173
def AUD_BRIDGE_RANGE : Nat := 174
def AUD_TDM_SLIP : Nat := 175
def AUD_DOORBELL_VIOLATION : Nat := 176
def AUD_REG_VIOLATION : Nat := 177
def HAP_EFFECT : Nat := 184
def HAP_TRIGGER_DROPPED : Nat := 185
def HAP_OVERCURRENT : Nat := 186
def HAP_SENSE_LOST : Nat := 187
def HAP_DOORBELL_VIOLATION : Nat := 188
def HAP_REG_VIOLATION : Nat := 189
def TCH_NOISE_MODE : Nat := 192
def TCH_HOP : Nat := 193
def TCH_SATURATED : Nat := 194
def TCH_REBASELINE : Nat := 195
def TCH_LONG_CONTACT : Nat := 196
def TCH_STUCK : Nat := 197
def TCH_QUEUE_OVERFLOW : Nat := 198
def TCH_REG_VIOLATION : Nat := 199
def ONL_LINK : Nat := 200
def ONL_TIME_STATE : Nat := 201
def ONL_TIME_STEP : Nat := 202
def ONL_PTP_MASTER : Nat := 203
def ONL_DUPLICATE : Nat := 204
def ONL_PEER : Nat := 205
def ONL_SCHED_APPLIED : Nat := 206
def ONL_SCHED_MISMATCH : Nat := 207
def ONL_RX_INCOMPLETE : Nat := 208
def ONL_RX_DROP : Nat := 209
def ONL_TX_DROP : Nat := 210
def ONL_KEYREQ : Nat := 211
def ONL_MGR_SESSION : Nat := 212
def ONL_MGR_AUTH_FAIL : Nat := 213
def ONL_MACSEC : Nat := 214
def ONL_EXPORT_DROP : Nat := 215
def ONL_REG_VIOLATION : Nat := 216
def PCI_LINK_DOWN : Nat := 224
def PCI_HOT_RESET : Nat := 225
def PCI_BAR_VIOLATION : Nat := 226
def PCI_OUTBOUND_DENY : Nat := 227
def PCI_COMPLETION_TIMEOUT : Nat := 228
def PCI_LATE_COMPLETION : Nat := 229
def GIO_REG_VIOLATION : Nat := 232
def GIO_OWNER : Nat := 233
def GIO_UART_ERROR : Nat := 234
def GIO_I2C_ERROR : Nat := 235
def GIO_PMBUS_FAULT : Nat := 236
/-- SCN_OUTn, source 112 + 2n; its variants are VSYNC 0, SCN_STALE_TILE 1, HOTPLUG 2, LINK 3, LOCK 4, MODE 5, REG_VIOLATION 6. -/
def SCN_OUT (n : Nat) : Nat := 112 + 2 * n
/-- SCN_FLIPn, source 113 + 2n. -/
def SCN_FLIP (n : Nat) : Nat := 113 + 2 * n
end Src

/-- Sources and severities of Tables MAP-3 and MAP-4, but for the SCN sources. -/
def severities : List (Nat × Nat) := [
  (0, 5), (1, 13), (2, 6), (3, 15), (4, 6), (5, 12), (6, 8), (7, 8), (8, 6), (9, 10),
  (16, 1), (17, 9), (18, 12), (19, 9), (20, 8), (21, 4), (32, 10), (33, 7), (34, 12), (35, 13),
  (36, 9), (40, 12), (41, 7), (42, 5), (43, 11), (44, 8), (48, 4), (49, 13), (50, 12), (51, 8),
  (56, 15), (57, 15), (58, 11), (59, 14), (60, 7), (61, 12), (62, 8), (64, 14), (65, 13), (66, 8),
  (67, 8), (68, 10), (69, 7), (70, 5), (71, 8), (72, 6), (73, 13), (74, 10), (75, 10), (76, 3),
  (77, 8), (80, 3), (81, 8), (82, 8), (83, 8), (84, 8), (85, 8), (86, 11), (87, 9), (88, 12),
  (89, 12), (90, 11), (91, 12), (96, 14), (97, 10), (98, 11), (99, 6), (100, 9), (101, 11), (102, 9),
  (103, 11), (104, 10), (105, 10), (106, 8), (128, 11), (129, 6), (130, 12), (131, 3), (132, 8), (133, 8),
  (144, 11), (145, 10), (146, 8), (147, 7), (148, 9), (149, 10), (150, 12), (151, 8), (152, 8), (153, 9),
  (154, 8), (155, 8), (160, 9), (161, 8), (162, 8), (168, 5), (169, 8), (170, 5), (171, 8), (172, 8),
  (173, 9), (174, 9), (175, 8), (176, 8), (177, 8), (184, 3), (185, 6), (186, 13), (187, 11), (188, 8),
  (189, 8), (192, 8), (193, 5), (194, 8), (195, 6), (196, 6), (197, 9), (198, 8), (199, 8), (200, 7),
  (201, 9), (202, 10), (203, 7), (204, 12), (205, 5), (206, 6), (207, 11), (208, 8), (209, 8), (210, 8),
  (211, 6), (212, 9), (213, 12), (214, 10), (215, 9), (216, 8), (224, 12), (225, 11), (226, 8), (227, 10),
  (228, 10), (229, 8), (232, 8), (233, 7), (234, 8), (235, 8), (236, 12)]

/-- The severity of SCN_OUTn by variant (Table MAP-4). -/
def scnSeverity (variant : Nat) : Nat := [2, 13, 7, 9, 9, 7, 8].getD variant 0

/-- The fixed severity of a source and variant (R385). -/
def severity (src variant : Nat) : Nat :=
  if 112 ≤ src ∧ src < 128 then (if src % 2 = 0 then scnSeverity variant else 2)
  else Tab.get 0 severities src

/-! ## Reply statuses -/

def ST_OK : Nat := 0x0000
def ST_PENDING : Nat := 0x0001
def ST_NOT_WARDEN : Nat := 0x0010
def ST_NOT_OWNER : Nat := 0x0011
def ST_DEFERRED_SECURE : Nat := 0x0012
def ST_BAD_ARG : Nat := 0x0020
def ST_BAD_ADDR : Nat := 0x0021
def ST_QUEUE_FULL : Nat := 0x0030
def ST_LINEBUF_SHORT : Nat := 0x0040
def ST_BANDWIDTH : Nat := 0x0041
def ST_BUSY : Nat := 0x0050
def ST_UNSUPPORTED : Nat := 0x0060
def ST_INTERNAL : Nat := 0x00F0
def ST_WARDEN_HELD : Nat := 0x0101
def ST_HANDOVER_LAPSED : Nat := 0x0102
def ST_NO_HANDOVER : Nat := 0x0103
def ST_NOT_CANDIDATE : Nat := 0x0104
def ST_POLDER_EXISTS : Nat := 0x0201
def ST_POLDER_ABSENT : Nat := 0x0202
def ST_RESOURCE_TAKEN : Nat := 0x0203
def ST_RESETTING : Nat := 0x0204
def ST_DRAM_FAILED : Nat := 0x0301
def ST_PASR_MAP : Nat := 0x0302
def ST_LAYER_LIMIT : Nat := 0x0401
def ST_Z_TAKEN : Nat := 0x0402
def ST_SCN_TIMING : Nat := 0x0410
def ST_SCN_LINK : Nat := 0x0411
def ST_SCN_NO_SINK : Nat := 0x0412
def ST_SCN_LOCK_MODE : Nat := 0x0413
def ST_SCN_LOCK_RATE : Nat := 0x0414
def ST_DKW_REGION : Nat := 0x0501
def ST_DKW_AUTO : Nat := 0x0502
def ST_DKW_IMAGE : Nat := 0x0503
def ST_DKW_SOURCE : Nat := 0x0504
def ST_GFX_AREA : Nat := 0x0601
def ST_GFX_PRIORITY : Nat := 0x0602
def ST_GFX_WINDOW : Nat := 0x0603
def ST_VCD_CAPACITY : Nat := 0x0701
def ST_VCD_PROFILE : Nat := 0x0702
def ST_VCD_SOURCE : Nat := 0x0703
def ST_VCD_BFRAMES : Nat := 0x0704
def ST_AUD_PROGRAM : Nat := 0x0801
def ST_AUD_BUDGET : Nat := 0x0802
def ST_AUD_MEMORY : Nat := 0x0803
def ST_AUD_DOMAIN : Nat := 0x0804
def ST_AUD_PRIVILEGED : Nat := 0x0805
def ST_AUD_NO_STAGED : Nat := 0x0806
def ST_HAP_FAULT : Nat := 0x0901
def ST_HAP_DROPPED : Nat := 0x0902
def ST_TCH_TIMING : Nat := 0x0A01
def ST_TCH_SLIDER : Nat := 0x0A02
def ST_ONL_NO_ADDR : Nat := 0x0B01
def ST_ONL_STREAM : Nat := 0x0B02
def ST_ONL_SCHEDULE : Nat := 0x0B03
def ST_ONL_PORT : Nat := 0x0B04
def ST_EVR_FROZEN : Nat := 0x0C01
def ST_CVU_PARAM : Nat := 0x0C02
def ST_PWR_NACK : Nat := 0x0D01
def ST_OTP_LOCKED : Nat := 0x0D02

/-! ## Opcodes -/
namespace Op

def DEV_GET_INFO : Nat := 0x0100
def DEV_GET_STATUS : Nat := 0x0101
def WARDEN_GET : Nat := 0x0102
def DEV_GET_PARAM : Nat := 0x0103
def DEV_READY : Nat := 0x0120
def WARDEN_CHANGED : Nat := 0x0121
def WARDEN_OFFER : Nat := 0x0122
def DEV_REPORT : Nat := 0x0123
def WARDEN_CLAIM : Nat := 0x0140
def WARDEN_ACCEPT : Nat := 0x0141
def MBX_SET_RX : Nat := 0x0142
def WARDEN_HANDOVER : Nat := 0x0180
def WARDEN_RELEASE : Nat := 0x0181
def DEV_SET_PARAM : Nat := 0x0182
def POLDER_GET_INFO : Nat := 0x0200
def POLDER_GET_GRANTS : Nat := 0x0201
def POLDER_STATE_CHANGED : Nat := 0x0220
def POLDER_FAULT : Nat := 0x0221
def POLDER_PLACED : Nat := 0x0222
def POLDER_CREATE : Nat := 0x0280
def POLDER_DESTROY : Nat := 0x0281
def POLDER_GRANT : Nat := 0x0282
def POLDER_REVOKE : Nat := 0x0283
def POLDER_SET_SHARE : Nat := 0x0284
def POLDER_RESET : Nat := 0x0285
def POLDER_ASSIGN_PAIR : Nat := 0x0286
def PCIE_SET_WINDOWS : Nat := 0x0287
def MEM_GET_INFO : Nat := 0x0300
def MEM_GET_OCM_REGION : Nat := 0x0301
def MEM_GET_THROTTLE : Nat := 0x0302
def MEM_DRAM_STATE : Nat := 0x0320
def MEM_SET_OCM_REGION : Nat := 0x0380
def MEM_SET_PASR : Nat := 0x0381
def MEM_SET_REFRESH : Nat := 0x0382
def MEM_SET_ROWHAMMER : Nat := 0x0383
def MEM_SET_RT_MASTERS : Nat := 0x0384
def DSP_GET_LAYER : Nat := 0x0400
def DSP_GET_OUTPUT_COMMIT : Nat := 0x0401
def DSP_GET_ENGINES : Nat := 0x0402
def DSP_GET_SCALER : Nat := 0x0403
def DSP_GET_OUTPUT : Nat := 0x0404
def DSP_GET_SINK : Nat := 0x0405
def DSP_HOTPLUG : Nat := 0x0420
def DSP_LINK_STATE : Nat := 0x0421
def DSP_LOCK_STATE : Nat := 0x0422
def DSP_STALE_TILE : Nat := 0x0423
def DSP_SET_SLOT : Nat := 0x0480
def DSP_SET_LATCH : Nat := 0x0481
def DSP_SET_BUDGET : Nat := 0x0482
def DSP_SET_BACKGROUND : Nat := 0x0483
def DSP_SET_COMPOSE : Nat := 0x0484
def DSP_SET_WRITEBACK : Nat := 0x0485
def DSP_SET_SCALER : Nat := 0x0486
def DSP_SET_MODE : Nat := 0x0487
def DSP_SET_LOCK : Nat := 0x0488
def DSP_SET_FILL : Nat := 0x0489
def DSP_SET_SECURE_SLOT : Nat := 0x04C0
def DSP_SET_SECURE_Z : Nat := 0x04C1
def DKW_GET_LAYER : Nat := 0x0500
def DKW_GET_REGION : Nat := 0x0501
def DKW_GET_RING : Nat := 0x0502
def DKW_BREACH_NOTIFY : Nat := 0x0520
def DKW_STALE_NOTIFY : Nat := 0x0521
def DKW_SET_LAYER_LIVE : Nat := 0x0580
def DKW_SET_SECURE_LAYER : Nat := 0x05C0
def DKW_SET_REGION : Nat := 0x05C1
def DKW_SET_IMAGE : Nat := 0x05C2
def DKW_SET_KEY : Nat := 0x05C3
def DKW_SET_RING : Nat := 0x05C4
def GFX_GET_INFO : Nat := 0x0600
def GFX_GET_CONTEXT : Nat := 0x0601
def GFX_CTX_SETUP : Nat := 0x0640
def GFX_CTX_SET_PRIORITY : Nat := 0x0641
def GFX_CTX_RESTART : Nat := 0x0642
def GFX_CTX_RELEASE : Nat := 0x0643
def GFX_SET_AREA : Nat := 0x0680
def GFX_SET_RESERVE : Nat := 0x0681
def GFX_SET_RT : Nat := 0x0682
def GFX_SET_SECURE_FLOOR : Nat := 0x06C0
def VCD_GET_INFO : Nat := 0x0700
def VCD_GET_SESSION : Nat := 0x0701
def CAP_GET_INPUT : Nat := 0x0702
def VCD_SESSION_EVENT : Nat := 0x0720
def CAP_SIGNAL : Nat := 0x0721
def VCD_OPEN_DECODE : Nat := 0x0740
def VCD_OPEN_ENCODE : Nat := 0x0741
def VCD_CLOSE : Nat := 0x0742
def VCD_BIND_SLOTS : Nat := 0x0743
def VCD_RESTART : Nat := 0x0744
def CAP_SET_INPUT : Nat := 0x0780
def AUD_GET_INFO : Nat := 0x0800
def AUD_GET_PROGRAM : Nat := 0x0801
def AUD_GET_PATHS : Nat := 0x0802
def AUD_DOMAIN_EVENT : Nat := 0x0820
def AUD_LOAD_PROGRAM : Nat := 0x0840
def AUD_UNLOAD : Nat := 0x0841
def AUD_SET_BRIDGE : Nat := 0x0842
def AUD_SET_SIDETONE : Nat := 0x0843
def AUD_SET_DOMAIN : Nat := 0x0880
def AUD_SET_TDM : Nat := 0x0881
def AUD_SET_AES67 : Nat := 0x0882
def HAP_GET_CHANNEL : Nat := 0x0900
def HAP_FAULT : Nat := 0x0920
def HAP_SET_CHANNEL : Nat := 0x0940
def HAP_RESTART : Nat := 0x0941
def TCH_GET_INFO : Nat := 0x0A00
def TCH_NOISE : Nat := 0x0A20
def TCH_SET_CLICK : Nat := 0x0A40
def TCH_SET_CHANNEL : Nat := 0x0A80
def TCH_SET_MAP : Nat := 0x0A81
def TCH_SET_SLIDER : Nat := 0x0A82
def TCH_CALIBRATE : Nat := 0x0A83
def TCH_SAVE_SNAPSHOT : Nat := 0x0A84
def TCH_REBASELINE : Nat := 0x0A85
def TCH_GET_NODES : Nat := 0x0AC0
def NET_GET_INFO : Nat := 0x0B00
def NET_GET_PEERS : Nat := 0x0B01
def NET_GET_GROUP : Nat := 0x0B02
def NET_GET_STREAM : Nat := 0x0B03
def NET_TIME_STATE : Nat := 0x0B20
def NET_GROUP_EVENT : Nat := 0x0B21
def NET_PEER_EVENT : Nat := 0x0B22
def NET_SET_TX_STREAM : Nat := 0x0B40
def NET_SET_RX_STREAM : Nat := 0x0B41
def NET_CLEAR_STREAM : Nat := 0x0B42
def NET_SET_IDENTITY : Nat := 0x0B80
def NET_SET_PORT : Nat := 0x0B81
def NET_SET_PTP : Nat := 0x0B82
def NET_SET_MACSEC : Nat := 0x0B83
def NET_SET_QBV : Nat := 0x0B84
def NET_SET_GROUP : Nat := 0x0B85
def NET_SET_EXPORT : Nat := 0x0B86
def NET_SET_AES67 : Nat := 0x0B87
def NET_SET_MGR_KEY : Nat := 0x0BC0
def EVR_GET_INFO : Nat := 0x0C00
def EVR_READ : Nat := 0x0C01
def EVR_GET_WEIR : Nat := 0x0C02
def VLT_GET_STATUS : Nat := 0x0C03
def VLT_GET_CRITICAL : Nat := 0x0C04
def CVU_GET_CHANNEL : Nat := 0x0C05
def CVU_FIELD_CHECK : Nat := 0x0C06
def VLT_TAMPER_NOTIFY : Nat := 0x0C20
def CVU_RUN : Nat := 0x0C40
def CVU_SAVE : Nat := 0x0C41
def CVU_LOAD : Nat := 0x0C42
def CVU_SET_KEY : Nat := 0x0C43
def CVU_ABORT : Nat := 0x0C44
def EVR_SET_WEIR : Nat := 0x0C80
def EVR_FREEZE : Nat := 0x0C81
def EVR_SNAPSHOT : Nat := 0x0C82
def EVR_SET_ARCHIVE : Nat := 0x0C83
def EVR_SET_SECURE_WEIR : Nat := 0x0CC0
def EVR_SET_VAULT_SEV : Nat := 0x0CC1
def VLT_SET_TAMPER : Nat := 0x0CC2
def VLT_SET_RTC : Nat := 0x0CC3
def VLT_GET_METERS : Nat := 0x0CC4
def PWR_GET_STATE : Nat := 0x0D00
def PWR_GET_TELEMETRY : Nat := 0x0D01
def BOOT_GET_INFO : Nat := 0x0D02
def PUMP_GET_STATUS : Nat := 0x0D03
def PWR_STATE_CHANGED : Nat := 0x0D20
def PWR_THERMAL : Nat := 0x0D21
def PWR_ENTER_QUIET : Nat := 0x0D80
def PWR_SHUTDOWN : Nat := 0x0D81
def PWR_SET_BLOCK : Nat := 0x0D82
def PWR_RESET : Nat := 0x0D83
def PWR_SET_THERMAL : Nat := 0x0D84
def BOOT_OTP_PROGRAM : Nat := 0x0DC0
end Op

/-- The opcodes defined as commands (R57); a notification's opcode is none. -/
def commandOpcodes : List Nat := [
  0x0100, 0x0101, 0x0102, 0x0103, 0x0140, 0x0141, 0x0142, 0x0180, 0x0181, 0x0182,
  0x0200, 0x0201, 0x0280, 0x0281, 0x0282, 0x0283, 0x0284, 0x0285, 0x0286, 0x0287,
  0x0300, 0x0301, 0x0302, 0x0380, 0x0381, 0x0382, 0x0383, 0x0384, 0x0400, 0x0401,
  0x0402, 0x0403, 0x0404, 0x0405, 0x0480, 0x0481, 0x0482, 0x0483, 0x0484, 0x0485,
  0x0486, 0x0487, 0x0488, 0x0489, 0x04C0, 0x04C1, 0x0500, 0x0501, 0x0502, 0x0580,
  0x05C0, 0x05C1, 0x05C2, 0x05C3, 0x05C4, 0x0600, 0x0601, 0x0640, 0x0641, 0x0642,
  0x0643, 0x0680, 0x0681, 0x0682, 0x06C0, 0x0700, 0x0701, 0x0702, 0x0740, 0x0741,
  0x0742, 0x0743, 0x0744, 0x0780, 0x0800, 0x0801, 0x0802, 0x0840, 0x0841, 0x0842,
  0x0843, 0x0880, 0x0881, 0x0882, 0x0900, 0x0940, 0x0941, 0x0A00, 0x0A40, 0x0A80,
  0x0A81, 0x0A82, 0x0A83, 0x0A84, 0x0A85, 0x0AC0, 0x0B00, 0x0B01, 0x0B02, 0x0B03,
  0x0B40, 0x0B41, 0x0B42, 0x0B80, 0x0B81, 0x0B82, 0x0B83, 0x0B84, 0x0B85, 0x0B86,
  0x0B87, 0x0BC0, 0x0C00, 0x0C01, 0x0C02, 0x0C03, 0x0C04, 0x0C05, 0x0C06, 0x0C40,
  0x0C41, 0x0C42, 0x0C43, 0x0C44, 0x0C80, 0x0C81, 0x0C82, 0x0C83, 0x0CC0, 0x0CC1,
  0x0CC2, 0x0CC3, 0x0CC4, 0x0D00, 0x0D01, 0x0D02, 0x0D03, 0x0D80, 0x0D81, 0x0D82,
  0x0D83, 0x0D84, 0x0DC0]

end Sys2Proof.Machine
end

