-- ==== Sys2Proof/Machine/Fields.lean ====
section
/-! DEFINITION. The fields of every register table of the spec (Tables MBX-8, PLD-5, POL-6, OCM-4, DMC-7, CMP-6, CMP-7,
CMP-8, CMP-17, CMP-18, DKW-10, DKW-11, DKW-12, SCN-6, GFX-1, GFX-2, VCD-5, VCD-6, CAP-1, AUD-6, AUD-7, HAP-3, HAP-4, TCH-4,
TCH-5, ONL-7, EVR-4, VLT-4, CVU-2, CRP-11, GIO-1 to GIO-5), one definition each: its word address, its lowest bit, its width
and its reset value. A name is the spec's register name without its index letters, an underscore and the field's name; the
index letters are the arguments. A register that only a polder's doorbell page shows and that belongs to a slot or session
(Tables CMP-6 and VCD-5) has ONE home, at its offset in page 0, whatever page reaches it (R147, R288). A reset the table
writes as a dash is a value the block keeps or measures, and is logged (notes/assumptions/5.md). -/
namespace Sys2Proof.Machine

/-- A field of a register: the byte address of its register's low word, its lowest bit (up to 63 in a 64-bit register),
its width and its value after reset. -/
structure Fld where
  addr : Nat
  lo : Nat
  width : Nat
  rst : Nat
  deriving DecidableEq, Repr

/-- The field's place in the register store: one number per field. -/
def Fld.key (f : Fld) : Nat := f.addr * 64 + f.lo

/-- The copy of the field that is in force (R13): a Commit field's value as the last commit applied it, a Start field's
value as its unit last started with it. It has a place of its own, above every bus address. -/
def Fld.inForce (f : Fld) : Fld := ⟨f.addr + 0x10000000000, f.lo, f.width, f.rst⟩

/-- Table OCM-2: first page, last page and enable of region `r` of master `m` after reset. -/
def ocmRegionReset (m r : Nat) : Nat × Nat × Nat :=
  if r = 0 then
    if 1 ≤ m ∧ m ≤ 8 then (0, 4095, 1)
    else if m = 9 then (0, 24575, 1)
    else if m = 12 then (12288, 16383, 1)
    else if m = 13 then (16384, 20479, 1)
    else if m = 14 then (0, 12287, 1)
    else if 15 ≤ m ∧ m ≤ 17 then (20480, 22527, 1)
    else if 18 ≤ m ∧ m ≤ 23 then (0, 4095, 1)
    else (0, 0, 0)
  else if r = 1 then
    if (1 ≤ m ∧ m ≤ 8) ∨ (18 ≤ m ∧ m ≤ 23) then (10240, 22527, 1)
    else if m = 12 then (10240, 12287, 1)
    else (0, 0, 0)
  else (0, 0, 0)

/-- Round `n / 512` half away from zero (R187). -/
def round512 (n : Int) : Int := if 0 ≤ n then (n + 256) / 512 else -((-n + 256) / 512)

/-- R187: the default coefficient wm1, w0, w1 or w2 (`i` = 0 to 3) of phase `p`. -/
def cubicTap (p i : Nat) : Int :=
  let q : Int := p
  let wm1 := round512 (-(q * q * q) + 128 * (q * q) - 4096 * q)
  let w2 := round512 (q * q * q - 64 * (q * q))
  let w1 := round512 (-3 * (q * q * q) + 256 * (q * q) + 4096 * q)
  match i with
  | 0 => wm1
  | 1 => 1024 - wm1 - w1 - w2
  | 2 => w1
  | _ => w2

/-- Twelve-bit two's complement of a coefficient (R187). -/
def enc12 (v : Int) : Nat := (v % 4096).toNat

/-- R187: six-tap horizontal default of phase `p`, tap `t`: 0, wm1, w0, w1, w2, 0. -/
def hcoefReset (p t : Nat) : Nat := if 1 ≤ t ∧ t ≤ 4 then enc12 (cubicTap p (t - 1)) else 0

/-- R187: four-tap vertical default of phase `p`, tap `t`. -/
def v4coefReset (p t : Nat) : Nat := enc12 (cubicTap p t)


/-! Table MBX-8 — MBX registers -/

def MBX_CH_TX_data (n w : Nat) : Fld := ⟨0x20010000 + 0x100 * n + 0x4 * w, 0, 32, 0⟩
def MBX_CH_PUSH_push (n : Nat) : Fld := ⟨0x20010040 + 0x100 * n, 0, 1, 0⟩
def MBX_CH_STAT_count (n : Nat) : Fld := ⟨0x20010044 + 0x100 * n, 0, 4, 0⟩
def MBX_CH_STAT_full (n : Nat) : Fld := ⟨0x20010044 + 0x100 * n, 4, 1, 0⟩
def MBX_CH_STAT_tx_overflow (n : Nat) : Fld := ⟨0x20010044 + 0x100 * n, 5, 1, 0⟩
def MBX_CH_STAT_unacked (n : Nat) : Fld := ⟨0x20010044 + 0x100 * n, 6, 1, 0⟩
def MBX_CH_STAT_next_seq (n : Nat) : Fld := ⟨0x20010044 + 0x100 * n, 8, 10, 0⟩
def MBX_CH_STAT_unacked_seq (n : Nat) : Fld := ⟨0x20010044 + 0x100 * n, 18, 10, 0⟩
def MBX_CH_CFG_party_polder (n : Nat) : Fld := ⟨0x20010048 + 0x100 * n, 0, 5, (if n < 60 then n / 2 else 0)⟩
def MBX_CH_CFG_party_secure (n : Nat) : Fld := ⟨0x20010048 + 0x100 * n, 5, 1, (if n < 2 then 1 else 0)⟩
def MBX_CH_CFG_party_master (n : Nat) : Fld := ⟨0x20010048 + 0x100 * n, 6, 6, (if n = 60 ∨ n = 61 then 10 else if n = 62 ∨ n = 63 then 11 else 0)⟩
def MBX_CH_CFG_enable (n : Nat) : Fld := ⟨0x20010048 + 0x100 * n, 12, 1, (if n < 2 ∨ 60 ≤ n then 1 else 0)⟩
def MBX_CH_CFG_rx_irq_en (n : Nat) : Fld := ⟨0x20010048 + 0x100 * n, 13, 1, 0⟩
def MBX_CH_CFG_wake_domain (n : Nat) : Fld := ⟨0x20010048 + 0x100 * n, 14, 2, 0⟩
def MBX_CH_RX_data (n w : Nat) : Fld := ⟨0x20010080 + 0x100 * n + 0x4 * w, 0, 32, 0⟩
def MBX_CH_POP_pop (n : Nat) : Fld := ⟨0x200100C0 + 0x100 * n, 0, 1, 0⟩
def MBX_LOCK_lock (m : Nat) : Fld := ⟨0x20014000 + 0x4 * m, 0, 6, 0⟩
def MBX_LOCK_OWNER_owner (m : Nat) : Fld := ⟨0x20014080 + 0x4 * m, 0, 6, 0⟩
def MBX_RX_PENDING_pending : Fld := ⟨0x20014100, 0, 64, 0⟩
def MBX_CROSSWAIT_STAT_pair : Fld := ⟨0x20014108, 0, 32, 0⟩
def MBX_PAIR_SHARE_polders (k : Nat) : Fld := ⟨0x20014200 + 0x4 * k, 0, 32, 0⟩

/-! Table PLD-5 — PLD registers -/

def PLD_MODE_CTRL_req_map : Fld := ⟨0x20020000, 0, 1, 0⟩
def PLD_MODE_CTRL_req_tidemark : Fld := ⟨0x20020000, 1, 1, 0⟩
def PLD_MODE_CTRL_fence_normal : Fld := ⟨0x20020000, 2, 1, 0⟩
def PLD_MODE_STAT_mode : Fld := ⟨0x20020004, 0, 1, 0⟩
def PLD_MODE_STAT_switching : Fld := ⟨0x20020004, 1, 1, 0⟩
def PLD_MODE_STAT_result : Fld := ⟨0x20020004, 4, 4, 0⟩
def PLD_TIDEMARK_tidemark : Fld := ⟨0x20020008, 21, 19, 0x10000⟩
def PLD_MAP_BASE_base : Fld := ⟨0x20020010, 12, 28, 0⟩
def PLD_INV_ADDR_addr : Fld := ⟨0x20020018, 12, 28, 0⟩
def PLD_INV_CTRL_pages : Fld := ⟨0x20020020, 0, 24, 0⟩
def PLD_INV_CTRL_start : Fld := ⟨0x20020020, 31, 1, 0⟩
def PLD_INV_STAT_busy : Fld := ⟨0x20020024, 0, 1, 0⟩
def PLD_SLC_SECURE_WAYS_ways : Fld := ⟨0x20020028, 0, 16, 0⟩
def PLD_SLC_WAYMASK_ways (p : Nat) : Fld := ⟨0x20020080 + 0x4 * p, 0, 16, 0xFFFF⟩
def PLD_S2_ROOT_root (p : Nat) : Fld := ⟨0x20020100 + 0x10 * p, 14, 26, 0⟩
def PLD_S2_ROOT_writer (p : Nat) : Fld := ⟨0x20020100 + 0x10 * p, 48, 5, 0⟩
def PLD_S2_ROOT_mode (p : Nat) : Fld := ⟨0x20020100 + 0x10 * p, 60, 4, 0⟩
def PLD_S2_INV_inv (p : Nat) : Fld := ⟨0x20020108 + 0x10 * p, 0, 1, 0⟩
def PLD_S2_INV_busy (p : Nat) : Fld := ⟨0x20020108 + 0x10 * p, 1, 1, 0⟩
def PLD_DENY_ADDR_addr : Fld := ⟨0x20020400, 0, 40, 0⟩
def PLD_DENY_INFO_master : Fld := ⟨0x20020408, 0, 6, 0⟩
def PLD_DENY_INFO_polder : Fld := ⟨0x20020408, 6, 5, 0⟩
def PLD_DENY_INFO_secure : Fld := ⟨0x20020408, 11, 1, 0⟩
def PLD_DENY_INFO_write : Fld := ⟨0x20020408, 12, 1, 0⟩
def PLD_DENY_INFO_reason : Fld := ⟨0x20020408, 13, 3, 0⟩
def PLD_DENY_INFO_count : Fld := ⟨0x20020408, 16, 16, 0⟩

/-! Table POL-6 — Event line and instance status registers (offsets within the doorbell page) -/

def POL_EVL_PENDING_pending (p : Nat) : Fld := ⟨0x30006000 + 0x10000 * p, 0, 64, 0⟩
def POL_EVL_ENABLE_enable (p : Nat) : Fld := ⟨0x30006008 + 0x10000 * p, 0, 64, 0⟩
def POL_EVL_VECTOR_vector (p n : Nat) : Fld := ⟨0x30006100 + 0x10000 * p + 0x4 * n, 0, 8, 0⟩
def POL_EVL_VECTOR_valid (p n : Nat) : Fld := ⟨0x30006100 + 0x10000 * p + 0x4 * n, 8, 1, 0⟩
def POL_STAT_state (p : Nat) : Fld := ⟨0x30007000 + 0x10000 * p, 0, 2, 0⟩
def POL_STAT_location (p : Nat) : Fld := ⟨0x30007000 + 0x10000 * p, 2, 2, 0⟩
def POL_STAT_frozen (p : Nat) : Fld := ⟨0x30007000 + 0x10000 * p, 4, 1, 0⟩
def POL_STAT_faults (p : Nat) : Fld := ⟨0x30007000 + 0x10000 * p, 8, 8, 0⟩
def POL_FAULT_INFO_source (p : Nat) : Fld := ⟨0x30007004 + 0x10000 * p, 0, 8, 0⟩
def POL_FAULT_INFO_unit (p : Nat) : Fld := ⟨0x30007004 + 0x10000 * p, 8, 8, 0⟩
def POL_FAULT_INFO_reason (p : Nat) : Fld := ⟨0x30007004 + 0x10000 * p, 16, 8, 0⟩
def POL_SHARE_gfx (p : Nat) : Fld := ⟨0x30007008 + 0x10000 * p, 0, 8, 16⟩
def POL_SHARE_vcd (p : Nat) : Fld := ⟨0x30007008 + 0x10000 * p, 8, 8, 16⟩
def POL_SHARE_cvu (p : Nat) : Fld := ⟨0x30007008 + 0x10000 * p, 16, 8, 16⟩
def POL_RESET_COUNT_count (p : Nat) : Fld := ⟨0x3000700C + 0x10000 * p, 0, 32, 0⟩

/-! Table OCM-4 — OCM registers -/

def OCM_ECC_STAT_corr : Fld := ⟨0x20140000, 0, 16, 0⟩
def OCM_ECC_STAT_uncorr : Fld := ⟨0x20140000, 16, 8, 0⟩
def OCM_ECC_ADDR_offset : Fld := ⟨0x20140004, 0, 27, 0⟩
def OCM_ECC_ADDR_uncorr : Fld := ⟨0x20140004, 31, 1, 0⟩
def OCM_SCRUB_STAT_passes : Fld := ⟨0x20140008, 0, 16, 0⟩
def OCM_SCRUB_STAT_position : Fld := ⟨0x20140008, 16, 11, 0⟩
def OCM_RGN_BASE_page (m r : Nat) : Fld := ⟨0x20141000 + 0x40 * m + 0x10 * r, 0, 15, (ocmRegionReset m r).1⟩
def OCM_RGN_LIMIT_page (m r : Nat) : Fld := ⟨0x20141004 + 0x40 * m + 0x10 * r, 0, 15, (ocmRegionReset m r).2.1⟩
def OCM_RGN_CTRL_rd (m r : Nat) : Fld := ⟨0x20141008 + 0x40 * m + 0x10 * r, 0, 1, (ocmRegionReset m r).2.2⟩
def OCM_RGN_CTRL_wr (m r : Nat) : Fld := ⟨0x20141008 + 0x40 * m + 0x10 * r, 1, 1, (ocmRegionReset m r).2.2⟩
def OCM_RGN_CTRL_enable (m r : Nat) : Fld := ⟨0x20141008 + 0x40 * m + 0x10 * r, 2, 1, (ocmRegionReset m r).2.2⟩

/-! Table DMC-7 — DMC registers -/

def DMC_STATUS_init_done (i : Nat) : Fld := ⟨0x20100000 + 0x10000 * i, 0, 1, 0⟩
def DMC_STATUS_failed (i : Nat) : Fld := ⟨0x20100000 + 0x10000 * i, 1, 1, 0⟩
def DMC_STATUS_retraining (i : Nat) : Fld := ⟨0x20100000 + 0x10000 * i, 2, 1, 0⟩
def DMC_STATUS_self_refresh (i : Nat) : Fld := ⟨0x20100000 + 0x10000 * i, 3, 1, 0⟩
def DMC_STATUS_urgent (i : Nat) : Fld := ⟨0x20100000 + 0x10000 * i, 4, 4, 0⟩
def DMC_STATUS_hot (i : Nat) : Fld := ⟨0x20100000 + 0x10000 * i, 8, 4, 0⟩
def DMC_MAP_CH_rowmask (i j : Nat) : Fld := ⟨0x20100010 + 0x10000 * i + 0x4 * j, 0, 17, (0x11 * 2 ^ j)⟩
def DMC_MAP_BA_rowmask (i j : Nat) : Fld := ⟨0x20100020 + 0x10000 * i + 0x4 * j, 0, 17, (0x100 * 2 ^ j)⟩
def DMC_REF_CTRL_mode (i : Nat) : Fld := ⟨0x20100040 + 0x10000 * i, 0, 1, 0⟩
def DMC_REF_CTRL_postpone_en (i : Nat) : Fld := ⟨0x20100040 + 0x10000 * i, 1, 1, 1⟩
def DMC_REF_STAT_debt (i : Nat) : Fld := ⟨0x20100044 + 0x10000 * i, 0, 16, 0⟩
def DMC_REF_STAT_forced (i : Nat) : Fld := ⟨0x20100044 + 0x10000 * i, 16, 4, 0⟩
def DMC_RT_MASK_masters (i : Nat) : Fld := ⟨0x20100048 + 0x10000 * i, 0, 64, 0x3C000⟩
def DMC_RH_THRESH_thresh (i : Nat) : Fld := ⟨0x20100050 + 0x10000 * i, 0, 16, 4000⟩
def DMC_RH_RATE_acts (i : Nat) : Fld := ⟨0x20100054 + 0x10000 * i, 0, 8, 4⟩
def DMC_RH_THROTTLED_masters (i : Nat) : Fld := ⟨0x20100058 + 0x10000 * i, 0, 64, 0⟩
def DMC_RH_LAST_channel (i : Nat) : Fld := ⟨0x20100060 + 0x10000 * i, 0, 2, 0⟩
def DMC_RH_LAST_bank (i : Nat) : Fld := ⟨0x20100060 + 0x10000 * i, 2, 4, 0⟩
def DMC_RH_LAST_row (i : Nat) : Fld := ⟨0x20100060 + 0x10000 * i, 6, 17, 0⟩
def DMC_RH_LAST_master (i : Nat) : Fld := ⟨0x20100060 + 0x10000 * i, 23, 6, 0⟩
def DMC_PASR_keep (i : Nat) : Fld := ⟨0x20100070 + 0x10000 * i, 0, 4, 8⟩
def DMC_ECC_STAT_retry (i : Nat) : Fld := ⟨0x20100080 + 0x10000 * i, 0, 16, 0⟩
def DMC_ECC_STAT_uncorr (i : Nat) : Fld := ⟨0x20100080 + 0x10000 * i, 16, 8, 0⟩
def DMC_ECC_ADDR_addr (i : Nat) : Fld := ⟨0x20100088 + 0x10000 * i, 6, 34, 0⟩
def DMC_TRAIN_STAT_passes (i : Nat) : Fld := ⟨0x20100090 + 0x10000 * i, 0, 16, 0⟩
def DMC_TRAIN_STAT_temp (i : Nat) : Fld := ⟨0x20100090 + 0x10000 * i, 16, 16, 0⟩

/-! Table CMP-6 — Layer slot registers (slot n, n = 0–63) -/

def CMP_LAYER_CTRL_enable (n : Nat) : Fld := ⟨0x30000000 + 0x30 * n, 0, 1, 0⟩
def CMP_LAYER_CTRL_format (n : Nat) : Fld := ⟨0x30000000 + 0x30 * n, 1, 6, 0⟩
def CMP_LAYER_CTRL_csc (n : Nat) : Fld := ⟨0x30000000 + 0x30 * n, 7, 2, 0⟩
def CMP_LAYER_CTRL_full_range (n : Nat) : Fld := ⟨0x30000000 + 0x30 * n, 9, 1, 0⟩
def CMP_LAYER_CTRL_vtaps (n : Nat) : Fld := ⟨0x30000000 + 0x30 * n, 10, 1, 0⟩
def CMP_LAYER_CTRL_striped (n : Nat) : Fld := ⟨0x30000000 + 0x30 * n, 11, 1, 0⟩
def CMP_LAYER_CTRL_fast_clear (n : Nat) : Fld := ⟨0x30000000 + 0x30 * n, 12, 1, 0⟩
def CMP_LAYER_CTRL_alpha_mode (n : Nat) : Fld := ⟨0x30000000 + 0x30 * n, 13, 2, 0⟩
def CMP_LAYER_CTRL_premult (n : Nat) : Fld := ⟨0x30000000 + 0x30 * n, 15, 1, 0⟩
def CMP_LAYER_SRC_XY_x (n : Nat) : Fld := ⟨0x30000004 + 0x30 * n, 0, 14, 0⟩
def CMP_LAYER_SRC_XY_y (n : Nat) : Fld := ⟨0x30000004 + 0x30 * n, 16, 14, 0⟩
def CMP_LAYER_SRC_WH_w (n : Nat) : Fld := ⟨0x30000008 + 0x30 * n, 0, 14, 0⟩
def CMP_LAYER_SRC_WH_h (n : Nat) : Fld := ⟨0x30000008 + 0x30 * n, 16, 14, 0⟩
def CMP_LAYER_DST_XY_x (n : Nat) : Fld := ⟨0x3000000C + 0x30 * n, 0, 16, 0⟩
def CMP_LAYER_DST_XY_y (n : Nat) : Fld := ⟨0x3000000C + 0x30 * n, 16, 16, 0⟩
def CMP_LAYER_DST_WH_w (n : Nat) : Fld := ⟨0x30000010 + 0x30 * n, 0, 14, 0⟩
def CMP_LAYER_DST_WH_h (n : Nat) : Fld := ⟨0x30000010 + 0x30 * n, 16, 14, 0⟩
def CMP_LAYER_STRIDE_stride0 (n : Nat) : Fld := ⟨0x30000014 + 0x30 * n, 0, 16, 0⟩
def CMP_LAYER_STRIDE_stride1 (n : Nat) : Fld := ⟨0x30000014 + 0x30 * n, 16, 16, 0⟩
def CMP_LAYER_ALPHA_global (n : Nat) : Fld := ⟨0x30000018 + 0x30 * n, 0, 12, 4095⟩
def CMP_LAYER_COLOR_r (n : Nat) : Fld := ⟨0x3000001C + 0x30 * n, 0, 10, 0⟩
def CMP_LAYER_COLOR_g (n : Nat) : Fld := ⟨0x3000001C + 0x30 * n, 10, 10, 0⟩
def CMP_LAYER_COLOR_b (n : Nat) : Fld := ⟨0x3000001C + 0x30 * n, 20, 10, 0⟩
def CMP_LAYER_HEARTBEAT_beat (n : Nat) : Fld := ⟨0x30000020 + 0x30 * n, 0, 32, 0⟩
def CMP_LAYER_LSTAT_in_use_seq (n : Nat) : Fld := ⟨0x30000024 + 0x30 * n, 0, 8, 0⟩
def CMP_LAYER_LSTAT_released_seq (n : Nat) : Fld := ⟨0x30000024 + 0x30 * n, 8, 8, 0⟩
def CMP_LAYER_LSTAT_next_seq (n : Nat) : Fld := ⟨0x30000024 + 0x30 * n, 16, 8, 0⟩
def CMP_LAYER_LSTAT_pending (n : Nat) : Fld := ⟨0x30000024 + 0x30 * n, 24, 3, 0⟩
def CMP_LAYER_LSTAT_active (n : Nat) : Fld := ⟨0x30000024 + 0x30 * n, 27, 1, 0⟩
def CMP_LAYER_LSTAT_has_buffer (n : Nat) : Fld := ⟨0x30000024 + 0x30 * n, 28, 1, 0⟩
def CMP_LAYER_LSTAT_underrun (n : Nat) : Fld := ⟨0x30000024 + 0x30 * n, 29, 1, 0⟩

/-! Table CMP-7 — Flip staging and commit registers -/

def CMP_FLIP_BUF0_addr (p : Nat) : Fld := ⟨0x30000C00 + 0x10000 * p, 0, 40, 0⟩
def CMP_FLIP_BUF1_addr (p : Nat) : Fld := ⟨0x30000C08 + 0x10000 * p, 0, 40, 0⟩
def CMP_FLIP_FENCE_addr (p : Nat) : Fld := ⟨0x30000C10 + 0x10000 * p, 3, 37, 0⟩
def CMP_FLIP_TARGET_target (p : Nat) : Fld := ⟨0x30000C18 + 0x10000 * p, 0, 64, 0⟩
def CMP_FLIP_TIME_time (p : Nat) : Fld := ⟨0x30000C20 + 0x10000 * p, 0, 64, 0⟩
def CMP_FLIP_PUSH_slot (p : Nat) : Fld := ⟨0x30000C28 + 0x10000 * p, 0, 6, 0⟩
def CMP_FLIP_STATUS_status (p : Nat) : Fld := ⟨0x30000C2C + 0x10000 * p, 0, 16, 0⟩
def CMP_FLIP_STATUS_slot (p : Nat) : Fld := ⟨0x30000C2C + 0x10000 * p, 16, 6, 0⟩
def CMP_FLIP_STATUS_seq (p : Nat) : Fld := ⟨0x30000C2C + 0x10000 * p, 22, 8, 0⟩
def CMP_COMMIT_id (p : Nat) : Fld := ⟨0x30000C40 + 0x10000 * p, 0, 16, 0⟩
def CMP_COMMIT_output (p : Nat) : Fld := ⟨0x30000C40 + 0x10000 * p, 16, 3, 0⟩
def CMP_COMMIT_STATUS_status (p : Nat) : Fld := ⟨0x30000C44 + 0x10000 * p, 0, 16, 0⟩
def CMP_COMMIT_STATUS_state (p : Nat) : Fld := ⟨0x30000C44 + 0x10000 * p, 16, 2, 0⟩
def CMP_COMMIT_STATUS_output (p : Nat) : Fld := ⟨0x30000C44 + 0x10000 * p, 18, 3, 0⟩
def CMP_COMMIT_STATUS_slot (p : Nat) : Fld := ⟨0x30000C44 + 0x10000 * p, 21, 6, 0⟩
def CMP_COMMIT_STATUS_slot_valid (p : Nat) : Fld := ⟨0x30000C44 + 0x10000 * p, 27, 1, 0⟩
def CMP_COMMIT_ID_id (p : Nat) : Fld := ⟨0x30000C48 + 0x10000 * p, 0, 16, 0⟩
def CMP_COMMIT_FRAME_frame (p : Nat) : Fld := ⟨0x30000C4C + 0x10000 * p, 0, 32, 0⟩
def CMP_APPLIED_id (p n : Nat) : Fld := ⟨0x30000C80 + 0x10000 * p + 0x8 * n, 0, 16, 0⟩
def CMP_APPLIED_valid (p n : Nat) : Fld := ⟨0x30000C80 + 0x10000 * p + 0x8 * n, 16, 1, 0⟩
def CMP_APPLIED_FRAME_frame (p n : Nat) : Fld := ⟨0x30000C84 + 0x10000 * p + 0x8 * n, 0, 32, 0⟩
def CMP_COMMIT_COUNT_count (p : Nat) : Fld := ⟨0x30000CC0 + 0x10000 * p, 0, 32, 0⟩
def CMP_COMMIT_LOG_ID_id (p i : Nat) : Fld := ⟨0x30000D00 + 0x10000 * p + 0x10 * i, 0, 16, 0⟩
def CMP_COMMIT_LOG_ID_output (p i : Nat) : Fld := ⟨0x30000D00 + 0x10000 * p + 0x10 * i, 16, 3, 0⟩
def CMP_COMMIT_LOG_ID_state (p i : Nat) : Fld := ⟨0x30000D00 + 0x10000 * p + 0x10 * i, 20, 2, 0⟩
def CMP_COMMIT_LOG_STATUS_status (p i : Nat) : Fld := ⟨0x30000D04 + 0x10000 * p + 0x10 * i, 0, 16, 0⟩
def CMP_COMMIT_LOG_STATUS_slot (p i : Nat) : Fld := ⟨0x30000D04 + 0x10000 * p + 0x10 * i, 16, 6, 0⟩
def CMP_COMMIT_LOG_STATUS_slot_valid (p i : Nat) : Fld := ⟨0x30000D04 + 0x10000 * p + 0x10 * i, 22, 1, 0⟩
def CMP_COMMIT_LOG_FRAME_frame (p i : Nat) : Fld := ⟨0x30000D08 + 0x10000 * p + 0x10 * i, 0, 32, 0⟩

/-! Table CMP-8 — Output and placement registers -/

def CMP_OUT_LATCH_lookahead (n : Nat) : Fld := ⟨0x20200000 + 0x100 * n, 0, 7, 32⟩
def CMP_OUT_LATCH_berm (n : Nat) : Fld := ⟨0x20200000 + 0x100 * n, 8, 5, 2⟩
def CMP_OUT_LATCH_secure_z (n : Nat) : Fld := ⟨0x20200000 + 0x100 * n, 16, 5, 24⟩
def CMP_OUT_FETCH_BUDGET_bursts (n : Nat) : Fld := ⟨0x20200004 + 0x100 * n, 0, 32, 0⟩
def CMP_OUT_PIX_BUDGET_pixels (n : Nat) : Fld := ⟨0x20200008 + 0x100 * n, 0, 32, 0⟩
def CMP_OUT_BGCOLOR_rgb (n : Nat) : Fld := ⟨0x2020000C + 0x100 * n, 0, 30, 0⟩
def CMP_OUT_IN_FORCE_id (n : Nat) : Fld := ⟨0x20200010 + 0x100 * n, 0, 16, 0⟩
def CMP_OUT_IN_FORCE_polder (n : Nat) : Fld := ⟨0x20200010 + 0x100 * n, 16, 5, 0⟩
def CMP_OUT_IN_FORCE_device (n : Nat) : Fld := ⟨0x20200010 + 0x100 * n, 21, 1, 0⟩
def CMP_OUT_IN_FORCE_valid (n : Nat) : Fld := ⟨0x20200010 + 0x100 * n, 22, 1, 0⟩
def CMP_OUT_APPLY_FRAME_frame (n : Nat) : Fld := ⟨0x20200014 + 0x100 * n, 0, 32, 0⟩
def CMP_OUT_QUEUE_count (n : Nat) : Fld := ⟨0x20200018 + 0x100 * n, 0, 4, 0⟩
def CMP_OUT_FETCH_DEMAND_bursts (n : Nat) : Fld := ⟨0x2020001C + 0x100 * n, 0, 32, 0⟩
def CMP_OUT_PIX_DEMAND_pixels (n : Nat) : Fld := ⟨0x20200020 + 0x100 * n, 0, 32, 0⟩
def CMP_SLOT_PLACE_output (m : Nat) : Fld := ⟨0x20201000 + 0x10 * m, 0, 4, 15⟩
def CMP_SLOT_PLACE_z (m : Nat) : Fld := ⟨0x20201000 + 0x10 * m, 8, 5, 0⟩
def CMP_SLOT_PLACE_owner (m : Nat) : Fld := ⟨0x20201000 + 0x10 * m, 16, 5, 0⟩
def CMP_SLOT_CLIP_XY_x (m : Nat) : Fld := ⟨0x20201004 + 0x10 * m, 0, 14, 0⟩
def CMP_SLOT_CLIP_XY_y (m : Nat) : Fld := ⟨0x20201004 + 0x10 * m, 16, 14, 0⟩
def CMP_SLOT_CLIP_WH_w (m : Nat) : Fld := ⟨0x20201008 + 0x10 * m, 0, 14, 8192⟩
def CMP_SLOT_CLIP_WH_h (m : Nat) : Fld := ⟨0x20201008 + 0x10 * m, 16, 14, 8192⟩

/-! Table CMP-17 — Composition, pool and write-back registers (output n, at 0x100 × n) -/

def CMP_OUT_COMPOSE_guard (n : Nat) : Fld := ⟨0x20200024 + 0x100 * n, 0, 4, 2⟩
def CMP_OUT_COMPOSE_dither (n : Nat) : Fld := ⟨0x20200024 + 0x100 * n, 4, 1, 0⟩
def CMP_OUT_COMPOSE_depth8 (n : Nat) : Fld := ⟨0x20200024 + 0x100 * n, 5, 1, 0⟩
def CMP_OUT_COMPOSE_tiles (n : Nat) : Fld := ⟨0x20200024 + 0x100 * n, 8, 6, 0⟩
def CMP_OUT_COMPOSE_bands (n : Nat) : Fld := ⟨0x20200024 + 0x100 * n, 16, 9, 0⟩
def CMP_OUT_POOL_reserved (n : Nat) : Fld := ⟨0x20200028 + 0x100 * n, 0, 11, 0⟩
def CMP_OUT_POOL_in_use (n : Nat) : Fld := ⟨0x20200028 + 0x100 * n, 16, 11, 0⟩
def CMP_OUT_WB_CTRL_enable (n : Nat) : Fld := ⟨0x2020002C + 0x100 * n, 0, 1, 0⟩
def CMP_OUT_WB_CTRL_count (n : Nat) : Fld := ⟨0x2020002C + 0x100 * n, 1, 2, 0⟩
def CMP_OUT_WB_CTRL_polder (n : Nat) : Fld := ⟨0x2020002C + 0x100 * n, 4, 5, 0⟩
def CMP_OUT_WB_STRIDE_stride (n : Nat) : Fld := ⟨0x20200030 + 0x100 * n, 0, 16, 0⟩
def CMP_OUT_WB_BASE_addr (n i : Nat) : Fld := ⟨0x20200038 + 0x100 * n + 0x8 * i, 6, 34, 0⟩
def CMP_OUT_WB_PROGRESS_band (n : Nat) : Fld := ⟨0x20200058 + 0x100 * n, 0, 9, 0⟩
def CMP_OUT_WB_PROGRESS_fill (n : Nat) : Fld := ⟨0x20200058 + 0x100 * n, 9, 1, 0⟩
def CMP_OUT_WB_PROGRESS_dropped (n : Nat) : Fld := ⟨0x20200058 + 0x100 * n, 10, 1, 0⟩
def CMP_OUT_WB_PROGRESS_done (n : Nat) : Fld := ⟨0x20200058 + 0x100 * n, 11, 1, 0⟩
def CMP_OUT_WB_PROGRESS_buffer (n : Nat) : Fld := ⟨0x20200058 + 0x100 * n, 12, 2, 0⟩
def CMP_OUT_WB_FRAME_frame (n : Nat) : Fld := ⟨0x2020005C + 0x100 * n, 0, 32, 0⟩
def CMP_OUT_COUNTS_underruns (n : Nat) : Fld := ⟨0x20200060 + 0x100 * n, 0, 16, 0⟩
def CMP_OUT_COUNTS_abandoned (n : Nat) : Fld := ⟨0x20200060 + 0x100 * n, 16, 16, 0⟩

/-! Table CMP-18 — Engine and scaler registers -/

def CMP_ENG_STAT_busy (e : Nat) : Fld := ⟨0x20202000 + 0x4 * e, 0, 1, 0⟩
def CMP_ENG_STAT_in_reset (e : Nat) : Fld := ⟨0x20202000 + 0x4 * e, 1, 1, 0⟩
def CMP_ENG_STAT_home (e : Nat) : Fld := ⟨0x20202000 + 0x4 * e, 2, 3, (e / 4)⟩
def CMP_ENG_STAT_output (e : Nat) : Fld := ⟨0x20202000 + 0x4 * e, 5, 3, 0⟩
def CMP_ENG_STAT_band (e : Nat) : Fld := ⟨0x20202000 + 0x4 * e, 8, 9, 0⟩
def CMP_ENG_STAT_tile (e : Nat) : Fld := ⟨0x20202000 + 0x4 * e, 17, 5, 0⟩
def CMP_ENG_STAT_epoch (e : Nat) : Fld := ⟨0x20202000 + 0x4 * e, 22, 2, 0⟩
def CMP_ENG_RESET_reset : Fld := ⟨0x20202080, 0, 32, 0⟩
def CMP_ENG_WDOG_cycles : Fld := ⟨0x20202084, 0, 24, 131072⟩
def CMP_ENG_STEALS_count : Fld := ⟨0x20202088, 0, 32, 0⟩
def CMP_ENG_REQUEUES_count : Fld := ⟨0x2020208C, 0, 32, 0⟩
def CMP_ENG_OFFLINE_engines : Fld := ⟨0x20202090, 0, 32, 0⟩
def CMP_OUT_HCOEF_tapLo (n p w : Nat) : Fld := ⟨0x20208000 + 0x800 * n + 0xC * p + 0x4 * w, 0, 12, (hcoefReset p (2 * w))⟩
def CMP_OUT_HCOEF_tapHi (n p w : Nat) : Fld := ⟨0x20208000 + 0x800 * n + 0xC * p + 0x4 * w, 16, 12, (hcoefReset p (2 * w + 1))⟩
def CMP_OUT_V4COEF_tapLo (n p w : Nat) : Fld := ⟨0x20208300 + 0x800 * n + 0x8 * p + 0x4 * w, 0, 12, (v4coefReset p (2 * w))⟩
def CMP_OUT_V4COEF_tapHi (n p w : Nat) : Fld := ⟨0x20208300 + 0x800 * n + 0x8 * p + 0x4 * w, 16, 12, (v4coefReset p (2 * w + 1))⟩
def CMP_OUT_V2COEF_tapLo (n p : Nat) : Fld := ⟨0x20208500 + 0x800 * n + 0x4 * p, 0, 12, (1024 - 16 * p)⟩
def CMP_OUT_V2COEF_tapHi (n p : Nat) : Fld := ⟨0x20208500 + 0x800 * n + 0x4 * p, 16, 12, (16 * p)⟩

/-! Table DKW-10 — Global registers -/

def DKW_KEY_key (k : Nat) : Fld := ⟨0x20240000 + 0x4 * k, 0, 32, 0⟩
def DKW_KEY_CTRL_load : Fld := ⟨0x20240020, 0, 1, 0⟩
def DKW_KEY_CTRL_keyed : Fld := ⟨0x20240020, 1, 1, 0⟩
def DKW_RING_BASE_base : Fld := ⟨0x20240030, 12, 28, 0⟩
def DKW_RING_CTRL_size : Fld := ⟨0x20240038, 0, 15, 0⟩
def DKW_RING_CTRL_enable : Fld := ⟨0x20240038, 16, 1, 0⟩
def DKW_RING_WR_index : Fld := ⟨0x2024003C, 0, 14, 0⟩
def DKW_RING_RD_index : Fld := ⟨0x20240040, 0, 14, 0⟩
def DKW_RING_OVERRUN_count : Fld := ⟨0x20240044, 0, 16, 0⟩
def DKW_STREAM_onl : Fld := ⟨0x20240048, 0, 8, 0⟩
def DKW_STREAM_rec : Fld := ⟨0x20240048, 8, 8, 0⟩
def DKW_HEAD_SNAP_snap : Fld := ⟨0x20240050, 0, 1, 0⟩
def DKW_HEAD_TIME_time : Fld := ⟨0x20240058, 0, 64, 0⟩
def DKW_HEAD_FRAME_frame (n : Nat) : Fld := ⟨0x20240100 + 0x40 * n, 0, 32, 0⟩
def DKW_HEAD_MAC_mac (n k : Nat) : Fld := ⟨0x20240104 + 0x40 * n + 0x4 * k, 0, 32, 0⟩
def DKW_IMG_ADDR_addr (i : Nat) : Fld := ⟨0x20240400 + 0x10 * i, 6, 34, 0⟩
def DKW_IMG_SIZE_w (i : Nat) : Fld := ⟨0x20240408 + 0x10 * i, 0, 14, 0⟩
def DKW_IMG_SIZE_h (i : Nat) : Fld := ⟨0x20240408 + 0x10 * i, 16, 14, 0⟩
def DKW_IMG_FMT_format (i : Nat) : Fld := ⟨0x2024040C + 0x10 * i, 0, 6, 0⟩
def DKW_IMG_FMT_stride (i : Nat) : Fld := ⟨0x2024040C + 0x10 * i, 16, 16, 0⟩

/-! Table DKW-11 — Slot registers (slot m, at 0x1000 + 0x20 × m) -/

def DKW_SLOT_CLASS_class (m : Nat) : Fld := ⟨0x20241000 + 0x20 * m, 0, 2, 0⟩
def DKW_SLOT_CLASS_treatment (m : Nat) : Fld := ⟨0x20241000 + 0x20 * m, 2, 2, 0⟩
def DKW_SLOT_CLASS_image (m : Nat) : Fld := ⟨0x20241000 + 0x20 * m, 4, 4, 0⟩
def DKW_SLOT_CLASS_frozen_n (m : Nat) : Fld := ⟨0x20241000 + 0x20 * m, 8, 8, 0⟩
def DKW_SLOT_CLASS_treat_degraded (m : Nat) : Fld := ⟨0x20241000 + 0x20 * m, 16, 1, 0⟩
def DKW_SLOT_MAXAGE_us (m : Nat) : Fld := ⟨0x20241004 + 0x20 * m, 0, 32, 0⟩
def DKW_SLOT_HBPERIOD_us (m : Nat) : Fld := ⟨0x20241008 + 0x20 * m, 0, 32, 1000000⟩
def DKW_SLOT_MOTION_XY_x (m : Nat) : Fld := ⟨0x2024100C + 0x20 * m, 0, 14, 0⟩
def DKW_SLOT_MOTION_XY_y (m : Nat) : Fld := ⟨0x2024100C + 0x20 * m, 16, 14, 0⟩
def DKW_SLOT_MOTION_WH_w (m : Nat) : Fld := ⟨0x20241010 + 0x20 * m, 0, 14, 0⟩
def DKW_SLOT_MOTION_WH_h (m : Nat) : Fld := ⟨0x20241010 + 0x20 * m, 16, 14, 0⟩
def DKW_SLOT_BLANK_rgb (m : Nat) : Fld := ⟨0x20241014 + 0x20 * m, 0, 30, 0⟩
def DKW_SLOT_STATE_state (m : Nat) : Fld := ⟨0x20241018 + 0x20 * m, 0, 4, 0⟩
def DKW_SLOT_STATE_action (m : Nat) : Fld := ⟨0x20241018 + 0x20 * m, 4, 1, 0⟩
def DKW_SLOT_STATE_dropped (m : Nat) : Fld := ⟨0x20241018 + 0x20 * m, 5, 1, 0⟩
def DKW_SLOT_STATE_run (m : Nat) : Fld := ⟨0x20241018 + 0x20 * m, 8, 8, 0⟩
def DKW_SLOT_AGE_us (m : Nat) : Fld := ⟨0x2024101C + 0x20 * m, 0, 32, 0⟩

/-! Table DKW-12 — Region and output registers (region r of output n at 0x4000 + 0x200 × n + 0x20 × r; output registers at 0x6000 + 0x10 × n) -/

def DKW_OUT_REG_XY_x (n r : Nat) : Fld := ⟨0x20244000 + 0x200 * n + 0x20 * r, 0, 14, 0⟩
def DKW_OUT_REG_XY_y (n r : Nat) : Fld := ⟨0x20244000 + 0x200 * n + 0x20 * r, 16, 14, 0⟩
def DKW_OUT_REG_WH_w (n r : Nat) : Fld := ⟨0x20244004 + 0x200 * n + 0x20 * r, 0, 14, 0⟩
def DKW_OUT_REG_WH_h (n r : Nat) : Fld := ⟨0x20244004 + 0x200 * n + 0x20 * r, 16, 14, 0⟩
def DKW_OUT_REG_CTRL_enable (n r : Nat) : Fld := ⟨0x20244008 + 0x200 * n + 0x20 * r, 0, 1, 0⟩
def DKW_OUT_REG_CTRL_source (n r : Nat) : Fld := ⟨0x20244008 + 0x200 * n + 0x20 * r, 1, 2, 0⟩
def DKW_OUT_REG_CTRL_action (n r : Nat) : Fld := ⟨0x20244008 + 0x200 * n + 0x20 * r, 3, 2, 0⟩
def DKW_OUT_REG_CTRL_bind (n r : Nat) : Fld := ⟨0x20244008 + 0x200 * n + 0x20 * r, 5, 1, 0⟩
def DKW_OUT_REG_CTRL_slot (n r : Nat) : Fld := ⟨0x20244008 + 0x200 * n + 0x20 * r, 6, 6, 0⟩
def DKW_OUT_REG_CTRL_image (n r : Nat) : Fld := ⟨0x20244008 + 0x200 * n + 0x20 * r, 12, 4, 0⟩
def DKW_OUT_REG_EXPECT_value (n r : Nat) : Fld := ⟨0x2024400C + 0x200 * n + 0x20 * r, 0, 32, 0⟩
def DKW_OUT_REG_EXPECT_PUSH_tag (n r : Nat) : Fld := ⟨0x20244010 + 0x200 * n + 0x20 * r, 0, 32, 0⟩
def DKW_OUT_REG_EXPECT_STAT_queued (n r : Nat) : Fld := ⟨0x20244014 + 0x200 * n + 0x20 * r, 0, 3, 0⟩
def DKW_OUT_REG_EXPECT_STAT_overflow (n r : Nat) : Fld := ⟨0x20244014 + 0x200 * n + 0x20 * r, 3, 1, 0⟩
def DKW_OUT_REG_LAST_sig (n r : Nat) : Fld := ⟨0x20244018 + 0x200 * n + 0x20 * r, 0, 32, 0⟩
def DKW_OUT_REG_STAT_status (n r : Nat) : Fld := ⟨0x2024401C + 0x200 * n + 0x20 * r, 0, 4, 0⟩
def DKW_OUT_BREACH_region (n : Nat) : Fld := ⟨0x20246000 + 0x10 * n, 0, 16, 0⟩
def DKW_OUT_RELEARN_region (n : Nat) : Fld := ⟨0x20246004 + 0x10 * n, 0, 16, 0⟩
def DKW_OUT_COUNT_breaches (n : Nat) : Fld := ⟨0x20246008 + 0x10 * n, 0, 16, 0⟩
def DKW_OUT_COUNT_tiles (n : Nat) : Fld := ⟨0x20246008 + 0x10 * n, 16, 16, 0⟩

/-! Table SCN-6 — SCN registers -/

def SCN_HTIME0_h_active (n : Nat) : Fld := ⟨0x20280000 + 0x10000 * n, 0, 14, 0⟩
def SCN_HTIME0_h_total (n : Nat) : Fld := ⟨0x20280000 + 0x10000 * n, 16, 14, 0⟩
def SCN_HTIME1_hsync_start (n : Nat) : Fld := ⟨0x20280004 + 0x10000 * n, 0, 14, 0⟩
def SCN_HTIME1_hsync_end (n : Nat) : Fld := ⟨0x20280004 + 0x10000 * n, 16, 14, 0⟩
def SCN_HTIME1_hpol (n : Nat) : Fld := ⟨0x20280004 + 0x10000 * n, 31, 1, 0⟩
def SCN_VTIME0_v_active (n : Nat) : Fld := ⟨0x20280008 + 0x10000 * n, 0, 14, 0⟩
def SCN_VTIME0_v_total (n : Nat) : Fld := ⟨0x20280008 + 0x10000 * n, 16, 14, 0⟩
def SCN_VTIME1_vsync_start (n : Nat) : Fld := ⟨0x2028000C + 0x10000 * n, 0, 14, 0⟩
def SCN_VTIME1_vsync_end (n : Nat) : Fld := ⟨0x2028000C + 0x10000 * n, 16, 14, 0⟩
def SCN_VTIME1_vpol (n : Nat) : Fld := ⟨0x2028000C + 0x10000 * n, 31, 1, 0⟩
def SCN_PACE_INC_frac (n : Nat) : Fld := ⟨0x20280010 + 0x10000 * n, 0, 32, 0⟩
def SCN_PACE_INC_int (n : Nat) : Fld := ⟨0x20280010 + 0x10000 * n, 32, 3, 0⟩
def SCN_FORMAT_depth8 (n : Nat) : Fld := ⟨0x20280018 + 0x10000 * n, 0, 1, 0⟩
def SCN_FORMAT_link (n : Nat) : Fld := ⟨0x20280018 + 0x10000 * n, 1, 3, 0⟩
def SCN_FORMAT_cmd_mode (n : Nat) : Fld := ⟨0x20280018 + 0x10000 * n, 4, 1, 0⟩
def SCN_FORMAT_te_en (n : Nat) : Fld := ⟨0x20280018 + 0x10000 * n, 5, 1, 0⟩
def SCN_FORMAT_bt2020 (n : Nat) : Fld := ⟨0x20280018 + 0x10000 * n, 6, 1, 0⟩
def SCN_FORMAT_dsc (n : Nat) : Fld := ⟨0x20280018 + 0x10000 * n, 7, 1, 0⟩
def SCN_RATE_mhz (n : Nat) : Fld := ⟨0x2028001C + 0x10000 * n, 0, 20, 0⟩
def SCN_FILL_rgb (n : Nat) : Fld := ⟨0x20280020 + 0x10000 * n, 0, 30, 0x20080200⟩
def SCN_FRAME_frame (n : Nat) : Fld := ⟨0x20280024 + 0x10000 * n, 0, 32, 0⟩
def SCN_FLIP_TIME_time (n : Nat) : Fld := ⟨0x20280028 + 0x10000 * n, 0, 64, 0⟩
def SCN_POS_line (n : Nat) : Fld := ⟨0x20280030 + 0x10000 * n, 0, 14, 0⟩
def SCN_POS_pixel (n : Nat) : Fld := ⟨0x20280030 + 0x10000 * n, 16, 14, 0⟩
def SCN_STATUS_running (n : Nat) : Fld := ⟨0x20280034 + 0x10000 * n, 0, 1, 0⟩
def SCN_STATUS_link_up (n : Nat) : Fld := ⟨0x20280034 + 0x10000 * n, 1, 1, 0⟩
def SCN_STATUS_sink (n : Nat) : Fld := ⟨0x20280034 + 0x10000 * n, 2, 1, 0⟩
def SCN_STATUS_stretching (n : Nat) : Fld := ⟨0x20280034 + 0x10000 * n, 3, 1, 0⟩
def SCN_LINK_rate (n : Nat) : Fld := ⟨0x20280038 + 0x10000 * n, 0, 4, 0⟩
def SCN_LINK_lanes (n : Nat) : Fld := ⟨0x20280038 + 0x10000 * n, 4, 3, 0⟩
def SCN_LINK_dsi_rate (n : Nat) : Fld := ⟨0x20280038 + 0x10000 * n, 16, 16, 0⟩
def SCN_DSC_bpp16 (n : Nat) : Fld := ⟨0x2028003C + 0x10000 * n, 0, 10, 0⟩
def SCN_DSC_slices (n : Nat) : Fld := ⟨0x2028003C + 0x10000 * n, 10, 4, 0⟩
def SCN_DSC_slice_h (n : Nat) : Fld := ⟨0x2028003C + 0x10000 * n, 16, 14, 0⟩
def SCN_LINK_DELAY_ns (n : Nat) : Fld := ⟨0x20280040 + 0x10000 * n, 0, 16, 0⟩
def SCN_LOCK_CTRL_enable (n : Nat) : Fld := ⟨0x20280050 + 0x10000 * n, 0, 1, 0⟩
def SCN_LOCK_CTRL_method (n : Nat) : Fld := ⟨0x20280050 + 0x10000 * n, 1, 1, 0⟩
def SCN_LOCK_CTRL_max_stretch (n : Nat) : Fld := ⟨0x20280050 + 0x10000 * n, 2, 14, 0⟩
def SCN_LOCK_CTRL_group (n : Nat) : Fld := ⟨0x20280050 + 0x10000 * n, 16, 16, 0⟩
def SCN_LOCK_PHASE_ns (n : Nat) : Fld := ⟨0x20280054 + 0x10000 * n, 0, 32, 0⟩
def SCN_LOCK_ERR_ns (n : Nat) : Fld := ⟨0x20280058 + 0x10000 * n, 0, 32, 0⟩
def SCN_LOCK_STAT_state (n : Nat) : Fld := ⟨0x2028005C + 0x10000 * n, 0, 2, 0⟩
def SCN_LOCK_STAT_time_unsync (n : Nat) : Fld := ⟨0x2028005C + 0x10000 * n, 2, 1, 0⟩
def SCN_LOCK_STAT_trim (n : Nat) : Fld := ⟨0x2028005C + 0x10000 * n, 16, 16, 0⟩
def SCN_LOCK_TARGET_time (n : Nat) : Fld := ⟨0x20280060 + 0x10000 * n, 0, 64, 0⟩

/-! Table GFX-1 — Device registers -/

def GFX_STATUS_busy : Fld := ⟨0x20300000, 0, 16, 0⟩
def GFX_STATUS_rt_active : Fld := ⟨0x20300000, 16, 1, 0⟩
def GFX_RESERVE_count : Fld := ⟨0x20300004, 0, 4, 0⟩
def GFX_RESERVE_floor : Fld := ⟨0x20300004, 4, 4, 0⟩
def GFX_RESERVE_mask : Fld := ⟨0x20300004, 16, 16, 0⟩
def GFX_RT_ALLOW_polders : Fld := ⟨0x20300008, 0, 32, 0x1⟩
def GFX_WDOG_ms : Fld := ⟨0x2030000C, 0, 10, 100⟩
def GFX_PREEMPTS_count : Fld := ⟨0x20300010, 0, 32, 0⟩
def GFX_AREA_first (p : Nat) : Fld := ⟨0x20300100 + 0x4 * p, 0, 8, 0⟩
def GFX_AREA_count (p : Nat) : Fld := ⟨0x20300100 + 0x4 * p, 9, 9, 0⟩

/-! Table GFX-2 — Window registers (window w at 0x1000 + 0x100 × w within the doorbell page) -/

def GFX_CTX_SUB_ADDR_addr (p w : Nat) : Fld := ⟨0x30001000 + 0x10000 * p + 0x100 * w, 6, 34, 0⟩
def GFX_CTX_SUB_LEN_bytes (p w : Nat) : Fld := ⟨0x30001008 + 0x10000 * p + 0x100 * w, 0, 24, 0⟩
def GFX_CTX_SUB_LEN_irq (p w : Nat) : Fld := ⟨0x30001008 + 0x10000 * p + 0x100 * w, 31, 1, 0⟩
def GFX_CTX_SUB_FENCE_addr (p w : Nat) : Fld := ⟨0x30001010 + 0x10000 * p + 0x100 * w, 3, 37, 0⟩
def GFX_CTX_SUB_VALUE_value (p w : Nat) : Fld := ⟨0x30001018 + 0x10000 * p + 0x100 * w, 0, 64, 0⟩
def GFX_CTX_DOORBELL_submit (p w : Nat) : Fld := ⟨0x30001020 + 0x10000 * p + 0x100 * w, 0, 1, 0⟩
def GFX_CTX_DB_STATUS_status (p w : Nat) : Fld := ⟨0x30001024 + 0x10000 * p + 0x100 * w, 0, 16, 0⟩
def GFX_CTX_DB_STATUS_number (p w : Nat) : Fld := ⟨0x30001024 + 0x10000 * p + 0x100 * w, 16, 16, 0⟩
def GFX_CTX_STAT_state (p w : Nat) : Fld := ⟨0x30001028 + 0x10000 * p + 0x100 * w, 0, 3, 0⟩
def GFX_CTX_STAT_class (p w : Nat) : Fld := ⟨0x30001028 + 0x10000 * p + 0x100 * w, 3, 1, 0⟩
def GFX_CTX_STAT_priority (p w : Nat) : Fld := ⟨0x30001028 + 0x10000 * p + 0x100 * w, 4, 2, 0⟩
def GFX_CTX_STAT_queued (p w : Nat) : Fld := ⟨0x30001028 + 0x10000 * p + 0x100 * w, 6, 7, 0⟩
def GFX_CTX_STAT_resident (p w : Nat) : Fld := ⟨0x30001028 + 0x10000 * p + 0x100 * w, 13, 1, 0⟩
def GFX_CTX_STAT_context (p w : Nat) : Fld := ⟨0x30001028 + 0x10000 * p + 0x100 * w, 14, 8, 0⟩
def GFX_CTX_DONE_number (p w : Nat) : Fld := ⟨0x3000102C + 0x10000 * p + 0x100 * w, 0, 32, 0⟩
def GFX_CTX_FAULT_reason (p w : Nat) : Fld := ⟨0x30001030 + 0x10000 * p + 0x100 * w, 0, 8, 0⟩
def GFX_CTX_FAULT_offset (p w : Nat) : Fld := ⟨0x30001030 + 0x10000 * p + 0x100 * w, 8, 24, 0⟩
def GFX_CTX_FAULT_SUB_number (p w : Nat) : Fld := ⟨0x30001034 + 0x10000 * p + 0x100 * w, 0, 32, 0⟩
def GFX_CTX_SPILLS_count (p w : Nat) : Fld := ⟨0x30001038 + 0x10000 * p + 0x100 * w, 0, 32, 0⟩
def GFX_CTX_NONRES_count (p w : Nat) : Fld := ⟨0x3000103C + 0x10000 * p + 0x100 * w, 0, 32, 0⟩
def GFX_CTX_TESS_CLAMP_count (p w : Nat) : Fld := ⟨0x30001040 + 0x10000 * p + 0x100 * w, 0, 32, 0⟩
def GFX_CTX_PEAK_kib (p w : Nat) : Fld := ⟨0x30001044 + 0x10000 * p + 0x100 * w, 0, 16, 0⟩
def GFX_CTX_EVENT_done (p w : Nat) : Fld := ⟨0x30001048 + 0x10000 * p + 0x100 * w, 0, 1, 0⟩
def GFX_CTX_EVENT_fault (p w : Nat) : Fld := ⟨0x30001048 + 0x10000 * p + 0x100 * w, 1, 1, 0⟩
def GFX_CTX_EVENT_spill (p w : Nat) : Fld := ⟨0x30001048 + 0x10000 * p + 0x100 * w, 2, 1, 0⟩

/-! Table VCD-5 — Session window registers (session s at 0x2000 + 0x38 × s within the doorbell page) -/

def VCD_SES_ADDR_addr (s : Nat) : Fld := ⟨0x30002000 + 0x38 * s, 0, 40, 0⟩
def VCD_SES_LEN_bytes (s : Nat) : Fld := ⟨0x30002008 + 0x38 * s, 0, 24, 0⟩
def VCD_SES_LEN_eos (s : Nat) : Fld := ⟨0x30002008 + 0x38 * s, 24, 1, 0⟩
def VCD_SES_LEN_discont (s : Nat) : Fld := ⟨0x30002008 + 0x38 * s, 25, 1, 0⟩
def VCD_SES_LEN_key (s : Nat) : Fld := ⟨0x30002008 + 0x38 * s, 26, 1, 0⟩
def VCD_SES_DOORBELL_submit (s : Nat) : Fld := ⟨0x3000200C + 0x38 * s, 0, 1, 0⟩
def VCD_SES_TS_ts (s : Nat) : Fld := ⟨0x30002010 + 0x38 * s, 0, 64, 0⟩
def VCD_SES_DB_STATUS_status (s : Nat) : Fld := ⟨0x30002018 + 0x38 * s, 0, 16, 0⟩
def VCD_SES_DB_STATUS_number (s : Nat) : Fld := ⟨0x30002018 + 0x38 * s, 16, 16, 0⟩
def VCD_SES_STAT_state (s : Nat) : Fld := ⟨0x3000201C + 0x38 * s, 0, 3, 0⟩
def VCD_SES_STAT_queued (s : Nat) : Fld := ⟨0x3000201C + 0x38 * s, 3, 6, 0⟩
def VCD_SES_STAT_starved (s : Nat) : Fld := ⟨0x3000201C + 0x38 * s, 9, 1, 0⟩
def VCD_SES_STAT_grain (s : Nat) : Fld := ⟨0x3000201C + 0x38 * s, 10, 1, 0⟩
def VCD_SES_STAT_key_pending (s : Nat) : Fld := ⟨0x3000201C + 0x38 * s, 11, 1, 0⟩
def VCD_SES_STAT_concealed (s : Nat) : Fld := ⟨0x3000201C + 0x38 * s, 12, 8, 0⟩
def VCD_SES_DONE_number (s : Nat) : Fld := ⟨0x30002020 + 0x38 * s, 0, 32, 0⟩
def VCD_SES_RING_WR_offset (s : Nat) : Fld := ⟨0x30002024 + 0x38 * s, 0, 24, 0⟩
def VCD_SES_RING_RD_offset (s : Nat) : Fld := ⟨0x30002028 + 0x38 * s, 0, 24, 0⟩
def VCD_SES_KEYREQ_req (s : Nat) : Fld := ⟨0x3000202C + 0x38 * s, 0, 1, 0⟩
def VCD_SES_EVENT_done (s : Nat) : Fld := ⟨0x30002030 + 0x38 * s, 0, 1, 0⟩
def VCD_SES_EVENT_fault (s : Nat) : Fld := ⟨0x30002030 + 0x38 * s, 1, 1, 0⟩
def VCD_SES_EVENT_lost (s : Nat) : Fld := ⟨0x30002030 + 0x38 * s, 2, 1, 0⟩
def VCD_SES_EVENT_overshoot (s : Nat) : Fld := ⟨0x30002030 + 0x38 * s, 3, 1, 0⟩
def VCD_SES_EVENT_ring (s : Nat) : Fld := ⟨0x30002030 + 0x38 * s, 4, 1, 0⟩

/-! Table VCD-6 — VCD device registers (0x00_2040_0000; writes follow R24) -/

def VCD_STATUS_busy : Fld := ⟨0x20400000, 0, 16, 0⟩
def VCD_LOAD_DEC_samples : Fld := ⟨0x20400004, 0, 32, 0⟩
def VCD_LOAD_ENC_samples : Fld := ⟨0x20400008, 0, 32, 0⟩
def VCD_ENG_RESET_reset : Fld := ⟨0x2040000C, 0, 16, 0⟩
def VCD_ENG_OFFLINE_engines : Fld := ⟨0x20400010, 0, 16, 0⟩
def VCD_REQUEUES_count : Fld := ⟨0x20400014, 0, 32, 0⟩

/-! Table CAP-1 — Capture registers (input c at 0x00_2050_0000 + c × 0x1_0000; written by Tujan) -/

def CAP_CTRL_enable (c : Nat) : Fld := ⟨0x20500000 + 0x10000 * c, 0, 1, 0⟩
def CAP_CTRL_slot (c : Nat) : Fld := ⟨0x20500000 + 0x10000 * c, 1, 6, 0⟩
def CAP_CTRL_buffers (c : Nat) : Fld := ⟨0x20500000 + 0x10000 * c, 8, 2, 0⟩
def CAP_CTRL_present (c : Nat) : Fld := ⟨0x20500000 + 0x10000 * c, 10, 1, 0⟩
def CAP_DELAY_us (c : Nat) : Fld := ⟨0x20500004 + 0x10000 * c, 0, 32, 0⟩
def CAP_STRIDE_stride (c : Nat) : Fld := ⟨0x20500008 + 0x10000 * c, 0, 16, 0⟩
def CAP_BUF_addr (c i : Nat) : Fld := ⟨0x20500010 + 0x10000 * c + 0x8 * i, 6, 34, 0⟩
def CAP_STATUS_signal (c : Nat) : Fld := ⟨0x20500030 + 0x10000 * c, 0, 1, 0⟩
def CAP_STATUS_hdcp (c : Nat) : Fld := ⟨0x20500030 + 0x10000 * c, 1, 1, 0⟩
def CAP_STATUS_unsupported (c : Nat) : Fld := ⟨0x20500030 + 0x10000 * c, 2, 1, 0⟩
def CAP_STATUS_stopped (c : Nat) : Fld := ⟨0x20500030 + 0x10000 * c, 3, 1, 0⟩
def CAP_STATUS_format (c : Nat) : Fld := ⟨0x20500030 + 0x10000 * c, 4, 6, 0⟩
def CAP_TIMING_h (c : Nat) : Fld := ⟨0x20500034 + 0x10000 * c, 0, 14, 0⟩
def CAP_TIMING_v (c : Nat) : Fld := ⟨0x20500034 + 0x10000 * c, 16, 14, 0⟩
def CAP_RATE_mhz (c : Nat) : Fld := ⟨0x20500038 + 0x10000 * c, 0, 20, 0⟩
def CAP_TIME_time (c : Nat) : Fld := ⟨0x20500040 + 0x10000 * c, 0, 64, 0⟩
def CAP_COUNTS_queued (c : Nat) : Fld := ⟨0x20500048 + 0x10000 * c, 0, 16, 0⟩
def CAP_COUNTS_dropped (c : Nat) : Fld := ⟨0x20500048 + 0x10000 * c, 16, 16, 0⟩

/-! Table AUD-6 — AUD device registers -/

def AUD_DOM_CTRL_enable (d : Nat) : Fld := ⟨0x20600000 + 0x10 * d, 0, 1, (if d = 0 then 1 else 0)⟩
def AUD_DOM_CTRL_ref (d : Nat) : Fld := ⟨0x20600000 + 0x10 * d, 1, 2, 0⟩
def AUD_DOM_CTRL_rate (d : Nat) : Fld := ⟨0x20600000 + 0x10 * d, 4, 18, (if d = 0 then 48000 else 0)⟩
def AUD_DOM_STAT_locked (d : Nat) : Fld := ⟨0x20600004 + 0x10 * d, 0, 1, 0⟩
def AUD_DOM_STAT_offset (d : Nat) : Fld := ⟨0x20600004 + 0x10 * d, 16, 16, 0⟩
def AUD_DOM_SAMPLES_count (d : Nat) : Fld := ⟨0x20600008 + 0x10 * d, 0, 64, 0⟩
def AUD_TDM_CFG_enable (p : Nat) : Fld := ⟨0x20600100 + 0x4 * p, 0, 1, 0⟩
def AUD_TDM_CFG_domain (p : Nat) : Fld := ⟨0x20600100 + 0x4 * p, 1, 2, 0⟩
def AUD_TDM_CFG_slots (p : Nat) : Fld := ⟨0x20600100 + 0x4 * p, 3, 5, 0⟩
def AUD_TDM_CFG_width (p : Nat) : Fld := ⟨0x20600100 + 0x4 * p, 8, 2, 0⟩
def AUD_TDM_CFG_master (p : Nat) : Fld := ⟨0x20600100 + 0x4 * p, 10, 1, 0⟩
def AUD_TDM_CFG_delay1 (p : Nat) : Fld := ⟨0x20600100 + 0x4 * p, 11, 1, 0⟩
def AUD_AES67_CFG_domain : Fld := ⟨0x20600140, 0, 2, 0⟩
def AUD_BRG_CFG_enable (b : Nat) : Fld := ⟨0x20600200 + 0x4 * b, 0, 1, 0⟩
def AUD_BRG_CFG_src (b : Nat) : Fld := ⟨0x20600200 + 0x4 * b, 1, 2, 0⟩
def AUD_BRG_CFG_dst (b : Nat) : Fld := ⟨0x20600200 + 0x4 * b, 3, 2, 0⟩
def AUD_BRG_CFG_offset (b : Nat) : Fld := ⟨0x20600200 + 0x4 * b, 16, 16, 0⟩
def AUD_ST_CFG_in (u : Nat) : Fld := ⟨0x20600300 + 0x4 * u, 0, 7, 0⟩
def AUD_ST_CFG_out (u : Nat) : Fld := ⟨0x20600300 + 0x4 * u, 8, 7, 0⟩
def AUD_ST_CFG_gain (u : Nat) : Fld := ⟨0x20600300 + 0x4 * u, 15, 8, 0⟩
def AUD_ST_CFG_enable (u : Nat) : Fld := ⟨0x20600300 + 0x4 * u, 23, 1, 0⟩
def AUD_LOAD_cost : Fld := ⟨0x20600400, 0, 16, 0⟩
def AUD_LOAD_budget : Fld := ⟨0x20600400, 16, 16, 0⟩

/-! Table AUD-7 — Audio registers in the doorbell page (sub-page 0x3000) -/

def AUD_RING_BASE_addr (p r : Nat) : Fld := ⟨0x30003000 + 0x10000 * p + 0x20 * r, 6, 34, 0⟩
def AUD_RING_CFG_enable (p r : Nat) : Fld := ⟨0x30003008 + 0x10000 * p + 0x20 * r, 0, 1, 0⟩
def AUD_RING_CFG_dir (p r : Nat) : Fld := ⟨0x30003008 + 0x10000 * p + 0x20 * r, 1, 1, 0⟩
def AUD_RING_CFG_domain (p r : Nat) : Fld := ⟨0x30003008 + 0x10000 * p + 0x20 * r, 2, 2, 0⟩
def AUD_RING_CFG_chans (p r : Nat) : Fld := ⟨0x30003008 + 0x10000 * p + 0x20 * r, 4, 4, 0⟩
def AUD_RING_CFG_irq (p r : Nat) : Fld := ⟨0x30003008 + 0x10000 * p + 0x20 * r, 8, 1, 0⟩
def AUD_RING_CFG_frames (p r : Nat) : Fld := ⟨0x30003008 + 0x10000 * p + 0x20 * r, 12, 20, 0⟩
def AUD_RING_WR_frame (p r : Nat) : Fld := ⟨0x3000300C + 0x10000 * p + 0x20 * r, 0, 20, 0⟩
def AUD_RING_RD_frame (p r : Nat) : Fld := ⟨0x30003010 + 0x10000 * p + 0x20 * r, 0, 20, 0⟩
def AUD_RING_STAT_active (p r : Nat) : Fld := ⟨0x30003014 + 0x10000 * p + 0x20 * r, 0, 1, 0⟩
def AUD_RING_STAT_bad_addr (p r : Nat) : Fld := ⟨0x30003014 + 0x10000 * p + 0x20 * r, 1, 1, 0⟩
def AUD_RING_STAT_errors (p r : Nat) : Fld := ⟨0x30003014 + 0x10000 * p + 0x20 * r, 4, 16, 0⟩
def AUD_SWAP_swap (p : Nat) : Fld := ⟨0x30003100 + 0x10000 * p, 0, 1, 0⟩
def AUD_SWAP_xfade (p : Nat) : Fld := ⟨0x30003100 + 0x10000 * p, 1, 2, 0⟩
def AUD_SWAP_STATUS_status (p : Nat) : Fld := ⟨0x30003104 + 0x10000 * p, 0, 16, 0⟩
def AUD_SWAP_STATUS_state (p : Nat) : Fld := ⟨0x30003104 + 0x10000 * p, 16, 2, 0⟩
def AUD_SWAP_SAMPLE_count (p : Nat) : Fld := ⟨0x30003108 + 0x10000 * p, 0, 64, 0⟩
def AUD_PROG_STAT_active (p : Nat) : Fld := ⟨0x30003110 + 0x10000 * p, 0, 1, 0⟩
def AUD_PROG_STAT_staged (p : Nat) : Fld := ⟨0x30003110 + 0x10000 * p, 1, 1, 0⟩
def AUD_PROG_STAT_cost (p : Nat) : Fld := ⟨0x30003110 + 0x10000 * p, 16, 16, 0⟩
def AUD_EVENT_lines (p : Nat) : Fld := ⟨0x30003114 + 0x10000 * p, 0, 4, 0⟩
def AUD_METER_CLR_clear (p : Nat) : Fld := ⟨0x30003200 + 0x10000 * p, 0, 32, 0⟩
def AUD_METER_peak (p m : Nat) : Fld := ⟨0x30003280 + 0x10000 * p + 0x4 * m, 0, 31, 0⟩
def AUD_GAIN_gain (p g : Nat) : Fld := ⟨0x30003400 + 0x10000 * p + 0x4 * g, 0, 32, 0x10000000⟩

/-! Table HAP-3 — HAP channel registers -/

def HAP_CH_CTRL_enable (c : Nat) : Fld := ⟨0x20640000 + 0x100 * c, 0, 1, 0⟩
def HAP_CH_CTRL_bus_en (c : Nat) : Fld := ⟨0x20640000 + 0x100 * c, 1, 1, 0⟩
def HAP_CH_CTRL_dead (c : Nat) : Fld := ⟨0x20640000 + 0x100 * c, 2, 6, 8⟩
def HAP_CH_DRIVE_inom (c : Nat) : Fld := ⟨0x20640004 + 0x100 * c, 0, 12, 0⟩
def HAP_CH_DRIVE_od (c : Nat) : Fld := ⟨0x20640004 + 0x100 * c, 12, 5, 24⟩
def HAP_CH_DRIVE_od_ms (c : Nat) : Fld := ⟨0x20640004 + 0x100 * c, 17, 4, 4⟩
def HAP_CH_DRIVE_brake_max (c : Nat) : Fld := ⟨0x20640004 + 0x100 * c, 21, 7, 12⟩
def HAP_CH_LIMIT_ilim (c : Nat) : Fld := ⟨0x20640008 + 0x100 * c, 0, 13, 0⟩
def HAP_CH_SENSE_afs (c : Nat) : Fld := ⟨0x2064000C + 0x100 * c, 0, 16, 0⟩
def HAP_CH_SENSE_rest (c : Nat) : Fld := ⟨0x2064000C + 0x100 * c, 16, 16, 50⟩
def HAP_CH_RES_f0 (c : Nat) : Fld := ⟨0x20640010 + 0x100 * c, 0, 16, 1700⟩
def HAP_CH_RES_q (c : Nat) : Fld := ⟨0x20640010 + 0x100 * c, 16, 16, 2560⟩
def HAP_CH_STAT_state (c : Nat) : Fld := ⟨0x20640014 + 0x100 * c, 0, 3, 0⟩
def HAP_CH_STAT_effect (c : Nat) : Fld := ⟨0x20640014 + 0x100 * c, 3, 3, 0⟩
def HAP_CH_STAT_alert (c : Nat) : Fld := ⟨0x20640014 + 0x100 * c, 6, 1, 0⟩
def HAP_CH_STAT_pending (c : Nat) : Fld := ⟨0x20640014 + 0x100 * c, 7, 1, 0⟩
def HAP_CH_STAT_pend_fx (c : Nat) : Fld := ⟨0x20640014 + 0x100 * c, 8, 3, 0⟩
def HAP_CH_STAT_open_loop (c : Nat) : Fld := ⟨0x20640014 + 0x100 * c, 11, 1, 0⟩
def HAP_CH_MEAS_current (c : Nat) : Fld := ⟨0x20640018 + 0x100 * c, 0, 16, 0⟩
def HAP_CH_MEAS_accel (c : Nat) : Fld := ⟨0x20640018 + 0x100 * c, 16, 16, 0⟩

/-! Table HAP-4 — Haptic registers in the doorbell page (sub-page 0x4000; channel c, effect k) -/

def HAP_FX_ADDR_addr (p c k : Nat) : Fld := ⟨0x30004000 + 0x10000 * p + 0x80 * c + 0x10 * k, 1, 39, 0⟩
def HAP_FX_CTRL_len (p c k : Nat) : Fld := ⟨0x30004008 + 0x10000 * p + 0x80 * c + 0x10 * k, 0, 14, 0⟩
def HAP_FX_CTRL_alert (p c k : Nat) : Fld := ⟨0x30004008 + 0x10000 * p + 0x80 * c + 0x10 * k, 14, 1, 0⟩
def HAP_FX_GAIN_gain (p c k : Nat) : Fld := ⟨0x3000400C + 0x10000 * p + 0x80 * c + 0x10 * k, 0, 16, 32768⟩
def HAP_TRIGGER_channel (p : Nat) : Fld := ⟨0x30004400 + 0x10000 * p, 0, 3, 0⟩
def HAP_TRIGGER_effect (p : Nat) : Fld := ⟨0x30004400 + 0x10000 * p, 4, 3, 0⟩
def HAP_TRIG_STATUS_status (p : Nat) : Fld := ⟨0x30004404 + 0x10000 * p, 0, 16, 0⟩
def HAP_TRIG_STATUS_channel (p : Nat) : Fld := ⟨0x30004404 + 0x10000 * p, 16, 3, 0⟩
def HAP_TRIG_STATUS_effect (p : Nat) : Fld := ⟨0x30004404 + 0x10000 * p, 20, 3, 0⟩
def HAP_EVENT_ended (p : Nat) : Fld := ⟨0x30004408 + 0x10000 * p, 0, 8, 0⟩
def HAP_EVENT_fault (p : Nat) : Fld := ⟨0x30004408 + 0x10000 * p, 8, 8, 0⟩
def HAP_EVENT_dropped (p : Nat) : Fld := ⟨0x30004408 + 0x10000 * p, 16, 8, 0⟩

/-! Table TCH-4 — TCH registers -/

def TCH_CTRL_enable (c : Nat) : Fld := ⟨0x20680000 + 0x10000 * c, 0, 1, 0⟩
def TCH_CTRL_code16 (c : Nat) : Fld := ⟨0x20680000 + 0x10000 * c, 1, 1, 0⟩
def TCH_CTRL_wake_en (c : Nat) : Fld := ⟨0x20680000 + 0x10000 * c, 2, 1, 0⟩
def TCH_CTRL_diag (c : Nat) : Fld := ⟨0x20680000 + 0x10000 * c, 3, 1, 0⟩
def TCH_CTRL_output (c : Nat) : Fld := ⟨0x20680000 + 0x10000 * c, 4, 3, 0⟩
def TCH_CTRL_tx (c : Nat) : Fld := ⟨0x20680000 + 0x10000 * c, 8, 7, 0⟩
def TCH_CTRL_rx (c : Nat) : Fld := ⟨0x20680000 + 0x10000 * c, 16, 7, 0⟩
def TCH_CTRL_rate (c : Nat) : Fld := ⟨0x20680000 + 0x10000 * c, 24, 8, 0⟩
def TCH_SCAN_cycles (c : Nat) : Fld := ⟨0x20680004 + 0x10000 * c, 0, 6, 8⟩
def TCH_SCAN_confirm (c : Nat) : Fld := ⟨0x20680004 + 0x10000 * c, 8, 4, 8⟩
def TCH_SCAN_track_div (c : Nat) : Fld := ⟨0x20680004 + 0x10000 * c, 12, 8, 8⟩
def TCH_SCAN_max_size (c : Nat) : Fld := ⟨0x20680004 + 0x10000 * c, 20, 8, 36⟩
def TCH_THRESH_touch_th (c : Nat) : Fld := ⟨0x20680008 + 0x10000 * c, 0, 16, 200⟩
def TCH_THRESH_rel_th (c : Nat) : Fld := ⟨0x20680008 + 0x10000 * c, 16, 16, 100⟩
def TCH_NOISECFG_noise_th (c : Nat) : Fld := ⟨0x2068000C + 0x10000 * c, 0, 16, 400⟩
def TCH_NOISECFG_hyst (c : Nat) : Fld := ⟨0x2068000C + 0x10000 * c, 16, 16, 100⟩
def TCH_FREQ_khz (c k : Nat) : Fld := ⟨0x20680010 + 0x10000 * c + 0x4 * k, 0, 9, ([109, 151, 199, 251, 301, 349, 401, 449].getD k 0)⟩
def TCH_STUCK_seconds (c : Nat) : Fld := ⟨0x20680030 + 0x10000 * c, 0, 17, 0⟩
def TCH_SNAP_ADDR_addr (c : Nat) : Fld := ⟨0x20680038 + 0x10000 * c, 12, 28, 0⟩
def TCH_MAP_m (c i : Nat) : Fld := ⟨0x20680040 + 0x10000 * c + 0x4 * i, 0, 32, 0⟩
def TCH_STAT_state (c : Nat) : Fld := ⟨0x20680060 + 0x10000 * c, 0, 2, 0⟩
def TCH_STAT_freq (c : Nat) : Fld := ⟨0x20680060 + 0x10000 * c, 2, 3, 0⟩
def TCH_STAT_high_noise (c : Nat) : Fld := ⟨0x20680060 + 0x10000 * c, 5, 1, 0⟩
def TCH_STAT_snap_valid (c : Nat) : Fld := ⟨0x20680060 + 0x10000 * c, 6, 1, 0⟩
def TCH_STAT_contacts (c : Nat) : Fld := ⟨0x20680060 + 0x10000 * c, 8, 5, 0⟩
def TCH_STAT_suspect (c : Nat) : Fld := ⟨0x20680060 + 0x10000 * c, 16, 5, 0⟩
def TCH_FRAME_count (c : Nat) : Fld := ⟨0x20680064 + 0x10000 * c, 0, 32, 0⟩
def TCH_FRAME_TIME_time (c : Nat) : Fld := ⟨0x20680068 + 0x10000 * c, 0, 64, 0⟩
def TCH_COUNTS_sat (c : Nat) : Fld := ⟨0x20680070 + 0x10000 * c, 0, 16, 0⟩
def TCH_COUNTS_hops (c : Nat) : Fld := ⟨0x20680070 + 0x10000 * c, 16, 8, 0⟩
def TCH_COUNTS_over (c : Nat) : Fld := ⟨0x20680070 + 0x10000 * c, 24, 8, 0⟩
def TCH_NLEV_level (c k : Nat) : Fld := ⟨0x20680080 + 0x10000 * c + 0x4 * k, 0, 16, 0⟩

/-! Table TCH-5 — Touch queue registers (sub-page 0x5000; channel c at 0x5000 + 0x40 × c) -/

def TCH_Q_BASE_addr (p c : Nat) : Fld := ⟨0x30005000 + 0x10000 * p + 0x40 * c, 6, 34, 0⟩
def TCH_Q_CFG_enable (p c : Nat) : Fld := ⟨0x30005008 + 0x10000 * p + 0x40 * c, 0, 1, 0⟩
def TCH_Q_CFG_irq (p c : Nat) : Fld := ⟨0x30005008 + 0x10000 * p + 0x40 * c, 1, 1, 0⟩
def TCH_Q_CFG_size (p c : Nat) : Fld := ⟨0x30005008 + 0x10000 * p + 0x40 * c, 4, 4, 0⟩
def TCH_Q_WR_index (p c : Nat) : Fld := ⟨0x3000500C + 0x10000 * p + 0x40 * c, 0, 16, 0⟩
def TCH_Q_RD_index (p c : Nat) : Fld := ⟨0x30005010 + 0x10000 * p + 0x40 * c, 0, 16, 0⟩
def TCH_Q_STAT_bad_addr (p c : Nat) : Fld := ⟨0x30005014 + 0x10000 * p + 0x40 * c, 0, 1, 0⟩
def TCH_Q_STAT_lost (p c : Nat) : Fld := ⟨0x30005014 + 0x10000 * p + 0x40 * c, 16, 16, 0⟩

/-! Table ONL-7 — ONL registers -/

def ONL_ID_device : Fld := ⟨0x20700000, 0, 14, 0⟩
def ONL_ID_set : Fld := ⟨0x20700000, 14, 1, 0⟩
def ONL_ID_system : Fld := ⟨0x20700000, 16, 16, 0⟩
def ONL_CFG_udp_port : Fld := ⟨0x20700004, 0, 16, 47800⟩
def ONL_CFG_mtu : Fld := ⟨0x20700004, 16, 14, 1500⟩
def ONL_STATUS_link : Fld := ⟨0x20700008, 0, 7, 0⟩
def ONL_STATUS_dup : Fld := ⟨0x20700008, 8, 1, 0⟩
def ONL_STATUS_mgr : Fld := ⟨0x20700008, 9, 1, 0⟩
def ONL_STATUS_peers : Fld := ⟨0x20700008, 16, 16, 0⟩
def ONL_RX_DISCARDS_count : Fld := ⟨0x2070000C, 0, 32, 0⟩
def ONL_TIME_ns : Fld := ⟨0x20700010, 0, 64, 0⟩
def ONL_TIME_STAT_state : Fld := ⟨0x20700018, 0, 2, 0⟩
def ONL_TIME_STAT_unsync : Fld := ⟨0x20700018, 2, 1, 1⟩
def ONL_TIME_STAT_slave_port : Fld := ⟨0x20700018, 3, 4, 0⟩
def ONL_TIME_STAT_steps : Fld := ⟨0x20700018, 16, 16, 0⟩
def ONL_TIME_OFFSET_ns : Fld := ⟨0x2070001C, 0, 32, 0⟩
def ONL_TIME_RATE_adj : Fld := ⟨0x20700020, 0, 32, 0⟩
def ONL_LAST_STEP_ns : Fld := ⟨0x20700028, 0, 64, 0⟩
def ONL_PTP_CFG_mode : Fld := ⟨0x20700040, 0, 2, 1⟩
def ONL_PTP_CFG_p2p : Fld := ⟨0x20700040, 2, 1, 0⟩
def ONL_PTP_CFG_domain : Fld := ⟨0x20700040, 8, 8, 0⟩
def ONL_PTP_CFG_holdover : Fld := ⟨0x20700040, 16, 12, 10⟩
def ONL_PTP_STEP_TH_ns : Fld := ⟨0x20700044, 0, 30, 1000000⟩
def ONL_PORT_CFG_enable (p : Nat) : Fld := ⟨0x20700100 + 0x20 * p, 0, 1, 0⟩
def ONL_PORT_CFG_speed (p : Nat) : Fld := ⟨0x20700100 + 0x20 * p, 1, 3, 0⟩
def ONL_PORT_CFG_macsec (p : Nat) : Fld := ⟨0x20700100 + 0x20 * p, 4, 1, 0⟩
def ONL_PORT_CFG_ptp (p : Nat) : Fld := ⟨0x20700100 + 0x20 * p, 5, 1, 1⟩
def ONL_PORT_CFG_phy_delay (p : Nat) : Fld := ⟨0x20700100 + 0x20 * p, 16, 16, 0⟩
def ONL_PORT_STAT_up (p : Nat) : Fld := ⟨0x20700104 + 0x20 * p, 0, 1, 0⟩
def ONL_PORT_STAT_speed (p : Nat) : Fld := ⟨0x20700104 + 0x20 * p, 1, 3, 0⟩
def ONL_PORT_STAT_drops (p : Nat) : Fld := ⟨0x20700104 + 0x20 * p, 16, 16, 0⟩
def ONL_PORT_MACSEC_ERR_count (p : Nat) : Fld := ⟨0x20700108 + 0x20 * p, 0, 32, 0⟩
def ONL_GRP_ID_group (i : Nat) : Fld := ⟨0x20700400 + 0x20 * i, 0, 16, 0⟩
def ONL_GRP_ID_valid (i : Nat) : Fld := ⟨0x20700400 + 0x20 * i, 16, 1, 0⟩
def ONL_GRP_ID_owner (i : Nat) : Fld := ⟨0x20700400 + 0x20 * i, 17, 1, 0⟩
def ONL_GRP_RATE_mhz (i : Nat) : Fld := ⟨0x20700404 + 0x20 * i, 0, 20, 0⟩
def ONL_GRP_PHASE_ns (i : Nat) : Fld := ⟨0x20700408 + 0x20 * i, 0, 32, 0⟩
def ONL_GRP_LATENCY_us (i : Nat) : Fld := ⟨0x2070040C + 0x20 * i, 0, 32, 0⟩
def ONL_GRP_VERSION_version (i : Nat) : Fld := ⟨0x20700410 + 0x20 * i, 0, 32, 0⟩
def ONL_GRP_EFFECTIVE_time (i : Nat) : Fld := ⟨0x20700418 + 0x20 * i, 0, 64, 0⟩

/-! Table EVR-4 — EVR registers -/

def EVR_SEQ_next : Fld := ⟨0x20030000, 0, 32, 0⟩
def EVR_STAT_frozen : Fld := ⟨0x20030004, 0, 1, 0⟩
def EVR_STAT_held : Fld := ⟨0x20030004, 1, 9, 0⟩
def EVR_STAT_crit_drop : Fld := ⟨0x20030004, 16, 8, 0⟩
def EVR_LOST_count : Fld := ⟨0x20030008, 0, 32, 0⟩
def EVR_VAULT_SEV_sev : Fld := ⟨0x2003000C, 0, 4, 12⟩
def EVR_ARCH_sev : Fld := ⟨0x20030010, 0, 4, 4⟩
def EVR_ARCH_behind : Fld := ⟨0x20030010, 16, 16, 0⟩

/-! Table VLT-4 — VLT registers -/

def VLT_STAT_vault_lost : Fld := ⟨0x20050000, 0, 1, 0⟩
def VLT_STAT_rtc_valid : Fld := ⟨0x20050000, 1, 1, 0⟩
def VLT_STAT_vbat_low : Fld := ⟨0x20050000, 2, 1, 0⟩
def VLT_STAT_pf_active : Fld := ⟨0x20050000, 3, 1, 0⟩
def VLT_STAT_pf_done : Fld := ⟨0x20050000, 4, 1, 0⟩
def VLT_VBAT_mv : Fld := ⟨0x20050004, 0, 12, 0⟩
def VLT_RTC_frac : Fld := ⟨0x20050008, 0, 15, 0⟩
def VLT_RTC_seconds : Fld := ⟨0x20050008, 15, 48, 0⟩
def VLT_CRIT_WR_slot : Fld := ⟨0x20050018, 0, 7, 0⟩
def VLT_CRIT_WR_total : Fld := ⟨0x20050018, 16, 16, 0⟩
def VLT_METER_CTRL_sync : Fld := ⟨0x20050020, 0, 1, 0⟩
def VLT_METER_CTRL_busy : Fld := ⟨0x20050020, 1, 1, 0⟩
def VLT_METER_CTRL_torn : Fld := ⟨0x20050020, 2, 1, 0⟩
def VLT_METER_CTRL_bank : Fld := ⟨0x20050020, 3, 1, 0⟩
def VLT_METER_SRC_addr : Fld := ⟨0x20050028, 9, 31, 0⟩
def VLT_TAMPER_CFG_enable : Fld := ⟨0x20050030, 0, 4, 0⟩
def VLT_TAMPER_CFG_active_high : Fld := ⟨0x20050030, 4, 4, 0⟩
def VLT_TAMPER_STAT_level : Fld := ⟨0x20050034, 0, 4, 0⟩
def VLT_TAMPER_COUNT_count (i : Nat) : Fld := ⟨0x20050040 + 0x8 * i, 0, 16, 0⟩
def VLT_TAMPER_TIME_seconds (i : Nat) : Fld := ⟨0x20050044 + 0x8 * i, 0, 32, 0⟩
def VLT_CNT_count (k : Nat) : Fld := ⟨0x20050080 + 0x4 * k, 0, 32, 0⟩
def VLT_CNT_INC_counter : Fld := ⟨0x200500A0, 0, 3, 0⟩
def VLT_DIG_digest (k w : Nat) : Fld := ⟨0x20050100 + 0x20 * k + 0x4 * w, 0, 32, 0⟩
def VLT_PDIG_digest (k w : Nat) : Fld := ⟨0x20050200 + 0x20 * k + 0x4 * w, 0, 32, 0⟩
def VLT_EXT_DATA_data (w : Nat) : Fld := ⟨0x20050300 + 0x4 * w, 0, 32, 0⟩
def VLT_EXT_CTRL_slot : Fld := ⟨0x20050320, 0, 3, 0⟩
def VLT_EXT_CTRL_go : Fld := ⟨0x20050320, 31, 1, 0⟩
def VLT_SRAM_data (w : Nat) : Fld := ⟨0x20051000 + 0x4 * w, 0, 32, 0⟩

/-! Table CVU-2 — CVU channel registers -/

def CVU_CH_ADDR_addr (c : Nat) : Fld := ⟨0x20040000 + 0x100 * c, 0, 40, 0⟩
def CVU_CH_LEN_bytes (c : Nat) : Fld := ⟨0x20040008 + 0x100 * c, 0, 40, 0⟩
def CVU_CH_CFG_mode (c : Nat) : Fld := ⟨0x20040010 + 0x100 * c, 0, 2, 0⟩
def CVU_CH_CFG_refin (c : Nat) : Fld := ⟨0x20040010 + 0x100 * c, 2, 1, 0⟩
def CVU_CH_CFG_refout (c : Nat) : Fld := ⟨0x20040010 + 0x100 * c, 3, 1, 0⟩
def CVU_CH_CFG_width (c : Nat) : Fld := ⟨0x20040010 + 0x100 * c, 4, 7, 0⟩
def CVU_CH_CFG_compare (c : Nat) : Fld := ⟨0x20040010 + 0x100 * c, 11, 1, 0⟩
def CVU_CH_CFG_irq (c : Nat) : Fld := ⟨0x20040010 + 0x100 * c, 12, 1, 0⟩
def CVU_CH_CFG_cont (c : Nat) : Fld := ⟨0x20040010 + 0x100 * c, 13, 1, 0⟩
def CVU_CH_CFG_final (c : Nat) : Fld := ⟨0x20040010 + 0x100 * c, 14, 1, 0⟩
def CVU_CH_POLY_poly (c : Nat) : Fld := ⟨0x20040018 + 0x100 * c, 0, 64, 0⟩
def CVU_CH_INIT_init (c : Nat) : Fld := ⟨0x20040020 + 0x100 * c, 0, 64, 0⟩
def CVU_CH_XOROUT_xorout (c : Nat) : Fld := ⟨0x20040028 + 0x100 * c, 0, 64, 0⟩
def CVU_CH_EXPECT_value (c w : Nat) : Fld := ⟨0x20040030 + 0x100 * c + 0x4 * w, 0, 32, 0⟩
def CVU_CH_START_go (c : Nat) : Fld := ⟨0x20040050 + 0x100 * c, 0, 1, 0⟩
def CVU_CH_START_abort (c : Nat) : Fld := ⟨0x20040050 + 0x100 * c, 1, 1, 0⟩
def CVU_CH_STAT_state (c : Nat) : Fld := ⟨0x20040054 + 0x100 * c, 0, 3, 0⟩
def CVU_CH_STAT_reason (c : Nat) : Fld := ⟨0x20040054 + 0x100 * c, 8, 8, 0⟩
def CVU_CH_DONE_bytes (c : Nat) : Fld := ⟨0x20040058 + 0x100 * c, 0, 40, 0⟩
def CVU_CH_RUN_value (c w : Nat) : Fld := ⟨0x20040060 + 0x100 * c + 0x4 * w, 0, 32, 0⟩
def CVU_CH_RESULT_value (c w : Nat) : Fld := ⟨0x20040088 + 0x100 * c + 0x4 * w, 0, 32, 0⟩
def CVU_CH_KEY_key (c w : Nat) : Fld := ⟨0x200400A8 + 0x100 * c + 0x4 * w, 0, 32, 0⟩

/-! Table CRP-11 — CRP registers -/

def CRP_STATUS_tujan_ready : Fld := ⟨0x20000000, 0, 1, 0⟩
def CRP_STATUS_warm : Fld := ⟨0x20000000, 1, 1, 0⟩
def CRP_STATUS_warden_kind : Fld := ⟨0x20000000, 2, 2, 0⟩
def CRP_STATUS_power_state : Fld := ⟨0x20000000, 4, 2, 0⟩
def CRP_STATUS_cause : Fld := ⟨0x20000000, 8, 3, 1⟩
def CRP_STATUS_boot_src : Fld := ⟨0x20000000, 12, 3, 1⟩
def CRP_STATUS_alt : Fld := ⟨0x20000000, 15, 1, 0⟩
def CRP_STATUS_recovery : Fld := ⟨0x20000000, 16, 1, 0⟩
def CRP_BOOT_STAT_stage : Fld := ⟨0x20000004, 0, 4, 0⟩
def CRP_BOOT_STAT_reason : Fld := ⟨0x20000004, 8, 4, 0⟩
def CRP_BOOT_STAT_ready_ms : Fld := ⟨0x20000004, 16, 16, 0⟩
def CRP_HOST_BOOT_length : Fld := ⟨0x20000008, 0, 24, 0⟩
def CRP_PD_CTRL_on : Fld := ⟨0x20000100, 0, 7, 0x7F⟩
def CRP_PD_STAT_on : Fld := ⟨0x20000104, 0, 7, 0⟩
def CRP_CLK_GATE_gate : Fld := ⟨0x20000108, 0, 24, 0⟩
def CRP_BLK_RESET_reset : Fld := ⟨0x2000010C, 0, 24, 0⟩
def CRP_SEC_CLAIM_claim : Fld := ⟨0x20000200, 0, 24, 0⟩
def CRP_SEC_CLAIM_STAT_up : Fld := ⟨0x20000204, 0, 24, 0⟩
def CRP_TEMP_temp (k : Nat) : Fld := ⟨0x20000300 + 0x4 * k, 0, 16, 0⟩
def CRP_THERM_CFG_warn : Fld := ⟨0x20000340, 0, 12, 950⟩
def CRP_THERM_CFG_throttle : Fld := ⟨0x20000340, 16, 12, 1000⟩
def CRP_THERM_STAT_warning : Fld := ⟨0x20000344, 0, 1, 0⟩
def CRP_THERM_STAT_throttled : Fld := ⟨0x20000344, 1, 1, 0⟩
def CRP_THERM_STAT_last_shutdown : Fld := ⟨0x20000344, 2, 1, 0⟩
def CRP_THERM_STAT_hottest : Fld := ⟨0x20000344, 16, 4, 0⟩
def CRP_RAIL_mw (i : Nat) : Fld := ⟨0x20000360 + 0x4 * i, 0, 16, 0⟩
def CRP_PUMP_STAT_runs (a : Nat) : Fld := ⟨0x20000400 + 0x4 * a, 0, 16, 0⟩
def CRP_PUMP_STAT_late (a : Nat) : Fld := ⟨0x20000400 + 0x4 * a, 16, 16, 0⟩

/-! Table GIO-1 — UART registers (UART u at 0x100 × u) -/

def GIO_UART_DATA_data (u : Nat) : Fld := ⟨0x20900000 + 0x100 * u, 0, 8, 0⟩
def GIO_UART_DATA_parity_err (u : Nat) : Fld := ⟨0x20900000 + 0x100 * u, 8, 1, 0⟩
def GIO_UART_DATA_frame_err (u : Nat) : Fld := ⟨0x20900000 + 0x100 * u, 9, 1, 0⟩
def GIO_UART_DATA_valid (u : Nat) : Fld := ⟨0x20900000 + 0x100 * u, 10, 1, 0⟩
def GIO_UART_CFG_enable (u : Nat) : Fld := ⟨0x20900004 + 0x100 * u, 0, 1, 0⟩
def GIO_UART_CFG_parity (u : Nat) : Fld := ⟨0x20900004 + 0x100 * u, 1, 2, 0⟩
def GIO_UART_CFG_stop2 (u : Nat) : Fld := ⟨0x20900004 + 0x100 * u, 3, 1, 0⟩
def GIO_UART_CFG_loopback (u : Nat) : Fld := ⟨0x20900004 + 0x100 * u, 4, 1, 0⟩
def GIO_UART_BAUD_int (u : Nat) : Fld := ⟨0x20900008 + 0x100 * u, 0, 16, 200⟩
def GIO_UART_BAUD_frac (u : Nat) : Fld := ⟨0x20900008 + 0x100 * u, 16, 6, 0⟩
def GIO_UART_STAT_tx_level (u : Nat) : Fld := ⟨0x2090000C + 0x100 * u, 0, 7, 0⟩
def GIO_UART_STAT_rx_level (u : Nat) : Fld := ⟨0x2090000C + 0x100 * u, 8, 7, 0⟩
def GIO_UART_STAT_overrun (u : Nat) : Fld := ⟨0x2090000C + 0x100 * u, 16, 1, 0⟩
def GIO_UART_STAT_brk (u : Nat) : Fld := ⟨0x2090000C + 0x100 * u, 17, 1, 0⟩
def GIO_UART_STAT_busy (u : Nat) : Fld := ⟨0x2090000C + 0x100 * u, 18, 1, 0⟩
def GIO_UART_IRQ_rx_en (u : Nat) : Fld := ⟨0x20900010 + 0x100 * u, 0, 1, 0⟩
def GIO_UART_IRQ_tx_en (u : Nat) : Fld := ⟨0x20900010 + 0x100 * u, 1, 1, 0⟩
def GIO_UART_IRQ_err_en (u : Nat) : Fld := ⟨0x20900010 + 0x100 * u, 2, 1, 0⟩
def GIO_UART_IRQ_rx_thresh (u : Nat) : Fld := ⟨0x20900010 + 0x100 * u, 8, 7, 1⟩

/-! Table GIO-2 — I²C registers (controller i at 0x1000 + 0x100 × i) -/

def GIO_I2C_CFG_enable (i : Nat) : Fld := ⟨0x20901000 + 0x100 * i, 0, 1, 0⟩
def GIO_I2C_SCL_lcnt (i : Nat) : Fld := ⟨0x20901004 + 0x100 * i, 0, 16, 553⟩
def GIO_I2C_SCL_hcnt (i : Nat) : Fld := ⟨0x20901004 + 0x100 * i, 16, 16, 368⟩
def GIO_I2C_CMD_data (i : Nat) : Fld := ⟨0x20901008 + 0x100 * i, 0, 8, 0⟩
def GIO_I2C_CMD_read (i : Nat) : Fld := ⟨0x20901008 + 0x100 * i, 8, 1, 0⟩
def GIO_I2C_CMD_start (i : Nat) : Fld := ⟨0x20901008 + 0x100 * i, 9, 1, 0⟩
def GIO_I2C_CMD_stop (i : Nat) : Fld := ⟨0x20901008 + 0x100 * i, 10, 1, 0⟩
def GIO_I2C_CMD_nack (i : Nat) : Fld := ⟨0x20901008 + 0x100 * i, 11, 1, 0⟩
def GIO_I2C_RX_data (i : Nat) : Fld := ⟨0x2090100C + 0x100 * i, 0, 8, 0⟩
def GIO_I2C_STAT_cmd_level (i : Nat) : Fld := ⟨0x20901010 + 0x100 * i, 0, 5, 0⟩
def GIO_I2C_STAT_rx_level (i : Nat) : Fld := ⟨0x20901010 + 0x100 * i, 8, 5, 0⟩
def GIO_I2C_STAT_nack (i : Nat) : Fld := ⟨0x20901010 + 0x100 * i, 16, 1, 0⟩
def GIO_I2C_STAT_arb_lost (i : Nat) : Fld := ⟨0x20901010 + 0x100 * i, 17, 1, 0⟩
def GIO_I2C_STAT_timeout (i : Nat) : Fld := ⟨0x20901010 + 0x100 * i, 18, 1, 0⟩
def GIO_I2C_STAT_busy (i : Nat) : Fld := ⟨0x20901010 + 0x100 * i, 19, 1, 0⟩
def GIO_I2C_IRQ_done_en (i : Nat) : Fld := ⟨0x20901014 + 0x100 * i, 0, 1, 0⟩
def GIO_I2C_IRQ_err_en (i : Nat) : Fld := ⟨0x20901014 + 0x100 * i, 1, 1, 0⟩

/-! Table GIO-3 — SPI registers (controller s at 0x2000 + 0x100 × s) -/

def GIO_SPI_CFG_enable (s : Nat) : Fld := ⟨0x20902000 + 0x100 * s, 0, 1, 0⟩
def GIO_SPI_CFG_mode (s : Nat) : Fld := ⟨0x20902000 + 0x100 * s, 1, 2, 0⟩
def GIO_SPI_CFG_lsb_first (s : Nat) : Fld := ⟨0x20902000 + 0x100 * s, 3, 1, 0⟩
def GIO_SPI_CFG_bits (s : Nat) : Fld := ⟨0x20902000 + 0x100 * s, 4, 5, 7⟩
def GIO_SPI_CFG_cs (s : Nat) : Fld := ⟨0x20902000 + 0x100 * s, 9, 1, 0⟩
def GIO_SPI_CFG_hold (s : Nat) : Fld := ⟨0x20902000 + 0x100 * s, 10, 1, 0⟩
def GIO_SPI_CLK_div (s : Nat) : Fld := ⟨0x20902004 + 0x100 * s, 0, 16, 4⟩
def GIO_SPI_TX_data (s : Nat) : Fld := ⟨0x20902008 + 0x100 * s, 0, 32, 0⟩
def GIO_SPI_RX_data (s : Nat) : Fld := ⟨0x2090200C + 0x100 * s, 0, 32, 0⟩
def GIO_SPI_STAT_tx_level (s : Nat) : Fld := ⟨0x20902010 + 0x100 * s, 0, 5, 0⟩
def GIO_SPI_STAT_rx_level (s : Nat) : Fld := ⟨0x20902010 + 0x100 * s, 8, 5, 0⟩
def GIO_SPI_STAT_rx_overflow (s : Nat) : Fld := ⟨0x20902010 + 0x100 * s, 16, 1, 0⟩
def GIO_SPI_STAT_busy (s : Nat) : Fld := ⟨0x20902010 + 0x100 * s, 17, 1, 0⟩
def GIO_SPI_IRQ_done_en (s : Nat) : Fld := ⟨0x20902014 + 0x100 * s, 0, 1, 0⟩

/-! Table GIO-4 — GPIO registers (bank b, pins 32b to 32b + 31, at 0x3000 + 0x100 × b; bit n is pin 32b + n) -/

def GIO_GPIO_OUT_out (b : Nat) : Fld := ⟨0x20903000 + 0x100 * b, 0, 32, 0⟩
def GIO_GPIO_OUT_SET_out (b : Nat) : Fld := ⟨0x20903004 + 0x100 * b, 0, 32, 0⟩
def GIO_GPIO_OUT_CLR_out (b : Nat) : Fld := ⟨0x20903008 + 0x100 * b, 0, 32, 0⟩
def GIO_GPIO_OE_oe (b : Nat) : Fld := ⟨0x2090300C + 0x100 * b, 0, 32, 0⟩
def GIO_GPIO_IN_in (b : Nat) : Fld := ⟨0x20903010 + 0x100 * b, 0, 32, 0⟩
def GIO_GPIO_PULLUP_up (b : Nat) : Fld := ⟨0x20903014 + 0x100 * b, 0, 32, 0⟩
def GIO_GPIO_PULLDN_down (b : Nat) : Fld := ⟨0x20903018 + 0x100 * b, 0, 32, 0⟩
def GIO_GPIO_IRQ_EN_en (b : Nat) : Fld := ⟨0x2090301C + 0x100 * b, 0, 32, 0⟩
def GIO_GPIO_IRQ_EDGE_edge (b : Nat) : Fld := ⟨0x20903020 + 0x100 * b, 0, 32, 0⟩
def GIO_GPIO_IRQ_POL_pol (b : Nat) : Fld := ⟨0x20903024 + 0x100 * b, 0, 32, 0⟩
def GIO_GPIO_IRQ_STAT_stat (b : Nat) : Fld := ⟨0x20903028 + 0x100 * b, 0, 32, 0⟩
def GIO_GPIO_WAKE_wake (b : Nat) : Fld := ⟨0x2090302C + 0x100 * b, 0, 32, 0⟩

/-! Table GIO-5 — Ownership registers (unit k at 0x4000 + 4 × k, k as in R446) -/

def GIO_OWNER_polder (k : Nat) : Fld := ⟨0x20904000 + 0x4 * k, 0, 5, 0⟩

/-! DBG_ENABLE, debug block offset 0xF000 (R89) -/

def DBG_ENABLE_enables : Fld := ⟨0x20A0F000, 0, 4, 0xF⟩
def DBG_ENABLE_sba_polder : Fld := ⟨0x20A0F000, 4, 5, 0⟩

end Sys2Proof.Machine
end

