-- ==== Sys2Proof/Machine/Types.lean ====
section
/-! DEFINITION. The records State is made of: one per block or part of a block, holding what the block's registers
(Machine/Fields.lean) do not. Plain data throughout. -/
namespace Sys2Proof.Machine

/-! ## Mailboxes and warden (spec/02_warden_and_mailboxes.md) -/

/-- A 16-word mailbox message (Table MBX-2). -/
abbrev Msg := List Nat

/-- An unacknowledged wait_ack message of a channel (R36, R38): its seq, its opcode and when it was delivered. -/
structure Unacked where
  seq : Nat
  opcode : Nat
  time : Nat
  deriving DecidableEq, Repr

/-- A mailbox channel (R33): the messages it holds, oldest first; its next seq (R29); its unacknowledged wait_ack messages,
oldest first. -/
structure Chan where
  q : List Msg
  nextSeq : Nat
  unacked : List Unacked
  deriving DecidableEq, Repr

/-- A request whose final reply is still to be sent (R34): its pair, opcode and seq. -/
structure Job where
  pair : Nat
  opcode : Nat
  seq : Nat
  deriving DecidableEq, Repr

/-- A message Tujan holds for a pair (R35); `always` marks the replies held beyond the eight. -/
structure Held where
  msg : Msg
  always : Bool
  deriving DecidableEq, Repr

/-- A claim received in a claim window (R51). -/
structure Claim where
  kind : Nat
  job : Job
  deriving DecidableEq, Repr

/-- A handover that is pending (Table MBX-10). -/
structure Handover where
  target : Nat
  start : Nat
  job : Job
  deriving DecidableEq, Repr

/-- The warden position (R48 to R56): the kind of the warden (0 vacant, 1 secure world, 2 PCIe host, 3 remote manager), the
start of the claim window while it is open, the claims received in it, a pending handover, and when WARDEN_CHANGED was last
sent (or Tujan reported ready). -/
structure WardenSt where
  kind : Nat
  window : Option Nat
  claims : List Claim
  handover : Option Handover
  changedAt : Nat
  deriving DecidableEq, Repr

/-! ## Application cores (spec/03_worlds_polders_and_cores.md) -/

/-- The supervisor registers held once per world (R69). -/
structure SBank where
  stvec : Nat
  sscratch : Nat
  sepc : Nat
  scause : Nat
  stval : Nat
  satp : Nat
  deriving DecidableEq, Repr

/-- A hart: what the world extension and the trap rules read and write (Tables APC-4 and APC-5, R59 to R74) with the standard
machine registers those rules name. `priv` is 0 U, 1 S or HS, 3 M. -/
structure Hart where
  running : Bool
  pc : Nat
  x : Tab Nat
  priv : Nat
  virt : Bool
  spv : Bool
  world : Bool
  mpw : Bool
  sluiceEn : Bool
  faultReason : Nat
  mpolderAllow : Nat
  mpredmode : Bool
  mwdog : Nat
  mwdogcnt : Nat
  spolder : Nat
  svpolder : Nat
  swret : Nat
  swcallerPriv : Nat
  swcallerPolder : Nat
  secureBank : SBank
  normalBank : SBank
  mtvec : Nat
  mepc : Nat
  mcause : Nat
  mtval : Nat
  mpp : Nat
  mpv : Bool
  mie : Bool
  mpie : Bool
  sie : Bool
  spie : Bool
  spp : Bool
  medeleg : Nat
  mideleg : Nat
  mip : Nat
  tags : List (Nat × Nat)
  pmpcfg : List Nat
  pmpaddr : List Nat
  haltPending : Bool
  halted : Bool
  deriving DecidableEq, Repr

/-! ## Polder check, polders, fabric and PCIe (spec/03 and spec/04) -/

/-- A line of the system-level cache: its line address, its way and the polder that allocated it (R75). -/
structure SlcLine where
  line : Nat
  way : Nat
  polder : Nat
  deriving DecidableEq, Repr

/-- The polder check's own copies: map entries it has cached, by page (R80, R81), second-stage translations it has cached, by
polder and page (R85), and the ranges (first page and pages, 0 for all) that invalidations in
progress cover. -/
structure PldSt where
  entries : Tab Nat
  s2 : Tab Nat
  inv : List (Nat × Nat)
  slc : List SlcLine
  deriving DecidableEq, Repr

/-- A polder reset in progress (Table POL-7): when it began, when Q was reached, the outputs on which the polder's slots are
still to be disabled, whether running work has stopped (step 2), whether the squash of step 5 has been made, the request that
awaits the final reply, and whether the reset is a POLDER_DESTROY. -/
structure PReset where
  start : Nat
  q : Option Nat
  outs : List Nat
  aborted : Bool
  squashed : Bool
  job : Option Job
  destroy : Bool
  deriving DecidableEq, Repr

/-- A transaction in the fabric (R105, R108). -/
structure Txn where
  tag : Nat
  master : Nat
  polder : Nat
  write : Bool
  addr : Nat
  issued : Nat
  pcie : Bool
  squashed : Bool
  block : Nat
  unit : Nat
  deriving DecidableEq, Repr

/-- The PCIe endpoint and its windows (R109 to R113): link state, the MSI-X messages sent, oldest first, the outbound window
of each polder in 4 KiB units, and the polder and base of BAR4, in 1 MiB units of OCM. -/
structure PciSt where
  linkUp : Bool
  msix : List Nat
  outbound : Tab (Nat × Nat)
  bar4 : Option (Nat × Nat)
  deriving DecidableEq, Repr

/-! ## Memory system (spec/05_memory_system.md) -/

/-- An entry of a bank's activation tracker (R136). -/
structure Tracker where
  row : Nat
  count : Nat
  master : Nat
  deriving DecidableEq, Repr

/-- The DRAM controller and the OCM scrubber: the installed capacity in GiB and the data rate in MT/s, both from the board
record (R125, R420); the rank of permanence (R144); trackers, open rows and postponed refreshes by bank or channel (R130, R133,
R136); when the refresh window began; the time of the last ZQ calibration and retraining pass; retries of the last millisecond
by channel (R143); held urgent flags as a bitmap of masters by channel (R131); corrected OCM words awaiting their write-back
(R123); the words the scrub pass has read and corrected, by bank (R124); the patrol's next step (R434); the reason of the last loss
of training; the banks each channel has refreshed in the current round, as a bitmap (R132). -/
structure DmcSt where
  gib : Nat
  mts : Nat
  attempts : Nat
  permanent : Bool
  trackers : Tab (List Tracker)
  openRows : Tab (Option Nat)
  urgent : Tab Nat
  windowStart : Nat
  lastZq : Nat
  passCh : Nat
  retries : Tab (List Nat)
  writeback : List Nat
  scrubPos : Tab Nat
  scrubGrant : Tab Nat
  scrubBoost : Tab Nat
  scrubCorrected : Nat
  scrubStart : Nat
  patrol : Nat
  patrolStart : Nat
  reason : Nat
  refreshed : Tab Nat
  deriving DecidableEq, Repr

/-! ## Layers, composition, dike watch and scan-out (spec/06 to spec/09) -/

/-- A buffer queued to a slot (R154 to R156): its sequence number, plane addresses, fence and target, presentation time, when it
was accepted (REFCLK time), its source timestamp once it has one (R206), whether the codec marked it concealed, who queued it (0 a
flip, 1 + k decode session k, 65 + c capture input c) with that producer's picture or buffer index, and the address ranges whose
ownership has been checked (R167). -/
structure Entry where
  seq : Nat
  buf0 : Nat
  buf1 : Nat
  fence : Nat
  target : Nat
  time : Nat
  accepted : Nat
  stamp : Option Nat
  concealed : Bool
  origin : Nat
  tag : Nat
  checked : List (Nat × Nat)
  deriving DecidableEq, Repr

/-- A layer slot (R153 to R158, R204 to R211): the buffer in use and the pending ones, oldest first; the heartbeat (device time);
whether a buffer was picked at the last latch point and the sequence numbers released there; the last motion signature and the
frame whose motion read is outstanding; the treatment in force for the frame, as its code and image (Table DKW-3). -/
structure SlotSt where
  inUse : Option Entry
  pending : List Entry
  beat : Nat
  picked : Bool
  released : List Nat
  sig : Option Nat
  reading : Option Nat
  shows : Option (Nat × Nat)
  deriving DecidableEq, Repr

/-- A flip waiting for validation (R154): the polder of its page, its slot and the entry staged. -/
structure FlipJob where
  polder : Nat
  slot : Nat
  entry : Entry
  deriving DecidableEq, Repr

/-- A commit (R159 to R165): its ID, its committer (`none` for Tujan), its output (8 for a placement on none), the field values it
snapshots by their place in force, the committer's commit count at the doorbell (R173), the frame in which it takes effect, when it
was accepted, and the command that awaits it. -/
structure Commit where
  id : Nat
  polder : Option Nat
  output : Nat
  vals : List (Nat × Nat)
  count : Nat
  frame : Nat
  accepted : Nat
  job : Option Job
  deriving DecidableEq, Repr

/-- A tile of the frame being composed (R176 to R178): its epoch, its engine while it is held, when it was started, its deadline,
the slots it is composed without, and whether it is finished or abandoned. -/
structure Tile where
  epoch : Nat
  engine : Option Nat
  start : Nat
  deadline : Nat
  skip : List Nat
  finished : Bool
  abandoned : Bool
  deriving DecidableEq, Repr

/-- An entry of the band-tile pool (R192, R235): band, tag, epoch, written bit and its pixel words. -/
structure PoolEntry where
  band : Nat
  tag : Nat
  epoch : Nat
  written : Bool
  pixels : List Nat
  deriving DecidableEq, Repr

/-- What a sink reports (R246, Table SCN-7): its highest rate (as SCN_LINK numbers rates), its lanes, DSC and
MSA_TIMING_PAR_IGNORED, and its EDID or DisplayID. -/
structure Sink where
  rate : Nat
  lanes : Nat
  dsc : Bool
  varTotal : Bool
  edid : List Nat
  deriving DecidableEq, Repr

/-- An output (R163 to R165, R192 to R197, R222 to R255): the raster (the CLK_CMP cycle, line and accumulator fraction of its last
anchor and the increment in force, R231); the frame whose raster is passing and the frame composed for; which events of the raster
have come; the presentation time of the frame composed for; the background in force; the slots dropped from the frame; the tiles
scanned and substituted, and the first tile substituted; the entry groups of its reservation that are held, with frame and band (R192);
the bands write-back has done, with frame, band, dropped and fill flags, and whether it is to be disabled; the attestation chain (the last mac, its frame, and the restart reason pending, Table MAP-4); the
mode change in progress (the command, if one asked for it, and words 2 to 10 of the request); the sink; frames in a row within the lock's
bounds; whether a command-mode panel's tearing-effect edge has come for the frame (R239); whether the timing stops at the line V_ACTIVE that
has just begun (Table SCN-4); and the geometry of the frame composed for and of the frame shown, topmost first: supervised regions (`none`)
and slots, each with the left, top, right and bottom of where it shows, the last two exclusive (R345). -/
structure OutSt where
  anchorCycle : Nat
  anchorLine : Nat
  anchorAcc : Nat
  inc : Nat
  cur : Nat
  prep : Nat
  attested : Bool
  vsynced : Bool
  latched : Bool
  present : Nat
  background : Nat
  drops : List Nat
  scanned : Nat
  stale : Nat
  staleFirst : Nat × Nat
  groups : List (Nat × Nat × Nat)
  wbBands : List (Nat × Nat × Bool × Bool)
  wbStop : Bool
  mac : List Nat
  macFrame : Nat
  restart : Nat
  mode : Option (Option Job × List Nat)
  configured : Bool
  sink : Option Sink
  lockRun : Nat
  te : Bool
  stopDue : Bool
  geoNext : List (Option Nat × Nat × Nat × Nat × Nat)
  geo : List (Option Nat × Nat × Nat × Nat × Nat)
  deriving DecidableEq, Repr

/-- A supervised region (R214 to R221): its EXPECT pairs (value, tag), oldest first; the expected value of the frame, when one
applies; the AUTO read of the frame (0 none, 1 outstanding, 2 complete, 3 denied or poisoned); the learned value; whether the frame
is a learning frame and the frame from which a RELEARN holds; the status its subject's treatment gives the frame (0, 3 or 7);
whether it has been compared in the frame; whether its own action is in force; whether a clear is pending; and the expected value
used in the last frame compared. -/
structure RegSt where
  pairs : List (Nat × Nat)
  expected : Option Nat
  auto : Nat
  learned : Nat
  learning : Bool
  relearn : Option Nat
  treated : Nat
  compared : Bool
  acting : Bool
  clearing : Bool
  used : Nat
  deriving DecidableEq, Repr

/-- The display core: slots, outputs and regions (region r of output n at 16 n + r); flips and commits waiting for validation, in
order of receipt, and commits accepted and not yet applied, in order of acceptance (R160, R161); the tiles of the frames being
composed and the pool, by output, band or place, and tile; the words that scan-out has passed of the frame shown (R215); when each
engine took its tile and when each was reset, and the times of its faults (R179); and the attestation key. -/
structure DspSt where
  slots : Tab SlotSt
  outs : Tab OutSt
  regions : Tab RegSt
  flips : List FlipJob
  waiting : List Commit
  queue : List Commit
  tiles : Tab Tile
  pool : Tab PoolEntry
  shown : Tab (List Nat)
  engStart : Tab Nat
  engReset : Tab Nat
  engFaults : Tab (List Nat)
  key : List Nat
  deriving DecidableEq, Repr

/-! ## Graphics (spec/10_graphics.md) -/

/-- A deficit round robin of one engine (R102): the polder chosen last and how many more units of work it may start in its turn. -/
structure Drr where
  cur : Nat
  credit : Nat
  deriving DecidableEq, Repr

/-- A submission (R260): command buffer, length in bytes, irq bit, completion fence and value, and its number. -/
structure GfxSub where
  addr : Nat
  bytes : Nat
  irq : Bool
  fence : Nat
  value : Nat
  number : Nat
  deriving DecidableEq, Repr

/-- A fast-cleared attachment of a pass (R273, R274): its flag surface and pitch, its size, its cleared blocks as (column, row), and
its colour surface with pitch and the bytes of a cleared pixel. -/
structure ClearSurface where
  flagBase : Nat
  flagPitch : Nat
  width : Nat
  height : Nat
  blocks : List (Nat × Nat)
  colourBase : Nat
  colourPitch : Nat
  pixel : List Nat
  deriving DecidableEq, Repr

/-- A graphics window (R258 to R280): the context bound, class (compute), priority and the one to come at the next boundary, save area;
submissions, the current one first; the next number; the position in the command buffers as (address, bytes, word offset), innermost
first, and the word offset of the packet being executed; whether a pass is open and the list bytes it has binned; the boundary units
still to run, the clusters held and since when; a WAIT_GE in progress (address, value, deadline); whether the context is stopped, holds
a hardware queue, and has been saved; what RENDER_END has still to write; and residency bits read, as (map, tile, bit). -/
structure GfxWin where
  context : Option Nat
  compute : Bool
  prio : Nat
  newPrio : Option Nat
  save : Nat
  queue : List GfxSub
  next : Nat
  pos : List (Nat × Nat × Nat)
  pkt : Nat
  inPass : Bool
  passBytes : Nat
  todo : Nat
  clusters : Nat
  since : Nat
  wait : Option (Nat × Nat × Option Nat)
  stopped : Bool
  resident : Bool
  saved : Bool
  ending : Option (Bool × List ClearSurface)
  cache : List (Nat × Nat × Bool)
  deriving DecidableEq, Repr

/-- The graphics unit: its windows, window w of polder p at 16 p + w, and its round robin. -/
structure GfxSt where
  wins : Tab GfxWin
  drr : Drr
  deriving DecidableEq, Repr

/-! ## Video codec (spec/11_video_codec_and_capture.md) -/

/-- A submission (R290): buffer and length, eos, discont and key, the staged timestamp, its number, and when it was
taken. -/
structure VcdSub where
  addr : Nat
  bytes : Nat
  eos : Bool
  discont : Bool
  key : Bool
  ts : Nat
  number : Nat
  taken : Nat
  deriving DecidableEq, Repr

/-- A pool picture that is not free (R296): its index, source timestamp, whether it is still a reference and whether it is still to be
output, and whether it is concealed. -/
structure PoolPic where
  idx : Nat
  time : Nat
  ref : Bool
  waiting : Bool
  concealed : Bool
  deriving DecidableEq, Repr

/-- A picture being decoded or encoded (R285, R286): the submission it comes from, or 0 and the output frame it copies; when it began; its
time, once known; its pool picture; its luma samples; its units, the next not yet taken, those requeued with their epoch, those running
as (engine, unit, epoch), and how many are finished; the engine cycles spent; whether it is a key picture, concealed or lost. For an
encode: the bits spent, the QP of the first row and of the row before the next, the first row over the budget, the rows coded as skip for a
dropped band or for the budget, the samples of each row as R300 gives them, whether its remaining chunks are discarded, and whether
ONL_TX_DROP has been recorded for it. -/
structure VcdPic where
  number : Nat
  frame : Nat
  born : Nat
  time : Option Nat
  pool : Nat
  luma : Nat
  units : Nat
  next : Nat
  again : List (Nat × Nat)
  running : List (Nat × Nat × Nat)
  finished : Nat
  cycles : Nat
  key : Bool
  concealed : Bool
  lost : Bool
  spent : Nat
  qpFirst : Nat
  qpLast : Nat
  overRow : Option Nat
  skipped : List Nat
  starved : List Nat
  source : Tab (List Nat)
  dropping : Bool
  txDropped : Bool
  deriving DecidableEq, Repr

/-- An open session (R288 to R307): its descriptor's 16 words; whether it is stopped; its submissions, oldest first, and how many of them
have begun; the next number; the slots bound; the pool pictures in use; the pictures in progress, oldest first; the most recent decoded
picture's pool index; consecutive concealed pictures; the crop; the pictures coded since the last key picture and whether one is
requested; band-complete events held as (frame, band, dropped), and the first frame seen; whether pictures are being lost for want of ring
room, and how many have been; attestation records to insert as (frame, FLIP time, bytes) and the last frame finished; and the command that
awaits its closing. -/
structure VcdSes where
  desc : List Nat
  stopped : Bool
  queue : List VcdSub
  begun : Nat
  next : Nat
  slots : List Nat
  pool : List PoolPic
  pics : List VcdPic
  newest : Option Nat
  concealed : Nat
  crop : Nat
  sinceKey : Nat
  keyPend : Bool
  bands : List (Nat × Nat × Bool)
  first : Option Nat
  full : Bool
  lost : Nat
  records : List (Nat × Nat × List Nat)
  finished : Option Nat
  closing : Option Job
  deriving DecidableEq, Repr

/-- The codec: its open sessions; when each engine took its unit, and the times of its faults (R179, R286); its round robin (R285). -/
structure VcdSt where
  sess : Tab (Option VcdSes)
  engStart : Tab Nat
  engFaults : Tab (List Nat)
  drr : Drr
  deriving DecidableEq, Repr

/-! ## Onader link, network and device time (spec/14_onader_network_and_time.md) -/

/-- The network identity (R370). -/
structure Identity where
  device : Nat
  system : Nat
  vlan : Nat
  ip4 : Nat
  ip6 : Nat
  mcast : Nat
  deriving DecidableEq, Repr

/-- A device in the peer table (R371): its number, MAC and IPv4 addresses and time state, and when its last HELLO came (REFCLK and device
time). -/
structure Peer where
  device : Nat
  mac : Nat
  ip4 : Nat
  timeState : Nat
  heard : Nat
  heardTime : Nat
  deriving DecidableEq, Repr

/-- A lock group schedule (R372). -/
structure Sched where
  group : Nat
  rate : Nat
  phase : Nat
  latency : Nat
  effective : Nat
  version : Nat
  deriving DecidableEq, Repr

/-- A transmit stream (R375). -/
structure TxStream where
  stream : Nat
  polder : Nat
  addr : Nat
  dscp : Nat
  pcp : Nat
  deriving DecidableEq, Repr

/-- A row of a picture being reassembled (Table ONL-5): its fragments as (offset, bytes). -/
structure RxRow where
  row : Nat
  key : Bool
  last : Bool
  total : Nat
  frags : List (Nat × List Nat)
  deriving DecidableEq, Repr

/-- A picture being reassembled (R376): its time, when its first fragment came, and its rows. -/
structure RxPic where
  time : Nat
  first : Nat
  rows : List RxRow
  deriving DecidableEq, Repr

/-- A receive stream (R376, R378): its binding, the pictures being reassembled and the times of those submitted or dropped, and its
statistics. -/
structure RxStream where
  stream : Nat
  polder : Nat
  session : Nat
  source : Nat
  timeout : Nat
  base : Nat
  size : Nat
  addr : Nat
  asm : List RxPic
  gone : List Nat
  lateness : Nat
  pictures : Nat
  incomplete : Nat
  dropped : Nat
  deriving DecidableEq, Repr

/-- A manager session (R379, R380): the manager's device and address, the session word, K_s, when the challenge was sent, whether the session is up, the
last sequence number accepted and the next one sent, when the last valid frame came, and the message in flight: how often it has been
sent, and when. -/
structure MgrSes where
  source : Nat
  addr : Nat
  word : Nat
  key : List Nat
  challenged : Nat
  up : Bool
  rxSeq : Option Nat
  txSeq : Nat
  valid : Nat
  tries : Nat
  sentAt : Nat
  deriving DecidableEq, Repr

/-- What a PTP Announce message says of a master (R364), in the order in which IEEE 1588 compares masters. -/
structure Announce where
  priority1 : Nat
  clockClass : Nat
  accuracy : Nat
  variance : Nat
  priority2 : Nat
  identity : Nat
  steps : Nat
  deriving DecidableEq, Repr

/-- A MACsec secure association (R362). -/
structure MacsecSa where
  port : Nat
  sci : Nat
  an : Nat
  suite : Nat
  key : List Nat
  pn : Nat
  deriving DecidableEq, Repr

/-- A gate control list (R361): start time, cycle in ns, and entries of gate states and interval in ns. -/
structure GateList where
  start : Nat
  cycle : Nat
  entries : List (Nat × Nat)
  deriving DecidableEq, Repr

/-- An AES67 stream (R382): transmit or receive, its index, address, first channel and channels, bytes per sample, packet time and link
offset in ns; the samples held, as (device time, frames), a frame being one sample of each channel: of a receive stream the packets that
have come, with the time each leaves the buffer, and when the next is due; of a transmit stream the frames not yet sent; the packets
played or sent, and those missing. -/
structure Aes67 where
  tx : Bool
  index : Nat
  addr : Nat
  first : Nat
  count : Nat
  bytes : Nat
  packetNs : Nat
  offsetNs : Nat
  held : List (Nat × List (List Int))
  due : Option Nat
  packets : Nat
  missing : Nat
  deriving DecidableEq, Repr

/-- A frame the device has sent: its class (Table ONL-4), group, destination (`none` for all), address, seq and tx_time, and its payload:
bytes where the spec gives the payload's layout, else its contents in the order the rules name them. -/
structure SentFrame where
  cls : Nat
  group : Nat
  dest : Option Nat
  addr : Nat
  seq : Nat
  txTime : Nat
  payload : List Nat
  deriving DecidableEq, Repr

/-- The network: the identity; peers; the time of the last HELLO sent, of the last one that carried this device's own number from another
(R371); SCHEDs heard from others as (group, source, time), and the schedule held for its effective time in each of the eight places, with
whether this device owns it (R372, R373); streams, and when each last raised a key request (R377); the manager key and session; the
export destination as (address, port, severity) and the losses counted, of ATTEST and EVENT frames (R381); AES67 streams; MACsec
associations; gate control lists running and waiting, by port; the forwarding tables of unicast and multicast addresses as (VLAN, address,
port) (R361); the best master heard on each port; consecutive Syncs within the bound, the time and interval of the last Sync, when holdover
began and when the rate was last adjusted (R364 to R367); the next seq of each class; and the frames sent, newest first. -/
structure NetSt where
  identity : Option Identity
  peers : List Peer
  helloAt : Nat
  schedAt : Nat
  dupAt : Nat
  heard : List (Nat × Nat × Nat)
  next : Tab (Option (Sched × Bool))
  tx : List TxStream
  rx : List RxStream
  keyreqAt : Tab Nat
  mgrKey : List Nat
  mgr : Option MgrSes
  exportTo : Option (Nat × Nat × Nat)
  exportLost : Nat × Nat
  aes : List Aes67
  macsec : List MacsecSa
  gates : Tab (Option GateList)
  gatesNext : Tab (Option GateList)
  unicast : List (Nat × Nat × Nat)
  multicast : List (Nat × Nat × Nat)
  masters : Tab (Option Announce)
  syncs : Nat
  syncAt : Nat
  syncInterval : Nat
  holdSince : Nat
  rateAt : Nat
  seqs : Tab Nat
  sent : List SentFrame
  deriving DecidableEq, Repr

/-! ## Audio and haptics (spec/12_audio_and_haptics.md) -/

/-- A loaded audio program (R320): its CRC, cost and private words; the operation words of its D0, D1 and D2 sections (none when absent);
its coefficients, taps, delay-line lengths and path table words; its private words and delay lines as they stand, and how far the lines'
positions have advanced. -/
structure AudProg where
  crc : Nat
  cost : Nat
  priv : Nat
  secs : List (List Nat)
  coefs : List Int
  taps : List Nat
  dlys : List Nat
  paths : List Nat
  x : Tab Int
  lines : Tab (Tab Int)
  pos : Nat
  deriving DecidableEq, Repr

/-- A swap (R326): when AUD_SWAP was written, the samples of its crossfade, and for each domain in which it has taken effect how many
samples have run since; and the D0 sample count of its first D0 block. -/
structure AudSwap where
  start : Nat
  fade : Nat
  ran : Tab (Option Nat)
  first : Option Nat
  deriving DecidableEq, Repr

/-- A polder's part of the audio engine: its programs and swap; the gains reached, by domain and gain (R327); and while its program is
ramping out, whether the whole polder is being reset (R330) and the domains whose block boundary is still to come. -/
structure AudPol where
  active : Option AudProg
  staged : Option AudProg
  swap : Option AudSwap
  gains : Tab Int
  ending : Option (Bool × List Nat)
  deriving DecidableEq, Repr

/-- The audio engine: the polders' programs; by endpoint channel the block of samples computed and waiting (R325), the one going out, and
the one that went out last; by side-tone unit the gain reached and the last frames of its input, newest last (R329); the bridges that are
out of range (R318); since when a slaved domain's reference has been in range (R314); and for each domain when its rate last changed, as
the time and the samples counted then. -/
structure AudSt where
  pols : Tab AudPol
  ready : Tab (List Int)
  out : Tab (List Int)
  sent : Tab (List Int)
  side : Tab (Int × List Int)
  outside : List Nat
  since : Tab (Option Nat)
  origin : Tab (Nat × Nat)
  deriving DecidableEq, Repr

/-- An effect as read at its trigger: the polder that triggered it, its entry, samples, gain and class. -/
structure HapFx where
  polder : Nat
  index : Nat
  addr : Nat
  len : Nat
  gain : Nat
  alert : Bool
  deriving DecidableEq, Repr

/-- A haptic channel (R331 to R336): when its last control sample ran; the effect playing and its next sample; the effect that starts at
the next control sample with whether it opens an overdrive window, and the pending one; the target acceleration; the end of the overdrive
window; when braking started; counts of control samples below rest, of bus samples below rest, and of sense frames without and with the
valid flag. -/
structure HapCh where
  last : Nat
  playing : Option (HapFx × Nat)
  starts : Option (HapFx × Bool)
  pend : Option HapFx
  target : Int
  odEnd : Option Nat
  brakeStart : Nat
  resting : Nat
  quiet : Nat
  invalid : Nat
  valid : Nat
  deriving DecidableEq, Repr

/-! ## Touch (spec/13_touch.md) -/

/-- A contact (R343 to R346, R356): its ID, peak node (TX, RX), nodes and peak delta; its last panel and output position; the polder that
owns it, whether that polder still receives its reports (R358), whether it has been reported, when it began, and whether its long-contact
record and its stuck end have been made. -/
structure TchContact where
  id : Nat
  peak : Nat × Nat
  nodes : List Nat
  delta : Int
  u : Int
  v : Int
  qx : Nat
  qy : Nat
  owner : Nat
  silent : Bool
  shown : Bool
  start : Nat
  long : Bool
  deriving DecidableEq, Repr

/-- A cluster held suspect at the start (R354): its peak node, its first peak delta and the frames it has lasted. -/
structure TchSuspect where
  peak : Nat × Nat
  nodes : List Nat
  first : Int
  frames : Nat
  deriving DecidableEq, Repr

/-- A slider or wheel (R352): its electrodes as nodes, threshold and polder (`none` until the warden reassigns it, R358), and its last
position while it is active. -/
structure TchSlider where
  nodes : List Nat
  wheel : Bool
  threshold : Int
  polder : Option Nat
  pos : Option Nat
  deriving DecidableEq, Repr

/-- A click rule (R353): its edge, rectangle, haptic channel and effect. -/
structure TchClick where
  up : Bool
  x : Nat
  y : Nat
  w : Nat
  h : Nat
  haptic : Nat
  effect : Nat
  deriving DecidableEq, Repr

/-- A baseline snapshot (R354, R355): the panel's size, baseline and compensation codes. -/
structure TchSnap where
  tx : Nat
  rx : Nat
  base : Tab Int
  code : Tab Nat
  deriving DecidableEq, Repr

/-- A touch channel. Tables are by node, TX × 64 + RX. `steps` are the undecoded samples of the last frame; `track` counts frames towards
track_div (R341); `started` counts the frames since the
channel started and `sums` adds up the first ones without a snapshot (R354); `calib` is the calibration's frames left and its request
(R340); `rebase` is set by TCH_REBASELINE; `hop` is the frequency taken up with the next frame, and `hopped` marks a frame measured after
a hop (R350); `calm` counts frames below the level that ends high-noise mode (R351); `diag` is the diagnostics mode of the frame (diag
takes effect at the next frame); `wake` is a held wake record and `wakeRun` the frames that a wake contact has been seen in (R357); `flash`
is the snapshot in flash; `endAt` is when the last frame ended, and `viaQuiet` that QUIET stopped the channel (R354). -/
structure TchCh where
  raw : Tab Int
  base : Tab Int
  delta : Tab Int
  code : Tab Nat
  steps : List (List Int)
  track : Nat
  contacts : List TchContact
  suspects : List TchSuspect
  sliders : Tab (Option TchSlider)
  started : Nat
  sums : Tab Int
  calib : Option (Nat × Job)
  rebase : Bool
  hop : Option Nat
  hopped : Bool
  calm : Nat
  diag : Bool
  wake : Option (List Nat)
  wakeRun : Nat
  flash : Option TchSnap
  endAt : Nat
  viaQuiet : Bool
  deriving DecidableEq, Repr

/-- Touch: the channels; click rules by channel, polder and rule; and by channel and polder the records a queue has lost and not yet said
so (R348). -/
structure TchSt where
  ch : Tab TchCh
  clicks : Tab (Option TchClick)
  gap : Tab Nat
  deriving DecidableEq, Repr

/-! ## Boot and power (spec/16_boot_clocks_power_and_background.md) -/

/-- A power transition that a command asked for (Table CRP-8, R428): the request, whether it is a shutdown, the outputs kept, the pairs whose
acknowledgement is outstanding, when it began and when the last acknowledgement came. -/
structure PwrTrans where
  job : Job
  shutdown : Bool
  kept : Nat
  waiting : List Nat
  start : Nat
  acked : Option Nat
  deriving DecidableEq, Repr

/-- Power and boot: the transition in progress; the outputs to restart on exit from QUIET; 0 while powered, 1 in STANDBY after a shutdown, 2
during a thermal shutdown, with the time that state began; OTP fuses as blown, which take effect at the next device reset; the straps
sampled; the image that boots (0 primary, 1 alternate, 2 recovery, 3 none left), the address spans loaded from it, the harts' entry point and
the security versions of the three kinds of manifest accepted; the outputs whose splash Tujan still keeps alive, with the time of the last
heartbeat (R421); and, of each adaptive rail, the set point in mV, whether its regulator has answered (0 not yet asked, 1 answers, 2 fixed,
3 has lost its acknowledgement), and when it was last commanded (R439). -/
structure PwrSt where
  trans : Option PwrTrans
  restart : List Nat
  off : Nat
  offAt : Nat
  fuses : Tab Nat
  straps : Nat
  copy : Nat
  loaded : List (Nat × Nat)
  entry : Nat
  svn : List Nat
  splash : List Nat
  splashAt : Nat
  rails : List (Nat × Nat × Nat)
  deriving DecidableEq, Repr

/-! ## General I/O (spec/17_pins_electrical_and_general_io.md) -/

/-- A UART (R448): bytes to send and received, the latter with their flags; whether the shifter holds a byte. -/
structure UartSt where
  tx : List Nat
  rx : List (Nat × Bool × Bool)
  deriving DecidableEq, Repr

/-- An I2C controller (R449): commands queued, as their command words, and bytes read. -/
structure I2cSt where
  cmds : List Nat
  rx : List Nat
  deriving DecidableEq, Repr

/-- An SPI controller (R450): words to send and received, and whether its chip select is asserted. -/
structure SpiSt where
  tx : List Nat
  rx : List Nat
  cs : Bool
  deriving DecidableEq, Repr

/-- General I/O: the units' FIFOs, and the levels outside the pins. -/
structure GioSt where
  uart : Tab UartSt
  i2c : Tab I2cSt
  spi : Tab SpiSt
  pins : Tab Nat
  deriving DecidableEq, Repr

/-! ## Event recorder and vault (spec/15_event_recorder_vault_and_check_values.md) -/

/-- An event record (Table EVR-1). `polder` is `none` where device = 1. -/
structure EvRec where
  code : Nat
  sev : Nat
  summary : Bool
  held : Bool
  vault : Bool
  rtc : Bool
  unsync : Bool
  secure : Bool
  polder : Option Nat
  seq : Nat
  time : Nat
  p0 : Nat
  p1 : Nat
  p2 : Nat
  p3 : Nat
  deriving DecidableEq, Repr

/-- A weir entry (R390). `level` counts records in units of 1 / (16 * 10^9), so that the refill is exact. -/
structure Weir where
  mode : Nat
  rate : Nat
  burst : Nat
  level : Nat
  last : Nat
  count : Nat
  firstTime : Nat
  firstParam : Nat
  lastRec : Option EvRec
  deriving DecidableEq, Repr

/-- The archive (R395): its region (0 xSPI, 1 eMMC; offset and size in bytes), once set; the erase block written next; the records that wait
to be archived, oldest first; those overwritten in the ring before that and not yet reported; and the blocks written, each with its
place, its boot count and its records. -/
structure Archive where
  isSet : Bool
  medium : Nat
  offset : Nat
  size : Nat
  next : Nat
  waiting : List EvRec
  lost : Nat
  blocks : List (Nat × Nat × List EvRec)
  deriving DecidableEq, Repr

/-- An event raised and not yet accepted by the recorder (R385); `report` marks one whose record DEV_REPORT carries (R463). -/
structure RaisedEv where
  code : Nat
  polder : Option Nat
  secure : Bool
  params : List Nat
  report : Bool
  deriving DecidableEq, Repr

/-- The event recorder: events raised and not yet accepted (R385); the live ring, newest record first (R387); a freeze with its end and whether it is a snapshot's
(R393, R394); the holding FIFO, oldest first, and the records this freeze has lost; weir entries; the vault queue (R397);
when the recorder started; the archive; records waiting for export with the time they were made, and those dropped (R381). -/
structure EvrSt where
  raised : List RaisedEv
  next : Nat
  ring : List EvRec
  frozen : Bool
  freezeEnd : Nat
  fifo : List EvRec
  lostNow : Nat
  lost : Nat
  weir : Tab Weir
  vaultQ : List EvRec
  startTime : Nat
  started : Bool
  archive : Archive
  exportQ : List (Nat × EvRec)
  exportDrops : Nat
  deriving DecidableEq, Repr

/-- A tamper input's history (R398). -/
structure Tamper where
  prev : Nat
  level : Nat
  count : Nat
  time : Nat
  deriving DecidableEq, Repr

/-- A meter bank (R396): its generation, data words 1 to 123 and whether its CRC holds. -/
structure MeterBank where
  gen : Nat
  data : List Nat
  crc : Nat
  deriving DecidableEq, Repr

/-- The vault die (R396 to R403), which keeps its contents across a device reset: the critical records, as bytes, by slot, with the next slot
and the count written; the meter banks; the real-time clock, with the part of a fraction it has run up in units of 10^-9; its flags; the
tamper inputs; counters; digests and those of the previous boot, empty for zeros; the words that a meter sync in progress began with; when
the supply last failed, and whether the interface is isolated. -/
structure VltSt where
  crit : Tab (List Nat)
  critSlot : Nat
  critTotal : Nat
  bankA : MeterBank
  bankB : MeterBank
  seconds : Nat
  frac : Nat
  rtcRem : Nat
  rtcValid : Bool
  vaultLost : Bool
  vbatLow : Bool
  vbat : Nat
  tamperCfg : Nat
  tampers : List Tamper
  counters : List Nat
  digests : List (List Nat)
  prevDigests : List (List Nat)
  sync : Option (List Nat)
  pf : Option Nat
  isolated : Bool
  deriving DecidableEq, Repr

/-- A check-value job (R404 to R409): its parameters as the registers held them when it started (`run` the ten RUN words); whether its polder's
share was not 0 then (R104); whether an abort has been asked; and, for a field check, the request that awaits the digest. -/
structure CvuJob where
  addr : Nat
  len : Nat
  cfg : Nat
  poly : Nat
  init : Nat
  xorout : Nat
  expect : List Nat
  run : List Nat
  key : List Nat
  began : Bool
  abort : Bool
  field : Option Job
  deriving DecidableEq, Repr

/-! ## Defaults of the tables -/

/-- A channel after reset: empty, next seq 0 (R29). -/
def Chan.empty : Chan := ⟨[], 0, []⟩

/-- A bank of supervisor registers after reset (notes/assumptions/4.md). -/
def SBank.zero : SBank := ⟨0, 0, 0, 0, 0, 0⟩

/-- A hart after reset: machine mode, secure world (Tables APC-4 and APC-5); not started until HART_RELEASE (R423). -/
def Hart.reset : Hart :=
  { running := false, pc := 0, x := [], priv := 3, virt := false, spv := false, world := true, mpw := true, sluiceEn := false,
    faultReason := 0, mpolderAllow := 0, mpredmode := false, mwdog := 0, mwdogcnt := 0, spolder := 0, svpolder := 0,
    swret := 0, swcallerPriv := 0, swcallerPolder := 0, secureBank := SBank.zero, normalBank := SBank.zero,
    mtvec := 0, mepc := 0, mcause := 0, mtval := 0, mpp := 0, mpv := false, mie := false, mpie := false, sie := false,
    spie := false, spp := false, medeleg := 0, mideleg := 0, mip := 0, tags := [], pmpcfg := [], pmpaddr := [],
    haltPending := false, halted := false }

/-- An unbound window. -/
def GfxWin.empty : GfxWin :=
  { context := none, compute := false, prio := 0, newPrio := none, save := 0, queue := [], next := 1, pos := [], pkt := 0, inPass := false,
    passBytes := 0, todo := 0, clusters := 0, since := 0, wait := none, stopped := false, resident := false, saved := false,
    ending := none, cache := [] }

/-- A slot after reset: no buffer. -/
def SlotSt.empty : SlotSt := ⟨none, [], 0, false, [], none, none, none⟩

/-- An output after reset: no timing, no sink; its chain restarts at its first record (R224). -/
def OutSt.empty : OutSt :=
  { anchorCycle := 0, anchorLine := 0, anchorAcc := 0, inc := 0, cur := 0, prep := 0, attested := false, vsynced := false,
    latched := false, present := 0, background := 0, drops := [], scanned := 0, stale := 0, staleFirst := (0, 0), groups := [], wbBands := [],
    wbStop := false, mac := [], macFrame := 0, restart := 1, mode := none, configured := false, sink := none, lockRun := 0, te := false, stopDue := false,
    geoNext := [], geo := [] }

/-- A region after reset. -/
def RegSt.empty : RegSt := ⟨[], none, 0, 0, false, none, 0, false, false, false, 0⟩

/-- A polder's part of the audio engine after reset. -/
def AudPol.empty : AudPol := ⟨none, none, none, [], none⟩

/-- A haptic channel after reset: idle, nothing counted. -/
def HapCh.empty : HapCh :=
  { last := 0, playing := none, starts := none, pend := none, target := 0, odEnd := none, brakeStart := 0, resting := 0, quiet := 0,
    invalid := 0, valid := 0 }

/-- A touch channel after reset: off, with no snapshot in flash. -/
def TchCh.empty : TchCh :=
  { raw := [], base := [], delta := [], code := [], steps := [], track := 0, contacts := [], suspects := [],
    sliders := [], started := 0, sums := [], calib := none, rebase := false, hop := none, hopped := false, calm := 0, diag := false,
    wake := none, wakeRun := 0, flash := none, endAt := 0, viaQuiet := false }

/-- The units of general I/O after reset: empty. -/
def UartSt.empty : UartSt := ⟨[], []⟩
def I2cSt.empty : I2cSt := ⟨[], []⟩
def SpiSt.empty : SpiSt := ⟨[], [], false⟩

/-- A pool entry after reset (R235). -/
def PoolEntry.empty : PoolEntry := ⟨0, 0, 0, false, []⟩

/-- A meter bank that holds nothing valid. -/
def MeterBank.blank : MeterBank := ⟨0, [], 0⟩

end Sys2Proof.Machine
end

