-- ==== Sys2Proof/Machine/State.lean ====
section
/-! DEFINITION. The state of a DB-880 and its value at reset, and the reasons a step can stop. -/
namespace Sys2Proof.Machine

/-- The reasons a step of the block ends in a fault. There is none: whatever the device refuses, drops or faults is an effect
on State (an event record, a status, a stopped unit), never the end of the run. -/
inductive Fault where
  deriving DecidableEq, Repr

/-- The reasons the model gives a command no meaning. -/
inductive Refusal where
  /-- Raised by exec's arm for a command whose meaning has not been written. Safe: nothing is claimed of it. -/
  | notModelled (mnemonic : String)
  deriving DecidableEq, Repr

/-- The whole device. -/
structure State where
  /-- Commands waiting, first in, first out. -/
  pending : List Instr
  /-- Nanoseconds of REFCLK since reset release. -/
  now : Nat
  /-- Device time in nanoseconds (R363). -/
  devTime : Nat
  /-- The fraction of a nanosecond of device time that its rate adjustment has run up, in units of 10^-9 ns (R367). -/
  devFrac : Nat
  /-- The model's own: how many free values have been taken (notes/assumptions/3.md). -/
  free : Nat
  /-- The model's own: what the last bus read returned. -/
  busReply : Nat
  /-- The register fields that differ from their reset values (Machine/Fields.lean). -/
  regs : Tab Nat
  /-- Memory: OCM, DRAM, boot flash, Tujan TCM, in one canonical list. -/
  mem : List Host.Cell
  /-- Poisoned 64-bit words, by word address (R123). -/
  poison : List Nat
  /-- The high words latched by low-word reads, by master and register (R11). -/
  rdLatch : Tab (Option Nat)
  /-- The low words held by low-word writes, by master and register (R12). -/
  wrHold : Tab (Option Nat)
  /-- Mailbox channels. -/
  chans : Tab Chan
  /-- Messages Tujan holds, by pair (R35). -/
  held : Tab (List Held)
  /-- Round-robin pointers of the locks (R43). -/
  lockPtr : Tab Nat
  warden : WardenSt
  harts : Tab Hart
  pld : PldSt
  /-- Polder resets in progress (Table POL-7). -/
  resets : Tab (Option PReset)
  /-- The polder that holds each unit of types 1 to 5, 7 and 8 (Table POL-1); polder 0 holds what is not listed. -/
  grants : Tab Nat
  /-- The polders holding a touch queue on each channel, as a bitmap (type 6). -/
  touchGrants : Tab Nat
  /-- The audio operation budget granted to each polder from 1 to 31 (type 9). -/
  budget : Tab Nat
  fabric : List Txn
  /-- Wake events raised and not yet latched: source (as CRP_WAKE numbers it) and channel, pin or input (R426, R427). -/
  wakes : List (Nat × Nat)
  pci : PciSt
  /-- When each background activity of Table CRP-10 last ran or completed a pass. -/
  pumpLast : Tab Nat
  dmc : DmcSt
  dsp : DspSt
  gfx : GfxSt
  vcd : VcdSt
  net : NetSt
  aud : AudSt
  hap : Tab HapCh
  tch : TchSt
  pwr : PwrSt
  gio : GioSt
  evr : EvrSt
  vlt : VltSt
  cvu : Tab (Option CvuJob)
  /-- OTP fields by number (Table CRP-4). -/
  otp : Tab Nat
  deriving DecidableEq, Repr

/-- The recorder at reset (R386, R391): nothing recorded, every bucket full; VLT_LOST waits for it to start (R402). -/
def EvrSt.reset : EvrSt :=
  { raised := [⟨Src.VLT_LOST * 16, none, false, [], false⟩], next := 0, ring := [], frozen := false, freezeEnd := 0, fifo := [], lostNow := 0, lost := 0, weir := [], vaultQ := [],
    startTime := 0, started := false, archive := ⟨false, 0, 0, 0, 0, [], 0, []⟩, exportQ := [], exportDrops := 0 }

/-- The vault as a first power-up leaves it (R402; notes/assumptions/5.md): its contents lost, counter 0 incremented by the boot ROM (R400). -/
def VltSt.reset : VltSt :=
  { crit := [], critSlot := 0, critTotal := 0, bankA := MeterBank.blank, bankB := MeterBank.blank, seconds := 0, frac := 0, rtcRem := 0,
    rtcValid := false, vaultLost := true, vbatLow := false, vbat := 0, tamperCfg := 0,
    tampers := List.replicate 4 ⟨0, 0, 0, 0⟩, counters := [1, 0, 0, 0, 0, 0, 0, 0], digests := List.replicate 8 [],
    prevDigests := List.replicate 8 [], sync := none, pf := none, isolated := false }

/-- The memory controller at reset: not trained, nothing tracked, capacity not yet read (R125, R141). -/
def DmcSt.reset : DmcSt :=
  { gib := 0, mts := 0, attempts := 0, permanent := false, trackers := [], openRows := [], urgent := [], windowStart := 0,
    lastZq := 0, passCh := 0, retries := [], writeback := [], scrubPos := [], scrubGrant := [], scrubBoost := [],
    scrubCorrected := 0, scrubStart := 0, patrol := 0, patrolStart := 0, reason := 0, refreshed := [] }

/-- The display core at reset: no buffers, no commits, no timing; records are authenticated with 32 zero bytes (R224). -/
def DspSt.reset : DspSt :=
  { slots := [], outs := [], regions := [], flips := [], waiting := [], queue := [], tiles := [], pool := [], shown := [],
    engStart := [], engReset := [], engFaults := [], key := List.replicate 32 0 }

/-- The network at reset: no identity (R370), no peers, schedules, streams or session. -/
def NetSt.reset : NetSt :=
  { identity := none, peers := [], helloAt := 0, schedAt := 0, dupAt := 0, heard := [], next := [], tx := [], rx := [], keyreqAt := [],
    mgrKey := [], mgr := none, exportTo := none, exportLost := (0, 0), aes := [], macsec := [], gates := [], gatesNext := [],
    unicast := [], multicast := [], masters := [], syncs := 0, syncAt := 0, syncInterval := 0, holdSince := 0, rateAt := 0,
    seqs := [], sent := [] }

/-- Power at reset release: no transition, nothing blown, straps for xSPI 8D-8D-8D (notes/assumptions/5.md), the adaptive rails at their start
voltages (R439). -/
def PwrSt.reset : PwrSt :=
  { trans := none, restart := [], off := 0, offAt := 0, fuses := [], straps := 1, copy := 0, loaded := [], entry := 0, svn := [0, 0, 0],
    splash := [], splashAt := 0, rails := [(750, 0, 0), (800, 0, 0)] }

/-- The device at reset release. -/
def State.reset : State :=
  { pending := [], now := 0, devTime := 0, devFrac := 0, free := 0, busReply := 0, regs := [], mem := [], poison := [], rdLatch := [],
    wrHold := [], chans := [], held := [], lockPtr := [], warden := ⟨0, none, [], none, 0⟩, harts := [],
    pld := ⟨[], [], [], []⟩, resets := [], grants := [], touchGrants := [], budget := [], fabric := [], wakes := [],
    pci := ⟨false, [], [], none⟩, pumpLast := [], dmc := DmcSt.reset, dsp := DspSt.reset, gfx := ⟨[], ⟨0, 0⟩⟩, vcd := ⟨[], [], [], ⟨0, 0⟩⟩, net := NetSt.reset,
    aud := ⟨[], [], [], [], [], [], [], []⟩, hap := [], tch := ⟨[], [], []⟩, pwr := PwrSt.reset, gio := ⟨[], [], [], []⟩, evr := EvrSt.reset, vlt := VltSt.reset, cvu := [], otp := [] }

end Sys2Proof.Machine
end

