-- ==== Sys2Proof/Machine/Ops.lean ====
section
/-! DEFINITION. The named operations on State that everything else is written in: register fields, time, free values, memory,
grants and polder lookups. -/
namespace Sys2Proof.Machine

/-- What a command answers. -/
abbrev Out := Host.Outcome State Fault Refusal

/-! ## Register fields -/

/-- The value of a register field. -/
def rd (s : State) (f : Fld) : Nat := Tab.get f.rst s.regs f.key

/-- Whether a register field is not 0. -/
def rdB (s : State) (f : Fld) : Bool := rd s f != 0

/-- The signed value of a register field. -/
def rdI (s : State) (f : Fld) : Int := sgn f.width (rd s f)

/-- The number whose bits the field holds at its place in the register (an address field with its low bits 0). -/
def rdA (s : State) (f : Fld) : Nat := rd s f * 2 ^ f.lo

/-- A register field given a value; the low bits are kept (R6). -/
def wr (f : Fld) (v : Nat) (s : State) : State := { s with regs := s.regs.put f.key (v % 2 ^ f.width) }

/-- A register field given a Boolean. -/
def wrB (f : Fld) (v : Bool) (s : State) : State := wr f (b2n v) s

/-- A register field set to the low bits of an integer. -/
def wrI (f : Fld) (v : Int) (s : State) : State := wr f (unsgn f.width v) s

/-- A counter field increased, wrapping. -/
def incWrap (f : Fld) (n : Nat) (s : State) : State := wr f (rd s f + n) s

/-- A counter field increased, saturating. -/
def incSat (f : Fld) (n : Nat) (s : State) : State := wr f (satAdd f.width (rd s f) n) s

/-- Bits of a field set to 1. -/
def orBits (f : Fld) (m : Nat) (s : State) : State := wr f (rd s f ||| m) s

/-- Bits of a field set to 0. -/
def clrBits (f : Fld) (m : Nat) (s : State) : State := wr f (andNot (rd s f) m) s

/-- Fields copied from what is written to what is in force (R13: a Start field when its unit starts, a Commit field when a commit
is applied). -/
def takeEffect (fs : List Fld) (s : State) : State := fs.foldl (fun s f => wr f.inForce (rd s f) s) s

/-- The word that fields' written values make, at their places in the register. -/
def packFlds (s : State) (fs : List Fld) : Nat := (fs.map (fun f => rd s f * 2 ^ f.lo)).sum

/-- The word that fields' values in force make. -/
def packForce (s : State) (fs : List Fld) : Nat := (fs.map (fun f => rd s f.inForce * 2 ^ f.lo)).sum

/-- The field values a word gives to fields. -/
def unpackFlds (w : Nat) (fs : List Fld) : List (Fld × Nat) := fs.map (fun f => (f, w / 2 ^ f.lo % 2 ^ f.width))

/-- Fields written from a word. -/
def writeFlds (w : Nat) (fs : List Fld) (s : State) : State := (unpackFlds w fs).foldl (fun s e => wr e.1 e.2 s) s

/-! ## Time -/

/-- R399: the vault's clock after `dt` nanoseconds, in 1/32,768 s. It runs in every power state; its crystal is taken as exact
(notes/assumptions/46.md). -/
def rtcAfter (dt : Nat) (v : VltSt) : VltSt :=
  let r := v.rtcRem + dt * 32768
  let t := v.seconds * 32768 + v.frac + r / 1000000000
  { v with seconds := t / 32768 % 2 ^ 48, frac := t % 32768, rtcRem := r % 1000000000 }

/-- Device time runs at the rate that `ONL_TIME_RATE` adjusts, in units of 0.001 ppm (R367). -/
def passTime (dt : Nat) (s : State) : State :=
  let adj := rdI s ONL_TIME_RATE_adj
  let total := s.devFrac + (((dt * 1000000000 : Nat) : Int) + dt * adj).toNat
  { s with now := s.now + dt, devTime := (s.devTime + total / 1000000000) % 2 ^ 64, devFrac := total % 1000000000, vlt := rtcAfter dt s.vlt }

/-- The instant of an event that a rule fixes has come: time is at least `t` (no time passes where it already is). -/
def advanceTo (t : Nat) (s : State) : State := passTime (t - s.now) s

/-! ## Free values (notes/assumptions/3.md) -/

/-- The next free value, below `2^w`. -/
def freeVal (w : Nat) (s : State) : Nat := Config.freeValue s.free % 2 ^ w

/-- The next free choice. -/
def freeBit (s : State) : Bool := Config.freeChoice s.free

/-- The counter behind the free values advanced. -/
def tookFree (s : State) : State := { s with free := s.free + 1 }

/-- `n` free values of `w` bits. -/
def freeVals (w n : Nat) (s : State) : List Nat := (List.range n).map (fun i => Config.freeValue (s.free + i) % 2 ^ w)

/-- The counter advanced by `n`. -/
def tookFrees (n : Nat) (s : State) : State := { s with free := s.free + n }

/-! ## Memory -/

/-- A byte of memory. A byte that nothing has written reads as 0 (notes/assumptions/2.md). -/
def Memory.get : List Host.Cell → Nat → Byte
  | [], _ => 0
  | (b, w) :: t, a => if a = b then w else if a < b then 0 else Memory.get t a

/-- Memory with a byte stored; the list stays sorted, and a stored 0 removes the entry. -/
def Memory.set : List Host.Cell → Nat → Byte → List Host.Cell
  | [], a, v => if v = 0 then [] else [(a, v)]
  | (b, w) :: t, a, v =>
    if a = b then (if v = 0 then t else (a, v) :: t)
    else if a < b then (if v = 0 then (b, w) :: t else (a, v) :: (b, w) :: t)
    else (b, w) :: Memory.set t a v

/-- Every address of `t` is above `a`, in strictly rising order, and no byte listed is 0. -/
def Memory.wfAbove : Nat → List Host.Cell → Bool
  | _, [] => true
  | a, (b, w) :: t => decide (a < b) && w != 0 && Memory.wfAbove b t

/-- The canonical form: addresses strictly rising, no byte listed equal to 0, which is what an unlisted byte reads as. -/
def Memory.wf : List Host.Cell → Bool
  | [] => true
  | (b, w) :: t => w != 0 && Memory.wfAbove b t

/-- The byte at an address, as a number. -/
def byteAt (s : State) (a : Nat) : Nat := (Memory.get s.mem a).toNat

/-- `n` bytes from an address, in rising order. -/
def readBytes (s : State) (a n : Nat) : List Nat := (List.range n).map (fun i => byteAt s (a + i))

/-- The little-endian number in `n` bytes from an address (R4). -/
def readNat (s : State) (a n : Nat) : Nat := leNat (readBytes s a n)

/-- Memory with bytes stored from an address on. -/
def Memory.setMany : List Host.Cell → Nat → List Nat → List Host.Cell
  | m, _, [] => m
  | m, a, b :: bs => Memory.setMany (Memory.set m a (BitVec.ofNat 8 b)) (a + 1) bs

/-- The 64-bit words that lie wholly in the `n` bytes from `a`. -/
def coversWord (a n w : Nat) : Bool := decide (a ≤ 8 * w) && decide (8 * w + 8 ≤ a + n)

/-- Bytes stored from an address on. A poisoned word stays poisoned until a plain write has stored all of it (R123). -/
def writeBytes (a : Nat) (bs : List Nat) (s : State) : State :=
  { s with mem := Memory.setMany s.mem a bs, poison := s.poison.filter (fun w => !coversWord a bs.length w) }

/-- A little-endian number stored in `n` bytes from an address on. -/
def writeNat (a n v : Nat) (s : State) : State := writeBytes a (leBytes n v) s

/-- Whether a word among the `n` bytes from `a` is poisoned. -/
def poisonedIn (s : State) (a n : Nat) : Bool := s.poison.any (fun w => decide (8 * w < a + n) && decide (a < 8 * w + 8))

/-- The word holding address `a` made poisoned. -/
def poisonWord (a : Nat) (s : State) : State :=
  if a / 8 ∈ s.poison then s else { s with poison := a / 8 :: s.poison }

/-! ## The address map (Table MAP-1) -/

def ocmBase : Nat := 0x40000000
def ocmEnd : Nat := 0x46000000
def dramBase : Nat := 0x1000000000
def dramTop : Nat := 0x2000000000

/-- An address in OCM (R114). -/
def inOcm (a : Nat) : Bool := decide (ocmBase ≤ a) && decide (a < ocmEnd)

/-- An address in the DRAM range, installed or not. -/
def inDramRange (a : Nat) : Bool := decide (dramBase ≤ a) && decide (a < dramTop)

/-- Bytes of DRAM installed (Table DMC-1). -/
def dramBytes (s : State) : Nat := s.dmc.gib * 0x40000000

/-- An address in installed DRAM. -/
def inDram (s : State) (a : Nat) : Bool := decide (dramBase ≤ a) && decide (a < dramBase + dramBytes s)

/-- The OCM page of an address (R114). -/
def ocmPage (a : Nat) : Nat := (a - ocmBase) / 4096

/-- The OCM bank of an address (R114). -/
def ocmBank (a : Nat) : Nat := (a - ocmBase) / 0x800000

/-! ## Polders and grants -/

/-- A polder's state: 0 absent, 1 active, 2 resetting. Polder 0 always exists. -/
def polState (s : State) (p : Nat) : Nat := if p = 0 then 1 else rd s (POL_STAT_state p)

/-- A polder that exists, active or resetting. -/
def polExists (s : State) (p : Nat) : Bool := polState s p != 0

/-- The key of a grantable unit of types 1 to 5, 7 and 8 in the grant table. -/
def unitKey (type unit : Nat) : Nat := type * 256 + unit

/-- The polder that holds a unit (R91). -/
def grantee (s : State) (type unit : Nat) : Nat := Tab.get 0 s.grants (unitKey type unit)

/-- The polder that holds a layer slot. -/
def slotOwner (s : State) (n : Nat) : Nat := grantee s 1 n

/-- Whether a polder holds a touch queue on a channel; polder 0 holds one on each. -/
def holdsTouch (s : State) (p c : Nat) : Bool := p == 0 || bit (Tab.get 0 s.touchGrants c) p

/-- The audio operation budget of a polder; polder 0 holds what is granted nowhere else (R91). -/
def audBudget (s : State) (p : Nat) : Nat :=
  if p = 0 then 24000 - ((List.range 31).map (fun q => Tab.get 0 s.budget (q + 1))).sum else Tab.get 0 s.budget p

/-- Whether a mailbox pair from 1 to 29 serves a polder (R26, R27). -/
def pairServes (s : State) (k p : Nat) : Bool :=
  rdB s (MBX_CH_CFG_enable (2 * k)) &&
    (rd s (MBX_CH_CFG_party_polder (2 * k)) == p || bit (rd s (MBX_PAIR_SHARE_polders k)) p)

/-- The lowest-numbered pair that serves a polder from 1 to 31. -/
def pairOf (s : State) (p : Nat) : Option Nat :=
  if p = 0 then some 0 else ((List.range 29).map (· + 1)).find? (fun k => pairServes s k p)

/-- The location of a polder (R92). -/
def polLocation (s : State) (p : Nat) : Nat := rd s (POL_STAT_location p)

/-- A hart. -/
def hart (s : State) (h : Nat) : Hart := Tab.get Hart.reset s.harts h

/-- A hart given a new value. -/
def setHart (h : Nat) (v : Hart) (s : State) : State := { s with harts := s.harts.put h v }

/-- A hart's integer register; x0 reads 0. -/
def Hart.reg (h : Hart) (r : Nat) : Nat := if r = 0 then 0 else Tab.get 0 h.x r

/-- A hart's integer register written; x0 keeps 0. -/
def Hart.setReg (h : Hart) (r v : Nat) : Hart := if r = 0 then h else { h with x := h.x.put r (v % 2 ^ 64) }

/-- An OTP field by number (Table CRP-4). OTP_DBG_EN is kept as the fuses blown, so a 0 bit reads as enabled. -/
def otp (s : State) (n : Nat) : Nat := Tab.get 0 s.otp n

/-! ## Power domains (Table ARC-7) -/

/-- Bits of CRP_PD_STAT: 0 PD_APC0, 1 PD_APC1, 2 PD_GFX, 3 PD_VCD, 4 PD_CMP, 5 PD_MEDIA, 6 PD_NET. -/
def domainOn (s : State) (d : Nat) : Bool := bit (rd s CRP_PD_STAT_on) d

/-- The bit of CRP_PD_STAT of the domain that a register block lies in (Table ARC-7); none for PD_AON and the vault. -/
def domainAt (a : Nat) : Option Nat :=
  if a < 0x20200000 then none
  else if a < 0x20300000 then some 4
  else if a < 0x20400000 then some 2
  else if a < 0x20600000 then some 3
  else if a < 0x20700000 then some 5
  else if a < 0x20800000 then some 6
  else if a < 0x30000000 then none
  else if a < 0x30200000 then
    let off := a % 0x10000
    if off < 0x1000 then some 4 else if off < 0x2000 then some 2 else if off < 0x3000 then some 3
    else if off < 0x6000 then some 5 else none
  else none

/-- The block bits of Table CRP-1. -/
def blkCMP : Nat := 0
def blkDKW : Nat := 1
def blkSCN (n : Nat) : Nat := 2 + n
def blkGFX : Nat := 10
def blkVCD : Nat := 11
def blkCAP (c : Nat) : Nat := 12 + c
def blkAUD : Nat := 16
def blkHAP : Nat := 17
def blkTCH (c : Nat) : Nat := 18 + c
def blkNET : Nat := 20
def blkCVU : Nat := 21
def blkAPC (c : Nat) : Nat := 22 + c

/-- The block of Table CRP-1 that an address lies in, for the gate of R412. -/
def blockAt (a : Nat) : Option Nat :=
  if 0x20040000 ≤ a ∧ a < 0x20050000 then some blkCVU
  else if a < 0x20200000 then none
  else if a < 0x20240000 then some blkCMP
  else if a < 0x20280000 then some blkDKW
  else if a < 0x20300000 then some (blkSCN ((a - 0x20280000) / 0x10000))
  else if a < 0x20400000 then some blkGFX
  else if a < 0x20500000 then some blkVCD
  else if a < 0x20540000 then some (blkCAP ((a - 0x20500000) / 0x10000))
  else if a < 0x20600000 then none
  else if a < 0x20640000 then some blkAUD
  else if a < 0x20680000 then some blkHAP
  else if a < 0x20700000 then some (blkTCH ((a - 0x20680000) / 0x10000))
  else if a < 0x20800000 then some blkNET
  else if a < 0x30000000 then none
  else if a < 0x30200000 then
    let off := a % 0x10000
    if off < 0x1000 then some blkCMP else if off < 0x2000 then some blkGFX else if off < 0x3000 then some blkVCD
    else if off < 0x4000 then some blkAUD else if off < 0x5000 then some blkHAP
    else if off < 0x6000 then some (blkTCH ((off - 0x5000) / 0x40 % 2)) else none
  else none

/-- Whether the block an address lies in is powered and clocked, so that R22 does not turn the access away. -/
def blockUp (s : State) (a : Nat) : Bool :=
  (match domainAt a with | some d => domainOn s d | none => true) &&
  (match blockAt a with | some b => !bit (rd s CRP_CLK_GATE_gate) b | none => true)

end Sys2Proof.Machine
end

