-- ==== Sys2Proof/Machine/Flags.lean ====
section
/-! DEFINITION. Everything a command raises: event lines and MSI-X messages (R100), event records through the weir into the live
ring, the holding FIFO and the vault queue (R385 to R397). -/
namespace Sys2Proof.Machine

/-! ## Event lines -/

/-- Whether a polder's interrupt is asserted (R100): some line is pending and enabled. -/
def interruptAsserted (s : State) (p : Nat) : Bool :=
  (rd s (POL_EVL_PENDING_pending p) &&& rd s (POL_EVL_ENABLE_enable p)) != 0

/-- hgeip of hart `h` (R100): bit `p` for every polder from 1 to 31 placed on the hart's cluster with its interrupt asserted. -/
def hgeip (s : State) (h : Nat) : Nat :=
  bitmap 32 (fun p => p != 0 && polExists s p && (polLocation s p == 2 || polLocation s p == h / 4) && interruptAsserted s p)

/-- An MSI-X message sent to the host. -/
def sendMsix (v : Nat) (s : State) : State := { s with pci := { s.pci with msix := s.pci.msix ++ [v] } }

/-- The MSI-X message of a line of a polder at location 3, sent when its vector is valid (R100, R101). -/
def lineMessage (p n : Nat) (s : State) : State :=
  if polLocation s p = 3 ∧ rdB s (POL_EVL_VECTOR_valid p n) then sendMsix (rd s (POL_EVL_VECTOR_vector p n)) s else s

/-- A line raised for a polder (R100): it becomes pending, and for a polder at location 3 its message is sent when it becomes
pending while enabled. An absent polder has no lines. -/
def raiseLine (p n : Nat) (s : State) : State :=
  if !polExists s p then s else
  let was := bit (rd s (POL_EVL_PENDING_pending p)) n
  let s1 := orBits (POL_EVL_PENDING_pending p) (2 ^ n) s
  if !was && bit (rd s (POL_EVL_ENABLE_enable p)) n then lineMessage p n s1 else s1

/-- A line raised for each polder of a list. -/
def raiseLines (ps : List Nat) (n : Nat) (s : State) : State := ps.foldl (fun s p => raiseLine p n s) s

/-! ## The weir -/

/-- The code of a source and variant (Table EVR-1). -/
def evCode (src variant : Nat) : Nat := src * 16 + variant

/-- The sources whose codes their chapters record under the weir (R391). -/
def underWeir : List Nat := [Src.OCM_ECC_CORR, Src.DMC_REFRESH_FORCED, Src.DMC_ECC_RETRY, Src.CMP_COMMIT_APPLIED,
  Src.DKW_BREACH, Src.DKW_RING_OVERRUN, Src.GFX_PREEMPT, Src.GFX_SPILL, Src.VCD_PIC_SKIPPED, Src.VCD_CONCEALED, Src.CAP_DROP,
  Src.AUD_RING_UNDERRUN, Src.AUD_RING_OVERRUN, Src.HAP_EFFECT, Src.TCH_SATURATED, Src.TCH_QUEUE_OVERFLOW, Src.TCH_HOP,
  Src.ONL_MACSEC, Src.ONL_EXPORT_DROP, Src.CVU_DONE, Src.GIO_UART_ERROR]

/-- The mode of a code after reset (R391). -/
def weirModeReset (code : Nat) : Nat :=
  let src := code / 16
  if 112 ≤ src ∧ src < 128 then (if src % 2 = 1 ∨ code % 16 = 0 then 2 else if code % 16 = 1 then 1 else 0)
  else if code % 16 = 0 ∧ src ∈ underWeir then 1 else 0

/-- One record, in the units of a bucket's level. -/
def weirOne : Nat := 16000000000

/-- The weir entry of a code after reset (R391): its bucket full since the recorder started. -/
def weirReset (start code : Nat) : Weir :=
  ⟨weirModeReset code, 1024, 32, 32 * weirOne, start, 0, 0, 0, none⟩

/-- The weir entry of a code. -/
def weirOf (s : State) (code : Nat) : Weir := Tab.get (weirReset s.evr.startTime code) s.evr.weir code

/-- A weir entry given a new value. -/
def setWeir (code : Nat) (w : Weir) (s : State) : State := { s with evr := { s.evr with weir := s.evr.weir.put code w } }

/-- R390: refill to time `t`. -/
def Weir.refill (w : Weir) (t : Nat) : Weir :=
  { w with level := min (w.burst * weirOne) (w.level + (t - w.last) * w.rate), last := t }

/-- The codes only polder 0 sets (R392). -/
def protectedCode (code : Nat) : Bool :=
  let src := code / 16
  (decide (32 ≤ src) && decide (src < 64)) || (decide (96 ≤ src) && decide (src < 112)) ||
    (decide (112 ≤ src) && decide (src < 127) && src % 2 == 0 && code % 16 == 1)

/-! ## Acceptance by the recorder -/

/-- The first half-word of a record (Table EVR-1). -/
def EvRec.halfWord (r : EvRec) : Nat := r.sev * 4096 + r.code

/-- The 32 bytes of a record (Table EVR-1). -/
def EvRec.bytes (r : EvRec) : List Nat :=
  leBytes 2 r.halfWord ++
  [b2n r.summary + 2 * b2n r.held + 4 * b2n r.vault + 8 * b2n r.rtc + 16 * b2n r.unsync + 32 * b2n r.secure,
    match r.polder with | some p => p | none => 128] ++
  leBytes 4 r.seq ++ leBytes 8 r.time ++ leBytes 4 r.p0 ++ leBytes 4 r.p1 ++ leBytes 4 r.p2 ++ leBytes 4 r.p3

/-- An event raised by a block (R385): it waits for the recorder until the end of the step. -/
def raise (e : RaisedEv) (s : State) : State := { s with evr := { s.evr with raised := s.evr.raised ++ [e] } }

/-- An event of a source and variant, naming a polder or (`none`) the device, with its parameters (R455). -/
def record (src variant : Nat) (polder : Option Nat) (params : List Nat) (s : State) : State :=
  raise ⟨evCode src variant, polder, false, params.map lo32, false⟩ s

/-- An event of variant 0. -/
def record0 (src : Nat) (polder : Option Nat) (params : List Nat) (s : State) : State := record src 0 polder params s

/-- An event whose record DEV_REPORT carries to the warden and polder 0 (R463). -/
def recordReported (src : Nat) (polder : Option Nat) (params : List Nat) (s : State) : State :=
  raise ⟨evCode src 0, polder, false, params.map lo32, true⟩ s

/-- An event whose record goes only to polder 0. -/
def recordSecure (src : Nat) (polder : Option Nat) (params : List Nat) (s : State) : State :=
  raise ⟨evCode src 0, polder, true, params.map lo32, false⟩ s

/-- An address or a time as two parameters, low word first (R455). -/
def twoWords (v : Nat) : List Nat := [lo32 v, hi32 v]

/-- R395: a record entering the ring waits to be archived, if it is severe enough; one that it overwrites and that still waits is lost. -/
def archiveTake (r : EvRec) (sev : Nat) (dropped : Option EvRec) (a : Archive) : Archive :=
  if !a.isSet then a
  else
    let a1 := match dropped, a.waiting with
      | some d, w :: ws => if d.seq = w.seq then { a with waiting := ws, lost := a.lost + 1 } else a
      | _, _ => a
    if r.sev < sev then a1 else { a1 with waiting := a1.waiting ++ [r] }

/-- A record entering the live ring (R387), with line 62 (R389), the archive (R395) and, when it may be exported, the export queue (R381). -/
def toRing (r : EvRec) (s : State) : State :=
  let s1 := { s with evr := { s.evr with ring := (r :: s.evr.ring).take 65536,
                                         archive := archiveTake r (rd s EVR_ARCH_sev) (s.evr.ring.drop 65535).head? s.evr.archive,
                                         exportQ := if r.secure then s.evr.exportQ else s.evr.exportQ ++ [(s.now, r)] } }
  let s2 := match r.polder with
    | some p => if 8 ≤ r.sev then raiseLine p 62 s1 else s1
    | none => s1
  if 12 ≤ r.sev ∧ r.polder ≠ some 0 then raiseLine 0 62 s2 else s2

/-- A record offered to the vault queue (R397): taken, or counted and VLT_CRIT_DROP raised, unless it is itself one. Answers the
record with its vault bit. -/
def offerVault (r : EvRec) (s : State) : EvRec × State :=
  if r.sev < rd s EVR_VAULT_SEV_sev then (r, s)
  else if s.evr.vaultQ.length < 16 then
    let r1 := { r with vault := true }
    (r1, { s with evr := { s.evr with vaultQ := s.evr.vaultQ ++ [r1] } })
  else
    let s1 := incSat EVR_STAT_crit_drop 1 s
    if r.code = evCode Src.VLT_CRIT_DROP 0 then (r, s1) else (r, record0 Src.VLT_CRIT_DROP none [r.code, r.seq] s1)

/-- A record accepted: numbered, stamped and stored, or lost at a full holding FIFO (R386, R387, R393). Answers the record
stored, or none. -/
def accept (code : Nat) (polder : Option Nat) (secure summary : Bool) (ps : List Nat) (s : State) : Option EvRec × State :=
  if s.evr.frozen && decide (256 ≤ s.evr.fifo.length) then
    (none, { s with evr := { s.evr with lostNow := s.evr.lostNow + 1, lost := satAdd 32 s.evr.lost 1 } })
  else
    let r : EvRec :=
      { code := code, sev := severity (code / 16) (code % 16), summary := summary, held := s.evr.frozen, vault := false,
        rtc := false, unsync := rdB s ONL_TIME_STAT_unsync, secure := secure, polder := polder, seq := s.evr.next,
        time := s.devTime, p0 := ps.getD 0 0, p1 := ps.getD 1 0, p2 := ps.getD 2 0, p3 := ps.getD 3 0 }
    let s1 := { s with evr := { s.evr with next := wrapAdd 32 s.evr.next 1 } }
    let (r2, s2) := offerVault r s1
    if s.evr.frozen then (some r2, { s2 with evr := { s2.evr with fifo := s2.evr.fifo ++ [r2] } })
    else (some r2, toRing r2 s2)

/-- R390: the summary of a code's suppressed occurrences. -/
def weirSummary (code : Nat) (s : State) : State :=
  let w := weirOf s code
  let pol := match w.lastRec with | some r => r.polder | none => none
  let sec := match w.lastRec with | some r => r.secure | none => false
  let s1 := setWeir code { w with count := 0, lastRec := none } s
  (accept code pol sec true [w.count, w.firstParam, lo32 w.firstTime, hi32 w.firstTime] s1).2

/-- R390: a summary that is due, written at the price of one record. -/
def weirSummaryDue (code : Nat) (s : State) : State :=
  let w := weirOf s code
  if 0 < w.count ∧ weirOne ≤ w.level then weirSummary code (setWeir code { w with level := w.level - weirOne } s) else s

/-- R390: an occurrence of a code. Answers the record made, if one was. -/
def occurrence (e : RaisedEv) (s : State) : Option EvRec × State :=
  let w := weirOf s e.code
  if w.mode = 0 then accept e.code e.polder e.secure false e.params s
  else if w.mode = 2 then (none, s)
  else
    let s1 := weirSummaryDue e.code (setWeir e.code (w.refill s.devTime) s)
    let w1 := weirOf s1 e.code
    if weirOne ≤ w1.level then
      accept e.code e.polder e.secure false e.params (setWeir e.code { w1 with level := w1.level - weirOne } s1)
    else
      let r : EvRec := ⟨e.code, 0, false, false, false, false, false, e.secure, e.polder, 0, s.devTime, 0, 0, 0, 0⟩
      (none, setWeir e.code { w1 with
        firstTime := if w1.count = 0 then s.devTime else w1.firstTime,
        firstParam := if w1.count = 0 then e.params.getD 0 0 else w1.firstParam,
        count := w1.count + 1, lastRec := some r } s1)

/-- An event put in its place among events ordered by code, after those of the same code (R385). -/
def insertByCode (e : RaisedEv) : List RaisedEv → List RaisedEv
  | [] => [e]
  | f :: t => if e.code < f.code then e :: f :: t else f :: insertByCode e t

/-- Events in increasing code order; events of one code keep their order (R385). -/
def sortByCode (es : List RaisedEv) : List RaisedEv := es.foldl (fun l e => insertByCode e l) []

end Sys2Proof.Machine
end

