-- ==== Sys2Proof/Machine/Check.lean ====
section
/-! DEFINITION. The checks an access passes before memory performs it: what a core's access carries (R59), PMP (R60), OCM regions
(R115), the polder check by tidemark or by map (R76, R78 to R81), the device-side second stage (R84, R85), and the translation
of a core's address through satp (R64, R65). A check answers `none` to admit, or the reason PLD_DENY_INFO gives. -/
namespace Sys2Proof.Machine

/-! ## Reasons of PLD_DENY_INFO (Table PLD-5) -/

def denyInvalid : Nat := 1
def denyDevice : Nat := 2
def denyTag : Nat := 3
def denySecure : Nat := 4
def denyOwner : Nat := 5
def denyTranslation : Nat := 6
def denyTidemark : Nat := 7

/-- R452, R453: the reason for which an access that neither memory nor a window takes is denied: secure for the boot ROM, the TCM and the xSPI
window, invalid for a hole. -/
def denyElsewhere (a : Nat) : Nat :=
  if a < 0x20000 ∨ (0x1000000 ≤ a ∧ a < 0x1200000) ∨ (0x80000000 ≤ a ∧ a < 0xA0000000) then denySecure else denyInvalid

/-- What an access carries, as plain numbers. -/
structure Carried where
  master : Nat
  polder : Nat
  secure : Bool
  deriving DecidableEq, Repr

/-- Master IDs 1 to 8 are the application cores (Table APC-1). -/
def isCoreMaster (m : Nat) : Bool := decide (1 ≤ m) && decide (m ≤ 8)

/-- R78: a device master is any master other than 1 to 9. -/
def isDeviceMaster (m : Nat) : Bool := !(decide (1 ≤ m) && decide (m ≤ 9))

/-- R59: the world attribute and polder tag of a hart's accesses. -/
def Hart.carries (h : Hart) : Nat × Bool :=
  if h.priv = 3 ∨ h.world then (0, true)
  else if h.virt then (h.svpolder, false)
  else (h.spolder, false)

/-- R89: whether a debug kind of Table DBG-1 is enabled: 0 normal invasive, 1 normal non-invasive, 2 secure invasive, 3 secure
non-invasive. OTP_DBG_EN is field 11, stored inverted; OTP_REGULATED_LOCK is field 12. -/
def debugEnabled (s : State) (kind : Nat) : Bool :=
  !bit (otp s 11) kind && bit (rd s DBG_ENABLE_enables) kind && (kind != 2 || otp s 12 == 0)

/-- What an access carries: a core's comes from its hart (R59), Tujan's is that of a secure-world core (R78), BAR0's is
that of polder 0 in the normal world, BAR2's that of the page's polder and BAR4's the polder that PCIE_SET_WINDOWS names (Table PCI-1), the debugger's as DBG_ENABLE states
(Table DBG-1); every other device master presents its own. -/
def carried (s : State) (a : Access) (addr : Nat) : Carried :=
  let m : Nat := a.master
  if isCoreMaster m then
    let (p, w) := (hart s (m - 1)).carries
    ⟨m, p, w⟩
  else if m = 9 then ⟨9, 0, true⟩
  else if m = 23 then
    if debugEnabled s 2 then ⟨23, 0, true⟩ else ⟨23, rd s DBG_ENABLE_sba_polder, false⟩
  else match a.route with
    | .bar0 => ⟨10, 0, false⟩
    | .bar2 => ⟨10, (addr - 0x30000000) / 0x10000 % 32, false⟩
    | .bar4 => ⟨10, (match s.pci.bar4 with | some b => b.1 | none => 0), false⟩
    | .fabric => ⟨m, a.polder, a.secure⟩

/-! ## PMP (R60; the standard RISC-V rules) -/

/-- The byte range of PMP entry `i`, by its A field (OFF, TOR, NA4, NAPOT). -/
def pmpRange (h : Hart) (i : Nat) : Option (Nat × Nat) :=
  let cfg := h.pmpcfg.getD i 0
  let ad := h.pmpaddr.getD i 0
  match bits cfg 4 3 with
  | 1 => some ((if i = 0 then 0 else h.pmpaddr.getD (i - 1) 0 * 4), ad * 4)
  | 2 => some (ad * 4, ad * 4 + 4)
  | 3 =>
    let ones := ((List.range 54).find? (fun k => !bit ad k)).getD 54
    let size := 2 ^ (ones + 3)
    some (ad * 4 / size * size, ad * 4 / size * size + size)
  | _ => none

/-- The first PMP entry from `i` on that matches any byte of the access, and whether it permits it. -/
def pmpScan (h : Hart) (a n permBit : Nat) : Nat → Nat → Option Bool
  | 0, _ => none
  | k + 1, i =>
    match pmpRange h i with
    | some (lo, hi) =>
      if lo < a + n ∧ a < hi then
        if lo ≤ a ∧ a + n ≤ hi then
          some ((h.priv == 3 && !bit (h.pmpcfg.getD i 0) 7) || bit (h.pmpcfg.getD i 0) permBit)
        else some false
      else pmpScan h a n permBit k (i + 1)
    | none => pmpScan h a n permBit k (i + 1)

/-- PMP: the lowest-numbered matching entry decides; with none, machine mode passes and the others fail. -/
def pmpAllows (h : Hart) (a n permBit : Nat) : Bool :=
  match pmpScan h a n permBit 16 0 with
  | some b => b
  | none => h.priv == 3

/-! ## OCM regions (R115) -/

/-- Region `r` of master `m` admits a page for reading and / or writing. -/
def regionAdmits (s : State) (m r page : Nat) (rdNeed wrNeed : Bool) : Bool :=
  rdB s (OCM_RGN_CTRL_enable m r) && decide (rd s (OCM_RGN_BASE_page m r) ≤ page) && decide (page ≤ rd s (OCM_RGN_LIMIT_page m r)) &&
    (!rdNeed || rdB s (OCM_RGN_CTRL_rd m r)) && (!wrNeed || rdB s (OCM_RGN_CTRL_wr m r))

/-- Some region of the master admits the page. -/
def regionsAdmit (s : State) (m page : Nat) (rdNeed wrNeed : Bool) : Bool :=
  (List.range 4).any (fun r => regionAdmits s m r page rdNeed wrNeed)

/-! ## The polder check -/

/-- The map page of an address (Table PLD-2). -/
def mapPage (a : Nat) : Nat := if inOcm a then ocmPage a else 0x6000 + (a - dramBase) / 4096

/-- The base of the map in force. -/
def mapBase (s : State) : Nat := rdA s PLD_MAP_BASE_base.inForce

/-- The address of a page's map entry. -/
def entryAddr (s : State) (page : Nat) : Nat := mapBase s + page

/-- The pseudo-code of R78 on a map entry (Table PLD-1). -/
def checkEntry (entry : Nat) (isCore secure : Bool) (polder : Nat) : Option Nat :=
  if !bit entry 7 then some denyInvalid
  else if !isCore && !bit entry 6 then some denyDevice
  else if !secure && polder == 0 then some denyTag
  else if bit entry 5 then (if secure then none else some denySecure)
  else if isCore && secure then none
  else if polder == bits entry 4 0 then none
  else some denyOwner

/-- A page's map entry as the check sees it (R80, R81): `none` when its line cannot be read. Before an invalidation that covers
the page has completed, a changed entry may be seen as it was or as it is: a free choice. -/
def lookupEntry (s : State) (page : Nat) : Option Nat × State :=
  let line := entryAddr s page / 64 * 64
  if poisonedIn s line 64 then (none, record0 Src.PLD_MAP_ERROR none (twoWords line) s)
  else
    let cur := byteAt s (entryAddr s page)
    let old := Tab.get 0 s.pld.entries page
    if old ≠ 0 ∧ old ≠ cur + 1 then
      if freeBit s then (some (old - 1), tookFree s)
      else (some cur, tookFree { s with pld := { s.pld with entries := s.pld.entries.put page (cur + 1) } })
    else (some cur, { s with pld := { s.pld with entries := s.pld.entries.put page (cur + 1) } })

/-- R76: a page that is secure in tidemark mode. -/
def tidemarkSecure (s : State) (a : Nat) : Bool :=
  if inOcm a then decide (ocmPage a < 4096) else decide (a < rdA s PLD_TIDEMARK_tidemark)

/-- R76, R125: the check by the tidemark. -/
def tidemarkCheck (s : State) (secure : Bool) (a : Nat) : Option Nat :=
  if inDramRange a && !inDram s a then some denyTidemark
  else if tidemarkSecure s a && !secure then some denySecure
  else if !secure && rdB s PLD_MODE_CTRL_fence_normal then some denyTidemark
  else none

/-- The polder check in whichever mode is in force (R76, R78). -/
def polderCheck (isCore secure : Bool) (polder a : Nat) (s : State) : Option Nat × State :=
  if rdB s PLD_MODE_STAT_mode then
    if inOcm a || inDram s a then
      match lookupEntry s (mapPage a) with
      | (some e, s1) => (checkEntry e isCore secure polder, s1)
      | (none, s1) => (some denyInvalid, s1)
    else (some denyInvalid, s)
  else (tidemarkCheck s secure a, s)

/-- Whether a page is secure, in whichever mode is in force (R64, R65, R67). -/
def pageSecure (s : State) (a : Nat) : Bool :=
  if rdB s PLD_MODE_STAT_mode then
    (inOcm a || inDram s a) && bit (byteAt s (entryAddr s (mapPage a))) 7 && bit (byteAt s (entryAddr s (mapPage a))) 5
  else (inOcm a || inDram s a) && tidemarkSecure s a

/-- R79: a denied access counted, latched and recorded. -/
def pldDeny (c : Carried) (write : Bool) (reason addr : Nat) (s : State) : State :=
  s |> incSat PLD_DENY_INFO_count 1 |> wr PLD_DENY_INFO_master c.master |> wr PLD_DENY_INFO_polder c.polder
    |> wrB PLD_DENY_INFO_secure c.secure |> wrB PLD_DENY_INFO_write write |> wr PLD_DENY_INFO_reason reason
    |> wr PLD_DENY_ADDR_addr addr
    |> record0 Src.PLD_DENY (some c.polder)
        ((c.master + 64 * c.polder + 2048 * b2n c.secure + 4096 * b2n write + 8192 * reason) :: twoWords addr)

/-! ## Table walks (Sv39, Sv48 and Sv48x4) -/

/-- What a walk needs of a page of a table: whether an entry may be read there. -/
def walkReadable (s : State) (writer a : Nat) : Bool :=
  (inOcm a || inDram s a) && !poisonedIn s a 8 &&
  (if rdB s PLD_MODE_STAT_mode then
    let e := byteAt s (entryAddr s (mapPage a))
    bit e 7 && bit e 6 && (bits e 4 0 == writer || bits e 4 0 == 0)
  else true)

/-- A leaf entry's checks: the low PPN bits of a superpage are 0, the type's permission is given, U is as required, and A (and D
for a write) is set or set by the walk. -/
def leafOk (pte level : Nat) (perm : Nat) (needU : Option Bool) : Bool :=
  bits pte 53 10 % 512 ^ level == 0 && bit pte perm &&
    (match needU with | some u => bit pte 4 == u | none => true)

/-- A walk from the table at `base`: `level` is the number of levels left below this one, `vpn` the virtual page number, `idxBits`
the index width at this level. Answers the physical address of page offset `off`. `readable` admits the entry read. -/
def walk (s : State) (readable : Nat → Bool) (perm : Nat) (needU : Option Bool) : Nat → Nat → Nat → Nat → Nat → Option Nat
  | level, base, vpn, idxBits, off =>
    let idx := vpn / 512 ^ level % 2 ^ idxBits
    let at_ := base + 8 * idx
    if !readable at_ then none
    else
      let pte := readNat s at_ 8
      if !bit pte 0 || (bit pte 2 && !bit pte 1) then none
      else if bit pte 1 || bit pte 3 then
        if leafOk pte level perm needU && bit pte 6 && (perm != 2 || bit pte 7) then
          some (bits pte 53 10 * 4096 + vpn % 512 ^ level * 4096 + off)
        else none
      else match level with
        | 0 => none
        | l + 1 => walk s readable perm needU l (bits pte 53 10 * 4096) vpn 9 off

/-- R84: a device access's address translated by its polder's second stage; `none` is a translation fault. -/
def s2Walk (s : State) (p a : Nat) (write : Bool) : Option Nat :=
  if rd s (PLD_S2_ROOT_mode p) = 9 then
    walk s (walkReadable s (rd s (PLD_S2_ROOT_writer p))) (if write then 2 else 1) (some true) 3
      (rdA s (PLD_S2_ROOT_root p)) (a / 4096) 11 (a % 4096)
  else some a

/-- The key of a cached second-stage translation. -/
def s2Key (p a : Nat) (write : Bool) : Nat := (p * 2 + b2n write) * 2 ^ 52 + a / 4096

/-- R84, R85: the translation as the device stage makes it. Until an invalidation has completed, a changed translation may be used
as it was or as it is: a free choice. -/
def s2Translate (p a : Nat) (write : Bool) (s : State) : Option Nat × State :=
  if rd s (PLD_S2_ROOT_mode p) ≠ 9 then (some a, s)
  else
    let cur := match s2Walk s p a write with | some x => x / 4096 + 2 | none => 1
    let old := Tab.get 0 s.pld.s2 (s2Key p a write)
    let pick (v : Nat) : Option Nat := if v ≤ 1 then none else some ((v - 2) * 4096 + a % 4096)
    if old ≠ 0 ∧ old ≠ cur then
      if freeBit s then (pick old, tookFree s)
      else (pick cur, tookFree { s with pld := { s.pld with s2 := s.pld.s2.put (s2Key p a write) cur } })
    else (pick cur, { s with pld := { s.pld with s2 := s.pld.s2.put (s2Key p a write) cur } })

/-- R64, R65: a core's target translated through a world's satp (Bare, Sv39 or Sv48) for instruction fetch at the hart's privilege. -/
def satpTranslate (s : State) (h : Hart) (satp va : Nat) : Option Nat :=
  let root := bits satp 43 0 * 4096
  let readable (a : Nat) : Bool := (inOcm a || inDram s a) && !poisonedIn s a 8
  match bits satp 63 60 with
  | 0 => some va
  | 8 => if va / 2 ^ 38 = 0 ∨ va / 2 ^ 38 = 2 ^ 26 - 1 then
      walk s readable 3 (some (h.priv == 0)) 2 root (va / 4096 % 2 ^ 27) 9 (va % 4096) else none
  | 9 => if va / 2 ^ 47 = 0 ∨ va / 2 ^ 47 = 2 ^ 17 - 1 then
      walk s readable 3 (some (h.priv == 0)) 3 root (va / 4096 % 2 ^ 36) 9 (va % 4096) else none
  | _ => none

/-! ## R31: a buffer a message refers to -/

/-- R31 on one page of a referenced buffer. -/
def refPageOk (s : State) (c : Carried) (a : Nat) : Bool :=
  (!inOcm a || (regionsAdmit s c.master (ocmPage a) true true &&
      (decide (ocmPage a < 22528) || c.master == 9))) &&
  (if rdB s PLD_MODE_STAT_mode then
    let e := byteAt s (entryAddr s (mapPage a))
    bit e 7 && ((!bit e 5 && bits e 4 0 == c.polder) || (c.secure && c.polder == 0 && bit e 5))
  else c.secure || (!tidemarkSecure s a && !rdB s PLD_MODE_CTRL_fence_normal))

/-- R31: the whole buffer lies in OCM or in installed DRAM, and every page of it passes. -/
def refOk (s : State) (c : Carried) (a n : Nat) : Bool :=
  ((decide (ocmBase ≤ a) && decide (a + n ≤ ocmEnd)) || (decide (dramBase ≤ a) && decide (a + n ≤ dramBase + dramBytes s))) &&
  (List.range ((a % 4096 + n + 4095) / 4096)).all (fun i => refPageOk s c (a / 4096 * 4096 + 4096 * i))

end Sys2Proof.Machine
end

