-- ==== Sys2Proof/Machine/DevAccess.lean ====
section
/-! DEFINITION. What an engine's own access meets on its way to memory: the second stage of its polder (R84, R85), the outbound
window (R112), the OCM regions (R115), the polder check (R76, R78) and poison (R123); and how its faults read in POL_FAULT_INFO. -/
namespace Sys2Proof.Machine

/-- An engine's access: its master ID, its work's polder and whether that work is polder 0's. A polder-0 engine access carries the
secure attribute (R78). -/
structure Engine where
  master : Nat
  polder : Nat
  deriving DecidableEq, Repr

/-- What the engine's accesses carry. -/
def Engine.carries (e : Engine) : Carried := ⟨e.master, e.polder, e.polder == 0⟩

def masterGfx : Nat := 12
def masterVcd : Nat := 13
def masterCmp : Nat := 14
def masterAud : Nat := 15
def masterTch : Nat := 16
def masterHap : Nat := 17
def masterCvu : Nat := 22

/-- An address in the PCIe outbound window. -/
def inOutbound (a : Nat) : Bool := decide (0x800000000 ≤ a) && decide (a < 0x1000000000)

/-- R112: an address in a polder's own outbound window. -/
def outboundOk (s : State) (p a : Nat) : Bool :=
  match Tab.get (0, 0) s.pci.outbound p with
  | (base, pages) => decide (0x800000000 + 4096 * base ≤ a) && decide (a < 0x800000000 + 4096 * (base + pages))

/-- What the checks say of an engine's access within one page. The reason is POL_FAULT_INFO's (1 bad address, 2 translation); 0 admits
it at the physical address given. A denial is counted and recorded where its check says. -/
def devPage (e : Engine) (write : Bool) (a : Nat) (s : State) : Nat × Nat × State :=
  match s2Translate e.polder a write s with
  | (none, s1) => (2, 0, pldDeny e.carries write denyTranslation a s1)
  | (some pa, s1) =>
    if inOutbound pa then
      if outboundOk s1 e.polder pa then (0, pa, s1)
      else (1, 0, pldDeny e.carries write denyOwner pa (record0 Src.PCI_OUTBOUND_DENY (some e.polder) (e.polder :: twoWords pa) s1))
    else if inOcm pa then
      if 22528 ≤ ocmPage pa then (1, 0, pldDeny e.carries write denySecure pa s1)
      else if !regionsAdmit s1 e.master (ocmPage pa) (!write) write then
        (1, 0, record0 Src.OCM_REGION_DENY (some e.polder) (e.master :: twoWords pa ++ [b2n write]) s1)
      else match polderCheck false (e.polder == 0) e.polder pa s1 with
        | (none, s2) => (0, pa, s2)
        | (some r, s2) => (1, 0, pldDeny e.carries write r pa s2)
    else if inDramRange pa then
      match polderCheck false (e.polder == 0) e.polder pa s1 with
      | (none, s2) => (0, pa, s2)
      | (some r, s2) => (1, 0, pldDeny e.carries write r pa s2)
    else (1, 0, pldDeny e.carries write (denyElsewhere pa) pa s1)

/-- The pages that `n` bytes from `a` touch, as their first addresses within the range. -/
def pageStarts (a n : Nat) : List Nat :=
  if n = 0 then [] else a :: (List.range ((a + n - 1) / 4096 - a / 4096)).map (fun i => (a / 4096 + i + 1) * 4096)

/-- The checks on every page of a range: the first reason that refuses it, or 0. -/
def devCheck (e : Engine) (write : Bool) (a n : Nat) (s : State) : Nat × State :=
  (pageStarts a n).foldl (fun rs x =>
    if rs.1 = 0 then (match devPage e write x rs.2 with | (r, _, s1) => (r, s1)) else rs) (0, s)

/-- The physical address an engine's address has, when its second stage gives one. -/
def devPhys (s : State) (p a : Nat) : Nat := (s2Walk s p a false).getD 0

/-- A byte at a physical address as an engine reads it: what the PCIe host holds there is the host's own, a free value. -/
def physByte (s : State) (pa : Nat) : Nat := if inOutbound pa then Config.freeValue (s.free + pa) % 256 else byteAt s pa

/-- A byte an engine reads, once its range has passed the checks. -/
def devByte (s : State) (p a : Nat) : Nat := physByte s (devPhys s p a)

/-- `n` bytes an engine reads. -/
def devBytes (s : State) (p a n : Nat) : List Nat := (List.range n).map (fun i => devByte s p (a + i))

/-- Loss of training is in force, so that no DRAM access reaches the DRAM (R143). -/
def dramLost (s : State) : Bool := rdB s (DMC_STATUS_failed 0)

/-- Whether a range an engine reads holds a poisoned word, or lies in DRAM that has failed. -/
def devPoisoned (s : State) (p a n : Nat) : Bool :=
  (pageStarts a n).any (fun x =>
    let pa := devPhys s p x
    poisonedIn s pa (min (4096 - x % 4096) (a + n - x)) || (dramLost s && inDramRange pa))

/-- What an engine's read of a range answers: 0 with its bytes, or the reason (1, 2, or 4 for poison) with none. -/
def devRead (e : Engine) (a n : Nat) (s : State) : Nat × List Nat × State :=
  match devCheck e false a n s with
  | (0, s1) => if devPoisoned s1 e.polder a n then (4, [], s1) else (0, devBytes s1 e.polder a n, s1)
  | (r, s1) => (r, [], s1)

/-- Bytes stored by an engine that has passed the checks, page by page; what goes to the outbound window leaves
the device, and DRAM that has lost its training takes nothing (R143). -/
def devStore (p : Nat) : Nat → List Nat → State → State
  | _, [], s => s
  | a, b :: bs, s =>
    let pa := devPhys s p a
    devStore p (a + 1) bs (if inOutbound pa || (dramLost s && inDramRange pa) then s else writeBytes pa [b] s)

/-- Bytes stored by an engine that has passed the checks. Without a second stage they go to one range; otherwise byte by byte. -/
def devPut (p a : Nat) (bs : List Nat) (s : State) : State :=
  if rd s (PLD_S2_ROOT_mode p) ≠ 9 then (if inOutbound a || (dramLost s && inDramRange a) then s else writeBytes a bs s) else devStore p a bs s

/-- An engine's write of a range: what falls in a page that refuses it is dropped, the rest is performed. Answers the first reason that
refused a page, or 0. -/
def devWrite (e : Engine) (a : Nat) (bs : List Nat) (s : State) : Nat × State :=
  (pageStarts a bs.length).foldl (fun rs x =>
    match devPage e true x rs.2 with
    | (0, _, s1) => (rs.1, devPut e.polder x ((bs.drop (x - a)).take (4096 - x % 4096)) s1)
    | (r, _, s1) => (if rs.1 = 0 then r else rs.1, s1)) (0, s)

end Sys2Proof.Machine
end

