-- ==== Sys2Proof/Machine/NetTx.lean ====
section
/-! DEFINITION. What the device sends on the network (spec/14_onader_network_and_time.md): Onader framing (R368), what may be sent (R370,
R371, R383), forwarded slices (R375), attestation export (R381), and manager frames with their tags (R379, R380). A queue at an egress port
that has no room is a free choice where a rule counts the loss. -/
namespace Sys2Proof.Machine

def clsHello : Nat := 1
def clsSched : Nat := 2
def clsSlice : Nat := 3
def clsKeyreq : Nat := 4
def clsAttest : Nat := 5
def clsEvent : Nat := 6
def clsMgr : Nat := 7

/-- The state of the network given new value. -/
def setNet (f : NetSt → NetSt) (s : State) : State := { s with net := f s.net }

/-- QUIET and the transitions into it (CRP_STATUS.power_state). -/
def inQuiet (s : State) : Bool := rd s CRP_STATUS_power_state == 1

/-- The device number and system, 0 without an identity. -/
def ownDevice (s : State) : Nat := match s.net.identity with | some i => i.device | none => 0
def ownSystem (s : State) : Nat := match s.net.identity with | some i => i.system | none => 0

/-- A frame of a class may be sent: an identity is set (R370), no duplicate of it is heard unless the frame is a HELLO (R371), a port is up,
the switch is powered, and in QUIET the class is one that goes on (R383). -/
def canSend (s : State) (cls : Nat) : Bool :=
  s.net.identity.isSome && (cls == clsHello || !rdB s ONL_STATUS_dup) && rd s ONL_STATUS_link % 64 != 0 && domainOn s 6 &&
    !(inQuiet s && (cls == clsSlice || cls == clsKeyreq || cls == clsAttest || cls == clsEvent))

/-- The 24 bytes of an Onader header (Table ONL-3). -/
def onlHeader (s : State) (cls group : Nat) (dest : Option Nat) (seq length : Nat) : List Nat :=
  leBytes 4 (1 + 16 * cls + 65536 * (length % 65536)) ++ leBytes 4 (ownSystem s + 65536 * group) ++
    leBytes 4 (ownDevice s + (match dest with | some d => 65536 * d | none => 2 ^ 30)) ++ leBytes 4 seq ++ leBytes 8 s.devTime

/-- The next seq of a class. -/
def seqOf (s : State) (cls : Nat) : Nat := Tab.get 0 s.net.seqs cls

/-- A frame sent, when it may be. -/
def netSend (cls group : Nat) (dest : Option Nat) (addr : Nat) (payload : List Nat) (s : State) : State :=
  if !canSend s cls then s
  else setNet (fun v => { v with seqs := v.seqs.put cls ((seqOf s cls + 1) % 2 ^ 32),
                                 sent := ⟨cls, group, dest, addr, seqOf s cls, s.devTime, payload⟩ :: v.sent }) s

/-- The payload bytes that fit a frame to an address (R368); IPv4 addresses are the numbers below 2^32. -/
def payloadRoom (s : State) (addr : Nat) : Nat := rd s ONL_CFG_mtu - (if addr < 2 ^ 32 then 52 else 72)

/-! ## Schedules in force (R373) -/

/-- The place of the schedule in force for a group. -/
def schedInForce (s : State) (g : Nat) : Option Nat :=
  (List.range 8).find? (fun i => rdB s (ONL_GRP_ID_valid i) && rd s (ONL_GRP_ID_group i) == g)

/-! ## Forwarded streams (R375) -/

/-- The transmit stream of a number that a polder has bound. -/
def txStream (s : State) (p n : Nat) : Option TxStream := s.net.tx.find? (fun t => t.stream == n && t.polder == p)

/-- The 20-byte payload header of a fragment (Table ONL-5). -/
def sliceHeader (stream row time offset total : Nat) (key last : Bool) : List Nat :=
  leBytes 4 (stream + 65536 * row + 2 ^ 30 * b2n key + 2 ^ 31 * b2n last) ++ leBytes 8 time ++ leBytes 4 offset ++ leBytes 4 total

/-- A chunk sent to a stream in fragments that fit. -/
def sendFragments (t : TxStream) (row time : Nat) (key last : Bool) (bytes : List Nat) (s : State) : State :=
  let n := payloadRoom s t.addr - 20
  (List.range (max 1 (ceilDiv bytes.length n))).foldl (fun s i =>
    netSend clsSlice 0 none t.addr
      (sliceHeader t.stream row time (i * n) bytes.length key last ++ (bytes.drop (i * n)).take n) s) s

/-! ## Export (R381) -/

/-- A frame lost from the export: `kind` is 1 ATTEST, 2 EVENT; `n` is how many records it held. -/
def exportDrop (kind n : Nat) (s : State) : State :=
  let c := s.net.exportLost
  let c1 := if kind = 1 then (satAdd 32 c.1 n, c.2) else (c.1, satAdd 32 c.2 n)
  record0 Src.ONL_EXPORT_DROP none [kind, if kind = 1 then c1.1 else c1.2] (setNet (fun v => { v with exportLost := c1 }) s)

/-- An export frame of `n` records sent, or lost for want of a destination, a link or room. -/
def exportSend (kind n : Nat) (bytes : List Nat) (s : State) : State :=
  let cls := if kind = 1 then clsAttest else clsEvent
  match s.net.exportTo with
  | some (addr, _, _) =>
    if canSend s cls && freeBit s then netSend cls 0 none addr bytes (tookFree s) else exportDrop kind n (tookFree s)
  | none => exportDrop kind n s

/-! ## Manager frames (R379, R380) -/

/-- The first 16 bytes of the HMAC of a frame under a session key. -/
def mgrTag (key header payload : List Nat) : List Nat := (hmacSha256 key (header ++ payload)).take 16

/-- A frame of a session sent to the manager: kind, session word and body, with a tag under K_s when `key` is given. -/
def mgrSend (source addr word kind : Nat) (body : List Nat) (key : Option (List Nat)) (s : State) : State :=
  let p := leBytes 4 kind ++ leBytes 4 word ++ body
  let tag := match key with
    | some k => mgrTag k (onlHeader s clsMgr 0 (some source) (seqOf s clsMgr) (p.length + 16)) p
    | none => []
  netSend clsMgr 0 (some source) addr (p ++ tag) s

/-- The session that is up. -/
def mgrUp (s : State) : Option MgrSes := match s.net.mgr with | some m => if m.up then some m else none | none => none

/-- A frame of the session that is up. -/
def mgrFrame (kind : Nat) (body : List Nat) (s : State) : State :=
  match mgrUp s with
  | some m => mgrSend m.source m.addr m.word kind body (some m.key) s
  | none => s

/-- R380: a message at the head of channel 63 sent as kind 4, with the number it keeps until it is acknowledged. -/
def mgrMessage (msg : List Nat) (s : State) : State :=
  match mgrUp s with
  | some m =>
    mgrFrame 4 (leBytes 4 m.txSeq ++ wordsBytes msg) (setNet (fun v => { v with mgr := some { m with tries := m.tries + 1, sentAt := s.now } }) s)
  | none => s

end Sys2Proof.Machine
end

