-- ==== Sys2Proof/Machine/Operands.lean ====
section
/-! DEFINITION. Mailbox messages and the operand forms of commands: delivery and its consequences (R28, R29, R33, R36, R39),
what Tujan sends and holds (R34, R35), and how Tujan takes a request and checks it before its arguments (R30 to R32, R57, R462). -/
namespace Sys2Proof.Machine

/-! ## Messages -/

/-- A channel. -/
def chan (s : State) (n : Nat) : Chan := Tab.get Chan.empty s.chans n

/-- A channel given a new value. -/
def setChan (n : Nat) (c : Chan) (s : State) : State := { s with chans := s.chans.put n c }

/-- The messages Tujan holds for a pair (R35). -/
def heldFor (s : State) (k : Nat) : List Held := Tab.get [] s.held k

/-- The messages held for a pair replaced. -/
def setHeld (k : Nat) (l : List Held) (s : State) : State := { s with held := s.held.put k l }

/-- The word of a message; 0 beyond its end. -/
def Msg.word (m : Msg) (i : Nat) : Nat := List.getD m i 0

def Msg.opcode (m : Msg) : Nat := bits (Msg.word m 1) 15 0
def Msg.length (m : Msg) : Nat := bits (Msg.word m 1) 23 16
def Msg.waitAck (m : Msg) : Bool := bit (Msg.word m 1) 24
def Msg.ref (m : Msg) : Bool := bit (Msg.word m 1) 25
def Msg.isReply (m : Msg) : Bool := bit (Msg.word m 1) 26
def Msg.isNotify (m : Msg) : Bool := bit (Msg.word m 1) 27
def Msg.isAck (m : Msg) : Bool := bit (Msg.word m 1) 28
def Msg.master (m : Msg) : Nat := bits (Msg.word m 0) 5 0
def Msg.polder (m : Msg) : Nat := bits (Msg.word m 0) 10 6
def Msg.secure (m : Msg) : Bool := bit (Msg.word m 0) 11
def Msg.seq (m : Msg) : Nat := bits (Msg.word m 0) 21 12

/-- Sixteen words: the given ones, then zeros. -/
def pad16 (ws : List Nat) : Msg := (ws ++ List.replicate 16 0).take 16

/-- A message's words 0 and 1 and payload (Table MBX-2): opcode, flags in bits [31:24] of word 1, payload words. -/
def mkMsg (opcode flags : Nat) (payload : List Nat) : Msg :=
  pad16 (0 :: (opcode + 65536 * (4 * payload.length) + 16777216 * flags) :: payload.map lo32)

def flagWaitAck : Nat := 1
def flagReply : Nat := 4
def flagNotify : Nat := 8

/-- R28, R29: the stamp of word 0. -/
def stamp (master polder : Nat) (secure : Bool) (seq : Nat) : Nat := master + 64 * polder + 2048 * b2n secure + 4096 * seq

/-- The seq that a reply or an ack names (Table MBX-4; ack: word 2 [9:0]). -/
def Msg.ackSeq (m : Msg) : Nat := if Msg.isAck m then bits (Msg.word m 2) 9 0 else bits (Msg.word m 2) 25 16

/-- Whether a channel's enable is 1. -/
def chanOn (s : State) (n : Nat) : Bool := rdB s (MBX_CH_CFG_enable n)

/-- The polders a pair from 0 to 29 serves (R26, R38): its party_polder and the polders of its share set. -/
def pairPolders (s : State) (k : Nat) : List Nat :=
  idxWhere 32 (fun p => rd s (MBX_CH_CFG_party_polder (2 * k + 1)) == p || bit (rd s (MBX_PAIR_SHARE_polders k)) p)

/-- The polder field of a record about a channel: its party's polder, or the device for pairs 30 and 31. -/
def chanPolder (s : State) (n : Nat) : Option Nat := if n < 60 then some (rd s (MBX_CH_CFG_party_polder n)) else none

/-- The domain that a channel's wake_domain names is off (R39). -/
def wakeNeeded (s : State) (wd : Nat) : Bool := (bit wd 0 && !domainOn s 0) || (bit wd 1 && !domainOn s 1)

/-- R22, R39: the wake that a delivery raises for the domain its channel names: outside ACTIVE a wake event, which R426 and R427
take up; in ACTIVE the domain is powered up. -/
def deliveryWake (n : Nat) (s : State) : State :=
  let wd := rd s (MBX_CH_CFG_wake_domain n)
  if wd = 0 then s
  else if rd s CRP_STATUS_power_state ≠ 0 then
    { (record0 Src.MBX_WAKE (chanPolder s n) [n, wd] s) with wakes := s.wakes ++ [(1, n)] }
  else if wakeNeeded s wd then
    s |> record0 Src.MBX_WAKE (chanPolder s n) [n, wd] |> orBits CRP_PD_STAT_on wd
  else s

/-- R39: what a delivery on channel 2k + 1 raises: the record MBX_RX, and with rx_irq_en line 0 of the pair's polders, or vector 0
for the PCIe host. -/
def deliveryRx (n seq : Nat) (s : State) : State :=
  let s1 := record0 Src.MBX_RX (chanPolder s n) [n, seq] s
  if rdB s (MBX_CH_CFG_rx_irq_en n) then
    if n < 60 then raiseLines (pairPolders s (n / 2)) 0 s1 else if n = 61 then sendMsix 0 s1 else s1
  else s1

/-- R33: a message written into a channel with its stamp. A reply from Tujan acknowledges the request it answers (R36). A message that
becomes the head of channel 63 goes to the manager (R380). -/
def deliver (n master polder : Nat) (secure wake : Bool) (m : Msg) (s : State) : State :=
  let c := chan s n
  let w0 := stamp master polder secure c.nextSeq
  let c1 : Chan := { q := c.q ++ [w0 :: m.tail], nextSeq := (c.nextSeq + 1) % 1024,
                     unacked := if Msg.waitAck m then c.unacked ++ [⟨c.nextSeq, Msg.opcode m, s.now⟩] else c.unacked }
  let s1 := setChan n c1 s
  let s2 :=
    if n % 2 = 1 then
      let s1 := if n = 63 ∧ c.q.isEmpty = true then mgrMessage (w0 :: m.tail) s1 else s1
      let s' := if Msg.isReply m || Msg.isAck m then
          let b := chan s1 (n - 1)
          setChan (n - 1) { b with unacked := b.unacked.filter (fun u => u.seq != Msg.ackSeq m) } s1
        else s1
      deliveryRx n c.nextSeq s'
    else s1
  if wake then deliveryWake n s2 else s2

/-! ## What Tujan sends (R35) -/

/-- A message sent by Tujan to a pair's party: delivered, held, or discarded. `always` marks ST_PENDING and final replies. -/
def tujanSend (k : Nat) (always wake : Bool) (m : Msg) (s : State) : State :=
  let n := 2 * k + 1
  if !chanOn s n then s
  else if (heldFor s k).isEmpty && decide ((chan s n).q.length < 8) then deliver n 9 0 true wake m s
  else if always || decide ((heldFor s k).length < 8) then setHeld k (heldFor s k ++ [⟨m, always⟩]) s
  else s |> wr (MBX_CH_STAT_tx_overflow n) 1 |> record0 Src.MBX_TX_OVERFLOW (chanPolder s n) [n, 9]

/-- A reply (Table MBX-4). -/
def reply (j : Job) (status : Nat) (result : List Nat) (s : State) : State :=
  tujanSend j.pair true true (mkMsg j.opcode flagReply ((status + 65536 * j.seq) :: result)) s

/-- A final reply to a request that may have none waiting. -/
def replyOpt (j : Option Job) (status : Nat) (result : List Nat) (s : State) : State :=
  match j with
  | some j => reply j status result s
  | none => s

/-- A notification to a pair's party. -/
def notify (k opcode : Nat) (payload : List Nat) (s : State) : State := tujanSend k false true (mkMsg opcode flagNotify payload) s

/-- A notification that expects an acknowledgement (R36). -/
def notifyAck (k opcode : Nat) (payload : List Nat) (s : State) : State :=
  tujanSend k false true (mkMsg opcode (flagNotify + flagWaitAck) payload) s

/-- The pair of a kind of warden candidate (Table MBX-1): 1 secure world, 2 PCIe host, 3 remote manager. -/
def kindPair (kind : Nat) : Nat := if kind = 1 then 0 else if kind = 2 then 30 else 31

/-- The pair of the warden, while the position is held. -/
def wardenPair (s : State) : Option Nat := if s.warden.kind = 0 then none else some (kindPair s.warden.kind)

/-- A notification to each pair of a list, once to each. -/
def notifyPairs (ks : List Nat) (opcode : Nat) (payload : List Nat) (s : State) : State :=
  ks.dedup.foldl (fun s k => notify k opcode payload s) s

/-- A notification to the warden and polder 0. -/
def notifyWardenAnd0 (opcode : Nat) (payload : List Nat) (s : State) : State :=
  notifyPairs ((wardenPair s).toList ++ [0]) opcode payload s

/-- A notification to a polder's pair. -/
def notifyPolder (p opcode : Nat) (payload : List Nat) (s : State) : State :=
  match pairOf s p with
  | some k => notify k opcode payload s
  | none => s

/-- A notification to a polder's pair, the warden and polder 0. -/
def notifyPolderWardenAnd0 (p opcode : Nat) (payload : List Nat) (s : State) : State :=
  notifyPairs ((pairOf s p).toList ++ (wardenPair s).toList ++ [0]) opcode payload s

/-- A notification to every enabled party. -/
def notifyAll (opcode : Nat) (payload : List Nat) (s : State) : State :=
  notifyPairs (idxWhere 32 (fun k => chanOn s (2 * k + 1))) opcode payload s

/-! ## Events accepted at the end of a step -/

/-- R463: DEV_REPORT for a record: to the warden and polder 0, or to polder 0 only when the record is secure. -/
def devReport (r : EvRec) (s : State) : State :=
  let pay := [r.halfWord, r.seq, r.p0, r.p1, r.p2, r.p3]
  if r.secure then notify 0 Op.DEV_REPORT pay s else notifyWardenAnd0 Op.DEV_REPORT pay s

/-- One raised event offered to the weir and, if its record is to be reported, reported. -/
def takeEvent (e : RaisedEv) (s : State) : State :=
  match occurrence e s with
  | (some r, s1) => if e.report then devReport r s1 else s1
  | (none, s1) => s1

/-- R385: the events raised in a step accepted in increasing code order, then those that their acceptance raised in turn (a report's
MBX_RX, VLT_CRIT_DROP). Before the recorder has started they wait (R386). -/
def settle : Nat → State → State
  | 0, s => s
  | k + 1, s =>
    if !s.evr.started || s.evr.raised.isEmpty then s
    else
      let es := sortByCode s.evr.raised
      settle k (es.foldl (fun s e => takeEvent e s) { s with evr := { s.evr with raised := [] } })

/-- A command's answer: its effect, with the events it raised accepted. -/
def done (s : State) : Out := .next (settle 4 s)

/-! ## Requests -/

/-- A request Tujan has taken: its pair, and the message. -/
structure Req where
  pair : Nat
  msg : Msg
  deriving DecidableEq, Repr

def Req.job (r : Req) : Job := ⟨r.pair, Msg.opcode r.msg, Msg.seq r.msg⟩

/-- Word `i` of a request. -/
def Req.w (r : Req) (i : Nat) : Nat := Msg.word r.msg i

/-- What the sender's accesses carry (R28, R31). -/
def Req.carried (r : Req) : Carried := ⟨Msg.master r.msg, Msg.polder r.msg, Msg.secure r.msg⟩

/-- The polder a sender acts for; the PCIe host's and the remote manager's pairs act for none. -/
def Req.polder (r : Req) : Option Nat := if r.pair < 30 then some (Msg.polder r.msg) else none

/-- The kind of warden candidate that pushes on a pair (R48); 0 for none. -/
def Req.kind (r : Req) : Nat := if r.pair = 0 then 1 else if r.pair = 30 then 2 else if r.pair = 31 then 3 else 0

/-- The sender is the warden. -/
def Req.fromWarden (s : State) (r : Req) : Bool := r.kind != 0 && r.kind == s.warden.kind

/-- The sender is polder 0's secure world. -/
def Req.fromSecure (r : Req) : Bool := r.polder == some 0 && Msg.secure r.msg

/-- The buffer a request refers to (Table MBX-3). -/
def Req.bufAddr (r : Req) : Nat := r.w 2 + 4294967296 * bits (r.w 3) 7 0
def Req.bufSize (r : Req) : Nat := bits (r.w 4) 23 0

/-- Polder-level state of polder `p` is readable by its owner, the warden and polder 0 (R32). -/
def Req.mayReadPolder (s : State) (r : Req) (p : Nat) : Bool := r.polder == some p || r.fromWarden s || r.fromSecure

/-- The class of an opcode (Table MBX-5): 0 GET, 1 own-scope, 2 device-scope SET, 3 secure-scope. -/
def opClass (op : Nat) : Nat := bits op 7 6

/-- R30: a message Tujan does not execute. -/
def badForm (m : Msg) : Bool :=
  decide (56 < Msg.length m) || decide (1 < b2n (Msg.isReply m) + b2n (Msg.isNotify m) + b2n (Msg.isAck m)) ||
    decide (bits (Msg.word m 1) 31 29 ≠ 0) ||
    (Msg.ref m && (Msg.length m != 12 || bits (Msg.word m 3) 31 8 != 0 || bits (Msg.word m 4) 31 24 != 0 ||
      bits (Msg.word m 4) 23 0 == 0))

/-- R57: a message that is a request. -/
def isRequest (m : Msg) : Bool := !Msg.isReply m && !Msg.isNotify m && !Msg.isAck m

/-- R32, R456: a command refused, recorded as MBX_ACCESS_VIOLATION of kind 5. -/
def recordRefusal (r : Req) (status : Nat) (s : State) : State :=
  record0 Src.MBX_ACCESS_VIOLATION r.polder
    [Msg.master r.msg + 64 * b2n (Msg.secure r.msg) + 256 * 5, Msg.opcode r.msg, status, 2 * r.pair] s

/-- The head message of channel 2k that Tujan may take now (R25, R35). -/
def takeable (s : State) (k : Nat) : Option Msg :=
  if rdB s CRP_STATUS_tujan_ready && decide ((heldFor s k).length < 8) then (chan s (2 * k)).q.head? else none

/-- The head message of a channel removed. -/
def dropHead (n : Nat) (s : State) : State := setChan n { chan s n with q := (chan s n).q.tail } s

/-- The minimum size of the buffer that a command's payload or result needs by reference (R462); 0 where its table names none;
`none` for a command that takes no reference. -/
def minRef (op : Nat) : Option Nat :=
  Tab.get none
    [(Op.DSP_GET_SINK, some 4096), (Op.VCD_OPEN_DECODE, some 64), (Op.VCD_OPEN_ENCODE, some 64), (Op.AUD_GET_PATHS, some 0),
     (Op.AUD_LOAD_PROGRAM, some 0), (Op.TCH_GET_NODES, some 0), (Op.TCH_SET_SLIDER, some 24), (Op.NET_GET_PEERS, some 0), (Op.NET_SET_IDENTITY, some 48),
     (Op.NET_SET_TX_STREAM, some 20), (Op.NET_SET_RX_STREAM, some 36), (Op.NET_SET_EXPORT, some 20), (Op.NET_SET_MACSEC, some 64),
     (Op.NET_SET_QBV, some 24), (Op.NET_SET_AES67, some 32), (Op.EVR_READ, some 64),
     (Op.VLT_GET_CRITICAL, some 3072), (Op.CVU_RUN, some 84), (Op.EVR_SNAPSHOT, some 2097152), (Op.EVR_SET_ARCHIVE, some 16),
     (Op.VLT_GET_METERS, some 512)] op

/-- The class check of R32. -/
def classRefusal (s : State) (r : Req) : Option Nat :=
  match opClass (Msg.opcode r.msg) with
  | 2 => if r.fromWarden s then none else some ST_NOT_WARDEN
  | 3 => if r.fromSecure then none else some ST_NOT_OWNER
  | _ => none

/-- An own-scope command of a polder that is resetting (Table POL-7 step 1). -/
def senderResetting (s : State) (r : Req) : Bool :=
  opClass (Msg.opcode r.msg) == 1 && (match r.polder with | some p => p != 0 && polState s p == 2 | none => false)

/-- The checks of R462 and R31 on the form and the pages of a reference. -/
def refRefusal (s : State) (r : Req) : Option Nat :=
  match minRef (Msg.opcode r.msg) with
  | some n =>
    if !Msg.ref r.msg || decide (r.bufSize < n) then some ST_BAD_ARG
    else if refOk s r.carried r.bufAddr r.bufSize then none else some ST_BAD_ADDR
  | none => if Msg.ref r.msg then (if refOk s r.carried r.bufAddr r.bufSize then none else some ST_BAD_ADDR) else none

/-- What a command's own rules answer: its status, its result words from word 3 on, the state with its effect, and what happens
once the reply has been sent (notifications that follow it). ST_PENDING means that the final reply follows. -/
structure Answer where
  status : Nat
  result : List Nat
  state : State
  after : State → State

/-- A command answered ST_OK with a result and no effect. -/
def okR (result : List Nat) (s : State) : Answer := ⟨ST_OK, result, s, id⟩

/-- A command refused with a status and no effect. -/
def no (status : Nat) (s : State) : Answer := ⟨status, [], s, id⟩

/-- A command answered ST_OK with an effect and no result. -/
def did (s : State) : Answer := ⟨ST_OK, [], s, id⟩

/-- A command answered ST_PENDING, with an effect before that reply and one after it. -/
def pend (s : State) (after : State → State) : Answer := ⟨ST_PENDING, [], s, after⟩

/-- R32 on a request already taken from its channel: form, opcode and class, then `body`, whose refusal as not owner in an own-scope
or GET-class command is recorded as a refusal of R32. -/
def serveReq (r : Req) (body : Req → State → Answer) (s : State) : State :=
  if badForm r.msg then reply r.job ST_BAD_ARG [] s
  else match classRefusal s r with
    | some st => reply r.job st [] (recordRefusal r st s)
    | none =>
      if senderResetting s r then reply r.job ST_RESETTING [] s
      else match refRefusal s r with
        | some st => reply r.job st [] s
        | none =>
          let a := body r s
          let s1 := if a.status = ST_NOT_OWNER ∧ opClass (Msg.opcode r.msg) ≤ 1 then recordRefusal r a.status a.state else a.state
          a.after (reply r.job a.status a.result s1)

/-- Tujan takes the command `op` from the head of channel 2k, if that is what stands there and it may be taken; otherwise no such
step happens and nothing changes. -/
def serve (op k : Nat) (body : Req → State → Answer) (s : State) : State :=
  match takeable s k with
  | some m =>
    if Msg.opcode m = op ∧ (isRequest m || badForm m) = true then serveReq ⟨k, m⟩ body (dropHead (2 * k) s) else s
  | none => s

end Sys2Proof.Machine
end

