-- ==== Sys2Proof/Machine/Raster.lean ====
section
/-! DEFINITION. An output's raster (spec/09_scanout_and_display_links.md): timing, the pacing accumulator (R231) and the instants at
which its lines start, on which latch points, berms, deadlines and frame events lie (R163, R164, R175, R233, R234). -/
namespace Sys2Proof.Machine

/-- An output. -/
def out (s : State) (n : Nat) : OutSt := Tab.get OutSt.empty s.dsp.outs n

/-- An output given a new value. -/
def setOut (n : Nat) (o : OutSt) (s : State) : State := { s with dsp := { s.dsp with outs := s.dsp.outs.put n o } }

/-- A layer slot. -/
def slot (s : State) (m : Nat) : SlotSt := Tab.get SlotSt.empty s.dsp.slots m

/-- A layer slot given a new value. -/
def setSlot (m : Nat) (v : SlotSt) (s : State) : State := { s with dsp := { s.dsp with slots := s.dsp.slots.put m v } }

/-- A supervised region. -/
def region (s : State) (n r : Nat) : RegSt := Tab.get RegSt.empty s.dsp.regions (16 * n + r)

/-- A region given a new value. -/
def putRegion (n r : Nat) (v : RegSt) (s : State) : State :=
  { s with dsp := { s.dsp with regions := s.dsp.regions.put (16 * n + r) v } }

/-! ## Timing in force -/

def hActive (s : State) (n : Nat) : Nat := rd s (SCN_HTIME0_h_active n).inForce
def hTotal (s : State) (n : Nat) : Nat := rd s (SCN_HTIME0_h_total n).inForce
def vActive (s : State) (n : Nat) : Nat := rd s (SCN_VTIME0_v_active n).inForce
def vTotal (s : State) (n : Nat) : Nat := rd s (SCN_VTIME0_v_total n).inForce
def vsyncStart (s : State) (n : Nat) : Nat := rd s (SCN_VTIME1_vsync_start n).inForce
def lookahead (s : State) (n : Nat) : Nat := rd s (CMP_OUT_LATCH_lookahead n).inForce
def bermLines (s : State) (n : Nat) : Nat := rd s (CMP_OUT_LATCH_berm n).inForce
def depth8 (s : State) (n : Nat) : Bool := rdB s (SCN_FORMAT_depth8 n).inForce

/-- An output's timing is running. -/
def running (s : State) (n : Nat) : Bool := rdB s (SCN_STATUS_running n)

/-- An output's frame counter. -/
def frameCounter (s : State) (n : Nat) : Nat := rd s (SCN_FRAME_frame n)

/-- The tiles of a band and the bands of a frame (R174). -/
def tilesPerBand (s : State) (n : Nat) : Nat := (hActive s n + 255) / 256
def bandCount (s : State) (n : Nat) : Nat := (vActive s n + 15) / 16

/-! ## The pacing accumulator (R231) -/

/-- SCN_PACE_INC in units of 2^-32 pixel. -/
def paceInc (s : State) (n : Nat) : Nat :=
  rd s (SCN_PACE_INC_int n).inForce * 4294967296 + rd s (SCN_PACE_INC_frac n).inForce

/-- The increment with a trim in units of 0.02 ppm (Table SCN-6), rounded to a unit of 2^-32. -/
def trimmedInc (inc : Nat) (trim : Int) : Nat := ((inc : Int) + (inc * trim + 25000000) / 50000000).toNat

/-- CLK_CMP cycles begun by a time in nanoseconds (921.6 MHz). -/
def cyclesAt (t : Nat) : Nat := t * 576 / 625

/-- The time in nanoseconds at which a CLK_CMP cycle has begun. -/
def cycleTime (c : Nat) : Nat := (c * 625 + 575) / 576

/-- Cycles from the anchor until the raster has passed `px` pixel positions. -/
def cyclesFor (o : OutSt) (px : Nat) : Nat := if o.inc = 0 then 0 else (px * 4294967296 - o.anchorAcc + o.inc - 1) / o.inc

/-- The time of the start of a line of the raster that is passing, counted from its line 0. -/
def lineTime (s : State) (n line : Nat) : Nat :=
  let o := out s n
  cycleTime (o.anchorCycle + cyclesFor o ((line - o.anchorLine) * hTotal s n))

/-- The length of `k` lines in nanoseconds, to the nearest. -/
def linesNs (s : State) (n k : Nat) : Nat :=
  let o := out s n
  if o.inc = 0 then 0 else (k * hTotal s n * 4294967296 * 625 + o.inc * 288) / (o.inc * 576)

/-- The current line and pixel position of a running output (SCN_POS). -/
def rasterPos (s : State) (n : Nat) : Nat × Nat :=
  let o := out s n
  let px := ((cyclesAt s.now - o.anchorCycle) * o.inc + o.anchorAcc) / 4294967296
  if hTotal s n = 0 ∨ vTotal s n = 0 then (0, 0)
  else ((o.anchorLine + px / hTotal s n) % vTotal s n, px % hTotal s n)

/-- The raster anchored anew at the start of line `at_`, which is line `line` from now on, with the increment given: the cycle in which
that line starts and what the accumulator has beyond it. -/
def anchorAt (n at_ line inc : Nat) (s : State) : State :=
  let o := out s n
  let px := (at_ - o.anchorLine) * hTotal s n
  let k := cyclesFor o px
  setOut n { o with anchorCycle := o.anchorCycle + k, anchorLine := line,
                    anchorAcc := k * o.inc + o.anchorAcc - px * 4294967296, inc := inc } s

/-- The raster anchored at the start of a line that starts now (Table SCN-4 step 4). -/
def anchorNow (n line inc : Nat) (s : State) : State :=
  setOut n { out s n with anchorCycle := cyclesAt s.now, anchorLine := line, anchorAcc := 0, inc := inc } s

/-! ## Latch points (R163, R164) -/

/-- The line of the latch point. -/
def latchLine (s : State) (n : Nat) : Nat := vTotal s n - lookahead s n

/-- Whether a commit or flip accepted now is ahead of the berm of the frame whose raster is passing. -/
def beforeBerm (s : State) (n : Nat) : Bool :=
  !(out s n).latched && decide (s.now < lineTime s n (latchLine s n - bermLines s n))

/-- R164: the frame in which a commit accepted now takes effect. -/
def effectFrame (s : State) (n : Nat) : Nat :=
  if !running s n then frameCounter s n
  else ((out s n).cur + (if beforeBerm s n then 1 else 2)) % 4294967296

/-- The start of a line of the frame composed for, counted from its line 0, which may lie before it (R175). -/
def frameLineTime (s : State) (n : Nat) (line : Int) : Nat :=
  if (out s n).cur = (out s n).prep then lineTime s n line.toNat
  else lineTime s n ((vTotal s n : Int) + line).toNat

/-- The deadline of a band (R175). -/
def bandDeadline (s : State) (n b : Nat) : Nat := frameLineTime s n (16 * b)

/-- The device time at an instant of REFCLK, predicted at the present rate. -/
def devTimeAt (s : State) (t : Nat) : Nat := (s.devTime + (t - s.now)) % 2 ^ 64

end Sys2Proof.Machine
end

