-- ==== Sys2Proof/Machine/Layers.lean ====
section
/-! DEFINITION. Layers (spec/06_layers_and_commits.md): formats (Table CMP-1), a slot's configuration in force or projected, buffer
spans and ownership (R167, R293), demand (R168, R169), and the checks of Table CMP-4. -/
namespace Sys2Proof.Machine

/-! ## Formats (Table CMP-1) -/

/-- A format: planes, demand bytes per pixel of plane 0 and plane 1, whether plane 1 has half the rows, and whether x and w, and y and
h, must be even. -/
structure Format where
  planes : Nat
  bpp0 : Nat
  bpp1 : Nat
  halfRows : Bool
  evenX : Bool
  evenY : Bool
  deriving DecidableEq, Repr

/-- The formats by code; `none` for reserved encodings. -/
def formatOf (code : Nat) : Option Format :=
  match code with
  | 0x01 => some ⟨1, 4, 0, false, false, false⟩
  | 0x02 => some ⟨1, 4, 0, false, false, false⟩
  | 0x03 => some ⟨1, 4, 0, false, false, false⟩
  | 0x04 => some ⟨1, 3, 0, false, false, false⟩
  | 0x05 => some ⟨1, 4, 0, false, false, false⟩
  | 0x06 => some ⟨1, 4, 0, false, false, false⟩
  | 0x07 => some ⟨1, 8, 0, false, false, false⟩
  | 0x10 => some ⟨2, 1, 1, true, true, true⟩
  | 0x11 => some ⟨2, 1, 1, false, true, false⟩
  | 0x12 => some ⟨2, 2, 2, true, true, true⟩
  | 0x13 => some ⟨2, 2, 2, false, true, false⟩
  | 0x14 => some ⟨1, 2, 0, false, true, false⟩
  | 0x20 => some ⟨2, 1, 1, true, true, true⟩
  | 0x21 => some ⟨2, 2, 2, true, true, true⟩
  | 0x30 => some ⟨0, 0, 0, false, false, false⟩
  | _ => none

def fmtSolid : Nat := 0x30

/-- A format from 0x01 to 0x07. -/
def fmtRgb (f : Nat) : Bool := decide (1 ≤ f) && decide (f ≤ 7)

/-- A packed reference format. -/
def fmtPacked (f : Nat) : Bool := f == 0x20 || f == 0x21

/-! ## A slot's configuration -/

/-- A slot's content and placement (Tables CMP-6 and CMP-8). -/
structure Layer where
  slot : Nat
  enable : Bool
  format : Nat
  csc : Nat
  fullRange : Bool
  twoTaps : Bool
  striped : Bool
  fastClear : Bool
  alphaMode : Nat
  premult : Bool
  srcX : Nat
  srcY : Nat
  srcW : Nat
  srcH : Nat
  dstX : Int
  dstY : Int
  dstW : Nat
  dstH : Nat
  stride0 : Nat
  stride1 : Nat
  alpha : Nat
  color : Nat × Nat × Nat
  output : Nat
  z : Nat
  clipX : Nat
  clipY : Nat
  clipW : Nat
  clipH : Nat
  deriving DecidableEq, Repr

/-- The content fields of a slot (R159). -/
def contentFlds (m : Nat) : List Fld :=
  [CMP_LAYER_CTRL_enable m, CMP_LAYER_CTRL_format m, CMP_LAYER_CTRL_csc m, CMP_LAYER_CTRL_full_range m, CMP_LAYER_CTRL_vtaps m,
   CMP_LAYER_CTRL_striped m, CMP_LAYER_CTRL_fast_clear m, CMP_LAYER_CTRL_alpha_mode m, CMP_LAYER_CTRL_premult m,
   CMP_LAYER_SRC_XY_x m, CMP_LAYER_SRC_XY_y m, CMP_LAYER_SRC_WH_w m, CMP_LAYER_SRC_WH_h m, CMP_LAYER_DST_XY_x m,
   CMP_LAYER_DST_XY_y m, CMP_LAYER_DST_WH_w m, CMP_LAYER_DST_WH_h m, CMP_LAYER_STRIDE_stride0 m, CMP_LAYER_STRIDE_stride1 m,
   CMP_LAYER_ALPHA_global m, CMP_LAYER_COLOR_r m, CMP_LAYER_COLOR_g m, CMP_LAYER_COLOR_b m]

/-- The placement fields of a slot (R147). -/
def placeFlds (m : Nat) : List Fld :=
  [CMP_SLOT_PLACE_output m, CMP_SLOT_PLACE_z m, CMP_SLOT_CLIP_XY_x m, CMP_SLOT_CLIP_XY_y m, CMP_SLOT_CLIP_WH_w m,
   CMP_SLOT_CLIP_WH_h m]

/-- The live-class fields of a slot (Table DKW-11). -/
def classFlds (m : Nat) : List Fld :=
  [DKW_SLOT_CLASS_class m, DKW_SLOT_CLASS_treatment m, DKW_SLOT_CLASS_image m, DKW_SLOT_CLASS_frozen_n m,
   DKW_SLOT_CLASS_treat_degraded m, DKW_SLOT_MAXAGE_us m, DKW_SLOT_HBPERIOD_us m, DKW_SLOT_MOTION_XY_x m, DKW_SLOT_MOTION_XY_y m,
   DKW_SLOT_MOTION_WH_w m, DKW_SLOT_MOTION_WH_h m, DKW_SLOT_BLANK_rgb m]

/-- The fields of a region (Table DKW-12). -/
def regionFlds (n r : Nat) : List Fld :=
  [DKW_OUT_REG_XY_x n r, DKW_OUT_REG_XY_y n r, DKW_OUT_REG_WH_w n r, DKW_OUT_REG_WH_h n r, DKW_OUT_REG_CTRL_enable n r,
   DKW_OUT_REG_CTRL_source n r, DKW_OUT_REG_CTRL_action n r, DKW_OUT_REG_CTRL_bind n r, DKW_OUT_REG_CTRL_slot n r,
   DKW_OUT_REG_CTRL_image n r]

/-- The fields of a list as a commit carries them: the place in force of each, and its shadow value. -/
def snapshot (s : State) (fs : List Fld) : List (Nat × Nat) := fs.map (fun f => (f.inForce.key, rd s f))

/-- Field values put at their places. -/
def applyVals (vs : List (Nat × Nat)) (s : State) : State :=
  { s with regs := vs.foldl (fun t v => t.put v.1 v.2) s.regs }

/-- The state as its fields in force will stand once every queued commit has been applied (R148, R154). -/
def projected (s : State) : State := s.dsp.queue.foldl (fun s c => applyVals c.vals s) s

/-- A slot's configuration in force. -/
def layerOf (s : State) (m : Nat) : Layer :=
  let g (f : Fld) : Nat := rd s f.inForce
  { slot := m, enable := g (CMP_LAYER_CTRL_enable m) == 1, format := g (CMP_LAYER_CTRL_format m), csc := g (CMP_LAYER_CTRL_csc m),
    fullRange := g (CMP_LAYER_CTRL_full_range m) == 1, twoTaps := g (CMP_LAYER_CTRL_vtaps m) == 1,
    striped := g (CMP_LAYER_CTRL_striped m) == 1, fastClear := g (CMP_LAYER_CTRL_fast_clear m) == 1,
    alphaMode := g (CMP_LAYER_CTRL_alpha_mode m), premult := g (CMP_LAYER_CTRL_premult m) == 1,
    srcX := g (CMP_LAYER_SRC_XY_x m), srcY := g (CMP_LAYER_SRC_XY_y m), srcW := g (CMP_LAYER_SRC_WH_w m),
    srcH := g (CMP_LAYER_SRC_WH_h m), dstX := sgn 16 (g (CMP_LAYER_DST_XY_x m)), dstY := sgn 16 (g (CMP_LAYER_DST_XY_y m)),
    dstW := g (CMP_LAYER_DST_WH_w m), dstH := g (CMP_LAYER_DST_WH_h m), stride0 := g (CMP_LAYER_STRIDE_stride0 m),
    stride1 := g (CMP_LAYER_STRIDE_stride1 m), alpha := g (CMP_LAYER_ALPHA_global m),
    color := (g (CMP_LAYER_COLOR_r m), g (CMP_LAYER_COLOR_g m), g (CMP_LAYER_COLOR_b m)),
    output := g (CMP_SLOT_PLACE_output m), z := g (CMP_SLOT_PLACE_z m), clipX := g (CMP_SLOT_CLIP_XY_x m),
    clipY := g (CMP_SLOT_CLIP_XY_y m), clipW := g (CMP_SLOT_CLIP_WH_w m), clipH := g (CMP_SLOT_CLIP_WH_h m) }

/-- The output a slot is placed on, in force. -/
def placedOn (s : State) (m : Nat) : Nat := rd s (CMP_SLOT_PLACE_output m).inForce

/-- The slots placed on an output, in force. -/
def slotsOn (s : State) (n : Nat) : List Nat := idxWhere 64 (fun m => placedOn s m == n)

/-- A slot enabled in force. -/
def slotActive (s : State) (m : Nat) : Bool := rdB s (CMP_LAYER_CTRL_enable m).inForce

/-- A layer put among layers in increasing z. -/
def insertByZ (l : Layer) : List Layer → List Layer
  | [] => [l]
  | k :: t => if l.z < k.z then l :: k :: t else k :: insertByZ l t

/-- The layers active on an output, in increasing z (R149). -/
def activeLayers (s : State) (n : Nat) : List Layer :=
  ((slotsOn s n).filter (slotActive s)).foldl (fun ls m => insertByZ (layerOf s m) ls) []

/-! ## Rectangles -/

/-- A rectangle: left, top, right and bottom, the last two exclusive. -/
structure Rect where
  x0 : Int
  y0 : Int
  x1 : Int
  y1 : Int
  deriving DecidableEq, Repr

def Rect.inter (a b : Rect) : Rect := ⟨max a.x0 b.x0, max a.y0 b.y0, min a.x1 b.x1, min a.y1 b.y1⟩
def Rect.empty (r : Rect) : Bool := decide (r.x1 ≤ r.x0) || decide (r.y1 ≤ r.y0)
def Rect.area (r : Rect) : Nat := if r.empty then 0 else ((r.x1 - r.x0) * (r.y1 - r.y0)).toNat
def Rect.has (r : Rect) (x y : Int) : Bool := decide (r.x0 ≤ x) && decide (x < r.x1) && decide (r.y0 ≤ y) && decide (y < r.y1)
def Rect.covers (a b : Rect) : Bool := decide (a.x0 ≤ b.x0) && decide (a.y0 ≤ b.y0) && decide (b.x1 ≤ a.x1) && decide (b.y1 ≤ a.y1)

/-- The destination rectangle within the clip window. -/
def Layer.window (l : Layer) : Rect :=
  Rect.inter ⟨l.dstX, l.dstY, l.dstX + l.dstW, l.dstY + l.dstH⟩ ⟨l.clipX, l.clipY, l.clipX + l.clipW, l.clipY + l.clipH⟩

/-- The active area of an output. -/
def activeArea (s : State) (n : Nat) : Rect := ⟨0, 0, hActive s n, vActive s n⟩

/-- R149: where a layer contributes pixels. -/
def Layer.visible (l : Layer) (s : State) : Rect := l.window.inter (activeArea s l.output)

/-! ## Spans and ownership (R167, R293) -/


/-- The address ranges of a buffer's planes, each as first and last byte. -/
def spansOf (l : Layer) (buf0 buf1 : Nat) : List (Nat × Nat) :=
  match formatOf l.format with
  | none => []
  | some f =>
    if f.planes = 0 then []
    else if fmtPacked l.format then
      let j0 := l.srcY / 4
      let j1 := ceilDiv (l.srcY + l.srcH) 4
      [(buf0 + 4 * j0 * l.stride0, buf0 + 4 * j1 * l.stride0 - 1), (buf1 + 2 * j0 * l.stride1, buf1 + 2 * j1 * l.stride1 - 1)]
    else
      let span (a y rows stride bpp : Nat) : Nat × Nat :=
        (a + y * stride, a + (y + rows - 1) * stride + ceilDiv ((l.srcX + l.srcW) * bpp) 64 * 64 - 1)
      let p0 := span buf0 l.srcY l.srcH l.stride0 f.bpp0
      if f.planes = 2 then
        let y1 := if f.halfRows then ceilDiv l.srcY 2 else l.srcY
        let r1 := if f.halfRows then ceilDiv l.srcH 2 else l.srcH
        [p0, span buf1 y1 r1 l.stride1 f.bpp1]
      else if l.fastClear then
        [p0, (buf1 + l.srcY / 8 * l.stride1,
              buf1 + (ceilDiv (l.srcY + l.srcH) 8 - 1) * l.stride1 + ceilDiv (ceilDiv (l.srcX + l.srcW) 64) 64 * 64 - 1)]
      else [p0]

/-- The spans of an entry, its fence word among them. -/
def entrySpans (l : Layer) (e : Entry) : List (Nat × Nat) :=
  spansOf l e.buf0 e.buf1 ++ (if e.fence = 0 then [] else [(e.fence, e.fence + 7)])

/-- R167 on a page of memory: the polder's by the map, or admitted to it under the tidemark. -/
def pageHeld (s : State) (p a : Nat) : Bool :=
  if rdB s PLD_MODE_STAT_mode then
    (inOcm a || inDram s a) &&
      (let e := byteAt s (entryAddr s (mapPage a))
       bit e 7 && bit e 6 && ((!bit e 5 && bits e 4 0 == p) || (p == 0 && bit e 5)))
  else (inOcm a || inDram s a) && (tidemarkCheck s (p == 0) a).isNone

/-- R167 on one page of a layer's buffer. -/
def pageOwned (s : State) (p a : Nat) : Bool :=
  if inOutbound a then outboundOk s p a
  else if inOcm a && !((decide (10240 ≤ ocmPage a) && decide (ocmPage a < 12288)) || (p == 0 && decide (ocmPage a < 2048))) then false
  else pageHeld s p a

/-- R167 on a ring, a queue or samples, which lie in DRAM or K10 (R328, R335, R348). -/
def mediaOwned (s : State) (p a n : Nat) : Bool :=
  decide (n ≠ 0) && (List.range ((a + n - 1) / 4096 + 1 - a / 4096)).all (fun i =>
    let x := if i = 0 then a else (a / 4096 + i) * 4096
    ((inOcm x && decide (20480 ≤ ocmPage x) && decide (ocmPage x < 22528)) || inDram s x) && pageHeld s p x)

/-- A page that lies in a range whose ownership has been checked. -/
def checkedPage (done : List (Nat × Nat)) (page : Nat) : Bool :=
  done.any (fun r => decide (r.1 / 4096 ≤ page) && decide (page ≤ r.2 / 4096))

/-- R167 on a span: every page of it but those checked before. -/
def spanOwned (s : State) (p : Nat) (done : List (Nat × Nat)) (r : Nat × Nat) : Bool :=
  (List.range (r.2 / 4096 + 1 - r.1 / 4096)).all (fun i =>
    checkedPage done (r.1 / 4096 + i) || pageOwned s p (if i = 0 then r.1 else (r.1 / 4096 + i) * 4096))

/-- R167 on an entry under a configuration. -/
def entryOwned (s : State) (p : Nat) (l : Layer) (e : Entry) : Bool := (entrySpans l e).all (spanOwned s p e.checked)

/-! ## Demand (R168, R169) -/

def bursts (b : Nat) : Nat := ceilDiv b 64 + 1

/-- The widths in which a layer is fetched. -/
def stripeWidths (l : Layer) : List Nat :=
  if l.striped && l.srcH != l.dstH && decide (4096 < l.srcW) then
    (List.range (ceilDiv (l.srcW - 8) 4088)).map (fun i => min (4088 * i + 4096) l.srcW - 4088 * i)
  else [l.srcW]

/-- The fetch demand of an enabled slot, in bursts. -/
def fetchDemand (l : Layer) : Nat :=
  match formatOf l.format with
  | none => 0
  | some f =>
    if f.planes = 0 then 0
    else
      let plane (bpp rows : Nat) : Nat := ((stripeWidths l).map (fun w => bursts (w * bpp))).sum * rows
      plane f.bpp0 l.srcH
        + (if f.planes = 2 then plane f.bpp1 (if f.halfRows then ceilDiv l.srcH 2 else l.srcH) else 0)
        + (if l.fastClear then bursts (ceilDiv (ceilDiv l.srcW 8) 8) * ceilDiv l.srcH 8 else 0)
        + (if fmtPacked l.format then ceilDiv l.srcH 4 else 0)

/-- The sums of an output in force: fetch bursts and layer-pixels. -/
def demandOf (s : State) (n : Nat) : Nat × Nat :=
  let ls := activeLayers s n
  ((ls.map fetchDemand).sum, (ls.map (fun l => (l.visible s).area)).sum)

/-! ## The checks of Table CMP-4 -/

/-- A destination length a source length may be scaled to. -/
def ratioOk (src dst : Nat) : Bool := decide (ceilDiv src 4 ≤ dst) && decide (dst ≤ 16 * src)

/-- Check 1. -/
def layerFieldsOk (l : Layer) : Bool :=
  match formatOf l.format with
  | none => false
  | some f =>
    let one8k (v : Nat) : Bool := decide (1 ≤ v) && decide (v ≤ 8192)
    l.csc != 3 && l.alphaMode != 3 && one8k l.dstW && one8k l.dstH && (!l.fastClear || fmtRgb l.format) &&
    (f.planes == 0 ||
      (one8k l.srcW && one8k l.srcH && decide (l.srcX + l.srcW ≤ 8192) && decide (l.srcY + l.srcH ≤ 8192) &&
       (!f.evenX || (l.srcX % 2 == 0 && l.srcW % 2 == 0)) && (!f.evenY || (l.srcY % 2 == 0 && l.srcH % 2 == 0)) &&
       ratioOk l.srcW l.dstW && ratioOk l.srcH l.dstH && l.stride0 % 64 == 0 &&
       (l.stride1 % 64 == 0 || (f.planes == 1 && !l.fastClear)) &&
       (if fmtPacked l.format then
          decide (64 + ceilDiv ((l.srcX + l.srcW) * f.bpp0) 64 * 64 ≤ l.stride0) && decide (l.stride1 + 64 = l.stride0)
        else
          decide ((l.srcX + l.srcW) * f.bpp0 ≤ l.stride0) && (f.planes == 1 || decide ((l.srcX + l.srcW) * f.bpp1 ≤ l.stride1)) &&
          (!l.fastClear || decide (ceilDiv (ceilDiv (l.srcX + l.srcW) 8) 8 ≤ l.stride1)))))

/-- Check 2: the buffer in use and every pending entry. -/
def layerOwned (s : State) (l : Layer) : Bool :=
  ((slot s l.slot).inUse.toList ++ (slot s l.slot).pending).all (entryOwned s (slotOwner s l.slot) l)

/-- Check 3. -/
def lineBufferOk (l : Layer) : Bool :=
  formatOf l.format == formatOf fmtSolid || l.srcH == l.dstH || l.striped || decide (l.srcW ≤ if l.twoTaps then 8192 else 4096)

/-- Check 4. -/
def budgetOk (s : State) (n : Nat) : Bool :=
  decide ((demandOf s n).1 ≤ rd s (CMP_OUT_FETCH_BUDGET_bursts n).inForce) &&
    decide ((demandOf s n).2 ≤ rd s (CMP_OUT_PIX_BUDGET_pixels n).inForce)

/-- The first slot of a list at which a check fails. -/
def firstBad (ms : List Nat) (ok : Nat → Bool) : Option Nat := ms.find? (fun m => !ok m)

/-- R166: Table CMP-4 on a commit, given the state as it will stand with it applied: the status and the slot at fault. `ms` are the
slots of its snapshot that are enabled there. -/
def layerChecks (s : State) (n : Nat) (ms : List Nat) : Option (Nat × Option Nat) :=
  match firstBad ms (fun m => layerFieldsOk (layerOf s m)) with
  | some m => some (ST_BAD_ARG, some m)
  | none =>
    match firstBad ms (fun m => layerOwned s (layerOf s m)) with
    | some m => some (ST_BAD_ADDR, some m)
    | none =>
      match firstBad ms (fun m => lineBufferOk (layerOf s m)) with
      | some m => some (ST_LINEBUF_SHORT, some m)
      | none => if budgetOk s n then none else some (ST_BANDWIDTH, none)

end Sys2Proof.Machine
end

