-- ==== Sys2Proof/Machine/AudioProg.lean ====
section
/-! DEFINITION. Audio programs: the image and its checks (R320 to R324), and how a section runs for one sample (R321, R326, R327). -/
namespace Sys2Proof.Machine

/-! ## Numbers (R321) -/

/-- A number saturated to `w` signed bits. -/
def satI (w : Nat) (v : Int) : Int := max (-(2 ^ (w - 1) : Nat)) (min ((2 ^ (w - 1) : Nat) - 1) v)

def sat32 (v : Int) : Int := satI 32 v

/-- The accumulator's range. -/
def sat40 (v : Int) : Int := satI 40 v

/-- A product with a coefficient in Q4.28. -/
def mulk (v k : Int) : Int := (v * k + 2 ^ 27) / 2 ^ 28

/-- A value that ramps to another over 64 samples, at sample `i` (R327). -/
def ramp64 (old new : Int) (i : Nat) : Int := old + (new - old) * (i + 1 : Nat) / 64

/-! ## The image (R320) -/

/-- The fields of an operation word. -/
def opCode (w : Nat) : Nat := bits w 31 26
def opC (w : Nat) : Nat := bits w 25 14
def opA (w : Nat) : Nat := bits w 13 0

/-- Section `d` of an image: its offset and length; none where it is absent. -/
def imgSection (img : List Nat) (d : Nat) : Option (Nat × Nat) :=
  if img.getD (5 + 2 * d) 0 = 0 then none else some (img.getD (5 + 2 * d) 0, bits (img.getD (6 + 2 * d) 0) 15 0)

/-- The words of an image from an offset. -/
def imgWords (img : List Nat) (off n : Nat) : List Nat := (img.drop off).take n

/-- The first header word that breaks check 1 of R324, of an image of which `size` bytes can be read. -/
def headerFault (img : List Nat) (size : Nat) : Option Nat :=
  let w (i : Nat) : Nat := img.getD i 0
  let words := w 2 / 4
  let table (off n most each : Nat) : Bool := decide (n ≤ most) && (n == 0 || (decide (24 ≤ off) && decide (off + each * n ≤ words)))
  let section_ (d : Nat) : Bool := match imgSection img d with
    | some (off, n) => decide (24 ≤ off) && decide (1 ≤ n) && decide (off + n ≤ words)
    | none => true
  let checks : List (Nat × Bool) :=
    [(0, w 0 == 0x50445541), (1, w 1 == 1 + 65536 * 24), (2, w 2 % 4 == 0 && decide (96 ≤ w 2) && decide (w 2 ≤ size)),
     (3, w 3 == crc32c (wordsBytes (img.take 3 ++ 0 :: imgWords img 4 (words - 4)))), (4, decide (bits (w 4) 31 16 ≤ 16000)),
     (5, section_ 0), (7, section_ 1), (9, section_ 2), (14, table (w 14) (w 15) 4096 1), (16, table (w 16) (w 17) 4096 1),
     (18, table (w 18) (w 19) 64 1), (20, table (w 20) (w 21) (2 ^ 32) 3)]
  (checks.find? (fun c => !c.2)).map (·.1)

/-- The program that an image whose header holds gives. -/
def imgProg (img : List Nat) : AudProg :=
  let w (i : Nat) : Nat := img.getD i 0
  { crc := w 3, cost := bits (w 4) 15 0, priv := bits (w 4) 31 16,
    secs := (List.range 3).map (fun d => match imgSection img d with | some (off, n) => imgWords img off n | none => []),
    coefs := (imgWords img (w 14) (w 15)).map (sgn 32), taps := imgWords img (w 16) (w 17), dlys := imgWords img (w 18) (w 19),
    paths := imgWords img (w 20) (3 * w 21), x := [], lines := [], pos := 0 }

/-- Whether an operation breaks check 1 of R324; `last` marks the end of its section. -/
def opBad (g : AudProg) (w : Nat) (last : Bool) : Bool :=
  let c := opC w
  let a := opA w
  (last && opCode w != 0x3F) ||
  match opCode w with
  | 0x00 => c != 0 || a != 0
  | 0x01 | 0x04 | 0x05 | 0x0C => false
  | 0x02 | 0x03 => decide (g.coefs.length ≤ c)
  | 0x06 => bits c 11 1 != 0
  | 0x07 => decide (255 < c) || a != 0
  | 0x08 => decide (g.coefs.length ≤ c + 4) || decide (0x3FFF < a + 1)
  | 0x09 => c != 0 || decide (g.dlys.length ≤ a)
  | 0x0A => decide (g.dlys.length ≤ a) || decide (g.taps.length ≤ c)
  | 0x0B => decide (31 < c) || a != 0
  | 0x3F => c != 0 || a != 0 || !last
  | _ => true

/-- The offsets of the words beyond the header that break check 1 of R324. -/
def bodyFaults (img : List Nat) (g : AudProg) : List Nat :=
  let off := img.getD 18 0
  ((List.range g.dlys.length).filter (fun i => g.dlys.getD i 0 == 0 || decide (96000 < g.dlys.getD i 0))).map (off + ·) ++
  (List.range 3).flatMap (fun d => match imgSection img d with
    | some (o, n) => ((List.range n).filter (fun i => opBad g (img.getD (o + i) 0) (i + 1 == n))).map (o + ·)
    | none => [])

/-- The least of a list of offsets. -/
def firstOffset : List Nat → Option Nat
  | [] => none
  | o :: t => match firstOffset t with
    | some m => some (min o m)
    | none => some o

/-! ## Data addresses (R322) -/

/-- The data addresses an operation reads. -/
def opReads (w : Nat) : List Nat :=
  match opCode w with
  | 0x01 | 0x02 | 0x03 | 0x04 | 0x05 | 0x0C => [opA w]
  | 0x08 => [opA w, opA w + 1]
  | _ => []

/-- The data addresses an operation writes. -/
def opWrites (w : Nat) : List Nat :=
  match opCode w with
  | 0x06 => [opA w]
  | 0x08 => [opA w, opA w + 1]
  | _ => []

/-- The domain of an endpoint channel, as read or as written (Table AUD-2). -/
def chanDomain (s : State) (n : Nat) (write : Bool) : Nat :=
  if n < 128 then rd s (AUD_TDM_CFG_domain (n / 16)).inForce
  else if n < 192 then rd s AUD_AES67_CFG_domain.inForce
  else if n < 224 then (if write then rd s (AUD_BRG_CFG_src (n - 192)).inForce else rd s (AUD_BRG_CFG_dst (n - 192)).inForce)
  else 0

/-- R322 on an access of polder `p`'s section of domain `d`. -/
def dataOk (s : State) (p d priv : Nat) (write : Bool) (a : Nat) : Bool :=
  if a < 0x100 then decide (a < 232) && grantee s 4 a == p && chanDomain s a write == d
  else if a < 0x180 then rd s (AUD_RING_CFG_domain p ((a - 0x100) / 16)) == d
  else decide (a < 0x180 + priv)

/-- R322 on an operation. -/
def opOk (s : State) (p d priv w : Nat) : Bool := (opReads w).all (dataOk s p d priv false) && (opWrites w).all (dataOk s p d priv true)

/-- Whether a program references a data address. -/
def progUses (g : AudProg) (a : Nat) : Bool := g.secs.any (fun sec => sec.any (fun w => (opReads w ++ opWrites w).contains a))

/-- Check 2 of R324: the first word at which a rate or an access is wrong. -/
def domainFault (s : State) (p : Nat) (img : List Nat) (g : AudProg) : Option Nat :=
  firstOffset ((List.range 3).flatMap (fun d => match imgSection img d with
    | some (o, n) =>
      (if bits (img.getD (11 + d) 0) 17 0 = rd s (AUD_DOM_CTRL_rate d).inForce then [] else [11 + d]) ++
        ((List.range n).filter (fun i => !opOk s p d g.priv (img.getD (o + i) 0))).map (o + ·)
    | none => []))

/-! ## The taint check (R324) -/

/-- What is tainted: data addresses, and delay lines as 16,384 and up; and the accumulator. -/
def taintOp (ta : List Nat × Bool) (w : Nat) : List Nat × Bool :=
  let (t, acc) := ta
  let a := opA w
  let line := 16384 + a
  let add (n : Nat) (t : List Nat) : List Nat := if t.contains n then t else n :: t
  match opCode w with
  | 0x01 | 0x02 => (t, t.contains a)
  | 0x0A => (t, t.contains line)
  | 0x03 | 0x04 | 0x05 | 0x0C => (t, acc || t.contains a)
  | 0x08 => if acc || t.contains a || t.contains (a + 1) then (add (a + 1) (add a t), true) else (t, false)
  | 0x06 => (if acc then add a t else t, acc)
  | 0x09 => (if acc then add line t else t, acc)
  | _ => (t, acc)

/-- One pass over the sections. -/
def taintPass (g : AudProg) (t : List Nat) : List Nat := g.secs.foldl (fun t sec => (sec.foldl taintOp (t, false)).1) t

/-- Passes until nothing is added; each pass but the last adds one of the addresses that stores name. -/
def taintFix (g : AudProg) : Nat → List Nat → List Nat
  | 0, t => t
  | k + 1, t => let t1 := taintPass g t; if t1.length = t.length then t else taintFix g k t1

/-- What a program taints. -/
def tainted (g : AudProg) : List Nat :=
  let bridges := (List.range 32).map (0xC0 + ·)
  taintFix g (2 * (g.secs.map List.length).sum + 1) (bridges.filter (fun a => g.secs.any (fun sec => sec.any (fun w => (opReads w).contains a))))

/-- Check 3 of R324: a value that derives from a bridge output reaches a haptic bus. -/
def taintFails (g : AudProg) : Bool := (tainted g).any (fun a => decide (0xE0 ≤ a) && decide (a ≤ 0xE7))

/-! ## Cost and memory (R323, R324) -/

/-- The cost of an operation (Table AUD-4). -/
def opCost (w : Nat) : Nat := if opCode w = 0x08 then 5 else 1

/-- R323. -/
def imgCost (img : List Nat) (g : AudProg) : Nat :=
  ((List.range 3).map (fun d => ceilDiv (((g.secs.getD d []).map opCost).sum * bits (img.getD (11 + d) 0) 17 0 * (if d = 0 then 1000 else 1001)) 48000000)).sum

/-- The words of engine memory that a program takes. -/
def progWords (g : AudProg) : Nat := g.priv + g.dlys.sum

/-! ## Running a section (R321) -/

/-- What one sample of a section sees: what endpoints and rings give; the gains of this sample; and during a crossfade its sample, the
base-2 logarithm of its length, and what the old program stored (R326). -/
structure AudEnv where
  input : Nat → Int
  gain : Nat → Int
  mix : Option (Nat × Nat × Tab Int)

/-- A section as it runs: the accumulator, the program with its private words and lines, what this sample has stored, and the meters. -/
structure AudRun where
  acc : Int
  prog : AudProg
  stores : Tab Int
  meters : Tab Nat

/-- The data word at an address. A haptic bus gives what this sample stored to it (Table AUD-2). -/
def AudRun.read (r : AudRun) (e : AudEnv) (a : Nat) : Int :=
  if 0x180 ≤ a then Tab.get 0 r.prog.x a
  else if 0xE0 ≤ a ∧ a < 0xE8 then Tab.get 0 r.stores a
  else e.input a

/-- A data word stored. -/
def AudRun.write (r : AudRun) (a : Nat) (v : Int) : AudRun :=
  { r with stores := r.stores.put a v, prog := if 0x180 ≤ a then { r.prog with x := r.prog.x.put a v } else r.prog }

/-- The accumulator loaded, saturated. -/
def AudRun.load (r : AudRun) (v : Int) : AudRun := { r with acc := sat40 v }

/-- The value that ST stores: crossfaded with what the old program stored where the operation is marked (R326). -/
def storeValue (e : AudEnv) (a : Nat) (xf : Bool) (v : Int) : Int :=
  match e.mix with
  | some (i, lg, olds) => if xf then sat32 (Tab.get 0 olds a + (v - Tab.get 0 olds a) * (i + 1 : Nat) / 2 ^ lg) else v
  | none => v

/-- One biquad section. -/
def AudRun.biquad (r : AudRun) (e : AudEnv) (a c : Nat) : AudRun :=
  let k (i : Nat) : Int := r.prog.coefs.getD (c + i) 0
  let x := sat32 r.acc
  let y := mulk x (k 0) + r.read e a
  let s1 := sat32 (mulk x (k 1) - mulk (sat32 y) (k 3) + r.read e (a + 1))
  let s2 := sat32 (mulk x (k 2) - mulk (sat32 y) (k 4))
  ((r.write a s1).write (a + 1) s2).load y

/-- The place in line `l` at which a sample `back` samples old lies. -/
def linePlace (g : AudProg) (l back : Nat) : Nat := (((g.pos : Int) - back) % (max 1 (g.dlys.getD l 1) : Nat)).toNat

/-- One operation (Table AUD-4). -/
def AudRun.op (e : AudEnv) (r : AudRun) (w : Nat) : AudRun :=
  let a := opA w
  let c := opC w
  let k := r.prog.coefs.getD c 0
  match opCode w with
  | 0x01 => r.load (r.read e a)
  | 0x02 => r.load (mulk (r.read e a) k)
  | 0x03 => r.load (r.acc + mulk (r.read e a) k)
  | 0x04 => r.load (r.acc + r.read e a)
  | 0x05 => r.load (r.acc - r.read e a)
  | 0x06 => r.write a (storeValue e a (bit c 0) (sat32 r.acc))
  | 0x07 => r.load (mulk r.acc (e.gain c))
  | 0x08 => r.biquad e a c
  | 0x09 =>
    let line := Tab.get [] r.prog.lines a
    { r with prog := { r.prog with lines := r.prog.lines.put a (Tab.put line (linePlace r.prog a 0) (sat32 r.acc)) } }
  | 0x0A => r.load (Tab.get 0 (Tab.get [] r.prog.lines a) (linePlace r.prog a (r.prog.taps.getD c 0)))
  | 0x0B => { r with meters := r.meters.put c (max (Tab.get 0 r.meters c) (min (sat32 r.acc).natAbs (2 ^ 31 - 1))) }
  | 0x0C => r.load ((sat32 r.acc * r.read e a + 2 ^ 30) / 2 ^ 31)
  | 0x3F => { r with prog := { r.prog with pos := r.prog.pos + 1 } }
  | _ => r

/-- A section run for one sample, from a cleared accumulator. -/
def runSection (e : AudEnv) (g : AudProg) (meters : Tab Nat) (sec : List Nat) : AudRun :=
  sec.foldl (AudRun.op e) { acc := 0, prog := g, stores := [], meters := meters }

end Sys2Proof.Machine
end

