-- ==== Sys2Proof/Machine/Access.lean ====
section
/-! DEFINITION. Accesses to the register blocks and the doorbell pages: which block an address lies in and where its violations are
recorded (Tables MAP-2 and POL-4, R456), and which accesses are turned away: by width (R7), by a domain that is off (R22), by
permission (R8, R24, R27, R46, R53, R96, R109, R110) or as a hole (R452). -/
namespace Sys2Proof.Machine

/-- R456: a register access that is turned away, with its kind (1 width or alignment, 2 not permitted, 3 domain off, 4 reserved
encoding). -/
def recordViolation (src variant : Nat) (c : Carried) (kind addr value : Nat) (s : State) : State :=
  record src variant (some c.polder) ([c.master + 64 * b2n c.secure + 256 * kind] ++ twoWords addr ++ [value]) s

/-- Where a block records the accesses it turns away: source, variant, and whether the source is a DOORBELL_VIOLATION. -/
structure BlockEv where
  src : Nat
  variant : Nat
  doorbell : Bool
  deriving DecidableEq, Repr

/-- An address in the register blocks. -/
def isReg (a : Nat) : Bool := decide (0x20000000 ≤ a) && decide (a < 0x21000000)

/-- An address in the doorbell pages. -/
def isPage (a : Nat) : Bool := decide (0x30000000 ≤ a) && decide (a < 0x30200000)

/-- The polder of a doorbell page. -/
def pageOf (a : Nat) : Nat := (a - 0x30000000) / 0x10000

/-- The offset in a doorbell page. -/
def pageOff (a : Nat) : Nat := a % 0x10000

/-- Table MAP-2: where the block of a register address records. The PLD, the debug block and addresses of no block record in the CRP
range and the PCIe controller as PCI_BAR_VIOLATION, the sources that fit of those that exist (notes/assumptions/15.md). -/
def regEv (a : Nat) : BlockEv :=
  if a < 0x20010000 then ⟨Src.CRP_REG_VIOLATION, 0, false⟩
  else if a < 0x20020000 then ⟨Src.MBX_ACCESS_VIOLATION, 0, false⟩
  else if a < 0x20030000 then ⟨Src.CRP_REG_VIOLATION, 0, false⟩
  else if a < 0x20040000 then ⟨Src.EVR_REG_VIOLATION, 0, false⟩
  else if a < 0x20050000 then ⟨Src.CVU_REG_VIOLATION, 0, false⟩
  else if a < 0x20060000 then ⟨Src.VLT_REG_VIOLATION, 0, false⟩
  else if 0x20100000 ≤ a ∧ a < 0x20140000 then ⟨Src.DMC_REG_VIOLATION, 0, false⟩
  else if 0x20140000 ≤ a ∧ a < 0x20150000 then ⟨Src.OCM_REG_VIOLATION, 0, false⟩
  else if 0x20200000 ≤ a ∧ a < 0x20240000 then ⟨Src.CMP_REG_VIOLATION, 0, false⟩
  else if 0x20240000 ≤ a ∧ a < 0x20250000 then ⟨Src.DKW_REG_VIOLATION, 0, false⟩
  else if 0x20280000 ≤ a ∧ a < 0x20300000 then ⟨Src.SCN_OUT ((a - 0x20280000) / 0x10000), 6, false⟩
  else if 0x20300000 ≤ a ∧ a < 0x20400000 then ⟨Src.GFX_REG_VIOLATION, 0, false⟩
  else if 0x20400000 ≤ a ∧ a < 0x20500000 then ⟨Src.VCD_REG_VIOLATION, 0, false⟩
  else if 0x20500000 ≤ a ∧ a < 0x20540000 then ⟨Src.CAP_REG_VIOLATION, 0, false⟩
  else if 0x20600000 ≤ a ∧ a < 0x20640000 then ⟨Src.AUD_REG_VIOLATION, 0, false⟩
  else if 0x20640000 ≤ a ∧ a < 0x20650000 then ⟨Src.HAP_REG_VIOLATION, 0, false⟩
  else if 0x20680000 ≤ a ∧ a < 0x206A0000 then ⟨Src.TCH_REG_VIOLATION, 0, false⟩
  else if 0x20700000 ≤ a ∧ a < 0x20800000 then ⟨Src.ONL_REG_VIOLATION, 0, false⟩
  else if 0x20800000 ≤ a ∧ a < 0x20810000 then ⟨Src.PCI_BAR_VIOLATION, 0, false⟩
  else if 0x20900000 ≤ a ∧ a < 0x20910000 then ⟨Src.GIO_REG_VIOLATION, 0, false⟩
  else ⟨Src.CRP_REG_VIOLATION, 0, false⟩

/-- The register blocks of Table MAP-2; the rest of the register range is holes (R452). -/
def inBlock (a : Nat) : Bool :=
  decide (a < 0x20060000) || (decide (0x20100000 ≤ a) && decide (a < 0x20150000)) ||
  (decide (0x20200000 ≤ a) && decide (a < 0x20250000)) || (decide (0x20280000 ≤ a) && decide (a < 0x20540000)) ||
  (decide (0x20600000 ≤ a) && decide (a < 0x20650000)) || (decide (0x20680000 ≤ a) && decide (a < 0x206A0000)) ||
  (decide (0x20700000 ≤ a) && decide (a < 0x20810000)) || (decide (0x20900000 ≤ a) && decide (a < 0x20910000)) ||
  (decide (0x20A00000 ≤ a) && decide (a < 0x20A10000))

/-- Table POL-4: where the block of a doorbell sub-page records; none for the reserved sub-pages. -/
def pageEv (a : Nat) : Option BlockEv :=
  match pageOff a / 0x1000 with
  | 0 => some ⟨Src.CMP_DOORBELL_VIOLATION, 0, true⟩
  | 1 => some ⟨Src.GFX_DOORBELL_VIOLATION, 0, true⟩
  | 2 => some ⟨Src.VCD_DOORBELL_VIOLATION, 0, true⟩
  | 3 => some ⟨Src.AUD_DOORBELL_VIOLATION, 0, true⟩
  | 4 => some ⟨Src.HAP_DOORBELL_VIOLATION, 0, true⟩
  | 5 => some ⟨Src.TCH_REG_VIOLATION, 0, false⟩
  | 6 => some ⟨Src.CRP_REG_VIOLATION, 0, false⟩
  | 7 => some ⟨Src.CRP_REG_VIOLATION, 0, false⟩
  | 8 => some ⟨Src.MBX_ACCESS_VIOLATION, 0, false⟩
  | _ => none

/-- A turned-away access recorded by a block: a DOORBELL_VIOLATION has kind 2 and carries the polder tag in place of the value (R456). -/
def BlockEv.violate (e : BlockEv) (c : Carried) (kind addr value : Nat) (s : State) : State :=
  if e.doorbell then recordViolation e.src e.variant c 2 addr c.polder s else recordViolation e.src e.variant c kind addr value s

/-- A violation recorded by the block of an address. -/
def violateAt (c : Carried) (kind addr value : Nat) (s : State) : State :=
  if isPage addr then (match pageEv addr with | some e => e.violate c kind addr value s | none => s)
  else (regEv addr).violate c kind addr value s

/-! ## Permissions -/

/-- A secure-world core. -/
def secureCore (c : Carried) : Bool := isCoreMaster c.master && c.secure

/-- R27: the channel admits a party's access. -/
def partyAdmitted (s : State) (n : Nat) (c : Carried) : Bool :=
  chanOn s n && (!rdB s (MBX_CH_CFG_party_secure n) || c.secure) &&
    (rd s (MBX_CH_CFG_party_polder n) == c.polder || (decide (2 ≤ n) && decide (n < 60) && bit (rd s (MBX_PAIR_SHARE_polders (n / 2))) c.polder)) &&
    (rd s (MBX_CH_CFG_party_master n) == 0 || rd s (MBX_CH_CFG_party_master n) == c.master)

/-- R46: who may push to a channel: the party on channel 2k, Tujan on channel 2k + 1. -/
def mayPush (s : State) (n : Nat) (c : Carried) : Bool := if n % 2 = 0 then partyAdmitted s n c else c.master == 9

/-- R46: who may read a channel's window and pop it: Tujan on channel 2k, the party on channel 2k + 1. -/
def mayPop (s : State) (n : Nat) (c : Carried) : Bool := if n % 2 = 1 then partyAdmitted s n c else c.master == 9

/-- R96: an access is admitted to polder `p`'s doorbell page. -/
def pageAdmits (p : Nat) (c : Carried) : Bool := c.polder == p && (p != 0 || c.secure)

/-- The MBX address that an address reaches: itself, or through a polder's mailbox alias the one of its pair (R99); `none` while
the polder has no pair, or elsewhere. -/
def mbxAddr (s : State) (addr : Nat) : Option Nat :=
  if 0x20010000 ≤ addr ∧ addr < 0x20020000 then some addr
  else if isPage addr = true ∧ 0x8000 ≤ pageOff addr ∧ pageOff addr < 0x8200 then
    (pairOf s (pageOf addr)).map (fun k => 0x20010000 + 0x200 * k + (pageOff addr - 0x8000))
  else none

/-- The channel whose register at offset `off` of its block an address reaches. -/
def chanRegAt (s : State) (addr off : Nat) : Option Nat :=
  match mbxAddr s addr with
  | some m => if m < 0x20014000 ∧ m % 0x100 = off then some ((m - 0x20010000) / 0x100) else none
  | none => none

/-- R46, R27: whose write an MBX register accepts. Writes of read-only registers and of the fields that R46 protects bit by bit are
discarded without a record (R8). -/
def mbxWriter (s : State) (m : Nat) (c : Carried) : Bool :=
  let n := (m - 0x20010000) / 0x100
  if m < 0x20014000 then
    if m % 0x100 < 0x44 then mayPush s n c
    else if m % 0x100 = 0x48 then c.master == 9
    else if m % 0x100 = 0xC0 then mayPop s n c
    else true
  else if 0x20014200 ≤ m ∧ m < 0x20014280 then c.master == 9
  else true

/-- Whose write a PLD register accepts (R86 and the heading of Table PLD-5). -/
def pldWriter (s : State) (a : Nat) (c : Carried) : Bool :=
  let off := a - 0x20020000
  if 0x84 ≤ off ∧ off < 0x100 then c.master == 9
  else if 0x100 ≤ off ∧ off < 0x300 ∧ off % 0x10 < 8 then
    c.master == 9 || secureCore c ||
      (isCoreMaster c.master && (let h := hart s (c.master - 1); !h.virt && h.priv == 1 && bit h.mpolderAllow ((off - 0x100) / 0x10)))
  else c.master == 9 || secureCore c

/-- Whose write a VLT register accepts (heading of Table EVR-6): Tujan's, and secure-world cores' of VLT_METER_CTRL, VLT_METER_SRC,
VLT_CNT_INC and the VLT_EXT registers, which decide in turn on the counter or slot named. -/
def vltWriter (a : Nat) (c : Carried) : Bool :=
  let off := a - 0x20050000
  c.master == 9 || (secureCore c &&
    (decide (0x20 ≤ off ∧ off < 0x30) || off == 0xA0 || decide (0x300 ≤ off ∧ off < 0x324)))

/-- Whose write a DKW register accepts (heading of Table DKW-10): Tujan's and secure-world cores', but the key, the image table and
the regions are written by polder 0's secure world only (R213, R214, R224). -/
def dkwWriter (a : Nat) (c : Carried) : Bool :=
  let off := a - 0x20240000
  secureCore c || (c.master == 9 && !(decide (off < 0x24) || decide (0x400 ≤ off ∧ off < 0x500) || decide (0x4000 ≤ off)))

/-- The unit of R446 that a general I/O register belongs to; the GPIO banks hold four units each and decide bit by bit. -/
def gioUnit (a : Nat) : Option Nat :=
  let off := a - 0x20900000
  if off < 0x800 then some (off / 0x100)
  else if 0x1000 ≤ off ∧ off < 0x1300 then some (8 + (off - 0x1000) / 0x100)
  else if 0x2000 ≤ off ∧ off < 0x2400 then some (11 + (off - 0x2000) / 0x100)
  else none

/-- R446: an access is admitted to a unit. -/
def gioAdmits (s : State) (k : Nat) (c : Carried) : Bool :=
  c.master == 9 || (rd s (GIO_OWNER_polder k) == c.polder && (c.polder != 0 || c.secure))

/-- R439, R446: whose access a general I/O address admits. I2C controller 3 is Tujan's alone; the bits of the GPIO banks have owners of their
own. -/
def gioMay (s : State) (a : Nat) (c : Carried) : Bool :=
  if 0x20901300 ≤ a ∧ a < 0x20901400 then c.master == 9
  else match gioUnit a with | some k => gioAdmits s k c | none => true

/-- Whose write a register accepts: Tujan's (R24, R53), except where the block's chapter names another writer. -/
def regWriter (s : State) (a : Nat) (c : Carried) : Bool :=
  if a = 0x20000200 then true
  else if a < 0x20010000 then c.master == 9
  else if a < 0x20020000 then mbxWriter s a c
  else if a < 0x20030000 then pldWriter s a c
  else if 0x20040000 ≤ a ∧ a < 0x20050000 then
    c.master == 9 || (secureCore c && grantee s 7 ((a - 0x20040000) / 0x100) == 0)
  else if 0x20050000 ≤ a ∧ a < 0x20060000 then vltWriter a c
  else if 0x20240000 ≤ a ∧ a < 0x20250000 then dkwWriter a c
  else if 0x20900000 ≤ a ∧ a < 0x20910000 then gioMay s a c
  else if 0x20A00000 ≤ a ∧ a < 0x20A10000 then secureCore c
  else c.master == 9

/-- Whose read a register answers (R46, R109; headings of the VLT registers and R446); a read by another returns 0. -/
def regReader (s : State) (a : Nat) (c : Carried) : Bool :=
  if 0x20010000 ≤ a ∧ a < 0x20014000 ∧ 0x80 ≤ a % 0x100 ∧ a % 0x100 < 0xC0 then mayPop s ((a - 0x20010000) / 0x100) c
  else if 0x20050000 ≤ a ∧ a < 0x20060000 then c.master == 9 || secureCore c
  else if 0x20900000 ≤ a ∧ a < 0x20910000 then gioMay s a c
  else true

/-! ## Accesses turned away -/

/-- A link or session that carries a master's accesses is down, so that no access of it arrives (R113, R379). -/
def masterGone (s : State) (c : Carried) : Bool := c.master == 10 && !s.pci.linkUp

/-- R110: an access through BAR2 to a page that BAR2 does not admit. -/
def bar2Denied (s : State) (a : Access) (addr : Nat) : Bool :=
  a.route == Route.bar2 && (pageOf addr == 0 || polState s (pageOf addr) == 0 || polLocation s (pageOf addr) != 3)

/-- R109, Table PCI-1: an address that a base address register does not reach as a register: the debug block, the MSI-X table and the
pending-bit array through BAR0; anything outside the register blocks through BAR0 or outside the pages through BAR2. -/
def barDiscards (a : Access) (addr : Nat) : Bool :=
  (a.route == Route.bar0 && (!isReg addr || decide (0x20A00000 ≤ addr ∧ addr < 0x20A10000) || decide (0x20F00000 ≤ addr))) ||
  (a.route == Route.bar2 && !isPage addr)

/-- R419: in PCIe boot, BAR0 takes no write but that of CRP_HOST_BOOT before Tujan reports ready. -/
def bootDiscards (s : State) (a : Access) : Bool :=
  a.route == Route.bar0 && rd s CRP_STATUS_boot_src == 3 && !rdB s CRP_STATUS_tujan_ready

/-- A write that a block or page does not take: `some` state after what is recorded of it, `none` when it is admitted. -/
def turnedAway (a : Access) (addr size v : Nat) (s : State) : Option State :=
  let c := carried s a addr
  if masterGone s c || barDiscards a addr || bootDiscards s a then some s
  else if isPage addr then
    if bar2Denied s a addr then some (recordViolation Src.PCI_BAR_VIOLATION 0 c 2 addr v s)
    else if !pageAdmits (pageOf addr) c then some (violateAt c 2 addr v s)
    else if !blockUp s addr then some (recordViolation Src.CRP_REG_VIOLATION 0 c 3 addr v s)
    else if size ≠ 4 ∨ addr % 4 ≠ 0 then some (violateAt c 1 addr v s)
    else match mbxAddr s addr with
      | some m => if mbxWriter s m c then none else some (violateAt c 2 addr v s)
      | none => none
  else if isReg addr then
    if !inBlock addr then some (violateAt c 1 addr v s)
    else if !blockUp s addr then some (recordViolation Src.CRP_REG_VIOLATION 0 c 3 addr v s)
    else if size ≠ 4 ∨ addr % 4 ≠ 0 then some (violateAt c 1 addr v s)
    else if !regWriter s addr c then some (violateAt c 2 addr v s)
    else none
  else some s

/-- A read that a block or page does not answer: it returns 0, with `some` state after what is recorded of it; `none` when it is
admitted (R7, R22, R46, R96, R109, R110, R452). -/
def readTurned (a : Access) (addr size : Nat) (s : State) : Option State :=
  let c := carried s a addr
  if masterGone s c || barDiscards a addr then some s
  else if isPage addr then
    if bar2Denied s a addr then some (recordViolation Src.PCI_BAR_VIOLATION 0 c 2 addr 0 s)
    else if !(pageAdmits (pageOf addr) c || c.master == 9 || secureCore c) then some s
    else if !blockUp s addr then some (recordViolation Src.CRP_REG_VIOLATION 0 c 3 addr 0 s)
    else if size ≠ 4 ∨ addr % 4 ≠ 0 then some (violateAt c 1 addr 0 s)
    else match mbxAddr s addr with
      | some m => if regReader s m c then none else some (violateAt c 2 addr 0 s)
      | none => none
  else if isReg addr then
    if !inBlock addr then some (violateAt c 1 addr 0 s)
    else if !blockUp s addr then some (recordViolation Src.CRP_REG_VIOLATION 0 c 3 addr 0 s)
    else if size ≠ 4 ∨ addr % 4 ≠ 0 then some (violateAt c 1 addr 0 s)
    else if !regReader s addr c then some (if addr < 0x20020000 then violateAt c 2 addr 0 s else s)
    else none
  else some s

/-- A 32-bit read of a register that has a row of its own: `eff` answers what it returns. When the address is not that register, no such
step happens and nothing changes. -/
def regRead (a : Access) (addr : Nat) (hit : Bool) (eff : State → Nat × State) (s : State) : Out :=
  if !hit then .next s
  else match readTurned a addr 4 s with
    | some s1 => done { s1 with busReply := 0 }
    | none => (match eff s with | (v, s1) => done { s1 with busReply := v })

/-- A 32-bit write to a register that has a row of its own. When the address is not that register, no such step happens and nothing
changes. -/
def regWrite (a : Access) (addr v : Nat) (hit : Bool) (eff : Carried → State → State) (s : State) : Out :=
  if !hit then .next s
  else match turnedAway a addr 4 v s with
    | some s1 => done s1
    | none => done (eff (carried s a addr) s)

/-- The key of a master's held word of a register (R11, R12). -/
def wordKey (master addr : Nat) : Nat := master * 2 ^ 40 + addr

/-- R12: the low word that a master's write of a high word joins: the one it holds, or the register's own. -/
def lowWord (s : State) (master addrLow current : Nat) : Nat :=
  match Tab.get none s.wrHold (wordKey master addrLow) with
  | some v => v
  | none => current % 4294967296

/-- R12: a low word held for a master; or forgotten once the high word has been written. -/
def holdWord (master addrLow : Nat) (v : Option Nat) (s : State) : State :=
  { s with wrHold := s.wrHold.put (wordKey master addrLow) v }

end Sys2Proof.Machine
end

