-- ==== Sys2Proof/Machine/Mailbox.lean ====
section
/-! DEFINITION. The mailbox hardware's steps: push, pop, locks, cross-wait, and Tujan's draining of held messages and taking of
acknowledgements (spec/02_warden_and_mailboxes.md, R27 to R45). -/
namespace Sys2Proof.Machine

/-- The message that a channel's staging window holds (R47). -/
def staged (s : State) (n : Nat) : Msg := (List.range 16).map (fun w => rd s (MBX_CH_TX_data n w))

/-- R33: a push by an admitted sender. -/
def push (n : Nat) (c : Carried) (s : State) : State :=
  if (chan s n).q.length < 8 then deliver n c.master c.polder c.secure true (staged s n) s
  else s |> wr (MBX_CH_STAT_tx_overflow n) 1 |> record0 Src.MBX_TX_OVERFLOW (chanPolder s n) [n, c.master]

/-- MBX_PUSH (R27, R28, R33, R46, R47, R99). -/
def execMbxPush (a : Access) (addr : BitVec 40) (v : BitVec 32) (s : State) : Out :=
  regWrite a addr.toNat v.toNat (chanRegAt s addr.toNat 0x40).isSome (fun c s =>
    match chanRegAt s addr.toNat 0x40 with
    | some n => if bit v.toNat 0 then push n c s else s
    | none => s) s

/-- MBX_POP (R27, R46, R99). -/
def execMbxPop (a : Access) (addr : BitVec 40) (v : BitVec 32) (s : State) : Out :=
  regWrite a addr.toNat v.toNat (chanRegAt s addr.toNat 0xC0).isSome (fun _ s =>
    match chanRegAt s addr.toNat 0xC0 with
    | some n => if bit v.toNat 0 then dropHead n s else s
    | none => s) s

/-- The round-robin pointer of a lock (R43); 1 after reset. -/
def lockPointer (s : State) (n : Nat) : Nat := Tab.get 1 s.lockPtr n

/-- R43: the reader whose ID is the first at or after the pointer, counting upward and wrapping from 63 to 1. -/
def lockWinner (ptr : Nat) (readers : List Nat) : Option Nat :=
  ((List.range 63).map (fun i => (ptr - 1 + i) % 63 + 1)).find? (fun m => readers.contains m)

/-- R43: the pointer after a grant. -/
def nextPointer (winner : Nat) : Nat := winner % 63 + 1

/-- What a read of a lock returns to master `m` once `owner` holds it (R41). -/
def lockReply (owner m : Nat) : Nat := if owner = m then 0 else owner

/-- MBX_LOCK_ACQUIRE (R41, R43): the reads of one lock that fall in one cycle. `busReply` takes what the first reader listed gets. -/
def execMbxLockAcquire (n : Fin 32) (readers : List (Fin 64)) (s : State) : Out :=
  let ids := readers.map (fun m => m.val)
  let owner := rd s (MBX_LOCK_OWNER_owner n)
  if owner ≠ 0 then .next { s with busReply := lockReply owner (ids.headD 0) }
  else match lockWinner (lockPointer s n) ids with
    | some w => .next { wr (MBX_LOCK_OWNER_owner n) w s with lockPtr := s.lockPtr.put n (nextPointer w), busReply := lockReply w (ids.headD 0) }
    | none => .next s

/-- MBX_LOCK_RELEASE (R42). -/
def execMbxLockRelease (master : Fin 64) (n : Fin 32) (v : BitVec 32) (s : State) : Out :=
  if master.val ≠ 0 ∧ rd s (MBX_LOCK_OWNER_owner n) = master.val ∧ v.toNat = master.val then
    .next (wr (MBX_LOCK_OWNER_owner n) 0 s)
  else done (record0 Src.MBX_LOCK_VIOLATION none [master, v.toNat, n] s)

/-- R45: every lock a master owns is freed and recorded. -/
def freeLocks (master : Nat) (s : State) : State :=
  (idxWhere 32 (fun n => rd s (MBX_LOCK_OWNER_owner n) == master)).foldl
    (fun s n => s |> wr (MBX_LOCK_OWNER_owner n) 0 |> record0 Src.MBX_LOCK_VIOLATION none [0, 0, n]) s

/-- R45 for each master of a list. -/
def freeLocksOf (ms : List Nat) (s : State) : State := ms.foldl (fun s m => freeLocks m s) s

/-- When both channels of a pair have held an unacknowledged wait_ack message for 10 ms (R38). -/
def crosswaitAt (s : State) (k : Nat) : Option (Nat × Nat × Nat) :=
  match (chan s (2 * k)).unacked, (chan s (2 * k + 1)).unacked with
  | u :: _, v :: _ => some (max u.time v.time + 10000000, u.seq, v.seq)
  | _, _ => none

/-- MBX_CROSSWAIT (R38). -/
def execMbxCrosswait (k : Fin 32) (s : State) : Out :=
  match crosswaitAt s k with
  | some (t, q0, q1) =>
    if bit (rd s MBX_CROSSWAIT_STAT_pair) k then .next s
    else
      let s1 := s |> advanceTo t |> orBits MBX_CROSSWAIT_STAT_pair (2 ^ k.val)
        |> record0 Src.MBX_CROSSWAIT (chanPolder s (2 * k)) [k, q0, q1]
      done (if k.val < 30 then raiseLines (pairPolders s k) 0 s1 else if k.val = 30 then sendMsix 0 s1 else s1)
  | none => .next s

/-- R35: the held messages of a pair delivered in order while its receive channel has room. -/
def drainHeld (k : Nat) : List Held → State → State
  | [], s => setHeld k [] s
  | h :: t, s =>
    if (chan s (2 * k + 1)).q.length < 8 then drainHeld k t (deliver (2 * k + 1) 9 0 true true h.msg s)
    else setHeld k (h :: t) s

/-- TUJAN_HOLD_DRAIN (R35). -/
def execTujanHoldDrain (k : Fin 32) (s : State) : Out := done (drainHeld k (heldFor s k) s)

/-- R36: the wait_ack message of Tujan on a pair that a reply or ack message names. -/
def ackTarget (s : State) (k : Nat) (m : Msg) : Option Unacked :=
  if Msg.isReply m || Msg.isAck m then (chan s (2 * k + 1)).unacked.find? (fun u => u.seq == Msg.ackSeq m) else none

/-- R36: an acknowledgement taken. -/
def clearUnacked (n seq : Nat) (s : State) : State :=
  setChan n { chan s n with unacked := (chan s n).unacked.filter (fun u => u.seq != seq) } s

/-- PARTY_ACK (R36): a reply, ack or notify message of a party taken and removed; an acknowledgement of the preparing notification of
a power transition is QUIET_ACK's. -/
def execPartyAck (k : Fin 32) (s : State) : Out :=
  match rdB s CRP_STATUS_tujan_ready, (chan s (2 * k)).q.head? with
  | true, some m =>
    if isRequest m || badForm m then .next s
    else match ackTarget s k m with
      | some u => if u.opcode = Op.PWR_STATE_CHANGED then .next s else .next (clearUnacked (2 * k + 1) u.seq (dropHead (2 * k) s))
      | none => .next (dropHead (2 * k) s)
  | _, _ => .next s

/-- UNDEFINED_OPCODE (R57): a request whose opcode is no command's. -/
def execUndefinedOpcode (k : Fin 32) (s : State) : Out :=
  match takeable s k with
  | some m =>
    if Msg.opcode m ∈ commandOpcodes then .next s
    else if badForm m then done (reply (Req.job ⟨k, m⟩) ST_BAD_ARG [] (dropHead (2 * k) s))
    else if isRequest m then done (reply (Req.job ⟨k, m⟩) ST_UNSUPPORTED [] (dropHead (2 * k) s))
    else .next s
  | none => .next s

/-- R27: a channel's messages and its pair's unacknowledged state discarded, with the messages Tujan holds for it (R35). -/
def discardPair (k : Nat) (s : State) : State :=
  s |> setChan (2 * k) { chan s (2 * k) with q := [], unacked := [] }
    |> setChan (2 * k + 1) { chan s (2 * k + 1) with q := [], unacked := [] } |> setHeld k []

/-- R27: a pair disabled. -/
def disablePair (k : Nat) (s : State) : State :=
  s |> wr (MBX_CH_CFG_enable (2 * k)) 0 |> wr (MBX_CH_CFG_enable (2 * k + 1)) 0 |> discardPair k

/-- R95: a pair assigned with share = 0. -/
def assignPair (k p master : Nat) (s : State) : State :=
  [2 * k, 2 * k + 1].foldl (fun s n => s |> wr (MBX_CH_CFG_party_polder n) p |> wr (MBX_CH_CFG_party_master n) master
    |> wr (MBX_CH_CFG_party_secure n) 0 |> wr (MBX_CH_CFG_enable n) 1) (discardPair k s) |> wr (MBX_PAIR_SHARE_polders k) 0

/-- MBX_SET_RX (Table MBX-12): the fields of channel 2k + 1 of the sender's pair. -/
def setRx (r : Req) (s : State) : Answer :=
  did (s |> wr (MBX_CH_CFG_rx_irq_en (2 * r.pair + 1)) (bits (r.w 2) 0 0)
    |> wr (MBX_CH_CFG_wake_domain (2 * r.pair + 1)) (bits (r.w 2) 2 1))

/-- MBX_SET_RX. -/
def execMbxSetRx (k : Fin 32) (s : State) : Out := done (serve Op.MBX_SET_RX k setRx s)

end Sys2Proof.Machine
end

