-- ==== Sys2Proof/Machine/Polders.lean ====
section
/-! DEFINITION. Polders (spec/04_guest_instances_and_host_link.md): what faults and state changes raise (R100, R105, R107), and the
commands that create polders and give them resources, shares, pairs and windows (R92 to R95, R103, R111). -/
namespace Sys2Proof.Machine

/-- A polder's state changed (Table POL-2): line 1, POLDER_STATE_CHANGED and CRP_POLDER_STATE. -/
def polderChanged (p : Nat) (s : State) : State :=
  s |> raiseLine p 1 |> notifyPolderWardenAnd0 p Op.POLDER_STATE_CHANGED [p + 256 * polState s p]
    |> record0 Src.CRP_POLDER_STATE (some p) [p, polState s p]

/-! ## Faults (R107) -/

def faultAddress : Nat := 1
def faultTranslation : Nat := 2
def faultTimeout : Nat := 3
def faultPoison : Nat := 4
def faultEngine : Nat := 5
def faultWatchdog : Nat := 6

/-- R107: a fault attributed to a polder, with its block's first source number, its unit and its reason. -/
def polFault (p source unit reason : Nat) (s : State) : State :=
  if !polExists s p then s
  else s |> wr (POL_FAULT_INFO_source p) source |> wr (POL_FAULT_INFO_unit p) unit |> wr (POL_FAULT_INFO_reason p) reason
    |> incSat (POL_STAT_faults p) 1 |> raiseLine p 1
    |> notifyPolderWardenAnd0 p Op.POLDER_FAULT [source + 256 * (unit % 256) + 65536 * reason]

/-! ## Reads -/

/-- POL_SHARE as a word. -/
def shareWord (s : State) (p : Nat) : Nat := rd s (POL_SHARE_gfx p) + 256 * rd s (POL_SHARE_vcd p) + 65536 * rd s (POL_SHARE_cvu p)

/-- The layer slots a polder holds, as a bitmap. -/
def slotBitmap (s : State) (p : Nat) : Nat := bitmap 64 (fun n => slotOwner s n == p)

/-- POLDER_GET_INFO (Table POL-2). -/
def polderGetInfo (r : Req) (s : State) : Answer :=
  let p := bits (r.w 2) 4 0
  if !r.mayReadPolder s p then no ST_NOT_OWNER s
  else
    let pair := if polExists s p then (pairOf s p).getD 0 else 0
    okR [polState s p + 4 * polLocation s p + 16 * pair, shareWord s p, lo32 (slotBitmap s p), hi32 (slotBitmap s p), audBudget s p] s

/-- POLDER_GET_INFO. -/
def execPolderGetInfo (k : Fin 32) (s : State) : Out := done (serve Op.POLDER_GET_INFO k polderGetInfo s)

/-- Table POL-1: the first and last unit of a type that may be granted, and the most a polder may hold; endpoint channels 232 to 255
are reserved (Table AUD-2). -/
def unitRange (type : Nat) : Option (Nat × Nat × Nat) :=
  match type with
  | 1 => some (0, 63, 64)
  | 2 => some (0, 255, 16)
  | 3 => some (0, 63, 64)
  | 4 => some (0, 231, 256)
  | 5 => some (0, 7, 8)
  | 6 => some (0, 1, 2)
  | 7 => some (0, 7, 8)
  | 8 => some (1, 255, 255)
  | _ => none

/-- Whether a polder holds a unit (R91); polder 0 holds a touch queue on both channels. -/
def holdsUnit (s : State) (p type unit : Nat) : Bool := if type = 6 then holdsTouch s p unit else grantee s type unit == p

/-- The units of a type that a polder holds, as a bitmap. -/
def grantBitmap (s : State) (p type : Nat) : Nat :=
  match unitRange type with
  | some (lo, hi, _) => bitmap 256 (fun u => decide (lo ≤ u) && decide (u ≤ hi) && holdsUnit s p type u)
  | none => 0

/-- The words of a bitmap, 32 bits each. -/
def bitmapWords (n m : Nat) : List Nat := (List.range n).map (fun i => m / 2 ^ (32 * i) % 4294967296)

/-- POLDER_GET_GRANTS (Table POL-2). -/
def polderGetGrants (r : Req) (s : State) : Answer :=
  let p := bits (r.w 2) 4 0
  let t := bits (r.w 2) 11 8
  if t = 0 ∨ 9 < t then no ST_BAD_ARG s
  else if !r.mayReadPolder s p then no ST_NOT_OWNER s
  else if t = 9 then okR [audBudget s p, 0, 0, 0, 0, 0, 0, 0] s
  else okR (bitmapWords 8 (grantBitmap s p t)) s

/-- POLDER_GET_GRANTS. -/
def execPolderGetGrants (k : Fin 32) (s : State) : Out := done (serve Op.POLDER_GET_GRANTS k polderGetGrants s)

/-! ## Creation and resources -/

/-- R93: what a command of the group that names polder `p` answers before it does anything. `needIdle` marks those that a resetting
polder refuses. -/
def namedRefusal (s : State) (p : Nat) (needIdle : Bool) : Option Nat :=
  if p = 0 then some ST_BAD_ARG
  else if !polExists s p then some ST_POLDER_ABSENT
  else if needIdle && polState s p == 2 then some ST_RESETTING
  else none

/-- The shares of a polder set to 16 (R95). -/
def sharesDefault (p : Nat) (s : State) : State :=
  s |> wr (POL_SHARE_gfx p) 16 |> wr (POL_SHARE_vcd p) 16 |> wr (POL_SHARE_cvu p) 16 |> wr (POL_STAT_frozen p) 0

/-- The instance registers of a polder just created (R95): nothing pending, nothing enabled, no fault, no reset counted. -/
def freshInstance (p : Nat) (s : State) : State :=
  (List.range 64).foldl (fun s n => s |> wr (POL_EVL_VECTOR_vector p n) 0 |> wr (POL_EVL_VECTOR_valid p n) 0)
    (s |> wr (POL_EVL_PENDING_pending p) 0 |> wr (POL_EVL_ENABLE_enable p) 0 |> wr (POL_STAT_faults p) 0
      |> wr (POL_FAULT_INFO_source p) 0 |> wr (POL_FAULT_INFO_unit p) 0 |> wr (POL_FAULT_INFO_reason p) 0)

/-- POLDER_CREATE (R92, R95). -/
def polderCreate (r : Req) (s : State) : Answer :=
  let p := bits (r.w 2) 4 0
  let loc := bits (r.w 2) 9 8
  if p = 0 then no ST_BAD_ARG s
  else if polExists s p then no ST_POLDER_EXISTS s
  else
    let s1 := s |> freshInstance p |> sharesDefault p |> wr (POL_RESET_COUNT_count p) 0 |> wr (POL_STAT_location p) loc
      |> wr (POL_STAT_state p) 1
    let s2 := if p < 30 ∧ chanOn s1 (2 * p) = false then assignPair p p 0 s1 else s1
    ⟨ST_OK, [], s2, fun s =>
      let s3 := polderChanged p s
      if loc = 3 then s3 else notifyAck 0 Op.POLDER_PLACED [p + 256 * loc] s3⟩

/-- POLDER_CREATE. -/
def execPolderCreate (k : Fin 32) (s : State) : Out := done (serve Op.POLDER_CREATE k polderCreate s)

/-- The units a request names: from word 2; none when they fall outside Table POL-1. -/
def namedUnits (type first count : Nat) : Option (List Nat) :=
  match unitRange type with
  | some (lo, hi, _) =>
    if 0 < count ∧ lo ≤ first ∧ first + count ≤ hi + 1 then some ((List.range count).map (fun i => first + i)) else none
  | none => none

/-- Units given to a polder; giving them to polder 0 returns them. -/
def giveUnits (p type : Nat) (us : List Nat) (s : State) : State :=
  us.foldl (fun s u =>
    if type = 6 then
      { s with touchGrants := s.touchGrants.put u (setBit (Tab.get 0 s.touchGrants u) p) }
    else { s with grants := s.grants.put (unitKey type u) p }) s

/-- How many units of a type a polder would hold with those named added. -/
def holdingWith (s : State) (p type : Nat) (us : List Nat) : Nat :=
  match unitRange type with
  | some (lo, hi, _) => (idxWhere (hi + 1) (fun u => decide (lo ≤ u) && (holdsUnit s p type u || us.contains u))).length
  | none => 0

/-- POLDER_GRANT (R91, R93, R94). -/
def polderGrant (r : Req) (s : State) : Answer :=
  let p := bits (r.w 2) 4 0
  let t := bits (r.w 2) 11 8
  match namedRefusal s p true with
  | some st => no st s
  | none =>
    if t = 9 then
      if r.w 3 = 0 ∨ 24000 < r.w 3 then no ST_BAD_ARG s
      else if audBudget s 0 < r.w 3 then no ST_RESOURCE_TAKEN s
      else did { s with budget := s.budget.put p (audBudget s p + r.w 3) }
    else match namedUnits t (bits (r.w 2) 23 16) (bits (r.w 2) 31 24) with
      | none => no ST_BAD_ARG s
      | some us =>
        if t ≠ 6 ∧ us.any (fun u => grantee s t u != 0 && grantee s t u != p) = true then no ST_RESOURCE_TAKEN s
        else if (match unitRange t with | some (_, _, most) => decide (most < holdingWith s p t us) | none => true) then no ST_BAD_ARG s
        else did (giveUnits p t us s)

/-- POLDER_GRANT. -/
def execPolderGrant (k : Fin 32) (s : State) : Out := done (serve Op.POLDER_GRANT k polderGrant s)

/-- The share of an engine (Table POL-2: 0 GFX, 1 VCD, 2 CVU). -/
def shareFld (engine p : Nat) : Fld := if engine = 0 then POL_SHARE_gfx p else if engine = 1 then POL_SHARE_vcd p else POL_SHARE_cvu p

/-- POLDER_SET_SHARE (R93, R103, R104). -/
def polderSetShare (r : Req) (s : State) : Answer :=
  let p := bits (r.w 2) 4 0
  let e := bits (r.w 2) 9 8
  match namedRefusal s p true with
  | some st => no st s
  | none =>
    if e = 3 then no ST_BAD_ARG s
    else
      let s1 := wr (shareFld e p) (bits (r.w 2) 23 16) s
      did (s1 |> wrB (POL_STAT_frozen p) (rd s1 (POL_SHARE_gfx p) == 0 || rd s1 (POL_SHARE_vcd p) == 0 || rd s1 (POL_SHARE_cvu p) == 0)
        |> raiseLine p 1)

/-- POLDER_SET_SHARE. -/
def execPolderSetShare (k : Fin 32) (s : State) : Out := done (serve Op.POLDER_SET_SHARE k polderSetShare s)

/-- POLDER_ASSIGN_PAIR (R26, R93, R95). -/
def polderAssignPair (r : Req) (s : State) : Answer :=
  let k := bits (r.w 2) 4 0
  let p := bits (r.w 2) 12 8
  let m := bits (r.w 2) 21 16
  if k = 0 ∨ 29 < k then no ST_BAD_ARG s
  else match namedRefusal s p false with
    | some st => no st s
    | none =>
      if bit (r.w 2) 24 then
        if chanOn s (2 * k) = false ∨ rd s (MBX_CH_CFG_party_master (2 * k)) ≠ 0 ∨ m ≠ 0 then no ST_BAD_ARG s
        else did (orBits (MBX_PAIR_SHARE_polders k) (2 ^ rd s (MBX_CH_CFG_party_polder (2 * k)) ||| 2 ^ p) s)
      else did (assignPair k p m s)

/-- POLDER_ASSIGN_PAIR. -/
def execPolderAssignPair (k : Fin 32) (s : State) : Out := done (serve Op.POLDER_ASSIGN_PAIR k polderAssignPair s)

/-- The size of BAR4 in MiB (Table CRP-4, field 13); 0 when it is absent. -/
def bar4Size (s : State) : Nat := if otp s 13 % 8 = 0 then 0 else 2 ^ (otp s 13 % 8 - 1)

/-- PCIE_SET_WINDOWS (R93, R111, R112): the outbound window within its 32 GiB, and the base of BAR4 clear of K0 and K1. -/
def pcieSetWindows (r : Req) (s : State) : Answer :=
  let p := bits (r.w 2) 4 0
  let base := bits (r.w 3) 22 0
  let bar4 := bits (r.w 5) 6 0
  match namedRefusal s p false with
  | some st => no st s
  | none =>
    if 2 ^ 23 < base + r.w 4 then no ST_BAD_ARG s
    else
      let s1 := { s with pci := { s.pci with outbound := s.pci.outbound.put p (base, r.w 4) } }
      if bar4Size s = 0 then did s1
      else if bar4 < 16 ∨ 96 < bar4 + bar4Size s then no ST_BAD_ARG s
      else did { s1 with pci := { s1.pci with bar4 := some (p, bar4) } }

/-- PCIE_SET_WINDOWS. -/
def execPcieSetWindows (k : Fin 32) (s : State) : Out := done (serve Op.PCIE_SET_WINDOWS k pcieSetWindows s)

/-- EVL_ENABLE_WRITE (R100, R12): the write of the high word, which applies both. A line enabled while it is pending sends its
message. -/
def execEvlEnableWrite (a : Access) (addr : BitVec 40) (v : BitVec 32) (s : State) : Out :=
  regWrite a addr.toNat v.toNat (isPage addr.toNat && pageOff addr.toNat == 0x600C) (fun c s =>
    let p := pageOf addr.toNat
    let old := rd s (POL_EVL_ENABLE_enable p)
    let new := lowWord s c.master (addr.toNat - 4) old + 4294967296 * v.toNat
    let s1 := s |> holdWord c.master (addr.toNat - 4) none |> wr (POL_EVL_ENABLE_enable p) new
    (idxWhere 64 (fun n => bit new n && !bit old n && bit (rd s (POL_EVL_PENDING_pending p)) n)).foldl (fun s n => lineMessage p n s) s1) s

end Sys2Proof.Machine
end

