-- ==== Sys2Proof/Machine/Audio.lean ====
section
/-! DEFINITION. The audio engine (R312 to R330): rate domains, blocks, swaps, gains, rings, bridges and side-tone, and its part of a
polder reset. -/
namespace Sys2Proof.Machine

/-- The audio engine given a new value. -/
def setAud (f : AudSt → AudSt) (s : State) : State := { s with aud := f s.aud }

/-- A polder's part of the engine. -/
def audPol (s : State) (p : Nat) : AudPol := Tab.get AudPol.empty s.aud.pols p
def setAudPol (p : Nat) (v : AudPol) (s : State) : State := setAud (fun a => { a with pols := a.pols.put p v }) s

/-- A polder's loaded programs. -/
def audProgs (s : State) (p : Nat) : List AudProg := (audPol s p).active.toList ++ (audPol s p).staged.toList

/-- A polder with a section in domain `d`. -/
def hasSection (s : State) (p d : Nat) : Bool := (audProgs s p).any (fun g => !(g.secs.getD d []).isEmpty)

/-- AUD_PROG_STAT brought up to date. -/
def progStat (p : Nat) (s : State) : State :=
  let v := audPol s p
  s |> wrB (AUD_PROG_STAT_active p) v.active.isSome |> wrB (AUD_PROG_STAT_staged p) v.staged.isSome
    |> wr (AUD_PROG_STAT_cost p) (match v.active with | some g => g.cost | none => 0)

/-- AUD_LOAD: the active costs and the budgets granted. -/
def audLoadWord (s : State) : Nat :=
  ((List.range 32).map (fun p => match (audPol s p).active with | some g => g.cost | none => 0)).sum % 65536 +
    65536 * (((List.range 31).map (fun q => Tab.get 0 s.budget (q + 1))).sum % 65536)

/-- An audio line of a polder, from 48 to 51: pending in AUD_EVENT, and raised. -/
def audLine (p line : Nat) (s : State) : State := s |> orBits (AUD_EVENT_lines p) (2 ^ (line - 48)) |> raiseLine p line

/-- R330, Table CRP-8 step 3: the engine is halted, in QUIET and once every party has agreed to its entry, or with its domain off or its
clock gated. -/
def audHalted (s : State) : Bool :=
  rd s CRP_STATUS_power_state == 1 ||
    (rd s CRP_STATUS_power_state == 2 && (match s.pwr.trans with | some t => t.acked.isSome | none => false)) ||
    !domainOn s 5 || bit (rd s CRP_CLK_GATE_gate) blkAUD

/-! ## Rate domains (R313, R314) -/

/-- A domain's measured offset in 0.1 ppm. -/
def domOffset (s : State) (d : Nat) : Int := rdI s (AUD_DOM_STAT_offset d)

/-- When a domain has counted `n` samples, at the rate in force since the rate last changed. -/
def sampleTime (s : State) (d n : Nat) : Nat :=
  match Tab.get (0, 0) s.aud.origin d with
  | (t0, n0) =>
    let rate := (((rd s (AUD_DOM_CTRL_rate d).inForce : Nat) : Int) * (10000000 + domOffset s d)).toNat
    t0 + ceilDiv ((n - n0) * 10 ^ 16) rate

/-- A domain's rate about to change: what has been counted stays counted. -/
def rebaseDomain (d : Nat) (s : State) : State :=
  let n := rd s (AUD_DOM_SAMPLES_count d)
  setAud (fun a => { a with origin := a.origin.put d (sampleTime s d n, n) }) s

/-- The polders with a section in a domain. -/
def sectionPolders (s : State) (d : Nat) : List Nat := idxWhere 32 (fun p => hasSection s p d)

/-- R314: a domain's lock changed: recorded, sent and raised. -/
def domainEvent (d : Nat) (s : State) : State :=
  let ps := sectionPolders s d
  let v := rd s (AUD_DOM_STAT_locked d)
  s |> record0 Src.AUD_DOMAIN_LOCK none [d, v]
    |> notifyPairs ((wardenPair s).toList ++ ps.flatMap (fun p => (pairOf s p).toList)) Op.AUD_DOMAIN_EVENT [d + 4 * v]
    |> fun s => ps.foldl (fun s p => audLine p 51 s) s

/-- AUD_DOMAIN_LOCK (R314): what a slaved domain's reference shows: its offset from the nominal rate in 0.1 ppm, or no edge for 1 ms. Two
observations in range with none out of range between them mean 100 ms in range: the domain locks. -/
def execAudDomainLock (d : Fin 3) (seen : Option (BitVec 16)) (s : State) : Out :=
  let locked := rdB s (AUD_DOM_STAT_locked d)
  if d = 0 ∨ rdB s (AUD_DOM_CTRL_enable d).inForce = false then .next s
  else match seen.bind (fun v => if (sgn 16 v.toNat).natAbs ≤ 10000 then some v.toNat else none) with
    | none =>
      let s1 := setAud (fun a => { a with since := a.since.put d none }) s
      if locked then done (domainEvent d (wr (AUD_DOM_STAT_locked d) 0 s1)) else .next s1
    | some v =>
      if locked then .next (wr (AUD_DOM_STAT_offset d) v (rebaseDomain d s))
      else match Tab.get none s.aud.since d with
        | none => .next (setAud (fun a => { a with since := a.since.put d (some s.now) }) s)
        | some t =>
          let s1 := advanceTo (t + 100000000) s
          done (domainEvent d (s1 |> rebaseDomain d |> wr (AUD_DOM_STAT_offset d) v |> wr (AUD_DOM_STAT_locked d) 1))

/-! ## Rings (R328) -/

/-- The size of a ring in bytes, and of a frame. -/
def frameBytes (s : State) (p r : Nat) : Nat := 4 * (rd s (AUD_RING_CFG_chans p r).inForce + 1)
def ringFrames (s : State) (p r : Nat) : Nat := max 1 (rd s (AUD_RING_CFG_frames p r).inForce)
def ringBase (s : State) (p r : Nat) : Nat := rdA s (AUD_RING_BASE_addr p r).inForce

/-- A ring port that runs in domain `d`. -/
def ringRuns (s : State) (p r d : Nat) : Bool := rdB s (AUD_RING_STAT_active p r) && rd s (AUD_RING_CFG_domain p r).inForce == d

/-- A port disabled. -/
def ringStop (p r : Nat) (s : State) : State := s |> wr (AUD_RING_CFG_enable p r) 0 |> wr (AUD_RING_STAT_active p r) 0

/-- An underrun or overrun of a port. -/
def ringError (src p r : Nat) (s : State) : State :=
  let s1 := incSat (AUD_RING_STAT_errors p r) 1 s
  s1 |> record0 src (some p) [r, rd s1 (AUD_RING_STAT_errors p r)] |> audLine p 50

/-- What an empty ring does for each frame it lacks. -/
def ringErrors (src p r n : Nat) (s : State) : State := (List.range n).foldl (fun s _ => ringError src p r s) s

/-- The engine's accesses for a polder. -/
def audEngine (p : Nat) : Engine := ⟨masterAud, p⟩

/-- The index after `n` frames. -/
def ringNext (s : State) (p r i n : Nat) : Nat := (i + n) % ringFrames s p r

/-- A playback port fetches a block's frames (R328). Answers them; a frame the ring lacks is missing. -/
def ringFetch (p r : Nat) (s : State) : List (List Nat) × State :=
  let size := ringFrames s p r
  let rdI := rd s (AUD_RING_RD_frame p r) % size
  let have_ := (rd s (AUD_RING_WR_frame p r) + size - rdI) % size
  let n := min 64 have_
  let fb := frameBytes s p r
  let step (acc : Nat × List (List Nat) × State) (i : Nat) : Nat × List (List Nat) × State :=
    if acc.1 ≠ 0 then acc
    else match devRead (audEngine p) (ringBase s p r + ringNext s p r rdI i * fb) fb acc.2.2 with
      | (0, bs, s1) => (0, acc.2.1 ++ [leWords (fb / 4) bs], s1)
      | (why, _, s1) => (why, acc.2.1, s1)
  match (List.range n).foldl step (0, [], s) with
  | (0, fs, s1) =>
    let s2 := wr (AUD_RING_RD_frame p r) (ringNext s p r rdI n) s1
    let s3 := if rdB s2 (AUD_RING_CFG_irq p r) && n != 0 then audLine p 49 s2 else s2
    (fs, ringErrors Src.AUD_RING_UNDERRUN p r (64 - n) s3)
  | (why, fs, s1) => (fs, polFault p 168 r why (ringStop p r s1))

/-- A capture port stores a block's frames (R328). -/
def ringStore (p r : Nat) (frames : List (List Int)) (s : State) : State :=
  let size := ringFrames s p r
  let fb := frameBytes s p r
  let step (acc : Nat × State) (f : List Int) : Nat × State :=
    let s := acc.2
    if !rdB s (AUD_RING_STAT_active p r) then acc
    else
      let i := rd s (AUD_RING_WR_frame p r) % size
      if ringNext s p r i 1 = rd s (AUD_RING_RD_frame p r) % size then (acc.1, ringError Src.AUD_RING_OVERRUN p r s)
      else match devWrite (audEngine p) (ringBase s p r + i * fb) (wordsBytes (f.map (unsgn 32))) s with
        | (0, s1) => (acc.1 + 1, wr (AUD_RING_WR_frame p r) (ringNext s p r i 1) s1)
        | (why, s1) => (acc.1, polFault p 168 r why (ringStop p r s1))
  match frames.foldl step (0, s) with
  | (n, s1) => if rdB s1 (AUD_RING_CFG_irq p r) && n != 0 then audLine p 49 s1 else s1

/-- A write of a ring port's CFG with the fields that it keeps: enabling applies R167 to the whole ring; the port starts with the Start
fields as they stand. -/
def ringCfg (p r v : Nat) (s : State) : State :=
  let was := rdB s (AUD_RING_CFG_enable p r)
  let s1 := s |> wr (AUD_RING_CFG_dir p r) (bits v 1 1) |> wr (AUD_RING_CFG_domain p r) (bits v 3 2) |> wr (AUD_RING_CFG_chans p r) (bits v 7 4)
    |> wr (AUD_RING_CFG_irq p r) (bits v 8 8)
  let s2 := if 128 ≤ bits v 31 12 then wr (AUD_RING_CFG_frames p r) (bits v 31 12) s1 else s1
  if !bit v 0 then ringStop p r s2
  else if was then s2
  else
    let n := rd s2 (AUD_RING_CFG_frames p r) * 4 * (rd s2 (AUD_RING_CFG_chans p r) + 1)
    if mediaOwned s2 p (rdA s2 (AUD_RING_BASE_addr p r)) n then
      s2 |> takeEffect [AUD_RING_BASE_addr p r, AUD_RING_CFG_dir p r, AUD_RING_CFG_domain p r, AUD_RING_CFG_chans p r, AUD_RING_CFG_frames p r]
        |> wr (AUD_RING_CFG_enable p r) 1 |> wr (AUD_RING_STAT_active p r) 1 |> wr (AUD_RING_STAT_bad_addr p r) 0
    else wr (AUD_RING_STAT_bad_addr p r) 1 s2

/-- A write to a polder's audio registers: of a polder with no budget it is discarded and recorded. -/
def audPageWrite (a : Access) (addr v : Nat) (hit : Bool) (eff : Nat → Carried → State → State) (s : State) : Out :=
  regWrite a addr v (isPage addr && hit) (fun c s =>
    if audBudget s (pageOf addr) = 0 then violateAt c 2 addr v s else eff (pageOf addr) c s) s

/-- The ring port whose CFG lies at an offset. -/
def ringAt (off : Nat) : Option Nat := if 0x3000 ≤ off ∧ off < 0x3100 ∧ off % 0x20 = 8 then some ((off - 0x3000) / 0x20) else none

/-- A CFG write with what R14 records of it. -/
def ringCfgWrite (p r addr v : Nat) (c : Carried) (s : State) : State :=
  ringCfg p r v (if bits v 31 12 < 128 then violateAt c 4 addr v s else s)

/-- AUD_RING_ENABLE (R328): a write of AUD_RINGr_CFG that enables the port. -/
def execAudRingEnable (a : Access) (addr : BitVec 40) (v : BitVec 32) (s : State) : Out :=
  let r := (ringAt (pageOff addr.toNat)).getD 0
  audPageWrite a addr.toNat v.toNat
    ((ringAt (pageOff addr.toNat)).isSome && bit v.toNat 0 && !rdB s (AUD_RING_CFG_enable (pageOf addr.toNat) r))
    (fun p c => ringCfgWrite p r addr.toNat v.toNat c) s

/-! ## Swaps, gains and meters (R326, R327) -/

/-- The samples of a crossfade. -/
def fadeLength (x : Nat) : Nat := if x = 1 then 64 else if x = 2 then 256 else 0

/-- A write of AUD_SWAP (R326). -/
def swapWrite (p v addr : Nat) (c : Carried) (s : State) : State :=
  let q := audPol s p
  let n := fadeLength (bits v 2 1)
  let answer (st : Nat) : State := wr (AUD_SWAP_STATUS_status p) st s
  if bits v 2 1 = 3 then violateAt c 4 addr v s
  else if !bit v 0 then s
  else if p ≠ 0 ∧ polState s p = 2 then answer ST_BUSY
  else match q.staged with
    | none => answer ST_AUD_NO_STAGED
    | some g =>
      if q.swap.isSome then answer ST_BUSY
      else if n ≠ 0 ∧ audBudget s p < g.cost + (match q.active with | some o => o.cost | none => 0) then answer ST_AUD_BUDGET
      else setAudPol p { q with swap := some ⟨s.now, n, [], none⟩ } (wr (AUD_SWAP_STATUS_state p) 1 (answer ST_BUSY))

/-- AUD_SWAP (R326). -/
def execAudSwap (a : Access) (addr : BitVec 40) (v : BitVec 32) (s : State) : Out :=
  audPageWrite a addr.toNat v.toNat (pageOff addr.toNat == 0x3100) (fun p c => swapWrite p v.toNat addr.toNat c) s

/-- AUD_GAIN_WRITE (R327): the gain that the next block ramps to. -/
def execAudGainWrite (a : Access) (addr : BitVec 40) (v : BitVec 32) (s : State) : Out :=
  let off := pageOff addr.toNat
  audPageWrite a addr.toNat v.toNat (decide (0x3400 ≤ off ∧ off < 0x3800))
    (fun p _ => wr (AUD_GAIN_gain p ((off - 0x3400) / 4)) v.toNat) s

/-- Meters cleared. -/
def clearMeters (p m : Nat) (s : State) : State := (List.range 32).foldl (fun s i => if bit m i then wr (AUD_METER_peak p i) 0 s else s) s

/-- AUD_METER_CLR (R328). -/
def execAudMeterClr (a : Access) (addr : BitVec 40) (v : BitVec 32) (s : State) : Out :=
  audPageWrite a addr.toNat v.toNat (pageOff addr.toNat == 0x3200) (fun p _ => clearMeters p v.toNat) s

/-- A polder's reset of the engine completed (R330): programs freed, rings disabled, gains and meters as after reset. -/
def audFree (p : Nat) (s : State) : State :=
  let s1 := (List.range 8).foldl (fun s r => ringStop p r s) s
  let s2 := (List.range 256).foldl (fun s g => if rd s (AUD_GAIN_gain p g) = 0x10000000 then s else wr (AUD_GAIN_gain p g) 0x10000000 s) s1
  s2 |> clearMeters p 0xFFFFFFFF |> setAudPol p AudPol.empty |> wr (AUD_SWAP_STATUS_state p) 0 |> progStat p

/-- R330: a side-tone unit is a polder's while the polder holds its input channel. -/
def sideOf (s : State) (u : Nat) : Nat := grantee s 4 (rd s (AUD_ST_CFG_in u))

/-- A polder reset reaches the engine: at its next block boundary in each domain that runs, its outputs ramp to 0; its side-tone units are
disabled, and ramp off. -/
def audReset (p : Nat) (s : State) : State :=
  let s1 := (List.range 8).foldl (fun s u => if rdB s (AUD_ST_CFG_enable u) && sideOf s u == p then wr (AUD_ST_CFG_enable u) 0 s else s) s
  let ds := idxWhere 3 (fun d => rdB s (AUD_DOM_CTRL_enable d).inForce)
  setAudPol p { audPol s1 p with ending := some (true, ds), staged := none, swap := none } s1

/-! ## A block (R315, R325, R326) -/

/-- What a command of a block brings: by endpoint channel the 64 samples received in the block that has ended, as the port's slots carry
them. -/
abbrev RxBlock := List (Fin 256 × List (BitVec 32))

/-- The bits of a port's slot. -/
def slotWidth (s : State) (n : Nat) : Nat := match rd s (AUD_TDM_CFG_width (n / 16)).inForce with | 0 => 16 | 1 => 24 | _ => 32

/-- A TDM channel in use: its port is, and it lies within the port's slots. -/
def tdmUsed (s : State) (n : Nat) : Bool := rdB s (AUD_TDM_CFG_enable (n / 16)).inForce && decide (n % 16 < rd s (AUD_TDM_CFG_slots (n / 16)).inForce)

/-- R316: sample `i` received on a TDM channel, in the top bits. -/
def tdmSample (s : State) (rx : RxBlock) (n i : Nat) : Int :=
  if !tdmUsed s n then 0
  else match rx.find? (fun e => e.1.val == n) with
    | some (_, l) => sgn 32 ((l.getD i 0).toNat % 2 ^ slotWidth s n * 2 ^ (32 - slotWidth s n))
    | none => 0

/-- R382: the sample that an AES67 channel plays at device time `t`, at `rate`. -/
def mediaSample (s : State) (rate n t : Nat) : Int :=
  match s.net.aes.find? (fun a => !a.tx && decide (a.first ≤ n) && decide (n < a.first + a.count)) with
  | none => 0
  | some a =>
    match a.held.find? (fun e => decide (e.1 ≤ t) && decide ((t - e.1) * rate / 1000000000 < e.2.length)) with
    | some (l, frames) => (frames.getD ((t - l) * rate / 1000000000) []).getD (n - a.first) 0
    | none => 0

/-- R318: how far the ratio of a bridge's domains departs from the nominal, in 0.1 ppm. -/
def bridgeOffset (s : State) (b : Nat) : Int :=
  let o (d : Nat) : Int := 10000000 + domOffset s d
  o (rd s (AUD_BRG_CFG_dst b).inForce) * 10000000 / o (rd s (AUD_BRG_CFG_src b).inForce) - 10000000

/-- A bridge's output sample. The conversion's coefficients are not stated, so its value is free; out of range it is 0 after a ramp of 64
samples, which `was` marks as done. -/
def bridgeSample (s : State) (b i : Nat) (out was : Bool) : Int :=
  let v := sgn 32 (Config.freeValue (s.free + 64 * b + i))
  if !rdB s (AUD_BRG_CFG_enable b).inForce then 0 else if out then (if was then 0 else ramp64 v 0 i) else v

/-- R318 at a block boundary of domain `d`: each bridge into it measured; those out of range are recorded when they become so. -/
def bridgeRange (d : Nat) (s : State) : State :=
  (List.range 32).foldl (fun s b =>
    if !rdB s (AUD_BRG_CFG_enable b).inForce || rd s (AUD_BRG_CFG_dst b).inForce != d then s
    else
      let o := bridgeOffset s b
      let s1 := wr (AUD_BRG_CFG_offset b) (satSgn 16 o) s
      let out := s1.aud.outside.contains b
      if out = false ∧ 10000 < o.natAbs then
        setAud (fun a => { a with outside := b :: a.outside }) (record0 Src.AUD_BRIDGE_RANGE none [b, unsgn 32 o] s1)
      else if out = true ∧ o.natAbs ≤ 5000 then setAud (fun a => { a with outside := a.outside.erase b }) s1
      else s1) s

/-- A data word of an endpoint or ring, at sample `i` of a block. `was` are the bridges that had been out of range before this block;
`frames` the playback frames by ring. What a capture ring, or a channel that a ring does not have, gives is free. -/
def audInput (s : State) (p d : Nat) (rx : RxBlock) (was : List Nat) (frames : Nat → List (List Nat)) (i a : Nat) : Int :=
  if a < 128 then tdmSample s rx a i
  else if a < 192 then mediaSample s (rd s (AUD_DOM_CTRL_rate d).inForce) a (s.devTime - (64 - i) * 1000000000 / max 1 (rd s (AUD_DOM_CTRL_rate d).inForce))
  else if a < 224 then bridgeSample s (a - 192) i (s.aud.outside.contains (a - 192)) (was.contains (a - 192))
  else if a < 256 then 0
  else
    let r := (a - 256) / 16
    if !rdB s (AUD_RING_STAT_active p r) then 0
    else if rdB s (AUD_RING_CFG_dir p r).inForce || decide (rd s (AUD_RING_CFG_chans p r).inForce < a % 16) then
      sgn 32 (Config.freeValue (s.free + 4096 + 64 * a + i))
    else sgn 32 ((((frames r)[i]?).getD []).getD (a % 16) 0)

/-- The gains that a program's section uses. -/
def gainsUsed (g : AudProg) (d : Nat) : List Nat := ((g.secs.getD d []).filter (fun w => opCode w == 0x07)).map opC

/-- A gain in domain `d` at sample `i` (R327). -/
def gainAt (s : State) (p d : Nat) (i g : Nat) : Int :=
  ramp64 (Tab.get 0x10000000 (audPol s p).gains (256 * d + g)) (rdI s (AUD_GAIN_gain p g)) i

/-- The old and the new program that run in a domain in a block, and the crossfade's first sample in it. -/
structure AudPair where
  old : Option AudProg
  new : Option AudProg
  fade : Option (Nat × Nat)

/-- What runs in domain `d`. Where the swap has taken effect there, the staged program; during its crossfade the old one beside it. -/
def audPair (q : AudPol) (d : Nat) : AudPair :=
  match q.swap with
  | some w =>
    match Tab.get none w.ran d with
    | some n => if n < w.fade then ⟨q.active, q.staged, some (n, if w.fade = 64 then 6 else 8)⟩ else ⟨none, q.staged, none⟩
    | none => ⟨none, q.active, none⟩
  | none => ⟨none, q.active, none⟩

/-- Sample `i` of a pair: the programs as they are after it, the meters, and what the sample stored. -/
def audSample (sec : AudProg → List Nat) (inp : Nat → Nat → Int) (gain : Nat → Nat → Int) (i : Nat) (q : AudPair) (meters : Tab Nat) :
    AudPair × Tab Nat × Tab Int :=
  let e : AudEnv := ⟨inp i, gain i, none⟩
  let (old, m1, olds) : Option AudProg × Tab Nat × Tab Int := match q.old with
    | some g => let r := runSection e g meters (sec g); (some r.prog, r.meters, r.stores)
    | none => (none, meters, [])
  match q.new with
  | some g =>
    let r := runSection { e with mix := q.fade.map (fun f => (f.1 + i, f.2, olds)) } g m1 (sec g)
    (⟨old, some r.prog, q.fade⟩, r.meters, r.stores)
  | none => (⟨old, none, q.fade⟩, m1, [])

/-- A block of a pair: what each sample stored, in order. -/
def audRun (sec : AudProg → List Nat) (inp : Nat → Nat → Int) (gain : Nat → Nat → Int) (q : AudPair) (meters : Tab Nat) :
    AudPair × Tab Nat × List (Tab Int) :=
  (List.range 64).foldl (fun acc i =>
    match audSample sec inp gain i acc.1 acc.2.1 with
    | (q1, m1, st) => (q1, m1, acc.2.2 ++ [st])) (q, meters, [])

/-- R326: the swap takes effect in domain `d` at this boundary, if it may; and completes once every domain the staged program uses has
run its crossfade. -/
def swapBoundary (p d : Nat) (s : State) : State :=
  let q := audPol s p
  match q.swap, q.staged with
  | some w, some g =>
    let uses := idxWhere 3 (fun e => !(g.secs.getD e []).isEmpty)
    let begins := uses.contains d && (Tab.get none w.ran d).isNone && decide (w.start + 100000 ≤ s.now)
    let w1 : AudSwap := if begins then { w with ran := w.ran.put d (some 0), first := if d = 0 then some (rd s (AUD_DOM_SAMPLES_count 0)) else w.first } else w
    if uses.all (fun e => match Tab.get none w1.ran e with | some n => decide (w1.fade ≤ n) | none => false) then
      let sample := match w1.first with | some n => n | none => freeVal 64 s
      s |> setAudPol p { q with active := some g, staged := none, swap := none } |> progStat p
        |> wr (AUD_SWAP_SAMPLE_count p) sample |> wr (AUD_SWAP_STATUS_status p) ST_OK |> wr (AUD_SWAP_STATUS_state p) 3
        |> tookFree |> record0 Src.AUD_SWAP_DONE (some p) (twoWords sample) |> audLine p 48
    else
      let s1 := setAudPol p { q with swap := some w1 } s
      if begins then wr (AUD_SWAP_STATUS_state p) 2 s1 else s1
  | _, _ => s

/-- The meters of a polder as a table, and written back. -/
def metersOf (s : State) (p : Nat) : Tab Nat := (List.range 32).map (fun m => (m, rd s (AUD_METER_peak p m)))
def putMeters (p : Nat) (m : Tab Nat) (s : State) : State := (List.range 32).foldl (fun s i => wr (AUD_METER_peak p i) (Tab.get 0 m i) s) s

/-- A polder's outputs have ramped out in domain `d`; with the last domain its active program is freed, or its reset completes. -/
def rampedOut (p d : Nat) (s : State) : State :=
  let q := audPol s p
  match q.ending with
  | some (isReset, ds) =>
    if !(ds.erase d).isEmpty then setAudPol p { q with ending := some (isReset, ds.erase d) } s
    else if isReset then audFree p s
    else progStat p (setAudPol p { q with active := none, ending := none } s)
  | none => s

/-- The block of a polder in domain `d`: swap, rings, sections, gains. Answers what it stored by endpoint channel. -/
def audPolBlock (d : Nat) (rx : RxBlock) (was : List Nat) (p : Nat) (s0 : State) : List (Nat × List Int) × State :=
  let s := swapBoundary p d s0
  let q := audPol s p
  let ends := match q.ending with | some (_, ds) => ds.contains d | none => false
  let isReset := match q.ending with | some (r, _) => r | none => false
  let s := if ends && isReset then (List.range 8).foldl (fun s r => if ringRuns s p r d then ringStop p r s else s) s else s
  let rings := idxWhere 8 (fun r => ringRuns s p r d)
  let (frames, s) := rings.foldl (fun (acc : Tab (List (List Nat)) × State) r =>
    if rdB acc.2 (AUD_RING_CFG_dir p r).inForce then acc
    else match ringFetch p r acc.2 with | (fs, s1) => (acc.1.put r fs, s1)) (([] : Tab (List (List Nat))), s)
  let q := audPol s p
  let run := audPair q d
  if run.old.isNone && run.new.isNone && rings.isEmpty then
    ([], if ends then rampedOut p d s else s)
  else
    let (pr, ms, stores) := audRun (fun g => g.secs.getD d []) (audInput s p d rx was (fun r => Tab.get [] frames r))
      (gainAt s p d) run (metersOf s p)
    let used := (run.old.toList ++ run.new.toList).flatMap (fun g => gainsUsed g d)
    let gains := used.foldl (fun t g => Tab.put t (256 * d + g) (rdI s (AUD_GAIN_gain p g))) q.gains
    let swapped := run.fade.isSome || (match q.swap with | some w => (Tab.get none w.ran d).isSome | none => false)
    let q1 : AudPol := if swapped then
        { q with gains := gains, active := if run.old.isSome then pr.old else q.active, staged := pr.new,
                 swap := q.swap.map (fun w => { w with ran := w.ran.put d ((Tab.get none w.ran d).map (· + 64)) }) }
      else { q with gains := gains, active := pr.new }
    let s1 := s |> setAudPol p q1 |> putMeters p ms
    let column (a : Nat) : List Int := stores.map (fun t => Tab.get 0 t a)
    let s2 := (rings.filter (fun r => rdB s (AUD_RING_CFG_dir p r).inForce)).foldl (fun s r =>
      ringStore p r (stores.map (fun t => (List.range (rd s (AUD_RING_CFG_chans p r).inForce + 1)).map (fun c => Tab.get 0 t (256 + 16 * r + c)))) s) s1
    let addrs := (idxWhere 232 (fun a => stores.any (fun t => t.any (fun e => e.1 == a))))
    let outs := addrs.map (fun a => (a, if ends then (List.range 64).map (fun i => ramp64 ((column a).getD i 0) 0 i) else column a))
    (outs, if ends then rampedOut p d s2 else s2)

/-! ## Side-tone (R329) -/

/-- The greatest `g` of `k` bits and more, not below `g0`, with `g^40 * den` at most `num`. -/
def root40 (num den : Nat) : Nat → Nat → Nat
  | 0, g => g
  | k + 1, g => root40 num den k (if (g + 2 ^ k) ^ 40 * den ≤ num then g + 2 ^ k else g)

/-- R329: the factor of a gain code in Q4.28: code n is (n − 231) × 0.5 dB, which is 10 to the power (n − 231) / 40. -/
def sideGain (n : Nat) : Int :=
  if n = 0 then 0
  else
    let num := 2 ^ 1120 * 10 ^ (n - 231)
    let den := 10 ^ (231 - n)
    let g := root40 num den 31 0
    if g ^ 40 * den = num ∨ Config.sideGainUp n = false then (g : Nat) else (g + 1 : Nat)

/-- The samples a side-tone unit adds in a block of its output port: those of its input one frame earlier where the device masters both
ports, else one or two frames. Answers them with the unit's state after the block. -/
def sideBlock (s : State) (rx : RxBlock) (u : Nat) : List Int × (Int × List Int) :=
  let (g0, hist) := Tab.get (0, []) s.aud.side u
  let inn := rd s (AUD_ST_CFG_in u)
  let both := rdB s (AUD_TDM_CFG_master (inn / 16)).inForce && rdB s (AUD_TDM_CFG_master (rd s (AUD_ST_CFG_out u) / 16)).inForce
  let late := if both then 1 else if Config.freeChoice (s.free + u) then 2 else 1
  let g1 := if rdB s (AUD_ST_CFG_enable u) then sideGain (rd s (AUD_ST_CFG_gain u)) else 0
  let xs := (List.range 64).map (tdmSample s rx inn)
  let all := (List.replicate 2 0 ++ hist).reverse.take 2 |>.reverse
  let seq := all ++ xs
  ((List.range 64).map (fun f => mulk (seq.getD (f + 2 - late) 0) (ramp64 g0 g1 f)), (g1, xs.drop 62))

/-- The units that sound. -/
def sideRuns (s : State) (u : Nat) : Bool := rdB s (AUD_ST_CFG_enable u) || (Tab.get (0, []) s.aud.side u).1 != 0

/-- Two blocks added sample by sample, saturated. -/
def addBlock (a b : List Int) : List Int := (List.range 64).map (fun i => sat32 (a.getD i 0 + b.getD i 0))

/-- R315, R316, R329: what goes out in the block of domain `d` that has ended: the program values with side-tone; of a TDM slot only the
top bits. -/
def audSend (d : Nat) (rx : RxBlock) (s : State) : State :=
  let units := if d = 0 then idxWhere 8 (sideRuns s) else []
  let withSide := units.foldl (fun (o : Tab (List Int)) u =>
    let n := rd s (AUD_ST_CFG_out u)
    o.put n (addBlock (Tab.get [] o n) (sideBlock s rx u).1)) (s.aud.out.filter (fun e => chanDomain s e.1 true == d))
  let cut (n : Nat) (v : Int) : Int := if n < 128 then v / 2 ^ (32 - slotWidth s n) else v
  let sent := (withSide.filter (fun e => decide (128 ≤ e.1) || tdmUsed s e.1)).map (fun e => (e.1, e.2.map (cut e.1)))
  let side := units.foldl (fun t u => Tab.put t u (sideBlock s rx u).2) s.aud.side
  setAud (fun a => { a with sent := sent ++ a.sent.filter (fun e => chanDomain s e.1 true != d), side := side }) (tookFrees 8 s)

/-! ## AES67 (R382) -/

/-- The samples of a packet at a rate. -/
def packetSamples (a : Aes67) (rate : Nat) : Nat := (a.packetNs * rate + 500000000) / 1000000000

/-- A sample as a packet carries it: its top bytes, most significant first. -/
def packetBytes (n : Nat) (v : Int) : List Nat := (leBytes 4 (unsgn 32 v)).reverse.take n

/-- The packets of a transmit stream that its frames fill, sent. -/
def mediaSend (rate : Nat) : Nat → Aes67 → State → Aes67 × State
  | 0, a, s => (a, s)
  | k + 1, a, s =>
    let n := max 1 (packetSamples a rate)
    let frames := a.held.flatMap (·.2)
    if frames.length < n then (a, s)
    else
      let pay := (frames.take n).flatMap (fun f => f.flatMap (packetBytes a.bytes))
      mediaSend rate k { a with held := [(0, frames.drop n)], packets := a.packets + 1 }
        (if domainOn s 6 then { s with net := { s.net with sent := ⟨256, a.index, none, a.addr, a.packets, s.devTime, pay⟩ :: s.net.sent } } else s)

/-- Packets due by device time `t`: each is there, or missing. -/
def mediaDue (dur t : Nat) : Nat → Aes67 → Aes67
  | 0, a => a
  | k + 1, a =>
    match a.due with
    | some l =>
      if l + dur ≤ t then
        match a.held.find? (fun e => decide (e.1 < l + dur / 2) && decide (l < e.1 + dur / 2)) with
        | some (m, _) => mediaDue dur t k { a with due := some (m + dur), packets := a.packets + 1 }
        | none => mediaDue dur t k { a with due := some (l + dur), missing := a.missing + 1 }
      else { a with held := a.held.filter (fun e => decide (t < e.1 + dur)) }
    | none => a

/-- A block boundary of the AES67 domain: transmit streams take the block that went out, receive streams account for what it played. -/
def mediaBlock (d : Nat) (s : State) : State :=
  if rd s AUD_AES67_CFG_domain.inForce ≠ d then s
  else
    let rate := rd s (AUD_DOM_CTRL_rate d).inForce
    s.net.aes.foldl (fun s a =>
      let (b, s1) := if a.tx then
          let frames := (List.range 64).map (fun i => (List.range a.count).map (fun c => (Tab.get [] s.aud.sent (a.first + c)).getD i 0))
          mediaSend rate 64 { a with held := [(0, a.held.flatMap (·.2) ++ frames)] } s
        else (mediaDue (packetSamples a rate * 1000000000 / max 1 rate) s.devTime 64 a, s)
      { s1 with net := { s1.net with aes := s1.net.aes.map (fun x => if x.tx == b.tx && x.index == b.index then b else x) } }) s

/-- R316: a frame slipped on a port whose clocks come from outside. -/
def slipped (d : Nat) (s : State) (e : Fin 8 × Bool) : State :=
  if rdB s (AUD_TDM_CFG_enable e.1).inForce && !rdB s (AUD_TDM_CFG_master e.1).inForce && rd s (AUD_TDM_CFG_domain e.1).inForce == d then
    record0 Src.AUD_TDM_SLIP none [e.1.val, if e.2 then 2 else 1] s
  else s

/-- The polders in turn, and what their sections stored. -/
def audBlocks (d : Nat) (rx : RxBlock) (was : List Nat) (s : State) : List (Nat × List Int) × State :=
  (List.range 32).foldl (fun acc p => match audPolBlock d rx was p acc.2 with | (o, s1) => (acc.1 ++ o, s1)) ([], s)

/-- AUD_BLOCK (R325): a block boundary of domain `d`. The block that has ended went out, with the samples received in it (`rx`) and the
ports that slipped a frame (`slips`, true for a dropped one); the block computed before it goes out next; the block received is computed. -/
def execAudBlock (d : Fin 3) (rx : List (Fin 256 × List (BitVec 32))) (slips : List (Fin 8 × Bool)) (s : State) : Out :=
  if !rdB s (AUD_DOM_CTRL_enable d).inForce then .next s
  else
    let n := rd s (AUD_DOM_SAMPLES_count d) + 64
    let s1 := wr (AUD_DOM_SAMPLES_count d) n (advanceTo (sampleTime s d n) s)
    if audHalted s1 then .next (setAud (fun a => { a with sent := [], out := [], ready := [] }) s1)
    else
      let s2 := mediaBlock d (audSend d rx (slips.foldl (slipped d) s1))
      let was := s2.aud.outside
      let s3 := bridgeRange d s2
      match audBlocks d rx was s3 with
      | (outs, s4) =>
        let keep (t : Tab (List Int)) : Tab (List Int) := t.filter (fun e => chanDomain s4 e.1 true != d.val)
        done (tookFrees 32768 (setAud (fun a =>
          { a with out := keep a.out ++ a.ready.filter (fun e => chanDomain s4 e.1 true == d.val), ready := keep a.ready ++ outs }) s4))

/-! ## Commands (Table AUD-8) -/

/-- AUD_DOMd_CTRL and AUD_DOMd_STAT as words. -/
def domCtrl (s : State) (d : Nat) : Nat := packFlds s [AUD_DOM_CTRL_enable d, AUD_DOM_CTRL_ref d, AUD_DOM_CTRL_rate d]
def domStat (s : State) (d : Nat) : Nat := packFlds s [AUD_DOM_STAT_locked d, AUD_DOM_STAT_offset d]

/-- AUD_GET_INFO. -/
def audGetInfo (_ : Req) (s : State) : Answer := okR ((List.range 3).map (domCtrl s) ++ (List.range 3).map (domStat s) ++ [audLoadWord s]) s

/-- AUD_GET_INFO. -/
def execAudGetInfo (k : Fin 32) (s : State) : Out := done (serve Op.AUD_GET_INFO k audGetInfo s)

/-- AUD_GET_PROGRAM. -/
def audGetProgram (q : Req) (s : State) : Answer :=
  let p := bits (q.w 2) 4 0
  let v := audPol s p
  let crc (g : Option AudProg) : Nat := match g with | some g => g.crc | none => 0
  if !q.mayReadPolder s p then no ST_NOT_OWNER s
  else okR [packFlds s [AUD_PROG_STAT_active p, AUD_PROG_STAT_staged p, AUD_PROG_STAT_cost p], crc v.active, crc v.staged,
            match v.active with | some g => g.paths.length / 3 | none => 0] s

/-- AUD_GET_PROGRAM. -/
def execAudGetProgram (k : Fin 32) (s : State) : Out := done (serve Op.AUD_GET_PROGRAM k audGetProgram s)

/-- AUD_GET_PATHS (R325): the polder is in the low bits of word 2, which is also the low word of the buffer's address. -/
def audGetPaths (q : Req) (s : State) : Answer :=
  let p := bits (q.w 2) 4 0
  if !q.mayReadPolder s p then no ST_NOT_OWNER s
  else
    let bs := match (audPol s p).active with | some g => wordsBytes g.paths | none => []
    if q.bufSize < bs.length then no ST_BAD_ARG s else okR [] (devPut 0 (q.bufAddr - p) bs s)

/-- AUD_GET_PATHS. -/
def execAudGetPaths (k : Fin 32) (s : State) : Out := done (serve Op.AUD_GET_PATHS k audGetPaths s)

/-- R324: a load that fails a check. -/
def loadFails (p st off : Nat) (s : State) : Answer :=
  ⟨st, if st = ST_AUD_PROGRAM then [off] else [], record0 Src.AUD_PROGRAM_REJECTED (some p) [st, off] s, id⟩

/-- AUD_LOAD_PROGRAM (R324). -/
def audLoadProgram (q : Req) (s : State) : Answer :=
  match q.polder with
  | none => no ST_NOT_OWNER s
  | some p =>
    let v := audPol s p
    let fading := match v.swap with | some w => w.ran.any (fun e => e.2.isSome) && w.fade != 0 | none => false
    let img := leWords (min (q.bufSize / 4) (readNat s (q.bufAddr + 8) 4 / 4)) (readBytes s q.bufAddr (min q.bufSize (readNat s (q.bufAddr + 8) 4)))
    let head := leWords (min 24 (q.bufSize / 4)) (readBytes s q.bufAddr (min 96 q.bufSize))
    let img1 := head ++ img.drop head.length
    if fading then no ST_BUSY s
    else match headerFault img1 q.bufSize with
      | some o => loadFails p ST_AUD_PROGRAM o s
      | none =>
        let g := imgProg img1
        match firstOffset (bodyFaults img1 g) with
        | some o => loadFails p ST_AUD_PROGRAM o s
        | none =>
          match domainFault s p img1 g with
          | some o => loadFails p ST_AUD_DOMAIN o s
          | none =>
            let total := ((List.range 32).flatMap (fun o => (audPol s o).active.toList ++ (if o = p then [] else (audPol s o).staged.toList))).map progWords
            if taintFails g then loadFails p ST_AUD_PRIVILEGED 0 s
            else if imgCost img1 g ≠ g.cost then loadFails p ST_AUD_PROGRAM 4 s
            else if audBudget s p < g.cost then loadFails p ST_AUD_BUDGET 4 s
            else if 262144 < total.sum + progWords g then loadFails p ST_AUD_MEMORY 0 s
            else did (s |> setAudPol p { v with staged := some g } |> progStat p |> record0 Src.AUD_PROGRAM_LOADED (some p) [g.crc, g.cost])

/-- AUD_LOAD_PROGRAM. -/
def execAudLoadProgram (k : Fin 32) (s : State) : Out := done (serve Op.AUD_LOAD_PROGRAM k audLoadProgram s)

/-- AUD_UNLOAD: the staged program is freed, or the active one ramps out over one block of each domain. -/
def audUnload (q : Req) (s : State) : Answer :=
  match q.polder with
  | none => no ST_NOT_OWNER s
  | some p =>
    let v := audPol s p
    if v.swap.isSome then no ST_BUSY s
    else if bit (q.w 2) 0 then
      match v.active with
      | some g => did (setAudPol p { v with ending := some (false, idxWhere 3 (fun d => !(g.secs.getD d []).isEmpty && rdB s (AUD_DOM_CTRL_enable d).inForce)) } s)
      | none => did s
    else did (progStat p (setAudPol p { v with staged := none } s))

/-- AUD_UNLOAD. -/
def execAudUnload (k : Fin 32) (s : State) : Out := done (serve Op.AUD_UNLOAD k audUnload s)

/-- The Start fields of a bridge, of a domain and of a TDM port. -/
def brgFlds (b : Nat) : List Fld := [AUD_BRG_CFG_enable b, AUD_BRG_CFG_src b, AUD_BRG_CFG_dst b]
def domFlds (d : Nat) : List Fld := [AUD_DOM_CTRL_enable d, AUD_DOM_CTRL_ref d, AUD_DOM_CTRL_rate d]
def tdmFlds (p : Nat) : List Fld :=
  [AUD_TDM_CFG_enable p, AUD_TDM_CFG_domain p, AUD_TDM_CFG_slots p, AUD_TDM_CFG_width p, AUD_TDM_CFG_master p, AUD_TDM_CFG_delay1 p]

/-- AUD_SET_BRIDGE (R318). -/
def audSetBridge (q : Req) (s : State) : Answer :=
  let b := bits (q.w 2) 4 0
  let src := bits (q.w 2) 10 9
  let dst := bits (q.w 2) 12 11
  match q.polder with
  | none => no ST_NOT_OWNER s
  | some p =>
    if grantee s 4 (192 + b) ≠ p then no ST_NOT_OWNER s
    else if (audProgs s p).any (fun g => progUses g (192 + b)) then no ST_BUSY s
    else if src = dst ∨ src = 3 ∨ dst = 3 then no ST_AUD_DOMAIN s
    else
      let s1 := s |> wr (AUD_BRG_CFG_enable b) (bits (q.w 2) 8 8) |> wr (AUD_BRG_CFG_src b) src |> wr (AUD_BRG_CFG_dst b) dst
        |> takeEffect (brgFlds b)
      did (wr (AUD_BRG_CFG_offset b) (satSgn 16 (bridgeOffset s1 b)) s1)

/-- AUD_SET_BRIDGE. -/
def execAudSetBridge (k : Fin 32) (s : State) : Out := done (serve Op.AUD_SET_BRIDGE k audSetBridge s)

/-- AUD_SET_SIDETONE (R319, R329). -/
def audSetSidetone (q : Req) (s : State) : Answer :=
  let u := bits (q.w 2) 2 0
  let i := bits (q.w 2) 14 8
  let o := bits (q.w 2) 22 16
  match q.polder with
  | none => no ST_NOT_OWNER s
  | some p =>
    if grantee s 4 i ≠ p ∨ grantee s 4 o ≠ p then no ST_NOT_OWNER s
    else if chanDomain s i false ≠ 0 ∨ chanDomain s o true ≠ 0 then no ST_AUD_PRIVILEGED s
    else did (s |> wr (AUD_ST_CFG_in u) i |> wr (AUD_ST_CFG_out u) o |> wr (AUD_ST_CFG_gain u) (bits (q.w 3) 7 0)
      |> wr (AUD_ST_CFG_enable u) (bits (q.w 2) 23 23))

/-- AUD_SET_SIDETONE. -/
def execAudSetSidetone (k : Fin 32) (s : State) : Out := done (serve Op.AUD_SET_SIDETONE k audSetSidetone s)

/-- R313: something runs in, or is assigned to, a domain: a section, a port in use, AES67 streams, an enabled bridge. -/
def domainUsed (s : State) (d : Nat) : Bool :=
  (List.range 32).any (fun p => hasSection s p d) ||
    (List.range 8).any (fun p => rdB s (AUD_TDM_CFG_enable p).inForce && rd s (AUD_TDM_CFG_domain p).inForce == d) ||
    (!s.net.aes.isEmpty && rd s AUD_AES67_CFG_domain.inForce == d) ||
    (List.range 32).any (fun b => rdB s (AUD_BRG_CFG_enable b).inForce && (rd s (AUD_BRG_CFG_src b).inForce == d || rd s (AUD_BRG_CFG_dst b).inForce == d))

/-- AUD_SET_DOMAIN (R313, R337). D0 keeps its enable. -/
def audSetDomain (q : Req) (s : State) : Answer :=
  let d := bits (q.w 2) 1 0
  let ref := bits (q.w 2) 4 3
  let rate := q.w 3
  let bad := if d = 0 then ref != 0 || !(rate == 48000 || rate == 96000 || rate == 192000)
    else d == 3 || ref == 0 || decide (rate < 32000) || decide (192000 < rate)
  if bad then no ST_BAD_ARG s
  else if domainUsed s d then no ST_BUSY s
  else
    let s1 := rebaseDomain d s
    did (s1 |> wr (AUD_DOM_CTRL_enable d) (if d = 0 then 1 else bits (q.w 2) 2 2) |> wr (AUD_DOM_CTRL_ref d) ref |> wr (AUD_DOM_CTRL_rate d) rate
      |> takeEffect (domFlds d) |> wr (AUD_DOM_STAT_locked d) 0 |> wr (AUD_DOM_STAT_offset d) 0 |> setAud (fun a => { a with since := a.since.put d none })
      |> (fun s => if rdB s1 (AUD_DOM_CTRL_enable d).inForce then s
            else setAud (fun a => { a with origin := a.origin.put d (s.now, rd s (AUD_DOM_SAMPLES_count d)) }) s))

/-- AUD_SET_DOMAIN. -/
def execAudSetDomain (k : Fin 32) (s : State) : Out := done (serve Op.AUD_SET_DOMAIN k audSetDomain s)

/-- AUD_SET_TDM (R316, R319, R337). -/
def audSetTdm (q : Req) (s : State) : Answer :=
  let p := bits (q.w 2) 2 0
  let v := bits (q.w 2) 27 16
  let d := bits v 2 1
  let slots := bits v 7 3
  if d = 3 ∨ slots = 0 ∨ 16 < slots ∨ bits v 9 8 = 3 ∨ 768000 < slots * rd s (AUD_DOM_CTRL_rate d).inForce then no ST_BAD_ARG s
  else if d ≠ 0 ∧ (List.range 8).any (fun u => rdB s (AUD_ST_CFG_enable u) &&
      (rd s (AUD_ST_CFG_in u) / 16 == p || rd s (AUD_ST_CFG_out u) / 16 == p)) = true then no ST_AUD_PRIVILEGED s
  else did (takeEffect (tdmFlds p) (writeFlds v (tdmFlds p) s))

/-- AUD_SET_TDM. -/
def execAudSetTdm (k : Fin 32) (s : State) : Out := done (serve Op.AUD_SET_TDM k audSetTdm s)

/-- R317: the AES67 channels may be in a domain. -/
def mediaDomainOk (s : State) (d : Nat) : Bool := d == 0 || (d != 3 && rd s (AUD_DOM_CTRL_ref d).inForce == 3)

/-- AUD_SET_AES67 (R317). -/
def audSetAes67 (q : Req) (s : State) : Answer :=
  let d := bits (q.w 2) 1 0
  if mediaDomainOk s d then did (takeEffect [AUD_AES67_CFG_domain] (wr AUD_AES67_CFG_domain d s)) else no ST_AUD_DOMAIN s

/-- AUD_SET_AES67. -/
def execAudSetAes67 (k : Fin 32) (s : State) : Out := done (serve Op.AUD_SET_AES67 k audSetAes67 s)

/-! ## AES67 streams (R382) -/

/-- The packet time of a code, in ns. -/
def packetTime (c : Nat) : Nat := match c with | 0 => 125000 | 1 => 250000 | 2 => 333333 | _ => 1000000

/-- Entry `i` of NET_SET_AES67's buffer (notes/assumptions/43.md). -/
def aesEntry (q : Req) (s : State) (i : Nat) : Aes67 :=
  let w := readNat s (q.bufAddr + 32 * i) 4
  let off := readNat s (q.bufAddr + 32 * i + 4) 4
  { tx := bit w 0, index := bits w 4 1, addr := readNat s (q.bufAddr + 32 * i + 16) 16, first := bits w 15 8, count := bits w 7 5 + 1,
    bytes := if bit w 16 then 3 else 2, packetNs := packetTime (bits w 18 17), offsetNs := (if off = 0 then 2000 else off) * 1000,
    held := [], due := none, packets := 0, missing := 0 }

/-- NET_SET_AES67 (R317, R382): the streams given replace those set. -/
def netSetAes67 (q : Req) (s : State) : Answer :=
  let es := (List.range (q.bufSize / 32)).map (aesEntry q s)
  let dir (t : Bool) : List Aes67 := es.filter (fun e => e.tx == t)
  let bad (e : Aes67) : Bool := decide (e.first < 128) || decide (192 < e.first + e.count) || decide (e.offsetNs < 250000) || decide (20000000 < e.offsetNs)
  let badDir (t : Bool) : Bool := decide (64 < ((dir t).map (·.count)).sum) || !((dir t).map (·.index)).Nodup
  if es.any bad || badDir true || badDir false || q.bufSize % 32 != 0 then no ST_BAD_ARG s
  else if !mediaDomainOk s (rd s AUD_AES67_CFG_domain.inForce) then no ST_AUD_DOMAIN s
  else did { s with net := { s.net with aes := es } }

/-- NET_SET_AES67. -/
def execNetSetAes67 (k : Fin 32) (s : State) : Out := done (serve Op.NET_SET_AES67 k netSetAes67 s)

/-- AES67_PACKET_RX (R382): a packet of receive stream `i` whose first sample was taken at device time `t`, its frames as left-justified
32-bit samples. One that comes after its time to leave the buffer is as good as missing. -/
def execAes67PacketRx (i : Fin 16) (t : BitVec 64) (frames : List (List (BitVec 32))) (s : State) : Out :=
  match s.net.aes.find? (fun a => !a.tx && a.index == i.val) with
  | none => .next s
  | some a =>
    let l := t.toNat + a.offsetNs
    if l < s.devTime ∨ domainOn s 6 = false then .next s
    else
      let b := { a with held := a.held ++ [(l, frames.map (fun f => f.map (fun v => sgn 32 v.toNat)))], due := some (a.due.getD l) }
      .next { s with net := { s.net with aes := s.net.aes.map (fun x => if !x.tx && x.index == i.val then b else x) } }

end Sys2Proof.Machine
end

