-- ==== Sys2Proof/Machine/Ecdsa.lean ====
section
/-! DEFINITION. ECDSA signature verification on the curve P-256 (FIPS 186-4), which R416 asks of a manifest. -/
namespace Sys2Proof.Machine

/-- The field prime, the group order, and the generator of P-256. -/
def p256P : Nat := 0xffffffff00000001000000000000000000000000ffffffffffffffffffffffff
def p256N : Nat := 0xffffffff00000000ffffffffffffffffbce6faada7179e84f3b9cac2fc632551
def p256B : Nat := 0x5ac635d8aa3a93e7b3ebbd55769886bc651d06b0cc53b0f63bce3c3e27d2604b
def p256G : Nat × Nat := (0x6b17d1f2e12c4247f8bce6e563a440f277037d812deb33a0f4a13945d898c296,
  0x4fe342e2fe1a7f9b8ee7eb4a7c0f9e162bce33576b315ececbb6406837bf51f5)

/-- A power modulo `m`, by the low `k` bits of the exponent. -/
def powMod (m : Nat) : Nat → Nat → Nat → Nat
  | 0, _, _ => 1 % m
  | k + 1, a, e => (if e % 2 = 1 then a else 1) * powMod m k (a * a % m) (e / 2) % m

/-- The inverse modulo a prime below `2^256`. -/
def invMod (m a : Nat) : Nat := powMod m 256 a (m - 2)

/-- A difference modulo `m` of numbers below it. -/
def subMod (m a b : Nat) : Nat := (a + m - b) % m

/-- A point of the curve; `none` is the point at infinity. -/
abbrev Point := Option (Nat × Nat)

/-- The sum of two points. -/
def addPoint (a b : Point) : Point :=
  match a, b with
  | none, b => b
  | a, none => a
  | some (x1, y1), some (x2, y2) =>
    if x1 = x2 ∧ (y1 + y2) % p256P = 0 then none
    else
      let l := if x1 = x2 then (3 * x1 * x1 + (p256P - 3)) % p256P * invMod p256P (2 * y1 % p256P) % p256P
        else subMod p256P y2 y1 * invMod p256P (subMod p256P x2 x1) % p256P
      let x3 := subMod p256P (l * l % p256P) ((x1 + x2) % p256P)
      some (x3, subMod p256P (l * subMod p256P x1 x3 % p256P) y1)

/-- A multiple of a point, by the low `k` bits of the factor. -/
def mulPoint : Nat → Nat → Point → Point
  | 0, _, _ => none
  | k + 1, n, a => addPoint (if n % 2 = 1 then a else none) (mulPoint k (n / 2) (addPoint a a))

/-- A point on the curve. -/
def onCurve (x y : Nat) : Bool :=
  decide (x < p256P) && decide (y < p256P) && (x * x * x + (p256P - 3) * x + p256B) % p256P == y * y % p256P

/-- A big-endian number. -/
def beNat (bs : List Nat) : Nat := leNat bs.reverse

/-- Whether a 64-byte signature `sig` (r, then s) of a 32-byte digest verifies under the 64-byte public key `pub` (X, then Y), all big-endian
(Table CRP-5). -/
def ecdsaVerifies (pub sig digest : List Nat) : Bool :=
  let x := beNat (pub.take 32)
  let y := beNat ((pub.drop 32).take 32)
  let r := beNat (sig.take 32)
  let s := beNat ((sig.drop 32).take 32)
  let w := invMod p256N s
  let z := beNat digest
  onCurve x y && decide (0 < r) && decide (r < p256N) && decide (0 < s) && decide (s < p256N) &&
    (match addPoint (mulPoint 256 (z * w % p256N) (some p256G)) (mulPoint 256 (r * w % p256N) (some (x, y))) with
     | some (vx, _) => vx % p256N == r
     | none => false)

end Sys2Proof.Machine
end

