-- ==== Sys2Proof/Machine/CodecState.lean ====
section
/-! DEFINITION. The codec's sessions as the rest of the device sees them: descriptors (Table VCD-2), status and event bits (Table VCD-5),
what the compositor and the dike watch hand to encode sessions (R194, R299, R306), and closing (Table VCD-7). -/
namespace Sys2Proof.Machine

/-- An open session. -/
def ses (s : State) (k : Nat) : Option VcdSes := Tab.get none s.vcd.sess k

/-- The polder that holds a session. -/
def sesPolder (s : State) (k : Nat) : Nat := grantee s 3 k

/-! ## Descriptors (Table VCD-2) -/

/-- Word `i` of a session's descriptor. -/
def VcdSes.word (v : VcdSes) (i : Nat) : Nat := v.desc.getD i 0

def VcdSes.encode (v : VcdSes) : Bool := bit (v.word 0) 6
def VcdSes.codec (v : VcdSes) : Nat := bits (v.word 0) 9 8
def VcdSes.depth10 (v : VcdSes) : Bool := bit (v.word 0) 10
def VcdSes.pictures (v : VcdSes) : Nat := bits (v.word 0) 15 11
def VcdSes.output (v : VcdSes) : Nat := bits (v.word 0) 18 16
def VcdSes.writeBack (v : VcdSes) : Bool := v.encode && bit (v.word 0) 19
def VcdSes.subframe (v : VcdSes) : Bool := bit (v.word 0) 20
def VcdSes.fwd (v : VcdSes) : Bool := bit (v.word 0) 21
def VcdSes.recAttest (v : VcdSes) : Bool := bit (v.word 0) 22
def VcdSes.present (v : VcdSes) : Bool := bit (v.word 0) 23
def VcdSes.width (v : VcdSes) : Nat := bits (v.word 1) 13 0
def VcdSes.height (v : VcdSes) : Nat := bits (v.word 1) 29 16
def VcdSes.rate (v : VcdSes) : Nat := bits (v.word 2) 19 0
def VcdSes.base (v : VcdSes) : Nat := (v.word 3 + 4294967296 * v.word 4) % 2 ^ 40
def VcdSes.divisor (v : VcdSes) : Nat := bits (v.word 8) 19 16

/-- R284: a session's load in thousandths of a luma sample per second. -/
def VcdSes.load (v : VcdSes) : Nat := v.width * v.height * v.rate

/-- The sum of the loads of the open sessions of one direction. -/
def loadSum (s : State) (encode : Bool) : Nat :=
  ((s.vcd.sess.filterMap (fun e => e.2)).filter (fun v => v.encode == encode)).foldl (fun a v => a + v.load) 0

/-! ## Status and events (Table VCD-5) -/

/-- VCD_SESs_STAT.state. -/
def sesState (v : Option VcdSes) : Nat :=
  match v with
  | none => 0
  | some v => if v.stopped then 3 else if v.pics.isEmpty then 1 else 2

/-- A session given a new value, its status register with it. -/
def setSes (k : Nat) (v : Option VcdSes) (s : State) : State :=
  let q := match v with | some v => v.queue.length | none => 0
  let c := match v with | some v => min 255 v.concealed | none => 0
  let kp := match v with | some v => v.keyPend | none => false
  { s with vcd := { s.vcd with sess := s.vcd.sess.put k v } } |> wr (VCD_SES_STAT_state k) (sesState v) |> wr (VCD_SES_STAT_queued k) q
    |> wr (VCD_SES_STAT_concealed k) c |> wrB (VCD_SES_STAT_key_pending k) kp

/-- A bit of VCD_SESs_EVENT set, and the session's line with it. -/
def sesEvent (k : Nat) (f : Nat → Fld) (s : State) : State := s |> wr (f k) 1 |> raiseLine (sesPolder s k) (40 + k % 4)

/-- VCD_SESSION_EVENT to the session's polder: 1 fault, 2 lost, 3 key request sent, 4 ring full. -/
def sesNotify (k kind : Nat) (s : State) : State := notifyPolder (sesPolder s k) Op.VCD_SESSION_EVENT [k + 256 * kind] s

/-! ## What encode sessions take from an output -/

/-- A change to every open session that takes an output's write-back. -/
def mapSource (n : Nat) (f : VcdSes → VcdSes) (s : State) : State :=
  { s with vcd := { s.vcd with sess := s.vcd.sess.map (fun e =>
      (e.1, e.2.map (fun v => if v.writeBack && !v.stopped && v.output == n then f v else v))) } }

/-- A picture that begins, with nothing done. -/
def VcdPic.begin (number frame born : Nat) (time : Option Nat) (luma units : Nat) : VcdPic :=
  { number := number, frame := frame, born := born, time := time, pool := 0, luma := luma, units := units, next := 0, again := [],
    running := [], finished := 0, cycles := 0, key := false, concealed := false, lost := false, spent := 0, qpFirst := 0, qpLast := 0,
    overRow := none, skipped := [], starved := [], source := [], dropping := false, txDropped := false }

/-- R194, R299: band-complete for a frame of `lines` lines. The first band of a frame that the divisor takes begins its picture. -/
def VcdSes.band (v : VcdSes) (f b lines now : Nat) (dropped : Bool) : VcdSes :=
  let first := v.first.getD f
  let v1 := { v with first := some first }
  if (f - first) % max 1 v.divisor ≠ 0 then v1
  else if v1.pics.any (fun p => p.frame == f) then { v1 with bands := v1.bands ++ [(f, b, dropped)] }
  else { v1 with bands := v1.bands ++ [(f, b, dropped)],
                 pics := v1.pics ++ [VcdPic.begin 0 f now none (v.width * lines) (ceilDiv lines 64)] }

/-- R194: band-complete raised to the sessions bound to an output's write-back. -/
def sesBand (n f b lines : Nat) (dropped : Bool) (s : State) : State :=
  (s.vcd.sess.filter (fun e => match e.2 with | some v => v.writeBack && v.output == n | none => false)).foldl
    (fun s e => setSes e.1 (ses s e.1) s) (mapSource n (fun v => v.band f b lines s.now dropped) s)

/-- R299: the FLIP of a frame gives its picture its time. -/
def sesFlip (n f t : Nat) (s : State) : State :=
  mapSource n (fun v => { v with pics := v.pics.map (fun p => if p.frame == f && p.number == 0 then { p with time := some t } else p) }) s

/-- R226, R306: a copy of an attestation record for the recording container. -/
def sesRecord (n f t : Nat) (bytes : List Nat) (s : State) : State :=
  mapSource n (fun v => if v.recAttest then { v with records := v.records ++ [(f, t, bytes)] } else v) s

/-! ## Closing (VCD_CLOSE) -/

/-- A slot holds an entry of a session. -/
def sesHolds (s : State) (k : Nat) : Bool :=
  s.dsp.slots.any (fun e => (e.2.inUse.toList ++ e.2.pending).any (fun x => x.origin == 1 + k))

/-- A session closed. -/
def sesClosed (k : Nat) (s : State) : State :=
  let s1 := s |> setSes k none |> wr (VCD_SES_STAT_starved k) 0 |> wr (VCD_SES_STAT_grain k) 0
  s1 |> wr VCD_LOAD_DEC_samples (loadSum s1 false / 1000) |> wr VCD_LOAD_ENC_samples (loadSum s1 true / 1000)

/-- The closing of the sessions whose work has stopped and whose entries are released. -/
def sesCloseDue (s : State) : State :=
  s.vcd.sess.foldl (fun s e =>
    match ses s e.1 with
    | some v =>
      (match v.closing with
       | some j => if v.pics.all (fun p => p.running.isEmpty) && !sesHolds s e.1 then reply j ST_OK [] (sesClosed e.1 s) else s
       | none => s)
    | none => s) s

end Sys2Proof.Machine
end

