-- ==== Sys2Proof/Machine/DikeCheck.lean ====
section
/-! DEFINITION. The dike watch's configuration checks (spec/08_dike_watch.md): treatment images (R213), Table DKW-9 with R201, R203,
R207, R208, R210, R211 and R218. Each reads the state as it will stand with the commit applied. -/
namespace Sys2Proof.Machine

/-! ## Treatment images (R213) -/

/-- An image of the table. -/
structure Image where
  addr : Nat
  w : Nat
  h : Nat
  format : Nat
  stride : Nat
  deriving DecidableEq, Repr

/-- Entry `i` of the image table. -/
def image (s : State) (i : Nat) : Image :=
  ⟨rdA s (DKW_IMG_ADDR_addr i), rd s (DKW_IMG_SIZE_w i), rd s (DKW_IMG_SIZE_h i), rd s (DKW_IMG_FMT_format i), rd s (DKW_IMG_FMT_stride i)⟩

/-- Bytes per pixel of an RGB format. -/
def bppOf (f : Nat) : Nat := match formatOf f with | some x => x.bpp0 | none => 0

/-- The bytes an image occupies. -/
def Image.size (im : Image) : Nat := (im.h - 1) * im.stride + im.w * bppOf im.format

/-- A page of K0 that is valid and secure. -/
def secureK0 (s : State) (a : Nat) : Bool := inOcm a && decide (ocmPage a < 2048) && pageSecure s a

/-- A range that lies wholly in pages of K0 that are valid and secure. -/
def rangeSecureK0 (s : State) (a n : Nat) : Bool := (pageStarts a n).all (secureK0 s)

/-- R213: a valid image: of an RGB format, its pitch a multiple of 64 that holds a row, and in secure pages of K0. -/
def Image.valid (im : Image) (s : State) : Bool :=
  decide (1 ≤ im.w) && decide (im.w ≤ 8192) && decide (1 ≤ im.h) && decide (im.h ≤ 8192) && fmtRgb im.format && im.stride % 64 == 0 &&
    decide (im.w * bppOf im.format ≤ im.stride) && rangeSecureK0 s im.addr im.size

/-! ## Settings of slots and regions -/

def liveClass (s : State) (m : Nat) : Nat := rd s (DKW_SLOT_CLASS_class m).inForce
def treatment (s : State) (m : Nat) : Nat := rd s (DKW_SLOT_CLASS_treatment m).inForce
def frozenN (s : State) (m : Nat) : Nat := rd s (DKW_SLOT_CLASS_frozen_n m).inForce

/-- A region's rectangle. -/
def regionRect (s : State) (n r : Nat) : Rect :=
  let x := rd s (DKW_OUT_REG_XY_x n r).inForce
  let y := rd s (DKW_OUT_REG_XY_y n r).inForce
  ⟨x, y, x + rd s (DKW_OUT_REG_WH_w n r).inForce, y + rd s (DKW_OUT_REG_WH_h n r).inForce⟩

def regionOn (s : State) (n r : Nat) : Bool := rdB s (DKW_OUT_REG_CTRL_enable n r).inForce
def regionSource (s : State) (n r : Nat) : Nat := rd s (DKW_OUT_REG_CTRL_source n r).inForce
def regionAction (s : State) (n r : Nat) : Nat := rd s (DKW_OUT_REG_CTRL_action n r).inForce
def regionSlot (s : State) (n r : Nat) : Nat := rd s (DKW_OUT_REG_CTRL_slot n r).inForce

/-- The regions enabled on an output. -/
def regionsOn (s : State) (n : Nat) : List Nat := idxWhere 16 (regionOn s n)

/-- A mode is set on the output: its timing runs, or is about to (Table SCN-4 step 3). -/
def modeSet (s : State) (n : Nat) : Bool := running s n || (out s n).configured

/-! ## Table DKW-9 -/

/-- Order 1 on a slot. -/
def slotFieldsOk (s : State) (m : Nat) : Bool :=
  let g (f : Fld) : Nat := rd s f.inForce
  let age := g (DKW_SLOT_MAXAGE_us m)
  let hb := g (DKW_SLOT_HBPERIOD_us m)
  let w := g (DKW_SLOT_MOTION_WH_w m)
  let h := g (DKW_SLOT_MOTION_WH_h m)
  liveClass s m != 3 && treatment s m != 3 && frozenN s m != 1 && (liveClass s m != 2 || slotOwner s m == 0) &&
    (age == 0 || (decide (1000 ≤ age) && decide (age ≤ 60000000))) && decide (1000 ≤ hb) && decide (hb ≤ 10000000) &&
    decide (g (DKW_SLOT_MOTION_XY_x m) + w ≤ 8192) && decide (g (DKW_SLOT_MOTION_XY_y m) + h ≤ 8192) &&
    (frozenN s m == 0 ||
      (decide (1 ≤ w) && decide (1 ≤ h) && decide (w * h ≤ 65536) && (layerOf s m).format != fmtSolid))

/-- Order 1 on a region. -/
def regionFieldsOk (s : State) (n r : Nat) : Bool :=
  let w := rd s (DKW_OUT_REG_WH_w n r).inForce
  let h := rd s (DKW_OUT_REG_WH_h n r).inForce
  regionSource s n r != 3 && regionAction s n r != 3 &&
    (!regionOn s n r || (decide (1 ≤ w) && decide (w ≤ 8192) && decide (1 ≤ h) && decide (h ≤ 8192)))

/-- Order 2. -/
def regionPlaceOk (s : State) (n r : Nat) : Bool :=
  let m := regionSlot s n r
  (!modeSet s n || (activeArea s n).covers (regionRect s n r)) && liveClass s m == 2 && slotActive s m && placedOn s m == n

/-- Order 3 (R203): no buffer of a SUPERVISED slot lies in the outbound window. -/
def sourceOk (s : State) (m : Nat) : Bool :=
  liveClass s m != 2 ||
    ((slot s m).inUse.toList ++ (slot s m).pending).all (fun e =>
      (spansOf (layerOf s m) e.buf0 e.buf1).all (fun r => !inOutbound r.1 && !inOutbound r.2))

/-- Order 4: an image a slot or a region refers to, scaled to a slot's destination where it is substituted. -/
def imageOk (s : State) (i : Nat) (scaledTo : Option Nat) : Bool :=
  let im := image s i
  im.valid s &&
    (match scaledTo with
     | some m => ratioOk im.w (layerOf s m).dstW && ratioOk im.h (layerOf s m).dstH
     | none => true)

/-- Order 4 on a slot: a slot that is judged and whose treatment uses an image. -/
def slotImageOk (s : State) (m : Nat) : Bool :=
  liveClass s m == 0 || treatment s m == 0 ||
    imageOk s (rd s (DKW_SLOT_CLASS_image m).inForce) (if treatment s m = 2 then some m else none)

/-- Order 4 on a region. -/
def regionImageOk (s : State) (n r : Nat) : Bool :=
  regionAction s n r != 1 || imageOk s (rd s (DKW_OUT_REG_CTRL_image n r).inForce) (some (regionSlot s n r))

/-- R218 on an AUTO region. -/
def autoOk (s : State) (n r : Nat) : Bool :=
  let l := layerOf s (regionSlot s n r)
  let rc := regionRect s n r
  fmtRgb l.format && !l.fastClear && l.srcW == l.dstW && l.srcH == l.dstH &&
    (l.alphaMode == 2 || ((l.format == 3 || l.format == 4) && l.alpha == 4095)) && l.window.covers rc &&
    (activeLayers s n).all (fun k => decide (k.z ≤ l.z) || (k.window.inter rc).empty) && decide (rc.area ≤ 1048576)

/-- The enabled AUTO regions of an output. -/
def autoRegions (s : State) (n : Nat) : List Nat := (regionsOn s n).filter (fun r => regionSource s n r == 1)

/-- Order 5. -/
def autosOk (s : State) (n : Nat) : Bool :=
  (autoRegions s n).all (autoOk s n) && decide (((autoRegions s n).map (fun r => (regionRect s n r).area)).sum ≤ 4194304) &&
    decide ((idxWhere 64 (fun m => frozenN s m != 0)).length ≤ 16)

/-- R202: Table DKW-9, in order, on an output. -/
def dikeChecks (s : State) (n : Nat) : Option Nat :=
  let ms := slotsOn s n
  if !(ms.all (slotFieldsOk s) && (List.range 16).all (regionFieldsOk s n)) then some ST_BAD_ARG
  else if !(regionsOn s n).all (regionPlaceOk s n) then some ST_DKW_REGION
  else if !ms.all (sourceOk s) then some ST_DKW_SOURCE
  else if !(ms.all (slotImageOk s) && (regionsOn s n).all (regionImageOk s n)) then some ST_DKW_IMAGE
  else if !autosOk s n then some ST_DKW_AUTO
  else none

end Sys2Proof.Machine
end

