-- ==== Sys2Proof/Machine/Commits.lean ====
section
/-! DEFINITION. Flips and commits (spec/06_layers_and_commits.md): the pending queue (R153, R154), release (R158), the commit unit
(R159 to R162, R202), acceptance and application (R164, R165, R172, R209, R211, R219), Tujan's internal commits, and the disabling of a
resetting polder's slots (Table POL-7 step 3). -/
namespace Sys2Proof.Machine

/-- Table CRP-8 step 3: every party has acknowledged a power transition, and what it powers down takes no more work. -/
def quietening (s : State) : Bool :=
  rd s CRP_STATUS_power_state == 2 && (match s.pwr.trans with | some t => t.acked.isSome | none => false)

/-- Doorbells of a polder are refused (R97, R113): while it is resetting, and for a polder at location 3 while the link is down. -/
def refuses (s : State) (p : Nat) : Bool := polState s p == 2 || (p != 0 && polLocation s p == 3 && !s.pci.linkUp)

/-! ## Slot status -/

/-- LSTAT of a slot brought up to date with its buffers and its enable. -/
def slotStatus (m : Nat) (s : State) : State :=
  let v := slot s m
  s |> wr (CMP_LAYER_LSTAT_in_use_seq m) (match v.inUse with | some e => e.seq | none => 0)
    |> wrB (CMP_LAYER_LSTAT_has_buffer m) v.inUse.isSome |> wr (CMP_LAYER_LSTAT_pending m) v.pending.length
    |> wrB (CMP_LAYER_LSTAT_active m) (slotActive s m)

/-- R158: entries released from a slot, oldest first. -/
def released (m : Nat) (es : List Entry) (s : State) : State :=
  match es.getLast? with
  | none => s
  | some e =>
    s |> setSlot m { slot s m with released := (slot s m).released ++ es.map (fun e => e.seq) }
      |> wr (CMP_LAYER_LSTAT_released_seq m) e.seq |> raiseLine (slotOwner s m) 19 |> sesCloseDue

/-- R172: the buffer in use and every pending entry of a slot released. -/
def releaseAll (m : Nat) (s : State) : State :=
  let v := slot s m
  s |> setSlot m { v with inUse := none, pending := [], picked := false } |> released m (v.inUse.toList ++ v.pending) |> slotStatus m

/-! ## Flips (R153 to R155) -/

/-- A word write to a doorbell register at offset `off` of polder `p`'s page. -/
def atDoorbell (addr off : Nat) : Bool := isPage addr && pageOff addr == off

/-- CMP_FLIP_PUSH (R154): the staged entry waits for validation. A slot the polder does not hold is refused under R147. -/
def flipPush (addr v : Nat) (c : Carried) (s : State) : State :=
  let p := pageOf addr
  let m := v % 64
  if slotOwner s m ≠ p then violateAt c 2 addr v s
  else
    let e : Entry :=
      { seq := 0, buf0 := rdA s (CMP_FLIP_BUF0_addr p), buf1 := rdA s (CMP_FLIP_BUF1_addr p), fence := rdA s (CMP_FLIP_FENCE_addr p),
        target := rd s (CMP_FLIP_TARGET_target p), time := rd s (CMP_FLIP_TIME_time p), accepted := s.now, stamp := none,
        concealed := false, origin := 0, tag := 0, checked := [] }
    { (s |> wr (CMP_FLIP_STATUS_status p) ST_PENDING |> wr (CMP_FLIP_STATUS_slot p) m |> wr (CMP_FLIP_STATUS_seq p) 0) with
      dsp := { s.dsp with flips := s.dsp.flips ++ [⟨p, m, e⟩] } }

/-- CMP_FLIP_PUSH (R154). -/
def execCmpFlipPush (a : Access) (addr : BitVec 40) (v : BitVec 32) (s : State) : Out :=
  regWrite a addr.toNat v.toNat (atDoorbell addr.toNat 0xC28) (flipPush addr.toNat v.toNat) s

/-- R154: whether an entry's addresses are aligned as its configuration needs. A fence address has no low bits. -/
def flipAligned (l : Layer) (e : Entry) : Bool :=
  (match formatOf l.format with
   | some f => (f.planes == 0 || e.buf0 % 64 == 0) && ((f.planes != 2 && !(l.fastClear && fmtRgb l.format)) || e.buf1 % 64 == 0)
   | none => true)

/-- R203: a flip to a SUPERVISED slot from the outbound window. -/
def flipSourceOk (s : State) (l : Layer) (e : Entry) : Bool :=
  liveClass s l.slot != 2 || (spansOf l e.buf0 e.buf1).all (fun r => !inOutbound r.1 && !inOutbound r.2)

/-- R154: the outcome of a flip, in the order the rule gives. -/
def flipOutcome (s : State) (p m : Nat) (e : Entry) : Nat :=
  let sp := projected s
  let l := layerOf sp m
  if 4 ≤ (slot s m).pending.length then ST_QUEUE_FULL
  else if refuses s p then ST_BUSY
  else if !flipAligned l e then ST_BAD_ARG
  else if !(entryOwned s p l e && flipSourceOk sp l e) then ST_BAD_ADDR
  else ST_OK

/-- R154, R206: an entry queued to a slot, with the slot's next sequence number. -/
def enqueue (m : Nat) (e : Entry) (s : State) : State :=
  let q := rd s (CMP_LAYER_LSTAT_next_seq m)
  let e1 := { e with seq := q, accepted := s.now, checked := entrySpans (layerOf (projected s) m) e,
                     stamp := match e.stamp with | some t => some t | none => if e.fence = 0 then some s.devTime else none }
  s |> setSlot m { slot s m with pending := (slot s m).pending ++ [e1] } |> wr (CMP_LAYER_LSTAT_next_seq m) (q + 1) |> slotStatus m

/-- FLIP_VALIDATE (R154, R160): the validation of a polder's oldest waiting flip completes. -/
def execFlipValidate (p : Fin 32) (s : State) : Out :=
  match s.dsp.flips.find? (fun j => j.polder == p.val) with
  | none => .next s
  | some j =>
    let st := flipOutcome s p j.slot j.entry
    let q := rd s (CMP_LAYER_LSTAT_next_seq j.slot)
    let rest := s.dsp.flips.erase j
    let s1 := { s with dsp := { s.dsp with flips := rest } }
    let s2 := if st = ST_OK then enqueue j.slot j.entry s1
      else record0 Src.CMP_FLIP_REJECTED (some p.val) [j.slot, st] s1
    let s3 := if rest.any (fun k => k.polder == p.val) then s2
      else s2 |> wr (CMP_FLIP_STATUS_status p) st |> wr (CMP_FLIP_STATUS_seq p) (if st = ST_OK then q else 0)
    done s3

/-- LAYER_HEARTBEAT (R171, R208). -/
def execLayerHeartbeat (a : Access) (addr : BitVec 40) (v : BitVec 32) (s : State) : Out :=
  let m := pageOff addr.toNat / 0x30
  regWrite a addr.toNat v.toNat (isPage addr.toNat && decide (pageOff addr.toNat < 0xC00) && pageOff addr.toNat % 0x30 == 0x20)
    (fun c s => if slotOwner s m ≠ pageOf addr.toNat then violateAt c 2 addr.toNat v.toNat s
      else { setSlot m { slot s m with beat := s.devTime } s with pwr := { s.pwr with splash := s.pwr.splash.filter (fun n => 56 + n != m) } }) s

/-! ## Commit status (R173) -/

/-- What a polder reads of its commit: in CMP_COMMIT_STATUS and CMP_COMMIT_FRAME while it is the last, and in its log entry until the
eighth later doorbell. -/
def commitStatus (c : Commit) (status state : Nat) (at_ : Option Nat) (frame : Nat) (s : State) : State :=
  match c.polder with
  | none => s
  | some p =>
    let later := (rd s (CMP_COMMIT_COUNT_count p) + 4294967296 - c.count) % 4294967296
    let m := at_.getD 0
    let i := c.count % 8
    let s1 := if later = 1 then
        s |> wr (CMP_COMMIT_STATUS_status p) status |> wr (CMP_COMMIT_STATUS_state p) state |> wr (CMP_COMMIT_STATUS_output p) c.output
          |> wr (CMP_COMMIT_STATUS_slot p) m |> wrB (CMP_COMMIT_STATUS_slot_valid p) at_.isSome |> wr (CMP_COMMIT_ID_id p) c.id
          |> wr (CMP_COMMIT_FRAME_frame p) frame
      else s
    if later ≤ 8 then
      s1 |> wr (CMP_COMMIT_LOG_ID_id p i) c.id |> wr (CMP_COMMIT_LOG_ID_output p i) c.output |> wr (CMP_COMMIT_LOG_ID_state p i) state
        |> wr (CMP_COMMIT_LOG_STATUS_status p i) status |> wr (CMP_COMMIT_LOG_STATUS_slot p i) m
        |> wrB (CMP_COMMIT_LOG_STATUS_slot_valid p i) at_.isSome |> wr (CMP_COMMIT_LOG_FRAME_frame p i) frame
    else s1

/-- The accepted commits of an output (R161). -/
def queuedOn (s : State) (n : Nat) : List Commit := s.dsp.queue.filter (fun c => c.output == n)

/-- The commit queue replaced; CMP_OUTn_QUEUE follows it. -/
def setQueue (q : List Commit) (s : State) : State :=
  (List.range 8).foldl (fun s n => wr (CMP_OUT_QUEUE_count n) (q.filter (fun c => c.output == n)).length s)
    { s with dsp := { s.dsp with queue := q } }

/-! ## Application (R165) -/

/-- R172, R209, R211: what a change of a slot's fields in force brings with it, given the state before. -/
def slotChanged (old : State) (m : Nat) (s : State) : State :=
  let on := slotActive s m
  let motion (t : State) : List Nat := [frozenN t m, rd t (DKW_SLOT_MOTION_XY_x m).inForce, rd t (DKW_SLOT_MOTION_XY_y m).inForce,
    rd t (DKW_SLOT_MOTION_WH_w m).inForce, rd t (DKW_SLOT_MOTION_WH_h m).inForce]
  let s1 := if slotActive old m && !on then releaseAll m s else slotStatus m s
  let s2 := if on && liveClass s m != 0 && (!slotActive old m || liveClass old m != liveClass s m) then
      setSlot m { slot s1 m with beat := s1.devTime } s1
    else s1
  if motion old ≠ motion s then
    s2 |> setSlot m { slot s2 m with sig := none, reading := none } |> wr (DKW_SLOT_STATE_run m) 0
  else s2

/-- R219: what a change of a region's fields in force brings with it. -/
def regionChanged (old : State) (n r : Nat) (s : State) : State :=
  let key (t : State) : List Nat := [rd t (DKW_OUT_REG_XY_x n r).inForce, rd t (DKW_OUT_REG_XY_y n r).inForce,
    rd t (DKW_OUT_REG_WH_w n r).inForce, rd t (DKW_OUT_REG_WH_h n r).inForce, regionSlot t n r]
  let learns (t : State) : Bool := regionOn t n r && regionSource t n r == 2
  if learns s && (!learns old || key old != key s) then putRegion n r { region s n r with learning := true } s else s

/-- R192: the pool entries Tujan reserves for an output. -/
def poolReservation (s : State) (n : Nat) : Nat :=
  if modeSet s n then tilesPerBand s n * (lookahead s n / 16 + 2) else 0

/-- What follows from values in force that have just changed on an output. -/
def configChanged (old : State) (n : Nat) (s : State) : State :=
  let s1 := (List.range 64).foldl (fun s m => slotChanged old m s) s
  let s2 := if n < 8 then (List.range 16).foldl (fun s r => regionChanged old n r s) s1 else s1
  (List.range 8).foldl (fun s k => s |> wr (CMP_OUT_FETCH_DEMAND_bursts k) (demandOf s k).1
    |> wr (CMP_OUT_PIX_DEMAND_pixels k) (demandOf s k).2 |> wr (CMP_OUT_POOL_reserved k) (poolReservation s k)) s2

/-- R421: Tujan stops keeping the heartbeat of a splash slot that a commit of polder 0 has changed. -/
def splashAfter (c : Commit) (old s : State) : State :=
  let same (n : Nat) : Bool := (contentFlds (56 + n) ++ placeFlds (56 + n) ++ classFlds (56 + n)).all (fun f => rd old f.inForce == rd s f.inForce)
  if c.polder = some 0 then { s with pwr := { s.pwr with splash := s.pwr.splash.filter same } } else s

/-- R165: a commit applied in a frame. -/
def applyCommit (frame : Nat) (c : Commit) (s : State) : State :=
  let n := c.output
  let s1 := splashAfter c s (configChanged s n (applyVals c.vals s))
  if 8 ≤ n then (match c.job with | some j => reply j ST_OK [freeVal 32 s1] (tookFree s1) | none => s1)
  else
    let s2 := s1 |> wr (CMP_OUT_IN_FORCE_id n) c.id |> wr (CMP_OUT_IN_FORCE_polder n) (c.polder.getD 0)
      |> wrB (CMP_OUT_IN_FORCE_device n) c.polder.isNone |> wr (CMP_OUT_IN_FORCE_valid n) 1 |> wr (CMP_OUT_APPLY_FRAME_frame n) frame
      |> commitStatus c ST_OK 2 none frame |> record0 Src.CMP_COMMIT_APPLIED c.polder [n, c.id, frame]
    let s3 := match c.polder with
      | some p => s2 |> wr (CMP_APPLIED_id p n) c.id |> wr (CMP_APPLIED_valid p n) 1 |> wr (CMP_APPLIED_FRAME_frame p n) frame
          |> raiseLine p 18
      | none => s2
    replyOpt c.job ST_OK [frame] s3

/-- R160, R164, R165: a commit that has passed its validation: queued, or applied at once when its output has no timing running. -/
def acceptCommit (c : Commit) (s : State) : State :=
  if c.output < 8 ∧ running s c.output then
    let c1 := { c with frame := effectFrame s c.output, accepted := s.now }
    s |> setQueue (s.dsp.queue ++ [c1]) |> commitStatus c1 ST_OK 1 none c1.frame
  else applyCommit (if c.output < 8 then frameCounter s c.output else 0) { c with accepted := s.now } s

/-! ## Validation (R160, R166, R202) -/

/-- The slots whose content or placement a commit carries and that are enabled with it applied. -/
def commitSlots (sp : State) (c : Commit) : List Nat :=
  idxWhere 64 (fun m => slotActive sp m &&
    c.vals.any (fun v => v.1 == (CMP_LAYER_CTRL_enable m).inForce.key || v.1 == (CMP_SLOT_PLACE_output m).inForce.key))

/-- The first check a commit fails, with the slot at fault. -/
def commitFault (s : State) (c : Commit) : Option (Nat × Option Nat) :=
  if 8 ≤ c.output then none
  else
    let sp := applyVals c.vals (projected s)
    match layerChecks sp c.output (commitSlots sp c) with
    | some f => some f
    | none => (dikeChecks sp c.output).map (fun st => (st, none))

/-- R167: the spans a commit has had checked need no check again. -/
def spansChecked (c : Commit) (s : State) : State :=
  let sp := applyVals c.vals (projected s)
  let mark (m : Nat) (e : Entry) : Entry := { e with checked := e.checked ++ entrySpans (layerOf sp m) e }
  (commitSlots sp c).foldl (fun s m =>
    setSlot m { slot s m with inUse := (slot s m).inUse.map (mark m), pending := (slot s m).pending.map (mark m) } s) s

/-- CMP_COMMIT (R159, R161, R162, R173): the doorbell snapshots what the commit covers. -/
def commitDoorbell (addr v : Nat) (_ : Carried) (s : State) : State :=
  let p := pageOf addr
  let n := bits v 18 16
  let sp := projected s
  let ms := idxWhere 64 (fun m => placedOn sp m == n)
  let vals := (ms.filter (fun m => slotOwner s m == p)).flatMap (fun m => snapshot s (contentFlds m)) ++
    (if p = 0 then ms.flatMap (fun m => snapshot s (classFlds m)) ++ (List.range 16).flatMap (fun r => snapshot s (regionFlds n r))
     else [])
  let c : Commit := ⟨bits v 15 0, some p, n, vals, rd s (CMP_COMMIT_COUNT_count p), 0, s.now, none⟩
  let s1 := incWrap (CMP_COMMIT_COUNT_count p) 1 s
  if refuses s p then commitStatus c ST_BUSY 3 none 0 s1
  else if 8 ≤ (queuedOn s n).length then commitStatus c ST_QUEUE_FULL 3 none 0 s1
  else
    let s2 := commitStatus c ST_PENDING 0 none 0 s1
    { s2 with dsp := { s2.dsp with waiting := s2.dsp.waiting ++ [c] } }

/-- CMP_COMMIT (R159). -/
def execCmpCommit (a : Access) (addr : BitVec 40) (v : BitVec 32) (s : State) : Out :=
  regWrite a addr.toNat v.toNat (atDoorbell addr.toNat 0xC40) (commitDoorbell addr.toNat v.toNat) s

/-- R160: a commit rejected whole. -/
def rejectCommit (c : Commit) (status : Nat) (at_ : Option Nat) (s : State) : State :=
  s |> commitStatus c status 3 at_ 0 |> record0 Src.CMP_COMMIT_REJECTED c.polder [c.output, c.id, status + 65536 * at_.getD 0]

/-- COMMIT_VALIDATE (R160): the commit unit validates the next commit. -/
def execCommitValidate (s : State) : Out :=
  match s.dsp.waiting with
  | [] => .next s
  | c :: rest =>
    let s1 := { s with dsp := { s.dsp with waiting := rest } }
    if 8 ≤ (queuedOn s c.output).length then .next (commitStatus c ST_QUEUE_FULL 3 none 0 s1)
    else match commitFault s1 c with
      | some (st, at_) => done (rejectCommit c st at_ s1)
      | none => done (acceptCommit c (spansChecked c s1))

/-! ## Internal commits (R159) -/

/-- Tujan's commit of field values on an output (8 for none), for a command: checked, answered ST_PENDING, and the shadow fields
written with the values. -/
def internalCommit (j : Job) (n : Nat) (fvs : List (Fld × Nat)) (s : State) : Answer :=
  let c : Commit := ⟨0, none, n, fvs.map (fun e => (e.1.inForce.key, e.2 % 2 ^ e.1.width)), 0, 0, s.now, some j⟩
  if n < 8 ∧ 8 ≤ (queuedOn s n).length then no ST_QUEUE_FULL s
  else match commitFault s c with
    | some (st, at_) => no st (rejectCommit c st at_ s)
    | none =>
      let s1 := fvs.foldl (fun s e => wr e.1 e.2 s) s
      pend s1 (fun s => acceptCommit c (spansChecked c s))

/-! ## A resetting polder's slots (R162, Table POL-7) -/

/-- R162: a polder's commits that have not been applied are cancelled. -/
def cancelCommits (p : Nat) (s : State) : State :=
  let mine (c : Commit) : Bool := c.polder == some p
  let gone := s.dsp.queue.filter mine ++ s.dsp.waiting.filter mine
  let s1 := setQueue (s.dsp.queue.filter (fun c => !mine c)) { s with dsp := { s.dsp with waiting := s.dsp.waiting.filter (fun c => !mine c) } }
  gone.foldl (fun s c => s |> commitStatus c ST_BUSY 3 none c.frame |> record0 Src.CMP_COMMIT_CANCELLED (some p) [c.output, c.id]) s1

/-- A polder's slots on an output disabled. -/
def disableSlots (p n : Nat) (s : State) : State :=
  let ms := (slotsOn s n).filter (fun m => slotActive s m && slotOwner s m == p)
  configChanged s n (ms.foldl (fun s m => wr (CMP_LAYER_CTRL_enable m).inForce 0 s) s)

/-- Q of Table POL-7: reached once running work has stopped and no output is still to be latched. -/
def reachQ (p : Nat) (s : State) : State :=
  match Tab.get none s.resets p with
  | some r => if r.q.isNone && r.aborted && r.outs.isEmpty then { s with resets := s.resets.put p (some { r with q := some s.now }) } else s
  | none => s

/-- Table POL-7 step 3 on an output, at its latch point or when its timing stops: the slots of every resetting polder are disabled. -/
def resetsAt (n : Nat) (s : State) : State :=
  (List.range 32).foldl (fun s p =>
    match Tab.get none s.resets p with
    | some r =>
      if r.outs.contains n then
        reachQ p (disableSlots p n { s with resets := s.resets.put p (some { r with outs := r.outs.filter (fun k => k != n) }) })
      else s
    | none => s) s

end Sys2Proof.Machine
end

