-- ==== Sys2Proof/Machine/Warden.lean ====
section
/-! DEFINITION. The warden: election, vacancy and handover (spec/02_warden_and_mailboxes.md, R48 to R56), and the device and
warden commands that read them. -/
namespace Sys2Proof.Machine

/-- The slots of OTP_WARDEN_ORDER (field 9), first priority first (R48). -/
def wardenSlots (s : State) : List Nat := [bits (otp s 9) 1 0, bits (otp s 9) 3 2, bits (otp s 9) 5 4]

/-- R49: a field that names one kind in two slots. -/
def wardenOrderInvalid (s : State) : Bool := !decide (((wardenSlots s).filter (· != 0)).Nodup)

/-- R48, R49: the candidate kinds in order of priority. -/
def wardenOrder (s : State) : List Nat :=
  if bits (otp s 9) 5 0 = 0 ∨ wardenOrderInvalid s = true then [1, 2, 3] else (wardenSlots s).filter (· != 0)

/-- WARDEN_GET word 3 (Table MBX-12). -/
def wardenWord (s : State) : Nat :=
  s.warden.kind + (match s.warden.handover with | some h => 4 + 8 * h.target | none => 0) + 32 * b2n s.warden.window.isSome

/-- The length of a claim window (Table MBX-9). -/
def claimWindow : Nat := 250000000

/-- How long an offer stands (Table MBX-10). -/
def offerTime : Nat := 1000000000

/-- Table MBX-9 step 4: WARDEN_CHANGED to every enabled party. -/
def wardenChanged (s : State) : State :=
  notifyAll Op.WARDEN_CHANGED [wardenWord s] { s with warden := { s.warden with changedAt := s.now } }

/-- Table MBX-9 step 3: every claim answered. -/
def answerClaims (winner : Nat) (cs : List Claim) (s : State) : State :=
  cs.foldl (fun s c => reply c.job (if c.kind = winner then ST_OK else ST_WARDEN_HELD) [] s) s

/-- The position taken by a kind; the window closes and the claims in it are forgotten. -/
def takePosition (kind : Nat) (s : State) : State :=
  wr CRP_STATUS_warden_kind kind { s with warden := { s.warden with kind := kind, window := none, claims := [], handover := none } }

/-- Steps 3 and 4 of Table MBX-9 for the claims of an open window. -/
def concludeWindow (winner : Nat) (s : State) : State :=
  wardenChanged (answerClaims winner s.warden.claims (takePosition winner s))

/-- The claim window closed at its end (Table MBX-9 steps 3 and 5). -/
def closeWindow (s : State) : State :=
  match (wardenOrder s).find? (fun k => s.warden.claims.any (fun c => c.kind == k)) with
  | some k => concludeWindow k s
  | none => { s with warden := { s.warden with window := none } }

/-- A window whose 250 ms have passed is closed before anything else is decided. -/
def closeOverdue (s : State) : State :=
  match s.warden.window with
  | some t => if t + claimWindow ≤ s.now then closeWindow s else s
  | none => s

/-- A claim window opened now. -/
def openWindow (s : State) : State := { s with warden := { s.warden with window := some s.now, claims := [] } }

/-- R52, R56: the position falls vacant; a pending handover is cancelled, with its final reply while the old warden's pair can
still receive. -/
def vacate (canReceive : Bool) (s : State) : State :=
  if s.warden.kind = 0 then s
  else
    let ho := s.warden.handover
    let s1 := wardenChanged (openWindow (takePosition 0 s))
    match ho with
    | some h => if canReceive then reply h.job ST_HANDOVER_LAPSED [] s1 else s1
    | none => s1

/-- R52: the position falls vacant if a kind holds it and has lost its link or session. -/
def vacateKind (kind : Nat) (s : State) : State := if s.warden.kind = kind then vacate false s else s

/-- WARDEN_CLAIM (R48, R50, R51). -/
def wardenClaim (r : Req) (s0 : State) : Answer :=
  let s := closeOverdue s0
  let kind := r.kind
  if kind ∉ wardenOrder s then no ST_NOT_CANDIDATE s
  else if s.warden.kind ≠ 0 then no ST_WARDEN_HELD s
  else if s.warden.window.isSome = true ∧ (wardenOrder s).head? ≠ some kind then
    pend { s with warden := { s.warden with claims := s.warden.claims ++ [⟨kind, r.job⟩] } } id
  else
    let cs := s.warden.claims
    ⟨ST_OK, [], takePosition kind s, fun s => wardenChanged (answerClaims kind cs s)⟩

/-- WARDEN_CLAIM. -/
def execWardenClaim (k : Fin 32) (s : State) : Out := done (serve Op.WARDEN_CLAIM k wardenClaim s)

/-- CLAIM_WINDOW_CLOSE (R51): 250 ms after the window opened. -/
def execClaimWindowClose (s : State) : Out :=
  match s.warden.window with
  | some t => done (closeWindow (advanceTo (t + claimWindow) s))
  | none => .next s

/-- The handover lapses (Table MBX-10 step 5). -/
def lapse (s : State) : State :=
  match s.warden.handover with
  | some h => reply h.job ST_HANDOVER_LAPSED [] { s with warden := { s.warden with handover := none } }
  | none => s

/-- A handover whose second has passed has lapsed. -/
def lapseOverdue (s : State) : State :=
  match s.warden.handover with
  | some h => if h.start + offerTime ≤ s.now then lapse s else s
  | none => s

/-- WARDEN_HANDOVER (Table MBX-10, R54). -/
def wardenHandover (r : Req) (s0 : State) : Answer :=
  let s := lapseOverdue s0
  let target := bits (r.w 2) 1 0
  if target = s.warden.kind ∨ target ∉ wardenOrder s then no ST_BAD_ARG s
  else if s.warden.handover.isSome then no ST_BUSY s
  else pend { s with warden := { s.warden with handover := some ⟨target, s.now, r.job⟩ } }
    (notifyAck (kindPair target) Op.WARDEN_OFFER [s.warden.kind])

/-- WARDEN_HANDOVER. -/
def execWardenHandover (k : Fin 32) (s : State) : Out := done (serve Op.WARDEN_HANDOVER k wardenHandover s)

/-- WARDEN_ACCEPT (Table MBX-10 step 4, R55). -/
def wardenAccept (r : Req) (s0 : State) : Answer :=
  let s := lapseOverdue s0
  match s.warden.handover with
  | some h =>
    if h.target = r.kind then
      ⟨ST_OK, [], takePosition h.target s, fun s => wardenChanged (reply h.job ST_OK [] s)⟩
    else no ST_NO_HANDOVER s
  | none => no ST_NO_HANDOVER s

/-- WARDEN_ACCEPT. -/
def execWardenAccept (k : Fin 32) (s : State) : Out := done (serve Op.WARDEN_ACCEPT k wardenAccept s)

/-- HANDOVER_LAPSE (R54): one second after the handover arrived. -/
def execHandoverLapse (s : State) : Out :=
  match s.warden.handover with
  | some h => done (lapse (advanceTo (h.start + offerTime) s))
  | none => .next s

/-- WARDEN_RELEASE (R52). -/
def wardenRelease (_ : Req) (s : State) : Answer := ⟨ST_OK, [], s, vacate true⟩

/-- WARDEN_RELEASE. -/
def execWardenRelease (k : Fin 32) (s : State) : Out := done (serve Op.WARDEN_RELEASE k wardenRelease s)

/-- WARDEN_GET (Table MBX-12). -/
def wardenGet (_ : Req) (s : State) : Answer := okR [wardenWord s, (s.now - s.warden.changedAt) / 1000000] s

/-- WARDEN_GET. -/
def execWardenGet (k : Fin 32) (s : State) : Out := done (serve Op.WARDEN_GET k wardenGet s)

/-- DEV_GET_INFO (Table MBX-12): part, stepping and grade, firmware version, device number, warden order and regulated lock. -/
def devGetInfo (_ : Req) (s : State) : Answer :=
  okR [0x0880 + 0xA1 * 65536 + 16777216 * b2n Config.industrialGrade, lo32 Config.firmwareVersion, rd s ONL_ID_device,
    bits (otp s 9) 5 0 + 256 * bits (otp s 12) 0 0] s

/-- DEV_GET_INFO. -/
def execDevGetInfo (k : Fin 32) (s : State) : Out := done (serve Op.DEV_GET_INFO k devGetInfo s)

/-- The greatest of a list of signed values. -/
def maxInt : List Int → Int
  | [] => 0
  | [x] => x
  | x :: xs => max x (maxInt xs)

/-- The highest junction temperature (Table CRP-11), as a signed 32-bit word of 0.1 degrees. -/
def highestTemp (s : State) : Nat := unsgn 32 (maxInt ((List.range 12).map (fun i => rdI s (CRP_TEMP_temp i))))

/-- DEV_GET_STATUS (Table MBX-12). -/
def devGetStatus (_ : Req) (s : State) : Answer :=
  okR [bits (rd s CRP_STATUS_power_state) 1 0 + 4 * s.warden.kind + 16 * rd s ONL_TIME_STAT_unsync, highestTemp s] s

/-- DEV_GET_STATUS. -/
def execDevGetStatus (k : Fin 32) (s : State) : Out := done (serve Op.DEV_GET_STATUS k devGetStatus s)

end Sys2Proof.Machine
end

