-- ==== Sys2Proof/Machine/Latch.lean ====
section
/-! DEFINITION. The latch point (R163 to R165): commits applied, buffers selected (R155 to R158), slots judged and treatments fixed
(R204 to R212, R465), regions prepared (R217 to R221). -/
namespace Sys2Proof.Machine

/-! ## Presentation time (R156, R250) -/

/-- The lock targets of an output (R248): the k-th, and its nearest to a device time. -/
def lockTarget (s : State) (n k : Nat) : Nat := k * 1000000000000 / rd s (SCN_RATE_mhz n) + rd s (SCN_LOCK_PHASE_ns n)

/-- The first target not before a device time. -/
def nextTarget (s : State) (n t : Nat) : Nat :=
  let f := rd s (SCN_RATE_mhz n)
  let k := (t - rd s (SCN_LOCK_PHASE_ns n)) * f / 1000000000000
  if t ≤ lockTarget s n k then lockTarget s n k else if t ≤ lockTarget s n (k + 1) then lockTarget s n (k + 1) else lockTarget s n (k + 2)

/-- The target nearest to a device time. -/
def nearestTarget (s : State) (n t : Nat) : Nat :=
  let up := nextTarget s n t
  let f := rd s (SCN_RATE_mhz n)
  let k := (t - rd s (SCN_LOCK_PHASE_ns n)) * f / 1000000000000
  let dn := if t < lockTarget s n k then lockTarget s n (k - 1) else lockTarget s n k
  if t - dn ≤ up - t ∧ dn ≤ t then dn else up

/-- The presentation time of the frame that a latch point now prepares: its target when the output is locked (R250), else the
prediction of R156. -/
def presentationTime (s : State) (n : Nat) : Nat :=
  let predicted := s.devTime + linesNs s n (lookahead s n)
  if rd s (SCN_LOCK_STAT_state n) = 2 then nearestTarget s n predicted else predicted

/-! ## Buffer selection (R155, R157, R206) -/

/-- R155: the fence of an entry reads signalled. -/
def fenceSignalled (s : State) (p : Nat) (e : Entry) : Bool :=
  e.fence == 0 || decide (e.target ≤ leNat (devBytes s p e.fence 8))

/-- R206: the entries of a slot with the source timestamp that this latch point's fence reads give them. -/
def stampFences (m : Nat) (s : State) : State :=
  let v := slot s m
  setSlot m { v with pending := v.pending.map (fun e =>
    if e.stamp.isNone && fenceSignalled s (slotOwner s m) e then { e with stamp := some s.devTime } else e) } s

/-- R157: an entry that may be picked. -/
def pickable (s : State) (m berm pt : Nat) (e : Entry) : Bool :=
  decide (e.accepted < berm) && fenceSignalled s (slotOwner s m) e && (e.time == 0 || decide (e.time ≤ pt))

/-- The entries before the newest that satisfies `ok`, that entry, and the entries after it. -/
def splitNewest (ok : Entry → Bool) : List Entry → Option (List Entry × Entry × List Entry)
  | [] => none
  | e :: es =>
    match splitNewest ok es with
    | some (a, x, b) => some (e :: a, x, b)
    | none => if ok e then some ([], e, es) else none

/-- R157 on one slot. -/
def selectBuffer (berm pt m : Nat) (s0 : State) : State :=
  let s := stampFences m s0
  let v := slot s m
  match splitNewest (pickable s m berm pt) v.pending with
  | some (older, e, newer) =>
    s |> setSlot m { v with inUse := some e, pending := newer, picked := true } |> released m (v.inUse.toList ++ older) |> slotStatus m
  | none => setSlot m { v with picked := false } s

/-! ## Judgement (R204, R205, R465) -/

/-- A difference of device times; 0 where it would be negative (R205). -/
def ageOf (pt t : Nat) : Nat := pt - t

/-- The states of Table DKW-2 from 4 to 8. -/
def staleState (st : Nat) : Bool := decide (4 ≤ st)

/-- R204: the state of a slot for a frame presented at `pt`. -/
def judge (s : State) (m pt : Nat) : Nat :=
  let v := slot s m
  let maxAge := rd s (DKW_SLOT_MAXAGE_us m).inForce * 1000
  if !slotActive s m || liveClass s m == 0 then 0
  else match v.inUse with
    | none => 4
    | some e =>
      if maxAge ≠ 0 ∧ maxAge < ageOf pt (e.stamp.getD pt) then 5
      else if rd s (DKW_SLOT_HBPERIOD_us m).inForce * 1000 < ageOf pt v.beat then 6
      else if frozenN s m ≠ 0 ∧ frozenN s m ≤ rd s (DKW_SLOT_STATE_run m) then 7
      else if e.concealed then (if rdB s (DKW_SLOT_CLASS_treat_degraded m).inForce then 8 else 3)
      else if v.picked then 1 else 2

/-- R211: a motion read that has not completed by the next latch point counts its frame as unchanged. -/
def motionLate (m : Nat) (s : State) : State :=
  match (slot s m).reading with
  | some f => s |> incSat (DKW_SLOT_STATE_run m) 1 |> setSlot m { slot s m with reading := none } |> record0 Src.DKW_MOTION_LATE (some (slotOwner s m)) [m, f]
  | none => s

/-- R210, R211: the motion read of a slot for frame `f` begins; without a buffer there is none, and the run is 0. -/
def motionStart (f m : Nat) (s : State) : State :=
  if frozenN s m ≠ 0 ∧ slotActive s m = true then
    (if (slot s m).inUse.isSome then setSlot m { slot s m with reading := some f } s
     else s |> setSlot m { slot s m with sig := none } |> wr (DKW_SLOT_STATE_run m) 0)
  else s

/-- The region, if any, whose breach action is in force on a slot of an output; of several, the lowest-numbered. -/
def actingRegion (s : State) (n m : Nat) : Option Nat :=
  (regionsOn s n).find? (fun r => (region s n r).acting && regionSlot s n r == m)

/-- What a slot shows in place of its buffer (R212, R221): a breach action goes before a stale treatment. -/
def shownInstead (s : State) (n m st : Nat) : Option (Nat × Nat) :=
  match actingRegion s n m with
  | some r => if regionAction s n r = 1 then some (2, rd s (DKW_OUT_REG_CTRL_image n r).inForce) else some (0, 0)
  | none => if staleState st then some (treatment s m, rd s (DKW_SLOT_CLASS_image m).inForce) else none

/-- R465: the records, line 22 and notification that follow a slot's new state. -/
def stateChanged (m old new f : Nat) (s : State) : State :=
  let p := slotOwner s m
  let s1 := if staleState new && new != old then record0 Src.DKW_STALE (some p) [m, new, f] s
    else if staleState old && !staleState new then record0 Src.DKW_FRESH (some p) [m, new, f] s
    else if new == 3 && old != 3 then record0 Src.DKW_DEGRADED (some p) [m, f] s else s
  if staleState new != staleState old then
    s1 |> raiseLine p 22 |> (if p = 0 then id else raiseLine 0 22)
      |> notifyPairs ((pairOf s p).toList ++ [0]) Op.DKW_STALE_NOTIFY [m + 64 * new, f]
  else s1

/-- R204 on one slot of an output, for frame `f` presented at `pt`. -/
def judgeSlot (n f pt m : Nat) (s : State) : State :=
  let old := rd s (DKW_SLOT_STATE_state m)
  let new := judge s m pt
  let age := match (slot s m).inUse with
    | some e => if new = 0 then 0 else min 0xFFFFFFFF (ageOf pt (e.stamp.getD pt) / 1000)
    | none => 0
  s |> wr (DKW_SLOT_STATE_state m) new |> wr (DKW_SLOT_AGE_us m) age |> wr (DKW_SLOT_STATE_dropped m) 0
    |> wrB (DKW_SLOT_STATE_action m) (actingRegion s n m).isSome
    |> setSlot m { slot s m with shows := if slotActive s m then shownInstead s n m new else none }
    |> stateChanged m old new f

/-! ## Regions (R217 to R221) -/

/-- R221: clears that have not been dropped take effect, and the actions of breached regions come into force. -/
def regionAct (n f r : Nat) (s : State) : State :=
  let v := region s n r
  let s1 := if v.clearing then
      s |> clrBits (DKW_OUT_BREACH_region n) (2 ^ r) |> record0 Src.DKW_BREACH_CLEARED (some 0) [n, r, f]
    else s
  putRegion n r { v with clearing := false,
                         acting := regionOn s1 n r && regionAction s1 n r != 0 && bit (rd s1 (DKW_OUT_BREACH_region n)) r } s1

/-- R217: the pairs of a region and its expected value for frame `f`, given the subject's buffer and what was released. -/
def matchPairs (bind : Bool) (f : Nat) (inUse : Option Nat) (gone : List Nat) (ps : List (Nat × Nat)) : List (Nat × Nat) × Option Nat :=
  if bind then
    let kept := ps.filter (fun p => !gone.contains (p.2 % 256))
    (kept, match inUse with
      | some q => ((kept.filter (fun p => p.2 % 256 == q)).getLast?).map (fun p => p.1)
      | none => none)
  else
    let kept := ps.filter (fun p => decide (f ≤ p.2))
    match kept.find? (fun p => p.2 == f) with
    | some p => (kept.erase p, some p.1)
    | none => (kept, none)

/-- R217 to R219 on one region, once slots have been judged. -/
def regionPrepare (n f r : Nat) (s : State) : State :=
  let v := region s n r
  let m := regionSlot s n r
  let w := slot s m
  let src := regionSource s n r
  let (pairs, exp) := matchPairs (rdB s (DKW_OUT_REG_CTRL_bind n r).inForce) f (w.inUse.map (fun e => e.seq)) w.released v.pairs
  let due := match v.relearn with | some k => k != (f + 1) % 4294967296 | none => false
  let treated := if v.acting then 3 else if w.shows.isSome then 7 else 0
  let on := regionOn s n r
  let s1 := if due then clrBits (DKW_OUT_RELEARN_region n) (2 ^ r) s else s
  s1 |> putRegion n r { v with
      pairs := if on && src == 0 then pairs else v.pairs,
      expected := if !on then none else if src = 0 then exp else if src = 2 then some v.learned else none,
      auto := if on && src == 1 && treated == 0 && w.inUse.isSome then 1 else 0,
      learning := v.learning || (due && src == 2), relearn := if due then none else v.relearn,
      treated := treated, compared := false }
    |> wr (DKW_OUT_REG_EXPECT_STAT_queued n r) (if on && src == 0 then pairs else v.pairs).length
    |> (if on then id else wr (DKW_OUT_REG_STAT_status n r) 0)

/-! ## The latch point -/

/-- Entries of a table whose number lies from `lo` to below `hi` removed. -/
def Tab.cut {α : Type} (t : Tab α) (lo hi : Nat) : Tab α := t.filter (fun e => !(decide (lo ≤ e.1) && decide (e.1 < hi)))

/-- The number of a tile among those of all outputs. -/
def tileKey (n b t : Nat) : Nat := (512 * n + b) * 32 + t

/-- The commits due at the latch point that prepares frame `f`: those not for the frame after it. -/
def dueCommits (s : State) (n f : Nat) : List Commit := (queuedOn s n).filter (fun c => c.frame != (f + 1) % 4294967296)

/-- A rectangle of the frame's geometry, where it is not empty. -/
def geoRect (m : Option Nat) (r : Rect) : List (Option Nat × Nat × Nat × Nat × Nat) :=
  if r.empty then [] else [(m, r.x0.toNat, r.y0.toNat, r.x1.toNat, r.y1.toNat)]

/-- The geometry of the frame that the configuration in force composes: the enabled regions, then the layers from the topmost down
(R149, R345). -/
def geometry (s : State) (n : Nat) : List (Option Nat × Nat × Nat × Nat × Nat) :=
  let f (x : Fld) : Nat := rd s x.inForce
  (List.range 16).flatMap (fun r =>
    if f (DKW_OUT_REG_CTRL_enable n r) = 1 then
      geoRect none (Rect.inter ⟨f (DKW_OUT_REG_XY_x n r), f (DKW_OUT_REG_XY_y n r), f (DKW_OUT_REG_XY_x n r) + f (DKW_OUT_REG_WH_w n r),
        f (DKW_OUT_REG_XY_y n r) + f (DKW_OUT_REG_WH_h n r)⟩ (activeArea s n))
    else []) ++
  (activeLayers s n).reverse.flatMap (fun l => geoRect (some l.slot) (l.visible s))

/-- What a latch point does on output `n`, preparing frame `f`, once its instant has come. -/
def latch (n f : Nat) (s0 : State) : State :=
  let berm := lineTime s0 n (latchLine s0 n - bermLines s0 n)
  let pt := presentationTime s0 n
  let ms0 := slotsOn s0 n
  let s1 := ms0.foldl (fun s m => setSlot m { slot s m with released := [] } s) s0
  let due := dueCommits s1 n f
  let s2 := due.foldl (fun s c => applyCommit f c s) (setQueue (s1.dsp.queue.filter (fun c => !due.contains c)) s1)
  let s3 := resetsAt n s2
  let s4 := if (out s3 n).wbStop then s3 |> wr (CMP_OUT_WB_CTRL_enable n).inForce 0 |> wr (CMP_OUT_WB_CTRL_enable n) 0 else s3
  let s5 := (List.range 16).foldl (fun s r => regionAct n f r s) s4
  let ms := slotsOn s5 n
  let s6 := (ms.filter (slotActive s5)).foldl (fun s m => selectBuffer berm pt m s) s5
  let s7 := ms.foldl (fun s m => motionStart f m (judgeSlot n f pt m (motionLate m s))) s6
  let s8 := (List.range 16).foldl (fun s r => regionPrepare n f r s) s7
  let s9 := setOut n { out s8 n with
      latched := true, prep := f, present := pt, geoNext := geometry s8 n, background := rd s8 (CMP_OUT_BGCOLOR_rgb n), drops := [], scanned := 0, stale := 0,
      wbStop := false, wbBands := (out s8 n).wbBands.filter (fun e => e.1 == (out s8 n).cur) } s8
  { s9 with dsp := { s9.dsp with tiles := Tab.cut s9.dsp.tiles (tileKey n 0 0) (tileKey (n + 1) 0 0),
                                 shown := Tab.cut s9.dsp.shown (tileKey n 0 0) (tileKey (n + 1) 0 0) } }

/-- LATCH_POINT (R163, R165): the latch point of an output's raster comes. -/
def execLatchPoint (n : Fin 8) (s : State) : Out :=
  let o := out s n
  if running s n && o.attested && !o.latched && !o.stopDue then
    let s1 := advanceTo (lineTime s n (latchLine s n)) s
    done (latch n ((o.cur + 1) % 4294967296) s1)
  else .next s

/-- R205: a step of device time, added to every heartbeat and source timestamp. -/
def stepStamps (delta : Int) (s : State) : State :=
  let f (t : Nat) : Nat := ((t : Int) + delta).toNat
  let g (e : Entry) : Entry := { e with stamp := e.stamp.map f }
  { s with dsp := { s.dsp with slots := s.dsp.slots.map (fun e =>
      (e.1, { e.2 with beat := f e.2.beat, inUse := e.2.inUse.map g, pending := e.2.pending.map g })) } }

end Sys2Proof.Machine
end

