-- ==== Sys2Proof/Machine/Pixels.lean ====
section
/-! DEFINITION. The value of every composed pixel (R180 to R191, R212): unpacking, expansion, chroma, conversion, scaling, blending
and output conversion, the packed reference format (R291, R292), treatments, and the code values a signature runs over (R215). -/
namespace Sys2Proof.Machine

/-- A pixel of 12-bit components. -/
structure Px where
  r : Nat
  g : Nat
  b : Nat
  a : Nat
  deriving DecidableEq, Repr

/-- A function applied to each component. -/
def Px.map (f : Nat → Nat) (p : Px) : Px := ⟨f p.r, f p.g, f p.b, f p.a⟩

/-! ## Unpacking and expansion (R182, Table CMP-1, R273) -/

def exp8 (v : Nat) : Nat := v * 16 + v / 16
def exp10 (v : Nat) : Nat := v * 4 + v / 256

/-- A 10-bit colour, opaque. -/
def Px.ofColor (r g b : Nat) : Px := ⟨exp10 r, exp10 g, exp10 b, 4095⟩

/-- A colour word: R [9:0], G [19:10], B [29:20], opaque. -/
def Px.ofWord (w : Nat) : Px := Px.ofColor (bits w 9 0) (bits w 19 10) (bits w 29 20)

/-- A pixel of an RGB format at byte address `a`. -/
def unpackRgb (byte : Nat → Nat) (format a : Nat) : Px :=
  let c (i : Nat) : Nat := exp8 (byte (a + i))
  let w : Nat := leNat [byte a, byte (a + 1), byte (a + 2), byte (a + 3)]
  let h (i : Nat) : Nat := exp10 ((byte (a + 2 * i) + 256 * byte (a + 2 * i + 1)) / 64)
  match format with
  | 1 => ⟨c 0, c 1, c 2, c 3⟩
  | 2 => ⟨c 2, c 1, c 0, c 3⟩
  | 3 => ⟨c 0, c 1, c 2, 4095⟩
  | 4 => ⟨c 0, c 1, c 2, 4095⟩
  | 5 => ⟨exp10 (bits w 9 0), exp10 (bits w 19 10), exp10 (bits w 29 20), bits w 31 30 * 1365⟩
  | 6 => ⟨exp10 (bits w 29 20), exp10 (bits w 19 10), exp10 (bits w 9 0), bits w 31 30 * 1365⟩
  | _ => ⟨h 0, h 1, h 2, h 3⟩

/-! ## The packed reference format (R291, R292) -/

/-- The code of block `k` of block row `j`; `half` is 0 for plane 0 and 32 for plane 1. -/
def packedCode (byte : Nat → Nat) (buf0 stride0 half j k : Nat) : Nat :=
  byte (buf0 + 4 * j * stride0 + stride0 - 64 + half + k / 4) / 2 ^ (2 * (k % 4)) % 4

/-- The residuals that `n` groups of 16 spell from bit `pos` of a bitstream on. -/
def packedResiduals : Nat → Nat → Nat → List Nat
  | 0, _, _ => []
  | n + 1, stream, pos =>
    let k := stream / 2 ^ pos % 16
    (List.range 16).map (fun i => stream / 2 ^ (pos + 4 + i * k) % 2 ^ k) ++ packedResiduals n stream (pos + 4 + 16 * k)

/-- The samples of a grid of width `w` and depth `d` from its residuals, in order, given those already decoded, newest first. -/
def packedSamples (w d : Nat) : List Nat → List Nat → List Nat
  | done, [] => done.reverse
  | done, m :: ms =>
    let i := done.length
    let p := if i % w ≠ 0 then done.headD 0 else if w ≤ i then done.getD (w - 1) 0 else 2 ^ (d - 1)
    let r := if m % 2 = 0 then m / 2 else 2 ^ d - (m + 1) / 2
    packedSamples w d (((r + p) % 2 ^ d) :: done) ms

/-- A `b`-byte sample at an address: a byte, or a 16-bit word with its value in [15:6]. -/
def sampleAt (byte : Nat → Nat) (b a : Nat) : Nat := if b = 1 then byte a else (byte a + 256 * byte (a + 1)) / 64

/-- The luma sample (x, y) of a packed picture with `b`-byte samples. -/
def packedLuma (byte : Nat → Nat) (b buf0 stride0 x y : Nat) : Nat :=
  let j := y / 4
  let k := x / 64
  let code := packedCode byte buf0 stride0 0 j k
  if code = 3 then sampleAt byte b (buf0 + y * stride0 + x * b)
  else
    let unit (u : Nat) : List Nat := (List.range (64 * b)).map (fun i => byte (buf0 + (4 * j + u) * stride0 + 64 * k * b + i))
    let stream := leNat ((List.range (code + 1)).flatMap unit)
    (packedSamples 64 (if b = 1 then 8 else 10) [] (packedResiduals 16 stream 0)).getD (y % 4 * 64 + x % 64) 0

/-- The chroma sample (x, y) of component `comp` (0 Cb, 1 Cr) of a packed picture. -/
def packedChroma (byte : Nat → Nat) (b buf0 buf1 stride0 stride1 comp x y : Nat) : Nat :=
  let j := y / 2
  let k := x / 32
  let code := packedCode byte buf0 stride0 32 j k
  if code = 3 then sampleAt byte b (buf1 + y * stride1 + (2 * x + comp) * b)
  else
    let unit (u : Nat) : List Nat :=
      (List.range (32 * b)).map (fun i => byte (buf1 + (2 * j + u / 2) * stride1 + 64 * k * b + u % 2 * 32 * b + i))
    let stream := leNat ((List.range (code + 1)).flatMap unit)
    let ms := packedResiduals 8 stream 0
    (packedSamples 32 (if b = 1 then 8 else 10) [] ((ms.drop (64 * comp)).take 64)).getD (y % 2 * 32 + x % 32) 0

/-! ## YCbCr sources (R183, R184) -/

/-- A source's samples are 10-bit. -/
def format10 (f : Nat) : Bool := f == 0x12 || f == 0x13 || f == 0x21

/-- The luma sample (x, y), expanded. -/
def lumaAt (byte : Nat → Nat) (l : Layer) (buf0 x y : Nat) : Nat :=
  let e (v : Nat) : Nat := if format10 l.format then exp10 v else exp8 v
  match l.format with
  | 0x14 => e (byte (buf0 + y * l.stride0 + x * 2))
  | 0x20 => e (packedLuma byte 1 buf0 l.stride0 x y)
  | 0x21 => e (packedLuma byte 2 buf0 l.stride0 x y)
  | f => let b := if format10 f then 2 else 1
         e (sampleAt byte b (buf0 + y * l.stride0 + x * b))

/-- The chroma sample (cx, cy) of component `comp`, expanded. -/
def chromaAt (byte : Nat → Nat) (l : Layer) (buf0 buf1 comp cx cy : Nat) : Nat :=
  let e (v : Nat) : Nat := if format10 l.format then exp10 v else exp8 v
  match l.format with
  | 0x14 => e (byte (buf0 + cy * l.stride0 + cx * 4 + 1 + 2 * comp))
  | 0x20 => e (packedChroma byte 1 buf0 buf1 l.stride0 l.stride1 comp cx cy)
  | 0x21 => e (packedChroma byte 2 buf0 buf1 l.stride0 l.stride1 comp cx cy)
  | f => let b := if format10 f then 2 else 1
         e (sampleAt byte b (buf1 + cy * l.stride1 + (2 * cx + comp) * b))

/-- An index clamped to 0 to `n - 1`. -/
def clampIdx (n : Nat) (i : Int) : Nat := (max 0 (min i ((n : Int) - 1))).toNat

/-- R183: the chroma of column `i` and row `j` of the source rectangle: vertically first, then horizontally. -/
def chromaUp (l : Layer) (sample : Nat → Nat → Nat) (i j : Nat) : Nat :=
  let half := match formatOf l.format with | some f => f.halfRows | none => false
  let cw := ceilDiv l.srcW 2
  let ch := ceilDiv l.srcH 2
  let at_ (mx : Int) (my : Int) : Nat := sample (l.srcX / 2 + clampIdx cw mx) (l.srcY / 2 + clampIdx ch my)
  let vert (mx : Int) : Nat :=
    if half then
      let m : Int := j / 2
      (3 * at_ mx m + at_ mx (if j % 2 = 0 then m - 1 else m + 1) + 2) / 4
    else sample (l.srcX / 2 + clampIdx cw mx) (l.srcY + j)
  if i % 2 = 0 then vert (i / 2) else (vert (i / 2) + vert (i / 2 + 1) + 1) / 2

/-- Table CMP-11: crv, cgu, cgv and cbu. -/
def cscCoefs (csc : Nat) (full : Bool) : Int × Int × Int × Int :=
  match csc, full with
  | 0, true => (5743, 1410, 2925, 7258)
  | 1, true => (6450, 767, 1917, 7601)
  | _, true => (6040, 674, 2340, 7706)
  | 0, false => (6537, 1605, 3330, 8263)
  | 1, false => (7343, 873, 2183, 8652)
  | _, false => (6876, 767, 2664, 8773)

/-- An integer clamped to 12 bits. -/
def clamp12 (v : Int) : Nat := (max 0 (min v 4095)).toNat

/-- R184: a YCbCr pixel as RGB. -/
def toRgb (csc : Nat) (full ten : Bool) (y cb cr : Nat) : Px :=
  let (crv, cgu, cgv, cbu) := cscCoefs csc full
  let cy : Int := if full then 4096 else if ten then 4783 else 4769
  let yo : Int := if full then 0 else if ten then 256 else 257
  let co : Int := if ten then 2050 else 2056
  let l := cy * ((y : Int) - yo)
  let u := (cb : Int) - co
  let v := (cr : Int) - co
  ⟨clamp12 ((l + crv * v + 2048) / 4096), clamp12 ((l - cgu * u - cgv * v + 2048) / 4096), clamp12 ((l + cbu * u + 2048) / 4096), 4095⟩

/-- R273: whether the 8x8 block of a pixel is flagged in the flag surface. -/
def blockFlagged (byte : Nat → Nat) (buf1 stride1 x y : Nat) : Bool := bit (byte (buf1 + y / 8 * stride1 + x / 64)) (x / 8 % 8)

/-- Stages 1 to 4 of R181: the pixel of column `i` and row `j` of a layer's source rectangle. -/
def texel (byte : Nat → Nat) (l : Layer) (buf0 buf1 i j : Nat) : Px :=
  let x := l.srcX + i
  let y := l.srcY + j
  if fmtRgb l.format then
    if l.fastClear && blockFlagged byte buf1 l.stride1 x y then Px.ofColor l.color.1 l.color.2.1 l.color.2.2
    else unpackRgb byte l.format (buf0 + y * l.stride0 + x * bppOf l.format)
  else if l.format = fmtSolid then Px.ofColor l.color.1 l.color.2.1 l.color.2.2
  else
    toRgb l.csc l.fullRange (format10 l.format) (lumaAt byte l buf0 x y)
      (chromaUp l (chromaAt byte l buf0 buf1 0) i j) (chromaUp l (chromaAt byte l buf0 buf1 1) i j)

/-! ## Scaling (R185 to R187) -/

/-- A coefficient of the horizontal table in force. -/
def hCoef (s : State) (n p t : Nat) : Int :=
  sgn 12 (rd s (if t % 2 = 0 then CMP_OUT_HCOEF_tapLo n p (t / 2) else CMP_OUT_HCOEF_tapHi n p (t / 2)).inForce)

/-- A coefficient of the four-tap vertical table in force. -/
def v4Coef (s : State) (n p t : Nat) : Int :=
  sgn 12 (rd s (if t % 2 = 0 then CMP_OUT_V4COEF_tapLo n p (t / 2) else CMP_OUT_V4COEF_tapHi n p (t / 2)).inForce)

/-- A coefficient of the two-tap vertical table in force. -/
def v2Coef (s : State) (n p t : Nat) : Int :=
  sgn 12 (rd s (if t % 2 = 0 then CMP_OUT_V2COEF_tapLo n p else CMP_OUT_V2COEF_tapHi n p).inForce)

/-- R185: the source position of destination pixel `i`, as its index and phase. -/
def scalePos (src dst i : Nat) : Int × Nat :=
  let step := src * 65536 / dst
  let pos : Int := (((2 * i + 1) * step / 2 : Nat) : Int) - 32768
  (pos / 65536, (pos / 1024 % 64).toNat)

/-- R186: one stage on one component: taps as coefficient and value. -/
def stage (taps : List (Int × Nat)) : Nat := clamp12 (((taps.map (fun t => t.1 * (t.2 : Int))).sum + 512) / 1024)

/-- A stage on every component. -/
def stagePx (taps : List (Int × Px)) : Px :=
  ⟨stage (taps.map (fun t => (t.1, t.2.r))), stage (taps.map (fun t => (t.1, t.2.g))), stage (taps.map (fun t => (t.1, t.2.b))),
   stage (taps.map (fun t => (t.1, t.2.a)))⟩

/-- R185, R186: pixel (i, j) of a `dw` by `dh` destination scaled from a `w` by `h` source, with output `n`'s tables. -/
def scaled (s : State) (n : Nat) (tex : Nat → Nat → Px) (w h dw dh : Nat) (twoTaps premult : Bool) (i j : Nat) : Px :=
  let vcol (x : Nat) : Px :=
    if h = dh then tex x j
    else
      let (k, ph) := scalePos h dh j
      if twoTaps then stagePx ((List.range 2).map (fun t => (v2Coef s n ph t, tex x (clampIdx h (k + t)))))
      else stagePx ((List.range 4).map (fun t => (v4Coef s n ph t, tex x (clampIdx h (k - 1 + t)))))
  let p :=
    if w = dw then vcol i
    else
      let (k, ph) := scalePos w dw i
      stagePx ((List.range 6).map (fun t => (hCoef s n ph t, vcol (clampIdx w (k - 2 + t)))))
  if premult && !(w == dw && h == dh) then ⟨min p.r p.a, min p.g p.a, min p.b p.a, p.a⟩ else p

/-! ## Blending (R188, R189) -/

/-- The rounded 12-bit product. -/
def mult (x y : Nat) : Nat := let p := x * y + 2048; (p + p / 4096) / 4096

/-- R188: a layer pixel as premultiplied colour and effective alpha. -/
def premultiplied (mode alpha : Nat) (premult : Bool) (p : Px) : Px :=
  match mode with
  | 0 => let a := mult p.a alpha
         let c (v : Nat) : Nat := if premult then mult v alpha else mult v a
         ⟨c p.r, c p.g, c p.b, a⟩
  | 1 => ⟨mult p.r alpha, mult p.g alpha, mult p.b alpha, alpha⟩
  | _ => ⟨p.r, p.g, p.b, 4095⟩

/-- R189: a premultiplied pixel over what lies beneath it. -/
def blend (dst p : Px) : Px :=
  let f (d c : Nat) : Nat := min 4095 (c + mult d (4095 - p.a))
  ⟨f dst.r p.r, f dst.g p.g, f dst.b p.b, 4095⟩

/-! ## Output conversion (R190, R191) -/

/-- The dither matrix. -/
def ditherAt (x y : Nat) : Nat :=
  ([[0, 8, 2, 10], [12, 4, 14, 6], [3, 11, 1, 9], [15, 7, 13, 5]].getD (y % 4) []).getD (x % 4) 0

/-- A component as the 10-bit value stored; `term` is the 4-bit dither value, or none for fixed rounding. -/
def toCode (eight : Bool) (term : Option Nat) (v : Nat) : Nat :=
  if eight then
    let o := (v - v / 256 + term.getD 8) / 16
    o * 4 + o / 64
  else (v - v / 1024 + (match term with | some d => d / 4 | none => 2)) / 4

/-- The pool word of a pixel. -/
def poolWord (eight : Bool) (term : Option Nat) (sup tr : Bool) (p : Px) : Nat :=
  toCode eight term p.r + 1024 * toCode eight term p.g + 1048576 * toCode eight term p.b + 2 ^ 30 * b2n sup + 2 ^ 31 * b2n tr

/-- The bytes a pixel word contributes to a signature (R215). -/
def codeBytes (eight : Bool) (w : Nat) : List Nat :=
  [bits w 9 0, bits w 19 10, bits w 29 20].flatMap (fun v => leBytes 2 (if eight then v / 4 else v))

/-! ## Layers in a frame (R149, R189, R212) -/

/-- An image's pixel (K0, read as the compositor's own). -/
def imageTexel (s : State) (im : Image) (i j : Nat) : Px :=
  let p := unpackRgb (byteAt s) im.format (im.addr + j * im.stride + i * bppOf im.format)
  ⟨p.r, p.g, p.b, 4095⟩

/-- A layer's own pixel at output position (x, y), premultiplied, from a buffer. -/
def bufferPx (s : State) (l : Layer) (e : Entry) (x y : Int) : Px :=
  let tex := texel (devByte s (slotOwner s l.slot)) l e.buf0 e.buf1
  let i := (x - l.dstX).toNat
  let j := (y - l.dstY).toNat
  let p := if l.format = fmtSolid then tex 0 0 else scaled s l.output tex l.srcW l.srcH l.dstW l.dstH l.twoTaps l.premult i j
  premultiplied l.alphaMode l.alpha l.premult p

/-- The slot's BLANK colour. -/
def blankPx (s : State) (m : Nat) : Px := Px.ofWord (rd s (DKW_SLOT_BLANK_rgb m).inForce)

/-- Table DKW-3, hatch: what is replaced over the buffer's pixel, if anything. -/
def hatchPx (s : State) (l : Layer) (im : Image) (x y : Int) : Option Px :=
  let a := l.window
  let ix := x - (a.x0 + (a.x1 - a.x0 - im.w) / 2)
  let iy := y - (a.y0 + (a.y1 - a.y0 - im.h) / 2)
  if 0 ≤ ix ∧ ix < im.w ∧ 0 ≤ iy ∧ iy < im.h then some (imageTexel s im ix.toNat iy.toNat)
  else if (x + y) % 16 < 4 then some (blankPx s l.slot) else none

/-- What a layer leaves at a pixel it covers, over what lies beneath it. -/
def overLayer (s : State) (l : Layer) (x y : Int) (dst : Px) : Px :=
  let v := slot s l.slot
  let own (e : Entry) : Px := blend dst (bufferPx s l e x y)
  match v.shows, v.inUse with
  | none, none => dst
  | none, some e => own e
  | some (2, i), _ =>
    let im := image s i
    blend dst { scaled s l.output (imageTexel s im) im.w im.h l.dstW l.dstH l.twoTaps false (x - l.dstX).toNat (y - l.dstY).toNat with a := 4095 }
  | some (1, i), some e =>
    (match hatchPx s l (image s i) x y with
     | some p => p
     | none => own e)
  | some _, _ => blankPx s l.slot

/-- A pixel inside a supervised region in force. -/
def supervised (s : State) (n : Nat) (x y : Int) : Bool := (regionsOn s n).any (fun r => (regionRect s n r).has x y)

/-- The pool word of an output's pixel (R180): every layer covering it, but those skipped, over the background. -/
def pixelWord (s : State) (n : Nat) (layers : List Layer) (skip : List Nat) (x y : Nat) : Nat :=
  let cover := layers.filter (fun l => (l.visible s).has x y)
  let px := (cover.filter (fun l => !skip.contains l.slot)).foldl (fun d l => overLayer s l x y d) (Px.ofWord (out s n).background)
  let sup := supervised s n x y
  let tr := cover.any (fun l => (slot s l.slot).shows.isSome)
  poolWord (depth8 s n) (if rdB s (CMP_OUT_COMPOSE_dither n).inForce && !sup then some (ditherAt x y) else none) sup tr px

/-- The area of a tile (R174). -/
def tileRect (s : State) (n b t : Nat) : Rect :=
  Rect.inter ⟨256 * t, 16 * b, 256 * t + 256, 16 * b + 16⟩ (activeArea s n)

/-- The words of a tile, rows of 256, cut short at the active area's edge. -/
def tileWords (s : State) (n : Nat) (skip : List Nat) (b t : Nat) : List Nat :=
  let ls := activeLayers s n
  let a := tileRect s n b t
  (List.range (a.y1 - a.y0).toNat).flatMap (fun dy =>
    (List.range (a.x1 - a.x0).toNat).map (fun dx => pixelWord s n ls skip (256 * t + dx) (16 * b + dy)))

/-- R218: the signature an AUTO region's subject would give alone, with fixed rounding. -/
def autoSignature (s : State) (n r : Nat) (e : Entry) : Nat :=
  let l := layerOf s (regionSlot s n r)
  let a := regionRect s n r
  let tex := texel (devByte s (slotOwner s l.slot)) l e.buf0 e.buf1
  crc32c ((List.range (a.y1 - a.y0).toNat).flatMap (fun dy => (List.range (a.x1 - a.x0).toNat).flatMap (fun dx =>
    codeBytes (depth8 s n) (poolWord (depth8 s n) none false false (tex (a.x0 + dx - l.dstX).toNat (a.y0 + dy - l.dstY).toNat)))))

end Sys2Proof.Machine
end

