-- ==== Sys2Proof/Machine/Tiles.lean ====
section
/-! DEFINITION. Composition engines (spec/07_composition_engines.md): bands, tiles and engines (R174 to R180), the band-tile pool (R192,
R235), dropped layers and abandoned tiles (R196, R197), write-back (R193 to R195), and the passing of tiles to scan-out (R235, R236). -/
namespace Sys2Proof.Machine

/-! ## Tiles and the pool -/

/-- A tile of the frame being composed, if its band has become eligible. -/
def tile (s : State) (n b t : Nat) : Option Tile := (s.dsp.tiles.find? (fun e => e.1 == tileKey n b t)).map (fun e => e.2)

/-- A tile given a new value. -/
def setTile (n b t : Nat) (v : Tile) (s : State) : State := { s with dsp := { s.dsp with tiles := s.dsp.tiles.put (tileKey n b t) v } }

/-- A pool entry: tile `t` of group `g` of output `n`'s reservation. -/
def poolEntry (s : State) (n g t : Nat) : PoolEntry := Tab.get PoolEntry.empty s.dsp.pool (tileKey n g t)

/-- A pool entry given a new value. -/
def setPool (n g t : Nat) (v : PoolEntry) (s : State) : State := { s with dsp := { s.dsp with pool := s.dsp.pool.put (tileKey n g t) v } }

/-- The groups of an output's held entries; CMP_OUTn_POOL follows them. -/
def setGroups (n : Nat) (gs : List (Nat × Nat × Nat)) (s : State) : State :=
  s |> setOut n { out s n with groups := gs } |> wr (CMP_OUT_POOL_in_use n) (gs.length * tilesPerBand s n)

/-- The group that holds band `b` of frame `f`. -/
def groupOf (s : State) (n f b : Nat) : Option Nat := ((out s n).groups.find? (fun e => e.2 == (f, b))).map (fun e => e.1)

/-- BAND_ELIGIBLE (R175, R192, R235): the tiles of a band become eligible and take entries whose written bits are cleared. -/
def execBandEligible (n : Fin 8) (b : Fin 512) (s : State) : Out :=
  let o := out s n
  let free := (List.range (lookahead s n / 16 + 2)).find? (fun g => !o.groups.any (fun e => e.1 == g))
  if !running s n || (o.attested && !o.latched) || decide (bandCount s n ≤ b) || (groupOf s n o.prep b).isSome || (tile s n b 0).isSome then .next s
  else match free with
    | none => .next s
    | some g =>
      let s1 := advanceTo (frameLineTime s n (16 * (b.val : Int) - lookahead s n)) s
      let dl := bandDeadline s1 n b
      let s2 := setGroups n (o.groups ++ [(g, o.prep, b.val)]) s1
      .next ((List.range (tilesPerBand s n)).foldl (fun s t =>
        s |> setTile n b t ⟨0, none, 0, dl, [], false, false⟩
          |> setPool n g t { poolEntry s n g t with band := b, written := false }) s2)

/-! ## Engines (R176 to R179) -/

/-- An engine that holds a tile. -/
def engBusy (s : State) (e : Nat) : Bool := rdB s (CMP_ENG_STAT_busy e)

/-- An engine idle and in service. -/
def engIdle (s : State) (e : Nat) : Bool :=
  !engBusy s e && !rdB s (CMP_ENG_STAT_in_reset e) && !bit (rd s CMP_ENG_OFFLINE_engines) e

/-- The output, band and index of the tile an engine holds. -/
def engTile (s : State) (e : Nat) : Nat × Nat × Nat :=
  (rd s (CMP_ENG_STAT_output e), rd s (CMP_ENG_STAT_band e), rd s (CMP_ENG_STAT_tile e))

/-- An engine holding no tile. -/
def engRelease (e : Nat) (s : State) : State :=
  s |> wr (CMP_ENG_STAT_busy e) 0 |> wr (CMP_ENG_STAT_output e) 0 |> wr (CMP_ENG_STAT_band e) 0 |> wr (CMP_ENG_STAT_tile e) 0
    |> wr (CMP_ENG_STAT_epoch e) 0

/-- The tiles eligible and not yet started, as deadline, output, band and tile. -/
def unstarted (s : State) : List (Nat × Nat × Nat × Nat) :=
  (s.dsp.tiles.filter (fun e => e.2.engine.isNone && !e.2.finished && !e.2.abandoned)).map (fun e =>
    (e.2.deadline, e.1 / 16384, e.1 / 32 % 512, e.1 % 32))

/-- R176: whether an engine of home output `home` takes the first tile before the second. -/
def tileBefore (home : Nat) (a b : Nat × Nat × Nat × Nat) : Bool :=
  let away (x : Nat × Nat × Nat × Nat) : Nat := if x.2.1 = home then 0 else 1
  decide (a.1 < b.1) || (a.1 == b.1 && (decide (away a < away b) || (away a == away b &&
    (decide (a.2.1 < b.2.1) || (a.2.1 == b.2.1 && (decide (a.2.2.1 < b.2.2.1) || (a.2.2.1 == b.2.2.1 && decide (a.2.2.2 < b.2.2.2))))))))

/-- The first tile in the order of R176. -/
def firstTile (home : Nat) (ts : List (Nat × Nat × Nat × Nat)) : Option (Nat × Nat × Nat × Nat) :=
  ts.foldl (fun best x => match best with
    | none => some x
    | some y => if tileBefore home x y then some x else some y) none

/-- TILE_DISPATCH (R176): the lowest-numbered idle engine in service takes the first tile. -/
def execTileDispatch (s : State) : Out :=
  match (List.range 32).find? (engIdle s) with
  | none => .next s
  | some e =>
    match firstTile (e / 4) (unstarted s) with
    | none => .next s
    | some (_, n, b, t) =>
      match tile s n b t with
      | none => .next s
      | some v =>
        let s1 := s |> setTile n b t { v with engine := some e, start := s.now, skip := (out s n).drops }
          |> wr (CMP_ENG_STAT_busy e) 1 |> wr (CMP_ENG_STAT_output e) n |> wr (CMP_ENG_STAT_band e) b |> wr (CMP_ENG_STAT_tile e) t
          |> wr (CMP_ENG_STAT_epoch e) v.epoch
        let s2 := { s1 with dsp := { s1.dsp with engStart := s1.dsp.engStart.put e s.now } }
        .next (if n = e / 4 then s2 else incWrap CMP_ENG_STEALS_count 1 s2)

/-- The word that names a tile in CMP_TILE_REQUEUED and CMP_TILE_ABANDONED. -/
def tileWord (n b t epoch : Nat) : Nat := n + 256 * b + 131072 * t + 4194304 * epoch

/-- A tile abandoned (R178, R197), with the reason of its record. -/
def abandonTile (n b t reason : Nat) (s : State) : State :=
  match tile s n b t with
  | none => s
  | some v =>
    let s1 := match v.engine with | some e => engRelease e s | none => s
    s1 |> setTile n b t { v with engine := none, abandoned := true } |> incSat (CMP_OUT_COUNTS_abandoned n) 1
      |> record0 Src.CMP_TILE_ABANDONED none [tileWord n b t v.epoch, reason]

/-- The reset of an engine (R178): its tile is requeued with the next epoch, or abandoned past the third. -/
def resetEngine (e : Nat) (s : State) : State :=
  let s0 := { s with dsp := { s.dsp with engReset := s.dsp.engReset.put e s.now } }
  let s1 := wr (CMP_ENG_STAT_in_reset e) 1 s0
  if !engBusy s e then s1
  else
    let (n, b, t) := engTile s e
    match tile s1 n b t with
    | none => engRelease e s1
    | some v =>
      if v.epoch = 3 then abandonTile n b t 2 s1
      else s1 |> engRelease e |> setTile n b t { v with engine := none, epoch := v.epoch + 1 } |> incWrap CMP_ENG_REQUEUES_count 1
        |> record0 Src.CMP_TILE_REQUEUED none [tileWord n b t (v.epoch + 1), e]

/-- ENGINE_FAULT (R179): an uncorrectable error in an engine's local buffers; the third within a second takes it out of service. -/
def execEngineFault (e : Fin 32) (s : State) : Out :=
  let ts := s.now :: (Tab.get [] s.dsp.engFaults e).filter (fun t => decide (s.now < t + 1000000000))
  let s1 := { s with dsp := { s.dsp with engFaults := s.dsp.engFaults.put e ts } }
  let s2 := s1 |> recordReported Src.CMP_ENGINE_FAULT none [e, ts.length] |> resetEngine e
  done (if 3 ≤ ts.length then orBits CMP_ENG_OFFLINE_engines (2 ^ e.val) s2 else s2)

/-- ENGINE_WATCHDOG (R179): an engine has held its tile longer than CMP_ENG_WDOG cycles. -/
def execEngineWatchdog (e : Fin 32) (s : State) : Out :=
  let w := rd s CMP_ENG_WDOG_cycles
  if !engBusy s e || w == 0 then .next s
  else done (resetEngine e (advanceTo (Tab.get 0 s.dsp.engStart e + cycleTime (w + 1)) s))

/-- CMP_ENG_RESET written (R179). -/
def engReset (v : Nat) (s : State) : State :=
  (idxWhere 32 (bit v)).foldl (fun s e => resetEngine e s) (orBits CMP_ENG_RESET_reset v s)

/-- ENGINE_RESET (R178, R179): Tujan writes bits of CMP_ENG_RESET. -/
def execEngineReset (a : Access) (addr : BitVec 40) (v : BitVec 32) (s : State) : Out :=
  regWrite a addr.toNat v.toNat (addr.toNat == 0x20202080) (fun _ s => engReset v.toNat s) s

/-- ENGINE_RETURN (R178): an engine returns to service 64 cycles after its reset, unless it has been taken out of service. -/
def execEngineReturn (e : Fin 32) (s : State) : Out :=
  if !rdB s (CMP_ENG_STAT_in_reset e) then .next s
  else .next (s |> advanceTo (Tab.get 0 s.dsp.engReset e + cycleTime 64) |> wr (CMP_ENG_STAT_in_reset e) 0
    |> clrBits CMP_ENG_RESET_reset (2 ^ e.val))

/-! ## Composition of a tile (R177, R180, R196) -/

/-- R196: a slot dropped from the frame composed on an output, at band `b`: recorded once per slot and frame. -/
def dropLayer (n m b : Nat) (s : State) : State :=
  let o := out s n
  if o.drops.contains m then s
  else
    let p := slotOwner s m
    s |> setOut n { o with drops := o.drops ++ [m] } |> incSat (CMP_OUT_COUNTS_underruns n) 1
      |> wr (CMP_LAYER_LSTAT_underrun m) 1 |> wr (DKW_SLOT_STATE_dropped m) 1
      |> record0 Src.CMP_LAYER_UNDERRUN (some p) [n, m, o.prep, 16 * b] |> raiseLine p 20

/-- The source columns or rows that destination positions `i0` to `i1` read, with `before` and `after` taps beyond the position. -/
def sourceRange (src dst i0 i1 before after : Nat) : Nat × Nat :=
  if src = dst then (i0, i1)
  else (clampIdx src ((scalePos src dst i0).1 - before), clampIdx src ((scalePos src dst i1).1 + after))

/-- The byte ranges a tile fetches of a layer's buffer, as address and length: the rows of each plane it reads. -/
def fetchRanges (l : Layer) (e : Entry) (a : Rect) : List (Nat × Nat) :=
  match formatOf l.format with
  | none => []
  | some f =>
    if f.planes = 0 ∨ a.empty = true then []
    else
      let (c0, c1) := sourceRange l.srcW l.dstW (a.x0 - l.dstX).toNat (a.x1 - 1 - l.dstX).toNat 2 3
      let (r0, r1) := sourceRange l.srcH l.dstH (a.y0 - l.dstY).toNat (a.y1 - 1 - l.dstY).toNat
        (if l.twoTaps then 0 else 1) (if l.twoTaps then 1 else 2)
      let x0 := l.srcX + c0
      let x1 := l.srcX + c1
      let y0 := l.srcY + r0
      let y1 := l.srcY + r1
      let rows (buf stride bpp lo hi : Nat) : List (Nat × Nat) :=
        (List.range (hi + 1 - lo)).map (fun i => (buf + (lo + i) * stride + x0 * bpp, (x1 + 1 - x0) * bpp))
      if fmtPacked l.format then
        let j0 := y0 / 4
        let j1 := y1 / 4
        [(e.buf0 + 4 * j0 * l.stride0, 4 * (j1 + 1 - j0) * l.stride0), (e.buf1 + 2 * j0 * l.stride1, 2 * (j1 + 1 - j0) * l.stride1)]
      else
        rows e.buf0 l.stride0 f.bpp0 y0 y1 ++
        (if f.planes = 2 then
           (if f.halfRows then rows e.buf1 l.stride1 f.bpp1 (y0 / 2 - 1) (min (y1 / 2 + 1) ((l.srcY + l.srcH - 1) / 2))
            else rows e.buf1 l.stride1 f.bpp1 y0 y1)
         else if l.fastClear then
           (List.range (y1 / 8 + 1 - y0 / 8)).map (fun i => (e.buf1 + (y0 / 8 + i) * l.stride1 + x0 / 64, x1 / 64 + 1 - x0 / 64))
         else [])

/-- The checks on the fetches of a list of ranges: the first reason that fails one (4 for poison), or 0. -/
def fetchCheck (p : Nat) (rs : List (Nat × Nat)) (s : State) : Nat × State :=
  rs.foldl (fun acc r =>
    if acc.1 = 0 then
      (match devCheck ⟨masterCmp, p⟩ false r.1 r.2 acc.2 with
       | (0, s1) => (if devPoisoned s1 p r.1 r.2 then 4 else 0, s1)
       | (k, s1) => (k, s1))
    else acc) (0, s)

/-- Whether a layer is composed from its own buffer (R212): untreated, or hatched over a buffer. -/
def usesBuffer (v : SlotSt) : Bool :=
  match v.shows with
  | none => true
  | some (1, _) => true
  | some _ => false

/-- R196: the fetches of a layer for a tile; one that is denied or poisoned drops the layer at once and faults its polder. -/
def fetchLayer (n b t : Nat) (l : Layer) (s : State) : State :=
  let v := slot s l.slot
  match v.inUse with
  | none => s
  | some e =>
    if !usesBuffer v || (out s n).drops.contains l.slot then s
    else
      let p := slotOwner s l.slot
      match fetchCheck p (fetchRanges l e ((l.visible s).inter (tileRect s n b t))) s with
      | (0, s1) => s1
      | (k, s1) => polFault p 80 l.slot k (dropLayer n l.slot b s1)

/-- R177: a tile's cost in CLK_CMP cycles, without waits. -/
def tileCost (s : State) (n b t : Nat) : Nat :=
  64 + ((activeLayers s n).map (fun l => ((l.visible s).inter (tileRect s n b t)).area)).sum

/-- TILE_COMPLETE (R177, R178): an engine finishes its tile. The pool takes the write before the deadline; a later one is discarded. -/
def execTileComplete (e : Fin 32) (s : State) : Out :=
  if !engBusy s e then .next s
  else
    let (n, b, t) := engTile s e
    match tile s n b t, groupOf s n (out s n).prep b with
    | some v, some g =>
      let s1 := advanceTo (v.start + cycleTime (tileCost s n b t)) s
      if v.deadline ≤ s1.now then .next s1
      else
        let before := (out s1 n).drops
        let ls := (activeLayers s1 n).filter (fun l => !v.skip.contains l.slot)
        let s2 := ls.foldl (fun s l => fetchLayer n b t l s) s1
        let skip := v.skip ++ (out s2 n).drops.filter (fun m => !before.contains m)
        let words := tileWords s2 n skip b t
        done (s2 |> setPool n g t { band := b, tag := (out s2 n).prep % 256, epoch := v.epoch, written := true, pixels := words }
          |> setTile n b t { v with engine := none, finished := true, skip := skip } |> engRelease e)
    | _, _ => .next (engRelease e s)

/-- LAYER_UNDERRUN (R196): at a tile's fetch deadline a layer's data for it is incomplete. -/
def execLayerUnderrun (n : Fin 8) (b : Fin 512) (t : Fin 32) (m : Fin 64) (s : State) : Out :=
  match tile s n b t with
  | none => .next s
  | some v =>
    let l := layerOf s m
    if v.finished || v.abandoned || v.skip.contains m.val || !slotActive s m || placedOn s m != n || (slot s m).inUse.isNone ||
        !usesBuffer (slot s m) || l.format == fmtSolid || ((l.visible s).inter (tileRect s n b t)).empty then .next s
    else
      let s1 := advanceTo (frameLineTime s n (16 * (b.val : Int) - rd s (CMP_OUT_COMPOSE_guard n).inForce)) s
      done (dropLayer n m b (setTile n b t { v with skip := v.skip ++ [m.val] } s1))

/-- TILE_ABANDONED (R197): a tile is not finished at its deadline. -/
def execTileAbandoned (n : Fin 8) (b : Fin 512) (t : Fin 32) (s : State) : Out :=
  match tile s n b t with
  | none => .next s
  | some v => if v.finished || v.abandoned then .next s else done (abandonTile n b t 1 (advanceTo v.deadline s))

/-! ## Scan-out's reads of the pool (R235, R236) -/

/-- R235: the words of a tile of frame `f` as scan-out passes them, if it passes the entry. -/
def passedWords (s : State) (n f b t : Nat) : Option (List Nat) :=
  match groupOf s n f b with
  | none => none
  | some g =>
    let p := poolEntry s n g t
    if p.written && p.band == b && p.tag == f % 256 then some p.pixels else none

/-- The no-picture fill of a tile, with both marks 0 (R193, R236). -/
def fillWords (s : State) (n b t : Nat) : List Nat := List.replicate (tileRect s n b t).area (rd s (SCN_FILL_rgb n))

/-- R236: what follows the frame's substitutions once its last tile has been scanned. -/
def staleReport (n : Nat) (s : State) : State :=
  let o := out s n
  if o.stale = 0 then s
  else
    s |> record (Src.SCN_OUT n) 1 none [o.cur, o.stale, o.staleFirst.1 + 65536 * o.staleFirst.2] |> raiseLine 0 23
      |> notifyWardenAnd0 Op.DSP_STALE_TILE [n + 65536 * min o.stale 65535, o.cur]

/-- TILE_SCAN (R235): the next tile of the frame shown, at its deadline. Its words are those passed to the link encoder. -/
def execTileScan (n : Fin 8) (s : State) : Out :=
  let o := out s n
  let w := tilesPerBand s n
  let b := o.scanned / max 1 w
  let t := o.scanned % max 1 w
  let open_ := match tile s n b t with | some v => !v.finished && !v.abandoned | none => false
  if !running s n || o.cur != o.prep || o.attested || open_ || decide (w * bandCount s n ≤ o.scanned) then .next s
  else
    let s1 := advanceTo (lineTime s n (16 * b)) s
    let passed := passedWords s1 n o.cur b t
    let words := passed.getD (fillWords s1 n b t)
    let s2 := { s1 with dsp := { s1.dsp with shown := s1.dsp.shown.put (tileKey n b t) words } }
    let o2 : OutSt := { o with scanned := o.scanned + 1,
                               stale := if passed.isSome then o.stale else o.stale + 1,
                               staleFirst := if passed.isNone && o.stale == 0 then (b, t) else o.staleFirst }
    let s3 := setOut n o2 s2
    let s4 := if passed.isSome then s3 else incSat (DKW_OUT_COUNT_tiles n) 1 s3
    done (if o2.scanned = w * bandCount s n then staleReport n s4 else s4)

/-! ## Write-back (R193 to R195) -/

/-- Write-back is on for an output. -/
def wbOn (s : State) (n : Nat) : Bool := rdB s (CMP_OUT_WB_CTRL_enable n).inForce

/-- The oldest frame of which write-back has still to do band `b`. -/
def wbFrame (s : State) (n b : Nat) : Option Nat :=
  let o := out s n
  ((o.groups.filter (fun e => e.2.2 == b && !o.wbBands.any (fun w => w.1 == e.2.1 && w.2.1 == b))).map (fun e => e.2.1)).head?

/-- The frame buffer of a frame. -/
def wbIndex (s : State) (n f : Nat) : Nat := f % (rd s (CMP_OUT_WB_CTRL_count n).inForce + 1)

/-- Row `y` of a band as write-back copies it: each tile's own words, or the fill. -/
def wbRow (s : State) (n f b y : Nat) : List Nat :=
  (List.range (tilesPerBand s n)).flatMap (fun t =>
    let w := ((tileRect s n b t).x1 - (tileRect s n b t).x0).toNat
    (((passedWords s n f b t).getD (fillWords s n b t)).drop (y * w)).take w)

/-- Whether a tile of the band is written as the fill. -/
def wbFilled (s : State) (n f b : Nat) : Bool := (List.range (tilesPerBand s n)).any (fun t => (passedWords s n f b t).isNone)

/-- R195: rows written with the tag of CMP_OUTn_WB_CTRL.polder; a denied write is dropped, faulted and disables write-back at the
next latch point. -/
def wbRows (n f b : Nat) (s : State) : State :=
  let p := rd s (CMP_OUT_WB_CTRL_polder n).inForce
  let base := rdA s (CMP_OUT_WB_BASE_addr n (wbIndex s n f)).inForce
  let stride := rd s (CMP_OUT_WB_STRIDE_stride n).inForce
  (List.range (min 16 (vActive s n - 16 * b))).foldl (fun s y =>
    let a := base + (16 * b + y) * stride
    match devWrite ⟨masterCmp, p⟩ a (wordsBytes (wbRow s n f b y)) s with
    | (0, s1) => s1
    | (k, s1) =>
      if (out s1 n).wbStop then s1
      else s1 |> setOut n { out s1 n with wbStop := true } |> record0 Src.CMP_WB_DENY (some p) (n :: twoWords a) |> polFault p 80 (64 + n) k) s

/-- R194: a band of a frame has been written or given up. -/
def wbBandDone (n f b : Nat) (dropped fill : Bool) (s : State) : State :=
  let o := out s n
  let bands := o.wbBands ++ [(f, b, dropped, fill)]
  let any := bands.any (fun w => w.1 == f && w.2.2.1)
  let last := b + 1 == bandCount s n
  let s1 := s |> setOut n { o with wbBands := bands } |> sesBand n f b (vActive s n) dropped |> wr (CMP_OUT_WB_FRAME_frame n) f |> wr (CMP_OUT_WB_PROGRESS_band n) b
    |> wrB (CMP_OUT_WB_PROGRESS_fill n) fill |> wrB (CMP_OUT_WB_PROGRESS_dropped n) any |> wrB (CMP_OUT_WB_PROGRESS_done n) last
    |> wr (CMP_OUT_WB_PROGRESS_buffer n) (wbIndex s n f)
  if last || dropped then raiseLine (rd s (CMP_OUT_WB_CTRL_polder n).inForce) 21 s1 else s1

/-- WB_BAND_COMPLETE (R193, R194): a band's copy finishes: once every tile holds the frame's tag, or from the band's deadline. -/
def execWbBandComplete (n : Fin 8) (b : Fin 512) (s : State) : Out :=
  match wbFrame s n b with
  | none => .next s
  | some f =>
    if !wbOn s n then .next s
    else
      let s1 := if wbFilled s n f b && f == (out s n).prep then advanceTo (bandDeadline s n b) s else s
      let fill := wbFilled s1 n f b
      done (wbBandDone n f b false fill (wbRows n f b s1))

/-- WB_BAND_DROP (R194): a band's copy has not finished by the start of line 16(b + 2). Which of its rows have been written is open, so
each is written or not by a free choice. -/
def execWbBandDrop (n : Fin 8) (b : Fin 512) (s : State) : Out :=
  match wbFrame s n b with
  | none => .next s
  | some f =>
    if !wbOn s n then .next s
    else
      let s1 := if f = (out s n).cur then advanceTo (lineTime s n (16 * (b.val + 2))) s else s
      let s2 := if freeBit s1 then wbRows n f b (tookFree s1) else tookFree s1
      done (record0 Src.CMP_WB_DROP (some (rd s (CMP_OUT_WB_CTRL_polder n).inForce)) [n, b, f] (wbBandDone n f b true (wbFilled s1 n f b) s2))

/-- POOL_ENTRY_RELEASE (R192): a band's entries are released at the start of line 16(b + 2) of its frame, or once scan-out has read
the band and write-back has done with it. -/
def execPoolEntryRelease (n : Fin 8) (b : Fin 512) (s : State) : Out :=
  let o := out s n
  match o.groups.find? (fun e => e.2.2 == b.val) with
  | none => .next s
  | some (g, f, _) =>
    let read := f != o.prep || decide ((b.val + 1) * tilesPerBand s n ≤ o.scanned)
    if !read then .next s
    else
      let wbDone := !wbOn s n || o.wbBands.any (fun w => w.1 == f && w.2.1 == b.val)
      let s1 := if wbDone || f != o.cur then s else advanceTo (lineTime s n (16 * (b.val + 2))) s
      .next (setGroups n (o.groups.filter (fun e => e.1 != g)) s1)

end Sys2Proof.Machine
end

