-- ==== Sys2Proof/Machine/Capture.lean ====
section
/-! DEFINITION. The capture inputs (R308 to R310, Table CAP-1). -/
namespace Sys2Proof.Machine

/-- The Table CMP-1 code under which a source format is stored (R308); 0 for one that is not. -/
def capCode (f : CapFormat) : Nat :=
  match f with
  | .rgb8 => 0x03
  | .rgb10 => 0x05
  | .yc8 => 0x14
  | .yc10 => 0x13
  | .other => 0

/-- The slot in force of an input, and the polder that holds it. -/
def capSlot (s : State) (c : Nat) : Nat := rd s (CAP_CTRL_slot c).inForce
def capPolder (s : State) (c : Nat) : Nat := slotOwner s (capSlot s c)

/-- CAP_STATUS as a word. -/
def capStatus (s : State) (c : Nat) : Nat :=
  rd s (CAP_STATUS_signal c) + 2 * rd s (CAP_STATUS_hdcp c) + 4 * rd s (CAP_STATUS_unsupported c) + 8 * rd s (CAP_STATUS_stopped c) +
    16 * rd s (CAP_STATUS_format c)

/-- An input that queues pictures: enabled, a supported source locked, and not stopped. -/
def capQueues (s : State) (c : Nat) : Bool :=
  rdB s (CAP_CTRL_enable c).inForce && rdB s (CAP_STATUS_signal c) && !rdB s (CAP_STATUS_stopped c) && !rdB s (CAP_STATUS_unsupported c)

/-- R310: an input stops, is recorded and reported. -/
def capStop (c : Nat) (s0 : State) : State :=
  let s := wr (CAP_STATUS_stopped c) 1 s0
  let p := capPolder s c
  s |> record0 Src.CAP_SIGNAL (some p) [c, capStatus s c] |> raiseLine p 44
    |> notifyPairs ((wardenPair s).toList ++ (pairOf s p).toList) Op.CAP_SIGNAL [c + 16 * (capStatus s c % 1024)]

/-- CAP_SIGNAL (R308, R310): what the receiver now sees. Loss of the source, a change of it, or encryption stops an enabled input. -/
def execCapSignal (c : Fin 4) (src : CapSource) (s : State) : Out :=
  let was := rdB s (CAP_STATUS_signal c)
  let code := capCode src.format
  let changed := rd s (CAP_STATUS_format c) != code || rd s (CAP_TIMING_h c) != src.h.toNat || rd s (CAP_TIMING_v c) != src.v.toNat ||
    rd s (CAP_RATE_mhz c) != src.mhz.toNat
  let s1 := s |> wrB (CAP_STATUS_signal c) src.locked
  let s2 := if src.locked then
      s1 |> wrB (CAP_STATUS_hdcp c) src.hdcp |> wrB (CAP_STATUS_unsupported c) (code == 0) |> wr (CAP_STATUS_format c) code
        |> wr (CAP_TIMING_h c) src.h.toNat |> wr (CAP_TIMING_v c) src.v.toNat |> wr (CAP_RATE_mhz c) src.mhz.toNat
    else s1
  let stops := (was && (!src.locked || changed)) || (src.locked && src.hdcp)
  done (if stops && rdB s (CAP_CTRL_enable c).inForce && !rdB s (CAP_STATUS_stopped c) then capStop c s2 else s2)

/-! ## Pictures (R309) -/

/-- The first buffer that the slot holds neither in use nor pending. -/
def capFree (s : State) (c : Nat) : Option Nat :=
  let v := slot s (capSlot s c)
  (List.range (rd s (CAP_CTRL_buffers c).inForce + 1)).find? (fun i =>
    !(v.inUse.toList ++ v.pending).any (fun e => e.origin == 65 + c && e.tag == i))

/-- A line of pixels as stored in plane 0 (Table CMP-1): components R, G, B, or Y, Cb, Cr with the chroma of the even pixel. `pad` gives
the unused byte of pixel `x`. -/
def capLine (code : Nat) (pad : Nat → Nat) (px : List (Nat × Nat × Nat)) : List Nat :=
  let at_ (x : Nat) : Nat × Nat × Nat := px.getD x (0, 0, 0)
  (List.range px.length).flatMap (fun x =>
    let (a, b, c) := at_ x
    match code with
    | 0x03 => [a % 256, b % 256, c % 256, pad x]
    | 0x05 => leBytes 4 (a % 1024 + 1024 * (b % 1024) + 1048576 * (c % 1024) + 3 * 1073741824)
    | 0x14 => [a % 256, (if x % 2 = 0 then (at_ x).2.1 else (at_ (x - 1)).2.2) % 256]
    | _ => leBytes 2 (a % 1024 * 64))

/-- A line of chroma as stored in plane 1 of YC422_10. -/
def capChroma (px : List (Nat × Nat × Nat)) : List Nat :=
  (List.range (ceilDiv px.length 2)).flatMap (fun x =>
    let (_, b, c) := px.getD (2 * x) (0, 0, 0)
    leBytes 2 (b % 1024 * 64) ++ leBytes 2 (c % 1024 * 64))

/-- A picture written into buffer `i`, carrying the tag of the slot's polder (R308). Answers the first reason that refused a page. -/
def capWrite (c i : Nat) (lines : List (List (Nat × Nat × Nat))) (s : State) : Nat × State :=
  let e : Engine := ⟨masterCmp, capPolder s c⟩
  let base := rdA s (CAP_BUF_addr c i).inForce
  let stride := rd s (CAP_STRIDE_stride c).inForce
  let code := rd s (CAP_STATUS_format c)
  let keep (r1 : Nat) (rs : Nat × State) : Nat × State := (if r1 ≠ 0 then r1 else rs.1, rs.2)
  (List.range lines.length).foldl (fun rs y =>
    let px := lines.getD y []
    let s1 := rs.2
    let rs1 := keep rs.1 (devWrite e (base + y * stride) (capLine code (fun x => Config.freeValue (s1.free + x) % 256) px) (tookFrees px.length s1))
    if code = 0x13 then keep rs1.1 (devWrite e (base + (lines.length + y) * stride) (capChroma px) rs1.2) else rs1) (0, s)

/-- CAP_PICTURE_DONE (R309): the last line of a picture has been received; its first active line came `ago` nanoseconds earlier. -/
def execCapPictureDone (c : Fin 4) (ago : Nat) (lines : List (List (Fin 1024 × Fin 1024 × Fin 1024))) (s : State) : Out :=
  if !capQueues s c then .next s
  else
    let m := capSlot s c
    let p := capPolder s c
    match capFree s c with
    | none =>
      let s1 := incSat (CAP_COUNTS_dropped c) 1 s
      done (record0 Src.CAP_DROP (some p) [c, rd s1 (CAP_COUNTS_dropped c)] s1)
    | some i =>
      match capWrite c i (lines.map (fun l => l.map (fun x => (x.1.val, x.2.1.val, x.2.2.val)))) s with
      | (0, s1) =>
        let t := s1.devTime - ago
        let buf := rdA s1 (CAP_BUF_addr c i).inForce
        let buf1 := if rd s1 (CAP_STATUS_format c) = 0x13 then buf + rd s1 (CAP_STRIDE_stride c).inForce * lines.length else 0
        let at_ := if rdB s1 (CAP_CTRL_present c).inForce then (t + 1000 * rd s1 (CAP_DELAY_us c).inForce) % 2 ^ 64 else 0
        if 4 ≤ (slot s1 m).pending.length then
          let s2 := incSat (CAP_COUNTS_dropped c) 1 s1
          done (record0 Src.CAP_DROP (some p) [c, rd s2 (CAP_COUNTS_dropped c)] s2)
        else
          let s2 := s1 |> enqueue m { seq := 0, buf0 := buf, buf1 := buf1, fence := 0, target := 0, time := at_, accepted := s1.now,
                                      stamp := some t, concealed := false, origin := 65 + c, tag := i, checked := [] }
          done (s2 |> setSlot m { slot s2 m with beat := s2.devTime } |> wr (CAP_TIME_time c) t |> incWrap (CAP_COUNTS_queued c) 1)
      | (r, s1) => done (polFault p 160 c r (wr (CAP_STATUS_stopped c) 1 s1))

/-! ## Commands (Table VCD-7) -/

/-- The Start fields of an input, in the order of CAP_SET_INPUT's words. -/
def capFields (c : Nat) : List Fld :=
  [CAP_CTRL_enable c, CAP_CTRL_slot c, CAP_CTRL_buffers c, CAP_CTRL_present c, CAP_DELAY_us c, CAP_STRIDE_stride c] ++
    (List.range 4).map (CAP_BUF_addr c)

/-- CAP_CTRL as a word. -/
def capCtrl (s : State) (c : Nat) : Nat :=
  rd s (CAP_CTRL_enable c) + 2 * rd s (CAP_CTRL_slot c) + 256 * rd s (CAP_CTRL_buffers c) + 1024 * rd s (CAP_CTRL_present c)

/-- CAP_GET_INPUT. -/
def capGetInput (q : Req) (s : State) : Answer :=
  let c := bits (q.w 2) 1 0
  if bit (q.w 2) 8 then okR ((List.range 4).flatMap (fun i => twoWords (rdA s (CAP_BUF_addr c i)))) s
  else okR ([capCtrl s c, rd s (CAP_DELAY_us c), rd s (CAP_STRIDE_stride c), capStatus s c,
             rd s (CAP_TIMING_h c) + 65536 * rd s (CAP_TIMING_v c), rd s (CAP_RATE_mhz c)] ++ twoWords (rd s (CAP_TIME_time c)) ++
            [rd s (CAP_COUNTS_queued c) + 65536 * rd s (CAP_COUNTS_dropped c)]) s

/-- CAP_GET_INPUT. -/
def execCapGetInput (k : Fin 32) (s : State) : Out := done (serve Op.CAP_GET_INPUT k capGetInput s)

/-- R308: every page of an input's buffers is the slot's polder's, for the size of the source that is locked. -/
def capBuffersOk (s : State) (c p stride n : Nat) (addrs : List Nat) : Bool :=
  let rows := rd s (CAP_TIMING_v c) * (if rd s (CAP_STATUS_format c) = 0x13 then 2 else 1)
  let size := if rdB s (CAP_STATUS_signal c) then max 1 (stride * rows) else 1
  (addrs.take n).all (fun a => spanOwned s p [] (a, a + size - 1))

/-- CAP_SET_INPUT (R308, R310). -/
def capSetInput (q : Req) (s : State) : Answer :=
  let c := bits (q.w 2) 31 30
  let n := bits (q.w 2) 9 8
  let stride := q.w 4
  let addrs := (List.range 4).map (fun i => (q.w (5 + 2 * i) + 4294967296 * q.w (6 + 2 * i)) % 2 ^ 40)
  let on := bit (q.w 2) 0
  if on ∧ n = 0 then no ST_BAD_ARG s
  else if 65536 ≤ stride ∨ stride % 64 ≠ 0 ∨ (addrs.take (n + 1)).any (fun a => a % 64 != 0) = true then no ST_BAD_ARG s
  else if on ∧ capBuffersOk s c (slotOwner s (bits (q.w 2) 6 1)) stride (n + 1) addrs = false then no ST_BAD_ADDR s
  else
    let s1 := s |> wrB (CAP_CTRL_enable c) on |> wr (CAP_CTRL_slot c) (bits (q.w 2) 6 1) |> wr (CAP_CTRL_buffers c) n
      |> wr (CAP_CTRL_present c) (bits (q.w 2) 10 10) |> wr (CAP_DELAY_us c) (q.w 3) |> wr (CAP_STRIDE_stride c) stride
    let s2 := (List.range 4).foldl (fun s i => wr (CAP_BUF_addr c i) (addrs.getD i 0 / 64) s) s1
    did (s2 |> takeEffect (capFields c) |> wrB (CAP_STATUS_stopped c) (rdB s (CAP_STATUS_hdcp c) && rdB s (CAP_STATUS_signal c)))

/-- CAP_SET_INPUT. -/
def execCapSetInput (k : Fin 32) (s : State) : Out := done (serve Op.CAP_SET_INPUT k capSetInput s)

/-- R311: the inputs bound to a polder's slots stop. -/
def capReset (p : Nat) (s : State) : State :=
  (List.range 4).foldl (fun s c =>
    if rdB s (CAP_CTRL_enable c).inForce && capPolder s c == p && !rdB s (CAP_STATUS_stopped c) then capStop c s else s) s

end Sys2Proof.Machine
end

