-- ==== Sys2Proof/Machine/Memory.lean ====
section
/-! DEFINITION. OCM and the DRAM controller (spec/05_memory_system.md): errors and scrubbing (R123, R124, R142, R434), the address
mapping (R126, R127), refresh (R132, R133), row-hammer defence (R136 to R138), calibration (R141) and the memory commands. -/
namespace Sys2Proof.Machine

/-! ## The pumping station (Table CRP-10) -/

/-- A background activity has run or completed a pass: counted, and reported as late when it comes after more than 1.5 times its
period (R435). A period of 0 has no lateness. -/
def pumpRan (a period : Nat) (s : State) : State :=
  let s1 := incWrap (CRP_PUMP_STAT_runs a) 1 s
  let s2 :=
    if period ≠ 0 ∧ 2 * (s.now - Tab.get 0 s.pumpLast a) > 3 * period then
      let s' := incSat (CRP_PUMP_STAT_late a) 1 s1
      record0 Src.CRP_PUMP_LATE none [a, rd s' (CRP_PUMP_STAT_late a)] s'
    else s1
  { s2 with pumpLast := s2.pumpLast.put a s.now }

/-! ## OCM errors (R123) -/

/-- The byte offset of an address in OCM. -/
def ocmOffset (a : Nat) : Nat := a - ocmBase

/-- A single-bit error found at an OCM address: counted, recorded, and its word awaiting the write-back. -/
def ocmCorrected (a : Nat) (s : State) : State :=
  let s1 := s |> incSat OCM_ECC_STAT_corr 1 |> wr OCM_ECC_ADDR_offset (ocmOffset a) |> wr OCM_ECC_ADDR_uncorr 0
    |> record0 Src.OCM_ECC_CORR none [ocmOffset a]
  { s1 with dmc := { s1.dmc with writeback := s1.dmc.writeback ++ [a / 8] } }

/-- An uncorrectable error found at an OCM address by a master: the word is poisoned, the error counted, recorded and reported. -/
def ocmUncorrectable (a master : Nat) (s : State) : State :=
  s |> poisonWord a |> incSat OCM_ECC_STAT_uncorr 1 |> wr OCM_ECC_ADDR_offset (ocmOffset a) |> wr OCM_ECC_ADDR_uncorr 1
    |> recordReported Src.OCM_ECC_UNCORR none [ocmOffset a, master]

/-- OCM_ECC_WRITEBACK (R123): the bank writes back the oldest corrected word it holds. -/
def execOcmEccWriteback (bank : Fin 12) (s : State) : Out :=
  match s.dmc.writeback.find? (fun w => ocmBank (8 * w) == bank) with
  | some w => .next { s with dmc := { s.dmc with writeback := s.dmc.writeback.erase w } }
  | none => .next s

/-- Words of an OCM bank. -/
def bankWords : Nat := 0x100000

/-- OCM_SCRUB_READ (R123, R124): the next word of a bank. The spec names no master for the scrubber, so the master of an uncorrectable
error's record is a free value. A bank that has granted the scrubber nothing for 100 microseconds gives it the boost of R124 until it
has made 32 accesses. -/
def execOcmScrubRead (bank : Fin 12) (ecc : Ecc) (s : State) : Out :=
  let pos := Tab.get 0 s.dmc.scrubPos bank
  let a := ocmBase + 0x800000 * bank.val + 8 * pos
  let boost := Tab.get 0 s.dmc.scrubBoost bank
  let boost1 := if Tab.get 0 s.dmc.scrubGrant bank + 100000 ≤ s.now then 31 else boost - 1
  let s1 := wr OCM_SCRUB_STAT_position ((ocmOffset a) / 65536)
    { s with dmc := { s.dmc with scrubPos := s.dmc.scrubPos.put bank ((pos + 1) % bankWords),
                                 scrubGrant := s.dmc.scrubGrant.put bank s.now, scrubBoost := s.dmc.scrubBoost.put bank boost1,
                                 scrubCorrected := s.dmc.scrubCorrected + b2n (ecc == Ecc.corrected) } }
  if ecc = Ecc.uncorrectable ∨ poisonedIn s a 8 = true then done (ocmUncorrectable a (freeVal 6 s1) (tookFree s1))
  else if ecc = Ecc.corrected then done (ocmCorrected a s1)
  else done s1

/-- OCM_SCRUB_PASS (R124): the pass over every word is complete. -/
def execOcmScrubPass (s : State) : Out :=
  let s1 := s |> pumpRan 0 60000000000 |> incWrap OCM_SCRUB_STAT_passes 1 |> wr OCM_SCRUB_STAT_position 0
  done (record0 Src.OCM_SCRUB_PASS none [rd s1 OCM_SCRUB_STAT_passes, s.dmc.scrubCorrected]
    { s1 with dmc := { s1.dmc with scrubPos := [], scrubCorrected := 0, scrubStart := s.now } })

/-! ## DRAM mapping (R126, R127) -/

/-- The bits of a row number that the installed capacity has (Table DMC-1). -/
def rowBits (s : State) : Nat := if s.dmc.gib ≤ 8 then 14 else if s.dmc.gib ≤ 16 then 15 else if s.dmc.gib ≤ 32 then 16 else 17

/-- The exclusive-or of the bits of a number. -/
def parity (v : Nat) : Nat := popCount 32 v % 2

/-- The row of an offset. -/
def dramRow (s : State) (o : Nat) : Nat := o / 2 ^ 19 % 2 ^ rowBits s

/-- The channel of an offset. -/
def dramChannel (s : State) (o : Nat) : Nat :=
  ((List.range 4).map (fun j => (bits o (9 + j) (9 + j) + parity (dramRow s o &&& rd s (DMC_MAP_CH_rowmask 0 j))) % 2 * 2 ^ j)).sum

/-- The bank of an offset. -/
def dramBank (s : State) (o : Nat) : Nat :=
  ((List.range 4).map (fun j => (bits o (15 + j) (15 + j) + parity (dramRow s o &&& rd s (DMC_MAP_BA_rowmask 0 j))) % 2 * 2 ^ j)).sum

/-- The column burst of an offset. -/
def dramColumn (o : Nat) : Nat := bits o 8 6 + 8 * bits o 14 13

/-! ## DRAM state -/

/-- Loss of training is in force. -/
def dramFailed (s : State) : Bool := rdB s (DMC_STATUS_failed 0)

/-- DRAM is in self-refresh. -/
def selfRefresh (s : State) : Bool := rdB s (DMC_STATUS_self_refresh 0)

/-- DRAM is trained. -/
def dramReady (s : State) : Bool := rdB s (DMC_STATUS_init_done 0)

/-- A field of every DMC instance given a value. -/
def wrAll (f : Nat → Fld) (v : Nat) (s : State) : State := (List.range 4).foldl (fun s i => wr (f i) v s) s

/-- The DRAM state of MEM_GET_INFO: 0 running, 1 self-refresh, 2 failed, 3 failed permanently. -/
def dramState (s : State) : Nat := if s.dmc.permanent then 3 else if dramFailed s then 2 else if selfRefresh s then 1 else 0

/-- MEM_DRAM_STATE to the warden and polder 0 (R143, R144). -/
def memDramState (reason : Nat) (s : State) : State :=
  notifyWardenAnd0 Op.MEM_DRAM_STATE [dramState s * 2 ^ 24 + reason * 2 ^ 28] s

/-- A DRAM read whose retry also failed (R142): counted, recorded and reported; it returns poison. -/
def dramUncorrectable (a master : Nat) (s : State) : State :=
  let i := if inDramRange a then dramChannel s (a - dramBase) / 4 else 0
  s |> incSat (DMC_ECC_STAT_uncorr i) 1 |> wr (DMC_ECC_ADDR_addr i) (a / 64)
    |> recordReported Src.DMC_ECC_UNCORR none (twoWords (a / 64 * 64) ++ [master])

/-- A DRAM read with a link ECC error that is retried (R142). Retries are kept for a millisecond, for R143. -/
def dramRetried (a : Nat) (s : State) : State :=
  let ch := dramChannel s (a - dramBase)
  let recent := (Tab.get [] s.dmc.retries ch).filter (fun t => decide (s.now < t + 1000000))
  record0 Src.DMC_ECC_RETRY none (twoWords (a / 64 * 64))
    (incSat (DMC_ECC_STAT_retry (ch / 4)) 1 { s with dmc := { s.dmc with retries := s.dmc.retries.put ch (s.now :: recent) } })

/-! ## Refresh (R132, R133) -/

/-- The key of a bank of a channel. -/
def bankKey (ch bank : Nat) : Nat := 16 * ch + bank

/-- A bank's open row closed (R130). -/
def closeRow (ch bank : Nat) (s : State) : State :=
  { s with dmc := { s.dmc with openRows := s.dmc.openRows.put (bankKey ch bank) none } }

/-- Every open row of a channel closed. -/
def closeRows (ch : Nat) (s : State) : State := (List.range 16).foldl (fun s b => closeRow ch b s) s

/-- One refresh of a channel: all banks, or one of the banks still owing refresh in this round. The choice among those depends on
queued requests; it is a free choice. -/
def refreshOne (ch : Nat) (s : State) : State :=
  if rdB s (DMC_REF_CTRL_mode 0) then closeRows ch s
  else
    let doneBanks := Tab.get 0 s.dmc.refreshed ch
    let owing := idxWhere 16 (fun b => !bit doneBanks b)
    let b := owing.getD (freeVal 16 s % owing.length) 0
    let now := setBit doneBanks b
    closeRow ch b (tookFree { s with dmc := { s.dmc with refreshed := s.dmc.refreshed.put ch (if now = 0xFFFF then 0 else now) } })

/-- `n` refreshes of a channel. -/
def refreshMany : Nat → Nat → State → State
  | 0, _, s => s
  | n + 1, ch, s => refreshMany n ch (refreshOne ch s)

/-- The postponed refreshes of a channel. -/
def refreshDebt (s : State) (ch : Nat) : Nat := rd s (DMC_REF_STAT_debt (ch / 4)) / 16 ^ (ch % 4) % 16

/-- The postponed refreshes of a channel given a number. -/
def setDebt (ch n : Nat) (s : State) : State :=
  let v := rd s (DMC_REF_STAT_debt (ch / 4))
  wr (DMC_REF_STAT_debt (ch / 4)) (v - v / 16 ^ (ch % 4) % 16 * 16 ^ (ch % 4) + n * 16 ^ (ch % 4)) s

/-- Whether a real-time master holds its urgent flag on a channel (R131). -/
def urgentOn (s : State) (ch : Nat) : Bool := Tab.get 0 s.dmc.urgent ch != 0

/-- Whether a real-time master holds its urgent flag on any channel. -/
def anyUrgent (s : State) : Bool := (List.range 16).any (urgentOn s)

/-- DRAM_REFRESH (R133): a refresh falls due on a channel. -/
def execDramRefresh (ch : Fin 16) (s : State) : Out :=
  if !dramReady s || selfRefresh s then .next s
  else if urgentOn s ch && rdB s (DMC_REF_CTRL_postpone_en 0) then
    if refreshDebt s ch < 8 then .next (setDebt ch (refreshDebt s ch + 1) s)
    else done (s |> refreshOne ch |> orBits (DMC_REF_STAT_forced (ch.val / 4)) (2 ^ (ch.val % 4))
      |> record0 Src.DMC_REFRESH_FORCED none [ch, refreshDebt s ch])
  else done (refreshOne ch s)

/-- A master in DMC_RT_MASK. -/
def realTime (s : State) (m : Nat) : Bool := bit (rd s (DMC_RT_MASK_masters 0)) m

/-- URGENT_FLAG_CHANGE (R131, R133): when no flag is held on the channel any more, its postponed refreshes are repaid. -/
def execUrgentFlagChange (master : Fin 64) (ch : Fin 16) (up : Bool) (s : State) : Out :=
  if up && !realTime s master then .next s
  else
    let u := Tab.get 0 s.dmc.urgent ch
    let u1 := if up then setBit u master else clrBit u master
    let s1 := { s with dmc := { s.dmc with urgent := s.dmc.urgent.put ch u1 } }
    let f := DMC_STATUS_urgent (ch.val / 4)
    let s2 := if u1 = 0 then clrBits f (2 ^ (ch.val % 4)) s1 else orBits f (2 ^ (ch.val % 4)) s1
    if u1 = 0 then .next (setDebt ch 0 (refreshMany (refreshDebt s2 ch) ch s2)) else .next s2

/-- The length of a refresh window (R136). -/
def refreshWindow : Nat := 32000000

/-- REFRESH_WINDOW_START (R136, R138): the trackers are cleared and throttling ends. -/
def execRefreshWindowStart (s : State) : Out :=
  if !dramReady s then .next s
  else
    let t := s.dmc.windowStart + refreshWindow
    let s1 := advanceTo t s
    .next (wrAll DMC_RH_THROTTLED_masters 0 { s1 with dmc := { s1.dmc with trackers := [], windowStart := t } })

/-! ## Row-hammer defence (R136, R137) -/

/-- R136: an activation of a row in a bank's tracker. -/
def trackRow (row master : Nat) (ts : List Tracker) : List Tracker :=
  if ts.any (fun t => t.row == row) then
    ts.map (fun t => if t.row = row then { t with count := t.count + 1, master := master } else t)
  else if ts.length < 16 then ts ++ [⟨row, 1, master⟩]
  else
    let least := (ts.map (fun t => t.count)).foldl min ((ts.headD ⟨0, 0, 0⟩).count)
    match ts.findIdx? (fun t => t.count == least) with
    | some i => ts.set i ⟨row, least + 1, master⟩
    | none => ts

/-- R137: a tracker entry that has passed the threshold. -/
def crossed (ch bank : Nat) (t : Tracker) (s : State) : State :=
  let i := ch / 4
  let key := bankKey ch bank
  let ts := (Tab.get [] s.dmc.trackers key).map (fun u => if u.row = t.row then { u with count := 0 } else u)
  let s1 := { s with dmc := { s.dmc with trackers := s.dmc.trackers.put key ts } }
  let s2 := s1 |> closeRow ch bank |> wr (DMC_RH_LAST_channel i) (ch % 4) |> wr (DMC_RH_LAST_bank i) bank
    |> wr (DMC_RH_LAST_row i) t.row |> wr (DMC_RH_LAST_master i) t.master
    |> record0 Src.DMC_ROWHAMMER none [ch + 16 * bank, t.row, t.master]
  if realTime s t.master then s2 else orBits (DMC_RH_THROTTLED_masters 0) (2 ^ t.master) s2

/-- R130, R136, R137: an access of a master to DRAM: an activation when its row is not the open one. -/
def activate (a master : Nat) (s : State) : State :=
  let o := a - dramBase
  let ch := dramChannel s o
  let bank := dramBank s o
  let row := dramRow s o
  let key := bankKey ch bank
  if Tab.get none s.dmc.openRows key = some row then s
  else
    let ts := trackRow row master (Tab.get [] s.dmc.trackers key)
    let s1 := { s with dmc := { s.dmc with openRows := s.dmc.openRows.put key (some row), trackers := s.dmc.trackers.put key ts } }
    match ts.find? (fun t => t.row == row && decide (rd s (DMC_RH_THRESH_thresh 0) < t.count)) with
    | some t => crossed ch bank t s1
    | none => s1

/-! ## Calibration and patrol (R141, R434) -/

/-- ZQ_CALIBRATION (R141): every 100 ms. -/
def execZqCalibration (s : State) : Out :=
  if !dramReady s || dramFailed s || selfRefresh s then .next s
  else
    let s1 := advanceTo (s.dmc.lastZq + 100000000) s
    done (pumpRan 2 100000000 { s1 with dmc := { s1.dmc with lastZq := s1.now } })

/-- The drift of a temperature from the last pass's, in 0.1 degrees. -/
def drift (s : State) (temp : Nat) : Nat := (sgn 16 temp - rdI s (DMC_TRAIN_STAT_temp 0)).natAbs

/-- The temperature of the DRAM as a pass found it: above 85 degrees the refresh rate is doubled (DMC_STATUS.hot). -/
def dramTemp (temp : Nat) (s : State) : State :=
  s |> wrAll DMC_TRAIN_STAT_temp temp |> wrAll DMC_STATUS_hot (if 850 < sgn 16 temp then 15 else 0)

/-- A retraining pass complete on every channel: counted, with its temperature. -/
def passComplete (temp : Nat) (s : State) : State :=
  dramTemp temp ((List.range 4).foldl (fun s i => incWrap (DMC_TRAIN_STAT_passes i) 1 s) s)

/-- RETRAIN_STEP (R141): one channel of a pass, which begins once the temperature has drifted 10 degrees and takes the channels in
order. -/
def execRetrainStep (ch : Fin 16) (temp : BitVec 16) (s : State) : Out :=
  if !dramReady s || dramFailed s || selfRefresh s || s.dmc.passCh != ch || (ch.val == 0 && decide (drift s temp.toNat < 100)) then
    .next s
  else
    let s1 := closeRows ch s
    if ch.val = 15 then done (pumpRan 3 0 (passComplete temp.toNat { s1 with dmc := { s1.dmc with passCh := 0 } }))
    else .next { s1 with dmc := { s1.dmc with passCh := ch + 1 } }

/-- Steps of 64 KiB in the installed DRAM. -/
def patrolSteps (s : State) : Nat := s.dmc.gib * 16384

/-- DRAM_PATROL (R433, R434): a step of the patrol, deferred while an urgent flag is held. The burst at which a retry fails within the
step, and the master that its record names, are free values: the spec names neither. -/
def execDramPatrol (retryFailed : Bool) (s : State) : Out :=
  if !dramReady s || dramFailed s || selfRefresh s || anyUrgent s || patrolSteps s == 0 then .next s
  else
    let a := dramBase + 65536 * (s.dmc.patrol % patrolSteps s)
    let next := (s.dmc.patrol + 1) % patrolSteps s
    let s1 := { s with dmc := { s.dmc with patrol := next } }
    let s2 := if next = 0 then pumpRan 1 86400000000000 s1 else s1
    if retryFailed then
      let burst := a + 64 * freeVal 10 s2
      let s3 := tookFree s2
      done (dramUncorrectable burst (freeVal 6 s3) (dramRetried burst (tookFree s3)))
    else done s2

/-! ## Commands (Table MEM-1) -/

/-- MEM_GET_INFO. -/
def memGetInfo (_ : Req) (s : State) : Answer :=
  okR ([s.dmc.gib % 256 + 256 * (s.dmc.mts % 65536) + 2 ^ 24 * dramState s,
    rd s (DMC_PASR_keep 0) + 16 * rd s (DMC_REF_CTRL_mode 0) + 32 * rd s (DMC_REF_CTRL_postpone_en 0)] ++
    (List.range 4).map (fun j => rd s (DMC_MAP_CH_rowmask 0 j)) ++ (List.range 4).map (fun j => rd s (DMC_MAP_BA_rowmask 0 j))) s

/-- MEM_GET_INFO. -/
def execMemGetInfo (k : Fin 32) (s : State) : Out := done (serve Op.MEM_GET_INFO k memGetInfo s)

/-- MEM_GET_OCM_REGION. -/
def memGetOcmRegion (r : Req) (s : State) : Answer :=
  let m := bits (r.w 2) 5 0
  okR ((List.range 4).flatMap (fun i => [rd s (OCM_RGN_BASE_page m i), rd s (OCM_RGN_LIMIT_page m i),
    rd s (OCM_RGN_CTRL_rd m i) + 2 * rd s (OCM_RGN_CTRL_wr m i) + 4 * rd s (OCM_RGN_CTRL_enable m i)])) s

/-- MEM_GET_OCM_REGION. -/
def execMemGetOcmRegion (k : Fin 32) (s : State) : Out := done (serve Op.MEM_GET_OCM_REGION k memGetOcmRegion s)

/-- MEM_GET_THROTTLE. -/
def memGetThrottle (_ : Req) (s : State) : Answer :=
  okR (twoWords (rd s (DMC_RH_THROTTLED_masters 0)) ++ [(s.dmc.windowStart + refreshWindow - s.now) / 1000000]) s

/-- MEM_GET_THROTTLE. -/
def execMemGetThrottle (k : Fin 32) (s : State) : Out := done (serve Op.MEM_GET_THROTTLE k memGetThrottle s)

/-- A region register set (R116). -/
def setRegion (m i first last ctrl : Nat) (s : State) : State :=
  s |> wr (OCM_RGN_BASE_page m i) first |> wr (OCM_RGN_LIMIT_page m i) last |> wr (OCM_RGN_CTRL_rd m i) (bits ctrl 0 0)
    |> wr (OCM_RGN_CTRL_wr m i) (bits ctrl 1 1) |> wr (OCM_RGN_CTRL_enable m i) (bits ctrl 2 2)

/-- MEM_SET_OCM_REGION (R116, R146). -/
def memSetOcmRegion (r : Req) (s : State) : Answer :=
  let first := bits (r.w 3) 14 0
  let last := bits (r.w 4) 14 0
  if last < first ∨ 24575 < last then no ST_BAD_ARG s
  else if first < 4096 ∧ r.fromSecure = false then no ST_NOT_OWNER s
  else did (setRegion (bits (r.w 2) 5 0) (bits (r.w 2) 9 8) first last (bits (r.w 2) 14 12) s)

/-- MEM_SET_OCM_REGION. -/
def execMemSetOcmRegion (k : Fin 32) (s : State) : Out := done (serve Op.MEM_SET_OCM_REGION k memSetOcmRegion s)

/-- The size of a self-refresh segment (Table DMC-1). -/
def segmentBytes (s : State) : Nat := dramBytes s / 8

/-- R140: the polder map in force lies in a segment that `keep` drops. -/
def mapDropped (s : State) (keep : Nat) : Bool :=
  rdB s PLD_MODE_STAT_mode && decide (dramBase + keep * segmentBytes s < mapBase s + (24576 + 262144 * s.dmc.gib))

/-- MEM_SET_PASR (R139, R140). -/
def memSetPasr (r : Req) (s : State) : Answer :=
  let keep := bits (r.w 2) 3 0
  if keep = 0 ∨ 8 < keep then no ST_BAD_ARG s
  else if mapDropped s keep then no ST_PASR_MAP s
  else did (wr (DMC_PASR_keep 0) keep s)

/-- MEM_SET_PASR. -/
def execMemSetPasr (k : Fin 32) (s : State) : Out := done (serve Op.MEM_SET_PASR k memSetPasr s)

/-- MEM_SET_REFRESH (R132, R133). -/
def memSetRefresh (r : Req) (s : State) : Answer :=
  if dramFailed s then no ST_DRAM_FAILED s
  else did (s |> wr (DMC_REF_CTRL_mode 0) (bits (r.w 2) 0 0) |> wr (DMC_REF_CTRL_postpone_en 0) (bits (r.w 2) 1 1))

/-- MEM_SET_REFRESH. -/
def execMemSetRefresh (k : Fin 32) (s : State) : Out := done (serve Op.MEM_SET_REFRESH k memSetRefresh s)

/-- MEM_SET_ROWHAMMER (R146). -/
def memSetRowhammer (r : Req) (s : State) : Answer :=
  let th := bits (r.w 2) 15 0
  let rate := bits (r.w 2) 23 16
  if th < 256 ∨ rate = 0 then no ST_BAD_ARG s
  else did (s |> wr (DMC_RH_THRESH_thresh 0) th |> wr (DMC_RH_RATE_acts 0) rate)

/-- MEM_SET_ROWHAMMER. -/
def execMemSetRowhammer (k : Fin 32) (s : State) : Out := done (serve Op.MEM_SET_ROWHAMMER k memSetRowhammer s)

/-- The bits of a real-time mask that R146 does not ignore. -/
def rtMask (m : Nat) : Nat := m &&& 0xFFFDFE

/-- MEM_SET_RT_MASTERS (R146). -/
def memSetRtMasters (r : Req) (s : State) : Answer := did (wr (DMC_RT_MASK_masters 0) (rtMask (r.w 2 + 4294967296 * r.w 3)) s)

/-- MEM_SET_RT_MASTERS. -/
def execMemSetRtMasters (k : Fin 32) (s : State) : Out := done (serve Op.MEM_SET_RT_MASTERS k memSetRtMasters s)

end Sys2Proof.Machine
end

