-- ==== Sys2Proof/Machine/Clock.lean ====
section
/-! DEFINITION. The vault's clock and what keeps it (R399), and the vault's own times. -/
namespace Sys2Proof.Machine

/-- The vault changed. -/
def setVlt (f : VltSt → VltSt) (s : State) : State := { s with vlt := f s.vlt }

/-- A write that reaches the vault while its interface is not isolated (Table VLT-2 step 5). -/
def vltWrite (f : VltSt → VltSt) (s : State) : State := if s.vlt.isolated then s else setVlt f s

/-- R399: the clock's time in nanoseconds. -/
def rtcNs (v : VltSt) : Nat := v.seconds * 1000000000 + v.frac * 1000000000 / 32768

/-- R399: the clock set to a time in nanoseconds, and recorded. -/
def rtcSet (t : Nat) (s : State) : State :=
  let secs := t / 1000000000 % 2 ^ 48
  if s.vlt.isolated then s
  else s |> setVlt (fun v => { v with seconds := secs, frac := t % 1000000000 * 32768 / 1000000000, rtcRem := 0, rtcValid := true })
    |> record0 Src.VLT_RTC_SET none [s.vlt.seconds, secs]

/-- R399, activity 9 of Table CRP-10: Tujan sets the clock from device time; `period` 0 for a run that no period governs. -/
def rtcSync (period : Nat) (s : State) : State := pumpRan 9 period (rtcSet s.devTime s)

/-- RTC_SYNC (R399): an hour after the last time, while the time state is SYNC. -/
def execRtcSync (s : State) : Out :=
  if rd s ONL_TIME_STAT_state ≠ 1 then .next s
  else done (rtcSync 3600000000000 (advanceTo (Tab.get 0 s.pumpLast 9 + 3600000000000) s))

end Sys2Proof.Machine
end

