-- ==== Sys2Proof/Machine/DikeWatch.lean ====
section
/-! DEFINITION. The dike watch (spec/08_dike_watch.md): region comparison and breaches (R215 to R221), motion and AUTO reads (R210,
R211, R218), attestation records (R222 to R227), its doorbell registers and its commands. -/
namespace Sys2Proof.Machine

/-! ## Regions (R215, R216, R220) -/

/-- The word scan-out passed at a pixel of the frame shown. -/
def shownWord (s : State) (n x y : Nat) : Nat :=
  let b := y / 16
  let t := x / 256
  let a := tileRect s n b t
  (Tab.get [] s.dsp.shown (tileKey n b t)).getD (y % 16 * (a.x1 - a.x0).toNat + x % 256) 0

/-- R215: the signature of a region over what scan-out has passed. -/
def regionSignature (s : State) (n r : Nat) : Nat :=
  let a := regionRect s n r
  crc32c ((List.range (a.y1 - a.y0).toNat).flatMap (fun dy => (List.range (a.x1 - a.x0).toNat).flatMap (fun dx =>
    codeBytes (depth8 s n) (shownWord s n (a.x0.toNat + dx) (a.y0.toNat + dy)))))

/-- Table DKW-5: the status of a region and the expected value its record carries. -/
def regionStatus (s : State) (n r sig : Nat) : Nat × Nat :=
  let v := region s n r
  let e := v.expected.getD 0
  if v.treated ≠ 0 then (v.treated, e)
  else match regionSource s n r with
    | 0 => (match v.expected with | none => (4, 0) | some x => (if x = sig then 1 else 2, x))
    | 1 => if v.auto = 1 then (5, 0) else if v.auto = 2 then (if e = sig then 1 else 2, e) else (4, 0)
    | _ => if v.learning then (6, 0) else (if e = sig then 1 else 2, e)

/-- R220: a region breach in frame `f`. A pending clear is dropped (R221). -/
def breach (n r f st : Nat) (s : State) : State :=
  let was := bit (rd s (DKW_OUT_BREACH_region n)) r
  let s1 := s |> orBits (DKW_OUT_BREACH_region n) (2 ^ r) |> incSat (DKW_OUT_COUNT_breaches n) 1
    |> putRegion n r { region s n r with clearing := false } |> record0 Src.DKW_BREACH (some 0) [n, r, f, st]
  if was then s1
  else s1 |> raiseLine 0 23 |> notifyWardenAnd0 Op.DKW_BREACH_NOTIFY [n + 256 * r + 4096 * st, f]

/-- REGION_COMPARE (R216): a region's last pixel has passed to the link encoder. -/
def execRegionCompare (n : Fin 8) (r : Fin 16) (s : State) : Out :=
  let o := out s n
  let a := regionRect s n r
  let lastBand := (a.y1.toNat - 1) / 16
  if !running s n || o.cur != o.prep || o.attested || !regionOn s n r || (region s n r).compared ||
      decide (o.scanned < (lastBand + 1) * tilesPerBand s n) then .next s
  else
    let s1 := advanceTo (lineTime s n a.y1.toNat) s
    let sig := regionSignature s1 n r
    let (st, used) := regionStatus s1 n r sig
    let v := region s1 n r
    let learn := st == 6
    let s2 := s1 |> putRegion n r { v with compared := true, used := used, learned := if learn then sig else v.learned,
                                           learning := v.learning && !learn }
      |> wr (DKW_OUT_REG_LAST_sig n r) sig |> wr (DKW_OUT_REG_STAT_status n r) st
    done (if st = 2 ∨ st = 4 ∨ st = 5 then breach n r o.cur st s2 else s2)

/-! ## Motion and AUTO reads -/

/-- The byte ranges of a motion window (R210): rows of plane 0; for a packed format the header and the packed units of every block of
the whole blocks the window widens to. -/
def motionRanges (s : State) (l : Layer) (e : Entry) : List (Nat × Nat) :=
  let g (f : Fld) : Nat := rd s f.inForce
  let x := g (DKW_SLOT_MOTION_XY_x l.slot)
  let y := g (DKW_SLOT_MOTION_XY_y l.slot)
  let w := g (DKW_SLOT_MOTION_WH_w l.slot)
  let h := g (DKW_SLOT_MOTION_WH_h l.slot)
  let bpp := match formatOf l.format with | some f => f.bpp0 | none => 0
  if fmtPacked l.format then
    let byte := devByte s (slotOwner s l.slot)
    (List.range ((y + h + 3) / 4 - y / 4)).flatMap (fun dj =>
      let j := y / 4 + dj
      (e.buf0 + 4 * j * l.stride0 + l.stride0 - 64, 64) ::
      (List.range ((x + w + 63) / 64 - x / 64)).flatMap (fun dk =>
        let k := x / 64 + dk
        (List.range (packedCode byte e.buf0 l.stride0 0 j k + 1)).map (fun u => (e.buf0 + (4 * j + u) * l.stride0 + 64 * k * bpp, 64 * bpp))))
  else (List.range h).map (fun i => (e.buf0 + (y + i) * l.stride0 + x * bpp, w * bpp))

/-- MOTION_READ_DONE (R211): the read for the frame completes. A denied read faults the polder and returns zeros (R79); what a
poisoned one gives is open. -/
def execMotionReadDone (m : Fin 64) (s : State) : Out :=
  let v := slot s m
  match v.reading, v.inUse with
  | some _, some e =>
    let p := slotOwner s m
    let rs := motionRanges s (layerOf s m) e
    let (k, s1) := fetchCheck p rs s
    let bytes := if k = 0 then rs.flatMap (fun r => devBytes s1 p r.1 r.2) else rs.flatMap (fun r => List.replicate r.2 0)
    let sig := if k = 4 then freeVal 32 s1 else crc32c bytes
    let s2 := if k = 4 then tookFree s1 else s1
    let s3 := if k = 0 then s2 else polFault p 80 m k s2
    let run := if v.sig = some sig then satAdd 8 (rd s3 (DKW_SLOT_STATE_run m)) 1 else 1
    done (s3 |> setSlot m { slot s3 m with reading := none, sig := some sig } |> wr (DKW_SLOT_STATE_run m) run)
  | _, _ => .next s

/-- AUTO_READ_DONE (R218): an AUTO region's read of its subject completes. -/
def execAutoReadDone (n : Fin 8) (r : Fin 16) (s : State) : Out :=
  let v := region s n r
  let m := regionSlot s n r
  match (slot s m).inUse with
  | some e =>
    if v.auto ≠ 1 ∨ v.compared = true then .next s
    else
      let (k, s1) := fetchCheck (slotOwner s m) (fetchRanges (layerOf s m) e (regionRect s n r)) s
      if k = 0 then .next (putRegion n r { v with auto := 2, expected := some (autoSignature s1 n r e) } s1)
      else done (polFault (slotOwner s m) 80 m k (putRegion n r { v with auto := 3 } s1))
  | none => .next s

/-! ## Attestation (R222 to R227) -/

/-- The LIVE and SUPERVISED slots enabled on an output, in the order of R223. -/
def attestOrder (s : State) (n : Nat) : List Nat :=
  let ms := (slotsOn s n).filter (fun m => slotActive s m && liveClass s m != 0)
  let stale := ms.filter (fun m => staleState (rd s (DKW_SLOT_STATE_state m)))
  let rest := ms.filter (fun m => !staleState (rd s (DKW_SLOT_STATE_state m)))
  stale ++ rest.filter (fun m => liveClass s m == 2) ++ rest.filter (fun m => liveClass s m == 1)

/-- A layer entry of a record. -/
def attestLayer (s : State) (n m : Nat) : Nat :=
  m + 64 * rd s (DKW_SLOT_STATE_state m) + 1024 * b2n ((out s n).drops.contains m) + 2048 * rd s (DKW_SLOT_STATE_action m) +
    4096 * min (rd s (DKW_SLOT_AGE_us m) / 32) 0xFFFFF

/-- Bytes 0x00 to 0xDF of an output's record (Table DKW-7), with `prev` the mac before it. -/
def attestBody (s : State) (n : Nat) (prev : List Nat) : List Nat :=
  let o := out s n
  let regs := regionsOn s n
  let ms := attestOrder s n
  let stale := (ms.filter (fun m => staleState (rd s (DKW_SLOT_STATE_state m)))).length
  let word0 := 1 + 256 * n + 2048 * regs.length + 65536 * min 7 ms.length + 2 ^ 19 * rd s ONL_TIME_STAT_unsync +
    2 ^ 20 * b2n (decide (7 < ms.length)) + 2 ^ 21 * b2n (decide (7 < stale)) + 2 ^ 22 * b2n (o.stale != 0) +
    2 ^ 23 * b2n (o.restart != 0) + 2 ^ 24 * b2n (!rdB s DKW_KEY_CTRL_keyed)
  let commit := rd s (CMP_OUT_IN_FORCE_id n) + 2 ^ 16 * rd s (CMP_OUT_IN_FORCE_polder n) + 2 ^ 21 * rd s (CMP_OUT_IN_FORCE_device n) +
    2 ^ 22 * rd s (CMP_OUT_IN_FORCE_valid n)
  let each (f : Nat → Nat) : List Nat := (List.range 16).map (fun r => if regs.contains r then f r else 0)
  leBytes 4 word0 ++ leBytes 4 o.cur ++ leBytes 8 (rd s (SCN_FLIP_TIME_time n)) ++ leBytes 4 commit ++
    ((((ms.take 7).map (attestLayer s n)) ++ List.replicate 7 0).take 7).flatMap (leBytes 4) ++
    each (fun r => r + 16 * rd s (DKW_OUT_REG_STAT_status n r)) ++
    (each (fun r => rd s (DKW_OUT_REG_LAST_sig n r))).flatMap (leBytes 4) ++
    (each (fun r => (region s n r).used)).flatMap (leBytes 4) ++ prev

/-- A record stored at the next entry of the ring (R222). -/
def dkwRingStore (rec : List Nat) (s : State) : State :=
  let size := max 1 (rd s DKW_RING_CTRL_size.inForce)
  let w := rd s DKW_RING_WR_index
  let s1 := (devWrite ⟨masterCmp, 0⟩ (rdA s DKW_RING_BASE_base.inForce + 256 * w) rec s).2
  let w1 := (w + 1) % size
  let s2 := wr DKW_RING_WR_index w1 s1
  if w1 = rd s2 DKW_RING_RD_index then
    let s3 := s2 |> wr DKW_RING_RD_index ((rd s2 DKW_RING_RD_index + 1) % size) |> incSat DKW_RING_OVERRUN_count 1
    record0 Src.DKW_RING_OVERRUN none [rd s3 DKW_RING_OVERRUN_count] s3
  else s2

/-- R222 to R226: an output's record of the frame shown. -/
def attest (n : Nat) (s : State) : State :=
  let o := out s n
  let body := attestBody s n (if o.restart ≠ 0 ∨ o.mac = [] then List.replicate 32 0 else o.mac)
  let mac := hmacSha256 s.dsp.key body
  let rec_ := body ++ mac
  let s1 := if o.restart = 0 then s else record0 Src.DKW_CHAIN_RESTART none [n, o.cur, o.restart] s
  let s2 := setOut n { o with mac := mac, macFrame := o.cur, restart := 0, attested := true,
                              stopDue := o.mode.isSome && !o.configured } s1
  let s3 := if rdB s2 DKW_RING_CTRL_enable then dkwRingStore rec_ s2 else s2
  let s4 := if bit (rd s3 DKW_STREAM_onl) n then exportSend 1 1 rec_ s3 else s3
  if bit (rd s4 DKW_STREAM_rec) n then sesRecord n o.cur (rd s4 (SCN_FLIP_TIME_time n)) rec_ s4 else s4

/-- ATTEST_RECORD (R222): line V_ACTIVE of the frame shown, with every tile scanned and every region compared. -/
def execAttestRecord (n : Fin 8) (s : State) : Out :=
  let o := out s n
  if !running s n || o.cur != o.prep || o.attested || decide (o.scanned < tilesPerBand s n * bandCount s n) ||
      !(regionsOn s n).all (fun r => (region s n r).compared) then .next s
  else done (attest n (advanceTo (lineTime s n (vActive s n)) s))

/-- The chain of every output restarts at its next record, for a reason of Table MAP-4; the earlier of two reasons stands. -/
def restartChains (reason : Nat) (s : State) : State :=
  (List.range 8).foldl (fun s n => if (out s n).restart = 0 then setOut n { out s n with restart := reason } s else s) s

/-- R224: the key written to DKW_KEY0 to 7 taken into use. -/
def loadKey (s : State) : State :=
  let s1 := { s with dsp := { s.dsp with key := (List.range 8).flatMap (fun k => leBytes 4 (rd s (DKW_KEY_key k))) } }
  s1 |> wr DKW_KEY_CTRL_keyed 1 |> restartChains 2 |> record0 Src.DKW_KEY_LOADED (some 0) []

/-- DKW_KEY_LOAD (R224): a write of DKW_KEY_CTRL. -/
def execDkwKeyLoad (a : Access) (addr : BitVec 40) (v : BitVec 32) (s : State) : Out :=
  regWrite a addr.toNat v.toNat (addr.toNat == 0x20240020) (fun _ s => if bit v.toNat 0 then loadKey s else s) s

/-- The records a ring may have (Table DKW-10). -/
def ringSizeOk (n : Nat) : Bool := decide (64 ≤ n) && decide (n ≤ 16384) && n % 64 == 0

/-- A write of DKW_RING_CTRL (R225, R229): a change of enable from 0 to 1 takes base and size, zeroes the indices and restarts the
chains; with a size that Table DKW-10 does not allow it is a reserved encoding (R14). -/
def ringControl (c : Carried) (addr v : Nat) (s : State) : State :=
  let size := bits v 14 0
  if bit v 16 && !ringSizeOk size then violateAt c 4 addr v s
  else
    let was := rdB s DKW_RING_CTRL_enable
    let s1 := s |> wr DKW_RING_CTRL_size size |> wrB DKW_RING_CTRL_enable (bit v 16)
    if bit v 16 && !was then
      s1 |> takeEffect [DKW_RING_BASE_base, DKW_RING_CTRL_size] |> wr DKW_RING_WR_index 0 |> wr DKW_RING_RD_index 0 |> restartChains 3
    else s1

/-- DKW_RING_ENABLE (R225). -/
def execDkwRingEnable (a : Access) (addr : BitVec 40) (v : BitVec 32) (s : State) : Out :=
  regWrite a addr.toNat v.toNat (addr.toNat == 0x20240038) (fun c s => ringControl c addr.toNat v.toNat s) s

/-- R227: every output's latest head latched. -/
def headSnap (s : State) : State :=
  (List.range 8).foldl (fun s n =>
    let o := out s n
    (List.range 8).foldl (fun s k => wr (DKW_HEAD_MAC_mac n k) (leNat ((o.mac.drop (4 * k)).take 4)) s) (wr (DKW_HEAD_FRAME_frame n) o.macFrame s))
    (wr DKW_HEAD_TIME_time s.devTime s)

/-- DKW_HEAD_SNAP (R227). -/
def execDkwHeadSnap (a : Access) (addr : BitVec 40) (v : BitVec 32) (s : State) : Out :=
  regWrite a addr.toNat v.toNat (addr.toNat == 0x20240050) (fun _ s => if bit v.toNat 0 then headSnap s else s) s

/-! ## Region doorbells -/

/-- The output and region whose register at offset `off` an address is. -/
def regionReg (addr off : Nat) : Option (Nat × Nat) :=
  if 0x20244000 ≤ addr ∧ addr < 0x20245000 ∧ (addr - 0x20244000) % 0x20 = off then
    some ((addr - 0x20244000) / 0x200, (addr - 0x20244000) / 0x20 % 16)
  else none

/-- R217: a pair queued to a region, or discarded. -/
def expectPush (n r tag : Nat) (s : State) : State :=
  let v := region s n r
  if 4 ≤ v.pairs.length then
    s |> wr (DKW_OUT_REG_EXPECT_STAT_overflow n r) 1 |> record0 Src.DKW_EXPECT_OVERFLOW (some 0) [n, r]
  else
    s |> putRegion n r { v with pairs := v.pairs ++ [(rd s (DKW_OUT_REG_EXPECT_value n r), tag)] }
      |> wr (DKW_OUT_REG_EXPECT_STAT_queued n r) (v.pairs.length + 1)

/-- EXPECT_PUSH (R217). -/
def execExpectPush (a : Access) (addr : BitVec 40) (v : BitVec 32) (s : State) : Out :=
  regWrite a addr.toNat v.toNat (regionReg addr.toNat 0x10).isSome (fun _ s =>
    match regionReg addr.toNat 0x10 with
    | some (n, r) => expectPush n r v.toNat s
    | none => s) s

/-- The output whose DKW output register at offset `off` an address is. -/
def dkwOutReg (addr off : Nat) : Option Nat :=
  if 0x20246000 ≤ addr ∧ addr < 0x20246080 ∧ addr % 0x10 = off then some ((addr - 0x20246000) / 0x10) else none

/-- R221: writes of 1 to breach bits wait for the next latch point. -/
def breachClear (n v : Nat) (s : State) : State :=
  (idxWhere 16 (fun r => bit v r && bit (rd s (DKW_OUT_BREACH_region n)) r)).foldl (fun s r => putRegion n r { region s n r with clearing := true } s) s

/-- DKW_BREACH_CLEAR (R221). -/
def execDkwBreachClear (a : Access) (addr : BitVec 40) (v : BitVec 32) (s : State) : Out :=
  regWrite a addr.toNat v.toNat (dkwOutReg addr.toNat 0).isSome (fun _ s =>
    match dkwOutReg addr.toNat 0 with
    | some n => breachClear n v.toNat s
    | none => s) s

/-- R219: regions that are to learn anew, from the frame that R164 gives. -/
def relearn (n v : Nat) (s : State) : State :=
  let f := effectFrame s n
  (idxWhere 16 (bit v)).foldl (fun s r => putRegion n r { region s n r with relearn := some f } s) (orBits (DKW_OUT_RELEARN_region n) (v % 65536) s)

/-- DKW_RELEARN (R219). -/
def execDkwRelearn (a : Access) (addr : BitVec 40) (v : BitVec 32) (s : State) : Out :=
  regWrite a addr.toNat v.toNat (dkwOutReg addr.toNat 4).isSome (fun _ s =>
    match dkwOutReg addr.toNat 4 with
    | some n => relearn n v.toNat s
    | none => s) s

/-! ## The image table (R213) -/

/-- An image that a slot or a region refers to in a configuration. -/
def imageUsed (i : Nat) (s : State) : Bool :=
  (List.range 64).any (fun m => liveClass s m != 0 && treatment s m != 0 && rd s (DKW_SLOT_CLASS_image m).inForce == i) ||
  (List.range 8).any (fun n => (regionsOn s n).any (fun r => regionAction s n r == 1 && rd s (DKW_OUT_REG_CTRL_image n r).inForce == i))

/-- An image referred to in force or in a queued commit. -/
def imageHeld (s : State) (i : Nat) : Bool := (s.dsp.queue.scanl (fun s c => applyVals c.vals s) s).any (imageUsed i)

/-- The fields of an image entry by word of its register block. -/
def imageWrite (c : Carried) (addr v : Nat) (s : State) : State :=
  let i := (addr - 0x20240400) / 0x10
  let low := addr - addr % 0x10
  if imageHeld s i then violateAt c 2 addr v s
  else match addr % 0x10 with
    | 0 => holdWord c.master low (some v) s
    | 4 =>
      let whole := lowWord s c.master low (rdA s (DKW_IMG_ADDR_addr i)) + 4294967296 * v
      s |> holdWord c.master low none |> wr (DKW_IMG_ADDR_addr i) (bits whole 39 6)
    | 8 => writeFlds v [DKW_IMG_SIZE_w i, DKW_IMG_SIZE_h i] s
    | _ => writeFlds v [DKW_IMG_FMT_format i, DKW_IMG_FMT_stride i] s

/-- DKW_IMAGE_WRITE (R213): a write of a word of the image table. -/
def execDkwImageWrite (a : Access) (addr : BitVec 40) (v : BitVec 32) (s : State) : Out :=
  regWrite a addr.toNat v.toNat (decide (0x20240400 ≤ addr.toNat) && decide (addr.toNat < 0x20240500))
    (fun c s => imageWrite c addr.toNat v.toNat s) s

/-! ## Commands (Table DKW-13) -/

/-- The words CLASS, MOTION_XY and MOTION_WH of a slot, and XY, WH and CTRL of a region, as lists of fields. -/
def classWord (m : Nat) : List Fld :=
  [DKW_SLOT_CLASS_class m, DKW_SLOT_CLASS_treatment m, DKW_SLOT_CLASS_image m, DKW_SLOT_CLASS_frozen_n m, DKW_SLOT_CLASS_treat_degraded m]
def motionXY (m : Nat) : List Fld := [DKW_SLOT_MOTION_XY_x m, DKW_SLOT_MOTION_XY_y m]
def motionWH (m : Nat) : List Fld := [DKW_SLOT_MOTION_WH_w m, DKW_SLOT_MOTION_WH_h m]
def regionXY (n r : Nat) : List Fld := [DKW_OUT_REG_XY_x n r, DKW_OUT_REG_XY_y n r]
def regionWH (n r : Nat) : List Fld := [DKW_OUT_REG_WH_w n r, DKW_OUT_REG_WH_h n r]
def regionCtrl (n r : Nat) : List Fld :=
  [DKW_OUT_REG_CTRL_enable n r, DKW_OUT_REG_CTRL_source n r, DKW_OUT_REG_CTRL_action n r, DKW_OUT_REG_CTRL_bind n r,
   DKW_OUT_REG_CTRL_slot n r, DKW_OUT_REG_CTRL_image n r]

/-- DKW_GET_LAYER (R464). -/
def dkwGetLayer (r : Req) (s : State) : Answer :=
  let m := bits (r.w 2) 5 0
  if !r.mayReadPolder s (slotOwner s m) then no ST_NOT_OWNER s
  else okR [packForce s (classWord m), rd s (DKW_SLOT_MAXAGE_us m).inForce, rd s (DKW_SLOT_HBPERIOD_us m).inForce, packForce s (motionXY m),
    packForce s (motionWH m), rd s (DKW_SLOT_BLANK_rgb m).inForce,
    packFlds s [DKW_SLOT_STATE_state m, DKW_SLOT_STATE_action m, DKW_SLOT_STATE_dropped m, DKW_SLOT_STATE_run m], rd s (DKW_SLOT_AGE_us m)] s

/-- DKW_GET_LAYER. -/
def execDkwGetLayer (k : Fin 32) (s : State) : Out := done (serve Op.DKW_GET_LAYER k dkwGetLayer s)

/-- DKW_GET_REGION. -/
def dkwGetRegion (q : Req) (s : State) : Answer :=
  let n := bits (q.w 2) 2 0
  let r := bits (q.w 2) 11 8
  okR [packForce s (regionXY n r), packForce s (regionWH n r), packForce s (regionCtrl n r), rd s (DKW_OUT_REG_LAST_sig n r),
    rd s (DKW_OUT_REG_STAT_status n r), (region s n r).used] s

/-- DKW_GET_REGION. -/
def execDkwGetRegion (k : Fin 32) (s : State) : Out := done (serve Op.DKW_GET_REGION k dkwGetRegion s)

/-- DKW_GET_RING. -/
def dkwGetRing (_ : Req) (s : State) : Answer :=
  okR [packFlds s [DKW_RING_CTRL_size, DKW_RING_CTRL_enable], rd s DKW_RING_WR_index, rd s DKW_RING_RD_index,
    rd s DKW_RING_OVERRUN_count, rd s DKW_KEY_CTRL_keyed] s

/-- DKW_GET_RING. -/
def execDkwGetRing (k : Fin 32) (s : State) : Out := done (serve Op.DKW_GET_RING k dkwGetRing s)

/-- The field values of a slot's class that words 3 to 8 of a request give. -/
def classValues (q : Req) (m : Nat) : List (Fld × Nat) :=
  unpackFlds (q.w 3) (classWord m) ++ [(DKW_SLOT_MAXAGE_us m, q.w 4), (DKW_SLOT_HBPERIOD_us m, q.w 5)] ++
  unpackFlds (q.w 6) (motionXY m) ++ unpackFlds (q.w 7) (motionWH m) ++ unpackFlds (q.w 8) [DKW_SLOT_BLANK_rgb m]

/-- The output a slot is placed on in the projected placement; 8 for none. -/
def projectedOutput (s : State) (m : Nat) : Nat := min 8 (placedOn (projected s) m)

/-- R201: class settings of a slot by internal commit, with the checks of Table DKW-9 on the slot itself where it is placed on no
output. -/
def setClass (q : Req) (m : Nat) (s : State) : Answer :=
  let fvs := classValues q m
  let n := projectedOutput s m
  let sp := applyVals (fvs.map (fun e => (e.1.inForce.key, e.2))) (projected s)
  if n = 8 ∧ slotFieldsOk sp m = false then no ST_BAD_ARG s
  else if n = 8 ∧ slotImageOk sp m = false then no ST_DKW_IMAGE s
  else internalCommit q.job n fvs s

/-- DKW_SET_LAYER_LIVE (R201). -/
def dkwSetLayerLive (q : Req) (s : State) : Answer :=
  let m := bits (q.w 2) 5 0
  if slotOwner s m = 0 then no ST_NOT_OWNER s
  else if bits (q.w 3) 1 0 = 2 then no ST_BAD_ARG s
  else setClass q m s

/-- DKW_SET_LAYER_LIVE. -/
def execDkwSetLayerLive (k : Fin 32) (s : State) : Out := done (serve Op.DKW_SET_LAYER_LIVE k dkwSetLayerLive s)

/-- DKW_SET_SECURE_LAYER (R201). -/
def dkwSetSecureLayer (q : Req) (s : State) : Answer :=
  let m := bits (q.w 2) 5 0
  if slotOwner s m ≠ 0 ∧ bits (q.w 3) 1 0 = 2 then no ST_BAD_ARG s else setClass q m s

/-- DKW_SET_SECURE_LAYER. -/
def execDkwSetSecureLayer (k : Fin 32) (s : State) : Out := done (serve Op.DKW_SET_SECURE_LAYER k dkwSetSecureLayer s)

/-- DKW_SET_REGION (R214). -/
def dkwSetRegion (q : Req) (s : State) : Answer :=
  let n := bits (q.w 2) 2 0
  let r := bits (q.w 2) 11 8
  internalCommit q.job n (unpackFlds (q.w 3) (regionXY n r) ++ unpackFlds (q.w 4) (regionWH n r) ++ unpackFlds (q.w 5) (regionCtrl n r)) s

/-- DKW_SET_REGION. -/
def execDkwSetRegion (k : Fin 32) (s : State) : Out := done (serve Op.DKW_SET_REGION k dkwSetRegion s)

/-- DKW_SET_IMAGE (R213, R229). -/
def dkwSetImage (q : Req) (s : State) : Answer :=
  let i := bits (q.w 2) 3 0
  let im : Image := ⟨bits (q.w 3 + 4294967296 * q.w 4) 39 6 * 64, bits (q.w 5) 13 0, bits (q.w 5) 29 16, bits (q.w 6) 5 0, bits (q.w 6) 31 16⟩
  if imageHeld s i then
    ⟨ST_BUSY, [], record0 Src.DKW_REG_VIOLATION q.polder [Msg.master q.msg + 64 * b2n (Msg.secure q.msg) + 256 * 5, Msg.opcode q.msg, ST_BUSY,
      2 * q.pair] s, id⟩
  else if im.w ≠ 0 ∧ im.valid s = false then no ST_DKW_IMAGE s
  else did (s |> wr (DKW_IMG_ADDR_addr i) (im.addr / 64) |> wr (DKW_IMG_SIZE_w i) im.w |> wr (DKW_IMG_SIZE_h i) im.h
    |> wr (DKW_IMG_FMT_format i) im.format |> wr (DKW_IMG_FMT_stride i) im.stride)

/-- DKW_SET_IMAGE. -/
def execDkwSetImage (k : Fin 32) (s : State) : Out := done (serve Op.DKW_SET_IMAGE k dkwSetImage s)

/-- DKW_SET_KEY (R224). -/
def dkwSetKey (q : Req) (s : State) : Answer :=
  did (loadKey ((List.range 8).foldl (fun s k => wr (DKW_KEY_key k) (q.w (2 + k)) s) s))

/-- DKW_SET_KEY. -/
def execDkwSetKey (k : Fin 32) (s : State) : Out := done (serve Op.DKW_SET_KEY k dkwSetKey s)

/-- DKW_SET_RING (R225, R229). -/
def dkwSetRing (q : Req) (s : State) : Answer :=
  let base := bits (q.w 2 + 4294967296 * q.w 3) 39 12
  let size := bits (q.w 4) 14 0
  if !ringSizeOk size || !rangeSecureK0 s (base * 4096) (256 * size) then no ST_BAD_ARG s
  else did (s |> wr DKW_RING_BASE_base base |> ringControl ⟨9, 0, true⟩ 0x20240038 (q.w 4)
    |> wr DKW_STREAM_onl (bits (q.w 5) 7 0) |> wr DKW_STREAM_rec (bits (q.w 5) 15 8))

/-- DKW_SET_RING. -/
def execDkwSetRing (k : Fin 32) (s : State) : Out := done (serve Op.DKW_SET_RING k dkwSetRing s)

end Sys2Proof.Machine
end

