-- ==== Sys2Proof/Machine/PolderCheck.lean ====
section
/-! DEFINITION. The polder check's registers: the switches between tidemark and map (R82, R83), the tidemark (R77), invalidations
(R81, R85), second-stage roots (R86), secure claims (R87) and debug enables (R89). -/
namespace Sys2Proof.Machine

/-- PLD_MODE_CHANGE recorded and reported (Table PLD-3, R83). -/
def modeChange (mode : Nat) (s : State) : State := recordReported Src.PLD_MODE_CHANGE none [mode, 1] s

/-- Whether some polder from 1 to 31 exists. -/
def anyPolder (s : State) : Bool := (List.range 31).any (fun q => polExists s (q + 1))

/-- A write of fence_normal (R83): a 0 while it is 1 is ignored while a polder exists, and result becomes 5. -/
def fenceWrite (v : Nat) (s : State) : State :=
  if v = 1 then wr PLD_MODE_CTRL_fence_normal 1 s
  else if rdB s PLD_MODE_CTRL_fence_normal then
    if anyPolder s then wr PLD_MODE_STAT_result 5 s else wr PLD_MODE_CTRL_fence_normal 0 s
  else s

/-- req_map taken (Table PLD-3 step 2): validation starts on the base then written. -/
def startMap (s : State) : State := s |> wr PLD_MODE_STAT_switching 1 |> takeEffect [PLD_MAP_BASE_base]

/-- req_tidemark taken (R83). -/
def toTidemark (s : State) : State :=
  s |> wr PLD_MODE_STAT_mode 0 |> wr PLD_MODE_CTRL_fence_normal 1 |> wr PLD_MODE_STAT_result 1 |> modeChange 0

/-- A write of PLD_MODE_CTRL (R82, R83): the fence, then the request that the mode admits; a request while switching is ignored. -/
def modeCtrl (v : Nat) (s : State) : State :=
  let s1 := fenceWrite (bits v 2 2) s
  if rdB s PLD_MODE_STAT_switching then s1
  else if rdB s PLD_MODE_STAT_mode then (if bit v 1 then toTidemark s1 else s1)
  else if bit v 0 then startMap s1 else s1

/-- The address of PLD_MODE_CTRL. -/
def modeCtrlAddr : Nat := 0x20020000

/-- PLD_REQ_MAP (R82). -/
def execPldReqMap (a : Access) (addr : BitVec 40) (v : BitVec 32) (s : State) : Out :=
  regWrite a addr.toNat v.toNat (addr.toNat == modeCtrlAddr && bit v.toNat 0) (fun _ => modeCtrl v.toNat) s

/-- PLD_REQ_TIDEMARK (R83). -/
def execPldReqTidemark (a : Access) (addr : BitVec 40) (v : BitVec 32) (s : State) : Out :=
  regWrite a addr.toNat v.toNat (addr.toNat == modeCtrlAddr && bit v.toNat 1) (fun _ => modeCtrl v.toNat) s

/-- FENCE_NORMAL_WRITE (R83). -/
def execFenceNormalWrite (a : Access) (addr : BitVec 40) (v : BitVec 32) (s : State) : Out :=
  regWrite a addr.toNat v.toNat (addr.toNat == modeCtrlAddr) (fun _ => modeCtrl v.toNat) s

/-! ## Validation of a map (R82) -/

/-- The bytes of the whole map (Table PLD-2). -/
def mapBytes (s : State) : Nat := 24576 + 262144 * s.dmc.gib

/-- R82: the whole map lies in DRAM below the tidemark. -/
def mapPlaced (s : State) : Bool :=
  decide (dramBase ≤ mapBase s) && decide (mapBase s + mapBytes s ≤ rdA s PLD_TIDEMARK_tidemark) &&
    decide (mapBase s + mapBytes s ≤ dramBase + dramBytes s)

/-- The address of the first entry of a page holding the map, and how many such pages there are. -/
def ownEntries (s : State) : Nat × Nat := (entryAddr s (mapPage (mapBase s)), (mapBytes s + 4095) / 4096)

/-- The line range that holds `n` entries from address `a`. -/
def lineSpan (a n : Nat) : Nat × Nat := (a / 64 * 64, (a + n + 63) / 64 * 64)

/-- The first line among those R82 reads that a read finds uncorrectable: one that `bad` names, or one holding a poisoned word. -/
def badMapLine (s : State) (bad : Option Nat) : Option Nat :=
  let (o, n) := ownEntries s
  let spans := [lineSpan o n, lineSpan (mapBase s) 4096]
  let within (l : Nat) : Bool := spans.any (fun p => decide (p.1 ≤ l) && decide (l < p.2))
  match bad with
  | some l => if within l then some (l / 64 * 64) else (s.poison.find? (fun w => within (8 * w))).map (fun w => 8 * w / 64 * 64)
  | none => (s.poison.find? (fun w => within (8 * w))).map (fun w => 8 * w / 64 * 64)

/-- R82 on the entry of a page that holds the map: valid, secure and dev = 0. -/
def ownEntryOk (e : Nat) : Bool := bit e 7 && bit e 5 && !bit e 6

/-- R82 on the entry of a page of K0 or K1: valid and secure. -/
def bankEntryOk (e : Nat) : Bool := bit e 7 && bit e 5

/-- The result of validation (R82, Table PLD-3): 1 when the map is valid, else 2 to 4 or 6. -/
def mapResult (s : State) (bad : Option Nat) : Nat :=
  if !mapPlaced s then 2
  else if (badMapLine s bad).isSome then 6
  else if !(List.range (ownEntries s).2).all (fun i => ownEntryOk (byteAt s ((ownEntries s).1 + i))) then 3
  else if !(List.range 4096).all (fun i => bankEntryOk (byteAt s (mapBase s + i))) then 4
  else 1

/-- MAP_SWITCH_DONE (R82, Table PLD-3 steps 4 and 4'). -/
def execMapSwitchDone (badLine : Option (BitVec 40)) (s : State) : Out :=
  if !rdB s PLD_MODE_STAT_switching then .next s
  else
    let bad := badLine.map (fun l => l.toNat)
    let r := mapResult s bad
    let s1 := s |> wr PLD_MODE_STAT_switching 0 |> wr PLD_MODE_STAT_result r
    if r = 1 then
      done (modeChange 1 (wr PLD_MODE_STAT_mode 1 { s1 with pld := { s1.pld with entries := [] } }))
    else
      let s2 := record0 Src.PLD_MAP_INVALID none [r] s1
      done (match badMapLine s bad with
        | some l => if r = 6 then record0 Src.PLD_MAP_ERROR none (twoWords l) s2 else s2
        | none => s2)

/-! ## Tidemark, invalidations and second-stage roots -/

/-- PLD_TIDEMARK_WRITE (R77): the write of the high word, which applies both (R12). -/
def execPldTidemarkWrite (a : Access) (addr : BitVec 40) (v : BitVec 32) (s : State) : Out :=
  regWrite a addr.toNat v.toNat (addr.toNat == 0x2002000C) (fun c s =>
    let full := lowWord s c.master 0x20020008 (rdA s PLD_TIDEMARK_tidemark) + 4294967296 * v.toNat
    let t := bits full 39 21 * 0x200000
    let s1 := holdWord c.master 0x20020008 none s
    if dramBase ≤ t ∧ t ≤ dramTop then wr PLD_TIDEMARK_tidemark (t / 0x200000) s1
    else violateAt c 4 addr.toNat v.toNat s1) s

/-- The pages an invalidation covers. -/
def invCovers (r : Nat × Nat) (page : Nat) : Bool := r.2 == 0 || (decide (r.1 ≤ page) && decide (page < r.1 + r.2))

/-- PLD_INV_START (R81). -/
def execPldInvStart (a : Access) (addr : BitVec 40) (v : BitVec 32) (s : State) : Out :=
  regWrite a addr.toNat v.toNat (addr.toNat == 0x20020020 && bit v.toNat 31) (fun _ s =>
    let s1 := s |> wr PLD_INV_CTRL_pages (bits v.toNat 23 0) |> wr PLD_INV_STAT_busy 1
    { s1 with pld := { s1.pld with inv := s1.pld.inv ++ [(mapPage (rdA s PLD_INV_ADDR_addr), bits v.toNat 23 0)] } }) s

/-- PLD_INV_DONE (R81): the cached entries of the range are gone, and every later access uses the new ones. -/
def execPldInvDone (s : State) : Out :=
  if rdB s PLD_INV_STAT_busy then
    .next (wr PLD_INV_STAT_busy 0
      { s with pld := { s.pld with entries := s.pld.entries.filter (fun e => !s.pld.inv.any (fun r => invCovers r e.1)), inv := [] } })
  else .next s

/-- The polder whose PLD_S2_ROOT or PLD_S2_INV register lies at an address, and the offset in its group. -/
def s2RegAt (addr : Nat) : Option (Nat × Nat) :=
  if 0x20020100 ≤ addr ∧ addr < 0x20020300 then some ((addr - 0x20020100) / 16, addr % 16) else none

/-- PLD_S2_ROOT_WRITE (R86): the write of the high word, which applies both (R12) and records the writer's polder. -/
def execPldS2RootWrite (a : Access) (addr : BitVec 40) (v : BitVec 32) (s : State) : Out :=
  regWrite a addr.toNat v.toNat ((s2RegAt addr.toNat).any (fun r => r.2 == 4)) (fun c s =>
    let p := (addr.toNat - 0x20020100) / 16
    let low := addr.toNat - 4
    let full := lowWord s c.master low (rdA s (PLD_S2_ROOT_root p)) + 4294967296 * v.toNat
    let s1 := holdWord c.master low none s
    if bits full 63 60 = 0 ∨ bits full 63 60 = 9 then
      s1 |> wr (PLD_S2_ROOT_root p) (bits full 39 14) |> wr (PLD_S2_ROOT_mode p) (bits full 63 60) |> wr (PLD_S2_ROOT_writer p) c.polder
    else violateAt c 4 addr.toNat v.toNat s1) s

/-- PLD_S2_INV (R85). -/
def execPldS2Inv (a : Access) (addr : BitVec 40) (v : BitVec 32) (s : State) : Out :=
  regWrite a addr.toNat v.toNat ((s2RegAt addr.toNat).any (fun r => r.2 == 8) && bit v.toNat 0) (fun _ =>
    wr (PLD_S2_INV_busy ((addr.toNat - 0x20020100) / 16)) 1) s

/-- PLD_S2_INV_DONE (R85): the cached translations of the polder are gone. -/
def execPldS2InvDone (p : Fin 32) (s : State) : Out :=
  if rdB s (PLD_S2_INV_busy p) then
    .next (wr (PLD_S2_INV_busy p) 0 { s with pld := { s.pld with s2 := s.pld.s2.filter (fun e => e.1 / 2 ^ 53 != p) } })
  else .next s

/-! ## Secure claims and debug -/

/-- The power domain of a block of Table CRP-1 (Table ARC-7). -/
def blockDomain (k : Nat) : Option Nat :=
  if k < 10 then some 4 else if k = 10 then some 2 else if k < 16 then some 3 else if k < 20 then some 5
  else if k = 20 then some 6 else if k = 22 then some 0 else if k = 23 then some 1 else none

/-- A block powered up and its clock running (R87). -/
def powerUpBlock (k : Nat) (s : State) : State :=
  let s1 := clrBits CRP_CLK_GATE_gate (2 ^ k) s
  match blockDomain k with
  | some d => orBits CRP_PD_STAT_on (2 ^ d) s1
  | none => s1

/-- A block up: its domain on and its clock running. -/
def blockIsUp (s : State) (k : Nat) : Bool :=
  !bit (rd s CRP_CLK_GATE_gate) k && (match blockDomain k with | some d => domainOn s d | none => true)

/-- Whether a block is claimed by polder 0 (R88). -/
def claimed (s : State) (k : Nat) : Bool := bit (rd s CRP_SEC_CLAIM_claim) k

/-- R88: PLD_CLAIM_BLOCKED for a block. -/
def claimBlocked (k master polder : Nat) (s : State) : State := record0 Src.PLD_CLAIM_BLOCKED none [k, master, polder] s

/-- The block bit that the record of a refused write of CRP_SEC_CLAIM names: the one bit it would have changed; a free value when it
would have changed none or several (the spec does not say; notes/assumptions/3.md). -/
def claimBit (s : State) (v : Nat) : Nat × State :=
  match idxWhere 24 (fun k => bit v k != claimed s k) with
  | [k] => (k, s)
  | _ => (freeVal 5 s, tookFree s)

/-- SEC_CLAIM_WRITE (R87). -/
def execSecClaimWrite (a : Access) (addr : BitVec 40) (v : BitVec 32) (s : State) : Out :=
  regWrite a addr.toNat v.toNat (addr.toNat == 0x20000200) (fun c s =>
    if secureCore c then
      (idxWhere 24 (bit v.toNat)).foldl (fun s k => if blockIsUp s k then s else powerUpBlock k s)
        (wr CRP_SEC_CLAIM_claim (bits v.toNat 23 0) s)
    else
      let (k, s1) := claimBit s v.toNat
      claimBlocked k c.master c.polder s1) s

/-- DBG_ENABLE_WRITE (R89): bits [3:0] can only be cleared; sba_polder takes any value. -/
def execDbgEnableWrite (a : Access) (addr : BitVec 40) (v : BitVec 32) (s : State) : Out :=
  regWrite a addr.toNat v.toNat (addr.toNat == 0x20A0F000) (fun _ s =>
    s |> wr DBG_ENABLE_enables (rd s DBG_ENABLE_enables &&& bits v.toNat 3 0) |> wr DBG_ENABLE_sba_polder (bits v.toNat 8 4)) s

end Sys2Proof.Machine
end

