-- ==== Sys2Proof/Machine/ScanOut.lean ====
section
/-! DEFINITION. Scan-out and display links (spec/09_scanout_and_display_links.md): mode sets (R230 to R244), VSYNC and FLIP (R233, R234),
presentation lock (R248 to R254), hot plug and link maintenance (R245 to R247), and the scan-out commands (Table SCN-7). -/
namespace Sys2Proof.Machine

/-! ## Links (R237 to R240) -/

/-- The line rate of a DisplayPort or eDP rate code in Mb/s (Table SCN-6). -/
def linkRate (code : Nat) : Nat := [0, 1620, 2700, 5400, 8100, 10000, 13500, 2160, 2430, 3240, 4320].getD code 0

/-- A link configuration, with the pixel rate it is to carry (Table SCN-7): link type, depth, DSC with its target and slices, rate,
lanes and DSI-2 rate. -/
structure LinkCfg where
  link : Nat
  depth8 : Bool
  cmdMode : Bool
  dsc : Bool
  bpp16 : Nat
  slices : Nat
  sliceH : Nat
  rate : Nat
  lanes : Nat
  dsiRate : Nat
  khz : Nat
  hActive : Nat
  vActive : Nat
  deriving DecidableEq, Repr

/-- Table SCN-2: an output's link type, rate and lanes are among those it has. -/
def LinkCfg.offered (c : LinkCfg) (n : Nat) : Bool :=
  if n < 6 then
    !c.cmdMode && c.lanes != 3 && ((c.link == 1 && decide (1 ≤ c.rate) && decide (c.rate ≤ 6)) ||
      (c.link == 2 && ((decide (1 ≤ c.rate) && decide (c.rate ≤ 4)) || (decide (7 ≤ c.rate) && decide (c.rate ≤ 10)))))
  else (c.link == 3 || c.link == 4) && c.rate == 0 && !c.dsc && decide (80 ≤ c.dsiRate) && decide (c.dsiRate ≤ 4500)

/-- R240: the sink reports the rate, the lanes and, where it is used, DSC. -/
def LinkCfg.reported (c : LinkCfg) (k : Sink) : Bool :=
  decide (linkRate c.rate ≤ linkRate k.rate) && decide (c.lanes ≤ k.lanes) && (!c.dsc || k.dsc)

/-- R238. -/
def LinkCfg.dscOk (c : LinkCfg) : Bool :=
  !c.dsc || (decide (c.slices ∈ [1, 2, 4, 8]) && c.hActive % c.slices == 0 && decide (c.hActive / c.slices ≤ 2560) &&
    decide (8 ≤ c.sliceH) && decide (c.sliceH ≤ 1024) && c.vActive % c.sliceH == 0 && decide (128 ≤ c.bpp16) &&
    decide (c.bpp16 < 48 * (if c.depth8 then 8 else 10)))

/-- The payload rate of a lane in Mb/s, as a quotient. -/
def LinkCfg.payload (c : LinkCfg) : Nat × Nat :=
  if c.link = 4 then (c.dsiRate * 16, 7) else if c.link = 3 then (c.dsiRate, 1)
  else if c.rate = 5 ∨ c.rate = 6 then (linkRate c.rate * 128, 132) else (linkRate c.rate * 4, 5)

/-- R240: the link can carry the mode. -/
def LinkCfg.carries (c : LinkCfg) : Bool :=
  let b16 := if c.dsc then c.bpp16 else 48 * (if c.depth8 then 8 else 10)
  decide (c.khz * b16 * c.payload.2 * 100 ≤ 97 * c.lanes * c.payload.1 * 1000 * 16)

/-- The link configuration in force on an output with its pixel rate to the nearest kilohertz. -/
def linkInForce (s : State) (n : Nat) : LinkCfg :=
  let g (f : Fld) : Nat := rd s f.inForce
  ⟨g (SCN_FORMAT_link n), depth8 s n, g (SCN_FORMAT_cmd_mode n) == 1, g (SCN_FORMAT_dsc n) == 1, g (SCN_DSC_bpp16 n), g (SCN_DSC_slices n),
   g (SCN_DSC_slice_h n), g (SCN_LINK_rate n), g (SCN_LINK_lanes n), g (SCN_LINK_dsi_rate n),
   (paceInc s n * 921600 + 2147483648) / 4294967296, hActive s n, vActive s n⟩

/-- The link state or configuration as it now stands reported (R247). -/
def linkReport (n : Nat) (s : State) : State :=
  let up := rd s (SCN_STATUS_link_up n)
  let rate := rd s (SCN_LINK_rate n).inForce
  let lanes := rd s (SCN_LINK_lanes n).inForce
  s |> record (Src.SCN_OUT n) 3 none [up, rate, lanes] |> notifyWardenAnd0 Op.DSP_LINK_STATE [n + 8 * up + 16 * rate + 256 * lanes]

/-- The link brought up or down; a change is reported. The delay of a link just trained (R234) is a free value. -/
def setLink (n : Nat) (up : Bool) (s : State) : State :=
  if rdB s (SCN_STATUS_link_up n) = up then s
  else
    let s1 := wrB (SCN_STATUS_link_up n) up s
    linkReport n (if up then tookFree (wr (SCN_LINK_DELAY_ns n) (freeVal 16 s1) s1) else s1)

/-- A sink is connected (R245). -/
def sinkPresent (s : State) (n : Nat) : Bool := rdB s (SCN_STATUS_sink n)

/-! ## Presentation lock (R248 to R254) -/

def lockOn (s : State) (n : Nat) : Bool := rdB s (SCN_LOCK_CTRL_enable n)
def lockState (s : State) (n : Nat) : Nat := rd s (SCN_LOCK_STAT_state n)

/-- The increment with the trim, which counts while lock is in force (R231). -/
def incNow (s : State) (n : Nat) : Nat :=
  if lockOn s n then trimmedInc (paceInc s n) (rdI s (SCN_LOCK_STAT_trim n)) else paceInc s n

/-- A lock state entered; a change is recorded and notified. -/
def setLockState (n st : Nat) (s : State) : State :=
  if lockState s n = st then s
  else
    let e := rd s (SCN_LOCK_ERR_ns n)
    s |> wr (SCN_LOCK_STAT_state n) st |> record (Src.SCN_OUT n) 4 none [st, e] |> notifyWardenAnd0 Op.DSP_LOCK_STATE [n + 16 * st, e]

/-- The trim after a FLIP with lock error `err` (R249, R250): stretch alone corrects an error of a line or more; an error of at least what
one frame of full slew corrects drives the trim to its bound; below that the spec leaves the trim open, and it is a free value within the
same bound. -/
def trimAfter (n : Nat) (err : Int) (s : State) : State :=
  let stretching := rdB s (SCN_LOCK_CTRL_method n) && lockState s n == 1
  let t : Int :=
    if stretching ∧ (linesNs s n 1 : Int) ≤ err.natAbs then 0
    else if linesNs s n (vTotal s n) / 2000 ≤ err.natAbs then (if 0 < err then 25000 else -25000)
    else (freeVal 16 s % 50001 : Nat) - 25000
  tookFree (wrI (SCN_LOCK_STAT_trim n) t s)

/-- The lock after a FLIP at device time `t` (R248 to R251). -/
def lockStep (n t : Nat) (s : State) : State :=
  if !lockOn s n then s
  else
    let err : Int := (t : Int) - nearestTarget s n t
    let run := if err.natAbs ≤ 200 then min 4 ((out s n).lockRun + 1) else 0
    let st := if lockState s n = 2 then (if 2000 < err.natAbs then 1 else 2) else if run = 4 then 2 else 1
    s |> wr (SCN_LOCK_ERR_ns n) (satSgn 32 err) |> wr (SCN_LOCK_TARGET_time n) (nextTarget s n (t + 1))
      |> setOut n { out s n with lockRun := if st = 1 ∧ run = 4 then 0 else run } |> setLockState n st |> trimAfter n err

/-- R249: the blank lines that stretch inserts before line VSYNC_START of the frame that is passing. -/
def stretchLines (s : State) (n : Nat) : Nat :=
  let t := rd s (SCN_FLIP_TIME_time n)
  let line := linesNs s n 1
  if lockOn s n && rdB s (SCN_LOCK_CTRL_method n) && lockState s n == 1 && line != 0 &&
      decide ((line : Int) ≤ (rdI s (SCN_LOCK_ERR_ns n)).natAbs) then
    min (rd s (SCN_LOCK_CTRL_max_stretch n)) ((nextTarget s n t - t) / line)
  else 0

/-! ## VSYNC and FLIP (R233, R234) -/

/-- The polders that an output's VSYNC and FLIP lines are raised for (R100): polder 0 and those that hold an active slot on it. -/
def framePolders (s : State) (n : Nat) : List Nat := (0 :: ((slotsOn s n).filter (slotActive s)).map (slotOwner s)).dedup

/-- The frame counter increments, and VSYNC is raised. -/
def vsync (n : Nat) (s : State) : State :=
  let s1 := incWrap (SCN_FRAME_frame n) 1 s
  s1 |> setOut n { out s1 n with vsynced := true } |> record (Src.SCN_OUT n) 0 none [frameCounter s1 n] |> raiseLines (framePolders s n) (2 + n)

/-- VSYNC (R233, R249). -/
def execVsync (n : Fin 8) (s : State) : Out :=
  let o := out s n
  if running s n && o.attested && !o.vsynced && !o.stopDue then
    let k := stretchLines s n
    let s1 := advanceTo (lineTime s n (vsyncStart s n + k)) s
    done (vsync n (if k = 0 then s1 else anchorAt n (vsyncStart s n + k) (vsyncStart s n) o.inc s1))
  else .next s

/-- An output in command mode (R239). -/
def cmdMode (s : State) (n : Nat) : Bool := rdB s (SCN_FORMAT_cmd_mode n).inForce

/-- An output whose transfers wait for the panel's tearing-effect input. -/
def waitsTe (s : State) (n : Nat) : Bool := cmdMode s n && rdB s (SCN_FORMAT_te_en n).inForce

/-- TEARING_EFFECT_EDGE (R239): the first rising edge after the latch point starts the transfer of the frame. -/
def execTearingEffectEdge (n : Fin 8) (s : State) : Out :=
  let o := out s n
  if running s n && waitsTe s n && o.vsynced && o.latched && !o.te then
    let s1 := anchorNow n 0 o.inc s
    .next (setOut n { out s1 n with te := true } s1)
  else .next s

/-- What the first pixel of line 0 brings (R234), once its instant has come. -/
def flip (n : Nat) (s : State) : State :=
  let t := s.devTime
  let f := frameCounter s n
  let o := out s n
  let s1 := s |> wr (SCN_FLIP_TIME_time n) t |> setOut n { o with cur := f, geo := o.geoNext, attested := false, vsynced := false, latched := false, te := false,
                                                                  configured := false, mode := if o.configured then none else o.mode }
    |> sesFlip n f t |> record (Src.SCN_FLIP n) 0 none (f :: twoWords t) |> raiseLines (framePolders s n) (10 + n) |> lockStep n t
  let s2 := setOut n { out s1 n with inc := incNow s1 n } s1
  match o.configured, o.mode with
  | true, some (j, _) => replyOpt j ST_OK [f] s2
  | _, _ => s2

/-- FLIP (R234). In video mode line 0 follows line V_TOTAL - 1; in command mode it starts at the tearing-effect edge, or at once (R239). -/
def execFlip (n : Fin 8) (s : State) : Out :=
  let o := out s n
  if running s n && o.vsynced && o.latched then
    if waitsTe s n then (if o.te then done (flip n s) else .next s)
    else if cmdMode s n then done (flip n (anchorNow n 0 o.inc s))
    else done (flip n (anchorAt n (vTotal s n) 0 o.inc (advanceTo (lineTime s n (vTotal s n)) s)))
  else .next s

/-! ## Mode sets -/

/-- Word `i` of the request of a mode set, of which words 2 to 10 are kept. -/
def modeWord (ws : List Nat) (i : Nat) : Nat := ws.getD (i - 2) 0

/-- R231: the increment of a pixel rate in kHz, halves rounded up. -/
def incOf (khz : Nat) : Nat := (khz * 1000 * 8589934592 + 921600000) / 1843200000

/-- The Start fields of an output as the words of a mode set give them. -/
def modeFields (n : Nat) (ws : List Nat) : List (Fld × Nat) :=
  let w := modeWord ws
  unpackFlds (w 3) [SCN_HTIME0_h_active n, SCN_HTIME0_h_total n] ++
  unpackFlds (w 4) [SCN_HTIME1_hsync_start n, SCN_HTIME1_hsync_end n, SCN_HTIME1_hpol n] ++
  unpackFlds (w 5) [SCN_VTIME0_v_active n, SCN_VTIME0_v_total n] ++
  unpackFlds (w 6) [SCN_VTIME1_vsync_start n, SCN_VTIME1_vsync_end n, SCN_VTIME1_vpol n] ++
  [(SCN_PACE_INC_frac n, incOf (w 7) % 4294967296), (SCN_PACE_INC_int n, incOf (w 7) / 4294967296),
   (SCN_FORMAT_depth8 n, bits (w 2) 7 7), (SCN_FORMAT_link n, bits (w 2) 6 4), (SCN_FORMAT_cmd_mode n, bits (w 2) 9 9),
   (SCN_FORMAT_te_en n, bits (w 2) 10 10), (SCN_FORMAT_bt2020 n, bits (w 2) 11 11), (SCN_FORMAT_dsc n, bits (w 2) 8 8),
   (SCN_LINK_rate n, bits (w 2) 19 16), (SCN_LINK_lanes n, bits (w 2) 14 12), (SCN_LINK_dsi_rate n, bits (w 10) 15 0)] ++
  unpackFlds (w 9) [SCN_DSC_bpp16 n, SCN_DSC_slices n, SCN_DSC_slice_h n]

/-- The link configuration that the words of a mode set ask for. -/
def modeLink (ws : List Nat) : LinkCfg :=
  let w := modeWord ws
  ⟨bits (w 2) 6 4, bit (w 2) 7, bit (w 2) 9, bit (w 2) 8, bits (w 9) 9 0, bits (w 9) 13 10, bits (w 9) 29 16, bits (w 2) 19 16, bits (w 2) 14 12,
   bits (w 10) 15 0, w 7, bits (w 3) 13 0, bits (w 5) 13 0⟩

/-- R198: the default budgets of a mode, bursts and layer-pixels. -/
def defaultBudgets (ha va mhz : Nat) : Nat × Nat :=
  (if mhz = 0 then 0 else 48000000000 * ceilDiv (ha * va * mhz) 500000000000 / mhz, 3 * ha * va)

/-- The outputs other than `n` with timing running. -/
def othersRunning (s : State) (n : Nat) : List Nat := idxWhere 8 (fun k => k != n && running s k)

/-- R199: budgets that an output with frame rate `mhz` may have beside those of the other outputs, as they will stand. -/
def ceilingsOk (s : State) (n mhz fetch pix : Nat) : Bool :=
  let sp := projected s
  let ks := othersRunning s n
  decide ((ks.map (fun k => rd sp (CMP_OUT_PIX_BUDGET_pixels k).inForce * rd s (SCN_RATE_mhz k))).sum + pix * mhz ≤ 27648000000000) &&
    decide ((ks.map (fun k => rd sp (CMP_OUT_FETCH_BUDGET_bursts k).inForce * 64 * rd s (SCN_RATE_mhz k))).sum + fetch * 64 * mhz ≤
      98304000000000)

/-- R230 and the timing cases of R232. -/
def timingOk (s : State) (n : Nat) (ws : List Nat) : Bool :=
  let w := modeWord ws
  let ha := bits (w 3) 13 0
  let ht := bits (w 3) 29 16
  let va := bits (w 5) 13 0
  let vt := bits (w 5) 29 16
  let khz := w 7
  let mhz := bits (w 8) 19 0
  ha % 2 == 0 && decide (320 ≤ ha) && decide (ha ≤ 8192) && decide (ha < bits (w 4) 13 0) && decide (bits (w 4) 13 0 < bits (w 4) 29 16) &&
  decide (bits (w 4) 29 16 ≤ ht) && decide (ht ≤ 16383) && decide (32 ≤ ht - ha) && decide (240 ≤ va) && decide (va ≤ 8176) &&
  decide (va < bits (w 6) 13 0) && decide (bits (w 6) 13 0 < bits (w 6) 29 16) && decide (bits (w 6) 29 16 ≤ vt) && decide (vt ≤ 16383) &&
  decide (lookahead s n ≤ vt - va) && decide (lookahead (projected s) n ≤ vt - va) && decide (ha * va * mhz ≤ 1990656000000) &&
  decide (10000 ≤ khz) && decide (khz ≤ 2764800) &&
  decide (mhz * ht * vt ≤ khz * 1000000 + khz * 1000) && decide (khz * 1000000 ≤ mhz * ht * vt + khz * 1000)

/-- R232: the sum of active pixel rates with this mode among the running outputs. -/
def activeRateOk (s : State) (n rate : Nat) : Bool :=
  decide (((othersRunning s n).map (fun k => hActive s k * vActive s k * rd s (SCN_RATE_mhz k))).sum + rate ≤ 7962624000000)

/-- R253: a lock group's other outputs on the device have the same nominal frame rate. -/
def lockRateOk (s : State) (n group mhz : Nat) : Bool :=
  (idxWhere 8 (fun k => k != n && lockOn s k && rd s (SCN_LOCK_CTRL_group k) == group && modeSet s k)).all (fun k => rd s (SCN_RATE_mhz k) == mhz)

/-- The validation of a mode set (Table SCN-4 step 1): the first status that refuses it. -/
def modeFault (s : State) (n : Nat) (ws : List Nat) : Option Nat :=
  let c := modeLink ws
  let mhz := bits (modeWord ws 8) 19 0
  let d := defaultBudgets c.hActive c.vActive mhz
  let vals := (modeFields n ws).map (fun e => (e.1.inForce.key, e.2 % 2 ^ e.1.width))
  let now := applyVals vals s
  let proj := applyVals vals (projected s)
  let demands := [demandOf now n, demandOf proj n]
  let inside (t : State) : Bool := (regionsOn t n).all (fun r => (activeArea t n).covers (regionRect t n r))
  if !timingOk s n ws then some ST_SCN_TIMING
  else if !activeRateOk s n (c.hActive * c.vActive * mhz) || !ceilingsOk s n mhz d.1 d.2 then some ST_BANDWIDTH
  else if n < 6 ∧ (c.link = 1 ∨ c.link = 2) ∧ sinkPresent s n = false then some ST_SCN_NO_SINK
  else if !(c.offered n && (match (out s n).sink with | some k => 6 ≤ n || c.reported k | none => decide (6 ≤ n)) && c.dscOk && c.carries) then
    some ST_SCN_LINK
  else if demands.any (fun e => decide (d.1 < e.1) || decide (d.2 < e.2)) then some ST_BANDWIDTH
  else if !(inside now && inside proj) then some ST_DKW_REGION
  else if lockOn s n && c.cmdMode then some ST_SCN_LOCK_MODE
  else if lockOn s n && !lockRateOk s n (rd s (SCN_LOCK_CTRL_group n)) mhz then some ST_SCN_LOCK_RATE
  else none

/-- R244: a request word of a mode set is malformed or names a reserved encoding. -/
def modeMalformed (ws : List Nat) : Bool :=
  let w := modeWord ws
  bit (w 2) 15 || decide (bits (w 2) 31 20 ≠ 0) || decide (bits (w 3) 15 14 ≠ 0) || decide (bits (w 3) 31 30 ≠ 0) ||
  decide (bits (w 4) 15 14 ≠ 0) || bit (w 4) 30 || decide (bits (w 5) 15 14 ≠ 0) || decide (bits (w 5) 31 30 ≠ 0) ||
  decide (bits (w 6) 15 14 ≠ 0) || bit (w 6) 30 || decide (bits (w 8) 31 20 ≠ 0) || decide (bits (w 9) 15 14 ≠ 0) ||
  decide (bits (w 9) 31 30 ≠ 0) || decide (bits (w 10) 31 16 ≠ 0) || decide (4 < bits (w 2) 6 4) || decide (10 < bits (w 2) 19 16) ||
  decide (bits (w 2) 14 12 < 1) || decide (4 < bits (w 2) 14 12)

/-- Field values in what is written and in what is in force at once. -/
def setForce (fvs : List (Fld × Nat)) (s : State) : State := fvs.foldl (fun s e => wr e.1.inForce e.2 (wr e.1 e.2 s)) s

/-- R187: an output's scaler tables hold their defaults, written and in force. -/
def defaultScaler (n : Nat) (s : State) : State :=
  let lo := (CMP_OUT_HCOEF_tapLo n 0 0).key
  let hi := (CMP_OUT_HCOEF_tapLo (n + 1) 0 0).key
  let flo := (CMP_OUT_HCOEF_tapLo n 0 0).inForce.key
  let fhi := (CMP_OUT_HCOEF_tapLo (n + 1) 0 0).inForce.key
  { s with regs := s.regs.filter (fun e => !((decide (lo ≤ e.1) && decide (e.1 < hi)) || (decide (flo ≤ e.1) && decide (e.1 < fhi)))) }

/-- Table SCN-4 step 3: the output configured. The link goes down for a retraining where its rate, lanes, type or DSC change. -/
def configure (n : Nat) (ws : List Nat) (s : State) : State :=
  let w := modeWord ws
  let old := linkInForce s n
  let c := modeLink ws
  let mhz := bits (w 8) 19 0
  let d := defaultBudgets c.hActive c.vActive mhz
  let same := old.link == c.link && old.rate == c.rate && old.lanes == c.lanes && old.dsiRate == c.dsiRate && old.dsc == c.dsc &&
    (!c.dsc || (old.bpp16 == c.bpp16 && old.slices == c.slices && old.sliceH == c.sliceH))
  let s1 := if same then s else setLink n false s
  let s2 := s1 |> setForce (modeFields n ws) |> wr (SCN_RATE_mhz n) mhz
    |> setForce [(CMP_OUT_FETCH_BUDGET_bursts n, d.1), (CMP_OUT_PIX_BUDGET_pixels n, d.2)] |> defaultScaler n
    |> wrB (CMP_OUT_COMPOSE_depth8 n) c.depth8
  let s3 := s2 |> wr (CMP_OUT_COMPOSE_tiles n) (tilesPerBand s2 n) |> wr (CMP_OUT_COMPOSE_bands n) (bandCount s2 n)
    |> (if n < 6 then id else wr (SCN_STATUS_sink n) 1) |> setOut n { out s2 n with configured := true }
  configChanged s n s3

/-- The old timing of an output stops (Table SCN-4 step 2): the link sends idle, and slots of resetting polders leave it. -/
def stopTiming (n : Nat) (s : State) : State :=
  let s1 := s |> wr (SCN_STATUS_running n) 0
    |> setOut n { out s n with attested := false, vsynced := false, latched := false, te := false, stopDue := false, lockRun := 0 }
    |> setGroups n [] |> (if lockState s n = 2 then setLockState n 1 else id)
  resetsAt n { s1 with dsp := { s1.dsp with tiles := Tab.cut s1.dsp.tiles (tileKey n 0 0) (tileKey (n + 1) 0 0) } }

/-- R242: an output switched off once its timing has stopped. -/
def switchOff (n : Nat) (j : Option Job) (s : State) : State :=
  let f := frameCounter s n
  s |> setLink n false |> (if n < 6 then id else wr (SCN_STATUS_sink n) 0) |> setOut n { out s n with mode := none, configured := false }
    |> wr (CMP_OUT_POOL_reserved n) 0 |> record (Src.SCN_OUT n) 5 none [f, 0] |> replyOpt j ST_OK [f]

/-- MODE_TIMING_STOP (Table SCN-4 steps 2 and 3). -/
def execModeTimingStop (n : Fin 8) (s : State) : Out :=
  match (out s n).stopDue, (out s n).mode with
  | true, some (j, ws) =>
    let s1 := stopTiming n s
    done (if bit (modeWord ws 2) 3 then configure n ws s1 else switchOff n j s1)
  | _, _ => .next s

/-- The first instant at which the new timing may start: now, or under lock the one that puts the first FLIP on a target. -/
def startTime (s : State) (n : Nat) : Nat :=
  let inc := incNow s n
  let px := (vTotal s n - vsyncStart s n) * hTotal s n * 4294967296
  let lead := if inc = 0 then 0 else px * 625 / (inc * 576)
  if lockOn s n then s.now + (nextTarget s n (s.devTime + lead) - (s.devTime + lead)) else s.now

/-- MODE_TIMING_START (Table SCN-4 step 4, R241): the new timing starts. `trained` is the outcome of the training where the link is down. -/
def execModeTimingStart (n : Fin 8) (trained : Bool) (s : State) : Out :=
  if !(out s n).configured || running s n then .next s
  else
    let f := frameCounter s n
    let s1 := advanceTo (startTime s n) s
    let s2 := s1 |> wr (SCN_STATUS_running n) 1 |> anchorNow n (vsyncStart s1 n) (incNow s1 n)
    let s3 := setOut n { out s2 n with cur := f, prep := f, attested := true, vsynced := false, latched := false, te := false, stopDue := false,
                                       lockRun := 0 } s2
    let s4 := vsync n s3 |> (if lockOn s n then setLockState n 1 else id)
    done (s4 |> record (Src.SCN_OUT n) 5 none [frameCounter s4 n, 1] |> (if trained && sinkPresent s4 n then setLink n true else id))

/-- R243: the mode set switches the output off or changes its timing, depth or link. -/
def modeChanges (s : State) (n : Nat) (ws : List Nat) : Bool :=
  !bit (modeWord ws 2) 3 || rd s (SCN_RATE_mhz n) != bits (modeWord ws 8) 19 0 ||
    (modeFields n ws).any (fun e => rd s e.1.inForce != e.2 % 2 ^ e.1.width)

/-- DSP_SET_MODE (R241 to R244). -/
def dspSetMode (q : Req) (s : State) : Answer :=
  let n := bits (q.w 2) 2 0
  let ws := (List.range 9).map (fun i => q.w (i + 2))
  let on := bit (q.w 2) 3
  if (out s n).mode.isSome then no ST_BUSY s
  else if on && modeMalformed ws then no ST_BAD_ARG s
  else if modeSet s n && modeChanges s n ws && claimed s (2 + n) && !q.fromSecure then
    ⟨ST_DEFERRED_SECURE, [], claimBlocked (2 + n) q.carried.master q.carried.polder s, id⟩
  else if !on && !running s n then okR [frameCounter s n] s
  else match (if on then modeFault s n ws else none) with
    | some st => no st s
    | none =>
      let s1 := setOut n { out s n with mode := some (some q.job, ws) } s
      pend s1 (if running s n then id else configure n ws)

/-- DSP_SET_MODE. -/
def execDspSetMode (k : Fin 32) (s : State) : Out := done (serve Op.DSP_SET_MODE k dspSetMode s)

/-! ## The other scan-out commands -/

/-- Whether a sink takes a varying vertical total (R249). What a DSI-2 panel's data sheet permits is not the device's to know: a free
choice. -/
def stretchOk (s : State) (n : Nat) : Bool :=
  if n < 6 then (match (out s n).sink with | some k => k.varTotal | none => false) else !cmdMode s n && freeBit s

/-- The command mode that an output has or a mode set in progress gives it. -/
def cmdModeComing (s : State) (n : Nat) : Bool :=
  cmdMode s n || (match (out s n).mode with | some (_, ws) => bit (modeWord ws 2) 3 && (modeLink ws).cmdMode | none => false)

/-- R373: what DSP_SET_LOCK asks conflicts with the schedule in force for the group: another phase, or joining at another rate. -/
def schedConflict (s : State) (n group phase mhz : Nat) : Bool :=
  match schedInForce s group with
  | some i => phase != rd s (ONL_GRP_PHASE_ns i) ||
      (modeSet s n && rd s (SCN_LOCK_CTRL_group n) != group && mhz != rd s (ONL_GRP_RATE_mhz i))
  | none => false

/-- DSP_SET_LOCK (R249, R253 to R255, R373). -/
def dspSetLock (q : Req) (s : State) : Answer :=
  let n := bits (q.w 2) 2 0
  let on := bit (q.w 2) 3
  let method := bit (q.w 2) 4
  let group := bits (q.w 2) 31 16
  let mhz := rd s (SCN_RATE_mhz n)
  let ms := bits (q.w 4) 13 0
  if mhz ≠ 0 ∧ 1000000000000 ≤ q.w 3 * mhz then no ST_BAD_ARG s
  else if method ∧ (ms < 1 ∨ vTotal s n < ms) then no ST_BAD_ARG s
  else if schedConflict s n group (q.w 3) mhz then no ST_ONL_SCHEDULE s
  else if cmdModeComing s n then no ST_SCN_LOCK_MODE s
  else if method && !stretchOk s n then no ST_SCN_LOCK_MODE (tookFree s)
  else if on && modeSet s n && !lockRateOk s n group mhz then no ST_SCN_LOCK_RATE s
  else
    let s1 := s |> wrB (SCN_LOCK_CTRL_enable n) on |> wrB (SCN_LOCK_CTRL_method n) method |> wr (SCN_LOCK_CTRL_max_stretch n) ms
      |> wr (SCN_LOCK_CTRL_group n) group |> wr (SCN_LOCK_PHASE_ns n) (q.w 3) |> tookFree
    did (if !on then s1 |> wr (SCN_LOCK_STAT_trim n) 0 |> setOut n { out s1 n with lockRun := 0 } |> setLockState n 0
      else if lockState s1 n = 0 then setLockState n 1 s1 else s1)

/-- DSP_SET_LOCK. -/
def execDspSetLock (k : Fin 32) (s : State) : Out := done (serve Op.DSP_SET_LOCK k dspSetLock s)

/-- DSP_SET_FILL (R236). -/
def dspSetFill (q : Req) (s : State) : Answer := did (wr (SCN_FILL_rgb (bits (q.w 2) 2 0)) (bits (q.w 3) 29 0) s)

/-- DSP_SET_FILL. -/
def execDspSetFill (k : Fin 32) (s : State) : Out := done (serve Op.DSP_SET_FILL k dspSetFill s)

/-- Lines are being inserted (SCN_STATUS.stretching). -/
def stretchingNow (s : State) (n : Nat) : Bool :=
  running s n && !(out s n).vsynced && (out s n).attested && stretchLines s n != 0 && decide (lineTime s n (vsyncStart s n) ≤ s.now)

/-- SCN_STATUS and SCN_LOCK_STAT as they read, the bits that follow other state among them. -/
def scnStatus (s : State) (n : Nat) : Nat :=
  packFlds s [SCN_STATUS_running n, SCN_STATUS_link_up n, SCN_STATUS_sink n] + 8 * b2n (stretchingNow s n)
def scnLockStat (s : State) (n : Nat) : Nat :=
  packFlds s [SCN_LOCK_STAT_state n, SCN_LOCK_STAT_trim n] + 4 * rd s ONL_TIME_STAT_unsync

/-- DSP_GET_OUTPUT. -/
def dspGetOutput (q : Req) (s : State) : Answer :=
  let n := bits (q.w 2) 2 0
  if bit (q.w 2) 8 then
    okR [rd s (SCN_PACE_INC_frac n), rd s (SCN_PACE_INC_int n), rd s (SCN_FILL_rgb n),
      (if running s n then (rasterPos s n).1 + 65536 * (rasterPos s n).2 else 0), rd s (SCN_LINK_DELAY_ns n), rd s (SCN_LOCK_PHASE_ns n),
      rd s (SCN_LOCK_ERR_ns n), lo32 (rd s (SCN_LOCK_TARGET_time n)), hi32 (rd s (SCN_LOCK_TARGET_time n)),
      packFlds s [SCN_LOCK_CTRL_enable n, SCN_LOCK_CTRL_method n, SCN_LOCK_CTRL_max_stretch n, SCN_LOCK_CTRL_group n]] s
  else
    okR [packFlds s [SCN_HTIME0_h_active n, SCN_HTIME0_h_total n],
      packFlds s [SCN_HTIME1_hsync_start n, SCN_HTIME1_hsync_end n, SCN_HTIME1_hpol n],
      packFlds s [SCN_VTIME0_v_active n, SCN_VTIME0_v_total n],
      packFlds s [SCN_VTIME1_vsync_start n, SCN_VTIME1_vsync_end n, SCN_VTIME1_vpol n],
      packFlds s [SCN_FORMAT_depth8 n, SCN_FORMAT_link n, SCN_FORMAT_cmd_mode n, SCN_FORMAT_te_en n, SCN_FORMAT_bt2020 n, SCN_FORMAT_dsc n],
      rd s (SCN_RATE_mhz n), scnStatus s n, packFlds s [SCN_LINK_rate n, SCN_LINK_lanes n, SCN_LINK_dsi_rate n],
      packFlds s [SCN_DSC_bpp16 n, SCN_DSC_slices n, SCN_DSC_slice_h n], scnLockStat s n, frameCounter s n,
      lo32 (rd s (SCN_FLIP_TIME_time n)), hi32 (rd s (SCN_FLIP_TIME_time n))] s

/-- DSP_GET_OUTPUT. -/
def execDspGetOutput (k : Fin 32) (s : State) : Out := done (serve Op.DSP_GET_OUTPUT k dspGetOutput s)

/-- DSP_GET_SINK: the output is in the low bits of word 2, which is also the low word of the buffer's address. -/
def dspGetSink (q : Req) (s : State) : Answer :=
  let n := bits (q.w 2) 2 0
  let k := (out s n).sink
  let w := match k with
    | some k => 2 * k.rate + 32 * k.lanes + 256 * b2n k.dsc + 512 * b2n k.varTotal
    | none => 0
  let bytes := match k with | some k => k.edid.take q.bufSize | none => []
  okR [rd s (SCN_STATUS_sink n) + w] (devPut 0 (q.bufAddr - n) bytes s)

/-- DSP_GET_SINK. -/
def execDspGetSink (k : Fin 32) (s : State) : Out := done (serve Op.DSP_GET_SINK k dspGetSink s)

/-! ## Hot plug and link maintenance (R245 to R247) -/

/-- R247: the link of an output whose sink has lost it is retrained: at the current rate and lanes, or lower with a configuration that
carries the mode, if the training succeeds there; else it stays down. -/
def relink (n : Nat) (t : Option (Nat × Nat)) (s : State) : State :=
  let c := linkInForce s n
  let s1 := setLink n false s
  match t with
  | none => s1
  | some (rate, lanes) =>
    let d := { c with rate := rate, lanes := lanes }
    if d.offered n && decide (linkRate rate ≤ linkRate c.rate) && decide (lanes ≤ c.lanes) && decide (1 ≤ lanes) && d.carries then
      setLink n true (setForce [(SCN_LINK_rate n, rate), (SCN_LINK_lanes n, lanes)] s1)
    else s1

/-- HOTPLUG recorded, with DSP_HOTPLUG (R246). -/
def hotplug (n : Nat) (connected unsupported : Bool) (s : State) : State :=
  s |> record (Src.SCN_OUT n) 2 none [b2n connected, b2n unsupported]
    |> notifyWardenAnd0 Op.DSP_HOTPLUG [n + 8 * b2n connected + 16 * b2n unsupported]

/-- A sink as it reports itself. -/
def sinkOf (k : SinkInfo) : Sink := ⟨k.rate, k.lanes, k.dsc, k.varTotal, k.edid.map (fun b => b.toNat)⟩

/-- What Tujan does on one reading of an HPD detector (R245, R246). -/
def hpdRead (n : Nat) (r : HpdRead) (t : Option (Nat × Nat)) (s : State) : State :=
  match r with
  | .level high us k =>
    if us < 100000 ∨ high = sinkPresent s n then s
    else if high then
      let sk := sinkOf k
      let c := linkInForce s n
      let bad := modeSet s n && !(c.reported sk && c.carries)
      let s1 := s |> setOut n { out s n with sink := some sk } |> wr (SCN_STATUS_sink n) 1 |> hotplug n true bad
      if modeSet s n && !bad && t.isSome then setLink n true s1 else s1
    else s |> setOut n { out s n with sink := none } |> wr (SCN_STATUS_sink n) 0 |> hotplug n false false |> setLink n false
  | .lowPulse us fault =>
    if 500 ≤ us ∧ us < 2000 ∧ fault ∧ sinkPresent s n ∧ running s n then relink n t s else s

/-- A training outcome as rate and lanes. -/
def trainedAt (t : Trained) : Option (Nat × Nat) := t.map (fun p => (p.1.val, p.2.val))

/-- HPD_POLL (R245): Tujan reads the detectors; those listed hold something. -/
def execHpdPoll (reads : List (Fin 6 × HpdRead × Trained)) (s : State) : Out :=
  done (reads.foldl (fun s r => hpdRead r.1 r.2.1 (trainedAt r.2.2) s) s)

/-- LINK_STATUS_POLL (R247): the sink's link status is read, and a link that is lost, or still down, is retrained. -/
def execLinkStatusPoll (n : Fin 6) (lost : Bool) (t : Trained) (s : State) : Out :=
  if !running s n || !sinkPresent s n then .next s
  else
    let s1 := pumpRan 6 100000000 s
    done (if lost || !rdB s (SCN_STATUS_link_up n) then relink n (trainedAt t) s1 else s1)

end Sys2Proof.Machine
end

