-- ==== Sys2Proof/Machine/TimeSync.lean ====
section
/-! DEFINITION. Switch ports and links (R360), PTP and the time states (R363 to R367, Table ONL-2). -/
namespace Sys2Proof.Machine

/-! ## Masters (R364) -/

/-- The order in which IEEE 1588 compares masters: the first is better. -/
def Announce.better (a b : Announce) : Bool :=
  let l (x : Announce) : List Nat := [x.priority1, x.clockClass, x.accuracy, x.variance, x.priority2, x.identity, x.steps]
  match ((l a).zip (l b)).find? (fun e => e.1 != e.2) with
  | some (x, y) => decide (x < y)
  | none => false

/-- The port and best master of those heard. -/
def bestMaster (s : State) : Option (Nat × Announce) :=
  (s.net.masters.filterMap (fun e => e.2.map (fun a => (e.1, a)))).foldl (fun best e =>
    match best with
    | some b => if e.2.better b.2 then some e else some b
    | none => some e) none

/-- The port in the slave state: the best master's as a boundary clock, the internal port as a transparent clock, 15 for none. -/
def slavePort (s : State) : Nat :=
  match rd s ONL_PTP_CFG_mode, bestMaster s with
  | 0, _ => 15
  | _, none => 15
  | 1, some b => b.1
  | _, some _ => 6

/-- The masters heard changed; a change of master is recorded. -/
def setMasters (t : Tab (Option Announce)) (s : State) : State :=
  let s1 := setNet (fun v => { v with masters := t }) s
  let s2 := wr ONL_TIME_STAT_slave_port (slavePort s1) s1
  match bestMaster s1 with
  | some b => if bestMaster s = bestMaster s1 then s2 else record0 Src.ONL_PTP_MASTER none (b.1 :: twoWords b.2.identity) s2
  | none => s2

/-- A port that takes part in PTP: up, with ptp = 1, in a domain and mode that the device is in. -/
def ptpPort (s : State) (p domain : Nat) : Bool :=
  rd s ONL_PTP_CFG_mode != 0 && rdB s (ONL_PORT_STAT_up p) && rdB s (ONL_PORT_CFG_ptp p) && domain == rd s ONL_PTP_CFG_domain && domainOn s 6

/-- PTP_ANNOUNCE (R364): an Announce message may change the best master and the port in the slave state. -/
def execPtpAnnounce (p : Fin 6) (domain : BitVec 8) (a : AnnounceInfo) (s : State) : Out :=
  if !ptpPort s p domain.toNat then .next s
  else done (setMasters (s.net.masters.put p (some ⟨a.priority1.toNat, a.clockClass.toNat, a.accuracy.toNat, a.variance.toNat,
    a.priority2.toNat, a.identity.toNat, a.steps.toNat⟩)) s)

/-! ## Links (R360) -/

/-- Port p's bit of ONL_STATUS.link. -/
def linkBit (p : Nat) (up : Bool) (s : State) : State := if up then orBits ONL_STATUS_link (2 ^ p) s else clrBits ONL_STATUS_link (2 ^ p) s

/-- A port's link comes up at a speed, or goes down. -/
def linkChange (p : Nat) (up : Bool) (speed : Nat) (s : State) : State :=
  let s1 := s |> linkBit p up |> wrB (ONL_PORT_STAT_up p) up |> wr (ONL_PORT_STAT_speed p) (if up then speed else 0)
    |> record0 Src.ONL_LINK none [p, b2n up, speed]
  if up then s1 else setMasters (s1.net.masters.put p none) s1

/-- ONL_LINK (R360): an enabled port's link comes up at its speed, or a link goes down. -/
def execOnlLink (p : Fin 6) (up : Bool) (s : State) : Out :=
  let was := rdB s (ONL_PORT_STAT_up p)
  if up = was ∨ domainOn s 6 = false then .next s
  else if up ∧ rdB s (ONL_PORT_CFG_enable p).inForce = false then .next s
  else done (linkChange p up (rd s (ONL_PORT_CFG_speed p).inForce) s)

/-! ## Time states (Table ONL-2, R365) -/

/-- R365: a change of state. On entering SYNC, Tujan sets the vault's clock (R399). -/
def setTimeState (st : Nat) (s : State) : State :=
  let was := rd s ONL_TIME_STAT_state
  if was = st then s
  else
    let unsync := b2n (st == 0 || st == 3)
    let s1 := s |> wr ONL_TIME_STAT_state st |> wr ONL_TIME_STAT_unsync unsync |> record0 Src.ONL_TIME_STATE none [st, was]
      |> raiseLines (List.range 32) 58 |> notifyWardenAnd0 Op.NET_TIME_STATE [st + 4 * unsync]
    if st = 1 then rtcSync 0 s1 else s1

/-- Device time advanced to an instant, at the rate it runs at: by the time left, and again by what the rate adjustment leaves. -/
def advanceDevice : Nat → Nat → State → State
  | 0, _, s => s
  | k + 1, t, s => if s.devTime < t then advanceDevice k t (passTime (t - s.devTime) s) else s

/-- R251: after a step, a locked output whose error exceeds 2 µs acquires again. -/
def lockAfterStep (delta : Int) (s : State) : State :=
  (List.range 8).foldl (fun s n =>
    if lockOn s n && lockState s n == 2 then
      let t := ((rd s (SCN_FLIP_TIME_time n) : Int) + delta).toNat
      let err : Int := (t : Int) - nearestTarget s n t
      if 2000 < err.natAbs then s |> setOut n { out s n with lockRun := 0 } |> setLockState n 1 else s
    else s) s

/-- R390: a step moves every bucket's reference with device time. -/
def stepWeir (delta : Int) (s : State) : State :=
  let f (t : Nat) : Nat := ((t : Int) + delta).toNat
  { s with evr := { s.evr with startTime := f s.evr.startTime, weir := s.evr.weir.map (fun e => (e.1, { e.2 with last := f e.2.last })) } }

/-- R367: device time stepped by `delta`. -/
def stepTime (delta : Int) (s : State) : State :=
  let s1 := { s with devTime := (((s.devTime : Int) + delta) % (2 ^ 64 : Nat)).toNat, devFrac := 0 }
  s1 |> stepStamps delta |> stepWeir delta |> wr ONL_LAST_STEP_ns (unsgn 64 delta) |> incWrap ONL_TIME_STAT_steps 1
    |> record0 Src.ONL_TIME_STEP none (twoWords (unsgn 64 delta)) |> lockAfterStep delta

/-- R367: the rate adjustment that slewing chooses: open within ±100 ppm and a change of 1 ppm per second, so a free value. -/
def slewRate (s : State) : State :=
  let most : Nat := (s.now - s.net.rateAt) / 1000000
  let adj : Int := rdI s ONL_TIME_RATE_adj + (freeVal 32 s % (2 * most + 1) : Nat) - most
  setNet (fun v => { v with rateAt := s.now }) (wrI ONL_TIME_RATE_adj (max (-100000) (min adj 100000)) (tookFree s))

/-- PTP_SYNC (R364, R367): a Sync from the best master, with the offset from the master that is measured and the filtered one; `interval` is
the time to the next. -/
def execPtpSync (p : Fin 6) (domain : BitVec 8) (interval : Nat) (offset filtered : Int) (s : State) : Out :=
  if !ptpPort s p domain.toNat || (bestMaster s).map (fun b => b.1) != some p.val then .next s
  else
    let n := if filtered.natAbs ≤ 250 then s.net.syncs + 1 else 0
    let s1 := s |> setNet (fun v => { v with syncs := n, syncAt := s.now, syncInterval := interval }) |> wr ONL_TIME_OFFSET_ns (satSgn 32 filtered)
    let s2 := if rd s ONL_PTP_STEP_TH_ns < offset.natAbs then stepTime (-offset) s1 else slewRate s1
    done (if 16 ≤ n then setTimeState 1 s2 else s2)

/-- PTP_SYNC_TIMEOUT (Table ONL-2): no valid Sync for 3 intervals, or announce receipt timeout, which forgets the master. -/
def execPtpSyncTimeout (announce : Bool) (s : State) : Out :=
  let s1 := if announce then (match bestMaster s with | some b => setMasters (s.net.masters.put b.1 none) s | none => s)
    else advanceTo (s.net.syncAt + 3 * s.net.syncInterval) s
  let s2 := setNet (fun v => { v with syncs := 0 }) s1
  done (if rd s2 ONL_TIME_STAT_state = 1 then setTimeState 2 (setNet (fun v => { v with holdSince := s2.now }) s2) else s2)

/-- HOLDOVER_EXPIRY (Table ONL-2). -/
def execHoldoverExpiry (s : State) : Out :=
  if rd s ONL_TIME_STAT_state ≠ 2 then .next s
  else done (setTimeState 3 (advanceTo (s.net.holdSince + 1000000000 * rd s ONL_PTP_CFG_holdover) s))

end Sys2Proof.Machine
end

