-- ==== Sys2Proof/Machine/Recorder.lean ====
section
/-! DEFINITION. The event recorder's own steps and commands: the weir's summaries, freeze and snapshot, reads of the ring and the archive
(R385 to R395). -/
namespace Sys2Proof.Machine

/-! ## The weir -/

/-- WEIR_SUMMARY (R390): the bucket of a code with suppressed occurrences refills to one record. -/
def execWeirSummary (code : Fin 4096) (s : State) : Out :=
  let w := weirOf s code
  if w.mode ≠ 1 ∨ w.count = 0 ∨ w.rate = 0 ∨ !s.evr.started then .next s
  else
    let s1 := advanceDevice 8 (w.last + (weirOne - w.level + w.rate - 1) / w.rate) s
    done (weirSummaryDue code (setWeir code ((weirOf s1 code).refill s1.devTime) s1))

/-- R390, R392, R410: an entry set. A change writes a pending summary at once, and starts the bucket full. -/
def weirSet (code mode rate burst : Nat) (s : State) : State :=
  let w := weirOf s code
  if w.mode = mode ∧ w.rate = rate ∧ w.burst = burst then s
  else
    let s1 := if 0 < w.count then weirSummary code s else s
    setWeir code ⟨mode, rate, burst, burst * weirOne, s.devTime, 0, 0, 0, none⟩ s1

/-- EVR_SET_WEIR and EVR_SET_SECURE_WEIR (R392, R410). -/
def setWeirCmd (secure : Bool) (q : Req) (s : State) : Answer :=
  let code := bits (q.w 2) 11 0
  let mode := bits (q.w 2) 13 12
  let rate := bits (q.w 3) 15 0
  let burst := bits (q.w 3) 23 16
  if !secure && protectedCode code then no ST_NOT_OWNER s
  else if mode = 3 ∨ (mode = 1 ∧ (rate = 0 ∨ burst = 0)) ∨ (mode = 2 ∧ protectedCode code = true) then no ST_BAD_ARG s
  else did (weirSet code mode rate burst s)

/-- EVR_SET_WEIR. -/
def execEvrSetWeir (k : Fin 32) (s : State) : Out := done (serve Op.EVR_SET_WEIR k (setWeirCmd false) s)

/-- EVR_SET_SECURE_WEIR. -/
def execEvrSetSecureWeir (k : Fin 32) (s : State) : Out := done (serve Op.EVR_SET_SECURE_WEIR k (setWeirCmd true) s)

/-- EVR_GET_WEIR (R391). -/
def execEvrGetWeir (k : Fin 32) (s : State) : Out :=
  done (serve Op.EVR_GET_WEIR k (fun q s => let w := weirOf s (bits (q.w 2) 11 0); okR [w.mode + 256 * w.burst, w.rate, w.count] s) s)

/-! ## Freeze (R393) -/

/-- EVR_FREEZE recorded: freeze or thaw, timeout, and whether it is a snapshot's. -/
def recordFreeze (freeze timeout snap : Nat) (s : State) : State := record0 Src.EVR_FREEZE none [freeze, timeout, snap] s

/-- R393: the ring frozen for `ms` milliseconds, after the freeze has been recorded. -/
def freeze (ms snap : Nat) (s : State) : State :=
  let s1 := settle 4 (recordFreeze 1 ms snap s)
  { s1 with evr := { s1.evr with frozen := true, freezeEnd := s1.now + ms * 1000000, lostNow := 0 } }

/-- R393: a thaw. The held records enter the ring in order, then EVR_LOSS if any was lost, then the thaw's own record. -/
def thaw (snap : Nat) (s : State) : State :=
  let held := s.evr.fifo
  let s1 := held.foldl (fun s r => toRing r s) { s with evr := { s.evr with frozen := false, fifo := [], lostNow := 0 } }
  let s2 := if 0 < s.evr.lostNow then
      record0 Src.EVR_LOSS none [s.evr.lostNow, match held.getLast? with | some r => r.seq | none => 0] s1
    else s1
  recordFreeze 0 0 snap s2

/-- FREEZE_TIMEOUT (R393). -/
def execFreezeTimeout (s : State) : Out :=
  if !s.evr.frozen then .next s else done (thaw 0 (advanceTo s.evr.freezeEnd s))

/-- R393, R410. -/
def freezeCmd (q : Req) (s : State) : Answer :=
  let ms := bits (q.w 2) 29 16
  if bit (q.w 2) 0 then
    if ms = 0 ∨ 10000 < ms then no ST_BAD_ARG s
    else if s.evr.frozen then no ST_EVR_FROZEN s
    else did (freeze ms 0 s)
  else did (if s.evr.frozen then thaw 0 s else s)

/-- EVR_FREEZE. -/
def execEvrFreeze (k : Fin 32) (s : State) : Out := done (serve Op.EVR_FREEZE k freezeCmd s)

/-! ## Reads of the ring -/

/-- R388: what a sender receives of the records: all, those of its polder, or, the warden, those that are not secure. -/
def sees (s : State) (q : Req) (polder : Option Nat) (secure : Bool) : Bool :=
  q.polder == some 0 || (!secure && (q.fromWarden s || (polder.isSome && q.polder == polder)))

/-- A record's bytes as a snapshot gives them (R388): of a secure one, only the first half-word to a sender other than polder 0. -/
def evrSnapBytes (all : Bool) (r : EvRec) : List Nat :=
  if r.secure && !all then leBytes 2 r.halfWord ++ List.replicate 30 0 else r.bytes

/-- The records of the ring from number `first` on, oldest first; none when that number is still to be given. -/
def ringFrom (s : State) (first : Nat) : List EvRec :=
  if (first + 4294967296 - s.evr.next) % 4294967296 < 2147483648 then []
  else (s.evr.ring.takeWhile (fun r => decide ((r.seq + 4294967296 - first) % 4294967296 < 2147483648))).reverse

/-- R388: the records copied, up to the count and to what fits. The first number copied is a free value when there is none. -/
def readRing (q : Req) (s : State) : Answer :=
  let first := readNat s q.bufAddr 4
  let count := readNat s (q.bufAddr + 4) 4
  if count = 0 ∨ 65536 < count then no ST_BAD_ARG s
  else
    let rs := ((ringFrom s first).filter (fun r => sees s q r.polder r.secure)).take (min count ((q.bufSize - 32) / 32))
    match rs with
    | [] => ⟨ST_OK, [freeVal 32 s, 0], tookFree s, id⟩
    | r :: _ => okR [r.seq, rs.length] (devPut 0 (q.bufAddr + 32) (rs.flatMap EvRec.bytes) s)

/-- EVR_READ. -/
def execEvrRead (k : Fin 32) (s : State) : Out := done (serve Op.EVR_READ k readRing s)

/-- EVR_STAT as a word. -/
def evrStatWord (s : State) : Nat := b2n s.evr.frozen + 2 * s.evr.fifo.length + 65536 * rd s EVR_STAT_crit_drop

/-- EVR_ARCH as a word. -/
def evrArchWord (s : State) : Nat := rd s EVR_ARCH_sev + 65536 * min 65535 s.evr.archive.waiting.length

/-- EVR_GET_INFO (Table EVR-5). -/
def execEvrGetInfo (k : Fin 32) (s : State) : Out :=
  done (serve Op.EVR_GET_INFO k (fun _ s => okR [s.evr.next, evrStatWord s, s.evr.lost, evrArchWord s] s) s)

/-- The bytes of the ring in ring order (R387). -/
def ringImage (all : Bool) (s : State) : Tab (List Nat) := s.evr.ring.map (fun r => (r.seq % 65536, evrSnapBytes all r))

/-- R394: freeze, copy, thaw. The copy is taken with the freeze in force. -/
def snapshotCmd (q : Req) (s : State) : Answer :=
  if s.evr.frozen then no ST_EVR_FROZEN s
  else
    let s1 := freeze 1 1 s
    let img := ringImage (q.polder == some 0) s1
    let first := match s1.evr.ring.find? (fun r => r.seq % 65536 == 0) with | some r => r.seq | none => 0
    let s2 := (List.range 65536).foldl (fun s i => devPut 0 (q.bufAddr + 32 * i) (Tab.get (List.replicate 32 0) img i) s) s1
    pend s2 (fun s => reply q.job ST_OK [first] (thaw 1 s))

/-- EVR_SNAPSHOT. -/
def execEvrSnapshot (k : Fin 32) (s : State) : Out := done (serve Op.EVR_SNAPSHOT k snapshotCmd s)

/-! ## The archive (R395) -/

/-- Where boot flash stands in memory: the xSPI flash at its window (R453), the eMMC user area, which is not memory-mapped, above every
address of the map (notes/assumptions/48.md). -/
def flashAddr (medium offset : Nat) : Nat := (if medium = 0 then 0x80000000 else 2 ^ 40) + offset

/-- The archive changed. -/
def setArchive (f : Archive → Archive) (s : State) : State := { s with evr := { s.evr with archive := f s.evr.archive } }

/-- The erase blocks of the region. -/
def archiveBlocks (a : Archive) : Nat := max 1 (a.size / max 1 (Config.eraseBlock a.medium))

/-- R395: one block written with the oldest records that wait, in place of what its erase block held. How the block spells them is not stated,
so the bytes of flash become free values. -/
def archiveOne (s : State) : State :=
  let a := s.evr.archive
  let n := max 1 (Config.archiveRecords a.medium)
  let size := Config.eraseBlock a.medium
  let s1 := setArchive (fun a => { a with
    next := (a.next + 1) % archiveBlocks a, waiting := a.waiting.drop n,
    blocks := (a.next, s.vlt.counters.getD 0 0, a.waiting.take n) :: a.blocks.filter (fun b => b.1 != a.next) }) s
  tookFrees size (writeBytes (flashAddr a.medium (a.offset + a.next * size)) (freeVals 8 size s1) s1)

/-- R395: the records lost before they were archived, reported. -/
def archiveLost (s : State) : State :=
  if s.evr.archive.lost = 0 then s
  else record0 Src.EVR_ARCHIVE_LOST none [s.evr.archive.lost] (setArchive (fun a => { a with lost := 0 }) s)

/-- R395: every record that waits archived, in as many blocks as that takes. -/
def archiveAll : Nat → State → State
  | 0, s => s
  | k + 1, s => if s.evr.archive.waiting.isEmpty then s else archiveAll k (archiveOne s)

/-- ARCHIVE_BLOCK_WRITE (R395, activity 7 of Table CRP-10): a whole block waits. -/
def execArchiveBlockWrite (s : State) : Out :=
  let a := s.evr.archive
  if !a.isSet || decide (a.waiting.length < max 1 (Config.archiveRecords a.medium)) then done (archiveLost s)
  else done (pumpRan 7 0 (archiveOne (archiveLost s)))

/-- R395: the region and threshold: four words of the buffer (notes/assumptions/42.md). -/
def setArchiveCmd (q : Req) (s : State) : Answer :=
  let w (i : Nat) : Nat := readNat s (q.bufAddr + 4 * i) 4
  if 1 < w 0 ∨ w 2 = 0 ∨ 15 < w 3 ∨ (w 0 = 0 ∧ 0x20000000 < w 1 + w 2) then no ST_BAD_ARG s
  else did (s |> setArchive (fun a => { a with isSet := true, medium := w 0, offset := w 1, size := w 2, next := 0, blocks := [] })
    |> wr EVR_ARCH_sev (w 3))

/-- EVR_SET_ARCHIVE. -/
def execEvrSetArchive (k : Fin 32) (s : State) : Out := done (serve Op.EVR_SET_ARCHIVE k setArchiveCmd s)

/-- EVR_SET_VAULT_SEV (R397). -/
def execEvrSetVaultSev (k : Fin 32) (s : State) : Out :=
  done (serve Op.EVR_SET_VAULT_SEV k (fun q s => did (wr EVR_VAULT_SEV_sev (q.w 2) s)) s)

end Sys2Proof.Machine
end

