-- ==== Sys2Proof/Machine/Vault.lean ====
section
/-! DEFINITION. The vault: critical records, meter banks, tamper inputs, counters, digests, VBAT, and the power-fail flush (R396 to R403). -/
namespace Sys2Proof.Machine

/-! ## Critical records (R397) -/

/-- A record's bytes written to the next critical slot. -/
def critPut (bs : List Nat) (s : State) : State :=
  vltWrite (fun v => { v with crit := v.crit.put v.critSlot bs, critSlot := (v.critSlot + 1) % 96, critTotal := (v.critTotal + 1) % 65536 }) s

/-- The oldest record of the vault queue written. -/
def vaultWriteOne (s : State) : State :=
  match s.evr.vaultQ with
  | r :: t => critPut r.bytes { s with evr := { s.evr with vaultQ := t } }
  | [] => s

/-- VAULT_QUEUE_WRITE. -/
def execVaultQueueWrite (s : State) : Out := done (if s.vlt.isolated then s else vaultWriteOne s)

/-- VLT_CRIT_WR as a word. -/
def critWord (s : State) : Nat := s.vlt.critSlot + 65536 * s.vlt.critTotal

/-- R388: a slot as a sender receives it: whole, or zeros. -/
def critSeen (s : State) (q : Req) (i : Nat) : List Nat :=
  match s.vlt.crit.find? (fun e => e.1 == i) with
  | some (_, bs) =>
    let pol := bs.getD 3 0
    if sees s q (if bit pol 7 then none else some (bits pol 4 0)) (bit (bs.getD 2 0) 5) then bs else List.replicate 32 0
  | none => List.replicate 32 0

/-- VLT_GET_CRITICAL (R388). -/
def execVltGetCritical (k : Fin 32) (s : State) : Out :=
  done (serve Op.VLT_GET_CRITICAL k (fun q s => okR [critWord s] (devPut 0 q.bufAddr ((List.range 96).flatMap (critSeen s q)) s)) s)

/-! ## Meter banks (R396) -/

/-- Words 0 to 126 of a bank. -/
def MeterBank.words (b : MeterBank) : List Nat := b.gen :: (b.data ++ List.replicate 126 0).take 123 ++ [0, 0, 0]

/-- The 512 bytes of a bank. -/
def MeterBank.bytes (b : MeterBank) : List Nat := (b.words ++ [b.crc]).flatMap (leBytes 4)

/-- The CRC that word 127 should hold. -/
def MeterBank.check (b : MeterBank) : Nat := crc32c (b.words.flatMap (leBytes 4))

/-- A bank whose CRC holds. -/
def MeterBank.valid (b : MeterBank) : Bool := b.crc == b.check

/-- A bank with its CRC. -/
def MeterBank.sealed (gen : Nat) (data : List Nat) : MeterBank := let b : MeterBank := ⟨gen, data, 0⟩; ⟨gen, data, b.check⟩

/-- The newest valid bank: `false` A, `true` B. -/
def newestBank (v : VltSt) : Option Bool :=
  match v.bankA.valid, v.bankB.valid with
  | true, true => some (v.bankA.gen != v.bankB.gen && decide ((v.bankB.gen + 4294967296 - v.bankA.gen) % 4294967296 < 2147483648))
  | true, false => some false
  | false, true => some true
  | false, false => none

/-- A bank. -/
def bankOf (v : VltSt) (b : Bool) : MeterBank := if b then v.bankB else v.bankA

/-- A bank replaced. -/
def putBank (b : Bool) (m : MeterBank) (v : VltSt) : VltSt := if b then { v with bankB := m } else { v with bankA := m }

/-- The bank that a sync writes: the one that does not hold the newest valid generation, A when none is valid. -/
def syncTarget (v : VltSt) : Bool := match newestBank v with | some b => !b | none => false

/-- Words 1 to 123 of the shadow. -/
def shadowWords (s : State) : List Nat := (List.range 123).map (fun i => readNat s (rdA s VLT_METER_SRC_addr + 4 * (i + 1)) 4)

/-- R396: a sync started, unless the change count is odd. One in progress goes on. -/
def startSync (s : State) : State :=
  if s.vlt.isolated || s.vlt.sync.isSome then s
  else if readNat s (rdA s VLT_METER_SRC_addr) 4 % 2 = 1 then wr VLT_METER_CTRL_torn 1 s
  else setVlt (fun v => { v with sync := some (shadowWords s) }) s

/-- Words of a copy that takes time: each as it stood at the start, or as it stands at the end; which, where they differ, is a free choice. -/
def copied (free : Nat) (start now : List Nat) : List Nat :=
  (List.range 123).map (fun i => if Config.freeChoice (free + i) then now.getD i 0 else start.getD i 0)

/-- R396: the sync completes with the next generation. -/
def finishSync (s : State) : State :=
  match s.vlt.sync with
  | none => s
  | some ws =>
    let gen := match newestBank s.vlt with | some b => wrapAdd 32 (bankOf s.vlt b).gen 1 | none => 1
    let m := MeterBank.sealed gen (copied s.free ws (shadowWords s))
    tookFrees 123 (setVlt (fun v => { putBank (syncTarget v) m v with sync := none }) s)

/-- METER_SYNC_DONE (R396). -/
def execMeterSyncDone (s : State) : Out := done (finishSync s)

/-- R396: a sync cut short: the bank it was writing holds what had been written, a free value; the other is intact. -/
def tearSync (s : State) : State :=
  if s.vlt.sync.isNone then s
  else tookFrees 125 (setVlt (fun v => { putBank (syncTarget v) ⟨freeVal 32 s, freeVals 32 123 (tookFree s), Config.freeValue (s.free + 124) % 4294967296⟩ v with
    sync := none }) s)

/-- A write of VLT_METER_CTRL: torn is cleared by a 1, sync starts a copy. -/
def meterCtrlWrite (v : Nat) (s : State) : State :=
  let s1 := if bit v 2 then wr VLT_METER_CTRL_torn 0 s else s
  if bit v 0 then startSync s1 else s1

/-- VLT_METER_SYNC (R396). -/
def execVltMeterSync (a : Access) (addr : BitVec 40) (v : BitVec 32) (s : State) : Out :=
  regWrite a addr.toNat v.toNat (addr.toNat == 0x20050020) (fun _ s => meterCtrlWrite v.toNat s) s

/-- VLT_GET_METERS (R396). -/
def execVltGetMeters (k : Fin 32) (s : State) : Out :=
  done (serve Op.VLT_GET_METERS k (fun q s =>
    match newestBank s.vlt with
    | some b => okR [b2n b] (devPut 0 q.bufAddr (bankOf s.vlt b).bytes s)
    | none => okR [2] s) s)

/-! ## Counters and digests (R400, R401) -/

/-- R400: a counter incremented by 1, saturating. -/
def cntInc (k : Nat) (s : State) : State := vltWrite (fun v => { v with counters := v.counters.set k (satAdd 32 (v.counters.getD k 0) 1) }) s

/-- R400, R401: whether a write names a counter or slot that its writer may change: 0 and 1 Tujan, 2 to 7 polder 0's secure world. -/
def vltMay (c : Carried) (k : Nat) : Bool := if k < 2 then c.master == 9 else secureCore c

/-- VLT_CNT_INC (R400). -/
def execVltCntInc (a : Access) (addr : BitVec 40) (v : BitVec 32) (s : State) : Out :=
  regWrite a addr.toNat v.toNat (addr.toNat == 0x200500A0) (fun c s =>
    if vltMay c (bits v.toNat 2 0) then cntInc (bits v.toNat 2 0) s else violateAt c 2 addr.toNat v.toNat s) s

/-- A digest as 32 bytes. -/
def digestBytes (d : List Nat) : List Nat := (d ++ List.replicate 32 0).take 32

/-- R401: slot `k` extended with 32 bytes. -/
def extend (k : Nat) (m : List Nat) (s : State) : State :=
  vltWrite (fun v => { v with digests := v.digests.set k (sha256 (digestBytes (v.digests.getD k []) ++ m)) }) s

/-- The 32 bytes of VLT_EXT_DATA0–7. -/
def extData (s : State) : List Nat := (List.range 8).flatMap (fun w => leBytes 4 (rd s (VLT_EXT_DATA_data w)))

/-- VLT_EXT_GO (R401). -/
def execVltExtGo (a : Access) (addr : BitVec 40) (v : BitVec 32) (s : State) : Out :=
  regWrite a addr.toNat v.toNat (addr.toNat == 0x20050320) (fun c s =>
    if !bit v.toNat 31 then s
    else if vltMay c (bits v.toNat 2 0) then extend (bits v.toNat 2 0) (extData s) s
    else violateAt c 2 addr.toNat v.toNat s) s

/-! ## Tamper inputs (R398) -/

/-- R398: the record that the vault itself writes in STANDBY. -/
def tamperRecord (v : VltSt) (i level : Nat) : List Nat :=
  EvRec.bytes { code := evCode Src.VLT_TAMPER 0, sev := severity Src.VLT_TAMPER 0, summary := false, held := false, vault := true, rtc := true,
                unsync := false, secure := false, polder := none, seq := 0, time := rtcNs v, p0 := i, p1 := level, p2 := lo32 v.seconds, p3 := 0 }

/-- R398, R426: a change registered. -/
def tamperChange (i level : Nat) (s : State) : State :=
  if s.pwr.off = 1 then critPut (tamperRecord s.vlt i level) s
  else
    let s1 := s |> record0 Src.VLT_TAMPER none [i, level, s.vlt.seconds]
      |> notifyWardenAnd0 Op.VLT_TAMPER_NOTIFY [i + 4 * level, s.vlt.seconds]
    if level = 1 ∧ rd s CRP_STATUS_power_state ≠ 0 then { s1 with wakes := s1.wakes ++ [(5, i)] } else s1

/-- R398: an input sampled. -/
def tamperOne (i sample : Nat) (s : State) : State :=
  let t := s.vlt.tampers.getD i ⟨0, 0, 0, 0⟩
  let put (x : Tamper) : State → State := setVlt (fun v => { v with tampers := v.tampers.set i x })
  if sample = t.prev ∧ sample ≠ t.level then
    tamperChange i sample (put { prev := sample, level := sample, count := if sample = 1 then satAdd 16 t.count 1 else t.count,
                                 time := if sample = 1 then lo32 s.vlt.seconds else t.time } s)
  else put { t with prev := sample } s

/-- TAMPER_SAMPLE (R398): the pin levels found at the next sample, every 250 ms. -/
def execTamperSample (pins : BitVec 4) (s : State) : Out :=
  let s0 := advanceTo (Tab.get 0 s.pumpLast 200 + 250000000) s
  let s1 := { s0 with pumpLast := s0.pumpLast.put 200 s0.now }
  done ((List.range 4).foldl (fun s i =>
    if bit s.vlt.tamperCfg i then tamperOne i (b2n (bit pins.toNat i == bit s.vlt.tamperCfg (4 + i))) s else s) s1)

/-- VLT_SET_TAMPER (R398). -/
def execVltSetTamper (k : Fin 32) (s : State) : Out :=
  done (serve Op.VLT_SET_TAMPER k (fun q s => did (vltWrite (fun v => { v with tamperCfg := bits (q.w 2) 7 0 }) s)) s)

/-- VLT_SET_RTC (R399). -/
def execVltSetRtc (k : Fin 32) (s : State) : Out :=
  done (serve Op.VLT_SET_RTC k (fun q s => did (rtcSet (q.w 2 + 4294967296 * q.w 3) s)) s)

/-- R402: VBAT measured. -/
def vbatMeasure (mv : Nat) (s : State) : State :=
  let s1 := setVlt (fun v => { v with vbat := mv, vbatLow := v.vbatLow || decide (mv < 2200) }) s
  if mv < 2200 then record0 Src.VLT_BATTERY none [mv] s1 else s1

/-- VBAT_MEASURE (R402): hourly. -/
def execVbatMeasure (mv : BitVec 12) (s : State) : Out :=
  let s1 := advanceTo (Tab.get 0 s.pumpLast 201 + 3600000000000) s
  done (vbatMeasure mv.toNat { s1 with pumpLast := s1.pumpLast.put 201 s1.now })

/-- VLT_STAT as a word. -/
def vltStatWord (s : State) : Nat :=
  b2n s.vlt.vaultLost + 2 * b2n s.vlt.rtcValid + 4 * b2n s.vlt.vbatLow + 8 * rd s VLT_STAT_pf_active + 16 * rd s VLT_STAT_pf_done

/-- VLT_RTC as a 64-bit value. -/
def rtcWord (s : State) : Nat := s.vlt.frac + 32768 * s.vlt.seconds

/-- VLT_GET_STATUS (Table EVR-5). -/
def execVltGetStatus (k : Fin 32) (s : State) : Out :=
  done (serve Op.VLT_GET_STATUS k (fun _ s =>
    okR ([vltStatWord s, s.vlt.vbat] ++ twoWords (rtcWord s) ++ (List.range 8).map (fun i => s.vlt.counters.getD i 0)) s) s)

/-! ## The power-fail flush (R403, Table VLT-2) -/

/-- Steps 2 to 5, from P: the meter sync in progress completes, a final one is made, the vault queue is written, and the interface is
isolated. -/
def flushSteps (s : State) : State :=
  let p := s.now
  let s1 := advanceTo (p + 2000) s |> settle 4 |> finishSync |> startSync
  let s2 := finishSync (vaultDrain s1.evr.vaultQ.length s1)
  advanceTo (p + 1000000) s2 |> wr VLT_STAT_pf_done 1 |> setVlt (fun v => { v with isolated := true })
where
  /-- Records of the vault queue written, oldest first. -/
  vaultDrain : Nat → State → State
    | 0, s => s
    | k + 1, s => vaultDrain k (vaultWriteOne s)

/-- POWER_FAIL (R403): PWRFAIL_N has been low for 1 µs. Any power transition ends (R427). -/
def execPowerFail (s : State) : Out :=
  if s.vlt.pf.isSome ∨ s.pwr.off ≠ 0 then .next s
  else
    let s1 := s |> setVlt (fun v => { v with pf := some s.now }) |> wr VLT_STAT_pf_active 1 |> cntInc 1
    let s2 := record0 Src.VLT_PWRFAIL none [s1.vlt.counters.getD 1 0] { s1 with pwr := { s1.pwr with trans := none } }
    done (flushSteps s2)

end Sys2Proof.Machine
end

