-- ==== Sys2Proof/Machine/CheckValue.lean ====
section
/-! DEFINITION. The check-value unit (R404 to R410). -/
namespace Sys2Proof.Machine

/-! ## Jobs -/

/-- The job of a channel. -/
def cvuJob (s : State) (c : Nat) : Option CvuJob := Tab.get none s.cvu c

/-- A channel's job replaced. -/
def setCvu (c : Nat) (j : Option CvuJob) (s : State) : State := { s with cvu := s.cvu.put c j }

/-- The polder that holds a channel. -/
def cvuHolder (s : State) (c : Nat) : Nat := grantee s 7 c

def CvuJob.mode (j : CvuJob) : Nat := bits j.cfg 1 0
def CvuJob.refin (j : CvuJob) : Bool := bit j.cfg 2
def CvuJob.refout (j : CvuJob) : Bool := bit j.cfg 3
def CvuJob.width (j : CvuJob) : Nat := bits j.cfg 10 4
def CvuJob.compare (j : CvuJob) : Bool := bit j.cfg 11
def CvuJob.irq (j : CvuJob) : Bool := bit j.cfg 12
def CvuJob.cont (j : CvuJob) : Bool := bit j.cfg 13
def CvuJob.final (j : CvuJob) : Bool := bit j.cfg 14

/-- The reasons of CVU_CHc_STAT. -/
def cvuParam : Nat := 1
def cvuDenied : Nat := 2
def cvuTimeout : Nat := 3
def cvuPoison : Nat := 4
def cvuLength : Nat := 5

/-- A translation fault: cvuDenied in CVU_CHc_STAT, told apart for POL_FAULT_INFO. -/
def cvuTranslation : Nat := 16

/-- R405, R407: the reason for which a job does not start, or 0. -/
def CvuJob.bad (j : CvuJob) : Nat :=
  if j.mode = 3 then cvuParam
  else if j.mode = 0 ∧ (j.width = 0 ∨ 64 < j.width ∨ (j.width < 8 ∧ j.refin ≠ j.refout) ∨
      2 ^ j.width ≤ j.poly ∨ 2 ^ j.width ≤ j.init ∨ 2 ^ j.width ≤ j.xorout) then cvuParam
  else if j.len = 0 ∨ (j.mode ≠ 0 ∧ j.final = false ∧ j.len % 64 ≠ 0) then cvuLength
  else 0

/-- The words of CVU_CHc_CFG's fields. -/
def cvuCfgFlds (c : Nat) : List Fld :=
  [CVU_CH_CFG_mode c, CVU_CH_CFG_refin c, CVU_CH_CFG_refout c, CVU_CH_CFG_width c, CVU_CH_CFG_compare c, CVU_CH_CFG_irq c,
    CVU_CH_CFG_cont c, CVU_CH_CFG_final c]

/-- The job that a channel's registers describe. -/
def cvuFromRegs (s : State) (c : Nat) : CvuJob :=
  { addr := rd s (CVU_CH_ADDR_addr c), len := rd s (CVU_CH_LEN_bytes c), cfg := packFlds s (cvuCfgFlds c), poly := rd s (CVU_CH_POLY_poly c),
    init := rd s (CVU_CH_INIT_init c), xorout := rd s (CVU_CH_XOROUT_xorout c),
    expect := (List.range 8).map (fun w => rd s (CVU_CH_EXPECT_value c w)), run := (List.range 10).map (fun w => rd s (CVU_CH_RUN_value c w)),
    key := (List.range 8).flatMap (fun w => leBytes 4 (rd s (CVU_CH_KEY_key c w))), began := rd s (POL_SHARE_cvu (cvuHolder s c)) != 0,
    abort := false, field := none }

/-! ## The scan (R404) -/

/-- An address in the xSPI window. -/
def inXspi (a : Nat) : Bool := decide (0x80000000 ≤ a) && decide (a < 0xA0000000)

/-- Boot flash as polder 0's channels read it: the xSPI window, or the eMMC area that Tujan streams to them for a field check (R409). -/
def cvuFlash (p : Nat) (a : Nat) : Bool := p == 0 && (inXspi a || decide (2 ^ 40 ≤ a))

/-- The bytes of the scan from `a` up to the end of its page, as far as they can be read, with the reason that stops it there, or 0. -/
def cvuPage (p a n : Nat) (s : State) : Nat × List Nat × State :=
  if cvuFlash p a then (0, readBytes s a n, s)
  else match devPage ⟨masterCvu, p⟩ false a s with
    | (0, pa, s1) =>
      if dramLost s1 && inDramRange pa then (cvuPoison, [], s1)
      else match (List.range n).find? (fun i => poisonedIn s1 (pa + i) 1) with
        | some i => (cvuPoison, (List.range i).map (fun j => physByte s1 (pa + j)), s1)
        | none => (0, (List.range n).map (fun j => physByte s1 (pa + j)), s1)
    | (r, _, s1) => (if r = faultTranslation then cvuTranslation else cvuDenied, [], s1)

/-- The scan of `n` bytes from `a`: what was read before it stopped, and why it stopped, or 0. -/
def cvuScan (p a n : Nat) (s : State) : Nat × List Nat × State :=
  (pageStarts a n).foldl (fun r x =>
    if r.1 ≠ 0 then r
    else match cvuPage p x (min (4096 - x % 4096) (a + n - x)) r.2.2 with
      | (e, bs, s1) => (e, r.2.1 ++ bs, s1)) (0, [], s)

/-! ## Results (R405, R406) -/

/-- Words as the two 32-bit halves of a 64-bit value. -/
def wide (ws : List Nat) : Nat := ws.getD 0 0 + 4294967296 * ws.getD 1 0

/-- R405: the CRC register after the bytes. -/
def CvuJob.crc (j : CvuJob) (bs : List Nat) : Nat :=
  crcBytes j.width j.poly j.refin (if j.cont then wide j.run % 2 ^ j.width else j.init) bs

/-- R405: the result of a CRC register. -/
def CvuJob.crcResult (j : CvuJob) (r : Nat) : Nat := (if j.refout then reflect j.width r else r) ^^^ j.xorout

/-- A key's block under a pad. -/
def keyBlock (key : List Nat) (pad : Nat) : List Nat := ((key ++ List.replicate 64 0).take 64).map (· ^^^ pad)

/-- R406: the hash state and byte count a job starts from. -/
def CvuJob.hashStart (j : CvuJob) : List Nat × Nat :=
  if j.cont then (j.run.take 8, wide (j.run.drop 8))
  else if j.mode = 2 then (sha256Block sha256Init (keyBlock j.key 0x36), 64)
  else (sha256Init, 0)

/-- The digest's bytes of a hash state. -/
def hashBytes (h : List Nat) : List Nat := h.flatMap (fun w => (leBytes 4 w).reverse)

/-- R406: the state and count after whole blocks. -/
def CvuJob.hashRun (j : CvuJob) (bs : List Nat) : List Nat × Nat :=
  let (h, n) := j.hashStart
  (sha256Blocks (bs.length / 64) h bs, (n + bs.length) % 2 ^ 64)

/-- R406: the digest, with the outer hash in HMAC mode. -/
def CvuJob.digest (j : CvuJob) (bs : List Nat) : List Nat :=
  let (h, n) := j.hashStart
  let m := bs ++ sha256Pad (n + bs.length)
  let d := hashBytes (sha256Blocks (m.length / 64) h m)
  if j.mode = 2 then sha256 (keyBlock j.key 0x5C ++ d) else d

/-! ## Ends (R407) -/

/-- The result words written. -/
def putResult (c : Nat) (ws : List Nat) (s : State) : State := ws.zipIdx.foldl (fun s e => wr (CVU_CH_RESULT_value c e.2) e.1 s) s

/-- The RUN words written. -/
def putRun (c : Nat) (ws : List Nat) (s : State) : State := ws.zipIdx.foldl (fun s e => wr (CVU_CH_RUN_value c e.2) e.1 s) s

/-- RUN where R406 and R407 state no value for it: free values. -/
def freeRun (c : Nat) (s : State) : State := tookFrees 10 (putRun c (freeVals 32 10 s) s)

/-- RUN after the bytes scanned of a job that goes on later (R405, R406, R408). -/
def leaveRun (c : Nat) (j : CvuJob) (bs : List Nat) (s : State) : State :=
  if j.mode = 0 then putRun c (twoWords (j.crc bs)) s
  else let (h, n) := j.hashRun bs; putRun c (h ++ twoWords n) s

/-- A job ended in a state with a reason, and line 63 where it was asked. -/
def cvuEnd (c st reason : Nat) (j : CvuJob) (s : State) : State :=
  let s1 := s |> setCvu c none |> wr (CVU_CH_STAT_state c) st |> wr (CVU_CH_STAT_reason c) reason
  if j.irq then raiseLine (cvuHolder s c) 63 s1 else s1

/-- R404, R407: a job ended in a fault at an address. -/
def cvuFault (c reason addr : Nat) (j : CvuJob) (s : State) : State :=
  cvuEnd c 4 reason j (record0 Src.CVU_FAULT (some (cvuHolder s c)) ([c, reason] ++ twoWords addr) s)

/-- R404, R107: a fault in memory, attributed to the holder. -/
def cvuMemFault (c reason addr : Nat) (j : CvuJob) (s : State) : State :=
  let why := if reason = cvuDenied then faultAddress else if reason = cvuTranslation then faultTranslation
    else if reason = cvuTimeout then faultTimeout else faultPoison
  polFault (cvuHolder s c) 48 c why (cvuFault c (if reason = cvuTranslation then cvuDenied else reason) addr j (freeRun c s))

/-- R405 to R407: a job whose bytes have all been read. -/
def cvuComplete (c : Nat) (j : CvuJob) (bs : List Nat) (s : State) : State :=
  let holder := some (cvuHolder s c)
  let done (s : State) : State := cvuEnd c 2 0 j (record0 Src.CVU_DONE holder (c :: twoWords j.len) s)
  let decide (ok : Bool) (s : State) : State :=
    if j.compare && !ok then cvuEnd c 3 0 j (record0 Src.CVU_MISMATCH holder [c, rd s (CVU_CH_RESULT_value c 0)] s) else done s
  if !j.final then done (leaveRun c j bs s)
  else if j.mode = 0 then
    let r := j.crcResult (j.crc bs)
    decide (r == wide j.expect % 2 ^ j.width) (putResult c (twoWords r) (leaveRun c j bs s))
  else
    let ws := leWords 8 (j.digest bs)
    decide (ws == j.expect) (putResult c ws (freeRun c s))

/-- Final reply of a field check (R409): the MAC; ST_BUSY when its channel was stopped (notes/assumptions/47.md). -/
def fieldReply (c : Nat) (j : CvuJob) (s : State) : State :=
  match j.field with
  | some q =>
    if rd s (CVU_CH_STAT_state c) = 2 then reply q ST_OK ((List.range 8).map (fun w => rd s (CVU_CH_RESULT_value c w))) s
    else reply q ST_BUSY [] s
  | none => s

/-- Where an abort stops the scan (R408): a 64-byte boundary of it, which one being open. A scan past its last boundary ends by itself. -/
def abortPoint (j : CvuJob) (s : State) : Option Nat :=
  let k := freeVal 40 s % ((j.len - 1) / 64 + 2)
  if k ≤ (j.len - 1) / 64 then some (64 * k) else none

/-- R104: whether a job can end while its polder's share is 0: one whose last 64 KiB may already have been running. -/
def cvuMayEnd (s : State) (c : Nat) (j : CvuJob) : Bool :=
  j.abort || rd s (POL_SHARE_cvu (cvuHolder s c)) != 0 || (j.began && (decide (j.len ≤ 65536) || freeBit s))

/-- The end of a running job: aborted, faulted or complete. `timeout` is how many bytes had been read when a read timed out. -/
def cvuFinish (c : Nat) (timeout : Option Nat) (j : CvuJob) (s : State) : State :=
  let cut := if j.abort then abortPoint j s else none
  let s0 := if j.abort then tookFree s else s
  let want := min (cut.getD j.len) (timeout.getD j.len)
  match cvuScan (cvuHolder s c) j.addr want s0 with
  | (e, bs, s1) =>
    let s2 := wr (CVU_CH_DONE_bytes c) bs.length s1
    if e ≠ 0 then cvuMemFault c e (j.addr + bs.length) j s2
    else if timeout.isSome ∧ want < cut.getD j.len then cvuMemFault c cvuTimeout (j.addr + want) j s2
    else if cut.isSome then cvuEnd c 5 0 j (leaveRun c j bs s2)
    else cvuComplete c j bs s2

/-- CVU_JOB_END (R404 to R409). -/
def execCvuJobEnd (c : Fin 8) (timeout : Option (BitVec 40)) (s : State) : Out :=
  match cvuJob s c with
  | none => .next s
  | some j =>
    if !cvuMayEnd s c j then .next (tookFree s)
    else done (fieldReply c j (cvuFinish c (timeout.map (·.toNat)) j (tookFree s)))

/-! ## Starts -/

/-- A job started on a channel, or faulted at once (R405, R407). -/
def cvuStart (c : Nat) (j : CvuJob) (s : State) : State :=
  let s1 := s |> wr (CVU_CH_DONE_bytes c) 0
  if j.bad ≠ 0 then cvuFault c j.bad j.addr j s1
  else s1 |> setCvu c (some j) |> wr (CVU_CH_STAT_state c) 1 |> wr (CVU_CH_STAT_reason c) 0

/-- R408: an abort asked of a channel. -/
def cvuAbort (c : Nat) (s : State) : State :=
  match cvuJob s c with
  | some j => setCvu c (some { j with abort := true }) s
  | none => s

/-- The channel whose START register an address is. -/
def startReg (addr : Nat) : Option Nat :=
  if 0x20040000 ≤ addr ∧ addr < 0x20040800 ∧ addr % 0x100 = 0x50 then some ((addr - 0x20040000) / 0x100) else none

/-- A write of CVU_CHc_START: abort, then go, which is ignored while the channel runs. -/
def startWrite (c v : Nat) (s : State) : State :=
  let s1 := if bit v 1 then cvuAbort c s else s
  if bit v 0 && (cvuJob s1 c).isNone then cvuStart c (cvuFromRegs s1 c) s1 else s1

/-- CVU_START (R404, R405, R407). -/
def execCvuStart (a : Access) (addr : BitVec 40) (v : BitVec 32) (s : State) : Out :=
  regWrite a addr.toNat v.toNat ((startReg addr.toNat).isSome && bit v.toNat 0) (fun _ s => startWrite ((startReg addr.toNat).getD 0) v.toNat s) s

/-- CVU_START_ABORT (R408). -/
def execCvuStartAbort (a : Access) (addr : BitVec 40) (v : BitVec 32) (s : State) : Out :=
  regWrite a addr.toNat v.toNat ((startReg addr.toNat).isSome && bit v.toNat 1) (fun _ s => startWrite ((startReg addr.toNat).getD 0) v.toNat s) s

/-! ## Commands (Table EVR-5, R410) -/

/-- An own-scope command on a channel: its holder's, and, where the command says so, not while it runs. -/
def cvuOwn (idle : Bool) (q : Req) (c : Nat) (s : State) (body : State → Answer) : Answer :=
  if q.polder ≠ some (cvuHolder s c) then no ST_NOT_OWNER s
  else if idle && (cvuJob s c).isSome then no ST_BUSY s
  else body s

/-- The registers of a channel given a descriptor's bytes (offsets 0x00 to 0x4F). -/
def putDescriptor (c : Nat) (d : List Nat) (s : State) : State :=
  let w (off n : Nat) : Nat := leNat ((d.drop off).take n)
  let s1 := s |> wr (CVU_CH_ADDR_addr c) (w 0 8) |> wr (CVU_CH_LEN_bytes c) (w 8 8) |> writeFlds (w 0x10 4) (cvuCfgFlds c)
    |> wr (CVU_CH_POLY_poly c) (w 0x18 8) |> wr (CVU_CH_INIT_init c) (w 0x20 8) |> wr (CVU_CH_XOROUT_xorout c) (w 0x28 8)
  (List.range 8).foldl (fun s i => wr (CVU_CH_EXPECT_value c i) (w (0x30 + 4 * i) 4) s) s1

/-- R410. -/
def cvuRunCmd (q : Req) (s : State) : Answer :=
  let c := readNat s q.bufAddr 4
  if 8 ≤ c then no ST_BAD_ARG s
  else cvuOwn true q c s (fun s =>
    let s1 := putDescriptor c (readBytes s (q.bufAddr + 4) 80) s
    let j := cvuFromRegs s1 c
    if j.bad ≠ 0 then no ST_CVU_PARAM s else did (cvuStart c j s1))

/-- CVU_RUN. -/
def execCvuRun (k : Fin 32) (s : State) : Out := done (serve Op.CVU_RUN k cvuRunCmd s)

/-- CVU_SAVE (R408). -/
def execCvuSave (k : Fin 32) (s : State) : Out :=
  done (serve Op.CVU_SAVE k (fun q s =>
    let c := bits (q.w 2) 2 0
    cvuOwn true q c s (fun s => okR ((List.range 10).map (fun w => rd s (CVU_CH_RUN_value c w)) ++ twoWords (rd s (CVU_CH_DONE_bytes c))) s)) s)

/-- CVU_LOAD (R408). -/
def execCvuLoad (k : Fin 32) (s : State) : Out :=
  done (serve Op.CVU_LOAD k (fun q s =>
    let c := bits (q.w 2) 2 0
    cvuOwn true q c s (fun s => did (putRun c ((List.range 10).map (fun w => q.w (3 + w))) s))) s)

/-- CVU_SET_KEY (R406). -/
def execCvuSetKey (k : Fin 32) (s : State) : Out :=
  done (serve Op.CVU_SET_KEY k (fun q s =>
    let c := bits (q.w 2) 2 0
    cvuOwn true q c s (fun s => did ((List.range 8).foldl (fun s w => wr (CVU_CH_KEY_key c w) (q.w (3 + w)) s) s))) s)

/-- CVU_ABORT (R408). -/
def execCvuAbort (k : Fin 32) (s : State) : Out :=
  done (serve Op.CVU_ABORT k (fun q s => let c := bits (q.w 2) 2 0; cvuOwn false q c s (fun s => did (cvuAbort c s))) s)

/-- CVU_CHc_STAT as a word. -/
def cvuStatWord (s : State) (c : Nat) : Nat := rd s (CVU_CH_STAT_state c) + 256 * rd s (CVU_CH_STAT_reason c)

/-- CVU_GET_CHANNEL (R32). -/
def execCvuGetChannel (k : Fin 32) (s : State) : Out :=
  done (serve Op.CVU_GET_CHANNEL k (fun q s =>
    let c := bits (q.w 2) 2 0
    if !q.mayReadPolder s (cvuHolder s c) then no ST_NOT_OWNER s
    else okR (cvuStatWord s c :: twoWords (rd s (CVU_CH_DONE_bytes c)) ++ (List.range 8).map (fun w => rd s (CVU_CH_RESULT_value c w))) s) s)

/-- R409: the lowest-numbered idle channel that polder 0 holds. -/
def fieldChannel (s : State) : Option Nat := (List.range 8).find? (fun c => cvuHolder s c == 0 && (cvuJob s c).isNone)

/-- R409. -/
def fieldCheckCmd (q : Req) (s : State) : Answer :=
  let n := bits (q.w 2) 5 0
  let medium := bits (q.w 2) 8 8
  let offset := wide [q.w 11, q.w 12]
  let len := wide [q.w 13, q.w 14]
  if n = 0 ∨ 32 < n ∨ len = 0 ∨ (medium = 0 ∧ 0x20000000 < offset + len) then no ST_BAD_ARG s
  else match fieldChannel s with
    | none => no ST_BUSY s
    | some c =>
      let seed := ((List.range 8).flatMap (fun i => leBytes 4 (q.w (3 + i)))).take n
      pend (cvuStart c { addr := flashAddr medium offset, len := len, cfg := 2 + 16384, poly := 0, init := 0, xorout := 0, expect := [],
                         run := [], key := seed, began := rd s (POL_SHARE_cvu 0) != 0, abort := false, field := some q.job } s) id

/-- CVU_FIELD_CHECK. -/
def execCvuFieldCheck (k : Fin 32) (s : State) : Out := done (serve Op.CVU_FIELD_CHECK k fieldCheckCmd s)

/-! ## Polder reset (R408) -/

/-- The jobs of a polder's channels aborted. -/
def cvuAbortPolder (p : Nat) (s : State) : State := (idxWhere 8 (fun c => cvuHolder s c == p)).foldl (fun s c => cvuAbort c s) s

/-- The jobs of a polder's channels stopped by now (Table POL-7 step 2). -/
def cvuStop (p : Nat) (s : State) : State :=
  (idxWhere 8 (fun c => cvuHolder s c == p)).foldl (fun s c =>
    match cvuJob s c with
    | some j => fieldReply c j (cvuFinish c none { j with abort := true } s)
    | none => s) s

/-- Every channel of a polder stopped by now, with its RUN, RESULT and KEY set to zero. -/
def cvuReset (p : Nat) (s : State) : State :=
  (idxWhere 8 (fun c => cvuHolder s c == p)).foldl (fun s c =>
    s |> putRun c (List.replicate 10 0) |> putResult c (List.replicate 8 0)
      |> fun s => (List.range 8).foldl (fun s w => wr (CVU_CH_KEY_key c w) 0 s) s) (cvuStop p s)

end Sys2Proof.Machine
end

