-- ==== Sys2Proof/Machine/Share.lean ====
section
/-! DEFINITION. Deficit round robin over polder shares (R102 to R104), for the graphics unit, the codec and the check-value unit. Each
choice of a polder starts one unit of work, and a polder's turn lasts as many choices as its share (notes/assumptions/34.md). -/
namespace Sys2Proof.Machine

/-- The polders in turn after the one chosen last, that one at the end. -/
def Drr.turn (d : Drr) : List Nat := (List.range 32).map (fun i => (d.cur + 1 + i) % 32)

/-- The next polder to start work for, of those that have work queued; none has a share of 0 (R104). -/
def Drr.pick (weight : Nat → Nat) (ps : List Nat) (d : Drr) : Option (Nat × Drr) :=
  if d.credit ≠ 0 ∧ ps.contains d.cur = true ∧ weight d.cur ≠ 0 then some (d.cur, ⟨d.cur, d.credit - 1⟩)
  else match d.turn.find? (fun p => ps.contains p && weight p != 0) with
    | some p => some (p, ⟨p, weight p - 1⟩)
    | none => none

/-- Items in the order in which the round robin would choose them, each item's polder given by `pol`; items of one polder keep their
order. -/
def Drr.order (weight : Nat → Nat) (pol : Nat → Nat) : Nat → List Nat → Drr → List Nat
  | 0, _, _ => []
  | k + 1, items, d =>
    match d.pick weight (items.map pol) with
    | some (p, d1) =>
      match items.find? (fun i => pol i == p) with
      | some i => i :: Drr.order weight pol k (items.erase i) d1
      | none => []
    | none => []

end Sys2Proof.Machine
end

