-- ==== Sys2Proof/Machine/Codec.lean ====
section
/-! DEFINITION. The codec: engines and units (R283 to R287), sessions (R288 to R290), the packed reference format as it is written
(R291, R292), decoding (R294 to R298), and the commands of Table VCD-7 on sessions. -/
namespace Sys2Proof.Machine

/-- The engine identity of a session's accesses. -/
def vcdEng (s : State) (k : Nat) : Engine := ⟨masterVcd, sesPolder s k⟩

/-! ## Faults and events -/

/-- An engine given up by its unit. -/
def engineFree (e : Nat) (s : State) : State := clrBits VCD_STATUS_busy (2 ^ e) s

/-- Every unit of a session leaves its engine. -/
def sesHalt (k : Nat) (s : State) : State :=
  match ses s k with
  | none => s
  | some v =>
    let s1 := v.pics.foldl (fun s x => x.running.foldl (fun s r => engineFree r.1 s) s) s
    setSes k (some { v with pics := v.pics.map (fun x => { x with running := [] }) }) s1

/-- R107, R289: a session stops, with the reason of POL_FAULT_INFO. -/
def sesStop (k reason : Nat) (s0 : State) : State :=
  let s := sesHalt k s0
  match ses s k with
  | none => s
  | some v =>
    let p := sesPolder s k
    s |> setSes k (some { v with stopped := true }) |> sesEvent k VCD_SES_EVENT_fault |> record0 Src.VCD_SES_FAULT (some p) [k, reason]
      |> sesNotify k 1 |> polFault p 144 k reason

/-- A session stopped where a checked access answered a reason other than 0. -/
def sesStopIf (k : Nat) (rs : Nat × State) : State := if rs.1 = 0 then rs.2 else sesStop k rs.1 rs.2

/-- The picture of a session that a unit belongs to, found by its submission and frame. -/
def VcdSes.pic (v : VcdSes) (number frame : Nat) : Option VcdPic := v.pics.find? (fun p => p.number == number && p.frame == frame)

/-- A picture of a session given a new value. -/
def putPic (k : Nat) (p : VcdPic) (s : State) : State :=
  match ses s k with
  | some v => setSes k (some { v with pics := v.pics.map (fun q => if q.number == p.number && q.frame == p.frame then p else q) }) s
  | none => s

/-! ## Releasing submissions (R290) -/

/-- The submissions of the front of a queue that have begun and have no picture left. -/
def doneSubs (pics : List VcdPic) : Nat → List VcdSub → List VcdSub
  | n + 1, q :: t => if pics.any (fun p => p.number == q.number) then [] else q :: doneSubs pics n t
  | _, _ => []

/-- VCD_SESs_DONE moves past the submissions whose buffers are no longer read. -/
def sesRelease (k : Nat) (s : State) : State :=
  match ses s k with
  | none => s
  | some v =>
    let d := doneSubs v.pics v.begun v.queue
    match d.getLast? with
    | none => s
    | some q => s |> setSes k (some { v with queue := v.queue.drop d.length, begun := v.begun - d.length }) |> wr (VCD_SES_DONE_number k) q.number
        |> sesEvent k VCD_SES_EVENT_done

/-- A picture has ended: it leaves the pictures in progress, and its submission is released. -/
def endPic (k : Nat) (p : VcdPic) (s : State) : State :=
  match ses s k with
  | none => s
  | some v =>
    s |> setSes k (some { v with pics := v.pics.filter (fun q => !(q.number == p.number && q.frame == p.frame)),
                                 bands := v.bands.filter (fun b => p.number != 0 || decide (p.frame < b.1)) }) |> sesRelease k |> sesCloseDue

/-! ## Engines (R285, R286) -/

/-- An engine holds a unit. -/
def vcdBusy (s : State) (e : Nat) : Bool := bit (rd s VCD_STATUS_busy) e

/-- An engine that can take a unit. -/
def vcdIdle (s : State) (e : Nat) : Bool := !vcdBusy s e && !bit (rd s VCD_ENG_OFFLINE_engines) e && domainOn s 3

/-- The session, picture, unit and epoch that an engine holds. -/
def engineUnit (s : State) (e : Nat) : Option (Nat × VcdPic × Nat × Nat) :=
  s.vcd.sess.findSome? (fun x => match x.2 with
    | some v => v.pics.findSome? (fun p =>
        match p.running.find? (fun r => r.1 == e) with
        | some (_, u, ep) => some (x.1, p, u, ep)
        | none => none)
    | none => none)

/-- The engine cycles since an engine took its unit. -/
def engineCycles (s : State) (e : Nat) : Nat := (s.now - Tab.get 0 s.vcd.engStart e) * 73728 / 100000

/-- A unit leaves its engine, its cycles added to its picture's. -/
def VcdPic.left (s : State) (p : VcdPic) (e : Nat) : VcdPic :=
  { p with running := p.running.filter (fun r => r.1 != e), cycles := p.cycles + engineCycles s e }

/-- R286, R297: a picture is marked lost: its engines are freed, it is never output, and its pool picture is free again. -/
def loseP (k : Nat) (p : VcdPic) (s : State) : State :=
  let s1 := p.running.foldl (fun s r => engineFree r.1 s) s
  match ses s1 k with
  | none => s1
  | some v =>
    s1 |> setSes k (some { v with keyPend := v.keyPend || v.encode,
                                  pool := v.pool.filter (fun x => v.encode || x.idx != p.pool) })
      |> record0 Src.VCD_PIC_LOST (some (sesPolder s k)) (k :: twoWords (p.time.getD 0)) |> sesEvent k VCD_SES_EVENT_lost |> sesNotify k 2
      |> endPic k p

/-- The reset of an engine (R286): its unit is requeued with the next epoch; past the third its picture is lost. -/
def vcdEngineReset (e : Nat) (s : State) : State :=
  match engineUnit s e with
  | none => engineFree e s
  | some (k, p, u, ep) =>
    let p1 := p.left s e
    let s1 := s |> engineFree e |> putPic k p1
    if ep = 3 then loseP k p1 s1
    else s1 |> putPic k { p1 with again := p1.again ++ [(u, ep + 1)] } |> incWrap VCD_REQUEUES_count 1
      |> record0 Src.VCD_UNIT_REQUEUED (some (sesPolder s k)) [e, k, ep + 1]

/-- VCD_ENG_RESET (R286). The bits read 0 again once the engines have been reset. -/
def execVcdEngReset (a : Access) (addr : BitVec 40) (v : BitVec 32) (s : State) : Out :=
  regWrite a addr.toNat v.toNat (addr.toNat == 0x2040000C) (fun _ s => (idxWhere 16 (bit v.toNat)).foldl (fun s e => vcdEngineReset e s) s) s

/-- R179, R286: an error in an engine's own buffers resets it; the third within a second takes it out of service. -/
def vcdEngineFault (e : Nat) (s : State) : State :=
  let ts := s.now :: (Tab.get [] s.vcd.engFaults e).filter (fun t => decide (s.now < t + 1000000000))
  let s1 := { s with vcd := { s.vcd with engFaults := s.vcd.engFaults.put e ts } }
  let s2 := s1 |> recordReported Src.VCD_ENGINE_FAULT none [e] |> vcdEngineReset e
  if 3 ≤ ts.length then orBits VCD_ENG_OFFLINE_engines (2 ^ e) s2 else s2

/-! ## The pool (R291, R296) -/

/-- Coded width and height, bytes per sample, and strides of a session's pictures (R291). -/
def VcdSes.wc (v : VcdSes) : Nat := ceilDiv v.width 64 * 64
def VcdSes.hc (v : VcdSes) : Nat := ceilDiv v.height 8 * 8
def VcdSes.sampleBytes (v : VcdSes) : Nat := if v.depth10 then 2 else 1
def VcdSes.stride0 (v : VcdSes) : Nat := v.wc * v.sampleBytes + 64

/-- The bytes a pool picture occupies (R291). -/
def VcdSes.picBytes (v : VcdSes) : Nat := v.stride0 * v.hc + (v.stride0 - 64) * v.hc / 2

/-- The planes of pool picture `i`. -/
def VcdSes.plane0 (v : VcdSes) (i : Nat) : Nat := v.base + i * v.picBytes
def VcdSes.plane1 (v : VcdSes) (i : Nat) : Nat := v.plane0 i + v.stride0 * v.hc

/-- A slot holds pool picture `i` of a session in use or pending. -/
def slotHolds (s : State) (k i : Nat) : Bool :=
  s.dsp.slots.any (fun e => (e.2.inUse.toList ++ e.2.pending).any (fun x => x.origin == 1 + k && x.tag == i))

/-- R296: a free pool picture. -/
def freePool (s : State) (k : Nat) (v : VcdSes) : Option Nat :=
  (List.range v.pictures).find? (fun i =>
    !v.pool.any (fun q => q.idx == i && (q.ref || q.waiting)) && !v.pics.any (fun p => p.pool == i) && !slotHolds s k i)

/-! ## The packed reference format (R292) -/

/-- The residuals of a grid of width `w` and depth `d`, from its samples in order. -/
def packGrid (w d : Nat) (xs : List Nat) : List Nat :=
  (List.range xs.length).map (fun i =>
    let p := if i % w ≠ 0 then xs.getD (i - 1) 0 else if w ≤ i then xs.getD (i - w) 0 else 2 ^ (d - 1)
    let r := (xs.getD i 0 + 2 ^ d - p) % 2 ^ d
    if r < 2 ^ (d - 1) then 2 * r else 2 * (2 ^ d - r) - 1)

/-- The bit width of a number. -/
def bitWidth (n : Nat) : Nat := if n = 0 then 0 else Nat.log2 n + 1

/-- The bitstream of `n` groups of 16 residuals, as (value, bits), least significant bit first. -/
def packGroups : Nat → List Nat → Nat × Nat
  | 0, _ => (0, 0)
  | n + 1, ms =>
    let g := ms.take 16
    let k := bitWidth (g.foldl max 0)
    let group := k + 16 * (g.reverse.foldl (fun a m => a * 2 ^ k + m) 0)
    match packGroups n (ms.drop 16) with
    | (v, len) => (group + 2 ^ (4 + 16 * k) * v, 4 + 16 * k + len)

/-- A sample's bytes in the plain layout. -/
def rawSample (ten : Bool) (v : Nat) : List Nat := if ten then leBytes 2 (v * 64) else [v % 256]

/-- R292: the code of a block and the bytes of units 0 to code. -/
def packBlock (chroma ten : Bool) (xs : List Nat) : Nat × List Nat :=
  let d := if ten then 10 else 8
  let b := if ten then 2 else 1
  let unit := if chroma then 32 * b else 64 * b
  let ms := if chroma then packGrid 32 d (xs.take 64) ++ packGrid 32 d (xs.drop 64) else packGrid 64 d xs
  match packGroups (if chroma then 8 else 16) ms with
  | (v, len) =>
    let n := max 1 (ceilDiv (ceilDiv len 8) unit)
    if 3 < n then
      (3, if chroma then (List.range 2).flatMap (fun y => (List.range 32).flatMap (fun x =>
            rawSample ten (xs.getD (32 * y + x) 0) ++ rawSample ten (xs.getD (64 + 32 * y + x) 0)))
          else xs.flatMap (rawSample ten))
    else (n - 1, leBytes (n * unit) v)

/-- Whether a block lies in the session's pictures and has all its samples. -/
def blockFits (v : VcdSes) (c : CodedBlock) : Bool :=
  decide (c.row < v.hc / 4) && decide (c.col < v.wc / 64) && c.samples.length == (if c.chroma then 128 else 256)

/-- The accesses that write a block into pool picture `i`: its units and its code in the header. Answers the first reason that refused
one. -/
def writeBlock (k : Nat) (v : VcdSes) (i : Nat) (c : CodedBlock) (rs : Nat × State) : Nat × State :=
  if rs.1 ≠ 0 then rs
  else if !blockFits v c then (1, rs.2)
  else
    let e := vcdEng rs.2 k
    let b := v.sampleBytes
    let (code, bytes) := packBlock c.chroma v.depth10 (c.samples.map (fun x => if v.depth10 then x.toNat else x.toNat % 256))
    let unit := if c.chroma then 32 * b else 64 * b
    let at_ (u : Nat) : Nat :=
      if c.chroma then v.plane1 i + (2 * c.row + u / 2) * (v.stride0 - 64) + 64 * c.col * b + u % 2 * 32 * b
      else v.plane0 i + (4 * c.row + u) * v.stride0 + 64 * c.col * b
    let rs1 := (List.range (code + 1)).foldl (fun rs u =>
      if rs.1 ≠ 0 then rs else devWrite e (at_ u) ((bytes.drop (u * unit)).take unit) rs.2) rs
    let h := v.plane0 i + 4 * c.row * v.stride0 + v.stride0 - 64 + (if c.chroma then 32 else 0) + c.col / 4
    if rs1.1 ≠ 0 then rs1
    else match devRead e h 1 rs1.2 with
      | (0, bs, s2) =>
        let sh := 4 ^ (c.col % 4)
        let old := bs.headD 0
        devWrite e h [old - old / sh % 4 * sh + code * sh] s2
      | (r, _, s2) => (r, s2)

/-! ## Choosing units (R285) -/

/-- A unit that an engine could take: session, age of its picture, number, whether it begins its picture. -/
structure UnitChoice where
  session : Nat
  born : Nat
  unit : Nat
  encode : Bool
  au : Option AuInfo
  deriving DecidableEq, Repr

/-- A session whose units may run: open, not stopped or closing, its polder active. -/
def sesRuns (s : State) (k : Nat) : Option VcdSes :=
  match ses s k with
  | some v => if v.stopped || v.closing.isSome || polState s (sesPolder s k) != 1 then none else some v
  | none => none

/-- A unit that a picture has still to give out. -/
def VcdPic.offers (p : VcdPic) (u : Nat) : Bool := (u == p.next && decide (p.next < p.units)) || p.again.any (fun x => x.1 == u)

/-- A ready decode unit as a choice: the unit of a picture in progress, or the first of the next submission when a pool picture is free. -/
def decodeChoice (s : State) (r : ReadyUnit) : Option UnitChoice :=
  match sesRuns s r.session with
  | none => none
  | some v =>
    if v.encode then none
    else match v.pics.find? (fun p => p.offers r.unit) with
      | some p => some ⟨r.session, p.born, r.unit, false, none⟩
      | none =>
        match v.queue[v.begun]? with
        | some q => if r.unit = 0 ∧ (freePool s r.session v).isSome = true then some ⟨r.session, q.taken, 0, false, some r.au⟩ else none
        | none => none

/-- R301: the bands of row `r` of a picture have arrived; without sub-frame emission every band has. -/
def rowReady (v : VcdSes) (p : VcdPic) (lines r : Nat) : Bool :=
  let n := ceilDiv lines 16
  let have_ (b : Nat) : Bool := v.bands.any (fun x => x.1 == p.frame && x.2.1 == b)
  if v.subframe then (List.range 4).all (fun i => decide (n ≤ 4 * r + i) || have_ (4 * r + i)) else (List.range n).all have_

/-- The row an encode session has ready: of its oldest picture, or the first of its next submission. -/
def encodeChoice (s : State) (k : Nat) : Option UnitChoice :=
  match sesRuns s k with
  | none => none
  | some v =>
    if !v.encode then none
    else match v.pics with
      | p :: _ =>
        let r := match p.again with | (u, _) :: _ => u | [] => p.next
        if p.units ≤ r then none
        else if p.number = 0 ∧ rowReady v p (vActive s v.output) r = false then none
        else some ⟨k, p.born, r, true, none⟩
      | [] => match v.queue[v.begun]? with
        | some q => some ⟨k, q.taken, 0, true, none⟩
        | none => none

/-- The older of two choices; between pictures of one age the lower session. -/
def olderChoice (a b : UnitChoice) : UnitChoice := if b.born < a.born ∨ (b.born = a.born ∧ b.session < a.session) then b else a

/-- R285: the polder chosen by the round robin, and the oldest picture's unit in it. -/
def chooseUnit (ready : List ReadyUnit) (s : State) : Option (UnitChoice × State) :=
  let cs := ready.filterMap (decodeChoice s) ++ (s.vcd.sess.filterMap (fun e => encodeChoice s e.1))
  match s.vcd.drr.pick (fun p => rd s (POL_SHARE_vcd p)) (cs.map (fun c => sesPolder s c.session)) with
  | none => none
  | some (p, d) =>
    match cs.filter (fun c => sesPolder s c.session == p) with
    | [] => none
    | c :: t => some (t.foldl olderChoice c, { s with vcd := { s.vcd with drr := d } })

/-- A unit given to an engine. -/
def startUnit (e k u : Nat) (p : VcdPic) (s : State) : State :=
  let ep := match p.again.find? (fun x => x.1 == u) with | some x => x.2 | none => 0
  let p1 := if p.again.any (fun x => x.1 == u) then { p with again := p.again.filter (fun x => x.1 != u) } else { p with next := p.next + 1 }
  let s1 := s |> putPic k { p1 with running := p1.running ++ [(e, u, ep)] } |> orBits VCD_STATUS_busy (2 ^ e)
  { s1 with vcd := { s1.vcd with engStart := s1.vcd.engStart.put e s.now } }

/-! ## Decoding (R294 to R298) -/

/-- R294: the device time of a timestamp. -/
def sesTime (v : VcdSes) (ts : Nat) : Nat :=
  (v.word 7 + 4294967296 * v.word 8 + ts * 1000000000 / max 1 (v.word 6)) % 2 ^ 64

/-- The picture of the next submission begun. The picture predicts from a replacement when what it refers to was lost or never received, or
nothing has been decoded. -/
def beginDecode (k : Nat) (v : VcdSes) (q : VcdSub) (au : AuInfo) (s : State) : State :=
  match freePool s k v with
  | none => s
  | some i =>
    let p := { VcdPic.begin q.number 0 q.taken (some (sesTime v q.ts)) au.luma (max 1 au.units) with
                 pool := i, key := au.key, concealed := au.missing || (!au.key && !v.pool.any (fun x => x.ref)) }
    let pool := (v.pool.filter (fun x => x.idx != i)).map (fun x => { x with ref := au.keep.any (fun j => j.val == x.idx) })
    s |> setSes k (some { v with begun := v.begun + 1, pics := v.pics ++ [p], crop := au.crop.toNat,
                                 pool := pool ++ [⟨i, p.time.getD 0, au.isRef, false, false⟩] })
      |> wr (VCD_SES_STAT_starved k) 0 |> (if au.grain then wr (VCD_SES_STAT_grain k) 1 else id)

/-- R296: sessions whose next access unit waits for a pool picture show it. -/
def starve (ready : List ReadyUnit) (s : State) : State :=
  ready.foldl (fun s r =>
    match sesRuns s r.session with
    | some v => if r.unit = 0 ∧ v.encode = false ∧ v.begun < v.queue.length ∧ (freePool s r.session v).isNone = true
        then wr (VCD_SES_STAT_starved r.session) 1 s else s
    | none => s) s

/-- A decode unit started (R283, R285). -/
def startDecode (e : Nat) (c : UnitChoice) (s : State) : State :=
  let k := c.session
  match ses s k, c.au with
  | some v, some au =>
    (match v.queue[v.begun]? with
     | some q =>
       if !au.supported then sesStop k 5 s
       else
         let s1 := beginDecode k v q au s
         (match ses s1 k with
          | some w => (match w.pics.getLast? with | some p => startUnit e k 0 p s1 | none => s1)
          | none => s1)
     | none => s)
  | some v, none => (match v.pics.find? (fun p => p.offers c.unit) with | some p => startUnit e k c.unit p s | none => s)
  | none, _ => s

/-- VCD_UNIT_START (R285): an idle engine takes the ready unit that the choice falls on, when that is a decode unit. -/
def execVcdUnitStart (e : Fin 16) (ready : List ReadyUnit) (s : State) : Out :=
  if !vcdIdle s e then .next s
  else
    let s0 := starve ready s
    match chooseUnit ready s0 with
    | some (c, s1) => if c.encode then .next s0 else done (startDecode e c s1)
    | none => .next s0

/-- R298, R377: a key-picture request to a session's upstream, when the source is reachable and in the peer table. -/
def keyRequest (k : Nat) (v : VcdSes) (s : State) : State :=
  let dev := bits (v.word 10) 13 0
  let stream := bits (v.word 10) 31 16
  match s.net.peers.find? (fun p => p.device == dev) with
  | some p =>
    if bit (v.word 10) 15 then
      s |> netSend clsKeyreq 0 (some dev) p.ip4 [stream] |> record0 Src.VCD_KEY_REQUEST_SENT (some (sesPolder s k)) [k, dev, stream] |> sesNotify k 3
    else s
  | none => s

/-- R297, R298: a decoded picture's concealment counted, reported, and answered with a key-picture request after every eighth. -/
def countConcealed (k : Nat) (p : VcdPic) (s : State) : State :=
  match ses s k with
  | none => s
  | some v =>
    if !p.concealed then setSes k (some { v with concealed := 0 }) s
    else
      let n := v.concealed + 1
      let s1 := s |> setSes k (some { v with concealed := n }) |> record0 Src.VCD_CONCEALED (some (sesPolder s k)) [k, n]
        |> sesEvent k VCD_SES_EVENT_lost
      if n % 8 = 0 ∧ p.key = false then keyRequest k v s1 else s1

/-- The last unit of a picture is done: the picture waits for its output. -/
def decoded (k : Nat) (p : VcdPic) (s : State) : State :=
  match ses s k with
  | none => s
  | some v =>
    s |> setSes k (some { v with newest := some p.pool, pool := v.pool.map (fun x =>
          if x.idx == p.pool then { x with waiting := true, concealed := p.concealed } else x) })
      |> countConcealed k p |> endPic k p

/-- What reading the access unit of a picture meets (R107): the reason, or 0. -/
def readUnit (k : Nat) (v : VcdSes) (p : VcdPic) (s : State) : Nat × State :=
  match v.queue.find? (fun q => q.number == p.number) with
  | some q => (match devRead (vcdEng s k) q.addr q.bytes s with | (r, _, s1) => (r, s1))
  | none => (0, s)

/-- A decode unit ends (R286, R289, R297). -/
def unitDone (e k : Nat) (p : VcdPic) (concealed : Bool) (blocks : List CodedBlock) (s : State) : State :=
  match ses s k with
  | none => s
  | some v =>
    let p1 := { p.left s e with finished := p.finished + 1, concealed := p.concealed || concealed }
    match blocks.foldl (fun rs c => writeBlock k v p.pool c rs) (readUnit k v p s) with
    | (0, s1) =>
      let s2 := s1 |> engineFree e |> putPic k p1
      if p1.finished = p1.units then decoded k p1 s2 else s2
    | (r, s1) => sesStop k r (engineFree e s1)

/-- VCD_UNIT_DONE (R286): the unit that an engine holds ends. -/
def execVcdUnitDone (e : Fin 16) (how : UnitEnd) (s : State) : Out :=
  match how with
  | .engineFault => done (vcdEngineFault e s)
  | .outside => (match engineUnit s e with | some (k, _) => done (sesStop k 1 (engineFree e s)) | none => .next s)
  | .done concealed blocks =>
    match engineUnit s e with
    | none => .next (engineFree e s)
    | some (k, p, _, _) =>
      match ses s k with
      | some v => if v.encode then .next s else done (sesCloseDue (unitDone e k p concealed blocks s))
      | none => .next s

/-- The engine cycles spent on a picture, those of the units that are running included. -/
def picCycles (s : State) (p : VcdPic) : Nat := p.cycles + (p.running.map (fun r => engineCycles s r.1)).sum

/-- VCD_PIC_WATCHDOG (R297): the engine cycles of a session's oldest picture with units running pass 6 per luma sample. -/
def execVcdPicWatchdog (k : Fin 64) (s : State) : Out :=
  match ses s k with
  | none => .next s
  | some v =>
    match v.pics.find? (fun p => !p.running.isEmpty) with
    | none => .next s
    | some p =>
      let left := 6 * p.luma + 1 - picCycles s p
      done (loseP k p (advanceTo (s.now + ceilDiv (left * 100000) (73728 * p.running.length)) s))

/-- R295: a decoded picture queued to a slot, with its heartbeat. -/
def queueToSlot (k : Nat) (v : VcdSes) (x : PoolPic) (m : Nat) (s : State) : State :=
  let beat (s : State) : State := setSlot m { slot s m with beat := s.devTime } s
  if 4 ≤ (slot s m).pending.length then s |> beat |> record0 Src.VCD_PIC_SKIPPED (some (sesPolder s k)) [k, m]
  else
    let t := if v.present then (x.time + v.word 9 * 1000) % 2 ^ 64 else 0
    s |> enqueue m { seq := 0, buf0 := v.plane0 x.idx, buf1 := v.plane1 x.idx, fence := 0, target := 0, time := t, accepted := s.now,
                     stamp := some x.time, concealed := x.concealed, origin := 1 + k, tag := x.idx, checked := [] } |> beat

/-- R378: the lateness of a picture that a receive stream's session queues to its first bound slot. -/
def noteLateness (k time : Nat) (s : State) : State :=
  setNet (fun v => { v with rx := v.rx.map (fun r =>
    if r.session == k then { r with lateness := max r.lateness ((s.devTime - time) / 1000) } else r) }) s

/-- VCD_PICTURE_OUTPUT (R295): pool picture `i` of a session is output, in the order the stream gives. -/
def execVcdPictureOutput (k : Fin 64) (i : Fin 24) (s : State) : Out :=
  match sesRuns s k with
  | none => .next s
  | some v =>
    match v.pool.find? (fun x => x.idx == i.val && x.waiting) with
    | none => .next s
    | some x =>
      let s1 := setSes k (some { v with pool := v.pool.map (fun y => if y.idx == i.val then { y with waiting := false } else y) }) s
      let ms := v.slots.filter (fun m => slotOwner s m == sesPolder s k)
      let s2 := if ms.isEmpty then s1 else noteLateness k x.time s1
      done (ms.foldl (fun s m => queueToSlot k v x m s) s2)

/-! ## Doorbells (R290) -/

/-- The session whose register at offset `off` an address is, with the page it is in. -/
def sesReg (addr off : Nat) : Option (Nat × Nat) :=
  if isPage addr = true ∧ 0x2000 ≤ pageOff addr ∧ pageOff addr < 0x2E00 ∧ (pageOff addr - 0x2000) % 0x38 = off then
    some (pageOf addr, (pageOff addr - 0x2000) / 0x38)
  else none

/-- The bytes of a source picture that an encode submission stages (R299). -/
def VcdSes.sourceBytes (v : VcdSes) : Nat := bits (v.word 9) 15 0 * v.height + bits (v.word 9) 15 0 * v.height / 2

/-- R290: the doorbell of a session. -/
def sesDoorbell (p k addr x : Nat) (c : Carried) (s : State) : State :=
  let outcome (st n : Nat) (s : State) : State := s |> wr (VCD_SES_DB_STATUS_status k) st |> wr (VCD_SES_DB_STATUS_number k) n
  if sesPolder s k ≠ p then violateAt c 2 addr x s
  else if !bit x 0 then s
  else match ses s k with
    | none => outcome ST_BUSY 0 s
    | some v =>
      let a := rd s (VCD_SES_ADDR_addr k)
      let n := if v.encode then v.sourceBytes else rd s (VCD_SES_LEN_bytes k)
      if refuses s p || quietening s || !domainOn s 3 || v.closing.isSome then outcome ST_BUSY 0 s
      else if v.writeBack then outcome ST_BAD_ARG 0 s
      else if 32 ≤ v.queue.length then outcome ST_QUEUE_FULL 0 s
      else if (v.encode && a % 64 != 0) || (n != 0 && !spanOwned s p [] (a, a + n - 1)) then outcome ST_BAD_ADDR 0 s
      else
        let q : VcdSub := { addr := a, bytes := n, eos := rdB s (VCD_SES_LEN_eos k), discont := rdB s (VCD_SES_LEN_discont k),
                            key := rdB s (VCD_SES_LEN_key k), ts := rd s (VCD_SES_TS_ts k), number := v.next, taken := s.now }
        outcome ST_OK (v.next % 65536) (setSes k (some { v with queue := v.queue ++ [q], next := (v.next + 1) % 2 ^ 32 }) s)

/-- VCD_DOORBELL (R290): with PD_VCD off the doorbell is answered ST_BUSY, where R22 turns other accesses away. -/
def execVcdDoorbell (a : Access) (addr : BitVec 40) (v : BitVec 32) (s : State) : Out :=
  match sesReg addr.toNat 0x0C with
  | none => .next s
  | some (p, k) =>
    if !domainOn s 3 && (turnedAway a addr.toNat 4 v.toNat (orBits CRP_PD_STAT_on 8 s)).isNone then
      done (sesDoorbell p k addr.toNat v.toNat (carried s a addr.toNat) s)
    else regWrite a addr.toNat v.toNat (decide (k < 64)) (sesDoorbell p k addr.toNat v.toNat) s

/-! ## Commands (Table VCD-7) -/

/-- VCD_GET_INFO. -/
def vcdGetInfo (_ : Req) (s : State) : Answer := okR [rd s VCD_LOAD_DEC_samples, rd s VCD_LOAD_ENC_samples, rd s VCD_ENG_OFFLINE_engines] s

/-- VCD_GET_INFO. -/
def execVcdGetInfo (k : Fin 32) (s : State) : Out := done (serve Op.VCD_GET_INFO k vcdGetInfo s)

/-- VCD_SESs_STAT as a word. -/
def sesStatWord (s : State) (k : Nat) : Nat :=
  rd s (VCD_SES_STAT_state k) + 8 * rd s (VCD_SES_STAT_queued k) + 512 * rd s (VCD_SES_STAT_starved k) + 1024 * rd s (VCD_SES_STAT_grain k) +
    2048 * rd s (VCD_SES_STAT_key_pending k) + 4096 * rd s (VCD_SES_STAT_concealed k)

/-- VCD_GET_SESSION. -/
def vcdGetSession (q : Req) (s : State) : Answer :=
  let k := bits (q.w 2) 5 0
  if !q.mayReadPolder s (sesPolder s k) then no ST_NOT_OWNER s
  else
    let d := match ses s k with | some v => (v.desc, v.crop) | none => ([], 0)
    okR ((List.range 8).map (fun i => d.1.getD i 0) ++ [sesStatWord s k, d.2]) s

/-- VCD_GET_SESSION. -/
def execVcdGetSession (k : Fin 32) (s : State) : Out := done (serve Op.VCD_GET_SESSION k vcdGetSession s)

/-- Table VCD-1: the largest coded picture and the luma samples per second of the highest level (H.264 5.2, H.265 and AV1 6.1). -/
def profileLimits (codec : Nat) : Nat × Nat × Nat := if codec = 0 then (4096, 2304, 530841600) else (8192, 4352, 2139095040)

/-- R288: the fields hold defined encodings within Table VCD-1. -/
def descOk (encode : Bool) (v : VcdSes) : Bool :=
  let (mw, mh, ml) := profileLimits v.codec
  v.encode == encode && decide (v.codec < (if encode then 2 else 3)) && !(v.codec == 0 && v.depth10) && decide (0 < v.width) &&
    decide (0 < v.height) && decide (v.width ≤ mw) && decide (v.height ≤ mh) && decide (0 < v.rate) && decide (v.load ≤ ml * 1000) &&
    decide (bits (v.word 0) 31 24 = 0) && decide (v.word 2 < 2 ^ 20) && decide (bits (v.word 1) 15 14 = 0) && decide (bits (v.word 1) 31 30 = 0) &&
  (if encode then
    decide (v.pictures = 0) && v.word 5 % 4096 == 0 && decide (65536 ≤ v.word 5) && decide (v.word 5 ≤ 16777216) &&
      decide (bits (v.word 7) 5 0 ≤ bits (v.word 7) 13 8) && decide (bits (v.word 7) 13 8 ≤ 51) && decide (1 ≤ v.divisor) &&
      decide (v.divisor ≤ 8) && decide (bits (v.word 9) 17 16 ≤ 2)
   else decide (4 ≤ v.pictures) && decide (v.pictures ≤ 24) && decide (1 ≤ v.word 6) && decide (v.word 6 ≤ 1000000000))

/-- R288: a pool or ring in DRAM, or a pool in K5, whose every page the polder owns. -/
def sesBufferOk (s : State) (p : Nat) (v : VcdSes) : Bool :=
  let n := if v.encode then v.word 5 else v.pictures * v.picBytes
  let a := v.base
  let dram := inDram s a && inDram s (a + n - 1)
  let k5 := !v.encode && decide (0x42800000 ≤ a) && decide (a + n ≤ 0x43000000)
  a % 4096 == 0 && (dram || k5) && spanOwned s p [] (a, a + n - 1)

/-- A session as its descriptor opens it. -/
def VcdSes.opened (desc : List Nat) : VcdSes :=
  { desc := desc, stopped := false, queue := [], begun := 0, next := 1, slots := [], pool := [], pics := [], newest := none, concealed := 0,
    crop := 0, sinceKey := 0, keyPend := false, bands := [], first := none, full := false, lost := 0, records := [], finished := none,
    closing := none }

/-- The descriptor a request refers to. -/
def descOf (q : Req) (s : State) : VcdSes := VcdSes.opened ((List.range 16).map (fun i => readNat s (q.bufAddr + 4 * i) 4))

/-- R299: write-back of the source output is available to a polder. -/
def encodeSourceOk (s : State) (p : Nat) (v : VcdSes) : Bool :=
  !v.writeBack || (rdB s (CMP_OUT_WB_CTRL_enable v.output).inForce && rd s (CMP_OUT_WB_CTRL_polder v.output).inForce == p)

/-- An open of either direction (R284, R288, R299, R301). -/
def vcdOpen (encode : Bool) (q : Req) (s : State) : Answer :=
  match q.polder with
  | none => no ST_NOT_OWNER s
  | some p =>
    let v := descOf q s
    let k := bits (v.word 0) 5 0
    if sesPolder s k ≠ p then no ST_NOT_OWNER s
    else if (ses s k).isSome then no ST_BUSY s
    else if !descOk encode v then no ST_VCD_PROFILE s
    else if 3981312000 * 1000 < loadSum s encode + v.load then no ST_VCD_CAPACITY s
    else if !sesBufferOk s p v then no ST_BAD_ADDR s
    else if !encodeSourceOk s p v then no ST_VCD_SOURCE s
    else if v.encode && v.subframe && bits (v.word 7) 27 25 != 0 then no ST_VCD_BFRAMES s
    else
      let s1 := s |> setSes k (some v) |> wr (VCD_SES_STAT_starved k) 0 |> wr (VCD_SES_STAT_grain k) 0 |> wr (VCD_SES_DONE_number k) 0
        |> wr (VCD_SES_RING_WR_offset k) 0 |> wr (VCD_SES_RING_RD_offset k) 0
      did (s1 |> wr VCD_LOAD_DEC_samples (loadSum s1 false / 1000) |> wr VCD_LOAD_ENC_samples (loadSum s1 true / 1000))

/-- VCD_OPEN_DECODE (R288). -/
def execVcdOpenDecode (k : Fin 32) (s : State) : Out := done (serve Op.VCD_OPEN_DECODE k (vcdOpen false) s)

/-- VCD_OPEN_ENCODE (R299). -/
def execVcdOpenEncode (k : Fin 32) (s : State) : Out := done (serve Op.VCD_OPEN_ENCODE k (vcdOpen true) s)

/-- A command on an open session that the sender's polder holds. -/
def onSession (q : Req) (f : Nat → Nat → VcdSes → Answer) (s : State) : Answer :=
  match q.polder with
  | none => no ST_NOT_OWNER s
  | some p =>
    let k := bits (q.w 2) 5 0
    if sesPolder s k ≠ p then no ST_NOT_OWNER s
    else match ses s k with
      | none => no ST_BAD_ARG s
      | some v => f p k v

/-- VCD_CLOSE: queued submissions are discarded, and the session closes once its work has stopped and its entries are released. -/
def vcdClose (q : Req) (s : State) : Answer :=
  onSession q (fun _ k v =>
    if v.closing.isSome then no ST_BUSY s
    else pend (setSes k (some { v with closing := some q.job, queue := v.queue.take v.begun }) s) sesCloseDue) s

/-- VCD_CLOSE. -/
def execVcdClose (k : Fin 32) (s : State) : Out := done (serve Op.VCD_CLOSE k vcdClose s)

/-- VCD_BIND_SLOTS (R295). -/
def vcdBindSlots (q : Req) (s : State) : Answer :=
  onSession q (fun p k v =>
    let n := bits (q.w 2) 10 8
    let ms := (List.range n).map (fun i => q.w 3 / 64 ^ i % 64)
    if 4 < n ∨ v.encode = true then no ST_BAD_ARG s
    else if !ms.all (fun m => slotOwner s m == p) then no ST_NOT_OWNER s
    else did (setSes k (some { v with slots := ms }) s)) s

/-- VCD_BIND_SLOTS. -/
def execVcdBindSlots (k : Fin 32) (s : State) : Out := done (serve Op.VCD_BIND_SLOTS k vcdBindSlots s)

/-- VCD_RESTART (R107): the pictures that were in progress are given up, and the queue goes on. -/
def vcdRestart (q : Req) (s : State) : Answer :=
  onSession q (fun _ k v =>
    if !v.stopped then no ST_BUSY s
    else did (sesRelease k (setSes k (some { v with stopped := false, pics := [], bands := [], keyPend := v.keyPend || v.encode,
                                                    pool := v.pool.filter (fun x => !v.pics.any (fun p => p.pool == x.idx)),
                                                    begun := max v.begun (min 1 v.queue.length) }) s))) s

/-- VCD_RESTART. -/
def execVcdRestart (k : Fin 32) (s : State) : Out := done (serve Op.VCD_RESTART k vcdRestart s)

/-! ## Polder reset (R311) and loss of DRAM (R145) -/

/-- The open sessions of a polder. -/
def sesOf (s : State) (p : Nat) : List Nat :=
  (s.vcd.sess.filter (fun e => e.2.isSome && sesPolder s e.1 == p)).map (fun e => e.1)

/-- Table POL-7: the running units of a polder are aborted at R + 2 ms. -/
def vcdAbort (p : Nat) (s : State) : State :=
  (sesOf s p).foldl (fun s k => sesHalt k s) s

/-- R311: submissions and references are discarded; the sessions stay open, and the next picture is a key picture. -/
def vcdReset (p : Nat) (s : State) : State :=
  (sesOf s p).foldl (fun s k =>
    match ses s k with
    | some v => setSes k (some { v with stopped := false, queue := [], begun := 0, pics := [], bands := [], newest := none, keyPend := v.encode,
                                        pool := (v.pool.filter (fun x => !v.pics.any (fun y => y.pool == x.idx))).map (fun x =>
                                                   { x with ref := false, waiting := false }) }) (wr (VCD_SES_STAT_starved k) 0 s)
    | none => s) (vcdAbort p s)

/-- R145: the encode sessions that use write-back stop when the DRAM fails. -/
def vcdDramFailed (s : State) : State :=
  s.vcd.sess.foldl (fun s e =>
    match e.2 with
    | some v =>
      if v.writeBack && !v.stopped then
        let s1 := sesHalt e.1 s
        s1 |> setSes e.1 ((ses s1 e.1).map (fun v => { v with stopped := true })) |> wr (VCD_SES_DB_STATUS_status e.1) ST_DRAM_FAILED |> sesEvent e.1 VCD_SES_EVENT_fault |> sesNotify e.1 1
      else s
    | none => s) s

end Sys2Proof.Machine
end

