-- ==== Sys2Proof/Machine/Gfx.lean ====
section
/-! DEFINITION. The graphics unit (spec/10_graphics.md): windows, queues and clusters (R258 to R268), faults (R279), partial flushes
(R271), fast clear (R273, R274), residency (R276 to R278). -/
namespace Sys2Proof.Machine

/-! ## Windows -/

/-- Window `k` = 16 p + w. -/
def gfxWin (s : State) (k : Nat) : GfxWin := Tab.get GfxWin.empty s.gfx.wins k

/-- The engine identity of a window's work (R257). -/
def gfxEng (k : Nat) : Engine := ⟨masterGfx, k / 16⟩

/-- GFX_CTXw_STAT.state. -/
def GfxWin.state (g : GfxWin) : Nat :=
  if g.context.isNone then 0 else if g.stopped then 5 else if g.wait.isSome then 4 else if g.queue.isEmpty then 1
  else if g.resident then 3 else 2

/-- A window given a new value, its status register with it. -/
def setGfxWin (k : Nat) (g : GfxWin) (s : State) : State :=
  let p := k / 16
  let w := k % 16
  { s with gfx := { s.gfx with wins := s.gfx.wins.put k g } } |> wr (GFX_CTX_STAT_state p w) g.state |> wrB (GFX_CTX_STAT_class p w) g.compute
    |> wr (GFX_CTX_STAT_priority p w) g.prio |> wr (GFX_CTX_STAT_queued p w) g.queue.length |> wrB (GFX_CTX_STAT_resident p w) g.resident
    |> wr (GFX_CTX_STAT_context p w) (g.context.getD 0)

/-- Bits of GFX_CTXw_EVENT set, and line 24 + w with them. -/
def gfxEvent (k : Nat) (f : Nat → Nat → Fld) (s : State) : State := s |> wr (f (k / 16) (k % 16)) 1 |> raiseLine (k / 16) (24 + k % 16)

/-- The windows for which `ok` holds. -/
def gfxWhere (s : State) (ok : GfxWin → Bool) : List Nat := (s.gfx.wins.filter (fun e => ok e.2)).map (fun e => e.1)

/-! ## The working area (R269, R270) -/

/-- The bound graphics contexts of a polder. -/
def gfxContexts (s : State) (p : Nat) : List Nat := (gfxWhere s (fun g => g.context.isSome && !g.compute)).filter (fun k => k / 16 == p)

/-- The 16 KiB chunks of the tile-list pool of an area of `count` 64 KiB units. -/
def poolChunks (count : Nat) : Nat := (count - 5) * 4

/-- R270: the reserves of `n` contexts fit an area. -/
def reservesFit (count n : Nat) : Bool := decide (2 * (4 * n) ≤ poolChunks count)

/-- The chunks that list bytes take. -/
def listChunks (b : Nat) : Nat := ceilDiv b 16384

/-- R270: the chunks a context can have at once: what the other contexts of its polder neither hold nor have reserved. -/
def chunksFor (s : State) (k : Nat) : Nat :=
  poolChunks (rd s (GFX_AREA_count (k / 16))) -
    ((gfxContexts s (k / 16)).filter (fun j => j != k)).foldl (fun a j => a + max 4 (listChunks (gfxWin s j).passBytes)) 0

/-- R272: the chunks a context could have once every other context of its polder holds no more than its reserve. -/
def chunksAtMost (s : State) (k : Nat) : Nat :=
  poolChunks (rd s (GFX_AREA_count (k / 16))) - 4 * ((gfxContexts s (k / 16)).filter (fun j => j != k)).length

/-! ## Faults (R279) -/

/-- The POL_FAULT_INFO reason of a context fault reason (Table GFX-5). -/
def gfxPolReason (r : Nat) : Nat := [0, 1, 2, 3, 4, 5, 6, 5, 5, 3].getD r 5

/-- R279: a fault stops the context. -/
def gfxStop (k reason : Nat) (s : State) : State :=
  let g := gfxWin s k
  let p := k / 16
  let w := k % 16
  let n := match g.queue.head? with | some q => q.number | none => 0
  s |> setGfxWin k { g with stopped := true, resident := false, clusters := 0, todo := 0, wait := none }
    |> wr (GFX_CTX_FAULT_reason p w) reason |> wr (GFX_CTX_FAULT_offset p w) g.pkt |> wr (GFX_CTX_FAULT_SUB_number p w) n
    |> gfxEvent k GFX_CTX_EVENT_fault |> record0 Src.GFX_CTX_FAULT (some p) [w, reason, n]
    |> polFault p 128 (g.context.getD 0) (gfxPolReason reason)

/-- R279 where a checked access answered a reason other than 0. -/
def gfxStopIf (k : Nat) (rs : Nat × State) : State := if rs.1 = 0 then rs.2 else gfxStop k rs.1 rs.2

/-! ## Accesses of work (R257, R276 to R278) -/

/-- R277, R278: the residency bit an access uses: the map's own, or where the context has read another value since its last
RESIDENCY_INV, either of the two. -/
def residency (k map tile : Nat) (s : State) : Nat × Bool × State :=
  match devRead (gfxEng k) (map + tile / 8) 1 s with
  | (0, bs, s1) =>
    let now := bit (bs.headD 0) (tile % 8)
    let g := gfxWin s1 k
    match g.cache.find? (fun e => e.1 == map && e.2.1 == tile) with
    | some (_, _, old) =>
      let b := if old = now then now else freeBit s1
      let rest := g.cache.filter (fun e => !(e.1 == map && e.2.1 == tile))
      (0, b, setGfxWin k { g with cache := (map, tile, b) :: rest } (tookFree s1))
    | none => (0, now, setGfxWin k { g with cache := (map, tile, now) :: g.cache } s1)
  | (r, _, s1) => (r, false, s1)

/-- One access of a context's work: the fault reason, or 0. -/
def gfxAccess (k : Nat) (a : GfxAccess) (s : State) : Nat × State :=
  match a with
  | .read addr len => (match devRead (gfxEng k) addr.toNat len s with | (r, _, s1) => (r, s1))
  | .write addr data => devWrite (gfxEng k) addr.toNat (data.map (fun b => b.toNat)) s
  | .sparse map base addr len data =>
    match residency k (map.toNat / 64 * 64) ((addr.toNat - base.toNat) / 65536) s with
    | (0, true, s1) =>
      (match data with
       | some d => devWrite (gfxEng k) addr.toNat (d.map (fun b => b.toNat)) s1
       | none => (match devRead (gfxEng k) addr.toNat len s1 with | (r, _, s2) => (r, s2)))
    | (0, false, s1) => (0, incSat (GFX_CTX_NONRES_count (k / 16) (k % 16)) 1 s1)
    | (r, _, s1) => (r, s1)

/-- Accesses in order, up to the first fault. -/
def gfxAccesses (k : Nat) (l : List GfxAccess) (s : State) : Nat × State :=
  l.foldl (fun rs a => if rs.1 = 0 then gfxAccess k a rs.2 else rs) (0, s)

/-! ## Scheduling (R259, R266, R267) -/

/-- The reserved clusters in effect (R267). -/
def reservedMask (s : State) : Nat := 65536 - 2 ^ (16 - max (rd s GFX_RESERVE_count) (rd s GFX_RESERVE_floor))

/-- A polder's graphics share. -/
def gfxShare (s : State) (p : Nat) : Nat := rd s (POL_SHARE_gfx p)

/-- A context with work that may run: bound, not stopped or waiting, its polder active and with a share (R104). -/
def gfxRunnable (s : State) (k : Nat) : Bool :=
  let g := gfxWin s k
  g.context.isSome && !g.queue.isEmpty && !g.stopped && g.wait.isNone && polState s (k / 16) == 1 && gfxShare s (k / 16) != 0

/-- Contexts in the order of R259: higher priority first, then by the round robin. -/
def gfxOrder (s : State) (ks : List Nat) : List Nat :=
  [3, 2, 1, 0].flatMap (fun pr =>
    let l := ks.filter (fun k => (gfxWin s k).prio == pr)
    Drr.order (gfxShare s) (fun k => k / 16) l.length l s.gfx.drr)

/-- R259: a context loses its queue; its state goes to its save area, in a form the spec does not give. -/
def gfxSave (k : Nat) (s : State) : State :=
  let g := gfxWin s k
  let s1 := s |> setGfxWin k { g with resident := false, saved := true } |> incWrap GFX_PREEMPTS_count 1
    |> record0 Src.GFX_PREEMPT (some (k / 16)) [k % 16, 1]
  gfxStopIf k (devWrite (gfxEng k) g.save (freeVals 8 262144 s1) (tookFrees 262144 s1))

/-- R259: a context gains a queue; a saved one resumes where it stopped. -/
def gfxGain (k : Nat) (s : State) : State :=
  let g := gfxWin s k
  let s1 := setGfxWin k { g with resident := true, saved := false } s
  if g.saved then
    let s2 := record0 Src.GFX_PREEMPT (some (k / 16)) [k % 16, 0] s1
    gfxStopIf k (match devRead (gfxEng k) g.save 262144 s2 with | (r, _, s3) => (r, s3))
  else s1

/-- R259: the eight queues of a class filled. A context that holds clusters keeps its queue until its boundary. -/
def gfxFill (compute : Bool) (s : State) : State :=
  let mine := gfxWhere s (fun g => g.compute == compute && g.context.isSome)
  let keep := mine.filter (fun k => (gfxWin s k).resident && (gfxWin s k).clusters != 0)
  let chosen := (gfxOrder s (mine.filter (fun k => gfxRunnable s k && !keep.contains k))).take (8 - keep.length)
  let out := mine.filter (fun k => (gfxWin s k).resident && !keep.contains k && !chosen.contains k)
  let s1 := out.foldl (fun s k =>
    if (gfxWin s k).queue.isEmpty || polState s (k / 16) != 1 then setGfxWin k { gfxWin s k with resident := false } s else gfxSave k s) s
  chosen.foldl (fun s k => if (gfxWin s k).resident then s else gfxGain k s) s1

/-- The clusters that hold work. -/
def clustersHeld (s : State) : Nat := s.gfx.wins.foldl (fun a e => a ||| e.2.clusters) 0

/-- R431: the clusters on which work below priority 3 may start: while throttled, 0 to 3. -/
def coolClusters (s : State) : Nat := if rdB s CRP_THERM_STAT_throttled then 15 else 65535

/-- R266, R267: idle clusters given to a context with units to run. -/
def gfxGive (k : Nat) (s : State) : State :=
  let g := gfxWin s k
  let free := andNot 65535 (clustersHeld s)
  let m := if g.prio = 3 then free else andNot free (reservedMask s) &&& coolClusters s
  if m = 0 then s
  else
    let s1 := setGfxWin k { g with clusters := g.clusters ||| m, since := if g.clusters = 0 then s.now else g.since } s
    if g.clusters ≠ 0 then s1
    else match s.gfx.drr.pick (gfxShare s) [k / 16] with
      | some (_, d) => { s1 with gfx := { s1.gfx with drr := d } }
      | none => s1

/-- R266, R282: priorities that have changed take effect at the boundary. -/
def gfxPriorities (s : State) : State :=
  (gfxWhere s (fun g => g.newPrio.isSome && g.clusters == 0)).foldl (fun s k =>
    let g := gfxWin s k
    setGfxWin k { g with prio := g.newPrio.getD g.prio, newPrio := none } s) s

/-- GFX_STATUS brought up to date. -/
def gfxStatus (s : State) : State :=
  s |> wr GFX_STATUS_busy (clustersHeld s) |> wrB GFX_STATUS_rt_active (!(gfxWhere s (fun g => g.prio == 3 && g.clusters != 0)).isEmpty)
    |> wr GFX_RESERVE_mask (reservedMask s)

/-- What the scheduler does at a boundary: queues filled, freed clusters given to the highest-priority work that can use them. -/
def gfxSchedule (s : State) : State :=
  let s1 := s |> gfxPriorities |> gfxFill false |> gfxFill true
  let units := gfxWhere s1 (fun g => g.todo != 0 && g.resident)
  gfxStatus ((gfxOrder s1 (units.filter (gfxRunnable s1))).foldl (fun s k => gfxGive k s) s1)

/-! ## Doorbell (R260) -/

/-- The window whose register at offset `off` an address is. -/
def gfxWindowAt (addr off : Nat) : Option Nat :=
  if isPage addr = true ∧ pageOff addr / 0x1000 = 1 ∧ pageOff addr % 0x100 = off then some (16 * pageOf addr + pageOff addr % 0x1000 / 0x100)
  else none

/-- The next submission number (R260). -/
def nextNumber (n : Nat) : Nat := if n = 4294967295 then 1 else n + 1

/-- R260. -/
def gfxDoorbell (k addr v : Nat) (c : Carried) (s : State) : State :=
  let p := k / 16
  let w := k % 16
  let g := gfxWin s k
  let len := rd s (GFX_CTX_SUB_LEN_bytes p w)
  let outcome (st n : Nat) (s : State) : State := s |> wr (GFX_CTX_DB_STATUS_status p w) st |> wr (GFX_CTX_DB_STATUS_number p w) n
  if !bit v 0 then s
  else if refuses s p || quietening s || !domainOn s 2 then outcome ST_BUSY 0 s
  else if g.context.isNone || len == 0 || len % 4 != 0 then outcome ST_BAD_ARG 0 (violateAt c 2 addr v s)
  else if 64 ≤ g.queue.length then outcome ST_QUEUE_FULL 0 s
  else
    let q : GfxSub := ⟨rdA s (GFX_CTX_SUB_ADDR_addr p w), len, rdB s (GFX_CTX_SUB_LEN_irq p w), rdA s (GFX_CTX_SUB_FENCE_addr p w),
      rd s (GFX_CTX_SUB_VALUE_value p w), g.next⟩
    gfxSchedule (outcome ST_OK g.next (setGfxWin k { g with queue := g.queue ++ [q], next := nextNumber g.next } s))

/-- GFX_DOORBELL (R260, R281): with PD_GFX off the doorbell is answered ST_BUSY, where R22 turns other accesses away. -/
def execGfxDoorbell (a : Access) (addr : BitVec 40) (v : BitVec 32) (s : State) : Out :=
  match gfxWindowAt addr.toNat 0x20 with
  | none => .next s
  | some k =>
    if !domainOn s 2 && (turnedAway a addr.toNat 4 v.toNat (orBits CRP_PD_STAT_on 4 s)).isNone then
      done (gfxDoorbell k addr.toNat v.toNat (carried s a addr.toNat) s)
    else regWrite a addr.toNat v.toNat true (gfxDoorbell k addr.toNat v.toNat) s

/-! ## Packets (R263) -/

/-- A position in the command buffers with the buffers that have ended left; the submission's own stays. -/
def popPos : List (Nat × Nat × Nat) → List (Nat × Nat × Nat)
  | [] => []
  | [f] => [f]
  | (a, len, off) :: rest => if len / 4 ≤ off then popPos rest else (a, len, off) :: rest

/-- Where a context stands: at the start of its first submission before any packet has been executed. -/
def gfxPos (g : GfxWin) : List (Nat × Nat × Nat) :=
  match g.pos, g.queue with
  | [], q :: _ => [(q.addr, q.bytes, 0)]
  | l, _ => popPos l

/-- A context that can execute its next packet. -/
def gfxReady (s : State) (k : Nat) : Bool :=
  gfxRunnable s k && (gfxWin s k).resident && (gfxWin s k).todo == 0

/-- The payload words that Table GFX-4 documents for an opcode. -/
def packetWords (op : Nat) : Nat := [0, 3, 0, 0, 3, 0, 1, 5, 4, 2, 2, 0].getD op 0

/-- R263: a header that makes its packet malformed where it stands. -/
def packetMalformed (g : GfxWin) (len off h : Nat) : Bool :=
  let op := bits h 7 0
  let n := bits h 23 8
  decide (11 < op) || decide (bits h 31 24 ≠ 0) || decide (len / 4 < off + 1 + n) || decide (n < packetWords op) ||
    (op == 1 && decide (3 ≤ (gfxPos g).length)) || (op == 5 && (g.compute || g.inPass)) || (op == 4 && g.inPass) || (op == 6 && !g.inPass)

/-- The packet at which a context stands, if it is `op`: fetched and checked (R263), passed over, and its effect applied to its payload
words. A packet of another opcode is not this row's, and nothing changes. -/
def gfxPacket (op : Nat) (k : Nat) (eff : List Nat → State → State) (s : State) : Out :=
  let g := gfxWin s k
  if !gfxReady s k then .next s
  else match gfxPos g with
    | [] => .next s
    | (a, len, off) :: rest =>
      if len / 4 ≤ off then .next s
      else
        let g1 := { g with pkt := off }
        match devRead (gfxEng k) (a + 4 * off) 4 s with
        | (0, hb, s1) =>
          let h := leNat hb
          let n := bits h 23 8
          if packetMalformed g len off h then done (gfxSchedule (gfxStop k 7 (setGfxWin k g1 s1)))
          else if bits h 7 0 ≠ op then .next s
          else
            (match devRead (gfxEng k) (a + 4 * off + 4) (4 * packetWords op) s1 with
             | (0, pb, s2) =>
               let s3 := setGfxWin k { g1 with pos := (a, len, off + 1 + n) :: rest } s2
               done (gfxSchedule (eff (leWords (packetWords op) pb) s3))
             | (r, _, s2) => done (gfxSchedule (gfxStop k r (setGfxWin k g1 s2))))
        | (r, _, s1) => done (gfxSchedule (gfxStop k r (setGfxWin k g1 s1)))

/-- A 64-bit number in two words. -/
def twoWord (ws : List Nat) (i : Nat) : Nat := ws.getD i 0 + 4294967296 * ws.getD (i + 1) 0

/-- The key of a window. -/
def winKey (p : Fin 32) (w : Fin 16) : Nat := 16 * p.val + w.val

/-- NOP (R263). -/
def execNop (p : Fin 32) (w : Fin 16) (s : State) : Out := gfxPacket 0 (winKey p w) (fun _ s => s) s

/-- CALL (R263). -/
def execCall (p : Fin 32) (w : Fin 16) (s : State) : Out :=
  let k := winKey p w
  gfxPacket 1 k (fun ws s =>
    let g := gfxWin s k
    setGfxWin k { g with pos := (bits (twoWord ws 0) 39 2 * 4, ws.getD 2 0, 0) :: g.pos } s) s

/-- STATE (R256): driver-defined state, of which the device's interface says nothing more. -/
def execState (p : Fin 32) (w : Fin 16) (s : State) : Out := gfxPacket 2 (winKey p w) (fun _ s => s) s

/-- A BARRIER holds later packets until earlier work is complete; the packets of a context are executed one after another here. -/
def execBarrier (p : Fin 32) (w : Fin 16) (s : State) : Out := gfxPacket 11 (winKey p w) (fun _ s => s) s

/-- R271: `n` partial flushes of a context, with the accesses they make. -/
def gfxFlush (k n : Nat) (work : List GfxAccess) (s : State) : State :=
  if n = 0 then s
  else
    let p := k / 16
    let w := k % 16
    let spill (s : State) : State :=
      let s1 := incWrap (GFX_CTX_SPILLS_count p w) 1 s
      s1 |> gfxEvent k GFX_CTX_EVENT_spill |> record0 Src.GFX_SPILL (some p) [w, rd s1 (GFX_CTX_SPILLS_count p w)]
    gfxStopIf k (gfxAccesses k work ((List.range n).foldl (fun s _ => spill s) s))

/-- Boundary units that a packet has to run, while its context has not stopped. -/
def gfxUnits (k n : Nat) (s : State) : State :=
  let g := gfxWin s k
  if g.stopped then s else setGfxWin k { g with todo := n } s

/-- The largest pool use of a pass (R272). -/
def gfxPeak (k chunks : Nat) (s : State) : State :=
  let f := GFX_CTX_PEAK_kib (k / 16) (k % 16)
  wr f (max (rd s f) (16 * chunks)) s

/-- R271, R272, R275: a draw's primitives binned into the lists of the pass that is open. -/
def gfxBin (k : Nat) (d : DrawWork) (s : State) : State :=
  let g := gfxWin s k
  let s1 := incSat (GFX_CTX_TESS_CLAMP_count (k / 16) (k % 16)) d.clamped s
  if !g.inPass then s1
  else
    let need := 16 * d.covers + 96 * d.prims
    let cap := 16384 * chunksFor s k
    if 16384 * chunksAtMost s k < need then gfxStop k 8 (gfxStopIf k (gfxAccesses k d.flush s1))
    else if g.passBytes + need ≤ cap then
      s1 |> setGfxWin k { g with passBytes := g.passBytes + need } |> gfxPeak k (listChunks (g.passBytes + need))
    else
      let total := g.passBytes + need
      let n := ceilDiv total (max 1 cap) - 1
      s1 |> setGfxWin k { g with passBytes := total - n * cap } |> gfxPeak k (chunksFor s k) |> gfxFlush k n d.flush

/-- DRAW (R265, R271, R272, R275). -/
def execDraw (p : Fin 32) (w : Fin 16) (d : DrawWork) (s : State) : Out :=
  let k := winKey p w
  gfxPacket 3 k (fun _ s => gfxUnits k 1 (gfxBin k d s)) s

/-- DISPATCH (R263, R265): as many batches as its workgroups make; a count outside 1 to 65,535 makes the packet malformed. -/
def execDispatch (p : Fin 32) (w : Fin 16) (s : State) : Out :=
  let k := winKey p w
  gfxPacket 4 k (fun ws s =>
    if ws.all (fun c => decide (1 ≤ c) && decide (c ≤ 65535)) then
      gfxUnits k (ceilDiv (ws.getD 0 0 * ws.getD 1 0 * ws.getD 2 0) 4096) s
    else gfxStop k 7 s) s

/-- RENDER_BEGIN (R263). -/
def execRenderBegin (p : Fin 32) (w : Fin 16) (s : State) : Out :=
  let k := winKey p w
  gfxPacket 5 k (fun _ s => setGfxWin k { gfxWin s k with inPass := true, passBytes := 0 } s) s

/-- The bytes of one row of a flag surface (R273). -/
def flagRow (c : ClearSurface) (r : Nat) : List Nat :=
  let cols := ceilDiv c.width 8
  (List.range (ceilDiv cols 8)).map (fun b => bitmap 8 (fun i => decide (8 * b + i < cols) && c.blocks.contains (8 * b + i, r)))

/-- The pixel rows of a cleared block written with the clear value, within the surface (R274). -/
def clearBlock (k : Nat) (c : ClearSurface) (b : Nat × Nat) (rs : Nat × State) : Nat × State :=
  let x0 := 8 * b.1
  let n := min 8 (c.width - x0)
  (List.range (min 8 (c.height - 8 * b.2))).foldl (fun rs j =>
    if rs.1 ≠ 0 then rs
    else devWrite (gfxEng k) (c.colourBase + (8 * b.2 + j) * c.colourPitch + x0 * c.pixel.length)
      ((List.range n).flatMap (fun _ => c.pixel)) rs.2) rs

/-- R274: the flags of a fast-cleared attachment written; with resolve_clears the blocks instead, and their flags 0. -/
def endClear (k : Nat) (resolve : Bool) (rs : Nat × State) (c : ClearSurface) : Nat × State :=
  let rs1 := if resolve then c.blocks.foldl (fun rs b => clearBlock k c b rs) rs else rs
  let d := if resolve then { c with blocks := [] } else c
  (List.range (ceilDiv c.height 8)).foldl (fun rs r =>
    if rs.1 ≠ 0 then rs else devWrite (gfxEng k) (c.flagBase + r * c.flagPitch) (flagRow d r) rs.2) rs1

/-- The end of a pass once every tile has been rendered (R270, R274). -/
def passEnd (k : Nat) (s : State) : State :=
  let g := gfxWin s k
  match g.ending with
  | some (resolve, cs) =>
    gfxStopIf k (cs.foldl (endClear k resolve) (0, setGfxWin k { g with ending := none, inPass := false, passBytes := 0 } s))
  | none => s

/-- A fast-cleared attachment in numbers. -/
def clearOf (f : FastClear) : ClearSurface :=
  ⟨f.flagBase.toNat, f.flagPitch, f.width, f.height, f.blocks, f.colourBase.toNat, f.colourPitch, f.pixel.map (fun b => b.toNat)⟩

/-- RENDER_END (R274): the binned tiles, `tiles` of them, are to be rendered; with none the pass ends at once. -/
def execRenderEnd (p : Fin 32) (w : Fin 16) (tiles : Nat) (clears : List FastClear) (s : State) : Out :=
  let k := winKey p w
  gfxPacket 6 k (fun ws s =>
    let s1 := setGfxWin k { gfxWin s k with ending := some (bit (ws.getD 0 0) 0, clears.map clearOf) } s
    if tiles = 0 then passEnd k s1 else gfxUnits k tiles s1) s

/-- WAIT_GE (R264). -/
def execWaitGe (p : Fin 32) (w : Fin 16) (s : State) : Out :=
  let k := winKey p w
  gfxPacket 7 k (fun ws s =>
    let a := bits (twoWord ws 0) 39 3 * 8
    match devRead (gfxEng k) a 8 s with
    | (0, bs, s1) =>
      if twoWord ws 2 ≤ leNat bs then s1
      else
        let t := ws.getD 4 0
        setGfxWin k { gfxWin s1 k with wait := some (a, twoWord ws 2, if t = 0 then none else some (s1.now + 1000 * t)) } s1
    | (r, _, s1) => gfxStop k r s1) s

/-- The word a WAIT_GE polls. -/
def gfxPoll (k a : Nat) (s : State) : Nat × Nat × State :=
  match devRead (gfxEng k) a 8 s with | (r, bs, s1) => (r, leNat bs, s1)

/-- WAIT_GE_MET (R264): a poll finds the value reached, or faults. -/
def execWaitGeMet (p : Fin 32) (w : Fin 16) (s : State) : Out :=
  let k := winKey p w
  match (gfxWin s k).wait with
  | none => .next s
  | some (a, v, _) =>
    match gfxPoll k a s with
    | (0, x, s1) => if v ≤ x then done (gfxSchedule (setGfxWin k { gfxWin s1 k with wait := none } s1)) else .next s
    | (r, _, s1) => done (gfxSchedule (gfxStop k r s1))

/-- WAIT_GE_TIMEOUT (R264): the timeout passes with the value not reached. -/
def execWaitGeTimeout (p : Fin 32) (w : Fin 16) (s : State) : Out :=
  let k := winKey p w
  match (gfxWin s k).wait with
  | some (a, v, some t) =>
    let s0 := advanceTo t s
    (match gfxPoll k a s0 with
     | (0, x, s1) =>
       done (gfxSchedule (if v ≤ x then setGfxWin k { gfxWin s1 k with wait := none } s1 else gfxStop k 9 s1))
     | (r, _, s1) => done (gfxSchedule (gfxStop k r s1)))
  | _ => .next s

/-- WRITE64. -/
def execWrite64 (p : Fin 32) (w : Fin 16) (s : State) : Out :=
  let k := winKey p w
  gfxPacket 8 k (fun ws s => gfxStopIf k (devWrite (gfxEng k) (bits (twoWord ws 0) 39 3 * 8) (leBytes 8 (twoWord ws 2)) s)) s

/-- TIMESTAMP. -/
def execTimestamp (p : Fin 32) (w : Fin 16) (s : State) : Out :=
  let k := winKey p w
  gfxPacket 9 k (fun ws s => gfxStopIf k (devWrite (gfxEng k) (bits (twoWord ws 0) 39 3 * 8) (leBytes 8 s.devTime) s)) s

/-- RESIDENCY_INV (R278): the bits read from the map named, or from all, are forgotten, and later accesses read it as it now stands. -/
def execResidencyInv (p : Fin 32) (w : Fin 16) (s : State) : Out :=
  let k := winKey p w
  gfxPacket 10 k (fun ws s =>
    let m := bits (twoWord ws 0) 39 6 * 64
    let g := gfxWin s k
    setGfxWin k { g with cache := if m = 0 then [] else g.cache.filter (fun e => e.1 != m) } s) s

/-! ## Boundaries and completion -/

/-- GFX_BOUNDARY (R265, R266): a draw, tile or batch ends on the clusters named, which its context held, with the accesses it made. -/
def execGfxBoundary (p : Fin 32) (w : Fin 16) (clusters : BitVec 16) (work : List GfxAccess) (s : State) : Out :=
  let k := winKey p w
  let g := gfxWin s k
  let m := clusters.toNat
  if g.todo = 0 ∨ m = 0 ∨ g.clusters &&& m ≠ m then .next s
  else
    match gfxAccesses k work s with
    | (0, s1) =>
      let g1 := gfxWin s1 k
      let left := g1.todo - 1
      let s2 := setGfxWin k { g1 with todo := left, clusters := if left = 0 then 0 else andNot g1.clusters m, since := s1.now } s1
      done (gfxSchedule (if left = 0 then passEnd k s2 else s2))
    | (r, s1) => done (gfxSchedule (gfxStop k r s1))

/-- GFX_SUBMISSION_DONE (R261, R262): the current submission has been executed to its end. One that ends with a pass open is malformed at
its last word (R263). -/
def execGfxSubmissionDone (p : Fin 32) (w : Fin 16) (s : State) : Out :=
  let k := winKey p w
  let g := gfxWin s k
  match gfxReady s k, gfxPos g, g.queue with
  | true, [(_, len, off)], q :: rest =>
    if off < len / 4 then .next s
    else if g.inPass then done (gfxSchedule (gfxStop k 7 (setGfxWin k { g with pkt := len / 4 - 1 } s)))
    else
      (match (if q.fence = 0 then (0, s) else devWrite (gfxEng k) q.fence (leBytes 8 q.value) s) with
       | (0, s1) =>
         let s2 := s1 |> setGfxWin k { gfxWin s1 k with queue := rest, pos := [] } |> wr (GFX_CTX_DONE_number p w) q.number
         done (gfxSchedule (if q.irq then gfxEvent k GFX_CTX_EVENT_done s2 else s2))
       | (r, s1) => done (gfxSchedule (gfxStop k r s1)))
  | _, _, _ => .next s

/-- GFX_WATCHDOG (R268): a unit has held its clusters for longer than GFX_WDOG. -/
def execGfxWatchdog (p : Fin 32) (w : Fin 16) (s : State) : Out :=
  let k := winKey p w
  let g := gfxWin s k
  if g.clusters = 0 then .next s
  else
    let s1 := advanceTo (g.since + 1000000 * rd s GFX_WDOG_ms) s
    done (gfxSchedule (gfxStop k 6 (record0 Src.GFX_WATCHDOG (some p.val) [w, g.clusters] s1)))

/-- GFX_CLUSTER_FAULT (R279): the context using the cluster stops. -/
def execGfxClusterFault (c : Fin 16) (s : State) : Out :=
  match gfxWhere s (fun g => bit g.clusters c) with
  | k :: _ => done (gfxSchedule (gfxStop k 5 s))
  | [] => .next s

/-! ## Commands (Table GFX-3) -/

/-- GFX_RESERVE as a word. -/
def reserveWord (s : State) : Nat := rd s GFX_RESERVE_count + 16 * rd s GFX_RESERVE_floor + 65536 * reservedMask s

/-- GFX_GET_INFO. -/
def gfxGetInfo (_ : Req) (s : State) : Answer := okR [16 + 256 * 48, reserveWord s, rd s GFX_RT_ALLOW_polders] s

/-- GFX_GET_INFO. -/
def execGfxGetInfo (k : Fin 32) (s : State) : Out := done (serve Op.GFX_GET_INFO k gfxGetInfo s)

/-- GFX_CTXw_STAT as a word. -/
def gfxStatWord (s : State) (k : Nat) : Nat :=
  let g := gfxWin s k
  g.state + 8 * b2n g.compute + 16 * g.prio + 64 * g.queue.length + 8192 * b2n g.resident + 16384 * g.context.getD 0

/-- GFX_GET_CONTEXT. -/
def gfxGetContext (q : Req) (s : State) : Answer :=
  let p := bits (q.w 2) 4 0
  let w := bits (q.w 2) 11 8
  if !q.mayReadPolder s p then no ST_NOT_OWNER s
  else okR [gfxStatWord s (16 * p + w), rd s (GFX_CTX_DONE_number p w), rd s (GFX_CTX_FAULT_reason p w) + 256 * rd s (GFX_CTX_FAULT_offset p w),
    rd s (GFX_CTX_FAULT_SUB_number p w), rd s (GFX_CTX_SPILLS_count p w), rd s (GFX_CTX_NONRES_count p w),
    rd s (GFX_CTX_TESS_CLAMP_count p w), rd s (GFX_CTX_PEAK_kib p w), rd s (GFX_AREA_first p) + 512 * rd s (GFX_AREA_count p)] s

/-- GFX_GET_CONTEXT. -/
def execGfxGetContext (k : Fin 32) (s : State) : Out := done (serve Op.GFX_GET_CONTEXT k gfxGetContext s)

/-- Priority 3 is allowed for a polder (R258). -/
def rtAllowed (s : State) (p : Nat) : Bool := p == 0 || bit (rd s GFX_RT_ALLOW_polders) p

/-- GFX_CTX_SETUP (R258, R270). -/
def gfxCtxSetup (q : Req) (s : State) : Answer :=
  match q.polder with
  | none => no ST_NOT_OWNER s
  | some p =>
    let c := bits (q.w 2) 7 0
    let w := bits (q.w 2) 11 8
    let compute := bit (q.w 2) 12
    let prio := bits (q.w 2) 14 13
    let k := 16 * p + w
    let save := (q.w 3 + 4294967296 * q.w 4) % 2 ^ 40
    if grantee s 2 c ≠ p then no ST_NOT_OWNER s
    else if (gfxWin s k).context.isSome then no ST_GFX_WINDOW s
    else if prio = 3 ∧ rtAllowed s p = false then no ST_GFX_PRIORITY s
    else if save % 4096 ≠ 0 ∨ spanOwned s p [] (save, save + 262143) = false then no ST_BAD_ADDR s
    else if !compute && !reservesFit (rd s (GFX_AREA_count p)) ((gfxContexts s p).length + 1) then no ST_GFX_AREA s
    else did (setGfxWin k { GfxWin.empty with context := some c, compute := compute, prio := prio, save := save } s)

/-- GFX_CTX_SETUP. -/
def execGfxCtxSetup (k : Fin 32) (s : State) : Out := done (serve Op.GFX_CTX_SETUP k gfxCtxSetup s)

/-- An own-scope command on a window of the sender's, bound or refused (R282). -/
def onWindow (q : Req) (f : Nat → GfxWin → Answer) (s : State) : Answer :=
  match q.polder with
  | none => no ST_NOT_OWNER s
  | some p =>
    let k := 16 * p + bits (q.w 2) 3 0
    if (gfxWin s k).context.isNone then no ST_GFX_WINDOW s else f k (gfxWin s k)

/-- GFX_CTX_SET_PRIORITY (R266, R282). -/
def gfxCtxSetPriority (q : Req) (s : State) : Answer :=
  onWindow q (fun k g =>
    let prio := bits (q.w 2) 9 8
    if prio = 3 ∧ rtAllowed s (k / 16) = false then no ST_GFX_PRIORITY s
    else did (gfxSchedule (setGfxWin k { g with newPrio := some prio } s))) s

/-- GFX_CTX_SET_PRIORITY. -/
def execGfxCtxSetPriority (k : Fin 32) (s : State) : Out := done (serve Op.GFX_CTX_SET_PRIORITY k gfxCtxSetPriority s)

/-- GFX_CTX_RESTART (R262, R279). -/
def gfxCtxRestart (q : Req) (s : State) : Answer :=
  onWindow q (fun k g =>
    if !g.stopped then no ST_BUSY s
    else did (gfxSchedule (setGfxWin k { g with stopped := false, queue := if bit (q.w 2) 8 then [] else g.queue.tail, pos := [], inPass := false,
                                                passBytes := 0, ending := none, saved := false } s))) s

/-- GFX_CTX_RESTART. -/
def execGfxCtxRestart (k : Fin 32) (s : State) : Out := done (serve Op.GFX_CTX_RESTART k gfxCtxRestart s)

/-- GFX_CTX_RELEASE (R270). -/
def gfxCtxRelease (q : Req) (s : State) : Answer :=
  onWindow q (fun k g => if !g.queue.isEmpty then no ST_BUSY s else did (gfxSchedule (setGfxWin k GfxWin.empty s))) s

/-- GFX_CTX_RELEASE. -/
def execGfxCtxRelease (k : Fin 32) (s : State) : Out := done (serve Op.GFX_CTX_RELEASE k gfxCtxRelease s)

/-- R269: a page of K6-K7 is the polder's in map mode. -/
def areaPageOwned (s : State) (p a : Nat) : Bool :=
  !rdB s PLD_MODE_STAT_mode ||
    (let e := byteAt s (entryAddr s (mapPage a))
     bit e 7 && bit e 6 && (if p = 0 then bit e 5 else !bit e 5 && bits e 4 0 == p))

/-- The first address of unit `u` of K6-K7. -/
def areaAddr (u : Nat) : Nat := 0x43000000 + 65536 * u

/-- R269: the range is free of other areas, owned, and large enough. -/
def areaOk (s : State) (p first count : Nat) : Bool :=
  (count == 0 || (decide (16 ≤ count) && decide (first + count ≤ 256))) &&
  (List.range 32).all (fun q =>
    let f := rd s (GFX_AREA_first q)
    let n := rd s (GFX_AREA_count q)
    q == p || n == 0 || decide (first + count ≤ f) || decide (f + n ≤ first)) &&
  (List.range (16 * count)).all (fun i => areaPageOwned s p (areaAddr first + 4096 * i)) && reservesFit count (gfxContexts s p).length

/-- GFX_SET_AREA (R269). -/
def gfxSetArea (q : Req) (s : State) : Answer :=
  let p := bits (q.w 2) 4 0
  let first := bits (q.w 2) 15 8
  let count := bits (q.w 2) 24 16
  if p = 0 ∧ q.fromSecure = false then no ST_NOT_OWNER s
  else if !areaOk s p first count then no ST_GFX_AREA s
  else if (gfxContexts s p).any (fun k => !(gfxWin s k).queue.isEmpty) then no ST_BUSY s
  else did (s |> wr (GFX_AREA_first p) first |> wr (GFX_AREA_count p) count)

/-- GFX_SET_AREA. -/
def execGfxSetArea (k : Fin 32) (s : State) : Out := done (serve Op.GFX_SET_AREA k gfxSetArea s)

/-- GFX_SET_RESERVE (R267, R282). -/
def gfxSetReserve (q : Req) (s : State) : Answer :=
  let n := bits (q.w 2) 3 0
  if 8 < n then no ST_BAD_ARG s else did (gfxSchedule (wr GFX_RESERVE_count n s))

/-- GFX_SET_RESERVE. -/
def execGfxSetReserve (k : Fin 32) (s : State) : Out := done (serve Op.GFX_SET_RESERVE k gfxSetReserve s)

/-- GFX_SET_SECURE_FLOOR (R267, R282). -/
def gfxSetSecureFloor (q : Req) (s : State) : Answer :=
  let n := bits (q.w 2) 3 0
  if 8 < n then no ST_BAD_ARG s else did (gfxSchedule (wr GFX_RESERVE_floor n s))

/-- GFX_SET_SECURE_FLOOR. -/
def execGfxSetSecureFloor (k : Fin 32) (s : State) : Out := done (serve Op.GFX_SET_SECURE_FLOOR k gfxSetSecureFloor s)

/-- R282: the priority-3 contexts of polders that may no longer use it fall to priority 2 at their next boundary. -/
def rtLowered (s : State) : State :=
  gfxSchedule ((gfxWhere s (fun g => g.context.isSome && g.newPrio.getD g.prio == 3)).foldl (fun s k =>
    if rtAllowed s (k / 16) then s else setGfxWin k { gfxWin s k with newPrio := some 2 } s) s)

/-- GFX_SET_RT (R282); bit 0 reads 1. -/
def gfxSetRt (q : Req) (s : State) : Answer := did (rtLowered (wr GFX_RT_ALLOW_polders (q.w 2 ||| 1) s))

/-- GFX_SET_RT. -/
def execGfxSetRt (k : Fin 32) (s : State) : Out := done (serve Op.GFX_SET_RT k gfxSetRt s)

/-! ## Polder reset (R280) -/

/-- The windows of a polder emptied; they stay bound, with numbering from 1. -/
def gfxReset (p : Nat) (s : State) : State :=
  gfxSchedule (((gfxWhere s (fun g => g.context.isSome)).filter (fun k => k / 16 == p)).foldl (fun s k =>
    let g := gfxWin s k
    setGfxWin k { GfxWin.empty with context := g.context, compute := g.compute, prio := g.newPrio.getD g.prio, save := g.save } s) s)

/-- A polder's graphics work stops at once (Table POL-7 step 2). -/
def gfxAbort (p : Nat) (s : State) : State :=
  gfxStatus (((gfxWhere s (fun g => g.clusters != 0)).filter (fun k => k / 16 == p)).foldl (fun s k =>
    setGfxWin k { gfxWin s k with clusters := 0, todo := 0 } s) s)

end Sys2Proof.Machine
end

