-- ==== Sys2Proof/Machine/Haptics.lean ====
section
/-! DEFINITION. The haptic channels (R331 to R337): triggers, control samples, overdrive, braking and faults, and their part of a
polder reset. -/
namespace Sys2Proof.Machine

/-- A haptic channel. -/
def hapCh (s : State) (c : Nat) : HapCh := Tab.get HapCh.empty s.hap c
def setHap (c : Nat) (v : HapCh) (s : State) : State := { s with hap := s.hap.put c v }

/-- HAP_CHc_STAT.state. -/
def hapState (s : State) (c : Nat) : Nat := rd s (HAP_CH_STAT_state c)

/-- The polder that holds a channel. -/
def hapHolder (s : State) (c : Nat) : Nat := grantee s 5 c

/-- The haptic gates are held off: in QUIET (R330), or with the domain off or the clock gated. -/
def hapHalted (s : State) : Bool :=
  rd s CRP_STATUS_power_state == 1 ||
    (rd s CRP_STATUS_power_state == 2 && (match s.pwr.trans with | some t => t.acked.isSome | none => false)) ||
    !domainOn s 5 || bit (rd s CRP_CLK_GATE_gate) blkHAP

/-! ## Triggers (R335) -/

/-- An entry of a polder's effect table, as the controller reads it at a trigger. -/
def hapEntry (s : State) (p c k : Nat) : HapFx :=
  ⟨p, k, rdA s (HAP_FX_ADDR_addr p c k), rd s (HAP_FX_CTRL_len p c k), rd s (HAP_FX_GAIN_gain p c k), rdB s (HAP_FX_CTRL_alert p c k)⟩

/-- A trigger dropped, or replaced while pending: line 54 and HAP_TRIGGER_DROPPED, to the polder that made it. -/
def hapDropped (c : Nat) (fx : HapFx) (s : State) : State :=
  s |> orBits (HAP_EVENT_dropped fx.polder) (2 ^ c) |> raiseLine fx.polder 54 |> record0 Src.HAP_TRIGGER_DROPPED (some fx.polder) [c, fx.index]

/-- An effect's end: HAP_EFFECT, and line 54. -/
def hapEnded (c : Nat) (fx : HapFx) (s : State) : State :=
  s |> record0 Src.HAP_EFFECT (some fx.polder) [c, fx.index, 0] |> orBits (HAP_EVENT_ended fx.polder) (2 ^ c) |> raiseLine fx.polder 54

/-- HAP_CHc_STAT's pending fields. -/
def hapPendStat (c : Nat) (fx : Option HapFx) (s : State) : State :=
  s |> wrB (HAP_CH_STAT_pending c) fx.isSome |> wr (HAP_CH_STAT_pend_fx c) (match fx with | some f => f.index | none => 0)

/-- An effect to start at the next control sample, in place of one that has not started yet. -/
def hapStart (c : Nat) (fx : HapFx) (over_ : Bool) (s : State) : State :=
  setHap c { hapCh s c with starts := some (fx, over_) } s

/-- The effect that plays or is about to. -/
def hapCurrent (s : State) (c : Nat) : Option HapFx :=
  match (hapCh s c).starts with
  | some (f, _) => some f
  | none => (hapCh s c).playing.map (·.1)

/-- Table HAP-1: a trigger on a channel that is neither off nor in fault. Answers its status. -/
def hapOutcome (c : Nat) (fx : HapFx) (s : State) : Nat × State :=
  let v := hapCh s c
  if hapState s c = 3 ∧ v.starts.isNone then
    if fx.alert then
      let s1 := match v.pend with | some f => hapDropped c f s | none => s
      (ST_OK, s1 |> setHap c { hapCh s1 c with pend := none } |> hapPendStat c none |> hapStart c fx true)
    else
      let s1 := match v.pend with | some f => hapDropped c f s | none => s
      (ST_PENDING, s1 |> setHap c { hapCh s1 c with pend := some fx } |> hapPendStat c (some fx))
  else match hapCurrent s c with
    | some f =>
      if f.alert && !fx.alert then (ST_HAP_DROPPED, hapDropped c fx s)
      else (ST_OK, hapStart c fx (match v.starts with | some (_, o) => o | none => false) s)
    | none => (ST_OK, hapStart c fx (hapState s c == 1) s)

/-- A trigger by polder `p` (R335, R353): its outcome in HAP_TRIG_STATUS. -/
def hapTrigger (p c k : Nat) (s : State) : State :=
  let fx := hapEntry s p c k
  let (st, s1) : Nat × State :=
    if (p ≠ 0 ∧ polState s p = 2) ∨ hapHalted s = true then (ST_BUSY, s)
    else if hapState s c = 0 ∨ hapState s c = 4 then (ST_HAP_FAULT, s)
    else if fx.len ≠ 0 ∧ mediaOwned s p fx.addr (2 * fx.len) = false then (ST_BAD_ADDR, s)
    else hapOutcome c fx s
  s1 |> wr (HAP_TRIG_STATUS_status p) st |> wr (HAP_TRIG_STATUS_channel p) c |> wr (HAP_TRIG_STATUS_effect p) k

/-- A write of HAP_TRIGGER: naming a channel that the polder does not hold, it is discarded and recorded. -/
def triggerWrite (p v addr : Nat) (c : Carried) (s : State) : State :=
  if hapHolder s (bits v 2 0) = p then hapTrigger p (bits v 2 0) (bits v 6 4) s else violateAt c 2 addr v s

/-- HAP_TRIGGER (R335). -/
def execHapTrigger (a : Access) (addr : BitVec 40) (v : BitVec 32) (s : State) : Out :=
  regWrite a addr.toNat v.toNat (isPage addr.toNat && pageOff addr.toNat == 0x4400)
    (fun c => triggerWrite (pageOf addr.toNat) v.toNat addr.toNat c) s

/-! ## Control samples (R331 to R334) -/

/-- The limit on the current outside the overdrive window, and in it or braking (R333, R334). -/
def hapLimit (s : State) (c : Nat) : Nat :=
  let inom := rd s (HAP_CH_DRIVE_inom c)
  if (hapCh s c).odEnd.isSome || hapState s c == 3 then inom * rd s (HAP_CH_DRIVE_od c) / 8 else inom

/-- R332: the bus reaches the channel. -/
def hapBusOn (s : State) (c : Nat) : Bool := rdB s (HAP_CH_CTRL_bus_en c) && grantee s 4 (224 + c) == hapHolder s c

/-- R332: the bus part of a control sample, within full scale. The filter's coefficients are not stated, so its value is free. -/
def hapBusPart (s : State) (c : Nat) : Int := if hapBusOn s c then max (-32767) (sgn 16 (freeVal 16 s)) else 0

/-- An acceleration in units of afs / 32,768 is below rest. -/
def belowRest (s : State) (c : Nat) (v : Int) : Bool :=
  decide (v.natAbs * rd s (HAP_CH_SENSE_afs c) < rd s (HAP_CH_SENSE_rest c) * 32768)

/-- The channel enters a state. -/
def hapEnter (c st : Nat) (s : State) : State := wr (HAP_CH_STAT_state c) st s

/-- An overdrive window opened (R333). -/
def hapOverdrive (c : Nat) (s : State) : State :=
  let ms := rd s (HAP_CH_DRIVE_od_ms c)
  setHap c { hapCh s c with odEnd := if ms = 0 then none else some (s.now + 1000000 * ms) } s

/-- Braking starts (R334): the target goes to 0 and the bus part is ignored. -/
def hapBrake (c : Nat) (s : State) : State :=
  s |> setHap c { hapCh s c with playing := none, target := 0, odEnd := none, brakeStart := s.now, resting := 0, quiet := 0 } |> hapEnter c 3
    |> wr (HAP_CH_STAT_alert c) 0

/-- The effect that waits for this control sample starts; the one it replaces ends. -/
def hapBegin (c : Nat) (s : State) : State :=
  let v := hapCh s c
  match v.starts with
  | none => s
  | some (fx, over_) =>
    let s1 := match v.playing with | some (f, _) => hapEnded c f s | none => s
    let s2 := s1 |> setHap c { hapCh s1 c with starts := none, playing := some (fx, 0), quiet := 0 } |> hapEnter c 2
      |> wr (HAP_CH_STAT_effect c) fx.index |> wrB (HAP_CH_STAT_alert c) fx.alert
      |> record0 Src.HAP_EFFECT (some fx.polder) [c, fx.index, 1]
    if over_ then hapOverdrive c s2 else s2

/-- The waveform of the effect playing, times its gain, and its next sample. At its end, or where its samples cannot be read, braking
starts. -/
def hapWave (c : Nat) (s : State) : Int × State :=
  match (hapCh s c).playing with
  | none => (0, s)
  | some (fx, i) =>
    if fx.len ≤ i then (0, hapBrake c (hapEnded c fx s))
    else match devRead ⟨masterHap, fx.polder⟩ (fx.addr + 2 * i) 2 s with
      | (0, bs, s1) => (sgn 16 (leNat bs) * (fx.gain : Nat) / 32768, setHap c { hapCh s1 c with playing := some (fx, i + 1) } s1)
      | (why, _, s1) => (0, hapBrake c (hapEnded c fx (polFault fx.polder 184 c why s1)))

/-- R336: the valid flags counted; 16 valid frames close an open loop. -/
def hapFlags (c : Nat) (ok : Bool) (s : State) : State :=
  let v := hapCh s c
  let s1 := setHap c { v with invalid := if ok then 0 else v.invalid + 1, valid := if ok then v.valid + 1 else 0 } s
  if rdB s (HAP_CH_STAT_open_loop c) && decide (16 ≤ (hapCh s1 c).valid) then wr (HAP_CH_STAT_open_loop c) 0 s1 else s1

/-- R332 on a channel that is idle or driving: the sum of the bus part and the waveform; a bus part that rises drives an idle channel,
and 32 control samples of it below rest, with no effect playing, start braking. -/
def hapDrive (c : Nat) (s0 : State) : State :=
  let b := hapBusPart s0 c
  let low := belowRest s0 c b
  let s := if hapBusOn s0 c then tookFree s0 else s0
  let idle := hapState s c == 1
  let s := if idle && !low then hapOverdrive c (hapEnter c 2 s) else s
  if hapState s c = 1 then setHap c { hapCh s c with target := 0 } s
  else match hapWave c s with
    | (w, s1) =>
      if hapState s1 c = 3 then s1
      else
        let q := if low then (hapCh s1 c).quiet + 1 else 0
        let s2 := setHap c { hapCh s1 c with target := max (-32767) (min 32767 (b + w)), quiet := q } s1
        if (hapCh s2 c).playing.isNone && decide (32 ≤ q) then hapBrake c s2 else s2

/-- Table CRP-10, activity 5: every 100 ms in which a channel is driving, its resonance is updated. The values are measured, so they are
free. -/
def hapTrack (c : Nat) (s : State) : State :=
  if hapState s c ≠ 2 ∨ s.now < Tab.get 0 s.pumpLast (100 + c) + 100000000 then s
  else
    let s1 := s |> wr (HAP_CH_RES_f0 c) (freeVal 16 s) |> wr (HAP_CH_RES_q c) (freeVal 16 (tookFree s)) |> tookFrees 2 |> pumpRan 5 0
    { s1 with pumpLast := s1.pumpLast.put (100 + c) s.now }

/-- HAP_CONTROL_SAMPLE (R331, R332, R334): a frame from the channel's sense port, with the coil current in mA that the ADC shows. -/
def execHapControlSample (c : Fin 8) (frame : BitVec 32) (current : BitVec 16) (s : State) : Out :=
  if !rdB s (HAP_CH_CTRL_enable c) || hapState s c == 0 || hapState s c == 4 || hapHalted s then .next s
  else
    let s1 := advanceTo ((hapCh s c).last + 62500) s
    let acc := sgn 16 (frame.toNat / 65536)
    let s2 := s1 |> setHap c { hapCh s1 c with last := s1.now } |> wr (HAP_CH_MEAS_accel c) (frame.toNat / 65536)
      |> wr (HAP_CH_MEAS_current c) current.toNat |> hapFlags c (bit frame.toNat 0) |> hapBegin c
    if hapState s2 c = 3 then
      let v := hapCh s2 c
      done (setHap c { v with resting := if belowRest s2 c acc then v.resting + 1 else 0, target := 0 } s2)
    else done (hapTrack c (hapDrive c s2))

/-- HAP_OVERDRIVE_END (R333). -/
def execHapOverdriveEnd (c : Fin 8) (s : State) : Out :=
  match (hapCh s c).odEnd with
  | some t => let s1 := advanceTo t s; .next (setHap c { hapCh s1 c with odEnd := none } s1)
  | none => .next s

/-- HAP_BRAKE_END (R334): after 16 control samples below rest, or in any case after brake_max. In open loop the samples do not count
(R336). A pending effect starts at the next control sample. -/
def execHapBrakeEnd (c : Fin 8) (s : State) : Out :=
  let v := hapCh s c
  if hapState s c ≠ 3 ∨ v.starts.isSome = true then .next s
  else
    let s1 := if 16 ≤ v.resting ∧ rdB s (HAP_CH_STAT_open_loop c) = false then s
      else advanceTo (v.brakeStart + 1000000 * rd s (HAP_CH_DRIVE_brake_max c)) s
    let s2 := s1 |> setHap c { hapCh s1 c with pend := none, resting := 0, starts := v.pend.map (fun f => (f, true)) } |> hapEnter c 1
      |> hapPendStat c none
    done s2

/-! ## Faults (R336) -/

/-- HAP_FAULT to the holder and the warden. -/
def hapNotify (c reason : Nat) (s : State) : State :=
  notifyPairs ((pairOf s (hapHolder s c)).toList ++ (wardenPair s).toList) Op.HAP_FAULT [c + 16 * reason] s

/-- What was playing or waiting on a channel comes to its end. -/
def hapClear (c : Nat) (s : State) : State :=
  let v := hapCh s c
  let s1 := match v.playing with | some (f, _) => hapEnded c f s | none => s
  let s2 := match v.pend with | some f => hapDropped c f s1 | none => s1
  s2 |> setHap c { hapCh s2 c with playing := none, starts := none, pend := none, target := 0, odEnd := none, quiet := 0, resting := 0 }
    |> hapPendStat c none |> wr (HAP_CH_STAT_alert c) 0

/-- HAP_OVERCURRENT (R336): three consecutive ADC samples in mA, signed. -/
def execHapOvercurrent (c : Fin 8) (a b d : BitVec 16) (s : State) : Out :=
  let above (v : BitVec 16) : Bool := decide (rd s (HAP_CH_LIMIT_ilim c) < (sgn 16 v.toNat).natAbs)
  if !(above a && above b && above d) || hapState s c == 0 || hapState s c == 4 || hapHalted s then .next s
  else
    let p := hapHolder s c
    done (s |> hapClear c |> hapEnter c 4 |> wr (HAP_CH_MEAS_current c) d.toNat
      |> record0 Src.HAP_OVERCURRENT (some p) [c, unsgn 32 (sgn 16 d.toNat)] |> orBits (HAP_EVENT_fault p) (2 ^ c.val) |> raiseLine p 55
      |> hapNotify c 1)

/-- HAP_SENSE_LOST (R336): 16 consecutive frames without the valid flag. -/
def execHapSenseLost (c : Fin 8) (s : State) : Out :=
  if (hapCh s c).invalid < 16 ∨ rdB s (HAP_CH_STAT_open_loop c) = true then .next s
  else done (s |> wr (HAP_CH_STAT_open_loop c) 1 |> record0 Src.HAP_SENSE_LOST (some (hapHolder s c)) [c] |> hapNotify c 2)

/-! ## Polder reset (R336) -/

/-- An effect table cleared. -/
def clearEffects (p : Nat) (s : State) : State :=
  (List.range 64).foldl (fun s i => writeFlds 0 [HAP_FX_ADDR_addr p (i / 8) (i % 8), HAP_FX_CTRL_len p (i / 8) (i % 8),
    HAP_FX_CTRL_alert p (i / 8) (i % 8)] (wr (HAP_FX_GAIN_gain p (i / 8) (i % 8)) 32768 s)) s

/-- A polder's channels brake and go idle, its pending triggers are dropped and its effect table is cleared. -/
def hapReset (p : Nat) (s : State) : State :=
  clearEffects p ((List.range 8).foldl (fun s c =>
    if hapHolder s c ≠ p then s
    else
      let s1 := if hapState s c = 2 ∨ (hapCh s c).starts.isSome = true ∨ (hapCh s c).pend.isSome = true then hapClear c s else s
      if hapState s c = 2 then hapBrake c s1 else s1) s)

/-! ## Commands (Table AUD-8) -/

/-- HAP_CHc_CTRL to HAP_CHc_MEAS, as register fields in order. -/
def hapRegs (c : Nat) : List (List Fld) :=
  [[HAP_CH_CTRL_enable c, HAP_CH_CTRL_bus_en c, HAP_CH_CTRL_dead c],
   [HAP_CH_DRIVE_inom c, HAP_CH_DRIVE_od c, HAP_CH_DRIVE_od_ms c, HAP_CH_DRIVE_brake_max c],
   [HAP_CH_LIMIT_ilim c], [HAP_CH_SENSE_afs c, HAP_CH_SENSE_rest c], [HAP_CH_RES_f0 c, HAP_CH_RES_q c],
   [HAP_CH_STAT_state c, HAP_CH_STAT_effect c, HAP_CH_STAT_alert c, HAP_CH_STAT_pending c, HAP_CH_STAT_pend_fx c, HAP_CH_STAT_open_loop c],
   [HAP_CH_MEAS_current c, HAP_CH_MEAS_accel c]]

/-- HAP_GET_CHANNEL. -/
def hapGetChannel (q : Req) (s : State) : Answer := okR ((hapRegs (bits (q.w 2) 2 0)).map (packFlds s)) s

/-- HAP_GET_CHANNEL. -/
def execHapGetChannel (k : Fin 32) (s : State) : Out := done (serve Op.HAP_GET_CHANNEL k hapGetChannel s)

/-- R336: a limit below the drive current. -/
def hapLimitLow (inom od ilim : Nat) : Bool := decide (ilim * 8 < inom * od)

/-- HAP_SET_CHANNEL (R336, R337). A channel enabled is idle; one disabled is off. -/
def hapSetChannel (q : Req) (s : State) : Answer :=
  let c := bits (q.w 2) 2 0
  let d := q.w 4
  let inom := bits d 11 0
  let od := bits d 16 12
  let bm := bits d 27 21
  if q.polder ≠ some (hapHolder s c) then no ST_NOT_OWNER s
  else if inom = 0 ∨ od < 8 ∨ 24 < od ∨ 8 < bits d 20 17 ∨ bm = 0 ∨ 100 < bm ∨ hapLimitLow inom od (bits (q.w 5) 12 0) = true then no ST_BAD_ARG s
  else
    let s1 := (List.range 5).foldl (fun s i => writeFlds (q.w (3 + i)) ((hapRegs c).getD i []) s) s
    let s2 := takeEffect [HAP_CH_CTRL_dead c] s1
    did (if bit (q.w 3) 0 then (if hapState s c = 0 then hapEnter c 1 s2 else s2) else if hapState s c = 0 then s2 else hapEnter c 0 (hapClear c s2))

/-- HAP_SET_CHANNEL. -/
def execHapSetChannel (k : Fin 32) (s : State) : Out := done (serve Op.HAP_SET_CHANNEL k hapSetChannel s)

/-- HAP_RESTART (R336). -/
def hapRestart (q : Req) (s : State) : Answer :=
  let c := bits (q.w 2) 2 0
  if q.polder ≠ some (hapHolder s c) then no ST_NOT_OWNER s
  else if hapState s c ≠ 4 then no ST_BUSY s
  else if hapLimitLow (rd s (HAP_CH_DRIVE_inom c)) (rd s (HAP_CH_DRIVE_od c)) (rd s (HAP_CH_LIMIT_ilim c)) then no ST_BAD_ARG s
  else did (hapEnter c 1 s)

/-- HAP_RESTART. -/
def execHapRestart (k : Fin 32) (s : State) : Out := done (serve Op.HAP_RESTART k hapRestart s)

end Sys2Proof.Machine
end

