-- ==== Sys2Proof/Machine/Encode.lean ====
section
/-! DEFINITION. Encoding: sources and their conversion (R299, R300), rows (R301, R302), key pictures (R303), rate control (R304), and the
chunk stream in the ring (R306, R307). -/
namespace Sys2Proof.Machine

/-! ## Conversion of write-back (R300) -/

/-- The coefficients of Y, Cb and Cr on R, G and B in 1/4096 for BT.601, BT.709 and BT.2020: full-range code values in, limited range out,
10 bits. -/
def encMatrix (m : Nat) : List (Int × Int × Int) :=
  match m with
  | 0 => [(1049, 2059, 400), (-605, -1188, 1794), (1794, -1502, -292)]
  | 1 => [(746, 2509, 253), (-411, -1383, 1794), (1794, -1629, -164)]
  | _ => [(921, 2378, 208), (-501, -1293, 1794), (1794, -1649, -144)]

/-- Component `i` (0 Y, 1 Cb, 2 Cr) of a pool word. -/
def encComponent (m i w : Nat) : Nat :=
  let (r, g, b) := (encMatrix m).getD i (0, 0, 0)
  let sum := r * (bits w 9 0 : Nat) + g * (bits w 19 10 : Nat) + b * (bits w 29 20 : Nat)
  ((if i = 0 then 64 else 512) + (sum + 2048) / 4096).toNat

/-- The samples of a CTU row from its 64 lines of pool words: luma, then Cb and Cr averaged over 2×2 blocks; an 8-bit stream keeps bits
[9:2]. -/
def encSamples (m : Nat) (ten : Bool) (width : Nat) (lines : List (List Nat)) : List Nat :=
  let keep (v : Nat) : Nat := if ten then v else v / 4
  let c (i x y : Nat) : Nat := encComponent m i ((lines.getD y []).getD (min x (width - 1)) 0)
  let avg (i x y : Nat) : Nat := (c i (2 * x) (2 * y) + c i (2 * x + 1) (2 * y) + c i (2 * x) (2 * y + 1) + c i (2 * x + 1) (2 * y + 1) + 2) / 4
  let luma := (List.range 64).flatMap (fun y => (List.range width).map (fun x => keep (c 0 x y)))
  let chroma (i : Nat) : List Nat := (List.range 32).flatMap (fun y => (List.range (ceilDiv width 2)).map (fun x => keep (avg i x y)))
  luma ++ chroma 1 ++ chroma 2

/-- The lines of CTU row `r` of a write-back picture, read from its frame buffer: lines below V_ACTIVE repeat the last (R301). -/
def readSource (k : Nat) (v : VcdSes) (p : VcdPic) (r : Nat) (s : State) : Nat × List (List Nat) × State :=
  let n := v.output
  let width := hActive s n
  let base := rdA s (CMP_OUT_WB_BASE_addr n (wbIndex s n p.frame)).inForce
  let stride := rd s (CMP_OUT_WB_STRIDE_stride n).inForce
  (List.range 64).foldl (fun rs i =>
    if rs.1 ≠ 0 then rs
    else match devRead (vcdEng rs.2.2 k) (base + min (64 * r + i) (vActive rs.2.2 n - 1) * stride) (4 * width) rs.2.2 with
      | (e, bs, s1) => (e, rs.2.1 ++ [leWords width bs], s1)) (0, [], s)

/-- Whether a CTU of a row holds a supervised pixel (R300), by CTU column. -/
def supervisedCtu (lines : List (List Nat)) (col : Nat) : Bool := lines.any (fun l => ((l.drop (64 * col)).take 64).any (fun w => bit w 30))

/-- What reading a row's source of a memory session meets: the lines of both planes. -/
def readMemorySource (k : Nat) (v : VcdSes) (q : VcdSub) (r : Nat) (s : State) : Nat × State :=
  let stride := bits (v.word 9) 15 0
  let n := min 64 (v.height - 64 * r)
  match devRead (vcdEng s k) (q.addr + 64 * r * stride) (n * stride) s with
  | (0, _, s1) => (match devRead (vcdEng s k) (q.addr + stride * v.height + 32 * r * stride) (n / 2 * stride) s1 with | (e, _, s2) => (e, s2))
  | (e, _, s1) => (e, s1)

/-! ## Rows (R301 to R304) -/

/-- R304: the bits of a picture's budget, times the picture rate in mHz. -/
def budgetScaled (v : VcdSes) : Nat := v.word 6 * 1000000

/-- The bits spent exceed the budget. -/
def overBudget (v : VcdSes) (p : VcdPic) : Bool := decide (budgetScaled v < p.spent * v.rate)

/-- R304: the QP that rate control chooses, a free value within the session's bounds. -/
def chosenQp (v : VcdSes) (s : State) : Nat :=
  let lo := bits (v.word 7) 5 0
  let hi := bits (v.word 7) 13 8
  lo + freeVal 6 s % (hi - lo + 1)

/-- R303: whether a picture whose first row starts is a key picture. -/
def keyDue (v : VcdSes) (p : VcdPic) : Bool :=
  let period := bits (v.word 8) 15 0
  let staged := v.queue.any (fun q => q.number == p.number && q.key)
  v.keyPend || staged || v.newest.isNone || (period != 0 && decide (period ≤ v.sinceKey + 1))

/-- The first row of a picture starts: key or not, and lost from its start while the ring has no room (R303, R307). -/
def firstRow (k : Nat) (p : VcdPic) (s : State) : State :=
  match ses s k with
  | none => s
  | some v =>
    let key := keyDue v p
    s |> setSes k (some { v with keyPend := false, newest := some 0, sinceKey := if key then 0 else v.sinceKey + 1,
                                 lost := if v.full then v.lost + 1 else v.lost })
      |> putPic k { p with key := key, dropping := v.full }

/-- The QP and the skip of a row (R302, R304). -/
def rowPlan (k r : Nat) (p : VcdPic) (s : State) : State :=
  match ses s k with
  | none => s
  | some v =>
    let hi := bits (v.word 7) 13 8
    let starved := v.bands.any (fun b => b.1 == p.frame && p.number == 0 && decide (4 * r ≤ b.2.1) && decide (b.2.1 < 4 * r + 4) && b.2.2)
    let excess := decide (0 < r) && overBudget v p
    let skip := excess && (p.qpLast == hi || !p.skipped.isEmpty)
    let qp := if excess then min (p.qpLast + 4) hi else chosenQp v s
    let p1 := { p with qpLast := qp, qpFirst := if r = 0 then qp else p.qpFirst, skipped := if skip then p.skipped ++ [r] else p.skipped,
                       overRow := if skip && p.overRow.isNone then some r else p.overRow,
                       starved := if starved then p.starved ++ [r] else p.starved }
    let s1 := putPic k p1 (if excess then s else tookFree s)
    if starved then record0 Src.VCD_WB_ROW_SKIPPED (some (sesPolder s k)) [k, r] s1 else s1

/-- The picture of a session as it now stands. -/
def picNow (s : State) (k : Nat) (p : VcdPic) : VcdPic := match ses s k with | some v => (v.pic p.number p.frame).getD p | none => p

/-- The source of a row read, and for write-back its samples kept (R299, R300). -/
def takeSource (k r : Nat) (p : VcdPic) (s : State) : Nat × State :=
  match ses s k with
  | none => (0, s)
  | some v =>
    if p.number = 0 then
      match readSource k v p r s with
      | (0, lines, s1) =>
        let q := picNow s1 k p
        (0, putPic k { q with source := q.source.put r (encSamples (bits (v.word 9) 17 16) v.depth10 (hActive s v.output) lines) } s1)
      | (e, _, s1) => (e, s1)
    else match v.queue.find? (fun q => q.number == p.number) with
      | some q => readMemorySource k v q r s
      | none => (0, s)

/-- A row given to an engine. -/
def startRow (e k r : Nat) (p : VcdPic) (s : State) : State :=
  let fresh := r == p.next && !p.again.any (fun x => x.1 == r)
  let s1 := if fresh && r == 0 then firstRow k p s else s
  let s2 := if fresh then rowPlan k r (picNow s1 k p) s1 else s1
  match takeSource k r (picNow s2 k p) s2 with
  | (0, s3) => startUnit e k r (picNow s3 k p) s3
  | (x, s3) => sesStop k x s3

/-- The picture of a memory session's next submission begins (R299). -/
def beginEncode (k : Nat) (v : VcdSes) (s : State) : State :=
  match v.pics, v.queue[v.begun]? with
  | [], some q =>
    setSes k (some { v with begun := v.begun + 1,
                            pics := [VcdPic.begin q.number 0 q.taken (some q.ts) (v.width * v.height) (ceilDiv v.height 64)] }) s
  | _, _ => s

/-- ENC_ROW_START (R301): an idle engine takes the ready unit that the choice of R285 falls on, when that is an encode row. -/
def execEncRowStart (e : Fin 16) (ready : List ReadyUnit) (s : State) : Out :=
  if !vcdIdle s e then .next s
  else match chooseUnit ready s with
    | some (c, s1) =>
      if !c.encode then .next s
      else match ses s1 c.session with
        | none => .next s
        | some v =>
          let s2 := beginEncode c.session v s1
          match ses s2 c.session with
          | some w => (match w.pics with | p :: _ => done (startRow e c.session c.unit p s2) | [] => .next s)
          | none => .next s
    | none => .next s

/-! ## The ring (R306, R307) -/

/-- The bytes of a chunk: header and payload, padded to a multiple of 16. -/
def chunkBytes (type k row : Nat) (key last excess skipped : Bool) (time : Nat) (payload : List Nat) : List Nat :=
  leBytes 4 (type + 256 * b2n key + 512 * b2n last + 1024 * b2n excess + 2048 * b2n skipped + 4096 * k + 262144 * row) ++
    leBytes 4 payload.length ++ leBytes 8 time ++ payload ++ List.replicate ((16 - payload.length % 16) % 16) 0

/-- The bytes of the ring that the consumer has still to read. -/
def ringUsed (s : State) (k : Nat) (v : VcdSes) : Nat :=
  let n := max 1 (v.word 5)
  (rd s (VCD_SES_RING_WR_offset k) + n - rd s (VCD_SES_RING_RD_offset k) % n) % n

/-- Whether a chunk of `n` bytes fits: with the padding it needs it leaves the ring short of full. -/
def chunkFits (s : State) (k : Nat) (v : VcdSes) (n : Nat) : Bool :=
  let w := rd s (VCD_SES_RING_WR_offset k)
  let pad := if v.word 5 < w + n then v.word 5 - w else 0
  decide (ringUsed s k v + pad + n < v.word 5)

/-- A chunk that fits written to the ring. A type 5 chunk, of which the spec fixes only the header's type and length, fills the ring's end
first where the chunk would wrap. -/
def putChunk (k : Nat) (v : VcdSes) (bytes : List Nat) (s : State) : Nat × State :=
  let w := rd s (VCD_SES_RING_WR_offset k)
  let n := v.word 5
  let (r1, s1, at_) :=
    if n < w + bytes.length then
      (match devWrite (vcdEng s k) (v.base + w) (leBytes 4 (5 + 4096 * k) ++ leBytes 4 (n - w - 16) ++ leBytes 8 (freeVal 64 s)) (tookFree s) with
       | (r, s') => (r, s', 0))
    else (0, s, w)
  if r1 ≠ 0 then (r1, s1)
  else match devWrite (vcdEng s k) (v.base + at_) bytes s1 with
    | (0, s2) => (0, s2 |> wr (VCD_SES_RING_WR_offset k) ((at_ + bytes.length) % n) |> sesEvent k VCD_SES_EVENT_ring)
    | (r, s2) => (r, s2)

/-- R307: a chunk of a picture, or the loss of the rest of the picture. -/
def picChunk (k : Nat) (p : VcdPic) (bytes : List Nat) (s : State) : State :=
  match ses s k with
  | none => s
  | some v =>
    if v.stopped || (picNow s k p).dropping then s
    else if chunkFits s k v bytes.length then sesStopIf k (putChunk k v bytes s)
    else
      s |> setSes k (some { v with full := true, lost := v.lost + 1 }) |> putPic k { picNow s k p with dropping := true }
        |> record0 Src.VCD_RING_FULL (some (sesPolder s k)) [k] |> sesEvent k VCD_SES_EVENT_ring |> sesNotify k 4

/-- R306: the attestation records of frames up to `f` inserted. -/
def putRecords (k f : Nat) (p : VcdPic) (s : State) : State :=
  match ses s k with
  | none => s
  | some v =>
    let due := v.records.filter (fun r => decide (r.1 ≤ f))
    due.foldl (fun s r => picChunk k p (chunkBytes 3 k 0 false false false false r.2.1 r.2.2) s)
      (setSes k (some { v with records := v.records.filter (fun r => !decide (r.1 ≤ f)) }) s)

/-- R375: a slice chunk or parameter-set chunk forwarded, or ONL_TX_DROP once for the picture. -/
def forward (k row : Nat) (p : VcdPic) (key last : Bool) (bytes : List Nat) (s : State) : State :=
  match ses s k with
  | none => s
  | some v =>
    let n := bits (v.word 10) 15 0
    let q := picNow s k p
    if !v.fwd || v.stopped || q.dropping then s
    else match txStream s (sesPolder s k) n with
      | some t => sendFragments t row (q.time.getD 0) key last bytes s
      | none =>
        if q.txDropped then s
        else s |> putPic k { q with txDropped := true } |> record0 Src.ONL_TX_DROP (some (sesPolder s k)) [n] |> raiseLine (sesPolder s k) 60

/-- R304: a picture that spent more than its budget is reported. -/
def reportOver (k : Nat) (v : VcdSes) (p : VcdPic) (s : State) : State :=
  if !overBudget v p then s
  else
    s |> record0 Src.VCD_RC_OVERSHOOT (some (sesPolder s k)) [k, p.overRow.getD (p.units - 1), (p.spent - budgetScaled v / max 1 v.rate) / 8]
      |> sesEvent k VCD_SES_EVENT_overshoot

/-- The chunks of a row that is done (R302 to R306). -/
def rowChunks (k r : Nat) (v : VcdSes) (p : VcdPic) (slice params : List Nat) (s : State) : State :=
  let last := r + 1 == p.units
  let time := p.time.getD 0
  let excess := p.skipped.contains r || overBudget v p
  let s1 := match v.finished with | some f => if r = 0 then putRecords k f p s else s | none => s
  let s2 := if r = 0 ∧ p.key = true then
      s1 |> picChunk k p (chunkBytes 1 k 0 false false false false time params) |> forward k 0 p true false params
    else s1
  let s3 := s2 |> picChunk k p (chunkBytes 2 k r p.key last excess (p.starved.contains r) time slice) |> forward k r p p.key last slice
  if last && p.number == 0 then putRecords k p.frame p s3 else s3

/-- A row is done: its bits counted, its chunks written, and after the last row the picture ended. -/
def rowDone (e k r : Nat) (p : VcdPic) (slice params : List Nat) (s : State) : State :=
  match ses s k with
  | none => s
  | some v =>
    let spent := p.spent + 8 * slice.length
    let q0 := p.left s e
    let q1 := { q0 with finished := p.finished + 1, spent := spent }
    let q := { q1 with overRow := if q1.overRow.isNone && overBudget v q1 then some r else q1.overRow }
    let s1 := s |> engineFree e |> putPic k q |> rowChunks k r v q slice params
    if q.finished < q.units then s1
    else
      let s2 := reportOver k v q s1
      endPic k q (match ses s2 k with
        | some w => if p.number = 0 then setSes k (some { w with finished := some p.frame }) s2 else s2
        | none => s2)

/-- ENC_ROW_DONE (R306): an engine's row is done, with its slice and, before a key picture's first slice, the parameter sets. Rows end in
order, and the first waits for the FLIP that gives a write-back picture its time. -/
def execEncRowDone (e : Fin 16) (slice params : List (BitVec 8)) (s : State) : Out :=
  match engineUnit s e with
  | none => .next s
  | some (k, p, r, _) =>
    match ses s k with
    | some v =>
      if v.encode = false ∨ r ≠ p.finished ∨ p.time.isNone = true then .next s
      else done (sesCloseDue (rowDone e k r p (slice.map (fun b => b.toNat)) (params.map (fun b => b.toNat)) s))
    | none => .next s

/-- ENC_RING_RESUME (R307): the consumer has freed room after a loss: a gap chunk with the pictures lost, and the next picture is a key
picture. -/
def execEncRingResume (k : Fin 64) (s : State) : Out :=
  match ses s k with
  | none => .next s
  | some v =>
    if v.full = false ∨ v.stopped = true ∨ chunkFits s k v 32 = false then .next s
    else
      let bytes := chunkBytes 4 k 0 false false false false (freeVal 64 s) (leBytes 4 v.lost)
      let s1 := setSes k (some { v with full := false, lost := 0, keyPend := true }) (tookFree s)
      done (sesStopIf k (putChunk k v bytes s1))

/-- R303: a key picture requested of an encode session. -/
def requestKey (k : Nat) (s : State) : State :=
  match ses s k with
  | some v => if v.encode then setSes k (some { v with keyPend := true }) s else s
  | none => s

/-- VCD_KEYREQ (R303). -/
def execVcdKeyreq (a : Access) (addr : BitVec 40) (v : BitVec 32) (s : State) : Out :=
  match sesReg addr.toNat 0x2C with
  | none => .next s
  | some (p, k) => regWrite a addr.toNat v.toNat (decide (k < 64)) (fun c s =>
      if sesPolder s k ≠ p then violateAt c 2 addr.toNat v.toNat s else if bit v.toNat 0 then requestKey k s else s) s

end Sys2Proof.Machine
end

