-- ==== Sys2Proof/Machine/Onader.lean ====
section
/-! DEFINITION. Onader traffic: reception (R368, R369), HELLO and the peer table (R371), lock group schedules (R372 to R374), received
streams (R376), key requests (R377), event export (R381), and the switch (R361, R362). -/
namespace Sys2Proof.Machine

/-! ## Reception (R369) -/

def onlVersion (h : OnaderHeader) : Nat := bits h.w0.toNat 3 0
def onlClass (h : OnaderHeader) : Nat := bits h.w0.toNat 11 4
def onlLength (h : OnaderHeader) : Nat := bits h.w0.toNat 31 16
def onlSystem (h : OnaderHeader) : Nat := bits h.w1.toNat 15 0
def onlGroup (h : OnaderHeader) : Nat := bits h.w1.toNat 31 16
def onlSource (h : OnaderHeader) : Nat := bits h.w2.toNat 13 0
def onlDest (h : OnaderHeader) : Nat := bits h.w2.toNat 29 16
def onlToAll (h : OnaderHeader) : Bool := bit h.w2.toNat 30

/-- The header's bytes. -/
def onlBytes (h : OnaderHeader) : List Nat :=
  leBytes 4 h.w0.toNat ++ leBytes 4 h.w1.toNat ++ leBytes 4 h.w2.toNat ++ leBytes 4 h.w3.toNat ++ leBytes 8 h.txTime.toNat

/-- R369: a received frame with `len` payload bytes is discarded. -/
def onlDiscards (s : State) (h : OnaderHeader) (len : Nat) : Bool :=
  onlVersion h != 1 || onlSystem h != ownSystem s || (!onlToAll h && onlDest h != ownDevice s) || onlLength h != len || onlClass h == 0 ||
    decide (7 < onlClass h) || decide (bits h.w0.toNat 15 12 ≠ 0) || decide (bits h.w2.toNat 15 14 ≠ 0) || bit h.w2.toNat 31

/-- A received frame of a class: discarded and counted, or acted on. A frame of another class is not this row's. In QUIET slices and key
requests are not acted on (R383). -/
def onlFrame (cls : Nat) (h : OnaderHeader) (len : Nat) (eff : State → State) (s : State) : Out :=
  if onlClass h ≠ cls ∨ domainOn s 6 = false then .next s
  else if onlDiscards s h len then .next (incWrap ONL_RX_DISCARDS_count 1 s)
  else if inQuiet s && (cls == clsSlice || cls == clsKeyreq) then .next s
  else done (eff s)

/-! ## HELLO and the peer table (R371) -/

/-- A notification to the warden. -/
def notifyWarden (opcode : Nat) (payload : List Nat) (s : State) : State := notifyPairs (wardenPair s).toList opcode payload s

/-- The peer table given a new value. -/
def setPeers (ps : List Peer) (s : State) : State := wr ONL_STATUS_peers ps.length (setNet (fun v => { v with peers := ps }) s)

/-- A device joins (1) or leaves (2) the peer table. -/
def peerEvent (device kind : Nat) (s : State) : State :=
  s |> record0 Src.ONL_PEER none [device, kind] |> notifyWarden Op.NET_PEER_EVENT [device + 65536 * kind]

/-- A device leaves the peer table. -/
def peerLeaves (device : Nat) (s : State) : State :=
  if s.net.peers.any (fun p => p.device == device) then peerEvent device 2 (setPeers (s.net.peers.filter (fun p => p.device != device)) s) else s

/-- HELLO as the device sends it: MAC and IP addresses, time state, leaving, and the groups it belongs to with their schedule versions. -/
def helloSend (leaving : Bool) (s : State) : State :=
  let groups := ((List.range 8).map (fun n => rd s (SCN_LOCK_CTRL_group n))).dedup
  let versions := (List.range 8).flatMap (fun i =>
    if rdB s (ONL_GRP_ID_valid i) then [rd s (ONL_GRP_ID_group i), rd s (ONL_GRP_VERSION_version i)] else [])
  match s.net.identity with
  | some i => netSend clsHello 0 none i.mcast ([Config.macAddress, i.ip4, i.ip6, rd s ONL_TIME_STAT_state, b2n leaving, groups.length] ++ groups ++ versions) s
  | none => s

/-- HELLO_SEND (R371): every second. -/
def execHelloSend (s : State) : Out :=
  let s1 := advanceTo (s.net.helloAt + 1000000000) s
  done (setNet (fun v => { v with helloAt := s1.now }) (helloSend false s1))

/-- A HELLO taken. -/
def helloTaken (d : Nat) (x : HelloInfo) (s : State) : State :=
  if s.net.identity.isSome && d == ownDevice s then
    if x.mac.toNat = Config.macAddress then s
    else s |> setNet (fun v => { v with dupAt := s.now }) |> wr ONL_STATUS_dup 1 |> record0 Src.ONL_DUPLICATE none [d]
      |> notifyWarden Op.NET_PEER_EVENT [d + 65536 * 3]
  else if x.leaving then peerLeaves d s
  else
    let p : Peer := ⟨d, x.mac.toNat, x.ip4.toNat, x.timeState, s.now, s.devTime⟩
    if s.net.peers.any (fun q => q.device == d) then setPeers (s.net.peers.map (fun q => if q.device == d then p else q)) s
    else peerEvent d 1 (setPeers (s.net.peers ++ [p]) s)

/-- HELLO (R371). -/
def execHello (h : OnaderHeader) (len : Nat) (x : HelloInfo) (s : State) : Out := onlFrame clsHello h len (helloTaken (onlSource h) x) s

/-- PEER_TIMEOUT (R371): 3 s without a HELLO. -/
def execPeerTimeout (d : Fin 16384) (s : State) : Out :=
  match s.net.peers.find? (fun p => p.device == d.val) with
  | some p => done (peerLeaves d (advanceTo (p.heard + 3000000000) s))
  | none => .next s

/-- DUPLICATE_CLEAR (R371): 5 s without a HELLO of the device's own number from another. -/
def execDuplicateClear (s : State) : Out :=
  if rdB s ONL_STATUS_dup then done (wr ONL_STATUS_dup 0 (advanceTo (s.net.dupAt + 5000000000) s)) else .next s

/-! ## Lock group schedules (R372 to R374) -/

/-- The schedule held in place `i` for its effective time, and whether this device owns it. -/
def schedNext (s : State) (i : Nat) : Option (Sched × Bool) := Tab.get none s.net.next i

/-- The schedule held in place `i` given a new value. -/
def setNext (i : Nat) (x : Option (Sched × Bool)) (s : State) : State := setNet (fun v => { v with next := v.next.put i x }) s

/-- The place of a group: the one it has, or the first that is free. -/
def groupPlace (s : State) (g : Nat) : Option Nat :=
  let held (i : Nat) : Bool := match schedNext s i with | some (x, _) => x.group == g | none => false
  match (List.range 8).find? (fun i => (rdB s (ONL_GRP_ID_valid i) && rd s (ONL_GRP_ID_group i) == g) || held i) with
  | some i => some i
  | none => (List.range 8).find? (fun i => !rdB s (ONL_GRP_ID_valid i) && (schedNext s i).isNone)

/-- The version in force of a place, 0 for none. -/
def versionOf (s : State) (i : Nat) : Nat := if rdB s (ONL_GRP_ID_valid i) then rd s (ONL_GRP_VERSION_version i) else 0

/-- The schedule of place `i`: the one held, or the one in force, and whether this device owns it. -/
def schedOf (s : State) (i : Nat) : Option (Sched × Bool) :=
  match schedNext s i with
  | some x => some x
  | none =>
    if rdB s (ONL_GRP_ID_valid i) then
      some (⟨rd s (ONL_GRP_ID_group i), rd s (ONL_GRP_RATE_mhz i), rd s (ONL_GRP_PHASE_ns i), rd s (ONL_GRP_LATENCY_us i),
             rd s (ONL_GRP_EFFECTIVE_time i), rd s (ONL_GRP_VERSION_version i)⟩, rdB s (ONL_GRP_ID_owner i))
    else none

/-- SCHED sent for a place that this device owns. -/
def schedSend (i : Nat) (s : State) : State :=
  match s.net.identity, schedOf s i with
  | some d, some (x, true) => netSend clsSched x.group none d.mcast [x.rate, x.phase, x.latency, x.effective, x.version] s
  | _, _ => s

/-- R373 on an output of the group. -/
def schedOutput (x : Sched) (n : Nat) (s : State) : State :=
  if rd s (SCN_LOCK_CTRL_group n) ≠ x.group then s
  else if modeSet s n && rd s (SCN_RATE_mhz n) != x.rate then
    s |> wr (SCN_LOCK_CTRL_enable n) 0 |> setLockState n 0 |> record0 Src.ONL_SCHED_MISMATCH none [x.group, n]
      |> notifyWarden Op.NET_GROUP_EVENT [x.group + 65536 * 2]
  else
    let s1 := wr (SCN_LOCK_PHASE_ns n) x.phase s
    if rd s (SCN_LOCK_PHASE_ns n) ≠ x.phase ∧ lockOn s n = true then setLockState n 1 (setOut n { out s1 n with lockRun := 0 } s1) else s1

/-- R373: a schedule applied. -/
def schedApply (i : Nat) (x : Sched) (own : Bool) (s : State) : State :=
  let s1 := s |> setNext i none |> wr (ONL_GRP_ID_group i) x.group |> wr (ONL_GRP_ID_valid i) 1 |> wrB (ONL_GRP_ID_owner i) own
    |> wr (ONL_GRP_RATE_mhz i) x.rate |> wr (ONL_GRP_PHASE_ns i) x.phase |> wr (ONL_GRP_LATENCY_us i) x.latency
    |> wr (ONL_GRP_VERSION_version i) x.version |> wr (ONL_GRP_EFFECTIVE_time i) x.effective
  (List.range 8).foldl (fun s n => schedOutput x n s) s1 |> record0 Src.ONL_SCHED_APPLIED none [x.group, x.version] |> raiseLine 0 61
    |> notifyWarden Op.NET_GROUP_EVENT [x.group + 65536]

/-- SCHED_SEND (R372): every second. -/
def execSchedSend (s : State) : Out :=
  let s1 := advanceTo (s.net.schedAt + 1000000000) s
  done ((List.range 8).foldl (fun s i => schedSend i s) (setNet (fun v => { v with schedAt := s1.now }) s1))

/-- An output belongs to a group. -/
def memberOf (s : State) (g : Nat) : Bool := (List.range 8).any (fun n => rd s (SCN_LOCK_CTRL_group n) == g)

/-- A SCHED taken (R373, R374): held for its effective time, or applied at once when that has passed. -/
def schedTaken (source : Nat) (x : Sched) (s0 : State) : State :=
  let s := setNet (fun v => { v with heard := (x.group, source, s0.now) :: v.heard.filter (fun e => e.1 != x.group || e.2.1 != source) }) s0
  match groupPlace s x.group with
  | none => s
  | some i =>
    let own := match schedOf s i with | some (y, o) => y.group == x.group && o | none => false
    let s1 := if own && source != ownDevice s then notifyWarden Op.NET_GROUP_EVENT [x.group + 65536 * 3] s else s
    let newer := decide (versionOf s1 i < x.version) && (match schedNext s1 i with | some (y, _) => decide (y.version < x.version) | none => true)
    if !memberOf s1 x.group || !newer then s1
    else if x.effective ≤ s1.devTime then schedApply i x false s1
    else setNext i (some (x, false)) s1

/-- SCHED (R373). -/
def execSched (h : OnaderHeader) (len : Nat) (x : SchedInfo) (s : State) : Out :=
  onlFrame clsSched h len (schedTaken (onlSource h) ⟨onlGroup h, x.rate.toNat, x.phase.toNat, x.latency.toNat, x.effective.toNat, x.version.toNat⟩) s

/-- SCHED_APPLY (R373): the effective time of the schedule held in a place. -/
def execSchedApply (i : Fin 8) (s : State) : Out :=
  match schedNext s i with
  | some (x, own) => done (schedApply i x own (advanceDevice 8 x.effective s))
  | none => .next s

/-! ## Received streams (R376) -/

/-- How far fragments cover a chunk from its start, and the bytes; `k` is fuel. -/
def joinFrags : Nat → List (Nat × List Nat) → List Nat → List Nat
  | 0, _, done => done
  | k + 1, fs, done =>
    match fs.find? (fun f => decide (f.1 ≤ done.length) && decide (done.length < f.1 + f.2.length)) with
    | some f => joinFrags k fs (done ++ f.2.drop (done.length - f.1))
    | none => done

/-- The bytes of a row's chunk as far as they have come. -/
def RxRow.bytes (r : RxRow) : List Nat := (joinFrags r.frags.length r.frags []).take r.total

/-- A row's chunk has come whole. -/
def RxRow.whole (r : RxRow) : Bool := decide (r.total ≤ (joinFrags r.frags.length r.frags []).length)

/-- Every chunk of a row of a picture has come, and at least one. -/
def RxPic.rowWhole (p : RxPic) (r : Nat) : Bool :=
  p.rows.any (fun x => x.row == r) && p.rows.all (fun x => x.row != r || x.whole)

/-- Every row from 0 to the one marked last has come whole. -/
def RxPic.whole (p : RxPic) : Bool :=
  match p.rows.find? (fun x => x.last) with
  | some l => (List.range (l.row + 1)).all p.rowWhole
  | none => false

/-- The rows of a picture that have come whole, in order, as one access unit. -/
def RxPic.unit (p : RxPic) : List Nat :=
  let n := p.rows.foldl (fun a x => max a (x.row + 1)) 0
  ((List.range n).filter p.rowWhole).flatMap (fun r => (p.rows.filter (fun x => x.row == r)).flatMap RxRow.bytes)

/-- The bytes that a picture has collected. -/
def RxPic.size (p : RxPic) : Nat := (p.rows.map (fun r => (r.frags.map (fun f => f.2.length)).sum)).sum

/-- A receive stream given a new value. -/
def putRx (r : RxStream) (s : State) : State :=
  setNet (fun v => { v with rx := v.rx.map (fun x => if x.stream == r.stream then r else x) }) s

/-- The first place in a stream's buffer, at its base or after a unit, where `n` bytes overlap no unit that its session still holds. -/
def rxPlace (s : State) (r : RxStream) (n : Nat) : Option Nat :=
  let held : List (Nat × Nat) := match ses s r.session with | some v => v.queue.map (fun q => (q.addr, q.addr + q.bytes)) | none => []
  (r.base :: held.map (fun e => e.2)).find? (fun a =>
    decide (r.base ≤ a) && decide (a + n ≤ r.base + r.size) && held.all (fun e => decide (a + n ≤ e.1) || decide (e.2 ≤ a)))

/-- The master that writes reassembly buffers (notes/assumptions/40.md). -/
def masterNet : Nat := 18

/-- A picture leaves reassembly: submitted to the session, or dropped. -/
def rxSubmit (r : RxStream) (p : RxPic) (s : State) : State :=
  let unit := p.unit
  let r1 := { r with asm := r.asm.filter (fun x => x.time != p.time), gone := p.time :: r.gone, pictures := r.pictures + 1 }
  let drop (s : State) : State :=
    s |> putRx { r1 with dropped := r1.dropped + 1 } |> record0 Src.ONL_RX_DROP (some r.polder) (r.stream :: twoWords p.time)
  match ses s r.session, rxPlace s r unit.length with
  | some v, some a =>
    if sesPolder s r.session ≠ r.polder ∨ v.encode = true ∨ v.closing.isSome = true ∨ 32 ≤ v.queue.length then drop s
    else
      match devWrite ⟨masterNet, r.polder⟩ a unit s with
      | (0, s1) =>
        let q : VcdSub := { addr := a, bytes := unit.length, eos := false, discont := false, key := false, ts := p.time, number := v.next, taken := s.now }
        s1 |> putRx r1 |> setSes r.session (some { v with queue := v.queue ++ [q], next := (v.next + 1) % 2 ^ 32 })
      | (_, s1) => drop s1
  | _, _ => drop s

/-- A fragment (Table ONL-5) taken by its stream. -/
def sliceTaken (source : Nat) (payload : List Nat) (s : State) : State :=
  let w (i : Nat) : Nat := leNat ((payload.drop (4 * i)).take 4)
  let time := w 1 + 4294967296 * w 2
  match s.net.rx.find? (fun r => r.stream == bits (w 0) 15 0 && r.source == source) with
  | none => s
  | some r =>
    if payload.length < 20 ∨ r.gone.contains time = true then s
    else
      let row := bits (w 0) 29 16
      let total := bits (w 4) 23 0
      let frag := (bits (w 3) 23 0, payload.drop 20)
      let p := (r.asm.find? (fun x => x.time == time)).getD ⟨time, s.now, []⟩
      let rows := if p.rows.any (fun x => x.row == row && x.total == total) then
          p.rows.map (fun x => if x.row == row && x.total == total then { x with frags := x.frags ++ [frag] } else x)
        else p.rows ++ [⟨row, bit (w 0) 30, bit (w 0) 31, total, [frag]⟩]
      let p1 := { p with rows := rows }
      let r1 := { r with asm := r.asm.filter (fun x => x.time != time) ++ [p1] }
      if r.size < p1.size then
        s |> putRx { r1 with asm := r.asm.filter (fun x => x.time != time), gone := time :: r.gone, pictures := r.pictures + 1, dropped := r.dropped + 1 }
          |> record0 Src.ONL_RX_DROP (some r.polder) (r.stream :: twoWords time)
      else if p1.whole then rxSubmit r1 p1 (putRx r1 s)
      else putRx r1 s

/-- SLICE (R376). -/
def execSlice (h : OnaderHeader) (payload : List (BitVec 8)) (s : State) : Out :=
  onlFrame clsSlice h payload.length (sliceTaken (onlSource h) (payload.map (fun b => b.toNat))) s

/-- RX_TIMEOUT (R376): rx_timeout after the first fragment of a stream's oldest picture, it is submitted as far as it has come. -/
def execRxTimeout (n : Fin 65536) (s : State) : Out :=
  match s.net.rx.find? (fun r => r.stream == n.val) with
  | none => .next s
  | some r =>
    match r.asm with
    | [] => .next s
    | p0 :: t =>
      let p := t.foldl (fun a b => if b.first < a.first then b else a) p0
      let s1 := advanceTo (p.first + 1000000 * r.timeout) s
      done (s1 |> rxSubmit { r with incomplete := r.incomplete + 1 } p
        |> record0 Src.ONL_RX_INCOMPLETE (some r.polder) (r.stream :: twoWords p.time) |> raiseLine r.polder 59)

/-! ## Key requests (R377) -/

/-- A KEYREQ taken: a request to every encode session forwarding the stream, at most once per 100 ms. -/
def keyreqTaken (source n : Nat) (s : State) : State :=
  match s.net.keyreqAt.find? (fun e => e.1 == n) with
  | some (_, t) => if s.now < t + 100000000 then s else go s
  | none => go s
where
  go (s : State) : State :=
    let ks := (s.vcd.sess.filter (fun e => match e.2 with | some v => v.encode && v.fwd && bits (v.word 10) 15 0 == n | none => false)).map (fun e => e.1)
    ks.foldl (fun s k => requestKey k s) (setNet (fun v => { v with keyreqAt := v.keyreqAt.put n s.now }) s)
      |> record0 Src.ONL_KEYREQ none [n, source]

/-- KEYREQ (R377). -/
def execKeyreq (h : OnaderHeader) (len : Nat) (n : Fin 65536) (s : State) : Out := onlFrame clsKeyreq h len (keyreqTaken (onlSource h) n) s

/-! ## Event export (R381) -/

/-- EVENT_EXPORT_SEND (R381): the records due are sent, up to 40 in a frame, in sequence order. -/
def execEventExportSend (s : State) : Out :=
  let floor := match s.net.exportTo with | some (_, _, m) => m | none => 16
  let due := s.evr.exportQ.filter (fun e => decide (floor ≤ e.2.sev))
  let now_ := due.take 40
  let s1 := { s with evr := { s.evr with exportQ := due.drop 40 } }
  if now_.isEmpty then .next s1 else done (exportSend 2 1 (now_.flatMap (fun e => e.2.bytes)) s1)

/-! ## The switch (R361, R362) -/

/-- An entry learned or joined, within a table's size. -/
def learn (n : Nat) (e : Nat × Nat × Nat) (t : List (Nat × Nat × Nat)) : List (Nat × Nat × Nat) :=
  if t.contains e then t else if t.length < n then t ++ [e] else t

/-- The ports that a frame leaves by. -/
def egress (s : State) (f : EthFrame) : List Nat :=
  let others := (List.range 7).filter (fun p => p != f.port.val && (p == 6 || rdB s (ONL_PORT_STAT_up p)))
  let within (ps : List Nat) : List Nat := if ps.isEmpty then others else others.filter (fun p => ps.contains p)
  match f.dest with
  | .device => others.filter (fun p => p == 6)
  | .unicast m => within ((s.net.unicast.filter (fun e => e.1 == f.vlan.val && e.2.1 == m.toNat)).map (fun e => e.2.2))
  | .multicast m => within ((s.net.multicast.filter (fun e => e.1 == f.vlan.val && e.2.1 == m.toNat)).map (fun e => e.2.2))

/-- What the switch learns of a frame. -/
def switchLearn (f : EthFrame) (s : State) : State :=
  setNet (fun v =>
    let uni := v.unicast.filter (fun e => !(e.1 == f.vlan.val && e.2.1 == f.src.toNat))
    let multi := match f.leave with
      | some m => v.multicast.filter (fun e => e != (f.vlan.val, m.toNat, f.port.val))
      | none => v.multicast
    { v with unicast := learn 8192 (f.vlan, f.src.toNat, f.port) uni,
             multicast := match f.join with | some m => learn 2048 (f.vlan, m.toNat, f.port) multi | none => multi }) s

/-- ETHERNET_FRAME_RX (R361, R362, R369): a frame comes in by a port: it is dropped for want of MACsec protection, forwarded, dropped at
full egress queues, or, for the device itself, discarded as an Onader frame that R369 refuses. -/
def execEthernetFrameRx (f : EthFrame) (s : State) : Out :=
  let p := f.port.val
  if domainOn s 6 = false ∨ (p < 6 ∧ rdB s (ONL_PORT_STAT_up p) = false) then .next s
  else if p < 6 ∧ rdB s (ONL_PORT_CFG_macsec p) = true ∧ f.protect = false then
    done (s |> incSat (ONL_PORT_MACSEC_ERR_count p) 1 |> record0 Src.ONL_MACSEC none [p])
  else
    let s1 := switchLearn f s
    let out := egress s1 f
    let s2 := out.foldl (fun s q => if q < 6 ∧ bit f.full.toNat q = true then incSat (ONL_PORT_STAT_drops q) 1 s else s) s1
    let mine := out.contains 6 && !bit f.full.toNat 6
    done (match f.onader with
      | some (h, len) => if mine && onlDiscards s2 h len then incWrap ONL_RX_DISCARDS_count 1 s2 else s2
      | none => s2)

/-! ## Gate control lists (R361) -/

/-- The gate states of the entry that holds at an offset into a list's cycle; past the entries the last holds. -/
def gateAt : List (Nat × Nat) → Nat → Nat → Nat
  | [], _, last => last
  | (g, n) :: t, x, _ => if x < n then g else gateAt t (x - n) g

/-- The gates of a port's eight traffic classes at a device time: every one open without a list. -/
def gatesOpen (s : State) (p t : Nat) : Nat :=
  match Tab.get none s.net.gates p with
  | none => 255
  | some g => gateAt g.entries ((t - g.start) % max 1 g.cycle) 255

/-- QBV_LIST_START (R361): the start time of the list waiting for a port. -/
def execQbvListStart (p : Fin 6) (s : State) : Out :=
  match Tab.get none s.net.gatesNext p with
  | none => .next s
  | some g =>
    let s1 := advanceDevice 8 g.start s
    .next (setNet (fun v => { v with gates := v.gates.put p (some g), gatesNext := v.gatesNext.put p none }) s1)

end Sys2Proof.Machine
end

