-- ==== Sys2Proof/Machine/Manager.lean ====
section
/-! DEFINITION. The remote manager's session (R379, R380, Table ONL-6). An MGR payload begins with a kind word and a session word; the layout
of what follows them is the model's (notes/assumptions/41.md): a nonce for kinds 1 and 2; a sequence number and 16 message words for kind
4; a sequence number and a result for kind 5; then the 16-byte tag. -/
namespace Sys2Proof.Machine

/-- Word `i` of a payload. -/
def payWord (p : List Nat) (i : Nat) : Nat := leNat ((p.drop (4 * i)).take 4)

/-- A payload without its tag, and the tag. -/
def unTagged (p : List Nat) : List Nat := p.take (p.length - 16)
def tagOf (p : List Nat) : List Nat := p.drop (p.length - 16)

/-- An MGR frame of a kind: a frame of another kind is not this row's. -/
def mgrRow (kind : Nat) (h : OnaderHeader) (payload : List (BitVec 8)) (eff : List Nat → State → State) (s : State) : Out :=
  let p := payload.map (fun b => b.toNat)
  if payWord p 0 ≠ kind then .next s else onlFrame clsMgr h p.length (eff p) s

/-- ONL_MGR_AUTH_FAIL. -/
def mgrAuthFail (kind source : Nat) (s : State) : State := record0 Src.ONL_MGR_AUTH_FAIL none [kind, source] s

/-- The session ends (R380): a remote-manager warden's position falls vacant (R52). -/
def mgrEnd (s : State) : State :=
  match mgrUp s with
  | some _ => s |> setNet (fun v => { v with mgr := none }) |> wr ONL_STATUS_mgr 0 |> record0 Src.ONL_MGR_SESSION none [0] |> vacateKind 3
  | none => setNet (fun v => { v with mgr := none }) s

/-- The device closes the session (kind 7). -/
def mgrClose (s : State) : State :=
  match mgrUp s with
  | some m => mgrEnd (mgrFrame 7 (leBytes 4 (m.rxSeq.getD 0)) s)
  | none => mgrEnd s

/-- OPEN taken (Table ONL-6 steps 1 and 2). Results: 1 busy, 2 no key. -/
def mgrOpen (h : OnaderHeader) (addr : Nat) (p : List Nat) (s : State) : State :=
  if s.net.mgrKey.isEmpty then mgrSend (onlSource h) addr 0 2 (leBytes 4 2) none s
  else if (mgrUp s).isSome then mgrSend (onlSource h) addr 0 2 (leBytes 4 1) none s
  else
    let word := freeVal 32 s
    let nonce := freeVals 8 16 (tookFree s)
    let key := hmacSha256 s.net.mgrKey (((p.drop 8).take 16) ++ nonce ++ leBytes 2 (ownDevice s))
    let m : MgrSes := { source := onlSource h, addr := addr, word := word, key := key, challenged := s.now, up := false, rxSeq := none, txSeq := 1,
                        valid := s.now, tries := 0, sentAt := 0 }
    mgrSend (onlSource h) addr word 2 nonce none (setNet (fun v => { v with mgr := some m }) (tookFrees 17 s))

/-- MGR_OPEN (R379). -/
def execMgrOpen (h : OnaderHeader) (addr : BitVec 128) (payload : List (BitVec 8)) (s : State) : Out :=
  mgrRow 1 h payload (mgrOpen h addr.toNat) s

/-- The head of channel 63 sent, if there is one. -/
def mgrHead (s : State) : State := match (chan s 63).q.head? with | some m => mgrMessage m s | none => s

/-- CONFIRM taken (Table ONL-6 steps 3 and 4). -/
def mgrConfirm (h : OnaderHeader) (p : List Nat) (s : State) : State :=
  match s.net.mgr with
  | none => s
  | some m =>
    if m.up then s
    else if m.source ≠ onlSource h ∨ m.word ≠ payWord p 1 ∨ m.challenged + 1000000000 < s.now ∨
        tagOf p ≠ mgrTag m.key (onlBytes h) (unTagged p) then
      mgrAuthFail 3 (onlSource h) (setNet (fun v => { v with mgr := none }) s)
    else s |> setNet (fun v => { v with mgr := some { m with up := true, valid := s.now } }) |> wr ONL_STATUS_mgr 1
      |> record0 Src.ONL_MGR_SESSION none [1] |> mgrHead

/-- MGR_CONFIRM (R379). -/
def execMgrConfirm (h : OnaderHeader) (payload : List (BitVec 8)) (s : State) : Out := mgrRow 3 h payload (mgrConfirm h) s

/-- A frame of kinds 4 to 7 in the session that is up: a bad tag is recorded; a valid frame keeps the session alive, and what it says is
acted on unless its sequence number is below the last one accepted (R380). -/
def mgrInSession (kind : Nat) (h : OnaderHeader) (p : List Nat) (act : MgrSes → State → State) (s : State) : State :=
  match mgrUp s with
  | none => s
  | some m =>
    if m.source ≠ onlSource h ∨ m.word ≠ payWord p 1 ∨ tagOf p ≠ mgrTag m.key (onlBytes h) (unTagged p) then mgrAuthFail kind (onlSource h) s
    else
      let m1 := { m with valid := s.now }
      let s1 := setNet (fun v => { v with mgr := some m1 }) s
      if kind ≠ 5 ∧ payWord p 2 < m.rxSeq.getD 0 then s1 else act m1 s1

/-- A kind 4 message (R380): pushed to channel 62 and acknowledged: result 0 accepted, 1 full. -/
def mgrPush (p : List Nat) (m : MgrSes) (s : State) : State :=
  let seq := payWord p 2
  let ack (r : Nat) (s : State) : State := mgrFrame 5 (leBytes 4 seq ++ leBytes 4 r) s
  if m.rxSeq = some seq then ack 0 s
  else if chanOn s 62 && decide ((chan s 62).q.length < 8) then
    s |> setNet (fun v => { v with mgr := some { m with rxSeq := some seq } })
      |> deliver 62 11 0 false true (pad16 ((List.range 16).map (fun i => payWord p (3 + i)))) |> ack 0
  else s |> wr (MBX_CH_STAT_tx_overflow 62) 1 |> record0 Src.MBX_TX_OVERFLOW (chanPolder s 62) [62, 11] |> ack 1

/-- MGR_MESSAGE (R380). -/
def execMgrMessage (h : OnaderHeader) (payload : List (BitVec 8)) (s : State) : Out :=
  mgrRow 4 h payload (fun p => mgrInSession 4 h p (mgrPush p)) s

/-- A kind 5 acknowledgement (R380): the message in flight leaves channel 63, and the next is sent. -/
def mgrAcked (p : List Nat) (m : MgrSes) (s : State) : State :=
  if m.tries = 0 ∨ payWord p 2 ≠ m.txSeq then s
  else s |> setNet (fun v => { v with mgr := some { m with txSeq := (m.txSeq + 1) % 2 ^ 32, tries := 0 } }) |> dropHead 63 |> mgrHead

/-- MGR_ACK (R380). -/
def execMgrAck (h : OnaderHeader) (payload : List (BitVec 8)) (s : State) : Out :=
  mgrRow 5 h payload (fun p => mgrInSession 5 h p (mgrAcked p)) s

/-- MGR_KEEPALIVE (R380): the session stays alive. -/
def execMgrKeepalive (h : OnaderHeader) (payload : List (BitVec 8)) (s : State) : Out :=
  mgrRow 6 h payload (fun p => mgrInSession 6 h p (fun _ s => s)) s

/-- MGR_CLOSE (R380): the manager ends the session. -/
def execMgrClose (h : OnaderHeader) (payload : List (BitVec 8)) (s : State) : Out :=
  mgrRow 7 h payload (fun p => mgrInSession 7 h p (fun _ s => mgrEnd s)) s

/-- MGR_RESEND (R380): 100 ms after it was last sent, an unacknowledged message is sent again, up to ten times. -/
def execMgrResend (s : State) : Out :=
  match mgrUp s with
  | some m => if 1 ≤ m.tries ∧ m.tries ≤ 10 then done (mgrHead (advanceTo (m.sentAt + 100000000) s)) else .next s
  | none => .next s

/-- MGR_SESSION_TIMEOUT (R380): no valid frame for 2 s. -/
def execMgrSessionTimeout (s : State) : Out :=
  match mgrUp s with
  | some m => done (mgrEnd (advanceTo (m.valid + 2000000000) s))
  | none => .next s

end Sys2Proof.Machine
end

