-- ==== Sys2Proof/Machine/NetCommands.lean ====
section
/-! DEFINITION. The network commands (Table ONL-8). A payload that the table gives by reference stands in the referenced buffer, word for
word; the order of the parts that the table names without a layout is the model's (notes/assumptions/42.md). -/
namespace Sys2Proof.Machine

/-- ONL_ID, ONL_STATUS and ONL_TIME_STAT as words. -/
def onlIdWord (s : State) : Nat := rd s ONL_ID_device + 16384 * rd s ONL_ID_set + 65536 * rd s ONL_ID_system
def onlStatusWord (s : State) : Nat :=
  rd s ONL_STATUS_link + 256 * rd s ONL_STATUS_dup + 512 * rd s ONL_STATUS_mgr + 65536 * rd s ONL_STATUS_peers
def onlTimeWord (s : State) : Nat :=
  rd s ONL_TIME_STAT_state + 4 * rd s ONL_TIME_STAT_unsync + 8 * rd s ONL_TIME_STAT_slave_port + 65536 * rd s ONL_TIME_STAT_steps

/-- NET_GET_INFO. -/
def netGetInfo (_ : Req) (s : State) : Answer :=
  okR ([onlIdWord s, onlStatusWord s, onlTimeWord s, rd s ONL_TIME_OFFSET_ns] ++ twoWords s.devTime) s

/-- NET_GET_INFO. -/
def execNetGetInfo (k : Fin 32) (s : State) : Out := done (serve Op.NET_GET_INFO k netGetInfo s)

/-- A peer's 32 bytes: device at 0, MAC at 4, IPv4 at 12, time state at 16, last HELLO time at 24. -/
def peerBytes (p : Peer) : List Nat :=
  leBytes 4 p.device ++ leBytes 8 p.mac ++ leBytes 4 p.ip4 ++ leBytes 8 p.timeState ++ leBytes 8 p.heardTime

/-- NET_GET_PEERS: the peers that fit. -/
def netGetPeers (q : Req) (s : State) : Answer :=
  okR [] (devPut 0 q.bufAddr ((s.net.peers.take (q.bufSize / 32)).flatMap peerBytes) s)

/-- NET_GET_PEERS. -/
def execNetGetPeers (k : Fin 32) (s : State) : Out := done (serve Op.NET_GET_PEERS k netGetPeers s)

/-- NET_GET_GROUP. -/
def netGetGroup (q : Req) (s : State) : Answer :=
  match schedInForce s (bits (q.w 2) 15 0) with
  | some i => okR ([rd s (ONL_GRP_ID_group i) + 65536 * rd s (ONL_GRP_ID_valid i) + 131072 * rd s (ONL_GRP_ID_owner i), rd s (ONL_GRP_RATE_mhz i),
      rd s (ONL_GRP_PHASE_ns i), rd s (ONL_GRP_LATENCY_us i), rd s (ONL_GRP_VERSION_version i)] ++ twoWords (rd s (ONL_GRP_EFFECTIVE_time i))) s
  | none => no ST_BAD_ARG s

/-- NET_GET_GROUP. -/
def execNetGetGroup (k : Fin 32) (s : State) : Out := done (serve Op.NET_GET_GROUP k netGetGroup s)

/-- A receive stream by number. -/
def rxStream (s : State) (n : Nat) : Option RxStream := s.net.rx.find? (fun r => r.stream == n)

/-- NET_GET_STREAM (R378, R382): a bound receive stream, or the AES67 receive stream of that number with its packets and missing packets. -/
def netGetStream (q : Req) (s : State) : Answer :=
  let n := bits (q.w 2) 15 0
  match rxStream s n with
  | some r => if q.mayReadPolder s r.polder then okR [r.lateness, r.pictures, r.incomplete, r.dropped] s else no ST_NOT_OWNER s
  | none =>
    match s.net.aes.find? (fun a => !a.tx && a.index == n) with
    | some a => okR [0, a.packets, a.missing, 0] s
    | none => no ST_BAD_ARG s

/-- NET_GET_STREAM. -/
def execNetGetStream (k : Fin 32) (s : State) : Out := done (serve Op.NET_GET_STREAM k netGetStream s)

/-- Word `i` of a payload by reference, and the address at byte `at_` of it. -/
def refWord (q : Req) (s : State) (i : Nat) : Nat := readNat s (q.bufAddr + 4 * i) 4
def refAddr (q : Req) (s : State) (at_ : Nat) : Nat := readNat s (q.bufAddr + at_) 16

/-- NET_SET_TX_STREAM (R375, R384). -/
def netSetTxStream (q : Req) (s : State) : Answer :=
  match q.polder with
  | none => no ST_NOT_OWNER s
  | some p =>
    let w := refWord q s 0
    let n := bits w 15 0
    let rest := s.net.tx.filter (fun t => t.stream != n)
    if n = 0 then no ST_BAD_ARG s
    else if s.net.tx.any (fun t => t.stream == n && t.polder != p) then no ST_ONL_STREAM s
    else if !bit w 16 then did (setNet (fun v => { v with tx := rest }) s)
    else if s.net.identity.isNone then no ST_ONL_NO_ADDR s
    else did (setNet (fun v => { v with tx := rest ++ [⟨n, p, refAddr q s 4, bits w 25 20, bits w 19 17⟩] }) s)

/-- NET_SET_TX_STREAM. -/
def execNetSetTxStream (k : Fin 32) (s : State) : Out := done (serve Op.NET_SET_TX_STREAM k netSetTxStream s)

/-- R376: an open decode session of the polder's, with timescale 1,000,000,000 and time base 0. -/
def rxSessionOk (s : State) (p k : Nat) : Bool :=
  match ses s k with
  | some v => sesPolder s k == p && !v.encode && v.word 6 == 1000000000 && v.word 7 == 0 && v.word 8 == 0
  | none => false

/-- NET_SET_RX_STREAM (R376, R384): the buffer's address at byte 8 of the payload, its size at 16, the stream's address at 20. -/
def netSetRxStream (q : Req) (s : State) : Answer :=
  match q.polder with
  | none => no ST_NOT_OWNER s
  | some p =>
    let w := refWord q s 0
    let x := refWord q s 1
    let n := bits w 15 0
    let k := bits w 21 16
    let base := readNat s (q.bufAddr + 8) 8 % 2 ^ 40
    let size := refWord q s 4
    let t := bits x 25 16
    let rest := s.net.rx.filter (fun r => r.stream != n)
    if n = 0 ∨ 1000 < t then no ST_BAD_ARG s
    else if s.net.rx.any (fun r => r.stream == n && r.polder != p) then no ST_ONL_STREAM s
    else if !bit w 22 then did (setNet (fun v => { v with rx := rest }) s)
    else if sesPolder s k ≠ p then no ST_NOT_OWNER s
    else if !rxSessionOk s p k ∨ size < 0x100000 ∨ 0x4000000 < size then no ST_BAD_ARG s
    else if !spanOwned s p [] (base, base + size - 1) then no ST_BAD_ADDR s
    else
      let r : RxStream := ⟨n, p, k, bits x 13 0, if t = 0 then 50 else t, base, size, refAddr q s 20, [], [], 0, 0, 0, 0⟩
      did (setNet (fun v => { v with rx := rest ++ [r] }) s)

/-- NET_SET_RX_STREAM. -/
def execNetSetRxStream (k : Fin 32) (s : State) : Out := done (serve Op.NET_SET_RX_STREAM k netSetRxStream s)

/-- NET_CLEAR_STREAM (R378). -/
def netClearStream (q : Req) (s : State) : Answer :=
  match rxStream s (bits (q.w 2) 15 0) with
  | some r =>
    if q.polder ≠ some r.polder then no ST_NOT_OWNER s
    else did (putRx { r with lateness := 0, pictures := 0, incomplete := 0, dropped := 0 } s)
  | none => did s

/-- NET_CLEAR_STREAM. -/
def execNetClearStream (k : Fin 32) (s : State) : Out := done (serve Op.NET_CLEAR_STREAM k netClearStream s)

/-- NET_SET_IDENTITY (R370): words device, system, VLAN and IPv4, then IPv6 and the system multicast address. -/
def netSetIdentity (q : Req) (s : State) : Answer :=
  let w := refWord q s
  let i : Identity := ⟨w 0, w 1, w 2, w 3, refAddr q s 16, refAddr q s 32⟩
  if 16383 < w 0 ∨ 65535 < w 1 ∨ 4094 < w 2 then no ST_BAD_ARG s
  else
    let s1 := if s.net.identity = some i then s else mgrClose s
    let s2 := s1 |> setNet (fun v => { v with identity := some i }) |> wr ONL_ID_device i.device |> wr ONL_ID_set 1 |> wr ONL_ID_system i.system
    did (if ownDevice s = i.device then s2 else wr ONL_STATUS_dup 0 s2)

/-- NET_SET_IDENTITY. -/
def execNetSetIdentity (k : Fin 32) (s : State) : Out := done (serve Op.NET_SET_IDENTITY k netSetIdentity s)

/-- Table ONL-1: the speeds of a port. -/
def portSpeedOk (p speed : Nat) : Bool :=
  if p < 2 then speed == 4 || speed == 5 else decide (p < 6) && decide (speed < 4)

/-- The network switch's bit of Table CRP-1. -/
def blkSwitch : Nat := 20

/-- R383: the network is claimed and a request from outside polder 0's secure world would stop the port that carries PTP. -/
def ptpProtected (q : Req) (stops : Bool) (s : State) : Bool := stops && claimed s blkSwitch && !q.fromSecure

/-- A request deferred under R88. -/
def deferred (q : Req) (s : State) : Answer :=
  ⟨ST_DEFERRED_SECURE, [], claimBlocked blkSwitch (Msg.master q.msg) (Msg.polder q.msg) s, id⟩

/-- NET_SET_PORT (R360, R383). The enable, speed and PHY delay take effect as the port starts, with its link down. -/
def netSetPort (q : Req) (s : State) : Answer :=
  let p := bits (q.w 2) 2 0
  let w := q.w 3
  let speed := bits w 3 1
  let restarts := bits w 0 0 != rd s (ONL_PORT_CFG_enable p).inForce || speed != rd s (ONL_PORT_CFG_speed p).inForce
  let carries := match bestMaster s with | some b => b.1 == p | none => false
  if !portSpeedOk p speed then no ST_ONL_PORT s
  else if ptpProtected q (carries && (restarts || !bit w 5)) s then deferred q s
  else
    let s1 := s |> wr (ONL_PORT_CFG_enable p) (bits w 0 0) |> wr (ONL_PORT_CFG_speed p) speed |> wr (ONL_PORT_CFG_macsec p) (bits w 4 4)
      |> wr (ONL_PORT_CFG_ptp p) (bits w 5 5) |> wr (ONL_PORT_CFG_phy_delay p) (bits w 31 16)
      |> takeEffect [ONL_PORT_CFG_enable p, ONL_PORT_CFG_speed p, ONL_PORT_CFG_phy_delay p]
    let s2 := if restarts && rdB s (ONL_PORT_STAT_up p) then linkChange p false 0 s1 else s1
    did (if bit w 5 then s2 else setMasters (s2.net.masters.put p none) s2)

/-- NET_SET_PORT. -/
def execNetSetPort (k : Fin 32) (s : State) : Out := done (serve Op.NET_SET_PORT k netSetPort s)

/-- NET_SET_PTP (R364, R367, R383). -/
def netSetPtp (q : Req) (s : State) : Answer :=
  let w := q.w 2
  let hold := bits w 27 16
  if hold < 1 ∨ 3600 < hold ∨ q.w 3 < 1000 ∨ 1000000000 < q.w 3 then no ST_BAD_ARG s
  else if ptpProtected q (bits w 1 0 == 0 && rd s ONL_PTP_CFG_mode != 0) s then deferred q s
  else
    let s1 := s |> wr ONL_PTP_CFG_mode (bits w 1 0) |> wr ONL_PTP_CFG_p2p (bits w 2 2) |> wr ONL_PTP_CFG_domain (bits w 15 8)
      |> wr ONL_PTP_CFG_holdover hold |> wr ONL_PTP_STEP_TH_ns (q.w 3)
    let keep := bits w 1 0 != 0 && bits w 15 8 == rd s ONL_PTP_CFG_domain
    did (setMasters (if keep then s1.net.masters else []) s1)

/-- NET_SET_PTP. -/
def execNetSetPtp (k : Fin 32) (s : State) : Out := done (serve Op.NET_SET_PTP k netSetPtp s)

/-- NET_SET_MACSEC (R362): port, association number and cipher suite (0 GCM-AES-256, 1 GCM-AES-XPN-256) in words 0 to 2, the SCI at byte 16,
the packet number at 24, the key at 32. -/
def netSetMacsec (q : Req) (s : State) : Answer :=
  let w := refWord q s
  if 5 < w 0 ∨ 3 < w 1 ∨ 1 < w 2 then no ST_BAD_ARG s
  else
    let sa : MacsecSa := ⟨w 0, readNat s (q.bufAddr + 16) 8, w 1, w 2, readBytes s (q.bufAddr + 32) 32, readNat s (q.bufAddr + 24) 8⟩
    did (setNet (fun v => { v with macsec := v.macsec.filter (fun x => !(x.port == sa.port && x.sci == sa.sci && x.an == sa.an)) ++ [sa] }) s)

/-- NET_SET_MACSEC. -/
def execNetSetMacsec (k : Fin 32) (s : State) : Out := done (serve Op.NET_SET_MACSEC k netSetMacsec s)

/-- NET_SET_QBV (R361): port, number of entries, start time at byte 8, cycle in ns at 16; from byte 24 each entry's gate states and interval
in two words. -/
def netSetQbv (q : Req) (s : State) : Answer :=
  let w := refWord q s
  let n := w 1
  if 5 < w 0 ∨ 256 < n ∨ n = 0 ∨ w 4 = 0 ∨ q.bufSize < 24 + 8 * n then no ST_BAD_ARG s
  else
    let g : GateList := ⟨readNat s (q.bufAddr + 8) 8, w 4, (List.range n).map (fun i => (w (6 + 2 * i) % 256, w (7 + 2 * i)))⟩
    did (setNet (fun v => { v with gatesNext := v.gatesNext.put (w 0) (some g) }) s)

/-- NET_SET_QBV. -/
def execNetSetQbv (k : Fin 32) (s : State) : Out := done (serve Op.NET_SET_QBV k netSetQbv s)

/-- R372: a SCHED from another owner for the group was heard within the last 5 s. -/
def foreignOwner (s : State) (g : Nat) : Bool :=
  s.net.heard.any (fun e => e.1 == g && e.2.1 != ownDevice s && decide (s.now < e.2.2 + 5000000000))

/-- A group's place emptied (R374). -/
def groupRemove (i : Nat) (s : State) : State :=
  s |> setNext i none |> wr (ONL_GRP_ID_group i) 0 |> wr (ONL_GRP_ID_valid i) 0 |> wr (ONL_GRP_ID_owner i) 0 |> wr (ONL_GRP_RATE_mhz i) 0
    |> wr (ONL_GRP_PHASE_ns i) 0 |> wr (ONL_GRP_LATENCY_us i) 0 |> wr (ONL_GRP_VERSION_version i) 0 |> wr (ONL_GRP_EFFECTIVE_time i) 0

/-- NET_SET_GROUP (R372, R374, R384). Without owner the schedule is this device's alone, and no SCHED is sent for it. -/
def netSetGroup (q : Req) (s : State) : Answer :=
  let g := bits (q.w 2) 15 0
  let own := bit (q.w 2) 16
  let rate := q.w 3
  let effective := q.w 6 + 4294967296 * q.w 7
  if bit (q.w 2) 17 then
    (match groupPlace s g with
     | some i => did (if (schedOf s i).isSome then groupRemove i s else s)
     | none => did s)
  else if rate < 1000 ∨ 240000 < rate ∨ 1000000000000 ≤ q.w 4 * rate ∨ 10000000 < q.w 5 then no ST_BAD_ARG s
  else if (own && foreignOwner s g) ∨ effective < s.devTime + 100000000 then no ST_ONL_SCHEDULE s
  else match groupPlace s g with
    | none => no ST_ONL_SCHEDULE s
    | some i =>
      let x : Sched := ⟨g, rate, q.w 4, q.w 5, effective, (versionOf s i + 1) % 2 ^ 32⟩
      did (schedSend i (setNext i (some (x, own)) s))

/-- NET_SET_GROUP. -/
def execNetSetGroup (k : Fin 32) (s : State) : Out := done (serve Op.NET_SET_GROUP k netSetGroup s)

/-- NET_SET_EXPORT (R381): port and severity in word 0, the address at byte 4; an address of 0 is no destination. -/
def netSetExport (q : Req) (s : State) : Answer :=
  let w := refWord q s 0
  if s.net.identity.isNone then no ST_ONL_NO_ADDR s
  else
    let a := refAddr q s 4
    did (setNet (fun v => { v with exportTo := if a = 0 then none else some (a, bits w 15 0, bits w 19 16) }) s)

/-- NET_SET_EXPORT. -/
def execNetSetExport (k : Fin 32) (s : State) : Out := done (serve Op.NET_SET_EXPORT k netSetExport s)

/-- NET_SET_MGR_KEY (R379): a session that is up is closed. -/
def netSetMgrKey (q : Req) (s : State) : Answer :=
  did (setNet (fun v => { v with mgrKey := (List.range 8).flatMap (fun i => leBytes 4 (q.w (2 + i))) }) (mgrClose s))

/-- NET_SET_MGR_KEY. -/
def execNetSetMgrKey (k : Fin 32) (s : State) : Out := done (serve Op.NET_SET_MGR_KEY k netSetMgrKey s)

/-- R384: a resetting polder's stream bindings are removed. -/
def netReset (p : Nat) (s : State) : State :=
  setNet (fun v => { v with tx := v.tx.filter (fun t => t.polder != p), rx := v.rx.filter (fun r => r.polder != p) }) s

end Sys2Proof.Machine
end

