-- ==== Sys2Proof/Machine/Panel.lean ====
section
/-! DEFINITION. What a touch frame's samples say, as arithmetic on a panel: decoding (R339), clusters and peaks (R342), positions (R344),
matching (R343), sliders (R352), and the time a frame takes (R338). Nodes are numbered TX × 64 + RX. -/
namespace Sys2Proof.Machine

/-- A node's number, TX and RX line. -/
def nodeAt (i j : Nat) : Nat := 64 * i + j
def nodeTx (n : Nat) : Nat := n / 64
def nodeRx (n : Nat) : Nat := n % 64

/-- The nodes of a panel of `tx` by `rx` lines, in TX-major order. -/
def panelNodes (tx rx : Nat) : List Nat := (List.range tx).flatMap (fun i => (List.range rx).map (nodeAt i))

/-- R339: the polarity of line `i` in step `j`. -/
def walsh (j i : Nat) : Int := if popCount 6 (i &&& j) % 2 = 0 then 1 else -1

/-- R339: the decoded value of TX line `i` of group `g` on RX line `r`, from the step samples of a frame at code length `L`. -/
def decodeRaw (L : Nat) (steps : List (List Int)) (g i r : Nat) : Int :=
  let s := ((List.range L).map (fun j => walsh j i * (steps.getD (g * L + j) []).getD r 0)).sum
  satI 16 ((s + (L / 2 : Nat)) / (L : Int))

/-- The 4-connected neighbours of a node within a set. -/
def neighboursIn (set : List Nat) (n : Nat) : List Nat :=
  set.filter (fun m => (nodeTx m == nodeTx n && (nodeRx m == nodeRx n + 1 || nodeRx n == nodeRx m + 1)) ||
    (nodeRx m == nodeRx n && (nodeTx m == nodeTx n + 1 || nodeTx n == nodeTx m + 1)))

/-- The nodes of a set connected with those of `found`. -/
def floodFill : Nat → List Nat → List Nat → List Nat
  | 0, _, found => found
  | k + 1, set, found =>
    let more := (found.flatMap (neighboursIn set)).filter (fun m => !found.contains m) |>.dedup
    if more.isEmpty then found else floodFill k set (found ++ more)

/-- R342: the clusters of a set, in the order of their first nodes. -/
def clusters : Nat → List Nat → List (List Nat)
  | 0, _ => []
  | _, [] => []
  | k + 1, n :: t =>
    let c := floodFill (t.length + 1) (n :: t) [n]
    c :: clusters k (t.filter (fun m => !c.contains m))

/-- R342: the node of a cluster with the largest value, the lower TX and then the lower RX winning ties. -/
def peakOf (val : Nat → Int) : List Nat → Nat
  | [] => 0
  | [n] => n
  | n :: t => let m := peakOf val t; if val m < val n ∨ (val m = val n ∧ n < m) then n else m

/-- A quotient rounded to the nearest integer, halves away from zero (R344). -/
def roundDiv (a : Int) (b : Nat) : Int := if b = 0 then 0 else if 0 ≤ a then (2 * a + b) / (2 * b) else -((-2 * a + b) / (2 * b))

/-- R344: a position along one axis, in 1/64 of the pitch, from the peak's index and the sums on both sides of it. -/
def axisPos (k : Nat) (wm w0 wp : Int) : Int := 64 * k + roundDiv (64 * (wp - wm)) (wm + w0 + wp).toNat

/-- R344: the panel position of a peak, where `val` gives a node's delta by TX and RX, and 0 off the panel. -/
def panelPos (val : Int → Int → Int) (i j : Nat) : Int × Int :=
  let c (a b : Int) : Int := max 0 (val a b)
  let col (a : Int) : Int := c a (j - 1) + c a j + c a (j + 1)
  let row (b : Int) : Int := c (i - 1) b + c i b + c (i + 1) b
  (axisPos i (col (i - 1)) (col i) (col (i + 1)), axisPos j (row (j - 1)) (row j) (row (j + 1)))

/-- The square of the distance of two nodes. -/
def dist2 (a b : Nat) : Nat := ((nodeTx a : Int) - nodeTx b).natAbs ^ 2 + ((nodeRx a : Int) - nodeRx b).natAbs ^ 2

/-- The closest pair of an old and a new peak within 4 nodes of each other, the first in order winning ties. -/
def closest (olds news : List Nat) : Option (Nat × Nat) :=
  let pairs := olds.flatMap (fun a => news.map (fun b => (a, b)))
  let near := pairs.filter (fun p => decide (dist2 p.1 p.2 ≤ 16))
  near.foldl (fun best p => match best with
    | some q => if dist2 p.1 p.2 < dist2 q.1 q.2 then some p else some q
    | none => some p) none

/-- R343: old and new peaks matched by nearest peak. -/
def matchPeaks : Nat → List Nat → List Nat → List (Nat × Nat)
  | 0, _, _ => []
  | k + 1, olds, news =>
    match closest olds news with
    | some (a, b) => (a, b) :: matchPeaks k (olds.erase a) (news.erase b)
    | none => []

/-- R352: a slider's position from its electrodes' deltas, where it is active. -/
def sliderPos (wheel : Bool) (threshold : Int) (d : List Int) : Option Nat :=
  let n := d.length
  let k := peakOf (fun i => d.getD i 0) (List.range n)
  if n < 2 ∨ d.getD k 0 < threshold then none
  else
    let e (i : Nat) : Int := max 0 (d.getD i 0)
    let before := if k = 0 then (if wheel then e (n - 1) else 0) else e (k - 1)
    let after_ := if k + 1 = n then (if wheel then e 0 else 0) else e (k + 1)
    let c := 64 * (k : Int) + roundDiv (64 * (after_ - before)) (before + e k + after_).toNat
    if wheel then some (roundDiv (c * 65536) (64 * n) % 65536).toNat
    else some (max 0 (min 65535 (roundDiv (c * 65535) (64 * (n - 1))))).toNat

/-! ## The frame's time (R338) -/

/-- A common multiple of frequencies. -/
def freqProd (fs : List Nat) : Nat := (fs.map (max 1)).foldl (· * ·) 1

/-- The time of a touch frame, as a number of microseconds times `freqProd fs`: `steps` measurement steps at frequency `f` in kHz, one
listen-only step at each of `fs`, and processing. -/
def frameTime (fs : List Nat) (f steps cycles : Nat) : Nat :=
  let d := freqProd fs
  let step (g : Nat) : Nat := cycles * 1000 * d / max 1 g + 2 * d
  steps * step f + (fs.map step).sum + 250 * d

/-- R338: a frame fits its rate, and with doubled cycles at the slowest frequency half its rate. -/
def frameFits (fs : List Nat) (f steps cycles rate : Nat) : Bool :=
  let d := freqProd fs
  let slow := fs.foldl min (fs.headD 1)
  decide (frameTime fs f steps cycles * rate ≤ 1000000 * d) && decide (frameTime fs slow steps (2 * cycles) * rate ≤ 2000000 * d)

end Sys2Proof.Machine
end

