-- ==== Sys2Proof/Machine/Touch.lean ====
section
/-! DEFINITION. The touch channels (spec/13_touch.md): frames, contacts and where they go, queues, noise, the start from a snapshot, and
their commands. -/
namespace Sys2Proof.Machine

/-- A touch channel. -/
def tch (s : State) (c : Nat) : TchCh := Tab.get TchCh.empty s.tch.ch c
def setTch (c : Nat) (v : TchCh) (s : State) : State := { s with tch := { s.tch with ch := s.tch.ch.put c v } }

/-- The panel and scan in force (R338). -/
def tchTx (s : State) (c : Nat) : Nat := rd s (TCH_CTRL_tx c).inForce
def tchRx (s : State) (c : Nat) : Nat := rd s (TCH_CTRL_rx c).inForce
def tchNodes (s : State) (c : Nat) : List Nat := panelNodes (tchTx s c) (tchRx s c)
def codeLength (s : State) (c : Nat) : Nat := if rdB s (TCH_CTRL_code16 c).inForce then 16 else 32
def tchGroups (s : State) (c : Nat) : Nat := ceilDiv (tchTx s c) (codeLength s c)
def tchFreqs (s : State) (c : Nat) : List Nat := (List.range 8).map (fun k => rd s (TCH_FREQ_khz c k).inForce)
def highNoise (s : State) (c : Nat) : Bool := rdB s (TCH_STAT_high_noise c)

/-- Integration cycles and thresholds, doubled in high-noise mode (R351). -/
def doubled (s : State) (c v : Nat) : Nat := if highNoise s c then 2 * v else v
def tchCycles (s : State) (c : Nat) : Nat := doubled s c (rd s (TCH_SCAN_cycles c).inForce)
def touchTh (s : State) (c : Nat) : Int := (doubled s c (rd s (TCH_THRESH_touch_th c)) : Nat)
def relTh (s : State) (c : Nat) : Int := (doubled s c (rd s (TCH_THRESH_rel_th c)) : Nat)

/-- TCH_STAT.state. -/
def tchState (s : State) (c : Nat) : Nat := rd s (TCH_STAT_state c)

/-- R357: the device is in QUIET or on its way out. -/
def tchQuiet (s : State) : Bool := rd s CRP_STATUS_power_state == 1 || rd s CRP_STATUS_power_state == 3

/-! ## Queues (R348) -/

/-- The records of a queue, and where one lies. -/
def queueSize (s : State) (p c : Nat) : Nat := 2 ^ (rd s (TCH_Q_CFG_size p c).inForce + 6)
def queueSlot (s : State) (p c i : Nat) : Nat := rdA s (TCH_Q_BASE_addr p c).inForce + 16 * i

/-- A queue with room for another record. -/
def queueRoom (s : State) (p c : Nat) : Bool :=
  (rd s (TCH_Q_WR_index p c) + 1) % queueSize s p c != rd s (TCH_Q_RD_index p c) % queueSize s p c

/-- A record written at a queue's next place. A queue whose memory is refused stops (R107). -/
def queueWrite (p c : Nat) (ws : List Nat) (s : State) : State :=
  let i := rd s (TCH_Q_WR_index p c) % queueSize s p c
  match devWrite ⟨masterTch, p⟩ (queueSlot s p c i) (wordsBytes ws) s with
  | (0, s1) => wr (TCH_Q_WR_index p c) ((i + 1) % queueSize s p c) s1
  | (why, s1) => polFault p 192 c why (wr (TCH_Q_CFG_enable p c) 0 s1)

/-- The number of a queue among all. -/
def queueKey (p c : Nat) : Nat := 2 * p + c

/-- A type 6 record. -/
def gapRecord (c lost : Nat) : List Nat := [6 + 65536 * c, lost % 65536, 0, 0]

/-- The records of a frame for one queue. Answers how many were written, the gap record not counted. -/
def queueRecords (p c : Nat) (recs : List (List Nat)) (s : State) : Nat × State :=
  if !rdB s (TCH_Q_CFG_enable p c) then (0, s)
  else
    let gap := Tab.get 0 s.tch.gap (queueKey p c)
    let s1 := if gap ≠ 0 ∧ queueRoom s p c = true then
        queueWrite p c (gapRecord c gap) { s with tch := { s.tch with gap := s.tch.gap.put (queueKey p c) 0 } }
      else s
    let blocked := decide (Tab.get 0 s1.tch.gap (queueKey p c) ≠ 0)
    let (n, s2) := recs.foldl (fun (acc : Nat × State) r =>
      if acc.1 < recs.length ∧ blocked = false ∧ queueRoom acc.2 p c = true ∧ rdB acc.2 (TCH_Q_CFG_enable p c) = true ∧
          Tab.get 0 acc.2.tch.gap (queueKey p c) = 0 then
        (acc.1 + 1, queueWrite p c r acc.2)
      else if rdB acc.2 (TCH_Q_CFG_enable p c) then
        (acc.1, { (incSat (TCH_Q_STAT_lost p c) 1 acc.2) with
          tch := { acc.2.tch with gap := acc.2.tch.gap.put (queueKey p c) (Tab.get 0 acc.2.tch.gap (queueKey p c) + 1) } })
      else acc) (0, s1)
    let s3 := if n < recs.length ∧ rdB s2 (TCH_Q_CFG_enable p c) = true then
        record0 Src.TCH_QUEUE_OVERFLOW (some p) [c, rd s2 (TCH_Q_STAT_lost p c)] s2 else s2
    (n, if rdB s3 (TCH_Q_CFG_irq p c) && decide (n ≠ 0) then raiseLine p (56 + c) s3 else s3)

/-- A write of a queue's CFG: enabling it applies R167 to the whole ring. -/
def queueCfg (p c v : Nat) (s : State) : State :=
  let was := rdB s (TCH_Q_CFG_enable p c)
  let s1 := wr (TCH_Q_CFG_irq p c) (bits v 1 1) s
  let s2 := if bits v 7 4 ≤ 10 then wr (TCH_Q_CFG_size p c) (bits v 7 4) s1 else s1
  if !bit v 0 then wr (TCH_Q_CFG_enable p c) 0 s2
  else if was then s2
  else if mediaOwned s2 p (rdA s2 (TCH_Q_BASE_addr p c)) (16 * 2 ^ (rd s2 (TCH_Q_CFG_size p c) + 6)) then
    s2 |> takeEffect [TCH_Q_BASE_addr p c, TCH_Q_CFG_size p c] |> wr (TCH_Q_CFG_enable p c) 1 |> wr (TCH_Q_STAT_bad_addr p c) 0
  else wr (TCH_Q_STAT_bad_addr p c) 1 s2

/-- The channel of a window register at an offset of a doorbell page. -/
def queueAt (off reg : Nat) : Option Nat := if off = 0x5000 + reg then some 0 else if off = 0x5040 + reg then some 1 else none

/-- A write of a queue's CFG, of a polder that holds the queue; another's is discarded and recorded. -/
def queueCfgWrite (p c addr v : Nat) (k : Carried) (s : State) : State :=
  if !holdsTouch s p c then violateAt k 2 addr v s
  else queueCfg p c v (if 10 < bits v 7 4 then violateAt k 4 addr v s else s)

/-- TCH_QUEUE_ENABLE (R348): a write of TCH_Qc_CFG that enables the queue. -/
def execTchQueueEnable (a : Access) (addr : BitVec 40) (v : BitVec 32) (s : State) : Out :=
  let off := pageOff addr.toNat
  let c := (queueAt off 8).getD 0
  regWrite a addr.toNat v.toNat
    (isPage addr.toNat && (queueAt off 8).isSome && bit v.toNat 0 && !rdB s (TCH_Q_CFG_enable (pageOf addr.toNat) c))
    (fun k => queueCfgWrite (pageOf addr.toNat) c addr.toNat v.toNat k) s

/-! ## Where a contact goes (R345, R346) -/

/-- R344: an output coordinate in quarter pixels, clamped to the active area. -/
def mapPos (s : State) (c row : Nat) (u v : Int) (size : Nat) : Nat :=
  let m (i : Nat) : Int := rdI s (TCH_MAP_m c (3 * row + i))
  (max 0 (min ((4 * size - 1 : Nat) : Int) ((m 0 * u + m 1 * v + m 2 + 32768) / 65536))).toNat

/-- The frame on the glass of a channel's output; nothing where the output is off. -/
def glass (s : State) (c : Nat) : List (Option Nat × Nat × Nat × Nat × Nat) :=
  let n := rd s (TCH_CTRL_output c)
  if running s n then (out s n).geo else []

/-- The topmost part of a frame's geometry at a pixel. -/
def glassAt (g : List (Option Nat × Nat × Nat × Nat × Nat)) (x y : Nat) : Option (Option Nat) :=
  (g.find? (fun e => match e with
    | (_, x0, y0, x1, y1) => decide (x0 ≤ x) && decide (x < x1) && decide (y0 ≤ y) && decide (y < y1))).map (·.1)

/-- A position lies in a supervised region in force. -/
def inRegion (s : State) (c qx qy : Nat) : Bool := glassAt (glass s c) (qx / 4) (qy / 4) == some none

/-- R345: the owner of a contact that goes down at a position. -/
def ownerAt (s : State) (c qx qy : Nat) : Nat :=
  match glassAt (glass s c) (qx / 4) (qy / 4) with
  | some (some m) => if holdsTouch s (slotOwner s m) c then slotOwner s m else 0
  | _ => 0

/-! ## Records (Table TCH-2) -/

/-- What a report says: for whom, the record, and the edge at a pixel that click rules see (false for down). -/
structure TchReport where
  polder : Nat
  words : List Nat
  edge : Option (Bool × Nat × Nat)

/-- The flags of a contact's record. -/
def contactRecord (c frame : Nat) (k : TchContact) (down up cancel sup held : Bool) : List Nat :=
  [1 + 16 * k.id + 512 * b2n down + 1024 * b2n up + 2048 * b2n cancel + 4096 * b2n sup + 8192 * b2n held + 65536 * c,
   k.qx % 65536 + 65536 * (k.qy % 65536), unsgn 16 k.u + 65536 * unsgn 16 k.v,
   unsgn 16 k.delta + 65536 * (k.nodes.length % 256) + 16777216 * (frame % 256)]

/-- A contact's report in a frame, with the contact after it: its first or its last, or one that takes it from its owner (R346). -/
def contactReport (s : State) (c frame : Nat) (k : TchContact) (up : Bool) : List TchReport × TchContact :=
  let sup := inRegion s c k.qx k.qy
  let down := !k.shown
  let pix (e : Bool) : Option (Bool × Nat × Nat) := some (e, k.qx / 4, k.qy / 4)
  let k1 := { k with shown := true }
  if k.silent then ([], k1)
  else if k.owner ≠ 0 ∧ sup ∧ !down then
    ([⟨k.owner, contactRecord c frame k false true true sup false, none⟩, ⟨0, contactRecord c frame k true up false sup false, pix false⟩] ++
      (if up then [⟨0, [], pix true⟩] else []),
     { k1 with owner := 0 })
  else ([⟨k.owner, contactRecord c frame k down up false sup false, if down then pix false else if up then pix true else none⟩], k1)

/-- Reports delivered: each polder's records, in order, then the end of the frame; answers the edges that reached each polder. -/
def deliverReports (c : Nat) (frameEnd : List Nat) (rs : List TchReport) (s : State) : List (Nat × Bool × Nat × Nat) × State :=
  (rs.map (·.polder)).dedup.foldl (fun acc p =>
    let mine := (rs.filter (fun r => r.polder == p && !r.words.isEmpty)).map (·.words)
    match queueRecords p c (mine ++ [frameEnd]) acc.2 with
    | (n, s1) =>
      let reached := ((rs.filter (fun r => r.polder == p && !r.words.isEmpty)).take n) ++ (if n = 0 then [] else rs.filter (fun r => r.polder == p && r.words.isEmpty))
      (acc.1 ++ reached.filterMap (fun r => r.edge.map (fun e => (p, e))), s1)) ([], s)

/-! ## Click rules (R353) -/

/-- The place of a click rule. -/
def clickKey (c p i : Nat) : Nat := (c * 32 + p) * 16 + i

/-- The rule at a place. -/
def clickRule (s : State) (c p i : Nat) : Option TchClick := Tab.get none s.tch.clicks (clickKey c p i)

/-- The rules that a frame's edges fire, in increasing rule order. -/
def firedRules (s : State) (c : Nat) (es : List (Nat × Bool × Nat × Nat)) : List (Nat × TchClick) :=
  (List.range 16).flatMap (fun i => (List.range 32).flatMap (fun p =>
    match clickRule s c p i with
    | some k =>
      if es.any (fun e => e.1 == p && e.2.1 == k.up && decide (k.x ≤ e.2.2.1) && decide (e.2.2.1 < k.x + k.w) && decide (k.y ≤ e.2.2.2) &&
          decide (e.2.2.2 < k.y + k.h)) then [(p, k)] else []
    | none => []))

/-- R353: the rules of a frame fire. -/
def clickAll (c : Nat) (es : List (Nat × Bool × Nat × Nat)) (s : State) : State :=
  (firedRules s c es).foldl (fun s e => if hapHolder s e.2.haptic = e.1 then hapTrigger e.1 e.2.haptic e.2.effect s else s) s

/-! ## Baselines (R341, R342) -/

/-- TCH_REBASELINE recorded; what concerns polder 0 is secure (R347). -/
def rebaseRecord (c reason owner : Nat) (s : State) : State :=
  if owner = 0 then recordSecure Src.TCH_REBASELINE (some 0) [c, reason] s else record0 Src.TCH_REBASELINE (some owner) [c, reason] s

/-- Nodes re-baselined to raw. -/
def rebaseNodes (ns : List Nat) (v : TchCh) : TchCh :=
  { v with base := ns.foldl (fun t n => t.put n (Tab.get 0 v.raw n)) v.base, delta := ns.foldl (fun t n => t.put n 0) v.delta }

/-- The nodes of a set and those within one node of them. -/
def around (nodes set : List Nat) : List Nat :=
  nodes.filter (fun n => set.any (fun m => decide (((nodeTx m : Int) - nodeTx n).natAbs ≤ 1) && decide (((nodeRx m : Int) - nodeRx n).natAbs ≤ 1)))

/-- The nodes of sliders. -/
def sliderNodes (v : TchCh) : List Nat := v.sliders.flatMap (fun e => match e.2 with | some l => l.nodes | none => [])

/-- R341: the tracked nodes' baselines move one count toward raw, once every track_div frames. -/
def trackBase (s : State) (c : Nat) (v : TchCh) : TchCh :=
  if v.diag then v
  else
    let n := v.track + 1
    if n < rd s (TCH_SCAN_track_div c) then { v with track := n }
    else
      let nodes := tchNodes s c
      let busy := around nodes (v.contacts.flatMap (·.nodes)) ++ v.suspects.flatMap (·.nodes) ++ sliderNodes v
      let tracked := nodes.filter (fun n => !busy.contains n && decide ((Tab.get 0 v.delta n).natAbs < (relTh s c).toNat))
      { v with track := 0, base := tracked.foldl (fun t n =>
          let b := Tab.get 0 v.base n
          let r := Tab.get 0 v.raw n
          t.put n (if b < r then b + 1 else if r < b then b - 1 else b)) v.base }

/-! ## A frame -/

/-- R339, R340: raw values from the step samples; columns that saturated keep their values. -/
def decodeFrame (s : State) (c : Nat) (steps : List (List Int)) (sat : List (Nat × Nat)) (v : TchCh) : Tab Int :=
  let L := codeLength s c
  (tchNodes s c).foldl (fun t n =>
    let g := nodeTx n / L
    if sat.contains (g, nodeRx n) then t else t.put n (decodeRaw L steps g (nodeTx n % L) (nodeRx n))) v.raw

/-- Deltas (R341). -/
def deltas (s : State) (c : Nat) (v : TchCh) : TchCh :=
  { v with delta := (tchNodes s c).foldl (fun t n => t.put n (Tab.get 0 v.base n - Tab.get 0 v.raw n)) [] }

/-- A node's delta by TX and RX, 0 off the panel. -/
def deltaAt (s : State) (c : Nat) (v : TchCh) (i j : Int) : Int :=
  if i < 0 ∨ j < 0 ∨ (tchTx s c : Int) ≤ i ∨ (tchRx s c : Int) ≤ j then 0 else Tab.get 0 v.delta (nodeAt i.toNat j.toNat)

/-- The clusters at or above a threshold, of one sign (R342). Slider nodes form none (R352). -/
def clustersAt (s : State) (c : Nat) (v : TchCh) (neg : Bool) : List (List Nat) :=
  let th := touchTh s c
  let nodes := (tchNodes s c).filter (fun n => !(sliderNodes v).contains n &&
    decide (th ≤ (if neg then -(Tab.get 0 v.delta n) else Tab.get 0 v.delta n)))
  clusters nodes.length nodes

/-- R342: a touch-shaped cluster. -/
def touchShaped (s : State) (c : Nat) (k : List Nat) : Bool := decide (k.length ≤ rd s (TCH_SCAN_max_size c))

/-- A contact at a cluster's peak: its positions and strength, everything else kept. -/
def placeContact (s : State) (c : Nat) (v : TchCh) (k : TchContact) (nodes : List Nat) : TchContact :=
  let pk := peakOf (Tab.get 0 v.delta) nodes
  let (u, w) := panelPos (deltaAt s c v) (nodeTx pk) (nodeRx pk)
  let n := rd s (TCH_CTRL_output c)
  { k with peak := (nodeTx pk, nodeRx pk), nodes := nodes, delta := Tab.get 0 v.delta pk, u := u, v := w,
           qx := mapPos s c 0 u w (hActive s n), qy := mapPos s c 1 u w (vActive s n) }

/-- A contact not yet reported. -/
def newContact (now : Nat) : TchContact :=
  { id := 20, peak := (0, 0), nodes := [], delta := 0, u := 0, v := 0, qx := 0, qy := 0, owner := 0, silent := false, shown := false,
    start := now, long := false }

/-- The node number of a contact's peak. -/
def peakNode (k : TchContact) : Nat := nodeAt k.peak.1 k.peak.2

/-- R342: each touch-shaped negative cluster lifted: its nodes and their neighbours re-baselined, and recorded. -/
def liftClusters (s0 : State) (c : Nat) (v0 : TchCh) : TchCh × State :=
  ((clustersAt s0 c v0 true).filter (touchShaped s0 c)).foldl (fun acc k =>
    let pk := peakOf (fun n => -(Tab.get 0 v0.delta n)) k
    let n := rd s0 (TCH_CTRL_output c)
    let pos := panelPos (fun i j => -(deltaAt s0 c v0 i j)) (nodeTx pk) (nodeRx pk)
    let own := ownerAt s0 c (mapPos s0 c 0 pos.1 pos.2 (hActive s0 n)) (mapPos s0 c 1 pos.1 pos.2 (vActive s0 n))
    (rebaseNodes (around (tchNodes s0 c) k) acc.1, rebaseRecord c 1 own acc.2)) (v0, s0)

/-- R354: the clusters of a starting frame, and those held suspect: a suspect that stays within a quarter of its first peak for confirm
frames is let go as a cluster; one that does not, and any cluster too large, is re-baselined. Answers the clusters that may be contacts. -/
def suspectStep (c : Nat) (starting : Bool) (ks : List (List Nat)) (v0 : TchCh) (s0 : State) : List (List Nat) × TchCh × State :=
  let val := Tab.get 0 v0.delta
  let peaks := ks.map (peakOf val)
  let pairs := matchPeaks 400 (v0.suspects.map (fun x => nodeAt x.peak.1 x.peak.2)) peaks
  let confirm := rd s0 (TCH_SCAN_confirm c)
  let clusterOf (n : Nat) : List Nat := (ks.find? (fun k => peakOf val k == n)).getD []
  let drop (x : List Nat) (acc : TchCh × State) : TchCh × State := (rebaseNodes x acc.1, rebaseRecord c 2 0 acc.2)
  let stepS (acc : List (List Nat) × List TchSuspect × TchCh × State) (x : TchSuspect) : List (List Nat) × List TchSuspect × TchCh × State :=
    match acc with
    | (go, keep, v, s) =>
      match pairs.find? (fun q => q.1 == nodeAt x.peak.1 x.peak.2) with
      | some (_, n) =>
        let k := clusterOf n
        if touchShaped s c k && decide (4 * (val n - x.first).natAbs ≤ x.first.natAbs) then
          let y : TchSuspect := ⟨(nodeTx n, nodeRx n), k, x.first, x.frames + 1⟩
          if confirm ≤ y.frames then (k :: go, keep, v, s) else (go, keep ++ [y], v, s)
        else match drop k (v, s) with | (v1, s1) => (go, keep, v1, s1)
      | none => match drop x.nodes (v, s) with | (v1, s1) => (go, keep, v1, s1)
  match v0.suspects.foldl stepS ([], [], v0, s0) with
  | (go, keep, v1, s1) =>
    let fresh := ks.filter (fun k => !(pairs.map (·.2)).contains (peakOf val k))
    if starting then
      let (small, large) := (fresh.filter (touchShaped s1 c), fresh.filter (fun k => !touchShaped s1 c k))
      let new : List TchSuspect := small.map (fun k => ⟨(nodeTx (peakOf val k), nodeRx (peakOf val k)), k, val (peakOf val k), 1⟩)
      match large.foldl (fun acc k => drop k acc) (v1, s1) with
      | (v2, s2) => (go, { v2 with suspects := keep ++ new }, s2)
    else (go ++ fresh, { v1 with suspects := keep }, s1)

/-- R343: contacts after a frame: those matched to clusters, those whose peak has not fallen below rel_th, new ones with the lowest free
IDs, and those that end. Answers (going on, ended, how many had no place). -/
def contactStep (s : State) (c : Nat) (ks : List (List Nat)) (v : TchCh) : List TchContact × List TchContact × Nat :=
  let val := Tab.get 0 v.delta
  let pairs := matchPeaks 400 (v.contacts.map peakNode) (ks.map (peakOf val))
  let clusterOf (n : Nat) : List Nat := (ks.find? (fun k => peakOf val k == n)).getD []
  let next (k : TchContact) : TchContact × Bool :=
    match pairs.find? (fun q => q.1 == peakNode k) with
    | some (_, n) => (placeContact s c v k (clusterOf n), true)
    | none =>
      let near := (around (tchNodes s c) k.nodes).filter (fun n => decide (relTh s c ≤ val n) && !ks.any (fun q => q.contains n))
      if near.isEmpty then (k, false) else (placeContact s c v k near, true)
  let olds := v.contacts.map next
  let live := (olds.filter (·.2)).map (·.1)
  let ended := (olds.filter (fun e => !e.2)).map (·.1)
  let fresh := (ks.filter (fun k => !(pairs.map (·.2)).contains (peakOf val k))).map (placeContact s c v (newContact s.now))
  let all := (live ++ fresh).mergeSort (fun a b => decide (b.delta ≤ a.delta))
  let shown := all.take 20
  let ids := (shown.filter (·.shown)).map (·.id)
  let free := (List.range 20).filter (fun i => !ids.contains i)
  let named := (shown.foldl (fun (acc : List TchContact × List Nat) k =>
    if k.shown then (acc.1 ++ [k], acc.2)
    else (acc.1 ++ [{ k with id := acc.2.headD 0, owner := ownerAt s c k.qx k.qy }], acc.2.tail)) ([], free)).1
  (named, ended, all.length - 20)

/-- R352: sliders after a frame, with their reports. -/
def sliderStep (c frame : Nat) (v : TchCh) : Tab (Option TchSlider) × List TchReport :=
  let step (e : Nat × Option TchSlider) : (Nat × Option TchSlider) × List TchReport :=
    match e.2 with
    | none => (e, [])
    | some l =>
      let d := l.nodes.map (Tab.get 0 v.delta)
      let pos := sliderPos l.wheel l.threshold d
      let word (q : Nat) (down up : Bool) : List Nat :=
        [2 + 16 * e.1 + 512 * b2n down + 1024 * b2n up + 16384 * b2n l.wheel + 65536 * c, q, 0,
         unsgn 16 (d.foldl max 0) + 65536 * ((d.filter (fun x => decide (l.threshold ≤ x))).length % 256) + 16777216 * (frame % 256)]
      let recs : List (List Nat) := match l.pos, pos with
        | none, some q => [word q true false]
        | some _, some q => [word q false false]
        | some q, none => [word q false true]
        | none, none => []
      ((e.1, some { l with pos := pos }), match l.polder with | some p => recs.map (fun r => ⟨p, r, none⟩) | none => [])
  let r := v.sliders.map step
  (r.map (·.1), r.flatMap (·.2))

/-- R349: the noise levels after a frame. -/
def noiseStep (c : Nat) (listen : List (List Int)) (s : State) : State :=
  (List.range 8).foldl (fun s k =>
    let noise : Nat := ((listen.getD k []).map Int.natAbs).foldl max 0
    let n : Int := (rd s (TCH_NLEV_level c k) : Nat)
    wr (TCH_NLEV_level c k) (n + ((noise : Int) - n) / 8).toNat s) s

/-- The frequency of the lowest level, lower numbers winning ties. -/
def quietest (s : State) (c : Nat) : Nat :=
  (List.range 8).foldl (fun b k => if rd s (TCH_NLEV_level c k) < rd s (TCH_NLEV_level c b) then k else b) 0

/-- A hop to a frequency (R350): taken up with the next frame. -/
def hopTo (c k : Nat) (s : State) : State :=
  s |> wr (TCH_STAT_freq c) k |> incSat (TCH_COUNTS_hops c) 1 |> setTch c { tch s c with hopped := true } |> record0 Src.TCH_HOP none [c, k]

/-- High-noise mode entered or left (R351). -/
def noiseMode (c : Nat) (on : Bool) (s : State) : State :=
  s |> wrB (TCH_STAT_high_noise c) on |> record0 Src.TCH_NOISE_MODE none [c, b2n on] |> notifyWardenAnd0 Op.TCH_NOISE [c + 2 * b2n on]

/-- R350, R351 at the end of a frame. -/
def noiseEnd (c : Nat) (s : State) : State :=
  let th := rd s (TCH_NOISECFG_noise_th c)
  let hyst := rd s (TCH_NOISECFG_hyst c)
  let lev (k : Nat) : Nat := rd s (TCH_NLEV_level c k)
  let best := quietest s c
  let cur := rd s (TCH_STAT_freq c)
  let calm := if lev best + hyst < th then (tch s c).calm + 1 else 0
  if highNoise s c ∧ 32 ≤ calm then
    let s1 := noiseMode c false (setTch c { tch s c with calm := 0 } s)
    if best = cur then s1 else hopTo c best s1
  else
    let s1 := setTch c { tch s c with calm := if highNoise s c then calm else 0 } s
    let s2 := if !highNoise s c && (List.range 8).all (fun k => decide (th < lev k)) then noiseMode c true s1 else s1
    if th < lev cur ∧ lev best + hyst < lev cur then hopTo c best s2 else s2

/-- TCH_STAT's counts brought up to date. -/
def tchStat (c : Nat) (s : State) : State :=
  s |> wr (TCH_STAT_contacts c) ((tch s c).contacts.length % 32) |> wr (TCH_STAT_suspect c) ((tch s c).suspects.length % 32)

/-- A contact's row for a type 4 or 5 record. -/
def eventRecord (c type frame : Nat) (k : TchContact) (up : Bool) : List Nat :=
  [type + 16 * k.id + 1024 * b2n up + 65536 * c, 0, 0, unsgn 16 k.delta + 65536 * (k.nodes.length % 256) + 16777216 * (frame % 256)]

/-- Contacts, sliders and reports of a frame that is neither starting nor a wake scan. -/
def reportFrame (c : Nat) (ks : List (List Nat)) (frameEnd : List Nat) (rebased : Bool) (s : State) : State :=
  let v := tch s c
  let f := rd s (TCH_FRAME_count c)
  if v.diag then setTch c { v with contacts := [] } s
  else if v.hopped then
    let rs := (v.contacts.filter (fun k => !k.silent)).map (fun k => (⟨k.owner, contactRecord c f k false false false (inRegion s c k.qx k.qy) true, none⟩ : TchReport))
    (deliverReports c frameEnd rs s).2
  else
    let (live, ended, over_) := if rebased then ([], v.contacts, 0) else contactStep s c ks v
    let ups := (ended.filter (·.shown)).map (fun k => (contactReport s c f k true).1)
    let now := live.map (fun k => contactReport s c f k false)
    let (sl, srs) := sliderStep c f v
    let s1 := s |> setTch c { v with contacts := now.map (·.2), sliders := sl } |> incSat (TCH_COUNTS_over c) over_
    match deliverReports c frameEnd (ups.flatten ++ now.flatMap (·.1) ++ srs) s1 with
    | (edges, s2) => clickAll c edges s2

/-- R357: a wake scan. A contact in two consecutive frames wakes the device and holds its record. -/
def wakeFrame (c : Nat) (ks : List (List Nat)) (s : State) : State :=
  let v := { tch s c with contacts := [] }
  match ks with
  | [] => setTch c { v with wakeRun := 0 } s
  | k :: _ =>
    let run := v.wakeRun + 1
    if run ≠ 2 then setTch c { v with wakeRun := run } s
    else
      let pl := placeContact s c v (newContact s.now) k
      let rec_ := [7 + 65536 * c, 0, unsgn 16 pl.u + 65536 * unsgn 16 pl.v, unsgn 16 pl.delta + 65536 * (k.length % 256) +
        16777216 * (rd s (TCH_FRAME_count c) % 256)]
      let s1 := { s with wakes := s.wakes ++ [(2, c)] }
      let q := queueSlot s 0 c 0
      if rdB s (TCH_Q_CFG_enable 0 c) && inOcm q then (queueRecords 0 c [rec_] (setTch c { v with wakeRun := run } s1)).2
      else setTch c { v with wakeRun := run, wake := some rec_ } s1

/-- The time of a frame after its last measurement step, in ns (R338). -/
def afterSteps (s : State) (c : Nat) : Nat :=
  ((tchFreqs s c).map (fun f => tchCycles s c * 1000000 / max 1 f + 2000)).sum + 250000

/-- R338, R351, R357: the time between frames. -/
def framePeriod (s : State) (c : Nat) : Nat :=
  if tchState s c = 3 then 50000000 else doubled s c 1 * 1000000000 / max 1 (rd s (TCH_CTRL_rate c).inForce)

/-- R354: the frames of a start without a snapshot: their raw values add up, and the average of four becomes the baseline. -/
def averageStart (s : State) (c : Nat) (v : TchCh) : TchCh :=
  let sums := (tchNodes s c).foldl (fun t n => t.put n (Tab.get 0 v.sums n + Tab.get 0 v.raw n)) v.sums
  if v.started < 4 then { v with sums := sums } else { v with sums := [], base := sums.map (fun e => (e.1, e.2 / 4)) }

/-- The clusters of a frame, after lifts and suspects, and the state they leave. -/
def clusterFrame (c : Nat) (s : State) : List (List Nat) × State :=
  match liftClusters s c (tch s c) with
  | (v1, s1) =>
    let ks := clustersAt s1 c v1 false
    match suspectStep c (tchState s1 c == 1) ks v1 s1 with
    | (go, v2, s2) => (go.filter (touchShaped s2 c), setTch c v2 s2)

/-- A frame of a channel that scans (R338 to R357), once its instant has come. -/
def touchFrame (c : Nat) (steps : List (List Int)) (sat : List (Nat × Nat)) (listen : List (List Int)) (s : State) : State :=
  let v0 := tch s c
  let s1 := sat.foldl (fun s e => s |> incSat (TCH_COUNTS_sat c) 1 |> record0 Src.TCH_SATURATED none [c, e.2, e.1]) s
  let s2 := s1 |> incWrap (TCH_FRAME_count c) 1 |> wr (TCH_FRAME_TIME_time c) s1.devTime |> pumpRan 4 0 |> noiseStep c listen
  let t := s1.devTime - afterSteps s c
  let frameEnd := [3 + 65536 * c, rd s2 (TCH_FRAME_count c), lo32 t, t / 2 ^ 32 % 65536 + 2 ^ 24 * (t / 2 ^ 48 % 256)]
  let v1 := { v0 with raw := decodeFrame s c steps sat v0, steps := steps, started := v0.started + 1, endAt := s.now,
                      calib := v0.calib.map (fun e => (e.1 - 1, e.2)) }
  let bare := tchState s c == 1 && !rdB s (TCH_STAT_snap_valid c)
  let v2 := if bare then averageStart s c v1 else v1
  let rebased := v2.rebase
  let v3 := deltas s c (if rebased then { rebaseNodes (tchNodes s c) v2 with rebase := false } else v2)
  let s3 := setTch c v3 (if rebased then record0 Src.TCH_REBASELINE none [c, 4] s2 else s2)
  let s4 :=
    if bare then (if 4 ≤ v3.started then wr (TCH_STAT_state c) 2 s3 else s3)
    else match clusterFrame c s3 with
      | (ks, s4) =>
        let s5 := if tchState s4 c = 1 ∧ rd s4 (TCH_SCAN_confirm c) ≤ v3.started then wr (TCH_STAT_state c) 2 s4 else s4
        if tchState s c = 3 then wakeFrame c ks s5
        else if tchState s c = 1 then s5
        else reportFrame c ks frameEnd rebased s5
  let v4 := { trackBase s4 c (tch s4 c) with hopped := false, diag := rdB s4 (TCH_CTRL_diag c) }
  tchStat c (if tchState s c = 3 then setTch c v4 s4 else noiseEnd c (setTch c v4 s4))

/-- A channel that scans: enabled and started, powered and clocked; in QUIET only with wake_en. -/
def tchScans (s : State) (c : Nat) : Bool :=
  rdB s (TCH_CTRL_enable c).inForce && tchState s c != 0 && domainOn s 5 && !bit (rd s CRP_CLK_GATE_gate) (blkTCH c) &&
    (!tchQuiet s || tchState s c == 3)

/-- TOUCH_FRAME (R348): the step samples (by group and step, then RX line), the columns that saturated as (group, RX line), and the samples
of the listen-only steps by frequency. -/
def execTouchFrame (c : Fin 2) (steps : List (List (BitVec 16))) (sat : List (Fin 6 × Fin 64)) (listen : List (List (BitVec 16))) (s : State) : Out :=
  if !tchScans s c then .next s
  else
    let num (l : List (BitVec 16)) : List Int := l.map (fun x => sgn 16 x.toNat)
    done (touchFrame c (steps.map num) (sat.map (fun e => (e.1.val, e.2.val))) (listen.map num) (advanceTo ((tch s c).endAt + framePeriod s c) s))

/-! ## Contacts that last (R356) -/

/-- A record about a contact: what concerns polder 0 is secure (R347). -/
def contactEvent (src owner : Nat) (params : List Nat) (s : State) : State :=
  if owner = 0 then recordSecure src (some 0) params s else record0 src (some owner) params s

/-- TCH_LONG_CONTACT (R356). -/
def execTchLongContact (c : Fin 2) (id : Fin 20) (s : State) : Out :=
  match (tch s c).contacts.find? (fun k => k.id == id.val && k.shown && !k.long) with
  | some k =>
    let s1 := advanceTo (k.start + 600000000000) s
    let v := tch s1 c
    let s2 := s1 |> setTch c { v with contacts := v.contacts.map (fun x => if x.id == k.id then { x with long := true } else x) }
      |> contactEvent Src.TCH_LONG_CONTACT k.owner [c, k.owner]
    done (if k.silent then s2 else (queueRecords k.owner c [eventRecord c 5 (rd s2 (TCH_FRAME_count c)) k false] s2).2)
  | none => .next s

/-- TCH_STUCK (R356). -/
def execTchStuck (c : Fin 2) (id : Fin 20) (s : State) : Out :=
  let secs := rd s (TCH_STUCK_seconds c)
  match (tch s c).contacts.find? (fun k => k.id == id.val && k.shown) with
  | some k =>
    if secs = 0 then .next s
    else
      let s1 := advanceTo (k.start + 1000000000 * secs) s
      let v := rebaseNodes k.nodes (tch s1 c)
      let s2 := s1 |> setTch c { v with contacts := v.contacts.filter (fun x => x.id != k.id) } |> tchStat c
        |> contactEvent Src.TCH_STUCK k.owner [c, unsgn 32 k.u, unsgn 32 k.v] |> rebaseRecord c 3 k.owner
      done (if k.silent then s2 else (queueRecords k.owner c [eventRecord c 4 (rd s2 (TCH_FRAME_count c)) k true] s2).2)
  | none => .next s

/-- TOUCH_WAKE_RECORD (R357): a held wake record goes to polder 0's queue, in the first frame that ends after DRAM has left self-refresh. -/
def execTouchWakeRecord (c : Fin 2) (s : State) : Out :=
  let v := tch s c
  match v.wake with
  | some r =>
    if rdB s (DMC_STATUS_self_refresh 0) && !inOcm (queueSlot s 0 c 0) then .next s
    else done (queueRecords 0 c [r] (setTch c { v with wake := none } s)).2
  | none => .next s

/-! ## Snapshots (R354, R355) -/

/-- A snapshot of a channel: its baseline and codes as they stand. Nodes in contact are not tracked, so they hold their last tracked
baseline. -/
def tchSnapshot (s : State) (c : Nat) : TchSnap := ⟨tchTx s c, tchRx s c, (tch s c).base, (tch s c).code⟩

/-- A snapshot's bytes (notes/assumptions/45.md). -/
def snapBytes (x : TchSnap) : List Nat :=
  let ns := panelNodes x.tx x.rx
  let b := leBytes 2 x.tx ++ leBytes 2 x.rx ++ ns.flatMap (fun n => leBytes 2 (unsgn 16 (Tab.get 0 x.base n))) ++ ns.map (fun n => Tab.get 0 x.code n % 64)
  b ++ leBytes 4 (crc32c b)

/-- A snapshot read back from memory, when it is valid for the panel. -/
def snapFrom (s : State) (a tx rx : Nat) : Option TchSnap :=
  let ns := panelNodes tx rx
  let n := 4 + 3 * ns.length
  if inDram s a && readNat s a 2 == tx && readNat s (a + 2) 2 == rx && readNat s (a + n) 4 == crc32c (readBytes s a n) && !poisonedIn s a (n + 4) then
    some ⟨tx, rx, (List.range ns.length).map (fun i => (ns.getD i 0, sgn 16 (readNat s (a + 4 + 2 * i) 2))),
      (List.range ns.length).map (fun i => (ns.getD i 0, byteAt s (a + 4 + 2 * ns.length + i) % 64))⟩
  else none

/-- The snapshot written to TCH_SNAP_ADDR (R355). -/
def snapToDram (c : Nat) (s : State) : State :=
  let a := rdA s (TCH_SNAP_ADDR_addr c)
  if rdB s (TCH_CTRL_enable c).inForce && tchState s c != 0 && inDram s a && !dramLost s then writeBytes a (snapBytes (tchSnapshot s c)) s else s

/-- The snapshot written to flash. -/
def snapToFlash (c : Nat) (s : State) : State := setTch c { tch s c with flash := some (tchSnapshot s c) } s

/-- TCH_START (R354): a channel that is enabled starts. -/
def execTchStart (c : Fin 2) (s : State) : Out :=
  if !rdB s (TCH_CTRL_enable c).inForce || tchState s c != 0 || tchQuiet s || !domainOn s 5 then .next s
  else
    let v := tch s c
    let snap := if v.viaQuiet then snapFrom s (rdA s (TCH_SNAP_ADDR_addr c)) (tchTx s c) (tchRx s c)
      else v.flash.filter (fun x => x.tx == tchTx s c && x.rx == tchRx s c)
    let v1 := { v with started := 0, sums := [], suspects := [], contacts := [], endAt := s.now, viaQuiet := false, hopped := false, calm := 0 }
    let v2 := match snap with | some x => { v1 with base := x.base, code := x.code } | none => v1
    done (s |> setTch c v2 |> wrB (TCH_STAT_snap_valid c) snap.isSome |> wr (TCH_STAT_state c) 1 |> tchStat c)

/-- A channel stops scanning; what it had on the glass is no longer reported. -/
def tchStop (c : Nat) (quiet : Bool) (s : State) : State :=
  s |> setTch c { tch s c with contacts := [], suspects := [], viaQuiet := quiet, wakeRun := 0 } |> wr (TCH_STAT_state c) 0 |> tchStat c

/-- QUIET entered (R355, R357): snapshots are in DRAM; a channel with wake_en goes on to its wake scan, another stops. -/
def tchQuietEntry (s : State) : State :=
  (List.range 2).foldl (fun s c =>
    if tchState s c = 0 then s
    else if rdB s (TCH_CTRL_wake_en c) then wr (TCH_STAT_state c) 3 (setTch c { tch s c with contacts := [], wakeRun := 0 } s)
    else tchStop c true s) s

/-- QUIET left: a wake scan goes back to reporting. -/
def tchQuietExit (s : State) : State :=
  (List.range 2).foldl (fun s c => if tchState s c = 3 then wr (TCH_STAT_state c) 2 s else s) s

/-! ## Polder reset (R358) -/

/-- A polder's queue on a channel goes: disabled, its contacts cancelled, its rules removed, its sliders without a polder. -/
def tchLeave (p c : Nat) (s : State) : State :=
  let v := tch s c
  let v1 := { v with contacts := v.contacts.map (fun k => if k.owner == p then { k with silent := true } else k),
                     sliders := v.sliders.map (fun e => (e.1, e.2.map (fun l => if l.polder == some p then { l with polder := none } else l))) }
  let s1 := wr (TCH_Q_CFG_enable p c) 0 (setTch c v1 s)
  { s1 with tch := { s1.tch with gap := s1.tch.gap.del (queueKey p c),
                                 clicks := s1.tch.clicks.filter (fun e => !(decide (clickKey c p 0 ≤ e.1) && decide (e.1 < clickKey c p 16))) } }

/-- A polder reset's part of touch. -/
def tchReset (p : Nat) (s : State) : State := tchLeave p 1 (tchLeave p 0 s)

/-! ## Commands (Table TCH-6) -/

/-- TCH_CTRL to TCH_NOISECFG. -/
def tchRegs (c : Nat) : List (List Fld) :=
  [[TCH_CTRL_enable c, TCH_CTRL_code16 c, TCH_CTRL_wake_en c, TCH_CTRL_diag c, TCH_CTRL_output c, TCH_CTRL_tx c, TCH_CTRL_rx c, TCH_CTRL_rate c],
   [TCH_SCAN_cycles c, TCH_SCAN_confirm c, TCH_SCAN_track_div c, TCH_SCAN_max_size c],
   [TCH_THRESH_touch_th c, TCH_THRESH_rel_th c], [TCH_NOISECFG_noise_th c, TCH_NOISECFG_hyst c]]

/-- TCH_STAT as a party may see it (R347). -/
def tchStatFor (s : State) (q : Req) (c : Nat) : Nat :=
  let w := packFlds s [TCH_STAT_state c, TCH_STAT_freq c, TCH_STAT_high_noise c, TCH_STAT_snap_valid c]
  if q.polder = some 0 then w + packFlds s [TCH_STAT_contacts c, TCH_STAT_suspect c]
  else w + 256 * (((tch s c).contacts.filter (fun k => some k.owner == q.polder)).length % 32)

/-- TCH_GET_INFO (R347). -/
def tchGetInfo (q : Req) (s : State) : Answer :=
  let c := bits (q.w 2) 0 0
  okR ((tchRegs c).map (packFlds s) ++ [tchStatFor s q c] ++
    (List.range 4).map (fun i => rd s (TCH_NLEV_level c (2 * i)) + 65536 * rd s (TCH_NLEV_level c (2 * i + 1)))) s

/-- TCH_GET_INFO. -/
def execTchGetInfo (k : Fin 32) (s : State) : Out := done (serve Op.TCH_GET_INFO k tchGetInfo s)

/-- TCH_SET_CLICK (R353, R359). -/
def tchSetClick (q : Req) (s : State) : Answer :=
  let w := q.w 2
  let c := bits w 0 0
  let k : TchClick := ⟨bit w 9, bits (q.w 3) 13 0, bits (q.w 3) 29 16, bits (q.w 4) 13 0, bits (q.w 4) 29 16, bits w 14 12, bits w 18 16⟩
  match q.polder with
  | none => no ST_NOT_OWNER s
  | some p =>
    if hapHolder s k.haptic ≠ p ∨ holdsTouch s p c = false then no ST_NOT_OWNER s
    else if bit w 8 && (k.w == 0 || k.h == 0) then no ST_BAD_ARG s
    else did { s with tch := { s.tch with clicks := s.tch.clicks.put (clickKey c p (bits w 7 4)) (if bit w 8 then some k else none) } }

/-- TCH_SET_CLICK. -/
def execTchSetClick (k : Fin 32) (s : State) : Out := done (serve Op.TCH_SET_CLICK k tchSetClick s)

/-- R359: the fields of TCH_SET_CHANNEL outside their ranges. -/
def channelBad (q : Req) (fs : List Nat) : Bool :=
  let ctrl := q.w 3
  let scan := q.w 4
  let out_ (v lo hi : Nat) : Bool := decide (v < lo) || decide (hi < v)
  out_ (bits ctrl 14 8) 1 96 || out_ (bits ctrl 22 16) 1 64 || out_ (bits ctrl 31 24) 1 240 || out_ (bits scan 5 0) 4 32 ||
    out_ (bits scan 11 8) 1 15 || out_ (bits scan 19 12) 1 255 || out_ (bits scan 27 20) 1 255 || fs.any (fun f => out_ f 100 500) ||
    decide (86400 < bits (q.w 11) 16 0) || decide (bits (q.w 5) 15 0 ≤ bits (q.w 5) 31 16)

/-- The Start fields of a channel. -/
def tchStartFlds (c : Nat) : List Fld :=
  [TCH_CTRL_enable c, TCH_CTRL_code16 c, TCH_CTRL_tx c, TCH_CTRL_rx c, TCH_CTRL_rate c, TCH_SCAN_cycles c] ++ (List.range 8).map (TCH_FREQ_khz c)

/-- TCH_SET_CHANNEL (R338, R359). A channel whose Start fields change stops, and starts with them (TCH_START). -/
def tchSetChannel (q : Req) (s : State) : Answer :=
  let c := bits (q.w 2) 0 0
  let fs := (List.range 8).map (fun k => bits (q.w (7 + k / 2)) (15 + 16 * (k % 2)) (16 * (k % 2)))
  let ctrl := q.w 3
  let steps := let L := (if bit ctrl 1 then 16 else 32); ceilDiv (bits ctrl 14 8) L * L
  if channelBad q fs then no ST_BAD_ARG s
  else if (tch s c).calib.isSome then no ST_BUSY s
  else if !frameFits fs (fs.getD (rd s (TCH_STAT_freq c)) 0) steps (bits (q.w 4) 5 0) (bits ctrl 31 24) then no ST_TCH_TIMING s
  else
    let s1 := (List.range 4).foldl (fun s i => writeFlds (q.w (3 + i)) ((tchRegs c).getD i []) s) s
    let s2 := (List.range 8).foldl (fun s k => wr (TCH_FREQ_khz c k) (fs.getD k 0) s) (wr (TCH_STUCK_seconds c) (bits (q.w 11) 16 0) s1)
    let changed := (tchStartFlds c).any (fun f => rd s2 f != rd s2 f.inForce)
    did (if changed then tchStop c false (takeEffect (tchStartFlds c) s2) else s2)

/-- TCH_SET_CHANNEL. -/
def execTchSetChannel (k : Fin 32) (s : State) : Out := done (serve Op.TCH_SET_CHANNEL k tchSetChannel s)

/-- TCH_SET_MAP (R344). -/
def tchSetMap (q : Req) (s : State) : Answer :=
  did ((List.range 6).foldl (fun s i => wr (TCH_MAP_m (bits (q.w 2) 0 0) i) (q.w (3 + i)) s) s)

/-- TCH_SET_MAP. -/
def execTchSetMap (k : Fin 32) (s : State) : Out := done (serve Op.TCH_SET_MAP k tchSetMap s)

/-- TCH_SET_SLIDER (R352, R359); the buffer holds channel, slider, wheel, polder, threshold and n as words, then the node pairs
(notes/assumptions/42.md). -/
def tchSetSlider (q : Req) (s : State) : Answer :=
  let w (i : Nat) : Nat := readNat s (q.bufAddr + 4 * i) 4
  let c := w 0
  let n := w 5
  let pairs := (List.range n).map (fun i => (byteAt s (q.bufAddr + 24 + 2 * i), byteAt s (q.bufAddr + 25 + 2 * i)))
  let nodes := pairs.map (fun e => nodeAt e.1 e.2)
  let others := ((tch s c).sliders.filter (fun e => e.1 != w 1)).flatMap (fun e => match e.2 with | some l => l.nodes | none => [])
  if 1 < c ∨ 15 < w 1 ∨ 1 < w 2 ∨ 31 < w 3 ∨ n < 2 ∨ 32 < n ∨ q.bufSize < 24 + 2 * n then no ST_BAD_ARG s
  else if pairs.any (fun e => decide (rd s (TCH_CTRL_tx c) ≤ e.1) || decide (rd s (TCH_CTRL_rx c) ≤ e.2)) ∨ !nodes.Nodup ∨
      nodes.any (fun m => others.contains m) then no ST_TCH_SLIDER s
  else did (setTch c { tch s c with sliders := (tch s c).sliders.put (w 1) (some ⟨nodes, w 2 == 1, sgn 32 (w 4), some (w 3), none⟩) } s)

/-- TCH_SET_SLIDER. -/
def execTchSetSlider (k : Fin 32) (s : State) : Out := done (serve Op.TCH_SET_SLIDER k tchSetSlider s)

/-- TCH_CALIBRATE (R340). -/
def tchCalibrate (q : Req) (s : State) : Answer :=
  let c := bits (q.w 2) 0 0
  if !(tch s c).contacts.isEmpty || (tch s c).calib.isSome then no ST_BUSY s
  else pend (setTch c { tch s c with calib := some (64, q.job) } s) id

/-- TCH_CALIBRATE. -/
def execTchCalibrate (k : Fin 32) (s : State) : Out := done (serve Op.TCH_CALIBRATE k tchCalibrate s)

/-- TCH_CALIBRATE_DONE (R340): after 64 frames each node has the code that minimises its residual, which depends on the panel: a free
value. -/
def execTchCalibrateDone (c : Fin 2) (s : State) : Out :=
  match (tch s c).calib with
  | some (0, j) =>
    let ns := tchNodes s c
    let code := (List.range ns.length).map (fun i => (ns.getD i 0, Config.freeValue (s.free + i) % 64))
    done (s |> setTch c { tch s c with calib := none, code := code } |> tookFrees ns.length |> reply j ST_OK [])
  | _ => .next s

/-- TCH_SAVE_SNAPSHOT (R355). -/
def tchSaveSnapshot (q : Req) (s : State) : Answer :=
  pend s (fun s => reply q.job ST_OK [] (snapToFlash (bits (q.w 2) 0 0) s))

/-- TCH_SAVE_SNAPSHOT. -/
def execTchSaveSnapshot (k : Fin 32) (s : State) : Out := done (serve Op.TCH_SAVE_SNAPSHOT k tchSaveSnapshot s)

/-- TCH_REBASELINE: every node is re-baselined at the next frame. -/
def tchRebaseline (q : Req) (s : State) : Answer :=
  let c := bits (q.w 2) 0 0
  did (setTch c { tch s c with rebase := true } s)

/-- TCH_REBASELINE. -/
def execTchRebaseline (k : Fin 32) (s : State) : Out := done (serve Op.TCH_REBASELINE k tchRebaseline s)

/-- TCH_GET_NODES (R347, Diagnostics): the channel and the table are in the low bits of word 2, which is also the low word of the buffer's
address. -/
def tchGetNodes (q : Req) (s : State) : Answer :=
  let c := bits (q.w 2) 0 0
  let t := bits (q.w 2) 3 1
  let v := tch s c
  let ns := tchNodes s c
  let vals : List Int := match t with
    | 0 => ns.map (Tab.get 0 v.raw)
    | 1 => ns.map (Tab.get 0 v.base)
    | 2 => ns.map (Tab.get 0 v.delta)
    | 3 => ns.map (fun n => ((if v.diag then 0 else Tab.get 0 v.code n : Nat) : Int))
    | _ => v.steps.flatten
  let bs := vals.flatMap (fun x => leBytes 2 (unsgn 16 x))
  if 4 < t ∨ q.bufSize < bs.length then no ST_BAD_ARG s
  else okR [rd s (TCH_FRAME_count c)] (devPut 0 (q.bufAddr - bits (q.w 2) 3 0) bs s)

/-- TCH_GET_NODES. -/
def execTchGetNodes (k : Fin 32) (s : State) : Out := done (serve Op.TCH_GET_NODES k tchGetNodes s)

end Sys2Proof.Machine
end

