-- ==== Sys2Proof/Machine/PolderReset.lean ====
section
/-! DEFINITION. Polder reset (Table POL-7, R105, R106), POLDER_DESTROY and POLDER_REVOKE (R94, R95), and the loss and return of the PCIe
link (R113). -/
namespace Sys2Proof.Machine

/-! ## Steps 1 to 3 -/

/-- The outputs on which a polder holds an active slot. -/
def outputsOf (s : State) (p : Nat) : List Nat := idxWhere 8 (fun n => (slotsOn s n).any (fun m => slotActive s m && slotOwner s m == p))

/-- R97: the flips of a polder that wait for validation are refused. -/
def refuseFlips (p : Nat) (s : State) : State :=
  let mine := s.dsp.flips.filter (fun j => j.polder == p)
  let s1 := { s with dsp := { s.dsp with flips := s.dsp.flips.filter (fun j => j.polder != p) } }
  mine.foldl (fun s j => s |> record0 Src.CMP_FLIP_REJECTED (some p) [j.slot, ST_BUSY] |> wr (CMP_FLIP_STATUS_status p) ST_BUSY
    |> wr (CMP_FLIP_STATUS_seq p) 0) s1

/-- Table POL-7 steps 1 to 3 at R: the polder is resetting; its engines start no more work; its slots on outputs without timing are
disabled at once. -/
def startReset (p : Nat) (job : Option Job) (destroy : Bool) (s : State) : State :=
  let outs := outputsOf s p
  let s1 := s |> wr (POL_STAT_state p) 2 |> polderChanged p |> refuseFlips p |> cancelCommits p |> gfxSchedule |> capReset p |> audReset p
    |> hapReset p |> tchReset p |> netReset p |> cvuAbortPolder p
  let s2 := (outs.filter (fun n => !running s n)).foldl (fun s n => disableSlots p n s) s1
  { s2 with resets := s2.resets.put p (some ⟨s.now, none, outs.filter (fun n => running s n), false, false, job, destroy⟩) }

/-- POLDER_RESET (R93, R105). -/
def polderReset (destroy : Bool) (q : Req) (s : State) : Answer :=
  let p := bits (q.w 2) 4 0
  match namedRefusal s p true with
  | some st => no st s
  | none => pend s (startReset p (some q.job) destroy)

/-- POLDER_RESET. -/
def execPolderReset (k : Fin 32) (s : State) : Out := done (serve Op.POLDER_RESET k (polderReset false) s)

/-- POLDER_DESTROY (R95): a polder reset first. -/
def execPolderDestroy (k : Fin 32) (s : State) : Out := done (serve Op.POLDER_DESTROY k (polderReset true) s)

/-! ## Step 2: running work -/

/-- Whether an engine still runs work of a polder. -/
def workRuns (s : State) (p : Nat) : Bool :=
  (gfxWhere s (fun g => g.clusters != 0)).any (fun k => k / 16 == p) ||
  (sesOf s p).any (fun k => match ses s k with | some v => v.pics.any (fun x => !x.running.isEmpty) | none => false) ||
  (idxWhere 8 (fun c => cvuHolder s c == p)).any (fun c => (cvuJob s c).isSome) ||
  (audPol s p).ending.isSome

/-- The running work of a polder stopped at once. -/
def abortWork (p : Nat) (s : State) : State :=
  let s1 := s |> gfxAbort p |> vcdAbort p |> cvuStop p
  match (audPol s1 p).ending with
  | some (true, _) => audFree p s1
  | _ => s1

/-- POLDER_WORK_ABORT (Table POL-7 step 2): running work has stopped, or is aborted at R + 2 ms. -/
def execPolderWorkAbort (p : Fin 32) (s : State) : Out :=
  match Tab.get none s.resets p with
  | some r =>
    if r.aborted then .next s
    else
      let s1 := if workRuns s p then abortWork p (advanceTo (r.start + 2000000) s) else s
      done (reachQ p { s1 with resets := s1.resets.put p (some { r with aborted := true }) })
  | none => .next s

/-! ## Steps 5 and 6 -/

/-- A polder's transactions that are in the fabric and not squashed. -/
def txnsOf (s : State) (p : Nat) : List Txn := s.fabric.filter (fun t => t.polder == p && !t.squashed)

/-- CRP_POLDER_SQUASH (Table POL-7 step 5). What stays of a squashed PCIe read is that its completion may still come (R105). -/
def execCrpPolderSquash (p : Fin 32) (s : State) : Out :=
  match Tab.get none s.resets p with
  | some r =>
    (match r.q with
     | some t =>
       if r.squashed then .next s
       else
         let s1 := advanceTo (t + 100000) s
         let s2 := { s1 with
           resets := s1.resets.put p (some { r with squashed := true }),
           fabric := s1.fabric.filterMap (fun t =>
             if t.polder == p.val && !t.squashed then (if t.pcie && !t.write then some { t with squashed := true } else none) else some t) }
         done (record0 Src.CRP_POLDER_SQUASH (some p.val) [p, (txnsOf s1 p).length] s2)
     | none => .next s)
  | none => .next s

/-- Step 6: a slot's pending entries released, with no event line. -/
def clearPending (m : Nat) (s : State) : State :=
  let v := slot s m
  match v.pending.getLast? with
  | none => s
  | some e =>
    s |> setSlot m { v with pending := [], released := v.released ++ v.pending.map (fun e => e.seq) }
      |> wr (CMP_LAYER_LSTAT_released_seq m) e.seq |> slotStatus m |> sesCloseDue

/-- Step 6: the instance as it was just after creation, its grants, pair, location and shares kept. -/
def clearInstance (p : Nat) (s : State) : State :=
  let s1 := (idxWhere 64 (fun m => slotOwner s m == p)).foldl (fun s m => clearPending m s) s
  let s2 := s1 |> gfxReset p |> vcdReset p |> cvuReset p |> freshInstance p
  { s2 with pci := { s2.pci with outbound := s2.pci.outbound.del p } }

/-- R95: the pair of a polder that is destroyed. -/
def releasePair (p : Nat) (s : State) : State :=
  match pairOf s p with
  | none => s
  | some k =>
    let s1 := clrBits (MBX_PAIR_SHARE_polders k) (2 ^ p) s
    let rest := rd s1 (MBX_PAIR_SHARE_polders k)
    match (idxWhere 32 (fun q => bit rest q)).head? with
    | none => disablePair k s1
    | some q =>
      if rd s1 (MBX_CH_CFG_party_polder (2 * k)) = p then
        s1 |> wr (MBX_CH_CFG_party_polder (2 * k)) q |> wr (MBX_CH_CFG_party_polder (2 * k + 1)) q
      else s1

/-- What a unit that leaves a polder loses with it: a graphics window its context, a codec session its settings. -/
def unitLeft (p type u : Nat) (s : State) : State :=
  if type = 2 then
    ((gfxWhere s (fun g => g.context == some u)).filter (fun k => k / 16 == p)).foldl (fun s k => setGfxWin k GfxWin.empty s) s
  else if type = 3 then (if (ses s u).isSome then sesClosed u s else s)
  else if type = 6 then tchLeave p u s
  else s

/-- Units returned to polder 0. -/
def returnUnits (p type : Nat) (us : List Nat) (s : State) : State :=
  us.foldl (fun s u =>
    let s1 := unitLeft p type u s
    if type = 6 then { s1 with touchGrants := s1.touchGrants.put u (andNot (Tab.get 0 s1.touchGrants u) (2 ^ p)) }
    else { s1 with grants := s1.grants.put (unitKey type u) 0 }) s

/-- R95: what POLDER_DESTROY does after the reset. -/
def destroyPolder (p : Nat) (s : State) : State :=
  let s1 := [1, 2, 3, 4, 5, 6, 7, 8].foldl (fun s t => returnUnits p t ((List.range 256).filter (fun u => holdsUnit s p t u && decide (t ≠ 6 ∨ u < 2))) s) s
  let s2 := { s1 with budget := s1.budget.put p 0 }
  s2 |> releasePair p |> wr (PLD_S2_ROOT_mode p) 0 |> sharesDefault p |> wr (POL_STAT_state p) 0

/-- POLDER_RESET_DONE (Table POL-7 step 6, R105): never while a transaction of the polder remains in the fabric. -/
def execPolderResetDone (p : Fin 32) (s : State) : Out :=
  match Tab.get none s.resets p with
  | some r =>
    if !r.squashed || !(txnsOf s p).isEmpty then .next s
    else
      let s1 := clearInstance p { s with resets := s.resets.put p none }
      let s2 := s1 |> wr (POL_STAT_state p) 1 |> incWrap (POL_RESET_COUNT_count p) 1 |> replyOpt r.job ST_OK [] |> polderChanged p
      done (if r.destroy then polderChanged p (destroyPolder p s2) else s2)
  | none => .next s

/-! ## POLDER_REVOKE (R94) -/

/-- R94, R330: a unit of a polder that is in use. -/
def unitBusy (s : State) (p type u : Nat) : Bool :=
  match type with
  | 1 => slotActive s u
  | 2 => (gfxWhere s (fun g => g.context == some u && (!g.queue.isEmpty || g.clusters != 0))).any (fun k => k / 16 == p)
  | 3 => (match ses s u with | some v => !v.queue.isEmpty || !v.pics.isEmpty | none => false)
  | 4 => (audProgs s p).any (fun g => progUses g u) ||
    (List.range 8).any (fun t => rdB s (AUD_ST_CFG_enable t) && (rd s (AUD_ST_CFG_in t) == u || rd s (AUD_ST_CFG_out t) == u))
  | 5 => hapState s u == 2 || (hapCh s u).starts.isSome || (hapCh s u).pend.isSome
  | 7 => (cvuJob s u).isSome
  | _ => false

/-- POLDER_REVOKE (R93, R94). -/
def polderRevoke (q : Req) (s : State) : Answer :=
  let p := bits (q.w 2) 4 0
  let t := bits (q.w 2) 11 8
  match namedRefusal s p true with
  | some st => no st s
  | none =>
    if t = 9 then
      if q.w 3 = 0 ∨ audBudget s p < q.w 3 then no ST_BAD_ARG s
      else if audBudget s p - q.w 3 < (match (audPol s p).active with | some g => g.cost | none => 0) then no ST_BUSY s
      else did { s with budget := s.budget.put p (audBudget s p - q.w 3) }
    else match namedUnits t (bits (q.w 2) 23 16) (bits (q.w 2) 31 24) with
      | none => no ST_BAD_ARG s
      | some us =>
        if !us.all (fun u => holdsUnit s p t u) then no ST_BAD_ARG s
        else if us.any (fun u => unitBusy s p t u) then no ST_BUSY s
        else did (returnUnits p t us s)

/-- POLDER_REVOKE. -/
def execPolderRevoke (k : Fin 32) (s : State) : Out := done (serve Op.POLDER_REVOKE k polderRevoke s)

/-! ## The PCIe link (R113) -/

/-- The polders at location 3 reset; a PCIe-host warden is gone; the host's locks are freed (R45, R52). -/
def hostLost (s : State) : State :=
  let s1 := (idxWhere 32 (fun p => p != 0 && polState s p == 1 && polLocation s p == 3)).foldl (fun s p => startReset p none false s) s
  s1 |> vacateKind 2 |> freeLocks 10

/-- PCI_LINK_DOWN. -/
def execPciLinkDown (s : State) : Out :=
  if !s.pci.linkUp then .next s
  else done (hostLost (record0 Src.PCI_LINK_DOWN none [] { s with pci := { s.pci with linkUp := false } }))

/-- PCI_HOT_RESET: a hot reset, or a function-level reset. -/
def execPciHotReset (functionLevel : Bool) (s : State) : Out :=
  if !s.pci.linkUp then .next s
  else done (hostLost (record0 Src.PCI_HOT_RESET none [if functionLevel then 2 else 1] s))

/-- PCI_LINK_UP. -/
def execPciLinkUp (s : State) : Out := done { s with pci := { s.pci with linkUp := true } }

end Sys2Proof.Machine
end

