-- ==== Sys2Proof/Machine/Boot.lean ====
section
/-! DEFINITION. Device reset (R413), the verification chain (R414 to R420), the boot sequence and the splash (Table CRP-6, R421 to R423), and
OTP programming (R415). -/
namespace Sys2Proof.Machine

/-! ## Device reset (R413) -/

/-- A medium that keeps its contents without power: the boot flash (R453; notes/assumptions/48.md). -/
def nonVolatile (a : Nat) : Bool := (decide (0x80000000 ≤ a) && decide (a < 0xA0000000)) || decide (2 ^ 40 ≤ a)

/-- Memory whose listed bytes, where `lost` says so, are no longer known: each a free value. -/
def scramble (lost : Nat → Bool) (free : Nat) (m : List Host.Cell) : List Host.Cell :=
  (m.zipIdx.map (fun e => if lost e.1.1 then (e.1.1, BitVec.ofNat 8 (Config.freeValue (free + e.2))) else e.1)).filter (fun c => c.2 != 0)

/-- R401, R402: the vault across a device reset. -/
def vaultReset (lost : Bool) (r : ResetInfo) (free : Nat) (v : VltSt) : VltSt :=
  let v1 := rtcAfter r.elapsed v
  if lost then
    { VltSt.reset with seconds := Config.freeValue free % 2 ^ 48, frac := Config.freeValue (free + 1) % 32768, vbat := r.vbat.toNat,
                       vbatLow := v.vbatLow || decide (r.vbat.toNat < 2200) }
  else
    { v1 with counters := v1.counters.set 0 (satAdd 32 (v1.counters.getD 0 0) 1), prevDigests := v1.digests, digests := List.replicate 8 [],
              sync := none, pf := none, isolated := false, vbat := r.vbat.toNat, vbatLow := v1.vbatLow || decide (r.vbat.toNat < 2200) }

/-- R414: the boot source that the straps or OTP_BOOT_LOCK give. -/
def sourceOf (otp14 straps : Nat) : Nat := if bit otp14 3 then otp14 % 8 else straps

/-- Events that the vault raises at a reset (R402), kept until the recorder starts. -/
def vaultEvents (lost : Bool) (mv : Nat) : List RaisedEv :=
  (if lost then [⟨evCode Src.VLT_LOST 0, none, false, [], false⟩] else []) ++
  (if mv < 2200 then [⟨evCode Src.VLT_BATTERY 0, none, false, [mv], false⟩] else [])

/-- A device reset (R413): every block but the vault at its reset state. What outlives it: the vault, OTP, the flash with what Tujan keeps
there, the pins outside, and commands still to come. -/
def deviceReset (cause : Nat) (absent : Bool) (r : ResetInfo) (s0 : State) : State :=
  let s := tearSync s0
  let lost := absent && r.lost
  let v := vaultReset lost r s.free s.vlt
  let src := sourceOf (Tab.get 0 s.pwr.fuses 14) r.straps.toNat
  let f := s.free + 2
  { State.reset with
    pending := s.pending, free := f + s.mem.length, busReply := s.busReply,
    mem := scramble (fun a => !nonVolatile a) f s.mem,
    devTime := if v.rtcValid then rtcNs v else 0,
    vlt := v, otp := s.pwr.fuses,
    evr := { EvrSt.reset with raised := vaultEvents lost r.vbat.toNat },
    net := { NetSt.reset with identity := s.net.identity },
    tch := { State.reset.tch with ch := s.tch.ch.map (fun e => (e.1, { TchCh.empty with flash := e.2.flash })) },
    gio := { State.reset.gio with pins := s.gio.pins },
    pci := { State.reset.pci with bar4 := if src = 3 then some (0, 48) else none },
    pwr := { PwrSt.reset with fuses := s.pwr.fuses, straps := r.straps.toNat, copy := if 5 ≤ src then 3 else 0 } }
  |> wr CRP_STATUS_cause cause |> wr CRP_STATUS_boot_src src |> wrB CRP_THERM_STAT_last_shutdown (cause == 4)
  |> wr CRP_BOOT_STAT_reason (if 5 ≤ src then 1 else 0)

/-- DEVICE_RESET (R413): power-on, or SYS_RESET_N low for 1 microsecond. -/
def execDeviceReset (pin : Bool) (r : ResetInfo) (s : State) : Out :=
  done (if pin then deviceReset 2 false r s else deviceReset 1 true r s)

/-- TUJAN_WATCHDOG (R413): 500 ms without a firmware service. -/
def execTujanWatchdog (r : ResetInfo) (s : State) : Out := done (deviceReset 5 false r s)

/-- POWER_FAIL_RESET (R430): the reset at P + 2 ms, and its release. -/
def execPowerFailReset (r : ResetInfo) (s : State) : Out :=
  match s.vlt.pf with
  | some _ => done (deviceReset 3 true r s)
  | none => .next s

/-- THERMAL_RESTART (R432): 1 s after a thermal shutdown. -/
def execThermalRestart (r : ResetInfo) (s : State) : Out :=
  if s.pwr.off = 2 then done (deviceReset 4 true r (advanceTo (s.pwr.offAt + 1000000000) s)) else .next s

/-- STANDBY_WAKE (R428): WAKE_N low for 100 ms in STANDBY. -/
def execStandbyWake (r : ResetInfo) (s : State) : Out := if s.pwr.off = 1 then done (deviceReset 1 true r s) else .next s

/-- PWR_RESET (R427, R436): the reset leaves nothing of a reply. -/
def execPwrReset (k : Fin 32) (r : ResetInfo) (s : State) : Out :=
  done (serve Op.PWR_RESET k (fun q s =>
    if s.pwr.trans.isSome ∨ rd s CRP_STATUS_power_state ≠ 0 then no ST_BUSY s
    else match (idxWhere 24 (fun b => claimed s b)).head? with
      | some b => if q.fromSecure then ⟨ST_OK, [], s, deviceReset 6 false r⟩
          else ⟨ST_DEFERRED_SECURE, [], claimBlocked b q.carried.master q.carried.polder s, id⟩
      | none => ⟨ST_OK, [], s, deviceReset 6 false r⟩) s)

/-! ## The image that boots (R414, R417, R419) -/

/-- The recovery source that OTP_RECOVERY names: 3 PCIe, 4 network; 7 none. -/
def recoverySource (s : State) : Nat := match otp s 15 % 4 with | 1 => 3 | 2 => 4 | _ => 7

/-- The source of the image that boots. -/
def imageSource (s : State) : Nat := if s.pwr.copy = 2 then recoverySource s else sourceOf (otp s 14) s.pwr.straps

/-- Where an image stands: in flash, or staged in K6 (R419). -/
def imageBase (s : State) : Nat :=
  match imageSource s with
  | 0 | 1 => 0x80000000 + s.pwr.copy * 0x1000000
  | 2 => 2 ^ 41 + s.pwr.copy * 2 ^ 40
  | _ => 0x43000000

/-- Tujan firmware of the image has been loaded. -/
def imageStarted (s : State) : Bool := !s.pwr.loaded.isEmpty

/-! ## Manifests (Table CRP-5, R416) -/

/-- A field of the manifest at an address. -/
def manField (s : State) (m off n : Nat) : Nat := readNat s (m + off) n

/-- The length of the manifest at an address. -/
def manBytes (s : State) (m : Nat) : Nat := manField s m 0x1C 4

/-- The three manifests stand one after the other. -/
def manAt (s : State) (kind : Nat) : Nat :=
  let m1 := imageBase s
  if kind = 1 then m1 else if kind = 2 then m1 + manBytes s m1 else m1 + manBytes s m1 + manBytes s (m1 + manBytes s m1)

/-- The bytes that a manifest's signature covers. -/
def signedBytes (s : State) (m : Nat) : List Nat := readBytes s m 0x60 ++ readBytes s (m + 0xA0) (manBytes s m - 0xA0)

/-- The hash of the key in a slot, as OTP holds it: bit i of the digest read little-endian is bit i of the field. -/
def keyHash (s : State) (kind slot : Nat) : Nat := if kind = 1 then Config.stavrexKeyHash slot else otp s (2 + slot)

/-- A key slot that exists and is not revoked. -/
def keyUsable (s : State) (kind slot : Nat) : Bool :=
  if kind = 1 then decide (slot < 2) && !bit (otp s 6) slot else decide (slot < 4) && !bit (otp s 6) (2 + slot)

/-- OTP_MIN_SVN of a kind: the count of blown bits. -/
def minSvn (s : State) (kind : Nat) : Nat := popCount 64 (otp s (if kind = 1 then 7 else 8))

/-- R416: why a manifest is not accepted (Table CRP-11), or 0. -/
def manifestFault (s : State) (kind m : Nat) : Nat :=
  let n := manField s m 0x18 4
  let slot := manField s m 0xC 4
  if manField s m 0 4 ≠ 0x58464E4D ∨ manField s m 4 4 ≠ kind ∨ n < 1 ∨ 32 < n ∨ manBytes s m ≠ 0xA0 + 56 * n then 3
  else if !(keyUsable s kind slot && leNat (sha256 (readBytes s (m + 0x20) 64)) == keyHash s kind slot) then 4
  else if !ecdsaVerifies (readBytes s (m + 0x20) 64) (readBytes s (m + 0x60) 64) (sha256 (signedBytes s m)) then 5
  else if manField s m 8 4 < minSvn s kind then 6
  else 0

/-- R418, and the security version and entry point kept: a manifest accepted. -/
def acceptManifest (kind m : Nat) (s : State) : State :=
  let s1 := extend (if kind = 1 then 0 else 1) (sha256 (signedBytes s m)) s
  { s1 with pwr := { s1.pwr with svn := s1.pwr.svn.set (kind - 1) (manField s m 8 4),
                                 entry := if kind = 3 then manField s m 0x10 8 else s1.pwr.entry } }

/-! ## Segments (R416) -/

/-- A segment's source in the image, destination, length and hash. -/
def segSrc (s : State) (m i : Nat) : Nat := manField s m (0xA0 + 56 * i) 8
def segDest (s : State) (m i : Nat) : Nat := manField s m (0xA8 + 56 * i) 8
def segLen (s : State) (m i : Nat) : Nat := manField s m (0xB0 + 56 * i) 8
def segHash (s : State) (m i : Nat) : List Nat := readBytes s (m + 0xB8 + 56 * i) 32

/-- A range lies wholly in another. -/
def liesIn (a n lo hi : Nat) : Bool := decide (lo ≤ a) && decide (a + n ≤ hi)

/-- R416: where a segment may be loaded. -/
def segPlaced (s : State) (kind i a n : Nat) : Bool :=
  if kind = 1 then liesIn a n 0x1000000 0x1200000
  else if kind = 2 then liesIn a n 0x45800000 ocmEnd
  else if i = 0 then liesIn a n ocmBase 0x40800000
  else liesIn a n ocmBase 0x41000000 || liesIn a n dramBase (dramBase + dramBytes s)

/-- A segment loaded and checked: the reason it fails, or 0. -/
def loadSegment (kind m i : Nat) (s : State) : Nat × State :=
  let a := segDest s m i
  let n := segLen s m i
  if !segPlaced s kind i a n then (8, s)
  else
    let bs := readBytes s (imageBase s + segSrc s m i) n
    let s1 := writeBytes a bs { s with pwr := { s.pwr with loaded := s.pwr.loaded ++ [(a, n)] } }
    (if sha256 bs ≠ segHash s m i then 7 else 0, s1)

/-- Segments from `i` loaded in order, up to the first that fails. -/
def loadSegments (kind m : Nat) (is : List Nat) (s : State) : Nat × State :=
  is.foldl (fun rs i => if rs.1 = 0 then loadSegment kind m i rs.2 else rs) (0, s)

/-! ## Failure (R417) -/

/-- An output switched off at once. -/
def outputOff (n : Nat) (s : State) : State :=
  if running s n || (out s n).configured then switchOff n (match (out s n).mode with | some (j, _) => j | none => none) (stopTiming n s) else s

/-- R417: every byte loaded from an image zeroed. -/
def zeroLoaded (s : State) : State :=
  s.pwr.loaded.foldl (fun s e => writeBytes e.1 (List.replicate e.2 0) s) s

/-- R417: the image that boots has failed: the next one, or none. -/
def nextImage (s : State) : State :=
  let p := { s.pwr with loaded := [], splash := [], svn := [0, 0, 0] }
  if s.pwr.copy = 0 ∧ imageSource s < 3 then wr CRP_STATUS_alt 1 { s with pwr := { p with copy := 1 } }
  else if s.pwr.copy < 2 ∧ recoverySource s ≠ 7 then
    let s1 := s |> wr CRP_STATUS_recovery 1 |> wr CRP_STATUS_boot_src (recoverySource s)
    { s1 with pwr := { p with copy := 2 }, pci := { s1.pci with bar4 := if recoverySource s = 3 then some (0, 48) else s1.pci.bar4 } }
  else { s with pwr := { p with copy := 3 } }

/-- R416, R417: an image fails with a reason. -/
def imageFails (kind reason : Nat) (s : State) : State :=
  let s1 := s |> record0 Src.CRP_VERIFY_FAIL none [kind, s.pwr.copy, reason] |> wr CRP_BOOT_STAT_reason reason |> zeroLoaded
    |> wrAll DMC_STATUS_init_done 0
  nextImage ((List.range 8).foldl (fun s n => outputOff n s) { s1 with dmc := { s1.dmc with gib := 0, mts := 0 } })

/-- A step of Table CRP-6 reached, and recorded from Tujan's boot log. -/
def bootStep (n : Nat) (s : State) : State := s |> wr CRP_BOOT_STAT_stage n |> record0 Src.CRP_BOOT none [n, 0]

/-! ## Tujan firmware (Table CRP-6 steps 1 to 5) -/

/-- R386: the recorder starts, with EVR_START as its first record; events raised before wait for it. -/
def recorderStart (s : State) : State :=
  if s.evr.started then s
  else
    let early := s.evr.raised
    let s1 := takeEvent ⟨evCode Src.EVR_START 0, none, false, [s.vlt.counters.getD 0 0, rd s CRP_STATUS_cause], false⟩
      { s with evr := { s.evr with started := true, startTime := s.devTime, raised := [] } }
    { s1 with evr := { s1.evr with raised := early ++ s1.evr.raised } }

/-- R49, R456: what Tujan does as it starts. -/
def firmwareStart (s : State) : State :=
  let first := !s.evr.started
  let s1 := wr CRP_PD_STAT_on (rd s CRP_PD_CTRL_on) (recorderStart s)
  let s2 := if first then [1, 2, 3].foldl (fun s n => bootStep n s) s1 else s1
  let s3 := bootStep 4 s2
  if first && wardenOrderInvalid s3 then record0 Src.CRP_OTP none [9, otp s3 9, 1] s3 else s3

/-- R420: the fault of the board record at an address, and the record's parts: the data rate in MT/s, the capacity in GiB, the masks. -/
def recordRate (code : Nat) : Option Nat := match code with | 0 => some 6400 | 1 => some 7500 | 2 => some 8533 | _ => none
def recordMasks (s : State) (a : Nat) : List Nat := (List.range 8).map (fun i => readNat s (a + 8 + 4 * i) 4)
def recordBad (s : State) (a : Nat) : Bool :=
  let d := readNat s (a + 4) 4
  (recordRate (readNat s a 4)).isNone || decide (3 < d) || !(readBytes s (a + 48) 16).all (fun b => b == 0)
def masksBad (s : State) (a : Nat) : Bool := (recordMasks s a).any (fun m => decide (2 ^ (14 + readNat s (a + 4) 4) ≤ m))

/-- R420: the board record taken; DRAM training starts (R141). -/
def takeRecord (a : Nat) (s : State) : State :=
  let ms := recordMasks s a
  let s1 := { s with dmc := { s.dmc with gib := 8 * 2 ^ readNat s (a + 4) 4, mts := (recordRate (readNat s a 4)).getD 0 } }
  (List.range 4).foldl (fun s j => s |> wrAll (fun i => DMC_MAP_CH_rowmask i j) (ms.getD j 0) |> wrAll (fun i => DMC_MAP_BA_rowmask i j) (ms.getD (4 + j) 0)) s1

/-- The manifests of kinds 1 and 2 accepted and their segments loaded. -/
def bootFirmware (s : State) : State :=
  let m1 := manAt s 1
  let s0 := wr CRP_BOOT_STAT_stage 4 s
  let f1 := manifestFault s0 1 m1
  if f1 ≠ 0 then imageFails 1 f1 s0
  else
    let (r1, s1) := loadSegments 1 m1 (List.range (manField s0 m1 0x18 4)) (acceptManifest 1 m1 s0)
    if r1 ≠ 0 then imageFails 1 r1 s1
    else
      let s2 := wr CRP_BOOT_STAT_stage 5 (firmwareStart s1)
      let m2 := manAt s2 2
      let f2 := manifestFault s2 2 m2
      if f2 ≠ 0 then imageFails 2 f2 s2
      else
        let (r2, s3) := loadSegments 2 m2 (List.range (manField s2 m2 0x18 4)) (acceptManifest 2 m2 s2)
        let a := segDest s3 m2 0
        if r2 ≠ 0 then imageFails 2 r2 s3
        else if recordBad s3 a then imageFails 2 9 s3
        else if masksBad s3 a then imageFails 2 9 (record0 Src.DMC_TRAINING_LOST none [0, 3] s3)
        else bootStep 5 (takeRecord a s3)

/-- TUJAN_FIRMWARE_START (Table CRP-6 steps 1 to 5): the ROM tries the image that is next. `file` is what the network gives, where it is the source
(R419). -/
def execTujanFirmwareStart (file : Option (List (BitVec 8))) (s : State) : Out :=
  if s.pwr.off ≠ 0 ∨ 3 ≤ s.pwr.copy ∨ imageStarted s = true ∨ rdB s CRP_STATUS_tujan_ready = true then .next s
  else match imageSource s with
    | 0 | 1 | 2 => done (bootFirmware s)
    | 4 => (match file with
      | none => done (imageFails 1 2 s)
      | some bs =>
        if 0x2000000 < bs.length then done (imageFails 1 3 s)
        else done (bootFirmware (writeBytes 0x43000000 (bs.map (fun b => b.toNat)) s)))
    | _ => .next s

/-- HOST_BOOT_WRITE (R419): in PCIe boot, the host's write of CRP_HOST_BOOT starts the chain. Any other write of it has no effect. -/
def execHostBootWrite (a : Access) (addr : BitVec 40) (v : BitVec 32) (s : State) : Out :=
  if addr.toNat ≠ 0x20000008 then .next s
  else if a.route = Route.bar0 ∧ s.pci.linkUp = true ∧ s.pwr.off = 0 ∧ s.pwr.copy < 3 ∧ imageSource s = 3 ∧ imageStarted s = false ∧
      rdB s CRP_STATUS_tujan_ready = false then
    done (bootFirmware (wr CRP_HOST_BOOT_length v.toNat s))
  else match turnedAway a addr.toNat 4 v.toNat s with
    | some s1 => done s1
    | none => done (wr CRP_HOST_BOOT_length v.toNat s)

/-- DRAM_INIT_DONE (R141, R420): training ends, or fails. -/
def execDramInitDone (ok : Bool) (temp : BitVec 16) (s : State) : Out :=
  if s.dmc.gib = 0 ∨ dramReady s = true ∨ imageStarted s = false then .next s
  else if ok then done (s |> wrAll DMC_STATUS_init_done 1 |> dramTemp temp.toNat)
  else done (imageFails 2 10 s)

/-! ## The splash (R421) -/

/-- The words of an output's entry in the splash table at an address. -/
def splashWord (s : State) (a n i : Nat) : Nat := readNat s (a + 64 * n + 4 * i) 4

/-- The field values of the splash commit on an output: slot L56 + n and region 0. -/
def splashVals (s : State) (a n : Nat) : List (Fld × Nat) :=
  let w := splashWord s a n
  let m := 56 + n
  let x := bits (w 13) 15 0
  let y := bits (w 13) 31 16
  let d := Rect.inter ⟨sgn 16 x, sgn 16 y, sgn 16 x + (bits (w 11) 13 0 : Nat), sgn 16 y + (bits (w 11) 29 16 : Nat)⟩ (activeArea s n)
  [(CMP_SLOT_PLACE_output m, n), (CMP_SLOT_PLACE_z m, 23), (CMP_LAYER_CTRL_enable m, 1), (CMP_LAYER_CTRL_format m, bits (w 12) 5 0),
   (CMP_LAYER_SRC_WH_w m, bits (w 11) 13 0), (CMP_LAYER_SRC_WH_h m, bits (w 11) 29 16), (CMP_LAYER_DST_XY_x m, x), (CMP_LAYER_DST_XY_y m, y),
   (CMP_LAYER_DST_WH_w m, bits (w 11) 13 0), (CMP_LAYER_DST_WH_h m, bits (w 11) 29 16), (CMP_LAYER_STRIDE_stride0 m, bits (w 12) 31 16),
   (DKW_SLOT_CLASS_class m, 2), (DKW_SLOT_CLASS_treatment m, 0), (DKW_SLOT_MAXAGE_us m, 0), (DKW_SLOT_HBPERIOD_us m, 1000000), (DKW_SLOT_BLANK_rgb m, 0),
   (DKW_OUT_REG_XY_x n 0, d.x0.toNat), (DKW_OUT_REG_XY_y n 0, d.y0.toNat), (DKW_OUT_REG_WH_w n 0, (d.x1 - d.x0).toNat),
   (DKW_OUT_REG_WH_h n 0, (d.y1 - d.y0).toNat), (DKW_OUT_REG_CTRL_enable n 0, 1), (DKW_OUT_REG_CTRL_source n 0, 2),
   (DKW_OUT_REG_CTRL_action n 0, 2), (DKW_OUT_REG_CTRL_slot n 0, m)]

/-- The splash commit on an output, with its image as the slot's buffer. -/
def splashCommit (a n : Nat) (s : State) : State :=
  let fvs := splashVals s a n
  let c : Commit := ⟨0, none, n, fvs.map (fun e => (e.1.inForce.key, e.2 % 2 ^ e.1.width)), 0, 0, s.now, none⟩
  match commitFault s c with
  | some (st, at_) => rejectCommit c st at_ s
  | none =>
    let s1 := acceptCommit c (fvs.foldl (fun s e => wr e.1 e.2 s) s)
    let s2 := enqueue (56 + n) { seq := 0, buf0 := a + splashWord s a n 10, buf1 := 0, fence := 0, target := 0, time := 0, accepted := s1.now,
                                 stamp := none, concealed := false, origin := 0, tag := 0, checked := [] } s1
    { s2 with pwr := { s2.pwr with splash := s2.pwr.splash ++ [n], splashAt := s2.now } }

/-- R421: an enabled entry: the mode set from step 3 of Table SCN-4, unless the output has no sink that carries it. -/
def splashOutput (a n : Nat) (s : State) : State :=
  let ws := (List.range 9).map (fun i => splashWord s a n (i + 1))
  if !bit (splashWord s a n 0) 0 then s
  else match (if modeMalformed ws then some ST_BAD_ARG else modeFault s n ws) with
    | none => splashCommit a n (configure n ws s)
    | some st =>
      if st = ST_SCN_NO_SINK then hotplug n false false s
      else if st = ST_SCN_LINK then hotplug n true true s
      else s

/-- SPLASH_SEGMENT_LOADED (Table CRP-6 steps 6 and 7): kind 3's manifest is accepted and segment 0 loaded. -/
def execSplashSegmentLoaded (s : State) : Out :=
  if imageStarted s = false ∨ rd s CRP_BOOT_STAT_stage ≠ 5 then .next s
  else
    let m := manAt s 3
    let s0 := wr CRP_BOOT_STAT_stage 6 s
    let f := manifestFault s0 3 m
    if f ≠ 0 then done (imageFails 3 f s0)
    else
      let (r, s1) := loadSegments 3 m [0] (acceptManifest 3 m s0)
      if r ≠ 0 then done (imageFails 3 r s1)
      else done ((List.range 8).foldl (fun s n => splashOutput (segDest s1 m 0) n s) (bootStep 7 (bootStep 6 s1)))

/-- SPLASH_HEARTBEAT (R421): every 250 ms, until polder 0 takes a slot over. -/
def execSplashHeartbeat (s : State) : Out :=
  if s.pwr.splash.isEmpty then .next s
  else
    let s1 := advanceTo (s.pwr.splashAt + 250000000) s
    let s2 := s1.pwr.splash.foldl (fun s n => setSlot (56 + n) { slot s (56 + n) with beat := s1.devTime } s) s1
    done { s2 with pwr := { s2.pwr with splashAt := s2.now } }

/-! ## Release of the harts (R423) -/

/-- R423: every hart started at the entry point of kind 3. -/
def startHarts (s : State) : State :=
  (List.range 8).foldl (fun s h => setHart h { Hart.reset with running := true, pc := s.pwr.entry } s) s

/-- R419: the staging banks zeroed. -/
def zeroStaging (s : State) : State := { s with mem := s.mem.filter (fun c => !(decide (0x43000000 ≤ c.1) && decide (c.1 < 0x45000000))) }

/-- R25, R423, Table CRP-6 step 10. -/
def release (s : State) : State :=
  let staged := decide (3 ≤ imageSource s)
  let s1 := s |> startHarts |> (if staged then zeroStaging else id) |> wr CRP_STATUS_tujan_ready 1
    |> wr CRP_BOOT_STAT_ready_ms (s.now / 1000000) |> wr CRP_BOOT_STAT_reason 0 |> bootStep 8 |> bootStep 9 |> bootStep 10
    |> notifyAll Op.DEV_READY [] |> openWindow
  if staged then { s1 with pci := { s1.pci with bar4 := none } } else s1

/-- HART_RELEASE (Table CRP-6 steps 9 and 10): the other segments are loaded and the harts released. -/
def execHartRelease (s : State) : Out :=
  if imageStarted s = false ∨ rd s CRP_BOOT_STAT_stage ≠ 7 ∨ dramReady s = false then .next s
  else
    let m := manAt s 3
    let (r, s1) := loadSegments 3 m ((List.range (manField s m 0x18 4)).filter (fun i => i != 0)) (wr CRP_BOOT_STAT_stage 9 s)
    if r ≠ 0 then done (imageFails 3 r s1) else done (release s1)

/-! ## OTP (R415) -/

/-- The width of an OTP field (Table CRP-4); 0 where it is none that BOOT_OTP_PROGRAM may program. -/
def otpWidth (n : Nat) : Nat :=
  match n with
  | 2 | 3 | 4 | 5 => 256 | 6 => 6 | 7 | 8 => 64 | 9 => 6 | 10 => 1 | 11 => 4 | 12 => 1 | 13 => 3 | 14 => 4 | 15 => 2 | _ => 0

/-- R415: bits that the command may not blow: the Stavrex bits of OTP_KEY_REVOKE and OTP_MIN_SVN_TUJAN, and OTP_DBG_EN[2] once the regulated
lock is blown. -/
def otpLocked (s : State) (n mask : Nat) : Bool :=
  otpWidth n == 0 || n == 7 || (n == 6 && mask % 4 != 0) ||
  (n == 11 && bit mask 2 && bit (Tab.get 0 s.pwr.fuses 12) 0) ||
  (n == 9 && (let v := Tab.get 0 s.pwr.fuses 9 ||| mask
              !decide (([bits v 1 0, bits v 3 2, bits v 5 4].filter (fun x => x != 0)).Nodup)))

/-- BOOT_OTP_PROGRAM (R415): the fuses blown take effect at the next device reset. -/
def execBootOtpProgram (k : Fin 32) (s : State) : Out :=
  done (serve Op.BOOT_OTP_PROGRAM k (fun q s =>
    let n := bits (q.w 2) 7 0
    let mask := leNat ((List.range 8).flatMap (fun i => leBytes 4 (q.w (3 + i)))) % 2 ^ otpWidth n
    if s.warden.kind ≠ 1 then no ST_NOT_WARDEN s
    else if otpLocked s n mask then no ST_OTP_LOCKED s
    else
      let old := Tab.get 0 s.pwr.fuses n
      did (record0 Src.CRP_OTP none [n, popCount 256 (andNot mask old), 0] { s with pwr := { s.pwr with fuses := s.pwr.fuses.put n (old ||| mask) } })) s)

/-- BOOT_GET_INFO. -/
def execBootGetInfo (k : Fin 32) (s : State) : Out :=
  done (serve Op.BOOT_GET_INFO k (fun _ s =>
    okR ([packFlds s [CRP_BOOT_STAT_stage, CRP_BOOT_STAT_reason, CRP_BOOT_STAT_ready_ms]] ++ (List.range 3).map (fun i => s.pwr.svn.getD i 0) ++ [otp s 6]) s) s)

end Sys2Proof.Machine
end

