-- ==== Sys2Proof/Machine/Gio.lean ====
section
/-! DEFINITION. General I/O (R439, R446 to R451): UARTs, I2C and SPI controllers, GPIO banks, and the adaptive rails' regulators. -/
namespace Sys2Proof.Machine

/-- General I/O changed. -/
def setGio (f : GioSt → GioSt) (s : State) : State := { s with gio := f s.gio }

/-! ## UART (R448) -/

/-- A UART's FIFOs. -/
def uart (s : State) (u : Nat) : UartSt := Tab.get UartSt.empty s.gio.uart u

/-- A UART that runs. -/
def uartOn (s : State) (u : Nat) : Bool := rdB s (GIO_UART_CFG_enable u)

/-- A UART's FIFOs given new contents, its levels with them. -/
def setUart (u : Nat) (v : UartSt) (s : State) : State :=
  setGio (fun g => { g with uart := g.uart.put u v }) s |> wr (GIO_UART_STAT_tx_level u) v.tx.length |> wr (GIO_UART_STAT_rx_level u) v.rx.length
    |> wrB (GIO_UART_STAT_busy u) (!v.tx.isEmpty && uartOn s u)

/-- GIO_UARTu_STAT as a word. -/
def uartStat (s : State) (u : Nat) : Nat :=
  packFlds s [GIO_UART_STAT_tx_level u, GIO_UART_STAT_rx_level u, GIO_UART_STAT_overrun u, GIO_UART_STAT_brk u, GIO_UART_STAT_busy u]

/-- A byte that arrives with its flags: stored, or discarded with overrun. -/
def uartStore (u byte : Nat) (parity frame : Bool) (s : State) : State :=
  let v := uart s u
  let full := decide (64 ≤ v.rx.length)
  let s1 := if full then wr (GIO_UART_STAT_overrun u) 1 s else setUart u { v with rx := v.rx ++ [(byte, parity, frame)] } s
  if full || parity || frame then record0 Src.GIO_UART_ERROR none [u, uartStat s1 u] s1 else s1

/-- The unit whose register at offset `off` an address is. -/
def gioRegAt (addr base n off : Nat) : Option Nat :=
  if base ≤ addr ∧ addr < base + 0x100 * n ∧ addr % 0x100 = off then some ((addr - base) / 0x100) else none

/-- A byte pushed to transmit; a full FIFO takes none. -/
def uartPush (u v : Nat) (s : State) : State :=
  let q := uart s u
  if 64 ≤ q.tx.length then s else setUart u { q with tx := q.tx ++ [v % 256] } s

/-- UART_DATA_WRITE. -/
def execUartDataWrite (a : Access) (addr : BitVec 40) (v : BitVec 32) (s : State) : Out :=
  let u := gioRegAt addr.toNat 0x20900000 8 0
  regWrite a addr.toNat v.toNat u.isSome (fun _ s => uartPush (u.getD 0) v.toNat s) s

/-- UART_DATA_READ: the oldest byte received, with its flags. -/
def execUartDataRead (a : Access) (addr : BitVec 40) (s : State) : Out :=
  let u := gioRegAt addr.toNat 0x20900000 8 0
  regRead a addr.toNat u.isSome (fun s =>
    let q := uart s (u.getD 0)
    match q.rx with
    | (b, p, f) :: t => (b + 256 * b2n p + 512 * b2n f + 1024, setUart (u.getD 0) { q with rx := t } s)
    | [] => (0, s)) s

/-- UART_RX_BYTE: a frame ends on the line, or, with `brk`, the line has been held low beyond one. The flags are what the receiver finds. -/
def execUartRxByte (u : Fin 8) (byte : BitVec 8) (parityErr : Bool) (frameErr : Bool) (brk : Bool) (s : State) : Out :=
  if !uartOn s u || rdB s (GIO_UART_CFG_loopback u).inForce then .next s
  else if brk then done (uartStore u 0 false true (wr (GIO_UART_STAT_brk u) 1 s))
  else done (uartStore u byte.toNat (parityErr && rdB s (GIO_UART_CFG_parity u).inForce) frameErr s)

/-- UART_TX_DONE: the byte being sent leaves the FIFO; with loopback it is received. -/
def execUartTxDone (u : Fin 8) (s : State) : Out :=
  match uart s u with
  | ⟨b :: t, rx⟩ =>
    if !uartOn s u then .next s
    else
      let s1 := setUart u ⟨t, rx⟩ s
      done (if rdB s (GIO_UART_CFG_loopback u).inForce then uartStore u b false false s1 else s1)
  | ⟨[], _⟩ => .next s

/-! ## I2C (R449) -/

/-- An I2C controller's FIFOs. -/
def i2c (s : State) (i : Nat) : I2cSt := Tab.get I2cSt.empty s.gio.i2c i

/-- An I2C controller's FIFOs given new contents, its levels with them. -/
def setI2c (i : Nat) (v : I2cSt) (s : State) : State :=
  setGio (fun g => { g with i2c := g.i2c.put i v }) s |> wr (GIO_I2C_STAT_cmd_level i) v.cmds.length |> wr (GIO_I2C_STAT_rx_level i) v.rx.length
    |> wrB (GIO_I2C_STAT_busy i) (!v.cmds.isEmpty && rdB s (GIO_I2C_CFG_enable i))

/-- GIO_I2Ci_STAT as a word. -/
def i2cStat (s : State) (i : Nat) : Nat :=
  packFlds s [GIO_I2C_STAT_cmd_level i, GIO_I2C_STAT_rx_level i, GIO_I2C_STAT_nack i, GIO_I2C_STAT_arb_lost i, GIO_I2C_STAT_timeout i,
    GIO_I2C_STAT_busy i]

/-- I2C_CMD: a command queued; a full FIFO takes none. -/
def execI2cCmd (a : Access) (addr : BitVec 40) (v : BitVec 32) (s : State) : Out :=
  let i := gioRegAt addr.toNat 0x20901000 4 8
  regWrite a addr.toNat v.toNat i.isSome (fun _ s =>
    let q := i2c s (i.getD 0)
    if 16 ≤ q.cmds.length then s else setI2c (i.getD 0) { q with cmds := q.cmds ++ [v.toNat % 4096] } s) s

/-- I2C_RX_READ: the oldest byte read; 0 where there is none. -/
def execI2cRxRead (a : Access) (addr : BitVec 40) (s : State) : Out :=
  let i := gioRegAt addr.toNat 0x20901000 4 0xC
  regRead a addr.toNat i.isSome (fun s =>
    let q := i2c s (i.getD 0)
    match q.rx with
    | b :: t => (b, setI2c (i.getD 0) { q with rx := t } s)
    | [] => (0, s)) s

/-- Commands left after those up to and including the next stop. -/
def afterStop : List Nat → List Nat
  | [] => []
  | c :: t => if bit c 10 then t else afterStop t

/-- GIO_I2C_ERROR. -/
def i2cError (f : Fld) (i : Nat) (left : List Nat) (s : State) : State :=
  let s1 := wr f 1 (setI2c i { i2c s i with cmds := left } s)
  record0 Src.GIO_I2C_ERROR none [i, i2cStat s1 i] s1

/-- I2C_CMD_DONE: the first queued command ends. A read waits while the receive FIFO is full. -/
def execI2cCmdDone (i : Fin 4) (r : I2cEnd) (s : State) : Out :=
  let q := i2c s i
  match q.cmds with
  | [] => .next s
  | c :: t =>
    if !rdB s (GIO_I2C_CFG_enable i) then .next s
    else match r with
      | .done b =>
        if bit c 8 && decide (16 ≤ q.rx.length) then .next s
        else done (setI2c i { cmds := t, rx := if bit c 8 then q.rx ++ [b.toNat] else q.rx } s)
      | .nack => done (i2cError (GIO_I2C_STAT_nack i) i (afterStop (c :: t)) s)
      | .arbLost => done (i2cError (GIO_I2C_STAT_arb_lost i) i [] s)
      | .timeout => done (i2cError (GIO_I2C_STAT_timeout i) i [] s)

/-! ## SPI (R450) -/

/-- An SPI controller's FIFOs. -/
def spi (s : State) (k : Nat) : SpiSt := Tab.get SpiSt.empty s.gio.spi k

/-- An SPI controller's FIFOs given new contents, its levels and chip select with them. -/
def setSpi (k : Nat) (v : SpiSt) (s : State) : State :=
  let on := rdB s (GIO_SPI_CFG_enable k)
  let cs := (on && !v.tx.isEmpty) || (v.cs && rdB s (GIO_SPI_CFG_hold k))
  setGio (fun g => { g with spi := g.spi.put k { v with cs := cs } }) s |> wr (GIO_SPI_STAT_tx_level k) v.tx.length
    |> wr (GIO_SPI_STAT_rx_level k) v.rx.length |> wrB (GIO_SPI_STAT_busy k) (on && !v.tx.isEmpty)

/-- SPI_TX_WRITE: a word pushed; a full FIFO takes none. -/
def execSpiTxWrite (a : Access) (addr : BitVec 40) (v : BitVec 32) (s : State) : Out :=
  let k := gioRegAt addr.toNat 0x20902000 4 8
  regWrite a addr.toNat v.toNat k.isSome (fun _ s =>
    let q := spi s (k.getD 0)
    if 16 ≤ q.tx.length then s else setSpi (k.getD 0) { q with tx := q.tx ++ [v.toNat] } s) s

/-- SPI_RX_READ: the oldest word received; 0 where there is none. -/
def execSpiRxRead (a : Access) (addr : BitVec 40) (s : State) : Out :=
  let k := gioRegAt addr.toNat 0x20902000 4 0xC
  regRead a addr.toNat k.isSome (fun s =>
    let q := spi s (k.getD 0)
    match q.rx with
    | w :: t => (w, setSpi (k.getD 0) { q with rx := t } s)
    | [] => (0, s)) s

/-- SPI_WORD_DONE: a word has shifted; the word received has the word length. -/
def execSpiWordDone (k : Fin 4) (rx : BitVec 32) (s : State) : Out :=
  let q := spi s k
  match q.tx with
  | [] => .next s
  | _ :: t =>
    if !rdB s (GIO_SPI_CFG_enable k) then .next s
    else
      let w := rx.toNat % 2 ^ (rd s (GIO_SPI_CFG_bits k).inForce + 1)
      if 16 ≤ q.rx.length then done (setSpi k { q with tx := t } (wr (GIO_SPI_STAT_rx_overflow k) 1 s))
      else done (setSpi k { q with tx := t, rx := q.rx ++ [w] } s)

/-! ## GPIO (R446, R451) -/

/-- The level outside a pin. -/
def pinOutside (s : State) (n : Nat) : Nat := Tab.get 0 s.gio.pins n

/-- The levels of a bank's pins: driven where OE is 1, else as they are outside. -/
def gpioLevels (s : State) (b : Nat) : Nat :=
  bitmap 32 (fun n => if bit (rd s (GIO_GPIO_OE_oe b)) n then bit (rd s (GIO_GPIO_OUT_out b)) n else pinOutside s (32 * b + n) == 1)

/-- A pin's interrupt condition: the edge between two levels, or the level, that its settings name. -/
def gpioHit (s : State) (b n : Nat) (was now : Bool) : Bool :=
  let pol := bit (rd s (GIO_GPIO_IRQ_POL_pol b)) n
  if bit (rd s (GIO_GPIO_IRQ_EDGE_edge b)) n then was != now && now == pol else now == pol

/-- R451: what follows when a bank's levels were `was` before a change: interrupt bits, and wake events (R426) outside ACTIVE. A level
wakes once, as it comes about. -/
def gpioFollow (b was : Nat) (s : State) : State :=
  let now := gpioLevels s b
  let hits := bitmap 32 (fun n => bit (rd s (GIO_GPIO_IRQ_EN_en b)) n && gpioHit s b n (bit was n) (bit now n))
  let s1 := orBits (GIO_GPIO_IRQ_STAT_stat b) hits s
  let ws := idxWhere 32 (fun n => bit (rd s (GIO_GPIO_WAKE_wake b)) n && bit was n != bit now n && gpioHit s b n (bit was n) (bit now n))
  if rd s CRP_STATUS_power_state = 0 then s1 else { s1 with wakes := s1.wakes ++ ws.map (fun n => (4, 32 * b + n)) }

/-- The bits of a bank that an access may reach: those of the groups its polder owns (R446). -/
def gpioMask (s : State) (b : Nat) (c : Carried) : Nat := bitmap 32 (fun n => gioAdmits s (15 + 4 * b + n / 8) c)

/-- A bank's output levels changed. -/
def gpioOut (b v : Nat) (s : State) : State := let was := gpioLevels s b; gpioFollow b was (wr (GIO_GPIO_OUT_out b) v s)

/-- GPIO_OUT_SET. -/
def execGpioOutSet (a : Access) (addr : BitVec 40) (v : BitVec 32) (s : State) : Out :=
  let b := gioRegAt addr.toNat 0x20903000 2 4
  regWrite a addr.toNat v.toNat b.isSome (fun c s =>
    gpioOut (b.getD 0) (rd s (GIO_GPIO_OUT_out (b.getD 0)) ||| (v.toNat &&& gpioMask s (b.getD 0) c)) s) s

/-- GPIO_OUT_CLR. -/
def execGpioOutClr (a : Access) (addr : BitVec 40) (v : BitVec 32) (s : State) : Out :=
  let b := gioRegAt addr.toNat 0x20903000 2 8
  regWrite a addr.toNat v.toNat b.isSome (fun c s =>
    gpioOut (b.getD 0) (andNot (rd s (GIO_GPIO_OUT_out (b.getD 0))) (v.toNat &&& gpioMask s (b.getD 0) c)) s) s

/-- GPIO_EDGE: the level outside a pin, as it now is. -/
def execGpioEdge (pin : Fin 64) (level : Bool) (s : State) : Out :=
  let b := pin.val / 32
  done (gpioFollow b (gpioLevels s b) (setGio (fun g => { g with pins := g.pins.put pin (b2n level) }) s))

/-! ## The units' interrupts (R447) -/

/-- UART `u`'s interrupt. -/
def uartIrq (s : State) (u : Nat) : Bool :=
  (rdB s (GIO_UART_IRQ_rx_en u) && decide (rd s (GIO_UART_IRQ_rx_thresh u) ≤ (uart s u).rx.length)) ||
  (rdB s (GIO_UART_IRQ_tx_en u) && (uart s u).tx.isEmpty) ||
  (rdB s (GIO_UART_IRQ_err_en u) && (rdB s (GIO_UART_STAT_overrun u) || rdB s (GIO_UART_STAT_brk u)))

/-- I2C controller `i`'s interrupt. -/
def i2cIrq (s : State) (i : Nat) : Bool :=
  (rdB s (GIO_I2C_IRQ_done_en i) && (i2c s i).cmds.isEmpty) ||
  (rdB s (GIO_I2C_IRQ_err_en i) && (rdB s (GIO_I2C_STAT_nack i) || rdB s (GIO_I2C_STAT_arb_lost i) || rdB s (GIO_I2C_STAT_timeout i)))

/-- SPI controller `k`'s interrupt. -/
def spiIrq (s : State) (k : Nat) : Bool := rdB s (GIO_SPI_IRQ_done_en k) && (spi s k).tx.isEmpty

/-- GPIO group `g`'s interrupt. -/
def gpioIrq (s : State) (g : Nat) : Bool :=
  (rd s (GIO_GPIO_IRQ_STAT_stat (g / 4)) &&& rd s (GIO_GPIO_IRQ_EN_en (g / 4))) / 2 ^ (8 * (g % 4)) % 256 != 0

/-- Whether an interrupt source of the application cores' controller is high; one whose unit belongs to a polder at location 3 has no path. -/
def gioIrq (s : State) (source : Nat) : Bool :=
  let wired (k : Nat) : Bool := polLocation s (rd s (GIO_OWNER_polder k)) != 3
  if 32 ≤ source ∧ source < 40 then wired (source - 32) && uartIrq s (source - 32)
  else if 40 ≤ source ∧ source < 44 then (source == 43 || wired (source - 32)) && i2cIrq s (source - 40)
  else if 44 ≤ source ∧ source < 48 then wired (source - 33) && spiIrq s (source - 44)
  else if 48 ≤ source ∧ source < 56 then wired (source - 33) && gpioIrq s (source - 48)
  else false

/-- R446: a unit holds data. -/
def gioHoldsData (s : State) (k : Nat) : Bool :=
  if k < 8 then !(uart s k).tx.isEmpty || !(uart s k).rx.isEmpty
  else if k < 11 then !(i2c s (k - 8)).cmds.isEmpty || !(i2c s (k - 8)).rx.isEmpty
  else if k < 15 then !(spi s (k - 11)).tx.isEmpty || !(spi s (k - 11)).rx.isEmpty
  else rd s (GIO_GPIO_OE_oe ((k - 15) / 4)) / 2 ^ (8 * ((k - 15) % 4)) % 256 != 0

/-! ## The adaptive rails (R439) -/

/-- PMBUS_STEP: Tujan commands a rail's set point towards `target`, the voltage in mV that the fused speed data and the hottest sensor give,
by at most 10 mV; `ack` tells whether the regulator acknowledges. -/
def execPmbusStep (rail : Fin 2) (target : BitVec 12) (ack : Bool) (s : State) : Out :=
  let (mv, st, at_) := s.pwr.rails.getD rail (0, 2, 0)
  let put (v : Nat × Nat × Nat) (s : State) : State := { s with pwr := { s.pwr with rails := s.pwr.rails.set rail v } }
  let next := max (mv - 10) (min (mv + 10) target.toNat)
  if st = 2 ∨ s.evr.started = false then .next s
  else
    let s1 := if st = 0 then s else advanceTo (at_ + (if st = 3 then 100000000 else 1000000)) s
    if ack then .next (put (next, 1, s1.now) s1)
    else if st = 0 then done (record0 Src.GIO_PMBUS_FAULT none [0x20 + rail, 1] (put (mv, 2, s1.now) s1))
    else if st = 1 then done (record0 Src.GIO_PMBUS_FAULT none [0x20 + rail, 2] (put (mv, 3, s1.now) s1))
    else .next (put (mv, 3, s1.now) s1)

end Sys2Proof.Machine
end

