-- ==== Sys2Proof/Machine/Power.lean ====
section
/-! DEFINITION. Power states (R424 to R430), thermal telemetry and shutdown (R431, R432), and the power commands (Table CRP-12). -/
namespace Sys2Proof.Machine

/-- The transition in progress changed. -/
def setTrans (t : Option PwrTrans) (s : State) : State := { s with pwr := { s.pwr with trans := t } }

/-- R427: a power transition runs. -/
def inTransition (s : State) : Bool := s.pwr.trans.isSome || rd s CRP_STATUS_power_state != 0

/-! ## Whether QUIET may be entered (R424) -/

/-- R23: a slot active on an output, in force or queued, holds a buffer in DRAM. -/
def dramLayerOn (s : State) (n : Nat) : Bool :=
  [s, projected s].any (fun t => (slotsOn t n).any (fun m => slotActive t m &&
    ((slot s m).inUse.toList ++ (slot s m).pending).any (fun e => (entrySpans (layerOf t m) e).any (fun r => inDramRange r.1 || inDramRange r.2))))

/-- R23: an output writes back to DRAM. -/
def dramWritebackOn (s : State) (n : Nat) : Bool :=
  [s, projected s].any (fun t => rdB t (CMP_OUT_WB_CTRL_enable n).inForce &&
    (List.range (rd t (CMP_OUT_WB_CTRL_count n).inForce + 1)).any (fun i => inDramRange (64 * rd t (CMP_OUT_WB_BASE_addr n i).inForce)))

/-- R281: a graphics context holds queued, running or waiting work. -/
def gfxWorks (s : State) : Bool := !(gfxWhere s (fun g => g.context.isSome && (!g.queue.isEmpty || g.clusters != 0))).isEmpty

/-- R311: a codec session holds queued or running work. -/
def vcdWorks (s : State) : Bool := s.vcd.sess.any (fun e => match e.2 with | some v => !v.queue.isEmpty || !v.pics.isEmpty | none => false)

/-- R23, R140, R281, R311. -/
def quietBusy (s : State) (kept : Nat) : Bool :=
  (idxWhere 8 (fun n => bit kept n && modeSet s n)).any (fun n => dramLayerOn s n || dramWritebackOn s n) ||
  mapDropped s (rd s (DMC_PASR_keep 0)) || gfxWorks s || vcdWorks s

/-- The blocks of Table CRP-1 that QUIET powers down. -/
def quietBlocks (kept : Nat) : List Nat :=
  [blkGFX, blkVCD, blkAPC 0, blkAPC 1] ++ (idxWhere 8 (fun n => !bit kept n)).map blkSCN ++ (if kept = 0 then [blkCMP, blkDKW] else [])

/-- R88, R424: what refuses a transition that powers blocks down. -/
def transitionRefusal (q : Req) (s : State) (kept : Nat) (blocks : List Nat) : Option Answer :=
  if quietBusy s kept then some (no ST_BUSY s)
  else match blocks.find? (fun b => claimed s b) with
    | some b => if q.fromSecure then (if inTransition s then some (no ST_BUSY s) else none)
        else some ⟨ST_DEFERRED_SECURE, [], claimBlocked b q.carried.master q.carried.polder s, id⟩
    | none => if inTransition s then some (no ST_BUSY s) else none

/-! ## Table CRP-8 -/

/-- The pairs asked to acknowledge: polder 0's, and those of every polder at location 0, 1 or 2. -/
def quietPairs (s : State) : List Nat :=
  ((0 :: (idxWhere 32 (fun p => p != 0 && polExists s p && polLocation s p != 3)).flatMap (fun p => (pairOf s p).toList)).dedup).filter
    (fun k => chanOn s (2 * k + 1))

/-- Step 3: an output that is not kept stops at its line V_ACTIVE, or at once where no timing runs. -/
def outputStops (n : Nat) (s : State) : State :=
  if running s n then setOut n { out s n with mode := some (match (out s n).mode with | some (j, _) => j | none => none, [0]) } s
  else outputOff n s

/-- Step 3, once every party has acknowledged. -/
def quietStep3 (t : PwrTrans) (s : State) : State :=
  let off := idxWhere 8 (fun n => modeSet s n && (t.shutdown || !bit t.kept n))
  let s1 := { s with pwr := { s.pwr with trans := some { t with waiting := [], acked := some s.now }, restart := off } }
  (off.foldl (fun s n => outputStops n s) s1) |> snapToDram 0 |> snapToDram 1 |> helloSend true

/-- Steps 1 and 2 begin. -/
def quietStart (j : Job) (shutdown : Bool) (kept : Nat) (s : State) : State :=
  let ks := quietPairs s
  let t : PwrTrans := ⟨j, shutdown, kept, ks, s.now, none⟩
  let s1 := wr CRP_STATUS_power_state 2 (setTrans (some t) (ks.foldl (fun s k => notifyAck k Op.PWR_STATE_CHANGED [2] s) s))
  if ks.isEmpty then quietStep3 t s1 else s1

/-- PWR_ENTER_QUIET (R424). -/
def execPwrEnterQuiet (k : Fin 32) (s : State) : Out :=
  done (serve Op.PWR_ENTER_QUIET k (fun q s =>
    let kept := bits (q.w 2) 7 0
    match transitionRefusal q s kept (quietBlocks kept) with
    | some a => a
    | none => pend s (quietStart q.job false kept)) s)

/-- PWR_SHUTDOWN (R428): every block powers down. -/
def execPwrShutdown (k : Fin 32) (s : State) : Out :=
  done (serve Op.PWR_SHUTDOWN k (fun q s =>
    match transitionRefusal q s 0 (List.range 24) with
    | some a => a
    | none => pend s (quietStart q.job true 0)) s)

/-- QUIET_ACK (Table CRP-8 step 2): a party's acknowledgement of the preparing notification. -/
def execQuietAck (k : Fin 32) (s : State) : Out :=
  match rdB s CRP_STATUS_tujan_ready, (chan s (2 * k)).q.head? with
  | true, some m =>
    if isRequest m || badForm m then .next s
    else match ackTarget s k m with
      | some u =>
        if u.opcode ≠ Op.PWR_STATE_CHANGED then .next s
        else
          let s1 := clearUnacked (2 * k + 1) u.seq (dropHead (2 * k) s)
          (match s1.pwr.trans with
           | some t =>
             if t.acked.isSome || !t.waiting.contains k.val then done s1
             else
               let t1 := { t with waiting := t.waiting.filter (fun i => i != k.val) }
               if t1.waiting.isEmpty then done (quietStep3 t1 s1) else done (setTrans (some t1) s1)
           | none => done s1)
      | none => .next s
  | _, _ => .next s

/-- CRP_WAKE for each wake event latched (R426). -/
def recordWakes (s : State) : State := s.wakes.foldl (fun s e => record0 Src.CRP_WAKE none [e.1, e.2] s) s

/-- QUIET_ACK_TIMEOUT (Table CRP-8 step 2): 1 s without every acknowledgement. -/
def execQuietAckTimeout (s : State) : Out :=
  match s.pwr.trans with
  | some t =>
    if t.acked.isSome then .next s
    else
      let s1 := advanceTo (t.start + 1000000000) s |> setTrans none |> wr CRP_STATUS_power_state 0
      done ({ (recordWakes s1) with wakes := [] } |> reply t.job ST_PWR_NACK [] |> notifyAll Op.PWR_STATE_CHANGED [0])
  | none => .next s

/-- The masters whose domain QUIET powers off (R45). -/
def quietMasters (kept : Nat) : List Nat := [1, 2, 3, 4, 5, 6, 7, 8, masterGfx, masterVcd] ++ (if kept = 0 then [masterCmp] else [])

/-- Step 4: the domains that go off. -/
def quietDomains (kept : Nat) : Nat := 15 + (if kept = 0 then 16 else 0)

/-- QUIET_ENTRY_DONE (Table CRP-8 steps 4 to 6). The final reply raises no wake event (R425). -/
def execQuietEntryDone (s : State) : Out :=
  match s.pwr.trans with
  | some t =>
    if t.shutdown || t.acked.isNone then .next s
    else
      let s1 := (s.pwr.restart.foldl (fun s n => outputOff n s) s) |> clrBits CRP_PD_STAT_on (quietDomains t.kept)
        |> freeLocksOf (quietMasters t.kept)
      let s2 := (List.range 8).foldl (fun s h => setHart h { hart s h with running := false } s) s1
      let s3 := (List.range 16).foldl (fun s c => closeRows c s) (wrAll DMC_STATUS_self_refresh 1 s2)
      let s4 := s3 |> record0 Src.DMC_SELF_REFRESH none [1, rd s3 (DMC_PASR_keep 0)] |> wr CRP_STATUS_power_state 1 |> tchQuietEntry |> setTrans none
      done (s4 |> tujanSend t.job.pair true false (mkMsg t.job.opcode flagReply [ST_OK + 65536 * t.job.seq])
        |> record0 Src.CRP_POWER_STATE none [1, 0])
  | none => .next s

/-! ## Table CRP-9 -/

/-- R139: the segments that self-refresh dropped hold anything: what memory lists of them is a free value (notes/assumptions/2.md). -/
def dropSegments (s : State) : State :=
  let from_ := dramBase + rd s (DMC_PASR_keep 0) * segmentBytes s
  { s with mem := scramble (fun a => decide (from_ ≤ a) && decide (a < dramTop)) s.free s.mem, free := s.free + s.mem.length,
           poison := s.poison.filter (fun w => !(decide (from_ ≤ 8 * w) && decide (8 * w < dramTop))) }

/-- Step 5: an output restarts with its earlier mode, from step 3 of Table SCN-4. -/
def outputRestarts (n : Nat) (s : State) : State :=
  configChanged s n (setOut n { out s n with configured := true, mode := none } (if n < 6 then s else wr (SCN_STATUS_sink n) 1 s))

/-- WAKE_EVENT (Table CRP-9 steps 1 to 5, R423, R427). -/
def execWakeEvent (s : State) : Out :=
  if rd s CRP_STATUS_power_state ≠ 1 ∨ s.wakes.isEmpty = true then .next s
  else
    let s1 := { (recordWakes s) with wakes := [] }
    let s2 := s1 |> wr CRP_STATUS_power_state 3 |> wr CRP_STATUS_warm 1 |> orBits CRP_PD_STAT_on (rd s1 CRP_PD_CTRL_on &&& 31) |> startHarts
    let s3 := { s2 with pld := { s2.pld with entries := [] } }
    let s4 := s3 |> dropSegments |> wrAll DMC_STATUS_self_refresh 0 |> record0 Src.DMC_SELF_REFRESH none [0, rd s3 (DMC_PASR_keep 0)]
    done (s4.pwr.restart.foldl (fun s n => outputRestarts n s) s4)

/-- QUIET_EXIT_DONE (Table CRP-9 step 6). -/
def execQuietExitDone (s : State) : Out :=
  if rd s CRP_STATUS_power_state ≠ 3 then .next s
  else
    let s1 := { (recordWakes s) with wakes := [] }
    let s2 := s1 |> wr CRP_STATUS_power_state 0 |> tchQuietExit
    done ({ s2 with pwr := { s2.pwr with restart := [] } } |> notifyAll Op.PWR_STATE_CHANGED [0] |> record0 Src.CRP_POWER_STATE none [0, 1])

/-! ## Shutdown (R428) -/

/-- SHUTDOWN_COMPLETE (R428): the work of a shutdown completes, or 2 s have passed since the last acknowledgement. -/
def execShutdownComplete (complete : Bool) (s : State) : Out :=
  match s.pwr.trans with
  | some t =>
    (match t.shutdown, t.acked with
     | true, some a =>
       let s1 := if complete then
           archiveAll s.evr.archive.waiting.length s |> snapToFlash 0 |> snapToFlash 1 |> startSync |> finishSync |> reply t.job ST_OK [] |> settle 4
         else startSync (advanceTo (a + 2000000000) s)
       let s2 := (List.range 8).foldl (fun s n => outputOff n s) s1
       done { s2 with pwr := { s2.pwr with trans := none, off := 1, offAt := s2.now } }
     | _, _ => .next s)
  | none => .next s

/-! ## Thermal telemetry (R431, R432) -/

/-- The hottest of the sensors: the first of those that read most. -/
def hottest (ts : List Int) : Nat := ts.zipIdx.foldl (fun b e => if ts.getD b 0 < e.1 then e.2 else b) 0

/-- R431: a thermal state entered past its threshold, and left 5.0 degrees below it. -/
def thermalState (f : Fld) (level : Nat) (threshold : Int) (sensor : Nat) (t : Int) (s : State) : State :=
  if !rdB s f ∧ threshold < t then s |> wr f 1 |> record0 Src.CRP_THERMAL none [sensor, unsgn 32 t, level]
  else if rdB s f ∧ t ≤ threshold - 50 then s |> wr f 0 |> record0 Src.CRP_THERMAL none [sensor, unsgn 32 t, 0]
  else s

/-- TELEMETRY_READ (R431, activity 8 of Table CRP-10): what the 12 sensors and the six rails read. -/
def execTelemetryRead (temps : List (BitVec 16)) (rails : List (BitVec 16)) (s : State) : Out :=
  let ts := (List.range 12).map (fun i => sgn 16 (temps.getD i 0).toNat)
  let s0 := pumpRan 8 10000000 s
  let s1 := (List.range 12).foldl (fun s k => wrI (CRP_TEMP_temp k) (ts.getD k 0) s) s0
  let s2 := (List.range 6).foldl (fun s i => wr (CRP_RAIL_mw i) (rails.getD i 0).toNat s) s1
  let h := hottest ts
  let t := ts.getD h 0
  let s3 := s2 |> wr CRP_THERM_STAT_hottest h |> thermalState CRP_THERM_STAT_warning 1 (rd s CRP_THERM_CFG_warn) h t
    |> thermalState CRP_THERM_STAT_throttled 2 (rd s CRP_THERM_CFG_throttle) h t
  let word (s : State) : Nat := rd s CRP_THERM_STAT_warning + 2 * rd s CRP_THERM_STAT_throttled
  if word s = word s3 then done s3
  else done (gfxSchedule (notifyWardenAnd0 Op.PWR_THERMAL [word s3 + 16 * h, unsgn 32 t] s3))

/-- THERMAL_SHUTDOWN (R432): a sensor has read 125.0 degrees or more for 1 ms. Any transition ends (R427); claims do not delay it (R88). -/
def execThermalShutdown (sensor : Fin 12) (temp : BitVec 16) (s : State) : Out :=
  if sgn 16 temp.toNat < 1250 ∨ s.pwr.off ≠ 0 ∨ s.vlt.pf.isSome = true then .next s
  else
    let s1 := setTrans none (record0 Src.CRP_THERMAL none [sensor, unsgn 32 (sgn 16 temp.toNat), 3] s)
    let s2 := flushSteps s1
    done { s2 with pwr := { s2.pwr with off := 2, offAt := s2.now } }

/-- PWR_SET_THERMAL (R431). -/
def execPwrSetThermal (k : Fin 32) (s : State) : Out :=
  done (serve Op.PWR_SET_THERMAL k (fun q s =>
    let warn := bits (q.w 2) 11 0
    let throttle := bits (q.w 2) 27 16
    if warn < 700 ∨ throttle < warn + 10 ∨ 1150 < throttle then no ST_BAD_ARG s
    else did (s |> wr CRP_THERM_CFG_warn warn |> wr CRP_THERM_CFG_throttle throttle)) s)

/-! ## Blocks (R88, R412, R436) -/

/-- R412: a block of Table CRP-1 holds queued or running work. -/
def blockWorks (s : State) (b : Nat) : Bool :=
  if b < 2 then (List.range 8).any (fun n => modeSet s n)
  else if b < 10 then modeSet s (b - 2)
  else if b = 10 then gfxWorks s
  else if b = 11 then vcdWorks s
  else if b < 16 then rdB s (CAP_CTRL_enable (b - 12)).inForce && !rdB s (CAP_STATUS_stopped (b - 12)) && rdB s (CAP_STATUS_signal (b - 12))
  else if b = 16 then (List.range 3).any (fun d => rdB s (AUD_DOM_CTRL_enable d).inForce)
  else if b = 17 then (List.range 8).any (fun c => hapState s c == 2 || (hapCh s c).starts.isSome || (hapCh s c).pend.isSome)
  else if b < 20 then tchState s (b - 18) != 0
  else if b = 20 then !s.net.tx.isEmpty || !s.net.rx.isEmpty
  else if b = 21 then (List.range 8).any (fun c => (cvuJob s c).isSome)
  else (List.range 4).any (fun h => (hart s (4 * (b - 22) + h)).running)

/-- The block of a field's place in the register store. -/
def blockOfKey (key : Nat) : Option Nat := blockAt (key / 64 % 0x10000000000)

/-- The masters of a block, whose locks its reset frees (R45). -/
def blockMasters (b : Nat) : List Nat :=
  if b = 10 then [masterGfx] else if b = 11 then [masterVcd] else if b = 0 then [masterCmp] else if b = 16 then [masterAud]
  else if b = 17 then [masterHap] else if b = 18 ∨ b = 19 then [masterTch] else if b = 21 then [masterCvu]
  else if 22 ≤ b then (List.range 4).map (fun h => 4 * (b - 22) + h + 1) else []

/-- A block returned to its reset state: its registers, and what stands behind them. -/
def blockReset (b : Nat) (s : State) : State :=
  let s1 := freeLocksOf (blockMasters b) { s with regs := s.regs.filter (fun e => blockOfKey e.1 != some b) }
  if b = 0 then { s1 with dsp := { s1.dsp with slots := [], flips := [], waiting := [], queue := [], tiles := [], pool := [], engStart := [], engReset := [], engFaults := [] } }
  else if b = 1 then
    { s1 with dsp := { s1.dsp with regions := [], key := List.replicate 32 0, outs := s1.dsp.outs.map (fun e => (e.1, { e.2 with mac := [], macFrame := 0, restart := 1 })) } }
  else if b < 10 then setOut (b - 2) { OutSt.empty with sink := (out s (b - 2)).sink } (wr (SCN_STATUS_sink (b - 2)) (rd s (SCN_STATUS_sink (b - 2))) s1)
  else if b = 10 then { s1 with gfx := State.reset.gfx }
  else if b = 11 then { s1 with vcd := State.reset.vcd }
  else if b = 16 then { s1 with aud := State.reset.aud }
  else if b = 17 then { s1 with hap := [] }
  else if b = 18 ∨ b = 19 then setTch (b - 18) { TchCh.empty with flash := (tch s (b - 18)).flash } s1
  else if b = 20 then { s1 with net := { NetSt.reset with identity := s1.net.identity } }
  else if b = 21 then { s1 with cvu := [] }
  else if 22 ≤ b then (List.range 4).foldl (fun s h => setHart (4 * (b - 22) + h) Hart.reset s) s1
  else s1

/-- PWR_SET_BLOCK (R88, R412, R436). -/
def execPwrSetBlock (k : Fin 32) (s : State) : Out :=
  done (serve Op.PWR_SET_BLOCK k (fun q s =>
    let b := bits (q.w 2) 4 0
    let act := bits (q.w 2) 9 8
    if 24 ≤ b ∨ act = 3 then no ST_BAD_ARG s
    else if act = 0 then did (clrBits CRP_CLK_GATE_gate (2 ^ b) s)
    else if claimed s b && !q.fromSecure then ⟨ST_DEFERRED_SECURE, [], claimBlocked b q.carried.master q.carried.polder s, id⟩
    else if blockWorks s b then no ST_BUSY s
    else if act = 1 then did (orBits CRP_CLK_GATE_gate (2 ^ b) s)
    else did (blockReset b s)) s)

/-! ## What is read -/

/-- CRP_STATUS as a word. -/
def crpStatus (s : State) : Nat :=
  packFlds s [CRP_STATUS_tujan_ready, CRP_STATUS_warm, CRP_STATUS_warden_kind, CRP_STATUS_power_state, CRP_STATUS_cause, CRP_STATUS_boot_src,
    CRP_STATUS_alt, CRP_STATUS_recovery]

/-- PWR_GET_STATE. -/
def execPwrGetState (k : Fin 32) (s : State) : Out :=
  done (serve Op.PWR_GET_STATE k (fun _ s => okR [crpStatus s, rd s CRP_PD_STAT_on, rd s CRP_CLK_GATE_gate] s) s)

/-- PWR_GET_TELEMETRY. -/
def execPwrGetTelemetry (k : Fin 32) (s : State) : Out :=
  done (serve Op.PWR_GET_TELEMETRY k (fun _ s =>
    let pair (f : Nat → Fld) (i : Nat) : Nat := rd s (f (2 * i)) + 65536 * rd s (f (2 * i + 1))
    okR ((List.range 6).map (pair CRP_TEMP_temp) ++ (List.range 3).map (pair CRP_RAIL_mw) ++
      [packFlds s [CRP_THERM_STAT_warning, CRP_THERM_STAT_throttled, CRP_THERM_STAT_last_shutdown, CRP_THERM_STAT_hottest]]) s) s)

/-- PUMP_GET_STATUS. -/
def execPumpGetStatus (k : Fin 32) (s : State) : Out :=
  done (serve Op.PUMP_GET_STATUS k (fun _ s =>
    okR ((List.range 10).map (fun a => packFlds s [CRP_PUMP_STAT_runs a, CRP_PUMP_STAT_late a])) s) s)

end Sys2Proof.Machine
end

