-- ==== Sys2Proof/Machine/Rows.lean ====
section
/-! DEFINITION. The register tables of the spec as rows a bus access searches: where a register's instances lie, whether it
is 64 bits wide (R11, R12), and its fields with their access type (Table SCP-4), their Shadowed value (Table SCP-5) and, where
the table names reserved encodings, the range of its legal values (R14). Offsets no row covers are reserved (R9). -/
namespace Sys2Proof.Machine

/-- Table SCP-4. -/
inductive AccessType where
  | rw | ro | wo | w1c | w1s
  deriving DecidableEq, Repr

/-- Table SCP-5; `none` where the table leaves the column empty. -/
inductive Shadow where
  | live | commit | start | boot | none
  deriving DecidableEq, Repr

/-- A field as a register table lists it. -/
structure FieldSpec where
  fld : Fld
  acc : AccessType
  shadow : Shadow
  legal : Option (Nat × Nat)
  deriving DecidableEq, Repr

/-- A row of a register table: the address of instance 0, the (stride, count) of each index letter, whether the register has
two words, and its fields for given index values. -/
structure Row where
  base : Nat
  dims : List (Nat × Nat)
  wide : Bool
  flds : List Nat → List FieldSpec

/-- The index values an offset spells under (stride, count) pairs given outermost first, and what is left of the offset. -/
def splitIndex : List (Nat × Nat) → Nat → Option (List Nat × Nat)
  | [], off => some ([], off)
  | (st, n) :: ds, off =>
    let i := off / st
    if i < n then
      match splitIndex ds (off - i * st) with
      | some (ix, r) => some (i :: ix, r)
      | Option.none => Option.none
    else Option.none

/-- The index values with which the row's register holds the word at address `a`, and whether it is its high word. -/
def Row.hit (r : Row) (a : Nat) : Option (List Nat × Bool) :=
  if a < r.base then Option.none
  else match splitIndex r.dims (a - r.base) with
    | some (ix, 0) => some (ix, false)
    | some (ix, 4) => if r.wide then some (ix, true) else Option.none
    | _ => Option.none

/-- Table MBX-8 — MBX registers. -/
def rowsMBX8 : List Row := [
  ⟨0x20010000, [(0x100, 64), (0x4, 16)], false,
    fun ix => [⟨MBX_CH_TX_data (ix.getD 0 0) (ix.getD 1 0), .wo, .live, none⟩]⟩,
  ⟨0x20010040, [(0x100, 64)], false,
    fun ix => [⟨MBX_CH_PUSH_push (ix.getD 0 0), .wo, .live, none⟩]⟩,
  ⟨0x20010044, [(0x100, 64)], false,
    fun ix => [⟨MBX_CH_STAT_count (ix.getD 0 0), .ro, .none, none⟩,
      ⟨MBX_CH_STAT_full (ix.getD 0 0), .ro, .none, none⟩,
      ⟨MBX_CH_STAT_tx_overflow (ix.getD 0 0), .w1c, .none, none⟩,
      ⟨MBX_CH_STAT_unacked (ix.getD 0 0), .ro, .none, none⟩,
      ⟨MBX_CH_STAT_next_seq (ix.getD 0 0), .ro, .none, none⟩,
      ⟨MBX_CH_STAT_unacked_seq (ix.getD 0 0), .ro, .none, none⟩]⟩,
  ⟨0x20010048, [(0x100, 64)], false,
    fun ix => [⟨MBX_CH_CFG_party_polder (ix.getD 0 0), .rw, .live, none⟩,
      ⟨MBX_CH_CFG_party_secure (ix.getD 0 0), .rw, .live, none⟩,
      ⟨MBX_CH_CFG_party_master (ix.getD 0 0), .rw, .live, none⟩,
      ⟨MBX_CH_CFG_enable (ix.getD 0 0), .rw, .live, none⟩,
      ⟨MBX_CH_CFG_rx_irq_en (ix.getD 0 0), .rw, .live, none⟩,
      ⟨MBX_CH_CFG_wake_domain (ix.getD 0 0), .rw, .live, none⟩]⟩,
  ⟨0x20010080, [(0x100, 64), (0x4, 16)], false,
    fun ix => [⟨MBX_CH_RX_data (ix.getD 0 0) (ix.getD 1 0), .ro, .none, none⟩]⟩,
  ⟨0x200100C0, [(0x100, 64)], false,
    fun ix => [⟨MBX_CH_POP_pop (ix.getD 0 0), .wo, .live, none⟩]⟩,
  ⟨0x20014000, [(0x4, 32)], false,
    fun ix => [⟨MBX_LOCK_lock (ix.getD 0 0), .rw, .live, none⟩]⟩,
  ⟨0x20014080, [(0x4, 32)], false,
    fun ix => [⟨MBX_LOCK_OWNER_owner (ix.getD 0 0), .ro, .none, none⟩]⟩,
  ⟨0x20014100, [], true,
    fun _ => [⟨MBX_RX_PENDING_pending, .ro, .none, none⟩]⟩,
  ⟨0x20014108, [], false,
    fun _ => [⟨MBX_CROSSWAIT_STAT_pair, .w1c, .none, none⟩]⟩,
  ⟨0x20014200, [(0x4, 30)], false,
    fun ix => [⟨MBX_PAIR_SHARE_polders (ix.getD 0 0), .rw, .live, none⟩]⟩]

/-- Table PLD-5 — PLD registers (part 1). -/
def rowsPLD5_0 : List Row := [
  ⟨0x20020000, [], false,
    fun _ => [⟨PLD_MODE_CTRL_req_map, .wo, .live, none⟩,
      ⟨PLD_MODE_CTRL_req_tidemark, .wo, .live, none⟩,
      ⟨PLD_MODE_CTRL_fence_normal, .rw, .live, none⟩]⟩,
  ⟨0x20020004, [], false,
    fun _ => [⟨PLD_MODE_STAT_mode, .ro, .none, none⟩,
      ⟨PLD_MODE_STAT_switching, .ro, .none, none⟩,
      ⟨PLD_MODE_STAT_result, .ro, .none, none⟩]⟩,
  ⟨0x20020008, [], true,
    fun _ => [⟨PLD_TIDEMARK_tidemark, .rw, .live, some (32768, 65536)⟩]⟩,
  ⟨0x20020010, [], true,
    fun _ => [⟨PLD_MAP_BASE_base, .rw, .live, none⟩]⟩,
  ⟨0x20020018, [], true,
    fun _ => [⟨PLD_INV_ADDR_addr, .rw, .live, none⟩]⟩,
  ⟨0x20020020, [], false,
    fun _ => [⟨PLD_INV_CTRL_pages, .rw, .live, none⟩,
      ⟨PLD_INV_CTRL_start, .wo, .live, none⟩]⟩,
  ⟨0x20020024, [], false,
    fun _ => [⟨PLD_INV_STAT_busy, .ro, .none, none⟩]⟩,
  ⟨0x20020028, [], false,
    fun _ => [⟨PLD_SLC_SECURE_WAYS_ways, .rw, .live, none⟩]⟩,
  ⟨0x20020080, [(0x4, 32)], false,
    fun ix => [⟨PLD_SLC_WAYMASK_ways (ix.getD 0 0), .rw, .live, none⟩]⟩,
  ⟨0x20020100, [(0x10, 32)], true,
    fun ix => [⟨PLD_S2_ROOT_root (ix.getD 0 0), .rw, .live, none⟩,
      ⟨PLD_S2_ROOT_writer (ix.getD 0 0), .ro, .none, none⟩,
      ⟨PLD_S2_ROOT_mode (ix.getD 0 0), .rw, .live, none⟩]⟩,
  ⟨0x20020108, [(0x10, 32)], false,
    fun ix => [⟨PLD_S2_INV_inv (ix.getD 0 0), .wo, .live, none⟩,
      ⟨PLD_S2_INV_busy (ix.getD 0 0), .ro, .none, none⟩]⟩,
  ⟨0x20020400, [], true,
    fun _ => [⟨PLD_DENY_ADDR_addr, .ro, .none, none⟩]⟩]

/-- Table PLD-5 — PLD registers (part 2). -/
def rowsPLD5_1 : List Row := [
  ⟨0x20020408, [], false,
    fun _ => [⟨PLD_DENY_INFO_master, .ro, .none, none⟩,
      ⟨PLD_DENY_INFO_polder, .ro, .none, none⟩,
      ⟨PLD_DENY_INFO_secure, .ro, .none, none⟩,
      ⟨PLD_DENY_INFO_write, .ro, .none, none⟩,
      ⟨PLD_DENY_INFO_reason, .ro, .none, none⟩,
      ⟨PLD_DENY_INFO_count, .w1c, .none, none⟩]⟩]

/-- Table PLD-5 — PLD registers. -/
def rowsPLD5 : List Row := rowsPLD5_0 ++ rowsPLD5_1

/-- Table POL-6 — Event line and instance status registers (offsets within the doorbell page). -/
def rowsPOL6 : List Row := [
  ⟨0x30006000, [(0x10000, 32)], true,
    fun ix => [⟨POL_EVL_PENDING_pending (ix.getD 0 0), .w1c, .none, none⟩]⟩,
  ⟨0x30006008, [(0x10000, 32)], true,
    fun ix => [⟨POL_EVL_ENABLE_enable (ix.getD 0 0), .rw, .live, none⟩]⟩,
  ⟨0x30006100, [(0x10000, 32), (0x4, 64)], false,
    fun ix => [⟨POL_EVL_VECTOR_vector (ix.getD 0 0) (ix.getD 1 0), .rw, .live, none⟩,
      ⟨POL_EVL_VECTOR_valid (ix.getD 0 0) (ix.getD 1 0), .rw, .live, none⟩]⟩,
  ⟨0x30007000, [(0x10000, 32)], false,
    fun ix => [⟨POL_STAT_state (ix.getD 0 0), .ro, .none, none⟩,
      ⟨POL_STAT_location (ix.getD 0 0), .ro, .none, none⟩,
      ⟨POL_STAT_frozen (ix.getD 0 0), .ro, .none, none⟩,
      ⟨POL_STAT_faults (ix.getD 0 0), .ro, .none, none⟩]⟩,
  ⟨0x30007004, [(0x10000, 32)], false,
    fun ix => [⟨POL_FAULT_INFO_source (ix.getD 0 0), .ro, .none, none⟩,
      ⟨POL_FAULT_INFO_unit (ix.getD 0 0), .ro, .none, none⟩,
      ⟨POL_FAULT_INFO_reason (ix.getD 0 0), .ro, .none, none⟩]⟩,
  ⟨0x30007008, [(0x10000, 32)], false,
    fun ix => [⟨POL_SHARE_gfx (ix.getD 0 0), .ro, .none, none⟩,
      ⟨POL_SHARE_vcd (ix.getD 0 0), .ro, .none, none⟩,
      ⟨POL_SHARE_cvu (ix.getD 0 0), .ro, .none, none⟩]⟩,
  ⟨0x3000700C, [(0x10000, 32)], false,
    fun ix => [⟨POL_RESET_COUNT_count (ix.getD 0 0), .ro, .none, none⟩]⟩]

/-- Table OCM-4 — OCM registers. -/
def rowsOCM4 : List Row := [
  ⟨0x20140000, [], false,
    fun _ => [⟨OCM_ECC_STAT_corr, .w1c, .none, none⟩,
      ⟨OCM_ECC_STAT_uncorr, .w1c, .none, none⟩]⟩,
  ⟨0x20140004, [], false,
    fun _ => [⟨OCM_ECC_ADDR_offset, .ro, .none, none⟩,
      ⟨OCM_ECC_ADDR_uncorr, .ro, .none, none⟩]⟩,
  ⟨0x20140008, [], false,
    fun _ => [⟨OCM_SCRUB_STAT_passes, .ro, .none, none⟩,
      ⟨OCM_SCRUB_STAT_position, .ro, .none, none⟩]⟩,
  ⟨0x20141000, [(0x40, 64), (0x10, 4)], false,
    fun ix => [⟨OCM_RGN_BASE_page (ix.getD 0 0) (ix.getD 1 0), .rw, .live, none⟩]⟩,
  ⟨0x20141004, [(0x40, 64), (0x10, 4)], false,
    fun ix => [⟨OCM_RGN_LIMIT_page (ix.getD 0 0) (ix.getD 1 0), .rw, .live, none⟩]⟩,
  ⟨0x20141008, [(0x40, 64), (0x10, 4)], false,
    fun ix => [⟨OCM_RGN_CTRL_rd (ix.getD 0 0) (ix.getD 1 0), .rw, .live, none⟩,
      ⟨OCM_RGN_CTRL_wr (ix.getD 0 0) (ix.getD 1 0), .rw, .live, none⟩,
      ⟨OCM_RGN_CTRL_enable (ix.getD 0 0) (ix.getD 1 0), .rw, .live, none⟩]⟩]

/-- Table DMC-7 — DMC registers (part 1). -/
def rowsDMC7_0 : List Row := [
  ⟨0x20100000, [(0x10000, 4)], false,
    fun ix => [⟨DMC_STATUS_init_done (ix.getD 0 0), .ro, .none, none⟩,
      ⟨DMC_STATUS_failed (ix.getD 0 0), .ro, .none, none⟩,
      ⟨DMC_STATUS_retraining (ix.getD 0 0), .ro, .none, none⟩,
      ⟨DMC_STATUS_self_refresh (ix.getD 0 0), .ro, .none, none⟩,
      ⟨DMC_STATUS_urgent (ix.getD 0 0), .ro, .none, none⟩,
      ⟨DMC_STATUS_hot (ix.getD 0 0), .ro, .none, none⟩]⟩,
  ⟨0x20100010, [(0x10000, 1), (0x4, 4)], false,
    fun ix => [⟨DMC_MAP_CH_rowmask (ix.getD 0 0) (ix.getD 1 0), .ro, .boot, none⟩]⟩,
  ⟨0x20100020, [(0x10000, 1), (0x4, 4)], false,
    fun ix => [⟨DMC_MAP_BA_rowmask (ix.getD 0 0) (ix.getD 1 0), .ro, .boot, none⟩]⟩,
  ⟨0x20100040, [(0x10000, 1)], false,
    fun ix => [⟨DMC_REF_CTRL_mode (ix.getD 0 0), .rw, .live, none⟩,
      ⟨DMC_REF_CTRL_postpone_en (ix.getD 0 0), .rw, .live, none⟩]⟩,
  ⟨0x20100044, [(0x10000, 4)], false,
    fun ix => [⟨DMC_REF_STAT_debt (ix.getD 0 0), .ro, .none, none⟩,
      ⟨DMC_REF_STAT_forced (ix.getD 0 0), .w1c, .none, none⟩]⟩,
  ⟨0x20100048, [(0x10000, 1)], true,
    fun ix => [⟨DMC_RT_MASK_masters (ix.getD 0 0), .rw, .live, none⟩]⟩,
  ⟨0x20100050, [(0x10000, 1)], false,
    fun ix => [⟨DMC_RH_THRESH_thresh (ix.getD 0 0), .rw, .live, none⟩]⟩,
  ⟨0x20100054, [(0x10000, 1)], false,
    fun ix => [⟨DMC_RH_RATE_acts (ix.getD 0 0), .rw, .live, none⟩]⟩,
  ⟨0x20100058, [(0x10000, 1)], true,
    fun ix => [⟨DMC_RH_THROTTLED_masters (ix.getD 0 0), .ro, .none, none⟩]⟩,
  ⟨0x20100060, [(0x10000, 4)], false,
    fun ix => [⟨DMC_RH_LAST_channel (ix.getD 0 0), .ro, .none, none⟩,
      ⟨DMC_RH_LAST_bank (ix.getD 0 0), .ro, .none, none⟩,
      ⟨DMC_RH_LAST_row (ix.getD 0 0), .ro, .none, none⟩,
      ⟨DMC_RH_LAST_master (ix.getD 0 0), .ro, .none, none⟩]⟩,
  ⟨0x20100070, [(0x10000, 1)], false,
    fun ix => [⟨DMC_PASR_keep (ix.getD 0 0), .rw, .start, some (1, 8)⟩]⟩,
  ⟨0x20100080, [(0x10000, 4)], false,
    fun ix => [⟨DMC_ECC_STAT_retry (ix.getD 0 0), .w1c, .none, none⟩,
      ⟨DMC_ECC_STAT_uncorr (ix.getD 0 0), .w1c, .none, none⟩]⟩]

/-- Table DMC-7 — DMC registers (part 2). -/
def rowsDMC7_1 : List Row := [
  ⟨0x20100088, [(0x10000, 4)], true,
    fun ix => [⟨DMC_ECC_ADDR_addr (ix.getD 0 0), .ro, .none, none⟩]⟩,
  ⟨0x20100090, [(0x10000, 4)], false,
    fun ix => [⟨DMC_TRAIN_STAT_passes (ix.getD 0 0), .ro, .none, none⟩,
      ⟨DMC_TRAIN_STAT_temp (ix.getD 0 0), .ro, .none, none⟩]⟩]

/-- Table DMC-7 — DMC registers. -/
def rowsDMC7 : List Row := rowsDMC7_0 ++ rowsDMC7_1

/-- Table CMP-6 — Layer slot registers (slot n, n = 0–63). -/
def rowsCMP6 : List Row := [
  ⟨0x30000000, [(0x30, 64)], false,
    fun ix => [⟨CMP_LAYER_CTRL_enable (ix.getD 0 0), .rw, .commit, none⟩,
      ⟨CMP_LAYER_CTRL_format (ix.getD 0 0), .rw, .commit, none⟩,
      ⟨CMP_LAYER_CTRL_csc (ix.getD 0 0), .rw, .commit, some (0, 2)⟩,
      ⟨CMP_LAYER_CTRL_full_range (ix.getD 0 0), .rw, .commit, none⟩,
      ⟨CMP_LAYER_CTRL_vtaps (ix.getD 0 0), .rw, .commit, none⟩,
      ⟨CMP_LAYER_CTRL_striped (ix.getD 0 0), .rw, .commit, none⟩,
      ⟨CMP_LAYER_CTRL_fast_clear (ix.getD 0 0), .rw, .commit, none⟩,
      ⟨CMP_LAYER_CTRL_alpha_mode (ix.getD 0 0), .rw, .commit, some (0, 2)⟩,
      ⟨CMP_LAYER_CTRL_premult (ix.getD 0 0), .rw, .commit, none⟩]⟩,
  ⟨0x30000004, [(0x30, 64)], false,
    fun ix => [⟨CMP_LAYER_SRC_XY_x (ix.getD 0 0), .rw, .commit, none⟩,
      ⟨CMP_LAYER_SRC_XY_y (ix.getD 0 0), .rw, .commit, none⟩]⟩,
  ⟨0x30000008, [(0x30, 64)], false,
    fun ix => [⟨CMP_LAYER_SRC_WH_w (ix.getD 0 0), .rw, .commit, none⟩,
      ⟨CMP_LAYER_SRC_WH_h (ix.getD 0 0), .rw, .commit, none⟩]⟩,
  ⟨0x3000000C, [(0x30, 64)], false,
    fun ix => [⟨CMP_LAYER_DST_XY_x (ix.getD 0 0), .rw, .commit, none⟩,
      ⟨CMP_LAYER_DST_XY_y (ix.getD 0 0), .rw, .commit, none⟩]⟩,
  ⟨0x30000010, [(0x30, 64)], false,
    fun ix => [⟨CMP_LAYER_DST_WH_w (ix.getD 0 0), .rw, .commit, none⟩,
      ⟨CMP_LAYER_DST_WH_h (ix.getD 0 0), .rw, .commit, none⟩]⟩,
  ⟨0x30000014, [(0x30, 64)], false,
    fun ix => [⟨CMP_LAYER_STRIDE_stride0 (ix.getD 0 0), .rw, .commit, none⟩,
      ⟨CMP_LAYER_STRIDE_stride1 (ix.getD 0 0), .rw, .commit, none⟩]⟩,
  ⟨0x30000018, [(0x30, 64)], false,
    fun ix => [⟨CMP_LAYER_ALPHA_global (ix.getD 0 0), .rw, .commit, none⟩]⟩,
  ⟨0x3000001C, [(0x30, 64)], false,
    fun ix => [⟨CMP_LAYER_COLOR_r (ix.getD 0 0), .rw, .commit, none⟩,
      ⟨CMP_LAYER_COLOR_g (ix.getD 0 0), .rw, .commit, none⟩,
      ⟨CMP_LAYER_COLOR_b (ix.getD 0 0), .rw, .commit, none⟩]⟩,
  ⟨0x30000020, [(0x30, 64)], false,
    fun ix => [⟨CMP_LAYER_HEARTBEAT_beat (ix.getD 0 0), .wo, .live, none⟩]⟩,
  ⟨0x30000024, [(0x30, 64)], false,
    fun ix => [⟨CMP_LAYER_LSTAT_in_use_seq (ix.getD 0 0), .ro, .none, none⟩,
      ⟨CMP_LAYER_LSTAT_released_seq (ix.getD 0 0), .ro, .none, none⟩,
      ⟨CMP_LAYER_LSTAT_next_seq (ix.getD 0 0), .ro, .none, none⟩,
      ⟨CMP_LAYER_LSTAT_pending (ix.getD 0 0), .ro, .none, none⟩,
      ⟨CMP_LAYER_LSTAT_active (ix.getD 0 0), .ro, .none, none⟩,
      ⟨CMP_LAYER_LSTAT_has_buffer (ix.getD 0 0), .ro, .none, none⟩,
      ⟨CMP_LAYER_LSTAT_underrun (ix.getD 0 0), .w1c, .none, none⟩]⟩]

/-- Table CMP-7 — Flip staging and commit registers (part 1). -/
def rowsCMP7_0 : List Row := [
  ⟨0x30000C00, [(0x10000, 32)], true,
    fun ix => [⟨CMP_FLIP_BUF0_addr (ix.getD 0 0), .rw, .live, none⟩]⟩,
  ⟨0x30000C08, [(0x10000, 32)], true,
    fun ix => [⟨CMP_FLIP_BUF1_addr (ix.getD 0 0), .rw, .live, none⟩]⟩,
  ⟨0x30000C10, [(0x10000, 32)], true,
    fun ix => [⟨CMP_FLIP_FENCE_addr (ix.getD 0 0), .rw, .live, none⟩]⟩,
  ⟨0x30000C18, [(0x10000, 32)], true,
    fun ix => [⟨CMP_FLIP_TARGET_target (ix.getD 0 0), .rw, .live, none⟩]⟩,
  ⟨0x30000C20, [(0x10000, 32)], true,
    fun ix => [⟨CMP_FLIP_TIME_time (ix.getD 0 0), .rw, .live, none⟩]⟩,
  ⟨0x30000C28, [(0x10000, 32)], false,
    fun ix => [⟨CMP_FLIP_PUSH_slot (ix.getD 0 0), .wo, .live, none⟩]⟩,
  ⟨0x30000C2C, [(0x10000, 32)], false,
    fun ix => [⟨CMP_FLIP_STATUS_status (ix.getD 0 0), .ro, .none, none⟩,
      ⟨CMP_FLIP_STATUS_slot (ix.getD 0 0), .ro, .none, none⟩,
      ⟨CMP_FLIP_STATUS_seq (ix.getD 0 0), .ro, .none, none⟩]⟩,
  ⟨0x30000C40, [(0x10000, 32)], false,
    fun ix => [⟨CMP_COMMIT_id (ix.getD 0 0), .wo, .live, none⟩,
      ⟨CMP_COMMIT_output (ix.getD 0 0), .wo, .live, none⟩]⟩,
  ⟨0x30000C44, [(0x10000, 32)], false,
    fun ix => [⟨CMP_COMMIT_STATUS_status (ix.getD 0 0), .ro, .none, none⟩,
      ⟨CMP_COMMIT_STATUS_state (ix.getD 0 0), .ro, .none, none⟩,
      ⟨CMP_COMMIT_STATUS_output (ix.getD 0 0), .ro, .none, none⟩,
      ⟨CMP_COMMIT_STATUS_slot (ix.getD 0 0), .ro, .none, none⟩,
      ⟨CMP_COMMIT_STATUS_slot_valid (ix.getD 0 0), .ro, .none, none⟩]⟩,
  ⟨0x30000C48, [(0x10000, 32)], false,
    fun ix => [⟨CMP_COMMIT_ID_id (ix.getD 0 0), .ro, .none, none⟩]⟩,
  ⟨0x30000C4C, [(0x10000, 32)], false,
    fun ix => [⟨CMP_COMMIT_FRAME_frame (ix.getD 0 0), .ro, .none, none⟩]⟩,
  ⟨0x30000C80, [(0x10000, 32), (0x8, 8)], false,
    fun ix => [⟨CMP_APPLIED_id (ix.getD 0 0) (ix.getD 1 0), .ro, .none, none⟩,
      ⟨CMP_APPLIED_valid (ix.getD 0 0) (ix.getD 1 0), .ro, .none, none⟩]⟩]

/-- Table CMP-7 — Flip staging and commit registers (part 2). -/
def rowsCMP7_1 : List Row := [
  ⟨0x30000C84, [(0x10000, 32), (0x8, 8)], false,
    fun ix => [⟨CMP_APPLIED_FRAME_frame (ix.getD 0 0) (ix.getD 1 0), .ro, .none, none⟩]⟩,
  ⟨0x30000CC0, [(0x10000, 32)], false,
    fun ix => [⟨CMP_COMMIT_COUNT_count (ix.getD 0 0), .ro, .none, none⟩]⟩,
  ⟨0x30000D00, [(0x10000, 32), (0x10, 8)], false,
    fun ix => [⟨CMP_COMMIT_LOG_ID_id (ix.getD 0 0) (ix.getD 1 0), .ro, .none, none⟩,
      ⟨CMP_COMMIT_LOG_ID_output (ix.getD 0 0) (ix.getD 1 0), .ro, .none, none⟩,
      ⟨CMP_COMMIT_LOG_ID_state (ix.getD 0 0) (ix.getD 1 0), .ro, .none, none⟩]⟩,
  ⟨0x30000D04, [(0x10000, 32), (0x10, 8)], false,
    fun ix => [⟨CMP_COMMIT_LOG_STATUS_status (ix.getD 0 0) (ix.getD 1 0), .ro, .none, none⟩,
      ⟨CMP_COMMIT_LOG_STATUS_slot (ix.getD 0 0) (ix.getD 1 0), .ro, .none, none⟩,
      ⟨CMP_COMMIT_LOG_STATUS_slot_valid (ix.getD 0 0) (ix.getD 1 0), .ro, .none, none⟩]⟩,
  ⟨0x30000D08, [(0x10000, 32), (0x10, 8)], false,
    fun ix => [⟨CMP_COMMIT_LOG_FRAME_frame (ix.getD 0 0) (ix.getD 1 0), .ro, .none, none⟩]⟩]

/-- Table CMP-7 — Flip staging and commit registers. -/
def rowsCMP7 : List Row := rowsCMP7_0 ++ rowsCMP7_1

/-- Table CMP-8 — Output and placement registers. -/
def rowsCMP8 : List Row := [
  ⟨0x20200000, [(0x100, 8)], false,
    fun ix => [⟨CMP_OUT_LATCH_lookahead (ix.getD 0 0), .rw, .commit, none⟩,
      ⟨CMP_OUT_LATCH_berm (ix.getD 0 0), .rw, .commit, none⟩,
      ⟨CMP_OUT_LATCH_secure_z (ix.getD 0 0), .rw, .commit, none⟩]⟩,
  ⟨0x20200004, [(0x100, 8)], false,
    fun ix => [⟨CMP_OUT_FETCH_BUDGET_bursts (ix.getD 0 0), .rw, .commit, none⟩]⟩,
  ⟨0x20200008, [(0x100, 8)], false,
    fun ix => [⟨CMP_OUT_PIX_BUDGET_pixels (ix.getD 0 0), .rw, .commit, none⟩]⟩,
  ⟨0x2020000C, [(0x100, 8)], false,
    fun ix => [⟨CMP_OUT_BGCOLOR_rgb (ix.getD 0 0), .rw, .live, none⟩]⟩,
  ⟨0x20200010, [(0x100, 8)], false,
    fun ix => [⟨CMP_OUT_IN_FORCE_id (ix.getD 0 0), .ro, .none, none⟩,
      ⟨CMP_OUT_IN_FORCE_polder (ix.getD 0 0), .ro, .none, none⟩,
      ⟨CMP_OUT_IN_FORCE_device (ix.getD 0 0), .ro, .none, none⟩,
      ⟨CMP_OUT_IN_FORCE_valid (ix.getD 0 0), .ro, .none, none⟩]⟩,
  ⟨0x20200014, [(0x100, 8)], false,
    fun ix => [⟨CMP_OUT_APPLY_FRAME_frame (ix.getD 0 0), .ro, .none, none⟩]⟩,
  ⟨0x20200018, [(0x100, 8)], false,
    fun ix => [⟨CMP_OUT_QUEUE_count (ix.getD 0 0), .ro, .none, none⟩]⟩,
  ⟨0x2020001C, [(0x100, 8)], false,
    fun ix => [⟨CMP_OUT_FETCH_DEMAND_bursts (ix.getD 0 0), .ro, .none, none⟩]⟩,
  ⟨0x20200020, [(0x100, 8)], false,
    fun ix => [⟨CMP_OUT_PIX_DEMAND_pixels (ix.getD 0 0), .ro, .none, none⟩]⟩,
  ⟨0x20201000, [(0x10, 64)], false,
    fun ix => [⟨CMP_SLOT_PLACE_output (ix.getD 0 0), .rw, .commit, none⟩,
      ⟨CMP_SLOT_PLACE_z (ix.getD 0 0), .rw, .commit, none⟩,
      ⟨CMP_SLOT_PLACE_owner (ix.getD 0 0), .ro, .none, none⟩]⟩,
  ⟨0x20201004, [(0x10, 64)], false,
    fun ix => [⟨CMP_SLOT_CLIP_XY_x (ix.getD 0 0), .rw, .commit, none⟩,
      ⟨CMP_SLOT_CLIP_XY_y (ix.getD 0 0), .rw, .commit, none⟩]⟩,
  ⟨0x20201008, [(0x10, 64)], false,
    fun ix => [⟨CMP_SLOT_CLIP_WH_w (ix.getD 0 0), .rw, .commit, none⟩,
      ⟨CMP_SLOT_CLIP_WH_h (ix.getD 0 0), .rw, .commit, none⟩]⟩]

/-- Table CMP-17 — Composition, pool and write-back registers (output n, at 0x100 × n). -/
def rowsCMP17 : List Row := [
  ⟨0x20200024, [(0x100, 8)], false,
    fun ix => [⟨CMP_OUT_COMPOSE_guard (ix.getD 0 0), .rw, .commit, some (1, 8)⟩,
      ⟨CMP_OUT_COMPOSE_dither (ix.getD 0 0), .rw, .commit, none⟩,
      ⟨CMP_OUT_COMPOSE_depth8 (ix.getD 0 0), .ro, .none, none⟩,
      ⟨CMP_OUT_COMPOSE_tiles (ix.getD 0 0), .ro, .none, none⟩,
      ⟨CMP_OUT_COMPOSE_bands (ix.getD 0 0), .ro, .none, none⟩]⟩,
  ⟨0x20200028, [(0x100, 8)], false,
    fun ix => [⟨CMP_OUT_POOL_reserved (ix.getD 0 0), .ro, .none, none⟩,
      ⟨CMP_OUT_POOL_in_use (ix.getD 0 0), .ro, .none, none⟩]⟩,
  ⟨0x2020002C, [(0x100, 8)], false,
    fun ix => [⟨CMP_OUT_WB_CTRL_enable (ix.getD 0 0), .rw, .commit, none⟩,
      ⟨CMP_OUT_WB_CTRL_count (ix.getD 0 0), .rw, .commit, none⟩,
      ⟨CMP_OUT_WB_CTRL_polder (ix.getD 0 0), .rw, .commit, none⟩]⟩,
  ⟨0x20200030, [(0x100, 8)], false,
    fun ix => [⟨CMP_OUT_WB_STRIDE_stride (ix.getD 0 0), .rw, .commit, none⟩]⟩,
  ⟨0x20200038, [(0x100, 8), (0x8, 4)], true,
    fun ix => [⟨CMP_OUT_WB_BASE_addr (ix.getD 0 0) (ix.getD 1 0), .rw, .commit, none⟩]⟩,
  ⟨0x20200058, [(0x100, 8)], false,
    fun ix => [⟨CMP_OUT_WB_PROGRESS_band (ix.getD 0 0), .ro, .none, none⟩,
      ⟨CMP_OUT_WB_PROGRESS_fill (ix.getD 0 0), .ro, .none, none⟩,
      ⟨CMP_OUT_WB_PROGRESS_dropped (ix.getD 0 0), .ro, .none, none⟩,
      ⟨CMP_OUT_WB_PROGRESS_done (ix.getD 0 0), .ro, .none, none⟩,
      ⟨CMP_OUT_WB_PROGRESS_buffer (ix.getD 0 0), .ro, .none, none⟩]⟩,
  ⟨0x2020005C, [(0x100, 8)], false,
    fun ix => [⟨CMP_OUT_WB_FRAME_frame (ix.getD 0 0), .ro, .none, none⟩]⟩,
  ⟨0x20200060, [(0x100, 8)], false,
    fun ix => [⟨CMP_OUT_COUNTS_underruns (ix.getD 0 0), .w1c, .none, none⟩,
      ⟨CMP_OUT_COUNTS_abandoned (ix.getD 0 0), .w1c, .none, none⟩]⟩]

/-- Table CMP-18 — Engine and scaler registers. -/
def rowsCMP18 : List Row := [
  ⟨0x20202000, [(0x4, 32)], false,
    fun ix => [⟨CMP_ENG_STAT_busy (ix.getD 0 0), .ro, .none, none⟩,
      ⟨CMP_ENG_STAT_in_reset (ix.getD 0 0), .ro, .none, none⟩,
      ⟨CMP_ENG_STAT_home (ix.getD 0 0), .ro, .none, none⟩,
      ⟨CMP_ENG_STAT_output (ix.getD 0 0), .ro, .none, none⟩,
      ⟨CMP_ENG_STAT_band (ix.getD 0 0), .ro, .none, none⟩,
      ⟨CMP_ENG_STAT_tile (ix.getD 0 0), .ro, .none, none⟩,
      ⟨CMP_ENG_STAT_epoch (ix.getD 0 0), .ro, .none, none⟩]⟩,
  ⟨0x20202080, [], false,
    fun _ => [⟨CMP_ENG_RESET_reset, .w1s, .live, none⟩]⟩,
  ⟨0x20202084, [], false,
    fun _ => [⟨CMP_ENG_WDOG_cycles, .rw, .live, none⟩]⟩,
  ⟨0x20202088, [], false,
    fun _ => [⟨CMP_ENG_STEALS_count, .ro, .none, none⟩]⟩,
  ⟨0x2020208C, [], false,
    fun _ => [⟨CMP_ENG_REQUEUES_count, .ro, .none, none⟩]⟩,
  ⟨0x20202090, [], false,
    fun _ => [⟨CMP_ENG_OFFLINE_engines, .ro, .none, none⟩]⟩,
  ⟨0x20208000, [(0x800, 8), (0xC, 64), (0x4, 3)], false,
    fun ix => [⟨CMP_OUT_HCOEF_tapLo (ix.getD 0 0) (ix.getD 1 0) (ix.getD 2 0), .rw, .commit, none⟩,
      ⟨CMP_OUT_HCOEF_tapHi (ix.getD 0 0) (ix.getD 1 0) (ix.getD 2 0), .rw, .commit, none⟩]⟩,
  ⟨0x20208300, [(0x800, 8), (0x8, 64), (0x4, 2)], false,
    fun ix => [⟨CMP_OUT_V4COEF_tapLo (ix.getD 0 0) (ix.getD 1 0) (ix.getD 2 0), .rw, .commit, none⟩,
      ⟨CMP_OUT_V4COEF_tapHi (ix.getD 0 0) (ix.getD 1 0) (ix.getD 2 0), .rw, .commit, none⟩]⟩,
  ⟨0x20208500, [(0x800, 8), (0x4, 64)], false,
    fun ix => [⟨CMP_OUT_V2COEF_tapLo (ix.getD 0 0) (ix.getD 1 0), .rw, .commit, none⟩,
      ⟨CMP_OUT_V2COEF_tapHi (ix.getD 0 0) (ix.getD 1 0), .rw, .commit, none⟩]⟩]

/-- Table DKW-10 — Global registers (part 1). -/
def rowsDKW10_0 : List Row := [
  ⟨0x20240000, [(0x4, 8)], false,
    fun ix => [⟨DKW_KEY_key (ix.getD 0 0), .wo, .live, none⟩]⟩,
  ⟨0x20240020, [], false,
    fun _ => [⟨DKW_KEY_CTRL_load, .wo, .live, none⟩,
      ⟨DKW_KEY_CTRL_keyed, .ro, .none, none⟩]⟩,
  ⟨0x20240030, [], true,
    fun _ => [⟨DKW_RING_BASE_base, .rw, .start, none⟩]⟩,
  ⟨0x20240038, [], false,
    fun _ => [⟨DKW_RING_CTRL_size, .rw, .start, none⟩,
      ⟨DKW_RING_CTRL_enable, .rw, .live, none⟩]⟩,
  ⟨0x2024003C, [], false,
    fun _ => [⟨DKW_RING_WR_index, .ro, .none, none⟩]⟩,
  ⟨0x20240040, [], false,
    fun _ => [⟨DKW_RING_RD_index, .rw, .live, none⟩]⟩,
  ⟨0x20240044, [], false,
    fun _ => [⟨DKW_RING_OVERRUN_count, .w1c, .none, none⟩]⟩,
  ⟨0x20240048, [], false,
    fun _ => [⟨DKW_STREAM_onl, .rw, .live, none⟩,
      ⟨DKW_STREAM_rec, .rw, .live, none⟩]⟩,
  ⟨0x20240050, [], false,
    fun _ => [⟨DKW_HEAD_SNAP_snap, .w1s, .live, none⟩]⟩,
  ⟨0x20240058, [], true,
    fun _ => [⟨DKW_HEAD_TIME_time, .ro, .none, none⟩]⟩,
  ⟨0x20240100, [(0x40, 8)], false,
    fun ix => [⟨DKW_HEAD_FRAME_frame (ix.getD 0 0), .ro, .none, none⟩]⟩,
  ⟨0x20240104, [(0x40, 8), (0x4, 8)], false,
    fun ix => [⟨DKW_HEAD_MAC_mac (ix.getD 0 0) (ix.getD 1 0), .ro, .none, none⟩]⟩]

/-- Table DKW-10 — Global registers (part 2). -/
def rowsDKW10_1 : List Row := [
  ⟨0x20240400, [(0x10, 16)], true,
    fun ix => [⟨DKW_IMG_ADDR_addr (ix.getD 0 0), .rw, .live, none⟩]⟩,
  ⟨0x20240408, [(0x10, 16)], false,
    fun ix => [⟨DKW_IMG_SIZE_w (ix.getD 0 0), .rw, .live, none⟩,
      ⟨DKW_IMG_SIZE_h (ix.getD 0 0), .rw, .live, none⟩]⟩,
  ⟨0x2024040C, [(0x10, 16)], false,
    fun ix => [⟨DKW_IMG_FMT_format (ix.getD 0 0), .rw, .live, none⟩,
      ⟨DKW_IMG_FMT_stride (ix.getD 0 0), .rw, .live, none⟩]⟩]

/-- Table DKW-10 — Global registers. -/
def rowsDKW10 : List Row := rowsDKW10_0 ++ rowsDKW10_1

/-- Table DKW-11 — Slot registers (slot m, at 0x1000 + 0x20 × m). -/
def rowsDKW11 : List Row := [
  ⟨0x20241000, [(0x20, 64)], false,
    fun ix => [⟨DKW_SLOT_CLASS_class (ix.getD 0 0), .rw, .commit, some (0, 2)⟩,
      ⟨DKW_SLOT_CLASS_treatment (ix.getD 0 0), .rw, .commit, some (0, 2)⟩,
      ⟨DKW_SLOT_CLASS_image (ix.getD 0 0), .rw, .commit, none⟩,
      ⟨DKW_SLOT_CLASS_frozen_n (ix.getD 0 0), .rw, .commit, none⟩,
      ⟨DKW_SLOT_CLASS_treat_degraded (ix.getD 0 0), .rw, .commit, none⟩]⟩,
  ⟨0x20241004, [(0x20, 64)], false,
    fun ix => [⟨DKW_SLOT_MAXAGE_us (ix.getD 0 0), .rw, .commit, none⟩]⟩,
  ⟨0x20241008, [(0x20, 64)], false,
    fun ix => [⟨DKW_SLOT_HBPERIOD_us (ix.getD 0 0), .rw, .commit, none⟩]⟩,
  ⟨0x2024100C, [(0x20, 64)], false,
    fun ix => [⟨DKW_SLOT_MOTION_XY_x (ix.getD 0 0), .rw, .commit, none⟩,
      ⟨DKW_SLOT_MOTION_XY_y (ix.getD 0 0), .rw, .commit, none⟩]⟩,
  ⟨0x20241010, [(0x20, 64)], false,
    fun ix => [⟨DKW_SLOT_MOTION_WH_w (ix.getD 0 0), .rw, .commit, none⟩,
      ⟨DKW_SLOT_MOTION_WH_h (ix.getD 0 0), .rw, .commit, none⟩]⟩,
  ⟨0x20241014, [(0x20, 64)], false,
    fun ix => [⟨DKW_SLOT_BLANK_rgb (ix.getD 0 0), .rw, .commit, none⟩]⟩,
  ⟨0x20241018, [(0x20, 64)], false,
    fun ix => [⟨DKW_SLOT_STATE_state (ix.getD 0 0), .ro, .none, none⟩,
      ⟨DKW_SLOT_STATE_action (ix.getD 0 0), .ro, .none, none⟩,
      ⟨DKW_SLOT_STATE_dropped (ix.getD 0 0), .ro, .none, none⟩,
      ⟨DKW_SLOT_STATE_run (ix.getD 0 0), .ro, .none, none⟩]⟩,
  ⟨0x2024101C, [(0x20, 64)], false,
    fun ix => [⟨DKW_SLOT_AGE_us (ix.getD 0 0), .ro, .none, none⟩]⟩]

/-- Table DKW-12 — Region and output registers (region r of output n at 0x4000 + 0x200 × n + 0x20 × r; output registers at 0x6000 + 0x10 × n). -/
def rowsDKW12 : List Row := [
  ⟨0x20244000, [(0x200, 8), (0x20, 16)], false,
    fun ix => [⟨DKW_OUT_REG_XY_x (ix.getD 0 0) (ix.getD 1 0), .rw, .commit, none⟩,
      ⟨DKW_OUT_REG_XY_y (ix.getD 0 0) (ix.getD 1 0), .rw, .commit, none⟩]⟩,
  ⟨0x20244004, [(0x200, 8), (0x20, 16)], false,
    fun ix => [⟨DKW_OUT_REG_WH_w (ix.getD 0 0) (ix.getD 1 0), .rw, .commit, none⟩,
      ⟨DKW_OUT_REG_WH_h (ix.getD 0 0) (ix.getD 1 0), .rw, .commit, none⟩]⟩,
  ⟨0x20244008, [(0x200, 8), (0x20, 16)], false,
    fun ix => [⟨DKW_OUT_REG_CTRL_enable (ix.getD 0 0) (ix.getD 1 0), .rw, .commit, none⟩,
      ⟨DKW_OUT_REG_CTRL_source (ix.getD 0 0) (ix.getD 1 0), .rw, .commit, some (0, 2)⟩,
      ⟨DKW_OUT_REG_CTRL_action (ix.getD 0 0) (ix.getD 1 0), .rw, .commit, some (0, 2)⟩,
      ⟨DKW_OUT_REG_CTRL_bind (ix.getD 0 0) (ix.getD 1 0), .rw, .commit, none⟩,
      ⟨DKW_OUT_REG_CTRL_slot (ix.getD 0 0) (ix.getD 1 0), .rw, .commit, none⟩,
      ⟨DKW_OUT_REG_CTRL_image (ix.getD 0 0) (ix.getD 1 0), .rw, .commit, none⟩]⟩,
  ⟨0x2024400C, [(0x200, 8), (0x20, 16)], false,
    fun ix => [⟨DKW_OUT_REG_EXPECT_value (ix.getD 0 0) (ix.getD 1 0), .wo, .live, none⟩]⟩,
  ⟨0x20244010, [(0x200, 8), (0x20, 16)], false,
    fun ix => [⟨DKW_OUT_REG_EXPECT_PUSH_tag (ix.getD 0 0) (ix.getD 1 0), .wo, .live, none⟩]⟩,
  ⟨0x20244014, [(0x200, 8), (0x20, 16)], false,
    fun ix => [⟨DKW_OUT_REG_EXPECT_STAT_queued (ix.getD 0 0) (ix.getD 1 0), .ro, .none, none⟩,
      ⟨DKW_OUT_REG_EXPECT_STAT_overflow (ix.getD 0 0) (ix.getD 1 0), .w1c, .none, none⟩]⟩,
  ⟨0x20244018, [(0x200, 8), (0x20, 16)], false,
    fun ix => [⟨DKW_OUT_REG_LAST_sig (ix.getD 0 0) (ix.getD 1 0), .ro, .none, none⟩]⟩,
  ⟨0x2024401C, [(0x200, 8), (0x20, 16)], false,
    fun ix => [⟨DKW_OUT_REG_STAT_status (ix.getD 0 0) (ix.getD 1 0), .ro, .none, none⟩]⟩,
  ⟨0x20246000, [(0x10, 8)], false,
    fun ix => [⟨DKW_OUT_BREACH_region (ix.getD 0 0), .w1c, .live, none⟩]⟩,
  ⟨0x20246004, [(0x10, 8)], false,
    fun ix => [⟨DKW_OUT_RELEARN_region (ix.getD 0 0), .w1s, .live, none⟩]⟩,
  ⟨0x20246008, [(0x10, 8)], false,
    fun ix => [⟨DKW_OUT_COUNT_breaches (ix.getD 0 0), .w1c, .none, none⟩,
      ⟨DKW_OUT_COUNT_tiles (ix.getD 0 0), .w1c, .none, none⟩]⟩]

/-- Table SCN-6 — SCN registers (part 1). -/
def rowsSCN6_0 : List Row := [
  ⟨0x20280000, [(0x10000, 8)], false,
    fun ix => [⟨SCN_HTIME0_h_active (ix.getD 0 0), .rw, .start, none⟩,
      ⟨SCN_HTIME0_h_total (ix.getD 0 0), .rw, .start, none⟩]⟩,
  ⟨0x20280004, [(0x10000, 8)], false,
    fun ix => [⟨SCN_HTIME1_hsync_start (ix.getD 0 0), .rw, .start, none⟩,
      ⟨SCN_HTIME1_hsync_end (ix.getD 0 0), .rw, .start, none⟩,
      ⟨SCN_HTIME1_hpol (ix.getD 0 0), .rw, .start, none⟩]⟩,
  ⟨0x20280008, [(0x10000, 8)], false,
    fun ix => [⟨SCN_VTIME0_v_active (ix.getD 0 0), .rw, .start, none⟩,
      ⟨SCN_VTIME0_v_total (ix.getD 0 0), .rw, .start, none⟩]⟩,
  ⟨0x2028000C, [(0x10000, 8)], false,
    fun ix => [⟨SCN_VTIME1_vsync_start (ix.getD 0 0), .rw, .start, none⟩,
      ⟨SCN_VTIME1_vsync_end (ix.getD 0 0), .rw, .start, none⟩,
      ⟨SCN_VTIME1_vpol (ix.getD 0 0), .rw, .start, none⟩]⟩,
  ⟨0x20280010, [(0x10000, 8)], true,
    fun ix => [⟨SCN_PACE_INC_frac (ix.getD 0 0), .rw, .start, none⟩,
      ⟨SCN_PACE_INC_int (ix.getD 0 0), .rw, .start, some (0, 3)⟩]⟩,
  ⟨0x20280018, [(0x10000, 8)], false,
    fun ix => [⟨SCN_FORMAT_depth8 (ix.getD 0 0), .rw, .start, none⟩,
      ⟨SCN_FORMAT_link (ix.getD 0 0), .rw, .start, some (0, 4)⟩,
      ⟨SCN_FORMAT_cmd_mode (ix.getD 0 0), .rw, .start, none⟩,
      ⟨SCN_FORMAT_te_en (ix.getD 0 0), .rw, .start, none⟩,
      ⟨SCN_FORMAT_bt2020 (ix.getD 0 0), .rw, .start, none⟩,
      ⟨SCN_FORMAT_dsc (ix.getD 0 0), .rw, .start, none⟩]⟩,
  ⟨0x2028001C, [(0x10000, 8)], false,
    fun ix => [⟨SCN_RATE_mhz (ix.getD 0 0), .ro, .none, none⟩]⟩,
  ⟨0x20280020, [(0x10000, 8)], false,
    fun ix => [⟨SCN_FILL_rgb (ix.getD 0 0), .rw, .live, none⟩]⟩,
  ⟨0x20280024, [(0x10000, 8)], false,
    fun ix => [⟨SCN_FRAME_frame (ix.getD 0 0), .ro, .none, none⟩]⟩,
  ⟨0x20280028, [(0x10000, 8)], true,
    fun ix => [⟨SCN_FLIP_TIME_time (ix.getD 0 0), .ro, .none, none⟩]⟩,
  ⟨0x20280030, [(0x10000, 8)], false,
    fun ix => [⟨SCN_POS_line (ix.getD 0 0), .ro, .none, none⟩,
      ⟨SCN_POS_pixel (ix.getD 0 0), .ro, .none, none⟩]⟩,
  ⟨0x20280034, [(0x10000, 8)], false,
    fun ix => [⟨SCN_STATUS_running (ix.getD 0 0), .ro, .none, none⟩,
      ⟨SCN_STATUS_link_up (ix.getD 0 0), .ro, .none, none⟩,
      ⟨SCN_STATUS_sink (ix.getD 0 0), .ro, .none, none⟩,
      ⟨SCN_STATUS_stretching (ix.getD 0 0), .ro, .none, none⟩]⟩]

/-- Table SCN-6 — SCN registers (part 2). -/
def rowsSCN6_1 : List Row := [
  ⟨0x20280038, [(0x10000, 8)], false,
    fun ix => [⟨SCN_LINK_rate (ix.getD 0 0), .rw, .start, some (0, 10)⟩,
      ⟨SCN_LINK_lanes (ix.getD 0 0), .rw, .start, none⟩,
      ⟨SCN_LINK_dsi_rate (ix.getD 0 0), .rw, .start, none⟩]⟩,
  ⟨0x2028003C, [(0x10000, 8)], false,
    fun ix => [⟨SCN_DSC_bpp16 (ix.getD 0 0), .rw, .start, none⟩,
      ⟨SCN_DSC_slices (ix.getD 0 0), .rw, .start, none⟩,
      ⟨SCN_DSC_slice_h (ix.getD 0 0), .rw, .start, none⟩]⟩,
  ⟨0x20280040, [(0x10000, 8)], false,
    fun ix => [⟨SCN_LINK_DELAY_ns (ix.getD 0 0), .ro, .none, none⟩]⟩,
  ⟨0x20280050, [(0x10000, 8)], false,
    fun ix => [⟨SCN_LOCK_CTRL_enable (ix.getD 0 0), .rw, .live, none⟩,
      ⟨SCN_LOCK_CTRL_method (ix.getD 0 0), .rw, .live, none⟩,
      ⟨SCN_LOCK_CTRL_max_stretch (ix.getD 0 0), .rw, .live, none⟩,
      ⟨SCN_LOCK_CTRL_group (ix.getD 0 0), .rw, .live, none⟩]⟩,
  ⟨0x20280054, [(0x10000, 8)], false,
    fun ix => [⟨SCN_LOCK_PHASE_ns (ix.getD 0 0), .rw, .live, none⟩]⟩,
  ⟨0x20280058, [(0x10000, 8)], false,
    fun ix => [⟨SCN_LOCK_ERR_ns (ix.getD 0 0), .ro, .none, none⟩]⟩,
  ⟨0x2028005C, [(0x10000, 8)], false,
    fun ix => [⟨SCN_LOCK_STAT_state (ix.getD 0 0), .ro, .none, none⟩,
      ⟨SCN_LOCK_STAT_time_unsync (ix.getD 0 0), .ro, .none, none⟩,
      ⟨SCN_LOCK_STAT_trim (ix.getD 0 0), .ro, .none, none⟩]⟩,
  ⟨0x20280060, [(0x10000, 8)], true,
    fun ix => [⟨SCN_LOCK_TARGET_time (ix.getD 0 0), .ro, .none, none⟩]⟩]

/-- Table SCN-6 — SCN registers. -/
def rowsSCN6 : List Row := rowsSCN6_0 ++ rowsSCN6_1

/-- Table GFX-1 — Device registers. -/
def rowsGFX1 : List Row := [
  ⟨0x20300000, [], false,
    fun _ => [⟨GFX_STATUS_busy, .ro, .none, none⟩,
      ⟨GFX_STATUS_rt_active, .ro, .none, none⟩]⟩,
  ⟨0x20300004, [], false,
    fun _ => [⟨GFX_RESERVE_count, .rw, .live, some (0, 8)⟩,
      ⟨GFX_RESERVE_floor, .ro, .none, none⟩,
      ⟨GFX_RESERVE_mask, .ro, .none, none⟩]⟩,
  ⟨0x20300008, [], false,
    fun _ => [⟨GFX_RT_ALLOW_polders, .rw, .live, none⟩]⟩,
  ⟨0x2030000C, [], false,
    fun _ => [⟨GFX_WDOG_ms, .rw, .live, some (1, 1000)⟩]⟩,
  ⟨0x20300010, [], false,
    fun _ => [⟨GFX_PREEMPTS_count, .ro, .none, none⟩]⟩,
  ⟨0x20300100, [(0x4, 32)], false,
    fun ix => [⟨GFX_AREA_first (ix.getD 0 0), .rw, .live, none⟩,
      ⟨GFX_AREA_count (ix.getD 0 0), .rw, .live, none⟩]⟩]

/-- Table GFX-2 — Window registers (window w at 0x1000 + 0x100 × w within the doorbell page) (part 1). -/
def rowsGFX2_0 : List Row := [
  ⟨0x30001000, [(0x10000, 32), (0x100, 16)], true,
    fun ix => [⟨GFX_CTX_SUB_ADDR_addr (ix.getD 0 0) (ix.getD 1 0), .rw, .live, none⟩]⟩,
  ⟨0x30001008, [(0x10000, 32), (0x100, 16)], false,
    fun ix => [⟨GFX_CTX_SUB_LEN_bytes (ix.getD 0 0) (ix.getD 1 0), .rw, .live, none⟩,
      ⟨GFX_CTX_SUB_LEN_irq (ix.getD 0 0) (ix.getD 1 0), .rw, .live, none⟩]⟩,
  ⟨0x30001010, [(0x10000, 32), (0x100, 16)], true,
    fun ix => [⟨GFX_CTX_SUB_FENCE_addr (ix.getD 0 0) (ix.getD 1 0), .rw, .live, none⟩]⟩,
  ⟨0x30001018, [(0x10000, 32), (0x100, 16)], true,
    fun ix => [⟨GFX_CTX_SUB_VALUE_value (ix.getD 0 0) (ix.getD 1 0), .rw, .live, none⟩]⟩,
  ⟨0x30001020, [(0x10000, 32), (0x100, 16)], false,
    fun ix => [⟨GFX_CTX_DOORBELL_submit (ix.getD 0 0) (ix.getD 1 0), .wo, .live, none⟩]⟩,
  ⟨0x30001024, [(0x10000, 32), (0x100, 16)], false,
    fun ix => [⟨GFX_CTX_DB_STATUS_status (ix.getD 0 0) (ix.getD 1 0), .ro, .none, none⟩,
      ⟨GFX_CTX_DB_STATUS_number (ix.getD 0 0) (ix.getD 1 0), .ro, .none, none⟩]⟩,
  ⟨0x30001028, [(0x10000, 32), (0x100, 16)], false,
    fun ix => [⟨GFX_CTX_STAT_state (ix.getD 0 0) (ix.getD 1 0), .ro, .none, none⟩,
      ⟨GFX_CTX_STAT_class (ix.getD 0 0) (ix.getD 1 0), .ro, .none, none⟩,
      ⟨GFX_CTX_STAT_priority (ix.getD 0 0) (ix.getD 1 0), .ro, .none, none⟩,
      ⟨GFX_CTX_STAT_queued (ix.getD 0 0) (ix.getD 1 0), .ro, .none, none⟩,
      ⟨GFX_CTX_STAT_resident (ix.getD 0 0) (ix.getD 1 0), .ro, .none, none⟩,
      ⟨GFX_CTX_STAT_context (ix.getD 0 0) (ix.getD 1 0), .ro, .none, none⟩]⟩,
  ⟨0x3000102C, [(0x10000, 32), (0x100, 16)], false,
    fun ix => [⟨GFX_CTX_DONE_number (ix.getD 0 0) (ix.getD 1 0), .ro, .none, none⟩]⟩,
  ⟨0x30001030, [(0x10000, 32), (0x100, 16)], false,
    fun ix => [⟨GFX_CTX_FAULT_reason (ix.getD 0 0) (ix.getD 1 0), .ro, .none, none⟩,
      ⟨GFX_CTX_FAULT_offset (ix.getD 0 0) (ix.getD 1 0), .ro, .none, none⟩]⟩,
  ⟨0x30001034, [(0x10000, 32), (0x100, 16)], false,
    fun ix => [⟨GFX_CTX_FAULT_SUB_number (ix.getD 0 0) (ix.getD 1 0), .ro, .none, none⟩]⟩,
  ⟨0x30001038, [(0x10000, 32), (0x100, 16)], false,
    fun ix => [⟨GFX_CTX_SPILLS_count (ix.getD 0 0) (ix.getD 1 0), .ro, .none, none⟩]⟩,
  ⟨0x3000103C, [(0x10000, 32), (0x100, 16)], false,
    fun ix => [⟨GFX_CTX_NONRES_count (ix.getD 0 0) (ix.getD 1 0), .ro, .none, none⟩]⟩]

/-- Table GFX-2 — Window registers (window w at 0x1000 + 0x100 × w within the doorbell page) (part 2). -/
def rowsGFX2_1 : List Row := [
  ⟨0x30001040, [(0x10000, 32), (0x100, 16)], false,
    fun ix => [⟨GFX_CTX_TESS_CLAMP_count (ix.getD 0 0) (ix.getD 1 0), .ro, .none, none⟩]⟩,
  ⟨0x30001044, [(0x10000, 32), (0x100, 16)], false,
    fun ix => [⟨GFX_CTX_PEAK_kib (ix.getD 0 0) (ix.getD 1 0), .ro, .none, none⟩]⟩,
  ⟨0x30001048, [(0x10000, 32), (0x100, 16)], false,
    fun ix => [⟨GFX_CTX_EVENT_done (ix.getD 0 0) (ix.getD 1 0), .w1c, .none, none⟩,
      ⟨GFX_CTX_EVENT_fault (ix.getD 0 0) (ix.getD 1 0), .w1c, .none, none⟩,
      ⟨GFX_CTX_EVENT_spill (ix.getD 0 0) (ix.getD 1 0), .w1c, .none, none⟩]⟩]

/-- Table GFX-2 — Window registers (window w at 0x1000 + 0x100 × w within the doorbell page). -/
def rowsGFX2 : List Row := rowsGFX2_0 ++ rowsGFX2_1

/-- Table VCD-5 — Session window registers (session s at 0x2000 + 0x38 × s within the doorbell page). -/
def rowsVCD5 : List Row := [
  ⟨0x30002000, [(0x38, 64)], true,
    fun ix => [⟨VCD_SES_ADDR_addr (ix.getD 0 0), .rw, .live, none⟩]⟩,
  ⟨0x30002008, [(0x38, 64)], false,
    fun ix => [⟨VCD_SES_LEN_bytes (ix.getD 0 0), .rw, .live, none⟩,
      ⟨VCD_SES_LEN_eos (ix.getD 0 0), .rw, .live, none⟩,
      ⟨VCD_SES_LEN_discont (ix.getD 0 0), .rw, .live, none⟩,
      ⟨VCD_SES_LEN_key (ix.getD 0 0), .rw, .live, none⟩]⟩,
  ⟨0x3000200C, [(0x38, 64)], false,
    fun ix => [⟨VCD_SES_DOORBELL_submit (ix.getD 0 0), .wo, .live, none⟩]⟩,
  ⟨0x30002010, [(0x38, 64)], true,
    fun ix => [⟨VCD_SES_TS_ts (ix.getD 0 0), .rw, .live, none⟩]⟩,
  ⟨0x30002018, [(0x38, 64)], false,
    fun ix => [⟨VCD_SES_DB_STATUS_status (ix.getD 0 0), .ro, .none, none⟩,
      ⟨VCD_SES_DB_STATUS_number (ix.getD 0 0), .ro, .none, none⟩]⟩,
  ⟨0x3000201C, [(0x38, 64)], false,
    fun ix => [⟨VCD_SES_STAT_state (ix.getD 0 0), .ro, .none, none⟩,
      ⟨VCD_SES_STAT_queued (ix.getD 0 0), .ro, .none, none⟩,
      ⟨VCD_SES_STAT_starved (ix.getD 0 0), .ro, .none, none⟩,
      ⟨VCD_SES_STAT_grain (ix.getD 0 0), .ro, .none, none⟩,
      ⟨VCD_SES_STAT_key_pending (ix.getD 0 0), .ro, .none, none⟩,
      ⟨VCD_SES_STAT_concealed (ix.getD 0 0), .ro, .none, none⟩]⟩,
  ⟨0x30002020, [(0x38, 64)], false,
    fun ix => [⟨VCD_SES_DONE_number (ix.getD 0 0), .ro, .none, none⟩]⟩,
  ⟨0x30002024, [(0x38, 64)], false,
    fun ix => [⟨VCD_SES_RING_WR_offset (ix.getD 0 0), .ro, .none, none⟩]⟩,
  ⟨0x30002028, [(0x38, 64)], false,
    fun ix => [⟨VCD_SES_RING_RD_offset (ix.getD 0 0), .rw, .live, none⟩]⟩,
  ⟨0x3000202C, [(0x38, 64)], false,
    fun ix => [⟨VCD_SES_KEYREQ_req (ix.getD 0 0), .wo, .live, none⟩]⟩,
  ⟨0x30002030, [(0x38, 64)], false,
    fun ix => [⟨VCD_SES_EVENT_done (ix.getD 0 0), .w1c, .none, none⟩,
      ⟨VCD_SES_EVENT_fault (ix.getD 0 0), .w1c, .none, none⟩,
      ⟨VCD_SES_EVENT_lost (ix.getD 0 0), .w1c, .none, none⟩,
      ⟨VCD_SES_EVENT_overshoot (ix.getD 0 0), .w1c, .none, none⟩,
      ⟨VCD_SES_EVENT_ring (ix.getD 0 0), .w1c, .none, none⟩]⟩]

/-- Table VCD-6 — VCD device registers (0x00_2040_0000; writes follow R24). -/
def rowsVCD6 : List Row := [
  ⟨0x20400000, [], false,
    fun _ => [⟨VCD_STATUS_busy, .ro, .none, none⟩]⟩,
  ⟨0x20400004, [], false,
    fun _ => [⟨VCD_LOAD_DEC_samples, .ro, .none, none⟩]⟩,
  ⟨0x20400008, [], false,
    fun _ => [⟨VCD_LOAD_ENC_samples, .ro, .none, none⟩]⟩,
  ⟨0x2040000C, [], false,
    fun _ => [⟨VCD_ENG_RESET_reset, .w1s, .live, none⟩]⟩,
  ⟨0x20400010, [], false,
    fun _ => [⟨VCD_ENG_OFFLINE_engines, .ro, .none, none⟩]⟩,
  ⟨0x20400014, [], false,
    fun _ => [⟨VCD_REQUEUES_count, .ro, .none, none⟩]⟩]

/-- Table CAP-1 — Capture registers (input c at 0x00_2050_0000 + c × 0x1_0000; written by Tujan). -/
def rowsCAP1 : List Row := [
  ⟨0x20500000, [(0x10000, 4)], false,
    fun ix => [⟨CAP_CTRL_enable (ix.getD 0 0), .rw, .start, none⟩,
      ⟨CAP_CTRL_slot (ix.getD 0 0), .rw, .start, none⟩,
      ⟨CAP_CTRL_buffers (ix.getD 0 0), .rw, .start, some (1, 3)⟩,
      ⟨CAP_CTRL_present (ix.getD 0 0), .rw, .start, none⟩]⟩,
  ⟨0x20500004, [(0x10000, 4)], false,
    fun ix => [⟨CAP_DELAY_us (ix.getD 0 0), .rw, .start, none⟩]⟩,
  ⟨0x20500008, [(0x10000, 4)], false,
    fun ix => [⟨CAP_STRIDE_stride (ix.getD 0 0), .rw, .start, none⟩]⟩,
  ⟨0x20500010, [(0x10000, 4), (0x8, 4)], true,
    fun ix => [⟨CAP_BUF_addr (ix.getD 0 0) (ix.getD 1 0), .rw, .start, none⟩]⟩,
  ⟨0x20500030, [(0x10000, 4)], false,
    fun ix => [⟨CAP_STATUS_signal (ix.getD 0 0), .ro, .none, none⟩,
      ⟨CAP_STATUS_hdcp (ix.getD 0 0), .ro, .none, none⟩,
      ⟨CAP_STATUS_unsupported (ix.getD 0 0), .ro, .none, none⟩,
      ⟨CAP_STATUS_stopped (ix.getD 0 0), .ro, .none, none⟩,
      ⟨CAP_STATUS_format (ix.getD 0 0), .ro, .none, none⟩]⟩,
  ⟨0x20500034, [(0x10000, 4)], false,
    fun ix => [⟨CAP_TIMING_h (ix.getD 0 0), .ro, .none, none⟩,
      ⟨CAP_TIMING_v (ix.getD 0 0), .ro, .none, none⟩]⟩,
  ⟨0x20500038, [(0x10000, 4)], false,
    fun ix => [⟨CAP_RATE_mhz (ix.getD 0 0), .ro, .none, none⟩]⟩,
  ⟨0x20500040, [(0x10000, 4)], true,
    fun ix => [⟨CAP_TIME_time (ix.getD 0 0), .ro, .none, none⟩]⟩,
  ⟨0x20500048, [(0x10000, 4)], false,
    fun ix => [⟨CAP_COUNTS_queued (ix.getD 0 0), .ro, .none, none⟩,
      ⟨CAP_COUNTS_dropped (ix.getD 0 0), .w1c, .none, none⟩]⟩]

/-- Table AUD-6 — AUD device registers. -/
def rowsAUD6 : List Row := [
  ⟨0x20600000, [(0x10, 3)], false,
    fun ix => [⟨AUD_DOM_CTRL_enable (ix.getD 0 0), .rw, .start, none⟩,
      ⟨AUD_DOM_CTRL_ref (ix.getD 0 0), .rw, .start, none⟩,
      ⟨AUD_DOM_CTRL_rate (ix.getD 0 0), .rw, .start, none⟩]⟩,
  ⟨0x20600004, [(0x10, 3)], false,
    fun ix => [⟨AUD_DOM_STAT_locked (ix.getD 0 0), .ro, .none, none⟩,
      ⟨AUD_DOM_STAT_offset (ix.getD 0 0), .ro, .none, none⟩]⟩,
  ⟨0x20600008, [(0x10, 3)], true,
    fun ix => [⟨AUD_DOM_SAMPLES_count (ix.getD 0 0), .ro, .none, none⟩]⟩,
  ⟨0x20600100, [(0x4, 8)], false,
    fun ix => [⟨AUD_TDM_CFG_enable (ix.getD 0 0), .rw, .start, none⟩,
      ⟨AUD_TDM_CFG_domain (ix.getD 0 0), .rw, .start, none⟩,
      ⟨AUD_TDM_CFG_slots (ix.getD 0 0), .rw, .start, none⟩,
      ⟨AUD_TDM_CFG_width (ix.getD 0 0), .rw, .start, none⟩,
      ⟨AUD_TDM_CFG_master (ix.getD 0 0), .rw, .start, none⟩,
      ⟨AUD_TDM_CFG_delay1 (ix.getD 0 0), .rw, .start, none⟩]⟩,
  ⟨0x20600140, [], false,
    fun _ => [⟨AUD_AES67_CFG_domain, .rw, .start, none⟩]⟩,
  ⟨0x20600200, [(0x4, 32)], false,
    fun ix => [⟨AUD_BRG_CFG_enable (ix.getD 0 0), .rw, .start, none⟩,
      ⟨AUD_BRG_CFG_src (ix.getD 0 0), .rw, .start, none⟩,
      ⟨AUD_BRG_CFG_dst (ix.getD 0 0), .rw, .start, none⟩,
      ⟨AUD_BRG_CFG_offset (ix.getD 0 0), .ro, .none, none⟩]⟩,
  ⟨0x20600300, [(0x4, 8)], false,
    fun ix => [⟨AUD_ST_CFG_in (ix.getD 0 0), .rw, .live, none⟩,
      ⟨AUD_ST_CFG_out (ix.getD 0 0), .rw, .live, none⟩,
      ⟨AUD_ST_CFG_gain (ix.getD 0 0), .rw, .live, none⟩,
      ⟨AUD_ST_CFG_enable (ix.getD 0 0), .rw, .live, none⟩]⟩,
  ⟨0x20600400, [], false,
    fun _ => [⟨AUD_LOAD_cost, .ro, .none, none⟩,
      ⟨AUD_LOAD_budget, .ro, .none, none⟩]⟩]

/-- Table AUD-7 — Audio registers in the doorbell page (sub-page 0x3000) (part 1). -/
def rowsAUD7_0 : List Row := [
  ⟨0x30003000, [(0x10000, 32), (0x20, 8)], true,
    fun ix => [⟨AUD_RING_BASE_addr (ix.getD 0 0) (ix.getD 1 0), .rw, .start, none⟩]⟩,
  ⟨0x30003008, [(0x10000, 32), (0x20, 8)], false,
    fun ix => [⟨AUD_RING_CFG_enable (ix.getD 0 0) (ix.getD 1 0), .rw, .live, none⟩,
      ⟨AUD_RING_CFG_dir (ix.getD 0 0) (ix.getD 1 0), .rw, .start, none⟩,
      ⟨AUD_RING_CFG_domain (ix.getD 0 0) (ix.getD 1 0), .rw, .start, none⟩,
      ⟨AUD_RING_CFG_chans (ix.getD 0 0) (ix.getD 1 0), .rw, .start, none⟩,
      ⟨AUD_RING_CFG_irq (ix.getD 0 0) (ix.getD 1 0), .rw, .live, none⟩,
      ⟨AUD_RING_CFG_frames (ix.getD 0 0) (ix.getD 1 0), .rw, .start, none⟩]⟩,
  ⟨0x3000300C, [(0x10000, 32), (0x20, 8)], false,
    fun ix => [⟨AUD_RING_WR_frame (ix.getD 0 0) (ix.getD 1 0), .rw, .live, none⟩]⟩,
  ⟨0x30003010, [(0x10000, 32), (0x20, 8)], false,
    fun ix => [⟨AUD_RING_RD_frame (ix.getD 0 0) (ix.getD 1 0), .rw, .live, none⟩]⟩,
  ⟨0x30003014, [(0x10000, 32), (0x20, 8)], false,
    fun ix => [⟨AUD_RING_STAT_active (ix.getD 0 0) (ix.getD 1 0), .ro, .none, none⟩,
      ⟨AUD_RING_STAT_bad_addr (ix.getD 0 0) (ix.getD 1 0), .ro, .none, none⟩,
      ⟨AUD_RING_STAT_errors (ix.getD 0 0) (ix.getD 1 0), .w1c, .none, none⟩]⟩,
  ⟨0x30003100, [(0x10000, 32)], false,
    fun ix => [⟨AUD_SWAP_swap (ix.getD 0 0), .wo, .live, none⟩,
      ⟨AUD_SWAP_xfade (ix.getD 0 0), .wo, .live, some (0, 2)⟩]⟩,
  ⟨0x30003104, [(0x10000, 32)], false,
    fun ix => [⟨AUD_SWAP_STATUS_status (ix.getD 0 0), .ro, .none, none⟩,
      ⟨AUD_SWAP_STATUS_state (ix.getD 0 0), .ro, .none, none⟩]⟩,
  ⟨0x30003108, [(0x10000, 32)], true,
    fun ix => [⟨AUD_SWAP_SAMPLE_count (ix.getD 0 0), .ro, .none, none⟩]⟩,
  ⟨0x30003110, [(0x10000, 32)], false,
    fun ix => [⟨AUD_PROG_STAT_active (ix.getD 0 0), .ro, .none, none⟩,
      ⟨AUD_PROG_STAT_staged (ix.getD 0 0), .ro, .none, none⟩,
      ⟨AUD_PROG_STAT_cost (ix.getD 0 0), .ro, .none, none⟩]⟩,
  ⟨0x30003114, [(0x10000, 32)], false,
    fun ix => [⟨AUD_EVENT_lines (ix.getD 0 0), .w1c, .none, none⟩]⟩,
  ⟨0x30003200, [(0x10000, 32)], false,
    fun ix => [⟨AUD_METER_CLR_clear (ix.getD 0 0), .w1s, .live, none⟩]⟩,
  ⟨0x30003280, [(0x10000, 32), (0x4, 32)], false,
    fun ix => [⟨AUD_METER_peak (ix.getD 0 0) (ix.getD 1 0), .ro, .none, none⟩]⟩]

/-- Table AUD-7 — Audio registers in the doorbell page (sub-page 0x3000) (part 2). -/
def rowsAUD7_1 : List Row := [
  ⟨0x30003400, [(0x10000, 32), (0x4, 256)], false,
    fun ix => [⟨AUD_GAIN_gain (ix.getD 0 0) (ix.getD 1 0), .rw, .live, none⟩]⟩]

/-- Table AUD-7 — Audio registers in the doorbell page (sub-page 0x3000). -/
def rowsAUD7 : List Row := rowsAUD7_0 ++ rowsAUD7_1

/-- Table HAP-3 — HAP channel registers. -/
def rowsHAP3 : List Row := [
  ⟨0x20640000, [(0x100, 8)], false,
    fun ix => [⟨HAP_CH_CTRL_enable (ix.getD 0 0), .rw, .live, none⟩,
      ⟨HAP_CH_CTRL_bus_en (ix.getD 0 0), .rw, .live, none⟩,
      ⟨HAP_CH_CTRL_dead (ix.getD 0 0), .rw, .start, none⟩]⟩,
  ⟨0x20640004, [(0x100, 8)], false,
    fun ix => [⟨HAP_CH_DRIVE_inom (ix.getD 0 0), .rw, .live, none⟩,
      ⟨HAP_CH_DRIVE_od (ix.getD 0 0), .rw, .live, none⟩,
      ⟨HAP_CH_DRIVE_od_ms (ix.getD 0 0), .rw, .live, none⟩,
      ⟨HAP_CH_DRIVE_brake_max (ix.getD 0 0), .rw, .live, none⟩]⟩,
  ⟨0x20640008, [(0x100, 8)], false,
    fun ix => [⟨HAP_CH_LIMIT_ilim (ix.getD 0 0), .rw, .live, none⟩]⟩,
  ⟨0x2064000C, [(0x100, 8)], false,
    fun ix => [⟨HAP_CH_SENSE_afs (ix.getD 0 0), .rw, .live, none⟩,
      ⟨HAP_CH_SENSE_rest (ix.getD 0 0), .rw, .live, none⟩]⟩,
  ⟨0x20640010, [(0x100, 8)], false,
    fun ix => [⟨HAP_CH_RES_f0 (ix.getD 0 0), .rw, .live, none⟩,
      ⟨HAP_CH_RES_q (ix.getD 0 0), .rw, .live, none⟩]⟩,
  ⟨0x20640014, [(0x100, 8)], false,
    fun ix => [⟨HAP_CH_STAT_state (ix.getD 0 0), .ro, .none, none⟩,
      ⟨HAP_CH_STAT_effect (ix.getD 0 0), .ro, .none, none⟩,
      ⟨HAP_CH_STAT_alert (ix.getD 0 0), .ro, .none, none⟩,
      ⟨HAP_CH_STAT_pending (ix.getD 0 0), .ro, .none, none⟩,
      ⟨HAP_CH_STAT_pend_fx (ix.getD 0 0), .ro, .none, none⟩,
      ⟨HAP_CH_STAT_open_loop (ix.getD 0 0), .ro, .none, none⟩]⟩,
  ⟨0x20640018, [(0x100, 8)], false,
    fun ix => [⟨HAP_CH_MEAS_current (ix.getD 0 0), .ro, .none, none⟩,
      ⟨HAP_CH_MEAS_accel (ix.getD 0 0), .ro, .none, none⟩]⟩]

/-- Table HAP-4 — Haptic registers in the doorbell page (sub-page 0x4000; channel c, effect k). -/
def rowsHAP4 : List Row := [
  ⟨0x30004000, [(0x10000, 32), (0x80, 8), (0x10, 8)], true,
    fun ix => [⟨HAP_FX_ADDR_addr (ix.getD 0 0) (ix.getD 1 0) (ix.getD 2 0), .rw, .live, none⟩]⟩,
  ⟨0x30004008, [(0x10000, 32), (0x80, 8), (0x10, 8)], false,
    fun ix => [⟨HAP_FX_CTRL_len (ix.getD 0 0) (ix.getD 1 0) (ix.getD 2 0), .rw, .live, none⟩,
      ⟨HAP_FX_CTRL_alert (ix.getD 0 0) (ix.getD 1 0) (ix.getD 2 0), .rw, .live, none⟩]⟩,
  ⟨0x3000400C, [(0x10000, 32), (0x80, 8), (0x10, 8)], false,
    fun ix => [⟨HAP_FX_GAIN_gain (ix.getD 0 0) (ix.getD 1 0) (ix.getD 2 0), .rw, .live, none⟩]⟩,
  ⟨0x30004400, [(0x10000, 32)], false,
    fun ix => [⟨HAP_TRIGGER_channel (ix.getD 0 0), .wo, .live, none⟩,
      ⟨HAP_TRIGGER_effect (ix.getD 0 0), .wo, .live, none⟩]⟩,
  ⟨0x30004404, [(0x10000, 32)], false,
    fun ix => [⟨HAP_TRIG_STATUS_status (ix.getD 0 0), .ro, .none, none⟩,
      ⟨HAP_TRIG_STATUS_channel (ix.getD 0 0), .ro, .none, none⟩,
      ⟨HAP_TRIG_STATUS_effect (ix.getD 0 0), .ro, .none, none⟩]⟩,
  ⟨0x30004408, [(0x10000, 32)], false,
    fun ix => [⟨HAP_EVENT_ended (ix.getD 0 0), .w1c, .none, none⟩,
      ⟨HAP_EVENT_fault (ix.getD 0 0), .w1c, .none, none⟩,
      ⟨HAP_EVENT_dropped (ix.getD 0 0), .w1c, .none, none⟩]⟩]

/-- Table TCH-4 — TCH registers (part 1). -/
def rowsTCH4_0 : List Row := [
  ⟨0x20680000, [(0x10000, 2)], false,
    fun ix => [⟨TCH_CTRL_enable (ix.getD 0 0), .rw, .start, none⟩,
      ⟨TCH_CTRL_code16 (ix.getD 0 0), .rw, .start, none⟩,
      ⟨TCH_CTRL_wake_en (ix.getD 0 0), .rw, .live, none⟩,
      ⟨TCH_CTRL_diag (ix.getD 0 0), .rw, .live, none⟩,
      ⟨TCH_CTRL_output (ix.getD 0 0), .rw, .live, none⟩,
      ⟨TCH_CTRL_tx (ix.getD 0 0), .rw, .start, none⟩,
      ⟨TCH_CTRL_rx (ix.getD 0 0), .rw, .start, none⟩,
      ⟨TCH_CTRL_rate (ix.getD 0 0), .rw, .start, none⟩]⟩,
  ⟨0x20680004, [(0x10000, 2)], false,
    fun ix => [⟨TCH_SCAN_cycles (ix.getD 0 0), .rw, .start, none⟩,
      ⟨TCH_SCAN_confirm (ix.getD 0 0), .rw, .live, none⟩,
      ⟨TCH_SCAN_track_div (ix.getD 0 0), .rw, .live, none⟩,
      ⟨TCH_SCAN_max_size (ix.getD 0 0), .rw, .live, none⟩]⟩,
  ⟨0x20680008, [(0x10000, 2)], false,
    fun ix => [⟨TCH_THRESH_touch_th (ix.getD 0 0), .rw, .live, none⟩,
      ⟨TCH_THRESH_rel_th (ix.getD 0 0), .rw, .live, none⟩]⟩,
  ⟨0x2068000C, [(0x10000, 2)], false,
    fun ix => [⟨TCH_NOISECFG_noise_th (ix.getD 0 0), .rw, .live, none⟩,
      ⟨TCH_NOISECFG_hyst (ix.getD 0 0), .rw, .live, none⟩]⟩,
  ⟨0x20680010, [(0x10000, 2), (0x4, 8)], false,
    fun ix => [⟨TCH_FREQ_khz (ix.getD 0 0) (ix.getD 1 0), .rw, .start, none⟩]⟩,
  ⟨0x20680030, [(0x10000, 2)], false,
    fun ix => [⟨TCH_STUCK_seconds (ix.getD 0 0), .rw, .live, none⟩]⟩,
  ⟨0x20680038, [(0x10000, 2)], true,
    fun ix => [⟨TCH_SNAP_ADDR_addr (ix.getD 0 0), .rw, .live, none⟩]⟩,
  ⟨0x20680040, [(0x10000, 2), (0x4, 6)], false,
    fun ix => [⟨TCH_MAP_m (ix.getD 0 0) (ix.getD 1 0), .rw, .live, none⟩]⟩,
  ⟨0x20680060, [(0x10000, 2)], false,
    fun ix => [⟨TCH_STAT_state (ix.getD 0 0), .ro, .none, none⟩,
      ⟨TCH_STAT_freq (ix.getD 0 0), .ro, .none, none⟩,
      ⟨TCH_STAT_high_noise (ix.getD 0 0), .ro, .none, none⟩,
      ⟨TCH_STAT_snap_valid (ix.getD 0 0), .ro, .none, none⟩,
      ⟨TCH_STAT_contacts (ix.getD 0 0), .ro, .none, none⟩,
      ⟨TCH_STAT_suspect (ix.getD 0 0), .ro, .none, none⟩]⟩,
  ⟨0x20680064, [(0x10000, 2)], false,
    fun ix => [⟨TCH_FRAME_count (ix.getD 0 0), .ro, .none, none⟩]⟩,
  ⟨0x20680068, [(0x10000, 2)], true,
    fun ix => [⟨TCH_FRAME_TIME_time (ix.getD 0 0), .ro, .none, none⟩]⟩,
  ⟨0x20680070, [(0x10000, 2)], false,
    fun ix => [⟨TCH_COUNTS_sat (ix.getD 0 0), .w1c, .none, none⟩,
      ⟨TCH_COUNTS_hops (ix.getD 0 0), .w1c, .none, none⟩,
      ⟨TCH_COUNTS_over (ix.getD 0 0), .w1c, .none, none⟩]⟩]

/-- Table TCH-4 — TCH registers (part 2). -/
def rowsTCH4_1 : List Row := [
  ⟨0x20680080, [(0x10000, 2), (0x4, 8)], false,
    fun ix => [⟨TCH_NLEV_level (ix.getD 0 0) (ix.getD 1 0), .ro, .none, none⟩]⟩]

/-- Table TCH-4 — TCH registers. -/
def rowsTCH4 : List Row := rowsTCH4_0 ++ rowsTCH4_1

/-- Table TCH-5 — Touch queue registers (sub-page 0x5000; channel c at 0x5000 + 0x40 × c). -/
def rowsTCH5 : List Row := [
  ⟨0x30005000, [(0x10000, 32), (0x40, 2)], true,
    fun ix => [⟨TCH_Q_BASE_addr (ix.getD 0 0) (ix.getD 1 0), .rw, .start, none⟩]⟩,
  ⟨0x30005008, [(0x10000, 32), (0x40, 2)], false,
    fun ix => [⟨TCH_Q_CFG_enable (ix.getD 0 0) (ix.getD 1 0), .rw, .live, none⟩,
      ⟨TCH_Q_CFG_irq (ix.getD 0 0) (ix.getD 1 0), .rw, .live, none⟩,
      ⟨TCH_Q_CFG_size (ix.getD 0 0) (ix.getD 1 0), .rw, .start, none⟩]⟩,
  ⟨0x3000500C, [(0x10000, 32), (0x40, 2)], false,
    fun ix => [⟨TCH_Q_WR_index (ix.getD 0 0) (ix.getD 1 0), .ro, .none, none⟩]⟩,
  ⟨0x30005010, [(0x10000, 32), (0x40, 2)], false,
    fun ix => [⟨TCH_Q_RD_index (ix.getD 0 0) (ix.getD 1 0), .rw, .live, none⟩]⟩,
  ⟨0x30005014, [(0x10000, 32), (0x40, 2)], false,
    fun ix => [⟨TCH_Q_STAT_bad_addr (ix.getD 0 0) (ix.getD 1 0), .ro, .none, none⟩,
      ⟨TCH_Q_STAT_lost (ix.getD 0 0) (ix.getD 1 0), .w1c, .none, none⟩]⟩]

/-- Table ONL-7 — ONL registers (part 1). -/
def rowsONL7_0 : List Row := [
  ⟨0x20700000, [], false,
    fun _ => [⟨ONL_ID_device, .rw, .live, none⟩,
      ⟨ONL_ID_set, .rw, .live, none⟩,
      ⟨ONL_ID_system, .rw, .live, none⟩]⟩,
  ⟨0x20700004, [], false,
    fun _ => [⟨ONL_CFG_udp_port, .rw, .live, none⟩,
      ⟨ONL_CFG_mtu, .rw, .live, none⟩]⟩,
  ⟨0x20700008, [], false,
    fun _ => [⟨ONL_STATUS_link, .ro, .none, none⟩,
      ⟨ONL_STATUS_dup, .ro, .none, none⟩,
      ⟨ONL_STATUS_mgr, .ro, .none, none⟩,
      ⟨ONL_STATUS_peers, .ro, .none, none⟩]⟩,
  ⟨0x2070000C, [], false,
    fun _ => [⟨ONL_RX_DISCARDS_count, .ro, .none, none⟩]⟩,
  ⟨0x20700010, [], true,
    fun _ => [⟨ONL_TIME_ns, .ro, .none, none⟩]⟩,
  ⟨0x20700018, [], false,
    fun _ => [⟨ONL_TIME_STAT_state, .ro, .none, none⟩,
      ⟨ONL_TIME_STAT_unsync, .ro, .none, none⟩,
      ⟨ONL_TIME_STAT_slave_port, .ro, .none, none⟩,
      ⟨ONL_TIME_STAT_steps, .ro, .none, none⟩]⟩,
  ⟨0x2070001C, [], false,
    fun _ => [⟨ONL_TIME_OFFSET_ns, .ro, .none, none⟩]⟩,
  ⟨0x20700020, [], false,
    fun _ => [⟨ONL_TIME_RATE_adj, .ro, .none, none⟩]⟩,
  ⟨0x20700028, [], true,
    fun _ => [⟨ONL_LAST_STEP_ns, .ro, .none, none⟩]⟩,
  ⟨0x20700040, [], false,
    fun _ => [⟨ONL_PTP_CFG_mode, .rw, .live, none⟩,
      ⟨ONL_PTP_CFG_p2p, .rw, .live, none⟩,
      ⟨ONL_PTP_CFG_domain, .rw, .live, none⟩,
      ⟨ONL_PTP_CFG_holdover, .rw, .live, none⟩]⟩,
  ⟨0x20700044, [], false,
    fun _ => [⟨ONL_PTP_STEP_TH_ns, .rw, .live, none⟩]⟩,
  ⟨0x20700100, [(0x20, 6)], false,
    fun ix => [⟨ONL_PORT_CFG_enable (ix.getD 0 0), .rw, .start, none⟩,
      ⟨ONL_PORT_CFG_speed (ix.getD 0 0), .rw, .start, some (0, 5)⟩,
      ⟨ONL_PORT_CFG_macsec (ix.getD 0 0), .rw, .live, none⟩,
      ⟨ONL_PORT_CFG_ptp (ix.getD 0 0), .rw, .live, none⟩,
      ⟨ONL_PORT_CFG_phy_delay (ix.getD 0 0), .rw, .start, none⟩]⟩]

/-- Table ONL-7 — ONL registers (part 2). -/
def rowsONL7_1 : List Row := [
  ⟨0x20700104, [(0x20, 6)], false,
    fun ix => [⟨ONL_PORT_STAT_up (ix.getD 0 0), .ro, .none, none⟩,
      ⟨ONL_PORT_STAT_speed (ix.getD 0 0), .ro, .none, none⟩,
      ⟨ONL_PORT_STAT_drops (ix.getD 0 0), .w1c, .none, none⟩]⟩,
  ⟨0x20700108, [(0x20, 6)], false,
    fun ix => [⟨ONL_PORT_MACSEC_ERR_count (ix.getD 0 0), .w1c, .none, none⟩]⟩,
  ⟨0x20700400, [(0x20, 8)], false,
    fun ix => [⟨ONL_GRP_ID_group (ix.getD 0 0), .ro, .none, none⟩,
      ⟨ONL_GRP_ID_valid (ix.getD 0 0), .ro, .none, none⟩,
      ⟨ONL_GRP_ID_owner (ix.getD 0 0), .ro, .none, none⟩]⟩,
  ⟨0x20700404, [(0x20, 8)], false,
    fun ix => [⟨ONL_GRP_RATE_mhz (ix.getD 0 0), .ro, .none, none⟩]⟩,
  ⟨0x20700408, [(0x20, 8)], false,
    fun ix => [⟨ONL_GRP_PHASE_ns (ix.getD 0 0), .ro, .none, none⟩]⟩,
  ⟨0x2070040C, [(0x20, 8)], false,
    fun ix => [⟨ONL_GRP_LATENCY_us (ix.getD 0 0), .ro, .none, none⟩]⟩,
  ⟨0x20700410, [(0x20, 8)], false,
    fun ix => [⟨ONL_GRP_VERSION_version (ix.getD 0 0), .ro, .none, none⟩]⟩,
  ⟨0x20700418, [(0x20, 8)], true,
    fun ix => [⟨ONL_GRP_EFFECTIVE_time (ix.getD 0 0), .ro, .none, none⟩]⟩]

/-- Table ONL-7 — ONL registers. -/
def rowsONL7 : List Row := rowsONL7_0 ++ rowsONL7_1

/-- Table EVR-4 — EVR registers. -/
def rowsEVR4 : List Row := [
  ⟨0x20030000, [], false,
    fun _ => [⟨EVR_SEQ_next, .ro, .none, none⟩]⟩,
  ⟨0x20030004, [], false,
    fun _ => [⟨EVR_STAT_frozen, .ro, .none, none⟩,
      ⟨EVR_STAT_held, .ro, .none, none⟩,
      ⟨EVR_STAT_crit_drop, .w1c, .none, none⟩]⟩,
  ⟨0x20030008, [], false,
    fun _ => [⟨EVR_LOST_count, .ro, .none, none⟩]⟩,
  ⟨0x2003000C, [], false,
    fun _ => [⟨EVR_VAULT_SEV_sev, .rw, .live, none⟩]⟩,
  ⟨0x20030010, [], false,
    fun _ => [⟨EVR_ARCH_sev, .rw, .live, none⟩,
      ⟨EVR_ARCH_behind, .ro, .none, none⟩]⟩]

/-- Table VLT-4 — VLT registers (part 1). -/
def rowsVLT4_0 : List Row := [
  ⟨0x20050000, [], false,
    fun _ => [⟨VLT_STAT_vault_lost, .ro, .none, none⟩,
      ⟨VLT_STAT_rtc_valid, .ro, .none, none⟩,
      ⟨VLT_STAT_vbat_low, .ro, .none, none⟩,
      ⟨VLT_STAT_pf_active, .ro, .none, none⟩,
      ⟨VLT_STAT_pf_done, .ro, .none, none⟩]⟩,
  ⟨0x20050004, [], false,
    fun _ => [⟨VLT_VBAT_mv, .ro, .none, none⟩]⟩,
  ⟨0x20050008, [], true,
    fun _ => [⟨VLT_RTC_frac, .ro, .none, none⟩,
      ⟨VLT_RTC_seconds, .ro, .none, none⟩]⟩,
  ⟨0x20050018, [], false,
    fun _ => [⟨VLT_CRIT_WR_slot, .ro, .none, none⟩,
      ⟨VLT_CRIT_WR_total, .ro, .none, none⟩]⟩,
  ⟨0x20050020, [], false,
    fun _ => [⟨VLT_METER_CTRL_sync, .wo, .live, none⟩,
      ⟨VLT_METER_CTRL_busy, .ro, .none, none⟩,
      ⟨VLT_METER_CTRL_torn, .w1c, .none, none⟩,
      ⟨VLT_METER_CTRL_bank, .ro, .none, none⟩]⟩,
  ⟨0x20050028, [], true,
    fun _ => [⟨VLT_METER_SRC_addr, .rw, .live, none⟩]⟩,
  ⟨0x20050030, [], false,
    fun _ => [⟨VLT_TAMPER_CFG_enable, .rw, .live, none⟩,
      ⟨VLT_TAMPER_CFG_active_high, .rw, .live, none⟩]⟩,
  ⟨0x20050034, [], false,
    fun _ => [⟨VLT_TAMPER_STAT_level, .ro, .none, none⟩]⟩,
  ⟨0x20050040, [(0x8, 4)], false,
    fun ix => [⟨VLT_TAMPER_COUNT_count (ix.getD 0 0), .ro, .none, none⟩]⟩,
  ⟨0x20050044, [(0x8, 4)], false,
    fun ix => [⟨VLT_TAMPER_TIME_seconds (ix.getD 0 0), .ro, .none, none⟩]⟩,
  ⟨0x20050080, [(0x4, 8)], false,
    fun ix => [⟨VLT_CNT_count (ix.getD 0 0), .ro, .none, none⟩]⟩,
  ⟨0x200500A0, [], false,
    fun _ => [⟨VLT_CNT_INC_counter, .wo, .live, none⟩]⟩]

/-- Table VLT-4 — VLT registers (part 2). -/
def rowsVLT4_1 : List Row := [
  ⟨0x20050100, [(0x20, 8), (0x4, 8)], false,
    fun ix => [⟨VLT_DIG_digest (ix.getD 0 0) (ix.getD 1 0), .ro, .none, none⟩]⟩,
  ⟨0x20050200, [(0x20, 8), (0x4, 8)], false,
    fun ix => [⟨VLT_PDIG_digest (ix.getD 0 0) (ix.getD 1 0), .ro, .none, none⟩]⟩,
  ⟨0x20050300, [(0x4, 8)], false,
    fun ix => [⟨VLT_EXT_DATA_data (ix.getD 0 0), .wo, .live, none⟩]⟩,
  ⟨0x20050320, [], false,
    fun _ => [⟨VLT_EXT_CTRL_slot, .wo, .live, none⟩,
      ⟨VLT_EXT_CTRL_go, .wo, .live, none⟩]⟩,
  ⟨0x20051000, [(0x4, 1024)], false,
    fun ix => [⟨VLT_SRAM_data (ix.getD 0 0), .ro, .none, none⟩]⟩]

/-- Table VLT-4 — VLT registers. -/
def rowsVLT4 : List Row := rowsVLT4_0 ++ rowsVLT4_1

/-- Table CVU-2 — CVU channel registers (part 1). -/
def rowsCVU2_0 : List Row := [
  ⟨0x20040000, [(0x100, 8)], true,
    fun ix => [⟨CVU_CH_ADDR_addr (ix.getD 0 0), .rw, .start, none⟩]⟩,
  ⟨0x20040008, [(0x100, 8)], true,
    fun ix => [⟨CVU_CH_LEN_bytes (ix.getD 0 0), .rw, .start, none⟩]⟩,
  ⟨0x20040010, [(0x100, 8)], false,
    fun ix => [⟨CVU_CH_CFG_mode (ix.getD 0 0), .rw, .start, some (0, 2)⟩,
      ⟨CVU_CH_CFG_refin (ix.getD 0 0), .rw, .start, none⟩,
      ⟨CVU_CH_CFG_refout (ix.getD 0 0), .rw, .start, none⟩,
      ⟨CVU_CH_CFG_width (ix.getD 0 0), .rw, .start, none⟩,
      ⟨CVU_CH_CFG_compare (ix.getD 0 0), .rw, .start, none⟩,
      ⟨CVU_CH_CFG_irq (ix.getD 0 0), .rw, .start, none⟩,
      ⟨CVU_CH_CFG_cont (ix.getD 0 0), .rw, .start, none⟩,
      ⟨CVU_CH_CFG_final (ix.getD 0 0), .rw, .start, none⟩]⟩,
  ⟨0x20040018, [(0x100, 8)], true,
    fun ix => [⟨CVU_CH_POLY_poly (ix.getD 0 0), .rw, .start, none⟩]⟩,
  ⟨0x20040020, [(0x100, 8)], true,
    fun ix => [⟨CVU_CH_INIT_init (ix.getD 0 0), .rw, .start, none⟩]⟩,
  ⟨0x20040028, [(0x100, 8)], true,
    fun ix => [⟨CVU_CH_XOROUT_xorout (ix.getD 0 0), .rw, .start, none⟩]⟩,
  ⟨0x20040030, [(0x100, 8), (0x4, 8)], false,
    fun ix => [⟨CVU_CH_EXPECT_value (ix.getD 0 0) (ix.getD 1 0), .rw, .start, none⟩]⟩,
  ⟨0x20040050, [(0x100, 8)], false,
    fun ix => [⟨CVU_CH_START_go (ix.getD 0 0), .wo, .live, none⟩,
      ⟨CVU_CH_START_abort (ix.getD 0 0), .wo, .live, none⟩]⟩,
  ⟨0x20040054, [(0x100, 8)], false,
    fun ix => [⟨CVU_CH_STAT_state (ix.getD 0 0), .ro, .none, none⟩,
      ⟨CVU_CH_STAT_reason (ix.getD 0 0), .ro, .none, none⟩]⟩,
  ⟨0x20040058, [(0x100, 8)], true,
    fun ix => [⟨CVU_CH_DONE_bytes (ix.getD 0 0), .ro, .none, none⟩]⟩,
  ⟨0x20040060, [(0x100, 8), (0x4, 10)], false,
    fun ix => [⟨CVU_CH_RUN_value (ix.getD 0 0) (ix.getD 1 0), .rw, .live, none⟩]⟩,
  ⟨0x20040088, [(0x100, 8), (0x4, 8)], false,
    fun ix => [⟨CVU_CH_RESULT_value (ix.getD 0 0) (ix.getD 1 0), .ro, .none, none⟩]⟩]

/-- Table CVU-2 — CVU channel registers (part 2). -/
def rowsCVU2_1 : List Row := [
  ⟨0x200400A8, [(0x100, 8), (0x4, 8)], false,
    fun ix => [⟨CVU_CH_KEY_key (ix.getD 0 0) (ix.getD 1 0), .wo, .start, none⟩]⟩]

/-- Table CVU-2 — CVU channel registers. -/
def rowsCVU2 : List Row := rowsCVU2_0 ++ rowsCVU2_1

/-- Table CRP-11 — CRP registers (part 1). -/
def rowsCRP11_0 : List Row := [
  ⟨0x20000000, [], false,
    fun _ => [⟨CRP_STATUS_tujan_ready, .ro, .none, none⟩,
      ⟨CRP_STATUS_warm, .ro, .none, none⟩,
      ⟨CRP_STATUS_warden_kind, .ro, .none, none⟩,
      ⟨CRP_STATUS_power_state, .ro, .none, none⟩,
      ⟨CRP_STATUS_cause, .ro, .none, none⟩,
      ⟨CRP_STATUS_boot_src, .ro, .none, none⟩,
      ⟨CRP_STATUS_alt, .ro, .none, none⟩,
      ⟨CRP_STATUS_recovery, .ro, .none, none⟩]⟩,
  ⟨0x20000004, [], false,
    fun _ => [⟨CRP_BOOT_STAT_stage, .ro, .none, none⟩,
      ⟨CRP_BOOT_STAT_reason, .ro, .none, none⟩,
      ⟨CRP_BOOT_STAT_ready_ms, .ro, .none, none⟩]⟩,
  ⟨0x20000008, [], false,
    fun _ => [⟨CRP_HOST_BOOT_length, .wo, .live, none⟩]⟩,
  ⟨0x20000100, [], false,
    fun _ => [⟨CRP_PD_CTRL_on, .rw, .live, none⟩]⟩,
  ⟨0x20000104, [], false,
    fun _ => [⟨CRP_PD_STAT_on, .ro, .none, none⟩]⟩,
  ⟨0x20000108, [], false,
    fun _ => [⟨CRP_CLK_GATE_gate, .rw, .live, none⟩]⟩,
  ⟨0x2000010C, [], false,
    fun _ => [⟨CRP_BLK_RESET_reset, .w1s, .live, none⟩]⟩,
  ⟨0x20000200, [], false,
    fun _ => [⟨CRP_SEC_CLAIM_claim, .rw, .live, none⟩]⟩,
  ⟨0x20000204, [], false,
    fun _ => [⟨CRP_SEC_CLAIM_STAT_up, .ro, .none, none⟩]⟩,
  ⟨0x20000300, [(0x4, 12)], false,
    fun ix => [⟨CRP_TEMP_temp (ix.getD 0 0), .ro, .none, none⟩]⟩,
  ⟨0x20000340, [], false,
    fun _ => [⟨CRP_THERM_CFG_warn, .rw, .live, none⟩,
      ⟨CRP_THERM_CFG_throttle, .rw, .live, none⟩]⟩,
  ⟨0x20000344, [], false,
    fun _ => [⟨CRP_THERM_STAT_warning, .ro, .none, none⟩,
      ⟨CRP_THERM_STAT_throttled, .ro, .none, none⟩,
      ⟨CRP_THERM_STAT_last_shutdown, .ro, .none, none⟩,
      ⟨CRP_THERM_STAT_hottest, .ro, .none, none⟩]⟩]

/-- Table CRP-11 — CRP registers (part 2). -/
def rowsCRP11_1 : List Row := [
  ⟨0x20000360, [(0x4, 6)], false,
    fun ix => [⟨CRP_RAIL_mw (ix.getD 0 0), .ro, .none, none⟩]⟩,
  ⟨0x20000400, [(0x4, 10)], false,
    fun ix => [⟨CRP_PUMP_STAT_runs (ix.getD 0 0), .ro, .none, none⟩,
      ⟨CRP_PUMP_STAT_late (ix.getD 0 0), .ro, .none, none⟩]⟩]

/-- Table CRP-11 — CRP registers. -/
def rowsCRP11 : List Row := rowsCRP11_0 ++ rowsCRP11_1

/-- Table GIO-1 — UART registers (UART u at 0x100 × u). -/
def rowsGIO1 : List Row := [
  ⟨0x20900000, [(0x100, 8)], false,
    fun ix => [⟨GIO_UART_DATA_data (ix.getD 0 0), .rw, .live, none⟩,
      ⟨GIO_UART_DATA_parity_err (ix.getD 0 0), .ro, .none, none⟩,
      ⟨GIO_UART_DATA_frame_err (ix.getD 0 0), .ro, .none, none⟩,
      ⟨GIO_UART_DATA_valid (ix.getD 0 0), .ro, .none, none⟩]⟩,
  ⟨0x20900004, [(0x100, 8)], false,
    fun ix => [⟨GIO_UART_CFG_enable (ix.getD 0 0), .rw, .live, none⟩,
      ⟨GIO_UART_CFG_parity (ix.getD 0 0), .rw, .start, some (0, 2)⟩,
      ⟨GIO_UART_CFG_stop2 (ix.getD 0 0), .rw, .start, none⟩,
      ⟨GIO_UART_CFG_loopback (ix.getD 0 0), .rw, .start, none⟩]⟩,
  ⟨0x20900008, [(0x100, 8)], false,
    fun ix => [⟨GIO_UART_BAUD_int (ix.getD 0 0), .rw, .start, none⟩,
      ⟨GIO_UART_BAUD_frac (ix.getD 0 0), .rw, .start, none⟩]⟩,
  ⟨0x2090000C, [(0x100, 8)], false,
    fun ix => [⟨GIO_UART_STAT_tx_level (ix.getD 0 0), .ro, .none, none⟩,
      ⟨GIO_UART_STAT_rx_level (ix.getD 0 0), .ro, .none, none⟩,
      ⟨GIO_UART_STAT_overrun (ix.getD 0 0), .w1c, .none, none⟩,
      ⟨GIO_UART_STAT_brk (ix.getD 0 0), .w1c, .none, none⟩,
      ⟨GIO_UART_STAT_busy (ix.getD 0 0), .ro, .none, none⟩]⟩,
  ⟨0x20900010, [(0x100, 8)], false,
    fun ix => [⟨GIO_UART_IRQ_rx_en (ix.getD 0 0), .rw, .live, none⟩,
      ⟨GIO_UART_IRQ_tx_en (ix.getD 0 0), .rw, .live, none⟩,
      ⟨GIO_UART_IRQ_err_en (ix.getD 0 0), .rw, .live, none⟩,
      ⟨GIO_UART_IRQ_rx_thresh (ix.getD 0 0), .rw, .live, none⟩]⟩]

/-- Table GIO-2 — I²C registers (controller i at 0x1000 + 0x100 × i). -/
def rowsGIO2 : List Row := [
  ⟨0x20901000, [(0x100, 4)], false,
    fun ix => [⟨GIO_I2C_CFG_enable (ix.getD 0 0), .rw, .live, none⟩]⟩,
  ⟨0x20901004, [(0x100, 4)], false,
    fun ix => [⟨GIO_I2C_SCL_lcnt (ix.getD 0 0), .rw, .start, none⟩,
      ⟨GIO_I2C_SCL_hcnt (ix.getD 0 0), .rw, .start, none⟩]⟩,
  ⟨0x20901008, [(0x100, 4)], false,
    fun ix => [⟨GIO_I2C_CMD_data (ix.getD 0 0), .wo, .live, none⟩,
      ⟨GIO_I2C_CMD_read (ix.getD 0 0), .wo, .live, none⟩,
      ⟨GIO_I2C_CMD_start (ix.getD 0 0), .wo, .live, none⟩,
      ⟨GIO_I2C_CMD_stop (ix.getD 0 0), .wo, .live, none⟩,
      ⟨GIO_I2C_CMD_nack (ix.getD 0 0), .wo, .live, none⟩]⟩,
  ⟨0x2090100C, [(0x100, 4)], false,
    fun ix => [⟨GIO_I2C_RX_data (ix.getD 0 0), .ro, .none, none⟩]⟩,
  ⟨0x20901010, [(0x100, 4)], false,
    fun ix => [⟨GIO_I2C_STAT_cmd_level (ix.getD 0 0), .ro, .none, none⟩,
      ⟨GIO_I2C_STAT_rx_level (ix.getD 0 0), .ro, .none, none⟩,
      ⟨GIO_I2C_STAT_nack (ix.getD 0 0), .w1c, .none, none⟩,
      ⟨GIO_I2C_STAT_arb_lost (ix.getD 0 0), .w1c, .none, none⟩,
      ⟨GIO_I2C_STAT_timeout (ix.getD 0 0), .w1c, .none, none⟩,
      ⟨GIO_I2C_STAT_busy (ix.getD 0 0), .ro, .none, none⟩]⟩,
  ⟨0x20901014, [(0x100, 4)], false,
    fun ix => [⟨GIO_I2C_IRQ_done_en (ix.getD 0 0), .rw, .live, none⟩,
      ⟨GIO_I2C_IRQ_err_en (ix.getD 0 0), .rw, .live, none⟩]⟩]

/-- Table GIO-3 — SPI registers (controller s at 0x2000 + 0x100 × s). -/
def rowsGIO3 : List Row := [
  ⟨0x20902000, [(0x100, 4)], false,
    fun ix => [⟨GIO_SPI_CFG_enable (ix.getD 0 0), .rw, .live, none⟩,
      ⟨GIO_SPI_CFG_mode (ix.getD 0 0), .rw, .start, none⟩,
      ⟨GIO_SPI_CFG_lsb_first (ix.getD 0 0), .rw, .start, none⟩,
      ⟨GIO_SPI_CFG_bits (ix.getD 0 0), .rw, .start, none⟩,
      ⟨GIO_SPI_CFG_cs (ix.getD 0 0), .rw, .live, none⟩,
      ⟨GIO_SPI_CFG_hold (ix.getD 0 0), .rw, .live, none⟩]⟩,
  ⟨0x20902004, [(0x100, 4)], false,
    fun ix => [⟨GIO_SPI_CLK_div (ix.getD 0 0), .rw, .start, none⟩]⟩,
  ⟨0x20902008, [(0x100, 4)], false,
    fun ix => [⟨GIO_SPI_TX_data (ix.getD 0 0), .wo, .live, none⟩]⟩,
  ⟨0x2090200C, [(0x100, 4)], false,
    fun ix => [⟨GIO_SPI_RX_data (ix.getD 0 0), .ro, .none, none⟩]⟩,
  ⟨0x20902010, [(0x100, 4)], false,
    fun ix => [⟨GIO_SPI_STAT_tx_level (ix.getD 0 0), .ro, .none, none⟩,
      ⟨GIO_SPI_STAT_rx_level (ix.getD 0 0), .ro, .none, none⟩,
      ⟨GIO_SPI_STAT_rx_overflow (ix.getD 0 0), .w1c, .none, none⟩,
      ⟨GIO_SPI_STAT_busy (ix.getD 0 0), .ro, .none, none⟩]⟩,
  ⟨0x20902014, [(0x100, 4)], false,
    fun ix => [⟨GIO_SPI_IRQ_done_en (ix.getD 0 0), .rw, .live, none⟩]⟩]

/-- Table GIO-4 — GPIO registers (bank b, pins 32b to 32b + 31, at 0x3000 + 0x100 × b; bit n is pin 32b + n). -/
def rowsGIO4 : List Row := [
  ⟨0x20903000, [(0x100, 2)], false,
    fun ix => [⟨GIO_GPIO_OUT_out (ix.getD 0 0), .rw, .live, none⟩]⟩,
  ⟨0x20903004, [(0x100, 2)], false,
    fun ix => [⟨GIO_GPIO_OUT_SET_out (ix.getD 0 0), .w1s, .live, none⟩]⟩,
  ⟨0x20903008, [(0x100, 2)], false,
    fun ix => [⟨GIO_GPIO_OUT_CLR_out (ix.getD 0 0), .w1c, .live, none⟩]⟩,
  ⟨0x2090300C, [(0x100, 2)], false,
    fun ix => [⟨GIO_GPIO_OE_oe (ix.getD 0 0), .rw, .live, none⟩]⟩,
  ⟨0x20903010, [(0x100, 2)], false,
    fun ix => [⟨GIO_GPIO_IN_in (ix.getD 0 0), .ro, .none, none⟩]⟩,
  ⟨0x20903014, [(0x100, 2)], false,
    fun ix => [⟨GIO_GPIO_PULLUP_up (ix.getD 0 0), .rw, .live, none⟩]⟩,
  ⟨0x20903018, [(0x100, 2)], false,
    fun ix => [⟨GIO_GPIO_PULLDN_down (ix.getD 0 0), .rw, .live, none⟩]⟩,
  ⟨0x2090301C, [(0x100, 2)], false,
    fun ix => [⟨GIO_GPIO_IRQ_EN_en (ix.getD 0 0), .rw, .live, none⟩]⟩,
  ⟨0x20903020, [(0x100, 2)], false,
    fun ix => [⟨GIO_GPIO_IRQ_EDGE_edge (ix.getD 0 0), .rw, .live, none⟩]⟩,
  ⟨0x20903024, [(0x100, 2)], false,
    fun ix => [⟨GIO_GPIO_IRQ_POL_pol (ix.getD 0 0), .rw, .live, none⟩]⟩,
  ⟨0x20903028, [(0x100, 2)], false,
    fun ix => [⟨GIO_GPIO_IRQ_STAT_stat (ix.getD 0 0), .w1c, .none, none⟩]⟩,
  ⟨0x2090302C, [(0x100, 2)], false,
    fun ix => [⟨GIO_GPIO_WAKE_wake (ix.getD 0 0), .rw, .live, none⟩]⟩]

/-- Table GIO-5 — Ownership registers (unit k at 0x4000 + 4 × k, k as in R446). -/
def rowsGIO5 : List Row := [
  ⟨0x20904000, [(0x4, 23)], false,
    fun ix => [⟨GIO_OWNER_polder (ix.getD 0 0), .ro, .none, none⟩]⟩]

/-- The rows of the block that an address lies in (Table MAP-2; doorbell pages, Table POL-4). -/
def rowsAt (a : Nat) : List Row :=
  if a < 0x20000000 then []
  else if a < 0x20010000 then rowsCRP11
  else if a < 0x20020000 then rowsMBX8
  else if a < 0x20030000 then rowsPLD5
  else if a < 0x20040000 then rowsEVR4
  else if a < 0x20050000 then rowsCVU2
  else if a < 0x20060000 then rowsVLT4
  else if a < 0x20100000 then []
  else if a < 0x20140000 then rowsDMC7
  else if a < 0x20150000 then rowsOCM4
  else if a < 0x20200000 then []
  else if a < 0x20240000 then rowsCMP8 ++ rowsCMP17 ++ rowsCMP18
  else if a < 0x20250000 then rowsDKW10 ++ rowsDKW11 ++ rowsDKW12
  else if a < 0x20280000 then []
  else if a < 0x20300000 then rowsSCN6
  else if a < 0x20400000 then rowsGFX1
  else if a < 0x20500000 then rowsVCD6
  else if a < 0x20540000 then rowsCAP1
  else if a < 0x20600000 then []
  else if a < 0x20640000 then rowsAUD6
  else if a < 0x20650000 then rowsHAP3
  else if a < 0x20680000 then []
  else if a < 0x206A0000 then rowsTCH4
  else if a < 0x20700000 then []
  else if a < 0x20800000 then rowsONL7
  else if a < 0x20900000 then []
  else if a < 0x20910000 then rowsGIO1 ++ rowsGIO2 ++ rowsGIO3 ++ rowsGIO4 ++ rowsGIO5
  else if a < 0x20A00000 then []
  else if a < 0x20A10000 then [⟨0x20A0F000, [], false, fun _ => [⟨DBG_ENABLE_enables, .rw, .live, Option.none⟩, ⟨DBG_ENABLE_sba_polder, .rw, .live, Option.none⟩]⟩]
  else if a < 0x30000000 then []
  else if a < 0x30200000 then
    let off := a % 0x10000
    if off < 0x1000 then rowsCMP6 ++ rowsCMP7
    else if off < 0x2000 then rowsGFX2
    else if off < 0x3000 then rowsVCD5
    else if off < 0x4000 then rowsAUD7
    else if off < 0x5000 then rowsHAP4
    else if off < 0x6000 then rowsTCH5
    else rowsPOL6
  else []

/-- The first row of a list that holds the word at `a`, with the register's index values and whether it is the high word. -/
def findRow : List Row → Nat → Option (Row × List Nat × Bool)
  | [], _ => Option.none
  | r :: rs, a =>
    match r.hit a with
    | some (ix, hi) => some (r, ix, hi)
    | Option.none => findRow rs a

end Sys2Proof.Machine
end

