-- ==== Sys2Proof/Machine/BusRead.lean ====
section
/-! DEFINITION. Reads of registers (R7, R9, R11): the home of a register that several pages show, the registers whose value follows other
state, windows that a polder does not hold (R147 and the headings of Tables VCD-5, HAP-4 and TCH-5), and 64-bit reads. -/
namespace Sys2Proof.Machine

/-! ## Where a register lives -/

/-- The address at which Rows lists a register: the MBX register an alias reaches (R99), and the window of a slot or session at its
offset in page 0 (R147, R288). `none` for an alias of a polder that has no pair. -/
def regHome (s : State) (addr : Nat) : Option Nat :=
  if isPage addr then
    let off := pageOff addr
    if 0x8000 ≤ off ∧ off < 0x8200 then mbxAddr s addr
    else if off < 0xC00 ∨ (0x2000 ≤ off ∧ off < 0x2E00) then some (0x30000000 + off)
    else some addr
  else some addr

/-- The row of the word at an address, with its index values and whether it is a high word. -/
def rowOf (s : State) (addr : Nat) : Option (Row × List Nat × Bool) :=
  match regHome s addr with
  | some h => findRow (rowsAt h) h
  | none => none

/-- A doorbell page's polder holds the slot, session, channel or queue whose window an address is in. -/
def windowHeld (s : State) (addr : Nat) : Bool :=
  let p := pageOf addr
  let off := pageOff addr
  if off < 0xC00 then slotOwner s (off / 0x30) == p
  else if 0x2000 ≤ off ∧ off < 0x2E00 then sesPolder s ((off - 0x2000) / 0x38) == p
  else if 0x4000 ≤ off ∧ off < 0x4400 then hapHolder s ((off - 0x4000) / 0x80) == p
  else if 0x5000 ≤ off ∧ off < 0x5080 then holdsTouch s p ((off - 0x5000) / 0x40)
  else true

/-! ## Registers whose value follows other state -/

/-- MBX_CHn_STAT. -/
def chanStat (s : State) (n : Nat) : Nat :=
  let c := chan s n
  c.q.length % 16 + 16 * b2n (c.q.length == 8) + 32 * rd s (MBX_CH_STAT_tx_overflow n) + 64 * b2n (!c.unacked.isEmpty) + 256 * c.nextSeq +
    2 ^ 18 * (match c.unacked.head? with | some u => u.seq | none => 0)

/-- The whole value of an MBX register that the hardware keeps. -/
def mbxView (s : State) (h : Nat) : Option Nat :=
  let n := (h - 0x20010000) / 0x100
  if h < 0x20014000 then
    if h % 0x100 = 0x44 then some (chanStat s n)
    else if 0x80 ≤ h % 0x100 ∧ h % 0x100 < 0xC0 then
      some (match (chan s n).q.head? with | some m => Msg.word m ((h % 0x100 - 0x80) / 4) | none => 0)
    else none
  else if h = 0x20014100 then some (bitmap 64 (fun n => !(chan s n).q.isEmpty))
  else none

/-- The little-endian word at a word offset of a list of bytes. -/
def wordIn (bs : List Nat) (i : Nat) : Nat := leNat ((bs.drop (4 * i)).take 4)

/-- A word of the battery-backed SRAM (Table VLT-1). -/
def sramWord (s : State) (off : Nat) : Nat :=
  if off < 0xC00 then wordIn (Tab.get (List.replicate 32 0) s.vlt.crit (off / 32)) (off % 32 / 4)
  else if off < 0xE00 then wordIn s.vlt.bankA.bytes ((off - 0xC00) / 4)
  else wordIn s.vlt.bankB.bytes ((off - 0xE00) / 4)

/-- The whole value of a VLT register that the vault keeps. -/
def vltView (s : State) (h : Nat) : Option Nat :=
  let v := s.vlt
  let off := h - 0x20050000
  if off = 0 then some (b2n v.vaultLost + 2 * b2n v.rtcValid + 4 * b2n v.vbatLow + packFlds s [VLT_STAT_pf_active, VLT_STAT_pf_done])
  else if off = 4 then some v.vbat
  else if off = 8 then some (v.frac + 32768 * v.seconds)
  else if off = 0x18 then some (critWord s)
  else if off = 0x20 then some (2 * b2n v.sync.isSome + 4 * rd s VLT_METER_CTRL_torn + 8 * b2n (newestBank v == some true))
  else if off = 0x30 then some v.tamperCfg
  else if off = 0x34 then some (bitmap 4 (fun i => (v.tampers.getD i ⟨0, 0, 0, 0⟩).level == 1))
  else if 0x40 ≤ off ∧ off < 0x60 then
    (let t := v.tampers.getD ((off - 0x40) / 8) ⟨0, 0, 0, 0⟩
     some (if off % 8 = 0 then t.count else t.time))
  else if 0x80 ≤ off ∧ off < 0xA0 then some (v.counters.getD ((off - 0x80) / 4) 0)
  else if 0x100 ≤ off ∧ off < 0x200 then some (wordIn (digestBytes (v.digests.getD ((off - 0x100) / 32) [])) (off % 32 / 4))
  else if 0x200 ≤ off ∧ off < 0x300 then some (wordIn (digestBytes (v.prevDigests.getD ((off - 0x200) / 32) [])) (off % 32 / 4))
  else if 0x1000 ≤ off ∧ off < 0x2000 then some (sramWord s (off - 0x1000))
  else none

/-- The whole value of an EVR register that the recorder keeps. -/
def evrView (s : State) (h : Nat) : Option Nat :=
  let e := s.evr
  match h - 0x20030000 with
  | 0 => some e.next
  | 4 => some (b2n e.frozen + 2 * (e.fifo.length % 512) + 65536 * rd s EVR_STAT_crit_drop)
  | 8 => some e.lost
  | 0x10 => some (rd s EVR_ARCH_sev + 65536 * min e.archive.waiting.length 65535)
  | _ => none

/-- The whole value of a register of an output's timing. -/
def scnView (s : State) (h : Nat) : Option Nat :=
  let n := (h - 0x20280000) / 0x10000
  match h % 0x10000 with
  | 0x30 => some (if running s n then (rasterPos s n).1 + 65536 * (rasterPos s n).2 else 0)
  | 0x34 => some (scnStatus s n)
  | 0x5C => some (scnLockStat s n)
  | _ => none

/-- The whole value of a compositor register that shows grants and the engines' homes. -/
def cmpView (s : State) (h : Nat) : Option Nat :=
  if 0x20201000 ≤ h ∧ h < 0x20201400 ∧ h % 16 = 0 then
    (let m := (h - 0x20201000) / 16
     some (packFlds s [CMP_SLOT_PLACE_output m, CMP_SLOT_PLACE_z m] + 65536 * slotOwner s m))
  else none

/-- The whole value of a general I/O register that follows the pins. -/
def gioView (s : State) (h : Nat) : Option Nat :=
  if 0x20903000 ≤ h ∧ h < 0x20903200 then
    (let b := (h - 0x20903000) / 0x100
     match h % 0x100 with
     | 4 => some (rd s (GIO_GPIO_OUT_out b))
     | 8 => some (rd s (GIO_GPIO_OUT_out b))
     | 0x10 => some (gpioLevels s b)
     | _ => none)
  else none

/-- The whole value of a register that is not its fields' stored values; `none` for every other. -/
def regView (s : State) (h : Nat) : Option Nat :=
  if h = 0x20000204 then some (bitmap 24 (fun k => claimed s k && blockIsUp s k))
  else if 0x20010000 ≤ h ∧ h < 0x20020000 then mbxView s h
  else if 0x20030000 ≤ h ∧ h < 0x20040000 then evrView s h
  else if 0x20050000 ≤ h ∧ h < 0x20060000 then vltView s h
  else if 0x20200000 ≤ h ∧ h < 0x20240000 then cmpView s h
  else if 0x20280000 ≤ h ∧ h < 0x20300000 then scnView s h
  else if h = 0x20300004 then some (reserveWord s)
  else if h = 0x20600400 then some (audLoadWord s)
  else if h = 0x20700010 then some s.devTime
  else if 0x20900000 ≤ h ∧ h < 0x20910000 then gioView s h
  else if h = 0x30007000 then some (1 + packFlds s [POL_STAT_location 0, POL_STAT_frozen 0, POL_STAT_faults 0])
  else none

/-- The whole value that a register reads: write-only fields read 0. -/
def regValue (s : State) (h : Nat) (row : Row) (ix : List Nat) : Nat :=
  match regView s h with
  | some v => v
  | none => ((row.flds ix).filter (fun f => f.acc != AccessType.wo)).foldl (fun a f => a + rd s f.fld * 2 ^ f.fld.lo) 0

/-- R446: the bits of a GPIO bank that an access may read. -/
def readMask (s : State) (c : Carried) (h : Nat) : Nat :=
  if 0x20903000 ≤ h ∧ h < 0x20903200 then gpioMask s ((h - 0x20903000) / 0x100) c else 4294967295

/-- R11: a word read: the low word of a 64-bit register latches the high word for its reader; the high word reads as latched, or, where
nothing has been latched, as it is. -/
def readWord (c : Carried) (addr : Nat) (s : State) : Nat × State :=
  match regHome s addr, rowOf s addr with
  | some h, some (row, ix, hi) =>
    if !row.wide then (regValue s h row ix &&& readMask s c h, s)
    else if hi then
      (match Tab.get none s.rdLatch (wordKey c.master (addr - 4)) with
       | some v => (v, s)
       | none => (hi32 (regValue s (h - 4) row ix), s))
    else
      let v := regValue s h row ix
      (lo32 v, { s with rdLatch := s.rdLatch.put (wordKey c.master addr) (some (hi32 v)) })
  | _, _ => (0, s)

/-- A read that a window admits, or one of a window that the page's polder does not hold: 0, and recorded. -/
def admittedRead (c : Carried) (addr : Nat) (s : State) : Nat × State :=
  if isPage addr && !windowHeld s addr then (0, violateAt c 2 addr 0 s) else readWord c addr s

/-! ## The MSI-X table (Table PCI-1) -/

/-- A word of the MSI-X table, which BAR0 shows from offset 0xF0_0000. What its entries make of a message is the PCIe core's. -/
def msixWord (i : Nat) : Fld := ⟨0x20F00000 + 4 * i, 0, 32, 0⟩

/-- The word of the MSI-X table that an access through BAR0 reaches. -/
def msixAt (s : State) (a : Access) (addr : Nat) : Option Nat :=
  if a.route = Route.bar0 ∧ s.pci.linkUp = true ∧ 0x20F00000 ≤ addr ∧ addr < 0x20F01000 ∧ addr % 4 = 0 then some ((addr - 0x20F00000) / 4)
  else none

/-! ## Reads -/

/-- The lock that an address is. -/
def lockAt (addr : Nat) : Option Nat := if 0x20014000 ≤ addr ∧ addr < 0x20014080 ∧ addr % 4 = 0 then some ((addr - 0x20014000) / 4) else none

/-- A read with the effect that a row of its own gives it: a lock (R41), a UART's, an I2C controller's and an SPI controller's data. -/
def effectRead (a : Access) (addr : BitVec 40) (s : State) : Option Out :=
  let x := addr.toNat
  match lockAt x with
  | some n => if (readTurned a x 4 s).isNone then some (execMbxLockAcquire (Fin.ofNat 32 n) [a.master] s) else none
  | none =>
    if (gioRegAt x 0x20900000 8 0).isSome then some (execUartDataRead a addr s)
    else if (gioRegAt x 0x20901000 4 0xC).isSome then some (execI2cRxRead a addr s)
    else if (gioRegAt x 0x20902000 4 0xC).isSome then some (execSpiRxRead a addr s)
    else none

/-- A read of `size` bytes of a register or a page. -/
def busRead (a : Access) (addr : BitVec 40) (size : Nat) (s : State) : Out :=
  let x := addr.toNat
  match msixAt s a x with
  | some i => .next { s with busReply := if size = 4 then rd s (msixWord i) else 0 }
  | none =>
    match (if size = 4 then effectRead a addr s else none) with
    | some o => o
    | none =>
      match readTurned a x size s with
      | some s1 => done { s1 with busReply := 0 }
      | none => (match admittedRead (carried s a x) x s with | (v, s1) => done { s1 with busReply := v })

/-- REG64_LOW_READ (R11). -/
def execReg64LowRead (a : Access) (addr : BitVec 40) (size : Fin 17) (s : State) : Out :=
  match rowOf s addr.toNat with
  | some (row, _, hi) => if row.wide && !hi then busRead a addr size s else .next s
  | none => .next s

end Sys2Proof.Machine
end

