-- ==== Sys2Proof/Machine/Bus.lean ====
section
/-! DEFINITION. Writes of registers (R8 to R14): REGISTER_WRITE, and REG64_HIGH_WRITE. A write to a register that has a row of its own has
that row's effect; any other gives each field what Tables SCP-4 and SCP-5 say, and what follows of it in its block. -/
namespace Sys2Proof.Machine

/-! ## Fields (R8, R9, R14) -/

/-- W1C fields that any 1 written clears whole. -/
def wholeClear (f : Fld) : Bool :=
  let a := f.addr
  let off := pageOff a
  a == 0x20020408 || a == 0x20140000 || a == 0x20240044 || a == 0x20030004 ||
  (decide (0x20100000 ≤ a ∧ a < 0x20140000) && off == 0x80) ||
  (decide (0x20200000 ≤ a ∧ a < 0x20200800) && a % 0x100 == 0x60) ||
  (decide (0x20246000 ≤ a ∧ a < 0x20246080) && a % 0x10 == 8) ||
  (decide (0x20680000 ≤ a ∧ a < 0x206A0000) && off == 0x70) ||
  (decide (0x20700100 ≤ a ∧ a < 0x207001C0) && (a % 0x20 == 4 || a % 0x20 == 8)) ||
  (isPage a && (decide (0x3000 ≤ off ∧ off < 0x3100) && off % 0x20 == 0x14 || off == 0x5014 || off == 0x5054))

/-- R14: a value that a Live or Start field takes. A Commit field takes any; its commit is rejected. -/
def FieldSpec.takes (q : FieldSpec) (v : Nat) : Bool :=
  q.shadow == Shadow.commit || (match q.legal with | some (lo, hi) => decide (lo ≤ v) && decide (v ≤ hi) | none => true)

/-- What a write gives a field (Table SCP-4). -/
def fieldTake (q : FieldSpec) (v : Nat) (s : State) : State :=
  match q.acc with
  | .ro => s
  | .w1c => if wholeClear q.fld then (if v = 0 then s else wr q.fld 0 s) else clrBits q.fld v s
  | .w1s => orBits q.fld v s
  | _ => if q.takes v then wr q.fld v s else s

/-- A write given to a register's fields: `val` is what it spells for each. A reserved encoding is recorded once. -/
def fieldsTake (c : Carried) (addr v : Nat) (qs : List FieldSpec) (val : FieldSpec → Nat) (s : State) : State :=
  let refused := qs.any (fun q => (q.acc == AccessType.rw || q.acc == AccessType.wo) && !q.takes (val q))
  qs.foldl (fun s q => fieldTake q (val q) s) (if refused then violateAt c 4 addr v s else s)

/-- What a 32-bit write spells for a field of a 32-bit register. -/
def val32 (v : Nat) (q : FieldSpec) : Nat := v / 2 ^ q.fld.lo % 2 ^ q.fld.width

/-- R12: what a high-word write spells for a field of a 64-bit register, with the low word held for its writer; without one the low word is
unchanged. -/
def val64 (s : State) (low : Option Nat) (v : Nat) (q : FieldSpec) : Nat :=
  let own := if q.acc = AccessType.w1c ∨ q.acc = AccessType.w1s then 0 else lo32 (rd s q.fld * 2 ^ q.fld.lo)
  (low.getD own + 4294967296 * v) / 2 ^ q.fld.lo % 2 ^ q.fld.width

/-- A register with a field that a write can change. -/
def writable (qs : List FieldSpec) : Bool := qs.any (fun q => q.acc != AccessType.ro)

/-! ## Starts (R13) -/

/-- Start fields take effect at once where the unit that uses them does not run, and are held while it does. -/
def unlessRunning (runs : Bool) (fs : List Fld) (s : State) : State := if runs then s else takeEffect fs s

/-- The Start fields of a UART, an I2C controller and an SPI controller. -/
def uartStart (u : Nat) : List Fld :=
  [GIO_UART_CFG_parity u, GIO_UART_CFG_stop2 u, GIO_UART_CFG_loopback u, GIO_UART_BAUD_int u, GIO_UART_BAUD_frac u]
def i2cStart (i : Nat) : List Fld := [GIO_I2C_SCL_lcnt i, GIO_I2C_SCL_hcnt i]
def spiStart (k : Nat) : List Fld := [GIO_SPI_CFG_mode k, GIO_SPI_CFG_lsb_first k, GIO_SPI_CFG_bits k, GIO_SPI_CLK_div k]

/-- What follows a write of a general I/O unit's registers: a unit enabled now starts (R447), and its levels are brought up to date. -/
def gioFollows (h : Nat) (s0 s : State) : State :=
  let k := h % 0x10000 / 0x100
  let start (en : Fld) (fs : List Fld) (s : State) : State := if rdB s en && !rdB s0 en then takeEffect fs s else s
  if h < 0x20900800 then (let s1 := start (GIO_UART_CFG_enable k) (uartStart k) s; setUart k (uart s1 k) s1)
  else if h < 0x20901400 then (let i := k - 0x10; let s1 := start (GIO_I2C_CFG_enable i) (i2cStart i) s; setI2c i (i2c s1 i) s1)
  else (let i := k - 0x20; let s1 := start (GIO_SPI_CFG_enable i) (spiStart i) s; setSpi i (spi s1 i) s1)

/-- A write of a GPIO bank's register: the bits that the writer may reach (R446, R451). -/
def gpioWrite (c : Carried) (h addr v : Nat) (s : State) : State :=
  let b := (h - 0x20903000) / 0x100
  let m := gpioMask s b c
  let was := gpioLevels s b
  let mixed (f : Fld) : Nat := andNot (rd s f) m + (v &&& m)
  let pull (f g : Fld) : State := if (mixed f &&& rd s g) = 0 then wr f (mixed f) s else violateAt c 4 addr v s
  match h % 0x100 with
  | 0 => gpioOut b (mixed (GIO_GPIO_OUT_out b)) s
  | 0xC => gpioFollow b was (wr (GIO_GPIO_OE_oe b) (mixed (GIO_GPIO_OE_oe b)) s)
  | 0x14 => pull (GIO_GPIO_PULLUP_up b) (GIO_GPIO_PULLDN_down b)
  | 0x18 => pull (GIO_GPIO_PULLDN_down b) (GIO_GPIO_PULLUP_up b)
  | 0x1C => gpioFollow b was (wr (GIO_GPIO_IRQ_EN_en b) (mixed (GIO_GPIO_IRQ_EN_en b)) s)
  | 0x20 => gpioFollow b was (wr (GIO_GPIO_IRQ_EDGE_edge b) (mixed (GIO_GPIO_IRQ_EDGE_edge b)) s)
  | 0x24 => gpioFollow b was (wr (GIO_GPIO_IRQ_POL_pol b) (mixed (GIO_GPIO_IRQ_POL_pol b)) s)
  | 0x28 => gpioFollow b was (clrBits (GIO_GPIO_IRQ_STAT_stat b) (v &&& m) s)
  | 0x2C => wr (GIO_GPIO_WAKE_wake b) (mixed (GIO_GPIO_WAKE_wake b)) s
  | _ => s

/-! ## The clocks, resets and power block (R88, R412) -/

/-- R88: claimed blocks of those that a write would touch, each recorded. -/
def claimsHit (c : Carried) (ks : List Nat) (s : State) : State := ks.foldl (fun s k => claimBlocked k c.master c.polder s) s

/-- A write of CRP_PD_CTRL, CRP_CLK_GATE or CRP_BLK_RESET: ignored and recorded where it would power down, gate or reset a claimed block. -/
def crpWrite (c : Carried) (h v : Nat) (s : State) : State :=
  let down (k : Nat) : Bool := match blockDomain k with | some d => domainOn s d && !bit v d | none => false
  let hit (p : Nat → Bool) : List Nat := idxWhere 24 (fun k => claimed s k && p k)
  if h = 0x20000100 then
    (match hit down with
     | [] => s |> wr CRP_PD_CTRL_on v |> wr CRP_PD_STAT_on v
     | ks => claimsHit c ks s)
  else if h = 0x20000108 then
    (match hit (fun k => bit v k && !bit (rd s CRP_CLK_GATE_gate) k) with
     | [] => wr CRP_CLK_GATE_gate v s
     | ks => claimsHit c ks s)
  else
    (match hit (bit v) with
     | [] => (idxWhere 24 (bit v)).foldl (fun s k => blockReset k s) s
     | ks => claimsHit c ks s)

/-! ## Event lines (R100, R101) -/

/-- Lines of a polder that are pending while something else holds: 24 to 39 a graphics window's events, 40 to 43 its sessions'. -/
def heldLines (s : State) (p : Nat) : Nat :=
  bitmap 64 (fun n =>
    (decide (24 ≤ n ∧ n < 40) && packFlds s [GFX_CTX_EVENT_done p (n - 24), GFX_CTX_EVENT_fault p (n - 24), GFX_CTX_EVENT_spill p (n - 24)] != 0) ||
    (decide (40 ≤ n ∧ n < 44) && (List.range 16).any (fun i =>
      let k := 4 * i + (n - 40)
      sesPolder s k == p && packFlds s [VCD_SES_EVENT_done k, VCD_SES_EVENT_fault k, VCD_SES_EVENT_lost k, VCD_SES_EVENT_overshoot k,
        VCD_SES_EVENT_ring k] != 0)))

/-- The held lines brought up to date: a line whose cause has gone is no longer pending. -/
def linesFollow (p : Nat) (s0 s : State) : State :=
  let gone := andNot (heldLines s0 p) (heldLines s p)
  s |> clrBits (POL_EVL_PENDING_pending p) gone |> orBits (POL_EVL_PENDING_pending p) (heldLines s p)

/-- R101: a vector write names a vector granted to the polder, or is not valid. -/
def vectorOk (s : State) (p v : Nat) : Bool := !bit v 8 || grantee s 8 (bits v 7 0) == p

/-! ## Registers whose writes are their own -/

/-- A write to a register whose effect its fields alone do not give; `none` for every other. -/
def ownEffect (c : Carried) (addr h v : Nat) (s : State) : Option State :=
  let p := pageOf addr
  let off := pageOff addr
  if 0x20010000 ≤ h ∧ h < 0x20014000 ∧ h % 0x100 = 0x44 then
    (let n := (h - 0x20010000) / 0x100
     some (if c.master = 9 ∨ partyAdmitted s n c = true then fieldTake ⟨MBX_CH_STAT_tx_overflow n, .w1c, .none, none⟩ (bits v 5 5) s else s))
  else if h = 0x20014108 then
    some (clrBits MBX_CROSSWAIT_STAT_pair (v &&& bitmap 32 (fun k => c.master == 9 || partyAdmitted s (2 * k) c || partyAdmitted s (2 * k + 1) c)) s)
  else if 0x20014200 ≤ h ∧ h < 0x20014280 then
    (let k := (h - 0x20014200) / 4
     some (if k = 0 ∨ 30 ≤ k then s else wr (MBX_PAIR_SHARE_polders k) (clrBit v 0) s))
  else if h = 0x20000100 ∨ h = 0x20000108 ∨ h = 0x2000010C then some (crpWrite c h v s)
  else if h = 0x20050020 then some (meterCtrlWrite v s)
  else if h = 0x20050030 then some (vltWrite (fun x => { x with tamperCfg := bits v 7 0 }) s)
  else if 0x20040000 ≤ h ∧ h < 0x20040800 ∧ 0x60 ≤ h % 0x100 ∧ h % 0x100 < 0x88 ∧ (cvuJob s ((h - 0x20040000) / 0x100)).isSome = true then some s
  else if 0x20903000 ≤ h ∧ h < 0x20903200 then some (gpioWrite c h addr v s)
  else if isPage addr = false then none
  else match ringAt off with
    | some r => some (ringCfgWrite p r addr v c s)
    | none =>
      match queueAt off 8 with
      | some q => some (queueCfgWrite p q addr v c s)
      | none =>
        if 0x3000 ≤ off ∧ off < 0x3100 ∧ off % 0x20 = 0xC ∧ rdB s (AUD_RING_CFG_dir p ((off - 0x3000) / 0x20)).inForce = true then some s
        else if 0x3000 ≤ off ∧ off < 0x3100 ∧ off % 0x20 = 0x10 ∧ rdB s (AUD_RING_CFG_dir p ((off - 0x3000) / 0x20)).inForce = false then some s
        else if 0x6100 ≤ off ∧ off < 0x6200 ∧ vectorOk s p v = false then some (violateAt c 4 addr v s)
        else none

/-! ## What follows a write -/

/-- SCN_LOCK_CTRL (R249): lock left, or sought. -/
def lockFollows (n : Nat) (s : State) : State :=
  if !lockOn s n then s |> wr (SCN_LOCK_STAT_trim n) 0 |> setOut n { out s n with lockRun := 0 } |> setLockState n 0
  else if lockState s n = 0 then setLockState n 1 s
  else s

/-- HAP_CHc_CTRL: a channel enabled is idle, one disabled is off. -/
def hapFollows (c : Nat) (s : State) : State :=
  let s1 := unlessRunning (hapState s c != 0) [HAP_CH_CTRL_dead c] s
  if rdB s1 (HAP_CH_CTRL_enable c) then (if hapState s1 c = 0 then hapEnter c 1 s1 else s1)
  else if hapState s1 c = 0 then s1
  else hapEnter c 0 (hapClear c s1)

/-- ONL_ID: the identity that the network uses. -/
def idFollows (s : State) : State :=
  if rdB s ONL_ID_set then
    let i := s.net.identity.getD ⟨0, 0, 0, 0, 0, 0⟩
    { s with net := { s.net with identity := some { i with device := rd s ONL_ID_device, system := rd s ONL_ID_system } } }
  else { s with net := { s.net with identity := none } }

/-- A domain written: D0 keeps its enable; a domain that did not run takes the fields, and starts counting samples if they enable it. -/
def domFollows (d : Nat) (s : State) : State :=
  let s1 := if d = 0 then wr (AUD_DOM_CTRL_enable 0) 1 s else s
  if rdB s1 (AUD_DOM_CTRL_enable d).inForce then s1
  else
    let s2 := takeEffect (domFlds d) s1
    setAud (fun a => { a with origin := a.origin.put d (s.now, rd s (AUD_DOM_SAMPLES_count d)) }) s2

/-- What a block makes of a register of its own just written, from the state `s0` before. -/
def follows (addr h : Nat) (s0 s : State) : State :=
  let off := pageOff h
  if 0x20010000 ≤ h ∧ h < 0x20014000 ∧ h % 0x100 = 0x48 then
    (let n := (h - 0x20010000) / 0x100
     if rdB s0 (MBX_CH_CFG_enable n) && !rdB s (MBX_CH_CFG_enable n) then
       let s1 := setChan n { chan s n with q := [] } s
       [2 * (n / 2), 2 * (n / 2) + 1].foldl (fun s i => setChan i { chan s i with unacked := [] } s) s1
     else s)
  else if h = 0x20300004 then gfxSchedule s
  else if h = 0x20300008 then rtLowered (orBits GFX_RT_ALLOW_polders 1 s)
  else if 0x20280000 ≤ h ∧ h < 0x20300000 ∧ off = 0x50 then lockFollows ((h - 0x20280000) / 0x10000) s
  else if 0x20500000 ≤ h ∧ h < 0x20540000 then
    (let c := (h - 0x20500000) / 0x10000; unlessRunning (rdB s (CAP_CTRL_enable c).inForce) (capFields c) s)
  else if 0x20600000 ≤ h ∧ h < 0x20600030 then domFollows ((h - 0x20600000) / 0x10) s
  else if 0x20600100 ≤ h ∧ h < 0x20600120 then
    (let p := (h - 0x20600100) / 4; unlessRunning (rdB s (AUD_TDM_CFG_enable p).inForce) (tdmFlds p) s)
  else if h = 0x20600140 then unlessRunning (!s.net.aes.isEmpty) [AUD_AES67_CFG_domain] s
  else if 0x20600200 ≤ h ∧ h < 0x20600280 then
    (let b := (h - 0x20600200) / 4; unlessRunning (rdB s (AUD_BRG_CFG_enable b).inForce) (brgFlds b) s)
  else if 0x20640000 ≤ h ∧ h < 0x20640800 ∧ h % 0x100 = 0 then hapFollows ((h - 0x20640000) / 0x100) s
  else if 0x20680000 ≤ h ∧ h < 0x206A0000 ∧ off < 0x30 then
    (let c := (h - 0x20680000) / 0x10000; unlessRunning (tchState s c != 0) (tchStartFlds c) s)
  else if h = 0x20700000 then idFollows s
  else if 0x20700100 ≤ h ∧ h < 0x207001C0 ∧ h % 0x20 = 0 then
    (let p := (h - 0x20700100) / 0x20
     unlessRunning (rdB s (ONL_PORT_CFG_enable p).inForce) [ONL_PORT_CFG_enable p, ONL_PORT_CFG_speed p, ONL_PORT_CFG_phy_delay p] s)
  else if 0x20900000 ≤ h ∧ h < 0x20902400 then gioFollows h s0 s
  else if isPage addr = true ∧ (off = 0x6004 ∨ pageOff addr / 0x1000 = 1 ∨ pageOff addr / 0x1000 = 2) then linesFollow (pageOf addr) s0 s
  else s

/-! ## Writes -/

/-- A write that its block takes (R12, R13). -/
def admittedWrite (c : Carried) (addr v : Nat) (s : State) : State :=
  if isPage addr && (!windowHeld s addr || (decide (0x3000 ≤ pageOff addr ∧ pageOff addr < 0x3800) && audBudget s (pageOf addr) == 0)) then
    violateAt c 2 addr v s
  else match regHome s addr, rowOf s addr with
    | some h, some (row, ix, hi) =>
      let qs := row.flds ix
      if !writable qs then s
      else if row.wide then
        if hi then
          let low := Tab.get none s.wrHold (wordKey c.master (addr - 4))
          follows addr h s (fieldsTake c addr v qs (val64 s low v) (holdWord c.master (addr - 4) none s))
        else holdWord c.master addr (some v) s
      else match ownEffect c addr h v s with
        | some s1 => s1
        | none => follows addr h s (fieldsTake c addr v qs (val32 v) s)
    | _, _ => s

/-- A write to an address that rows of their own describe, whatever the value: what those rows do. -/
def rowWrite (a : Access) (addr : BitVec 40) (v : BitVec 32) (s : State) : Option Out :=
  let x := addr.toNat
  if x = 0x20000008 then some (execHostBootWrite a addr v s)
  else if (chanRegAt s x 0x40).isSome then some (execMbxPush a addr v s)
  else if (chanRegAt s x 0xC0).isSome then some (execMbxPop a addr v s)
  else if x = modeCtrlAddr then some (execFenceNormalWrite a addr v s)
  else if x = 0x2002000C then some (execPldTidemarkWrite a addr v s)
  else if x = 0x20020020 ∧ bit v.toNat 31 = true then some (execPldInvStart a addr v s)
  else if (s2RegAt x).any (fun r => r.2 == 4) then some (execPldS2RootWrite a addr v s)
  else if (s2RegAt x).any (fun r => r.2 == 8) = true ∧ bit v.toNat 0 = true then some (execPldS2Inv a addr v s)
  else if x = 0x20000200 then some (execSecClaimWrite a addr v s)
  else if x = 0x20A0F000 then some (execDbgEnableWrite a addr v s)
  else if isPage x && pageOff x == 0x600C then some (execEvlEnableWrite a addr v s)
  else if isPage x && decide (pageOff x < 0xC00) && pageOff x % 0x30 == 0x20 then some (execLayerHeartbeat a addr v s)
  else if atDoorbell x 0xC28 then some (execCmpFlipPush a addr v s)
  else if atDoorbell x 0xC40 then some (execCmpCommit a addr v s)
  else if x = 0x20202080 then some (execEngineReset a addr v s)
  else if x = 0x20240020 then some (execDkwKeyLoad a addr v s)
  else if x = 0x20240038 then some (execDkwRingEnable a addr v s)
  else if x = 0x20240050 then some (execDkwHeadSnap a addr v s)
  else if 0x20240400 ≤ x ∧ x < 0x20240500 then some (execDkwImageWrite a addr v s)
  else if (regionReg x 0x10).isSome then some (execExpectPush a addr v s)
  else if (dkwOutReg x 0).isSome then some (execDkwBreachClear a addr v s)
  else if (dkwOutReg x 4).isSome then some (execDkwRelearn a addr v s)
  else if (gfxWindowAt x 0x20).isSome then some (execGfxDoorbell a addr v s)
  else if (sesReg x 0x0C).isSome then some (execVcdDoorbell a addr v s)
  else if (sesReg x 0x2C).isSome then some (execVcdKeyreq a addr v s)
  else if x = 0x2040000C then some (execVcdEngReset a addr v s)
  else if isPage x && pageOff x == 0x3100 then some (execAudSwap a addr v s)
  else if isPage x && pageOff x == 0x3200 then some (execAudMeterClr a addr v s)
  else if isPage x && decide (0x3400 ≤ pageOff x ∧ pageOff x < 0x3800) then some (execAudGainWrite a addr v s)
  else if isPage x && pageOff x == 0x4400 then some (execHapTrigger a addr v s)
  else if (startReg x).isSome = true ∧ bit v.toNat 0 = true then some (execCvuStart a addr v s)
  else if (startReg x).isSome = true ∧ bit v.toNat 1 = true then some (execCvuStartAbort a addr v s)
  else if x = 0x200500A0 then some (execVltCntInc a addr v s)
  else if x = 0x20050320 then some (execVltExtGo a addr v s)
  else if (gioRegAt x 0x20900000 8 0).isSome then some (execUartDataWrite a addr v s)
  else if (gioRegAt x 0x20901000 4 8).isSome then some (execI2cCmd a addr v s)
  else if (gioRegAt x 0x20902000 4 8).isSome then some (execSpiTxWrite a addr v s)
  else if (gioRegAt x 0x20903000 2 4).isSome then some (execGpioOutSet a addr v s)
  else if (gioRegAt x 0x20903000 2 8).isSome then some (execGpioOutClr a addr v s)
  else match lockAt x with
    | some n => if (turnedAway a x 4 v.toNat s).isNone then some (execMbxLockRelease a.master (Fin.ofNat 32 n) v s) else none
    | none => none

/-- A write of `size` bytes to a register or a page. -/
def busWrite (a : Access) (addr : BitVec 40) (size : Nat) (v : BitVec 32) (s : State) : Out :=
  let x := addr.toNat
  match msixAt s a x with
  | some i => .next (if size = 4 then wr (msixWord i) v.toNat s else s)
  | none =>
    match (if size = 4 then rowWrite a addr v s else none) with
    | some o => o
    | none =>
      match turnedAway a x size v.toNat s with
      | some s1 => done s1
      | none => done (admittedWrite (carried s a x) x v.toNat s)

/-- REGISTER_WRITE (R7, R8, R13, R14). -/
def execRegisterWrite (a : Access) (addr : BitVec 40) (size : Fin 17) (v : BitVec 64) (s : State) : Out :=
  if isReg addr.toNat || isPage addr.toNat then busWrite a addr size (v.setWidth 32) s else .next s

/-- REG64_HIGH_WRITE (R12). -/
def execReg64HighWrite (a : Access) (addr : BitVec 40) (v : BitVec 32) (s : State) : Out :=
  match rowOf s addr.toNat with
  | some (row, ix, hi) => if row.wide && hi && writable (row.flds ix) then busWrite a addr 4 v s else .next s
  | none => .next s

end Sys2Proof.Machine
end

