-- ==== Sys2Proof/Machine/Cores.lean ====
section
/-! DEFINITION. The world extension of the application cores (spec/03_worlds_polders_and_cores.md, R59 to R74): the world
instructions, the traps and returns that carry the world bit, the polder tags, the world watchdog and the debugger's halt. -/
namespace Sys2Proof.Machine

/-! ## Contexts and predictors -/

/-- A context of R73 and R74: the world the hart runs in (machine mode always runs in the secure world) and the polder tag in
effect. -/
def Hart.context (h : Hart) : Nat × Nat := (b2n h.carries.2, h.carries.1)

/-- R73, R74: a hart after a step that may have switched its context. At a switch in CLEAR mode every predictor entry is invalidated
before the new context runs; in either mode entries made from then on carry the new context's tag. -/
def afterSwitch (s : State) (old new : Hart) : Hart :=
  if old.context = new.context then new
  else
    let kept := if new.mpredmode || otp s 10 != 0 then [] else new.tags
    { new with tags := if kept.contains new.context then kept else new.context :: kept }

/-- A hart given the value a step leaves, with R74 applied. -/
def putHart (n : Nat) (new : Hart) (s : State) : State := setHart n (afterSwitch s (hart s n) new) s

/-! ## Traps (R66, R69; the standard privileged architecture) -/

/-- The supervisor bank in use (R69). -/
def Hart.bank (h : Hart) : SBank := if h.world then h.secureBank else h.normalBank

/-- The bank in use given a new value. -/
def Hart.setBank (h : Hart) (b : SBank) : Hart := if h.world then { h with secureBank := b } else { h with normalBank := b }

/-- mcause and scause: bit 63 marks an interrupt. -/
def causeWord (interrupt : Bool) (code : Nat) : Nat := (if interrupt then 2 ^ 63 else 0) + code

/-- The address a trap goes to: the base of xtvec, or in vectored mode, for an interrupt, that of its cause. -/
def trapTarget (tvec : Nat) (interrupt : Bool) (code : Nat) : Nat :=
  let base := tvec / 4 * 4
  (if interrupt && tvec % 4 == 1 then base + 4 * code else base) % 2 ^ 64

/-- A trap into machine mode (R69): the world bit is copied to mworld.mpw. -/
def Hart.trapM (h : Hart) (interrupt : Bool) (code tval : Nat) : Hart :=
  { h with mepc := h.pc, mcause := causeWord interrupt code, mtval := tval, mpp := h.priv, mpv := h.virt, mpie := h.mie,
           mie := false, mpw := h.world, priv := 3, virt := false, pc := trapTarget h.mtvec interrupt code }

/-- A trap into supervisor mode (R69), in the bank of the world in which it occurs. -/
def Hart.trapS (h : Hart) (interrupt : Bool) (code tval : Nat) : Hart :=
  let b := h.bank
  let h1 := h.setBank { b with sepc := h.pc, scause := causeWord interrupt code, stval := tval }
  { h1 with spp := h.priv == 1, spv := h.virt, spie := h.sie, sie := false, priv := 1, virt := false,
            pc := trapTarget b.stvec interrupt code }

/-- An exception: to supervisor mode when medeleg delegates it and the hart is not in machine mode, to machine mode otherwise. -/
def Hart.exception (h : Hart) (code tval : Nat) : Hart :=
  if h.priv ≠ 3 ∧ bit h.medeleg code = true then h.trapS false code tval else h.trapM false code tval

def excFetch : Nat := 1
def excIllegal : Nat := 2
def excVirtual : Nat := 22
def excSluice : Nat := 24

/-- R66: a sluice fault, with its reason and the target address. -/
def Hart.sluiceFault (h : Hart) (reason target : Nat) : Hart := { h with faultReason := reason }.exception excSluice target

/-- A hart executes instructions: it has been released and is not halted. -/
def Hart.canRun (h : Hart) : Bool := h.running && !h.halted

/-- The next instruction's address. -/
def Hart.nextPc (h : Hart) : Nat := (h.pc + 4) % 2 ^ 64

/-! ## World instructions (Table APC-2) -/

/-- A custom-0 instruction word with a funct3. -/
def custom0 (w funct3 : Nat) : Bool := bits w 6 0 == 0b0001011 && bits w 14 12 == funct3

/-- SLUICE on a hart (R61, R62): no effect; with a nonzero field, an illegal instruction. -/
def sluiceHart (w : Nat) (h : Hart) : Hart := if w = 0x0000000B then { h with pc := h.nextPc } else h.exception excIllegal w

/-- SLUICE. -/
def execSluice (h : Fin 8) (w : BitVec 32) (s : State) : Out :=
  if (hart s h).canRun && custom0 w.toNat 0 then done (putHart h (sluiceHart w.toNat (hart s h)) s) else .next s

/-- R64: the reason for which a call to a target fails; `none` when it succeeds. -/
def slcallReason (s : State) (h : Hart) (target : Nat) : Option Nat :=
  if target % 4 ≠ 0 then some 4
  else match satpTranslate s h h.secureBank.satp target with
    | none => some 1
    | some pa =>
      if !pageSecure s pa then some 1
      else if poisonedIn s pa 4 || readNat s pa 4 != 0x0000000B then some 2
      else none

/-- SLCALL on a hart (R61, R63, R64, R71). -/
def slcallHart (s : State) (w : Nat) (h : Hart) : Hart :=
  if bits w 31 20 ≠ 0 ∨ h.priv = 3 ∨ h.world = true ∨ h.sluiceEn = false then h.exception excIllegal w
  else if h.virt then h.exception excVirtual w
  else
    let target := h.reg (bits w 19 15)
    match slcallReason s h target with
    | some r => h.sluiceFault r target
    | none =>
      { h.setReg (bits w 11 7) h.nextPc with
          swret := h.nextPc, swcallerPriv := h.priv, swcallerPolder := h.spolder, world := true, mwdogcnt := 0, pc := target }

/-- SLCALL. -/
def execSlcall (h : Fin 8) (w : BitVec 32) (s : State) : Out :=
  if (hart s h).canRun && custom0 w.toNat 1 then done (putHart h (slcallHart s w.toNat (hart s h)) s) else .next s

/-- R65: the reason for which a return to an address fails. -/
def slretReason (s : State) (h : Hart) (target : Nat) : Option Nat :=
  if target % 4 ≠ 0 then some 4
  else match satpTranslate s h h.normalBank.satp target with
    | none => some 3
    | some pa => if pageSecure s pa then some 3 else none

/-- R89: a halt request that has been waiting for the normal world takes effect there. -/
def Hart.takeHalt (h : Hart) : Hart :=
  if h.haltPending && !h.world && h.priv != 3 then { h with halted := true, haltPending := false } else h

/-- SLRET on a hart (R61, R65). -/
def slretHart (s : State) (w : Nat) (h : Hart) : Hart :=
  if bits w 31 20 ≠ 0 ∨ bits w 11 7 ≠ 0 ∨ h.priv = 3 ∨ h.world = false ∨ h.virt = true then h.exception excIllegal w
  else
    let target := h.reg (bits w 19 15)
    match slretReason s h target with
    | some r => h.sluiceFault r target
    | none => { h with world := false, pc := target }.takeHalt

/-- SLRET. -/
def execSlret (h : Fin 8) (w : BitVec 32) (s : State) : Out :=
  if (hart s h).canRun && custom0 w.toNat 2 then done (putHart h (slretHart s w.toNat (hart s h)) s) else .next s

/-- CUSTOM0_RESERVED_FUNCT3 (R61). -/
def execCustom0ReservedFunct3 (h : Fin 8) (w : BitVec 32) (s : State) : Out :=
  if (hart s h).canRun && bits w.toNat 6 0 == 0b0001011 && decide (3 ≤ bits w.toNat 14 12) then
    done (putHart h ((hart s h).exception excIllegal w.toNat) s)
  else .next s

/-- The number of the CSR that a tag write names: spolder or svpolder (Table APC-5). -/
def tagCsr (guest : Bool) : Nat := if guest then 0x5C2 else 0x5C1

/-- A write of spolder or svpolder on a hart (R72 and Table APC-5): writable in the normal world at HS only, and only with a polder
that mpolder_allow admits. The trap value is the CSR's number (notes/assumptions/4.md). -/
def tagWriteHart (guest : Bool) (v : Nat) (h : Hart) : Hart :=
  if h.virt then h.exception excVirtual (tagCsr guest)
  else if h.priv ≠ 1 ∨ h.world = true ∨ v % 32 = 0 ∨ bit h.mpolderAllow (v % 32) = false then h.exception excIllegal (tagCsr guest)
  else
    let h1 := { h with pc := h.nextPc }
    if guest then { h1 with svpolder := v % 32 } else { h1 with spolder := v % 32 }

/-- POLDER_TAG_WRITE. -/
def execPolderTagWrite (h : Fin 8) (guest : Bool) (v : BitVec 64) (s : State) : Out :=
  if (hart s h).canRun then done (putHart h (tagWriteHart guest v.toNat (hart s h)) s) else .next s

/-! ## Traps and returns -/

/-- Whether a trap goes to machine mode: from machine mode (for an interrupt, with interrupts enabled), or because it is not
delegated. -/
def Hart.goesToM (h : Hart) (interrupt : Bool) (code : Nat) : Bool :=
  if interrupt then (if h.priv = 3 then h.mie else !bit h.mideleg code)
  else h.priv == 3 || !bit h.medeleg code

/-- TRAP_TO_MACHINE (R69). -/
def execTrapToMachine (h : Fin 8) (interrupt : Bool) (code : Fin 64) (tval : BitVec 64) (s : State) : Out :=
  let x := hart s h
  if x.canRun && x.goesToM interrupt code then done (putHart h (x.trapM interrupt code tval.toNat) s) else .next s

/-- A trap delegated to supervisor mode on a hart (R69, R70): an interrupt that arrives in the secure world, or that the hart does not
take now, stays pending. -/
def delegatedHart (interrupt : Bool) (code tval : Nat) (h : Hart) : Hart :=
  if interrupt then
    if h.world || (h.priv == 1 && !h.sie && !h.virt) then { h with mip := setBit h.mip code }
    else { h.trapS true code 0 with mip := clrBit h.mip code }
  else h.trapS false code tval

/-- TRAP_TO_SUPERVISOR (R69, R70). -/
def execTrapToSupervisor (h : Fin 8) (interrupt : Bool) (code : Fin 64) (tval : BitVec 64) (s : State) : Out :=
  let x := hart s h
  if x.canRun && x.priv != 3 && bit (if interrupt then x.mideleg else x.medeleg) code then
    done (putHart h (delegatedHart interrupt code tval.toNat x) s)
  else .next s

/-- MRET on a hart (R69): the world bit from mworld.mpw. A return into the secure world never sets V. -/
def mretHart (h : Hart) : Hart :=
  if h.priv ≠ 3 ∨ (h.mpw = true ∧ h.mpv = true ∧ h.mpp ≠ 3) then h.exception excIllegal 0x30200073
  else
    { h with priv := h.mpp, virt := h.mpv && h.mpp != 3, world := h.mpw, mie := h.mpie, mpie := true, mpp := 0, mpv := false,
             pc := h.mepc }.takeHalt

/-- MRET. -/
def execMret (h : Fin 8) (s : State) : Out :=
  if (hart s h).canRun then done (putHart h (mretHart (hart s h)) s) else .next s

/-- WORLD_WATCHDOG (R71): the count reaches the limit, and holds there until the next SLCALL. -/
def execWorldWatchdog (h : Fin 8) (s : State) : Out :=
  let x := hart s h
  if x.canRun && x.world && x.priv != 3 && x.mwdog != 0 && decide (x.mwdogcnt < x.mwdog) then
    done (putHart h ({ x with mwdogcnt := x.mwdog }.trapM true 24 0) s)
  else .next s

/-- DEBUG_HALT_REQUEST (R89, Table DBG-1). -/
def execDebugHaltRequest (h : Fin 8) (s : State) : Out :=
  let x := hart s h
  if !x.canRun then .next s
  else if debugEnabled s 2 then .next (setHart h { x with halted := true } s)
  else if !debugEnabled s 0 then .next s
  else if x.world || x.priv == 3 then .next (setHart h { x with haltPending := true } s)
  else .next (setHart h { x with halted := true } s)

end Sys2Proof.Machine
end

