-- ==== Sys2Proof/WellFormed.lean ====
section
/-! DEFINITION. Which commands are well formed: the relations between operands that their types do not state. -/
namespace Sys2Proof

/-- A memory request is within one 64-byte line's length, and a write carries as many bytes as it stores. -/
def MemReq.wf (r : MemReq) : Bool :=
  decide (0 < r.len.val) && (if r.dir = Dir.write then r.data.length == r.len.val else r.data.isEmpty)

/-- The reads of one lock in one cycle come from different masters (R43). -/
def readersWf (ms : List (Fin 64)) : Bool := !ms.isEmpty && decide ms.Nodup && ms.all (fun m => m.val != 0)

/-- The relations between a command's operands. -/
def Instr.wf : Instr → Bool
  | .memoryAccess r => r.wf
  | .mbxLockAcquire _ ms => readersWf ms
  | _ => true

end Sys2Proof
end

