-- ==== Sys2Proof/Machine/Fabric.lean ====
section
/-! DEFINITION. Accesses to memory and to what else the address map holds (R59, R60, R67, R75 to R81, R84, R105, R108, R109, R111, R112, R115,
R119 to R123, R142, R143, R452, R453), and the transactions that stay in the fabric. -/
namespace Sys2Proof.Machine

/-! ## Outcomes -/

/-- The cause of an access fault (R60). -/
def faultCause (d : Dir) : Nat := match d with | .fetch => 1 | .read => 5 | .write => 7

/-- A core's access fault (R60): the access is not performed. -/
def coreFault (r : MemReq) (s : State) : State :=
  let n := r.acc.master.val - 1
  putHart n ((hart s n).exception (faultCause r.dir) r.addr.toNat) s

/-- What a bus read returns. -/
def answer (v : Nat) (s : State) : State := { s with busReply := v }

/-- The outcome of a denied access (Table PLD-4; for Tujan, R452): a core faults; a device master's write is dropped or its read returns zeros,
and the fault is its polder's; the debugger and Tujan get zeros. `reason` is POL_FAULT_INFO's. -/
def deniedOutcome (r : MemReq) (c : Carried) (reason : Nat) (s : State) : State :=
  if isCoreMaster c.master then coreFault r s
  else
    let s1 := if r.dir = Dir.write then s else answer 0 s
    if c.master = 9 ∨ c.master = 23 then s1 else polFault c.polder r.block r.unit reason s1

/-- The outcome of a read that returns poison (R123): a core faults; a device master's polder is charged. What poison reads as is free. -/
def poisonOutcome (r : MemReq) (c : Carried) (s : State) : State :=
  if isCoreMaster c.master then coreFault r s
  else
    let s1 := if r.dir = Dir.write then s else tookFree (answer (freeVal 64 s) s)
    if c.master = 9 ∨ c.master = 23 then s1 else polFault c.polder r.block r.unit 4 s1

/-- A denial that PLD records (R79, R452). -/
def pldDenied (r : MemReq) (c : Carried) (reason a : Nat) (s : State) : State :=
  deniedOutcome r c (if reason = denyTranslation then 2 else 1) (pldDeny c (r.dir == Dir.write) reason a s)

/-! ## The system-level cache (R75) -/

/-- The sets of a way: 512 KiB of 64-byte lines. -/
def slcSets : Nat := 8192

/-- The ways in which a polder's accesses allocate. -/
def slcMask (s : State) (p : Nat) : Nat :=
  let m := rd s (PLD_SLC_WAYMASK_ways p)
  if p = 0 then m else andNot m (rd s PLD_SLC_SECURE_WAYS_ways)

/-- R75: a line looked up, and allocated where it misses in one of the polder's ways, evicting what that way held in its set. Which of those
ways is a free choice. -/
def slcTouch (p line : Nat) (s : State) : State :=
  if s.pld.slc.any (fun l => l.line == line) then s
  else match idxWhere 16 (bit (slcMask s p)) with
    | [] => s
    | ways =>
      let w := ways.getD (freeVal 16 s % ways.length) 0
      tookFree { s with pld := { s.pld with
        slc := s.pld.slc.filter (fun l => !(l.way == w && l.line % slcSets == line % slcSets)) ++ [⟨line, w, p⟩] } }

/-- The lines of an access looked up. -/
def slcLines (p a n : Nat) (s : State) : State :=
  (List.range ((a + n - 1) / 64 - a / 64 + 1)).foldl (fun s i => slcTouch p (a / 64 + i) s) s

/-! ## Checks -/

/-- What the checks say of one page of an access to OCM or DRAM: `none` when admitted. -/
def pageDenied (r : MemReq) (c : Carried) (rdNeed wrNeed : Bool) (a : Nat) (s : State) : Option State × State :=
  let kind : Bool := decide (1 ≤ c.master) && decide (c.master ≤ 9)
  if inOcm a then
    if 22528 ≤ ocmPage a ∧ c.master ≠ 9 then (some (pldDenied r c denySecure a s), s)
    else if !regionsAdmit s c.master (ocmPage a) rdNeed wrNeed then
      (some (deniedOutcome r c 1 (record0 Src.OCM_REGION_DENY (some c.polder) (c.master :: twoWords a ++ [b2n wrNeed]) s)), s)
    else if 22528 ≤ ocmPage a then (none, s)
    else match polderCheck kind c.secure c.polder a s with
      | (some why, s1) => (some (pldDenied r c why a s1), s1)
      | (none, s1) => (none, s1)
  else match polderCheck kind c.secure c.polder a s with
    | (some why, s1) => (some (pldDenied r c why a s1), s1)
    | (none, s1) => (none, s1)

/-- The checks on every page of a range: the state after the first denial, or the state in which all have passed. -/
def rangeDenied (r : MemReq) (c : Carried) (rdNeed wrNeed : Bool) : List Nat → State → Option State × State
  | [], s => (none, s)
  | a :: t, s =>
    match pageDenied r c rdNeed wrNeed a s with
    | (some x, s1) => (some x, s1)
    | (none, s1) =>
      if isCoreMaster c.master && c.secure && r.dir == Dir.fetch && !pageSecure s1 a then (some (coreFault r s1), s1)
      else rangeDenied r c rdNeed wrNeed t s1

/-! ## Performing an access -/

/-- The bytes that a write stores. -/
def reqBytes (r : MemReq) : List Nat := r.data.map (fun b => b.toNat)

/-- An access that stays in the fabric when the step ends (R105, R108): under a tag that no other transaction has. -/
def issue (r : MemReq) (c : Carried) (a : Nat) (tag : Nat) (s : State) : State :=
  if s.fabric.any (fun t => t.tag == tag) then s
  else { s with fabric := s.fabric ++ [⟨tag, c.master, c.polder, r.dir == Dir.write, a, s.now, inOutbound a, false, r.block, r.unit⟩] }

/-- An access performed on memory that admits it. -/
def plain (r : MemReq) (a : Nat) (s : State) : State :=
  if r.dir = Dir.write then writeBytes a (reqBytes r) s else answer (readNat s a r.len) s

/-- OCM performs an access (R123). -/
def ocmPerform (r : MemReq) (c : Carried) (a : Nat) (s : State) : State :=
  let s1 := slcLines c.polder a r.len s
  if r.dir = Dir.write then plain r a s1
  else if r.ecc = Ecc.uncorrectable then poisonOutcome r c (ocmUncorrectable a c.master s1)
  else match s.poison.find? (fun w => decide (8 * w < a + r.len) && decide (a < 8 * w + 8)) with
    | some w => poisonOutcome r c (ocmUncorrectable (8 * w) c.master s1)
    | none => plain r a (if r.ecc = Ecc.corrected then ocmCorrected a s1 else s1)

/-- DRAM performs an access (R136, R142, R143): before training and in self-refresh it admits none, and after loss of training none reaches it. -/
def dramPerform (r : MemReq) (c : Carried) (a : Nat) (s : State) : State :=
  if dramFailed s then poisonOutcome r c s
  else if !dramReady s || selfRefresh s then s
  else
    let s1 := activate a c.master (slcLines c.polder a r.len s)
    if r.dir = Dir.write then plain r a s1
    else match r.retry with
      | .failed => poisonOutcome r c (dramUncorrectable a c.master (dramRetried a s1))
      | .recovered => plain r a (dramRetried a s1)
      | .none => if poisonedIn s a r.len then poisonOutcome r c s1 else plain r a s1

/-! ## Aliases (R119 to R122) -/

/-- An address in the set or the clear alias or beyond its mirror. -/
def inAlias (a : Nat) : Bool := decide (0x50000000 ≤ a) && decide (a < 0x70000000)

/-- The OCM address that an alias address acts on. -/
def aliasTarget (a : Nat) : Nat := ocmBase + a % 0x10000000

/-- R121: an alias access that is not discarded. -/
def aliasForm (a n : Nat) : Bool := (n == 4 || n == 8) && a % n == 0 && decide (a % 0x10000000 < 0x6000000)

/-- OCM_ALIAS_FAULT for an access. -/
def aliasFault (c : Carried) (a : Nat) (s : State) : State := record0 Src.OCM_ALIAS_FAULT (some c.polder) (c.master :: twoWords a) s

/-- The read-modify-write of R119. -/
def aliasWrite (a n v : Nat) (s : State) : State :=
  let t := aliasTarget a
  let old := readNat s t n
  let new := if a < 0x60000000 then old ||| v else andNot old v
  { s with mem := Memory.setMany s.mem t (leBytes n new) }

/-- An access to an alias. -/
def aliasAccess (r : MemReq) (c : Carried) (a : Nat) (s : State) : State :=
  let t := aliasTarget a
  let w : Bool := r.dir == Dir.write
  if !aliasForm a r.len then aliasFault c a (if w then s else answer 0 s)
  else match rangeDenied r c true w [t] s with
    | (some s1, _) => s1
    | (none, s1) =>
      if r.ecc = Ecc.uncorrectable ∨ poisonedIn s1 t r.len = true then
        let s2 := ocmUncorrectable t c.master s1
        if w then poisonOutcome r c (aliasFault c a s2) else poisonOutcome r c s2
      else
        let s2 := if r.ecc = Ecc.corrected then ocmCorrected t s1 else s1
        if w then aliasWrite a r.len (leNat (reqBytes r)) s2 else answer (readNat s2 t r.len) s2

/-! ## The address map (Table MAP-1) -/

/-- An access to the PCIe outbound window (R112): a device master's within its polder's window; what the host holds there is the host's own. -/
def outboundAccess (r : MemReq) (c : Carried) (a : Nat) (s : State) : State :=
  if isDeviceMaster c.master && !outboundOk s c.polder a then
    pldDenied r c denyOwner a (record0 Src.PCI_OUTBOUND_DENY (some c.polder) (c.polder :: twoWords a) s)
  else match r.outstanding with
    | some tag => issue r c a tag s
    | none => if r.dir = Dir.write then s else tookFree (answer (freeVal 64 s) s)

/-- Accesses that R452 and R453 admit where neither memory nor a window takes them: Tujan's reads of the boot ROM and accesses to its TCM; reads
of the xSPI window by Tujan, secure-world cores and check-value channels of polder 0. -/
def elsewhereOk (r : MemReq) (c : Carried) (a : Nat) : Bool :=
  let xspi : Bool := decide (0x80000000 ≤ a) && decide (a < 0xA0000000)
  let tcm : Bool := decide (0x1000000 ≤ a) && decide (a < 0x1200000)
  (c.master == 9 && ((decide (a < 0x20000) && r.dir != Dir.write) || tcm)) ||
    (xspi && r.dir != Dir.write && (c.master == 9 || secureCore c || (c.master == masterCvu && c.polder == 0)))

/-- An access to anything else: the ROM, the TCM, the xSPI window, or a hole. -/
def elsewhereAccess (r : MemReq) (c : Carried) (a : Nat) (s : State) : State :=
  if elsewhereOk r c a then plain r a s
  else if r.dir = Dir.write ∧ 0x80000000 ≤ a ∧ a < 0xA0000000 then s
  else pldDenied r c (denyElsewhere a) a s

/-- An access at a physical address. -/
def physAccess (r : MemReq) (c : Carried) (a : Nat) (s : State) : State :=
  let w : Bool := r.dir == Dir.write
  if inAlias a then aliasAccess r c a s
  else if inOutbound a then outboundAccess r c a s
  else if inOcm a || inDramRange a then
    match rangeDenied r c (!w) w (pageStarts a r.len) s with
    | (some s1, _) => s1
    | (none, s1) =>
      match r.outstanding with
      | some tag => if isDeviceMaster c.master then issue r c a tag s1 else s1
      | none => if inOcm a then ocmPerform r c a s1 else dramPerform r c a s1
  else elsewhereAccess r c a s

/-- The physical address of an access: a device master's on the fabric through its polder's second stage (R84), BAR4's at the base that
PCIE_SET_WINDOWS set (R111). `none` is a translation fault, or a BAR4 address that reaches nothing. -/
def physOf (r : MemReq) (c : Carried) (s : State) : Option Nat × State :=
  let a := r.addr.toNat
  match r.acc.route with
  | .bar4 => (match s.pci.bar4 with
    | some b => if a + r.len ≤ bar4Size s * 0x100000 then (some (ocmBase + b.2 * 0x100000 + a), s) else (none, s)
    | none => (none, s))
  | _ => if isDeviceMaster c.master then s2Translate c.polder a (r.dir == Dir.write) s else (some a, s)

/-- An access to a register or page, as a read or write of its width. -/
def regAccess (r : MemReq) (addr : BitVec 40) (s : State) : Out :=
  if r.dir = Dir.write then busWrite r.acc addr r.len (BitVec.ofNat 32 (leNat (reqBytes r))) s else busRead r.acc addr r.len s

/-- The access permission that PMP asks for. -/
def permBit (d : Dir) : Nat := match d with | .read => 0 | .write => 1 | .fetch => 2

/-- An access that cannot be made: by a core that does not run, by a host whose link is down, by a debugger without bus access (Table DBG-1);
or whose tag another transaction in the fabric has. -/
def cannotIssue (r : MemReq) (c : Carried) (s : State) : Bool :=
  !r.wf || (isCoreMaster c.master && !(hart s (c.master - 1)).canRun) || masterGone s c ||
    (c.master == 23 && !debugEnabled s 2 && !debugEnabled s 0)

/-- MEMORY_ACCESS (R78). -/
def execMemoryAccess (r : MemReq) (s : State) : Out :=
  let c := carried s r.acc r.addr.toNat
  if cannotIssue r c s then .next s
  else if isCoreMaster c.master && !pmpAllows (hart s (c.master - 1)) r.addr.toNat r.len (permBit r.dir) then done (coreFault r s)
  else match r.acc.route with
    | .bar0 => if isReg r.addr.toNat then regAccess r r.addr s else done (if r.dir = Dir.write then s else answer 0 s)
    | .bar2 => if isPage r.addr.toNat then regAccess r r.addr s else done (if r.dir = Dir.write then s else answer 0 s)
    | rt =>
      match physOf r c s with
      | (none, s1) =>
        if rt = Route.bar4 then done (if r.dir = Dir.write then s1 else answer 0 s1) else done (pldDenied r c denyTranslation r.addr.toNat s1)
      | (some a, s1) =>
        if isReg a || isPage a then regAccess r (BitVec.ofNat 40 a) s1 else done (physAccess r c a s1)

/-- OCM_ALIAS_WRITE (R119 to R122). -/
def execOcmAliasWrite (a : Access) (addr : BitVec 40) (size : Fin 17) (v : BitVec 64) (uncorrectable : Bool) (s : State) : Out :=
  if inAlias addr.toNat then
    execMemoryAccess
      { acc := a, dir := .write, addr := addr, len := size.castLE (by decide), data := (leBytes size v.toNat).map (BitVec.ofNat 8), block := 0,
        unit := 0, ecc := if uncorrectable then .uncorrectable else .clean, retry := .none, outstanding := none } s
  else .next s

/-! ## Transactions in the fabric -/

/-- A transaction removed. -/
def dropTxn (tag : Nat) (s : State) : State := { s with fabric := s.fabric.filter (fun t => t.tag != tag) }

/-- FABRIC_TIMEOUT (R108): 2 ms after issue a write is dropped, and a read returns poison with reason timeout. -/
def execFabricTimeout (tag : Nat) (s : State) : Out :=
  match s.fabric.find? (fun t => t.tag == tag) with
  | some t =>
    if t.squashed || (t.pcie && !t.write) then .next s
    else
      let s1 := dropTxn tag (advanceTo (t.issued + 2000000) s)
      let s2 := if t.write then s1 else tookFree (answer (freeVal 64 s1) s1)
      done (polFault t.polder t.block t.unit 3 s2)
  | none => .next s

/-- PCI_COMPLETION_TIMEOUT (R108): 50 ms after issue a PCIe outbound read returns poison. -/
def execPciCompletionTimeout (tag : Nat) (s : State) : Out :=
  match s.fabric.find? (fun t => t.tag == tag) with
  | some t =>
    if t.squashed || !t.pcie || t.write then .next s
    else
      let s1 := dropTxn tag (advanceTo (t.issued + 50000000) s)
      let s2 := tookFree (answer (freeVal 64 s1) s1)
      done (s2 |> record0 Src.PCI_COMPLETION_TIMEOUT (some t.polder) (t.polder :: twoWords t.addr) |> polFault t.polder t.block t.unit 3)
  | none => .next s

/-- PCI_LATE_COMPLETION (R105): a completion for a squashed read is discarded and recorded. -/
def execPciLateCompletion (tag : Nat) (s : State) : Out :=
  match s.fabric.find? (fun t => t.tag == tag && t.squashed) with
  | some t => done (record0 Src.PCI_LATE_COMPLETION (some t.polder) [tag] (dropTxn tag s))
  | none => .next s

/-! ## Loss of training (R143, R144) -/

/-- DMC_TRAINING_LOST (R143): a check finds a channel's eye below its margin, or more than 64 retries have occurred on it within a millisecond.
The reason "configuration" is that of a mapping refused at initialisation (R127). -/
def execDmcTrainingLost (ch : Fin 16) (reason : LossReason) (s : State) : Out :=
  let n := match reason with | .eye => 1 | .retries => 2 | .configuration => 3
  let lost : Bool := match reason with
    | .eye => dramReady s
    | .retries => dramReady s && decide (64 < ((Tab.get [] s.dmc.retries ch).filter (fun t => decide (s.now < t + 1000000))).length)
    | .configuration => false
  if !lost || dramFailed s then .next s
  else
    let s1 := { s with dmc := { s.dmc with reason := n, attempts := 0 } }
    done (s1 |> wrAll DMC_STATUS_failed 1 |> wrAll DMC_STATUS_retraining 1 |> record0 Src.DMC_TRAINING_LOST none [ch, n] |> memDramState n
      |> vcdDramFailed)

/-- DMC_RETRAIN_DONE (R144): an attempt to retrain every channel ends. -/
def execDmcRetrainDone (success : Bool) (temp : BitVec 16) (s : State) : Out :=
  if !dramFailed s || s.dmc.permanent then .next s
  else if success then
    let s1 := passComplete temp.toNat s
    let s2 := { s1 with dmc := { s1.dmc with attempts := 0, reason := 4, retries := [] } }
    done (s2 |> wrAll DMC_STATUS_failed 0 |> wrAll DMC_STATUS_retraining 0
      |> record0 Src.DMC_RETRAIN_DONE none [rd s2 (DMC_TRAIN_STAT_passes 0), unsgn 32 (sgn 16 temp.toNat)] |> memDramState 4)
  else if s.dmc.attempts < 2 then .next { s with dmc := { s.dmc with attempts := s.dmc.attempts + 1 } }
  else done (memDramState s.dmc.reason (wrAll DMC_STATUS_retraining 0 { s with dmc := { s.dmc with attempts := 3, permanent := true } }))

end Sys2Proof.Machine
end

