-- ==== Sys2Proof/Machine/Params.lean ====
section
/-! DEFINITION. The parameter objects of R58 (Table MBX-13), with the general I/O owners of R446. -/
namespace Sys2Proof.Machine

/-- An object's value as words, with whether the sender may read it; `none` for an ID that does not exist. -/
def paramRead (q : Req) (s : State) (o : Nat) : Option (Bool × List Nat) :=
  let device (ws : List Nat) : Option (Bool × List Nat) := some (true, ws)
  if 0x0100 ≤ o ∧ o < 0x0120 then
    (let k := o - 0x0100
     let owner : Bool := q.pair == k || (match q.polder with | some p => decide (k < 30) && (pairPolders s k).contains p | none => false)
     some (owner || q.fromWarden s || q.polder == some 0,
       [rd s (MBX_CH_CFG_rx_irq_en (2 * k + 1)) + 2 * rd s (MBX_CH_CFG_wake_domain (2 * k + 1))]))
  else if o = 0x0120 then device [lo32 Config.firmwareVersion]
  else if o = 0x0121 then device [s.vlt.counters.getD 0 0]
  else if o = 0x0122 then device [rd s CRP_STATUS_cause]
  else if o = 0x0130 then device [packFlds s [CRP_THERM_CFG_warn, CRP_THERM_CFG_throttle]]
  else if o = 0x0300 then device (twoWords (rd s (DMC_RT_MASK_masters 0)))
  else if o = 0x0301 then device [rd s (DMC_RH_THRESH_thresh 0) + 65536 * rd s (DMC_RH_RATE_acts 0)]
  else if 0x0400 ≤ o ∧ o < 0x0408 then device [rd s (CMP_OUT_BGCOLOR_rgb (o - 0x0400))]
  else if o = 0x0410 then device [rd s CMP_ENG_WDOG_cycles]
  else if o = 0x0600 then device [rd s GFX_WDOG_ms]
  else if o = 0x0C00 then device [rd s EVR_ARCH_sev]
  else if o = 0x0C01 then some (q.fromWarden s || q.polder == some 0, [rd s EVR_VAULT_SEV_sev])
  else if 0x1700 ≤ o ∧ o < 0x1717 then device [rd s (GIO_OWNER_polder (o - 0x1700))]
  else none

/-- DEV_GET_PARAM (R58). -/
def devGetParam (q : Req) (s : State) : Answer :=
  match paramRead q s (bits (q.w 2) 15 0) with
  | none => no ST_BAD_ARG s
  | some (ok, ws) => if ok then okR ws s else no ST_NOT_OWNER s

/-- DEV_GET_PARAM. -/
def execDevGetParam (k : Fin 32) (s : State) : Out := done (serve Op.DEV_GET_PARAM k devGetParam s)

/-- R446: a unit given an owner. -/
def gioOwner (q : Req) (k p : Nat) (s : State) : Answer :=
  let old := rd s (GIO_OWNER_polder k)
  if 32 ≤ p then no ST_BAD_ARG s
  else if old = 0 ∧ q.fromSecure = false then no ST_NOT_OWNER s
  else if gioHoldsData s k then no ST_BUSY s
  else if old = p then did s
  else did (record0 Src.GIO_OWNER none [k, p] (wr (GIO_OWNER_polder k) p s))

/-- DEV_SET_PARAM (R58): the warden's, as the class check of R32 has it. -/
def devSetParam (q : Req) (s : State) : Answer :=
  let o := bits (q.w 2) 15 0
  let v := q.w 3
  let put (ok : Bool) (s' : State) : Answer := if ok then did s' else no ST_BAD_ARG s
  if (0x0100 ≤ o ∧ o < 0x0120) ∨ o = 0x0C01 then no ST_NOT_OWNER s
  else if o = 0x0130 then
    (let warn := bits v 11 0
     let throttle := bits v 27 16
     put (decide (700 ≤ warn ∧ warn + 10 ≤ throttle ∧ throttle ≤ 1150)) (s |> wr CRP_THERM_CFG_warn warn |> wr CRP_THERM_CFG_throttle throttle))
  else if o = 0x0300 then did (wr (DMC_RT_MASK_masters 0) (rtMask (v + 4294967296 * q.w 4)) s)
  else if o = 0x0301 then
    put (decide (256 ≤ bits v 15 0 ∧ 1 ≤ bits v 23 16)) (s |> wr (DMC_RH_THRESH_thresh 0) (bits v 15 0) |> wr (DMC_RH_RATE_acts 0) (bits v 23 16))
  else if 0x0400 ≤ o ∧ o < 0x0408 then put (decide (v < 2 ^ 30)) (wr (CMP_OUT_BGCOLOR_rgb (o - 0x0400)) v s)
  else if o = 0x0410 then put (decide (v < 2 ^ 24)) (wr CMP_ENG_WDOG_cycles v s)
  else if o = 0x0600 then put (decide (1 ≤ v ∧ v ≤ 1000)) (wr GFX_WDOG_ms v s)
  else if o = 0x0C00 then put (decide (v < 16)) (wr EVR_ARCH_sev v s)
  else if 0x1700 ≤ o ∧ o < 0x1717 then gioOwner q (o - 0x1700) v s
  else no ST_BAD_ARG s

/-- DEV_SET_PARAM. -/
def execDevSetParam (k : Fin 32) (s : State) : Out := done (serve Op.DEV_SET_PARAM k devSetParam s)

end Sys2Proof.Machine
end

