-- ==== Sys2Proof/Machine/Placement.lean ====
section
/-! DEFINITION. Layer and composition commands (Tables CMP-9 and CMP-19): placement (R148, R150), latch, budgets (R170, R199), background,
composition settings, write-back (R195) and scaler tables (R200). -/
namespace Sys2Proof.Machine

/-! ## What is read -/

/-- CMP_LAYERn_CTRL to CMP_LAYERn_COLOR as lists of fields. -/
def contentWords (m : Nat) : List (List Fld) :=
  [[CMP_LAYER_CTRL_enable m, CMP_LAYER_CTRL_format m, CMP_LAYER_CTRL_csc m, CMP_LAYER_CTRL_full_range m, CMP_LAYER_CTRL_vtaps m,
    CMP_LAYER_CTRL_striped m, CMP_LAYER_CTRL_fast_clear m, CMP_LAYER_CTRL_alpha_mode m, CMP_LAYER_CTRL_premult m],
   [CMP_LAYER_SRC_XY_x m, CMP_LAYER_SRC_XY_y m], [CMP_LAYER_SRC_WH_w m, CMP_LAYER_SRC_WH_h m],
   [CMP_LAYER_DST_XY_x m, CMP_LAYER_DST_XY_y m], [CMP_LAYER_DST_WH_w m, CMP_LAYER_DST_WH_h m],
   [CMP_LAYER_STRIDE_stride0 m, CMP_LAYER_STRIDE_stride1 m], [CMP_LAYER_ALPHA_global m],
   [CMP_LAYER_COLOR_r m, CMP_LAYER_COLOR_g m, CMP_LAYER_COLOR_b m]]

/-- CMP_LAYERn_LSTAT. -/
def lstatWord (m : Nat) : List Fld :=
  [CMP_LAYER_LSTAT_in_use_seq m, CMP_LAYER_LSTAT_released_seq m, CMP_LAYER_LSTAT_next_seq m, CMP_LAYER_LSTAT_pending m,
   CMP_LAYER_LSTAT_has_buffer m, CMP_LAYER_LSTAT_active m, CMP_LAYER_LSTAT_underrun m]

/-- The clip words of a slot. -/
def clipXY (m : Nat) : List Fld := [CMP_SLOT_CLIP_XY_x m, CMP_SLOT_CLIP_XY_y m]
def clipWH (m : Nat) : List Fld := [CMP_SLOT_CLIP_WH_w m, CMP_SLOT_CLIP_WH_h m]

/-- DSP_GET_LAYER (R464). -/
def dspGetLayer (q : Req) (s : State) : Answer :=
  let m := bits (q.w 2) 5 0
  let own := (contentWords m).map (packForce s) ++ [packFlds s (lstatWord m)]
  okR ((if q.mayReadPolder s (slotOwner s m) then own else own.map (fun _ => 0)) ++
    [packForce s [CMP_SLOT_PLACE_output m, CMP_SLOT_PLACE_z m] + 65536 * slotOwner s m, packForce s (clipXY m), packForce s (clipWH m)]) s

/-- DSP_GET_LAYER. -/
def execDspGetLayer (k : Fin 32) (s : State) : Out := done (serve Op.DSP_GET_LAYER k dspGetLayer s)

/-- DSP_GET_OUTPUT_COMMIT. -/
def dspGetOutputCommit (q : Req) (s : State) : Answer :=
  let n := bits (q.w 2) 2 0
  okR [packFlds s [CMP_OUT_LATCH_lookahead n, CMP_OUT_LATCH_berm n, CMP_OUT_LATCH_secure_z n], rd s (CMP_OUT_FETCH_BUDGET_bursts n),
    rd s (CMP_OUT_PIX_BUDGET_pixels n), rd s (CMP_OUT_BGCOLOR_rgb n),
    packFlds s [CMP_OUT_IN_FORCE_id n, CMP_OUT_IN_FORCE_polder n, CMP_OUT_IN_FORCE_device n, CMP_OUT_IN_FORCE_valid n],
    rd s (CMP_OUT_APPLY_FRAME_frame n), rd s (CMP_OUT_QUEUE_count n), rd s (CMP_OUT_FETCH_DEMAND_bursts n), rd s (CMP_OUT_PIX_DEMAND_pixels n)] s

/-- DSP_GET_OUTPUT_COMMIT. -/
def execDspGetOutputCommit (k : Fin 32) (s : State) : Out := done (serve Op.DSP_GET_OUTPUT_COMMIT k dspGetOutputCommit s)

/-- DSP_GET_ENGINES. -/
def dspGetEngines (_ : Req) (s : State) : Answer :=
  okR [bitmap 32 (engBusy s), rd s CMP_ENG_OFFLINE_engines, rd s CMP_ENG_STEALS_count, rd s CMP_ENG_REQUEUES_count] s

/-- DSP_GET_ENGINES. -/
def execDspGetEngines (k : Fin 32) (s : State) : Out := done (serve Op.DSP_GET_ENGINES k dspGetEngines s)

/-! ## Placement (R148, R150) -/

/-- R148: the slot is enabled in force or in a queued commit. -/
def enabledAnywhere (s : State) (m : Nat) : Bool :=
  slotActive s m || s.dsp.queue.any (fun c => c.vals.contains ((CMP_LAYER_CTRL_enable m).inForce.key, 1))

/-- R148, R150: the first status that refuses a placement of slot `m` on output `n` (15 for none) at `z`. -/
def placementFault (s : State) (m n z : Nat) : Option Nat :=
  let sp := projected s
  let others := idxWhere 64 (fun k => k != m && placedOn sp k == n)
  if (8 ≤ n ∧ n < 15) ∨ 23 < z then some ST_BAD_ARG
  else if n < 8 ∧ 24 ≤ others.length then some ST_LAYER_LIMIT
  else if n < 8 ∧ others.any (fun k => rd sp (CMP_SLOT_PLACE_z k).inForce == z) then some ST_Z_TAKEN
  else if placedOn sp m ≠ n ∧ enabledAnywhere s m then some ST_BUSY
  else if n < 8 ∧ slotOwner s m ≠ 0 ∧ rd sp (CMP_OUT_LATCH_secure_z n).inForce ≤ z then some ST_BAD_ARG
  else none

/-- R148: a placement by internal commit. `secure` tells DSP_SET_SECURE_SLOT from DSP_SET_SLOT. -/
def setSlotPlace (secure : Bool) (q : Req) (s : State) : Answer :=
  let m := bits (q.w 2) 5 0
  let n := bits (q.w 2) 11 8
  let z := bits (q.w 2) 20 16
  if secure ≠ (slotOwner s m == 0) then no ST_NOT_OWNER s
  else match placementFault s m n z with
    | some st => no st s
    | none => internalCommit q.job (min 8 n)
        ([(CMP_SLOT_PLACE_output m, n), (CMP_SLOT_PLACE_z m, z)] ++ unpackFlds (q.w 3) (clipXY m) ++ unpackFlds (q.w 4) (clipWH m)) s

/-- DSP_SET_SLOT (R148). -/
def execDspSetSlot (k : Fin 32) (s : State) : Out := done (serve Op.DSP_SET_SLOT k (setSlotPlace false) s)

/-- DSP_SET_SECURE_SLOT (R148). -/
def execDspSetSecureSlot (k : Fin 32) (s : State) : Out := done (serve Op.DSP_SET_SECURE_SLOT k (setSlotPlace true) s)

/-- DSP_SET_SECURE_Z (R150). -/
def dspSetSecureZ (q : Req) (s : State) : Answer :=
  let n := bits (q.w 2) 2 0
  let z := bits (q.w 2) 12 8
  let sp := projected s
  if 24 < z ∨ (slotsOn sp n).any (fun m => slotOwner s m != 0 && decide (z ≤ rd sp (CMP_SLOT_PLACE_z m).inForce)) = true then no ST_BAD_ARG s
  else internalCommit q.job n [(CMP_OUT_LATCH_secure_z n, z)] s

/-- DSP_SET_SECURE_Z. -/
def execDspSetSecureZ (k : Fin 32) (s : State) : Out := done (serve Op.DSP_SET_SECURE_Z k dspSetSecureZ s)

/-! ## Latch, budgets, background (R163, R170, R171, R199) -/

/-- DSP_SET_LATCH (R163). -/
def dspSetLatch (q : Req) (s : State) : Answer :=
  let n := bits (q.w 2) 2 0
  let la := bits (q.w 2) 14 8
  let berm := bits (q.w 2) 20 16
  if la ∉ [16, 32, 48, 64] ∨ berm < 1 ∨ 16 < berm ∨ (modeSet s n = true ∧ vTotal s n - vActive s n < la) then no ST_BAD_ARG s
  else internalCommit q.job n [(CMP_OUT_LATCH_lookahead n, la), (CMP_OUT_LATCH_berm n, berm)] s

/-- DSP_SET_LATCH. -/
def execDspSetLatch (k : Fin 32) (s : State) : Out := done (serve Op.DSP_SET_LATCH k dspSetLatch s)

/-- DSP_SET_BUDGET (R170, R199). -/
def dspSetBudget (q : Req) (s : State) : Answer :=
  let n := bits (q.w 2) 2 0
  let demands := [demandOf s n, demandOf (projected s) n]
  let mhz := if running s n then rd s (SCN_RATE_mhz n) else 0
  if demands.any (fun e => decide (q.w 3 < e.1) || decide (q.w 4 < e.2)) || !ceilingsOk s n mhz (q.w 3) (q.w 4) then no ST_BANDWIDTH s
  else internalCommit q.job n [(CMP_OUT_FETCH_BUDGET_bursts n, q.w 3), (CMP_OUT_PIX_BUDGET_pixels n, q.w 4)] s

/-- DSP_SET_BUDGET. -/
def execDspSetBudget (k : Fin 32) (s : State) : Out := done (serve Op.DSP_SET_BUDGET k dspSetBudget s)

/-- DSP_SET_BACKGROUND (R171): live, so that the next latch point takes it. -/
def dspSetBackground (q : Req) (s : State) : Answer := did (wr (CMP_OUT_BGCOLOR_rgb (bits (q.w 2) 2 0)) (bits (q.w 3) 29 0) s)

/-- DSP_SET_BACKGROUND. -/
def execDspSetBackground (k : Fin 32) (s : State) : Out := done (serve Op.DSP_SET_BACKGROUND k dspSetBackground s)

/-! ## Composition settings and write-back (R195, R200) -/

/-- DSP_SET_COMPOSE. -/
def dspSetCompose (q : Req) (s : State) : Answer :=
  let n := bits (q.w 2) 2 0
  let guard := bits (q.w 2) 11 8
  if guard < 1 ∨ 8 < guard then no ST_BAD_ARG s
  else internalCommit q.job n [(CMP_OUT_COMPOSE_guard n, guard), (CMP_OUT_COMPOSE_dither n, bits (q.w 2) 12 12)] s

/-- DSP_SET_COMPOSE. -/
def execDspSetCompose (k : Fin 32) (s : State) : Out := done (serve Op.DSP_SET_COMPOSE k dspSetCompose s)

/-- The bytes of a write-back frame buffer, as first and last address; none while the output has no mode. -/
def wbSpan (s : State) (n base stride : Nat) : List (Nat × Nat) :=
  if vActive s n = 0 ∨ hActive s n = 0 then [] else [(base, base + (vActive s n - 1) * stride + 4 * hActive s n - 1)]

/-- DSP_SET_WRITEBACK (R195). -/
def dspSetWriteback (q : Req) (s : State) : Answer :=
  let n := bits (q.w 2) 31 29
  let stride := q.w 3
  let p := bits (q.w 2) 8 4
  let base (i : Nat) : Nat := bits (q.w (4 + 2 * i) + 4294967296 * q.w (5 + 2 * i)) 39 6
  if stride % 64 ≠ 0 ∨ 65536 ≤ stride ∨ stride < 4 * hActive s n then no ST_BAD_ARG s
  else if !(List.range (bits (q.w 2) 2 1 + 1)).all (fun i => (wbSpan s n (base i * 64) stride).all (spanOwned s p [])) then no ST_BAD_ADDR s
  else internalCommit q.job n
    ([(CMP_OUT_WB_CTRL_enable n, bits (q.w 2) 0 0), (CMP_OUT_WB_CTRL_count n, bits (q.w 2) 2 1), (CMP_OUT_WB_CTRL_polder n, p),
      (CMP_OUT_WB_STRIDE_stride n, stride)] ++ (List.range 4).map (fun i => (CMP_OUT_WB_BASE_addr n i, base i))) s

/-- DSP_SET_WRITEBACK. -/
def execDspSetWriteback (k : Fin 32) (s : State) : Out := done (serve Op.DSP_SET_WRITEBACK k dspSetWriteback s)

/-! ## Scaler tables (R187, R200) -/

/-- The coefficient words of phase `p` of a table (0 six-tap horizontal, 1 four-tap, 2 two-tap vertical), as lists of fields. -/
def coefWords (n table p : Nat) : List (List Fld) :=
  match table with
  | 0 => (List.range 3).map (fun w => [CMP_OUT_HCOEF_tapLo n p w, CMP_OUT_HCOEF_tapHi n p w])
  | 1 => (List.range 2).map (fun w => [CMP_OUT_V4COEF_tapLo n p w, CMP_OUT_V4COEF_tapHi n p w])
  | _ => [[CMP_OUT_V2COEF_tapLo n p, CMP_OUT_V2COEF_tapHi n p]]

/-- The phases that fit a message of a table. -/
def phaseLimit (table : Nat) : Nat := if table = 0 then 4 else if table = 1 then 6 else 12

/-- DSP_GET_SCALER. -/
def dspGetScaler (q : Req) (s : State) : Answer :=
  let n := bits (q.w 2) 2 0
  let table := bits (q.w 2) 9 8
  let p0 := bits (q.w 2) 21 16
  if table = 3 then no ST_BAD_ARG s
  else okR ((List.range (min (phaseLimit table) (64 - p0))).flatMap (fun i => (coefWords n table (p0 + i)).map (packFlds s))) s

/-- DSP_GET_SCALER. -/
def execDspGetScaler (k : Fin 32) (s : State) : Out := done (serve Op.DSP_GET_SCALER k dspGetScaler s)

/-- R187: the taps of every phase of an output's shadow tables sum to 1,024. -/
def scalerSumsOk (s : State) (n : Nat) : Bool :=
  (List.range 3).all (fun t => (List.range 64).all (fun p => ((coefWords n t p).flatten.map (rdI s)).sum == 1024))

/-- DSP_SET_SCALER (R200). -/
def dspSetScaler (q : Req) (s : State) : Answer :=
  let n := bits (q.w 2) 2 0
  let table := bits (q.w 2) 9 8
  let p0 := bits (q.w 2) 21 16
  let k := bits (q.w 2) 27 24
  if table = 3 ∨ phaseLimit table < k ∨ 64 < p0 + k then no ST_BAD_ARG s
  else
    let ws := (List.range k).flatMap (fun i => coefWords n table (p0 + i))
    let s1 := (ws.zipIdx).foldl (fun s e => writeFlds (q.w (3 + e.2)) e.1 s) s
    if !bit (q.w 2) 31 then did s1
    else if !scalerSumsOk s1 n then no ST_BAD_ARG s1
    else internalCommit q.job n ((List.range 3).flatMap (fun t => (List.range 64).flatMap (fun p =>
      (coefWords n t p).flatten.map (fun f => (f, rd s1 f))))) s1

/-- DSP_SET_SCALER. -/
def execDspSetScaler (k : Fin 32) (s : State) : Out := done (serve Op.DSP_SET_SCALER k dspSetScaler s)

end Sys2Proof.Machine
end

