-- ==== Sys2Proof/Machine/Dispatch.lean ====
section
/-! DEFINITION. One arm per row of spec/opcode_table.json: which meaning a command has. -/
namespace Sys2Proof.Machine

def exec (i : Instr) (s : State) : Host.Outcome State Fault Refusal :=
  match i with
  | .registerWrite a addr size v => Sys2Proof.Machine.execRegisterWrite a addr size v s
  | .reg64LowRead a addr size => Sys2Proof.Machine.execReg64LowRead a addr size s
  | .reg64HighWrite a addr v => Sys2Proof.Machine.execReg64HighWrite a addr v s
  | .memoryAccess r => Sys2Proof.Machine.execMemoryAccess r s
  | .ocmEccWriteback bank => Sys2Proof.Machine.execOcmEccWriteback bank s
  | .ocmAliasWrite a addr size v uncorrectable => Sys2Proof.Machine.execOcmAliasWrite a addr size v uncorrectable s
  | .fabricTimeout tag => Sys2Proof.Machine.execFabricTimeout tag s
  | .pciCompletionTimeout tag => Sys2Proof.Machine.execPciCompletionTimeout tag s
  | .pciLateCompletion tag => Sys2Proof.Machine.execPciLateCompletion tag s
  | .pciLinkDown => Sys2Proof.Machine.execPciLinkDown s
  | .pciHotReset functionLevel => Sys2Proof.Machine.execPciHotReset functionLevel s
  | .mbxPush a addr v => Sys2Proof.Machine.execMbxPush a addr v s
  | .mbxPop a addr v => Sys2Proof.Machine.execMbxPop a addr v s
  | .mbxLockAcquire n readers => Sys2Proof.Machine.execMbxLockAcquire n readers s
  | .mbxLockRelease master n v => Sys2Proof.Machine.execMbxLockRelease master n v s
  | .mbxCrosswait k => Sys2Proof.Machine.execMbxCrosswait k s
  | .tujanHoldDrain k => Sys2Proof.Machine.execTujanHoldDrain k s
  | .partyAck k => Sys2Proof.Machine.execPartyAck k s
  | .devGetInfo k => Sys2Proof.Machine.execDevGetInfo k s
  | .devGetStatus k => Sys2Proof.Machine.execDevGetStatus k s
  | .wardenGet k => Sys2Proof.Machine.execWardenGet k s
  | .devGetParam k => Sys2Proof.Machine.execDevGetParam k s
  | .devSetParam k => Sys2Proof.Machine.execDevSetParam k s
  | .wardenClaim k => Sys2Proof.Machine.execWardenClaim k s
  | .claimWindowClose => Sys2Proof.Machine.execClaimWindowClose s
  | .wardenAccept k => Sys2Proof.Machine.execWardenAccept k s
  | .wardenHandover k => Sys2Proof.Machine.execWardenHandover k s
  | .handoverLapse => Sys2Proof.Machine.execHandoverLapse s
  | .wardenRelease k => Sys2Proof.Machine.execWardenRelease k s
  | .mbxSetRx k => Sys2Proof.Machine.execMbxSetRx k s
  | .sluice h w => Sys2Proof.Machine.execSluice h w s
  | .slcall h w => Sys2Proof.Machine.execSlcall h w s
  | .slret h w => Sys2Proof.Machine.execSlret h w s
  | .polderTagWrite h guest v => Sys2Proof.Machine.execPolderTagWrite h guest v s
  | .trapToMachine h interrupt code tval => Sys2Proof.Machine.execTrapToMachine h interrupt code tval s
  | .mret h => Sys2Proof.Machine.execMret h s
  | .worldWatchdog h => Sys2Proof.Machine.execWorldWatchdog h s
  | .pldReqMap a addr v => Sys2Proof.Machine.execPldReqMap a addr v s
  | .mapSwitchDone badLine => Sys2Proof.Machine.execMapSwitchDone badLine s
  | .pldReqTidemark a addr v => Sys2Proof.Machine.execPldReqTidemark a addr v s
  | .fenceNormalWrite a addr v => Sys2Proof.Machine.execFenceNormalWrite a addr v s
  | .pldTidemarkWrite a addr v => Sys2Proof.Machine.execPldTidemarkWrite a addr v s
  | .pldInvStart a addr v => Sys2Proof.Machine.execPldInvStart a addr v s
  | .pldInvDone => Sys2Proof.Machine.execPldInvDone s
  | .pldS2RootWrite a addr v => Sys2Proof.Machine.execPldS2RootWrite a addr v s
  | .pldS2Inv a addr v => Sys2Proof.Machine.execPldS2Inv a addr v s
  | .pldS2InvDone p => Sys2Proof.Machine.execPldS2InvDone p s
  | .secClaimWrite a addr v => Sys2Proof.Machine.execSecClaimWrite a addr v s
  | .dbgEnableWrite a addr v => Sys2Proof.Machine.execDbgEnableWrite a addr v s
  | .polderGetInfo k => Sys2Proof.Machine.execPolderGetInfo k s
  | .polderGetGrants k => Sys2Proof.Machine.execPolderGetGrants k s
  | .polderCreate k => Sys2Proof.Machine.execPolderCreate k s
  | .polderDestroy k => Sys2Proof.Machine.execPolderDestroy k s
  | .polderGrant k => Sys2Proof.Machine.execPolderGrant k s
  | .polderRevoke k => Sys2Proof.Machine.execPolderRevoke k s
  | .polderSetShare k => Sys2Proof.Machine.execPolderSetShare k s
  | .polderReset k => Sys2Proof.Machine.execPolderReset k s
  | .polderWorkAbort p => Sys2Proof.Machine.execPolderWorkAbort p s
  | .crpPolderSquash p => Sys2Proof.Machine.execCrpPolderSquash p s
  | .polderResetDone p => Sys2Proof.Machine.execPolderResetDone p s
  | .polderAssignPair k => Sys2Proof.Machine.execPolderAssignPair k s
  | .pcieSetWindows k => Sys2Proof.Machine.execPcieSetWindows k s
  | .evlEnableWrite a addr v => Sys2Proof.Machine.execEvlEnableWrite a addr v s
  | .dramRefresh ch => Sys2Proof.Machine.execDramRefresh ch s
  | .urgentFlagChange master ch up => Sys2Proof.Machine.execUrgentFlagChange master ch up s
  | .refreshWindowStart => Sys2Proof.Machine.execRefreshWindowStart s
  | .zqCalibration => Sys2Proof.Machine.execZqCalibration s
  | .retrainStep ch temp => Sys2Proof.Machine.execRetrainStep ch temp s
  | .dmcTrainingLost ch reason => Sys2Proof.Machine.execDmcTrainingLost ch reason s
  | .dmcRetrainDone success temp => Sys2Proof.Machine.execDmcRetrainDone success temp s
  | .ocmScrubPass => Sys2Proof.Machine.execOcmScrubPass s
  | .dramPatrol retryFailed => Sys2Proof.Machine.execDramPatrol retryFailed s
  | .memGetInfo k => Sys2Proof.Machine.execMemGetInfo k s
  | .memGetOcmRegion k => Sys2Proof.Machine.execMemGetOcmRegion k s
  | .memGetThrottle k => Sys2Proof.Machine.execMemGetThrottle k s
  | .memSetOcmRegion k => Sys2Proof.Machine.execMemSetOcmRegion k s
  | .memSetPasr k => Sys2Proof.Machine.execMemSetPasr k s
  | .memSetRefresh k => Sys2Proof.Machine.execMemSetRefresh k s
  | .memSetRowhammer k => Sys2Proof.Machine.execMemSetRowhammer k s
  | .memSetRtMasters k => Sys2Proof.Machine.execMemSetRtMasters k s
  | .cmpFlipPush a addr v => Sys2Proof.Machine.execCmpFlipPush a addr v s
  | .flipValidate p => Sys2Proof.Machine.execFlipValidate p s
  | .cmpCommit a addr v => Sys2Proof.Machine.execCmpCommit a addr v s
  | .commitValidate => Sys2Proof.Machine.execCommitValidate s
  | .latchPoint n => Sys2Proof.Machine.execLatchPoint n s
  | .layerHeartbeat a addr v => Sys2Proof.Machine.execLayerHeartbeat a addr v s
  | .dspGetLayer k => Sys2Proof.Machine.execDspGetLayer k s
  | .dspGetOutputCommit k => Sys2Proof.Machine.execDspGetOutputCommit k s
  | .dspSetSlot k => Sys2Proof.Machine.execDspSetSlot k s
  | .dspSetSecureSlot k => Sys2Proof.Machine.execDspSetSecureSlot k s
  | .dspSetLatch k => Sys2Proof.Machine.execDspSetLatch k s
  | .dspSetBudget k => Sys2Proof.Machine.execDspSetBudget k s
  | .dspSetBackground k => Sys2Proof.Machine.execDspSetBackground k s
  | .dspSetSecureZ k => Sys2Proof.Machine.execDspSetSecureZ k s
  | .bandEligible n b => Sys2Proof.Machine.execBandEligible n b s
  | .tileDispatch => Sys2Proof.Machine.execTileDispatch s
  | .tileComplete e => Sys2Proof.Machine.execTileComplete e s
  | .engineFault e => Sys2Proof.Machine.execEngineFault e s
  | .engineWatchdog e => Sys2Proof.Machine.execEngineWatchdog e s
  | .engineReset a addr v => Sys2Proof.Machine.execEngineReset a addr v s
  | .engineReturn e => Sys2Proof.Machine.execEngineReturn e s
  | .layerUnderrun n b t m => Sys2Proof.Machine.execLayerUnderrun n b t m s
  | .tileAbandoned n b t => Sys2Proof.Machine.execTileAbandoned n b t s
  | .wbBandComplete n b => Sys2Proof.Machine.execWbBandComplete n b s
  | .wbBandDrop n b => Sys2Proof.Machine.execWbBandDrop n b s
  | .poolEntryRelease n b => Sys2Proof.Machine.execPoolEntryRelease n b s
  | .dspGetEngines k => Sys2Proof.Machine.execDspGetEngines k s
  | .dspGetScaler k => Sys2Proof.Machine.execDspGetScaler k s
  | .dspSetCompose k => Sys2Proof.Machine.execDspSetCompose k s
  | .dspSetWriteback k => Sys2Proof.Machine.execDspSetWriteback k s
  | .dspSetScaler k => Sys2Proof.Machine.execDspSetScaler k s
  | .regionCompare n r => Sys2Proof.Machine.execRegionCompare n r s
  | .attestRecord n => Sys2Proof.Machine.execAttestRecord n s
  | .motionReadDone m => Sys2Proof.Machine.execMotionReadDone m s
  | .autoReadDone n r => Sys2Proof.Machine.execAutoReadDone n r s
  | .expectPush a addr v => Sys2Proof.Machine.execExpectPush a addr v s
  | .dkwBreachClear a addr v => Sys2Proof.Machine.execDkwBreachClear a addr v s
  | .dkwRelearn a addr v => Sys2Proof.Machine.execDkwRelearn a addr v s
  | .dkwKeyLoad a addr v => Sys2Proof.Machine.execDkwKeyLoad a addr v s
  | .dkwRingEnable a addr v => Sys2Proof.Machine.execDkwRingEnable a addr v s
  | .dkwHeadSnap a addr v => Sys2Proof.Machine.execDkwHeadSnap a addr v s
  | .dkwImageWrite a addr v => Sys2Proof.Machine.execDkwImageWrite a addr v s
  | .dkwGetLayer k => Sys2Proof.Machine.execDkwGetLayer k s
  | .dkwGetRegion k => Sys2Proof.Machine.execDkwGetRegion k s
  | .dkwGetRing k => Sys2Proof.Machine.execDkwGetRing k s
  | .dkwSetLayerLive k => Sys2Proof.Machine.execDkwSetLayerLive k s
  | .dkwSetSecureLayer k => Sys2Proof.Machine.execDkwSetSecureLayer k s
  | .dkwSetRegion k => Sys2Proof.Machine.execDkwSetRegion k s
  | .dkwSetImage k => Sys2Proof.Machine.execDkwSetImage k s
  | .dkwSetKey k => Sys2Proof.Machine.execDkwSetKey k s
  | .dkwSetRing k => Sys2Proof.Machine.execDkwSetRing k s
  | .vsync n => Sys2Proof.Machine.execVsync n s
  | .flip n => Sys2Proof.Machine.execFlip n s
  | .tileScan n => Sys2Proof.Machine.execTileScan n s
  | .hpdPoll reads => Sys2Proof.Machine.execHpdPoll reads s
  | .linkStatusPoll n lost t => Sys2Proof.Machine.execLinkStatusPoll n lost t s
  | .modeTimingStop n => Sys2Proof.Machine.execModeTimingStop n s
  | .modeTimingStart n trained => Sys2Proof.Machine.execModeTimingStart n trained s
  | .dspGetOutput k => Sys2Proof.Machine.execDspGetOutput k s
  | .dspGetSink k => Sys2Proof.Machine.execDspGetSink k s
  | .dspSetMode k => Sys2Proof.Machine.execDspSetMode k s
  | .dspSetLock k => Sys2Proof.Machine.execDspSetLock k s
  | .dspSetFill k => Sys2Proof.Machine.execDspSetFill k s
  | .gfxDoorbell a addr v => Sys2Proof.Machine.execGfxDoorbell a addr v s
  | .gfxBoundary p w clusters work => Sys2Proof.Machine.execGfxBoundary p w clusters work s
  | .gfxSubmissionDone p w => Sys2Proof.Machine.execGfxSubmissionDone p w s
  | .nop p w => Sys2Proof.Machine.execNop p w s
  | .call p w => Sys2Proof.Machine.execCall p w s
  | .state p w => Sys2Proof.Machine.execState p w s
  | .draw p w d => Sys2Proof.Machine.execDraw p w d s
  | .dispatch p w => Sys2Proof.Machine.execDispatch p w s
  | .renderBegin p w => Sys2Proof.Machine.execRenderBegin p w s
  | .renderEnd p w tiles clears => Sys2Proof.Machine.execRenderEnd p w tiles clears s
  | .waitGe p w => Sys2Proof.Machine.execWaitGe p w s
  | .waitGeMet p w => Sys2Proof.Machine.execWaitGeMet p w s
  | .waitGeTimeout p w => Sys2Proof.Machine.execWaitGeTimeout p w s
  | .write64 p w => Sys2Proof.Machine.execWrite64 p w s
  | .timestamp p w => Sys2Proof.Machine.execTimestamp p w s
  | .residencyInv p w => Sys2Proof.Machine.execResidencyInv p w s
  | .barrier p w => Sys2Proof.Machine.execBarrier p w s
  | .gfxWatchdog p w => Sys2Proof.Machine.execGfxWatchdog p w s
  | .gfxGetInfo k => Sys2Proof.Machine.execGfxGetInfo k s
  | .gfxGetContext k => Sys2Proof.Machine.execGfxGetContext k s
  | .gfxCtxSetup k => Sys2Proof.Machine.execGfxCtxSetup k s
  | .gfxCtxSetPriority k => Sys2Proof.Machine.execGfxCtxSetPriority k s
  | .gfxCtxRestart k => Sys2Proof.Machine.execGfxCtxRestart k s
  | .gfxCtxRelease k => Sys2Proof.Machine.execGfxCtxRelease k s
  | .gfxSetArea k => Sys2Proof.Machine.execGfxSetArea k s
  | .gfxSetReserve k => Sys2Proof.Machine.execGfxSetReserve k s
  | .gfxSetRt k => Sys2Proof.Machine.execGfxSetRt k s
  | .gfxSetSecureFloor k => Sys2Proof.Machine.execGfxSetSecureFloor k s
  | .vcdDoorbell a addr v => Sys2Proof.Machine.execVcdDoorbell a addr v s
  | .vcdUnitStart e ready => Sys2Proof.Machine.execVcdUnitStart e ready s
  | .vcdUnitDone e how => Sys2Proof.Machine.execVcdUnitDone e how s
  | .vcdEngReset a addr v => Sys2Proof.Machine.execVcdEngReset a addr v s
  | .vcdPicWatchdog k => Sys2Proof.Machine.execVcdPicWatchdog k s
  | .vcdPictureOutput k idx => Sys2Proof.Machine.execVcdPictureOutput k idx s
  | .encRowStart e ready => Sys2Proof.Machine.execEncRowStart e ready s
  | .encRowDone e slice params => Sys2Proof.Machine.execEncRowDone e slice params s
  | .encRingResume k => Sys2Proof.Machine.execEncRingResume k s
  | .vcdKeyreq a addr v => Sys2Proof.Machine.execVcdKeyreq a addr v s
  | .capPictureDone c ago lines => Sys2Proof.Machine.execCapPictureDone c ago lines s
  | .capSignal c src => Sys2Proof.Machine.execCapSignal c src s
  | .vcdGetInfo k => Sys2Proof.Machine.execVcdGetInfo k s
  | .vcdGetSession k => Sys2Proof.Machine.execVcdGetSession k s
  | .capGetInput k => Sys2Proof.Machine.execCapGetInput k s
  | .vcdOpenDecode k => Sys2Proof.Machine.execVcdOpenDecode k s
  | .vcdOpenEncode k => Sys2Proof.Machine.execVcdOpenEncode k s
  | .vcdClose k => Sys2Proof.Machine.execVcdClose k s
  | .vcdBindSlots k => Sys2Proof.Machine.execVcdBindSlots k s
  | .vcdRestart k => Sys2Proof.Machine.execVcdRestart k s
  | .capSetInput k => Sys2Proof.Machine.execCapSetInput k s
  | .audBlock d rx slips => Sys2Proof.Machine.execAudBlock d rx slips s
  | .audSwap a addr v => Sys2Proof.Machine.execAudSwap a addr v s
  | .audGainWrite a addr v => Sys2Proof.Machine.execAudGainWrite a addr v s
  | .audRingEnable a addr v => Sys2Proof.Machine.execAudRingEnable a addr v s
  | .audDomainLock d seen => Sys2Proof.Machine.execAudDomainLock d seen s
  | .audMeterClr a addr v => Sys2Proof.Machine.execAudMeterClr a addr v s
  | .audGetInfo k => Sys2Proof.Machine.execAudGetInfo k s
  | .audGetProgram k => Sys2Proof.Machine.execAudGetProgram k s
  | .audGetPaths k => Sys2Proof.Machine.execAudGetPaths k s
  | .audLoadProgram k => Sys2Proof.Machine.execAudLoadProgram k s
  | .audUnload k => Sys2Proof.Machine.execAudUnload k s
  | .audSetBridge k => Sys2Proof.Machine.execAudSetBridge k s
  | .audSetSidetone k => Sys2Proof.Machine.execAudSetSidetone k s
  | .audSetDomain k => Sys2Proof.Machine.execAudSetDomain k s
  | .audSetTdm k => Sys2Proof.Machine.execAudSetTdm k s
  | .audSetAes67 k => Sys2Proof.Machine.execAudSetAes67 k s
  | .hapTrigger a addr v => Sys2Proof.Machine.execHapTrigger a addr v s
  | .hapControlSample c frame current => Sys2Proof.Machine.execHapControlSample c frame current s
  | .hapOverdriveEnd c => Sys2Proof.Machine.execHapOverdriveEnd c s
  | .hapBrakeEnd c => Sys2Proof.Machine.execHapBrakeEnd c s
  | .hapOvercurrent c a b d => Sys2Proof.Machine.execHapOvercurrent c a b d s
  | .hapSenseLost c => Sys2Proof.Machine.execHapSenseLost c s
  | .hapGetChannel k => Sys2Proof.Machine.execHapGetChannel k s
  | .hapSetChannel k => Sys2Proof.Machine.execHapSetChannel k s
  | .hapRestart k => Sys2Proof.Machine.execHapRestart k s
  | .touchFrame c steps sat listen => Sys2Proof.Machine.execTouchFrame c steps sat listen s
  | .tchStart c => Sys2Proof.Machine.execTchStart c s
  | .tchLongContact c id => Sys2Proof.Machine.execTchLongContact c id s
  | .tchStuck c id => Sys2Proof.Machine.execTchStuck c id s
  | .touchWakeRecord c => Sys2Proof.Machine.execTouchWakeRecord c s
  | .tchQueueEnable a addr v => Sys2Proof.Machine.execTchQueueEnable a addr v s
  | .tchGetInfo k => Sys2Proof.Machine.execTchGetInfo k s
  | .tchSetClick k => Sys2Proof.Machine.execTchSetClick k s
  | .tchSetChannel k => Sys2Proof.Machine.execTchSetChannel k s
  | .tchSetMap k => Sys2Proof.Machine.execTchSetMap k s
  | .tchSetSlider k => Sys2Proof.Machine.execTchSetSlider k s
  | .tchCalibrate k => Sys2Proof.Machine.execTchCalibrate k s
  | .tchCalibrateDone c => Sys2Proof.Machine.execTchCalibrateDone c s
  | .tchSaveSnapshot k => Sys2Proof.Machine.execTchSaveSnapshot k s
  | .tchRebaseline k => Sys2Proof.Machine.execTchRebaseline k s
  | .tchGetNodes k => Sys2Proof.Machine.execTchGetNodes k s
  | .onlLink p up => Sys2Proof.Machine.execOnlLink p up s
  | .ptpSync p domain interval offset filtered => Sys2Proof.Machine.execPtpSync p domain interval offset filtered s
  | .ptpSyncTimeout announce => Sys2Proof.Machine.execPtpSyncTimeout announce s
  | .holdoverExpiry => Sys2Proof.Machine.execHoldoverExpiry s
  | .helloSend => Sys2Proof.Machine.execHelloSend s
  | .hello h len x => Sys2Proof.Machine.execHello h len x s
  | .peerTimeout d => Sys2Proof.Machine.execPeerTimeout d s
  | .duplicateClear => Sys2Proof.Machine.execDuplicateClear s
  | .schedSend => Sys2Proof.Machine.execSchedSend s
  | .sched h len x => Sys2Proof.Machine.execSched h len x s
  | .schedApply idx => Sys2Proof.Machine.execSchedApply idx s
  | .slice h payload => Sys2Proof.Machine.execSlice h payload s
  | .rxTimeout n => Sys2Proof.Machine.execRxTimeout n s
  | .keyreq h len n => Sys2Proof.Machine.execKeyreq h len n s
  | .mgrOpen h addr payload => Sys2Proof.Machine.execMgrOpen h addr payload s
  | .mgrConfirm h payload => Sys2Proof.Machine.execMgrConfirm h payload s
  | .mgrMessage h payload => Sys2Proof.Machine.execMgrMessage h payload s
  | .mgrAck h payload => Sys2Proof.Machine.execMgrAck h payload s
  | .mgrKeepalive h payload => Sys2Proof.Machine.execMgrKeepalive h payload s
  | .mgrClose h payload => Sys2Proof.Machine.execMgrClose h payload s
  | .mgrResend => Sys2Proof.Machine.execMgrResend s
  | .mgrSessionTimeout => Sys2Proof.Machine.execMgrSessionTimeout s
  | .netGetInfo k => Sys2Proof.Machine.execNetGetInfo k s
  | .netGetPeers k => Sys2Proof.Machine.execNetGetPeers k s
  | .netGetGroup k => Sys2Proof.Machine.execNetGetGroup k s
  | .netGetStream k => Sys2Proof.Machine.execNetGetStream k s
  | .netSetTxStream k => Sys2Proof.Machine.execNetSetTxStream k s
  | .netSetRxStream k => Sys2Proof.Machine.execNetSetRxStream k s
  | .netClearStream k => Sys2Proof.Machine.execNetClearStream k s
  | .netSetIdentity k => Sys2Proof.Machine.execNetSetIdentity k s
  | .netSetPort k => Sys2Proof.Machine.execNetSetPort k s
  | .netSetPtp k => Sys2Proof.Machine.execNetSetPtp k s
  | .netSetMacsec k => Sys2Proof.Machine.execNetSetMacsec k s
  | .netSetQbv k => Sys2Proof.Machine.execNetSetQbv k s
  | .netSetGroup k => Sys2Proof.Machine.execNetSetGroup k s
  | .netSetExport k => Sys2Proof.Machine.execNetSetExport k s
  | .netSetAes67 k => Sys2Proof.Machine.execNetSetAes67 k s
  | .netSetMgrKey k => Sys2Proof.Machine.execNetSetMgrKey k s
  | .weirSummary code => Sys2Proof.Machine.execWeirSummary code s
  | .freezeTimeout => Sys2Proof.Machine.execFreezeTimeout s
  | .archiveBlockWrite => Sys2Proof.Machine.execArchiveBlockWrite s
  | .vaultQueueWrite => Sys2Proof.Machine.execVaultQueueWrite s
  | .vltMeterSync a addr v => Sys2Proof.Machine.execVltMeterSync a addr v s
  | .meterSyncDone => Sys2Proof.Machine.execMeterSyncDone s
  | .vltCntInc a addr v => Sys2Proof.Machine.execVltCntInc a addr v s
  | .vltExtGo a addr v => Sys2Proof.Machine.execVltExtGo a addr v s
  | .tamperSample pins => Sys2Proof.Machine.execTamperSample pins s
  | .vbatMeasure mv => Sys2Proof.Machine.execVbatMeasure mv s
  | .rtcSync => Sys2Proof.Machine.execRtcSync s
  | .powerFail => Sys2Proof.Machine.execPowerFail s
  | .powerFailReset r => Sys2Proof.Machine.execPowerFailReset r s
  | .cvuStart a addr v => Sys2Proof.Machine.execCvuStart a addr v s
  | .cvuStartAbort a addr v => Sys2Proof.Machine.execCvuStartAbort a addr v s
  | .cvuJobEnd c timeout => Sys2Proof.Machine.execCvuJobEnd c timeout s
  | .evrGetInfo k => Sys2Proof.Machine.execEvrGetInfo k s
  | .evrRead k => Sys2Proof.Machine.execEvrRead k s
  | .evrGetWeir k => Sys2Proof.Machine.execEvrGetWeir k s
  | .vltGetStatus k => Sys2Proof.Machine.execVltGetStatus k s
  | .vltGetCritical k => Sys2Proof.Machine.execVltGetCritical k s
  | .cvuGetChannel k => Sys2Proof.Machine.execCvuGetChannel k s
  | .cvuFieldCheck k => Sys2Proof.Machine.execCvuFieldCheck k s
  | .cvuRun k => Sys2Proof.Machine.execCvuRun k s
  | .cvuSave k => Sys2Proof.Machine.execCvuSave k s
  | .cvuLoad k => Sys2Proof.Machine.execCvuLoad k s
  | .cvuSetKey k => Sys2Proof.Machine.execCvuSetKey k s
  | .cvuAbort k => Sys2Proof.Machine.execCvuAbort k s
  | .evrSetWeir k => Sys2Proof.Machine.execEvrSetWeir k s
  | .evrFreeze k => Sys2Proof.Machine.execEvrFreeze k s
  | .evrSnapshot k => Sys2Proof.Machine.execEvrSnapshot k s
  | .evrSetArchive k => Sys2Proof.Machine.execEvrSetArchive k s
  | .evrSetSecureWeir k => Sys2Proof.Machine.execEvrSetSecureWeir k s
  | .evrSetVaultSev k => Sys2Proof.Machine.execEvrSetVaultSev k s
  | .vltSetTamper k => Sys2Proof.Machine.execVltSetTamper k s
  | .vltSetRtc k => Sys2Proof.Machine.execVltSetRtc k s
  | .vltGetMeters k => Sys2Proof.Machine.execVltGetMeters k s
  | .deviceReset pin r => Sys2Proof.Machine.execDeviceReset pin r s
  | .tujanWatchdog r => Sys2Proof.Machine.execTujanWatchdog r s
  | .hostBootWrite a addr v => Sys2Proof.Machine.execHostBootWrite a addr v s
  | .dramInitDone ok temp => Sys2Proof.Machine.execDramInitDone ok temp s
  | .hartRelease => Sys2Proof.Machine.execHartRelease s
  | .splashHeartbeat => Sys2Proof.Machine.execSplashHeartbeat s
  | .telemetryRead temps rails => Sys2Proof.Machine.execTelemetryRead temps rails s
  | .thermalShutdown sensor temp => Sys2Proof.Machine.execThermalShutdown sensor temp s
  | .quietAck k => Sys2Proof.Machine.execQuietAck k s
  | .quietAckTimeout => Sys2Proof.Machine.execQuietAckTimeout s
  | .quietEntryDone => Sys2Proof.Machine.execQuietEntryDone s
  | .wakeEvent => Sys2Proof.Machine.execWakeEvent s
  | .quietExitDone => Sys2Proof.Machine.execQuietExitDone s
  | .shutdownComplete complete => Sys2Proof.Machine.execShutdownComplete complete s
  | .standbyWake r => Sys2Proof.Machine.execStandbyWake r s
  | .thermalRestart r => Sys2Proof.Machine.execThermalRestart r s
  | .pwrGetState k => Sys2Proof.Machine.execPwrGetState k s
  | .pwrGetTelemetry k => Sys2Proof.Machine.execPwrGetTelemetry k s
  | .bootGetInfo k => Sys2Proof.Machine.execBootGetInfo k s
  | .pumpGetStatus k => Sys2Proof.Machine.execPumpGetStatus k s
  | .pwrEnterQuiet k => Sys2Proof.Machine.execPwrEnterQuiet k s
  | .pwrShutdown k => Sys2Proof.Machine.execPwrShutdown k s
  | .pwrSetBlock k => Sys2Proof.Machine.execPwrSetBlock k s
  | .pwrReset k r => Sys2Proof.Machine.execPwrReset k r s
  | .pwrSetThermal k => Sys2Proof.Machine.execPwrSetThermal k s
  | .bootOtpProgram k => Sys2Proof.Machine.execBootOtpProgram k s
  | .pmbusStep rail target ack => Sys2Proof.Machine.execPmbusStep rail target ack s
  | .uartDataWrite a addr v => Sys2Proof.Machine.execUartDataWrite a addr v s
  | .uartDataRead a addr => Sys2Proof.Machine.execUartDataRead a addr s
  | .uartRxByte u byte parityErr frameErr brk => Sys2Proof.Machine.execUartRxByte u byte parityErr frameErr brk s
  | .i2cCmd a addr v => Sys2Proof.Machine.execI2cCmd a addr v s
  | .i2cRxRead a addr => Sys2Proof.Machine.execI2cRxRead a addr s
  | .i2cCmdDone idx r => Sys2Proof.Machine.execI2cCmdDone idx r s
  | .spiTxWrite a addr v => Sys2Proof.Machine.execSpiTxWrite a addr v s
  | .spiRxRead a addr => Sys2Proof.Machine.execSpiRxRead a addr s
  | .spiWordDone k rx => Sys2Proof.Machine.execSpiWordDone k rx s
  | .gpioOutSet a addr v => Sys2Proof.Machine.execGpioOutSet a addr v s
  | .gpioOutClr a addr v => Sys2Proof.Machine.execGpioOutClr a addr v s
  | .gpioEdge pin level => Sys2Proof.Machine.execGpioEdge pin level s
  | .pciLinkUp => Sys2Proof.Machine.execPciLinkUp s
  | .undefinedOpcode k => Sys2Proof.Machine.execUndefinedOpcode k s
  | .custom0ReservedFunct3 h w => Sys2Proof.Machine.execCustom0ReservedFunct3 h w s
  | .trapToSupervisor h interrupt code tval => Sys2Proof.Machine.execTrapToSupervisor h interrupt code tval s
  | .gfxClusterFault c => Sys2Proof.Machine.execGfxClusterFault c s
  | .ocmScrubRead bank ecc => Sys2Proof.Machine.execOcmScrubRead bank ecc s
  | .ethernetFrameRx f => Sys2Proof.Machine.execEthernetFrameRx f s
  | .qbvListStart p => Sys2Proof.Machine.execQbvListStart p s
  | .ptpAnnounce p domain a => Sys2Proof.Machine.execPtpAnnounce p domain a s
  | .eventExportSend => Sys2Proof.Machine.execEventExportSend s
  | .aes67PacketRx idx t frames => Sys2Proof.Machine.execAes67PacketRx idx t frames s
  | .tearingEffectEdge n => Sys2Proof.Machine.execTearingEffectEdge n s
  | .uartTxDone u => Sys2Proof.Machine.execUartTxDone u s
  | .tujanFirmwareStart file => Sys2Proof.Machine.execTujanFirmwareStart file s
  | .splashSegmentLoaded => Sys2Proof.Machine.execSplashSegmentLoaded s
  | .debugHaltRequest h => Sys2Proof.Machine.execDebugHaltRequest h s

end Sys2Proof.Machine
end

