-- ==== Sys2Proof/Safety.lean ====
section
/-! DEFINITION. The terms the statements use: when a command that stands at the head of a channel is taken and passes the checks
that come before its own rules, what an answer makes of a state, when a register write is admitted, and what a safe state is. -/
namespace Sys2Proof.Machine

/-- Memory is in its canonical form. -/
def MemoryCanonical (s : State) : Prop := Memory.wf s.mem = true

/-- No channel holds more than eight messages (R33). -/
def ChannelsBounded (s : State) : Prop := ∀ n, (chan s n).q.length ≤ 8

/-- The warden, the winners there can be, and the target of an offer are kinds of candidate (R48): 0 none, 1 to 3. -/
def WardenLegal (s : State) : Prop :=
  s.warden.kind ≤ 3 ∧ (∀ c ∈ s.warden.claims, c.kind ≤ 3) ∧ ∀ h, s.warden.handover = some h → h.target ≤ 3

/-- The live ring, the holding FIFO and the vault queue hold no more than they have room for (R387, R393, R397). -/
def RecorderBounded (s : State) : Prop := s.evr.ring.length ≤ 65536 ∧ s.evr.fifo.length ≤ 256 ∧ s.evr.vaultQ.length ≤ 16

/-- The request `m` for command `op` stands at the head of channel 2k, Tujan may take it, and it passes R30 to R32, R57, R462 and the
check of Table POL-7 step 1: what is left to decide is the command's own. -/
def asked (op k : Nat) (m : Msg) (s : State) : Bool :=
  takeable s k == some m && Msg.opcode m == op && isRequest m && !badForm m && (classRefusal s ⟨k, m⟩).isNone &&
    !senderResetting s ⟨k, m⟩ && (refRefusal s ⟨k, m⟩).isNone

/-- Tujan has taken the request at the head of channel 2k. -/
def taken (k : Nat) (s : State) : State := dropHead (2 * k) s

/-- The request has been answered with a status and result words, and the events of the step have been accepted. -/
def answered (k : Nat) (m : Msg) (status : Nat) (result : List Nat) (s : State) : State :=
  settle 4 (reply ⟨k, Msg.opcode m, Msg.seq m⟩ status result s)

/-- The commit that Tujan makes of field values on an output (8 for none) for a request (R159). -/
def tujanCommit (k : Nat) (m : Msg) (n : Nat) (fvs : List (Fld × Nat)) (s : State) : Commit :=
  ⟨0, none, n, fvs.map (fun e => (e.1.inForce.key, e.2 % 2 ^ e.1.width)), 0, 0, s.now, some ⟨k, Msg.opcode m, Msg.seq m⟩⟩

/-- Tujan's commit finds room in its output's queue and passes every check (R160, R166). -/
def commitPasses (k : Nat) (m : Msg) (n : Nat) (fvs : List (Fld × Nat)) (s : State) : Bool :=
  (decide (8 ≤ n) || decide ((queuedOn s n).length < 8)) && (commitFault (taken k s) (tujanCommit k m n fvs s)).isNone

/-- Tujan's commit has been made: the request is answered ST_PENDING, the fields written, the commit accepted. -/
def commitMade (k : Nat) (m : Msg) (n : Nat) (fvs : List (Fld × Nat)) (s : State) : State :=
  settle 4 (acceptCommit (tujanCommit k m n fvs s) (spansChecked (tujanCommit k m n fvs s)
    (reply ⟨k, Msg.opcode m, Msg.seq m⟩ ST_PENDING [] (fvs.foldl (fun s e => wr e.1 e.2 s) (taken k s)))))

/-- A 32-bit register write that its block takes: nothing turns it away (R7, R22, R46, R96, R109, R110, R452). -/
def admitted (a : Access) (addr v : Nat) (s : State) : Bool := (turnedAway a addr 4 v s).isNone

/-- A 32-bit register read that its block answers. -/
def readable (a : Access) (addr : Nat) (s : State) : Bool := (readTurned a addr 4 s).isNone

/-- Window `k`'s context stands at a packet of opcode `op` that it may execute (R263): `ws` are the payload words read, and `t` is the
state with the packet passed over. -/
def packetAt (op k : Nat) (ws : List Nat) (s t : State) : Prop :=
  gfxReady s k = true ∧ ∃ (a len off : Nat) (rest : List (Nat × Nat × Nat)) (hb pb : List Nat) (s1 s2 : State),
    gfxPos (gfxWin s k) = (a, len, off) :: rest ∧ off < len / 4 ∧ devRead (gfxEng k) (a + 4 * off) 4 s = (0, hb, s1) ∧
    packetMalformed (gfxWin s k) len off (leNat hb) = false ∧ bits (leNat hb) 7 0 = op ∧
    devRead (gfxEng k) (a + 4 * off + 4) (4 * packetWords op) s1 = (0, pb, s2) ∧ ws = leWords (packetWords op) pb ∧
    t = setGfxWin k { gfxWin s k with pkt := off, pos := (a, len, off + 1 + bits (leNat hb) 23 8) :: rest } s2

/-- The commands under which no byte of memory changes: all but those that store to memory themselves, let an engine or Tujan store,
or scrub memory at a reset. -/
def storesNothing : Instr → Bool
  | .audBlock _ _ _ | .audGetPaths _ | .gfxDoorbell _ _ _ | .barrier _ _ | .call _ _ | .dispatch _ _ | .draw _ _ _
  | .gfxBoundary _ _ _ _ | .gfxClusterFault _ | .gfxCtxRelease _ | .gfxCtxRestart _ | .gfxCtxSetPriority _
  | .gfxSetReserve _ | .gfxSetRt _ | .gfxSetSecureFloor _ | .gfxSubmissionDone _ _ | .gfxWatchdog _ _ | .nop _ _
  | .renderBegin _ _ | .renderEnd _ _ _ _ | .residencyInv _ _ | .state _ _ | .timestamp _ _ | .waitGe _ _ | .waitGeMet _ _
  | .waitGeTimeout _ _ | .write64 _ _ | .wbBandComplete _ _ | .wbBandDrop _ _ | .vcdUnitDone _ _ | .capPictureDone _ _ _
  | .tchGetNodes _ | .tchLongContact _ _ | .tchStuck _ _ | .touchFrame _ _ _ _ | .touchWakeRecord _ | .attestRecord _
  | .dspGetSink _ | .archiveBlockWrite | .evrRead _ | .evrSnapshot _ | .vltGetCritical _ | .vltGetMeters _
  | .encRingResume _ | .encRowDone _ _ _ | .rxTimeout _ | .slice _ _ | .netGetPeers _ | .pciHotReset _ | .pciLinkDown
  | .polderDestroy _ | .polderReset _ | .polderResetDone _ | .deviceReset _ _ | .dramInitDone _ _ | .hartRelease
  | .hostBootWrite _ _ _ | .powerFailReset _ | .pwrReset _ _ | .splashSegmentLoaded | .standbyWake _ | .thermalRestart _
  | .tujanFirmwareStart _ | .tujanWatchdog _ | .pwrEnterQuiet _ | .pwrShutdown _ | .quietAck _ | .shutdownComplete _
  | .telemetryRead _ _ | .wakeEvent | .reg64HighWrite _ _ _ | .registerWrite _ _ _ _ | .memoryAccess _
  | .ocmAliasWrite _ _ _ _ _ => false
  | _ => true

/-- The opcode and the channel pair of a command that a party sends to Tujan; `none` for a step that is no such command. -/
def asksFor : Instr → Option (Nat × Nat)
  | .devGetInfo k => some (Op.DEV_GET_INFO, k)
  | .devGetStatus k => some (Op.DEV_GET_STATUS, k)
  | .wardenGet k => some (Op.WARDEN_GET, k)
  | .devGetParam k => some (Op.DEV_GET_PARAM, k)
  | .devSetParam k => some (Op.DEV_SET_PARAM, k)
  | .wardenClaim k => some (Op.WARDEN_CLAIM, k)
  | .wardenAccept k => some (Op.WARDEN_ACCEPT, k)
  | .wardenHandover k => some (Op.WARDEN_HANDOVER, k)
  | .wardenRelease k => some (Op.WARDEN_RELEASE, k)
  | .mbxSetRx k => some (Op.MBX_SET_RX, k)
  | .polderGetInfo k => some (Op.POLDER_GET_INFO, k)
  | .polderGetGrants k => some (Op.POLDER_GET_GRANTS, k)
  | .polderCreate k => some (Op.POLDER_CREATE, k)
  | .polderDestroy k => some (Op.POLDER_DESTROY, k)
  | .polderGrant k => some (Op.POLDER_GRANT, k)
  | .polderRevoke k => some (Op.POLDER_REVOKE, k)
  | .polderSetShare k => some (Op.POLDER_SET_SHARE, k)
  | .polderReset k => some (Op.POLDER_RESET, k)
  | .polderAssignPair k => some (Op.POLDER_ASSIGN_PAIR, k)
  | .pcieSetWindows k => some (Op.PCIE_SET_WINDOWS, k)
  | .memGetInfo k => some (Op.MEM_GET_INFO, k)
  | .memGetOcmRegion k => some (Op.MEM_GET_OCM_REGION, k)
  | .memGetThrottle k => some (Op.MEM_GET_THROTTLE, k)
  | .memSetOcmRegion k => some (Op.MEM_SET_OCM_REGION, k)
  | .memSetPasr k => some (Op.MEM_SET_PASR, k)
  | .memSetRefresh k => some (Op.MEM_SET_REFRESH, k)
  | .memSetRowhammer k => some (Op.MEM_SET_ROWHAMMER, k)
  | .memSetRtMasters k => some (Op.MEM_SET_RT_MASTERS, k)
  | .dspGetLayer k => some (Op.DSP_GET_LAYER, k)
  | .dspGetOutputCommit k => some (Op.DSP_GET_OUTPUT_COMMIT, k)
  | .dspSetSlot k => some (Op.DSP_SET_SLOT, k)
  | .dspSetSecureSlot k => some (Op.DSP_SET_SECURE_SLOT, k)
  | .dspSetLatch k => some (Op.DSP_SET_LATCH, k)
  | .dspSetBudget k => some (Op.DSP_SET_BUDGET, k)
  | .dspSetBackground k => some (Op.DSP_SET_BACKGROUND, k)
  | .dspSetSecureZ k => some (Op.DSP_SET_SECURE_Z, k)
  | .dspGetEngines k => some (Op.DSP_GET_ENGINES, k)
  | .dspGetScaler k => some (Op.DSP_GET_SCALER, k)
  | .dspSetCompose k => some (Op.DSP_SET_COMPOSE, k)
  | .dspSetWriteback k => some (Op.DSP_SET_WRITEBACK, k)
  | .dspSetScaler k => some (Op.DSP_SET_SCALER, k)
  | .dkwGetLayer k => some (Op.DKW_GET_LAYER, k)
  | .dkwGetRegion k => some (Op.DKW_GET_REGION, k)
  | .dkwGetRing k => some (Op.DKW_GET_RING, k)
  | .dkwSetLayerLive k => some (Op.DKW_SET_LAYER_LIVE, k)
  | .dkwSetSecureLayer k => some (Op.DKW_SET_SECURE_LAYER, k)
  | .dkwSetRegion k => some (Op.DKW_SET_REGION, k)
  | .dkwSetImage k => some (Op.DKW_SET_IMAGE, k)
  | .dkwSetKey k => some (Op.DKW_SET_KEY, k)
  | .dkwSetRing k => some (Op.DKW_SET_RING, k)
  | .dspGetOutput k => some (Op.DSP_GET_OUTPUT, k)
  | .dspGetSink k => some (Op.DSP_GET_SINK, k)
  | .dspSetMode k => some (Op.DSP_SET_MODE, k)
  | .dspSetLock k => some (Op.DSP_SET_LOCK, k)
  | .dspSetFill k => some (Op.DSP_SET_FILL, k)
  | .gfxGetInfo k => some (Op.GFX_GET_INFO, k)
  | .gfxGetContext k => some (Op.GFX_GET_CONTEXT, k)
  | .gfxCtxSetup k => some (Op.GFX_CTX_SETUP, k)
  | .gfxCtxSetPriority k => some (Op.GFX_CTX_SET_PRIORITY, k)
  | .gfxCtxRestart k => some (Op.GFX_CTX_RESTART, k)
  | .gfxCtxRelease k => some (Op.GFX_CTX_RELEASE, k)
  | .gfxSetArea k => some (Op.GFX_SET_AREA, k)
  | .gfxSetReserve k => some (Op.GFX_SET_RESERVE, k)
  | .gfxSetRt k => some (Op.GFX_SET_RT, k)
  | .gfxSetSecureFloor k => some (Op.GFX_SET_SECURE_FLOOR, k)
  | .vcdGetInfo k => some (Op.VCD_GET_INFO, k)
  | .vcdGetSession k => some (Op.VCD_GET_SESSION, k)
  | .capGetInput k => some (Op.CAP_GET_INPUT, k)
  | .vcdOpenDecode k => some (Op.VCD_OPEN_DECODE, k)
  | .vcdOpenEncode k => some (Op.VCD_OPEN_ENCODE, k)
  | .vcdClose k => some (Op.VCD_CLOSE, k)
  | .vcdBindSlots k => some (Op.VCD_BIND_SLOTS, k)
  | .vcdRestart k => some (Op.VCD_RESTART, k)
  | .capSetInput k => some (Op.CAP_SET_INPUT, k)
  | .audGetInfo k => some (Op.AUD_GET_INFO, k)
  | .audGetProgram k => some (Op.AUD_GET_PROGRAM, k)
  | .audGetPaths k => some (Op.AUD_GET_PATHS, k)
  | .audLoadProgram k => some (Op.AUD_LOAD_PROGRAM, k)
  | .audUnload k => some (Op.AUD_UNLOAD, k)
  | .audSetBridge k => some (Op.AUD_SET_BRIDGE, k)
  | .audSetSidetone k => some (Op.AUD_SET_SIDETONE, k)
  | .audSetDomain k => some (Op.AUD_SET_DOMAIN, k)
  | .audSetTdm k => some (Op.AUD_SET_TDM, k)
  | .audSetAes67 k => some (Op.AUD_SET_AES67, k)
  | .hapGetChannel k => some (Op.HAP_GET_CHANNEL, k)
  | .hapSetChannel k => some (Op.HAP_SET_CHANNEL, k)
  | .hapRestart k => some (Op.HAP_RESTART, k)
  | .tchGetInfo k => some (Op.TCH_GET_INFO, k)
  | .tchSetClick k => some (Op.TCH_SET_CLICK, k)
  | .tchSetChannel k => some (Op.TCH_SET_CHANNEL, k)
  | .tchSetMap k => some (Op.TCH_SET_MAP, k)
  | .tchSetSlider k => some (Op.TCH_SET_SLIDER, k)
  | .tchCalibrate k => some (Op.TCH_CALIBRATE, k)
  | .tchSaveSnapshot k => some (Op.TCH_SAVE_SNAPSHOT, k)
  | .tchRebaseline k => some (Op.TCH_REBASELINE, k)
  | .tchGetNodes k => some (Op.TCH_GET_NODES, k)
  | .netGetInfo k => some (Op.NET_GET_INFO, k)
  | .netGetPeers k => some (Op.NET_GET_PEERS, k)
  | .netGetGroup k => some (Op.NET_GET_GROUP, k)
  | .netGetStream k => some (Op.NET_GET_STREAM, k)
  | .netSetTxStream k => some (Op.NET_SET_TX_STREAM, k)
  | .netSetRxStream k => some (Op.NET_SET_RX_STREAM, k)
  | .netClearStream k => some (Op.NET_CLEAR_STREAM, k)
  | .netSetIdentity k => some (Op.NET_SET_IDENTITY, k)
  | .netSetPort k => some (Op.NET_SET_PORT, k)
  | .netSetPtp k => some (Op.NET_SET_PTP, k)
  | .netSetMacsec k => some (Op.NET_SET_MACSEC, k)
  | .netSetQbv k => some (Op.NET_SET_QBV, k)
  | .netSetGroup k => some (Op.NET_SET_GROUP, k)
  | .netSetExport k => some (Op.NET_SET_EXPORT, k)
  | .netSetAes67 k => some (Op.NET_SET_AES67, k)
  | .netSetMgrKey k => some (Op.NET_SET_MGR_KEY, k)
  | .evrGetInfo k => some (Op.EVR_GET_INFO, k)
  | .evrRead k => some (Op.EVR_READ, k)
  | .evrGetWeir k => some (Op.EVR_GET_WEIR, k)
  | .vltGetStatus k => some (Op.VLT_GET_STATUS, k)
  | .vltGetCritical k => some (Op.VLT_GET_CRITICAL, k)
  | .cvuGetChannel k => some (Op.CVU_GET_CHANNEL, k)
  | .cvuFieldCheck k => some (Op.CVU_FIELD_CHECK, k)
  | .cvuRun k => some (Op.CVU_RUN, k)
  | .cvuSave k => some (Op.CVU_SAVE, k)
  | .cvuLoad k => some (Op.CVU_LOAD, k)
  | .cvuSetKey k => some (Op.CVU_SET_KEY, k)
  | .cvuAbort k => some (Op.CVU_ABORT, k)
  | .evrSetWeir k => some (Op.EVR_SET_WEIR, k)
  | .evrFreeze k => some (Op.EVR_FREEZE, k)
  | .evrSnapshot k => some (Op.EVR_SNAPSHOT, k)
  | .evrSetArchive k => some (Op.EVR_SET_ARCHIVE, k)
  | .evrSetSecureWeir k => some (Op.EVR_SET_SECURE_WEIR, k)
  | .evrSetVaultSev k => some (Op.EVR_SET_VAULT_SEV, k)
  | .vltSetTamper k => some (Op.VLT_SET_TAMPER, k)
  | .vltSetRtc k => some (Op.VLT_SET_RTC, k)
  | .vltGetMeters k => some (Op.VLT_GET_METERS, k)
  | .pwrGetState k => some (Op.PWR_GET_STATE, k)
  | .pwrGetTelemetry k => some (Op.PWR_GET_TELEMETRY, k)
  | .bootGetInfo k => some (Op.BOOT_GET_INFO, k)
  | .pumpGetStatus k => some (Op.PUMP_GET_STATUS, k)
  | .pwrEnterQuiet k => some (Op.PWR_ENTER_QUIET, k)
  | .pwrShutdown k => some (Op.PWR_SHUTDOWN, k)
  | .pwrSetBlock k => some (Op.PWR_SET_BLOCK, k)
  | .pwrReset k _ => some (Op.PWR_RESET, k)
  | .pwrSetThermal k => some (Op.PWR_SET_THERMAL, k)
  | .bootOtpProgram k => some (Op.BOOT_OTP_PROGRAM, k)
  | _ => none

/-- The physical address that an access comes to, where it may be made at all and is no access to a register or page. -/
def memoryAddress (r : MemReq) (s : State) : Option Nat :=
  match r.acc.route with
  | .bar0 => none
  | .bar2 => none
  | _ => (physOf r (carried s r.acc r.addr.toNat) s).1

/-- An access that its register or page takes, and no memory. -/
def meetsRegister (r : MemReq) (s : State) : Bool :=
  match r.acc.route with
  | .bar0 => isReg r.addr.toNat
  | .bar2 => isPage r.addr.toNat
  | _ => (memoryAddress r s).any (fun a => isReg a || isPage a)

/-- The address from which on an access stores its bytes, if it stores any: where it lies, or the OCM address that its alias stands for
(R119). A read and a fetch store nothing. -/
def storesAt (r : MemReq) (s : State) : Option Nat :=
  if r.dir = Dir.write then (memoryAddress r s).map (fun a => if inAlias a then aliasTarget a else a) else none

/-- The device-level register blocks of R24 that have no other writer: CRP but for CRP_HOST_BOOT and the secure claim, DMC, the OCM
regions, the compositor's output level, scan-out, Onader, and the PCIe controller. -/
def tujansAlone (a : Nat) : Bool :=
  (decide (0x20000000 ≤ a) && decide (a < 0x20010000) && a != 0x20000008 && a != 0x20000200) ||
  (decide (0x20100000 ≤ a) && decide (a < 0x20150000)) || (decide (0x20200000 ≤ a) && decide (a < 0x20240000)) ||
  (decide (0x20280000 ≤ a) && decide (a < 0x20300000)) || (decide (0x20700000 ≤ a) && decide (a < 0x20810000))

/-- No changed map entry waits for its invalidation: what the polder check would see of every page is the entry in memory (R81). -/
def MapSettled (s : State) : Prop :=
  ∀ page, Tab.get 0 s.pld.entries page = 0 ∨ Tab.get 0 s.pld.entries page = byteAt s (entryAddr s page) + 1

/-- The map entry in memory of an address's page gives the page to a polder's normal world: valid, not secure, owned by that polder, and,
for a device master, admitting devices (R78). -/
def pageGiven (s : State) (a : Nat) (device : Bool) (polder : Nat) : Bool :=
  let e := byteAt s (entryAddr s (mapPage a))
  bit e 7 && !bit e 5 && bits e 4 0 == polder && polder != 0 && (!device || bit e 6)

end Sys2Proof.Machine
end

