-- ==== Sys2Proof/Certificates/Slice0/Obligations.lean ====
section
/-! DEFINITION. The statements for the provers. Those whose names end in Complete say, for the commands of a family, that exec answers a next
state under hypotheses on the state and the operands alone, and which; the others are the step and its queue, reset, the invariants, the
frames, and rules of the spec that hold over all states. What meets the hypotheses of each is shown in Tests/Slice0.lean. -/

open Sys2Proof Sys2Proof.Machine

/-- R27, R33, R35, R36, R38, R41, R42, R43, R57: what each step of the mailbox hardware and of Tujan's handling of messages does. -/
def Obligations.MailboxStepsComplete : Prop :=
  -- MBX_PUSH: a message is written behind the others, or the overflow is marked and recorded
  (∀ (a : Access) (addr : BitVec 40) (v : BitVec 32) (s : State) (n : Nat), chanRegAt s addr.toNat 0x40 = some n →
    admitted a addr.toNat v.toNat s = true → bit v.toNat 0 = true → (chan s n).q.length < 8 →
    exec (.mbxPush a addr v) s = .next (settle 4
      (deliver n (carried s a addr.toNat).master (carried s a addr.toNat).polder (carried s a addr.toNat).secure true (staged s n) s))) ∧
  (∀ (a : Access) (addr : BitVec 40) (v : BitVec 32) (s : State) (n : Nat), chanRegAt s addr.toNat 0x40 = some n →
    admitted a addr.toNat v.toNat s = true → bit v.toNat 0 = true → 8 ≤ (chan s n).q.length →
    exec (.mbxPush a addr v) s = .next (settle 4 (record0 Src.MBX_TX_OVERFLOW (chanPolder s n) [n, (carried s a addr.toNat).master]
      (wr (MBX_CH_STAT_tx_overflow n) 1 s)))) ∧
  -- MBX_POP: the head message is removed
  (∀ (a : Access) (addr : BitVec 40) (v : BitVec 32) (s : State) (n : Nat), chanRegAt s addr.toNat 0xC0 = some n →
    admitted a addr.toNat v.toNat s = true → bit v.toNat 0 = true →
    exec (.mbxPop a addr v) s = .next (settle 4 (setChan n { chan s n with q := (chan s n).q.tail } s))) ∧
  -- MBX_LOCK_ACQUIRE: of the readers of a free lock, the first at or after the pointer gets it, and the pointer moves past it
  (∀ (n : Fin 32) (m : Fin 64) (ms : List (Fin 64)) (w : Nat) (s : State), rd s (MBX_LOCK_OWNER_owner n) = 0 →
    lockWinner (Tab.get 1 s.lockPtr n) ((m :: ms).map (fun x => x.val)) = some w →
    exec (.mbxLockAcquire n (m :: ms)) s = .next { wr (MBX_LOCK_OWNER_owner n) w s with
      lockPtr := s.lockPtr.put n (w % 63 + 1), busReply := if w = m.val then 0 else w }) ∧
  (∀ (n : Fin 32) (m : Fin 64) (ms : List (Fin 64)) (s : State), rd s (MBX_LOCK_OWNER_owner n) ≠ 0 →
    exec (.mbxLockAcquire n (m :: ms)) s =
      .next { s with busReply := if rd s (MBX_LOCK_OWNER_owner n) = m.val then 0 else rd s (MBX_LOCK_OWNER_owner n) }) ∧
  -- MBX_LOCK_RELEASE: the owner's write of its own ID frees the lock; any other write is recorded
  (∀ (m : Fin 64) (n : Fin 32) (v : BitVec 32) (s : State), m.val ≠ 0 → rd s (MBX_LOCK_OWNER_owner n) = m.val → v.toNat = m.val →
    exec (.mbxLockRelease m n v) s = .next (wr (MBX_LOCK_OWNER_owner n) 0 s)) ∧
  (∀ (m : Fin 64) (n : Fin 32) (v : BitVec 32) (s : State), ¬ (m.val ≠ 0 ∧ rd s (MBX_LOCK_OWNER_owner n) = m.val ∧ v.toNat = m.val) →
    exec (.mbxLockRelease m n v) s = .next (settle 4 (record0 Src.MBX_LOCK_VIOLATION none [m, v.toNat, n] s))) ∧
  -- MBX_CROSSWAIT: 10 ms after both sides of a pair have waited, the pair is marked and recorded, and its parties are told
  (∀ (k : Fin 32) (s : State) (u v : Unacked) (us vs : List Unacked), (chan s (2 * k)).unacked = u :: us →
    (chan s (2 * k + 1)).unacked = v :: vs → bit (rd s MBX_CROSSWAIT_STAT_pair) k = false →
    exec (.mbxCrosswait k) s = .next (settle 4 (
      let s1 := record0 Src.MBX_CROSSWAIT (chanPolder s (2 * k)) [k, u.seq, v.seq]
        (orBits MBX_CROSSWAIT_STAT_pair (2 ^ k.val) (advanceTo (max u.time v.time + 10000000) s))
      if k.val < 30 then raiseLines (pairPolders s k) 0 s1 else if k.val = 30 then sendMsix 0 s1 else s1))) ∧
  -- TUJAN_HOLD_DRAIN: a held message is delivered when its channel has room
  (∀ (k : Fin 32) (s : State) (h : Held) (hs : List Held), heldFor s k = h :: hs → (chan s (2 * k + 1)).q.length < 8 →
    exec (.tujanHoldDrain k) s = .next (settle 4 (drainHeld k hs (deliver (2 * k + 1) 9 0 true true h.msg s)))) ∧
  (∀ (k : Fin 32) (s : State) (h : Held) (hs : List Held), heldFor s k = h :: hs → 8 ≤ (chan s (2 * k + 1)).q.length →
    exec (.tujanHoldDrain k) s = .next (settle 4 (setHeld k (h :: hs) s))) ∧
  -- PARTY_ACK: a reply, ack or notify message of a party is taken, and clears the message of Tujan's that it names
  (∀ (k : Fin 32) (s : State) (m : Msg) (ms : List Msg) (u : Unacked), rdB s CRP_STATUS_tujan_ready = true →
    (chan s (2 * k)).q = m :: ms → isRequest m = false → badForm m = false → ackTarget s k m = some u → u.opcode ≠ Op.PWR_STATE_CHANGED →
    exec (.partyAck k) s = .next (clearUnacked (2 * k + 1) u.seq (taken k s))) ∧
  (∀ (k : Fin 32) (s : State) (m : Msg) (ms : List Msg), rdB s CRP_STATUS_tujan_ready = true →
    (chan s (2 * k)).q = m :: ms → isRequest m = false → badForm m = false → ackTarget s k m = none →
    exec (.partyAck k) s = .next (taken k s)) ∧
  -- UNDEFINED_OPCODE: a request with no command's opcode is answered ST_UNSUPPORTED
  (∀ (k : Fin 32) (s : State) (m : Msg), takeable s k = some m → Msg.opcode m ∉ commandOpcodes → isRequest m = true → badForm m = false →
    exec (.undefinedOpcode k) s = .next (answered k m ST_UNSUPPORTED [] (taken k s)))

/-- R48 to R56, Table MBX-12: what the warden's commands do when their own conditions hold. -/
def Obligations.WardenCommandsComplete : Prop :=
  -- the length of a claim window and of an offer, in nanoseconds
  (claimWindow = 250000000 ∧ offerTime = 1000000000) ∧
  -- WARDEN_GET: the kind, a pending handover's target, an open window, and the milliseconds since the last change
  (∀ (k : Fin 32) (m : Msg) (s : State), asked Op.WARDEN_GET k m s = true → exec (.wardenGet k) s =
    .next (answered k m ST_OK [s.warden.kind + (match s.warden.handover with | some h => 4 + 8 * h.target | none => 0) +
      32 * b2n s.warden.window.isSome, (s.now - s.warden.changedAt) / 1000000] (taken k s))) ∧
  -- WARDEN_CLAIM while the position is vacant, outside a claim window: the claimant is the warden, every enabled party is told
  (∀ (k : Fin 32) (m : Msg) (s : State), asked Op.WARDEN_CLAIM k m s = true → s.warden.kind = 0 → s.warden.window = none →
    Req.kind ⟨k, m⟩ ∈ wardenOrder s → exec (.wardenClaim k) s = .next (settle 4 (wardenChanged
      (answerClaims (Req.kind ⟨k, m⟩) s.warden.claims (reply ⟨k, Msg.opcode m, Msg.seq m⟩ ST_OK [] (takePosition (Req.kind ⟨k, m⟩) (taken k s))))))) ∧
  -- WARDEN_CLAIM by a kind that is not first in the order while a window is open: the claim waits for the window's end
  (∀ (k : Fin 32) (m : Msg) (s : State) (t : Nat), asked Op.WARDEN_CLAIM k m s = true → s.warden.kind = 0 → s.warden.window = some t →
    s.now < t + claimWindow → Req.kind ⟨k, m⟩ ∈ wardenOrder s → (wardenOrder s).head? ≠ some (Req.kind ⟨k, m⟩) →
    exec (.wardenClaim k) s = .next (answered k m ST_PENDING []
      { taken k s with warden := { s.warden with claims := s.warden.claims ++ [⟨Req.kind ⟨k, m⟩, ⟨k, Msg.opcode m, Msg.seq m⟩⟩] } })) ∧
  -- CLAIM_WINDOW_CLOSE: 250 ms after the window opened the first kind of the order among the claims is the warden
  (∀ (s : State) (t w : Nat), s.warden.window = some t →
    (wardenOrder s).find? (fun k => s.warden.claims.any (fun c => c.kind == k)) = some w →
    exec .claimWindowClose s = .next (settle 4 (wardenChanged (answerClaims w s.warden.claims
      (takePosition w (advanceTo (t + claimWindow) s)))))) ∧
  -- WARDEN_HANDOVER: the target is offered the position and the handover stands for a second
  (∀ (k : Fin 32) (m : Msg) (s : State), asked Op.WARDEN_HANDOVER k m s = true → s.warden.handover = none →
    bits (m.word 2) 1 0 ≠ s.warden.kind → bits (m.word 2) 1 0 ∈ wardenOrder s →
    exec (.wardenHandover k) s = .next (settle 4 (notifyAck (kindPair (bits (m.word 2) 1 0)) Op.WARDEN_OFFER [s.warden.kind]
      (reply ⟨k, Msg.opcode m, Msg.seq m⟩ ST_PENDING []
        { taken k s with warden := { s.warden with handover := some ⟨bits (m.word 2) 1 0, s.now, ⟨k, Msg.opcode m, Msg.seq m⟩⟩ } })))) ∧
  -- WARDEN_ACCEPT by the target before the second has passed: it is the warden, the old warden's command is answered
  (∀ (k : Fin 32) (m : Msg) (s : State) (h : Handover), asked Op.WARDEN_ACCEPT k m s = true → s.warden.handover = some h →
    s.now < h.start + offerTime → h.target = Req.kind ⟨k, m⟩ →
    exec (.wardenAccept k) s = .next (settle 4 (wardenChanged (reply h.job ST_OK []
      (reply ⟨k, Msg.opcode m, Msg.seq m⟩ ST_OK [] (takePosition h.target (taken k s))))))) ∧
  -- HANDOVER_LAPSE: one second after the handover the old warden keeps the position and its command is answered
  (∀ (s : State) (h : Handover), s.warden.handover = some h →
    exec .handoverLapse s = .next (settle 4 (reply h.job ST_HANDOVER_LAPSED []
      { advanceTo (h.start + offerTime) s with warden := { s.warden with handover := none } }))) ∧
  -- WARDEN_RELEASE: the position is vacant and a window opens
  (∀ (k : Fin 32) (m : Msg) (s : State), asked Op.WARDEN_RELEASE k m s = true → s.warden.kind ≠ 0 → s.warden.handover = none →
    exec (.wardenRelease k) s = .next (settle 4 (vacate true (reply ⟨k, Msg.opcode m, Msg.seq m⟩ ST_OK [] (taken k s)))))

/-- Table MBX-12, Table MBX-13: what the device and parameter commands return and set. -/
def Obligations.DeviceCommandsComplete : Prop :=
  -- DEV_GET_INFO
  (∀ (k : Fin 32) (m : Msg) (s : State), asked Op.DEV_GET_INFO k m s = true → exec (.devGetInfo k) s =
    .next (answered k m ST_OK [0x0880 + 0xA1 * 65536 + 16777216 * b2n Config.industrialGrade, lo32 Config.firmwareVersion, rd s ONL_ID_device,
      bits (otp s 9) 5 0 + 256 * bits (otp s 12) 0 0] (taken k s))) ∧
  -- DEV_GET_STATUS
  (∀ (k : Fin 32) (m : Msg) (s : State), asked Op.DEV_GET_STATUS k m s = true → exec (.devGetStatus k) s =
    .next (answered k m ST_OK [bits (rd s CRP_STATUS_power_state) 1 0 + 4 * s.warden.kind + 16 * rd s ONL_TIME_STAT_unsync, highestTemp s] (taken k s))) ∧
  -- MBX_SET_RX
  (∀ (k : Fin 32) (m : Msg) (s : State), asked Op.MBX_SET_RX k m s = true → exec (.mbxSetRx k) s =
    .next (answered k m ST_OK [] (wr (MBX_CH_CFG_wake_domain (2 * k + 1)) (bits (m.word 2) 2 1)
      (wr (MBX_CH_CFG_rx_irq_en (2 * k + 1)) (bits (m.word 2) 0 0) (taken k s))))) ∧
  -- DEV_GET_PARAM of an object the sender may read
  (∀ (k : Fin 32) (m : Msg) (s : State) (ws : List Nat), asked Op.DEV_GET_PARAM k m s = true →
    paramRead ⟨k, m⟩ s (bits (m.word 2) 15 0) = some (true, ws) →
    exec (.devGetParam k) s = .next (answered k m ST_OK ws (taken k s))) ∧
  -- DEV_SET_PARAM of the temperature thresholds, the graphics watchdog, the row-hammer thresholds
  (∀ (k : Fin 32) (m : Msg) (s : State), asked Op.DEV_SET_PARAM k m s = true → bits (m.word 2) 15 0 = 0x0130 →
    700 ≤ bits (m.word 3) 11 0 → bits (m.word 3) 11 0 + 10 ≤ bits (m.word 3) 27 16 → bits (m.word 3) 27 16 ≤ 1150 →
    exec (.devSetParam k) s = .next (answered k m ST_OK [] (wr CRP_THERM_CFG_throttle (bits (m.word 3) 27 16)
      (wr CRP_THERM_CFG_warn (bits (m.word 3) 11 0) (taken k s))))) ∧
  (∀ (k : Fin 32) (m : Msg) (s : State), asked Op.DEV_SET_PARAM k m s = true → bits (m.word 2) 15 0 = 0x0600 →
    1 ≤ m.word 3 → m.word 3 ≤ 1000 → exec (.devSetParam k) s = .next (answered k m ST_OK [] (wr GFX_WDOG_ms (m.word 3) (taken k s)))) ∧
  (∀ (k : Fin 32) (m : Msg) (s : State), asked Op.DEV_SET_PARAM k m s = true → bits (m.word 2) 15 0 = 0x0301 →
    256 ≤ bits (m.word 3) 15 0 → 1 ≤ bits (m.word 3) 23 16 →
    exec (.devSetParam k) s = .next (answered k m ST_OK [] (wr (DMC_RH_RATE_acts 0) (bits (m.word 3) 23 16)
      (wr (DMC_RH_THRESH_thresh 0) (bits (m.word 3) 15 0) (taken k s)))))

/-- Table APC-2, R61 to R66, R72: what the world instructions do on a hart that runs, when they succeed. -/
def Obligations.WorldInstructionsComplete : Prop :=
  -- SLUICE has no effect but to move on
  (∀ (h : Fin 8) (s : State), (hart s h).canRun = true →
    exec (.sluice h 0x0000000B) s = .next (settle 4 (putHart h { hart s h with pc := (hart s h).nextPc } s))) ∧
  -- SLCALL to an aligned address of a secure page that holds SLUICE: the world changes, the return address and the caller are saved
  (∀ (h : Fin 8) (w : BitVec 32) (s : State) (pa : Nat), (hart s h).canRun = true → custom0 w.toNat 1 = true → bits w.toNat 31 20 = 0 →
    (hart s h).priv ≠ 3 → (hart s h).world = false → (hart s h).virt = false → (hart s h).sluiceEn = true →
    (hart s h).reg (bits w.toNat 19 15) % 4 = 0 →
    satpTranslate s (hart s h) (hart s h).secureBank.satp ((hart s h).reg (bits w.toNat 19 15)) = some pa →
    pageSecure s pa = true → poisonedIn s pa 4 = false → readNat s pa 4 = 0x0000000B →
    exec (.slcall h w) s = .next (settle 4 (putHart h { (hart s h).setReg (bits w.toNat 11 7) (hart s h).nextPc with
      swret := (hart s h).nextPc, swcallerPriv := (hart s h).priv, swcallerPolder := (hart s h).spolder, world := true, mwdogcnt := 0,
      pc := (hart s h).reg (bits w.toNat 19 15) } s))) ∧
  -- SLRET to an aligned address of a page that is not secure: the hart returns to the normal world
  (∀ (h : Fin 8) (w : BitVec 32) (s : State) (pa : Nat), (hart s h).canRun = true → custom0 w.toNat 2 = true → bits w.toNat 31 20 = 0 →
    bits w.toNat 11 7 = 0 → (hart s h).priv ≠ 3 → (hart s h).world = true → (hart s h).virt = false → (hart s h).haltPending = false →
    (hart s h).reg (bits w.toNat 19 15) % 4 = 0 →
    satpTranslate s (hart s h) (hart s h).normalBank.satp ((hart s h).reg (bits w.toNat 19 15)) = some pa → pageSecure s pa = false →
    exec (.slret h w) s = .next (settle 4 (putHart h { hart s h with world := false, pc := (hart s h).reg (bits w.toNat 19 15) } s))) ∧
  -- a write of spolder or svpolder in the normal world at HS with an allowed polder
  (∀ (h : Fin 8) (guest : Bool) (v : BitVec 64) (s : State), (hart s h).canRun = true → (hart s h).virt = false → (hart s h).priv = 1 →
    (hart s h).world = false → v.toNat % 32 ≠ 0 → bit (hart s h).mpolderAllow (v.toNat % 32) = true →
    exec (.polderTagWrite h guest v) s = .next (settle 4 (putHart h
      (if guest then { hart s h with pc := (hart s h).nextPc, svpolder := v.toNat % 32 }
       else { hart s h with pc := (hart s h).nextPc, spolder := v.toNat % 32 }) s))) ∧
  -- a custom-0 word with a reserved funct3 raises the illegal-instruction exception
  (∀ (h : Fin 8) (w : BitVec 32) (s : State), (hart s h).canRun = true → bits w.toNat 6 0 = 0b0001011 → 3 ≤ bits w.toNat 14 12 →
    exec (.custom0ReservedFunct3 h w) s = .next (settle 4 (putHart h ((hart s h).exception 2 w.toNat) s)))

/-- R69, R70, R71, R89: taking a trap, returning from one, the watchdog of the secure world, and the debugger's halt. -/
def Obligations.TrapsComplete : Prop :=
  -- a trap into machine mode: pc, cause, value, mode, V and the interrupt enable are saved, the world bit in mworld.mpw
  (∀ (h : Fin 8) (interrupt : Bool) (code : Fin 64) (tval : BitVec 64) (s : State), (hart s h).canRun = true →
    (hart s h).goesToM interrupt code = true →
    exec (.trapToMachine h interrupt code tval) s = .next (settle 4 (putHart h { hart s h with
      mepc := (hart s h).pc, mcause := (if interrupt then 2 ^ 63 else 0) + code.val, mtval := tval.toNat, mpp := (hart s h).priv,
      mpv := (hart s h).virt, mpie := (hart s h).mie, mie := false, mpw := (hart s h).world, priv := 3, virt := false,
      pc := trapTarget (hart s h).mtvec interrupt code } s))) ∧
  -- a delegated exception: the same in the supervisor bank of the world in which it occurs
  (∀ (h : Fin 8) (code : Fin 64) (tval : BitVec 64) (s : State), (hart s h).canRun = true → (hart s h).priv ≠ 3 →
    bit (hart s h).medeleg code = true →
    exec (.trapToSupervisor h false code tval) s = .next (settle 4 (putHart h { (hart s h).setBank { (hart s h).bank with
      sepc := (hart s h).pc, scause := code.val, stval := tval.toNat } with
      spp := (hart s h).priv == 1, spv := (hart s h).virt, spie := (hart s h).sie, sie := false, priv := 1, virt := false,
      pc := trapTarget (hart s h).bank.stvec false code } s))) ∧
  -- a delegated interrupt in the secure world stays pending
  (∀ (h : Fin 8) (code : Fin 64) (tval : BitVec 64) (s : State), (hart s h).canRun = true → (hart s h).priv ≠ 3 →
    bit (hart s h).mideleg code = true → (hart s h).world = true →
    exec (.trapToSupervisor h true code tval) s = .next (settle 4 (putHart h { hart s h with mip := setBit (hart s h).mip code } s))) ∧
  -- MRET restores what a trap into machine mode saved
  (∀ (h : Fin 8) (s : State), (hart s h).canRun = true → (hart s h).priv = 3 → (hart s h).haltPending = false →
    ((hart s h).mpw = false ∨ (hart s h).mpv = false ∨ (hart s h).mpp = 3) →
    exec (.mret h) s = .next (settle 4 (putHart h { hart s h with
      priv := (hart s h).mpp, virt := (hart s h).mpv && (hart s h).mpp != 3, world := (hart s h).mpw, mie := (hart s h).mpie, mpie := true,
      mpp := 0, mpv := false, pc := (hart s h).mepc } s))) ∧
  -- the watchdog of the secure world traps with the cause of interrupt 24
  (∀ (h : Fin 8) (s : State), (hart s h).canRun = true → (hart s h).world = true → (hart s h).priv ≠ 3 → (hart s h).mwdog ≠ 0 →
    (hart s h).mwdogcnt < (hart s h).mwdog →
    exec (.worldWatchdog h) s = .next (settle 4 (putHart h ({ hart s h with mwdogcnt := (hart s h).mwdog }.trapM true 24 0) s))) ∧
  -- a halt request: at once where the debugger may halt the world the hart runs in, else when the hart is in the normal world again
  (∀ (h : Fin 8) (s : State), (hart s h).canRun = true → debugEnabled s 2 = true →
    exec (.debugHaltRequest h) s = .next (setHart h { hart s h with halted := true } s)) ∧
  (∀ (h : Fin 8) (s : State), (hart s h).canRun = true → debugEnabled s 2 = false → debugEnabled s 0 = true → (hart s h).world = true →
    exec (.debugHaltRequest h) s = .next (setHart h { hart s h with haltPending := true } s))

/-- R77, R81 to R89, R100: what the registers of the polder check, the block claims, the debug gate and the event lines do when written,
and what ends a switch or an invalidation. -/
def Obligations.ProtectionRegistersComplete : Prop :=
  -- PLD_REQ_MAP in tidemark mode: validation starts, on the base then written
  (∀ (a : Access) (addr : BitVec 40) (v : BitVec 32) (s : State), addr.toNat = 0x20020000 → admitted a addr.toNat v.toNat s = true →
    bit v.toNat 0 = true → rd s PLD_MODE_STAT_switching = 0 → rd s PLD_MODE_STAT_mode = 0 →
    exec (.pldReqMap a addr v) s = .next (settle 4 (takeEffect [PLD_MAP_BASE_base] (wr PLD_MODE_STAT_switching 1 (fenceWrite (bits v.toNat 2 2) s))))) ∧
  -- MAP_SWITCH_DONE: a valid map is in force from now on; an invalid one is recorded and the mode stays
  (∀ (bad : Option (BitVec 40)) (s : State), rd s PLD_MODE_STAT_switching ≠ 0 → mapResult s (bad.map (fun l => l.toNat)) = 1 →
    exec (.mapSwitchDone bad) s = .next (settle 4 (recordReported Src.PLD_MODE_CHANGE none [1, 1] (wr PLD_MODE_STAT_mode 1
      { wr PLD_MODE_STAT_result 1 (wr PLD_MODE_STAT_switching 0 s) with pld := { s.pld with entries := [] } })))) ∧
  (∀ (bad : Option (BitVec 40)) (s : State), rd s PLD_MODE_STAT_switching ≠ 0 → mapResult s (bad.map (fun l => l.toNat)) ≠ 1 →
    badMapLine s (bad.map (fun l => l.toNat)) = none →
    exec (.mapSwitchDone bad) s = .next (settle 4 (record0 Src.PLD_MAP_INVALID none [mapResult s (bad.map (fun l => l.toNat))]
      (wr PLD_MODE_STAT_result (mapResult s (bad.map (fun l => l.toNat))) (wr PLD_MODE_STAT_switching 0 s))))) ∧
  -- PLD_REQ_TIDEMARK in map mode: tidemark mode, with the fence up
  (∀ (a : Access) (addr : BitVec 40) (v : BitVec 32) (s : State), addr.toNat = 0x20020000 → admitted a addr.toNat v.toNat s = true →
    bit v.toNat 1 = true → rd s PLD_MODE_STAT_switching = 0 → rd s PLD_MODE_STAT_mode ≠ 0 →
    exec (.pldReqTidemark a addr v) s = .next (settle 4 (recordReported Src.PLD_MODE_CHANGE none [0, 1] (wr PLD_MODE_STAT_result 1
      (wr PLD_MODE_CTRL_fence_normal 1 (wr PLD_MODE_STAT_mode 0 (fenceWrite (bits v.toNat 2 2) s))))))) ∧
  -- FENCE_NORMAL_WRITE: raised at once; lowered only while no polder from 1 to 31 exists
  (∀ (a : Access) (addr : BitVec 40) (v : BitVec 32) (s : State), addr.toNat = 0x20020000 → admitted a addr.toNat v.toNat s = true →
    bits v.toNat 1 0 = 0 → bits v.toNat 2 2 = 1 →
    exec (.fenceNormalWrite a addr v) s = .next (settle 4 (wr PLD_MODE_CTRL_fence_normal 1 s))) ∧
  (∀ (a : Access) (addr : BitVec 40) (v : BitVec 32) (s : State), addr.toNat = 0x20020000 → admitted a addr.toNat v.toNat s = true →
    bits v.toNat 1 0 = 0 → bits v.toNat 2 2 = 0 → rd s PLD_MODE_CTRL_fence_normal ≠ 0 →
    exec (.fenceNormalWrite a addr v) s = .next (settle 4
      (if anyPolder s then wr PLD_MODE_STAT_result 5 s else wr PLD_MODE_CTRL_fence_normal 0 s))) ∧
  -- PLD_TIDEMARK_WRITE: a value in the DRAM range, in units of 2 MiB; another is a reserved encoding
  (∀ (a : Access) (addr : BitVec 40) (v : BitVec 32) (s : State) (t : Nat), addr.toNat = 0x2002000C → admitted a addr.toNat v.toNat s = true →
    t = bits (lowWord s (carried s a addr.toNat).master 0x20020008 (rdA s PLD_TIDEMARK_tidemark) + 4294967296 * v.toNat) 39 21 →
    0x1000000000 ≤ t * 0x200000 → t * 0x200000 ≤ 0x2000000000 →
    exec (.pldTidemarkWrite a addr v) s = .next (settle 4 (wr PLD_TIDEMARK_tidemark t
      (holdWord (carried s a addr.toNat).master 0x20020008 none s)))) ∧
  -- PLD_INV_START and PLD_INV_DONE
  (∀ (a : Access) (addr : BitVec 40) (v : BitVec 32) (s : State), addr.toNat = 0x20020020 → admitted a addr.toNat v.toNat s = true →
    bit v.toNat 31 = true → exec (.pldInvStart a addr v) s = .next (settle 4
      { wr PLD_INV_STAT_busy 1 (wr PLD_INV_CTRL_pages (bits v.toNat 23 0) s) with
        pld := { s.pld with inv := s.pld.inv ++ [(mapPage (rdA s PLD_INV_ADDR_addr), bits v.toNat 23 0)] } })) ∧
  (∀ (s : State), rd s PLD_INV_STAT_busy ≠ 0 → exec .pldInvDone s = .next (wr PLD_INV_STAT_busy 0
    { s with pld := { s.pld with entries := s.pld.entries.filter (fun e => !s.pld.inv.any (fun r => invCovers r e.1)), inv := [] } })) ∧
  -- PLD_S2_ROOT_WRITE with mode 0 or 9: root, mode and the writer's polder; PLD_S2_INV and PLD_S2_INV_DONE
  (∀ (a : Access) (addr : BitVec 40) (v : BitVec 32) (s : State) (p full : Nat), s2RegAt addr.toNat = some (p, 4) →
    admitted a addr.toNat v.toNat s = true →
    full = lowWord s (carried s a addr.toNat).master (addr.toNat - 4) (rdA s (PLD_S2_ROOT_root p)) + 4294967296 * v.toNat →
    bits full 63 60 = 0 ∨ bits full 63 60 = 9 →
    exec (.pldS2RootWrite a addr v) s = .next (settle 4 (wr (PLD_S2_ROOT_writer p) (carried s a addr.toNat).polder
      (wr (PLD_S2_ROOT_mode p) (bits full 63 60) (wr (PLD_S2_ROOT_root p) (bits full 39 14)
        (holdWord (carried s a addr.toNat).master (addr.toNat - 4) none s)))))) ∧
  (∀ (a : Access) (addr : BitVec 40) (v : BitVec 32) (s : State) (p : Nat), s2RegAt addr.toNat = some (p, 8) →
    admitted a addr.toNat v.toNat s = true → bit v.toNat 0 = true →
    exec (.pldS2Inv a addr v) s = .next (settle 4 (wr (PLD_S2_INV_busy p) 1 s))) ∧
  (∀ (p : Fin 32) (s : State), rd s (PLD_S2_INV_busy p) ≠ 0 → exec (.pldS2InvDone p) s =
    .next (wr (PLD_S2_INV_busy p) 0 { s with pld := { s.pld with s2 := s.pld.s2.filter (fun e => e.1 / 2 ^ 53 != p.val) } })) ∧
  -- SEC_CLAIM_WRITE by a secure-world core: the claims, with every claimed block powered up and clocked
  (∀ (a : Access) (addr : BitVec 40) (v : BitVec 32) (s : State), addr.toNat = 0x20000200 → admitted a addr.toNat v.toNat s = true →
    secureCore (carried s a addr.toNat) = true →
    exec (.secClaimWrite a addr v) s = .next (settle 4 ((idxWhere 24 (bit v.toNat)).foldl
      (fun s k => if blockIsUp s k then s else powerUpBlock k s) (wr CRP_SEC_CLAIM_claim (bits v.toNat 23 0) s)))) ∧
  -- DBG_ENABLE_WRITE: enables can only be cleared
  (∀ (a : Access) (addr : BitVec 40) (v : BitVec 32) (s : State), addr.toNat = 0x20A0F000 → admitted a addr.toNat v.toNat s = true →
    exec (.dbgEnableWrite a addr v) s = .next (settle 4 (wr DBG_ENABLE_sba_polder (bits v.toNat 8 4)
      (wr DBG_ENABLE_enables (rd s DBG_ENABLE_enables &&& bits v.toNat 3 0) s)))) ∧
  -- EVL_ENABLE_WRITE: the enables; a line enabled while pending sends its message
  (∀ (a : Access) (addr : BitVec 40) (v : BitVec 32) (s : State) (p new : Nat), isPage addr.toNat = true → pageOff addr.toNat = 0x600C →
    admitted a addr.toNat v.toNat s = true → p = pageOf addr.toNat →
    new = lowWord s (carried s a addr.toNat).master (addr.toNat - 4) (rd s (POL_EVL_ENABLE_enable p)) + 4294967296 * v.toNat →
    exec (.evlEnableWrite a addr v) s = .next (settle 4 ((idxWhere 64 (fun n => bit new n && !bit (rd s (POL_EVL_ENABLE_enable p)) n &&
      bit (rd s (POL_EVL_PENDING_pending p)) n)).foldl (fun s n => lineMessage p n s)
        (wr (POL_EVL_ENABLE_enable p) new (holdWord (carried s a addr.toNat).master (addr.toNat - 4) none s)))))

/-- R91 to R95, R103, R111, R112, Table POL-2: what the polder commands do when their own conditions hold. -/
def Obligations.PolderCommandsComplete : Prop :=
  -- POLDER_GET_INFO and POLDER_GET_GRANTS by a reader whom R32 admits
  (∀ (k : Fin 32) (m : Msg) (s : State), asked Op.POLDER_GET_INFO k m s = true → Req.mayReadPolder s ⟨k, m⟩ (bits (m.word 2) 4 0) = true →
    polExists s (bits (m.word 2) 4 0) = true →
    exec (.polderGetInfo k) s = .next (answered k m ST_OK [polState s (bits (m.word 2) 4 0) + 4 * polLocation s (bits (m.word 2) 4 0) +
      16 * (pairOf s (bits (m.word 2) 4 0)).getD 0, shareWord s (bits (m.word 2) 4 0), lo32 (slotBitmap s (bits (m.word 2) 4 0)),
      hi32 (slotBitmap s (bits (m.word 2) 4 0)), audBudget s (bits (m.word 2) 4 0)] (taken k s))) ∧
  (∀ (k : Fin 32) (m : Msg) (s : State), asked Op.POLDER_GET_GRANTS k m s = true → Req.mayReadPolder s ⟨k, m⟩ (bits (m.word 2) 4 0) = true →
    1 ≤ bits (m.word 2) 11 8 → bits (m.word 2) 11 8 ≤ 8 →
    exec (.polderGetGrants k) s = .next (answered k m ST_OK
      (bitmapWords 8 (grantBitmap s (bits (m.word 2) 4 0) (bits (m.word 2) 11 8))) (taken k s))) ∧
  -- POLDER_CREATE of an absent polder: fresh, shares 16, active at its location; its pair is its own where it is free
  (∀ (k : Fin 32) (m : Msg) (s : State) (p : Nat), asked Op.POLDER_CREATE k m s = true → p = bits (m.word 2) 4 0 → p ≠ 0 →
    polExists s p = false →
    exec (.polderCreate k) s = .next (settle 4 (
      let s1 := wr (POL_STAT_state p) 1 (wr (POL_STAT_location p) (bits (m.word 2) 9 8) (wr (POL_RESET_COUNT_count p) 0
        (sharesDefault p (freshInstance p (taken k s)))))
      let s2 := polderChanged p (reply ⟨k, Msg.opcode m, Msg.seq m⟩ ST_OK []
        (if p < 30 ∧ chanOn s1 (2 * p) = false then assignPair p p 0 s1 else s1))
      if bits (m.word 2) 9 8 = 3 then s2 else notifyAck 0 Op.POLDER_PLACED [p + 256 * bits (m.word 2) 9 8] s2))) ∧
  -- POLDER_DESTROY and POLDER_RESET of an active polder start its reset at once
  (∀ (k : Fin 32) (m : Msg) (s : State), asked Op.POLDER_DESTROY k m s = true →
    bits (m.word 2) 4 0 ≠ 0 → rd s (POL_STAT_state (bits (m.word 2) 4 0)) = 1 →
    exec (.polderDestroy k) s = .next (settle 4 (startReset (bits (m.word 2) 4 0) (some ⟨k, Msg.opcode m, Msg.seq m⟩) true
      (reply ⟨k, Msg.opcode m, Msg.seq m⟩ ST_PENDING [] (taken k s))))) ∧
  (∀ (k : Fin 32) (m : Msg) (s : State), asked Op.POLDER_RESET k m s = true →
    bits (m.word 2) 4 0 ≠ 0 → rd s (POL_STAT_state (bits (m.word 2) 4 0)) = 1 →
    exec (.polderReset k) s = .next (settle 4 (startReset (bits (m.word 2) 4 0) (some ⟨k, Msg.opcode m, Msg.seq m⟩) false
      (reply ⟨k, Msg.opcode m, Msg.seq m⟩ ST_PENDING [] (taken k s))))) ∧
  -- POLDER_GRANT: operations of the audio budget; a layer slot that polder 0 or the polder itself holds
  (∀ (k : Fin 32) (m : Msg) (s : State) (p : Nat), asked Op.POLDER_GRANT k m s = true → p = bits (m.word 2) 4 0 → p ≠ 0 →
    rd s (POL_STAT_state p) = 1 → bits (m.word 2) 11 8 = 9 → 1 ≤ m.word 3 → m.word 3 ≤ 24000 → m.word 3 ≤ audBudget s 0 →
    exec (.polderGrant k) s = .next (answered k m ST_OK [] { taken k s with budget := s.budget.put p (audBudget s p + m.word 3) })) ∧
  (∀ (k : Fin 32) (m : Msg) (s : State) (p u : Nat), asked Op.POLDER_GRANT k m s = true → p = bits (m.word 2) 4 0 → p ≠ 0 →
    rd s (POL_STAT_state p) = 1 → bits (m.word 2) 11 8 = 1 → u = bits (m.word 2) 23 16 → bits (m.word 2) 31 24 = 1 → u < 64 →
    (grantee s 1 u = 0 ∨ grantee s 1 u = p) → holdingWith s p 1 [u] ≤ 64 →
    exec (.polderGrant k) s = .next (answered k m ST_OK [] { taken k s with grants := s.grants.put (256 + u) p })) ∧
  -- POLDER_REVOKE: operations that the polder's programs do not use; a unit it holds and does not use
  (∀ (k : Fin 32) (m : Msg) (s : State) (p : Nat), asked Op.POLDER_REVOKE k m s = true → p = bits (m.word 2) 4 0 → p ≠ 0 →
    rd s (POL_STAT_state p) = 1 → bits (m.word 2) 11 8 = 9 → 1 ≤ m.word 3 → m.word 3 ≤ audBudget s p → (audPol s p).active = none →
    exec (.polderRevoke k) s = .next (answered k m ST_OK [] { taken k s with budget := s.budget.put p (audBudget s p - m.word 3) })) ∧
  (∀ (k : Fin 32) (m : Msg) (s : State) (p u : Nat), asked Op.POLDER_REVOKE k m s = true → p = bits (m.word 2) 4 0 → p ≠ 0 →
    rd s (POL_STAT_state p) = 1 → bits (m.word 2) 11 8 = 8 → u = bits (m.word 2) 23 16 → bits (m.word 2) 31 24 = 1 → 1 ≤ u →
    grantee s 8 u = p →
    exec (.polderRevoke k) s = .next (answered k m ST_OK [] { taken k s with grants := s.grants.put (2048 + u) 0 })) ∧
  -- POLDER_SET_SHARE: the share, whether the polder is frozen, and line 1
  (∀ (k : Fin 32) (m : Msg) (s : State) (p : Nat), asked Op.POLDER_SET_SHARE k m s = true → p = bits (m.word 2) 4 0 → p ≠ 0 →
    rd s (POL_STAT_state p) = 1 → bits (m.word 2) 9 8 = 0 →
    exec (.polderSetShare k) s = .next (answered k m ST_OK [] (raiseLine p 1 (
      let s1 := wr (POL_SHARE_gfx p) (bits (m.word 2) 23 16) (taken k s)
      wrB (POL_STAT_frozen p) (rd s1 (POL_SHARE_gfx p) == 0 || rd s1 (POL_SHARE_vcd p) == 0 || rd s1 (POL_SHARE_cvu p) == 0) s1)))) ∧
  -- POLDER_ASSIGN_PAIR without and with share
  (∀ (k : Fin 32) (m : Msg) (s : State) (p : Nat), asked Op.POLDER_ASSIGN_PAIR k m s = true → p = bits (m.word 2) 12 8 → p ≠ 0 →
    polExists s p = true → 1 ≤ bits (m.word 2) 4 0 → bits (m.word 2) 4 0 ≤ 29 → bit (m.word 2) 24 = false →
    exec (.polderAssignPair k) s = .next (answered k m ST_OK [] (assignPair (bits (m.word 2) 4 0) p (bits (m.word 2) 21 16) (taken k s)))) ∧
  -- PCIE_SET_WINDOWS on a part without BAR4
  (∀ (k : Fin 32) (m : Msg) (s : State) (p : Nat), asked Op.PCIE_SET_WINDOWS k m s = true → p = bits (m.word 2) 4 0 → p ≠ 0 →
    polExists s p = true → bits (m.word 3) 22 0 + m.word 4 ≤ 2 ^ 23 → bar4Size s = 0 →
    exec (.pcieSetWindows k) s = .next (answered k m ST_OK []
      { taken k s with pci := { s.pci with outbound := s.pci.outbound.put p (bits (m.word 3) 22 0, m.word 4) } }))

/-- Table POL-7, R105, R113: what each step of a polder's reset does, and the loss and return of the PCIe link. -/
def Obligations.PolderResetStepsComplete : Prop :=
  -- POLDER_WORK_ABORT with nothing running: the step is over
  (∀ (p : Fin 32) (s : State) (r : PReset), Tab.get none s.resets p = some r → r.aborted = false → workRuns s p = false →
    exec (.polderWorkAbort p) s = .next (settle 4 (reachQ p { s with resets := s.resets.put p (some { r with aborted := true }) }))) ∧
  -- with work still running at R + 2 ms: it is stopped
  (∀ (p : Fin 32) (s : State) (r : PReset), Tab.get none s.resets p = some r → r.aborted = false → workRuns s p = true →
    exec (.polderWorkAbort p) s = .next (settle 4 (reachQ p { abortWork p (advanceTo (r.start + 2000000) s) with
      resets := (abortWork p (advanceTo (r.start + 2000000) s)).resets.put p (some { r with aborted := true }) }))) ∧
  -- CRP_POLDER_SQUASH: 100 us after Q, the polder's transactions are squashed, and their number recorded
  (∀ (p : Fin 32) (s : State) (r : PReset) (t : Nat), Tab.get none s.resets p = some r → r.q = some t → r.squashed = false →
    exec (.crpPolderSquash p) s = .next (settle 4 (record0 Src.CRP_POLDER_SQUASH (some p.val) [p, (txnsOf (advanceTo (t + 100000) s) p).length]
      { advanceTo (t + 100000) s with
        resets := (advanceTo (t + 100000) s).resets.put p (some { r with squashed := true }),
        fabric := (advanceTo (t + 100000) s).fabric.filterMap (fun t =>
          if t.polder == p.val && !t.squashed then (if t.pcie && !t.write then some { t with squashed := true } else none) else some t) }))) ∧
  -- POLDER_RESET_DONE: the instance is as new, the polder active, its resets counted, the command answered
  (∀ (p : Fin 32) (s : State) (r : PReset), Tab.get none s.resets p = some r → r.squashed = true → txnsOf s p = [] → r.destroy = false →
    exec (.polderResetDone p) s = .next (settle 4 (polderChanged p (replyOpt r.job ST_OK [] (incWrap (POL_RESET_COUNT_count p) 1
      (wr (POL_STAT_state p) 1 (clearInstance p { s with resets := s.resets.put p none }))))))) ∧
  -- the PCIe link
  (∀ (s : State), s.pci.linkUp = true → exec .pciLinkDown s = .next (settle 4 (hostLost (record0 Src.PCI_LINK_DOWN none []
    { s with pci := { s.pci with linkUp := false } })))) ∧
  (∀ (fl : Bool) (s : State), s.pci.linkUp = true → exec (.pciHotReset fl) s =
    .next (settle 4 (hostLost (record0 Src.PCI_HOT_RESET none [if fl then 2 else 1] s)))) ∧
  (∀ (s : State), exec .pciLinkUp s = .next (settle 4 { s with pci := { s.pci with linkUp := true } }))

/-- R123, R124, R131 to R144, R433, R434: what the memory controllers do by themselves. -/
def Obligations.MemoryStepsComplete : Prop :=
  -- OCM_ECC_WRITEBACK: the oldest corrected word of the bank is written back
  (∀ (bank : Fin 12) (s : State) (w : Nat), s.dmc.writeback.find? (fun w => ocmBank (8 * w) == bank.val) = some w →
    exec (.ocmEccWriteback bank) s = .next { s with dmc := { s.dmc with writeback := s.dmc.writeback.erase w } }) ∧
  -- OCM_SCRUB_READ of a word without an error: the scrubber moves on
  (∀ (bank : Fin 12) (s : State), poisonedIn s (ocmBase + 0x800000 * bank.val + 8 * Tab.get 0 s.dmc.scrubPos bank) 8 = false →
    exec (.ocmScrubRead bank .clean) s = .next (settle 4 (wr OCM_SCRUB_STAT_position
      (ocmOffset (ocmBase + 0x800000 * bank.val + 8 * Tab.get 0 s.dmc.scrubPos bank) / 65536) { s with dmc := { s.dmc with
        scrubPos := s.dmc.scrubPos.put bank ((Tab.get 0 s.dmc.scrubPos bank + 1) % 0x100000), scrubGrant := s.dmc.scrubGrant.put bank s.now,
        scrubBoost := s.dmc.scrubBoost.put bank
          (if Tab.get 0 s.dmc.scrubGrant bank + 100000 ≤ s.now then 31 else Tab.get 0 s.dmc.scrubBoost bank - 1),
        scrubCorrected := s.dmc.scrubCorrected } }))) ∧
  -- OCM_SCRUB_PASS
  (∀ (s : State), exec .ocmScrubPass s = .next (settle 4 (
    let s1 := wr OCM_SCRUB_STAT_position 0 (incWrap OCM_SCRUB_STAT_passes 1 (pumpRan 0 60000000000 s))
    record0 Src.OCM_SCRUB_PASS none [rd s1 OCM_SCRUB_STAT_passes, s.dmc.scrubCorrected]
      { s1 with dmc := { s1.dmc with scrubPos := [], scrubCorrected := 0, scrubStart := s.now } }))) ∧
  -- DRAM_REFRESH: made at once; postponed while an urgent flag is held and fewer than eight are owed; forced at eight
  (∀ (ch : Fin 16) (s : State), dramReady s = true → selfRefresh s = false → urgentOn s ch = false →
    exec (.dramRefresh ch) s = .next (settle 4 (refreshOne ch s))) ∧
  (∀ (ch : Fin 16) (s : State), dramReady s = true → selfRefresh s = false → urgentOn s ch = true → rd s (DMC_REF_CTRL_postpone_en 0) = 1 →
    refreshDebt s ch < 8 → exec (.dramRefresh ch) s = .next (setDebt ch (refreshDebt s ch + 1) s)) ∧
  (∀ (ch : Fin 16) (s : State), dramReady s = true → selfRefresh s = false → urgentOn s ch = true → rd s (DMC_REF_CTRL_postpone_en 0) = 1 →
    8 ≤ refreshDebt s ch → exec (.dramRefresh ch) s = .next (settle 4 (record0 Src.DMC_REFRESH_FORCED none [ch, refreshDebt s ch]
      (orBits (DMC_REF_STAT_forced (ch.val / 4)) (2 ^ (ch.val % 4)) (refreshOne ch s))))) ∧
  -- URGENT_FLAG_CHANGE: a real-time master raises its flag on a channel
  (∀ (m : Fin 64) (ch : Fin 16) (s : State), realTime s m = true → setBit (Tab.get 0 s.dmc.urgent ch) m ≠ 0 →
    exec (.urgentFlagChange m ch true) s = .next (orBits (DMC_STATUS_urgent (ch.val / 4)) (2 ^ (ch.val % 4))
      { s with dmc := { s.dmc with urgent := s.dmc.urgent.put ch (setBit (Tab.get 0 s.dmc.urgent ch) m) } })) ∧
  -- REFRESH_WINDOW_START: 32 ms after the last, the trackers are empty and nobody is throttled
  (∀ (s : State), dramReady s = true → exec .refreshWindowStart s = .next (wrAll DMC_RH_THROTTLED_masters 0
    { advanceTo (s.dmc.windowStart + refreshWindow) s with dmc := { (advanceTo (s.dmc.windowStart + refreshWindow) s).dmc with trackers := [], windowStart := s.dmc.windowStart + refreshWindow } })) ∧
  -- ZQ_CALIBRATION
  (∀ (s : State), dramReady s = true → dramFailed s = false → selfRefresh s = false → exec .zqCalibration s =
    .next (settle 4 (pumpRan 2 100000000 { advanceTo (s.dmc.lastZq + 100000000) s with
      dmc := { (advanceTo (s.dmc.lastZq + 100000000) s).dmc with lastZq := (advanceTo (s.dmc.lastZq + 100000000) s).now } }))) ∧
  -- RETRAIN_STEP: a channel of a pass, the last of which completes it
  (∀ (ch : Fin 16) (temp : BitVec 16) (s : State), dramReady s = true → dramFailed s = false → selfRefresh s = false →
    s.dmc.passCh = ch.val → 0 < ch.val → ch.val < 15 →
    exec (.retrainStep ch temp) s = .next { closeRows ch s with dmc := { (closeRows ch s).dmc with passCh := ch.val + 1 } }) ∧
  (∀ (temp : BitVec 16) (s : State), dramReady s = true → dramFailed s = false → selfRefresh s = false → s.dmc.passCh = 15 →
    exec (.retrainStep 15 temp) s = .next (settle 4 (pumpRan 3 0 (passComplete temp.toNat
      { closeRows 15 s with dmc := { (closeRows 15 s).dmc with passCh := 0 } })))) ∧
  -- DMC_TRAINING_LOST by the eye margin; DMC_RETRAIN_DONE with success
  (∀ (ch : Fin 16) (s : State), dramReady s = true → dramFailed s = false →
    exec (.dmcTrainingLost ch .eye) s = .next (settle 4 (vcdDramFailed (memDramState 1 (record0 Src.DMC_TRAINING_LOST none [ch, 1]
      (wrAll DMC_STATUS_retraining 1 (wrAll DMC_STATUS_failed 1 { s with dmc := { s.dmc with reason := 1, attempts := 0 } }))))))) ∧
  (∀ (temp : BitVec 16) (s : State), dramFailed s = true → s.dmc.permanent = false →
    exec (.dmcRetrainDone true temp) s = .next (settle 4 (
      let s2 : State := { passComplete temp.toNat s with dmc := { (passComplete temp.toNat s).dmc with attempts := 0, reason := 4, retries := [] } }
      memDramState 4 (record0 Src.DMC_RETRAIN_DONE none [rd s2 (DMC_TRAIN_STAT_passes 0), unsgn 32 (sgn 16 temp.toNat)]
        (wrAll DMC_STATUS_retraining 0 (wrAll DMC_STATUS_failed 0 s2)))))) ∧
  -- DRAM_PATROL: the next 64 KiB; a whole pass is counted
  (∀ (s : State), dramReady s = true → dramFailed s = false → selfRefresh s = false → anyUrgent s = false → patrolSteps s ≠ 0 →
    (s.dmc.patrol + 1) % patrolSteps s ≠ 0 →
    exec (.dramPatrol false) s = .next (settle 4 { s with dmc := { s.dmc with patrol := (s.dmc.patrol + 1) % patrolSteps s } }))

/-- Table MEM-1, R116, R132, R139, R140, R146: what the memory commands return and set. -/
def Obligations.MemoryCommandsComplete : Prop :=
  (∀ (k : Fin 32) (m : Msg) (s : State), asked Op.MEM_GET_INFO k m s = true → exec (.memGetInfo k) s =
    .next (answered k m ST_OK ([s.dmc.gib % 256 + 256 * (s.dmc.mts % 65536) + 2 ^ 24 * dramState s,
      rd s (DMC_PASR_keep 0) + 16 * rd s (DMC_REF_CTRL_mode 0) + 32 * rd s (DMC_REF_CTRL_postpone_en 0)] ++
      (List.range 4).map (fun j => rd s (DMC_MAP_CH_rowmask 0 j)) ++ (List.range 4).map (fun j => rd s (DMC_MAP_BA_rowmask 0 j))) (taken k s))) ∧
  (∀ (k : Fin 32) (m : Msg) (s : State), asked Op.MEM_GET_OCM_REGION k m s = true → exec (.memGetOcmRegion k) s =
    .next (answered k m ST_OK ((List.range 4).flatMap (fun i => [rd s (OCM_RGN_BASE_page (bits (m.word 2) 5 0) i),
      rd s (OCM_RGN_LIMIT_page (bits (m.word 2) 5 0) i), rd s (OCM_RGN_CTRL_rd (bits (m.word 2) 5 0) i) +
      2 * rd s (OCM_RGN_CTRL_wr (bits (m.word 2) 5 0) i) + 4 * rd s (OCM_RGN_CTRL_enable (bits (m.word 2) 5 0) i)])) (taken k s))) ∧
  (∀ (k : Fin 32) (m : Msg) (s : State), asked Op.MEM_GET_THROTTLE k m s = true → exec (.memGetThrottle k) s =
    .next (answered k m ST_OK [lo32 (rd s (DMC_RH_THROTTLED_masters 0)), hi32 (rd s (DMC_RH_THROTTLED_masters 0)),
      (s.dmc.windowStart + 32000000 - s.now) / 1000000] (taken k s))) ∧
  -- a region of a master; pages below 4096 only from polder 0's secure world
  (∀ (k : Fin 32) (m : Msg) (s : State), asked Op.MEM_SET_OCM_REGION k m s = true → bits (m.word 3) 14 0 ≤ bits (m.word 4) 14 0 →
    bits (m.word 4) 14 0 ≤ 24575 → (4096 ≤ bits (m.word 3) 14 0 ∨ Req.fromSecure ⟨k, m⟩ = true) →
    exec (.memSetOcmRegion k) s = .next (answered k m ST_OK []
      (wr (OCM_RGN_CTRL_enable (bits (m.word 2) 5 0) (bits (m.word 2) 9 8)) (bits (bits (m.word 2) 14 12) 2 2)
      (wr (OCM_RGN_CTRL_wr (bits (m.word 2) 5 0) (bits (m.word 2) 9 8)) (bits (bits (m.word 2) 14 12) 1 1)
      (wr (OCM_RGN_CTRL_rd (bits (m.word 2) 5 0) (bits (m.word 2) 9 8)) (bits (bits (m.word 2) 14 12) 0 0)
      (wr (OCM_RGN_LIMIT_page (bits (m.word 2) 5 0) (bits (m.word 2) 9 8)) (bits (m.word 4) 14 0)
      (wr (OCM_RGN_BASE_page (bits (m.word 2) 5 0) (bits (m.word 2) 9 8)) (bits (m.word 3) 14 0) (taken k s)))))))) ∧
  (∀ (k : Fin 32) (m : Msg) (s : State), asked Op.MEM_SET_PASR k m s = true → 1 ≤ bits (m.word 2) 3 0 → bits (m.word 2) 3 0 ≤ 8 →
    mapDropped s (bits (m.word 2) 3 0) = false →
    exec (.memSetPasr k) s = .next (answered k m ST_OK [] (wr (DMC_PASR_keep 0) (bits (m.word 2) 3 0) (taken k s)))) ∧
  (∀ (k : Fin 32) (m : Msg) (s : State), asked Op.MEM_SET_REFRESH k m s = true → dramFailed s = false →
    exec (.memSetRefresh k) s = .next (answered k m ST_OK [] (wr (DMC_REF_CTRL_postpone_en 0) (bits (m.word 2) 1 1)
      (wr (DMC_REF_CTRL_mode 0) (bits (m.word 2) 0 0) (taken k s))))) ∧
  (∀ (k : Fin 32) (m : Msg) (s : State), asked Op.MEM_SET_ROWHAMMER k m s = true → 256 ≤ bits (m.word 2) 15 0 → bits (m.word 2) 23 16 ≠ 0 →
    exec (.memSetRowhammer k) s = .next (answered k m ST_OK [] (wr (DMC_RH_RATE_acts 0) (bits (m.word 2) 23 16)
      (wr (DMC_RH_THRESH_thresh 0) (bits (m.word 2) 15 0) (taken k s))))) ∧
  -- bits 0, 9 and 24 to 63 of the mask are ignored
  (∀ (k : Fin 32) (m : Msg) (s : State), asked Op.MEM_SET_RT_MASTERS k m s = true →
    exec (.memSetRtMasters k) s = .next (answered k m ST_OK []
      (wr (DMC_RT_MASK_masters 0) ((m.word 2 + 4294967296 * m.word 3) &&& 0xFFFDFE) (taken k s))))

/-- R7, R8, R11, R12, R13, R14: what a write or a read of a register does that no row of its own describes. -/
def Obligations.RegisterAccessesComplete : Prop :=
  -- REGISTER_WRITE of a 32-bit register: each field takes what its access type and its encoding admit, then its block follows
  (∀ (a : Access) (addr : BitVec 40) (v : BitVec 64) (s : State) (h : Nat) (row : Row) (ix : List Nat),
    isReg addr.toNat = true → msixAt s a addr.toNat = none → rowWrite a addr (v.setWidth 32) s = none →
    admitted a addr.toNat (v.setWidth 32).toNat s = true → regHome s addr.toNat = some h → rowOf s addr.toNat = some (row, ix, false) →
    row.wide = false → writable (row.flds ix) = true → ownEffect (carried s a addr.toNat) addr.toNat h (v.setWidth 32).toNat s = none →
    exec (.registerWrite a addr 4 v) s = .next (settle 4 (follows addr.toNat h s (fieldsTake (carried s a addr.toNat) addr.toNat
      (v.setWidth 32).toNat (row.flds ix) (val32 (v.setWidth 32).toNat) s)))) ∧
  -- a write that is not of 32 bits, or not aligned, changes nothing and is recorded with kind 1
  (∀ (a : Access) (addr : BitVec 40) (size : Fin 17) (v : BitVec 64) (s : State), isReg addr.toNat = true → a.route = .fabric →
    masterGone s (carried s a addr.toNat) = false → inBlock addr.toNat = true → blockUp s addr.toNat = true → size ≠ 4 →
    exec (.registerWrite a addr size v) s =
      .next (settle 4 (violateAt (carried s a addr.toNat) 1 addr.toNat (v.setWidth 32).toNat s))) ∧
  -- the low word of a 64-bit register is held for its writer
  (∀ (a : Access) (addr : BitVec 40) (v : BitVec 64) (s : State) (h : Nat) (row : Row) (ix : List Nat),
    isReg addr.toNat = true → msixAt s a addr.toNat = none → rowWrite a addr (v.setWidth 32) s = none →
    admitted a addr.toNat (v.setWidth 32).toNat s = true → regHome s addr.toNat = some h → rowOf s addr.toNat = some (row, ix, false) →
    row.wide = true → writable (row.flds ix) = true →
    exec (.registerWrite a addr 4 v) s =
      .next (settle 4 (holdWord (carried s a addr.toNat).master addr.toNat (some (v.setWidth 32).toNat) s))) ∧
  -- REG64_HIGH_WRITE: both words apply, the low one as it was held or, without one, as it is; nothing is held any more
  (∀ (a : Access) (addr : BitVec 40) (v : BitVec 32) (s : State) (h : Nat) (row : Row) (ix : List Nat),
    isPage addr.toNat = false → msixAt s a addr.toNat = none → rowWrite a addr v s = none →
    admitted a addr.toNat v.toNat s = true → regHome s addr.toNat = some h → rowOf s addr.toNat = some (row, ix, true) →
    row.wide = true → writable (row.flds ix) = true →
    exec (.reg64HighWrite a addr v) s = .next (settle 4 (follows addr.toNat h s (fieldsTake (carried s a addr.toNat) addr.toNat v.toNat
      (row.flds ix) (val64 s (Tab.get none s.wrHold (wordKey (carried s a addr.toNat).master (addr.toNat - 4))) v.toNat)
      (holdWord (carried s a addr.toNat).master (addr.toNat - 4) none s))))) ∧
  -- REG64_LOW_READ: the low word is returned and the high word latched for its reader
  (∀ (a : Access) (addr : BitVec 40) (s : State) (h : Nat) (row : Row) (ix : List Nat), isPage addr.toNat = false →
    msixAt s a addr.toNat = none → effectRead a addr s = none → readable a addr.toNat s = true →
    regHome s addr.toNat = some h → rowOf s addr.toNat = some (row, ix, false) → row.wide = true →
    exec (.reg64LowRead a addr 4) s = .next (settle 4 { s with
      busReply := lo32 (regValue s h row ix),
      rdLatch := s.rdLatch.put (wordKey (carried s a addr.toNat).master addr.toNat) (some (hi32 (regValue s h row ix))) }))

/-- R60, R78, R105, R108, R119, R121, R123: what an access to memory does, and what becomes of a transaction that stays in the fabric. -/
def Obligations.MemoryAccessesComplete : Prop :=
  -- a device master's write to OCM that every check admits stores its bytes
  (∀ (r : MemReq) (s s1 s2 : State) (c : Carried) (a : Nat), c = carried s r.acc r.addr.toNat → cannotIssue r c s = false →
    isDeviceMaster c.master = true → r.acc.route = .fabric → r.dir = .write → r.outstanding = none → physOf r c s = (some a, s1) →
    inOcm a = true → rangeDenied r c false true (pageStarts a r.len) s1 = (none, s2) →
    exec (.memoryAccess r) s = .next (settle 4 (writeBytes a (reqBytes r) (slcLines c.polder a r.len s2)))) ∧
  -- its read of OCM bytes without an error and without poison returns them
  (∀ (r : MemReq) (s s1 s2 : State) (c : Carried) (a : Nat), c = carried s r.acc r.addr.toNat → cannotIssue r c s = false →
    isDeviceMaster c.master = true → r.acc.route = .fabric → r.dir = .read → r.ecc = .clean → r.outstanding = none →
    physOf r c s = (some a, s1) → inOcm a = true → rangeDenied r c true false (pageStarts a r.len) s1 = (none, s2) →
    s2.poison = [] → exec (.memoryAccess r) s = .next (settle 4
      { slcLines c.polder a r.len s2 with busReply := readNat (slcLines c.polder a r.len s2) a r.len })) ∧
  -- an access that a check refuses has the refusal's outcome and no other
  (∀ (r : MemReq) (s s1 s2 x : State) (c : Carried) (a : Nat), c = carried s r.acc r.addr.toNat → cannotIssue r c s = false →
    isDeviceMaster c.master = true → r.acc.route = .fabric → physOf r c s = (some a, s1) → (inOcm a = true ∨ inDramRange a = true) →
    rangeDenied r c (!(r.dir == .write)) (r.dir == .write) (pageStarts a r.len) s1 = (some x, s2) →
    exec (.memoryAccess r) s = .next (settle 4 x)) ∧
  -- a core's access that PMP refuses raises its access fault
  (∀ (r : MemReq) (s : State) (c : Carried), c = carried s r.acc r.addr.toNat → cannotIssue r c s = false → isCoreMaster c.master = true →
    pmpAllows (hart s (c.master - 1)) r.addr.toNat r.len (permBit r.dir) = false →
    exec (.memoryAccess r) s = .next (settle 4 (putHart (r.acc.master.val - 1)
      ((hart s (r.acc.master.val - 1)).exception (faultCause r.dir) r.addr.toNat) s))) ∧
  -- OCM_ALIAS_WRITE by a device master, of 4 or 8 aligned bytes: OR at the set alias, AND-NOT at the clear alias, as one step
  (∀ (ac : Access) (addr : BitVec 40) (size : Fin 17) (v : BitVec 64) (s s1 : State) (c : Carried) (r : MemReq) (tgt new : Nat),
    r = { acc := ac, dir := .write, addr := addr, len := size.castLE (by decide), data := (leBytes size v.toNat).map (BitVec.ofNat 8), block := 0,
          unit := 0, ecc := .clean, retry := .none, outstanding := none } →
    c = carried s ac addr.toNat → cannotIssue r c s = false → isDeviceMaster c.master = true → ac.route = .fabric →
    inAlias addr.toNat = true → aliasForm addr.toNat size = true → physOf r c s = (some addr.toNat, s) →
    tgt = ocmBase + addr.toNat % 0x10000000 → rangeDenied r c true true [tgt] s = (none, s1) → poisonedIn s1 tgt size = false →
    new = (if addr.toNat < 0x60000000 then readNat s1 tgt size ||| leNat (reqBytes r) else andNot (readNat s1 tgt size) (leNat (reqBytes r))) →
    exec (.ocmAliasWrite ac addr size v false) s = .next (settle 4 { s1 with mem := Memory.setMany s1.mem tgt (leBytes size new) })) ∧
  -- FABRIC_TIMEOUT: 2 ms after issue a write is dropped and its polder has a fault
  (∀ (tag : Nat) (s : State) (t : Txn), s.fabric.find? (fun t => t.tag == tag) = some t → t.squashed = false → t.write = true →
    exec (.fabricTimeout tag) s = .next (settle 4 (polFault t.polder t.block t.unit 3
      { advanceTo (t.issued + 2000000) s with fabric := (advanceTo (t.issued + 2000000) s).fabric.filter (fun t => t.tag != tag) }))) ∧
  -- PCI_COMPLETION_TIMEOUT: 50 ms after issue a PCIe read returns a value that nothing states, and its polder has a fault
  (∀ (tag : Nat) (s : State) (t : Txn), s.fabric.find? (fun t => t.tag == tag) = some t → t.squashed = false → t.pcie = true → t.write = false →
    exec (.pciCompletionTimeout tag) s = .next (settle 4 (polFault t.polder t.block t.unit 3
      (record0 Src.PCI_COMPLETION_TIMEOUT (some t.polder) [t.polder, lo32 t.addr, hi32 t.addr]
        (tookFree { dropTxn tag (advanceTo (t.issued + 50000000) s) with busReply := freeVal 64 (dropTxn tag (advanceTo (t.issued + 50000000) s)) }))))) ∧
  -- PCI_LATE_COMPLETION
  (∀ (tag : Nat) (s : State) (t : Txn), s.fabric.find? (fun t => t.tag == tag && t.squashed) = some t →
    exec (.pciLateCompletion tag) s = .next (settle 4 (record0 Src.PCI_LATE_COMPLETION (some t.polder) [tag]
      { s with fabric := s.fabric.filter (fun t => t.tag != tag) })))

/-- R154, R159, R160, R163 to R165, R171, R173, R208: what flips, commits, latch points and heartbeats do. -/
def Obligations.FlipAndCommitStepsComplete : Prop :=
  -- CMP_FLIP_PUSH to a slot the polder holds: the staged entry waits for validation, the status reads pending
  (∀ (a : Access) (addr : BitVec 40) (v : BitVec 32) (s : State) (p : Nat), isPage addr.toNat = true → pageOff addr.toNat = 0xC28 →
    admitted a addr.toNat v.toNat s = true → p = pageOf addr.toNat → slotOwner s (v.toNat % 64) = p →
    ∃ e : Entry, e.buf0 = rdA s (CMP_FLIP_BUF0_addr p) ∧ e.buf1 = rdA s (CMP_FLIP_BUF1_addr p) ∧ e.fence = rdA s (CMP_FLIP_FENCE_addr p) ∧
      e.target = rd s (CMP_FLIP_TARGET_target p) ∧ e.time = rd s (CMP_FLIP_TIME_time p) ∧
      exec (.cmpFlipPush a addr v) s = .next (settle 4 { wr (CMP_FLIP_STATUS_seq p) 0 (wr (CMP_FLIP_STATUS_slot p) (v.toNat % 64)
        (wr (CMP_FLIP_STATUS_status p) ST_PENDING s)) with dsp := { s.dsp with flips := s.dsp.flips ++ [⟨p, v.toNat % 64, e⟩] } })) ∧
  -- FLIP_VALIDATE of a polder's only waiting flip: queued with the slot's next sequence number, or refused and recorded
  (∀ (p : Fin 32) (s : State) (j : FlipJob), s.dsp.flips = [j] → j.polder = p.val → flipOutcome s p j.slot j.entry = ST_OK →
    exec (.flipValidate p) s = .next (settle 4 (wr (CMP_FLIP_STATUS_seq p) (rd s (CMP_LAYER_LSTAT_next_seq j.slot))
      (wr (CMP_FLIP_STATUS_status p) ST_OK (enqueue j.slot j.entry { s with dsp := { s.dsp with flips := [] } }))))) ∧
  (∀ (p : Fin 32) (s : State) (j : FlipJob), s.dsp.flips = [j] → j.polder = p.val → flipOutcome s p j.slot j.entry ≠ ST_OK →
    exec (.flipValidate p) s = .next (settle 4 (wr (CMP_FLIP_STATUS_seq p) 0 (wr (CMP_FLIP_STATUS_status p) (flipOutcome s p j.slot j.entry)
      (record0 Src.CMP_FLIP_REJECTED (some p.val) [j.slot, flipOutcome s p j.slot j.entry] { s with dsp := { s.dsp with flips := [] } }))))) ∧
  -- CMP_COMMIT: the snapshot of what the doorbell covers waits for validation, and the doorbells are counted
  (∀ (a : Access) (addr : BitVec 40) (v : BitVec 32) (s : State) (p : Nat), isPage addr.toNat = true → pageOff addr.toNat = 0xC40 →
    admitted a addr.toNat v.toNat s = true → p = pageOf addr.toNat → refuses s p = false → (queuedOn s (bits v.toNat 18 16)).length < 8 →
    refuses (incWrap (CMP_COMMIT_COUNT_count p) 1 s) p = false →
    ∃ c : Commit, c.id = bits v.toNat 15 0 ∧ c.polder = some p ∧ c.output = bits v.toNat 18 16 ∧ c.count = rd s (CMP_COMMIT_COUNT_count p) ∧
      exec (.cmpCommit a addr v) s = .next (settle 4 { commitStatus c ST_PENDING 0 none 0 (incWrap (CMP_COMMIT_COUNT_count p) 1 s) with
        dsp := { (commitStatus c ST_PENDING 0 none 0 (incWrap (CMP_COMMIT_COUNT_count p) 1 s)).dsp with
          waiting := (commitStatus c ST_PENDING 0 none 0 (incWrap (CMP_COMMIT_COUNT_count p) 1 s)).dsp.waiting ++ [c] } })) ∧
  -- COMMIT_VALIDATE of the next commit: accepted, or rejected whole with the first failing check
  (∀ (s : State) (c : Commit) (rest : List Commit), s.dsp.waiting = c :: rest → (queuedOn s c.output).length < 8 →
    commitFault { s with dsp := { s.dsp with waiting := rest } } c = none →
    exec .commitValidate s = .next (settle 4 (acceptCommit c (spansChecked c { s with dsp := { s.dsp with waiting := rest } })))) ∧
  (∀ (s : State) (c : Commit) (rest : List Commit) (st : Nat) (at_ : Option Nat), s.dsp.waiting = c :: rest → (queuedOn s c.output).length < 8 →
    commitFault { s with dsp := { s.dsp with waiting := rest } } c = some (st, at_) →
    exec .commitValidate s = .next (settle 4 (record0 Src.CMP_COMMIT_REJECTED c.polder [c.output, c.id, st + 65536 * at_.getD 0]
      (commitStatus c st 3 at_ 0 { s with dsp := { s.dsp with waiting := rest } })))) ∧
  -- LATCH_POINT at the instant of its line prepares the frame after the current one
  (∀ (n : Fin 8) (s : State), running s n = true → (out s n).attested = true → (out s n).latched = false → (out s n).stopDue = false →
    exec (.latchPoint n) s = .next (settle 4 (latch n (((out s n).cur + 1) % 4294967296) (advanceTo (lineTime s n (latchLine s n)) s)))) ∧
  -- LAYER_HEARTBEAT to a slot the polder holds: its time is device time, and a splash slot is Tujan's no more
  (∀ (a : Access) (addr : BitVec 40) (v : BitVec 32) (s : State) (m : Nat), isPage addr.toNat = true → pageOff addr.toNat < 0xC00 →
    pageOff addr.toNat % 0x30 = 0x20 → m = pageOff addr.toNat / 0x30 → admitted a addr.toNat v.toNat s = true → slotOwner s m = pageOf addr.toNat →
    exec (.layerHeartbeat a addr v) s = .next (settle 4 { setSlot m { slot s m with beat := s.devTime } s with
      pwr := { s.pwr with splash := s.pwr.splash.filter (fun n => 56 + n != m) } }))

/-- R148, R150, R163, R170, R171, R187, R195, R199, R200, R464: what the display commands on slots, budgets, latches and scalers do. -/
def Obligations.DisplayCommandsComplete : Prop :=
  -- DSP_GET_LAYER by a reader whom R32 admits to its polder's state
  (∀ (k : Fin 32) (m : Msg) (s : State) (n : Nat), asked Op.DSP_GET_LAYER k m s = true → n = bits (m.word 2) 5 0 →
    Req.mayReadPolder s ⟨k, m⟩ (slotOwner s n) = true →
    exec (.dspGetLayer k) s = .next (answered k m ST_OK ((contentWords n).map (packForce s) ++ [packFlds s (lstatWord n)] ++
      [packForce s [CMP_SLOT_PLACE_output n, CMP_SLOT_PLACE_z n] + 65536 * slotOwner s n, packForce s (clipXY n), packForce s (clipWH n)]) (taken k s))) ∧
  (∀ (k : Fin 32) (m : Msg) (s : State) (n : Nat), asked Op.DSP_GET_OUTPUT_COMMIT k m s = true → n = bits (m.word 2) 2 0 →
    exec (.dspGetOutputCommit k) s = .next (answered k m ST_OK
      [packFlds s [CMP_OUT_LATCH_lookahead n, CMP_OUT_LATCH_berm n, CMP_OUT_LATCH_secure_z n], rd s (CMP_OUT_FETCH_BUDGET_bursts n),
       rd s (CMP_OUT_PIX_BUDGET_pixels n), rd s (CMP_OUT_BGCOLOR_rgb n),
       packFlds s [CMP_OUT_IN_FORCE_id n, CMP_OUT_IN_FORCE_polder n, CMP_OUT_IN_FORCE_device n, CMP_OUT_IN_FORCE_valid n],
       rd s (CMP_OUT_APPLY_FRAME_frame n), rd s (CMP_OUT_QUEUE_count n), rd s (CMP_OUT_FETCH_DEMAND_bursts n), rd s (CMP_OUT_PIX_DEMAND_pixels n)]
      (taken k s))) ∧
  (∀ (k : Fin 32) (m : Msg) (s : State), asked Op.DSP_GET_ENGINES k m s = true → exec (.dspGetEngines k) s = .next (answered k m ST_OK
    [bitmap 32 (engBusy s), rd s CMP_ENG_OFFLINE_engines, rd s CMP_ENG_STEALS_count, rd s CMP_ENG_REQUEUES_count] (taken k s))) ∧
  (∀ (k : Fin 32) (m : Msg) (s : State), asked Op.DSP_GET_SCALER k m s = true → bits (m.word 2) 9 8 ≠ 3 →
    exec (.dspGetScaler k) s = .next (answered k m ST_OK
      ((List.range (min (phaseLimit (bits (m.word 2) 9 8)) (64 - bits (m.word 2) 21 16))).flatMap (fun i =>
        (coefWords (bits (m.word 2) 2 0) (bits (m.word 2) 9 8) (bits (m.word 2) 21 16 + i)).map (packFlds s))) (taken k s))) ∧
  -- the placements: a slot of a polder by the warden, one of polder 0's by its secure world
  (∀ (k : Fin 32) (m : Msg) (s : State) (n : Nat) (fvs : List (Fld × Nat)), asked Op.DSP_SET_SLOT k m s = true → n = bits (m.word 2) 5 0 →
    slotOwner s n ≠ 0 → placementFault (taken k s) n (bits (m.word 2) 11 8) (bits (m.word 2) 20 16) = none →
    fvs = [(CMP_SLOT_PLACE_output n, bits (m.word 2) 11 8), (CMP_SLOT_PLACE_z n, bits (m.word 2) 20 16)] ++
      unpackFlds (m.word 3) (clipXY n) ++ unpackFlds (m.word 4) (clipWH n) →
    commitPasses k m (min 8 (bits (m.word 2) 11 8)) fvs s = true →
    exec (.dspSetSlot k) s = .next (commitMade k m (min 8 (bits (m.word 2) 11 8)) fvs s)) ∧
  (∀ (k : Fin 32) (m : Msg) (s : State) (n : Nat) (fvs : List (Fld × Nat)), asked Op.DSP_SET_SECURE_SLOT k m s = true → n = bits (m.word 2) 5 0 →
    slotOwner s n = 0 → placementFault (taken k s) n (bits (m.word 2) 11 8) (bits (m.word 2) 20 16) = none →
    fvs = [(CMP_SLOT_PLACE_output n, bits (m.word 2) 11 8), (CMP_SLOT_PLACE_z n, bits (m.word 2) 20 16)] ++
      unpackFlds (m.word 3) (clipXY n) ++ unpackFlds (m.word 4) (clipWH n) →
    commitPasses k m (min 8 (bits (m.word 2) 11 8)) fvs s = true →
    exec (.dspSetSecureSlot k) s = .next (commitMade k m (min 8 (bits (m.word 2) 11 8)) fvs s)) ∧
  -- DSP_SET_SECURE_Z on an output that shows no slot of another polder
  (∀ (k : Fin 32) (m : Msg) (s : State), asked Op.DSP_SET_SECURE_Z k m s = true → bits (m.word 2) 12 8 ≤ 24 →
    (slotsOn (projected (taken k s)) (bits (m.word 2) 2 0)).any (fun i => slotOwner s i != 0 &&
      decide (bits (m.word 2) 12 8 ≤ rd (projected (taken k s)) (CMP_SLOT_PLACE_z i).inForce)) = false →
    commitPasses k m (bits (m.word 2) 2 0) [(CMP_OUT_LATCH_secure_z (bits (m.word 2) 2 0), bits (m.word 2) 12 8)] s = true →
    exec (.dspSetSecureZ k) s =
      .next (commitMade k m (bits (m.word 2) 2 0) [(CMP_OUT_LATCH_secure_z (bits (m.word 2) 2 0), bits (m.word 2) 12 8)] s)) ∧
  (∀ (k : Fin 32) (m : Msg) (s : State) (n : Nat), asked Op.DSP_SET_LATCH k m s = true → n = bits (m.word 2) 2 0 →
    bits (m.word 2) 14 8 ∈ [16, 32, 48, 64] → 1 ≤ bits (m.word 2) 20 16 → bits (m.word 2) 20 16 ≤ 16 → modeSet s n = false →
    commitPasses k m n [(CMP_OUT_LATCH_lookahead n, bits (m.word 2) 14 8), (CMP_OUT_LATCH_berm n, bits (m.word 2) 20 16)] s = true →
    exec (.dspSetLatch k) s =
      .next (commitMade k m n [(CMP_OUT_LATCH_lookahead n, bits (m.word 2) 14 8), (CMP_OUT_LATCH_berm n, bits (m.word 2) 20 16)] s)) ∧
  (∀ (k : Fin 32) (m : Msg) (s : State) (n : Nat), asked Op.DSP_SET_BUDGET k m s = true → n = bits (m.word 2) 2 0 →
    (demandOf s n).1 ≤ m.word 3 → (demandOf s n).2 ≤ m.word 4 → (demandOf (projected (taken k s)) n).1 ≤ m.word 3 → (demandOf (projected (taken k s)) n).2 ≤ m.word 4 →
    ceilingsOk (taken k s) n (if running s n then rd s (SCN_RATE_mhz n) else 0) (m.word 3) (m.word 4) = true →
    commitPasses k m n [(CMP_OUT_FETCH_BUDGET_bursts n, m.word 3), (CMP_OUT_PIX_BUDGET_pixels n, m.word 4)] s = true →
    exec (.dspSetBudget k) s =
      .next (commitMade k m n [(CMP_OUT_FETCH_BUDGET_bursts n, m.word 3), (CMP_OUT_PIX_BUDGET_pixels n, m.word 4)] s)) ∧
  (∀ (k : Fin 32) (m : Msg) (s : State), asked Op.DSP_SET_BACKGROUND k m s = true → exec (.dspSetBackground k) s =
    .next (answered k m ST_OK [] (wr (CMP_OUT_BGCOLOR_rgb (bits (m.word 2) 2 0)) (bits (m.word 3) 29 0) (taken k s)))) ∧
  (∀ (k : Fin 32) (m : Msg) (s : State) (n : Nat), asked Op.DSP_SET_COMPOSE k m s = true → n = bits (m.word 2) 2 0 →
    1 ≤ bits (m.word 2) 11 8 → bits (m.word 2) 11 8 ≤ 8 →
    commitPasses k m n [(CMP_OUT_COMPOSE_guard n, bits (m.word 2) 11 8), (CMP_OUT_COMPOSE_dither n, bits (m.word 2) 12 12)] s = true →
    exec (.dspSetCompose k) s =
      .next (commitMade k m n [(CMP_OUT_COMPOSE_guard n, bits (m.word 2) 11 8), (CMP_OUT_COMPOSE_dither n, bits (m.word 2) 12 12)] s)) ∧
  -- DSP_SET_WRITEBACK while the output has no mode
  (∀ (k : Fin 32) (m : Msg) (s : State) (n : Nat) (fvs : List (Fld × Nat)), asked Op.DSP_SET_WRITEBACK k m s = true → n = bits (m.word 2) 31 29 →
    m.word 3 % 64 = 0 → m.word 3 < 65536 → vActive s n = 0 → hActive s n = 0 →
    fvs = [(CMP_OUT_WB_CTRL_enable n, bits (m.word 2) 0 0), (CMP_OUT_WB_CTRL_count n, bits (m.word 2) 2 1), (CMP_OUT_WB_CTRL_polder n, bits (m.word 2) 8 4),
      (CMP_OUT_WB_STRIDE_stride n, m.word 3)] ++ (List.range 4).map (fun i => (CMP_OUT_WB_BASE_addr n i,
        bits (m.word (4 + 2 * i) + 4294967296 * m.word (5 + 2 * i)) 39 6)) →
    commitPasses k m n fvs s = true → exec (.dspSetWriteback k) s = .next (commitMade k m n fvs s)) ∧
  -- DSP_SET_SCALER without apply: the words of k phases of a table
  (∀ (k : Fin 32) (m : Msg) (s : State) (c : Nat), asked Op.DSP_SET_SCALER k m s = true → c = bits (m.word 2) 27 24 → bits (m.word 2) 9 8 ≠ 3 →
    c ≤ phaseLimit (bits (m.word 2) 9 8) → bits (m.word 2) 21 16 + c ≤ 64 → bit (m.word 2) 31 = false →
    exec (.dspSetScaler k) s = .next (answered k m ST_OK []
      ((((List.range c).flatMap (fun i => coefWords (bits (m.word 2) 2 0) (bits (m.word 2) 9 8) (bits (m.word 2) 21 16 + i))).zipIdx).foldl
        (fun s e => writeFlds (m.word (3 + e.2)) e.1 s) (taken k s))))

/-- R175 to R180, R192 to R197, R235, R236: what bands, tiles, engines, the band-tile pool, write-back and scan-out's reads do. -/
def Obligations.TileStepsComplete : Prop :=
  -- BAND_ELIGIBLE with a free group: every tile of the band becomes eligible and its entry's written bit is cleared
  (∀ (n : Fin 8) (b : Fin 512) (s : State) (g : Nat), running s n = true → (out s n).attested = false → b.val < bandCount s n →
    groupOf s n (out s n).prep b = none → tile s n b 0 = none →
    (List.range (lookahead s n / 16 + 2)).find? (fun g => !(out s n).groups.any (fun e => e.1 == g)) = some g →
    ∃ s1, s1 = advanceTo (frameLineTime s n (16 * (b.val : Int) - lookahead s n)) s ∧
      exec (.bandEligible n b) s = .next ((List.range (tilesPerBand s n)).foldl (fun t i => setPool n g i
          { poolEntry t n g i with band := b, written := false }
          (setTile n b i ⟨0, none, 0, bandDeadline s1 n b, [], false, false⟩ t))
        (setGroups n ((out s n).groups ++ [(g, (out s n).prep, b.val)]) s1))) ∧
  -- TILE_DISPATCH: the lowest-numbered idle engine takes the first tile in the order of R176; a tile from away is a steal
  (∀ (s : State) (e d n b t : Nat) (v : Tile), (List.range 32).find? (engIdle s) = some e →
    firstTile (e / 4) (unstarted s) = some (d, n, b, t) → tile s n b t = some v →
    ∃ s1, s1 = wr (CMP_ENG_STAT_epoch e) v.epoch (wr (CMP_ENG_STAT_tile e) t (wr (CMP_ENG_STAT_band e) b (wr (CMP_ENG_STAT_output e) n
        (wr (CMP_ENG_STAT_busy e) 1 (setTile n b t { v with engine := some e, start := s.now, skip := (out s n).drops } s))))) ∧
      exec .tileDispatch s = .next (if n = e / 4 then { s1 with dsp := { s1.dsp with engStart := s1.dsp.engStart.put e s.now } }
        else incWrap CMP_ENG_STEALS_count 1 { s1 with dsp := { s1.dsp with engStart := s1.dsp.engStart.put e s.now } })) ∧
  -- TILE_COMPLETE in time: the pool takes the words, tagged with the frame and the epoch, and the engine is idle again
  (∀ (e : Fin 32) (s s1 s2 : State) (n b t g : Nat) (v : Tile), engBusy s e = true → engTile s e = (n, b, t) → tile s n b t = some v →
    groupOf s n (out s n).prep b = some g → s1 = advanceTo (v.start + cycleTime (tileCost s n b t)) s → s1.now < v.deadline →
    s2 = ((activeLayers s1 n).filter (fun l => !v.skip.contains l.slot)).foldl (fun s l => fetchLayer n b t l s) s1 →
    ∃ skip, skip = v.skip ++ (out s2 n).drops.filter (fun m => !(out s1 n).drops.contains m) ∧
      exec (.tileComplete e) s = .next (settle 4 (engRelease e (setTile n b t { v with engine := none, finished := true, skip := skip }
        (setPool n g t ⟨b, (out s2 n).prep % 256, v.epoch, true, tileWords s2 n skip b t⟩ s2))))) ∧
  -- ENGINE_FAULT, counted within the last second; the third takes the engine out of service
  (∀ (e : Fin 32) (s s1 : State) (ts : List Nat), ts = s.now :: (Tab.get [] s.dsp.engFaults e).filter (fun t => decide (s.now < t + 1000000000)) →
    s1 = resetEngine e (recordReported Src.CMP_ENGINE_FAULT none [e, ts.length] { s with dsp := { s.dsp with engFaults := s.dsp.engFaults.put e ts } }) →
    exec (.engineFault e) s = .next (settle 4 (if 3 ≤ ts.length then orBits CMP_ENG_OFFLINE_engines (2 ^ e.val) s1 else s1))) ∧
  -- ENGINE_WATCHDOG of an engine that holds a tile
  (∀ (e : Fin 32) (s : State), engBusy s e = true → rd s CMP_ENG_WDOG_cycles ≠ 0 → exec (.engineWatchdog e) s =
    .next (settle 4 (resetEngine e (advanceTo (Tab.get 0 s.dsp.engStart e + cycleTime (rd s CMP_ENG_WDOG_cycles + 1)) s)))) ∧
  -- ENGINE_RESET: every engine named is reset
  (∀ (a : Access) (addr : BitVec 40) (v : BitVec 32) (s : State), addr.toNat = 0x20202080 → admitted a addr.toNat v.toNat s = true →
    exec (.engineReset a addr v) s = .next (settle 4 ((idxWhere 32 (bit v.toNat)).foldl (fun s e => resetEngine e s)
      (orBits CMP_ENG_RESET_reset v.toNat s)))) ∧
  -- ENGINE_RETURN: 64 cycles after its reset began
  (∀ (e : Fin 32) (s : State), rdB s (CMP_ENG_STAT_in_reset e) = true → exec (.engineReturn e) s = .next (
    clrBits CMP_ENG_RESET_reset (2 ^ e.val) (wr (CMP_ENG_STAT_in_reset e) 0 (advanceTo (Tab.get 0 s.dsp.engReset e + cycleTime 64) s)))) ∧
  -- LAYER_UNDERRUN of a slot that shows its own buffer on an open tile
  (∀ (n : Fin 8) (b : Fin 512) (t : Fin 32) (m : Fin 64) (s : State) (v : Tile), tile s n b t = some v → v.finished = false → v.abandoned = false →
    v.skip.contains m.val = false → slotActive s m = true → placedOn s m = n → (slot s m).inUse.isSome = true → usesBuffer (slot s m) = true →
    (layerOf s m).format ≠ fmtSolid → (((layerOf s m).visible s).inter (tileRect s n b t)).empty = false →
    exec (.layerUnderrun n b t m) s = .next (settle 4 (dropLayer n m b (setTile n b t { v with skip := v.skip ++ [m.val] }
      (advanceTo (frameLineTime s n (16 * (b.val : Int) - rd s (CMP_OUT_COMPOSE_guard n).inForce)) s))))) ∧
  -- TILE_ABANDONED: a tile open at its deadline
  (∀ (n : Fin 8) (b : Fin 512) (t : Fin 32) (s : State) (v : Tile), tile s n b t = some v → v.finished = false → v.abandoned = false →
    exec (.tileAbandoned n b t) s = .next (settle 4 (abandonTile n b t 1 (advanceTo v.deadline s)))) ∧
  -- TILE_SCAN of a tile whose entry holds the frame's tag: its words pass, and nothing is substituted
  (∀ (n : Fin 8) (s s1 : State) (b t : Nat) (v : Tile) (words : List Nat), running s n = true → (out s n).cur = (out s n).prep →
    (out s n).attested = false → b = (out s n).scanned / max 1 (tilesPerBand s n) → t = (out s n).scanned % max 1 (tilesPerBand s n) →
    tile s n b t = some v → v.finished = true → (out s n).scanned + 1 < tilesPerBand s n * bandCount s n →
    s1 = advanceTo (lineTime s n (16 * b)) s → passedWords s1 n (out s n).cur b t = some words →
    exec (.tileScan n) s = .next (settle 4 (setOut n { out s n with scanned := (out s n).scanned + 1 }
      { s1 with dsp := { s1.dsp with shown := s1.dsp.shown.put (tileKey n b t) words } }))) ∧
  -- WB_BAND_COMPLETE of a band that scan-out has passed whole
  (∀ (n : Fin 8) (b : Fin 512) (s : State) (f : Nat), wbFrame s n b = some f → wbOn s n = true → wbFilled s n f b = false →
    exec (.wbBandComplete n b) s = .next (settle 4 (wbBandDone n f b false false (wbRows n f b s)))) ∧
  -- WB_BAND_DROP at the start of line 16(b + 2): recorded with output, band and frame
  (∀ (n : Fin 8) (b : Fin 512) (s s1 s2 : State) (f : Nat), wbFrame s n b = some f → wbOn s n = true →
    s1 = (if f = (out s n).cur then advanceTo (lineTime s n (16 * (b.val + 2))) s else s) →
    s2 = (if freeBit s1 then wbRows n f b (tookFree s1) else tookFree s1) →
    exec (.wbBandDrop n b) s = .next (settle 4 (record0 Src.CMP_WB_DROP (some (rd s (CMP_OUT_WB_CTRL_polder n).inForce)) [n, b, f]
      (wbBandDone n f b true (wbFilled s1 n f b) s2)))) ∧
  -- POOL_ENTRY_RELEASE of a band that scan-out has read and write-back has done with
  (∀ (n : Fin 8) (b : Fin 512) (s : State) (g f : Nat), (out s n).groups.find? (fun e => e.2.2 == b.val) = some (g, f, b.val) →
    (b.val + 1) * tilesPerBand s n ≤ (out s n).scanned → wbOn s n = false →
    exec (.poolEntryRelease n b) s = .next (setGroups n ((out s n).groups.filter (fun e => e.1 != g)) s))

/-- R211, R213, R215 to R227: what region comparison, motion and AUTO reads, attestation and the dike-watch doorbells do. -/
def Obligations.DikeWatchStepsComplete : Prop :=
  -- REGION_COMPARE of an enabled region whose last band scan-out has passed, where the comparison is no breach
  (∀ (n : Fin 8) (r : Fin 16) (s s1 : State) (st used : Nat), running s n = true → (out s n).cur = (out s n).prep → (out s n).attested = false →
    regionOn s n r = true → (region s n r).compared = false →
    ((regionRect s n r).y1.toNat - 1) / 16 * tilesPerBand s n + tilesPerBand s n ≤ (out s n).scanned →
    s1 = advanceTo (lineTime s n (regionRect s n r).y1.toNat) s →
    regionStatus s1 n r (regionSignature s1 n r) = (st, used) → st ∉ [2, 4, 5, 6] →
    exec (.regionCompare n r) s = .next (settle 4 (wr (DKW_OUT_REG_STAT_status n r) st (wr (DKW_OUT_REG_LAST_sig n r) (regionSignature s1 n r)
      (putRegion n r { region s1 n r with compared := true, used := used } s1))))) ∧
  -- ATTEST_RECORD of a frame with every tile scanned and every region compared
  (∀ (n : Fin 8) (s : State), running s n = true → (out s n).cur = (out s n).prep → (out s n).attested = false →
    tilesPerBand s n * bandCount s n ≤ (out s n).scanned → (regionsOn s n).all (fun r => (region s n r).compared) = true →
    exec (.attestRecord n) s = .next (settle 4 (attest n (advanceTo (lineTime s n (vActive s n)) s)))) ∧
  -- MOTION_READ_DONE of a permitted read: the signature, and the run of equal ones
  (∀ (m : Fin 64) (s s1 : State) (e : Entry) (f : Nat) (sig : BitVec 32), (slot s m).reading = some f → (slot s m).inUse = some e →
    fetchCheck (slotOwner s m) (motionRanges s (layerOf s m) e) s = (0, s1) →
    sig.toNat = crc32c ((motionRanges s (layerOf s m) e).flatMap (fun r => devBytes s1 (slotOwner s m) r.1 r.2)) →
    exec (.motionReadDone m) s = .next (settle 4 (wr (DKW_SLOT_STATE_run m)
      (if (slot s m).sig = some sig.toNat then satAdd 8 (rd s1 (DKW_SLOT_STATE_run m)) 1 else 1)
      (setSlot m { slot s1 m with reading := none, sig := some sig.toNat } s1)))) ∧
  -- AUTO_READ_DONE of a permitted read: the expected signature of R218
  (∀ (n : Fin 8) (r : Fin 16) (s s1 : State) (e : Entry), (slot s (regionSlot s n r)).inUse = some e → (region s n r).auto = 1 →
    (region s n r).compared = false →
    fetchCheck (slotOwner s (regionSlot s n r)) (fetchRanges (layerOf s (regionSlot s n r)) e (regionRect s n r)) s = (0, s1) →
    exec (.autoReadDone n r) s = .next (putRegion n r { region s n r with auto := 2, expected := some (autoSignature s1 n r e) } s1)) ∧
  -- EXPECT_PUSH to a region with room for a pair
  (∀ (a : Access) (addr : BitVec 40) (v : BitVec 32) (s : State) (n r : Nat), regionReg addr.toNat 0x10 = some (n, r) →
    admitted a addr.toNat v.toNat s = true → (region s n r).pairs.length < 4 →
    exec (.expectPush a addr v) s = .next (settle 4 (wr (DKW_OUT_REG_EXPECT_STAT_queued n r) ((region s n r).pairs.length + 1)
      (putRegion n r { region s n r with pairs := (region s n r).pairs ++ [(rd s (DKW_OUT_REG_EXPECT_value n r), v.toNat)] } s)))) ∧
  -- DKW_BREACH_CLEAR: the bits written 1 that are set clear at the next latch point
  (∀ (a : Access) (addr : BitVec 40) (v : BitVec 32) (s : State) (n : Nat), dkwOutReg addr.toNat 0 = some n → admitted a addr.toNat v.toNat s = true →
    exec (.dkwBreachClear a addr v) s = .next (settle 4 ((idxWhere 16 (fun r => bit v.toNat r && bit (rd s (DKW_OUT_BREACH_region n)) r)).foldl
      (fun s r => putRegion n r { region s n r with clearing := true } s) s))) ∧
  -- DKW_RELEARN: the regions named learn from the frame of R164
  (∀ (a : Access) (addr : BitVec 40) (v : BitVec 32) (s : State) (n : Nat), dkwOutReg addr.toNat 4 = some n → admitted a addr.toNat v.toNat s = true →
    exec (.dkwRelearn a addr v) s = .next (settle 4 ((idxWhere 16 (bit v.toNat)).foldl (fun t r => putRegion n r { region t n r with
      relearn := some (effectFrame s n) } t) (orBits (DKW_OUT_RELEARN_region n) (v.toNat % 65536) s)))) ∧
  -- DKW_KEY_LOAD: the key registers are taken into use, and every chain restarts
  (∀ (a : Access) (addr : BitVec 40) (v : BitVec 32) (s : State), addr.toNat = 0x20240020 → admitted a addr.toNat v.toNat s = true → bit v.toNat 0 = true →
    exec (.dkwKeyLoad a addr v) s = .next (settle 4 (record0 Src.DKW_KEY_LOADED (some 0) [] (restartChains 2 (wr DKW_KEY_CTRL_keyed 1
      { s with dsp := { s.dsp with key := (List.range 8).flatMap (fun k => leBytes 4 (rd s (DKW_KEY_key k))) } }))))) ∧
  -- DKW_RING_ENABLE from 0 to 1: base and size take effect, the indices are zeroed, the chains restart
  (∀ (a : Access) (addr : BitVec 40) (v : BitVec 32) (s : State), addr.toNat = 0x20240038 → admitted a addr.toNat v.toNat s = true → bit v.toNat 16 = true →
    ringSizeOk (bits v.toNat 14 0) = true → rdB s DKW_RING_CTRL_enable = false → exec (.dkwRingEnable a addr v) s = .next (settle 4
      (restartChains 3 (wr DKW_RING_RD_index 0 (wr DKW_RING_WR_index 0 (takeEffect [DKW_RING_BASE_base, DKW_RING_CTRL_size]
        (wrB DKW_RING_CTRL_enable true (wr DKW_RING_CTRL_size (bits v.toNat 14 0) s)))))))) ∧
  -- DKW_HEAD_SNAP: every output's frame and mac latched, with the device time
  (∀ (a : Access) (addr : BitVec 40) (v : BitVec 32) (s : State), addr.toNat = 0x20240050 → admitted a addr.toNat v.toNat s = true → bit v.toNat 0 = true →
    exec (.dkwHeadSnap a addr v) s = .next (settle 4 (headSnap s))) ∧
  -- DKW_IMAGE_WRITE of the SIZE word of an image that no configuration refers to
  (∀ (a : Access) (addr : BitVec 40) (v : BitVec 32) (s : State) (i : Nat), i < 16 → addr.toNat = 0x20240400 + 0x10 * i + 8 →
    admitted a addr.toNat v.toNat s = true → imageHeld s i = false →
    exec (.dkwImageWrite a addr v) s = .next (settle 4 (writeFlds v.toNat [DKW_IMG_SIZE_w i, DKW_IMG_SIZE_h i] s)))

/-- R201, R213, R214, R220, R222, R224, R225, R229, R464: what the dike-watch commands do. -/
def Obligations.DikeWatchCommandsComplete : Prop :=
  (∀ (k : Fin 32) (m : Msg) (s : State) (n : Nat), asked Op.DKW_GET_LAYER k m s = true → n = bits (m.word 2) 5 0 →
    Req.mayReadPolder s ⟨k, m⟩ (slotOwner s n) = true → exec (.dkwGetLayer k) s = .next (answered k m ST_OK
      [packForce s (classWord n), rd s (DKW_SLOT_MAXAGE_us n).inForce, rd s (DKW_SLOT_HBPERIOD_us n).inForce, packForce s (motionXY n),
       packForce s (motionWH n), rd s (DKW_SLOT_BLANK_rgb n).inForce,
       packFlds s [DKW_SLOT_STATE_state n, DKW_SLOT_STATE_action n, DKW_SLOT_STATE_dropped n, DKW_SLOT_STATE_run n], rd s (DKW_SLOT_AGE_us n)]
      (taken k s))) ∧
  (∀ (k : Fin 32) (m : Msg) (s : State) (n r : Nat), asked Op.DKW_GET_REGION k m s = true → n = bits (m.word 2) 2 0 → r = bits (m.word 2) 11 8 →
    exec (.dkwGetRegion k) s = .next (answered k m ST_OK [packForce s (regionXY n r), packForce s (regionWH n r), packForce s (regionCtrl n r),
      rd s (DKW_OUT_REG_LAST_sig n r), rd s (DKW_OUT_REG_STAT_status n r), (region s n r).used] (taken k s))) ∧
  (∀ (k : Fin 32) (m : Msg) (s : State), asked Op.DKW_GET_RING k m s = true → exec (.dkwGetRing k) s = .next (answered k m ST_OK
    [packFlds s [DKW_RING_CTRL_size, DKW_RING_CTRL_enable], rd s DKW_RING_WR_index, rd s DKW_RING_RD_index, rd s DKW_RING_OVERRUN_count,
     rd s DKW_KEY_CTRL_keyed] (taken k s))) ∧
  -- the classes of a placed slot: of a polder's by the warden, which may give LIVE but not SUPERVISED, of any by the secure world
  (∀ (k : Fin 32) (m : Msg) (s : State) (n : Nat), asked Op.DKW_SET_LAYER_LIVE k m s = true → n = bits (m.word 2) 5 0 → slotOwner s n ≠ 0 →
    bits (m.word 3) 1 0 ≠ 2 → projectedOutput (taken k s) n < 8 →
    commitPasses k m (projectedOutput (taken k s) n) (classValues ⟨k, m⟩ n) s = true →
    exec (.dkwSetLayerLive k) s = .next (commitMade k m (projectedOutput (taken k s) n) (classValues ⟨k, m⟩ n) s)) ∧
  (∀ (k : Fin 32) (m : Msg) (s : State) (n : Nat), asked Op.DKW_SET_SECURE_LAYER k m s = true → n = bits (m.word 2) 5 0 →
    slotOwner s n = 0 ∨ bits (m.word 3) 1 0 ≠ 2 → projectedOutput (taken k s) n < 8 →
    commitPasses k m (projectedOutput (taken k s) n) (classValues ⟨k, m⟩ n) s = true →
    exec (.dkwSetSecureLayer k) s = .next (commitMade k m (projectedOutput (taken k s) n) (classValues ⟨k, m⟩ n) s)) ∧
  (∀ (k : Fin 32) (m : Msg) (s : State) (n r : Nat) (fvs : List (Fld × Nat)), asked Op.DKW_SET_REGION k m s = true → n = bits (m.word 2) 2 0 →
    r = bits (m.word 2) 11 8 → fvs = unpackFlds (m.word 3) (regionXY n r) ++ unpackFlds (m.word 4) (regionWH n r) ++
      unpackFlds (m.word 5) (regionCtrl n r) →
    commitPasses k m n fvs s = true → exec (.dkwSetRegion k) s = .next (commitMade k m n fvs s)) ∧
  -- DKW_SET_IMAGE of an image that no configuration refers to: emptied by a width of 0, or set where it is valid
  (∀ (k : Fin 32) (m : Msg) (s : State) (i : Nat), asked Op.DKW_SET_IMAGE k m s = true → i = bits (m.word 2) 3 0 → imageHeld (taken k s) i = false →
    bits (m.word 5) 13 0 = 0 → exec (.dkwSetImage k) s = .next (answered k m ST_OK [] (wr (DKW_IMG_FMT_stride i) (bits (m.word 6) 31 16)
      (wr (DKW_IMG_FMT_format i) (bits (m.word 6) 5 0) (wr (DKW_IMG_SIZE_h i) (bits (m.word 5) 29 16) (wr (DKW_IMG_SIZE_w i) 0
        (wr (DKW_IMG_ADDR_addr i) (bits (m.word 3 + 4294967296 * m.word 4) 39 6) (taken k s)))))))) ∧
  (∀ (k : Fin 32) (m : Msg) (s : State), asked Op.DKW_SET_KEY k m s = true → exec (.dkwSetKey k) s = .next (answered k m ST_OK []
    (loadKey ((List.range 8).foldl (fun s i => wr (DKW_KEY_key i) (m.word (2 + i)) s) (taken k s))))) ∧
  -- DKW_SET_RING with a size of Table DKW-10 over secure-class memory of polder 0
  (∀ (k : Fin 32) (m : Msg) (s : State) (base : Nat), asked Op.DKW_SET_RING k m s = true → base = bits (m.word 2 + 4294967296 * m.word 3) 39 12 →
    ringSizeOk (bits (m.word 4) 14 0) = true → rangeSecureK0 (taken k s) (base * 4096) (256 * bits (m.word 4) 14 0) = true →
    exec (.dkwSetRing k) s = .next (answered k m ST_OK [] (wr DKW_STREAM_rec (bits (m.word 5) 15 8) (wr DKW_STREAM_onl (bits (m.word 5) 7 0)
      (ringControl ⟨9, 0, true⟩ 0x20240038 (m.word 4) (wr DKW_RING_BASE_base base (taken k s)))))))

/-- R233, R234, R239, R241, R242, R245 to R248: what VSYNC, FLIP, the steps of a mode set, hot plug and link maintenance do. -/
def Obligations.ScanOutStepsComplete : Prop :=
  -- VSYNC of a frame that no line has been inserted into
  (∀ (n : Fin 8) (s : State), running s n = true → (out s n).attested = true → (out s n).vsynced = false → (out s n).stopDue = false →
    stretchLines s n = 0 → exec (.vsync n) s = .next (settle 4 (vsync n (advanceTo (lineTime s n (vsyncStart s n)) s)))) ∧
  -- FLIP in video mode: line 0 follows the last line of the frame
  (∀ (n : Fin 8) (s : State), running s n = true → (out s n).vsynced = true → (out s n).latched = true → cmdMode s n = false →
    exec (.flip n) s = .next (settle 4 (flip n (anchorAt n (vTotal s n) 0 (out s n).inc (advanceTo (lineTime s n (vTotal s n)) s))))) ∧
  -- TEARING_EFFECT_EDGE: the transfer of the frame starts
  (∀ (n : Fin 8) (s : State), running s n = true → waitsTe s n = true → (out s n).vsynced = true → (out s n).latched = true →
    (out s n).te = false → exec (.tearingEffectEdge n) s =
      .next (setOut n { out (anchorNow n 0 (out s n).inc s) n with te := true } (anchorNow n 0 (out s n).inc s))) ∧
  -- MODE_TIMING_STOP: the old timing stops, and the output is configured or switched off
  (∀ (n : Fin 8) (s : State) (j : Option Job) (ws : List Nat), (out s n).stopDue = true → (out s n).mode = some (j, ws) →
    exec (.modeTimingStop n) s = .next (settle 4 (if bit (modeWord ws 2) 3 then configure n ws (stopTiming n s) else switchOff n j (stopTiming n s)))) ∧
  -- MODE_TIMING_START of a configured output, its frame counter going on
  (∀ (n : Fin 8) (trained : Bool) (s s1 s2 s4 : State), (out s n).configured = true → running s n = false → s1 = advanceTo (startTime s n) s →
    s2 = anchorNow n (vsyncStart s1 n) (incNow s1 n) (wr (SCN_STATUS_running n) 1 s1) →
    s4 = (if lockOn s n then setLockState n 1 else id) (vsync n (setOut n { out s2 n with
      cur := frameCounter s n, prep := frameCounter s n, attested := true, vsynced := false, latched := false, te := false, stopDue := false, lockRun := 0 } s2)) →
    exec (.modeTimingStart n trained) s = .next (settle 4 ((if trained && sinkPresent s4 n then setLink n true else id)
      (record (Src.SCN_OUT n) 5 none [frameCounter s4 n, 1] s4)))) ∧
  -- HPD_POLL: each reading is taken up in turn; a level held for 100 ms that differs from the known one connects or disconnects
  (∀ (reads : List (Fin 6 × HpdRead × Trained)) (s : State), exec (.hpdPoll reads) s =
    .next (settle 4 (reads.foldl (fun s r => hpdRead r.1 r.2.1 (trainedAt r.2.2) s) s))) ∧
  (∀ (n : Nat) (us : Nat) (k : SinkInfo) (t : Option (Nat × Nat)) (s : State), 100000 ≤ us → sinkPresent s n = true →
    hpdRead n (.level false us k) t s = setLink n false (hotplug n false false (wr (SCN_STATUS_sink n) 0 (setOut n { out s n with sink := none } s)))) ∧
  -- LINK_STATUS_POLL of a running output with a sink: a link that is lost, or still down, is retrained
  (∀ (n : Fin 6) (lost : Bool) (t : Trained) (s : State), running s n = true → sinkPresent s n = true → exec (.linkStatusPoll n lost t) s =
    .next (settle 4 (if lost || !rdB s (SCN_STATUS_link_up n) then relink n (trainedAt t) (pumpRan 6 100000000 s)
      else pumpRan 6 100000000 s)))

/-- R230 to R232, R236, R238, R240 to R244, R248, R249, R253, R254: what the scan-out commands do. -/
def Obligations.ScanOutCommandsComplete : Prop :=
  -- DSP_SET_MODE, valid, of an output without a mode: pending, and configured once answered
  (∀ (k : Fin 32) (m : Msg) (s : State) (n : Nat) (ws : List Nat), asked Op.DSP_SET_MODE k m s = true → n = bits (m.word 2) 2 0 →
    ws = (List.range 9).map (fun i => m.word (i + 2)) → bit (m.word 2) 3 = true → (out s n).mode = none → modeMalformed ws = false →
    modeSet s n = false → running s n = false → modeFault (taken k s) n ws = none →
    exec (.dspSetMode k) s = .next (settle 4 (configure n ws (reply ⟨k, Msg.opcode m, Msg.seq m⟩ ST_PENDING []
      (setOut n { out s n with mode := some (some ⟨k, Msg.opcode m, Msg.seq m⟩, ws) } (taken k s)))))) ∧
  -- DSP_SET_LOCK that enables lock without stretch on an output with no mode
  (∀ (k : Fin 32) (m : Msg) (s s1 : State) (n : Nat), asked Op.DSP_SET_LOCK k m s = true → n = bits (m.word 2) 2 0 → bit (m.word 2) 3 = true →
    bit (m.word 2) 4 = false → rd s (SCN_RATE_mhz n) = 0 → modeSet s n = false → schedConflict s n (bits (m.word 2) 31 16) (m.word 3) 0 = false →
    cmdModeComing s n = false →
    s1 = tookFree (wr (SCN_LOCK_PHASE_ns n) (m.word 3) (wr (SCN_LOCK_CTRL_group n) (bits (m.word 2) 31 16) (wr (SCN_LOCK_CTRL_max_stretch n)
      (bits (m.word 4) 13 0) (wrB (SCN_LOCK_CTRL_method n) false (wrB (SCN_LOCK_CTRL_enable n) true (taken k s)))))) →
    exec (.dspSetLock k) s = .next (answered k m ST_OK [] (if lockState s1 n = 0 then setLockState n 1 s1 else s1))) ∧
  (∀ (k : Fin 32) (m : Msg) (s : State), asked Op.DSP_SET_FILL k m s = true → exec (.dspSetFill k) s =
    .next (answered k m ST_OK [] (wr (SCN_FILL_rgb (bits (m.word 2) 2 0)) (bits (m.word 3) 29 0) (taken k s)))) ∧
  -- DSP_GET_OUTPUT, its second half
  (∀ (k : Fin 32) (m : Msg) (s : State) (n : Nat), asked Op.DSP_GET_OUTPUT k m s = true → n = bits (m.word 2) 2 0 → bit (m.word 2) 8 = true →
    exec (.dspGetOutput k) s = .next (answered k m ST_OK [rd s (SCN_PACE_INC_frac n), rd s (SCN_PACE_INC_int n), rd s (SCN_FILL_rgb n),
      (if running s n then (rasterPos s n).1 + 65536 * (rasterPos s n).2 else 0), rd s (SCN_LINK_DELAY_ns n), rd s (SCN_LOCK_PHASE_ns n),
      rd s (SCN_LOCK_ERR_ns n), lo32 (rd s (SCN_LOCK_TARGET_time n)), hi32 (rd s (SCN_LOCK_TARGET_time n)),
      packFlds s [SCN_LOCK_CTRL_enable n, SCN_LOCK_CTRL_method n, SCN_LOCK_CTRL_max_stretch n, SCN_LOCK_CTRL_group n]] (taken k s))) ∧
  -- DSP_GET_SINK with a sink known: its properties, and its EDID into the buffer
  (∀ (k : Fin 32) (m : Msg) (s : State) (n : Nat) (sk : Sink), asked Op.DSP_GET_SINK k m s = true → n = bits (m.word 2) 2 0 →
    (out s n).sink = some sk → exec (.dspGetSink k) s = .next (answered k m ST_OK
      [rd s (SCN_STATUS_sink n) + (2 * sk.rate + 32 * sk.lanes + 256 * b2n sk.dsc + 512 * b2n sk.varTotal)]
      (devPut 0 (Req.bufAddr ⟨k, m⟩ - n) (sk.edid.take (Req.bufSize ⟨k, m⟩)) (taken k s))))

/-- R256, R263, R264, R270 to R272, R274, R278: what each packet does where its context stands at it, and that the scheduler then runs. -/
def Obligations.PacketsComplete : Prop :=
  (∀ (p : Fin 32) (w : Fin 16) (ws : List Nat) (s t : State), packetAt 0 (winKey p w) ws s t →
    exec (.nop p w) s = .next (settle 4 (gfxSchedule t))) ∧
  -- CALL: the buffer named by words 1 to 3 is executed before the rest of this one
  (∀ (p : Fin 32) (w : Fin 16) (ws : List Nat) (s t : State), packetAt 1 (winKey p w) ws s t → exec (.call p w) s = .next (settle 4 (gfxSchedule
    (setGfxWin (winKey p w) { gfxWin t (winKey p w) with pos := (bits (twoWord ws 0) 39 2 * 4, ws.getD 2 0, 0) :: (gfxWin t (winKey p w)).pos } t)))) ∧
  (∀ (p : Fin 32) (w : Fin 16) (ws : List Nat) (s t : State), packetAt 2 (winKey p w) ws s t →
    exec (.state p w) s = .next (settle 4 (gfxSchedule t))) ∧
  -- DRAW outside a render pass makes one unit and bins nothing
  (∀ (p : Fin 32) (w : Fin 16) (d : DrawWork) (ws : List Nat) (s t : State), packetAt 3 (winKey p w) ws s t → exec (.draw p w d) s =
    .next (settle 4 (gfxSchedule (gfxUnits (winKey p w) 1 (gfxBin (winKey p w) d t))))) ∧
  -- DISPATCH: a batch for each 4,096 workgroups, where every count is from 1 to 65,535
  (∀ (p : Fin 32) (w : Fin 16) (ws : List Nat) (s t : State), packetAt 4 (winKey p w) ws s t →
    ws.all (fun c => decide (1 ≤ c) && decide (c ≤ 65535)) = true → exec (.dispatch p w) s = .next (settle 4 (gfxSchedule
      (gfxUnits (winKey p w) (ceilDiv (ws.getD 0 0 * ws.getD 1 0 * ws.getD 2 0) 4096) t)))) ∧
  (∀ (p : Fin 32) (w : Fin 16) (ws : List Nat) (s t : State), packetAt 5 (winKey p w) ws s t → exec (.renderBegin p w) s =
    .next (settle 4 (gfxSchedule (setGfxWin (winKey p w) { gfxWin t (winKey p w) with inPass := true, passBytes := 0 } t)))) ∧
  -- RENDER_END: the tiles are to be rendered; with none the pass ends at once
  (∀ (p : Fin 32) (w : Fin 16) (tiles : Nat) (cs : List FastClear) (ws : List Nat) (s t t1 : State), packetAt 6 (winKey p w) ws s t →
    t1 = setGfxWin (winKey p w) { gfxWin t (winKey p w) with ending := some (bit (ws.getD 0 0) 0, cs.map clearOf) } t →
    exec (.renderEnd p w tiles cs) s = .next (settle 4 (gfxSchedule (if tiles = 0 then passEnd (winKey p w) t1 else gfxUnits (winKey p w) tiles t1)))) ∧
  -- WAIT_GE whose word already holds the value goes on; else the context waits
  (∀ (p : Fin 32) (w : Fin 16) (ws bs : List Nat) (s t t1 : State), packetAt 7 (winKey p w) ws s t →
    devRead (gfxEng (winKey p w)) (bits (twoWord ws 0) 39 3 * 8) 8 t = (0, bs, t1) → exec (.waitGe p w) s = .next (settle 4 (gfxSchedule
      (if twoWord ws 2 ≤ leNat bs then t1 else setGfxWin (winKey p w) { gfxWin t1 (winKey p w) with
        wait := some (bits (twoWord ws 0) 39 3 * 8, twoWord ws 2, if ws.getD 4 0 = 0 then none else some (t1.now + 1000 * ws.getD 4 0)) } t1)))) ∧
  -- WRITE64 and TIMESTAMP: one checked write of 8 bytes
  (∀ (p : Fin 32) (w : Fin 16) (ws : List Nat) (s t t1 : State), packetAt 8 (winKey p w) ws s t →
    devWrite (gfxEng (winKey p w)) (bits (twoWord ws 0) 39 3 * 8) (leBytes 8 (twoWord ws 2)) t = (0, t1) →
    exec (.write64 p w) s = .next (settle 4 (gfxSchedule t1))) ∧
  (∀ (p : Fin 32) (w : Fin 16) (ws : List Nat) (s t t1 : State), packetAt 9 (winKey p w) ws s t →
    devWrite (gfxEng (winKey p w)) (bits (twoWord ws 0) 39 3 * 8) (leBytes 8 t.devTime) t = (0, t1) →
    exec (.timestamp p w) s = .next (settle 4 (gfxSchedule t1))) ∧
  -- RESIDENCY_INV: what was read of the map named, or of all of them, is forgotten
  (∀ (p : Fin 32) (w : Fin 16) (ws : List Nat) (s t : State), packetAt 10 (winKey p w) ws s t → exec (.residencyInv p w) s = .next (settle 4 (gfxSchedule
    (setGfxWin (winKey p w) { gfxWin t (winKey p w) with
      cache := if bits (twoWord ws 0) 39 6 * 64 = 0 then [] else (gfxWin t (winKey p w)).cache.filter (fun e => e.1 != bits (twoWord ws 0) 39 6 * 64) } t)))) ∧
  (∀ (p : Fin 32) (w : Fin 16) (ws : List Nat) (s t : State), packetAt 11 (winKey p w) ws s t →
    exec (.barrier p w) s = .next (settle 4 (gfxSchedule t)))

/-- R260 to R262, R264 to R266, R268, R279: what the doorbell, boundaries, waits, completions and faults of the graphics unit do. -/
def Obligations.GraphicsStepsComplete : Prop :=
  -- GFX_DOORBELL with a legal length to a bound window with room: the submission is queued with the next number
  (∀ (a : Access) (addr : BitVec 40) (v : BitVec 32) (s : State) (k len : Nat), gfxWindowAt addr.toNat 0x20 = some k → domainOn s 2 = true →
    admitted a addr.toNat v.toNat s = true → bit v.toNat 0 = true → refuses s (k / 16) = false → quietening s = false →
    (gfxWin s k).context.isSome = true → len = rd s (GFX_CTX_SUB_LEN_bytes (k / 16) (k % 16)) → len ≠ 0 → len % 4 = 0 → (gfxWin s k).queue.length < 64 →
    exec (.gfxDoorbell a addr v) s = .next (settle 4 (gfxSchedule (wr (GFX_CTX_DB_STATUS_number (k / 16) (k % 16)) (gfxWin s k).next
      (wr (GFX_CTX_DB_STATUS_status (k / 16) (k % 16)) ST_OK (setGfxWin k { gfxWin s k with
        next := nextNumber (gfxWin s k).next, queue := (gfxWin s k).queue ++ [⟨rdA s (GFX_CTX_SUB_ADDR_addr (k / 16) (k % 16)), len, rdB s (GFX_CTX_SUB_LEN_irq (k / 16) (k % 16)),
          rdA s (GFX_CTX_SUB_FENCE_addr (k / 16) (k % 16)), rd s (GFX_CTX_SUB_VALUE_value (k / 16) (k % 16)), (gfxWin s k).next⟩] } s)))))) ∧
  -- GFX_BOUNDARY of a unit that is not the packet's last: its clusters are free, and the scheduler runs
  (∀ (p : Fin 32) (w : Fin 16) (c : BitVec 16) (work : List GfxAccess) (s s1 : State), (gfxWin s (winKey p w)).todo ≠ 0 → c.toNat ≠ 0 →
    (gfxWin s (winKey p w)).clusters &&& c.toNat = c.toNat → gfxAccesses (winKey p w) work s = (0, s1) → 2 ≤ (gfxWin s1 (winKey p w)).todo →
    exec (.gfxBoundary p w c work) s = .next (settle 4 (gfxSchedule (setGfxWin (winKey p w) { gfxWin s1 (winKey p w) with
      todo := (gfxWin s1 (winKey p w)).todo - 1, clusters := andNot (gfxWin s1 (winKey p w)).clusters c.toNat, since := s1.now } s1)))) ∧
  -- GFX_SUBMISSION_DONE of a submission without a fence or an interrupt: its number is done
  (∀ (p : Fin 32) (w : Fin 16) (s : State) (a len off : Nat) (q : GfxSub) (rest : List GfxSub), gfxReady s (winKey p w) = true →
    gfxPos (gfxWin s (winKey p w)) = [(a, len, off)] → (gfxWin s (winKey p w)).queue = q :: rest → len / 4 ≤ off →
    (gfxWin s (winKey p w)).inPass = false → q.fence = 0 → q.irq = false → exec (.gfxSubmissionDone p w) s = .next (settle 4 (gfxSchedule
      (wr (GFX_CTX_DONE_number p w) q.number (setGfxWin (winKey p w) { gfxWin s (winKey p w) with queue := rest, pos := [] } s))))) ∧
  -- WAIT_GE_MET: the value is reached, and the context waits no more
  (∀ (p : Fin 32) (w : Fin 16) (s s1 : State) (a v x : Nat) (t : Option Nat), (gfxWin s (winKey p w)).wait = some (a, v, t) →
    gfxPoll (winKey p w) a s = (0, x, s1) → v ≤ x → exec (.waitGeMet p w) s = .next (settle 4 (gfxSchedule
      (setGfxWin (winKey p w) { gfxWin s1 (winKey p w) with wait := none } s1)))) ∧
  -- WAIT_GE_TIMEOUT with the value still not reached: the context faults with reason 9
  (∀ (p : Fin 32) (w : Fin 16) (s s1 : State) (a v x t : Nat), (gfxWin s (winKey p w)).wait = some (a, v, some t) →
    gfxPoll (winKey p w) a (advanceTo t s) = (0, x, s1) → x < v → exec (.waitGeTimeout p w) s =
      .next (settle 4 (gfxSchedule (gfxStop (winKey p w) 9 s1)))) ∧
  -- GFX_WATCHDOG of a context that holds clusters
  (∀ (p : Fin 32) (w : Fin 16) (s s1 : State), (gfxWin s (winKey p w)).clusters ≠ 0 →
    s1 = advanceTo ((gfxWin s (winKey p w)).since + 1000000 * rd s GFX_WDOG_ms) s → exec (.gfxWatchdog p w) s = .next (settle 4 (gfxSchedule
      (gfxStop (winKey p w) 6 (record0 Src.GFX_WATCHDOG (some p.val) [w, (gfxWin s (winKey p w)).clusters] s1))))) ∧
  -- GFX_CLUSTER_FAULT: the context using the cluster stops with reason 5
  (∀ (c : Fin 16) (s : State) (k : Nat) (rest : List Nat), gfxWhere s (fun g => bit g.clusters c) = k :: rest → exec (.gfxClusterFault c) s =
    .next (settle 4 (gfxSchedule (gfxStop k 5 s))))

/-- R258, R262, R266, R267, R269, R270, R279, R282: what the graphics commands do. -/
def Obligations.GraphicsCommandsComplete : Prop :=
  (∀ (k : Fin 32) (m : Msg) (s : State), asked Op.GFX_GET_INFO k m s = true → exec (.gfxGetInfo k) s =
    .next (answered k m ST_OK [16 + 256 * 48, reserveWord s, rd s GFX_RT_ALLOW_polders] (taken k s))) ∧
  (∀ (k : Fin 32) (m : Msg) (s : State) (p w : Nat), asked Op.GFX_GET_CONTEXT k m s = true → p = bits (m.word 2) 4 0 → w = bits (m.word 2) 11 8 →
    Req.mayReadPolder s ⟨k, m⟩ p = true → exec (.gfxGetContext k) s = .next (answered k m ST_OK [gfxStatWord s (16 * p + w),
      rd s (GFX_CTX_DONE_number p w), rd s (GFX_CTX_FAULT_reason p w) + 256 * rd s (GFX_CTX_FAULT_offset p w), rd s (GFX_CTX_FAULT_SUB_number p w),
      rd s (GFX_CTX_SPILLS_count p w), rd s (GFX_CTX_NONRES_count p w), rd s (GFX_CTX_TESS_CLAMP_count p w), rd s (GFX_CTX_PEAK_kib p w),
      rd s (GFX_AREA_first p) + 512 * rd s (GFX_AREA_count p)] (taken k s))) ∧
  -- GFX_CTX_SETUP of a compute context of the sender's on a free window
  (∀ (k : Fin 32) (m : Msg) (s : State) (p c key save : Nat), asked Op.GFX_CTX_SETUP k m s = true → Req.polder ⟨k, m⟩ = some p →
    c = bits (m.word 2) 7 0 → key = 16 * p + bits (m.word 2) 11 8 → bit (m.word 2) 12 = true → bits (m.word 2) 14 13 ≠ 3 →
    save = (m.word 3 + 4294967296 * m.word 4) % 2 ^ 40 → grantee s 2 c = p → (gfxWin s key).context = none → save % 4096 = 0 →
    spanOwned s p [] (save, save + 262143) = true → exec (.gfxCtxSetup k) s = .next (answered k m ST_OK []
      (setGfxWin key { GfxWin.empty with context := some c, compute := true, prio := bits (m.word 2) 14 13, save := save } (taken k s)))) ∧
  -- the commands on a bound window of the sender's
  (∀ (k : Fin 32) (m : Msg) (s : State) (p key : Nat), asked Op.GFX_CTX_SET_PRIORITY k m s = true → Req.polder ⟨k, m⟩ = some p →
    key = 16 * p + bits (m.word 2) 3 0 → (gfxWin s key).context.isSome = true → bits (m.word 2) 9 8 ≠ 3 → exec (.gfxCtxSetPriority k) s =
      .next (answered k m ST_OK [] (gfxSchedule (setGfxWin key { gfxWin s key with newPrio := some (bits (m.word 2) 9 8) } (taken k s))))) ∧
  (∀ (k : Fin 32) (m : Msg) (s : State) (p key : Nat), asked Op.GFX_CTX_RESTART k m s = true → Req.polder ⟨k, m⟩ = some p →
    key = 16 * p + bits (m.word 2) 3 0 → (gfxWin s key).context.isSome = true → (gfxWin s key).stopped = true → exec (.gfxCtxRestart k) s =
      .next (answered k m ST_OK [] (gfxSchedule (setGfxWin key { gfxWin s key with
        stopped := false,
        queue := if bit (m.word 2) 8 then [] else (gfxWin s key).queue.tail, pos := [], inPass := false, passBytes := 0, ending := none,
        saved := false } (taken k s))))) ∧
  (∀ (k : Fin 32) (m : Msg) (s : State) (p key : Nat), asked Op.GFX_CTX_RELEASE k m s = true → Req.polder ⟨k, m⟩ = some p →
    key = 16 * p + bits (m.word 2) 3 0 → (gfxWin s key).context.isSome = true → (gfxWin s key).queue = [] → exec (.gfxCtxRelease k) s =
      .next (answered k m ST_OK [] (gfxSchedule (setGfxWin key GfxWin.empty (taken k s))))) ∧
  -- GFX_SET_AREA of a polder other than 0 without queued graphics work
  (∀ (k : Fin 32) (m : Msg) (s : State) (p : Nat), asked Op.GFX_SET_AREA k m s = true → p = bits (m.word 2) 4 0 → p ≠ 0 →
    areaOk s p (bits (m.word 2) 15 8) (bits (m.word 2) 24 16) = true → (gfxContexts s p).any (fun j => !(gfxWin s j).queue.isEmpty) = false →
    exec (.gfxSetArea k) s = .next (answered k m ST_OK [] (wr (GFX_AREA_count p) (bits (m.word 2) 24 16)
      (wr (GFX_AREA_first p) (bits (m.word 2) 15 8) (taken k s))))) ∧
  (∀ (k : Fin 32) (m : Msg) (s : State), asked Op.GFX_SET_RESERVE k m s = true → bits (m.word 2) 3 0 ≤ 8 → exec (.gfxSetReserve k) s =
    .next (answered k m ST_OK [] (gfxSchedule (wr GFX_RESERVE_count (bits (m.word 2) 3 0) (taken k s))))) ∧
  (∀ (k : Fin 32) (m : Msg) (s : State), asked Op.GFX_SET_RT k m s = true → exec (.gfxSetRt k) s =
    .next (answered k m ST_OK [] (rtLowered (wr GFX_RT_ALLOW_polders (m.word 2 ||| 1) (taken k s))))) ∧
  (∀ (k : Fin 32) (m : Msg) (s : State), asked Op.GFX_SET_SECURE_FLOOR k m s = true → bits (m.word 2) 3 0 ≤ 8 → exec (.gfxSetSecureFloor k) s =
    .next (answered k m ST_OK [] (gfxSchedule (wr GFX_RESERVE_floor (bits (m.word 2) 3 0) (taken k s)))))

/-- R283, R285, R286, R290, R295, R297, R299, R301 to R304, R306 to R310: what codec doorbells, units, rows, pictures and captures do. -/
def Obligations.CodecStepsComplete : Prop :=
  -- VCD_DOORBELL of an open session of the page's polder, with room and a range it owns
  (∀ (a : Access) (addr : BitVec 40) (x : BitVec 32) (s : State) (p k n : Nat) (v : VcdSes), sesReg addr.toNat 0x0C = some (p, k) → k < 64 →
    domainOn s 3 = true → admitted a addr.toNat x.toNat s = true → sesPolder s k = p → bit x.toNat 0 = true → ses s k = some v →
    refuses s p = false → quietening s = false → v.closing = none → v.writeBack = false → v.queue.length < 32 → v.encode = false →
    n = rd s (VCD_SES_LEN_bytes k) → (n = 0 ∨ spanOwned s p [] (rd s (VCD_SES_ADDR_addr k), rd s (VCD_SES_ADDR_addr k) + n - 1) = true) →
    exec (.vcdDoorbell a addr x) s = .next (settle 4 (wr (VCD_SES_DB_STATUS_number k) (v.next % 65536) (wr (VCD_SES_DB_STATUS_status k) ST_OK
      (setSes k (some { v with
        next := (v.next + 1) % 2 ^ 32,
        queue := v.queue ++ [⟨rd s (VCD_SES_ADDR_addr k), n, rdB s (VCD_SES_LEN_eos k), rdB s (VCD_SES_LEN_discont k),
          rdB s (VCD_SES_LEN_key k), rd s (VCD_SES_TS_ts k), v.next, s.now⟩] }) s))))) ∧
  -- VCD_UNIT_START: an idle engine takes the decode unit that the choice of R285 falls on
  (∀ (e : Fin 16) (ready : List ReadyUnit) (s s1 : State) (c : UnitChoice), vcdIdle s e = true → chooseUnit ready (starve ready s) = some (c, s1) →
    c.encode = false → exec (.vcdUnitStart e ready) s = .next (settle 4 (startDecode e c s1))) ∧
  -- VCD_UNIT_DONE of a decode unit: its blocks written, and after the last the picture is decoded
  (∀ (e : Fin 16) (c : Bool) (blocks : List CodedBlock) (s s1 : State) (k : Nat) (p p1 : VcdPic) (u ep : Nat) (v : VcdSes),
    engineUnit s e = some (k, p, u, ep) → ses s k = some v → v.encode = false →
    blocks.foldl (fun rs b => writeBlock k v p.pool b rs) (readUnit k v p s) = (0, s1) →
    p1 = { p.left s e with finished := p.finished + 1, concealed := p.concealed || c } →
    exec (.vcdUnitDone e (.done c blocks)) s = .next (settle 4 (sesCloseDue (if p1.finished = p1.units then
      decoded k p1 (putPic k p1 (engineFree e s1)) else putPic k p1 (engineFree e s1))))) ∧
  -- VCD_ENG_RESET: every engine named is reset, its unit requeued or its picture lost
  (∀ (a : Access) (addr : BitVec 40) (v : BitVec 32) (s : State), addr.toNat = 0x2040000C → admitted a addr.toNat v.toNat s = true →
    exec (.vcdEngReset a addr v) s = .next (settle 4 ((idxWhere 16 (bit v.toNat)).foldl (fun s e => vcdEngineReset e s) s))) ∧
  -- VCD_PIC_WATCHDOG: the oldest picture with units running is lost, at 6 engine cycles for each luma sample
  (∀ (k : Fin 64) (s : State) (v : VcdSes) (p : VcdPic), ses s k = some v → v.pics.find? (fun p => !p.running.isEmpty) = some p →
    exec (.vcdPicWatchdog k) s = .next (settle 4 (loseP k p (advanceTo (s.now +
      ceilDiv ((6 * p.luma + 1 - picCycles s p) * 100000) (73728 * p.running.length)) s)))) ∧
  -- VCD_PICTURE_OUTPUT of a waiting pool picture: queued to every bound slot that the polder still holds
  (∀ (k : Fin 64) (i : Fin 24) (s s1 : State) (v : VcdSes) (x : PoolPic) (ms : List Nat), sesRuns s k = some v →
    v.pool.find? (fun x => x.idx == i.val && x.waiting) = some x → ms = v.slots.filter (fun m => slotOwner s m == sesPolder s k) →
    s1 = setSes k (some { v with pool := v.pool.map (fun y => if y.idx == i.val then { y with waiting := false } else y) }) s →
    exec (.vcdPictureOutput k i) s = .next (settle 4 (ms.foldl (fun s m => queueToSlot k v x m s)
      (if ms.isEmpty then s1 else noteLateness k x.time s1)))) ∧
  -- ENC_ROW_START: an idle engine takes the encode row that the choice of R285 falls on
  (∀ (e : Fin 16) (ready : List ReadyUnit) (s s1 s2 : State) (c : UnitChoice) (v w : VcdSes) (p : VcdPic) (rest : List VcdPic),
    vcdIdle s e = true → chooseUnit ready s = some (c, s1) → c.encode = true → ses s1 c.session = some v → s2 = beginEncode c.session v s1 →
    ses s2 c.session = some w → w.pics = p :: rest → exec (.encRowStart e ready) s = .next (settle 4 (startRow e c.session c.unit p s2))) ∧
  -- ENC_ROW_DONE: rows end in order, once the picture has its time
  (∀ (e : Fin 16) (slice params : List (BitVec 8)) (s : State) (k r ep : Nat) (p : VcdPic) (v : VcdSes), engineUnit s e = some (k, p, r, ep) →
    ses s k = some v → v.encode = true → r = p.finished → p.time.isSome = true → exec (.encRowDone e slice params) s = .next (settle 4
      (sesCloseDue (rowDone e k r p (slice.map (fun b => b.toNat)) (params.map (fun b => b.toNat)) s)))) ∧
  -- ENC_RING_RESUME once the gap chunk fits: it counts the pictures lost, and the next picture is a key picture
  (∀ (k : Fin 64) (s : State) (v : VcdSes), ses s k = some v → v.full = true → v.stopped = false → chunkFits s k v 32 = true →
    exec (.encRingResume k) s = .next (settle 4 (sesStopIf k (putChunk k v
      (chunkBytes 4 k 0 false false false false (freeVal 64 s) (leBytes 4 v.lost))
      (setSes k (some { v with full := false, lost := 0, keyPend := true }) (tookFree s)))))) ∧
  -- VCD_KEYREQ of an encode session of the page's polder
  (∀ (a : Access) (addr : BitVec 40) (x : BitVec 32) (s : State) (p k : Nat) (v : VcdSes), sesReg addr.toNat 0x2C = some (p, k) → k < 64 →
    admitted a addr.toNat x.toNat s = true → sesPolder s k = p → bit x.toNat 0 = true → ses s k = some v → v.encode = true →
    exec (.vcdKeyreq a addr x) s = .next (settle 4 (setSes k (some { v with keyPend := true }) s))) ∧
  -- CAP_PICTURE_DONE with no free buffer: dropped and counted
  (∀ (c : Fin 4) (ago : Nat) (lines : List (List (Fin 1024 × Fin 1024 × Fin 1024))) (s s1 : State), capQueues s c = true → capFree s c = none →
    s1 = incSat (CAP_COUNTS_dropped c) 1 s → exec (.capPictureDone c ago lines) s =
      .next (settle 4 (record0 Src.CAP_DROP (some (capPolder s c)) [c, rd s1 (CAP_COUNTS_dropped c)] s1))) ∧
  -- and with a free buffer and room in the slot: queued for the slot, with its time
  (∀ (c : Fin 4) (ago : Nat) (lines : List (List (Fin 1024 × Fin 1024 × Fin 1024))) (s s1 : State) (i : Nat), capQueues s c = true →
    capFree s c = some i → capWrite c i (lines.map (fun l => l.map (fun x => (x.1.val, x.2.1.val, x.2.2.val)))) s = (0, s1) →
    (slot s1 (capSlot s c)).pending.length < 4 → ∃ e : Entry, e.buf0 = rdA s1 (CAP_BUF_addr c i).inForce ∧ e.stamp = some (s1.devTime - ago) ∧
      e.origin = 65 + c ∧ e.tag = i ∧ exec (.capPictureDone c ago lines) s = .next (settle 4 (incWrap (CAP_COUNTS_queued c) 1
        (wr (CAP_TIME_time c) (s1.devTime - ago) (setSlot (capSlot s c) { slot (enqueue (capSlot s c) e s1) (capSlot s c) with
          beat := (enqueue (capSlot s c) e s1).devTime } (enqueue (capSlot s c) e s1)))))) ∧
  -- CAP_SIGNAL that locks a supported source without encryption on an input that had none
  (∀ (c : Fin 4) (src : CapSource) (s : State), src.locked = true → src.hdcp = false → rdB s (CAP_STATUS_signal c) = false →
    exec (.capSignal c src) s = .next (settle 4 (wr (CAP_RATE_mhz c) src.mhz.toNat (wr (CAP_TIMING_v c) src.v.toNat (wr (CAP_TIMING_h c) src.h.toNat
      (wr (CAP_STATUS_format c) (capCode src.format) (wrB (CAP_STATUS_unsupported c) (capCode src.format == 0) (wrB (CAP_STATUS_hdcp c) false
        (wrB (CAP_STATUS_signal c) true s)))))))))

/-- R107, R284, R288, R295, R299, R301, R308, R310: what the codec and capture commands do. -/
def Obligations.CodecCommandsComplete : Prop :=
  (∀ (k : Fin 32) (m : Msg) (s : State), asked Op.VCD_GET_INFO k m s = true → exec (.vcdGetInfo k) s =
    .next (answered k m ST_OK [rd s VCD_LOAD_DEC_samples, rd s VCD_LOAD_ENC_samples, rd s VCD_ENG_OFFLINE_engines] (taken k s))) ∧
  (∀ (k : Fin 32) (m : Msg) (s : State) (n : Nat) (v : VcdSes), asked Op.VCD_GET_SESSION k m s = true → n = bits (m.word 2) 5 0 →
    Req.mayReadPolder s ⟨k, m⟩ (sesPolder s n) = true → ses s n = some v → exec (.vcdGetSession k) s =
      .next (answered k m ST_OK ((List.range 8).map (fun i => v.desc.getD i 0) ++ [sesStatWord s n, v.crop]) (taken k s))) ∧
  -- the opens, of a descriptor that passes every check
  (∀ (k : Fin 32) (m : Msg) (s s1 : State) (p n : Nat) (v : VcdSes), asked Op.VCD_OPEN_DECODE k m s = true → Req.polder ⟨k, m⟩ = some p →
    v = descOf ⟨k, m⟩ s → n = bits (v.word 0) 5 0 → sesPolder s n = p → ses s n = none → descOk false v = true →
    loadSum s false + v.load ≤ 3981312000 * 1000 → sesBufferOk s p v = true → encodeSourceOk s p v = true → v.encode = false →
    s1 = wr (VCD_SES_RING_RD_offset n) 0 (wr (VCD_SES_RING_WR_offset n) 0 (wr (VCD_SES_DONE_number n) 0 (wr (VCD_SES_STAT_grain n) 0
      (wr (VCD_SES_STAT_starved n) 0 (setSes n (some v) (taken k s)))))) →
    exec (.vcdOpenDecode k) s = .next (answered k m ST_OK [] (wr VCD_LOAD_ENC_samples (loadSum s1 true / 1000)
      (wr VCD_LOAD_DEC_samples (loadSum s1 false / 1000) s1)))) ∧
  (∀ (k : Fin 32) (m : Msg) (s s1 : State) (p n : Nat) (v : VcdSes), asked Op.VCD_OPEN_ENCODE k m s = true → Req.polder ⟨k, m⟩ = some p →
    v = descOf ⟨k, m⟩ s → n = bits (v.word 0) 5 0 → sesPolder s n = p → ses s n = none → descOk true v = true →
    loadSum s true + v.load ≤ 3981312000 * 1000 → sesBufferOk s p v = true → encodeSourceOk s p v = true → v.subframe = false →
    s1 = wr (VCD_SES_RING_RD_offset n) 0 (wr (VCD_SES_RING_WR_offset n) 0 (wr (VCD_SES_DONE_number n) 0 (wr (VCD_SES_STAT_grain n) 0
      (wr (VCD_SES_STAT_starved n) 0 (setSes n (some v) (taken k s)))))) →
    exec (.vcdOpenEncode k) s = .next (answered k m ST_OK [] (wr VCD_LOAD_ENC_samples (loadSum s1 true / 1000)
      (wr VCD_LOAD_DEC_samples (loadSum s1 false / 1000) s1)))) ∧
  -- the commands on an open session of the sender's
  (∀ (k : Fin 32) (m : Msg) (s : State) (p n : Nat) (v : VcdSes), asked Op.VCD_CLOSE k m s = true → Req.polder ⟨k, m⟩ = some p →
    n = bits (m.word 2) 5 0 → sesPolder s n = p → ses s n = some v → v.closing = none → exec (.vcdClose k) s = .next (settle 4 (sesCloseDue
      (reply ⟨k, Msg.opcode m, Msg.seq m⟩ ST_PENDING [] (setSes n (some { v with
        closing := some ⟨k, Msg.opcode m, Msg.seq m⟩, queue := v.queue.take v.begun }) (taken k s)))))) ∧
  (∀ (k : Fin 32) (m : Msg) (s : State) (p n : Nat) (v : VcdSes) (ms : List Nat), asked Op.VCD_BIND_SLOTS k m s = true → Req.polder ⟨k, m⟩ = some p →
    n = bits (m.word 2) 5 0 → sesPolder s n = p → ses s n = some v → v.encode = false → bits (m.word 2) 10 8 ≤ 4 →
    ms = (List.range (bits (m.word 2) 10 8)).map (fun i => m.word 3 / 64 ^ i % 64) → ms.all (fun x => slotOwner s x == p) = true →
    exec (.vcdBindSlots k) s = .next (answered k m ST_OK [] (setSes n (some { v with slots := ms }) (taken k s)))) ∧
  (∀ (k : Fin 32) (m : Msg) (s : State) (p n : Nat) (v : VcdSes), asked Op.VCD_RESTART k m s = true → Req.polder ⟨k, m⟩ = some p →
    n = bits (m.word 2) 5 0 → sesPolder s n = p → ses s n = some v → v.stopped = true → exec (.vcdRestart k) s =
      .next (answered k m ST_OK [] (sesRelease n (setSes n (some { v with
        stopped := false, pics := [], bands := [], keyPend := v.keyPend || v.encode,
        pool := v.pool.filter (fun x => !v.pics.any (fun p => p.pool == x.idx)), begun := max v.begun (min 1 v.queue.length) }) (taken k s))))) ∧
  (∀ (k : Fin 32) (m : Msg) (s : State) (c : Nat), asked Op.CAP_GET_INPUT k m s = true → c = bits (m.word 2) 1 0 → bit (m.word 2) 8 = false →
    exec (.capGetInput k) s = .next (answered k m ST_OK ([capCtrl s c, rd s (CAP_DELAY_us c), rd s (CAP_STRIDE_stride c), capStatus s c,
      rd s (CAP_TIMING_h c) + 65536 * rd s (CAP_TIMING_v c), rd s (CAP_RATE_mhz c)] ++ twoWords (rd s (CAP_TIME_time c)) ++
      [rd s (CAP_COUNTS_queued c) + 65536 * rd s (CAP_COUNTS_dropped c)]) (taken k s))) ∧
  -- CAP_SET_INPUT that disables an input
  (∀ (k : Fin 32) (m : Msg) (s s1 : State) (c : Nat) (addrs : List Nat), asked Op.CAP_SET_INPUT k m s = true → c = bits (m.word 2) 31 30 →
    bit (m.word 2) 0 = false → m.word 4 < 65536 → m.word 4 % 64 = 0 →
    addrs = (List.range 4).map (fun i => (m.word (5 + 2 * i) + 4294967296 * m.word (6 + 2 * i)) % 2 ^ 40) →
    (addrs.take (bits (m.word 2) 9 8 + 1)).any (fun a => a % 64 != 0) = false →
    s1 = takeEffect (capFields c) ((List.range 4).foldl (fun s i => wr (CAP_BUF_addr c i) (addrs.getD i 0 / 64) s) (wr (CAP_STRIDE_stride c) (m.word 4)
      (wr (CAP_DELAY_us c) (m.word 3) (wr (CAP_CTRL_present c) (bits (m.word 2) 10 10) (wr (CAP_CTRL_buffers c) (bits (m.word 2) 9 8)
        (wr (CAP_CTRL_slot c) (bits (m.word 2) 6 1) (wrB (CAP_CTRL_enable c) false (taken k s)))))))) →
    exec (.capSetInput k) s = .next (answered k m ST_OK [] (wrB (CAP_STATUS_stopped c) (rdB s (CAP_STATUS_hdcp c) && rdB s (CAP_STATUS_signal c)) s1)))

/-- R313 to R316, R325 to R328, R382: what audio blocks, lock observations, packets and the audio doorbells do. -/
def Obligations.AudioStepsComplete : Prop :=
  -- AUD_BLOCK of an enabled domain that is not halted: 64 samples counted; what was ready goes out next, what is computed becomes ready
  (∀ (d : Fin 3) (rx : List (Fin 256 × List (BitVec 32))) (slips : List (Fin 8 × Bool)) (s s1 s2 s4 : State) (outs : List (Nat × List Int)),
    rdB s (AUD_DOM_CTRL_enable d).inForce = true →
    s1 = wr (AUD_DOM_SAMPLES_count d) (rd s (AUD_DOM_SAMPLES_count d) + 64) (advanceTo (sampleTime s d (rd s (AUD_DOM_SAMPLES_count d) + 64)) s) →
    audHalted s1 = false → s2 = mediaBlock d (audSend d rx (slips.foldl (slipped d) s1)) →
    audBlocks d rx s2.aud.outside (bridgeRange d s2) = (outs, s4) →
    exec (.audBlock d rx slips) s = .next (settle 4 (tookFrees 32768 (setAud (fun a => { a with
      out := a.out.filter (fun e => chanDomain s4 e.1 true != d.val) ++ a.ready.filter (fun e => chanDomain s4 e.1 true == d.val),
      ready := a.ready.filter (fun e => chanDomain s4 e.1 true != d.val) ++ outs }) s4)))) ∧
  -- AUD_SWAP with a staged program and no swap: begun for the next boundary, a crossfade where the budget carries both programs
  (∀ (a : Access) (addr : BitVec 40) (v : BitVec 32) (s : State) (p : Nat) (g : AudProg), isPage addr.toNat = true → pageOff addr.toNat = 0x3100 →
    admitted a addr.toNat v.toNat s = true → p = pageOf addr.toNat → audBudget s p ≠ 0 → bit v.toNat 0 = true → bits v.toNat 2 1 = 0 →
    polState s p ≠ 2 → (audPol s p).staged = some g → (audPol s p).swap = none → exec (.audSwap a addr v) s = .next (settle 4
      (setAudPol p { audPol s p with swap := some ⟨s.now, 0, [], none⟩ } (wr (AUD_SWAP_STATUS_state p) 1 (wr (AUD_SWAP_STATUS_status p) ST_BUSY s))))) ∧
  -- AUD_GAIN_WRITE: the gain that the next block ramps to
  (∀ (a : Access) (addr : BitVec 40) (v : BitVec 32) (s : State) (p : Nat), isPage addr.toNat = true → 0x3400 ≤ pageOff addr.toNat →
    pageOff addr.toNat < 0x3800 → admitted a addr.toNat v.toNat s = true → p = pageOf addr.toNat → audBudget s p ≠ 0 →
    exec (.audGainWrite a addr v) s = .next (settle 4 (wr (AUD_GAIN_gain p ((pageOff addr.toNat - 0x3400) / 4)) v.toNat s))) ∧
  -- AUD_RING_ENABLE of a port that was disabled
  (∀ (a : Access) (addr : BitVec 40) (v : BitVec 32) (s : State) (p r : Nat), isPage addr.toNat = true → ringAt (pageOff addr.toNat) = some r →
    admitted a addr.toNat v.toNat s = true → p = pageOf addr.toNat → audBudget s p ≠ 0 → bit v.toNat 0 = true →
    rdB s (AUD_RING_CFG_enable p r) = false → 128 ≤ bits v.toNat 31 12 →
    exec (.audRingEnable a addr v) s = .next (settle 4 (ringCfg p r v.toNat s))) ∧
  -- AUD_METER_CLR: the meters named read 0
  (∀ (a : Access) (addr : BitVec 40) (v : BitVec 32) (s : State) (p : Nat), isPage addr.toNat = true → pageOff addr.toNat = 0x3200 →
    admitted a addr.toNat v.toNat s = true → p = pageOf addr.toNat → audBudget s p ≠ 0 →
    exec (.audMeterClr a addr v) s = .next (settle 4 (clearMeters p v.toNat s))) ∧
  -- AUD_DOMAIN_LOCK: 100 ms in range lock a slaved domain; out of range, or without edges, it loses lock
  (∀ (d : Fin 3) (v : BitVec 16) (s : State) (t : Nat), d ≠ 0 → rdB s (AUD_DOM_CTRL_enable d).inForce = true → (sgn 16 v.toNat).natAbs ≤ 10000 →
    rdB s (AUD_DOM_STAT_locked d) = false → Tab.get none s.aud.since d = some t → exec (.audDomainLock d (some v)) s = .next (settle 4
      (domainEvent d (wr (AUD_DOM_STAT_locked d) 1 (wr (AUD_DOM_STAT_offset d) v.toNat (rebaseDomain d (advanceTo (t + 100000000) s))))))) ∧
  (∀ (d : Fin 3) (s : State), d ≠ 0 → rdB s (AUD_DOM_CTRL_enable d).inForce = true → rdB s (AUD_DOM_STAT_locked d) = true →
    exec (.audDomainLock d none) s = .next (settle 4 (domainEvent d (wr (AUD_DOM_STAT_locked d) 0 (setAud (fun a => { a with since := a.since.put d none }) s))))) ∧
  -- AES67_PACKET_RX of a receive stream, in time: held until it is due
  (∀ (i : Fin 16) (t : BitVec 64) (frames : List (List (BitVec 32))) (s : State) (a : Aes67) (l : Nat),
    s.net.aes.find? (fun a => !a.tx && a.index == i.val) = some a → l = t.toNat + a.offsetNs → s.devTime ≤ l → domainOn s 6 = true →
    exec (.aes67PacketRx i t frames) s = .next { s with net := { s.net with aes := s.net.aes.map (fun x => if !x.tx && x.index == i.val then
      { a with held := a.held ++ [(l, frames.map (fun f => f.map (fun v => sgn 32 v.toNat)))], due := some (a.due.getD l) } else x) } })

/-- R313, R316 to R319, R324 to R326, R329, R337, R382: what the audio commands do. -/
def Obligations.AudioCommandsComplete : Prop :=
  (∀ (k : Fin 32) (m : Msg) (s : State), asked Op.AUD_GET_INFO k m s = true → exec (.audGetInfo k) s =
    .next (answered k m ST_OK ((List.range 3).map (domCtrl s) ++ (List.range 3).map (domStat s) ++ [audLoadWord s]) (taken k s))) ∧
  (∀ (k : Fin 32) (m : Msg) (s : State) (p : Nat) (g : AudProg), asked Op.AUD_GET_PROGRAM k m s = true → p = bits (m.word 2) 4 0 →
    Req.mayReadPolder s ⟨k, m⟩ p = true → (audPol s p).active = some g → (audPol s p).staged = none → exec (.audGetProgram k) s =
      .next (answered k m ST_OK [packFlds s [AUD_PROG_STAT_active p, AUD_PROG_STAT_staged p, AUD_PROG_STAT_cost p], g.crc, 0, g.paths.length / 3]
        (taken k s))) ∧
  (∀ (k : Fin 32) (m : Msg) (s : State) (p : Nat) (g : AudProg), asked Op.AUD_GET_PATHS k m s = true → p = bits (m.word 2) 4 0 →
    Req.mayReadPolder s ⟨k, m⟩ p = true → (audPol s p).active = some g → (wordsBytes g.paths).length ≤ Req.bufSize ⟨k, m⟩ →
    exec (.audGetPaths k) s = .next (answered k m ST_OK [] (devPut 0 (Req.bufAddr ⟨k, m⟩ - p) (wordsBytes g.paths) (taken k s)))) ∧
  -- AUD_LOAD_PROGRAM of an image that passes every check of R324
  (∀ (k : Fin 32) (m : Msg) (s : State) (p : Nat) (head img : List Nat) (g : AudProg), asked Op.AUD_LOAD_PROGRAM k m s = true →
    Req.polder ⟨k, m⟩ = some p → (audPol s p).swap = none →
    head = leWords (min 24 (Req.bufSize ⟨k, m⟩ / 4)) (readBytes s (Req.bufAddr ⟨k, m⟩) (min 96 (Req.bufSize ⟨k, m⟩))) →
    img = head ++ (leWords (min (Req.bufSize ⟨k, m⟩ / 4) (readNat s (Req.bufAddr ⟨k, m⟩ + 8) 4 / 4)) (readBytes s (Req.bufAddr ⟨k, m⟩)
      (min (Req.bufSize ⟨k, m⟩) (readNat s (Req.bufAddr ⟨k, m⟩ + 8) 4)))).drop head.length →
    headerFault img (Req.bufSize ⟨k, m⟩) = none → g = imgProg img → firstOffset (bodyFaults img g) = none → domainFault s p img g = none →
    taintFails g = false → imgCost img g = g.cost → g.cost ≤ audBudget s p →
    (((List.range 32).flatMap (fun o => (audPol s o).active.toList ++ (if o = p then [] else (audPol s o).staged.toList))).map progWords).sum +
      progWords g ≤ 262144 →
    exec (.audLoadProgram k) s = .next (answered k m ST_OK [] (record0 Src.AUD_PROGRAM_LOADED (some p) [g.crc, g.cost]
      (progStat p (setAudPol p { audPol s p with staged := some g } (taken k s)))))) ∧
  (∀ (k : Fin 32) (m : Msg) (s : State) (p : Nat), asked Op.AUD_UNLOAD k m s = true → Req.polder ⟨k, m⟩ = some p → (audPol s p).swap = none →
    bit (m.word 2) 0 = false → exec (.audUnload k) s =
      .next (answered k m ST_OK [] (progStat p (setAudPol p { audPol s p with staged := none } (taken k s))))) ∧
  (∀ (k : Fin 32) (m : Msg) (s s1 : State) (p b src dst : Nat), asked Op.AUD_SET_BRIDGE k m s = true → Req.polder ⟨k, m⟩ = some p →
    b = bits (m.word 2) 4 0 → src = bits (m.word 2) 10 9 → dst = bits (m.word 2) 12 11 → grantee s 4 (192 + b) = p →
    (audProgs s p).any (fun g => progUses g (192 + b)) = false → src ≠ dst → src ≠ 3 → dst ≠ 3 →
    s1 = takeEffect (brgFlds b) (wr (AUD_BRG_CFG_dst b) dst (wr (AUD_BRG_CFG_src b) src (wr (AUD_BRG_CFG_enable b) (bits (m.word 2) 8 8) (taken k s)))) →
    exec (.audSetBridge k) s = .next (answered k m ST_OK [] (wr (AUD_BRG_CFG_offset b) (satSgn 16 (bridgeOffset s1 b)) s1))) ∧
  (∀ (k : Fin 32) (m : Msg) (s : State) (p u i o : Nat), asked Op.AUD_SET_SIDETONE k m s = true → Req.polder ⟨k, m⟩ = some p →
    u = bits (m.word 2) 2 0 → i = bits (m.word 2) 14 8 → o = bits (m.word 2) 22 16 → grantee s 4 i = p → grantee s 4 o = p →
    chanDomain s i false = 0 → chanDomain s o true = 0 → exec (.audSetSidetone k) s = .next (answered k m ST_OK [] (wr (AUD_ST_CFG_enable u)
      (bits (m.word 2) 23 23) (wr (AUD_ST_CFG_gain u) (bits (m.word 3) 7 0) (wr (AUD_ST_CFG_out u) o (wr (AUD_ST_CFG_in u) i (taken k s))))))) ∧
  -- AUD_SET_DOMAIN of a slaved domain that nothing runs in and that was enabled
  (∀ (k : Fin 32) (m : Msg) (s : State) (d : Nat), asked Op.AUD_SET_DOMAIN k m s = true → d = bits (m.word 2) 1 0 → d ≠ 0 → d ≠ 3 →
    bits (m.word 2) 4 3 ≠ 0 → 32000 ≤ m.word 3 → m.word 3 ≤ 192000 → domainUsed s d = false → rdB (rebaseDomain d (taken k s)) (AUD_DOM_CTRL_enable d).inForce = true →
    exec (.audSetDomain k) s = .next (answered k m ST_OK [] (setAud (fun a => { a with since := a.since.put d none }) (wr (AUD_DOM_STAT_offset d) 0
      (wr (AUD_DOM_STAT_locked d) 0 (takeEffect (domFlds d) (wr (AUD_DOM_CTRL_rate d) (m.word 3) (wr (AUD_DOM_CTRL_ref d) (bits (m.word 2) 4 3)
        (wr (AUD_DOM_CTRL_enable d) (bits (m.word 2) 2 2) (rebaseDomain d (taken k s))))))))))) ∧
  -- AUD_SET_TDM in the primary domain
  (∀ (k : Fin 32) (m : Msg) (s : State) (p v : Nat), asked Op.AUD_SET_TDM k m s = true → p = bits (m.word 2) 2 0 → v = bits (m.word 2) 27 16 →
    bits v 2 1 = 0 → 1 ≤ bits v 7 3 → bits v 7 3 ≤ 16 → bits v 9 8 ≠ 3 → bits v 7 3 * rd s (AUD_DOM_CTRL_rate 0).inForce ≤ 768000 →
    exec (.audSetTdm k) s = .next (answered k m ST_OK [] (takeEffect (tdmFlds p) (writeFlds v (tdmFlds p) (taken k s))))) ∧
  (∀ (k : Fin 32) (m : Msg) (s : State), asked Op.AUD_SET_AES67 k m s = true → mediaDomainOk s (bits (m.word 2) 1 0) = true →
    exec (.audSetAes67 k) s = .next (answered k m ST_OK [] (takeEffect [AUD_AES67_CFG_domain] (wr AUD_AES67_CFG_domain (bits (m.word 2) 1 0) (taken k s))))) ∧
  -- NET_SET_AES67 with one stream whose channels lie in 128 to 191 and whose link offset is from 0.25 to 20 ms
  (∀ (k : Fin 32) (m : Msg) (s : State) (e : Aes67), asked Op.NET_SET_AES67 k m s = true → Req.bufSize ⟨k, m⟩ = 32 → e = aesEntry ⟨k, m⟩ s 0 →
    128 ≤ e.first → e.first + e.count ≤ 192 → 250000 ≤ e.offsetNs → e.offsetNs ≤ 20000000 →
    mediaDomainOk s (rd s AUD_AES67_CFG_domain.inForce) = true → exec (.netSetAes67 k) s =
      .next (answered k m ST_OK [] { taken k s with net := { (taken k s).net with aes := [e] } }))

/-- R331 to R337: what triggers, control samples, the ends of overdrive and braking, faults and the haptic commands do. -/
def Obligations.HapticsComplete : Prop :=
  -- HAP_TRIGGER of a channel the polder holds: the trigger of the table's entry, with its outcome in HAP_TRIG_STATUS
  (∀ (a : Access) (addr : BitVec 40) (v : BitVec 32) (s s1 : State) (p c k st : Nat), isPage addr.toNat = true → pageOff addr.toNat = 0x4400 →
    admitted a addr.toNat v.toNat s = true → p = pageOf addr.toNat → c = bits v.toNat 2 0 → k = bits v.toNat 6 4 → hapHolder s c = p →
    (p = 0 ∨ polState s p ≠ 2) → hapHalted s = false → hapState s c ≠ 0 → hapState s c ≠ 4 →
    ((hapEntry s p c k).len = 0 ∨ mediaOwned s p (hapEntry s p c k).addr (2 * (hapEntry s p c k).len) = true) →
    hapOutcome c (hapEntry s p c k) s = (st, s1) → exec (.hapTrigger a addr v) s =
      .next (settle 4 (wr (HAP_TRIG_STATUS_effect p) k (wr (HAP_TRIG_STATUS_channel p) c (wr (HAP_TRIG_STATUS_status p) st s1))))) ∧
  -- HAP_CONTROL_SAMPLE, 62.5 µs after the last: braking counts samples below rest; otherwise the sum of bus part and waveform drives
  (∀ (c : Fin 8) (f : BitVec 32) (i : BitVec 16) (s s1 s2 : State), rdB s (HAP_CH_CTRL_enable c) = true → hapState s c ≠ 0 → hapState s c ≠ 4 →
    hapHalted s = false → s1 = advanceTo ((hapCh s c).last + 62500) s →
    s2 = hapBegin c (hapFlags c (bit f.toNat 0) (wr (HAP_CH_MEAS_current c) i.toNat (wr (HAP_CH_MEAS_accel c) (f.toNat / 65536)
      (setHap c { hapCh s1 c with last := s1.now } s1)))) →
    exec (.hapControlSample c f i) s = .next (settle 4 (if hapState s2 c = 3 then
      setHap c { hapCh s2 c with resting := if belowRest s2 c (sgn 16 (f.toNat / 65536)) then (hapCh s2 c).resting + 1 else 0, target := 0 } s2
      else hapTrack c (hapDrive c s2)))) ∧
  -- HAP_OVERDRIVE_END of an open window
  (∀ (c : Fin 8) (s : State) (t : Nat), (hapCh s c).odEnd = some t → exec (.hapOverdriveEnd c) s =
    .next (setHap c { hapCh (advanceTo t s) c with odEnd := none } (advanceTo t s))) ∧
  -- HAP_BRAKE_END after brake_max, where 16 samples below rest have not come first: idle, and a pending effect starts with overdrive
  (∀ (c : Fin 8) (s s1 : State), hapState s c = 3 → (hapCh s c).starts = none → (hapCh s c).resting < 16 →
    s1 = advanceTo ((hapCh s c).brakeStart + 1000000 * rd s (HAP_CH_DRIVE_brake_max c)) s → exec (.hapBrakeEnd c) s = .next (settle 4
      (hapPendStat c none (hapEnter c 1 (setHap c { hapCh s1 c with
        pend := none, resting := 0, starts := (hapCh s c).pend.map (fun f => (f, true)) } s1))))) ∧
  -- HAP_OVERCURRENT: three samples above the limit put the channel in fault
  (∀ (c : Fin 8) (a b d : BitVec 16) (s : State), rd s (HAP_CH_LIMIT_ilim c) < (sgn 16 a.toNat).natAbs →
    rd s (HAP_CH_LIMIT_ilim c) < (sgn 16 b.toNat).natAbs → rd s (HAP_CH_LIMIT_ilim c) < (sgn 16 d.toNat).natAbs → hapState s c ≠ 0 →
    hapState s c ≠ 4 → hapHalted s = false → exec (.hapOvercurrent c a b d) s = .next (settle 4 (hapNotify c 1 (raiseLine (hapHolder s c) 55
      (orBits (HAP_EVENT_fault (hapHolder s c)) (2 ^ c.val) (record0 Src.HAP_OVERCURRENT (some (hapHolder s c)) [c, unsgn 32 (sgn 16 d.toNat)]
        (wr (HAP_CH_MEAS_current c) d.toNat (hapEnter c 4 (hapClear c s))))))))) ∧
  -- HAP_SENSE_LOST after 16 frames without the valid flag
  (∀ (c : Fin 8) (s : State), 16 ≤ (hapCh s c).invalid → rdB s (HAP_CH_STAT_open_loop c) = false → exec (.hapSenseLost c) s = .next (settle 4
    (hapNotify c 2 (record0 Src.HAP_SENSE_LOST (some (hapHolder s c)) [c] (wr (HAP_CH_STAT_open_loop c) 1 s))))) ∧
  (∀ (k : Fin 32) (m : Msg) (s : State), asked Op.HAP_GET_CHANNEL k m s = true → exec (.hapGetChannel k) s =
    .next (answered k m ST_OK ((hapRegs (bits (m.word 2) 2 0)).map (packFlds s)) (taken k s))) ∧
  -- HAP_SET_CHANNEL by the holder, with fields in range, of a channel that is off: it is enabled and idle
  (∀ (k : Fin 32) (m : Msg) (s s1 : State) (c inom od bm : Nat), asked Op.HAP_SET_CHANNEL k m s = true → c = bits (m.word 2) 2 0 →
    inom = bits (m.word 4) 11 0 → od = bits (m.word 4) 16 12 → bm = bits (m.word 4) 27 21 → Req.polder ⟨k, m⟩ = some (hapHolder s c) → inom ≠ 0 →
    8 ≤ od → od ≤ 24 → bits (m.word 4) 20 17 ≤ 8 → bm ≠ 0 → bm ≤ 100 → inom * od ≤ bits (m.word 5) 12 0 * 8 → bit (m.word 3) 0 = true →
    s1 = takeEffect [HAP_CH_CTRL_dead c] ((List.range 5).foldl (fun s i => writeFlds (m.word (3 + i)) ((hapRegs c).getD i []) s) (taken k s)) →
    hapState s c = 0 → exec (.hapSetChannel k) s = .next (answered k m ST_OK [] (hapEnter c 1 s1))) ∧
  (∀ (k : Fin 32) (m : Msg) (s : State) (c : Nat), asked Op.HAP_RESTART k m s = true → c = bits (m.word 2) 2 0 →
    Req.polder ⟨k, m⟩ = some (hapHolder s c) → hapState s c = 4 →
    hapLimitLow (rd s (HAP_CH_DRIVE_inom c)) (rd s (HAP_CH_DRIVE_od c)) (rd s (HAP_CH_LIMIT_ilim c)) = false →
    exec (.hapRestart k) s = .next (answered k m ST_OK [] (hapEnter c 1 (taken k s))))

/-- R338, R340, R344, R347, R348, R352 to R357: what touch frames, starts, lasting contacts, queues and the touch commands do. -/
def Obligations.TouchComplete : Prop :=
  -- TOUCH_FRAME of a channel that scans, one frame period after the last
  (∀ (c : Fin 2) (steps : List (List (BitVec 16))) (sat : List (Fin 6 × Fin 64)) (listen : List (List (BitVec 16))) (s : State), tchScans s c = true →
    exec (.touchFrame c steps sat listen) s = .next (settle 4 (touchFrame c (steps.map (fun l => l.map (fun x => sgn 16 x.toNat)))
      (sat.map (fun e => (e.1.val, e.2.val))) (listen.map (fun l => l.map (fun x => sgn 16 x.toNat)))
      (advanceTo ((tch s c).endAt + framePeriod s c) s)))) ∧
  -- TCH_START of an enabled channel that is off, without a snapshot for its panel
  (∀ (c : Fin 2) (s : State), rdB s (TCH_CTRL_enable c).inForce = true → tchState s c = 0 → tchQuiet s = false → domainOn s 5 = true →
    (tch s c).viaQuiet = false → (tch s c).flash = none → exec (.tchStart c) s = .next (settle 4 (tchStat c (wr (TCH_STAT_state c) 1
      (wrB (TCH_STAT_snap_valid c) false (setTch c { tch s c with
        started := 0, sums := [], suspects := [], contacts := [], endAt := s.now, viaQuiet := false, hopped := false, calm := 0 } s)))))) ∧
  -- TCH_LONG_CONTACT, 600 s after the contact went down, of one that no record follows
  (∀ (c : Fin 2) (id : Fin 20) (s s1 : State) (k : TchContact), (tch s c).contacts.find? (fun k => k.id == id.val && k.shown && !k.long) = some k →
    k.silent = true → s1 = advanceTo (k.start + 600000000000) s → exec (.tchLongContact c id) s = .next (settle 4
      (contactEvent Src.TCH_LONG_CONTACT k.owner [c, k.owner] (setTch c { tch s1 c with
        contacts := (tch s1 c).contacts.map (fun x => if x.id == k.id then { x with long := true } else x) } s1)))) ∧
  -- TCH_STUCK, after TCH_STUCK.seconds: the contact's nodes are re-baselined and it ends
  (∀ (c : Fin 2) (id : Fin 20) (s s1 s2 : State) (k : TchContact), (tch s c).contacts.find? (fun k => k.id == id.val && k.shown) = some k →
    rd s (TCH_STUCK_seconds c) ≠ 0 → s1 = advanceTo (k.start + 1000000000 * rd s (TCH_STUCK_seconds c)) s →
    s2 = rebaseRecord c 3 k.owner (contactEvent Src.TCH_STUCK k.owner [c, unsgn 32 k.u, unsgn 32 k.v] (tchStat c (setTch c
      { rebaseNodes k.nodes (tch s1 c) with contacts := (rebaseNodes k.nodes (tch s1 c)).contacts.filter (fun x => x.id != k.id) } s1))) →
    exec (.tchStuck c id) s = .next (settle 4 (if k.silent then s2 else
      (queueRecords k.owner c [eventRecord c 4 (rd s2 (TCH_FRAME_count c)) k true] s2).2))) ∧
  -- TOUCH_WAKE_RECORD once memory can take it
  (∀ (c : Fin 2) (s : State) (r : List Nat), (tch s c).wake = some r → rdB s (DMC_STATUS_self_refresh 0) = false →
    exec (.touchWakeRecord c) s = .next (settle 4 (queueRecords 0 c [r] (setTch c { tch s c with wake := none } s)).2)) ∧
  -- TCH_QUEUE_ENABLE of a queue that the polder holds and that was disabled
  (∀ (a : Access) (addr : BitVec 40) (v : BitVec 32) (s : State) (p c : Nat), isPage addr.toNat = true → queueAt (pageOff addr.toNat) 8 = some c →
    admitted a addr.toNat v.toNat s = true → p = pageOf addr.toNat → holdsTouch s p c = true → bit v.toNat 0 = true →
    rdB s (TCH_Q_CFG_enable p c) = false → bits v.toNat 7 4 ≤ 10 → exec (.tchQueueEnable a addr v) s = .next (settle 4 (queueCfg p c v.toNat s))) ∧
  -- TCH_CALIBRATE_DONE after 64 frames: codes that the spec leaves open, and the reply
  (∀ (c : Fin 2) (s : State) (j : Job), (tch s c).calib = some (0, j) → exec (.tchCalibrateDone c) s = .next (settle 4 (reply j ST_OK []
    (tookFrees (tchNodes s c).length (setTch c { tch s c with
      calib := none,
      code := (List.range (tchNodes s c).length).map (fun i => ((tchNodes s c).getD i 0, Config.freeValue (s.free + i) % 64)) } s))))) ∧
  (∀ (k : Fin 32) (m : Msg) (s : State) (c : Nat), asked Op.TCH_GET_INFO k m s = true → c = bits (m.word 2) 0 0 → exec (.tchGetInfo k) s =
    .next (answered k m ST_OK ((tchRegs c).map (packFlds s) ++ [tchStatFor s ⟨k, m⟩ c] ++
      (List.range 4).map (fun i => rd s (TCH_NLEV_level c (2 * i)) + 65536 * rd s (TCH_NLEV_level c (2 * i + 1)))) (taken k s))) ∧
  -- TCH_SET_CLICK that removes a rule
  (∀ (k : Fin 32) (m : Msg) (s : State) (p c : Nat), asked Op.TCH_SET_CLICK k m s = true → Req.polder ⟨k, m⟩ = some p → c = bits (m.word 2) 0 0 →
    hapHolder s (bits (m.word 2) 14 12) = p → holdsTouch s p c = true → bit (m.word 2) 8 = false → exec (.tchSetClick k) s = .next (answered k m ST_OK []
      { taken k s with tch := { (taken k s).tch with clicks := (taken k s).tch.clicks.put (clickKey c p (bits (m.word 2) 7 4)) none } })) ∧
  -- TCH_SET_CHANNEL with fields in range that fit the frame rate
  (∀ (k : Fin 32) (m : Msg) (s s2 : State) (c : Nat) (fs : List Nat), asked Op.TCH_SET_CHANNEL k m s = true → c = bits (m.word 2) 0 0 →
    fs = (List.range 8).map (fun j => bits (m.word (7 + j / 2)) (15 + 16 * (j % 2)) (16 * (j % 2))) → channelBad ⟨k, m⟩ fs = false →
    (tch s c).calib = none → frameFits fs (fs.getD (rd s (TCH_STAT_freq c)) 0) (ceilDiv (bits (m.word 3) 14 8) (if bit (m.word 3) 1 then 16 else 32) *
      (if bit (m.word 3) 1 then 16 else 32)) (bits (m.word 4) 5 0) (bits (m.word 3) 31 24) = true →
    s2 = (List.range 8).foldl (fun s j => wr (TCH_FREQ_khz c j) (fs.getD j 0) s) (wr (TCH_STUCK_seconds c) (bits (m.word 11) 16 0)
      ((List.range 4).foldl (fun s i => writeFlds (m.word (3 + i)) ((tchRegs c).getD i []) s) (taken k s))) →
    exec (.tchSetChannel k) s = .next (answered k m ST_OK [] (if (tchStartFlds c).any (fun f => rd s2 f != rd s2 f.inForce) then
      tchStop c false (takeEffect (tchStartFlds c) s2) else s2))) ∧
  (∀ (k : Fin 32) (m : Msg) (s : State), asked Op.TCH_SET_MAP k m s = true → exec (.tchSetMap k) s = .next (answered k m ST_OK []
    ((List.range 6).foldl (fun s i => wr (TCH_MAP_m (bits (m.word 2) 0 0) i) (m.word (3 + i)) s) (taken k s)))) ∧
  -- TCH_SET_SLIDER with electrodes of the panel that no other slider has
  (∀ (k : Fin 32) (m : Msg) (s : State) (w : Nat → Nat) (pairs : List (Nat × Nat)) (nodes : List Nat), asked Op.TCH_SET_SLIDER k m s = true →
    w = (fun i => readNat s (Req.bufAddr ⟨k, m⟩ + 4 * i) 4) → pairs = (List.range (w 5)).map (fun i =>
      (byteAt s (Req.bufAddr ⟨k, m⟩ + 24 + 2 * i), byteAt s (Req.bufAddr ⟨k, m⟩ + 25 + 2 * i))) → nodes = pairs.map (fun e => nodeAt e.1 e.2) →
    w 0 ≤ 1 → w 1 ≤ 15 → w 2 ≤ 1 → w 3 ≤ 31 → 2 ≤ w 5 → w 5 ≤ 32 → 24 + 2 * w 5 ≤ Req.bufSize ⟨k, m⟩ →
    (pairs.any (fun e => decide (rd s (TCH_CTRL_tx (w 0)) ≤ e.1) || decide (rd s (TCH_CTRL_rx (w 0)) ≤ e.2))) = false → nodes.Nodup →
    (nodes.any (fun x => (((tch s (w 0)).sliders.filter (fun e => e.1 != w 1)).flatMap (fun e => match e.2 with | some l => l.nodes | none => [])).contains x)) = false →
    exec (.tchSetSlider k) s = .next (answered k m ST_OK [] (setTch (w 0) { tch s (w 0) with
      sliders := (tch s (w 0)).sliders.put (w 1) (some ⟨nodes, w 2 == 1, sgn 32 (w 4), some (w 3), none⟩) } (taken k s)))) ∧
  (∀ (k : Fin 32) (m : Msg) (s : State) (c : Nat), asked Op.TCH_CALIBRATE k m s = true → c = bits (m.word 2) 0 0 → (tch s c).contacts = [] →
    (tch s c).calib = none → exec (.tchCalibrate k) s = .next (settle 4 (reply ⟨k, Msg.opcode m, Msg.seq m⟩ ST_PENDING []
      (setTch c { tch s c with calib := some (64, ⟨k, Msg.opcode m, Msg.seq m⟩) } (taken k s))))) ∧
  -- TCH_SAVE_SNAPSHOT: pending, and answered once the snapshot is in flash
  (∀ (k : Fin 32) (m : Msg) (s : State), asked Op.TCH_SAVE_SNAPSHOT k m s = true → exec (.tchSaveSnapshot k) s = .next (answered k m ST_OK []
    (snapToFlash (bits (m.word 2) 0 0) (reply ⟨k, Msg.opcode m, Msg.seq m⟩ ST_PENDING [] (taken k s))))) ∧
  (∀ (k : Fin 32) (m : Msg) (s : State) (c : Nat), asked Op.TCH_REBASELINE k m s = true → c = bits (m.word 2) 0 0 → exec (.tchRebaseline k) s =
    .next (answered k m ST_OK [] (setTch c { tch s c with rebase := true } (taken k s)))) ∧
  -- TCH_GET_NODES of the deltas, into a buffer large enough
  (∀ (k : Fin 32) (m : Msg) (s : State) (c : Nat) (bs : List Nat), asked Op.TCH_GET_NODES k m s = true → c = bits (m.word 2) 0 0 →
    bits (m.word 2) 3 1 = 2 → bs = ((tchNodes s c).map (Tab.get 0 (tch s c).delta)).flatMap (fun x => leBytes 2 (unsgn 16 x)) →
    bs.length ≤ Req.bufSize ⟨k, m⟩ → exec (.tchGetNodes k) s = .next (answered k m ST_OK [rd s (TCH_FRAME_count c)]
      (devPut 0 (Req.bufAddr ⟨k, m⟩ - bits (m.word 2) 3 0) bs (taken k s))))

/-- R360 to R367, R399, Table ONL-2: what links, Announce and Sync messages, their timeouts, the clock's synchronisation and the switch do. -/
def Obligations.TimeAndSwitchComplete : Prop :=
  -- ONL_LINK of an enabled port that was down, and of a port that was up
  (∀ (p : Fin 6) (s : State), rdB s (ONL_PORT_STAT_up p) = false → domainOn s 6 = true → rdB s (ONL_PORT_CFG_enable p).inForce = true →
    exec (.onlLink p true) s = .next (settle 4 (linkChange p true (rd s (ONL_PORT_CFG_speed p).inForce) s))) ∧
  (∀ (p : Fin 6) (s : State), rdB s (ONL_PORT_STAT_up p) = true → domainOn s 6 = true →
    exec (.onlLink p false) s = .next (settle 4 (linkChange p false (rd s (ONL_PORT_CFG_speed p).inForce) s))) ∧
  -- PTP_ANNOUNCE on a port that takes part: the master heard there
  (∀ (p : Fin 6) (d : BitVec 8) (a : AnnounceInfo) (s : State), ptpPort s p d.toNat = true → exec (.ptpAnnounce p d a) s = .next (settle 4
    (setMasters (s.net.masters.put p (some ⟨a.priority1.toNat, a.clockClass.toNat, a.accuracy.toNat, a.variance.toNat, a.priority2.toNat,
      a.identity.toNat, a.steps.toNat⟩)) s))) ∧
  -- PTP_SYNC from the best master with an offset above the threshold, filtered out of range: device time steps
  (∀ (p : Fin 6) (d : BitVec 8) (i : Nat) (o f : Int) (s : State) (b : Announce), ptpPort s p d.toNat = true → bestMaster s = some (p.val, b) →
    250 < f.natAbs → rd s ONL_PTP_STEP_TH_ns < o.natAbs → exec (.ptpSync p d i o f) s = .next (settle 4 (stepTime (-o) (wr ONL_TIME_OFFSET_ns
      (satSgn 32 f) (setNet (fun v => { v with syncs := 0, syncAt := s.now, syncInterval := i }) s))))) ∧
  -- PTP_SYNC_TIMEOUT without a valid Sync for 3 intervals, in SYNC: HOLDOVER
  (∀ (s s2 : State), s2 = setNet (fun v => { v with syncs := 0 }) (advanceTo (s.net.syncAt + 3 * s.net.syncInterval) s) →
    rd s2 ONL_TIME_STAT_state = 1 → exec (.ptpSyncTimeout false) s = .next (settle 4 (setTimeState 2 (setNet (fun v => { v with holdSince := s2.now }) s2)))) ∧
  -- HOLDOVER_EXPIRY in HOLDOVER: state 3, unsynchronised
  (∀ (s : State), rd s ONL_TIME_STAT_state = 2 → exec .holdoverExpiry s = .next (settle 4
    (setTimeState 3 (advanceTo (s.net.holdSince + 1000000000 * rd s ONL_PTP_CFG_holdover) s)))) ∧
  -- RTC_SYNC in SYNC, an hour after the last
  (∀ (s : State), rd s ONL_TIME_STAT_state = 1 → exec .rtcSync s = .next (settle 4
    (rtcSync 3600000000000 (advanceTo (Tab.get 0 s.pumpLast 9 + 3600000000000) s)))) ∧
  -- ETHERNET_FRAME_RX without the protection that its port requires, and of a frame that is not the device's own
  (∀ (f : EthFrame) (s : State), domainOn s 6 = true → f.port.val < 6 → rdB s (ONL_PORT_STAT_up f.port.val) = true →
    rdB s (ONL_PORT_CFG_macsec f.port.val) = true → f.protect = false → exec (.ethernetFrameRx f) s = .next (settle 4
      (record0 Src.ONL_MACSEC none [f.port.val] (incSat (ONL_PORT_MACSEC_ERR_count f.port.val) 1 s)))) ∧
  (∀ (f : EthFrame) (s : State), domainOn s 6 = true → f.port.val < 6 → rdB s (ONL_PORT_STAT_up f.port.val) = true →
    rdB s (ONL_PORT_CFG_macsec f.port.val) = false → f.onader = none → exec (.ethernetFrameRx f) s = .next (settle 4
      ((egress (switchLearn f s) f).foldl (fun s q => if q < 6 ∧ bit f.full.toNat q = true then incSat (ONL_PORT_STAT_drops q) 1 s else s) (switchLearn f s)))) ∧
  -- QBV_LIST_START of the list waiting for a port
  (∀ (p : Fin 6) (s : State) (g : GateList), Tab.get none s.net.gatesNext p = some g → exec (.qbvListStart p) s =
    .next (setNet (fun v => { v with gates := v.gates.put p (some g), gatesNext := v.gatesNext.put p none }) (advanceDevice 8 g.start s)))

/-- R369, R371 to R374, R376, R377, R381: what Onader frames, their timers and event export do. -/
def Obligations.OnaderComplete : Prop :=
  (∀ (s s1 : State), s1 = advanceTo (s.net.helloAt + 1000000000) s →
    exec .helloSend s = .next (settle 4 (setNet (fun v => { v with helloAt := s1.now }) (helloSend false s1)))) ∧
  -- frames of this system, well formed and for this device
  (∀ (h : OnaderHeader) (len : Nat) (x : HelloInfo) (s : State), onlClass h = clsHello → domainOn s 6 = true → onlDiscards s h len = false →
    exec (.hello h len x) s = .next (settle 4 (helloTaken (onlSource h) x s))) ∧
  (∀ (h : OnaderHeader) (len : Nat) (x : SchedInfo) (s : State), onlClass h = clsSched → domainOn s 6 = true → onlDiscards s h len = false →
    exec (.sched h len x) s = .next (settle 4 (schedTaken (onlSource h)
      ⟨onlGroup h, x.rate.toNat, x.phase.toNat, x.latency.toNat, x.effective.toNat, x.version.toNat⟩ s))) ∧
  (∀ (h : OnaderHeader) (payload : List (BitVec 8)) (s : State), onlClass h = clsSlice → domainOn s 6 = true →
    onlDiscards s h payload.length = false → inQuiet s = false →
    exec (.slice h payload) s = .next (settle 4 (sliceTaken (onlSource h) (payload.map (fun b => b.toNat)) s))) ∧
  (∀ (h : OnaderHeader) (len : Nat) (n : Fin 65536) (s : State), onlClass h = clsKeyreq → domainOn s 6 = true → onlDiscards s h len = false →
    inQuiet s = false → exec (.keyreq h len n) s = .next (settle 4 (keyreqTaken (onlSource h) n s))) ∧
  -- PEER_TIMEOUT, 3 s after a peer was last heard; DUPLICATE_CLEAR, 5 s after the last such HELLO
  (∀ (d : Fin 16384) (s : State) (p : Peer), s.net.peers.find? (fun p => p.device == d.val) = some p →
    exec (.peerTimeout d) s = .next (settle 4 (peerLeaves d (advanceTo (p.heard + 3000000000) s)))) ∧
  (∀ (s : State), rdB s ONL_STATUS_dup = true → exec .duplicateClear s =
    .next (settle 4 (wr ONL_STATUS_dup 0 (advanceTo (s.net.dupAt + 5000000000) s)))) ∧
  -- SCHED_SEND every second; SCHED_APPLY at the effective time
  (∀ (s s1 : State), s1 = advanceTo (s.net.schedAt + 1000000000) s → exec .schedSend s = .next (settle 4
    ((List.range 8).foldl (fun s i => schedSend i s) (setNet (fun v => { v with schedAt := s1.now }) s1)))) ∧
  (∀ (i : Fin 8) (s : State) (x : Sched) (own : Bool), schedNext s i = some (x, own) → exec (.schedApply i) s =
    .next (settle 4 (schedApply i x own (advanceDevice 8 x.effective s)))) ∧
  -- RX_TIMEOUT of a stream with one picture in reassembly
  (∀ (n : Fin 65536) (s : State) (r : RxStream) (p : RxPic), s.net.rx.find? (fun r => r.stream == n.val) = some r → r.asm = [p] →
    exec (.rxTimeout n) s = .next (settle 4 (raiseLine r.polder 59 (record0 Src.ONL_RX_INCOMPLETE (some r.polder) (r.stream :: twoWords p.time)
      (rxSubmit { r with incomplete := r.incomplete + 1 } p (advanceTo (p.first + 1000000 * r.timeout) s)))))) ∧
  -- EVENT_EXPORT_SEND of the first 40 records due, in sequence order
  (∀ (s : State) (a port m : Nat) (due : List (Nat × EvRec)), s.net.exportTo = some (a, port, m) → due = s.evr.exportQ.filter (fun e => decide (m ≤ e.2.sev)) →
    due ≠ [] → exec .eventExportSend s = .next (settle 4 (exportSend 2 1 ((due.take 40).flatMap (fun e => e.2.bytes))
      { s with evr := { s.evr with exportQ := due.drop 40 } })))

/-- R379, R380, Table ONL-6: what the frames and timers of the remote manager's session do. -/
def Obligations.ManagerSessionComplete : Prop :=
  (∀ (h : OnaderHeader) (a : BitVec 128) (p : List (BitVec 8)) (s : State), payWord (p.map (fun b => b.toNat)) 0 = 1 → onlClass h = clsMgr →
    domainOn s 6 = true → onlDiscards s h p.length = false →
    exec (.mgrOpen h a p) s = .next (settle 4 (mgrOpen h a.toNat (p.map (fun b => b.toNat)) s))) ∧
  -- CONFIRM within 1 s of the challenge, from its source, with the session's word and a good tag: the session is up
  (∀ (h : OnaderHeader) (p : List (BitVec 8)) (s : State) (m : MgrSes) (q : List Nat), q = p.map (fun b => b.toNat) → payWord q 0 = 3 →
    onlClass h = clsMgr → domainOn s 6 = true → onlDiscards s h p.length = false → s.net.mgr = some m → m.up = false → m.source = onlSource h →
    m.word = payWord q 1 → s.now ≤ m.challenged + 1000000000 → tagOf q = mgrTag m.key (onlBytes h) (unTagged q) →
    exec (.mgrConfirm h p) s = .next (settle 4 (mgrHead (record0 Src.ONL_MGR_SESSION none [1] (wr ONL_STATUS_mgr 1
      (setNet (fun v => { v with mgr := some { m with up := true, valid := s.now } }) s)))))) ∧
  -- authentic frames of the session that is up, with a sequence number not below the last accepted
  (∀ (h : OnaderHeader) (p : List (BitVec 8)) (s : State) (m : MgrSes) (q : List Nat), q = p.map (fun b => b.toNat) → payWord q 0 = 4 →
    onlClass h = clsMgr → domainOn s 6 = true → onlDiscards s h p.length = false → mgrUp s = some m → m.source = onlSource h → m.word = payWord q 1 →
    tagOf q = mgrTag m.key (onlBytes h) (unTagged q) → m.rxSeq.getD 0 ≤ payWord q 2 → exec (.mgrMessage h p) s = .next (settle 4
      (mgrPush q { m with valid := s.now } (setNet (fun v => { v with mgr := some { m with valid := s.now } }) s)))) ∧
  (∀ (h : OnaderHeader) (p : List (BitVec 8)) (s : State) (m : MgrSes) (q : List Nat), q = p.map (fun b => b.toNat) → payWord q 0 = 5 →
    onlClass h = clsMgr → domainOn s 6 = true → onlDiscards s h p.length = false → mgrUp s = some m → m.source = onlSource h → m.word = payWord q 1 →
    tagOf q = mgrTag m.key (onlBytes h) (unTagged q) → exec (.mgrAck h p) s = .next (settle 4
      (mgrAcked q { m with valid := s.now } (setNet (fun v => { v with mgr := some { m with valid := s.now } }) s)))) ∧
  (∀ (h : OnaderHeader) (p : List (BitVec 8)) (s : State) (m : MgrSes) (q : List Nat), q = p.map (fun b => b.toNat) → payWord q 0 = 6 →
    onlClass h = clsMgr → domainOn s 6 = true → onlDiscards s h p.length = false → mgrUp s = some m → m.source = onlSource h → m.word = payWord q 1 →
    tagOf q = mgrTag m.key (onlBytes h) (unTagged q) → exec (.mgrKeepalive h p) s = .next (settle 4
      (setNet (fun v => { v with mgr := some { m with valid := s.now } }) s))) ∧
  (∀ (h : OnaderHeader) (p : List (BitVec 8)) (s : State) (m : MgrSes) (q : List Nat), q = p.map (fun b => b.toNat) → payWord q 0 = 7 →
    onlClass h = clsMgr → domainOn s 6 = true → onlDiscards s h p.length = false → mgrUp s = some m → m.source = onlSource h → m.word = payWord q 1 →
    tagOf q = mgrTag m.key (onlBytes h) (unTagged q) → m.rxSeq.getD 0 ≤ payWord q 2 → exec (.mgrClose h p) s = .next (settle 4
      (mgrEnd (setNet (fun v => { v with mgr := some { m with valid := s.now } }) s)))) ∧
  -- MGR_RESEND up to ten times, every 100 ms; MGR_SESSION_TIMEOUT after 2 s without a valid frame
  (∀ (s : State) (m : MgrSes), mgrUp s = some m → 1 ≤ m.tries → m.tries ≤ 10 → exec .mgrResend s =
    .next (settle 4 (mgrHead (advanceTo (m.sentAt + 100000000) s)))) ∧
  (∀ (s : State) (m : MgrSes), mgrUp s = some m → exec .mgrSessionTimeout s = .next (settle 4 (mgrEnd (advanceTo (m.valid + 2000000000) s))))

/-- R360 to R362, R364, R367, R370, R372, R374 to R376, R378, R379, R381, R383, R384: what the network commands do. -/
def Obligations.NetworkCommandsComplete : Prop :=
  (∀ (k : Fin 32) (m : Msg) (s : State), asked Op.NET_GET_INFO k m s = true → exec (.netGetInfo k) s = .next (answered k m ST_OK
    ([onlIdWord s, onlStatusWord s, onlTimeWord s, rd s ONL_TIME_OFFSET_ns] ++ twoWords s.devTime) (taken k s))) ∧
  (∀ (k : Fin 32) (m : Msg) (s : State), asked Op.NET_GET_PEERS k m s = true → exec (.netGetPeers k) s = .next (answered k m ST_OK []
    (devPut 0 (Req.bufAddr ⟨k, m⟩) ((s.net.peers.take (Req.bufSize ⟨k, m⟩ / 32)).flatMap peerBytes) (taken k s)))) ∧
  (∀ (k : Fin 32) (m : Msg) (s : State) (i : Nat), asked Op.NET_GET_GROUP k m s = true → schedInForce s (bits (m.word 2) 15 0) = some i →
    exec (.netGetGroup k) s = .next (answered k m ST_OK ([rd s (ONL_GRP_ID_group i) + 65536 * rd s (ONL_GRP_ID_valid i) +
      131072 * rd s (ONL_GRP_ID_owner i), rd s (ONL_GRP_RATE_mhz i), rd s (ONL_GRP_PHASE_ns i), rd s (ONL_GRP_LATENCY_us i),
      rd s (ONL_GRP_VERSION_version i)] ++ twoWords (rd s (ONL_GRP_EFFECTIVE_time i))) (taken k s))) ∧
  (∀ (k : Fin 32) (m : Msg) (s : State) (r : RxStream), asked Op.NET_GET_STREAM k m s = true → rxStream s (bits (m.word 2) 15 0) = some r →
    Req.mayReadPolder s ⟨k, m⟩ r.polder = true → exec (.netGetStream k) s =
      .next (answered k m ST_OK [r.lateness, r.pictures, r.incomplete, r.dropped] (taken k s))) ∧
  -- the streams of the sender's polder, bound or unbound
  (∀ (k : Fin 32) (m : Msg) (s : State) (p w n : Nat), asked Op.NET_SET_TX_STREAM k m s = true → Req.polder ⟨k, m⟩ = some p →
    w = refWord ⟨k, m⟩ s 0 → n = bits w 15 0 → n ≠ 0 → (s.net.tx.any (fun t => t.stream == n && t.polder != p)) = false → bit w 16 = true →
    s.net.identity.isSome = true → exec (.netSetTxStream k) s = .next (answered k m ST_OK [] (setNet (fun v => { v with
      tx := s.net.tx.filter (fun t => t.stream != n) ++ [⟨n, p, refAddr ⟨k, m⟩ s 4, bits w 25 20, bits w 19 17⟩] }) (taken k s)))) ∧
  (∀ (k : Fin 32) (m : Msg) (s : State) (p w n : Nat), asked Op.NET_SET_RX_STREAM k m s = true → Req.polder ⟨k, m⟩ = some p →
    w = refWord ⟨k, m⟩ s 0 → n = bits w 15 0 → n ≠ 0 → bits (refWord ⟨k, m⟩ s 1) 25 16 ≤ 1000 →
    (s.net.rx.any (fun r => r.stream == n && r.polder != p)) = false → bit w 22 = false → exec (.netSetRxStream k) s =
      .next (answered k m ST_OK [] (setNet (fun v => { v with rx := s.net.rx.filter (fun r => r.stream != n) }) (taken k s)))) ∧
  (∀ (k : Fin 32) (m : Msg) (s : State) (r : RxStream), asked Op.NET_CLEAR_STREAM k m s = true → rxStream s (bits (m.word 2) 15 0) = some r →
    Req.polder ⟨k, m⟩ = some r.polder → exec (.netClearStream k) s = .next (answered k m ST_OK []
      (putRx { r with lateness := 0, pictures := 0, incomplete := 0, dropped := 0 } (taken k s)))) ∧
  -- NET_SET_IDENTITY with the identity already held
  (∀ (k : Fin 32) (m : Msg) (s : State) (w : Nat → Nat) (i : Identity), asked Op.NET_SET_IDENTITY k m s = true → w = refWord ⟨k, m⟩ s →
    i = ⟨w 0, w 1, w 2, w 3, refAddr ⟨k, m⟩ s 16, refAddr ⟨k, m⟩ s 32⟩ → w 0 ≤ 16383 → w 1 ≤ 65535 → w 2 ≤ 4094 → s.net.identity = some i →
    ownDevice s = w 0 → exec (.netSetIdentity k) s = .next (answered k m ST_OK [] (wr ONL_ID_system (w 1) (wr ONL_ID_set 1 (wr ONL_ID_device (w 0)
      (setNet (fun v => { v with identity := some i }) (taken k s))))))) ∧
  -- NET_SET_PORT of a port that carries no PTP and whose link is down
  (∀ (k : Fin 32) (m : Msg) (s : State) (p w : Nat), asked Op.NET_SET_PORT k m s = true → p = bits (m.word 2) 2 0 → w = m.word 3 →
    portSpeedOk p (bits w 3 1) = true → bestMaster s = none → rdB s (ONL_PORT_STAT_up p) = false → bit w 5 = true → exec (.netSetPort k) s =
      .next (answered k m ST_OK [] (takeEffect [ONL_PORT_CFG_enable p, ONL_PORT_CFG_speed p, ONL_PORT_CFG_phy_delay p]
        (wr (ONL_PORT_CFG_phy_delay p) (bits w 31 16) (wr (ONL_PORT_CFG_ptp p) (bits w 5 5) (wr (ONL_PORT_CFG_macsec p) (bits w 4 4)
          (wr (ONL_PORT_CFG_speed p) (bits w 3 1) (wr (ONL_PORT_CFG_enable p) (bits w 0 0) (taken k s))))))))) ∧
  -- NET_SET_PTP with fields in range, where the network is not claimed
  (∀ (k : Fin 32) (m : Msg) (s s1 : State) (w hold : Nat), asked Op.NET_SET_PTP k m s = true → w = m.word 2 → hold = bits w 27 16 → 1 ≤ hold →
    hold ≤ 3600 → 1000 ≤ m.word 3 → m.word 3 ≤ 1000000000 → claimed s blkSwitch = false →
    s1 = wr ONL_PTP_STEP_TH_ns (m.word 3) (wr ONL_PTP_CFG_holdover hold (wr ONL_PTP_CFG_domain (bits w 15 8) (wr ONL_PTP_CFG_p2p (bits w 2 2)
      (wr ONL_PTP_CFG_mode (bits w 1 0) (taken k s))))) →
    exec (.netSetPtp k) s = .next (answered k m ST_OK [] (setMasters (if bits w 1 0 != 0 && bits w 15 8 == rd s ONL_PTP_CFG_domain then s1.net.masters
      else []) s1))) ∧
  (∀ (k : Fin 32) (m : Msg) (s : State) (w : Nat → Nat) (sa : MacsecSa), asked Op.NET_SET_MACSEC k m s = true → w = refWord ⟨k, m⟩ s → w 0 ≤ 5 →
    w 1 ≤ 3 → w 2 ≤ 1 → sa = ⟨w 0, readNat s (Req.bufAddr ⟨k, m⟩ + 16) 8, w 1, w 2, readBytes s (Req.bufAddr ⟨k, m⟩ + 32) 32,
      readNat s (Req.bufAddr ⟨k, m⟩ + 24) 8⟩ → exec (.netSetMacsec k) s = .next (answered k m ST_OK [] (setNet (fun v => { v with
        macsec := v.macsec.filter (fun x => !(x.port == sa.port && x.sci == sa.sci && x.an == sa.an)) ++ [sa] }) (taken k s)))) ∧
  (∀ (k : Fin 32) (m : Msg) (s : State) (w : Nat → Nat) (g : GateList), asked Op.NET_SET_QBV k m s = true → w = refWord ⟨k, m⟩ s → w 0 ≤ 5 →
    1 ≤ w 1 → w 1 ≤ 256 → w 4 ≠ 0 → 24 + 8 * w 1 ≤ Req.bufSize ⟨k, m⟩ →
    g = ⟨readNat s (Req.bufAddr ⟨k, m⟩ + 8) 8, w 4, (List.range (w 1)).map (fun i => (w (6 + 2 * i) % 256, w (7 + 2 * i)))⟩ →
    exec (.netSetQbv k) s = .next (answered k m ST_OK [] (setNet (fun v => { v with gatesNext := v.gatesNext.put (w 0) (some g) }) (taken k s)))) ∧
  -- NET_SET_GROUP with a schedule in range, far enough ahead, that no other device owns
  (∀ (k : Fin 32) (m : Msg) (s : State) (g rate effective i : Nat), asked Op.NET_SET_GROUP k m s = true → g = bits (m.word 2) 15 0 →
    rate = m.word 3 → effective = m.word 6 + 4294967296 * m.word 7 → bit (m.word 2) 17 = false → 1000 ≤ rate → rate ≤ 240000 →
    m.word 4 * rate < 1000000000000 → m.word 5 ≤ 10000000 → foreignOwner s g = false → s.devTime + 100000000 ≤ effective → groupPlace s g = some i →
    exec (.netSetGroup k) s = .next (answered k m ST_OK [] (schedSend i (setNext i
      (some (⟨g, rate, m.word 4, m.word 5, effective, (versionOf s i + 1) % 2 ^ 32⟩, bit (m.word 2) 16)) (taken k s))))) ∧
  (∀ (k : Fin 32) (m : Msg) (s : State), asked Op.NET_SET_EXPORT k m s = true → s.net.identity.isSome = true → exec (.netSetExport k) s =
    .next (answered k m ST_OK [] (setNet (fun v => { v with
        exportTo := if refAddr ⟨k, m⟩ s 4 = 0 then none else some (refAddr ⟨k, m⟩ s 4, bits (refWord ⟨k, m⟩ s 0) 15 0, bits (refWord ⟨k, m⟩ s 0) 19 16) }) (taken k s)))) ∧
  (∀ (k : Fin 32) (m : Msg) (s : State), asked Op.NET_SET_MGR_KEY k m s = true → exec (.netSetMgrKey k) s = .next (answered k m ST_OK []
    (setNet (fun v => { v with mgrKey := (List.range 8).flatMap (fun i => leBytes 4 (m.word (2 + i))) }) (mgrClose (taken k s)))))

/-- R388 to R395, R397, R410: what the event recorder's steps and commands do. -/
def Obligations.RecorderComplete : Prop :=
  -- WEIR_SUMMARY of a rate-limited code with suppressed occurrences: advanced to when its bucket holds one record again
  (∀ (c : Fin 4096) (s s1 : State) (w : Weir), w = weirOf s c → w.mode = 1 → w.count ≠ 0 → w.rate ≠ 0 → s.evr.started = true →
    s1 = advanceDevice 8 (w.last + (weirOne - w.level + w.rate - 1) / w.rate) s →
    exec (.weirSummary c) s = .next (settle 4 (weirSummaryDue c (setWeir c ((weirOf s1 c).refill s1.devTime) s1)))) ∧
  -- FREEZE_TIMEOUT of a frozen ring; ARCHIVE_BLOCK_WRITE once a block's worth of records waits
  (∀ (s : State), s.evr.frozen = true → exec .freezeTimeout s = .next (settle 4 (thaw 0 (advanceTo s.evr.freezeEnd s)))) ∧
  (∀ (s : State), s.evr.archive.isSet = true → max 1 (Config.archiveRecords s.evr.archive.medium) ≤ s.evr.archive.waiting.length →
    exec .archiveBlockWrite s = .next (settle 4 (pumpRan 7 0 (archiveOne (archiveLost s))))) ∧
  (∀ (k : Fin 32) (m : Msg) (s : State), asked Op.EVR_GET_INFO k m s = true → exec (.evrGetInfo k) s = .next (answered k m ST_OK
    [s.evr.next, b2n s.evr.frozen + 2 * s.evr.fifo.length + 65536 * rd s EVR_STAT_crit_drop, s.evr.lost,
      rd s EVR_ARCH_sev + 65536 * min 65535 s.evr.archive.waiting.length] (taken k s))) ∧
  -- EVR_READ from a number in the ring: the records from there on that the sender may receive, as many as it asks for and as fit
  (∀ (k : Fin 32) (m : Msg) (s : State) (n : Nat) (rs : List EvRec) (r : EvRec), asked Op.EVR_READ k m s = true →
    n = readNat s (Req.bufAddr ⟨k, m⟩ + 4) 4 → 1 ≤ n → n ≤ 65536 →
    rs = ((ringFrom s (readNat s (Req.bufAddr ⟨k, m⟩) 4)).filter (fun r => sees (taken k s) ⟨k, m⟩ r.polder r.secure)).take
      (min n ((Req.bufSize ⟨k, m⟩ - 32) / 32)) → rs.head? = some r → exec (.evrRead k) s =
    .next (answered k m ST_OK [r.seq, rs.length] (devPut 0 (Req.bufAddr ⟨k, m⟩ + 32) (rs.flatMap EvRec.bytes) (taken k s)))) ∧
  (∀ (k : Fin 32) (m : Msg) (s : State) (w : Weir), asked Op.EVR_GET_WEIR k m s = true → w = weirOf s (bits (m.word 2) 11 0) →
    exec (.evrGetWeir k) s = .next (answered k m ST_OK [w.mode + 256 * w.burst, w.rate, w.count] (taken k s))) ∧
  -- EVR_SET_WEIR of a code that is not protected, and EVR_SET_SECURE_WEIR of a code that is
  (∀ (k : Fin 32) (m : Msg) (s : State) (c mode rate burst : Nat), asked Op.EVR_SET_WEIR k m s = true → c = bits (m.word 2) 11 0 →
    mode = bits (m.word 2) 13 12 → rate = bits (m.word 3) 15 0 → burst = bits (m.word 3) 23 16 → protectedCode c = false → mode ≠ 3 →
    (mode = 1 → 1 ≤ rate ∧ 1 ≤ burst) → exec (.evrSetWeir k) s = .next (answered k m ST_OK [] (weirSet c mode rate burst (taken k s)))) ∧
  (∀ (k : Fin 32) (m : Msg) (s : State) (c mode rate burst : Nat), asked Op.EVR_SET_SECURE_WEIR k m s = true → c = bits (m.word 2) 11 0 →
    mode = bits (m.word 2) 13 12 → rate = bits (m.word 3) 15 0 → burst = bits (m.word 3) 23 16 → mode = 0 ∨ mode = 1 →
    (mode = 1 → 1 ≤ rate ∧ 1 ≤ burst) → exec (.evrSetSecureWeir k) s = .next (answered k m ST_OK [] (weirSet c mode rate burst (taken k s)))) ∧
  -- EVR_FREEZE for 1 to 10000 ms of a ring that is not frozen, and the thaw of one that is
  (∀ (k : Fin 32) (m : Msg) (s : State) (ms : Nat), asked Op.EVR_FREEZE k m s = true → bit (m.word 2) 0 = true → ms = bits (m.word 2) 29 16 →
    1 ≤ ms → ms ≤ 10000 → s.evr.frozen = false → exec (.evrFreeze k) s = .next (answered k m ST_OK [] (freeze ms 0 (taken k s)))) ∧
  (∀ (k : Fin 32) (m : Msg) (s : State), asked Op.EVR_FREEZE k m s = true → bit (m.word 2) 0 = false → s.evr.frozen = true →
    exec (.evrFreeze k) s = .next (answered k m ST_OK [] (thaw 0 (taken k s)))) ∧
  -- EVR_SNAPSHOT: frozen, the 65536 slots copied to the buffer, thawed
  (∀ (k : Fin 32) (m : Msg) (s s1 : State), asked Op.EVR_SNAPSHOT k m s = true → s.evr.frozen = false → s1 = freeze 1 1 (taken k s) →
    exec (.evrSnapshot k) s = .next (settle 4 (reply ⟨k, Msg.opcode m, Msg.seq m⟩ ST_OK
      [match s1.evr.ring.find? (fun r => r.seq % 65536 == 0) with | some r => r.seq | none => 0]
      (thaw 1 (reply ⟨k, Msg.opcode m, Msg.seq m⟩ ST_PENDING [] ((List.range 65536).foldl (fun s i => devPut 0 (Req.bufAddr ⟨k, m⟩ + 32 * i)
        (Tab.get (List.replicate 32 0) (ringImage (Req.polder ⟨k, m⟩ == some 0) s1) i) s) s1))))) ) ∧
  -- EVR_SET_ARCHIVE of a region that its medium can hold; EVR_SET_VAULT_SEV
  (∀ (k : Fin 32) (m : Msg) (s : State) (w : Nat → Nat), asked Op.EVR_SET_ARCHIVE k m s = true →
    w = (fun i => readNat s (Req.bufAddr ⟨k, m⟩ + 4 * i) 4) → w 0 ≤ 1 → 1 ≤ w 2 → w 3 ≤ 15 → (w 0 = 0 → w 1 + w 2 ≤ 0x20000000) →
    exec (.evrSetArchive k) s = .next (answered k m ST_OK [] (wr EVR_ARCH_sev (w 3) (setArchive (fun a =>
      { a with isSet := true, medium := w 0, offset := w 1, size := w 2, next := 0, blocks := [] }) (taken k s))))) ∧
  (∀ (k : Fin 32) (m : Msg) (s : State), asked Op.EVR_SET_VAULT_SEV k m s = true →
    exec (.evrSetVaultSev k) s = .next (answered k m ST_OK [] (wr EVR_VAULT_SEV_sev (m.word 2) (taken k s))))

/-- R388, R396 to R403: what the vault's steps, registers and commands do. -/
def Obligations.VaultComplete : Prop :=
  -- VAULT_QUEUE_WRITE: the oldest record of the queue to the next critical slot
  (∀ (s : State) (r : EvRec) (t : List EvRec), s.vlt.isolated = false → s.evr.vaultQ = r :: t →
    exec .vaultQueueWrite s = .next (settle 4 (critPut r.bytes { s with evr := { s.evr with vaultQ := t } }))) ∧
  -- VLT_METER_SYNC with sync: a copy of the shadow starts, or is refused as torn when the change count is odd
  (∀ (a : Access) (addr : BitVec 40) (v : BitVec 32) (s : State), admitted a addr.toNat v.toNat s = true → addr.toNat = 0x20050020 →
    bit v.toNat 0 = true → bit v.toNat 2 = false → s.vlt.isolated = false → s.vlt.sync = none → exec (.vltMeterSync a addr v) s = .next (settle 4
      (if readNat s (rdA s VLT_METER_SRC_addr) 4 % 2 = 1 then wr VLT_METER_CTRL_torn 1 s
       else setVlt (fun x => { x with sync := some (shadowWords s) }) s))) ∧
  -- METER_SYNC_DONE: the bank that does not hold the newest valid generation takes the next one
  (∀ (s : State) (ws : List Nat) (b : Bool) (x : MeterBank), s.vlt.sync = some ws → newestBank s.vlt = some b →
    x = MeterBank.sealed (wrapAdd 32 (bankOf s.vlt b).gen 1) (copied s.free ws (shadowWords s)) →
    exec .meterSyncDone s = .next (settle 4 (tookFrees 123 { s with vlt := { putBank (!b) x s.vlt with sync := none } }))) ∧
  -- VLT_CNT_INC and VLT_EXT_GO by a writer that the counter or slot is for
  (∀ (a : Access) (addr : BitVec 40) (v : BitVec 32) (s : State), admitted a addr.toNat v.toNat s = true → addr.toNat = 0x200500A0 →
    vltMay (carried s a addr.toNat) (bits v.toNat 2 0) = true → exec (.vltCntInc a addr v) s = .next (settle 4 (vltWrite (fun x =>
      { x with counters := x.counters.set (bits v.toNat 2 0) (satAdd 32 (x.counters.getD (bits v.toNat 2 0) 0) 1) }) s))) ∧
  (∀ (a : Access) (addr : BitVec 40) (v : BitVec 32) (s : State), admitted a addr.toNat v.toNat s = true → addr.toNat = 0x20050320 →
    bit v.toNat 31 = true → vltMay (carried s a addr.toNat) (bits v.toNat 2 0) = true → exec (.vltExtGo a addr v) s = .next (settle 4
      (extend (bits v.toNat 2 0) (extData s) s))) ∧
  -- TAMPER_SAMPLE 250 ms after the last: the enabled inputs, with each one's active polarity
  (∀ (pins : BitVec 4) (s s1 s2 : State), s1 = advanceTo (Tab.get 0 s.pumpLast 200 + 250000000) s →
    s2 = { s1 with pumpLast := s1.pumpLast.put 200 s1.now } → exec (.tamperSample pins) s = .next (settle 4 ((List.range 4).foldl
      (fun s i => if bit s.vlt.tamperCfg i then tamperOne i (b2n (bit pins.toNat i == bit s.vlt.tamperCfg (4 + i))) s else s) s2))) ∧
  -- VBAT_MEASURE an hour after the last, with VBAT good and with VBAT below 2.2 V
  (∀ (mv : BitVec 12) (s s1 : State), 2200 ≤ mv.toNat → s1 = advanceTo (Tab.get 0 s.pumpLast 201 + 3600000000000) s →
    exec (.vbatMeasure mv) s = .next (settle 4 (setVlt (fun v => { v with vbat := mv.toNat })
      { s1 with pumpLast := s1.pumpLast.put 201 s1.now }))) ∧
  (∀ (mv : BitVec 12) (s s1 : State), mv.toNat < 2200 → s1 = advanceTo (Tab.get 0 s.pumpLast 201 + 3600000000000) s →
    exec (.vbatMeasure mv) s = .next (settle 4 (record0 Src.VLT_BATTERY none [mv.toNat] (setVlt
      (fun v => { v with vbat := mv.toNat, vbatLow := true }) { s1 with pumpLast := s1.pumpLast.put 201 s1.now })))) ∧
  -- POWER_FAIL on a running device: counter 1, the record, any power transition ended, Table VLT-2's flush
  (∀ (s s1 s2 : State), s.vlt.pf = none → s.pwr.off = 0 → s1 = cntInc 1 (wr VLT_STAT_pf_active 1 (setVlt (fun v => { v with pf := some s.now }) s)) →
    s2 = record0 Src.VLT_PWRFAIL none [s1.vlt.counters.getD 1 0] { s1 with pwr := { s1.pwr with trans := none } } →
    exec .powerFail s = .next (settle 4 (flushSteps s2))) ∧
  (∀ (k : Fin 32) (m : Msg) (s : State), asked Op.VLT_GET_STATUS k m s = true → exec (.vltGetStatus k) s = .next (answered k m ST_OK
    ([vltStatWord s, s.vlt.vbat] ++ twoWords (s.vlt.frac + 32768 * s.vlt.seconds) ++ (List.range 8).map (fun i => s.vlt.counters.getD i 0))
    (taken k s))) ∧
  (∀ (k : Fin 32) (m : Msg) (s : State), asked Op.VLT_GET_CRITICAL k m s = true → exec (.vltGetCritical k) s = .next (answered k m ST_OK
    [s.vlt.critSlot + 65536 * s.vlt.critTotal]
    (devPut 0 (Req.bufAddr ⟨k, m⟩) ((List.range 96).flatMap (critSeen (taken k s) ⟨k, m⟩)) (taken k s)))) ∧
  (∀ (k : Fin 32) (m : Msg) (s : State), asked Op.VLT_SET_TAMPER k m s = true → exec (.vltSetTamper k) s =
    .next (answered k m ST_OK [] (vltWrite (fun v => { v with tamperCfg := bits (m.word 2) 7 0 }) (taken k s)))) ∧
  (∀ (k : Fin 32) (m : Msg) (s : State), asked Op.VLT_SET_RTC k m s = true → exec (.vltSetRtc k) s =
    .next (answered k m ST_OK [] (rtcSet (m.word 2 + 4294967296 * m.word 3) (taken k s)))) ∧
  -- VLT_GET_METERS: the newest valid bank and which it is, or 2 when neither is valid
  (∀ (k : Fin 32) (m : Msg) (s : State) (b : Bool), asked Op.VLT_GET_METERS k m s = true → newestBank s.vlt = some b →
    exec (.vltGetMeters k) s = .next (answered k m ST_OK [b2n b] (devPut 0 (Req.bufAddr ⟨k, m⟩) (bankOf s.vlt b).bytes (taken k s)))) ∧
  (∀ (k : Fin 32) (m : Msg) (s : State), asked Op.VLT_GET_METERS k m s = true → newestBank s.vlt = none →
    exec (.vltGetMeters k) s = .next (answered k m ST_OK [2] (taken k s)))

/-- R404 to R410: what the check-value unit's registers, job ends and commands do. -/
def Obligations.CheckValueComplete : Prop :=
  -- CVU_START of an idle channel: its registers' job runs, or faults at once
  (∀ (a : Access) (c : Fin 8) (addr : BitVec 40) (v : BitVec 32) (s : State), admitted a addr.toNat v.toNat s = true →
    addr.toNat = 0x20040050 + 0x100 * c.val → bit v.toNat 0 = true → bit v.toNat 1 = false → cvuJob s c = none →
    exec (.cvuStart a addr v) s = .next (settle 4 (cvuStart c (cvuFromRegs s c) s))) ∧
  -- CVU_START with abort alone on a channel that runs
  (∀ (a : Access) (c : Fin 8) (addr : BitVec 40) (v : BitVec 32) (s : State) (j : CvuJob), admitted a addr.toNat v.toNat s = true →
    addr.toNat = 0x20040050 + 0x100 * c.val → bit v.toNat 0 = false → bit v.toNat 1 = true → cvuJob s c = some j →
    exec (.cvuStartAbort a addr v) s = .next (settle 4 (setCvu c (some { j with abort := true }) s))) ∧
  -- CVU_JOB_END of a job that is not aborted and whose bytes are all read: complete; of one that a page stops: a memory fault there
  (∀ (c : Fin 8) (s s1 : State) (j : CvuJob) (bs : List Nat), cvuJob s c = some j → j.abort = false → rd s (POL_SHARE_cvu (cvuHolder s c)) ≠ 0 →
    cvuScan (cvuHolder s c) j.addr j.len (tookFree s) = (0, bs, s1) → exec (.cvuJobEnd c none) s =
      .next (settle 4 (fieldReply c j (cvuComplete c j bs (wr (CVU_CH_DONE_bytes c) bs.length s1))))) ∧
  (∀ (c : Fin 8) (s s1 : State) (j : CvuJob) (e : Nat) (bs : List Nat), cvuJob s c = some j → j.abort = false →
    rd s (POL_SHARE_cvu (cvuHolder s c)) ≠ 0 → e ≠ 0 → cvuScan (cvuHolder s c) j.addr j.len (tookFree s) = (e, bs, s1) →
    exec (.cvuJobEnd c none) s =
      .next (settle 4 (fieldReply c j (cvuMemFault c e (j.addr + bs.length) j (wr (CVU_CH_DONE_bytes c) bs.length s1))))) ∧
  (∀ (k : Fin 32) (m : Msg) (s : State) (c : Nat), asked Op.CVU_GET_CHANNEL k m s = true → c = bits (m.word 2) 2 0 →
    Req.mayReadPolder s ⟨k, m⟩ (cvuHolder s c) = true → exec (.cvuGetChannel k) s = .next (answered k m ST_OK
      ((rd s (CVU_CH_STAT_state c) + 256 * rd s (CVU_CH_STAT_reason c)) :: twoWords (rd s (CVU_CH_DONE_bytes c)) ++
        (List.range 8).map (fun w => rd s (CVU_CH_RESULT_value c w))) (taken k s))) ∧
  -- the holder's commands: CVU_RUN of a descriptor with no parameter fault, CVU_SAVE, CVU_LOAD and CVU_SET_KEY of an idle channel, CVU_ABORT
  (∀ (k : Fin 32) (m : Msg) (s s1 : State) (c : Nat), asked Op.CVU_RUN k m s = true → c = readNat s (Req.bufAddr ⟨k, m⟩) 4 → c < 8 →
    Req.polder ⟨k, m⟩ = some (cvuHolder s c) → cvuJob s c = none →
    s1 = putDescriptor c (readBytes s (Req.bufAddr ⟨k, m⟩ + 4) 80) (taken k s) → (cvuFromRegs s1 c).bad = 0 →
    exec (.cvuRun k) s = .next (answered k m ST_OK [] (cvuStart c (cvuFromRegs s1 c) s1))) ∧
  (∀ (k : Fin 32) (m : Msg) (s : State) (c : Nat), asked Op.CVU_SAVE k m s = true → c = bits (m.word 2) 2 0 →
    Req.polder ⟨k, m⟩ = some (cvuHolder s c) → cvuJob s c = none → exec (.cvuSave k) s = .next (answered k m ST_OK
      ((List.range 10).map (fun w => rd s (CVU_CH_RUN_value c w)) ++ twoWords (rd s (CVU_CH_DONE_bytes c))) (taken k s))) ∧
  (∀ (k : Fin 32) (m : Msg) (s : State) (c : Nat), asked Op.CVU_LOAD k m s = true → c = bits (m.word 2) 2 0 →
    Req.polder ⟨k, m⟩ = some (cvuHolder s c) → cvuJob s c = none → exec (.cvuLoad k) s = .next (answered k m ST_OK []
      (putRun c ((List.range 10).map (fun w => m.word (3 + w))) (taken k s)))) ∧
  (∀ (k : Fin 32) (m : Msg) (s : State) (c : Nat), asked Op.CVU_SET_KEY k m s = true → c = bits (m.word 2) 2 0 →
    Req.polder ⟨k, m⟩ = some (cvuHolder s c) → cvuJob s c = none → exec (.cvuSetKey k) s = .next (answered k m ST_OK []
      ((List.range 8).foldl (fun s w => wr (CVU_CH_KEY_key c w) (m.word (3 + w)) s) (taken k s)))) ∧
  (∀ (k : Fin 32) (m : Msg) (s : State) (c : Nat) (j : CvuJob), asked Op.CVU_ABORT k m s = true → c = bits (m.word 2) 2 0 →
    Req.polder ⟨k, m⟩ = some (cvuHolder s c) → cvuJob s c = some j → exec (.cvuAbort k) s =
      .next (answered k m ST_OK [] (setCvu c (some { j with abort := true }) (taken k s)))) ∧
  -- CVU_FIELD_CHECK of a field that its medium holds, on the first idle channel of polder 0
  (∀ (k : Fin 32) (m : Msg) (s : State) (n offset len medium c : Nat), asked Op.CVU_FIELD_CHECK k m s = true → n = bits (m.word 2) 5 0 →
    medium = bits (m.word 2) 8 8 → offset = m.word 11 + 4294967296 * m.word 12 → len = m.word 13 + 4294967296 * m.word 14 → 1 ≤ n → n ≤ 32 →
    1 ≤ len → (medium = 0 → offset + len ≤ 0x20000000) → fieldChannel s = some c → exec (.cvuFieldCheck k) s = .next (settle 4
      (reply ⟨k, Msg.opcode m, Msg.seq m⟩ ST_PENDING [] (cvuStart c
        { addr := flashAddr medium offset, len := len, cfg := 2 + 16384, poly := 0, init := 0, xorout := 0, expect := [], run := [],
          key := ((List.range 8).flatMap (fun i => leBytes 4 (m.word (3 + i)))).take n, began := rd s (POL_SHARE_cvu 0) != 0, abort := false,
          field := some ⟨k, Msg.opcode m, Msg.seq m⟩ } (taken k s)))))

/-- R25, R413 to R423: what the resets and the boot chain do. -/
def Obligations.BootComplete : Prop :=
  -- DEVICE_RESET at power-on and by its pin, TUJAN_WATCHDOG, POWER_FAIL_RESET, THERMAL_RESTART and STANDBY_WAKE: a device reset with its cause
  (∀ (r : ResetInfo) (s : State), exec (.deviceReset false r) s = .next (settle 4 (deviceReset 1 true r s))) ∧
  (∀ (r : ResetInfo) (s : State), exec (.deviceReset true r) s = .next (settle 4 (deviceReset 2 false r s))) ∧
  (∀ (r : ResetInfo) (s : State), exec (.tujanWatchdog r) s = .next (settle 4 (deviceReset 5 false r s))) ∧
  (∀ (r : ResetInfo) (s : State) (p : Nat), s.vlt.pf = some p → exec (.powerFailReset r) s = .next (settle 4 (deviceReset 3 true r s))) ∧
  (∀ (r : ResetInfo) (s : State), s.pwr.off = 2 → exec (.thermalRestart r) s =
    .next (settle 4 (deviceReset 4 true r (advanceTo (s.pwr.offAt + 1000000000) s)))) ∧
  (∀ (r : ResetInfo) (s : State), s.pwr.off = 1 → exec (.standbyWake r) s = .next (settle 4 (deviceReset 1 true r s))) ∧
  -- PWR_RESET in ACTIVE with no claim
  (∀ (k : Fin 32) (m : Msg) (r : ResetInfo) (s : State), asked Op.PWR_RESET k m s = true → s.pwr.trans = none → rd s CRP_STATUS_power_state = 0 →
    idxWhere 24 (fun b => claimed s b) = [] → exec (.pwrReset k r) s =
      .next (settle 4 (deviceReset 6 false r (reply ⟨k, Msg.opcode m, Msg.seq m⟩ ST_OK [] (taken k s))))) ∧
  -- TUJAN_FIRMWARE_START from flash or eMMC, and from a file that the network gives; HOST_BOOT_WRITE in PCIe boot
  (∀ (f : Option (List (BitVec 8))) (s : State), s.pwr.off = 0 → s.pwr.copy < 3 → imageStarted s = false → rdB s CRP_STATUS_tujan_ready = false →
    imageSource s ≤ 2 → exec (.tujanFirmwareStart f) s = .next (settle 4 (bootFirmware s))) ∧
  (∀ (bs : List (BitVec 8)) (s : State), s.pwr.off = 0 → s.pwr.copy < 3 → imageStarted s = false → rdB s CRP_STATUS_tujan_ready = false →
    imageSource s = 4 → bs.length ≤ 0x2000000 → exec (.tujanFirmwareStart (some bs)) s =
      .next (settle 4 (bootFirmware (writeBytes 0x43000000 (bs.map (fun b => b.toNat)) s)))) ∧
  (∀ (a : Access) (addr : BitVec 40) (v : BitVec 32) (s : State), addr.toNat = 0x20000008 → a.route = Route.bar0 → s.pci.linkUp = true →
    s.pwr.off = 0 → s.pwr.copy < 3 → imageSource s = 3 → imageStarted s = false → rdB s CRP_STATUS_tujan_ready = false →
    exec (.hostBootWrite a addr v) s = .next (settle 4 (bootFirmware (wr CRP_HOST_BOOT_length v.toNat s)))) ∧
  -- DRAM_INIT_DONE while DRAM trains: initialised, or the image fails with reason 10
  (∀ (t : BitVec 16) (s : State), s.dmc.gib ≠ 0 → dramReady s = false → imageStarted s = true →
    exec (.dramInitDone true t) s = .next (settle 4 (dramTemp t.toNat (wrAll DMC_STATUS_init_done 1 s)))) ∧
  (∀ (t : BitVec 16) (s : State), s.dmc.gib ≠ 0 → dramReady s = false → imageStarted s = true →
    exec (.dramInitDone false t) s = .next (settle 4 (imageFails 2 10 s))) ∧
  -- SPLASH_SEGMENT_LOADED after step 5: kind 3's manifest and its segment 0 checked; the image fails, or steps 6 and 7 are taken with the enabled outputs
  (∀ (s s0 s1 : State) (m f r : Nat), imageStarted s = true → rd s CRP_BOOT_STAT_stage = 5 → m = manAt s 3 → s0 = wr CRP_BOOT_STAT_stage 6 s →
    f = manifestFault s0 3 m → (r, s1) = loadSegments 3 m [0] (acceptManifest 3 m s0) → exec .splashSegmentLoaded s = .next (settle 4
      (if f ≠ 0 then imageFails 3 f s0 else if r ≠ 0 then imageFails 3 r s1 else
        (List.range 8).foldl (fun s n => splashOutput (segDest s1 m 0) n s) (bootStep 7 (bootStep 6 s1))))) ∧
  -- SPLASH_HEARTBEAT 250 ms after the last
  (∀ (s s1 s2 : State), s.pwr.splash ≠ [] → s1 = advanceTo (s.pwr.splashAt + 250000000) s →
    s2 = s1.pwr.splash.foldl (fun s n => setSlot (56 + n) { slot s (56 + n) with beat := s1.devTime } s) s1 →
    exec .splashHeartbeat s = .next (settle 4 { s2 with pwr := { s2.pwr with splashAt := s2.now } })) ∧
  -- HART_RELEASE after step 7 with DRAM initialised and the other segments good
  (∀ (s s1 : State) (m : Nat), imageStarted s = true → rd s CRP_BOOT_STAT_stage = 7 → dramReady s = true → m = manAt s 3 →
    loadSegments 3 m ((List.range (manField s m 0x18 4)).filter (fun i => i != 0)) (wr CRP_BOOT_STAT_stage 9 s) = (0, s1) →
    exec .hartRelease s = .next (settle 4 (release s1))) ∧
  -- BOOT_OTP_PROGRAM by a polder warden of a field that is not locked; BOOT_GET_INFO
  (∀ (k : Fin 32) (m : Msg) (s : State) (n mask : Nat), asked Op.BOOT_OTP_PROGRAM k m s = true → n = bits (m.word 2) 7 0 →
    mask = leNat ((List.range 8).flatMap (fun i => leBytes 4 (m.word (3 + i)))) % 2 ^ otpWidth n → s.warden.kind = 1 → otpLocked s n mask = false →
    exec (.bootOtpProgram k) s = .next (answered k m ST_OK [] (record0 Src.CRP_OTP none [n, popCount 256 (andNot mask (Tab.get 0 s.pwr.fuses n)), 0]
      { taken k s with pwr := { s.pwr with fuses := s.pwr.fuses.put n (Tab.get 0 s.pwr.fuses n ||| mask) } }))) ∧
  (∀ (k : Fin 32) (m : Msg) (s : State), asked Op.BOOT_GET_INFO k m s = true → exec (.bootGetInfo k) s = .next (answered k m ST_OK
    ([packFlds s [CRP_BOOT_STAT_stage, CRP_BOOT_STAT_reason, CRP_BOOT_STAT_ready_ms]] ++ (List.range 3).map (fun i => s.pwr.svn.getD i 0) ++ [otp s 6])
    (taken k s)))

/-- R424 to R432, R412, R436: what the power steps and commands do. -/
def Obligations.PowerComplete : Prop :=
  -- TELEMETRY_READ that changes no thermal state
  (∀ (ts rs : List (BitVec 16)) (s s2 : State) (h : Nat) (x : List Int), x = (List.range 12).map (fun i => sgn 16 (ts.getD i 0).toNat) →
    h = hottest x → s2 = (List.range 6).foldl (fun s i => wr (CRP_RAIL_mw i) (rs.getD i 0).toNat s)
      ((List.range 12).foldl (fun s k => wrI (CRP_TEMP_temp k) (x.getD k 0) s) (pumpRan 8 10000000 s)) →
    rdB (wr CRP_THERM_STAT_hottest h s2) CRP_THERM_STAT_warning = false → rdB (wr CRP_THERM_STAT_hottest h s2) CRP_THERM_STAT_throttled = false →
    x.getD h 0 ≤ rd s CRP_THERM_CFG_warn → x.getD h 0 ≤ rd s CRP_THERM_CFG_throttle →
    rd s CRP_THERM_STAT_warning + 2 * rd s CRP_THERM_STAT_throttled = rd (wr CRP_THERM_STAT_hottest h s2) CRP_THERM_STAT_warning +
      2 * rd (wr CRP_THERM_STAT_hottest h s2) CRP_THERM_STAT_throttled →
    exec (.telemetryRead ts rs) s = .next (settle 4 (wr CRP_THERM_STAT_hottest h s2))) ∧
  -- THERMAL_SHUTDOWN at 125.0 degrees or more: recorded, any transition ended, Table VLT-2's flush, off
  (∀ (i : Fin 12) (t : BitVec 16) (s s2 : State), 1250 ≤ sgn 16 t.toNat → s.pwr.off = 0 → s.vlt.pf = none →
    s2 = flushSteps (setTrans none (record0 Src.CRP_THERMAL none [i, unsgn 32 (sgn 16 t.toNat), 3] s)) →
    exec (.thermalShutdown i t) s = .next (settle 4 { s2 with pwr := { s2.pwr with off := 2, offAt := s2.now } })) ∧
  -- QUIET_ACK of the preparing notification by the last party that was waited for; by one of several
  (∀ (k : Fin 32) (m : Msg) (s s1 : State) (u : Unacked) (t : PwrTrans), rdB s CRP_STATUS_tujan_ready = true → (chan s (2 * k)).q.head? = some m →
    isRequest m = false → badForm m = false → ackTarget s k m = some u → u.opcode = Op.PWR_STATE_CHANGED →
    s1 = clearUnacked (2 * k + 1) u.seq (dropHead (2 * k) s) → s1.pwr.trans = some t → t.acked = none → t.waiting.contains k.val = true →
    t.waiting.filter (fun i => i != k.val) = [] → exec (.quietAck k) s = .next (settle 4 (quietStep3 { t with waiting := [] } s1))) ∧
  (∀ (k : Fin 32) (m : Msg) (s s1 : State) (u : Unacked) (t : PwrTrans) (ws : List Nat), rdB s CRP_STATUS_tujan_ready = true →
    (chan s (2 * k)).q.head? = some m → isRequest m = false → badForm m = false → ackTarget s k m = some u → u.opcode = Op.PWR_STATE_CHANGED →
    s1 = clearUnacked (2 * k + 1) u.seq (dropHead (2 * k) s) → s1.pwr.trans = some t → t.acked = none → t.waiting.contains k.val = true →
    ws = t.waiting.filter (fun i => i != k.val) → ws.isEmpty = false →
    exec (.quietAck k) s = .next (settle 4 (setTrans (some { t with waiting := ws }) s1))) ∧
  -- QUIET_ACK_TIMEOUT: back to ACTIVE, and the request refused
  (∀ (s s1 : State) (t : PwrTrans), s.pwr.trans = some t → t.acked = none →
    s1 = wr CRP_STATUS_power_state 0 (setTrans none (advanceTo (t.start + 1000000000) s)) → exec .quietAckTimeout s = .next (settle 4
      (notifyAll Op.PWR_STATE_CHANGED [0] (reply t.job ST_PWR_NACK [] { (recordWakes s1) with wakes := [] })))) ∧
  -- QUIET_ENTRY_DONE after every acknowledgement: Table CRP-8 steps 4 to 6
  (∀ (s s1 s3 s4 : State) (t : PwrTrans), s.pwr.trans = some t → t.shutdown = false → t.acked.isSome = true →
    s1 = freeLocksOf (quietMasters t.kept) (clrBits CRP_PD_STAT_on (quietDomains t.kept) (s.pwr.restart.foldl (fun s n => outputOff n s) s)) →
    s3 = (List.range 16).foldl (fun s c => closeRows c s) (wrAll DMC_STATUS_self_refresh 1
      ((List.range 8).foldl (fun s h => setHart h { hart s h with running := false } s) s1)) →
    s4 = setTrans none (tchQuietEntry (wr CRP_STATUS_power_state 1 (record0 Src.DMC_SELF_REFRESH none [1, rd s3 (DMC_PASR_keep 0)] s3))) →
    exec .quietEntryDone s = .next (settle 4 (record0 Src.CRP_POWER_STATE none [1, 0]
      (tujanSend t.job.pair true false (mkMsg t.job.opcode flagReply [ST_OK + 65536 * t.job.seq]) s4)))) ∧
  -- WAKE_EVENT in QUIET: Table CRP-9 steps 1 to 5
  (∀ (s s1 s2 s4 : State), rd s CRP_STATUS_power_state = 1 → s.wakes.isEmpty = false → s1 = { (recordWakes s) with wakes := [] } →
    s2 = startHarts (orBits CRP_PD_STAT_on (rd s1 CRP_PD_CTRL_on &&& 31) (wr CRP_STATUS_warm 1 (wr CRP_STATUS_power_state 3 s1))) →
    s4 = record0 Src.DMC_SELF_REFRESH none [0, rd s2 (DMC_PASR_keep 0)] (wrAll DMC_STATUS_self_refresh 0
      (dropSegments { s2 with pld := { s2.pld with entries := [] } })) →
    exec .wakeEvent s = .next (settle 4 (s4.pwr.restart.foldl (fun s n => outputRestarts n s) s4))) ∧
  -- QUIET_EXIT_DONE: ACTIVE, and every party told
  (∀ (s s2 : State), rd s CRP_STATUS_power_state = 3 → s2 = tchQuietExit (wr CRP_STATUS_power_state 0 { (recordWakes s) with wakes := [] }) →
    exec .quietExitDone s = .next (settle 4 (record0 Src.CRP_POWER_STATE none [0, 1] (notifyAll Op.PWR_STATE_CHANGED [0]
      { s2 with pwr := { s2.pwr with restart := [] } })))) ∧
  -- SHUTDOWN_COMPLETE: the archive, the snapshots and the meters written, answered, the outputs off, STANDBY
  (∀ (s s2 : State) (t : PwrTrans) (a : Nat), s.pwr.trans = some t → t.shutdown = true → t.acked = some a →
    s2 = (List.range 8).foldl (fun s n => outputOff n s) (settle 4 (reply t.job ST_OK [] (finishSync (startSync (snapToFlash 1 (snapToFlash 0
      (archiveAll s.evr.archive.waiting.length s))))))) → exec (.shutdownComplete true) s = .next (settle 4
        { s2 with pwr := { s2.pwr with trans := none, off := 1, offAt := s2.now } })) ∧
  (∀ (k : Fin 32) (m : Msg) (s : State), asked Op.PWR_GET_STATE k m s = true → exec (.pwrGetState k) s =
    .next (answered k m ST_OK [crpStatus s, rd s CRP_PD_STAT_on, rd s CRP_CLK_GATE_gate] (taken k s))) ∧
  (∀ (k : Fin 32) (m : Msg) (s : State) (pair : (Nat → Fld) → Nat → Nat), asked Op.PWR_GET_TELEMETRY k m s = true →
    pair = (fun f i => rd s (f (2 * i)) + 65536 * rd s (f (2 * i + 1))) → exec (.pwrGetTelemetry k) s = .next (answered k m ST_OK
      ((List.range 6).map (pair CRP_TEMP_temp) ++ (List.range 3).map (pair CRP_RAIL_mw) ++
        [packFlds s [CRP_THERM_STAT_warning, CRP_THERM_STAT_throttled, CRP_THERM_STAT_last_shutdown, CRP_THERM_STAT_hottest]]) (taken k s))) ∧
  (∀ (k : Fin 32) (m : Msg) (s : State), asked Op.PUMP_GET_STATUS k m s = true → exec (.pumpGetStatus k) s = .next (answered k m ST_OK
    ((List.range 10).map (fun a => packFlds s [CRP_PUMP_STAT_runs a, CRP_PUMP_STAT_late a])) (taken k s))) ∧
  -- PWR_ENTER_QUIET and PWR_SHUTDOWN that nothing refuses: the parties are asked to prepare
  (∀ (k : Fin 32) (m : Msg) (s : State), asked Op.PWR_ENTER_QUIET k m s = true →
    transitionRefusal ⟨k, m⟩ (taken k s) (bits (m.word 2) 7 0) (quietBlocks (bits (m.word 2) 7 0)) = none → exec (.pwrEnterQuiet k) s =
      .next (settle 4 (quietStart ⟨k, Msg.opcode m, Msg.seq m⟩ false (bits (m.word 2) 7 0)
        (reply ⟨k, Msg.opcode m, Msg.seq m⟩ ST_PENDING [] (taken k s))))) ∧
  (∀ (k : Fin 32) (m : Msg) (s : State), asked Op.PWR_SHUTDOWN k m s = true →
    transitionRefusal ⟨k, m⟩ (taken k s) 0 (List.range 24) = none → exec (.pwrShutdown k) s =
      .next (settle 4 (quietStart ⟨k, Msg.opcode m, Msg.seq m⟩ true 0 (reply ⟨k, Msg.opcode m, Msg.seq m⟩ ST_PENDING [] (taken k s))))) ∧
  -- PWR_SET_BLOCK of a block that is idle and not claimed: ungated, gated, reset
  (∀ (k : Fin 32) (m : Msg) (s : State), asked Op.PWR_SET_BLOCK k m s = true → bits (m.word 2) 4 0 < 24 → bits (m.word 2) 9 8 = 0 →
    exec (.pwrSetBlock k) s = .next (answered k m ST_OK [] (clrBits CRP_CLK_GATE_gate (2 ^ bits (m.word 2) 4 0) (taken k s)))) ∧
  (∀ (k : Fin 32) (m : Msg) (s : State) (b : Nat), asked Op.PWR_SET_BLOCK k m s = true → b = bits (m.word 2) 4 0 → b < 24 →
    bits (m.word 2) 9 8 = 1 → claimed s b = false → blockWorks (taken k s) b = false →
    exec (.pwrSetBlock k) s = .next (answered k m ST_OK [] (orBits CRP_CLK_GATE_gate (2 ^ b) (taken k s)))) ∧
  (∀ (k : Fin 32) (m : Msg) (s : State) (b : Nat), asked Op.PWR_SET_BLOCK k m s = true → b = bits (m.word 2) 4 0 → b < 24 →
    bits (m.word 2) 9 8 = 2 → claimed s b = false → blockWorks (taken k s) b = false →
    exec (.pwrSetBlock k) s = .next (answered k m ST_OK [] (blockReset b (taken k s)))) ∧
  -- PWR_SET_THERMAL with thresholds in range
  (∀ (k : Fin 32) (m : Msg) (s : State) (w t : Nat), asked Op.PWR_SET_THERMAL k m s = true → w = bits (m.word 2) 11 0 → t = bits (m.word 2) 27 16 →
    700 ≤ w → w + 10 ≤ t → t ≤ 1150 →
    exec (.pwrSetThermal k) s = .next (answered k m ST_OK [] (wr CRP_THERM_CFG_throttle t (wr CRP_THERM_CFG_warn w (taken k s)))))

/-- R439, R446 to R451: what the general I/O steps and register accesses do. -/
def Obligations.GeneralIoComplete : Prop :=
  -- PMBUS_STEP on a good rail, acknowledged: at most 10 mV towards the target; the first command with no acknowledgement
  (∀ (r : Fin 2) (t : BitVec 12) (s : State) (mv at_ : Nat), s.pwr.rails.getD r (0, 2, 0) = (mv, 0, at_) → s.evr.started = true →
    exec (.pmbusStep r t true) s =
      .next { s with pwr := { s.pwr with rails := s.pwr.rails.set r (max (mv - 10) (min (mv + 10) t.toNat), 1, s.now) } }) ∧
  (∀ (r : Fin 2) (t : BitVec 12) (s : State) (mv at_ : Nat), s.pwr.rails.getD r (0, 2, 0) = (mv, 0, at_) → s.evr.started = true →
    exec (.pmbusStep r t false) s = .next (settle 4 (record0 Src.GIO_PMBUS_FAULT none [0x20 + r, 1]
      { s with pwr := { s.pwr with rails := s.pwr.rails.set r (mv, 2, s.now) } }))) ∧
  -- UART_DATA_WRITE with room; UART_DATA_READ with a byte, and with none
  (∀ (a : Access) (addr : BitVec 40) (v : BitVec 32) (u : Nat) (s : State), admitted a addr.toNat v.toNat s = true →
    gioRegAt addr.toNat 0x20900000 8 0 = some u → (uart s u).tx.length < 64 → exec (.uartDataWrite a addr v) s =
      .next (settle 4 (setUart u ⟨(uart s u).tx ++ [v.toNat % 256], (uart s u).rx⟩ s))) ∧
  (∀ (a : Access) (addr : BitVec 40) (u b : Nat) (p f : Bool) (t : List (Nat × Bool × Bool)) (s s1 : State), readable a addr.toNat s = true →
    gioRegAt addr.toNat 0x20900000 8 0 = some u → (uart s u).rx = (b, p, f) :: t → s1 = setUart u ⟨(uart s u).tx, t⟩ s →
    exec (.uartDataRead a addr) s = .next (settle 4 { s1 with busReply := b + 256 * b2n p + 512 * b2n f + 1024 })) ∧
  (∀ (a : Access) (addr : BitVec 40) (u : Nat) (s : State), readable a addr.toNat s = true → gioRegAt addr.toNat 0x20900000 8 0 = some u →
    (uart s u).rx = [] → exec (.uartDataRead a addr) s = .next (settle 4 { s with busReply := 0 })) ∧
  -- UART_RX_BYTE of an enabled UART without loopback, and of a break; UART_TX_DONE without loopback, and with
  (∀ (u : Fin 8) (b : BitVec 8) (p f : Bool) (s : State), uartOn s u = true → rdB s (GIO_UART_CFG_loopback u).inForce = false →
    exec (.uartRxByte u b p f false) s = .next (settle 4 (uartStore u b.toNat (p && rdB s (GIO_UART_CFG_parity u).inForce) f s))) ∧
  (∀ (u : Fin 8) (b : BitVec 8) (p f : Bool) (s : State), uartOn s u = true → rdB s (GIO_UART_CFG_loopback u).inForce = false →
    exec (.uartRxByte u b p f true) s = .next (settle 4 (uartStore u 0 false true (wr (GIO_UART_STAT_brk u) 1 s)))) ∧
  (∀ (u : Fin 8) (b : Nat) (t : List Nat) (rx : List (Nat × Bool × Bool)) (s : State), uart s u = ⟨b :: t, rx⟩ → uartOn s u = true →
    rdB s (GIO_UART_CFG_loopback u).inForce = false → exec (.uartTxDone u) s = .next (settle 4 (setUart u ⟨t, rx⟩ s))) ∧
  (∀ (u : Fin 8) (b : Nat) (t : List Nat) (rx : List (Nat × Bool × Bool)) (s : State), uart s u = ⟨b :: t, rx⟩ → uartOn s u = true →
    rdB s (GIO_UART_CFG_loopback u).inForce = true →
    exec (.uartTxDone u) s = .next (settle 4 (uartStore u b false false (setUart u ⟨t, rx⟩ s)))) ∧
  -- I2C_CMD with room; I2C_RX_READ; I2C_CMD_DONE of a write, of a read with room, not acknowledged, and with arbitration lost
  (∀ (a : Access) (addr : BitVec 40) (v : BitVec 32) (i : Nat) (s : State), admitted a addr.toNat v.toNat s = true →
    gioRegAt addr.toNat 0x20901000 4 8 = some i → (i2c s i).cmds.length < 16 → exec (.i2cCmd a addr v) s =
      .next (settle 4 (setI2c i ⟨(i2c s i).cmds ++ [v.toNat % 4096], (i2c s i).rx⟩ s))) ∧
  (∀ (a : Access) (addr : BitVec 40) (i b : Nat) (t : List Nat) (s s1 : State), readable a addr.toNat s = true →
    gioRegAt addr.toNat 0x20901000 4 0xC = some i → (i2c s i).rx = b :: t → s1 = setI2c i ⟨(i2c s i).cmds, t⟩ s →
    exec (.i2cRxRead a addr) s = .next (settle 4 { s1 with busReply := b })) ∧
  (∀ (i : Fin 4) (b : BitVec 8) (c : Nat) (t : List Nat) (s : State), (i2c s i).cmds = c :: t → rdB s (GIO_I2C_CFG_enable i) = true →
    bit c 8 = false → exec (.i2cCmdDone i (.done b)) s = .next (settle 4 (setI2c i ⟨t, (i2c s i).rx⟩ s))) ∧
  (∀ (i : Fin 4) (b : BitVec 8) (c : Nat) (t : List Nat) (s : State), (i2c s i).cmds = c :: t → rdB s (GIO_I2C_CFG_enable i) = true →
    bit c 8 = true → (i2c s i).rx.length < 16 → exec (.i2cCmdDone i (.done b)) s =
      .next (settle 4 (setI2c i ⟨t, (i2c s i).rx ++ [b.toNat]⟩ s))) ∧
  (∀ (i : Fin 4) (c : Nat) (t : List Nat) (s : State), (i2c s i).cmds = c :: t → rdB s (GIO_I2C_CFG_enable i) = true →
    exec (.i2cCmdDone i .nack) s = .next (settle 4 (i2cError (GIO_I2C_STAT_nack i) i (afterStop (c :: t)) s))) ∧
  (∀ (i : Fin 4) (c : Nat) (t : List Nat) (s : State), (i2c s i).cmds = c :: t → rdB s (GIO_I2C_CFG_enable i) = true →
    exec (.i2cCmdDone i .arbLost) s = .next (settle 4 (i2cError (GIO_I2C_STAT_arb_lost i) i [] s))) ∧
  -- SPI_TX_WRITE with room; SPI_RX_READ; SPI_WORD_DONE with room, and with the receive FIFO full
  (∀ (a : Access) (addr : BitVec 40) (v : BitVec 32) (k : Nat) (s : State), admitted a addr.toNat v.toNat s = true →
    gioRegAt addr.toNat 0x20902000 4 8 = some k → (spi s k).tx.length < 16 → exec (.spiTxWrite a addr v) s =
      .next (settle 4 (setSpi k ⟨(spi s k).tx ++ [v.toNat], (spi s k).rx, (spi s k).cs⟩ s))) ∧
  (∀ (a : Access) (addr : BitVec 40) (k w : Nat) (t : List Nat) (s s1 : State), readable a addr.toNat s = true →
    gioRegAt addr.toNat 0x20902000 4 0xC = some k → (spi s k).rx = w :: t → s1 = setSpi k ⟨(spi s k).tx, t, (spi s k).cs⟩ s →
    exec (.spiRxRead a addr) s = .next (settle 4 { s1 with busReply := w })) ∧
  (∀ (k : Fin 4) (rx : BitVec 32) (w : Nat) (t : List Nat) (s : State), (spi s k).tx = w :: t → rdB s (GIO_SPI_CFG_enable k) = true →
    (spi s k).rx.length < 16 → exec (.spiWordDone k rx) s = .next (settle 4 (setSpi k ⟨t, (spi s k).rx ++
      [rx.toNat % 2 ^ (rd s (GIO_SPI_CFG_bits k).inForce + 1)], (spi s k).cs⟩ s))) ∧
  (∀ (k : Fin 4) (rx : BitVec 32) (w : Nat) (t : List Nat) (s : State), (spi s k).tx = w :: t → rdB s (GIO_SPI_CFG_enable k) = true →
    16 ≤ (spi s k).rx.length → exec (.spiWordDone k rx) s = .next (settle 4 (setSpi k ⟨t, (spi s k).rx, (spi s k).cs⟩
      (wr (GIO_SPI_STAT_rx_overflow k) 1 s)))) ∧
  -- GPIO_OUT_SET and GPIO_OUT_CLR of the pins of the groups that the access's polder owns; GPIO_EDGE
  (∀ (a : Access) (addr : BitVec 40) (v : BitVec 32) (b : Nat) (s : State), admitted a addr.toNat v.toNat s = true →
    gioRegAt addr.toNat 0x20903000 2 4 = some b → exec (.gpioOutSet a addr v) s = .next (settle 4
      (gpioOut b (rd s (GIO_GPIO_OUT_out b) ||| (v.toNat &&& gpioMask s b (carried s a addr.toNat))) s))) ∧
  (∀ (a : Access) (addr : BitVec 40) (v : BitVec 32) (b : Nat) (s : State), admitted a addr.toNat v.toNat s = true →
    gioRegAt addr.toNat 0x20903000 2 8 = some b → exec (.gpioOutClr a addr v) s = .next (settle 4
      (gpioOut b (andNot (rd s (GIO_GPIO_OUT_out b)) (v.toNat &&& gpioMask s b (carried s a addr.toNat))) s))) ∧
  (∀ (n : Fin 64) (level : Bool) (s : State), exec (.gpioEdge n level) s = .next (settle 4
    (gpioFollow (n / 32) (gpioLevels s (n / 32)) (setGio (fun g => { g with pins := g.pins.put n (b2n level) }) s))))

/-- A step takes the command at the front of the queue, and its outcome is that command's on the state with the queue's rest. -/
def Obligations.StepRunsTheFrontCommand : Prop :=
  ∀ (c : Instr) (rest : List Instr) (s : State), s.pending = c :: rest → step s = exec c { s with pending := rest }

/-- On an empty queue the block idles: a nanosecond of time passes, and nothing but the clocks changes. The idle step is the model's
choice (notes/assumptions/6.md). -/
def Obligations.EmptyQueueLetsTimePass : Prop :=
  ∀ s : State, s.pending = [] → step s = .next { s with
    now := s.now + 1
    devTime := (s.devTime + (s.devFrac + (1000000000 + rdI s ONL_TIME_RATE_adj).toNat) / 1000000000) % 2 ^ 64
    devFrac := (s.devFrac + (1000000000 + rdI s ONL_TIME_RATE_adj).toNat) % 1000000000
    vlt := rtcAfter 1 s.vlt }

/-- R29, R43 and the register tables: after reset every register field reads its reset value, no channel holds a message and each
numbers its next message 0, every lock's pointer is 1, every hart is stopped, no warden, reset or grant stands, the recorder holds nothing, and memory lists
nothing. The values of the fields to which a table gives none are the model's (notes/assumptions/5.md). -/
def Obligations.ResetValues : Prop :=
  (∀ f : Fld, rd State.reset f = f.rst) ∧
  (∀ n, (chan State.reset n).q = [] ∧ (chan State.reset n).nextSeq = 0) ∧
  (∀ n, rd State.reset (MBX_LOCK_OWNER_owner n) = 0 ∧ lockPointer State.reset n = 1) ∧
  (∀ h, (hart State.reset h).running = false) ∧
  State.reset.warden.kind = 0 ∧ State.reset.resets = [] ∧ State.reset.grants = [] ∧
  State.reset.evr.ring = [] ∧ State.reset.evr.fifo = [] ∧
  (∀ a, byteAt State.reset a = 0) ∧ State.reset.pending = []

/-- The state after reset meets every invariant that a step keeps. -/
def Obligations.ResetMeetsTheInvariants : Prop :=
  MemoryCanonical State.reset ∧ ChannelsBounded State.reset ∧ WardenLegal State.reset ∧ RecorderBounded State.reset

/-- No command touches the queue of the commands that wait behind it. -/
def Obligations.CommandsLeaveTheQueue : Prop :=
  ∀ (c : Instr) (s t : State), exec c s = .next t → t.pending = s.pending

/-- Every step keeps memory in its one canonical form, so that equal memories are equal data. -/
def Obligations.StepsKeepMemoryCanonical : Prop :=
  ∀ s t : State, MemoryCanonical s → step s = .next t → MemoryCanonical t

/-- R33: in no step does a channel that holds eight messages or fewer come to hold more. -/
def Obligations.StepsKeepChannelsBounded : Prop :=
  ∀ s t : State, ChannelsBounded s → step s = .next t → ChannelsBounded t

/-- R387, R393, R397: in no step does the ring, the holding FIFO or the vault queue come to hold more than it has room for. -/
def Obligations.StepsKeepTheRecorderBounded : Prop :=
  ∀ s t : State, RecorderBounded s → step s = .next t → RecorderBounded t

/-- R48: the warden, every candidate that claims, and the target of an offer stay of a kind that Table MBX-10 has. -/
def Obligations.StepsKeepTheWardenLegal : Prop :=
  ∀ s t : State, WardenLegal s → step s = .next t → WardenLegal t

/-- R415: no step clears a blown bit of the one-time-programmable fields: programming and every device reset included. -/
def Obligations.BlownBitsStayBlown : Prop :=
  ∀ (s t : State) (field bitNo : Nat), bit (Tab.get 0 s.pwr.fuses field) bitNo = true → step s = .next t →
    bit (Tab.get 0 t.pwr.fuses field) bitNo = true

/-- No step draws a free value a second time: their counter never falls. The counter is the model's own (notes/assumptions/3.md). -/
def Obligations.FreeValuesAreDrawnOnce : Prop :=
  ∀ s t : State, step s = .next t → s.free ≤ t.free

/-- The frame of memory: under every command that stores nothing (`storesNothing`), every byte reads as before. -/
def Obligations.CommandsThatStoreNothing : Prop :=
  ∀ (c : Instr) (s t : State), storesNothing c = true → exec c s = .next t → ∀ a, byteAt t a = byteAt s a

/-- R25, R30, R31, R32, R35, R57, R462, Table POL-7 step 1: what becomes of every request of every party before the rules of its own
command are asked. A command that is not at the head of its channel, or whose channel Tujan does not serve now, does not come about; and
a request refused for its form, its class, its sender's reset or its reference has no effect but its reply and, for its class, a record. -/
def Obligations.RefusedRequestsOnlyReply : Prop :=
  ∀ (c : Instr) (op k : Nat) (s : State), asksFor c = some (op, k) →
    (takeable s k = none → exec c s = .next (settle 4 s)) ∧
    ∀ m : Msg, takeable s k = some m →
      (Msg.opcode m ≠ op ∨ (isRequest m = false ∧ badForm m = false) → exec c s = .next (settle 4 s)) ∧
      (Msg.opcode m = op → badForm m = true → exec c s = .next (answered k m ST_BAD_ARG [] (taken k s))) ∧
      (Msg.opcode m = op → isRequest m = true → badForm m = false →
        (∀ st, classRefusal s ⟨k, m⟩ = some st → exec c s = .next (answered k m st [] (recordRefusal ⟨k, m⟩ st (taken k s)))) ∧
        (classRefusal s ⟨k, m⟩ = none → senderResetting s ⟨k, m⟩ = true → exec c s = .next (answered k m ST_RESETTING [] (taken k s))) ∧
        (classRefusal s ⟨k, m⟩ = none → senderResetting s ⟨k, m⟩ = false → ∀ st, refRefusal s ⟨k, m⟩ = some st →
          exec c s = .next (answered k m st [] (taken k s))))

/-- The frame of every access to memory, over every route, master and form (R78, R84, R111, R119): where the access stores bytes
(`storesAt`), only the bytes from that address on, as many as it is long, may change; and where it stores none (a read, a fetch, an
access that reaches no address) every byte of memory reads as before. An access that a register or page takes is that register's. The
alias writes of OCM_ALIAS_WRITE are accesses of this kind. -/
def Obligations.AccessesStoreOnlyWhereAddressed : Prop :=
  (∀ (r : MemReq) (s t : State) (a : Nat), MemoryCanonical s → meetsRegister r s = false → exec (.memoryAccess r) s = .next t →
    storesAt r s = some a → ∀ b, b < a ∨ a + r.len ≤ b → byteAt t b = byteAt s b) ∧
  (∀ (r : MemReq) (s t : State), MemoryCanonical s → meetsRegister r s = false → exec (.memoryAccess r) s = .next t →
    storesAt r s = none → ∀ b, byteAt t b = byteAt s b) ∧
  (∀ (ac : Access) (addr : BitVec 40) (size : Fin 17) (v : BitVec 64) (u : Bool) (s t : State) (r : MemReq) (a : Nat),
    MemoryCanonical s → r = { acc := ac, dir := .write, addr := addr, len := size.castLE (by decide), data := (leBytes size v.toNat).map (BitVec.ofNat 8),
                              block := 0, unit := 0, ecc := if u then .uncorrectable else .clean, retry := .none, outstanding := none } →
    meetsRegister r s = false → exec (.ocmAliasWrite ac addr size v u) s = .next t → storesAt r s = some a →
    ∀ b, b < a ∨ a + size ≤ b → byteAt t b = byteAt s b)

/-- R29, R33: a push by an admitted sender to a channel with room writes the message, whole and behind the others, at once and whatever
its receiver does, and takes the channel's next sequence number; a push to a channel that holds eight messages discards the message,
marks and records the overflow, and consumes no number. Each channel numbers its first message after reset 0. -/
def Obligations.PushesAreNumberedOrRefused : Prop :=
  (∀ n, (chan State.reset n).nextSeq = 0) ∧
  (∀ (a : Access) (addr : BitVec 40) (v : BitVec 32) (s : State) (n : Nat), chanRegAt s addr.toNat 0x40 = some n →
    admitted a addr.toNat v.toNat s = true → bit v.toNat 0 = true → (chan s n).q.length < 8 →
    ∃ u, exec (.mbxPush a addr v) s = .next (settle 4 u) ∧
      (chan u n).q = (chan s n).q ++
        [((carried s a addr.toNat).master + 64 * (carried s a addr.toNat).polder + 2048 * b2n (carried s a addr.toNat).secure +
          4096 * (chan s n).nextSeq) :: (staged s n).tail] ∧
      (chan u n).nextSeq = ((chan s n).nextSeq + 1) % 1024) ∧
  (∀ (a : Access) (addr : BitVec 40) (v : BitVec 32) (s : State) (n : Nat), chanRegAt s addr.toNat 0x40 = some n →
    admitted a addr.toNat v.toNat s = true → bit v.toNat 0 = true → 8 ≤ (chan s n).q.length →
    ∃ u, exec (.mbxPush a addr v) s = .next (settle 4 u) ∧ (∀ m, chan u m = chan s m) ∧ rd u (MBX_CH_STAT_tx_overflow n) = 1 ∧
      u.evr.raised = s.evr.raised ++ [⟨evCode Src.MBX_TX_OVERFLOW 0, chanPolder s n, false,
        [lo32 n, lo32 (carried s a addr.toNat).master], false⟩])

/-- R41, R42, R43: the reads of one lock in one cycle by different masters. While it is free exactly one of them becomes its owner: the
one whose ID comes first at or after the pointer, counting upward and wrapping from 63 to 1; it reads 0, every other reads the winner's
ID, and the pointer becomes the winner's ID plus 1, wrapping. While the lock is owned, its reads change nothing and return the owner's
ID, or 0 to the owner itself. The owner's write of its own ID frees the lock; any other write is ignored and recorded. After reset the
pointer is 1. -/
def Obligations.LocksHaveOneOwner : Prop :=
  (∀ n, lockPointer State.reset n = 1) ∧
  (∀ (n : Fin 32) (m : Fin 64) (ms : List (Fin 64)) (s : State), readersWf (m :: ms) = true →
    1 ≤ lockPointer s n → lockPointer s n ≤ 63 → rd s (MBX_LOCK_OWNER_owner n) = 0 →
    ∃ w ∈ m :: ms, ∃ t, exec (.mbxLockAcquire n (m :: ms)) s = .next t ∧
      (∀ x ∈ m :: ms, (w.val + 63 - lockPointer s n) % 63 ≤ (x.val + 63 - lockPointer s n) % 63) ∧
      rd t (MBX_LOCK_OWNER_owner n) = w.val ∧ lockPointer t n = (if w.val = 63 then 1 else w.val + 1) ∧
      t.busReply = (if m = w then 0 else w.val) ∧
      t = { s with regs := t.regs, lockPtr := t.lockPtr, busReply := t.busReply }) ∧
  (∀ (n : Fin 32) (m : Fin 64) (ms : List (Fin 64)) (s : State), rd s (MBX_LOCK_OWNER_owner n) ≠ 0 →
    exec (.mbxLockAcquire n (m :: ms)) s =
      .next { s with busReply := if rd s (MBX_LOCK_OWNER_owner n) = m.val then 0 else rd s (MBX_LOCK_OWNER_owner n) }) ∧
  (∀ (m : Fin 64) (n : Fin 32) (v : BitVec 32) (s : State), m.val ≠ 0 → rd s (MBX_LOCK_OWNER_owner n) = m.val → v.toNat = m.val →
    ∃ t, exec (.mbxLockRelease m n v) s = .next t ∧ rd t (MBX_LOCK_OWNER_owner n) = 0 ∧ t = { s with regs := t.regs }) ∧
  (∀ (m : Fin 64) (n : Fin 32) (v : BitVec 32) (s : State),
    ¬ (m.val ≠ 0 ∧ rd s (MBX_LOCK_OWNER_owner n) = m.val ∧ v.toNat = m.val) →
    ∃ u, exec (.mbxLockRelease m n v) s = .next (settle 4 u) ∧
      u = { s with evr := { s.evr with raised := s.evr.raised ++
        [⟨evCode Src.MBX_LOCK_VIOLATION 0, none, false, [lo32 m, lo32 v.toNat, lo32 n], false⟩] } })

/-- R11, R12: a read of a 64-bit register's low word latches its high word for the reading master alone, and a later read of the high
word by that master returns what was latched, whatever the register has become since; with nothing latched, it returns the word as it
is. A write of the low word is held for its master, and no register changes; the write of the high word then applies both halves at
once, and holds nothing any more. Each is said of a register without an effect of its own. -/
def Obligations.WideRegistersKeepTheirHalvesTogether : Prop :=
  (∀ (a : Access) (addr : BitVec 40) (s : State) (h : Nat) (row : Row) (ix : List Nat), isPage addr.toNat = false →
    msixAt s a addr.toNat = none → effectRead a addr s = none → readable a addr.toNat s = true →
    regHome s addr.toNat = some h → rowOf s addr.toNat = some (row, ix, false) → row.wide = true →
    ∃ u, exec (.reg64LowRead a addr 4) s = .next (settle 4 u) ∧ u.busReply = lo32 (regValue s h row ix) ∧
      (∀ m x, Tab.get none u.rdLatch (wordKey m x) = if wordKey m x = wordKey (carried s a addr.toNat).master addr.toNat
        then some (hi32 (regValue s h row ix)) else Tab.get none s.rdLatch (wordKey m x)) ∧
      ∀ f, rd u f = rd s f) ∧
  (∀ (r : MemReq) (s : State) (h : Nat) (row : Row) (ix : List Nat) (w : Nat), r.dir = .read → r.len = 4 → r.acc.route = .fabric →
    cannotIssue r (carried s r.acc r.addr.toNat) s = false → r.acc.master = 9 → isReg r.addr.toNat = true → isPage r.addr.toNat = false →
    effectRead r.acc r.addr s = none → readable r.acc r.addr.toNat s = true →
    regHome s r.addr.toNat = some h → rowOf s r.addr.toNat = some (row, ix, true) → row.wide = true →
    Tab.get none s.rdLatch (wordKey 9 (r.addr.toNat - 4)) = some w →
    exec (.memoryAccess r) s = .next (settle 4 { s with busReply := w })) ∧
  (∀ (r : MemReq) (s : State) (h : Nat) (row : Row) (ix : List Nat), r.dir = .read → r.len = 4 → r.acc.route = .fabric →
    cannotIssue r (carried s r.acc r.addr.toNat) s = false → r.acc.master = 9 → isReg r.addr.toNat = true → isPage r.addr.toNat = false →
    effectRead r.acc r.addr s = none → readable r.acc r.addr.toNat s = true →
    regHome s r.addr.toNat = some h → rowOf s r.addr.toNat = some (row, ix, true) → row.wide = true →
    Tab.get none s.rdLatch (wordKey 9 (r.addr.toNat - 4)) = none →
    exec (.memoryAccess r) s = .next (settle 4 { s with busReply := hi32 (regValue s (h - 4) row ix) })) ∧
  (∀ (a : Access) (addr : BitVec 40) (v : BitVec 64) (s : State) (h : Nat) (row : Row) (ix : List Nat),
    isReg addr.toNat = true → msixAt s a addr.toNat = none → rowWrite a addr (v.setWidth 32) s = none →
    admitted a addr.toNat (v.setWidth 32).toNat s = true → regHome s addr.toNat = some h → rowOf s addr.toNat = some (row, ix, false) →
    row.wide = true → writable (row.flds ix) = true →
    ∃ u, exec (.registerWrite a addr 4 v) s = .next (settle 4 u) ∧ (∀ f, rd u f = rd s f) ∧
      ∀ m x, Tab.get none u.wrHold (wordKey m x) = if wordKey m x = wordKey (carried s a addr.toNat).master addr.toNat
        then some (v.setWidth 32).toNat else Tab.get none s.wrHold (wordKey m x)) ∧
  (∀ (a : Access) (addr : BitVec 40) (v : BitVec 32) (s : State) (h : Nat) (row : Row) (ix : List Nat),
    isPage addr.toNat = false → msixAt s a addr.toNat = none → rowWrite a addr v s = none →
    admitted a addr.toNat v.toNat s = true → regHome s addr.toNat = some h → rowOf s addr.toNat = some (row, ix, true) →
    row.wide = true → writable (row.flds ix) = true →
    exec (.reg64HighWrite a addr v) s = .next (settle 4 (follows addr.toNat h s (fieldsTake (carried s a addr.toNat) addr.toNat v.toNat
      (row.flds ix) (val64 s (Tab.get none s.wrHold (wordKey (carried s a addr.toNat).master (addr.toNat - 4))) v.toNat)
      (holdWord (carried s a addr.toNat).master (addr.toNat - 4) none s)))))

/-- R69: the two banks of stvec, sscratch, sepc, scause, stval and satp, one per world. The bank of the current world is the one used; a
delegated trap saves into the bank of the world in which it occurs and leaves the other as it was; a trap into machine mode changes
neither bank and copies the world bit to mworld.mpw, from which MRET sets it again. -/
def Obligations.TrapsUseTheBankOfTheirWorld : Prop :=
  (∀ h : Hart, h.bank = if h.world = true then h.secureBank else h.normalBank) ∧
  (∀ (h : Fin 8) (code : Fin 64) (tval : BitVec 64) (s : State), (hart s h).canRun = true → (hart s h).priv ≠ 3 →
    bit (hart s h).medeleg code = true →
    ∃ g : Hart, exec (.trapToSupervisor h false code tval) s = .next (settle 4 (putHart h g s)) ∧ g.world = (hart s h).world ∧
      g.bank = { (hart s h).bank with sepc := (hart s h).pc, scause := code.val, stval := tval.toNat } ∧
      g.pc = trapTarget (hart s h).bank.stvec false code ∧
      ((hart s h).world = true → g.normalBank = (hart s h).normalBank) ∧
      ((hart s h).world = false → g.secureBank = (hart s h).secureBank)) ∧
  (∀ (h : Fin 8) (code : Fin 64) (tval : BitVec 64) (s : State), (hart s h).canRun = true → (hart s h).priv ≠ 3 →
    bit (hart s h).mideleg code = true → (hart s h).world = false →
    ((hart s h).priv ≠ 1 ∨ (hart s h).sie = true ∨ (hart s h).virt = true) →
    ∃ g : Hart, exec (.trapToSupervisor h true code tval) s = .next (settle 4 (putHart h g s)) ∧ g.world = false ∧
      g.normalBank = { (hart s h).normalBank with sepc := (hart s h).pc, scause := 2 ^ 63 + code.val, stval := 0 } ∧
      g.secureBank = (hart s h).secureBank) ∧
  (∀ (h : Fin 8) (interrupt : Bool) (code : Fin 64) (tval : BitVec 64) (s : State), (hart s h).canRun = true →
    (hart s h).goesToM interrupt code = true →
    ∃ g : Hart, exec (.trapToMachine h interrupt code tval) s = .next (settle 4 (putHart h g s)) ∧ g.mpw = (hart s h).world ∧
      g.secureBank = (hart s h).secureBank ∧ g.normalBank = (hart s h).normalBank) ∧
  (∀ (h : Fin 8) (s : State), (hart s h).canRun = true → (hart s h).priv = 3 → (hart s h).haltPending = false →
    ((hart s h).mpw = false ∨ (hart s h).mpv = false ∨ (hart s h).mpp = 3) →
    ∃ g : Hart, exec (.mret h) s = .next (settle 4 (putHart h g s)) ∧ g.world = (hart s h).mpw ∧
      g.secureBank = (hart s h).secureBank ∧ g.normalBank = (hart s h).normalBank)

/-- R24, R8: a write to a register of a device-level block (`tujansAlone`) by any master but Tujan, however it comes, changes nothing and
is recorded as an event of the block; a read is answered. -/
def Obligations.OnlyTujanWritesDeviceRegisters : Prop :=
  (∀ (a : Access) (addr : BitVec 40) (v : BitVec 64) (s : State), a.route = .fabric → tujansAlone addr.toNat = true →
    (carried s a addr.toNat).master ≠ 9 → masterGone s (carried s a addr.toNat) = false → blockUp s addr.toNat = true →
    addr.toNat % 4 = 0 →
    exec (.registerWrite a addr 4 v) s =
      .next (settle 4 (violateAt (carried s a addr.toNat) 2 addr.toNat (v.setWidth 32).toNat s))) ∧
  (∀ (a : Access) (addr : BitVec 40) (s : State), a.route = .fabric → tujansAlone addr.toNat = true →
    masterGone s (carried s a addr.toNat) = false → blockUp s addr.toNat = true → addr.toNat % 4 = 0 → readable a addr.toNat s = true)

/-- R96: who reaches a polder's doorbell page. A write that does not carry the page's polder, or at page 0 not the secure attribute too,
changes nothing and is recorded by the block of the sub-page; a read that carries neither and is not Tujan's or a secure-world core's
returns 0 and changes nothing. Every other aligned access to a powered block's page that is no mailbox alias is admitted, whatever the
polder map says of any page. -/
def Obligations.PagesAdmitTheirPolder : Prop :=
  (∀ (a : Access) (addr : BitVec 40) (v : BitVec 64) (s : State), a.route = .fabric → isPage addr.toNat = true →
    masterGone s (carried s a addr.toNat) = false →
    ¬ ((carried s a addr.toNat).polder = pageOf addr.toNat ∧ (pageOf addr.toNat = 0 → (carried s a addr.toNat).secure = true)) →
    exec (.registerWrite a addr 4 v) s =
      .next (settle 4 (violateAt (carried s a addr.toNat) 2 addr.toNat (v.setWidth 32).toNat s))) ∧
  (∀ (r : MemReq) (s s1 : State) (p : Nat), r.acc.route = .fabric → r.dir = .read →
    cannotIssue r (carried s r.acc r.addr.toNat) s = false → isCoreMaster (carried s r.acc r.addr.toNat).master = false →
    physOf r (carried s r.acc r.addr.toNat) s = (some p, s1) → isPage p = true →
    masterGone s1 (carried s1 r.acc p) = false →
    ¬ ((carried s1 r.acc p).polder = pageOf p ∧ (pageOf p = 0 → (carried s1 r.acc p).secure = true)) → (carried s1 r.acc p).master ≠ 9 →
    exec (.memoryAccess r) s = .next (settle 4 { s1 with busReply := 0 })) ∧
  (∀ (r : MemReq) (s : State) (c : Carried), r.acc.route = .fabric → r.dir = .read → c = carried s r.acc r.addr.toNat →
    cannotIssue r c s = false → isCoreMaster c.master = true → c.secure = false →
    pmpAllows (hart s (c.master - 1)) r.addr.toNat r.len 0 = true → isPage r.addr.toNat = true → c.polder ≠ pageOf r.addr.toNat →
    exec (.memoryAccess r) s = .next (settle 4 { s with busReply := 0 })) ∧
  (∀ (a : Access) (addr v : Nat) (s : State), a.route = .fabric → isPage addr = true → masterGone s (carried s a addr) = false →
    blockUp s addr = true → addr % 4 = 0 → mbxAddr s addr = none →
    (carried s a addr).polder = pageOf addr → (pageOf addr = 0 → (carried s a addr).secure = true) → admitted a addr v s = true) ∧
  (∀ (a : Access) (addr : Nat) (s : State), a.route = .fabric → isPage addr = true → masterGone s (carried s a addr) = false →
    blockUp s addr = true → addr % 4 = 0 → mbxAddr s addr = none →
    ((carried s a addr).master = 9 ∨ secureCore (carried s a addr) = true) → readable a addr s = true)

/-- R60, R76, R78, R79: no access of the normal world, by a core or a device master, over any route, through an alias or a translation, at any
length, changes a byte of a page that is not its polder's. In map mode that is a page whose entry in memory does not give it to the
access's polder, where no changed entry waits for its invalidation; in tidemark mode a secure page, or any page while the normal world
is fenced. -/
def Obligations.ForeignPagesCannotBeWritten : Prop :=
  (∀ (r : MemReq) (s t : State) (c : Carried) (b : Nat), MemoryCanonical s → MapSettled s → rdB s PLD_MODE_STAT_mode = true →
    meetsRegister r s = false → c = carried s r.acc r.addr.toNat → c.secure = false → c.master ≠ 9 → (inOcm b = true ∨ inDramRange b = true) →
    pageGiven s b (isDeviceMaster c.master) c.polder = false → exec (.memoryAccess r) s = .next t → byteAt t b = byteAt s b) ∧
  (∀ (r : MemReq) (s t : State) (c : Carried) (b : Nat), MemoryCanonical s → rdB s PLD_MODE_STAT_mode = false →
    meetsRegister r s = false → c = carried s r.acc r.addr.toNat → c.secure = false → c.master ≠ 9 → (inOcm b = true ∨ inDramRange b = true) →
    (tidemarkSecure s b = true ∨ rdB s PLD_MODE_CTRL_fence_normal = true) → exec (.memoryAccess r) s = .next t → byteAt t b = byteAt s b)
end

