-- ==== Sys2Proof/Laws/Hash.lean ====
section
/-! SUPPORT. What digests are: 32 bytes, each below 256; and the tag of a manager's frame, 16 bytes. -/
namespace Sys2Proof.Laws
open Sys2Proof Sys2Proof.Machine

theorem leBytes_length (n v : Nat) : (leBytes n v).length = n := by
  induction n generalizing v with
  | zero => rfl
  | succ n ih => simp [leBytes, ih]

theorem leBytes_lt (n v x : Nat) (h : x ∈ leBytes n v) : x < 256 := by
  induction n generalizing v with
  | zero => simp [leBytes] at h
  | succ n ih =>
    simp only [leBytes, List.mem_cons] at h
    rcases h with h | h
    · omega
    · exact ih _ h

theorem sha256Round_length (v : List Nat) (kw : Nat × Nat) (h : v.length = 8) : (sha256Round v kw).length = 8 := by
  match v, h with
  | [a, b, c, d, e, f, g, i], _ => rfl

theorem sha256_rounds_length (l : List (Nat × Nat)) (v : List Nat) (h : v.length = 8) : (l.foldl sha256Round v).length = 8 := by
  induction l generalizing v with
  | nil => exact h
  | cons x l ih => exact ih _ (sha256Round_length v x h)

theorem sha256Block_length (v b : List Nat) (h : v.length = 8) : (sha256Block v b).length = 8 := by
  simp only [sha256Block, List.length_zipWith, h, sha256_rounds_length _ _ h]
  rfl

theorem sha256Blocks_length (n : Nat) (v b : List Nat) (h : v.length = 8) : (sha256Blocks n v b).length = 8 := by
  induction n generalizing v b with
  | zero => exact h
  | succ n ih => exact ih _ _ (sha256Block_length v _ h)

theorem flatMap_word_length (l : List Nat) : (l.flatMap (fun w => (leBytes 4 w).reverse)).length = 4 * l.length := by
  induction l with
  | nil => rfl
  | cons x l ih => simp only [List.flatMap_cons, List.length_append, List.length_reverse, leBytes_length, ih, List.length_cons]; omega

theorem sha256_length (bs : List Nat) : (sha256 bs).length = 32 := by
  rw [sha256, flatMap_word_length, sha256Blocks_length _ _ _ rfl]

theorem sha256_lt (bs : List Nat) (x : Nat) (h : x ∈ sha256 bs) : x < 256 := by
  simp only [sha256, List.mem_flatMap, List.mem_reverse] at h
  obtain ⟨w, -, h⟩ := h
  exact leBytes_lt _ _ _ h

theorem mgrTag_length (key header p : List Nat) : (mgrTag key header p).length = 16 := by
  simp [mgrTag, hmacSha256, sha256_length]

theorem mgrTag_lt (key header p : List Nat) (x : Nat) (h : x ∈ mgrTag key header p) : x < 256 :=
  sha256_lt _ _ (List.mem_of_mem_take h)

end Sys2Proof.Laws
end

