-- ==== Sys2Proof/Laws/Keeps.lean ====
section
/-! SUPPORT. What every operation keeps: the queue of commands, blown fuses, the counter behind the free values, and the forms that
memory, the warden, the channels and the recorder have. The lemma of each operation stands in Laws/Keeps<N>.lean. -/
namespace Sys2Proof.Machine

/-- What holds between a state and the state an operation makes of it. Without `w` the operation stores nothing. -/
structure Keeps (w : Bool) (s t : State) : Prop where
  queue : t.pending = s.pending
  mem : w = false → t.mem = s.mem
  wf : MemoryCanonical s → MemoryCanonical t
  free : s.free ≤ t.free
  fuses : ∀ n i, bit (Tab.get 0 s.pwr.fuses n) i = true → bit (Tab.get 0 t.pwr.fuses n) i = true
  warden : WardenLegal s → WardenLegal t
  chans : ChannelsBounded s → ChannelsBounded t
  recorder : RecorderBounded s → RecorderBounded t

theorem Keeps.refl {w : Bool} (s : State) : Keeps w s s := ⟨rfl, fun _ => rfl, id, Nat.le_refl _, fun _ _ h => h, id, id, id⟩

theorem Keeps.trans {w : Bool} {s t u : State} (h : Keeps w s t) (k : Keeps w t u) : Keeps w s u :=
  ⟨k.queue.trans h.queue, fun e => (k.mem e).trans (h.mem e), fun x => k.wf (h.wf x), Nat.le_trans h.free k.free,
    fun n i x => k.fuses n i (h.fuses n i x), fun x => k.warden (h.warden x), fun x => k.chans (h.chans x), fun x => k.recorder (h.recorder x)⟩

theorem Keeps.weaken {w : Bool} {s t : State} (h : Keeps w s t) : Keeps true s t := { h with mem := fun e => nomatch e }

/-- An update of any other part of the state. -/
theorem Keeps.upd {w : Bool} {s b : State} {now' devTime' devFrac' busReply' regs' poison' rdLatch' wrHold' held' lockPtr' harts' pld' resets' grants' touchGrants' budget' fabric' wakes' pci' pumpLast' dmc' dsp' gfx' vcd' net' aud' hap' tch' pwr' gio' evr' vlt' cvu' otp'}
    (h : Keeps w s b) (h1 : pwr'.fuses = b.pwr.fuses) (h2 : evr'.ring = b.evr.ring) (h3 : evr'.fifo = b.evr.fifo)
    (h4 : evr'.vaultQ = b.evr.vaultQ) : Keeps w s
      (State.mk b.pending now' devTime' devFrac' b.free busReply' regs' b.mem poison' rdLatch' wrHold' b.chans held' lockPtr' b.warden
        harts' pld' resets' grants' touchGrants' budget' fabric' wakes' pci' pumpLast' dmc' dsp' gfx' vcd' net' aud' hap' tch' pwr' gio'
        evr' vlt' cvu' otp') :=
  ⟨h.queue, h.mem, h.wf, h.free, fun n i x => h1 ▸ h.fuses n i x, h.warden, h.chans,
    fun x => by unfold RecorderBounded at *; rw [show _ = _ from h2, show _ = _ from h3, show _ = _ from h4]; exact h.recorder x⟩

/-- An update of the warden that leaves it legal. -/
theorem Keeps.ward {w : Bool} {s b : State} {v : WardenSt} (h : Keeps w s b) (k : WardenLegal b → WardenLegal { b with warden := v }) :
    Keeps w s { b with warden := v } := ⟨h.queue, h.mem, h.wf, h.free, h.fuses, fun x => k (h.warden x), h.chans, h.recorder⟩

/-! ## The shapes of what operations answer -/

/-- The state of a pair. -/
def KeepsP {α : Type} (w : Bool) (s : State) (p : α × State) : Prop := Keeps w s p.2

/-- The state of a triple. -/
def KeepsP2 {α β : Type} (w : Bool) (s : State) (p : α × β × State) : Prop := Keeps w s p.2.2

/-- A state that may not be there. -/
def KeepsO (w : Bool) (s : State) (o : Option State) : Prop := ∀ t, o = some t → Keeps w s t

/-- A state that may not be there, and a state. -/
def KeepsQ (w : Bool) (s : State) (p : Option State × State) : Prop := KeepsO w s p.1 ∧ Keeps w s p.2

/-- A value and a state that may not be there. -/
def KeepsU {α : Type} (w : Bool) (s : State) (o : Option (α × State)) : Prop := ∀ p, o = some p → Keeps w s p.2

/-- A command's answer. -/
def KeepsA (w : Bool) (s : State) (a : Answer) : Prop := Keeps w s a.state ∧ ∀ t, Keeps w s t → Keeps w s (a.after t)

/-- An answer that may not be there. -/
def KeepsOA (w : Bool) (s : State) (o : Option Answer) : Prop := ∀ a, o = some a → KeepsA w s a

/-- The outcome of a step. -/
def KeepsR (w : Bool) (s : State) (o : Out) : Prop := ∀ t, o = .next t → Keeps w s t

/-- An outcome that may not be there. -/
def KeepsOR (w : Bool) (s : State) (o : Option Out) : Prop := ∀ x, o = some x → KeepsR w s x

theorem KeepsP.mk {α : Type} {w : Bool} {s t : State} {a : α} (h : Keeps w s t) : KeepsP w s (a, t) := h
theorem KeepsP2.mk {α β : Type} {w : Bool} {s t : State} {a : α} {b : β} (h : Keeps w s t) : KeepsP2 w s (a, b, t) := h
theorem KeepsO.mk {w : Bool} {s t : State} (h : Keeps w s t) : KeepsO w s (some t) := fun _ e => by cases e; exact h
theorem KeepsO.non {w : Bool} {s : State} : KeepsO w s none := fun _ e => nomatch e
theorem KeepsQ.mk {w : Bool} {s t : State} {o : Option State} (h : KeepsO w s o) (k : Keeps w s t) : KeepsQ w s (o, t) := ⟨h, k⟩
theorem KeepsU.mk {α : Type} {w : Bool} {s t : State} {a : α} (h : Keeps w s t) : KeepsU w s (some (a, t)) := fun _ e => by cases e; exact h
theorem KeepsU.non {α : Type} {w : Bool} {s : State} : KeepsU (α := α) w s none := fun _ e => nomatch e
theorem KeepsA.mk {w : Bool} {s t : State} {st : Nat} {r : List Nat} {f : State → State} (h : Keeps w s t)
    (k : ∀ u, Keeps w s u → Keeps w s (f u)) : KeepsA w s ⟨st, r, t, f⟩ := ⟨h, k⟩
theorem KeepsOA.mk {w : Bool} {s : State} {a : Answer} (h : KeepsA w s a) : KeepsOA w s (some a) := fun _ e => by cases e; exact h
theorem KeepsOA.non {w : Bool} {s : State} : KeepsOA w s none := fun _ e => nomatch e
theorem KeepsR.mk {w : Bool} {s t : State} (h : Keeps w s t) : KeepsR w s (.next t) := fun _ e => by cases e; exact h
theorem KeepsOR.mk {w : Bool} {s : State} {o : Out} (h : KeepsR w s o) : KeepsOR w s (some o) := fun _ e => by cases e; exact h
theorem KeepsOR.non {w : Bool} {s : State} : KeepsOR w s none := fun _ e => nomatch e

theorem KeepsP.elim {α : Type} {w : Bool} {s t : State} {p : α × State} {a : α} (e : p = (a, t)) (h : KeepsP w s p) : Keeps w s t := by
  subst e; exact h
theorem KeepsP.snd {α : Type} {w : Bool} {s : State} {p : α × State} (h : KeepsP w s p) : Keeps w s p.2 := h
theorem KeepsP2.elim {α β : Type} {w : Bool} {s t : State} {p : α × β × State} {a : α} {b : β} (e : p = (a, b, t)) (h : KeepsP2 w s p) :
    Keeps w s t := by subst e; exact h
theorem KeepsP2.elim' {α β : Type} {w : Bool} {s : State} {p : α × β × State} {a : α} {q : β × State} (e : p = (a, q)) (h : KeepsP2 w s p) :
    Keeps w s q.2 := by subst e; exact h
theorem KeepsP2.snd {α β : Type} {w : Bool} {s : State} {p : α × β × State} (h : KeepsP2 w s p) : Keeps w s p.2.2 := h
theorem KeepsO.elim {w : Bool} {s t : State} {o : Option State} (e : o = some t) (h : KeepsO w s o) : Keeps w s t := h t e
theorem KeepsQ.elim {w : Bool} {s t : State} {o : Option State} {p : Option State × State} (e : p = (o, t)) (h : KeepsQ w s p) : Keeps w s t := by
  subst e; exact h.2
theorem KeepsQ.elimO {w : Bool} {s t u : State} {p : Option State × State} (e : p = (some t, u)) (h : KeepsQ w s p) : Keeps w s t := by
  subst e; exact h.1 t rfl
theorem KeepsU.elim {α : Type} {w : Bool} {s t : State} {o : Option (α × State)} {a : α} (e : o = some (a, t)) (h : KeepsU w s o) : Keeps w s t :=
  h _ e
theorem KeepsOA.elim {w : Bool} {s : State} {o : Option Answer} {a : Answer} (e : o = some a) (h : KeepsOA w s o) : KeepsA w s a := h a e
theorem KeepsOR.elim {w : Bool} {s : State} {o : Option Out} {a : Out} (e : o = some a) (h : KeepsOR w s o) : KeepsR w s a := h a e

theorem Keeps.idd {w : Bool} {s t : State} (h : Keeps w s t) : Keeps w s (id t) := h

theorem Keeps.ite {w : Bool} {s : State} {c : Prop} [Decidable c] {x y : State} (h : c → Keeps w s x) (k : ¬ c → Keeps w s y) :
    Keeps w s (if c then x else y) := by split; exact h ‹_›; exact k ‹_›
theorem Keeps.lt {γ : Sort _} {w : Bool} {s : State} {v : γ} {f : γ → State} (h : ∀ x, Keeps w s (f x)) : Keeps w s (let x := v; f x) := h v
theorem Keeps.lts {w : Bool} {s v : State} {f : State → State} (h : Keeps w s v) (k : ∀ x, Keeps w s x → Keeps w s (f x)) :
    Keeps w s (let x := v; f x) := k v h
theorem Keeps.ltp {γ : Type} {w : Bool} {s : State} {v : γ × State} {f : γ × State → State} (h : KeepsP w s v)
    (k : ∀ x, KeepsP w s x → Keeps w s (f x)) : Keeps w s (let x := v; f x) := k v h
theorem KeepsP.ite {α : Type} {w : Bool} {s : State} {c : Prop} [Decidable c] {x y : α × State} (h : c → KeepsP w s x) (k : ¬ c → KeepsP w s y) :
    KeepsP w s (if c then x else y) := by split; exact h ‹_›; exact k ‹_›
theorem KeepsP.lt {α : Type} {γ : Sort _} {w : Bool} {s : State} {v : γ} {f : γ → α × State} (h : ∀ x, KeepsP w s (f x)) : KeepsP w s (let x := v; f x) := h v
theorem KeepsP.lts {α : Type} {w : Bool} {s v : State} {f : State → α × State} (h : Keeps w s v) (k : ∀ x, Keeps w s x → KeepsP w s (f x)) :
    KeepsP w s (let x := v; f x) := k v h
theorem KeepsP.ltp {α : Type} {γ : Type} {w : Bool} {s : State} {v : γ × State} {f : γ × State → α × State} (h : KeepsP w s v)
    (k : ∀ x, KeepsP w s x → KeepsP w s (f x)) : KeepsP w s (let x := v; f x) := k v h
theorem KeepsP2.ite {α β : Type} {w : Bool} {s : State} {c : Prop} [Decidable c] {x y : α × β × State} (h : c → KeepsP2 w s x) (k : ¬ c → KeepsP2 w s y) :
    KeepsP2 w s (if c then x else y) := by split; exact h ‹_›; exact k ‹_›
theorem KeepsP2.lt {α β : Type} {γ : Sort _} {w : Bool} {s : State} {v : γ} {f : γ → α × β × State} (h : ∀ x, KeepsP2 w s (f x)) : KeepsP2 w s (let x := v; f x) := h v
theorem KeepsP2.lts {α β : Type} {w : Bool} {s v : State} {f : State → α × β × State} (h : Keeps w s v) (k : ∀ x, Keeps w s x → KeepsP2 w s (f x)) :
    KeepsP2 w s (let x := v; f x) := k v h
theorem KeepsP2.ltp {α β : Type} {γ : Type} {w : Bool} {s : State} {v : γ × State} {f : γ × State → α × β × State} (h : KeepsP w s v)
    (k : ∀ x, KeepsP w s x → KeepsP2 w s (f x)) : KeepsP2 w s (let x := v; f x) := k v h
theorem KeepsO.ite {w : Bool} {s : State} {c : Prop} [Decidable c] {x y : Option State} (h : c → KeepsO w s x) (k : ¬ c → KeepsO w s y) :
    KeepsO w s (if c then x else y) := by split; exact h ‹_›; exact k ‹_›
theorem KeepsO.lt {γ : Sort _} {w : Bool} {s : State} {v : γ} {f : γ → Option State} (h : ∀ x, KeepsO w s (f x)) : KeepsO w s (let x := v; f x) := h v
theorem KeepsO.lts {w : Bool} {s v : State} {f : State → Option State} (h : Keeps w s v) (k : ∀ x, Keeps w s x → KeepsO w s (f x)) :
    KeepsO w s (let x := v; f x) := k v h
theorem KeepsO.ltp {γ : Type} {w : Bool} {s : State} {v : γ × State} {f : γ × State → Option State} (h : KeepsP w s v)
    (k : ∀ x, KeepsP w s x → KeepsO w s (f x)) : KeepsO w s (let x := v; f x) := k v h
theorem KeepsQ.ite {w : Bool} {s : State} {c : Prop} [Decidable c] {x y : Option State × State} (h : c → KeepsQ w s x) (k : ¬ c → KeepsQ w s y) :
    KeepsQ w s (if c then x else y) := by split; exact h ‹_›; exact k ‹_›
theorem KeepsQ.lt {γ : Sort _} {w : Bool} {s : State} {v : γ} {f : γ → Option State × State} (h : ∀ x, KeepsQ w s (f x)) : KeepsQ w s (let x := v; f x) := h v
theorem KeepsQ.lts {w : Bool} {s v : State} {f : State → Option State × State} (h : Keeps w s v) (k : ∀ x, Keeps w s x → KeepsQ w s (f x)) :
    KeepsQ w s (let x := v; f x) := k v h
theorem KeepsQ.ltp {γ : Type} {w : Bool} {s : State} {v : γ × State} {f : γ × State → Option State × State} (h : KeepsP w s v)
    (k : ∀ x, KeepsP w s x → KeepsQ w s (f x)) : KeepsQ w s (let x := v; f x) := k v h
theorem KeepsU.ite {α : Type} {w : Bool} {s : State} {c : Prop} [Decidable c] {x y : Option (α × State)} (h : c → KeepsU w s x) (k : ¬ c → KeepsU w s y) :
    KeepsU w s (if c then x else y) := by split; exact h ‹_›; exact k ‹_›
theorem KeepsU.lt {α : Type} {γ : Sort _} {w : Bool} {s : State} {v : γ} {f : γ → Option (α × State)} (h : ∀ x, KeepsU w s (f x)) : KeepsU w s (let x := v; f x) := h v
theorem KeepsU.lts {α : Type} {w : Bool} {s v : State} {f : State → Option (α × State)} (h : Keeps w s v) (k : ∀ x, Keeps w s x → KeepsU w s (f x)) :
    KeepsU w s (let x := v; f x) := k v h
theorem KeepsU.ltp {α : Type} {γ : Type} {w : Bool} {s : State} {v : γ × State} {f : γ × State → Option (α × State)} (h : KeepsP w s v)
    (k : ∀ x, KeepsP w s x → KeepsU w s (f x)) : KeepsU w s (let x := v; f x) := k v h
theorem KeepsA.ite {w : Bool} {s : State} {c : Prop} [Decidable c] {x y : Answer} (h : c → KeepsA w s x) (k : ¬ c → KeepsA w s y) :
    KeepsA w s (if c then x else y) := by split; exact h ‹_›; exact k ‹_›
theorem KeepsA.lt {γ : Sort _} {w : Bool} {s : State} {v : γ} {f : γ → Answer} (h : ∀ x, KeepsA w s (f x)) : KeepsA w s (let x := v; f x) := h v
theorem KeepsA.lts {w : Bool} {s v : State} {f : State → Answer} (h : Keeps w s v) (k : ∀ x, Keeps w s x → KeepsA w s (f x)) :
    KeepsA w s (let x := v; f x) := k v h
theorem KeepsA.ltp {γ : Type} {w : Bool} {s : State} {v : γ × State} {f : γ × State → Answer} (h : KeepsP w s v)
    (k : ∀ x, KeepsP w s x → KeepsA w s (f x)) : KeepsA w s (let x := v; f x) := k v h
theorem KeepsOA.ite {w : Bool} {s : State} {c : Prop} [Decidable c] {x y : Option Answer} (h : c → KeepsOA w s x) (k : ¬ c → KeepsOA w s y) :
    KeepsOA w s (if c then x else y) := by split; exact h ‹_›; exact k ‹_›
theorem KeepsOA.lt {γ : Sort _} {w : Bool} {s : State} {v : γ} {f : γ → Option Answer} (h : ∀ x, KeepsOA w s (f x)) : KeepsOA w s (let x := v; f x) := h v
theorem KeepsOA.lts {w : Bool} {s v : State} {f : State → Option Answer} (h : Keeps w s v) (k : ∀ x, Keeps w s x → KeepsOA w s (f x)) :
    KeepsOA w s (let x := v; f x) := k v h
theorem KeepsOA.ltp {γ : Type} {w : Bool} {s : State} {v : γ × State} {f : γ × State → Option Answer} (h : KeepsP w s v)
    (k : ∀ x, KeepsP w s x → KeepsOA w s (f x)) : KeepsOA w s (let x := v; f x) := k v h
theorem KeepsR.ite {w : Bool} {s : State} {c : Prop} [Decidable c] {x y : Out} (h : c → KeepsR w s x) (k : ¬ c → KeepsR w s y) :
    KeepsR w s (if c then x else y) := by split; exact h ‹_›; exact k ‹_›
theorem KeepsR.lt {γ : Sort _} {w : Bool} {s : State} {v : γ} {f : γ → Out} (h : ∀ x, KeepsR w s (f x)) : KeepsR w s (let x := v; f x) := h v
theorem KeepsR.lts {w : Bool} {s v : State} {f : State → Out} (h : Keeps w s v) (k : ∀ x, Keeps w s x → KeepsR w s (f x)) :
    KeepsR w s (let x := v; f x) := k v h
theorem KeepsR.ltp {γ : Type} {w : Bool} {s : State} {v : γ × State} {f : γ × State → Out} (h : KeepsP w s v)
    (k : ∀ x, KeepsP w s x → KeepsR w s (f x)) : KeepsR w s (let x := v; f x) := k v h
theorem KeepsOR.ite {w : Bool} {s : State} {c : Prop} [Decidable c] {x y : Option Out} (h : c → KeepsOR w s x) (k : ¬ c → KeepsOR w s y) :
    KeepsOR w s (if c then x else y) := by split; exact h ‹_›; exact k ‹_›
theorem KeepsOR.lt {γ : Sort _} {w : Bool} {s : State} {v : γ} {f : γ → Option Out} (h : ∀ x, KeepsOR w s (f x)) : KeepsOR w s (let x := v; f x) := h v
theorem KeepsOR.lts {w : Bool} {s v : State} {f : State → Option Out} (h : Keeps w s v) (k : ∀ x, Keeps w s x → KeepsOR w s (f x)) :
    KeepsOR w s (let x := v; f x) := k v h
theorem KeepsOR.ltp {γ : Type} {w : Bool} {s : State} {v : γ × State} {f : γ × State → Option Out} (h : KeepsP w s v)
    (k : ∀ x, KeepsP w s x → KeepsOR w s (f x)) : KeepsOR w s (let x := v; f x) := k v h

theorem Keeps.foldl {α : Type} {w : Bool} {s t : State} {f : State → α → State} {l : List α} (h : Keeps w s t)
    (k : ∀ u x, Keeps w s u → Keeps w s (f u x)) : Keeps w s (l.foldl f t) := by
  induction l generalizing t with
  | nil => exact h
  | cons x l ih => exact ih (k t x h)

theorem KeepsP.foldl {α β : Type} {w : Bool} {s : State} {p : β × State} {f : β × State → α → β × State} {l : List α} (h : Keeps w s p.2)
    (k : ∀ u x, Keeps w s u.2 → Keeps w s (f u x).2) : KeepsP w s (l.foldl f p) := by
  induction l generalizing p with
  | nil => exact h
  | cons x l ih => exact ih (k p x h)

theorem KeepsP2.foldl {α β γ : Type} {w : Bool} {s : State} {p : β × γ × State} {f : β × γ × State → α → β × γ × State} {l : List α}
    (h : Keeps w s p.2.2) (k : ∀ u x, Keeps w s u.2.2 → Keeps w s (f u x).2.2) : KeepsP2 w s (l.foldl f p) := by
  induction l generalizing p with
  | nil => exact h
  | cons x l ih => exact ih (k p x h)

end Sys2Proof.Machine
end

