-- ==== Sys2Proof/Laws/Memory.lean ====
section
/-! SUPPORT. Memory's list: every operation keeps its canonical form; what a byte reads as after a store. -/
namespace Sys2Proof.Machine

theorem Memory.set_wfAbove {m : List Host.Cell} {a b : Nat} {v : Byte} (h : Memory.wfAbove b m = true) (hb : b < a) :
    Memory.wfAbove b (Memory.set m a v) = true := by
  induction m generalizing b with
  | nil =>
    unfold Memory.set
    split
    · rfl
    · next hv => simpa [Memory.wfAbove, hb] using hv
  | cons e t ih =>
    obtain ⟨c, w⟩ := e
    simp only [Memory.wfAbove, Bool.and_eq_true, decide_eq_true_eq, bne_iff_ne, ne_eq] at h
    obtain ⟨⟨h1, h2⟩, h3⟩ := h
    simp only [Memory.set]
    split
    · next e =>
      subst e
      split
      · cases t with
        | nil => rfl
        | cons e t =>
          simp only [Memory.wfAbove, Bool.and_eq_true, decide_eq_true_eq, bne_iff_ne, ne_eq] at h3 ⊢
          exact ⟨⟨by omega, h3.1.2⟩, h3.2⟩
      · next hv => simpa [Memory.wfAbove, hb, h3] using hv
    · split
      · split
        · simpa [Memory.wfAbove, h1, h3] using h2
        · next ha hv => simpa [Memory.wfAbove, hb, ha, h3] using And.intro hv h2
      · simp only [Memory.wfAbove, Bool.and_eq_true, decide_eq_true_eq, bne_iff_ne, ne_eq]
        exact ⟨⟨h1, h2⟩, ih h3 (by omega)⟩

theorem Memory.wf_of_above {m : List Host.Cell} {b : Nat} (h : Memory.wfAbove b m = true) : Memory.wf m = true := by
  cases m with
  | nil => rfl
  | cons e t =>
    simp only [Memory.wfAbove, Bool.and_eq_true] at h
    simp only [Memory.wf, h.1.2, h.2, Bool.and_self]

theorem Memory.set_wf {m : List Host.Cell} {a : Nat} {v : Byte} (h : Memory.wf m = true) : Memory.wf (Memory.set m a v) = true := by
  cases m with
  | nil =>
    unfold Memory.set
    split
    · rfl
    · next hv => simpa [Memory.wf, Memory.wfAbove] using hv
  | cons e t =>
    obtain ⟨c, w⟩ := e
    simp only [Memory.wf, Bool.and_eq_true, bne_iff_ne, ne_eq] at h
    simp only [Memory.set]
    split
    · next e =>
      subst e
      split
      · exact Memory.wf_of_above h.2
      · next hv => simpa [Memory.wf, h.2] using hv
    · split
      · split
        · simpa [Memory.wf, h.2] using h.1
        · next ha hv => simpa [Memory.wf, Memory.wfAbove, ha, h.2] using And.intro hv h.1
      · simp only [Memory.wf, Bool.and_eq_true, bne_iff_ne, ne_eq]
        exact ⟨h.1, Memory.set_wfAbove h.2 (by omega)⟩

theorem Memory.setMany_wf {m : List Host.Cell} {a : Nat} {bs : List Nat} (h : Memory.wf m = true) :
    Memory.wf (Memory.setMany m a bs) = true := by
  induction bs generalizing m a with
  | nil => exact h
  | cons b bs ih => exact ih (Memory.set_wf h)

theorem Memory.filter_wfAbove {m : List Host.Cell} {b : Nat} (p : Host.Cell → Bool) (h : Memory.wfAbove b m = true) :
    Memory.wfAbove b (m.filter p) = true := by
  induction m generalizing b with
  | nil => rfl
  | cons e t ih =>
    obtain ⟨c, w⟩ := e
    simp only [Memory.wfAbove, Bool.and_eq_true, decide_eq_true_eq, bne_iff_ne, ne_eq] at h
    rw [List.filter_cons]
    split
    · simp only [Memory.wfAbove, Bool.and_eq_true, decide_eq_true_eq, bne_iff_ne, ne_eq]
      exact ⟨h.1, ih h.2⟩
    · have k := ih h.2
      revert k
      cases t.filter p with
      | nil => intro; rfl
      | cons e t =>
        simp only [Memory.wfAbove, Bool.and_eq_true, decide_eq_true_eq, bne_iff_ne, ne_eq]
        exact fun k => ⟨⟨by omega, k.1.2⟩, k.2⟩

theorem Memory.filter_wf {m : List Host.Cell} (p : Host.Cell → Bool) (h : Memory.wf m = true) : Memory.wf (m.filter p) = true := by
  cases m with
  | nil => rfl
  | cons e t =>
    obtain ⟨c, w⟩ := e
    simp only [Memory.wf, Bool.and_eq_true] at h
    rw [List.filter_cons]
    split
    · simp only [Memory.wf, Bool.and_eq_true]
      exact ⟨h.1, Memory.filter_wfAbove p h.2⟩
    · exact Memory.wf_of_above (Memory.filter_wfAbove p h.2)


/-- Addresses above `b`, strictly rising. -/
def Memory.risesAbove : Nat → List Host.Cell → Bool
  | _, [] => true
  | a, (b, _) :: t => decide (a < b) && Memory.risesAbove b t

theorem Memory.risesAbove_mono {m : List Host.Cell} {a b : Nat} (h : Memory.risesAbove b m = true) (ha : a ≤ b) : Memory.risesAbove a m = true := by
  cases m with
  | nil => rfl
  | cons e t =>
    simp only [Memory.risesAbove, Bool.and_eq_true, decide_eq_true_eq] at h ⊢
    exact ⟨by omega, h.2⟩

theorem Memory.wfAbove_nonzero {m : List Host.Cell} {b : Nat} (h : Memory.risesAbove b m = true) :
    Memory.wfAbove b (m.filter (fun c => c.2 != 0)) = true := by
  induction m generalizing b with
  | nil => rfl
  | cons e t ih =>
    obtain ⟨c, w⟩ := e
    simp only [Memory.risesAbove, Bool.and_eq_true, decide_eq_true_eq] at h
    rw [List.filter_cons]
    split
    · next hw => simp only [Memory.wfAbove, h.1, hw, ih h.2, decide_true, Bool.and_self]
    · exact ih (Memory.risesAbove_mono h.2 (Nat.le_of_lt h.1))

theorem Memory.risesAbove_map {m : List Host.Cell} {b n : Nat} (f : Host.Cell × Nat → Host.Cell) (hf : ∀ e, (f e).1 = e.1.1)
    (h : Memory.wfAbove b m = true) : Memory.risesAbove b ((m.zipIdx n).map f) = true := by
  induction m generalizing b n with
  | nil => rfl
  | cons e t ih =>
    obtain ⟨c, w⟩ := e
    simp only [Memory.wfAbove, Bool.and_eq_true, decide_eq_true_eq] at h
    simp only [List.zipIdx_cons, List.map_cons]
    have hc : (f ((c, w), n)).1 = c := hf _
    revert hc
    generalize f ((c, w), n) = x
    obtain ⟨d, v⟩ := x
    intro hc
    have hd : d = c := hc
    subst hd
    simp only [Memory.risesAbove, h.1.1, ih h.2, decide_true, Bool.and_self]

theorem Memory.scramble_wf {m : List Host.Cell} {lost : Nat → Bool} {n : Nat} (h : Memory.wf m = true) :
    Memory.wf (scramble lost n m) = true := by
  unfold scramble
  generalize hf : (fun e : Host.Cell × Nat => if lost e.1.1 then (e.1.1, BitVec.ofNat 8 (Config.freeValue (n + e.2))) else e.1) = f
  have h1 : ∀ e, (f e).1 = e.1.1 := by
    intro e
    rw [← hf]
    dsimp only
    split <;> rfl
  cases m with
  | nil => rfl
  | cons e t =>
    obtain ⟨c, w⟩ := e
    simp only [Memory.wf, Bool.and_eq_true] at h
    simp only [List.zipIdx_cons, List.map_cons]
    have hc : (f ((c, w), 0)).1 = c := h1 _
    revert hc
    generalize f ((c, w), 0) = x
    obtain ⟨d, v⟩ := x
    intro hc
    have hd : d = c := hc
    subst hd
    rw [List.filter_cons]
    have h2 := Memory.wfAbove_nonzero (Memory.risesAbove_map (n := 0 + 1) f h1 h.2)
    split
    · next hv => simp only [Memory.wf, h2, Bool.and_true]; exact hv
    · exact Memory.wf_of_above h2

/-! ## What a byte reads as after a store -/

theorem Memory.get_of_above {m : List Host.Cell} {a b : Nat} (h : Memory.wfAbove b m = true) (hb : a ≤ b) : Memory.get m a = 0 := by
  cases m with
  | nil => rfl
  | cons e t =>
    obtain ⟨c, w⟩ := e
    simp only [Memory.wfAbove, Bool.and_eq_true, decide_eq_true_eq] at h
    have h1 : ¬ a = c := by omega
    have h2 : a < c := by omega
    simp [Memory.get, h1, h2]

/-- A byte stored reads back, and no other byte changes. -/
theorem Memory.get_set {m : List Host.Cell} {a c : Nat} {v : Byte} (h : Memory.wf m = true) :
    Memory.get (Memory.set m a v) c = if c = a then v else Memory.get m c := by
  induction m with
  | nil =>
    unfold Memory.set
    split
    · next hv => split <;> simp [Memory.get, hv]
    · split
      · next e => simp [Memory.get, e]
      · next e => simp [Memory.get, e]
  | cons e t ih =>
    obtain ⟨d, w⟩ := e
    simp only [Memory.wf, Bool.and_eq_true] at h
    have h3 := h.2
    simp only [Memory.set]
    split
    · next e =>
      subst e
      split
      · next hv =>
        split
        · next e => rw [e, Memory.get_of_above h3 (Nat.le_refl _), hv]
        · next e =>
          simp only [Memory.get, e, if_false]
          split
          · next l => exact Memory.get_of_above h3 (by omega)
          · rfl
      · split
        · next e => simp [Memory.get, e]
        · next e => simp [Memory.get, e]
    · next e =>
      split
      · next l =>
        split
        · next hv =>
          split
          · next x => simp [Memory.get, x, e, l, hv]
          · rfl
        · split
          · next x => simp [Memory.get, x]
          · next x =>
            simp only [Memory.get, x, if_false]
            split
            · next y => 
              have : ¬ c = d := by omega
              have z : c < d := by omega
              simp [this, z]
            · rfl
      · next l =>
        simp only [Memory.get]
        split
        · next x =>
          have : ¬ c = a := by omega
          simp [this]
        · next x =>
          split
          · next y =>
            have : ¬ c = a := by omega
            simp [this]
          · exact ih (Memory.wf_of_above h3)

/-- Bytes stored from an address on read back; no other byte changes. -/
theorem Memory.get_setMany {m : List Host.Cell} {a c : Nat} {bs : List Nat} (h : Memory.wf m = true) :
    Memory.get (Memory.setMany m a bs) c = if a ≤ c ∧ c < a + bs.length then BitVec.ofNat 8 (bs.getD (c - a) 0) else Memory.get m c := by
  induction bs generalizing m a with
  | nil =>
    have : ¬ (a ≤ c ∧ c < a) := by omega
    simp [Memory.setMany, this]
  | cons b bs ih =>
    rw [Memory.setMany, ih (Memory.set_wf h), Memory.get_set h]
    by_cases h1 : a + 1 ≤ c ∧ c < a + 1 + bs.length
    · have h2 : a ≤ c ∧ c < a + (b :: bs).length := by simp only [List.length_cons]; omega
      obtain ⟨d, hd⟩ : ∃ d, c - a = d + 1 := ⟨c - a - 1, by omega⟩
      have h3 : c - (a + 1) = d := by omega
      simp only [if_pos h1, if_pos h2, hd, h3, List.getD_cons_succ]
    · by_cases h4 : c = a
      · have h2 : a ≤ c ∧ c < a + (b :: bs).length := by simp only [List.length_cons]; omega
        have h3 : c - a = 0 := by omega
        simp only [if_neg h1, if_pos h2, if_pos h4, h3, List.getD_cons_zero]
      · have h2 : ¬ (a ≤ c ∧ c < a + (b :: bs).length) := by simp only [List.length_cons]; omega
        simp only [if_neg h1, if_neg h2, if_neg h4]

/-- What a byte reads as after bytes have been stored. -/
theorem byteAt_writeBytes {s : State} {a c : Nat} {bs : List Nat} (h : Memory.wf s.mem = true) :
    byteAt (writeBytes a bs s) c = if a ≤ c ∧ c < a + bs.length then bs.getD (c - a) 0 % 256 else byteAt s c := by
  unfold byteAt writeBytes
  rw [Memory.get_setMany h]
  split
  · simp [BitVec.toNat_ofNat]
  · rfl

end Sys2Proof.Machine
end

