-- ==== Sys2Proof/Laws/KeepsShared.lean ====
section
/-! SUPPORT. What the functions of the shared operations and the mailbox
keep of a state (Keeps): one lemma per function, each from those of the functions it calls. -/
namespace Sys2Proof.Machine

/-! ## Ops -/

theorem keeps_wr {w : Bool} {s0 a2 : State} {a0 a1} (h0 : Keeps w s0 a2) : Keeps w s0 (wr a0 a1 a2) := by
  unfold wr
  try dsimp only
  repeat' first
    | with_reducible assumption
    | fail_if_no_progress with_reducible refine Keeps.upd ?_ rfl rfl rfl rfl

theorem keeps_incSat {w : Bool} {s0 a2 : State} {a0 a1} (h0 : Keeps w s0 a2) : Keeps w s0 (incSat a0 a1 a2) := by
  unfold incSat
  try dsimp only
  repeat' first
    | with_reducible assumption
    | with_reducible refine keeps_wr ?_

theorem keeps_orBits {w : Bool} {s0 a2 : State} {a0 a1} (h0 : Keeps w s0 a2) : Keeps w s0 (orBits a0 a1 a2) := by
  unfold orBits
  try dsimp only
  repeat' first
    | with_reducible assumption
    | with_reducible refine keeps_wr ?_

theorem keeps_tookFree {w : Bool} {s0 a0 : State} (h0 : Keeps w s0 a0) : Keeps w s0 (tookFree a0) :=
  ⟨h0.queue, h0.mem, h0.wf, Nat.le_succ_of_le h0.free, h0.fuses, h0.warden, h0.chans, h0.recorder⟩

theorem keeps_wrB {w : Bool} {s0 a2 : State} {a0 a1} (h0 : Keeps w s0 a2) : Keeps w s0 (wrB a0 a1 a2) := by
  unfold wrB
  try dsimp only
  repeat' first
    | with_reducible assumption
    | with_reducible refine keeps_wr ?_

theorem keeps_writeBytes {s0 a2 : State} {a0 a1} (h0 : Keeps true s0 a2) : Keeps true s0 (writeBytes a0 a1 a2) :=
  ⟨h0.queue, (fun e => nomatch e), fun x => Memory.setMany_wf (h0.wf x), h0.free, h0.fuses, h0.warden, h0.chans, h0.recorder⟩

theorem keeps_tookFrees {w : Bool} {s0 a1 : State} {a0} (h0 : Keeps w s0 a1) : Keeps w s0 (tookFrees a0 a1) :=
  ⟨h0.queue, h0.mem, h0.wf, Nat.le_trans h0.free (Nat.le_add_right _ _), h0.fuses, h0.warden, h0.chans, h0.recorder⟩

theorem keeps_takeEffect {w : Bool} {s0 a1 : State} {a0} (h0 : Keeps w s0 a1) : Keeps w s0 (takeEffect a0 a1) := by
  unfold takeEffect
  try dsimp only
  repeat' first
    | with_reducible assumption
    | with_reducible refine keeps_wr ?_
    | with_reducible refine Keeps.foldl ?_ fun _ _ _ => ?_

theorem keeps_writeFlds {w : Bool} {s0 a2 : State} {a0 a1} (h0 : Keeps w s0 a2) : Keeps w s0 (writeFlds a0 a1 a2) := by
  unfold writeFlds
  try dsimp only
  repeat' first
    | with_reducible assumption
    | with_reducible refine keeps_wr ?_
    | with_reducible refine Keeps.foldl ?_ fun _ _ _ => ?_

theorem keeps_passTime {w : Bool} {s0 a1 : State} {a0} (h0 : Keeps w s0 a1) : Keeps w s0 (passTime a0 a1) := by
  unfold passTime
  try dsimp only
  repeat' first
    | with_reducible assumption
    | fail_if_no_progress with_reducible refine Keeps.upd ?_ rfl rfl rfl rfl

theorem keeps_advanceTo {w : Bool} {s0 a1 : State} {a0} (h0 : Keeps w s0 a1) : Keeps w s0 (advanceTo a0 a1) := by
  unfold advanceTo
  try dsimp only
  repeat' first
    | with_reducible assumption
    | with_reducible refine keeps_passTime ?_

theorem keeps_setHart {w : Bool} {s0 a2 : State} {a0 a1} (h0 : Keeps w s0 a2) : Keeps w s0 (setHart a0 a1 a2) := by
  unfold setHart
  try dsimp only
  repeat' first
    | with_reducible assumption
    | fail_if_no_progress with_reducible refine Keeps.upd ?_ rfl rfl rfl rfl

theorem keeps_incWrap {w : Bool} {s0 a2 : State} {a0 a1} (h0 : Keeps w s0 a2) : Keeps w s0 (incWrap a0 a1 a2) := by
  unfold incWrap
  try dsimp only
  repeat' first
    | with_reducible assumption
    | with_reducible refine keeps_wr ?_

theorem keeps_clrBits {w : Bool} {s0 a2 : State} {a0 a1} (h0 : Keeps w s0 a2) : Keeps w s0 (clrBits a0 a1 a2) := by
  unfold clrBits
  try dsimp only
  repeat' first
    | with_reducible assumption
    | with_reducible refine keeps_wr ?_

theorem keeps_poisonWord {w : Bool} {s0 a1 : State} {a0} (h0 : Keeps w s0 a1) : Keeps w s0 (poisonWord a0 a1) := by
  unfold poisonWord
  try dsimp only
  repeat' first
    | with_reducible assumption
    | fail_if_no_progress with_reducible refine Keeps.upd ?_ rfl rfl rfl rfl
    | with_reducible refine Keeps.ite (fun _ => ?_) fun _ => ?_

theorem keeps_wrI {w : Bool} {s0 a2 : State} {a0 a1} (h0 : Keeps w s0 a2) : Keeps w s0 (wrI a0 a1 a2) := by
  unfold wrI
  try dsimp only
  repeat' first
    | with_reducible assumption
    | with_reducible refine keeps_wr ?_

theorem keeps_writeNat {s0 a3 : State} {a0 a1 a2} (h0 : Keeps true s0 a3) : Keeps true s0 (writeNat a0 a1 a2 a3) := by
  unfold writeNat
  try dsimp only
  repeat' first
    | with_reducible assumption
    | with_reducible refine keeps_writeBytes ?_

/-! ## Flags -/

theorem keeps_raise {w : Bool} {s0 a1 : State} {a0} (h0 : Keeps w s0 a1) : Keeps w s0 (raise a0 a1) := by
  unfold raise
  try dsimp only
  repeat' first
    | with_reducible assumption
    | fail_if_no_progress with_reducible refine Keeps.upd ?_ rfl rfl rfl rfl

theorem keeps_record {w : Bool} {s0 a4 : State} {a0 a1 a2 a3} (h0 : Keeps w s0 a4) : Keeps w s0 (record a0 a1 a2 a3 a4) := by
  unfold record
  try dsimp only
  repeat' first
    | with_reducible assumption
    | with_reducible refine keeps_raise ?_

theorem keeps_record0 {w : Bool} {s0 a3 : State} {a0 a1 a2} (h0 : Keeps w s0 a3) : Keeps w s0 (record0 a0 a1 a2 a3) := by
  unfold record0
  try dsimp only
  repeat' first
    | with_reducible assumption
    | with_reducible refine keeps_record ?_

theorem keeps_offerVault {w : Bool} {s0 a1 : State} {a0} (h0 : Keeps w s0 a1) : KeepsP w s0 (offerVault a0 a1) := by
  unfold offerVault
  refine KeepsP.ite (fun _ => h0) fun _ => KeepsP.ite (fun hv => ?_) fun _ => ?_
  · exact ⟨h0.queue, h0.mem, h0.wf, h0.free, h0.fuses, h0.warden, h0.chans, fun x => by
      have := h0.recorder x
      exact ⟨this.1, this.2.1, by simp only [List.length_append, List.length_singleton]; omega⟩⟩
  · exact KeepsP.ite (fun _ => keeps_incSat h0) fun _ => keeps_record0 (keeps_incSat h0)

theorem offerVault_fifo (a0 : EvRec) (a1 : State) : (offerVault a0 a1).2.evr.fifo = a1.evr.fifo := by
  unfold offerVault
  split
  · rfl
  · split
    · rfl
    · dsimp only
      split <;> rfl

theorem keeps_sendMsix {w : Bool} {s0 a1 : State} {a0} (h0 : Keeps w s0 a1) : Keeps w s0 (sendMsix a0 a1) := by
  unfold sendMsix
  try dsimp only
  repeat' first
    | with_reducible assumption
    | fail_if_no_progress with_reducible refine Keeps.upd ?_ rfl rfl rfl rfl

theorem keeps_lineMessage {w : Bool} {s0 a2 : State} {a0 a1} (h0 : Keeps w s0 a2) : Keeps w s0 (lineMessage a0 a1 a2) := by
  unfold lineMessage
  try dsimp only
  repeat' first
    | with_reducible assumption
    | with_reducible refine keeps_sendMsix ?_
    | with_reducible refine Keeps.ite (fun _ => ?_) fun _ => ?_

theorem keeps_raiseLine {w : Bool} {s0 a2 : State} {a0 a1} (h0 : Keeps w s0 a2) : Keeps w s0 (raiseLine a0 a1 a2) := by
  unfold raiseLine
  try dsimp only
  repeat' first
    | with_reducible assumption
    | with_reducible refine keeps_orBits ?_
    | with_reducible refine keeps_lineMessage ?_
    | with_reducible refine Keeps.ite (fun _ => ?_) fun _ => ?_

theorem keeps_ringPut {w : Bool} {s0 s : State} {r : EvRec} {a : Archive} {q : List (Nat × EvRec)} (h0 : Keeps w s0 s) :
    Keeps w s0 { s with evr := { s.evr with ring := (r :: s.evr.ring).take 65536, archive := a, exportQ := q } } :=
  ⟨h0.queue, h0.mem, h0.wf, h0.free, h0.fuses, h0.warden, h0.chans, fun x =>
    ⟨List.length_take_le _ _, (h0.recorder x).2⟩⟩

theorem keeps_toRing {w : Bool} {s0 a1 : State} {a0} (h0 : Keeps w s0 a1) : Keeps w s0 (toRing a0 a1) := by
  unfold toRing
  dsimp only
  repeat' first
    | exact keeps_ringPut h0
    | with_reducible refine keeps_raiseLine ?_
    | with_reducible refine Keeps.ite (fun _ => ?_) fun _ => ?_
    | split

theorem keeps_accept {w : Bool} {s0 a5 : State} {a0 a1 a2 a3 a4} (h0 : Keeps w s0 a5) : KeepsP w s0 (accept a0 a1 a2 a3 a4 a5) := by
  unfold accept
  refine KeepsP.ite (fun _ => Keeps.upd h0 rfl rfl rfl rfl) fun hf => ?_
  extract_lets r e s1
  have hv := keeps_offerVault (a0 := r) (a1 := s1) (Keeps.upd h0 rfl rfl rfl rfl)
  have hq : (offerVault r s1).2.evr.fifo = a5.evr.fifo := offerVault_fifo r s1
  revert hv hq
  generalize offerVault r s1 = p
  obtain ⟨r2, s2⟩ := p
  intro hv hq
  replace hv : Keeps w s0 s2 := hv
  refine KeepsP.ite (fun hz => ?_) fun _ => keeps_toRing hv
  have hl : s2.evr.fifo.length < 256 := by
    have e : s2.evr.fifo = a5.evr.fifo := hq
    rw [hz, Bool.true_and, decide_eq_true_eq] at hf
    rw [e]
    omega
  exact KeepsP.mk ⟨hv.queue, hv.mem, hv.wf, hv.free, hv.fuses, hv.warden, hv.chans, fun x => by
    have := hv.recorder x
    refine ⟨this.1, ?_, this.2.2⟩
    simp only [List.length_append, List.length_singleton]
    omega⟩

theorem keeps_setWeir {w : Bool} {s0 a2 : State} {a0 a1} (h0 : Keeps w s0 a2) : Keeps w s0 (setWeir a0 a1 a2) := by
  unfold setWeir
  try dsimp only
  repeat' first
    | with_reducible assumption
    | fail_if_no_progress with_reducible refine Keeps.upd ?_ rfl rfl rfl rfl

theorem keeps_weirSummary {w : Bool} {s0 a1 : State} {a0} (h0 : Keeps w s0 a1) : Keeps w s0 (weirSummary a0 a1) := by
  unfold weirSummary
  try dsimp only
  repeat' first
    | with_reducible assumption
    | with_reducible refine keeps_setWeir ?_
    | with_reducible refine KeepsP.snd (keeps_accept ?_)

theorem keeps_weirSummaryDue {w : Bool} {s0 a1 : State} {a0} (h0 : Keeps w s0 a1) : Keeps w s0 (weirSummaryDue a0 a1) := by
  unfold weirSummaryDue
  try dsimp only
  repeat' first
    | with_reducible assumption
    | with_reducible refine keeps_setWeir ?_
    | with_reducible refine keeps_weirSummary ?_
    | with_reducible refine Keeps.ite (fun _ => ?_) fun _ => ?_

theorem keeps_occurrence {w : Bool} {s0 a1 : State} {a0} (h0 : Keeps w s0 a1) : KeepsP w s0 (occurrence a0 a1) := by
  unfold occurrence
  try dsimp only
  repeat' first
    | with_reducible assumption
    | with_reducible refine keeps_setWeir ?_
    | with_reducible refine keeps_weirSummaryDue ?_
    | with_reducible refine KeepsP.snd (keeps_accept ?_)
    | with_reducible refine KeepsP.mk ?_
    | split

theorem keeps_raiseLines {w : Bool} {s0 a2 : State} {a0 a1} (h0 : Keeps w s0 a2) : Keeps w s0 (raiseLines a0 a1 a2) := by
  unfold raiseLines
  try dsimp only
  repeat' first
    | with_reducible assumption
    | with_reducible refine keeps_raiseLine ?_
    | with_reducible refine Keeps.foldl ?_ fun _ _ _ => ?_

theorem keeps_recordReported {w : Bool} {s0 a3 : State} {a0 a1 a2} (h0 : Keeps w s0 a3) : Keeps w s0 (recordReported a0 a1 a2 a3) := by
  unfold recordReported
  try dsimp only
  repeat' first
    | with_reducible assumption
    | with_reducible refine keeps_raise ?_

theorem keeps_recordSecure {w : Bool} {s0 a3 : State} {a0 a1 a2} (h0 : Keeps w s0 a3) : Keeps w s0 (recordSecure a0 a1 a2 a3) := by
  unfold recordSecure
  try dsimp only
  repeat' first
    | with_reducible assumption
    | with_reducible refine keeps_raise ?_

/-! ## Check -/

theorem keeps_s2Translate {w : Bool} {s0 a3 : State} {a0 a1 a2} (h0 : Keeps w s0 a3) : KeepsP w s0 (s2Translate a0 a1 a2 a3) := by
  unfold s2Translate
  try dsimp only
  repeat' first
    | with_reducible assumption
    | with_reducible refine keeps_tookFree ?_
    | with_reducible refine KeepsP.mk ?_
    | fail_if_no_progress with_reducible refine Keeps.upd ?_ rfl rfl rfl rfl
    | split

theorem keeps_pldDeny {w : Bool} {s0 a4 : State} {a0 a1 a2 a3} (h0 : Keeps w s0 a4) : Keeps w s0 (pldDeny a0 a1 a2 a3 a4) := by
  unfold pldDeny
  try dsimp only
  repeat' first
    | with_reducible assumption
    | with_reducible refine keeps_wr ?_
    | with_reducible refine keeps_incSat ?_
    | with_reducible refine keeps_record0 ?_
    | with_reducible refine keeps_wrB ?_

theorem keeps_lookupEntry {w : Bool} {s0 a0 : State} {a1} (h0 : Keeps w s0 a0) : KeepsP w s0 (lookupEntry a0 a1) := by
  unfold lookupEntry
  try dsimp only
  repeat' first
    | with_reducible assumption
    | with_reducible refine keeps_record0 ?_
    | with_reducible refine keeps_tookFree ?_
    | with_reducible refine KeepsP.mk ?_
    | fail_if_no_progress with_reducible refine Keeps.upd ?_ rfl rfl rfl rfl
    | split

theorem keeps_polderCheck {w : Bool} {s0 a4 : State} {a0 a1 a2 a3} (h0 : Keeps w s0 a4) : KeepsP w s0 (polderCheck a0 a1 a2 a3 a4) := by
  unfold polderCheck
  try dsimp only
  repeat' first
    | with_reducible assumption
    | with_reducible refine keeps_lookupEntry ?_
    | with_reducible refine KeepsP.mk ?_
    | with_reducible refine KeepsP.elim (by assumption) ?_
    | split

/-! ## DevAccess -/

theorem keeps_devPage {w : Bool} {s0 a3 : State} {a0 a1 a2} (h0 : Keeps w s0 a3) : KeepsP2 w s0 (devPage a0 a1 a2 a3) := by
  unfold devPage
  try dsimp only
  repeat' first
    | with_reducible assumption
    | with_reducible refine keeps_record0 ?_
    | with_reducible refine keeps_s2Translate ?_
    | with_reducible refine keeps_pldDeny ?_
    | with_reducible refine keeps_polderCheck ?_
    | with_reducible refine KeepsP2.mk ?_
    | with_reducible refine KeepsP.elim (by assumption) ?_
    | split

theorem keeps_devCheck {w : Bool} {s0 a4 : State} {a0 a1 a2 a3} (h0 : Keeps w s0 a4) : KeepsP w s0 (devCheck a0 a1 a2 a3 a4) := by
  unfold devCheck
  try dsimp only
  repeat' first
    | with_reducible assumption
    | with_reducible refine KeepsP2.snd (keeps_devPage ?_)
    | with_reducible refine KeepsP.mk ?_
    | with_reducible refine KeepsP.snd (KeepsP.foldl ?_ fun _ _ _ => ?_)
    | split

theorem keeps_devRead {w : Bool} {s0 a3 : State} {a0 a1 a2} (h0 : Keeps w s0 a3) : KeepsP2 w s0 (devRead a0 a1 a2 a3) := by
  unfold devRead
  try dsimp only
  repeat' first
    | with_reducible assumption
    | with_reducible refine keeps_devCheck ?_
    | with_reducible refine KeepsP2.mk ?_
    | with_reducible refine KeepsP.elim (by assumption) ?_
    | split

theorem keeps_devStore {s0 a3 : State} {a0 a1 a2} (h0 : Keeps true s0 a3) : Keeps true s0 (devStore a0 a1 a2 a3) := by
  induction a2 generalizing a1 a3 with
  | nil => exact h0
  | cons b bs ih =>
    unfold devStore
    exact ih (Keeps.ite (fun _ => h0) fun _ => keeps_writeBytes h0)

theorem keeps_devPut {s0 a3 : State} {a0 a1 a2} (h0 : Keeps true s0 a3) : Keeps true s0 (devPut a0 a1 a2 a3) := by
  unfold devPut
  try dsimp only
  repeat' first
    | with_reducible assumption
    | with_reducible refine keeps_writeBytes ?_
    | with_reducible refine keeps_devStore ?_
    | with_reducible refine Keeps.ite (fun _ => ?_) fun _ => ?_

theorem keeps_devWrite {s0 a3 : State} {a0 a1 a2} (h0 : Keeps true s0 a3) : KeepsP true s0 (devWrite a0 a1 a2 a3) := by
  unfold devWrite
  try dsimp only
  repeat' first
    | with_reducible assumption
    | with_reducible refine keeps_devPage ?_
    | with_reducible refine keeps_devPut ?_
    | with_reducible refine KeepsP.mk ?_
    | with_reducible refine KeepsP2.elim (by assumption) ?_
    | with_reducible refine KeepsP.snd (KeepsP.foldl ?_ fun _ _ _ => ?_)
    | split

/-! ## NetTx -/

theorem keeps_setNet {w : Bool} {s0 a1 : State} {a0} (h0 : Keeps w s0 a1) : Keeps w s0 (setNet a0 a1) := by
  unfold setNet
  try dsimp only
  repeat' first
    | with_reducible assumption
    | fail_if_no_progress with_reducible refine Keeps.upd ?_ rfl rfl rfl rfl

theorem keeps_netSend {w : Bool} {s0 a5 : State} {a0 a1 a2 a3 a4} (h0 : Keeps w s0 a5) : Keeps w s0 (netSend a0 a1 a2 a3 a4 a5) := by
  unfold netSend
  try dsimp only
  repeat' first
    | with_reducible assumption
    | with_reducible refine keeps_setNet ?_
    | with_reducible refine Keeps.ite (fun _ => ?_) fun _ => ?_

theorem keeps_mgrSend {w : Bool} {s0 a6 : State} {a0 a1 a2 a3 a4 a5} (h0 : Keeps w s0 a6) : Keeps w s0 (mgrSend a0 a1 a2 a3 a4 a5 a6) := by
  unfold mgrSend
  try dsimp only
  repeat' first
    | with_reducible assumption
    | with_reducible refine keeps_netSend ?_

theorem keeps_mgrFrame {w : Bool} {s0 a2 : State} {a0 a1} (h0 : Keeps w s0 a2) : Keeps w s0 (mgrFrame a0 a1 a2) := by
  unfold mgrFrame
  try dsimp only
  repeat' first
    | with_reducible assumption
    | with_reducible refine keeps_mgrSend ?_
    | split

theorem keeps_mgrMessage {w : Bool} {s0 a1 : State} {a0} (h0 : Keeps w s0 a1) : Keeps w s0 (mgrMessage a0 a1) := by
  unfold mgrMessage
  try dsimp only
  repeat' first
    | with_reducible assumption
    | with_reducible refine keeps_setNet ?_
    | with_reducible refine keeps_mgrFrame ?_
    | split

theorem keeps_exportDrop {w : Bool} {s0 a2 : State} {a0 a1} (h0 : Keeps w s0 a2) : Keeps w s0 (exportDrop a0 a1 a2) := by
  unfold exportDrop
  try dsimp only
  repeat' first
    | with_reducible assumption
    | with_reducible refine keeps_record0 ?_
    | with_reducible refine keeps_setNet ?_

theorem keeps_exportSend {w : Bool} {s0 a3 : State} {a0 a1 a2} (h0 : Keeps w s0 a3) : Keeps w s0 (exportSend a0 a1 a2 a3) := by
  unfold exportSend
  try dsimp only
  repeat' first
    | with_reducible assumption
    | with_reducible refine keeps_netSend ?_
    | with_reducible refine keeps_tookFree ?_
    | with_reducible refine keeps_exportDrop ?_
    | with_reducible refine Keeps.ite (fun _ => ?_) fun _ => ?_
    | split

theorem keeps_sendFragments {w : Bool} {s0 a6 : State} {a0 a1 a2 a3 a4 a5} (h0 : Keeps w s0 a6) : Keeps w s0 (sendFragments a0 a1 a2 a3 a4 a5 a6) := by
  unfold sendFragments
  try dsimp only
  repeat' first
    | with_reducible assumption
    | with_reducible refine keeps_netSend ?_
    | with_reducible refine Keeps.foldl ?_ fun _ _ _ => ?_

/-! ## Operands -/

theorem chan_setChan (s : State) (n m : Nat) (c : Chan) : chan (setChan n c s) m = if m = n then c else chan s m := by
  unfold chan setChan
  by_cases h : m = n
  · subst h; simp [Tab.get_put_same]
  · simp [h, Tab.get_put_ne _ _ _ _ _ h]

/-- A channel given at most eight messages, or no more than it held. -/
theorem keeps_setChan {w : Bool} {s0 a2 : State} {a0 a1} (h0 : Keeps w s0 a2) (h1 : a1.q.length ≤ 8 ∨ a1.q.length ≤ (chan a2 a0).q.length) :
    Keeps w s0 (setChan a0 a1 a2) :=
  ⟨h0.queue, h0.mem, h0.wf, h0.free, h0.fuses, h0.warden, fun x n => by
    have := h0.chans x
    rw [chan_setChan]
    split
    · have := this a0; omega
    · exact this n, h0.recorder⟩

theorem keeps_dropHead {w : Bool} {s0 a1 : State} {a0} (h0 : Keeps w s0 a1) : Keeps w s0 (dropHead a0 a1) :=
  keeps_setChan h0 (Or.inr (by simp only [List.length_tail]; omega))

theorem keeps_deliveryRx {w : Bool} {s0 a2 : State} {a0 a1} (h0 : Keeps w s0 a2) : Keeps w s0 (deliveryRx a0 a1 a2) := by
  unfold deliveryRx
  try dsimp only
  repeat' first
    | with_reducible assumption
    | with_reducible refine keeps_record0 ?_
    | with_reducible refine keeps_sendMsix ?_
    | with_reducible refine keeps_raiseLines ?_
    | with_reducible refine Keeps.ite (fun _ => ?_) fun _ => ?_

theorem keeps_deliveryWake {w : Bool} {s0 a1 : State} {a0} (h0 : Keeps w s0 a1) : Keeps w s0 (deliveryWake a0 a1) := by
  unfold deliveryWake
  try dsimp only
  repeat' first
    | with_reducible assumption
    | with_reducible refine keeps_record0 ?_
    | with_reducible refine keeps_orBits ?_
    | fail_if_no_progress with_reducible refine Keeps.upd ?_ rfl rfl rfl rfl
    | with_reducible refine Keeps.ite (fun _ => ?_) fun _ => ?_

theorem keeps_deliver {w : Bool} {s0 a6 : State} {a0 a1 a2 a3 a4 a5} (h0 : Keeps w s0 a6) (hq : (chan a6 a0).q.length < 8) :
    Keeps w s0 (deliver a0 a1 a2 a3 a4 a5 a6) := by
  unfold deliver
  extract_lets c w0 c1 s1 sA b s2 s3
  have h1 : Keeps w s0 s1 := keeps_setChan h0 (Or.inl (by show (c.q ++ [_]).length ≤ 8; rw [List.length_append]; exact hq))
  have hA : Keeps w s0 sA := Keeps.ite (fun _ => keeps_mgrMessage h1) fun _ => h1
  have h2 : Keeps w s0 s2 := Keeps.ite (fun _ => keeps_setChan hA (Or.inr (Nat.le_refl _))) fun _ => hA
  have h3 : Keeps w s0 s3 := Keeps.ite (fun _ => keeps_deliveryRx h2) fun _ => h1
  exact Keeps.ite (fun _ => keeps_deliveryWake h3) fun _ => h3

theorem keeps_setHeld {w : Bool} {s0 a2 : State} {a0 a1} (h0 : Keeps w s0 a2) : Keeps w s0 (setHeld a0 a1 a2) := by
  unfold setHeld
  try dsimp only
  repeat' first
    | with_reducible assumption
    | fail_if_no_progress with_reducible refine Keeps.upd ?_ rfl rfl rfl rfl

theorem keeps_tujanSend {w : Bool} {s0 a4 : State} {a0 a1 a2 a3} (h0 : Keeps w s0 a4) : Keeps w s0 (tujanSend a0 a1 a2 a3 a4) := by
  unfold tujanSend
  refine Keeps.ite (fun _ => h0) fun _ => Keeps.ite (fun hq => ?_) fun _ => Keeps.ite (fun _ => keeps_setHeld h0) fun _ =>
    keeps_record0 (keeps_wr h0)
  rw [Bool.and_eq_true, decide_eq_true_eq] at hq
  exact keeps_deliver h0 hq.2

theorem keeps_notify {w : Bool} {s0 a3 : State} {a0 a1 a2} (h0 : Keeps w s0 a3) : Keeps w s0 (notify a0 a1 a2 a3) := by
  unfold notify
  try dsimp only
  repeat' first
    | with_reducible assumption
    | with_reducible refine keeps_tujanSend ?_

theorem keeps_notifyPairs {w : Bool} {s0 a3 : State} {a0 a1 a2} (h0 : Keeps w s0 a3) : Keeps w s0 (notifyPairs a0 a1 a2 a3) := by
  unfold notifyPairs
  try dsimp only
  repeat' first
    | with_reducible assumption
    | with_reducible refine keeps_notify ?_
    | with_reducible refine Keeps.foldl ?_ fun _ _ _ => ?_

theorem keeps_notifyWardenAnd0 {w : Bool} {s0 a2 : State} {a0 a1} (h0 : Keeps w s0 a2) : Keeps w s0 (notifyWardenAnd0 a0 a1 a2) := by
  unfold notifyWardenAnd0
  try dsimp only
  repeat' first
    | with_reducible assumption
    | with_reducible refine keeps_notifyPairs ?_

theorem keeps_devReport {w : Bool} {s0 a1 : State} {a0} (h0 : Keeps w s0 a1) : Keeps w s0 (devReport a0 a1) := by
  unfold devReport
  try dsimp only
  repeat' first
    | with_reducible assumption
    | with_reducible refine keeps_notify ?_
    | with_reducible refine keeps_notifyWardenAnd0 ?_
    | with_reducible refine Keeps.ite (fun _ => ?_) fun _ => ?_

theorem keeps_takeEvent {w : Bool} {s0 a1 : State} {a0} (h0 : Keeps w s0 a1) : Keeps w s0 (takeEvent a0 a1) := by
  unfold takeEvent
  try dsimp only
  repeat' first
    | with_reducible assumption
    | with_reducible refine keeps_occurrence ?_
    | with_reducible refine keeps_devReport ?_
    | with_reducible refine KeepsP.elim (by assumption) ?_
    | with_reducible refine Keeps.ite (fun _ => ?_) fun _ => ?_
    | split

theorem keeps_settle {w : Bool} {s0 a1 : State} {a0} (h0 : Keeps w s0 a1) : Keeps w s0 (settle a0 a1) := by
  induction a0 generalizing a1 with
  | zero => exact h0
  | succ k ih =>
    unfold settle
    exact Keeps.ite (fun _ => h0) fun _ => ih (Keeps.foldl (Keeps.upd h0 rfl rfl rfl rfl) fun _ _ h => keeps_takeEvent h)

theorem keeps_done {w : Bool} {s0 a0 : State} (h0 : Keeps w s0 a0) : KeepsR w s0 (done a0) := KeepsR.mk (keeps_settle h0)

theorem keeps_notifyPolderWardenAnd0 {w : Bool} {s0 a3 : State} {a0 a1 a2} (h0 : Keeps w s0 a3) : Keeps w s0 (notifyPolderWardenAnd0 a0 a1 a2 a3) := by
  unfold notifyPolderWardenAnd0
  try dsimp only
  repeat' first
    | with_reducible assumption
    | with_reducible refine keeps_notifyPairs ?_

theorem keeps_okR {w : Bool} {s0 a1 : State} {a0} (h0 : Keeps w s0 a1) : KeepsA w s0 (okR a0 a1) := by
  unfold okR
  try dsimp only
  repeat' first
    | with_reducible assumption
    | with_reducible refine Keeps.idd ?_
    | with_reducible refine KeepsA.mk ?_ fun _ _ => ?_

theorem keeps_no {w : Bool} {s0 a1 : State} {a0} (h0 : Keeps w s0 a1) : KeepsA w s0 (no a0 a1) := by
  unfold no
  try dsimp only
  repeat' first
    | with_reducible assumption
    | with_reducible refine Keeps.idd ?_
    | with_reducible refine KeepsA.mk ?_ fun _ _ => ?_

theorem keeps_did {w : Bool} {s0 a0 : State} (h0 : Keeps w s0 a0) : KeepsA w s0 (did a0) := by
  unfold did
  try dsimp only
  repeat' first
    | with_reducible assumption
    | with_reducible refine Keeps.idd ?_
    | with_reducible refine KeepsA.mk ?_ fun _ _ => ?_

theorem keeps_reply {w : Bool} {s0 a3 : State} {a0 a1 a2} (h0 : Keeps w s0 a3) : Keeps w s0 (reply a0 a1 a2 a3) := by
  unfold reply
  try dsimp only
  repeat' first
    | with_reducible assumption
    | with_reducible refine keeps_tujanSend ?_

theorem keeps_recordRefusal {w : Bool} {s0 a2 : State} {a0 a1} (h0 : Keeps w s0 a2) : Keeps w s0 (recordRefusal a0 a1 a2) := by
  unfold recordRefusal
  try dsimp only
  repeat' first
    | with_reducible assumption
    | with_reducible refine keeps_record0 ?_

theorem keeps_serveReq {w : Bool} {s0 a2 : State} {a0 a1} (h0 : ∀ b0 b1, Keeps w s0 b1 → KeepsA w s0 (a1 b0 b1)) (h1 : Keeps w s0 a2) :
    Keeps w s0 (serveReq a0 a1 a2) := by
  unfold serveReq
  refine Keeps.ite (fun _ => keeps_reply h1) fun _ => ?_
  split
  · exact keeps_reply (keeps_recordRefusal h1)
  · refine Keeps.ite (fun _ => keeps_reply h1) fun _ => ?_
    split
    · exact keeps_reply h1
    · exact (h0 a0 a2 h1).2 _ (keeps_reply (Keeps.ite (fun _ => keeps_recordRefusal (h0 a0 a2 h1).1) fun _ => (h0 a0 a2 h1).1))

theorem keeps_serve {w : Bool} {s0 a3 : State} {a0 a1 a2} (h0 : ∀ b0 b1, Keeps w s0 b1 → KeepsA w s0 (a2 b0 b1)) (h1 : Keeps w s0 a3) : Keeps w s0 (serve a0 a1 a2 a3) := by
  unfold serve
  try dsimp only
  repeat' first
    | with_reducible assumption
    | with_reducible apply h0
    | with_reducible refine keeps_serveReq (fun _ _ _ => ?_) ?_
    | with_reducible refine keeps_dropHead ?_
    | with_reducible refine Keeps.ite (fun _ => ?_) fun _ => ?_
    | split

theorem keeps_replyOpt {w : Bool} {s0 a3 : State} {a0 a1 a2} (h0 : Keeps w s0 a3) : Keeps w s0 (replyOpt a0 a1 a2 a3) := by
  unfold replyOpt
  try dsimp only
  repeat' first
    | with_reducible assumption
    | with_reducible refine keeps_reply ?_
    | split

theorem keeps_notifyAll {w : Bool} {s0 a2 : State} {a0 a1} (h0 : Keeps w s0 a2) : Keeps w s0 (notifyAll a0 a1 a2) := by
  unfold notifyAll
  try dsimp only
  repeat' first
    | with_reducible assumption
    | with_reducible refine keeps_notifyPairs ?_

theorem keeps_notifyPolder {w : Bool} {s0 a3 : State} {a0 a1 a2} (h0 : Keeps w s0 a3) : Keeps w s0 (notifyPolder a0 a1 a2 a3) := by
  unfold notifyPolder
  try dsimp only
  repeat' first
    | with_reducible assumption
    | with_reducible refine keeps_notify ?_
    | split

theorem keeps_pend {w : Bool} {s0 a0 : State} {a1} (h0 : Keeps w s0 a0) (h1 : ∀ b0, Keeps w s0 b0 → Keeps w s0 (a1 b0)) : KeepsA w s0 (pend a0 a1) := by
  unfold pend
  try dsimp only
  repeat' first
    | with_reducible assumption
    | with_reducible apply h1
    | with_reducible refine KeepsA.mk ?_ fun _ _ => ?_

theorem keeps_notifyAck {w : Bool} {s0 a3 : State} {a0 a1 a2} (h0 : Keeps w s0 a3) : Keeps w s0 (notifyAck a0 a1 a2 a3) := by
  unfold notifyAck
  try dsimp only
  repeat' first
    | with_reducible assumption
    | with_reducible refine keeps_tujanSend ?_

/-! ## Raster -/

theorem keeps_setOut {w : Bool} {s0 a2 : State} {a0 a1} (h0 : Keeps w s0 a2) : Keeps w s0 (setOut a0 a1 a2) := by
  unfold setOut
  try dsimp only
  repeat' first
    | with_reducible assumption
    | fail_if_no_progress with_reducible refine Keeps.upd ?_ rfl rfl rfl rfl

theorem keeps_setSlot {w : Bool} {s0 a2 : State} {a0 a1} (h0 : Keeps w s0 a2) : Keeps w s0 (setSlot a0 a1 a2) := by
  unfold setSlot
  try dsimp only
  repeat' first
    | with_reducible assumption
    | fail_if_no_progress with_reducible refine Keeps.upd ?_ rfl rfl rfl rfl

theorem keeps_putRegion {w : Bool} {s0 a3 : State} {a0 a1 a2} (h0 : Keeps w s0 a3) : Keeps w s0 (putRegion a0 a1 a2 a3) := by
  unfold putRegion
  try dsimp only
  repeat' first
    | with_reducible assumption
    | fail_if_no_progress with_reducible refine Keeps.upd ?_ rfl rfl rfl rfl

theorem keeps_anchorAt {w : Bool} {s0 a4 : State} {a0 a1 a2 a3} (h0 : Keeps w s0 a4) : Keeps w s0 (anchorAt a0 a1 a2 a3 a4) := by
  unfold anchorAt
  try dsimp only
  repeat' first
    | with_reducible assumption
    | with_reducible refine keeps_setOut ?_

theorem keeps_anchorNow {w : Bool} {s0 a3 : State} {a0 a1 a2} (h0 : Keeps w s0 a3) : Keeps w s0 (anchorNow a0 a1 a2 a3) := by
  unfold anchorNow
  try dsimp only
  repeat' first
    | with_reducible assumption
    | with_reducible refine keeps_setOut ?_

/-! ## Layers -/

theorem keeps_applyVals {w : Bool} {s0 a1 : State} {a0} (h0 : Keeps w s0 a1) : Keeps w s0 (applyVals a0 a1) := by
  unfold applyVals
  try dsimp only
  repeat' first
    | with_reducible assumption
    | fail_if_no_progress with_reducible refine Keeps.upd ?_ rfl rfl rfl rfl

theorem keeps_projected {w : Bool} {s0 a0 : State} (h0 : Keeps w s0 a0) : Keeps w s0 (projected a0) := by
  unfold projected
  try dsimp only
  repeat' first
    | with_reducible assumption
    | with_reducible refine keeps_applyVals ?_
    | with_reducible refine Keeps.foldl ?_ fun _ _ _ => ?_

/-! ## Access -/

theorem keeps_recordViolation {w : Bool} {s0 a6 : State} {a0 a1 a2 a3 a4 a5} (h0 : Keeps w s0 a6) : Keeps w s0 (recordViolation a0 a1 a2 a3 a4 a5 a6) := by
  unfold recordViolation
  try dsimp only
  repeat' first
    | with_reducible assumption
    | with_reducible refine keeps_record ?_

theorem keeps_BlockEv_violate {w : Bool} {s0 a5 : State} {a0 a1 a2 a3 a4} (h0 : Keeps w s0 a5) : Keeps w s0 (BlockEv.violate a0 a1 a2 a3 a4 a5) := by
  unfold BlockEv.violate
  try dsimp only
  repeat' first
    | with_reducible assumption
    | with_reducible refine keeps_recordViolation ?_
    | with_reducible refine Keeps.ite (fun _ => ?_) fun _ => ?_

theorem keeps_holdWord {w : Bool} {s0 a3 : State} {a0 a1 a2} (h0 : Keeps w s0 a3) : Keeps w s0 (holdWord a0 a1 a2 a3) := by
  unfold holdWord
  try dsimp only
  repeat' first
    | with_reducible assumption
    | fail_if_no_progress with_reducible refine Keeps.upd ?_ rfl rfl rfl rfl

theorem keeps_violateAt {w : Bool} {s0 a4 : State} {a0 a1 a2 a3} (h0 : Keeps w s0 a4) : Keeps w s0 (violateAt a0 a1 a2 a3 a4) := by
  unfold violateAt
  try dsimp only
  repeat' first
    | with_reducible assumption
    | with_reducible refine keeps_BlockEv_violate ?_
    | with_reducible refine Keeps.ite (fun _ => ?_) fun _ => ?_
    | split

theorem keeps_readTurned {w : Bool} {s0 a3 : State} {a0 a1 a2} (h0 : Keeps w s0 a3) : KeepsO w s0 (readTurned a0 a1 a2 a3) := by
  unfold readTurned
  try dsimp only
  repeat' first
    | with_reducible assumption
    | with_reducible refine keeps_recordViolation ?_
    | with_reducible refine keeps_violateAt ?_
    | with_reducible refine KeepsO.mk ?_
    | with_reducible refine KeepsO.non
    | with_reducible refine Keeps.ite (fun _ => ?_) fun _ => ?_
    | with_reducible refine KeepsO.ite (fun _ => ?_) fun _ => ?_
    | split

theorem keeps_regRead {w : Bool} {s0 a4 : State} {a0 a1 a2 a3} (h0 : ∀ b0, Keeps w s0 b0 → KeepsP w s0 (a3 b0)) (h1 : Keeps w s0 a4) :
    KeepsR w s0 (regRead a0 a1 a2 a3 a4) := by
  unfold regRead
  refine KeepsR.ite (fun _ => KeepsR.mk h1) fun _ => ?_
  split
  · next e => exact keeps_done (Keeps.upd (KeepsO.elim e (keeps_readTurned h1)) rfl rfl rfl rfl)
  · exact keeps_done (Keeps.upd (h0 a4 h1) rfl rfl rfl rfl)

theorem keeps_turnedAway {w : Bool} {s0 a4 : State} {a0 a1 a2 a3} (h0 : Keeps w s0 a4) : KeepsO w s0 (turnedAway a0 a1 a2 a3 a4) := by
  unfold turnedAway
  try dsimp only
  repeat' first
    | with_reducible assumption
    | with_reducible refine keeps_recordViolation ?_
    | with_reducible refine keeps_violateAt ?_
    | with_reducible refine KeepsO.mk ?_
    | with_reducible refine KeepsO.non
    | with_reducible refine KeepsO.ite (fun _ => ?_) fun _ => ?_
    | split

theorem keeps_regWrite {w : Bool} {s0 a5 : State} {a0 a1 a2 a3 a4} (h0 : ∀ b0 b1, Keeps w s0 b1 → Keeps w s0 (a4 b0 b1)) (h1 : Keeps w s0 a5) : KeepsR w s0 (regWrite a0 a1 a2 a3 a4 a5) := by
  unfold regWrite
  try dsimp only
  repeat' first
    | with_reducible assumption
    | with_reducible apply h0
    | with_reducible refine keeps_done ?_
    | with_reducible refine keeps_turnedAway ?_
    | with_reducible refine KeepsR.mk ?_
    | with_reducible refine KeepsO.elim (by assumption) ?_
    | with_reducible refine KeepsR.ite (fun _ => ?_) fun _ => ?_
    | split

/-! ## Mailbox -/

theorem keeps_freeLocks {w : Bool} {s0 a1 : State} {a0} (h0 : Keeps w s0 a1) : Keeps w s0 (freeLocks a0 a1) := by
  unfold freeLocks
  try dsimp only
  repeat' first
    | with_reducible assumption
    | with_reducible refine keeps_wr ?_
    | with_reducible refine keeps_record0 ?_
    | with_reducible refine Keeps.foldl ?_ fun _ _ _ => ?_

theorem keeps_freeLocksOf {w : Bool} {s0 a1 : State} {a0} (h0 : Keeps w s0 a1) : Keeps w s0 (freeLocksOf a0 a1) := by
  unfold freeLocksOf
  try dsimp only
  repeat' first
    | with_reducible assumption
    | with_reducible refine keeps_freeLocks ?_
    | with_reducible refine Keeps.foldl ?_ fun _ _ _ => ?_

theorem keeps_push {w : Bool} {s0 a2 : State} {a0 a1} (h0 : Keeps w s0 a2) : Keeps w s0 (push a0 a1 a2) := by
  unfold push
  exact Keeps.ite (fun hq => keeps_deliver h0 hq) fun _ => keeps_record0 (keeps_wr h0)

theorem keeps_execMbxPush {w : Bool} {s0 a3 : State} {a0 a1 a2} (h0 : Keeps w s0 a3) : KeepsR w s0 (execMbxPush a0 a1 a2 a3) := by
  unfold execMbxPush
  try dsimp only
  repeat' first
    | with_reducible assumption
    | with_reducible refine keeps_regWrite (fun _ _ _ => ?_) ?_
    | with_reducible refine keeps_push ?_
    | with_reducible refine Keeps.ite (fun _ => ?_) fun _ => ?_
    | split

theorem keeps_execMbxPop {w : Bool} {s0 a3 : State} {a0 a1 a2} (h0 : Keeps w s0 a3) : KeepsR w s0 (execMbxPop a0 a1 a2 a3) := by
  unfold execMbxPop
  try dsimp only
  repeat' first
    | with_reducible assumption
    | with_reducible refine keeps_regWrite (fun _ _ _ => ?_) ?_
    | with_reducible refine keeps_dropHead ?_
    | with_reducible refine Keeps.ite (fun _ => ?_) fun _ => ?_
    | split

theorem keeps_execMbxLockRelease {w : Bool} {s0 a3 : State} {a0 a1 a2} (h0 : Keeps w s0 a3) : KeepsR w s0 (execMbxLockRelease a0 a1 a2 a3) := by
  unfold execMbxLockRelease
  try dsimp only
  repeat' first
    | with_reducible assumption
    | with_reducible refine keeps_wr ?_
    | with_reducible refine keeps_record0 ?_
    | with_reducible refine keeps_done ?_
    | with_reducible refine KeepsR.mk ?_
    | with_reducible refine KeepsR.ite (fun _ => ?_) fun _ => ?_

theorem keeps_execMbxLockAcquire {w : Bool} {s0 a2 : State} {a0 a1} (h0 : Keeps w s0 a2) : KeepsR w s0 (execMbxLockAcquire a0 a1 a2) := by
  unfold execMbxLockAcquire
  try dsimp only
  repeat' first
    | with_reducible assumption
    | with_reducible refine keeps_wr ?_
    | with_reducible refine KeepsR.mk ?_
    | fail_if_no_progress with_reducible refine Keeps.upd ?_ rfl rfl rfl rfl
    | with_reducible refine KeepsR.ite (fun _ => ?_) fun _ => ?_
    | split

theorem keeps_discardPair {w : Bool} {s0 a1 : State} {a0} (h0 : Keeps w s0 a1) : Keeps w s0 (discardPair a0 a1) :=
  keeps_setHeld (keeps_setChan (keeps_setChan h0 (Or.inl (Nat.zero_le _))) (Or.inl (Nat.zero_le _)))

theorem keeps_assignPair {w : Bool} {s0 a3 : State} {a0 a1 a2} (h0 : Keeps w s0 a3) : Keeps w s0 (assignPair a0 a1 a2 a3) := by
  unfold assignPair
  try dsimp only
  repeat' first
    | with_reducible assumption
    | with_reducible refine keeps_wr ?_
    | with_reducible refine keeps_discardPair ?_
    | with_reducible refine Keeps.foldl ?_ fun _ _ _ => ?_

theorem keeps_clearUnacked {w : Bool} {s0 a2 : State} {a0 a1} (h0 : Keeps w s0 a2) : Keeps w s0 (clearUnacked a0 a1 a2) :=
  keeps_setChan h0 (Or.inr (Nat.le_refl _))

theorem keeps_disablePair {w : Bool} {s0 a1 : State} {a0} (h0 : Keeps w s0 a1) : Keeps w s0 (disablePair a0 a1) := by
  unfold disablePair
  try dsimp only
  repeat' first
    | with_reducible assumption
    | with_reducible refine keeps_wr ?_
    | with_reducible refine keeps_discardPair ?_

theorem keeps_drainHeld {w : Bool} {s0 a2 : State} {a0 a1} (h0 : Keeps w s0 a2) : Keeps w s0 (drainHeld a0 a1 a2) := by
  induction a1 generalizing a2 with
  | nil => exact keeps_setHeld h0
  | cons x t ih => unfold drainHeld; exact Keeps.ite (fun hq => ih (keeps_deliver h0 hq)) fun _ => keeps_setHeld h0

theorem keeps_execMbxCrosswait {w : Bool} {s0 a1 : State} {a0} (h0 : Keeps w s0 a1) : KeepsR w s0 (execMbxCrosswait a0 a1) := by
  unfold execMbxCrosswait
  try dsimp only
  repeat' first
    | with_reducible assumption
    | with_reducible refine keeps_record0 ?_
    | with_reducible refine keeps_orBits ?_
    | with_reducible refine keeps_sendMsix ?_
    | with_reducible refine keeps_raiseLines ?_
    | with_reducible refine keeps_done ?_
    | with_reducible refine keeps_advanceTo ?_
    | with_reducible refine KeepsR.mk ?_
    | with_reducible refine Keeps.ite (fun _ => ?_) fun _ => ?_
    | with_reducible refine KeepsR.ite (fun _ => ?_) fun _ => ?_
    | split

theorem keeps_setRx {w : Bool} {s0 a1 : State} {a0} (h0 : Keeps w s0 a1) : KeepsA w s0 (setRx a0 a1) := by
  unfold setRx
  try dsimp only
  repeat' first
    | with_reducible assumption
    | with_reducible refine keeps_wr ?_
    | with_reducible refine keeps_did ?_

theorem keeps_execMbxSetRx {w : Bool} {s0 a1 : State} {a0} (h0 : Keeps w s0 a1) : KeepsR w s0 (execMbxSetRx a0 a1) := by
  unfold execMbxSetRx
  try dsimp only
  repeat' first
    | with_reducible assumption
    | with_reducible refine keeps_done ?_
    | with_reducible refine keeps_serve (fun _ _ _ => ?_) ?_
    | with_reducible refine keeps_setRx ?_

theorem keeps_execPartyAck {w : Bool} {s0 a1 : State} {a0} (h0 : Keeps w s0 a1) : KeepsR w s0 (execPartyAck a0 a1) := by
  unfold execPartyAck
  try dsimp only
  repeat' first
    | with_reducible assumption
    | with_reducible refine keeps_dropHead ?_
    | with_reducible refine keeps_clearUnacked ?_
    | with_reducible refine KeepsR.mk ?_
    | with_reducible refine KeepsR.ite (fun _ => ?_) fun _ => ?_
    | split

theorem keeps_execTujanHoldDrain {w : Bool} {s0 a1 : State} {a0} (h0 : Keeps w s0 a1) : KeepsR w s0 (execTujanHoldDrain a0 a1) := by
  unfold execTujanHoldDrain
  try dsimp only
  repeat' first
    | with_reducible assumption
    | with_reducible refine keeps_done ?_
    | with_reducible refine keeps_drainHeld ?_

theorem keeps_execUndefinedOpcode {w : Bool} {s0 a1 : State} {a0} (h0 : Keeps w s0 a1) : KeepsR w s0 (execUndefinedOpcode a0 a1) := by
  unfold execUndefinedOpcode
  try dsimp only
  repeat' first
    | with_reducible assumption
    | with_reducible refine keeps_done ?_
    | with_reducible refine keeps_reply ?_
    | with_reducible refine keeps_dropHead ?_
    | with_reducible refine KeepsR.mk ?_
    | with_reducible refine KeepsR.ite (fun _ => ?_) fun _ => ?_
    | split

end Sys2Proof.Machine
end

