-- ==== Sys2Proof/Laws/KeepsPolders.lean ====
section
/-! SUPPORT. What the functions of the polders, the audio engine and the wardens
keep of a state (Keeps): one lemma per function, each from those of the functions it calls. -/
namespace Sys2Proof.Machine

/-! ## Polders -/

theorem keeps_polFault {w : Bool} {s0 a4 : State} {a0 a1 a2 a3} (h0 : Keeps w s0 a4) : Keeps w s0 (polFault a0 a1 a2 a3 a4) := by
  unfold polFault
  try dsimp only
  repeat' first
    | with_reducible assumption
    | with_reducible refine keeps_wr ?_
    | with_reducible refine keeps_incSat ?_
    | with_reducible refine keeps_raiseLine ?_
    | with_reducible refine keeps_notifyPolderWardenAnd0 ?_
    | with_reducible refine Keeps.ite (fun _ => ?_) fun _ => ?_

theorem keeps_execEvlEnableWrite {w : Bool} {s0 a3 : State} {a0 a1 a2} (h0 : Keeps w s0 a3) : KeepsR w s0 (execEvlEnableWrite a0 a1 a2 a3) := by
  unfold execEvlEnableWrite
  try dsimp only
  repeat' first
    | with_reducible assumption
    | with_reducible refine keeps_holdWord ?_
    | with_reducible refine keeps_wr ?_
    | with_reducible refine keeps_lineMessage ?_
    | with_reducible refine keeps_regWrite (fun _ _ _ => ?_) ?_
    | with_reducible refine Keeps.foldl ?_ fun _ _ _ => ?_

theorem keeps_freshInstance {w : Bool} {s0 a1 : State} {a0} (h0 : Keeps w s0 a1) : Keeps w s0 (freshInstance a0 a1) := by
  unfold freshInstance
  try dsimp only
  repeat' first
    | with_reducible assumption
    | with_reducible refine keeps_wr ?_
    | with_reducible refine Keeps.foldl ?_ fun _ _ _ => ?_

theorem keeps_sharesDefault {w : Bool} {s0 a1 : State} {a0} (h0 : Keeps w s0 a1) : Keeps w s0 (sharesDefault a0 a1) := by
  unfold sharesDefault
  try dsimp only
  repeat' first
    | with_reducible assumption
    | with_reducible refine keeps_wr ?_

theorem keeps_polderChanged {w : Bool} {s0 a1 : State} {a0} (h0 : Keeps w s0 a1) : Keeps w s0 (polderChanged a0 a1) := by
  unfold polderChanged
  try dsimp only
  repeat' first
    | with_reducible assumption
    | with_reducible refine keeps_record0 ?_
    | with_reducible refine keeps_raiseLine ?_
    | with_reducible refine keeps_notifyPolderWardenAnd0 ?_

theorem keeps_pcieSetWindows {w : Bool} {s0 a1 : State} {a0} (h0 : Keeps w s0 a1) : KeepsA w s0 (pcieSetWindows a0 a1) := by
  unfold pcieSetWindows
  try dsimp only
  repeat' first
    | with_reducible assumption
    | with_reducible refine keeps_no ?_
    | with_reducible refine keeps_did ?_
    | fail_if_no_progress with_reducible refine Keeps.upd ?_ rfl rfl rfl rfl
    | with_reducible refine KeepsA.ite (fun _ => ?_) fun _ => ?_
    | split

theorem keeps_execPcieSetWindows {w : Bool} {s0 a1 : State} {a0} (h0 : Keeps w s0 a1) : KeepsR w s0 (execPcieSetWindows a0 a1) := by
  unfold execPcieSetWindows
  try dsimp only
  repeat' first
    | with_reducible assumption
    | with_reducible refine keeps_done ?_
    | with_reducible refine keeps_serve (fun _ _ _ => ?_) ?_
    | with_reducible refine keeps_pcieSetWindows ?_

theorem keeps_polderAssignPair {w : Bool} {s0 a1 : State} {a0} (h0 : Keeps w s0 a1) : KeepsA w s0 (polderAssignPair a0 a1) := by
  unfold polderAssignPair
  try dsimp only
  repeat' first
    | with_reducible assumption
    | with_reducible refine keeps_orBits ?_
    | with_reducible refine keeps_no ?_
    | with_reducible refine keeps_did ?_
    | with_reducible refine keeps_assignPair ?_
    | with_reducible refine KeepsA.ite (fun _ => ?_) fun _ => ?_
    | split

theorem keeps_execPolderAssignPair {w : Bool} {s0 a1 : State} {a0} (h0 : Keeps w s0 a1) : KeepsR w s0 (execPolderAssignPair a0 a1) := by
  unfold execPolderAssignPair
  try dsimp only
  repeat' first
    | with_reducible assumption
    | with_reducible refine keeps_done ?_
    | with_reducible refine keeps_serve (fun _ _ _ => ?_) ?_
    | with_reducible refine keeps_polderAssignPair ?_

theorem keeps_polderCreate {w : Bool} {s0 a1 : State} {a0} (h0 : Keeps w s0 a1) : KeepsA w s0 (polderCreate a0 a1) := by
  unfold polderCreate
  try dsimp only
  repeat' first
    | with_reducible assumption
    | with_reducible refine keeps_wr ?_
    | with_reducible refine keeps_no ?_
    | with_reducible refine keeps_assignPair ?_
    | with_reducible refine keeps_notifyAck ?_
    | with_reducible refine keeps_freshInstance ?_
    | with_reducible refine keeps_sharesDefault ?_
    | with_reducible refine keeps_polderChanged ?_
    | with_reducible refine KeepsA.ite (fun _ => ?_) fun _ => ?_
    | split
    | with_reducible refine KeepsA.mk ?_ fun _ _ => ?_

theorem keeps_execPolderCreate {w : Bool} {s0 a1 : State} {a0} (h0 : Keeps w s0 a1) : KeepsR w s0 (execPolderCreate a0 a1) := by
  unfold execPolderCreate
  try dsimp only
  repeat' first
    | with_reducible assumption
    | with_reducible refine keeps_done ?_
    | with_reducible refine keeps_serve (fun _ _ _ => ?_) ?_
    | with_reducible refine keeps_polderCreate ?_

theorem keeps_polderGetGrants {w : Bool} {s0 a1 : State} {a0} (h0 : Keeps w s0 a1) : KeepsA w s0 (polderGetGrants a0 a1) := by
  unfold polderGetGrants
  try dsimp only
  repeat' first
    | with_reducible assumption
    | with_reducible refine keeps_okR ?_
    | with_reducible refine keeps_no ?_
    | with_reducible refine KeepsA.ite (fun _ => ?_) fun _ => ?_

theorem keeps_execPolderGetGrants {w : Bool} {s0 a1 : State} {a0} (h0 : Keeps w s0 a1) : KeepsR w s0 (execPolderGetGrants a0 a1) := by
  unfold execPolderGetGrants
  try dsimp only
  repeat' first
    | with_reducible assumption
    | with_reducible refine keeps_done ?_
    | with_reducible refine keeps_serve (fun _ _ _ => ?_) ?_
    | with_reducible refine keeps_polderGetGrants ?_

theorem keeps_polderGetInfo {w : Bool} {s0 a1 : State} {a0} (h0 : Keeps w s0 a1) : KeepsA w s0 (polderGetInfo a0 a1) := by
  unfold polderGetInfo
  try dsimp only
  repeat' first
    | with_reducible assumption
    | with_reducible refine keeps_okR ?_
    | with_reducible refine keeps_no ?_
    | with_reducible refine KeepsA.ite (fun _ => ?_) fun _ => ?_

theorem keeps_execPolderGetInfo {w : Bool} {s0 a1 : State} {a0} (h0 : Keeps w s0 a1) : KeepsR w s0 (execPolderGetInfo a0 a1) := by
  unfold execPolderGetInfo
  try dsimp only
  repeat' first
    | with_reducible assumption
    | with_reducible refine keeps_done ?_
    | with_reducible refine keeps_serve (fun _ _ _ => ?_) ?_
    | with_reducible refine keeps_polderGetInfo ?_

theorem keeps_giveUnits {w : Bool} {s0 a3 : State} {a0 a1 a2} (h0 : Keeps w s0 a3) : Keeps w s0 (giveUnits a0 a1 a2 a3) := by
  unfold giveUnits
  try dsimp only
  repeat' first
    | with_reducible assumption
    | fail_if_no_progress with_reducible refine Keeps.upd ?_ rfl rfl rfl rfl
    | with_reducible refine Keeps.ite (fun _ => ?_) fun _ => ?_
    | with_reducible refine Keeps.foldl ?_ fun _ _ _ => ?_

theorem keeps_polderGrant {w : Bool} {s0 a1 : State} {a0} (h0 : Keeps w s0 a1) : KeepsA w s0 (polderGrant a0 a1) := by
  unfold polderGrant
  try dsimp only
  repeat' first
    | with_reducible assumption
    | with_reducible refine keeps_no ?_
    | with_reducible refine keeps_did ?_
    | with_reducible refine keeps_giveUnits ?_
    | fail_if_no_progress with_reducible refine Keeps.upd ?_ rfl rfl rfl rfl
    | with_reducible refine KeepsA.ite (fun _ => ?_) fun _ => ?_
    | split

theorem keeps_execPolderGrant {w : Bool} {s0 a1 : State} {a0} (h0 : Keeps w s0 a1) : KeepsR w s0 (execPolderGrant a0 a1) := by
  unfold execPolderGrant
  try dsimp only
  repeat' first
    | with_reducible assumption
    | with_reducible refine keeps_done ?_
    | with_reducible refine keeps_serve (fun _ _ _ => ?_) ?_
    | with_reducible refine keeps_polderGrant ?_

theorem keeps_polderSetShare {w : Bool} {s0 a1 : State} {a0} (h0 : Keeps w s0 a1) : KeepsA w s0 (polderSetShare a0 a1) := by
  unfold polderSetShare
  try dsimp only
  repeat' first
    | with_reducible assumption
    | with_reducible refine keeps_wr ?_
    | with_reducible refine keeps_raiseLine ?_
    | with_reducible refine keeps_wrB ?_
    | with_reducible refine keeps_no ?_
    | with_reducible refine keeps_did ?_
    | with_reducible refine KeepsA.ite (fun _ => ?_) fun _ => ?_
    | split

theorem keeps_execPolderSetShare {w : Bool} {s0 a1 : State} {a0} (h0 : Keeps w s0 a1) : KeepsR w s0 (execPolderSetShare a0 a1) := by
  unfold execPolderSetShare
  try dsimp only
  repeat' first
    | with_reducible assumption
    | with_reducible refine keeps_done ?_
    | with_reducible refine keeps_serve (fun _ _ _ => ?_) ?_
    | with_reducible refine keeps_polderSetShare ?_

/-! ## Audio -/

theorem keeps_audLine {w : Bool} {s0 a2 : State} {a0 a1} (h0 : Keeps w s0 a2) : Keeps w s0 (audLine a0 a1 a2) := by
  unfold audLine
  try dsimp only
  repeat' first
    | with_reducible assumption
    | with_reducible refine keeps_orBits ?_
    | with_reducible refine keeps_raiseLine ?_

theorem keeps_progStat {w : Bool} {s0 a1 : State} {a0} (h0 : Keeps w s0 a1) : Keeps w s0 (progStat a0 a1) := by
  unfold progStat
  try dsimp only
  repeat' first
    | with_reducible assumption
    | with_reducible refine keeps_wr ?_
    | with_reducible refine keeps_wrB ?_

theorem keeps_setAud {w : Bool} {s0 a1 : State} {a0} (h0 : Keeps w s0 a1) : Keeps w s0 (setAud a0 a1) := by
  unfold setAud
  try dsimp only
  repeat' first
    | with_reducible assumption
    | fail_if_no_progress with_reducible refine Keeps.upd ?_ rfl rfl rfl rfl

theorem keeps_setAudPol {w : Bool} {s0 a2 : State} {a0 a1} (h0 : Keeps w s0 a2) : Keeps w s0 (setAudPol a0 a1 a2) := by
  unfold setAudPol
  try dsimp only
  repeat' first
    | with_reducible assumption
    | with_reducible refine keeps_setAud ?_

theorem keeps_swapBoundary {w : Bool} {s0 a2 : State} {a0 a1} (h0 : Keeps w s0 a2) : Keeps w s0 (swapBoundary a0 a1 a2) := by
  unfold swapBoundary
  try dsimp only
  repeat' first
    | with_reducible assumption
    | with_reducible refine keeps_wr ?_
    | with_reducible refine keeps_record0 ?_
    | with_reducible refine keeps_audLine ?_
    | with_reducible refine keeps_tookFree ?_
    | with_reducible refine keeps_progStat ?_
    | with_reducible refine keeps_setAudPol ?_
    | with_reducible refine Keeps.ite (fun _ => ?_) fun _ => ?_
    | split

theorem keeps_ringStop {w : Bool} {s0 a2 : State} {a0 a1} (h0 : Keeps w s0 a2) : Keeps w s0 (ringStop a0 a1 a2) := by
  unfold ringStop
  try dsimp only
  repeat' first
    | with_reducible assumption
    | with_reducible refine keeps_wr ?_

theorem keeps_ringError {w : Bool} {s0 a3 : State} {a0 a1 a2} (h0 : Keeps w s0 a3) : Keeps w s0 (ringError a0 a1 a2 a3) := by
  unfold ringError
  try dsimp only
  repeat' first
    | with_reducible assumption
    | with_reducible refine keeps_incSat ?_
    | with_reducible refine keeps_record0 ?_
    | with_reducible refine keeps_audLine ?_

theorem keeps_ringErrors {w : Bool} {s0 a4 : State} {a0 a1 a2 a3} (h0 : Keeps w s0 a4) : Keeps w s0 (ringErrors a0 a1 a2 a3 a4) := by
  unfold ringErrors
  try dsimp only
  repeat' first
    | with_reducible assumption
    | with_reducible refine keeps_ringError ?_
    | with_reducible refine Keeps.foldl ?_ fun _ _ _ => ?_

theorem keeps_ringFetch {w : Bool} {s0 a2 : State} {a0 a1} (h0 : Keeps w s0 a2) : KeepsP w s0 (ringFetch a0 a1 a2) := by
  unfold ringFetch
  try dsimp only
  repeat' first
    | with_reducible assumption
    | with_reducible refine keeps_wr ?_
    | with_reducible refine keeps_audLine ?_
    | with_reducible refine keeps_ringStop ?_
    | with_reducible refine keeps_devRead ?_
    | with_reducible refine keeps_ringErrors ?_
    | with_reducible refine keeps_polFault ?_
    | with_reducible refine KeepsP.mk ?_
    | with_reducible refine KeepsP2.mk ?_
    | with_reducible refine KeepsP2.elim (by assumption) ?_
    | with_reducible refine Keeps.ite (fun _ => ?_) fun _ => ?_
    | with_reducible refine KeepsP2.snd (KeepsP2.foldl ?_ fun _ _ _ => ?_)
    | split

theorem keeps_clearMeters {w : Bool} {s0 a2 : State} {a0 a1} (h0 : Keeps w s0 a2) : Keeps w s0 (clearMeters a0 a1 a2) := by
  unfold clearMeters
  try dsimp only
  repeat' first
    | with_reducible assumption
    | with_reducible refine keeps_wr ?_
    | with_reducible refine Keeps.ite (fun _ => ?_) fun _ => ?_
    | with_reducible refine Keeps.foldl ?_ fun _ _ _ => ?_

theorem keeps_audFree {w : Bool} {s0 a1 : State} {a0} (h0 : Keeps w s0 a1) : Keeps w s0 (audFree a0 a1) := by
  unfold audFree
  try dsimp only
  repeat' first
    | with_reducible assumption
    | with_reducible refine keeps_wr ?_
    | with_reducible refine keeps_progStat ?_
    | with_reducible refine keeps_setAudPol ?_
    | with_reducible refine keeps_ringStop ?_
    | with_reducible refine keeps_clearMeters ?_
    | with_reducible refine Keeps.ite (fun _ => ?_) fun _ => ?_
    | with_reducible refine Keeps.foldl ?_ fun _ _ _ => ?_

theorem keeps_rampedOut {w : Bool} {s0 a2 : State} {a0 a1} (h0 : Keeps w s0 a2) : Keeps w s0 (rampedOut a0 a1 a2) := by
  unfold rampedOut
  try dsimp only
  repeat' first
    | with_reducible assumption
    | with_reducible refine keeps_progStat ?_
    | with_reducible refine keeps_setAudPol ?_
    | with_reducible refine keeps_audFree ?_
    | with_reducible refine Keeps.ite (fun _ => ?_) fun _ => ?_
    | split

theorem keeps_putMeters {w : Bool} {s0 a2 : State} {a0 a1} (h0 : Keeps w s0 a2) : Keeps w s0 (putMeters a0 a1 a2) := by
  unfold putMeters
  try dsimp only
  repeat' first
    | with_reducible assumption
    | with_reducible refine keeps_wr ?_
    | with_reducible refine Keeps.foldl ?_ fun _ _ _ => ?_

theorem keeps_ringStore {s0 a3 : State} {a0 a1 a2} (h0 : Keeps true s0 a3) : Keeps true s0 (ringStore a0 a1 a2 a3) := by
  unfold ringStore
  try dsimp only
  repeat' first
    | with_reducible assumption
    | with_reducible refine keeps_wr ?_
    | with_reducible refine keeps_audLine ?_
    | with_reducible refine keeps_ringStop ?_
    | with_reducible refine keeps_ringError ?_
    | with_reducible refine keeps_polFault ?_
    | with_reducible refine keeps_devWrite ?_
    | with_reducible refine KeepsP.elim (by assumption) ?_
    | with_reducible refine Keeps.ite (fun _ => ?_) fun _ => ?_
    | with_reducible refine KeepsP.snd (KeepsP.foldl ?_ fun _ _ _ => ?_)
    | split

theorem keeps_audPolBlock {s0 a4 : State} {a0 a1 a2 a3} (h0 : Keeps true s0 a4) : KeepsP true s0 (audPolBlock a0 a1 a2 a3 a4) := by
  have h1 := keeps_swapBoundary (a0 := a3) (a1 := a0) h0
  unfold audPolBlock
  extract_lets s q ends isReset s' rings
  have h2 : Keeps true s0 s' := Keeps.ite (fun _ => Keeps.foldl h1 fun _ _ h => Keeps.ite (fun _ => keeps_ringStop h) fun _ => h) fun _ => h1
  clear_value s' rings ends
  split
  next frames s2 e =>
    have h3 : Keeps true s0 s2 := KeepsP.elim e (KeepsP.foldl h2 fun u x h => by
      dsimp only
      split
      · exact h
      · exact KeepsP.snd (keeps_ringFetch h))
    clear e
    refine KeepsP.ite (fun _ => KeepsP.mk (Keeps.ite (fun _ => keeps_rampedOut h3) fun _ => h3)) fun _ => ?_
    split
    next pr ms stores e =>
      clear e
      extract_lets used gains swapped q1 s3 column s4 addrs outs
      have h4 : Keeps true s0 s3 := keeps_putMeters (keeps_setAudPol h3)
      have h5 : Keeps true s0 s4 := Keeps.foldl h4 fun _ _ h => keeps_ringStore h
      exact KeepsP.mk (Keeps.ite (fun _ => keeps_rampedOut h5) fun _ => h5)

theorem keeps_audBlocks {s0 a3 : State} {a0 a1 a2} (h0 : Keeps true s0 a3) : KeepsP true s0 (audBlocks a0 a1 a2 a3) :=
  KeepsP.foldl h0 fun _ _ h => KeepsP.snd (keeps_audPolBlock h)

theorem keeps_audGetInfo {w : Bool} {s0 a1 : State} {a0} (h0 : Keeps w s0 a1) : KeepsA w s0 (audGetInfo a0 a1) := by
  unfold audGetInfo
  try dsimp only
  repeat' first
    | with_reducible assumption
    | with_reducible refine keeps_okR ?_

theorem keeps_audGetPaths {s0 a1 : State} {a0} (h0 : Keeps true s0 a1) : KeepsA true s0 (audGetPaths a0 a1) := by
  unfold audGetPaths
  try dsimp only
  repeat' first
    | with_reducible assumption
    | with_reducible refine keeps_devPut ?_
    | with_reducible refine keeps_okR ?_
    | with_reducible refine keeps_no ?_
    | with_reducible refine KeepsA.ite (fun _ => ?_) fun _ => ?_

theorem keeps_audGetProgram {w : Bool} {s0 a1 : State} {a0} (h0 : Keeps w s0 a1) : KeepsA w s0 (audGetProgram a0 a1) := by
  unfold audGetProgram
  try dsimp only
  repeat' first
    | with_reducible assumption
    | with_reducible refine keeps_okR ?_
    | with_reducible refine keeps_no ?_
    | with_reducible refine KeepsA.ite (fun _ => ?_) fun _ => ?_

theorem keeps_loadFails {w : Bool} {s0 a3 : State} {a0 a1 a2} (h0 : Keeps w s0 a3) : KeepsA w s0 (loadFails a0 a1 a2 a3) := by
  unfold loadFails
  try dsimp only
  repeat' first
    | with_reducible assumption
    | with_reducible refine keeps_record0 ?_
    | with_reducible refine Keeps.idd ?_
    | split
    | with_reducible refine KeepsA.mk ?_ fun _ _ => ?_

theorem keeps_audLoadProgram {w : Bool} {s0 a1 : State} {a0} (h0 : Keeps w s0 a1) : KeepsA w s0 (audLoadProgram a0 a1) := by
  unfold audLoadProgram
  try dsimp only
  repeat' first
    | with_reducible assumption
    | with_reducible refine keeps_record0 ?_
    | with_reducible refine keeps_progStat ?_
    | with_reducible refine keeps_setAudPol ?_
    | with_reducible refine keeps_no ?_
    | with_reducible refine keeps_loadFails ?_
    | with_reducible refine keeps_did ?_
    | with_reducible refine KeepsA.ite (fun _ => ?_) fun _ => ?_
    | split

theorem keeps_audPageWrite {w : Bool} {s0 a5 : State} {a0 a1 a2 a3 a4} (h0 : ∀ b0 b1 b2, Keeps w s0 b2 → Keeps w s0 (a4 b0 b1 b2)) (h1 : Keeps w s0 a5) : KeepsR w s0 (audPageWrite a0 a1 a2 a3 a4 a5) := by
  unfold audPageWrite
  try dsimp only
  repeat' first
    | with_reducible assumption
    | with_reducible apply h0
    | with_reducible refine keeps_violateAt ?_
    | with_reducible refine keeps_regWrite (fun _ _ _ => ?_) ?_
    | with_reducible refine Keeps.ite (fun _ => ?_) fun _ => ?_

theorem keeps_audReset {w : Bool} {s0 a1 : State} {a0} (h0 : Keeps w s0 a1) : Keeps w s0 (audReset a0 a1) := by
  unfold audReset
  try dsimp only
  repeat' first
    | with_reducible assumption
    | with_reducible refine keeps_wr ?_
    | with_reducible refine keeps_setAudPol ?_
    | with_reducible refine Keeps.ite (fun _ => ?_) fun _ => ?_
    | with_reducible refine Keeps.foldl ?_ fun _ _ _ => ?_

theorem keeps_audSend {w : Bool} {s0 a2 : State} {a0 a1} (h0 : Keeps w s0 a2) : Keeps w s0 (audSend a0 a1 a2) := by
  unfold audSend
  try dsimp only
  repeat' first
    | with_reducible assumption
    | with_reducible refine keeps_setAud ?_
    | with_reducible refine keeps_tookFrees ?_

theorem keeps_audSetAes67 {w : Bool} {s0 a1 : State} {a0} (h0 : Keeps w s0 a1) : KeepsA w s0 (audSetAes67 a0 a1) := by
  unfold audSetAes67
  try dsimp only
  repeat' first
    | with_reducible assumption
    | with_reducible refine keeps_wr ?_
    | with_reducible refine keeps_no ?_
    | with_reducible refine keeps_did ?_
    | with_reducible refine keeps_takeEffect ?_
    | with_reducible refine KeepsA.ite (fun _ => ?_) fun _ => ?_

theorem keeps_audSetBridge {w : Bool} {s0 a1 : State} {a0} (h0 : Keeps w s0 a1) : KeepsA w s0 (audSetBridge a0 a1) := by
  unfold audSetBridge
  try dsimp only
  repeat' first
    | with_reducible assumption
    | with_reducible refine keeps_wr ?_
    | with_reducible refine keeps_no ?_
    | with_reducible refine keeps_did ?_
    | with_reducible refine keeps_takeEffect ?_
    | with_reducible refine KeepsA.ite (fun _ => ?_) fun _ => ?_
    | split

theorem keeps_rebaseDomain {w : Bool} {s0 a1 : State} {a0} (h0 : Keeps w s0 a1) : Keeps w s0 (rebaseDomain a0 a1) := by
  unfold rebaseDomain
  try dsimp only
  repeat' first
    | with_reducible assumption
    | with_reducible refine keeps_setAud ?_

theorem keeps_audSetDomain {w : Bool} {s0 a1 : State} {a0} (h0 : Keeps w s0 a1) : KeepsA w s0 (audSetDomain a0 a1) := by
  unfold audSetDomain
  try dsimp only
  repeat' first
    | with_reducible assumption
    | with_reducible refine keeps_wr ?_
    | with_reducible refine keeps_setAud ?_
    | with_reducible refine keeps_no ?_
    | with_reducible refine keeps_did ?_
    | with_reducible refine keeps_takeEffect ?_
    | with_reducible refine keeps_rebaseDomain ?_
    | with_reducible refine Keeps.ite (fun _ => ?_) fun _ => ?_
    | with_reducible refine KeepsA.ite (fun _ => ?_) fun _ => ?_

theorem keeps_audSetSidetone {w : Bool} {s0 a1 : State} {a0} (h0 : Keeps w s0 a1) : KeepsA w s0 (audSetSidetone a0 a1) := by
  unfold audSetSidetone
  try dsimp only
  repeat' first
    | with_reducible assumption
    | with_reducible refine keeps_wr ?_
    | with_reducible refine keeps_no ?_
    | with_reducible refine keeps_did ?_
    | with_reducible refine KeepsA.ite (fun _ => ?_) fun _ => ?_
    | split

theorem keeps_audSetTdm {w : Bool} {s0 a1 : State} {a0} (h0 : Keeps w s0 a1) : KeepsA w s0 (audSetTdm a0 a1) := by
  unfold audSetTdm
  try dsimp only
  repeat' first
    | with_reducible assumption
    | with_reducible refine keeps_no ?_
    | with_reducible refine keeps_did ?_
    | with_reducible refine keeps_takeEffect ?_
    | with_reducible refine keeps_writeFlds ?_
    | with_reducible refine KeepsA.ite (fun _ => ?_) fun _ => ?_

theorem keeps_audUnload {w : Bool} {s0 a1 : State} {a0} (h0 : Keeps w s0 a1) : KeepsA w s0 (audUnload a0 a1) := by
  unfold audUnload
  try dsimp only
  repeat' first
    | with_reducible assumption
    | with_reducible refine keeps_progStat ?_
    | with_reducible refine keeps_setAudPol ?_
    | with_reducible refine keeps_no ?_
    | with_reducible refine keeps_did ?_
    | with_reducible refine KeepsA.ite (fun _ => ?_) fun _ => ?_
    | split

theorem keeps_bridgeRange {w : Bool} {s0 a1 : State} {a0} (h0 : Keeps w s0 a1) : Keeps w s0 (bridgeRange a0 a1) := by
  unfold bridgeRange
  try dsimp only
  repeat' first
    | with_reducible assumption
    | with_reducible refine keeps_wr ?_
    | with_reducible refine keeps_record0 ?_
    | with_reducible refine keeps_setAud ?_
    | with_reducible refine Keeps.ite (fun _ => ?_) fun _ => ?_
    | with_reducible refine Keeps.foldl ?_ fun _ _ _ => ?_

theorem keeps_domainEvent {w : Bool} {s0 a1 : State} {a0} (h0 : Keeps w s0 a1) : Keeps w s0 (domainEvent a0 a1) := by
  unfold domainEvent
  try dsimp only
  repeat' first
    | with_reducible assumption
    | with_reducible refine keeps_record0 ?_
    | with_reducible refine keeps_notifyPairs ?_
    | with_reducible refine keeps_audLine ?_
    | with_reducible refine Keeps.foldl ?_ fun _ _ _ => ?_

theorem keeps_execAes67PacketRx {w : Bool} {s0 a3 : State} {a0 a1 a2} (h0 : Keeps w s0 a3) : KeepsR w s0 (execAes67PacketRx a0 a1 a2 a3) := by
  unfold execAes67PacketRx
  try dsimp only
  repeat' first
    | with_reducible assumption
    | with_reducible refine KeepsR.mk ?_
    | fail_if_no_progress with_reducible refine Keeps.upd ?_ rfl rfl rfl rfl
    | with_reducible refine KeepsR.ite (fun _ => ?_) fun _ => ?_
    | split

theorem keeps_mediaSend {w : Bool} {s0 a3 : State} {a0 a1 a2} (h0 : Keeps w s0 a3) : KeepsP w s0 (mediaSend a0 a1 a2 a3) := by
  induction a1 generalizing a2 a3 with
  | zero => exact h0
  | succ k ih =>
    unfold mediaSend
    exact KeepsP.ite (fun _ => h0) fun _ => ih (Keeps.ite (fun _ => Keeps.upd h0 rfl rfl rfl rfl) fun _ => h0)

theorem keeps_mediaBlock {w : Bool} {s0 a1 : State} {a0} (h0 : Keeps w s0 a1) : Keeps w s0 (mediaBlock a0 a1) := by
  unfold mediaBlock
  try dsimp only
  repeat' first
    | with_reducible assumption
    | with_reducible refine KeepsP.snd (keeps_mediaSend ?_)
    | fail_if_no_progress with_reducible refine Keeps.upd ?_ rfl rfl rfl rfl
    | with_reducible refine Keeps.ite (fun _ => ?_) fun _ => ?_
    | with_reducible refine Keeps.foldl ?_ fun _ _ _ => ?_
    | split

theorem keeps_slipped {w : Bool} {s0 a1 : State} {a0 a2} (h0 : Keeps w s0 a1) : Keeps w s0 (slipped a0 a1 a2) := by
  unfold slipped
  try dsimp only
  repeat' first
    | with_reducible assumption
    | with_reducible refine keeps_record0 ?_
    | with_reducible refine Keeps.ite (fun _ => ?_) fun _ => ?_

theorem keeps_execAudBlock {s0 a3 : State} {a0 a1 a2} (h0 : Keeps true s0 a3) : KeepsR true s0 (execAudBlock a0 a1 a2 a3) := by
  unfold execAudBlock
  try dsimp only
  repeat' first
    | with_reducible assumption
    | with_reducible refine keeps_wr ?_
    | with_reducible refine keeps_done ?_
    | with_reducible refine keeps_setAud ?_
    | with_reducible refine keeps_tookFrees ?_
    | with_reducible refine keeps_audSend ?_
    | with_reducible refine keeps_bridgeRange ?_
    | with_reducible refine keeps_advanceTo ?_
    | with_reducible refine keeps_mediaBlock ?_
    | with_reducible refine keeps_slipped ?_
    | with_reducible refine KeepsP.snd (keeps_audBlocks ?_)
    | with_reducible refine KeepsR.mk ?_
    | with_reducible refine KeepsR.ite (fun _ => ?_) fun _ => ?_
    | with_reducible refine Keeps.foldl ?_ fun _ _ _ => ?_

theorem keeps_execAudDomainLock {w : Bool} {s0 a2 : State} {a0 a1} (h0 : Keeps w s0 a2) : KeepsR w s0 (execAudDomainLock a0 a1 a2) := by
  unfold execAudDomainLock
  try dsimp only
  repeat' first
    | with_reducible assumption
    | with_reducible refine keeps_wr ?_
    | with_reducible refine keeps_done ?_
    | with_reducible refine keeps_setAud ?_
    | with_reducible refine keeps_rebaseDomain ?_
    | with_reducible refine keeps_domainEvent ?_
    | with_reducible refine keeps_advanceTo ?_
    | with_reducible refine KeepsR.mk ?_
    | with_reducible refine KeepsR.ite (fun _ => ?_) fun _ => ?_
    | split

theorem keeps_execAudGainWrite {w : Bool} {s0 a3 : State} {a0 a1 a2} (h0 : Keeps w s0 a3) : KeepsR w s0 (execAudGainWrite a0 a1 a2 a3) := by
  unfold execAudGainWrite
  try dsimp only
  repeat' first
    | with_reducible assumption
    | with_reducible refine keeps_wr ?_
    | with_reducible refine keeps_audPageWrite (fun _ _ _ _ => ?_) ?_

theorem keeps_execAudGetInfo {w : Bool} {s0 a1 : State} {a0} (h0 : Keeps w s0 a1) : KeepsR w s0 (execAudGetInfo a0 a1) := by
  unfold execAudGetInfo
  try dsimp only
  repeat' first
    | with_reducible assumption
    | with_reducible refine keeps_done ?_
    | with_reducible refine keeps_audGetInfo ?_
    | with_reducible refine keeps_serve (fun _ _ _ => ?_) ?_

theorem keeps_execAudGetPaths {s0 a1 : State} {a0} (h0 : Keeps true s0 a1) : KeepsR true s0 (execAudGetPaths a0 a1) := by
  unfold execAudGetPaths
  try dsimp only
  repeat' first
    | with_reducible assumption
    | with_reducible refine keeps_done ?_
    | with_reducible refine keeps_audGetPaths ?_
    | with_reducible refine keeps_serve (fun _ _ _ => ?_) ?_

theorem keeps_execAudGetProgram {w : Bool} {s0 a1 : State} {a0} (h0 : Keeps w s0 a1) : KeepsR w s0 (execAudGetProgram a0 a1) := by
  unfold execAudGetProgram
  try dsimp only
  repeat' first
    | with_reducible assumption
    | with_reducible refine keeps_done ?_
    | with_reducible refine keeps_audGetProgram ?_
    | with_reducible refine keeps_serve (fun _ _ _ => ?_) ?_

theorem keeps_execAudLoadProgram {w : Bool} {s0 a1 : State} {a0} (h0 : Keeps w s0 a1) : KeepsR w s0 (execAudLoadProgram a0 a1) := by
  unfold execAudLoadProgram
  try dsimp only
  repeat' first
    | with_reducible assumption
    | with_reducible refine keeps_done ?_
    | with_reducible refine keeps_audLoadProgram ?_
    | with_reducible refine keeps_serve (fun _ _ _ => ?_) ?_

theorem keeps_execAudMeterClr {w : Bool} {s0 a3 : State} {a0 a1 a2} (h0 : Keeps w s0 a3) : KeepsR w s0 (execAudMeterClr a0 a1 a2 a3) := by
  unfold execAudMeterClr
  try dsimp only
  repeat' first
    | with_reducible assumption
    | with_reducible refine keeps_clearMeters ?_
    | with_reducible refine keeps_audPageWrite (fun _ _ _ _ => ?_) ?_

theorem keeps_ringCfg {w : Bool} {s0 a3 : State} {a0 a1 a2} (h0 : Keeps w s0 a3) : Keeps w s0 (ringCfg a0 a1 a2 a3) := by
  unfold ringCfg
  try dsimp only
  repeat' first
    | with_reducible assumption
    | with_reducible refine keeps_wr ?_
    | with_reducible refine keeps_ringStop ?_
    | with_reducible refine keeps_takeEffect ?_
    | with_reducible refine Keeps.ite (fun _ => ?_) fun _ => ?_

theorem keeps_ringCfgWrite {w : Bool} {s0 a5 : State} {a0 a1 a2 a3 a4} (h0 : Keeps w s0 a5) : Keeps w s0 (ringCfgWrite a0 a1 a2 a3 a4 a5) := by
  unfold ringCfgWrite
  try dsimp only
  repeat' first
    | with_reducible assumption
    | with_reducible refine keeps_violateAt ?_
    | with_reducible refine keeps_ringCfg ?_
    | with_reducible refine Keeps.ite (fun _ => ?_) fun _ => ?_

theorem keeps_execAudRingEnable {w : Bool} {s0 a3 : State} {a0 a1 a2} (h0 : Keeps w s0 a3) : KeepsR w s0 (execAudRingEnable a0 a1 a2 a3) := by
  unfold execAudRingEnable
  try dsimp only
  repeat' first
    | with_reducible assumption
    | with_reducible refine keeps_audPageWrite (fun _ _ _ _ => ?_) ?_
    | with_reducible refine keeps_ringCfgWrite ?_

theorem keeps_execAudSetAes67 {w : Bool} {s0 a1 : State} {a0} (h0 : Keeps w s0 a1) : KeepsR w s0 (execAudSetAes67 a0 a1) := by
  unfold execAudSetAes67
  try dsimp only
  repeat' first
    | with_reducible assumption
    | with_reducible refine keeps_done ?_
    | with_reducible refine keeps_audSetAes67 ?_
    | with_reducible refine keeps_serve (fun _ _ _ => ?_) ?_

theorem keeps_execAudSetBridge {w : Bool} {s0 a1 : State} {a0} (h0 : Keeps w s0 a1) : KeepsR w s0 (execAudSetBridge a0 a1) := by
  unfold execAudSetBridge
  try dsimp only
  repeat' first
    | with_reducible assumption
    | with_reducible refine keeps_done ?_
    | with_reducible refine keeps_audSetBridge ?_
    | with_reducible refine keeps_serve (fun _ _ _ => ?_) ?_

theorem keeps_execAudSetDomain {w : Bool} {s0 a1 : State} {a0} (h0 : Keeps w s0 a1) : KeepsR w s0 (execAudSetDomain a0 a1) := by
  unfold execAudSetDomain
  try dsimp only
  repeat' first
    | with_reducible assumption
    | with_reducible refine keeps_done ?_
    | with_reducible refine keeps_audSetDomain ?_
    | with_reducible refine keeps_serve (fun _ _ _ => ?_) ?_

theorem keeps_execAudSetSidetone {w : Bool} {s0 a1 : State} {a0} (h0 : Keeps w s0 a1) : KeepsR w s0 (execAudSetSidetone a0 a1) := by
  unfold execAudSetSidetone
  try dsimp only
  repeat' first
    | with_reducible assumption
    | with_reducible refine keeps_done ?_
    | with_reducible refine keeps_audSetSidetone ?_
    | with_reducible refine keeps_serve (fun _ _ _ => ?_) ?_

theorem keeps_execAudSetTdm {w : Bool} {s0 a1 : State} {a0} (h0 : Keeps w s0 a1) : KeepsR w s0 (execAudSetTdm a0 a1) := by
  unfold execAudSetTdm
  try dsimp only
  repeat' first
    | with_reducible assumption
    | with_reducible refine keeps_done ?_
    | with_reducible refine keeps_audSetTdm ?_
    | with_reducible refine keeps_serve (fun _ _ _ => ?_) ?_

theorem keeps_swapWrite {w : Bool} {s0 a4 : State} {a0 a1 a2 a3} (h0 : Keeps w s0 a4) : Keeps w s0 (swapWrite a0 a1 a2 a3 a4) := by
  unfold swapWrite
  try dsimp only
  repeat' first
    | with_reducible assumption
    | with_reducible refine keeps_violateAt ?_
    | with_reducible refine keeps_wr ?_
    | with_reducible refine keeps_setAudPol ?_
    | with_reducible refine Keeps.ite (fun _ => ?_) fun _ => ?_
    | split

theorem keeps_execAudSwap {w : Bool} {s0 a3 : State} {a0 a1 a2} (h0 : Keeps w s0 a3) : KeepsR w s0 (execAudSwap a0 a1 a2 a3) := by
  unfold execAudSwap
  try dsimp only
  repeat' first
    | with_reducible assumption
    | with_reducible refine keeps_audPageWrite (fun _ _ _ _ => ?_) ?_
    | with_reducible refine keeps_swapWrite ?_

theorem keeps_execAudUnload {w : Bool} {s0 a1 : State} {a0} (h0 : Keeps w s0 a1) : KeepsR w s0 (execAudUnload a0 a1) := by
  unfold execAudUnload
  try dsimp only
  repeat' first
    | with_reducible assumption
    | with_reducible refine keeps_done ?_
    | with_reducible refine keeps_audUnload ?_
    | with_reducible refine keeps_serve (fun _ _ _ => ?_) ?_

theorem keeps_netSetAes67 {w : Bool} {s0 a1 : State} {a0} (h0 : Keeps w s0 a1) : KeepsA w s0 (netSetAes67 a0 a1) := by
  unfold netSetAes67
  try dsimp only
  repeat' first
    | with_reducible assumption
    | with_reducible refine keeps_no ?_
    | with_reducible refine keeps_did ?_
    | fail_if_no_progress with_reducible refine Keeps.upd ?_ rfl rfl rfl rfl
    | with_reducible refine KeepsA.ite (fun _ => ?_) fun _ => ?_

theorem keeps_execNetSetAes67 {w : Bool} {s0 a1 : State} {a0} (h0 : Keeps w s0 a1) : KeepsR w s0 (execNetSetAes67 a0 a1) := by
  unfold execNetSetAes67
  try dsimp only
  repeat' first
    | with_reducible assumption
    | with_reducible refine keeps_done ?_
    | with_reducible refine keeps_serve (fun _ _ _ => ?_) ?_
    | with_reducible refine keeps_netSetAes67 ?_

/-! ## Warden -/

theorem keeps_openWindow {w : Bool} {s0 a0 : State} (h0 : Keeps w s0 a0) : Keeps w s0 (openWindow a0) :=
  Keeps.ward h0 fun x => ⟨x.1, (fun _ h => nomatch h), x.2.2⟩

theorem keeps_wardenChanged {w : Bool} {s0 a0 : State} (h0 : Keeps w s0 a0) : Keeps w s0 (wardenChanged a0) :=
  keeps_notifyAll (Keeps.ward h0 id)

/-- The position given to a kind of candidate. -/
theorem keeps_takePosition {w : Bool} {s0 a1 : State} {a0} (h0 : Keeps w s0 a1) (h1 : WardenLegal s0 → a0 ≤ 3) :
    Keeps w s0 (takePosition a0 a1) :=
  keeps_wr ⟨h0.queue, h0.mem, h0.wf, h0.free, h0.fuses, fun x => ⟨h1 x, (fun _ h => nomatch h), fun _ h => nomatch h⟩, h0.chans, h0.recorder⟩

theorem keeps_vacate {w : Bool} {s0 a1 : State} {a0} (h0 : Keeps w s0 a1) : Keeps w s0 (vacate a0 a1) := by
  have h1 : Keeps w s0 (wardenChanged (openWindow (takePosition 0 a1))) :=
    keeps_wardenChanged (keeps_openWindow (keeps_takePosition h0 fun _ => Nat.zero_le _))
  unfold vacate
  refine Keeps.ite (fun _ => h0) fun _ => ?_
  dsimp only
  split
  · exact Keeps.ite (fun _ => keeps_reply h1) fun _ => h1
  · exact h1

theorem keeps_vacateKind {w : Bool} {s0 a1 : State} {a0} (h0 : Keeps w s0 a1) : Keeps w s0 (vacateKind a0 a1) := by
  unfold vacateKind
  try dsimp only
  repeat' first
    | with_reducible assumption
    | with_reducible refine keeps_vacate ?_
    | with_reducible refine Keeps.ite (fun _ => ?_) fun _ => ?_

theorem keeps_answerClaims {w : Bool} {s0 a2 : State} {a0 a1} (h0 : Keeps w s0 a2) : Keeps w s0 (answerClaims a0 a1 a2) := by
  unfold answerClaims
  try dsimp only
  repeat' first
    | with_reducible assumption
    | with_reducible refine keeps_reply ?_
    | with_reducible refine Keeps.foldl ?_ fun _ _ _ => ?_

theorem keeps_concludeWindow {w : Bool} {s0 a1 : State} {a0} (h0 : Keeps w s0 a1) (h1 : WardenLegal s0 → a0 ≤ 3) :
    Keeps w s0 (concludeWindow a0 a1) := by
  unfold concludeWindow
  exact keeps_wardenChanged (keeps_answerClaims (keeps_takePosition h0 h1))

theorem keeps_closeWindow {w : Bool} {s0 a0 : State} (h0 : Keeps w s0 a0) : Keeps w s0 (closeWindow a0) := by
  unfold closeWindow
  split
  · next k e =>
    refine keeps_concludeWindow h0 fun x => ?_
    have hk := List.find?_some e
    obtain ⟨c, hc, ek⟩ := List.any_eq_true.mp hk
    rw [beq_iff_eq] at ek
    exact ek ▸ (h0.warden x).2.1 c hc
  · exact Keeps.ward h0 id

theorem keeps_closeOverdue {w : Bool} {s0 a0 : State} (h0 : Keeps w s0 a0) : Keeps w s0 (closeOverdue a0) := by
  unfold closeOverdue
  try dsimp only
  repeat' first
    | with_reducible assumption
    | with_reducible refine keeps_closeWindow ?_
    | with_reducible refine Keeps.ite (fun _ => ?_) fun _ => ?_
    | split

theorem keeps_devGetInfo {w : Bool} {s0 a1 : State} {a0} (h0 : Keeps w s0 a1) : KeepsA w s0 (devGetInfo a0 a1) := by
  unfold devGetInfo
  try dsimp only
  repeat' first
    | with_reducible assumption
    | with_reducible refine keeps_okR ?_

theorem keeps_devGetStatus {w : Bool} {s0 a1 : State} {a0} (h0 : Keeps w s0 a1) : KeepsA w s0 (devGetStatus a0 a1) := by
  unfold devGetStatus
  try dsimp only
  repeat' first
    | with_reducible assumption
    | with_reducible refine keeps_okR ?_

theorem keeps_execClaimWindowClose {w : Bool} {s0 a0 : State} (h0 : Keeps w s0 a0) : KeepsR w s0 (execClaimWindowClose a0) := by
  unfold execClaimWindowClose
  try dsimp only
  repeat' first
    | with_reducible assumption
    | with_reducible refine keeps_done ?_
    | with_reducible refine keeps_advanceTo ?_
    | with_reducible refine keeps_closeWindow ?_
    | with_reducible refine KeepsR.mk ?_
    | split

theorem keeps_execDevGetInfo {w : Bool} {s0 a1 : State} {a0} (h0 : Keeps w s0 a1) : KeepsR w s0 (execDevGetInfo a0 a1) := by
  unfold execDevGetInfo
  try dsimp only
  repeat' first
    | with_reducible assumption
    | with_reducible refine keeps_done ?_
    | with_reducible refine keeps_serve (fun _ _ _ => ?_) ?_
    | with_reducible refine keeps_devGetInfo ?_

theorem keeps_execDevGetStatus {w : Bool} {s0 a1 : State} {a0} (h0 : Keeps w s0 a1) : KeepsR w s0 (execDevGetStatus a0 a1) := by
  unfold execDevGetStatus
  try dsimp only
  repeat' first
    | with_reducible assumption
    | with_reducible refine keeps_done ?_
    | with_reducible refine keeps_serve (fun _ _ _ => ?_) ?_
    | with_reducible refine keeps_devGetStatus ?_

theorem keeps_lapse {w : Bool} {s0 a0 : State} (h0 : Keeps w s0 a0) : Keeps w s0 (lapse a0) := by
  unfold lapse
  split
  · exact keeps_reply (Keeps.ward h0 fun x => ⟨x.1, x.2.1, fun _ h => nomatch h⟩)
  · exact h0

theorem keeps_execHandoverLapse {w : Bool} {s0 a0 : State} (h0 : Keeps w s0 a0) : KeepsR w s0 (execHandoverLapse a0) := by
  unfold execHandoverLapse
  try dsimp only
  repeat' first
    | with_reducible assumption
    | with_reducible refine keeps_done ?_
    | with_reducible refine keeps_advanceTo ?_
    | with_reducible refine keeps_lapse ?_
    | with_reducible refine KeepsR.mk ?_
    | split

theorem keeps_lapseOverdue {w : Bool} {s0 a0 : State} (h0 : Keeps w s0 a0) : Keeps w s0 (lapseOverdue a0) := by
  unfold lapseOverdue
  try dsimp only
  repeat' first
    | with_reducible assumption
    | with_reducible refine keeps_lapse ?_
    | with_reducible refine Keeps.ite (fun _ => ?_) fun _ => ?_
    | split

theorem keeps_wardenAccept {w : Bool} {s0 a1 : State} {a0} (h0 : Keeps w s0 a1) : KeepsA w s0 (wardenAccept a0 a1) := by
  unfold wardenAccept
  extract_lets s
  have h1 : Keeps w s0 s := keeps_lapseOverdue h0
  split
  · next h e =>
    exact KeepsA.ite (fun _ => KeepsA.mk (keeps_takePosition h1 fun x => (h1.warden x).2.2 h e)
      fun _ k => keeps_wardenChanged (keeps_reply k)) fun _ => keeps_no h1
  · exact keeps_no h1

theorem keeps_execWardenAccept {w : Bool} {s0 a1 : State} {a0} (h0 : Keeps w s0 a1) : KeepsR w s0 (execWardenAccept a0 a1) := by
  unfold execWardenAccept
  try dsimp only
  repeat' first
    | with_reducible assumption
    | with_reducible refine keeps_done ?_
    | with_reducible refine keeps_serve (fun _ _ _ => ?_) ?_
    | with_reducible refine keeps_wardenAccept ?_

theorem Req.kind_le (r : Req) : r.kind ≤ 3 := by
  unfold Req.kind
  split
  · decide
  · split
    · decide
    · split <;> decide

theorem keeps_wardenClaim {w : Bool} {s0 a1 : State} {a0} (h0 : Keeps w s0 a1) : KeepsA w s0 (wardenClaim a0 a1) := by
  unfold wardenClaim
  extract_lets s kind cs
  have h1 : Keeps w s0 s := keeps_closeOverdue h0
  have hk : kind ≤ 3 := Req.kind_le a0
  refine KeepsA.ite (fun _ => keeps_no h1) fun _ => KeepsA.ite (fun _ => keeps_no h1) fun _ => KeepsA.ite (fun _ => ?_) fun _ => ?_
  · refine keeps_pend (Keeps.ward h1 fun x => ⟨x.1, fun c hc => ?_, x.2.2⟩) fun _ h => h
    rcases List.mem_append.mp hc with h | h
    · exact x.2.1 c h
    · rw [List.mem_singleton.mp h]; exact hk
  · exact KeepsA.mk (keeps_takePosition h1 fun _ => hk) fun _ h => keeps_wardenChanged (keeps_answerClaims h)

theorem keeps_execWardenClaim {w : Bool} {s0 a1 : State} {a0} (h0 : Keeps w s0 a1) : KeepsR w s0 (execWardenClaim a0 a1) := by
  unfold execWardenClaim
  try dsimp only
  repeat' first
    | with_reducible assumption
    | with_reducible refine keeps_done ?_
    | with_reducible refine keeps_serve (fun _ _ _ => ?_) ?_
    | with_reducible refine keeps_wardenClaim ?_

theorem keeps_wardenGet {w : Bool} {s0 a1 : State} {a0} (h0 : Keeps w s0 a1) : KeepsA w s0 (wardenGet a0 a1) := by
  unfold wardenGet
  try dsimp only
  repeat' first
    | with_reducible assumption
    | with_reducible refine keeps_okR ?_

theorem keeps_execWardenGet {w : Bool} {s0 a1 : State} {a0} (h0 : Keeps w s0 a1) : KeepsR w s0 (execWardenGet a0 a1) := by
  unfold execWardenGet
  try dsimp only
  repeat' first
    | with_reducible assumption
    | with_reducible refine keeps_done ?_
    | with_reducible refine keeps_serve (fun _ _ _ => ?_) ?_
    | with_reducible refine keeps_wardenGet ?_

theorem keeps_wardenHandover {w : Bool} {s0 a1 : State} {a0} (h0 : Keeps w s0 a1) : KeepsA w s0 (wardenHandover a0 a1) := by
  unfold wardenHandover
  extract_lets s target
  have h1 : Keeps w s0 s := keeps_lapseOverdue h0
  have ht : target ≤ 3 := Nat.le_of_lt_succ (Nat.mod_lt _ (by decide))
  refine KeepsA.ite (fun _ => keeps_no h1) fun _ => KeepsA.ite (fun _ => keeps_no h1) fun _ => ?_
  refine keeps_pend (Keeps.ward h1 fun x => ⟨x.1, x.2.1, fun h e => ?_⟩) fun _ h => keeps_notifyAck h
  cases e
  exact ht

theorem keeps_execWardenHandover {w : Bool} {s0 a1 : State} {a0} (h0 : Keeps w s0 a1) : KeepsR w s0 (execWardenHandover a0 a1) := by
  unfold execWardenHandover
  try dsimp only
  repeat' first
    | with_reducible assumption
    | with_reducible refine keeps_done ?_
    | with_reducible refine keeps_serve (fun _ _ _ => ?_) ?_
    | with_reducible refine keeps_wardenHandover ?_

theorem keeps_wardenRelease {w : Bool} {s0 a1 : State} {a0} (h0 : Keeps w s0 a1) : KeepsA w s0 (wardenRelease a0 a1) := by
  unfold wardenRelease
  try dsimp only
  repeat' first
    | with_reducible assumption
    | with_reducible refine keeps_vacate ?_
    | with_reducible refine KeepsA.mk ?_ fun _ _ => ?_

theorem keeps_execWardenRelease {w : Bool} {s0 a1 : State} {a0} (h0 : Keeps w s0 a1) : KeepsR w s0 (execWardenRelease a0 a1) := by
  unfold execWardenRelease
  try dsimp only
  repeat' first
    | with_reducible assumption
    | with_reducible refine keeps_done ?_
    | with_reducible refine keeps_serve (fun _ _ _ => ?_) ?_
    | with_reducible refine keeps_wardenRelease ?_

end Sys2Proof.Machine
end

