-- ==== Sys2Proof/Laws/KeepsGraphics.lean ====
section
/-! SUPPORT. What the functions of the display commits, the graphics engine and the tiles
keep of a state (Keeps): one lemma per function, each from those of the functions it calls. -/
namespace Sys2Proof.Machine

/-! ## CodecState -/

theorem keeps_setSes {w : Bool} {s0 a2 : State} {a0 a1} (h0 : Keeps w s0 a2) : Keeps w s0 (setSes a0 a1 a2) := by
  unfold setSes
  try dsimp only
  repeat' first
    | with_reducible assumption
    | with_reducible refine keeps_wr ?_
    | with_reducible refine keeps_wrB ?_
    | fail_if_no_progress with_reducible refine Keeps.upd ?_ rfl rfl rfl rfl

theorem keeps_sesClosed {w : Bool} {s0 a1 : State} {a0} (h0 : Keeps w s0 a1) : Keeps w s0 (sesClosed a0 a1) := by
  unfold sesClosed
  try dsimp only
  repeat' first
    | with_reducible assumption
    | with_reducible refine keeps_wr ?_
    | with_reducible refine keeps_setSes ?_

theorem keeps_sesCloseDue {w : Bool} {s0 a0 : State} (h0 : Keeps w s0 a0) : Keeps w s0 (sesCloseDue a0) := by
  unfold sesCloseDue
  try dsimp only
  repeat' first
    | with_reducible assumption
    | with_reducible refine keeps_reply ?_
    | with_reducible refine keeps_sesClosed ?_
    | with_reducible refine Keeps.ite (fun _ => ?_) fun _ => ?_
    | with_reducible refine Keeps.foldl ?_ fun _ _ _ => ?_
    | split

theorem keeps_sesEvent {w : Bool} {s0 a2 : State} {a0 a1} (h0 : Keeps w s0 a2) : Keeps w s0 (sesEvent a0 a1 a2) := by
  unfold sesEvent
  try dsimp only
  repeat' first
    | with_reducible assumption
    | with_reducible refine keeps_wr ?_
    | with_reducible refine keeps_raiseLine ?_

theorem keeps_sesNotify {w : Bool} {s0 a2 : State} {a0 a1} (h0 : Keeps w s0 a2) : Keeps w s0 (sesNotify a0 a1 a2) := by
  unfold sesNotify
  try dsimp only
  repeat' first
    | with_reducible assumption
    | with_reducible refine keeps_notifyPolder ?_

theorem keeps_mapSource {w : Bool} {s0 a2 : State} {a0 a1} (h0 : Keeps w s0 a2) : Keeps w s0 (mapSource a0 a1 a2) := by
  unfold mapSource
  try dsimp only
  repeat' first
    | with_reducible assumption
    | fail_if_no_progress with_reducible refine Keeps.upd ?_ rfl rfl rfl rfl

theorem keeps_sesBand {w : Bool} {s0 a5 : State} {a0 a1 a2 a3 a4} (h0 : Keeps w s0 a5) : Keeps w s0 (sesBand a0 a1 a2 a3 a4 a5) := by
  unfold sesBand
  try dsimp only
  repeat' first
    | with_reducible assumption
    | with_reducible refine keeps_setSes ?_
    | with_reducible refine keeps_mapSource ?_
    | with_reducible refine Keeps.foldl ?_ fun _ _ _ => ?_

theorem keeps_sesFlip {w : Bool} {s0 a3 : State} {a0 a1 a2} (h0 : Keeps w s0 a3) : Keeps w s0 (sesFlip a0 a1 a2 a3) := by
  unfold sesFlip
  try dsimp only
  repeat' first
    | with_reducible assumption
    | with_reducible refine keeps_mapSource ?_

theorem keeps_sesRecord {w : Bool} {s0 a4 : State} {a0 a1 a2 a3} (h0 : Keeps w s0 a4) : Keeps w s0 (sesRecord a0 a1 a2 a3 a4) := by
  unfold sesRecord
  try dsimp only
  repeat' first
    | with_reducible assumption
    | with_reducible refine keeps_mapSource ?_

/-! ## Commits -/

theorem keeps_reachQ {w : Bool} {s0 a1 : State} {a0} (h0 : Keeps w s0 a1) : Keeps w s0 (reachQ a0 a1) := by
  unfold reachQ
  try dsimp only
  repeat' first
    | with_reducible assumption
    | fail_if_no_progress with_reducible refine Keeps.upd ?_ rfl rfl rfl rfl
    | with_reducible refine Keeps.ite (fun _ => ?_) fun _ => ?_
    | split

theorem keeps_slotStatus {w : Bool} {s0 a1 : State} {a0} (h0 : Keeps w s0 a1) : Keeps w s0 (slotStatus a0 a1) := by
  unfold slotStatus
  try dsimp only
  repeat' first
    | with_reducible assumption
    | with_reducible refine keeps_wr ?_
    | with_reducible refine keeps_wrB ?_

theorem keeps_released {w : Bool} {s0 a2 : State} {a0 a1} (h0 : Keeps w s0 a2) : Keeps w s0 (released a0 a1 a2) := by
  unfold released
  try dsimp only
  repeat' first
    | with_reducible assumption
    | with_reducible refine keeps_wr ?_
    | with_reducible refine keeps_raiseLine ?_
    | with_reducible refine keeps_sesCloseDue ?_
    | with_reducible refine keeps_setSlot ?_
    | split

theorem keeps_releaseAll {w : Bool} {s0 a1 : State} {a0} (h0 : Keeps w s0 a1) : Keeps w s0 (releaseAll a0 a1) := by
  unfold releaseAll
  try dsimp only
  repeat' first
    | with_reducible assumption
    | with_reducible refine keeps_slotStatus ?_
    | with_reducible refine keeps_setSlot ?_
    | with_reducible refine keeps_released ?_

theorem keeps_slotChanged {w : Bool} {s0 a0 a2 : State} {a1} (h0 : Keeps w s0 a0) (h1 : Keeps w s0 a2) : Keeps w s0 (slotChanged a0 a1 a2) := by
  unfold slotChanged
  try dsimp only
  repeat' first
    | with_reducible assumption
    | with_reducible refine keeps_wr ?_
    | with_reducible refine keeps_slotStatus ?_
    | with_reducible refine keeps_setSlot ?_
    | with_reducible refine keeps_releaseAll ?_
    | with_reducible refine Keeps.ite (fun _ => ?_) fun _ => ?_

theorem keeps_regionChanged {w : Bool} {s0 a0 a3 : State} {a1 a2} (h0 : Keeps w s0 a0) (h1 : Keeps w s0 a3) : Keeps w s0 (regionChanged a0 a1 a2 a3) := by
  unfold regionChanged
  try dsimp only
  repeat' first
    | with_reducible assumption
    | with_reducible refine keeps_putRegion ?_
    | with_reducible refine Keeps.ite (fun _ => ?_) fun _ => ?_

theorem keeps_configChanged {w : Bool} {s0 a0 a2 : State} {a1} (h0 : Keeps w s0 a0) (h1 : Keeps w s0 a2) : Keeps w s0 (configChanged a0 a1 a2) := by
  unfold configChanged
  try dsimp only
  repeat' first
    | with_reducible assumption
    | with_reducible refine keeps_wr ?_
    | with_reducible refine keeps_slotChanged ?_ ?_
    | with_reducible refine keeps_regionChanged ?_ ?_
    | with_reducible refine Keeps.ite (fun _ => ?_) fun _ => ?_
    | with_reducible refine Keeps.foldl ?_ fun _ _ _ => ?_

theorem keeps_disableSlots {w : Bool} {s0 a2 : State} {a0 a1} (h0 : Keeps w s0 a2) : Keeps w s0 (disableSlots a0 a1 a2) := by
  unfold disableSlots
  try dsimp only
  repeat' first
    | with_reducible assumption
    | with_reducible refine keeps_wr ?_
    | with_reducible refine keeps_configChanged ?_ ?_
    | with_reducible refine Keeps.foldl ?_ fun _ _ _ => ?_

theorem keeps_resetsAt {w : Bool} {s0 a1 : State} {a0} (h0 : Keeps w s0 a1) : Keeps w s0 (resetsAt a0 a1) := by
  unfold resetsAt
  try dsimp only
  repeat' first
    | with_reducible assumption
    | with_reducible refine keeps_reachQ ?_
    | with_reducible refine keeps_disableSlots ?_
    | fail_if_no_progress with_reducible refine Keeps.upd ?_ rfl rfl rfl rfl
    | with_reducible refine Keeps.ite (fun _ => ?_) fun _ => ?_
    | with_reducible refine Keeps.foldl ?_ fun _ _ _ => ?_
    | split

theorem keeps_commitStatus {w : Bool} {s0 a5 : State} {a0 a1 a2 a3 a4} (h0 : Keeps w s0 a5) : Keeps w s0 (commitStatus a0 a1 a2 a3 a4 a5) := by
  unfold commitStatus
  try dsimp only
  repeat' first
    | with_reducible assumption
    | with_reducible refine keeps_wr ?_
    | with_reducible refine keeps_wrB ?_
    | with_reducible refine Keeps.ite (fun _ => ?_) fun _ => ?_
    | split

theorem keeps_rejectCommit {w : Bool} {s0 a3 : State} {a0 a1 a2} (h0 : Keeps w s0 a3) : Keeps w s0 (rejectCommit a0 a1 a2 a3) := by
  unfold rejectCommit
  try dsimp only
  repeat' first
    | with_reducible assumption
    | with_reducible refine keeps_record0 ?_
    | with_reducible refine keeps_commitStatus ?_

theorem keeps_setQueue {w : Bool} {s0 a1 : State} {a0} (h0 : Keeps w s0 a1) : Keeps w s0 (setQueue a0 a1) := by
  unfold setQueue
  try dsimp only
  repeat' first
    | with_reducible assumption
    | with_reducible refine keeps_wr ?_
    | fail_if_no_progress with_reducible refine Keeps.upd ?_ rfl rfl rfl rfl
    | with_reducible refine Keeps.foldl ?_ fun _ _ _ => ?_

theorem keeps_splashAfter {w : Bool} {s0 a1 a2 : State} {a0} (h0 : Keeps w s0 a1) (h1 : Keeps w s0 a2) : Keeps w s0 (splashAfter a0 a1 a2) := by
  unfold splashAfter
  try dsimp only
  repeat' first
    | with_reducible assumption
    | fail_if_no_progress with_reducible refine Keeps.upd ?_ rfl rfl rfl rfl
    | with_reducible refine Keeps.ite (fun _ => ?_) fun _ => ?_

theorem keeps_applyCommit {w : Bool} {s0 a2 : State} {a0 a1} (h0 : Keeps w s0 a2) : Keeps w s0 (applyCommit a0 a1 a2) := by
  unfold applyCommit
  try dsimp only
  repeat' first
    | with_reducible assumption
    | with_reducible refine keeps_wr ?_
    | with_reducible refine keeps_record0 ?_
    | with_reducible refine keeps_raiseLine ?_
    | with_reducible refine keeps_tookFree ?_
    | with_reducible refine keeps_wrB ?_
    | with_reducible refine keeps_reply ?_
    | with_reducible refine keeps_replyOpt ?_
    | with_reducible refine keeps_configChanged ?_ ?_
    | with_reducible refine keeps_commitStatus ?_
    | with_reducible refine keeps_splashAfter ?_ ?_
    | with_reducible refine keeps_applyVals ?_
    | with_reducible refine Keeps.ite (fun _ => ?_) fun _ => ?_
    | split

theorem keeps_acceptCommit {w : Bool} {s0 a1 : State} {a0} (h0 : Keeps w s0 a1) : Keeps w s0 (acceptCommit a0 a1) := by
  unfold acceptCommit
  try dsimp only
  repeat' first
    | with_reducible assumption
    | with_reducible refine keeps_commitStatus ?_
    | with_reducible refine keeps_setQueue ?_
    | with_reducible refine keeps_applyCommit ?_
    | with_reducible refine Keeps.ite (fun _ => ?_) fun _ => ?_

theorem keeps_enqueue {w : Bool} {s0 a2 : State} {a0 a1} (h0 : Keeps w s0 a2) : Keeps w s0 (enqueue a0 a1 a2) := by
  unfold enqueue
  try dsimp only
  repeat' first
    | with_reducible assumption
    | with_reducible refine keeps_wr ?_
    | with_reducible refine keeps_slotStatus ?_
    | with_reducible refine keeps_setSlot ?_

theorem keeps_execLayerHeartbeat {w : Bool} {s0 a3 : State} {a0 a1 a2} (h0 : Keeps w s0 a3) : KeepsR w s0 (execLayerHeartbeat a0 a1 a2 a3) := by
  unfold execLayerHeartbeat
  try dsimp only
  repeat' first
    | with_reducible assumption
    | with_reducible refine keeps_violateAt ?_
    | with_reducible refine keeps_regWrite (fun _ _ _ => ?_) ?_
    | with_reducible refine keeps_setSlot ?_
    | fail_if_no_progress with_reducible refine Keeps.upd ?_ rfl rfl rfl rfl
    | with_reducible refine Keeps.ite (fun _ => ?_) fun _ => ?_

theorem keeps_flipPush {w : Bool} {s0 a3 : State} {a0 a1 a2} (h0 : Keeps w s0 a3) : Keeps w s0 (flipPush a0 a1 a2 a3) := by
  unfold flipPush
  try dsimp only
  repeat' first
    | with_reducible assumption
    | with_reducible refine keeps_violateAt ?_
    | with_reducible refine keeps_wr ?_
    | fail_if_no_progress with_reducible refine Keeps.upd ?_ rfl rfl rfl rfl
    | with_reducible refine Keeps.ite (fun _ => ?_) fun _ => ?_

theorem keeps_execCmpFlipPush {w : Bool} {s0 a3 : State} {a0 a1 a2} (h0 : Keeps w s0 a3) : KeepsR w s0 (execCmpFlipPush a0 a1 a2 a3) := by
  unfold execCmpFlipPush
  try dsimp only
  repeat' first
    | with_reducible assumption
    | with_reducible refine keeps_regWrite (fun _ _ _ => ?_) ?_
    | with_reducible refine keeps_flipPush ?_

theorem keeps_commitDoorbell {w : Bool} {s0 a3 : State} {a0 a1 a2} (h0 : Keeps w s0 a3) : Keeps w s0 (commitDoorbell a0 a1 a2 a3) := by
  unfold commitDoorbell
  try dsimp only
  repeat' first
    | with_reducible assumption
    | with_reducible refine keeps_commitStatus ?_
    | with_reducible refine keeps_incWrap ?_
    | fail_if_no_progress with_reducible refine Keeps.upd ?_ rfl rfl rfl rfl
    | with_reducible refine Keeps.ite (fun _ => ?_) fun _ => ?_

theorem keeps_execCmpCommit {w : Bool} {s0 a3 : State} {a0 a1 a2} (h0 : Keeps w s0 a3) : KeepsR w s0 (execCmpCommit a0 a1 a2 a3) := by
  unfold execCmpCommit
  try dsimp only
  repeat' first
    | with_reducible assumption
    | with_reducible refine keeps_regWrite (fun _ _ _ => ?_) ?_
    | with_reducible refine keeps_commitDoorbell ?_

theorem keeps_cancelCommits {w : Bool} {s0 a1 : State} {a0} (h0 : Keeps w s0 a1) : Keeps w s0 (cancelCommits a0 a1) := by
  unfold cancelCommits
  try dsimp only
  repeat' first
    | with_reducible assumption
    | with_reducible refine keeps_record0 ?_
    | with_reducible refine keeps_commitStatus ?_
    | with_reducible refine keeps_setQueue ?_
    | fail_if_no_progress with_reducible refine Keeps.upd ?_ rfl rfl rfl rfl
    | with_reducible refine Keeps.foldl ?_ fun _ _ _ => ?_

theorem keeps_spansChecked {w : Bool} {s0 a1 : State} {a0} (h0 : Keeps w s0 a1) : Keeps w s0 (spansChecked a0 a1) := by
  unfold spansChecked
  try dsimp only
  repeat' first
    | with_reducible assumption
    | with_reducible refine keeps_setSlot ?_
    | with_reducible refine Keeps.foldl ?_ fun _ _ _ => ?_

theorem keeps_execCommitValidate {w : Bool} {s0 a0 : State} (h0 : Keeps w s0 a0) : KeepsR w s0 (execCommitValidate a0) := by
  unfold execCommitValidate
  try dsimp only
  repeat' first
    | with_reducible assumption
    | with_reducible refine keeps_done ?_
    | with_reducible refine keeps_commitStatus ?_
    | with_reducible refine keeps_rejectCommit ?_
    | with_reducible refine keeps_acceptCommit ?_
    | with_reducible refine keeps_spansChecked ?_
    | with_reducible refine KeepsR.mk ?_
    | fail_if_no_progress with_reducible refine Keeps.upd ?_ rfl rfl rfl rfl
    | with_reducible refine KeepsR.ite (fun _ => ?_) fun _ => ?_
    | split

theorem keeps_execFlipValidate {w : Bool} {s0 a1 : State} {a0} (h0 : Keeps w s0 a1) : KeepsR w s0 (execFlipValidate a0 a1) := by
  unfold execFlipValidate
  try dsimp only
  repeat' first
    | with_reducible assumption
    | with_reducible refine keeps_wr ?_
    | with_reducible refine keeps_record0 ?_
    | with_reducible refine keeps_done ?_
    | with_reducible refine keeps_enqueue ?_
    | with_reducible refine KeepsR.mk ?_
    | fail_if_no_progress with_reducible refine Keeps.upd ?_ rfl rfl rfl rfl
    | with_reducible refine Keeps.ite (fun _ => ?_) fun _ => ?_
    | split

theorem keeps_internalCommit {w : Bool} {s0 a3 : State} {a0 a1 a2} (h0 : Keeps w s0 a3) : KeepsA w s0 (internalCommit a0 a1 a2 a3) := by
  unfold internalCommit
  try dsimp only
  repeat' first
    | with_reducible assumption
    | with_reducible refine keeps_wr ?_
    | with_reducible refine keeps_no ?_
    | with_reducible refine keeps_rejectCommit ?_
    | with_reducible refine keeps_acceptCommit ?_
    | with_reducible refine keeps_pend ?_ (fun _ _ => ?_)
    | with_reducible refine keeps_spansChecked ?_
    | with_reducible refine KeepsA.ite (fun _ => ?_) fun _ => ?_
    | with_reducible refine Keeps.foldl ?_ fun _ _ _ => ?_
    | split

/-! ## Gfx -/

theorem keeps_setGfxWin {w : Bool} {s0 a2 : State} {a0 a1} (h0 : Keeps w s0 a2) : Keeps w s0 (setGfxWin a0 a1 a2) := by
  unfold setGfxWin
  try dsimp only
  repeat' first
    | with_reducible assumption
    | with_reducible refine keeps_wr ?_
    | with_reducible refine keeps_wrB ?_
    | fail_if_no_progress with_reducible refine Keeps.upd ?_ rfl rfl rfl rfl

theorem keeps_gfxEvent {w : Bool} {s0 a2 : State} {a0 a1} (h0 : Keeps w s0 a2) : Keeps w s0 (gfxEvent a0 a1 a2) := by
  unfold gfxEvent
  try dsimp only
  repeat' first
    | with_reducible assumption
    | with_reducible refine keeps_wr ?_
    | with_reducible refine keeps_raiseLine ?_

theorem keeps_gfxStop {w : Bool} {s0 a2 : State} {a0 a1} (h0 : Keeps w s0 a2) : Keeps w s0 (gfxStop a0 a1 a2) := by
  unfold gfxStop
  try dsimp only
  repeat' first
    | with_reducible assumption
    | with_reducible refine keeps_wr ?_
    | with_reducible refine keeps_record0 ?_
    | with_reducible refine keeps_polFault ?_
    | with_reducible refine keeps_setGfxWin ?_
    | with_reducible refine keeps_gfxEvent ?_

theorem keeps_gfxStopIf {w : Bool} {s0 : State} {a0 a1} (h0 : KeepsP w s0 a1) : Keeps w s0 (gfxStopIf a0 a1) := by
  unfold gfxStopIf
  exact Keeps.ite (fun _ => h0) fun _ => keeps_gfxStop h0

theorem keeps_gfxSave {s0 a1 : State} {a0} (h0 : Keeps true s0 a1) : Keeps true s0 (gfxSave a0 a1) := by
  unfold gfxSave
  try dsimp only
  repeat' first
    | with_reducible assumption
    | with_reducible refine keeps_record0 ?_
    | with_reducible refine keeps_devWrite ?_
    | with_reducible refine keeps_tookFrees ?_
    | with_reducible refine keeps_setGfxWin ?_
    | with_reducible refine keeps_incWrap ?_
    | with_reducible refine keeps_gfxStopIf ?_

theorem keeps_gfxGain {w : Bool} {s0 a1 : State} {a0} (h0 : Keeps w s0 a1) : Keeps w s0 (gfxGain a0 a1) := by
  have h1 : Keeps w s0 (setGfxWin a0 { gfxWin a1 a0 with resident := true, saved := false } a1) := keeps_setGfxWin h0
  unfold gfxGain
  refine Keeps.ite (fun _ => keeps_gfxStopIf ?_) fun _ => h1
  have h2 := keeps_devRead (a0 := gfxEng a0) (a1 := (gfxWin a1 a0).save) (a2 := 262144)
    (keeps_record0 (a0 := Src.GFX_PREEMPT) (a1 := some (a0 / 16)) (a2 := [a0 % 16, 0]) h1)
  split
  next e => exact KeepsP.mk (KeepsP2.elim e h2)

theorem keeps_gfxFill {s0 a1 : State} {a0} (h0 : Keeps true s0 a1) : Keeps true s0 (gfxFill a0 a1) := by
  unfold gfxFill
  try dsimp only
  repeat' first
    | with_reducible assumption
    | with_reducible refine keeps_setGfxWin ?_
    | with_reducible refine keeps_gfxSave ?_
    | with_reducible refine keeps_gfxGain ?_
    | with_reducible refine Keeps.ite (fun _ => ?_) fun _ => ?_
    | with_reducible refine Keeps.foldl ?_ fun _ _ _ => ?_

theorem keeps_gfxPriorities {w : Bool} {s0 a0 : State} (h0 : Keeps w s0 a0) : Keeps w s0 (gfxPriorities a0) := by
  unfold gfxPriorities
  try dsimp only
  repeat' first
    | with_reducible assumption
    | with_reducible refine keeps_setGfxWin ?_
    | with_reducible refine Keeps.foldl ?_ fun _ _ _ => ?_

theorem keeps_gfxStatus {w : Bool} {s0 a0 : State} (h0 : Keeps w s0 a0) : Keeps w s0 (gfxStatus a0) := by
  unfold gfxStatus
  try dsimp only
  repeat' first
    | with_reducible assumption
    | with_reducible refine keeps_wr ?_
    | with_reducible refine keeps_wrB ?_

theorem keeps_gfxGive {w : Bool} {s0 a1 : State} {a0} (h0 : Keeps w s0 a1) : Keeps w s0 (gfxGive a0 a1) := by
  unfold gfxGive
  try dsimp only
  repeat' first
    | with_reducible assumption
    | with_reducible refine keeps_setGfxWin ?_
    | fail_if_no_progress with_reducible refine Keeps.upd ?_ rfl rfl rfl rfl
    | with_reducible refine Keeps.ite (fun _ => ?_) fun _ => ?_
    | split

theorem keeps_gfxSchedule {s0 a0 : State} (h0 : Keeps true s0 a0) : Keeps true s0 (gfxSchedule a0) := by
  unfold gfxSchedule
  try dsimp only
  repeat' first
    | with_reducible assumption
    | with_reducible refine keeps_gfxFill ?_
    | with_reducible refine keeps_gfxPriorities ?_
    | with_reducible refine keeps_gfxStatus ?_
    | with_reducible refine keeps_gfxGive ?_
    | with_reducible refine Keeps.foldl ?_ fun _ _ _ => ?_

theorem keeps_rtLowered {s0 a0 : State} (h0 : Keeps true s0 a0) : Keeps true s0 (rtLowered a0) := by
  unfold rtLowered
  try dsimp only
  repeat' first
    | with_reducible assumption
    | with_reducible refine keeps_setGfxWin ?_
    | with_reducible refine keeps_gfxSchedule ?_
    | with_reducible refine Keeps.ite (fun _ => ?_) fun _ => ?_
    | with_reducible refine Keeps.foldl ?_ fun _ _ _ => ?_

theorem keeps_gfxDoorbell {s0 a4 : State} {a0 a1 a2 a3} (h0 : Keeps true s0 a4) : Keeps true s0 (gfxDoorbell a0 a1 a2 a3 a4) := by
  unfold gfxDoorbell
  try dsimp only
  repeat' first
    | with_reducible assumption
    | with_reducible refine keeps_violateAt ?_
    | with_reducible refine keeps_wr ?_
    | with_reducible refine keeps_setGfxWin ?_
    | with_reducible refine keeps_gfxSchedule ?_
    | with_reducible refine Keeps.ite (fun _ => ?_) fun _ => ?_

theorem keeps_execGfxDoorbell {s0 a3 : State} {a0 a1 a2} (h0 : Keeps true s0 a3) : KeepsR true s0 (execGfxDoorbell a0 a1 a2 a3) := by
  unfold execGfxDoorbell
  try dsimp only
  repeat' first
    | with_reducible assumption
    | with_reducible refine keeps_done ?_
    | with_reducible refine keeps_regWrite (fun _ _ _ => ?_) ?_
    | with_reducible refine keeps_gfxDoorbell ?_
    | with_reducible refine KeepsR.mk ?_
    | with_reducible refine KeepsR.ite (fun _ => ?_) fun _ => ?_
    | split

theorem keeps_clearBlock {s0 : State} {a0 a1 a2 a3} (h0 : KeepsP true s0 a3) : KeepsP true s0 (clearBlock a0 a1 a2 a3) := by
  unfold clearBlock
  exact KeepsP.foldl h0 fun u x h => by
    split
    · exact h
    · exact keeps_devWrite h

theorem keeps_endClear {s0 : State} {a0 a1 a2 a3} (h0 : KeepsP true s0 a2) : KeepsP true s0 (endClear a0 a1 a2 a3) := by
  unfold endClear
  extract_lets rs1 d
  have h1 : KeepsP true s0 rs1 := KeepsP.ite (fun _ => KeepsP.foldl h0 fun _ _ h => keeps_clearBlock h) fun _ => h0
  clear_value rs1 d
  exact KeepsP.foldl h1 fun u x h => by
    split
    · exact h
    · exact keeps_devWrite h

theorem keeps_gfxPacket {s0 a3 : State} {a0 a1 a2} (h0 : ∀ b0 b1, Keeps true s0 b1 → Keeps true s0 (a2 b0 b1)) (h1 : Keeps true s0 a3) : KeepsR true s0 (gfxPacket a0 a1 a2 a3) := by
  unfold gfxPacket
  try dsimp only
  repeat' first
    | with_reducible assumption
    | with_reducible apply h0
    | with_reducible refine keeps_done ?_
    | with_reducible refine keeps_devRead ?_
    | with_reducible refine keeps_setGfxWin ?_
    | with_reducible refine keeps_gfxStop ?_
    | with_reducible refine keeps_gfxSchedule ?_
    | with_reducible refine KeepsR.mk ?_
    | with_reducible refine KeepsP2.elim (by assumption) ?_
    | with_reducible refine KeepsR.ite (fun _ => ?_) fun _ => ?_
    | split

theorem keeps_execBarrier {s0 a2 : State} {a0 a1} (h0 : Keeps true s0 a2) : KeepsR true s0 (execBarrier a0 a1 a2) := by
  unfold execBarrier
  try dsimp only
  repeat' first
    | with_reducible assumption
    | with_reducible refine keeps_gfxPacket (fun _ _ _ => ?_) ?_

theorem keeps_execCall {s0 a2 : State} {a0 a1} (h0 : Keeps true s0 a2) : KeepsR true s0 (execCall a0 a1 a2) := by
  unfold execCall
  try dsimp only
  repeat' first
    | with_reducible assumption
    | with_reducible refine keeps_setGfxWin ?_
    | with_reducible refine keeps_gfxPacket (fun _ _ _ => ?_) ?_

theorem keeps_gfxUnits {w : Bool} {s0 a2 : State} {a0 a1} (h0 : Keeps w s0 a2) : Keeps w s0 (gfxUnits a0 a1 a2) := by
  unfold gfxUnits
  try dsimp only
  repeat' first
    | with_reducible assumption
    | with_reducible refine keeps_setGfxWin ?_
    | with_reducible refine Keeps.ite (fun _ => ?_) fun _ => ?_

theorem keeps_execDispatch {s0 a2 : State} {a0 a1} (h0 : Keeps true s0 a2) : KeepsR true s0 (execDispatch a0 a1 a2) := by
  unfold execDispatch
  try dsimp only
  repeat' first
    | with_reducible assumption
    | with_reducible refine keeps_gfxStop ?_
    | with_reducible refine keeps_gfxPacket (fun _ _ _ => ?_) ?_
    | with_reducible refine keeps_gfxUnits ?_
    | with_reducible refine Keeps.ite (fun _ => ?_) fun _ => ?_

theorem keeps_residency {w : Bool} {s0 a3 : State} {a0 a1 a2} (h0 : Keeps w s0 a3) : KeepsP2 w s0 (residency a0 a1 a2 a3) := by
  unfold residency
  try dsimp only
  repeat' first
    | with_reducible assumption
    | with_reducible refine keeps_tookFree ?_
    | with_reducible refine keeps_devRead ?_
    | with_reducible refine keeps_setGfxWin ?_
    | with_reducible refine KeepsP2.mk ?_
    | with_reducible refine KeepsP2.elim (by assumption) ?_
    | split

theorem keeps_gfxAccess {s0 a2 : State} {a0 a1} (h0 : Keeps true s0 a2) : KeepsP true s0 (gfxAccess a0 a1 a2) := by
  unfold gfxAccess
  try dsimp only
  repeat' first
    | with_reducible assumption
    | with_reducible refine keeps_incSat ?_
    | with_reducible refine keeps_residency ?_
    | with_reducible refine KeepsP2.snd (keeps_devRead ?_)
    | with_reducible refine KeepsP.snd (keeps_devWrite ?_)
    | with_reducible refine KeepsP.mk ?_
    | with_reducible refine KeepsP2.elim (by assumption) ?_
    | split

theorem keeps_gfxAccesses {s0 a2 : State} {a0 a1} (h0 : Keeps true s0 a2) : KeepsP true s0 (gfxAccesses a0 a1 a2) := by
  unfold gfxAccesses
  try dsimp only
  repeat' first
    | with_reducible assumption
    | with_reducible refine KeepsP.snd (keeps_gfxAccess ?_)
    | with_reducible refine KeepsP.mk ?_
    | with_reducible refine KeepsP.snd (KeepsP.foldl ?_ fun _ _ _ => ?_)
    | split

theorem keeps_gfxPeak {w : Bool} {s0 a2 : State} {a0 a1} (h0 : Keeps w s0 a2) : Keeps w s0 (gfxPeak a0 a1 a2) := by
  unfold gfxPeak
  try dsimp only
  repeat' first
    | with_reducible assumption
    | with_reducible refine keeps_wr ?_

theorem keeps_gfxFlush {s0 a3 : State} {a0 a1 a2} (h0 : Keeps true s0 a3) : Keeps true s0 (gfxFlush a0 a1 a2 a3) := by
  unfold gfxFlush
  try dsimp only
  repeat' first
    | with_reducible assumption
    | with_reducible refine keeps_record0 ?_
    | with_reducible refine keeps_incWrap ?_
    | with_reducible refine keeps_gfxEvent ?_
    | with_reducible refine keeps_gfxStopIf ?_
    | with_reducible refine keeps_gfxAccesses ?_
    | with_reducible refine Keeps.ite (fun _ => ?_) fun _ => ?_
    | with_reducible refine Keeps.foldl ?_ fun _ _ _ => ?_

theorem keeps_gfxBin {s0 a2 : State} {a0 a1} (h0 : Keeps true s0 a2) : Keeps true s0 (gfxBin a0 a1 a2) := by
  unfold gfxBin
  try dsimp only
  repeat' first
    | with_reducible assumption
    | with_reducible refine keeps_incSat ?_
    | with_reducible refine keeps_setGfxWin ?_
    | with_reducible refine keeps_gfxStop ?_
    | with_reducible refine keeps_gfxStopIf ?_
    | with_reducible refine keeps_gfxAccesses ?_
    | with_reducible refine keeps_gfxPeak ?_
    | with_reducible refine keeps_gfxFlush ?_
    | with_reducible refine Keeps.ite (fun _ => ?_) fun _ => ?_

theorem keeps_execDraw {s0 a3 : State} {a0 a1 a2} (h0 : Keeps true s0 a3) : KeepsR true s0 (execDraw a0 a1 a2 a3) := by
  unfold execDraw
  try dsimp only
  repeat' first
    | with_reducible assumption
    | with_reducible refine keeps_gfxPacket (fun _ _ _ => ?_) ?_
    | with_reducible refine keeps_gfxUnits ?_
    | with_reducible refine keeps_gfxBin ?_

theorem keeps_passEnd {s0 a1 : State} {a0} (h0 : Keeps true s0 a1) : Keeps true s0 (passEnd a0 a1) := by
  unfold passEnd
  try dsimp only
  repeat' first
    | with_reducible assumption
    | with_reducible refine keeps_setGfxWin ?_
    | with_reducible refine keeps_gfxStopIf ?_
    | with_reducible refine KeepsP.snd (keeps_endClear ?_)
    | with_reducible refine KeepsP.mk ?_
    | with_reducible refine KeepsP.snd (KeepsP.foldl ?_ fun _ _ _ => ?_)
    | split

theorem keeps_execGfxBoundary {s0 a4 : State} {a0 a1 a2 a3} (h0 : Keeps true s0 a4) : KeepsR true s0 (execGfxBoundary a0 a1 a2 a3 a4) := by
  unfold execGfxBoundary
  try dsimp only
  repeat' first
    | with_reducible assumption
    | with_reducible refine keeps_done ?_
    | with_reducible refine keeps_setGfxWin ?_
    | with_reducible refine keeps_gfxStop ?_
    | with_reducible refine keeps_gfxSchedule ?_
    | with_reducible refine keeps_gfxAccesses ?_
    | with_reducible refine keeps_passEnd ?_
    | with_reducible refine KeepsR.mk ?_
    | with_reducible refine KeepsP.elim (by assumption) ?_
    | with_reducible refine Keeps.ite (fun _ => ?_) fun _ => ?_
    | with_reducible refine KeepsR.ite (fun _ => ?_) fun _ => ?_
    | split

theorem keeps_execGfxClusterFault {s0 a1 : State} {a0} (h0 : Keeps true s0 a1) : KeepsR true s0 (execGfxClusterFault a0 a1) := by
  unfold execGfxClusterFault
  try dsimp only
  repeat' first
    | with_reducible assumption
    | with_reducible refine keeps_done ?_
    | with_reducible refine keeps_gfxStop ?_
    | with_reducible refine keeps_gfxSchedule ?_
    | with_reducible refine KeepsR.mk ?_
    | split

theorem keeps_onWindow {w : Bool} {s0 a2 : State} {a0 a1} (h0 : ∀ b0 b1,  KeepsA w s0 (a1 b0 b1)) (h1 : Keeps w s0 a2) : KeepsA w s0 (onWindow a0 a1 a2) := by
  unfold onWindow
  try dsimp only
  repeat' first
    | with_reducible assumption
    | with_reducible apply h0
    | with_reducible refine keeps_no ?_
    | with_reducible refine KeepsA.ite (fun _ => ?_) fun _ => ?_
    | split

theorem keeps_gfxCtxRelease {s0 a1 : State} {a0} (h0 : Keeps true s0 a1) : KeepsA true s0 (gfxCtxRelease a0 a1) := by
  unfold gfxCtxRelease
  try dsimp only
  repeat' first
    | with_reducible assumption
    | with_reducible refine keeps_no ?_
    | with_reducible refine keeps_did ?_
    | with_reducible refine keeps_setGfxWin ?_
    | with_reducible refine keeps_gfxSchedule ?_
    | with_reducible refine keeps_onWindow (fun _ _  => ?_) ?_
    | with_reducible refine KeepsA.ite (fun _ => ?_) fun _ => ?_

theorem keeps_execGfxCtxRelease {s0 a1 : State} {a0} (h0 : Keeps true s0 a1) : KeepsR true s0 (execGfxCtxRelease a0 a1) := by
  unfold execGfxCtxRelease
  try dsimp only
  repeat' first
    | with_reducible assumption
    | with_reducible refine keeps_done ?_
    | with_reducible refine keeps_serve (fun _ _ _ => ?_) ?_
    | with_reducible refine keeps_gfxCtxRelease ?_

theorem keeps_gfxCtxRestart {s0 a1 : State} {a0} (h0 : Keeps true s0 a1) : KeepsA true s0 (gfxCtxRestart a0 a1) := by
  unfold gfxCtxRestart
  try dsimp only
  repeat' first
    | with_reducible assumption
    | with_reducible refine keeps_no ?_
    | with_reducible refine keeps_did ?_
    | with_reducible refine keeps_setGfxWin ?_
    | with_reducible refine keeps_gfxSchedule ?_
    | with_reducible refine keeps_onWindow (fun _ _  => ?_) ?_
    | with_reducible refine KeepsA.ite (fun _ => ?_) fun _ => ?_

theorem keeps_execGfxCtxRestart {s0 a1 : State} {a0} (h0 : Keeps true s0 a1) : KeepsR true s0 (execGfxCtxRestart a0 a1) := by
  unfold execGfxCtxRestart
  try dsimp only
  repeat' first
    | with_reducible assumption
    | with_reducible refine keeps_done ?_
    | with_reducible refine keeps_serve (fun _ _ _ => ?_) ?_
    | with_reducible refine keeps_gfxCtxRestart ?_

theorem keeps_gfxCtxSetPriority {s0 a1 : State} {a0} (h0 : Keeps true s0 a1) : KeepsA true s0 (gfxCtxSetPriority a0 a1) := by
  unfold gfxCtxSetPriority
  try dsimp only
  repeat' first
    | with_reducible assumption
    | with_reducible refine keeps_no ?_
    | with_reducible refine keeps_did ?_
    | with_reducible refine keeps_setGfxWin ?_
    | with_reducible refine keeps_gfxSchedule ?_
    | with_reducible refine keeps_onWindow (fun _ _  => ?_) ?_
    | with_reducible refine KeepsA.ite (fun _ => ?_) fun _ => ?_

theorem keeps_execGfxCtxSetPriority {s0 a1 : State} {a0} (h0 : Keeps true s0 a1) : KeepsR true s0 (execGfxCtxSetPriority a0 a1) := by
  unfold execGfxCtxSetPriority
  try dsimp only
  repeat' first
    | with_reducible assumption
    | with_reducible refine keeps_done ?_
    | with_reducible refine keeps_serve (fun _ _ _ => ?_) ?_
    | with_reducible refine keeps_gfxCtxSetPriority ?_

theorem keeps_gfxCtxSetup {w : Bool} {s0 a1 : State} {a0} (h0 : Keeps w s0 a1) : KeepsA w s0 (gfxCtxSetup a0 a1) := by
  unfold gfxCtxSetup
  try dsimp only
  repeat' first
    | with_reducible assumption
    | with_reducible refine keeps_no ?_
    | with_reducible refine keeps_did ?_
    | with_reducible refine keeps_setGfxWin ?_
    | with_reducible refine KeepsA.ite (fun _ => ?_) fun _ => ?_
    | split

theorem keeps_execGfxCtxSetup {w : Bool} {s0 a1 : State} {a0} (h0 : Keeps w s0 a1) : KeepsR w s0 (execGfxCtxSetup a0 a1) := by
  unfold execGfxCtxSetup
  try dsimp only
  repeat' first
    | with_reducible assumption
    | with_reducible refine keeps_done ?_
    | with_reducible refine keeps_serve (fun _ _ _ => ?_) ?_
    | with_reducible refine keeps_gfxCtxSetup ?_

theorem keeps_gfxGetContext {w : Bool} {s0 a1 : State} {a0} (h0 : Keeps w s0 a1) : KeepsA w s0 (gfxGetContext a0 a1) := by
  unfold gfxGetContext
  try dsimp only
  repeat' first
    | with_reducible assumption
    | with_reducible refine keeps_okR ?_
    | with_reducible refine keeps_no ?_
    | with_reducible refine KeepsA.ite (fun _ => ?_) fun _ => ?_

theorem keeps_execGfxGetContext {w : Bool} {s0 a1 : State} {a0} (h0 : Keeps w s0 a1) : KeepsR w s0 (execGfxGetContext a0 a1) := by
  unfold execGfxGetContext
  try dsimp only
  repeat' first
    | with_reducible assumption
    | with_reducible refine keeps_done ?_
    | with_reducible refine keeps_serve (fun _ _ _ => ?_) ?_
    | with_reducible refine keeps_gfxGetContext ?_

theorem keeps_gfxGetInfo {w : Bool} {s0 a1 : State} {a0} (h0 : Keeps w s0 a1) : KeepsA w s0 (gfxGetInfo a0 a1) := by
  unfold gfxGetInfo
  try dsimp only
  repeat' first
    | with_reducible assumption
    | with_reducible refine keeps_okR ?_

theorem keeps_execGfxGetInfo {w : Bool} {s0 a1 : State} {a0} (h0 : Keeps w s0 a1) : KeepsR w s0 (execGfxGetInfo a0 a1) := by
  unfold execGfxGetInfo
  try dsimp only
  repeat' first
    | with_reducible assumption
    | with_reducible refine keeps_done ?_
    | with_reducible refine keeps_serve (fun _ _ _ => ?_) ?_
    | with_reducible refine keeps_gfxGetInfo ?_

theorem keeps_gfxSetArea {w : Bool} {s0 a1 : State} {a0} (h0 : Keeps w s0 a1) : KeepsA w s0 (gfxSetArea a0 a1) := by
  unfold gfxSetArea
  try dsimp only
  repeat' first
    | with_reducible assumption
    | with_reducible refine keeps_wr ?_
    | with_reducible refine keeps_no ?_
    | with_reducible refine keeps_did ?_
    | with_reducible refine KeepsA.ite (fun _ => ?_) fun _ => ?_

theorem keeps_execGfxSetArea {w : Bool} {s0 a1 : State} {a0} (h0 : Keeps w s0 a1) : KeepsR w s0 (execGfxSetArea a0 a1) := by
  unfold execGfxSetArea
  try dsimp only
  repeat' first
    | with_reducible assumption
    | with_reducible refine keeps_done ?_
    | with_reducible refine keeps_serve (fun _ _ _ => ?_) ?_
    | with_reducible refine keeps_gfxSetArea ?_

theorem keeps_gfxSetReserve {s0 a1 : State} {a0} (h0 : Keeps true s0 a1) : KeepsA true s0 (gfxSetReserve a0 a1) := by
  unfold gfxSetReserve
  try dsimp only
  repeat' first
    | with_reducible assumption
    | with_reducible refine keeps_wr ?_
    | with_reducible refine keeps_no ?_
    | with_reducible refine keeps_did ?_
    | with_reducible refine keeps_gfxSchedule ?_
    | with_reducible refine KeepsA.ite (fun _ => ?_) fun _ => ?_

theorem keeps_execGfxSetReserve {s0 a1 : State} {a0} (h0 : Keeps true s0 a1) : KeepsR true s0 (execGfxSetReserve a0 a1) := by
  unfold execGfxSetReserve
  try dsimp only
  repeat' first
    | with_reducible assumption
    | with_reducible refine keeps_done ?_
    | with_reducible refine keeps_serve (fun _ _ _ => ?_) ?_
    | with_reducible refine keeps_gfxSetReserve ?_

theorem keeps_gfxSetRt {s0 a1 : State} {a0} (h0 : Keeps true s0 a1) : KeepsA true s0 (gfxSetRt a0 a1) := by
  unfold gfxSetRt
  try dsimp only
  repeat' first
    | with_reducible assumption
    | with_reducible refine keeps_wr ?_
    | with_reducible refine keeps_did ?_
    | with_reducible refine keeps_rtLowered ?_

theorem keeps_execGfxSetRt {s0 a1 : State} {a0} (h0 : Keeps true s0 a1) : KeepsR true s0 (execGfxSetRt a0 a1) := by
  unfold execGfxSetRt
  try dsimp only
  repeat' first
    | with_reducible assumption
    | with_reducible refine keeps_done ?_
    | with_reducible refine keeps_serve (fun _ _ _ => ?_) ?_
    | with_reducible refine keeps_gfxSetRt ?_

theorem keeps_gfxSetSecureFloor {s0 a1 : State} {a0} (h0 : Keeps true s0 a1) : KeepsA true s0 (gfxSetSecureFloor a0 a1) := by
  unfold gfxSetSecureFloor
  try dsimp only
  repeat' first
    | with_reducible assumption
    | with_reducible refine keeps_wr ?_
    | with_reducible refine keeps_no ?_
    | with_reducible refine keeps_did ?_
    | with_reducible refine keeps_gfxSchedule ?_
    | with_reducible refine KeepsA.ite (fun _ => ?_) fun _ => ?_

theorem keeps_execGfxSetSecureFloor {s0 a1 : State} {a0} (h0 : Keeps true s0 a1) : KeepsR true s0 (execGfxSetSecureFloor a0 a1) := by
  unfold execGfxSetSecureFloor
  try dsimp only
  repeat' first
    | with_reducible assumption
    | with_reducible refine keeps_done ?_
    | with_reducible refine keeps_serve (fun _ _ _ => ?_) ?_
    | with_reducible refine keeps_gfxSetSecureFloor ?_

theorem keeps_execGfxSubmissionDone {s0 a2 : State} {a0 a1} (h0 : Keeps true s0 a2) : KeepsR true s0 (execGfxSubmissionDone a0 a1 a2) := by
  unfold execGfxSubmissionDone
  try dsimp only
  repeat' first
    | with_reducible assumption
    | with_reducible refine keeps_wr ?_
    | with_reducible refine keeps_done ?_
    | with_reducible refine keeps_setGfxWin ?_
    | with_reducible refine keeps_gfxEvent ?_
    | with_reducible refine keeps_gfxStop ?_
    | with_reducible refine keeps_gfxSchedule ?_
    | with_reducible refine KeepsP.snd (keeps_devWrite ?_)
    | with_reducible refine KeepsP.mk ?_
    | with_reducible refine KeepsR.mk ?_
    | with_reducible refine KeepsP.elim (by assumption) ?_
    | with_reducible refine Keeps.ite (fun _ => ?_) fun _ => ?_
    | with_reducible refine KeepsR.ite (fun _ => ?_) fun _ => ?_
    | split

theorem keeps_execGfxWatchdog {s0 a2 : State} {a0 a1} (h0 : Keeps true s0 a2) : KeepsR true s0 (execGfxWatchdog a0 a1 a2) := by
  unfold execGfxWatchdog
  try dsimp only
  repeat' first
    | with_reducible assumption
    | with_reducible refine keeps_record0 ?_
    | with_reducible refine keeps_done ?_
    | with_reducible refine keeps_advanceTo ?_
    | with_reducible refine keeps_gfxStop ?_
    | with_reducible refine keeps_gfxSchedule ?_
    | with_reducible refine KeepsR.mk ?_
    | with_reducible refine KeepsR.ite (fun _ => ?_) fun _ => ?_

theorem keeps_execNop {s0 a2 : State} {a0 a1} (h0 : Keeps true s0 a2) : KeepsR true s0 (execNop a0 a1 a2) := by
  unfold execNop
  try dsimp only
  repeat' first
    | with_reducible assumption
    | with_reducible refine keeps_gfxPacket (fun _ _ _ => ?_) ?_

theorem keeps_execRenderBegin {s0 a2 : State} {a0 a1} (h0 : Keeps true s0 a2) : KeepsR true s0 (execRenderBegin a0 a1 a2) := by
  unfold execRenderBegin
  try dsimp only
  repeat' first
    | with_reducible assumption
    | with_reducible refine keeps_setGfxWin ?_
    | with_reducible refine keeps_gfxPacket (fun _ _ _ => ?_) ?_

theorem keeps_execRenderEnd {s0 a4 : State} {a0 a1 a2 a3} (h0 : Keeps true s0 a4) : KeepsR true s0 (execRenderEnd a0 a1 a2 a3 a4) := by
  unfold execRenderEnd
  try dsimp only
  repeat' first
    | with_reducible assumption
    | with_reducible refine keeps_setGfxWin ?_
    | with_reducible refine keeps_gfxPacket (fun _ _ _ => ?_) ?_
    | with_reducible refine keeps_gfxUnits ?_
    | with_reducible refine keeps_passEnd ?_
    | with_reducible refine Keeps.ite (fun _ => ?_) fun _ => ?_

theorem keeps_execResidencyInv {s0 a2 : State} {a0 a1} (h0 : Keeps true s0 a2) : KeepsR true s0 (execResidencyInv a0 a1 a2) := by
  unfold execResidencyInv
  try dsimp only
  repeat' first
    | with_reducible assumption
    | with_reducible refine keeps_setGfxWin ?_
    | with_reducible refine keeps_gfxPacket (fun _ _ _ => ?_) ?_

theorem keeps_execState {s0 a2 : State} {a0 a1} (h0 : Keeps true s0 a2) : KeepsR true s0 (execState a0 a1 a2) := by
  unfold execState
  try dsimp only
  repeat' first
    | with_reducible assumption
    | with_reducible refine keeps_gfxPacket (fun _ _ _ => ?_) ?_

theorem keeps_execTimestamp {s0 a2 : State} {a0 a1} (h0 : Keeps true s0 a2) : KeepsR true s0 (execTimestamp a0 a1 a2) := by
  unfold execTimestamp
  try dsimp only
  repeat' first
    | with_reducible assumption
    | with_reducible refine keeps_devWrite ?_
    | with_reducible refine keeps_gfxStopIf ?_
    | with_reducible refine keeps_gfxPacket (fun _ _ _ => ?_) ?_

theorem keeps_execWaitGe {s0 a2 : State} {a0 a1} (h0 : Keeps true s0 a2) : KeepsR true s0 (execWaitGe a0 a1 a2) := by
  unfold execWaitGe
  try dsimp only
  repeat' first
    | with_reducible assumption
    | with_reducible refine keeps_devRead ?_
    | with_reducible refine keeps_setGfxWin ?_
    | with_reducible refine keeps_gfxStop ?_
    | with_reducible refine keeps_gfxPacket (fun _ _ _ => ?_) ?_
    | with_reducible refine KeepsP2.elim (by assumption) ?_
    | with_reducible refine Keeps.ite (fun _ => ?_) fun _ => ?_
    | split

theorem keeps_gfxPoll {w : Bool} {s0 a2 : State} {a0 a1} (h0 : Keeps w s0 a2) : KeepsP2 w s0 (gfxPoll a0 a1 a2) := by
  unfold gfxPoll
  try dsimp only
  repeat' first
    | with_reducible assumption
    | with_reducible refine KeepsP2.snd (keeps_devRead ?_)
    | with_reducible refine KeepsP2.mk ?_

theorem keeps_execWaitGeMet {s0 a2 : State} {a0 a1} (h0 : Keeps true s0 a2) : KeepsR true s0 (execWaitGeMet a0 a1 a2) := by
  unfold execWaitGeMet
  try dsimp only
  repeat' first
    | with_reducible assumption
    | with_reducible refine keeps_done ?_
    | with_reducible refine keeps_setGfxWin ?_
    | with_reducible refine keeps_gfxStop ?_
    | with_reducible refine keeps_gfxSchedule ?_
    | with_reducible refine keeps_gfxPoll ?_
    | with_reducible refine KeepsR.mk ?_
    | with_reducible refine KeepsP2.elim (by assumption) ?_
    | with_reducible refine KeepsR.ite (fun _ => ?_) fun _ => ?_
    | split

theorem keeps_execWaitGeTimeout {s0 a2 : State} {a0 a1} (h0 : Keeps true s0 a2) : KeepsR true s0 (execWaitGeTimeout a0 a1 a2) := by
  unfold execWaitGeTimeout
  try dsimp only
  repeat' first
    | with_reducible assumption
    | with_reducible refine keeps_done ?_
    | with_reducible refine keeps_advanceTo ?_
    | with_reducible refine keeps_setGfxWin ?_
    | with_reducible refine keeps_gfxStop ?_
    | with_reducible refine keeps_gfxSchedule ?_
    | with_reducible refine keeps_gfxPoll ?_
    | with_reducible refine KeepsR.mk ?_
    | with_reducible refine KeepsP2.elim (by assumption) ?_
    | with_reducible refine Keeps.ite (fun _ => ?_) fun _ => ?_
    | split

theorem keeps_execWrite64 {s0 a2 : State} {a0 a1} (h0 : Keeps true s0 a2) : KeepsR true s0 (execWrite64 a0 a1 a2) := by
  unfold execWrite64
  try dsimp only
  repeat' first
    | with_reducible assumption
    | with_reducible refine keeps_devWrite ?_
    | with_reducible refine keeps_gfxStopIf ?_
    | with_reducible refine keeps_gfxPacket (fun _ _ _ => ?_) ?_

theorem keeps_gfxAbort {w : Bool} {s0 a1 : State} {a0} (h0 : Keeps w s0 a1) : Keeps w s0 (gfxAbort a0 a1) := by
  unfold gfxAbort
  try dsimp only
  repeat' first
    | with_reducible assumption
    | with_reducible refine keeps_setGfxWin ?_
    | with_reducible refine keeps_gfxStatus ?_
    | with_reducible refine Keeps.foldl ?_ fun _ _ _ => ?_

theorem keeps_gfxReset {s0 a1 : State} {a0} (h0 : Keeps true s0 a1) : Keeps true s0 (gfxReset a0 a1) := by
  unfold gfxReset
  try dsimp only
  repeat' first
    | with_reducible assumption
    | with_reducible refine keeps_setGfxWin ?_
    | with_reducible refine keeps_gfxSchedule ?_
    | with_reducible refine Keeps.foldl ?_ fun _ _ _ => ?_

/-! ## Latch -/

theorem keeps_regionAct {w : Bool} {s0 a3 : State} {a0 a1 a2} (h0 : Keeps w s0 a3) : Keeps w s0 (regionAct a0 a1 a2 a3) := by
  unfold regionAct
  try dsimp only
  repeat' first
    | with_reducible assumption
    | with_reducible refine keeps_record0 ?_
    | with_reducible refine keeps_putRegion ?_
    | with_reducible refine keeps_clrBits ?_
    | with_reducible refine Keeps.ite (fun _ => ?_) fun _ => ?_

theorem keeps_stampFences {w : Bool} {s0 a1 : State} {a0} (h0 : Keeps w s0 a1) : Keeps w s0 (stampFences a0 a1) := by
  unfold stampFences
  try dsimp only
  repeat' first
    | with_reducible assumption
    | with_reducible refine keeps_setSlot ?_

theorem keeps_selectBuffer {w : Bool} {s0 a3 : State} {a0 a1 a2} (h0 : Keeps w s0 a3) : Keeps w s0 (selectBuffer a0 a1 a2 a3) := by
  unfold selectBuffer
  try dsimp only
  repeat' first
    | with_reducible assumption
    | with_reducible refine keeps_slotStatus ?_
    | with_reducible refine keeps_setSlot ?_
    | with_reducible refine keeps_released ?_
    | with_reducible refine keeps_stampFences ?_
    | split

theorem keeps_motionStart {w : Bool} {s0 a2 : State} {a0 a1} (h0 : Keeps w s0 a2) : Keeps w s0 (motionStart a0 a1 a2) := by
  unfold motionStart
  try dsimp only
  repeat' first
    | with_reducible assumption
    | with_reducible refine keeps_wr ?_
    | with_reducible refine keeps_setSlot ?_
    | with_reducible refine Keeps.ite (fun _ => ?_) fun _ => ?_

theorem keeps_stateChanged {w : Bool} {s0 a4 : State} {a0 a1 a2 a3} (h0 : Keeps w s0 a4) : Keeps w s0 (stateChanged a0 a1 a2 a3 a4) := by
  unfold stateChanged
  try dsimp only
  repeat' first
    | with_reducible assumption
    | with_reducible refine keeps_record0 ?_
    | with_reducible refine keeps_raiseLine ?_
    | with_reducible refine keeps_notifyPairs ?_
    | with_reducible refine Keeps.ite (fun _ => ?_) fun _ => ?_
    | with_reducible refine Keeps.idd ?_
    | split

theorem keeps_judgeSlot {w : Bool} {s0 a4 : State} {a0 a1 a2 a3} (h0 : Keeps w s0 a4) : Keeps w s0 (judgeSlot a0 a1 a2 a3 a4) := by
  unfold judgeSlot
  try dsimp only
  repeat' first
    | with_reducible assumption
    | with_reducible refine keeps_wr ?_
    | with_reducible refine keeps_wrB ?_
    | with_reducible refine keeps_setSlot ?_
    | with_reducible refine keeps_stateChanged ?_

theorem keeps_motionLate {w : Bool} {s0 a1 : State} {a0} (h0 : Keeps w s0 a1) : Keeps w s0 (motionLate a0 a1) := by
  unfold motionLate
  try dsimp only
  repeat' first
    | with_reducible assumption
    | with_reducible refine keeps_incSat ?_
    | with_reducible refine keeps_record0 ?_
    | with_reducible refine keeps_setSlot ?_
    | split

theorem keeps_regionPrepare {w : Bool} {s0 a3 : State} {a0 a1 a2} (h0 : Keeps w s0 a3) : Keeps w s0 (regionPrepare a0 a1 a2 a3) := by
  unfold regionPrepare
  try dsimp only
  repeat' first
    | with_reducible assumption
    | with_reducible refine keeps_wr ?_
    | with_reducible refine keeps_putRegion ?_
    | with_reducible refine keeps_clrBits ?_
    | with_reducible refine Keeps.ite (fun _ => ?_) fun _ => ?_
    | with_reducible refine Keeps.idd ?_
    | split

theorem keeps_latch {w : Bool} {s0 a2 : State} {a0 a1} (h0 : Keeps w s0 a2) : Keeps w s0 (latch a0 a1 a2) := by
  unfold latch
  try dsimp only
  repeat' first
    | with_reducible assumption
    | with_reducible refine keeps_wr ?_
    | with_reducible refine keeps_setOut ?_
    | with_reducible refine keeps_setSlot ?_
    | with_reducible refine keeps_resetsAt ?_
    | with_reducible refine keeps_setQueue ?_
    | with_reducible refine keeps_applyCommit ?_
    | with_reducible refine keeps_regionAct ?_
    | with_reducible refine keeps_selectBuffer ?_
    | with_reducible refine keeps_motionStart ?_
    | with_reducible refine keeps_judgeSlot ?_
    | with_reducible refine keeps_motionLate ?_
    | with_reducible refine keeps_regionPrepare ?_
    | fail_if_no_progress with_reducible refine Keeps.upd ?_ rfl rfl rfl rfl
    | with_reducible refine Keeps.ite (fun _ => ?_) fun _ => ?_
    | with_reducible refine Keeps.foldl ?_ fun _ _ _ => ?_

theorem keeps_execLatchPoint {w : Bool} {s0 a1 : State} {a0} (h0 : Keeps w s0 a1) : KeepsR w s0 (execLatchPoint a0 a1) := by
  unfold execLatchPoint
  try dsimp only
  repeat' first
    | with_reducible assumption
    | with_reducible refine keeps_done ?_
    | with_reducible refine keeps_advanceTo ?_
    | with_reducible refine keeps_latch ?_
    | with_reducible refine KeepsR.mk ?_
    | with_reducible refine KeepsR.ite (fun _ => ?_) fun _ => ?_

theorem keeps_stepStamps {w : Bool} {s0 a1 : State} {a0} (h0 : Keeps w s0 a1) : Keeps w s0 (stepStamps a0 a1) := by
  unfold stepStamps
  try dsimp only
  repeat' first
    | with_reducible assumption
    | fail_if_no_progress with_reducible refine Keeps.upd ?_ rfl rfl rfl rfl

/-! ## Tiles -/

theorem keeps_setGroups {w : Bool} {s0 a2 : State} {a0 a1} (h0 : Keeps w s0 a2) : Keeps w s0 (setGroups a0 a1 a2) := by
  unfold setGroups
  try dsimp only
  repeat' first
    | with_reducible assumption
    | with_reducible refine keeps_wr ?_
    | with_reducible refine keeps_setOut ?_

theorem keeps_engRelease {w : Bool} {s0 a1 : State} {a0} (h0 : Keeps w s0 a1) : Keeps w s0 (engRelease a0 a1) := by
  unfold engRelease
  try dsimp only
  repeat' first
    | with_reducible assumption
    | with_reducible refine keeps_wr ?_

theorem keeps_setTile {w : Bool} {s0 a4 : State} {a0 a1 a2 a3} (h0 : Keeps w s0 a4) : Keeps w s0 (setTile a0 a1 a2 a3 a4) := by
  unfold setTile
  try dsimp only
  repeat' first
    | with_reducible assumption
    | fail_if_no_progress with_reducible refine Keeps.upd ?_ rfl rfl rfl rfl

theorem keeps_abandonTile {w : Bool} {s0 a4 : State} {a0 a1 a2 a3} (h0 : Keeps w s0 a4) : Keeps w s0 (abandonTile a0 a1 a2 a3 a4) := by
  unfold abandonTile
  try dsimp only
  repeat' first
    | with_reducible assumption
    | with_reducible refine keeps_incSat ?_
    | with_reducible refine keeps_record0 ?_
    | with_reducible refine keeps_engRelease ?_
    | with_reducible refine keeps_setTile ?_
    | split

theorem keeps_resetEngine {w : Bool} {s0 a1 : State} {a0} (h0 : Keeps w s0 a1) : Keeps w s0 (resetEngine a0 a1) := by
  unfold resetEngine
  try dsimp only
  repeat' first
    | with_reducible assumption
    | with_reducible refine keeps_wr ?_
    | with_reducible refine keeps_record0 ?_
    | with_reducible refine keeps_incWrap ?_
    | with_reducible refine keeps_engRelease ?_
    | with_reducible refine keeps_setTile ?_
    | with_reducible refine keeps_abandonTile ?_
    | fail_if_no_progress with_reducible refine Keeps.upd ?_ rfl rfl rfl rfl
    | with_reducible refine Keeps.ite (fun _ => ?_) fun _ => ?_
    | split

theorem keeps_engReset {w : Bool} {s0 a1 : State} {a0} (h0 : Keeps w s0 a1) : Keeps w s0 (engReset a0 a1) := by
  unfold engReset
  try dsimp only
  repeat' first
    | with_reducible assumption
    | with_reducible refine keeps_orBits ?_
    | with_reducible refine keeps_resetEngine ?_
    | with_reducible refine Keeps.foldl ?_ fun _ _ _ => ?_

theorem keeps_execEngineReset {w : Bool} {s0 a3 : State} {a0 a1 a2} (h0 : Keeps w s0 a3) : KeepsR w s0 (execEngineReset a0 a1 a2 a3) := by
  unfold execEngineReset
  try dsimp only
  repeat' first
    | with_reducible assumption
    | with_reducible refine keeps_regWrite (fun _ _ _ => ?_) ?_
    | with_reducible refine keeps_engReset ?_

theorem keeps_fetchCheck {w : Bool} {s0 a2 : State} {a0 a1} (h0 : Keeps w s0 a2) : KeepsP w s0 (fetchCheck a0 a1 a2) := by
  unfold fetchCheck
  try dsimp only
  repeat' first
    | with_reducible assumption
    | with_reducible refine keeps_devCheck ?_
    | with_reducible refine KeepsP.mk ?_
    | with_reducible refine KeepsP.elim (by assumption) ?_
    | with_reducible refine KeepsP.snd (KeepsP.foldl ?_ fun _ _ _ => ?_)
    | split

theorem keeps_dropLayer {w : Bool} {s0 a3 : State} {a0 a1 a2} (h0 : Keeps w s0 a3) : Keeps w s0 (dropLayer a0 a1 a2 a3) := by
  unfold dropLayer
  try dsimp only
  repeat' first
    | with_reducible assumption
    | with_reducible refine keeps_wr ?_
    | with_reducible refine keeps_incSat ?_
    | with_reducible refine keeps_record0 ?_
    | with_reducible refine keeps_raiseLine ?_
    | with_reducible refine keeps_setOut ?_
    | with_reducible refine Keeps.ite (fun _ => ?_) fun _ => ?_

theorem keeps_setPool {w : Bool} {s0 a4 : State} {a0 a1 a2 a3} (h0 : Keeps w s0 a4) : Keeps w s0 (setPool a0 a1 a2 a3 a4) := by
  unfold setPool
  try dsimp only
  repeat' first
    | with_reducible assumption
    | fail_if_no_progress with_reducible refine Keeps.upd ?_ rfl rfl rfl rfl

theorem keeps_execBandEligible {w : Bool} {s0 a2 : State} {a0 a1} (h0 : Keeps w s0 a2) : KeepsR w s0 (execBandEligible a0 a1 a2) := by
  unfold execBandEligible
  try dsimp only
  repeat' first
    | with_reducible assumption
    | with_reducible refine keeps_advanceTo ?_
    | with_reducible refine keeps_setGroups ?_
    | with_reducible refine keeps_setTile ?_
    | with_reducible refine keeps_setPool ?_
    | with_reducible refine KeepsR.mk ?_
    | with_reducible refine KeepsR.ite (fun _ => ?_) fun _ => ?_
    | with_reducible refine Keeps.foldl ?_ fun _ _ _ => ?_
    | split

theorem keeps_execEngineFault {w : Bool} {s0 a1 : State} {a0} (h0 : Keeps w s0 a1) : KeepsR w s0 (execEngineFault a0 a1) := by
  unfold execEngineFault
  try dsimp only
  repeat' first
    | with_reducible assumption
    | with_reducible refine keeps_orBits ?_
    | with_reducible refine keeps_done ?_
    | with_reducible refine keeps_recordReported ?_
    | with_reducible refine keeps_resetEngine ?_
    | fail_if_no_progress with_reducible refine Keeps.upd ?_ rfl rfl rfl rfl
    | with_reducible refine Keeps.ite (fun _ => ?_) fun _ => ?_

theorem keeps_execEngineReturn {w : Bool} {s0 a1 : State} {a0} (h0 : Keeps w s0 a1) : KeepsR w s0 (execEngineReturn a0 a1) := by
  unfold execEngineReturn
  try dsimp only
  repeat' first
    | with_reducible assumption
    | with_reducible refine keeps_wr ?_
    | with_reducible refine keeps_advanceTo ?_
    | with_reducible refine keeps_clrBits ?_
    | with_reducible refine KeepsR.mk ?_
    | with_reducible refine KeepsR.ite (fun _ => ?_) fun _ => ?_

theorem keeps_execEngineWatchdog {w : Bool} {s0 a1 : State} {a0} (h0 : Keeps w s0 a1) : KeepsR w s0 (execEngineWatchdog a0 a1) := by
  unfold execEngineWatchdog
  try dsimp only
  repeat' first
    | with_reducible assumption
    | with_reducible refine keeps_done ?_
    | with_reducible refine keeps_advanceTo ?_
    | with_reducible refine keeps_resetEngine ?_
    | with_reducible refine KeepsR.mk ?_
    | with_reducible refine KeepsR.ite (fun _ => ?_) fun _ => ?_

theorem keeps_execLayerUnderrun {w : Bool} {s0 a4 : State} {a0 a1 a2 a3} (h0 : Keeps w s0 a4) : KeepsR w s0 (execLayerUnderrun a0 a1 a2 a3 a4) := by
  unfold execLayerUnderrun
  try dsimp only
  repeat' first
    | with_reducible assumption
    | with_reducible refine keeps_done ?_
    | with_reducible refine keeps_advanceTo ?_
    | with_reducible refine keeps_setTile ?_
    | with_reducible refine keeps_dropLayer ?_
    | with_reducible refine KeepsR.mk ?_
    | with_reducible refine KeepsR.ite (fun _ => ?_) fun _ => ?_
    | split

theorem keeps_execPoolEntryRelease {w : Bool} {s0 a2 : State} {a0 a1} (h0 : Keeps w s0 a2) : KeepsR w s0 (execPoolEntryRelease a0 a1 a2) := by
  unfold execPoolEntryRelease
  try dsimp only
  repeat' first
    | with_reducible assumption
    | with_reducible refine keeps_advanceTo ?_
    | with_reducible refine keeps_setGroups ?_
    | with_reducible refine KeepsR.mk ?_
    | with_reducible refine Keeps.ite (fun _ => ?_) fun _ => ?_
    | with_reducible refine KeepsR.ite (fun _ => ?_) fun _ => ?_
    | split

theorem keeps_execTileAbandoned {w : Bool} {s0 a3 : State} {a0 a1 a2} (h0 : Keeps w s0 a3) : KeepsR w s0 (execTileAbandoned a0 a1 a2 a3) := by
  unfold execTileAbandoned
  try dsimp only
  repeat' first
    | with_reducible assumption
    | with_reducible refine keeps_done ?_
    | with_reducible refine keeps_advanceTo ?_
    | with_reducible refine keeps_abandonTile ?_
    | with_reducible refine KeepsR.mk ?_
    | with_reducible refine KeepsR.ite (fun _ => ?_) fun _ => ?_
    | split

theorem keeps_fetchLayer {w : Bool} {s0 a4 : State} {a0 a1 a2 a3} (h0 : Keeps w s0 a4) : Keeps w s0 (fetchLayer a0 a1 a2 a3 a4) := by
  unfold fetchLayer
  try dsimp only
  repeat' first
    | with_reducible assumption
    | with_reducible refine keeps_polFault ?_
    | with_reducible refine keeps_fetchCheck ?_
    | with_reducible refine keeps_dropLayer ?_
    | with_reducible refine KeepsP.elim (by assumption) ?_
    | with_reducible refine Keeps.ite (fun _ => ?_) fun _ => ?_
    | split

theorem keeps_execTileComplete {w : Bool} {s0 a1 : State} {a0} (h0 : Keeps w s0 a1) : KeepsR w s0 (execTileComplete a0 a1) := by
  unfold execTileComplete
  try dsimp only
  repeat' first
    | with_reducible assumption
    | with_reducible refine keeps_done ?_
    | with_reducible refine keeps_advanceTo ?_
    | with_reducible refine keeps_engRelease ?_
    | with_reducible refine keeps_setTile ?_
    | with_reducible refine keeps_setPool ?_
    | with_reducible refine keeps_fetchLayer ?_
    | with_reducible refine KeepsR.mk ?_
    | with_reducible refine KeepsR.ite (fun _ => ?_) fun _ => ?_
    | with_reducible refine Keeps.foldl ?_ fun _ _ _ => ?_
    | split

theorem keeps_execTileDispatch {w : Bool} {s0 a0 : State} (h0 : Keeps w s0 a0) : KeepsR w s0 (execTileDispatch a0) := by
  unfold execTileDispatch
  try dsimp only
  repeat' first
    | with_reducible assumption
    | with_reducible refine keeps_wr ?_
    | with_reducible refine keeps_incWrap ?_
    | with_reducible refine keeps_setTile ?_
    | with_reducible refine KeepsR.mk ?_
    | fail_if_no_progress with_reducible refine Keeps.upd ?_ rfl rfl rfl rfl
    | with_reducible refine Keeps.ite (fun _ => ?_) fun _ => ?_
    | split

theorem keeps_staleReport {w : Bool} {s0 a1 : State} {a0} (h0 : Keeps w s0 a1) : Keeps w s0 (staleReport a0 a1) := by
  unfold staleReport
  try dsimp only
  repeat' first
    | with_reducible assumption
    | with_reducible refine keeps_record ?_
    | with_reducible refine keeps_raiseLine ?_
    | with_reducible refine keeps_notifyWardenAnd0 ?_
    | with_reducible refine Keeps.ite (fun _ => ?_) fun _ => ?_

theorem keeps_execTileScan {w : Bool} {s0 a1 : State} {a0} (h0 : Keeps w s0 a1) : KeepsR w s0 (execTileScan a0 a1) := by
  unfold execTileScan
  try dsimp only
  repeat' first
    | with_reducible assumption
    | with_reducible refine keeps_incSat ?_
    | with_reducible refine keeps_done ?_
    | with_reducible refine keeps_advanceTo ?_
    | with_reducible refine keeps_setOut ?_
    | with_reducible refine keeps_staleReport ?_
    | with_reducible refine KeepsR.mk ?_
    | fail_if_no_progress with_reducible refine Keeps.upd ?_ rfl rfl rfl rfl
    | with_reducible refine Keeps.ite (fun _ => ?_) fun _ => ?_
    | with_reducible refine KeepsR.ite (fun _ => ?_) fun _ => ?_

theorem keeps_wbBandDone {w : Bool} {s0 a5 : State} {a0 a1 a2 a3 a4} (h0 : Keeps w s0 a5) : Keeps w s0 (wbBandDone a0 a1 a2 a3 a4 a5) := by
  unfold wbBandDone
  try dsimp only
  repeat' first
    | with_reducible assumption
    | with_reducible refine keeps_wr ?_
    | with_reducible refine keeps_raiseLine ?_
    | with_reducible refine keeps_wrB ?_
    | with_reducible refine keeps_setOut ?_
    | with_reducible refine keeps_sesBand ?_
    | with_reducible refine Keeps.ite (fun _ => ?_) fun _ => ?_

theorem keeps_wbRows {s0 a3 : State} {a0 a1 a2} (h0 : Keeps true s0 a3) : Keeps true s0 (wbRows a0 a1 a2 a3) := by
  unfold wbRows
  try dsimp only
  repeat' first
    | with_reducible assumption
    | with_reducible refine keeps_record0 ?_
    | with_reducible refine keeps_polFault ?_
    | with_reducible refine keeps_devWrite ?_
    | with_reducible refine keeps_setOut ?_
    | with_reducible refine KeepsP.elim (by assumption) ?_
    | with_reducible refine Keeps.ite (fun _ => ?_) fun _ => ?_
    | with_reducible refine Keeps.foldl ?_ fun _ _ _ => ?_
    | split

theorem keeps_execWbBandComplete {s0 a2 : State} {a0 a1} (h0 : Keeps true s0 a2) : KeepsR true s0 (execWbBandComplete a0 a1 a2) := by
  unfold execWbBandComplete
  try dsimp only
  repeat' first
    | with_reducible assumption
    | with_reducible refine keeps_done ?_
    | with_reducible refine keeps_advanceTo ?_
    | with_reducible refine keeps_wbBandDone ?_
    | with_reducible refine keeps_wbRows ?_
    | with_reducible refine KeepsR.mk ?_
    | with_reducible refine Keeps.ite (fun _ => ?_) fun _ => ?_
    | with_reducible refine KeepsR.ite (fun _ => ?_) fun _ => ?_
    | split

theorem keeps_execWbBandDrop {s0 a2 : State} {a0 a1} (h0 : Keeps true s0 a2) : KeepsR true s0 (execWbBandDrop a0 a1 a2) := by
  unfold execWbBandDrop
  try dsimp only
  repeat' first
    | with_reducible assumption
    | with_reducible refine keeps_record0 ?_
    | with_reducible refine keeps_done ?_
    | with_reducible refine keeps_tookFree ?_
    | with_reducible refine keeps_advanceTo ?_
    | with_reducible refine keeps_wbBandDone ?_
    | with_reducible refine keeps_wbRows ?_
    | with_reducible refine KeepsR.mk ?_
    | with_reducible refine Keeps.ite (fun _ => ?_) fun _ => ?_
    | with_reducible refine KeepsR.ite (fun _ => ?_) fun _ => ?_
    | split

end Sys2Proof.Machine
end

