-- ==== Sys2Proof/Laws/KeepsCodec.lean ====
section
/-! SUPPORT. What the functions of the codec, memory and the haptic engine
keep of a state (Keeps): one lemma per function, each from those of the functions it calls. -/
namespace Sys2Proof.Machine

/-! ## Codec -/

theorem keeps_sesDoorbell {w : Bool} {s0 a5 : State} {a0 a1 a2 a3 a4} (h0 : Keeps w s0 a5) : Keeps w s0 (sesDoorbell a0 a1 a2 a3 a4 a5) := by
  unfold sesDoorbell
  try dsimp only
  repeat' first
    | with_reducible assumption
    | with_reducible refine keeps_violateAt ?_
    | with_reducible refine keeps_wr ?_
    | with_reducible refine keeps_setSes ?_
    | with_reducible refine Keeps.ite (fun _ => ?_) fun _ => ?_
    | split

theorem keeps_execVcdDoorbell {w : Bool} {s0 a3 : State} {a0 a1 a2} (h0 : Keeps w s0 a3) : KeepsR w s0 (execVcdDoorbell a0 a1 a2 a3) := by
  unfold execVcdDoorbell
  try dsimp only
  repeat' first
    | with_reducible assumption
    | with_reducible refine keeps_done ?_
    | with_reducible refine keeps_regWrite (fun _ _ _ => ?_) ?_
    | with_reducible refine keeps_sesDoorbell ?_
    | with_reducible refine KeepsR.mk ?_
    | with_reducible refine KeepsR.ite (fun _ => ?_) fun _ => ?_
    | split

theorem keeps_engineFree {w : Bool} {s0 a1 : State} {a0} (h0 : Keeps w s0 a1) : Keeps w s0 (engineFree a0 a1) := by
  unfold engineFree
  try dsimp only
  repeat' first
    | with_reducible assumption
    | with_reducible refine keeps_clrBits ?_

theorem keeps_putPic {w : Bool} {s0 a2 : State} {a0 a1} (h0 : Keeps w s0 a2) : Keeps w s0 (putPic a0 a1 a2) := by
  unfold putPic
  try dsimp only
  repeat' first
    | with_reducible assumption
    | with_reducible refine keeps_setSes ?_
    | split

theorem keeps_sesRelease {w : Bool} {s0 a1 : State} {a0} (h0 : Keeps w s0 a1) : Keeps w s0 (sesRelease a0 a1) := by
  unfold sesRelease
  try dsimp only
  repeat' first
    | with_reducible assumption
    | with_reducible refine keeps_wr ?_
    | with_reducible refine keeps_setSes ?_
    | with_reducible refine keeps_sesEvent ?_
    | split

theorem keeps_endPic {w : Bool} {s0 a2 : State} {a0 a1} (h0 : Keeps w s0 a2) : Keeps w s0 (endPic a0 a1 a2) := by
  unfold endPic
  try dsimp only
  repeat' first
    | with_reducible assumption
    | with_reducible refine keeps_setSes ?_
    | with_reducible refine keeps_sesCloseDue ?_
    | with_reducible refine keeps_sesRelease ?_
    | split

theorem keeps_loseP {w : Bool} {s0 a2 : State} {a0 a1} (h0 : Keeps w s0 a2) : Keeps w s0 (loseP a0 a1 a2) := by
  unfold loseP
  try dsimp only
  repeat' first
    | with_reducible assumption
    | with_reducible refine keeps_record0 ?_
    | with_reducible refine keeps_setSes ?_
    | with_reducible refine keeps_engineFree ?_
    | with_reducible refine keeps_sesEvent ?_
    | with_reducible refine keeps_endPic ?_
    | with_reducible refine keeps_sesNotify ?_
    | with_reducible refine Keeps.foldl ?_ fun _ _ _ => ?_
    | split

theorem keeps_vcdEngineReset {w : Bool} {s0 a1 : State} {a0} (h0 : Keeps w s0 a1) : Keeps w s0 (vcdEngineReset a0 a1) := by
  unfold vcdEngineReset
  try dsimp only
  repeat' first
    | with_reducible assumption
    | with_reducible refine keeps_record0 ?_
    | with_reducible refine keeps_incWrap ?_
    | with_reducible refine keeps_engineFree ?_
    | with_reducible refine keeps_putPic ?_
    | with_reducible refine keeps_loseP ?_
    | with_reducible refine Keeps.ite (fun _ => ?_) fun _ => ?_
    | split

theorem keeps_execVcdEngReset {w : Bool} {s0 a3 : State} {a0 a1 a2} (h0 : Keeps w s0 a3) : KeepsR w s0 (execVcdEngReset a0 a1 a2 a3) := by
  unfold execVcdEngReset
  try dsimp only
  repeat' first
    | with_reducible assumption
    | with_reducible refine keeps_regWrite (fun _ _ _ => ?_) ?_
    | with_reducible refine keeps_vcdEngineReset ?_
    | with_reducible refine Keeps.foldl ?_ fun _ _ _ => ?_

theorem keeps_beginDecode {w : Bool} {s0 a4 : State} {a0 a1 a2 a3} (h0 : Keeps w s0 a4) : Keeps w s0 (beginDecode a0 a1 a2 a3 a4) := by
  unfold beginDecode
  try dsimp only
  repeat' first
    | with_reducible assumption
    | with_reducible refine keeps_wr ?_
    | with_reducible refine keeps_setSes ?_
    | with_reducible refine Keeps.idd ?_
    | split

theorem keeps_chooseUnit {w : Bool} {s0 a1 : State} {a0} (h0 : Keeps w s0 a1) : KeepsU w s0 (chooseUnit a0 a1) := by
  unfold chooseUnit
  try dsimp only
  repeat' first
    | with_reducible assumption
    | with_reducible refine KeepsU.mk ?_
    | with_reducible refine KeepsU.non
    | fail_if_no_progress with_reducible refine Keeps.upd ?_ rfl rfl rfl rfl
    | split

theorem keeps_keyRequest {w : Bool} {s0 a2 : State} {a0 a1} (h0 : Keeps w s0 a2) : Keeps w s0 (keyRequest a0 a1 a2) := by
  unfold keyRequest
  try dsimp only
  repeat' first
    | with_reducible assumption
    | with_reducible refine keeps_record0 ?_
    | with_reducible refine keeps_netSend ?_
    | with_reducible refine keeps_sesNotify ?_
    | with_reducible refine Keeps.ite (fun _ => ?_) fun _ => ?_
    | split

theorem keeps_countConcealed {w : Bool} {s0 a2 : State} {a0 a1} (h0 : Keeps w s0 a2) : Keeps w s0 (countConcealed a0 a1 a2) := by
  unfold countConcealed
  try dsimp only
  repeat' first
    | with_reducible assumption
    | with_reducible refine keeps_record0 ?_
    | with_reducible refine keeps_setSes ?_
    | with_reducible refine keeps_sesEvent ?_
    | with_reducible refine keeps_keyRequest ?_
    | with_reducible refine Keeps.ite (fun _ => ?_) fun _ => ?_
    | split

theorem keeps_decoded {w : Bool} {s0 a2 : State} {a0 a1} (h0 : Keeps w s0 a2) : Keeps w s0 (decoded a0 a1 a2) := by
  unfold decoded
  try dsimp only
  repeat' first
    | with_reducible assumption
    | with_reducible refine keeps_setSes ?_
    | with_reducible refine keeps_endPic ?_
    | with_reducible refine keeps_countConcealed ?_
    | split

theorem keeps_onSession {w : Bool} {s0 a2 : State} {a0 a1} (h0 : ∀ b0 b1 b2,  KeepsA w s0 (a1 b0 b1 b2)) (h1 : Keeps w s0 a2) : KeepsA w s0 (onSession a0 a1 a2) := by
  unfold onSession
  try dsimp only
  repeat' first
    | with_reducible assumption
    | with_reducible apply h0
    | with_reducible refine keeps_no ?_
    | with_reducible refine KeepsA.ite (fun _ => ?_) fun _ => ?_
    | split

theorem keeps_vcdBindSlots {w : Bool} {s0 a1 : State} {a0} (h0 : Keeps w s0 a1) : KeepsA w s0 (vcdBindSlots a0 a1) := by
  unfold vcdBindSlots
  try dsimp only
  repeat' first
    | with_reducible assumption
    | with_reducible refine keeps_no ?_
    | with_reducible refine keeps_did ?_
    | with_reducible refine keeps_setSes ?_
    | with_reducible refine keeps_onSession (fun _ _ _  => ?_) ?_
    | with_reducible refine KeepsA.ite (fun _ => ?_) fun _ => ?_

theorem keeps_execVcdBindSlots {w : Bool} {s0 a1 : State} {a0} (h0 : Keeps w s0 a1) : KeepsR w s0 (execVcdBindSlots a0 a1) := by
  unfold execVcdBindSlots
  try dsimp only
  repeat' first
    | with_reducible assumption
    | with_reducible refine keeps_done ?_
    | with_reducible refine keeps_serve (fun _ _ _ => ?_) ?_
    | with_reducible refine keeps_vcdBindSlots ?_

theorem keeps_vcdClose {w : Bool} {s0 a1 : State} {a0} (h0 : Keeps w s0 a1) : KeepsA w s0 (vcdClose a0 a1) := by
  unfold vcdClose
  try dsimp only
  repeat' first
    | with_reducible assumption
    | with_reducible refine keeps_no ?_
    | with_reducible refine keeps_setSes ?_
    | with_reducible refine keeps_sesCloseDue ?_
    | with_reducible refine keeps_pend ?_ (fun _ _ => ?_)
    | with_reducible refine keeps_onSession (fun _ _ _  => ?_) ?_
    | with_reducible refine KeepsA.ite (fun _ => ?_) fun _ => ?_

theorem keeps_execVcdClose {w : Bool} {s0 a1 : State} {a0} (h0 : Keeps w s0 a1) : KeepsR w s0 (execVcdClose a0 a1) := by
  unfold execVcdClose
  try dsimp only
  repeat' first
    | with_reducible assumption
    | with_reducible refine keeps_done ?_
    | with_reducible refine keeps_serve (fun _ _ _ => ?_) ?_
    | with_reducible refine keeps_vcdClose ?_

theorem keeps_vcdGetInfo {w : Bool} {s0 a1 : State} {a0} (h0 : Keeps w s0 a1) : KeepsA w s0 (vcdGetInfo a0 a1) := by
  unfold vcdGetInfo
  try dsimp only
  repeat' first
    | with_reducible assumption
    | with_reducible refine keeps_okR ?_

theorem keeps_execVcdGetInfo {w : Bool} {s0 a1 : State} {a0} (h0 : Keeps w s0 a1) : KeepsR w s0 (execVcdGetInfo a0 a1) := by
  unfold execVcdGetInfo
  try dsimp only
  repeat' first
    | with_reducible assumption
    | with_reducible refine keeps_done ?_
    | with_reducible refine keeps_serve (fun _ _ _ => ?_) ?_
    | with_reducible refine keeps_vcdGetInfo ?_

theorem keeps_vcdGetSession {w : Bool} {s0 a1 : State} {a0} (h0 : Keeps w s0 a1) : KeepsA w s0 (vcdGetSession a0 a1) := by
  unfold vcdGetSession
  try dsimp only
  repeat' first
    | with_reducible assumption
    | with_reducible refine keeps_okR ?_
    | with_reducible refine keeps_no ?_
    | with_reducible refine KeepsA.ite (fun _ => ?_) fun _ => ?_

theorem keeps_execVcdGetSession {w : Bool} {s0 a1 : State} {a0} (h0 : Keeps w s0 a1) : KeepsR w s0 (execVcdGetSession a0 a1) := by
  unfold execVcdGetSession
  try dsimp only
  repeat' first
    | with_reducible assumption
    | with_reducible refine keeps_done ?_
    | with_reducible refine keeps_serve (fun _ _ _ => ?_) ?_
    | with_reducible refine keeps_vcdGetSession ?_

theorem keeps_vcdOpen {w : Bool} {s0 a2 : State} {a0 a1} (h0 : Keeps w s0 a2) : KeepsA w s0 (vcdOpen a0 a1 a2) := by
  unfold vcdOpen
  try dsimp only
  repeat' first
    | with_reducible assumption
    | with_reducible refine keeps_wr ?_
    | with_reducible refine keeps_no ?_
    | with_reducible refine keeps_did ?_
    | with_reducible refine keeps_setSes ?_
    | with_reducible refine KeepsA.ite (fun _ => ?_) fun _ => ?_
    | split

theorem keeps_execVcdOpenDecode {w : Bool} {s0 a1 : State} {a0} (h0 : Keeps w s0 a1) : KeepsR w s0 (execVcdOpenDecode a0 a1) := by
  unfold execVcdOpenDecode
  try dsimp only
  repeat' first
    | with_reducible assumption
    | with_reducible refine keeps_done ?_
    | with_reducible refine keeps_serve (fun _ _ _ => ?_) ?_
    | with_reducible refine keeps_vcdOpen ?_

theorem keeps_execVcdOpenEncode {w : Bool} {s0 a1 : State} {a0} (h0 : Keeps w s0 a1) : KeepsR w s0 (execVcdOpenEncode a0 a1) := by
  unfold execVcdOpenEncode
  try dsimp only
  repeat' first
    | with_reducible assumption
    | with_reducible refine keeps_done ?_
    | with_reducible refine keeps_serve (fun _ _ _ => ?_) ?_
    | with_reducible refine keeps_vcdOpen ?_

theorem keeps_execVcdPicWatchdog {w : Bool} {s0 a1 : State} {a0} (h0 : Keeps w s0 a1) : KeepsR w s0 (execVcdPicWatchdog a0 a1) := by
  unfold execVcdPicWatchdog
  try dsimp only
  repeat' first
    | with_reducible assumption
    | with_reducible refine keeps_done ?_
    | with_reducible refine keeps_advanceTo ?_
    | with_reducible refine keeps_loseP ?_
    | with_reducible refine KeepsR.mk ?_
    | split

theorem keeps_noteLateness {w : Bool} {s0 a2 : State} {a0 a1} (h0 : Keeps w s0 a2) : Keeps w s0 (noteLateness a0 a1 a2) := by
  unfold noteLateness
  try dsimp only
  repeat' first
    | with_reducible assumption
    | with_reducible refine keeps_setNet ?_

theorem keeps_queueToSlot {w : Bool} {s0 a4 : State} {a0 a1 a2 a3} (h0 : Keeps w s0 a4) : Keeps w s0 (queueToSlot a0 a1 a2 a3 a4) := by
  unfold queueToSlot
  try dsimp only
  repeat' first
    | with_reducible assumption
    | with_reducible refine keeps_record0 ?_
    | with_reducible refine keeps_setSlot ?_
    | with_reducible refine keeps_enqueue ?_
    | with_reducible refine Keeps.ite (fun _ => ?_) fun _ => ?_

theorem keeps_execVcdPictureOutput {w : Bool} {s0 a2 : State} {a0 a1} (h0 : Keeps w s0 a2) : KeepsR w s0 (execVcdPictureOutput a0 a1 a2) := by
  unfold execVcdPictureOutput
  try dsimp only
  repeat' first
    | with_reducible assumption
    | with_reducible refine keeps_done ?_
    | with_reducible refine keeps_setSes ?_
    | with_reducible refine keeps_noteLateness ?_
    | with_reducible refine keeps_queueToSlot ?_
    | with_reducible refine KeepsR.mk ?_
    | with_reducible refine Keeps.ite (fun _ => ?_) fun _ => ?_
    | with_reducible refine Keeps.foldl ?_ fun _ _ _ => ?_
    | split

theorem keeps_vcdRestart {w : Bool} {s0 a1 : State} {a0} (h0 : Keeps w s0 a1) : KeepsA w s0 (vcdRestart a0 a1) := by
  unfold vcdRestart
  try dsimp only
  repeat' first
    | with_reducible assumption
    | with_reducible refine keeps_no ?_
    | with_reducible refine keeps_did ?_
    | with_reducible refine keeps_setSes ?_
    | with_reducible refine keeps_sesRelease ?_
    | with_reducible refine keeps_onSession (fun _ _ _  => ?_) ?_
    | with_reducible refine KeepsA.ite (fun _ => ?_) fun _ => ?_

theorem keeps_execVcdRestart {w : Bool} {s0 a1 : State} {a0} (h0 : Keeps w s0 a1) : KeepsR w s0 (execVcdRestart a0 a1) := by
  unfold execVcdRestart
  try dsimp only
  repeat' first
    | with_reducible assumption
    | with_reducible refine keeps_done ?_
    | with_reducible refine keeps_serve (fun _ _ _ => ?_) ?_
    | with_reducible refine keeps_vcdRestart ?_

theorem keeps_vcdEngineFault {w : Bool} {s0 a1 : State} {a0} (h0 : Keeps w s0 a1) : Keeps w s0 (vcdEngineFault a0 a1) := by
  unfold vcdEngineFault
  try dsimp only
  repeat' first
    | with_reducible assumption
    | with_reducible refine keeps_orBits ?_
    | with_reducible refine keeps_recordReported ?_
    | with_reducible refine keeps_vcdEngineReset ?_
    | fail_if_no_progress with_reducible refine Keeps.upd ?_ rfl rfl rfl rfl
    | with_reducible refine Keeps.ite (fun _ => ?_) fun _ => ?_

theorem keeps_sesHalt {w : Bool} {s0 a1 : State} {a0} (h0 : Keeps w s0 a1) : Keeps w s0 (sesHalt a0 a1) := by
  unfold sesHalt
  try dsimp only
  repeat' first
    | with_reducible assumption
    | with_reducible refine keeps_setSes ?_
    | with_reducible refine keeps_engineFree ?_
    | with_reducible refine Keeps.foldl ?_ fun _ _ _ => ?_
    | split

theorem keeps_sesStop {w : Bool} {s0 a2 : State} {a0 a1} (h0 : Keeps w s0 a2) : Keeps w s0 (sesStop a0 a1 a2) := by
  unfold sesStop
  try dsimp only
  repeat' first
    | with_reducible assumption
    | with_reducible refine keeps_record0 ?_
    | with_reducible refine keeps_polFault ?_
    | with_reducible refine keeps_setSes ?_
    | with_reducible refine keeps_sesEvent ?_
    | with_reducible refine keeps_sesNotify ?_
    | with_reducible refine keeps_sesHalt ?_
    | split

theorem keeps_writeBlock {s0 : State} {a0 a1 a2 a3 a4} (h0 : KeepsP true s0 a4) : KeepsP true s0 (writeBlock a0 a1 a2 a3 a4) := by
  unfold writeBlock
  refine KeepsP.ite (fun _ => h0) fun _ => KeepsP.ite (fun _ => KeepsP.mk h0) fun _ => ?_
  extract_lets e b unit at_ h sh
  clear_value e b unit at_ h sh
  split
  next code bytes eq =>
    clear eq
    extract_lets rs1
    have h1 : KeepsP true s0 rs1 := KeepsP.foldl h0 fun u x h => by
      split
      · exact h
      · exact keeps_devWrite h
    clear_value rs1
    dsimp only
    refine KeepsP.ite (fun _ => h1) fun _ => ?_
    split
    · next eq => exact keeps_devWrite (KeepsP2.elim eq (keeps_devRead h1))
    · exact KeepsP.mk (KeepsP2.elim (by assumption) (keeps_devRead h1))

theorem keeps_readUnit {w : Bool} {s0 a3 : State} {a0 a1 a2} (h0 : Keeps w s0 a3) : KeepsP w s0 (readUnit a0 a1 a2 a3) := by
  unfold readUnit
  try dsimp only
  repeat' first
    | with_reducible assumption
    | with_reducible refine KeepsP2.snd (keeps_devRead ?_)
    | with_reducible refine KeepsP.mk ?_
    | split

theorem keeps_unitDone {s0 a5 : State} {a0 a1 a2 a3 a4} (h0 : Keeps true s0 a5) : Keeps true s0 (unitDone a0 a1 a2 a3 a4 a5) := by
  unfold unitDone
  split
  · exact h0
  · next v _ =>
    have h1 : KeepsP true s0 (a4.foldl (fun rs c => writeBlock a1 v a2.pool c rs) (readUnit a1 v a2 a5)) :=
      KeepsP.foldl (keeps_readUnit h0) fun _ _ h => keeps_writeBlock h
    extract_lets p1
    clear_value p1
    split
    · next e =>
      have h2 := KeepsP.elim e h1
      exact Keeps.ite (fun _ => keeps_decoded (keeps_putPic (keeps_engineFree h2))) fun _ => keeps_putPic (keeps_engineFree h2)
    · next e => exact keeps_sesStop (keeps_engineFree (KeepsP.elim e h1))

theorem keeps_execVcdUnitDone {s0 a2 : State} {a0 a1} (h0 : Keeps true s0 a2) : KeepsR true s0 (execVcdUnitDone a0 a1 a2) := by
  unfold execVcdUnitDone
  try dsimp only
  repeat' first
    | with_reducible assumption
    | with_reducible refine keeps_done ?_
    | with_reducible refine keeps_sesCloseDue ?_
    | with_reducible refine keeps_engineFree ?_
    | with_reducible refine keeps_vcdEngineFault ?_
    | with_reducible refine keeps_sesStop ?_
    | with_reducible refine keeps_unitDone ?_
    | with_reducible refine KeepsR.mk ?_
    | with_reducible refine KeepsR.ite (fun _ => ?_) fun _ => ?_
    | split

theorem keeps_starve {w : Bool} {s0 a1 : State} {a0} (h0 : Keeps w s0 a1) : Keeps w s0 (starve a0 a1) := by
  unfold starve
  try dsimp only
  repeat' first
    | with_reducible assumption
    | with_reducible refine keeps_wr ?_
    | with_reducible refine Keeps.ite (fun _ => ?_) fun _ => ?_
    | with_reducible refine Keeps.foldl ?_ fun _ _ _ => ?_
    | split

theorem keeps_startUnit {w : Bool} {s0 a4 : State} {a0 a1 a2 a3} (h0 : Keeps w s0 a4) : Keeps w s0 (startUnit a0 a1 a2 a3 a4) := by
  unfold startUnit
  try dsimp only
  repeat' first
    | with_reducible assumption
    | with_reducible refine keeps_orBits ?_
    | with_reducible refine keeps_putPic ?_
    | fail_if_no_progress with_reducible refine Keeps.upd ?_ rfl rfl rfl rfl

theorem keeps_startDecode {w : Bool} {s0 a2 : State} {a0 a1} (h0 : Keeps w s0 a2) : Keeps w s0 (startDecode a0 a1 a2) := by
  unfold startDecode
  try dsimp only
  repeat' first
    | with_reducible assumption
    | with_reducible refine keeps_beginDecode ?_
    | with_reducible refine keeps_sesStop ?_
    | with_reducible refine keeps_startUnit ?_
    | with_reducible refine Keeps.ite (fun _ => ?_) fun _ => ?_
    | split

theorem keeps_execVcdUnitStart {w : Bool} {s0 a2 : State} {a0 a1} (h0 : Keeps w s0 a2) : KeepsR w s0 (execVcdUnitStart a0 a1 a2) := by
  unfold execVcdUnitStart
  try dsimp only
  repeat' first
    | with_reducible assumption
    | with_reducible refine keeps_done ?_
    | with_reducible refine keeps_chooseUnit ?_
    | with_reducible refine keeps_starve ?_
    | with_reducible refine keeps_startDecode ?_
    | with_reducible refine KeepsR.mk ?_
    | with_reducible refine KeepsU.elim (by assumption) ?_
    | with_reducible refine KeepsR.ite (fun _ => ?_) fun _ => ?_
    | split

theorem keeps_sesStopIf {w : Bool} {s0 : State} {a0 a1} (h0 : KeepsP w s0 a1) : Keeps w s0 (sesStopIf a0 a1) := by
  unfold sesStopIf
  exact Keeps.ite (fun _ => h0) fun _ => keeps_sesStop h0

theorem keeps_vcdAbort {w : Bool} {s0 a1 : State} {a0} (h0 : Keeps w s0 a1) : Keeps w s0 (vcdAbort a0 a1) := by
  unfold vcdAbort
  try dsimp only
  repeat' first
    | with_reducible assumption
    | with_reducible refine keeps_sesHalt ?_
    | with_reducible refine Keeps.foldl ?_ fun _ _ _ => ?_

theorem keeps_vcdDramFailed {w : Bool} {s0 a0 : State} (h0 : Keeps w s0 a0) : Keeps w s0 (vcdDramFailed a0) := by
  unfold vcdDramFailed
  try dsimp only
  repeat' first
    | with_reducible assumption
    | with_reducible refine keeps_wr ?_
    | with_reducible refine keeps_setSes ?_
    | with_reducible refine keeps_sesEvent ?_
    | with_reducible refine keeps_sesNotify ?_
    | with_reducible refine keeps_sesHalt ?_
    | with_reducible refine Keeps.ite (fun _ => ?_) fun _ => ?_
    | with_reducible refine Keeps.foldl ?_ fun _ _ _ => ?_
    | split

theorem keeps_vcdReset {w : Bool} {s0 a1 : State} {a0} (h0 : Keeps w s0 a1) : Keeps w s0 (vcdReset a0 a1) := by
  unfold vcdReset
  try dsimp only
  repeat' first
    | with_reducible assumption
    | with_reducible refine keeps_wr ?_
    | with_reducible refine keeps_setSes ?_
    | with_reducible refine keeps_vcdAbort ?_
    | with_reducible refine Keeps.foldl ?_ fun _ _ _ => ?_
    | split

/-! ## Capture -/

theorem keeps_capGetInput {w : Bool} {s0 a1 : State} {a0} (h0 : Keeps w s0 a1) : KeepsA w s0 (capGetInput a0 a1) := by
  unfold capGetInput
  try dsimp only
  repeat' first
    | with_reducible assumption
    | with_reducible refine keeps_okR ?_
    | with_reducible refine KeepsA.ite (fun _ => ?_) fun _ => ?_

theorem keeps_capStop {w : Bool} {s0 a1 : State} {a0} (h0 : Keeps w s0 a1) : Keeps w s0 (capStop a0 a1) := by
  unfold capStop
  try dsimp only
  repeat' first
    | with_reducible assumption
    | with_reducible refine keeps_wr ?_
    | with_reducible refine keeps_record0 ?_
    | with_reducible refine keeps_raiseLine ?_
    | with_reducible refine keeps_notifyPairs ?_

theorem keeps_capReset {w : Bool} {s0 a1 : State} {a0} (h0 : Keeps w s0 a1) : Keeps w s0 (capReset a0 a1) := by
  unfold capReset
  try dsimp only
  repeat' first
    | with_reducible assumption
    | with_reducible refine keeps_capStop ?_
    | with_reducible refine Keeps.ite (fun _ => ?_) fun _ => ?_
    | with_reducible refine Keeps.foldl ?_ fun _ _ _ => ?_

theorem keeps_capSetInput {w : Bool} {s0 a1 : State} {a0} (h0 : Keeps w s0 a1) : KeepsA w s0 (capSetInput a0 a1) := by
  unfold capSetInput
  try dsimp only
  repeat' first
    | with_reducible assumption
    | with_reducible refine keeps_wr ?_
    | with_reducible refine keeps_wrB ?_
    | with_reducible refine keeps_no ?_
    | with_reducible refine keeps_did ?_
    | with_reducible refine keeps_takeEffect ?_
    | with_reducible refine KeepsA.ite (fun _ => ?_) fun _ => ?_
    | with_reducible refine Keeps.foldl ?_ fun _ _ _ => ?_

theorem keeps_capWrite {s0 a3 : State} {a0 a1 a2} (h0 : Keeps true s0 a3) : KeepsP true s0 (capWrite a0 a1 a2 a3) := by
  unfold capWrite
  try dsimp only
  repeat' first
    | with_reducible assumption
    | with_reducible refine keeps_tookFrees ?_
    | with_reducible refine KeepsP.snd (keeps_devWrite ?_)
    | with_reducible refine KeepsP.mk ?_
    | with_reducible refine KeepsP.snd (KeepsP.foldl ?_ fun _ _ _ => ?_)
    | split

theorem keeps_execCapGetInput {w : Bool} {s0 a1 : State} {a0} (h0 : Keeps w s0 a1) : KeepsR w s0 (execCapGetInput a0 a1) := by
  unfold execCapGetInput
  try dsimp only
  repeat' first
    | with_reducible assumption
    | with_reducible refine keeps_done ?_
    | with_reducible refine keeps_serve (fun _ _ _ => ?_) ?_
    | with_reducible refine keeps_capGetInput ?_

theorem keeps_execCapPictureDone {s0 a3 : State} {a0 a1 a2} (h0 : Keeps true s0 a3) : KeepsR true s0 (execCapPictureDone a0 a1 a2 a3) := by
  unfold execCapPictureDone
  try dsimp only
  repeat' first
    | with_reducible assumption
    | with_reducible refine keeps_wr ?_
    | with_reducible refine keeps_incSat ?_
    | with_reducible refine keeps_record0 ?_
    | with_reducible refine keeps_done ?_
    | with_reducible refine keeps_polFault ?_
    | with_reducible refine keeps_setSlot ?_
    | with_reducible refine keeps_enqueue ?_
    | with_reducible refine keeps_incWrap ?_
    | with_reducible refine keeps_capWrite ?_
    | with_reducible refine KeepsR.mk ?_
    | with_reducible refine KeepsP.elim (by assumption) ?_
    | with_reducible refine KeepsR.ite (fun _ => ?_) fun _ => ?_
    | split

theorem keeps_execCapSetInput {w : Bool} {s0 a1 : State} {a0} (h0 : Keeps w s0 a1) : KeepsR w s0 (execCapSetInput a0 a1) := by
  unfold execCapSetInput
  try dsimp only
  repeat' first
    | with_reducible assumption
    | with_reducible refine keeps_done ?_
    | with_reducible refine keeps_serve (fun _ _ _ => ?_) ?_
    | with_reducible refine keeps_capSetInput ?_

theorem keeps_execCapSignal {w : Bool} {s0 a2 : State} {a0 a1} (h0 : Keeps w s0 a2) : KeepsR w s0 (execCapSignal a0 a1 a2) := by
  unfold execCapSignal
  try dsimp only
  repeat' first
    | with_reducible assumption
    | with_reducible refine keeps_wr ?_
    | with_reducible refine keeps_done ?_
    | with_reducible refine keeps_wrB ?_
    | with_reducible refine keeps_capStop ?_
    | with_reducible refine Keeps.ite (fun _ => ?_) fun _ => ?_

/-! ## Memory -/

theorem keeps_wrAll {w : Bool} {s0 a2 : State} {a0 a1} (h0 : Keeps w s0 a2) : Keeps w s0 (wrAll a0 a1 a2) := by
  unfold wrAll
  try dsimp only
  repeat' first
    | with_reducible assumption
    | with_reducible refine keeps_wr ?_
    | with_reducible refine Keeps.foldl ?_ fun _ _ _ => ?_

theorem keeps_dramTemp {w : Bool} {s0 a1 : State} {a0} (h0 : Keeps w s0 a1) : Keeps w s0 (dramTemp a0 a1) := by
  unfold dramTemp
  try dsimp only
  repeat' first
    | with_reducible assumption
    | with_reducible refine keeps_wrAll ?_

theorem keeps_pumpRan {w : Bool} {s0 a2 : State} {a0 a1} (h0 : Keeps w s0 a2) : Keeps w s0 (pumpRan a0 a1 a2) := by
  unfold pumpRan
  try dsimp only
  repeat' first
    | with_reducible assumption
    | with_reducible refine keeps_incSat ?_
    | with_reducible refine keeps_record0 ?_
    | with_reducible refine keeps_incWrap ?_
    | fail_if_no_progress with_reducible refine Keeps.upd ?_ rfl rfl rfl rfl
    | with_reducible refine Keeps.ite (fun _ => ?_) fun _ => ?_

theorem keeps_ocmUncorrectable {w : Bool} {s0 a2 : State} {a0 a1} (h0 : Keeps w s0 a2) : Keeps w s0 (ocmUncorrectable a0 a1 a2) := by
  unfold ocmUncorrectable
  try dsimp only
  repeat' first
    | with_reducible assumption
    | with_reducible refine keeps_wr ?_
    | with_reducible refine keeps_incSat ?_
    | with_reducible refine keeps_recordReported ?_
    | with_reducible refine keeps_poisonWord ?_

theorem keeps_ocmCorrected {w : Bool} {s0 a1 : State} {a0} (h0 : Keeps w s0 a1) : Keeps w s0 (ocmCorrected a0 a1) := by
  unfold ocmCorrected
  try dsimp only
  repeat' first
    | with_reducible assumption
    | with_reducible refine keeps_wr ?_
    | with_reducible refine keeps_incSat ?_
    | with_reducible refine keeps_record0 ?_
    | fail_if_no_progress with_reducible refine Keeps.upd ?_ rfl rfl rfl rfl

theorem keeps_closeRow {w : Bool} {s0 a2 : State} {a0 a1} (h0 : Keeps w s0 a2) : Keeps w s0 (closeRow a0 a1 a2) := by
  unfold closeRow
  try dsimp only
  repeat' first
    | with_reducible assumption
    | fail_if_no_progress with_reducible refine Keeps.upd ?_ rfl rfl rfl rfl

theorem keeps_crossed {w : Bool} {s0 a3 : State} {a0 a1 a2} (h0 : Keeps w s0 a3) : Keeps w s0 (crossed a0 a1 a2 a3) := by
  unfold crossed
  try dsimp only
  repeat' first
    | with_reducible assumption
    | with_reducible refine keeps_wr ?_
    | with_reducible refine keeps_record0 ?_
    | with_reducible refine keeps_orBits ?_
    | with_reducible refine keeps_closeRow ?_
    | fail_if_no_progress with_reducible refine Keeps.upd ?_ rfl rfl rfl rfl
    | with_reducible refine Keeps.ite (fun _ => ?_) fun _ => ?_

theorem keeps_activate {w : Bool} {s0 a2 : State} {a0 a1} (h0 : Keeps w s0 a2) : Keeps w s0 (activate a0 a1 a2) := by
  unfold activate
  try dsimp only
  repeat' first
    | with_reducible assumption
    | with_reducible refine keeps_crossed ?_
    | fail_if_no_progress with_reducible refine Keeps.upd ?_ rfl rfl rfl rfl
    | with_reducible refine Keeps.ite (fun _ => ?_) fun _ => ?_
    | split

theorem keeps_dramUncorrectable {w : Bool} {s0 a2 : State} {a0 a1} (h0 : Keeps w s0 a2) : Keeps w s0 (dramUncorrectable a0 a1 a2) := by
  unfold dramUncorrectable
  try dsimp only
  repeat' first
    | with_reducible assumption
    | with_reducible refine keeps_wr ?_
    | with_reducible refine keeps_incSat ?_
    | with_reducible refine keeps_recordReported ?_

theorem keeps_dramRetried {w : Bool} {s0 a1 : State} {a0} (h0 : Keeps w s0 a1) : Keeps w s0 (dramRetried a0 a1) := by
  unfold dramRetried
  try dsimp only
  repeat' first
    | with_reducible assumption
    | with_reducible refine keeps_incSat ?_
    | with_reducible refine keeps_record0 ?_
    | fail_if_no_progress with_reducible refine Keeps.upd ?_ rfl rfl rfl rfl

theorem keeps_passComplete {w : Bool} {s0 a1 : State} {a0} (h0 : Keeps w s0 a1) : Keeps w s0 (passComplete a0 a1) := by
  unfold passComplete
  try dsimp only
  repeat' first
    | with_reducible assumption
    | with_reducible refine keeps_dramTemp ?_
    | with_reducible refine keeps_incWrap ?_
    | with_reducible refine Keeps.foldl ?_ fun _ _ _ => ?_

theorem keeps_memDramState {w : Bool} {s0 a1 : State} {a0} (h0 : Keeps w s0 a1) : Keeps w s0 (memDramState a0 a1) := by
  unfold memDramState
  try dsimp only
  repeat' first
    | with_reducible assumption
    | with_reducible refine keeps_notifyWardenAnd0 ?_

theorem keeps_closeRows {w : Bool} {s0 a1 : State} {a0} (h0 : Keeps w s0 a1) : Keeps w s0 (closeRows a0 a1) := by
  unfold closeRows
  try dsimp only
  repeat' first
    | with_reducible assumption
    | with_reducible refine keeps_closeRow ?_
    | with_reducible refine Keeps.foldl ?_ fun _ _ _ => ?_

theorem keeps_execDramPatrol {w : Bool} {s0 a1 : State} {a0} (h0 : Keeps w s0 a1) : KeepsR w s0 (execDramPatrol a0 a1) := by
  unfold execDramPatrol
  try dsimp only
  repeat' first
    | with_reducible assumption
    | with_reducible refine keeps_done ?_
    | with_reducible refine keeps_tookFree ?_
    | with_reducible refine keeps_pumpRan ?_
    | with_reducible refine keeps_dramUncorrectable ?_
    | with_reducible refine keeps_dramRetried ?_
    | with_reducible refine KeepsR.mk ?_
    | fail_if_no_progress with_reducible refine Keeps.upd ?_ rfl rfl rfl rfl
    | with_reducible refine Keeps.ite (fun _ => ?_) fun _ => ?_
    | with_reducible refine KeepsR.ite (fun _ => ?_) fun _ => ?_

theorem keeps_setDebt {w : Bool} {s0 a2 : State} {a0 a1} (h0 : Keeps w s0 a2) : Keeps w s0 (setDebt a0 a1 a2) := by
  unfold setDebt
  try dsimp only
  repeat' first
    | with_reducible assumption
    | with_reducible refine keeps_wr ?_

theorem keeps_refreshOne {w : Bool} {s0 a1 : State} {a0} (h0 : Keeps w s0 a1) : Keeps w s0 (refreshOne a0 a1) := by
  unfold refreshOne
  try dsimp only
  repeat' first
    | with_reducible assumption
    | with_reducible refine keeps_tookFree ?_
    | with_reducible refine keeps_closeRow ?_
    | with_reducible refine keeps_closeRows ?_
    | fail_if_no_progress with_reducible refine Keeps.upd ?_ rfl rfl rfl rfl
    | with_reducible refine Keeps.ite (fun _ => ?_) fun _ => ?_

theorem keeps_execDramRefresh {w : Bool} {s0 a1 : State} {a0} (h0 : Keeps w s0 a1) : KeepsR w s0 (execDramRefresh a0 a1) := by
  unfold execDramRefresh
  try dsimp only
  repeat' first
    | with_reducible assumption
    | with_reducible refine keeps_record0 ?_
    | with_reducible refine keeps_orBits ?_
    | with_reducible refine keeps_done ?_
    | with_reducible refine keeps_setDebt ?_
    | with_reducible refine keeps_refreshOne ?_
    | with_reducible refine KeepsR.mk ?_
    | with_reducible refine KeepsR.ite (fun _ => ?_) fun _ => ?_

theorem keeps_memGetInfo {w : Bool} {s0 a1 : State} {a0} (h0 : Keeps w s0 a1) : KeepsA w s0 (memGetInfo a0 a1) := by
  unfold memGetInfo
  try dsimp only
  repeat' first
    | with_reducible assumption
    | with_reducible refine keeps_okR ?_

theorem keeps_execMemGetInfo {w : Bool} {s0 a1 : State} {a0} (h0 : Keeps w s0 a1) : KeepsR w s0 (execMemGetInfo a0 a1) := by
  unfold execMemGetInfo
  try dsimp only
  repeat' first
    | with_reducible assumption
    | with_reducible refine keeps_done ?_
    | with_reducible refine keeps_serve (fun _ _ _ => ?_) ?_
    | with_reducible refine keeps_memGetInfo ?_

theorem keeps_memGetOcmRegion {w : Bool} {s0 a1 : State} {a0} (h0 : Keeps w s0 a1) : KeepsA w s0 (memGetOcmRegion a0 a1) := by
  unfold memGetOcmRegion
  try dsimp only
  repeat' first
    | with_reducible assumption
    | with_reducible refine keeps_okR ?_

theorem keeps_execMemGetOcmRegion {w : Bool} {s0 a1 : State} {a0} (h0 : Keeps w s0 a1) : KeepsR w s0 (execMemGetOcmRegion a0 a1) := by
  unfold execMemGetOcmRegion
  try dsimp only
  repeat' first
    | with_reducible assumption
    | with_reducible refine keeps_done ?_
    | with_reducible refine keeps_serve (fun _ _ _ => ?_) ?_
    | with_reducible refine keeps_memGetOcmRegion ?_

theorem keeps_memGetThrottle {w : Bool} {s0 a1 : State} {a0} (h0 : Keeps w s0 a1) : KeepsA w s0 (memGetThrottle a0 a1) := by
  unfold memGetThrottle
  try dsimp only
  repeat' first
    | with_reducible assumption
    | with_reducible refine keeps_okR ?_

theorem keeps_execMemGetThrottle {w : Bool} {s0 a1 : State} {a0} (h0 : Keeps w s0 a1) : KeepsR w s0 (execMemGetThrottle a0 a1) := by
  unfold execMemGetThrottle
  try dsimp only
  repeat' first
    | with_reducible assumption
    | with_reducible refine keeps_done ?_
    | with_reducible refine keeps_serve (fun _ _ _ => ?_) ?_
    | with_reducible refine keeps_memGetThrottle ?_

theorem keeps_setRegion {w : Bool} {s0 a5 : State} {a0 a1 a2 a3 a4} (h0 : Keeps w s0 a5) : Keeps w s0 (setRegion a0 a1 a2 a3 a4 a5) := by
  unfold setRegion
  try dsimp only
  repeat' first
    | with_reducible assumption
    | with_reducible refine keeps_wr ?_

theorem keeps_memSetOcmRegion {w : Bool} {s0 a1 : State} {a0} (h0 : Keeps w s0 a1) : KeepsA w s0 (memSetOcmRegion a0 a1) := by
  unfold memSetOcmRegion
  try dsimp only
  repeat' first
    | with_reducible assumption
    | with_reducible refine keeps_no ?_
    | with_reducible refine keeps_did ?_
    | with_reducible refine keeps_setRegion ?_
    | with_reducible refine KeepsA.ite (fun _ => ?_) fun _ => ?_

theorem keeps_execMemSetOcmRegion {w : Bool} {s0 a1 : State} {a0} (h0 : Keeps w s0 a1) : KeepsR w s0 (execMemSetOcmRegion a0 a1) := by
  unfold execMemSetOcmRegion
  try dsimp only
  repeat' first
    | with_reducible assumption
    | with_reducible refine keeps_done ?_
    | with_reducible refine keeps_serve (fun _ _ _ => ?_) ?_
    | with_reducible refine keeps_memSetOcmRegion ?_

theorem keeps_memSetPasr {w : Bool} {s0 a1 : State} {a0} (h0 : Keeps w s0 a1) : KeepsA w s0 (memSetPasr a0 a1) := by
  unfold memSetPasr
  try dsimp only
  repeat' first
    | with_reducible assumption
    | with_reducible refine keeps_wr ?_
    | with_reducible refine keeps_no ?_
    | with_reducible refine keeps_did ?_
    | with_reducible refine KeepsA.ite (fun _ => ?_) fun _ => ?_

theorem keeps_execMemSetPasr {w : Bool} {s0 a1 : State} {a0} (h0 : Keeps w s0 a1) : KeepsR w s0 (execMemSetPasr a0 a1) := by
  unfold execMemSetPasr
  try dsimp only
  repeat' first
    | with_reducible assumption
    | with_reducible refine keeps_done ?_
    | with_reducible refine keeps_serve (fun _ _ _ => ?_) ?_
    | with_reducible refine keeps_memSetPasr ?_

theorem keeps_memSetRefresh {w : Bool} {s0 a1 : State} {a0} (h0 : Keeps w s0 a1) : KeepsA w s0 (memSetRefresh a0 a1) := by
  unfold memSetRefresh
  try dsimp only
  repeat' first
    | with_reducible assumption
    | with_reducible refine keeps_wr ?_
    | with_reducible refine keeps_no ?_
    | with_reducible refine keeps_did ?_
    | with_reducible refine KeepsA.ite (fun _ => ?_) fun _ => ?_

theorem keeps_execMemSetRefresh {w : Bool} {s0 a1 : State} {a0} (h0 : Keeps w s0 a1) : KeepsR w s0 (execMemSetRefresh a0 a1) := by
  unfold execMemSetRefresh
  try dsimp only
  repeat' first
    | with_reducible assumption
    | with_reducible refine keeps_done ?_
    | with_reducible refine keeps_serve (fun _ _ _ => ?_) ?_
    | with_reducible refine keeps_memSetRefresh ?_

theorem keeps_memSetRowhammer {w : Bool} {s0 a1 : State} {a0} (h0 : Keeps w s0 a1) : KeepsA w s0 (memSetRowhammer a0 a1) := by
  unfold memSetRowhammer
  try dsimp only
  repeat' first
    | with_reducible assumption
    | with_reducible refine keeps_wr ?_
    | with_reducible refine keeps_no ?_
    | with_reducible refine keeps_did ?_
    | with_reducible refine KeepsA.ite (fun _ => ?_) fun _ => ?_

theorem keeps_execMemSetRowhammer {w : Bool} {s0 a1 : State} {a0} (h0 : Keeps w s0 a1) : KeepsR w s0 (execMemSetRowhammer a0 a1) := by
  unfold execMemSetRowhammer
  try dsimp only
  repeat' first
    | with_reducible assumption
    | with_reducible refine keeps_done ?_
    | with_reducible refine keeps_serve (fun _ _ _ => ?_) ?_
    | with_reducible refine keeps_memSetRowhammer ?_

theorem keeps_memSetRtMasters {w : Bool} {s0 a1 : State} {a0} (h0 : Keeps w s0 a1) : KeepsA w s0 (memSetRtMasters a0 a1) := by
  unfold memSetRtMasters
  try dsimp only
  repeat' first
    | with_reducible assumption
    | with_reducible refine keeps_wr ?_
    | with_reducible refine keeps_did ?_

theorem keeps_execMemSetRtMasters {w : Bool} {s0 a1 : State} {a0} (h0 : Keeps w s0 a1) : KeepsR w s0 (execMemSetRtMasters a0 a1) := by
  unfold execMemSetRtMasters
  try dsimp only
  repeat' first
    | with_reducible assumption
    | with_reducible refine keeps_done ?_
    | with_reducible refine keeps_serve (fun _ _ _ => ?_) ?_
    | with_reducible refine keeps_memSetRtMasters ?_

theorem keeps_execOcmEccWriteback {w : Bool} {s0 a1 : State} {a0} (h0 : Keeps w s0 a1) : KeepsR w s0 (execOcmEccWriteback a0 a1) := by
  unfold execOcmEccWriteback
  try dsimp only
  repeat' first
    | with_reducible assumption
    | with_reducible refine KeepsR.mk ?_
    | fail_if_no_progress with_reducible refine Keeps.upd ?_ rfl rfl rfl rfl
    | split

theorem keeps_execOcmScrubPass {w : Bool} {s0 a0 : State} (h0 : Keeps w s0 a0) : KeepsR w s0 (execOcmScrubPass a0) := by
  unfold execOcmScrubPass
  try dsimp only
  repeat' first
    | with_reducible assumption
    | with_reducible refine keeps_wr ?_
    | with_reducible refine keeps_record0 ?_
    | with_reducible refine keeps_done ?_
    | with_reducible refine keeps_incWrap ?_
    | with_reducible refine keeps_pumpRan ?_
    | fail_if_no_progress with_reducible refine Keeps.upd ?_ rfl rfl rfl rfl

theorem keeps_execOcmScrubRead {w : Bool} {s0 a2 : State} {a0 a1} (h0 : Keeps w s0 a2) : KeepsR w s0 (execOcmScrubRead a0 a1 a2) := by
  unfold execOcmScrubRead
  try dsimp only
  repeat' first
    | with_reducible assumption
    | with_reducible refine keeps_wr ?_
    | with_reducible refine keeps_done ?_
    | with_reducible refine keeps_tookFree ?_
    | with_reducible refine keeps_ocmUncorrectable ?_
    | with_reducible refine keeps_ocmCorrected ?_
    | fail_if_no_progress with_reducible refine Keeps.upd ?_ rfl rfl rfl rfl
    | with_reducible refine KeepsR.ite (fun _ => ?_) fun _ => ?_

theorem keeps_execRefreshWindowStart {w : Bool} {s0 a0 : State} (h0 : Keeps w s0 a0) : KeepsR w s0 (execRefreshWindowStart a0) := by
  unfold execRefreshWindowStart
  try dsimp only
  repeat' first
    | with_reducible assumption
    | with_reducible refine keeps_advanceTo ?_
    | with_reducible refine keeps_wrAll ?_
    | with_reducible refine KeepsR.mk ?_
    | fail_if_no_progress with_reducible refine Keeps.upd ?_ rfl rfl rfl rfl
    | with_reducible refine KeepsR.ite (fun _ => ?_) fun _ => ?_

theorem keeps_execRetrainStep {w : Bool} {s0 a2 : State} {a0 a1} (h0 : Keeps w s0 a2) : KeepsR w s0 (execRetrainStep a0 a1 a2) := by
  unfold execRetrainStep
  try dsimp only
  repeat' first
    | with_reducible assumption
    | with_reducible refine keeps_done ?_
    | with_reducible refine keeps_pumpRan ?_
    | with_reducible refine keeps_passComplete ?_
    | with_reducible refine keeps_closeRows ?_
    | with_reducible refine KeepsR.mk ?_
    | fail_if_no_progress with_reducible refine Keeps.upd ?_ rfl rfl rfl rfl
    | with_reducible refine KeepsR.ite (fun _ => ?_) fun _ => ?_

theorem keeps_refreshMany {w : Bool} {s0 a2 : State} {a0 a1} (h0 : Keeps w s0 a2) : Keeps w s0 (refreshMany a0 a1 a2) := by
  induction a0 generalizing a2 with
  | zero => exact h0
  | succ n ih => exact ih (keeps_refreshOne h0)

theorem keeps_execUrgentFlagChange {w : Bool} {s0 a3 : State} {a0 a1 a2} (h0 : Keeps w s0 a3) : KeepsR w s0 (execUrgentFlagChange a0 a1 a2 a3) := by
  unfold execUrgentFlagChange
  try dsimp only
  repeat' first
    | with_reducible assumption
    | with_reducible refine keeps_orBits ?_
    | with_reducible refine keeps_clrBits ?_
    | with_reducible refine keeps_setDebt ?_
    | with_reducible refine keeps_refreshMany ?_
    | with_reducible refine KeepsR.mk ?_
    | fail_if_no_progress with_reducible refine Keeps.upd ?_ rfl rfl rfl rfl
    | with_reducible refine Keeps.ite (fun _ => ?_) fun _ => ?_
    | with_reducible refine KeepsR.ite (fun _ => ?_) fun _ => ?_

theorem keeps_execZqCalibration {w : Bool} {s0 a0 : State} (h0 : Keeps w s0 a0) : KeepsR w s0 (execZqCalibration a0) := by
  unfold execZqCalibration
  try dsimp only
  repeat' first
    | with_reducible assumption
    | with_reducible refine keeps_done ?_
    | with_reducible refine keeps_advanceTo ?_
    | with_reducible refine keeps_pumpRan ?_
    | with_reducible refine KeepsR.mk ?_
    | fail_if_no_progress with_reducible refine Keeps.upd ?_ rfl rfl rfl rfl
    | with_reducible refine KeepsR.ite (fun _ => ?_) fun _ => ?_

/-! ## Haptics -/

theorem keeps_hapEnter {w : Bool} {s0 a2 : State} {a0 a1} (h0 : Keeps w s0 a2) : Keeps w s0 (hapEnter a0 a1 a2) := by
  unfold hapEnter
  try dsimp only
  repeat' first
    | with_reducible assumption
    | with_reducible refine keeps_wr ?_

theorem keeps_hapEnded {w : Bool} {s0 a2 : State} {a0 a1} (h0 : Keeps w s0 a2) : Keeps w s0 (hapEnded a0 a1 a2) := by
  unfold hapEnded
  try dsimp only
  repeat' first
    | with_reducible assumption
    | with_reducible refine keeps_record0 ?_
    | with_reducible refine keeps_orBits ?_
    | with_reducible refine keeps_raiseLine ?_

theorem keeps_hapDropped {w : Bool} {s0 a2 : State} {a0 a1} (h0 : Keeps w s0 a2) : Keeps w s0 (hapDropped a0 a1 a2) := by
  unfold hapDropped
  try dsimp only
  repeat' first
    | with_reducible assumption
    | with_reducible refine keeps_record0 ?_
    | with_reducible refine keeps_orBits ?_
    | with_reducible refine keeps_raiseLine ?_

theorem keeps_hapPendStat {w : Bool} {s0 a2 : State} {a0 a1} (h0 : Keeps w s0 a2) : Keeps w s0 (hapPendStat a0 a1 a2) := by
  unfold hapPendStat
  try dsimp only
  repeat' first
    | with_reducible assumption
    | with_reducible refine keeps_wr ?_
    | with_reducible refine keeps_wrB ?_

theorem keeps_setHap {w : Bool} {s0 a2 : State} {a0 a1} (h0 : Keeps w s0 a2) : Keeps w s0 (setHap a0 a1 a2) := by
  unfold setHap
  try dsimp only
  repeat' first
    | with_reducible assumption
    | fail_if_no_progress with_reducible refine Keeps.upd ?_ rfl rfl rfl rfl

theorem keeps_hapClear {w : Bool} {s0 a1 : State} {a0} (h0 : Keeps w s0 a1) : Keeps w s0 (hapClear a0 a1) := by
  unfold hapClear
  try dsimp only
  repeat' first
    | with_reducible assumption
    | with_reducible refine keeps_wr ?_
    | with_reducible refine keeps_hapEnded ?_
    | with_reducible refine keeps_hapDropped ?_
    | with_reducible refine keeps_hapPendStat ?_
    | with_reducible refine keeps_setHap ?_
    | split

theorem keeps_hapStart {w : Bool} {s0 a3 : State} {a0 a1 a2} (h0 : Keeps w s0 a3) : Keeps w s0 (hapStart a0 a1 a2 a3) := by
  unfold hapStart
  try dsimp only
  repeat' first
    | with_reducible assumption
    | with_reducible refine keeps_setHap ?_

theorem keeps_hapOutcome {w : Bool} {s0 a2 : State} {a0 a1} (h0 : Keeps w s0 a2) : KeepsP w s0 (hapOutcome a0 a1 a2) := by
  unfold hapOutcome
  try dsimp only
  repeat' first
    | with_reducible assumption
    | with_reducible refine keeps_hapDropped ?_
    | with_reducible refine keeps_hapPendStat ?_
    | with_reducible refine keeps_setHap ?_
    | with_reducible refine keeps_hapStart ?_
    | with_reducible refine KeepsP.mk ?_
    | split

theorem keeps_hapTrigger {w : Bool} {s0 a3 : State} {a0 a1 a2} (h0 : Keeps w s0 a3) : Keeps w s0 (hapTrigger a0 a1 a2 a3) := by
  unfold hapTrigger
  try dsimp only
  repeat' first
    | with_reducible assumption
    | with_reducible refine keeps_wr ?_
    | with_reducible refine KeepsP.snd (keeps_hapOutcome ?_)
    | split

theorem keeps_triggerWrite {w : Bool} {s0 a4 : State} {a0 a1 a2 a3} (h0 : Keeps w s0 a4) : Keeps w s0 (triggerWrite a0 a1 a2 a3 a4) := by
  unfold triggerWrite
  try dsimp only
  repeat' first
    | with_reducible assumption
    | with_reducible refine keeps_violateAt ?_
    | with_reducible refine keeps_hapTrigger ?_
    | with_reducible refine Keeps.ite (fun _ => ?_) fun _ => ?_

theorem keeps_execHapTrigger {w : Bool} {s0 a3 : State} {a0 a1 a2} (h0 : Keeps w s0 a3) : KeepsR w s0 (execHapTrigger a0 a1 a2 a3) := by
  unfold execHapTrigger
  try dsimp only
  repeat' first
    | with_reducible assumption
    | with_reducible refine keeps_regWrite (fun _ _ _ => ?_) ?_
    | with_reducible refine keeps_triggerWrite ?_

theorem keeps_clearEffects {w : Bool} {s0 a1 : State} {a0} (h0 : Keeps w s0 a1) : Keeps w s0 (clearEffects a0 a1) := by
  unfold clearEffects
  try dsimp only
  repeat' first
    | with_reducible assumption
    | with_reducible refine keeps_wr ?_
    | with_reducible refine keeps_writeFlds ?_
    | with_reducible refine Keeps.foldl ?_ fun _ _ _ => ?_

theorem keeps_execHapBrakeEnd {w : Bool} {s0 a1 : State} {a0} (h0 : Keeps w s0 a1) : KeepsR w s0 (execHapBrakeEnd a0 a1) := by
  unfold execHapBrakeEnd
  try dsimp only
  repeat' first
    | with_reducible assumption
    | with_reducible refine keeps_done ?_
    | with_reducible refine keeps_advanceTo ?_
    | with_reducible refine keeps_hapEnter ?_
    | with_reducible refine keeps_hapPendStat ?_
    | with_reducible refine keeps_setHap ?_
    | with_reducible refine KeepsR.mk ?_
    | with_reducible refine Keeps.ite (fun _ => ?_) fun _ => ?_
    | with_reducible refine KeepsR.ite (fun _ => ?_) fun _ => ?_

theorem keeps_hapOverdrive {w : Bool} {s0 a1 : State} {a0} (h0 : Keeps w s0 a1) : Keeps w s0 (hapOverdrive a0 a1) := by
  unfold hapOverdrive
  try dsimp only
  repeat' first
    | with_reducible assumption
    | with_reducible refine keeps_setHap ?_

theorem keeps_hapBegin {w : Bool} {s0 a1 : State} {a0} (h0 : Keeps w s0 a1) : Keeps w s0 (hapBegin a0 a1) := by
  unfold hapBegin
  try dsimp only
  repeat' first
    | with_reducible assumption
    | with_reducible refine keeps_wr ?_
    | with_reducible refine keeps_record0 ?_
    | with_reducible refine keeps_wrB ?_
    | with_reducible refine keeps_hapEnter ?_
    | with_reducible refine keeps_hapEnded ?_
    | with_reducible refine keeps_setHap ?_
    | with_reducible refine keeps_hapOverdrive ?_
    | with_reducible refine Keeps.ite (fun _ => ?_) fun _ => ?_
    | split

theorem keeps_hapFlags {w : Bool} {s0 a2 : State} {a0 a1} (h0 : Keeps w s0 a2) : Keeps w s0 (hapFlags a0 a1 a2) := by
  unfold hapFlags
  try dsimp only
  repeat' first
    | with_reducible assumption
    | with_reducible refine keeps_wr ?_
    | with_reducible refine keeps_setHap ?_
    | with_reducible refine Keeps.ite (fun _ => ?_) fun _ => ?_

theorem keeps_hapTrack {w : Bool} {s0 a1 : State} {a0} (h0 : Keeps w s0 a1) : Keeps w s0 (hapTrack a0 a1) := by
  unfold hapTrack
  try dsimp only
  repeat' first
    | with_reducible assumption
    | with_reducible refine keeps_wr ?_
    | with_reducible refine keeps_tookFrees ?_
    | with_reducible refine keeps_pumpRan ?_
    | fail_if_no_progress with_reducible refine Keeps.upd ?_ rfl rfl rfl rfl
    | with_reducible refine Keeps.ite (fun _ => ?_) fun _ => ?_

theorem keeps_hapBrake {w : Bool} {s0 a1 : State} {a0} (h0 : Keeps w s0 a1) : Keeps w s0 (hapBrake a0 a1) := by
  unfold hapBrake
  try dsimp only
  repeat' first
    | with_reducible assumption
    | with_reducible refine keeps_wr ?_
    | with_reducible refine keeps_hapEnter ?_
    | with_reducible refine keeps_setHap ?_

theorem keeps_hapWave {w : Bool} {s0 a1 : State} {a0} (h0 : Keeps w s0 a1) : KeepsP w s0 (hapWave a0 a1) := by
  unfold hapWave
  try dsimp only
  repeat' first
    | with_reducible assumption
    | with_reducible refine keeps_devRead ?_
    | with_reducible refine keeps_polFault ?_
    | with_reducible refine keeps_hapEnded ?_
    | with_reducible refine keeps_setHap ?_
    | with_reducible refine keeps_hapBrake ?_
    | with_reducible refine KeepsP.mk ?_
    | with_reducible refine KeepsP2.elim (by assumption) ?_
    | split

theorem keeps_hapDrive {w : Bool} {s0 a1 : State} {a0} (h0 : Keeps w s0 a1) : Keeps w s0 (hapDrive a0 a1) := by
  unfold hapDrive
  try dsimp only
  repeat' first
    | with_reducible assumption
    | with_reducible refine keeps_tookFree ?_
    | with_reducible refine keeps_hapEnter ?_
    | with_reducible refine keeps_setHap ?_
    | with_reducible refine keeps_hapOverdrive ?_
    | with_reducible refine keeps_hapBrake ?_
    | with_reducible refine KeepsP.snd (keeps_hapWave ?_)
    | with_reducible refine Keeps.ite (fun _ => ?_) fun _ => ?_

theorem keeps_execHapControlSample {w : Bool} {s0 a3 : State} {a0 a1 a2} (h0 : Keeps w s0 a3) : KeepsR w s0 (execHapControlSample a0 a1 a2 a3) := by
  unfold execHapControlSample
  try dsimp only
  repeat' first
    | with_reducible assumption
    | with_reducible refine keeps_wr ?_
    | with_reducible refine keeps_done ?_
    | with_reducible refine keeps_advanceTo ?_
    | with_reducible refine keeps_setHap ?_
    | with_reducible refine keeps_hapBegin ?_
    | with_reducible refine keeps_hapFlags ?_
    | with_reducible refine keeps_hapTrack ?_
    | with_reducible refine keeps_hapDrive ?_
    | with_reducible refine KeepsR.mk ?_
    | with_reducible refine KeepsR.ite (fun _ => ?_) fun _ => ?_

theorem keeps_hapGetChannel {w : Bool} {s0 a1 : State} {a0} (h0 : Keeps w s0 a1) : KeepsA w s0 (hapGetChannel a0 a1) := by
  unfold hapGetChannel
  try dsimp only
  repeat' first
    | with_reducible assumption
    | with_reducible refine keeps_okR ?_

theorem keeps_execHapGetChannel {w : Bool} {s0 a1 : State} {a0} (h0 : Keeps w s0 a1) : KeepsR w s0 (execHapGetChannel a0 a1) := by
  unfold execHapGetChannel
  try dsimp only
  repeat' first
    | with_reducible assumption
    | with_reducible refine keeps_done ?_
    | with_reducible refine keeps_serve (fun _ _ _ => ?_) ?_
    | with_reducible refine keeps_hapGetChannel ?_

theorem keeps_hapNotify {w : Bool} {s0 a2 : State} {a0 a1} (h0 : Keeps w s0 a2) : Keeps w s0 (hapNotify a0 a1 a2) := by
  unfold hapNotify
  try dsimp only
  repeat' first
    | with_reducible assumption
    | with_reducible refine keeps_notifyPairs ?_

theorem keeps_execHapOvercurrent {w : Bool} {s0 a4 : State} {a0 a1 a2 a3} (h0 : Keeps w s0 a4) : KeepsR w s0 (execHapOvercurrent a0 a1 a2 a3 a4) := by
  unfold execHapOvercurrent
  try dsimp only
  repeat' first
    | with_reducible assumption
    | with_reducible refine keeps_wr ?_
    | with_reducible refine keeps_record0 ?_
    | with_reducible refine keeps_orBits ?_
    | with_reducible refine keeps_raiseLine ?_
    | with_reducible refine keeps_done ?_
    | with_reducible refine keeps_hapEnter ?_
    | with_reducible refine keeps_hapClear ?_
    | with_reducible refine keeps_hapNotify ?_
    | with_reducible refine KeepsR.mk ?_
    | with_reducible refine KeepsR.ite (fun _ => ?_) fun _ => ?_

theorem keeps_execHapOverdriveEnd {w : Bool} {s0 a1 : State} {a0} (h0 : Keeps w s0 a1) : KeepsR w s0 (execHapOverdriveEnd a0 a1) := by
  unfold execHapOverdriveEnd
  try dsimp only
  repeat' first
    | with_reducible assumption
    | with_reducible refine keeps_advanceTo ?_
    | with_reducible refine keeps_setHap ?_
    | with_reducible refine KeepsR.mk ?_
    | split

theorem keeps_hapRestart {w : Bool} {s0 a1 : State} {a0} (h0 : Keeps w s0 a1) : KeepsA w s0 (hapRestart a0 a1) := by
  unfold hapRestart
  try dsimp only
  repeat' first
    | with_reducible assumption
    | with_reducible refine keeps_no ?_
    | with_reducible refine keeps_did ?_
    | with_reducible refine keeps_hapEnter ?_
    | with_reducible refine KeepsA.ite (fun _ => ?_) fun _ => ?_

theorem keeps_execHapRestart {w : Bool} {s0 a1 : State} {a0} (h0 : Keeps w s0 a1) : KeepsR w s0 (execHapRestart a0 a1) := by
  unfold execHapRestart
  try dsimp only
  repeat' first
    | with_reducible assumption
    | with_reducible refine keeps_done ?_
    | with_reducible refine keeps_serve (fun _ _ _ => ?_) ?_
    | with_reducible refine keeps_hapRestart ?_

theorem keeps_execHapSenseLost {w : Bool} {s0 a1 : State} {a0} (h0 : Keeps w s0 a1) : KeepsR w s0 (execHapSenseLost a0 a1) := by
  unfold execHapSenseLost
  try dsimp only
  repeat' first
    | with_reducible assumption
    | with_reducible refine keeps_wr ?_
    | with_reducible refine keeps_record0 ?_
    | with_reducible refine keeps_done ?_
    | with_reducible refine keeps_hapNotify ?_
    | with_reducible refine KeepsR.mk ?_
    | with_reducible refine KeepsR.ite (fun _ => ?_) fun _ => ?_

theorem keeps_hapSetChannel {w : Bool} {s0 a1 : State} {a0} (h0 : Keeps w s0 a1) : KeepsA w s0 (hapSetChannel a0 a1) := by
  unfold hapSetChannel
  try dsimp only
  repeat' first
    | with_reducible assumption
    | with_reducible refine keeps_no ?_
    | with_reducible refine keeps_did ?_
    | with_reducible refine keeps_takeEffect ?_
    | with_reducible refine keeps_writeFlds ?_
    | with_reducible refine keeps_hapEnter ?_
    | with_reducible refine keeps_hapClear ?_
    | with_reducible refine Keeps.ite (fun _ => ?_) fun _ => ?_
    | with_reducible refine KeepsA.ite (fun _ => ?_) fun _ => ?_
    | with_reducible refine Keeps.foldl ?_ fun _ _ _ => ?_

theorem keeps_execHapSetChannel {w : Bool} {s0 a1 : State} {a0} (h0 : Keeps w s0 a1) : KeepsR w s0 (execHapSetChannel a0 a1) := by
  unfold execHapSetChannel
  try dsimp only
  repeat' first
    | with_reducible assumption
    | with_reducible refine keeps_done ?_
    | with_reducible refine keeps_serve (fun _ _ _ => ?_) ?_
    | with_reducible refine keeps_hapSetChannel ?_

theorem keeps_hapReset {w : Bool} {s0 a1 : State} {a0} (h0 : Keeps w s0 a1) : Keeps w s0 (hapReset a0 a1) := by
  unfold hapReset
  try dsimp only
  repeat' first
    | with_reducible assumption
    | with_reducible refine keeps_hapClear ?_
    | with_reducible refine keeps_clearEffects ?_
    | with_reducible refine keeps_hapBrake ?_
    | with_reducible refine Keeps.ite (fun _ => ?_) fun _ => ?_
    | with_reducible refine Keeps.foldl ?_ fun _ _ _ => ?_

end Sys2Proof.Machine
end

