-- ==== Sys2Proof/Laws/KeepsDisplay.lean ====
section
/-! SUPPORT. What the functions of touch, the dike-watch, scan-out and the time bases
keep of a state (Keeps): one lemma per function, each from those of the functions it calls. -/
namespace Sys2Proof.Machine

/-! ## Touch -/

theorem keeps_setTch {w : Bool} {s0 a2 : State} {a0 a1} (h0 : Keeps w s0 a2) : Keeps w s0 (setTch a0 a1 a2) := by
  unfold setTch
  try dsimp only
  repeat' first
    | with_reducible assumption
    | fail_if_no_progress with_reducible refine Keeps.upd ?_ rfl rfl rfl rfl

theorem keeps_queueCfg {w : Bool} {s0 a3 : State} {a0 a1 a2} (h0 : Keeps w s0 a3) : Keeps w s0 (queueCfg a0 a1 a2 a3) := by
  unfold queueCfg
  try dsimp only
  repeat' first
    | with_reducible assumption
    | with_reducible refine keeps_wr ?_
    | with_reducible refine keeps_takeEffect ?_
    | with_reducible refine Keeps.ite (fun _ => ?_) fun _ => ?_

theorem keeps_queueCfgWrite {w : Bool} {s0 a5 : State} {a0 a1 a2 a3 a4} (h0 : Keeps w s0 a5) : Keeps w s0 (queueCfgWrite a0 a1 a2 a3 a4 a5) := by
  unfold queueCfgWrite
  try dsimp only
  repeat' first
    | with_reducible assumption
    | with_reducible refine keeps_violateAt ?_
    | with_reducible refine keeps_queueCfg ?_
    | with_reducible refine Keeps.ite (fun _ => ?_) fun _ => ?_

theorem keeps_tchLeave {w : Bool} {s0 a2 : State} {a0 a1} (h0 : Keeps w s0 a2) : Keeps w s0 (tchLeave a0 a1 a2) := by
  unfold tchLeave
  try dsimp only
  repeat' first
    | with_reducible assumption
    | with_reducible refine keeps_wr ?_
    | with_reducible refine keeps_setTch ?_
    | fail_if_no_progress with_reducible refine Keeps.upd ?_ rfl rfl rfl rfl

theorem keeps_tchReset {w : Bool} {s0 a1 : State} {a0} (h0 : Keeps w s0 a1) : Keeps w s0 (tchReset a0 a1) := by
  unfold tchReset
  try dsimp only
  repeat' first
    | with_reducible assumption
    | with_reducible refine keeps_tchLeave ?_

theorem keeps_snapToDram {s0 a1 : State} {a0} (h0 : Keeps true s0 a1) : Keeps true s0 (snapToDram a0 a1) := by
  unfold snapToDram
  try dsimp only
  repeat' first
    | with_reducible assumption
    | with_reducible refine keeps_writeBytes ?_
    | with_reducible refine Keeps.ite (fun _ => ?_) fun _ => ?_

theorem keeps_tchStat {w : Bool} {s0 a1 : State} {a0} (h0 : Keeps w s0 a1) : Keeps w s0 (tchStat a0 a1) := by
  unfold tchStat
  try dsimp only
  repeat' first
    | with_reducible assumption
    | with_reducible refine keeps_wr ?_

theorem keeps_tchStop {w : Bool} {s0 a2 : State} {a0 a1} (h0 : Keeps w s0 a2) : Keeps w s0 (tchStop a0 a1 a2) := by
  unfold tchStop
  try dsimp only
  repeat' first
    | with_reducible assumption
    | with_reducible refine keeps_wr ?_
    | with_reducible refine keeps_setTch ?_
    | with_reducible refine keeps_tchStat ?_

theorem keeps_tchQuietEntry {w : Bool} {s0 a0 : State} (h0 : Keeps w s0 a0) : Keeps w s0 (tchQuietEntry a0) := by
  unfold tchQuietEntry
  try dsimp only
  repeat' first
    | with_reducible assumption
    | with_reducible refine keeps_wr ?_
    | with_reducible refine keeps_setTch ?_
    | with_reducible refine keeps_tchStop ?_
    | with_reducible refine Keeps.ite (fun _ => ?_) fun _ => ?_
    | with_reducible refine Keeps.foldl ?_ fun _ _ _ => ?_

theorem keeps_tchQuietExit {w : Bool} {s0 a0 : State} (h0 : Keeps w s0 a0) : Keeps w s0 (tchQuietExit a0) := by
  unfold tchQuietExit
  try dsimp only
  repeat' first
    | with_reducible assumption
    | with_reducible refine keeps_wr ?_
    | with_reducible refine Keeps.ite (fun _ => ?_) fun _ => ?_
    | with_reducible refine Keeps.foldl ?_ fun _ _ _ => ?_

theorem keeps_snapToFlash {w : Bool} {s0 a1 : State} {a0} (h0 : Keeps w s0 a1) : Keeps w s0 (snapToFlash a0 a1) := by
  unfold snapToFlash
  try dsimp only
  repeat' first
    | with_reducible assumption
    | with_reducible refine keeps_setTch ?_

theorem keeps_clickAll {w : Bool} {s0 a2 : State} {a0 a1} (h0 : Keeps w s0 a2) : Keeps w s0 (clickAll a0 a1 a2) := by
  unfold clickAll
  try dsimp only
  repeat' first
    | with_reducible assumption
    | with_reducible refine keeps_hapTrigger ?_
    | with_reducible refine Keeps.ite (fun _ => ?_) fun _ => ?_
    | with_reducible refine Keeps.foldl ?_ fun _ _ _ => ?_

theorem keeps_rebaseRecord {w : Bool} {s0 a3 : State} {a0 a1 a2} (h0 : Keeps w s0 a3) : Keeps w s0 (rebaseRecord a0 a1 a2 a3) := by
  unfold rebaseRecord
  try dsimp only
  repeat' first
    | with_reducible assumption
    | with_reducible refine keeps_record0 ?_
    | with_reducible refine keeps_recordSecure ?_
    | with_reducible refine Keeps.ite (fun _ => ?_) fun _ => ?_

theorem keeps_liftClusters {w : Bool} {s0 a0 : State} {a1 a2} (h0 : Keeps w s0 a0) : KeepsP w s0 (liftClusters a0 a1 a2) := by
  unfold liftClusters
  try dsimp only
  repeat' first
    | with_reducible assumption
    | with_reducible refine keeps_rebaseRecord ?_
    | with_reducible refine KeepsP.mk ?_
    | with_reducible refine KeepsP.snd (KeepsP.foldl ?_ fun _ _ _ => ?_)

theorem keeps_suspectStep {w : Bool} {s0 a4 : State} {a0 a1 a2 a3} (h0 : Keeps w s0 a4) : KeepsP2 w s0 (suspectStep a0 a1 a2 a3 a4) := by
  unfold suspectStep
  extract_lets val peaks pairs confirm clusterOf drop stepS
  have hd : ∀ x acc, Keeps w s0 acc.2 → Keeps w s0 (drop x acc).2 := by
    intro x acc h
    show Keeps w s0 (rebaseRecord a0 2 0 acc.2)
    exact keeps_rebaseRecord h
  have hs : ∀ acc x, Keeps w s0 acc.2.2.2 → Keeps w s0 (stepS acc x).2.2.2 := by
    rintro ⟨go, keep, v, s⟩ x h
    have hx : ∀ y, Keeps w s0 (drop y (v, s)).2 := fun y => hd y (v, s) h
    dsimp only [stepS]
    clear_value drop
    split
    · split
      · split
        · exact h
        · exact h
      · next e => exact KeepsP.elim rfl (hx _)
    · exact KeepsP.elim rfl (hx _)
  have hf : ∀ (l : List TchSuspect) acc, Keeps w s0 acc.2.2.2 → Keeps w s0 (l.foldl stepS acc).2.2.2 := by
    intro l
    induction l with
    | nil => exact fun _ h => h
    | cons x l ih => exact fun acc h => ih _ (hs acc x h)
  have h1 := hf a3.suspects ([], [], a3, a4) h0
  clear_value stepS
  split
  next go keep v1 s1 e =>
    rw [e] at h1
    refine KeepsP2.ite (fun _ => ?_) fun _ => KeepsP2.mk h1
    have h2 : ∀ l : List (List Nat), KeepsP w s0 (l.foldl (fun acc k => drop k acc) (v1, s1)) := fun l => KeepsP.foldl h1 fun u x h => hd x u h
    clear_value drop
    dsimp only
    exact KeepsP2.mk (h2 _)

theorem keeps_clusterFrame {w : Bool} {s0 a1 : State} {a0} (h0 : Keeps w s0 a1) : KeepsP w s0 (clusterFrame a0 a1) := by
  unfold clusterFrame
  try dsimp only
  repeat' first
    | with_reducible assumption
    | with_reducible refine keeps_setTch ?_
    | with_reducible refine KeepsP.snd (keeps_liftClusters ?_)
    | with_reducible refine KeepsP2.snd (keeps_suspectStep ?_)
    | with_reducible refine KeepsP.mk ?_

theorem keeps_contactEvent {w : Bool} {s0 a3 : State} {a0 a1 a2} (h0 : Keeps w s0 a3) : Keeps w s0 (contactEvent a0 a1 a2 a3) := by
  unfold contactEvent
  try dsimp only
  repeat' first
    | with_reducible assumption
    | with_reducible refine keeps_record0 ?_
    | with_reducible refine keeps_recordSecure ?_
    | with_reducible refine Keeps.ite (fun _ => ?_) fun _ => ?_

theorem keeps_queueWrite {s0 a3 : State} {a0 a1 a2} (h0 : Keeps true s0 a3) : Keeps true s0 (queueWrite a0 a1 a2 a3) := by
  unfold queueWrite
  try dsimp only
  repeat' first
    | with_reducible assumption
    | with_reducible refine keeps_wr ?_
    | with_reducible refine keeps_polFault ?_
    | with_reducible refine keeps_devWrite ?_
    | with_reducible refine KeepsP.elim (by assumption) ?_
    | split

theorem keeps_queueRecords {s0 a3 : State} {a0 a1 a2} (h0 : Keeps true s0 a3) : KeepsP true s0 (queueRecords a0 a1 a2 a3) := by
  unfold queueRecords
  try dsimp only
  repeat' first
    | with_reducible assumption
    | with_reducible refine keeps_incSat ?_
    | with_reducible refine keeps_record0 ?_
    | with_reducible refine keeps_raiseLine ?_
    | with_reducible refine keeps_queueWrite ?_
    | with_reducible refine KeepsP.mk ?_
    | fail_if_no_progress with_reducible refine Keeps.upd ?_ rfl rfl rfl rfl
    | with_reducible refine Keeps.ite (fun _ => ?_) fun _ => ?_
    | with_reducible refine KeepsP.snd (KeepsP.foldl ?_ fun _ _ _ => ?_)
    | split

theorem keeps_deliverReports {s0 a3 : State} {a0 a1 a2} (h0 : Keeps true s0 a3) : KeepsP true s0 (deliverReports a0 a1 a2 a3) := by
  unfold deliverReports
  try dsimp only
  repeat' first
    | with_reducible assumption
    | with_reducible refine KeepsP.snd (keeps_queueRecords ?_)
    | with_reducible refine KeepsP.mk ?_
    | with_reducible refine KeepsP.snd (KeepsP.foldl ?_ fun _ _ _ => ?_)

theorem keeps_tchCalibrate {w : Bool} {s0 a1 : State} {a0} (h0 : Keeps w s0 a1) : KeepsA w s0 (tchCalibrate a0 a1) := by
  unfold tchCalibrate
  try dsimp only
  repeat' first
    | with_reducible assumption
    | with_reducible refine keeps_no ?_
    | with_reducible refine keeps_setTch ?_
    | with_reducible refine keeps_pend ?_ (fun _ _ => ?_)
    | with_reducible refine KeepsA.ite (fun _ => ?_) fun _ => ?_
    | with_reducible refine Keeps.idd ?_

theorem keeps_execTchCalibrate {w : Bool} {s0 a1 : State} {a0} (h0 : Keeps w s0 a1) : KeepsR w s0 (execTchCalibrate a0 a1) := by
  unfold execTchCalibrate
  try dsimp only
  repeat' first
    | with_reducible assumption
    | with_reducible refine keeps_done ?_
    | with_reducible refine keeps_serve (fun _ _ _ => ?_) ?_
    | with_reducible refine keeps_tchCalibrate ?_

theorem keeps_execTchCalibrateDone {w : Bool} {s0 a1 : State} {a0} (h0 : Keeps w s0 a1) : KeepsR w s0 (execTchCalibrateDone a0 a1) := by
  unfold execTchCalibrateDone
  try dsimp only
  repeat' first
    | with_reducible assumption
    | with_reducible refine keeps_done ?_
    | with_reducible refine keeps_tookFrees ?_
    | with_reducible refine keeps_reply ?_
    | with_reducible refine keeps_setTch ?_
    | with_reducible refine KeepsR.mk ?_
    | split

theorem keeps_tchGetInfo {w : Bool} {s0 a1 : State} {a0} (h0 : Keeps w s0 a1) : KeepsA w s0 (tchGetInfo a0 a1) := by
  unfold tchGetInfo
  try dsimp only
  repeat' first
    | with_reducible assumption
    | with_reducible refine keeps_okR ?_

theorem keeps_execTchGetInfo {w : Bool} {s0 a1 : State} {a0} (h0 : Keeps w s0 a1) : KeepsR w s0 (execTchGetInfo a0 a1) := by
  unfold execTchGetInfo
  try dsimp only
  repeat' first
    | with_reducible assumption
    | with_reducible refine keeps_done ?_
    | with_reducible refine keeps_serve (fun _ _ _ => ?_) ?_
    | with_reducible refine keeps_tchGetInfo ?_

theorem keeps_tchGetNodes {s0 a1 : State} {a0} (h0 : Keeps true s0 a1) : KeepsA true s0 (tchGetNodes a0 a1) := by
  unfold tchGetNodes
  try dsimp only
  repeat' first
    | with_reducible assumption
    | with_reducible refine keeps_devPut ?_
    | with_reducible refine keeps_okR ?_
    | with_reducible refine keeps_no ?_
    | with_reducible refine KeepsA.ite (fun _ => ?_) fun _ => ?_

theorem keeps_execTchGetNodes {s0 a1 : State} {a0} (h0 : Keeps true s0 a1) : KeepsR true s0 (execTchGetNodes a0 a1) := by
  unfold execTchGetNodes
  try dsimp only
  repeat' first
    | with_reducible assumption
    | with_reducible refine keeps_done ?_
    | with_reducible refine keeps_serve (fun _ _ _ => ?_) ?_
    | with_reducible refine keeps_tchGetNodes ?_

theorem keeps_execTchLongContact {s0 a2 : State} {a0 a1} (h0 : Keeps true s0 a2) : KeepsR true s0 (execTchLongContact a0 a1 a2) := by
  unfold execTchLongContact
  try dsimp only
  repeat' first
    | with_reducible assumption
    | with_reducible refine keeps_done ?_
    | with_reducible refine keeps_advanceTo ?_
    | with_reducible refine keeps_setTch ?_
    | with_reducible refine keeps_contactEvent ?_
    | with_reducible refine KeepsP.snd (keeps_queueRecords ?_)
    | with_reducible refine KeepsR.mk ?_
    | with_reducible refine Keeps.ite (fun _ => ?_) fun _ => ?_
    | split

theorem keeps_execTchQueueEnable {w : Bool} {s0 a3 : State} {a0 a1 a2} (h0 : Keeps w s0 a3) : KeepsR w s0 (execTchQueueEnable a0 a1 a2 a3) := by
  unfold execTchQueueEnable
  try dsimp only
  repeat' first
    | with_reducible assumption
    | with_reducible refine keeps_regWrite (fun _ _ _ => ?_) ?_
    | with_reducible refine keeps_queueCfgWrite ?_

theorem keeps_tchRebaseline {w : Bool} {s0 a1 : State} {a0} (h0 : Keeps w s0 a1) : KeepsA w s0 (tchRebaseline a0 a1) := by
  unfold tchRebaseline
  try dsimp only
  repeat' first
    | with_reducible assumption
    | with_reducible refine keeps_did ?_
    | with_reducible refine keeps_setTch ?_

theorem keeps_execTchRebaseline {w : Bool} {s0 a1 : State} {a0} (h0 : Keeps w s0 a1) : KeepsR w s0 (execTchRebaseline a0 a1) := by
  unfold execTchRebaseline
  try dsimp only
  repeat' first
    | with_reducible assumption
    | with_reducible refine keeps_done ?_
    | with_reducible refine keeps_serve (fun _ _ _ => ?_) ?_
    | with_reducible refine keeps_tchRebaseline ?_

theorem keeps_tchSaveSnapshot {w : Bool} {s0 a1 : State} {a0} (h0 : Keeps w s0 a1) : KeepsA w s0 (tchSaveSnapshot a0 a1) := by
  unfold tchSaveSnapshot
  try dsimp only
  repeat' first
    | with_reducible assumption
    | with_reducible refine keeps_reply ?_
    | with_reducible refine keeps_pend ?_ (fun _ _ => ?_)
    | with_reducible refine keeps_snapToFlash ?_

theorem keeps_execTchSaveSnapshot {w : Bool} {s0 a1 : State} {a0} (h0 : Keeps w s0 a1) : KeepsR w s0 (execTchSaveSnapshot a0 a1) := by
  unfold execTchSaveSnapshot
  try dsimp only
  repeat' first
    | with_reducible assumption
    | with_reducible refine keeps_done ?_
    | with_reducible refine keeps_serve (fun _ _ _ => ?_) ?_
    | with_reducible refine keeps_tchSaveSnapshot ?_

theorem keeps_tchSetChannel {w : Bool} {s0 a1 : State} {a0} (h0 : Keeps w s0 a1) : KeepsA w s0 (tchSetChannel a0 a1) := by
  unfold tchSetChannel
  try dsimp only
  repeat' first
    | with_reducible assumption
    | with_reducible refine keeps_wr ?_
    | with_reducible refine keeps_no ?_
    | with_reducible refine keeps_did ?_
    | with_reducible refine keeps_takeEffect ?_
    | with_reducible refine keeps_writeFlds ?_
    | with_reducible refine keeps_tchStop ?_
    | with_reducible refine Keeps.ite (fun _ => ?_) fun _ => ?_
    | with_reducible refine KeepsA.ite (fun _ => ?_) fun _ => ?_
    | with_reducible refine Keeps.foldl ?_ fun _ _ _ => ?_

theorem keeps_execTchSetChannel {w : Bool} {s0 a1 : State} {a0} (h0 : Keeps w s0 a1) : KeepsR w s0 (execTchSetChannel a0 a1) := by
  unfold execTchSetChannel
  try dsimp only
  repeat' first
    | with_reducible assumption
    | with_reducible refine keeps_done ?_
    | with_reducible refine keeps_serve (fun _ _ _ => ?_) ?_
    | with_reducible refine keeps_tchSetChannel ?_

theorem keeps_tchSetClick {w : Bool} {s0 a1 : State} {a0} (h0 : Keeps w s0 a1) : KeepsA w s0 (tchSetClick a0 a1) := by
  unfold tchSetClick
  try dsimp only
  repeat' first
    | with_reducible assumption
    | with_reducible refine keeps_no ?_
    | with_reducible refine keeps_did ?_
    | fail_if_no_progress with_reducible refine Keeps.upd ?_ rfl rfl rfl rfl
    | with_reducible refine KeepsA.ite (fun _ => ?_) fun _ => ?_
    | split

theorem keeps_execTchSetClick {w : Bool} {s0 a1 : State} {a0} (h0 : Keeps w s0 a1) : KeepsR w s0 (execTchSetClick a0 a1) := by
  unfold execTchSetClick
  try dsimp only
  repeat' first
    | with_reducible assumption
    | with_reducible refine keeps_done ?_
    | with_reducible refine keeps_serve (fun _ _ _ => ?_) ?_
    | with_reducible refine keeps_tchSetClick ?_

theorem keeps_tchSetMap {w : Bool} {s0 a1 : State} {a0} (h0 : Keeps w s0 a1) : KeepsA w s0 (tchSetMap a0 a1) := by
  unfold tchSetMap
  try dsimp only
  repeat' first
    | with_reducible assumption
    | with_reducible refine keeps_wr ?_
    | with_reducible refine keeps_did ?_
    | with_reducible refine Keeps.foldl ?_ fun _ _ _ => ?_

theorem keeps_execTchSetMap {w : Bool} {s0 a1 : State} {a0} (h0 : Keeps w s0 a1) : KeepsR w s0 (execTchSetMap a0 a1) := by
  unfold execTchSetMap
  try dsimp only
  repeat' first
    | with_reducible assumption
    | with_reducible refine keeps_done ?_
    | with_reducible refine keeps_serve (fun _ _ _ => ?_) ?_
    | with_reducible refine keeps_tchSetMap ?_

theorem keeps_tchSetSlider {w : Bool} {s0 a1 : State} {a0} (h0 : Keeps w s0 a1) : KeepsA w s0 (tchSetSlider a0 a1) := by
  unfold tchSetSlider
  try dsimp only
  repeat' first
    | with_reducible assumption
    | with_reducible refine keeps_no ?_
    | with_reducible refine keeps_did ?_
    | with_reducible refine keeps_setTch ?_
    | with_reducible refine KeepsA.ite (fun _ => ?_) fun _ => ?_

theorem keeps_execTchSetSlider {w : Bool} {s0 a1 : State} {a0} (h0 : Keeps w s0 a1) : KeepsR w s0 (execTchSetSlider a0 a1) := by
  unfold execTchSetSlider
  try dsimp only
  repeat' first
    | with_reducible assumption
    | with_reducible refine keeps_done ?_
    | with_reducible refine keeps_serve (fun _ _ _ => ?_) ?_
    | with_reducible refine keeps_tchSetSlider ?_

theorem keeps_execTchStart {w : Bool} {s0 a1 : State} {a0} (h0 : Keeps w s0 a1) : KeepsR w s0 (execTchStart a0 a1) := by
  unfold execTchStart
  try dsimp only
  repeat' first
    | with_reducible assumption
    | with_reducible refine keeps_wr ?_
    | with_reducible refine keeps_done ?_
    | with_reducible refine keeps_wrB ?_
    | with_reducible refine keeps_setTch ?_
    | with_reducible refine keeps_tchStat ?_
    | with_reducible refine KeepsR.mk ?_
    | with_reducible refine KeepsR.ite (fun _ => ?_) fun _ => ?_

theorem keeps_execTchStuck {s0 a2 : State} {a0 a1} (h0 : Keeps true s0 a2) : KeepsR true s0 (execTchStuck a0 a1 a2) := by
  unfold execTchStuck
  try dsimp only
  repeat' first
    | with_reducible assumption
    | with_reducible refine keeps_done ?_
    | with_reducible refine keeps_advanceTo ?_
    | with_reducible refine keeps_setTch ?_
    | with_reducible refine keeps_tchStat ?_
    | with_reducible refine keeps_rebaseRecord ?_
    | with_reducible refine keeps_contactEvent ?_
    | with_reducible refine KeepsP.snd (keeps_queueRecords ?_)
    | with_reducible refine KeepsR.mk ?_
    | with_reducible refine Keeps.ite (fun _ => ?_) fun _ => ?_
    | with_reducible refine KeepsR.ite (fun _ => ?_) fun _ => ?_
    | split

theorem keeps_noiseStep {w : Bool} {s0 a2 : State} {a0 a1} (h0 : Keeps w s0 a2) : Keeps w s0 (noiseStep a0 a1 a2) := by
  unfold noiseStep
  try dsimp only
  repeat' first
    | with_reducible assumption
    | with_reducible refine keeps_wr ?_
    | with_reducible refine Keeps.foldl ?_ fun _ _ _ => ?_

theorem keeps_wakeFrame {s0 a2 : State} {a0 a1} (h0 : Keeps true s0 a2) : Keeps true s0 (wakeFrame a0 a1 a2) := by
  unfold wakeFrame
  try dsimp only
  repeat' first
    | with_reducible assumption
    | with_reducible refine keeps_setTch ?_
    | with_reducible refine KeepsP.snd (keeps_queueRecords ?_)
    | fail_if_no_progress with_reducible refine Keeps.upd ?_ rfl rfl rfl rfl
    | with_reducible refine Keeps.ite (fun _ => ?_) fun _ => ?_
    | split

theorem keeps_reportFrame {s0 a4 : State} {a0 a1 a2 a3} (h0 : Keeps true s0 a4) : Keeps true s0 (reportFrame a0 a1 a2 a3 a4) := by
  unfold reportFrame
  try dsimp only
  repeat' first
    | with_reducible assumption
    | with_reducible refine keeps_incSat ?_
    | with_reducible refine keeps_setTch ?_
    | with_reducible refine keeps_clickAll ?_
    | with_reducible refine KeepsP.snd (keeps_deliverReports ?_)
    | with_reducible refine Keeps.ite (fun _ => ?_) fun _ => ?_

theorem keeps_noiseMode {w : Bool} {s0 a2 : State} {a0 a1} (h0 : Keeps w s0 a2) : Keeps w s0 (noiseMode a0 a1 a2) := by
  unfold noiseMode
  try dsimp only
  repeat' first
    | with_reducible assumption
    | with_reducible refine keeps_record0 ?_
    | with_reducible refine keeps_notifyWardenAnd0 ?_
    | with_reducible refine keeps_wrB ?_

theorem keeps_hopTo {w : Bool} {s0 a2 : State} {a0 a1} (h0 : Keeps w s0 a2) : Keeps w s0 (hopTo a0 a1 a2) := by
  unfold hopTo
  try dsimp only
  repeat' first
    | with_reducible assumption
    | with_reducible refine keeps_wr ?_
    | with_reducible refine keeps_incSat ?_
    | with_reducible refine keeps_record0 ?_
    | with_reducible refine keeps_setTch ?_

theorem keeps_noiseEnd {w : Bool} {s0 a1 : State} {a0} (h0 : Keeps w s0 a1) : Keeps w s0 (noiseEnd a0 a1) := by
  unfold noiseEnd
  try dsimp only
  repeat' first
    | with_reducible assumption
    | with_reducible refine keeps_setTch ?_
    | with_reducible refine keeps_noiseMode ?_
    | with_reducible refine keeps_hopTo ?_
    | with_reducible refine Keeps.ite (fun _ => ?_) fun _ => ?_

theorem keeps_touchFrame {s0 a4 : State} {a0 a1 a2 a3} (h0 : Keeps true s0 a4) : Keeps true s0 (touchFrame a0 a1 a2 a3 a4) := by
  unfold touchFrame
  try dsimp only
  repeat' first
    | with_reducible assumption
    | with_reducible refine keeps_wr ?_
    | with_reducible refine keeps_incSat ?_
    | with_reducible refine keeps_record0 ?_
    | with_reducible refine keeps_incWrap ?_
    | with_reducible refine keeps_setTch ?_
    | with_reducible refine keeps_pumpRan ?_
    | with_reducible refine keeps_tchStat ?_
    | with_reducible refine keeps_noiseStep ?_
    | with_reducible refine keeps_wakeFrame ?_
    | with_reducible refine keeps_reportFrame ?_
    | with_reducible refine keeps_noiseEnd ?_
    | with_reducible refine KeepsP.snd (keeps_clusterFrame ?_)
    | with_reducible refine Keeps.ite (fun _ => ?_) fun _ => ?_
    | with_reducible refine Keeps.foldl ?_ fun _ _ _ => ?_

theorem keeps_execTouchFrame {s0 a4 : State} {a0 a1 a2 a3} (h0 : Keeps true s0 a4) : KeepsR true s0 (execTouchFrame a0 a1 a2 a3 a4) := by
  unfold execTouchFrame
  try dsimp only
  repeat' first
    | with_reducible assumption
    | with_reducible refine keeps_done ?_
    | with_reducible refine keeps_advanceTo ?_
    | with_reducible refine keeps_touchFrame ?_
    | with_reducible refine KeepsR.mk ?_
    | with_reducible refine KeepsR.ite (fun _ => ?_) fun _ => ?_

theorem keeps_execTouchWakeRecord {s0 a1 : State} {a0} (h0 : Keeps true s0 a1) : KeepsR true s0 (execTouchWakeRecord a0 a1) := by
  unfold execTouchWakeRecord
  try dsimp only
  repeat' first
    | with_reducible assumption
    | with_reducible refine keeps_done ?_
    | with_reducible refine keeps_setTch ?_
    | with_reducible refine KeepsP.snd (keeps_queueRecords ?_)
    | with_reducible refine KeepsR.mk ?_
    | with_reducible refine KeepsR.ite (fun _ => ?_) fun _ => ?_
    | split

/-! ## Clock -/

theorem keeps_setVlt {w : Bool} {s0 a1 : State} {a0} (h0 : Keeps w s0 a1) : Keeps w s0 (setVlt a0 a1) := by
  unfold setVlt
  try dsimp only
  repeat' first
    | with_reducible assumption
    | fail_if_no_progress with_reducible refine Keeps.upd ?_ rfl rfl rfl rfl

theorem keeps_vltWrite {w : Bool} {s0 a1 : State} {a0} (h0 : Keeps w s0 a1) : Keeps w s0 (vltWrite a0 a1) := by
  unfold vltWrite
  try dsimp only
  repeat' first
    | with_reducible assumption
    | with_reducible refine keeps_setVlt ?_
    | with_reducible refine Keeps.ite (fun _ => ?_) fun _ => ?_

theorem keeps_rtcSet {w : Bool} {s0 a1 : State} {a0} (h0 : Keeps w s0 a1) : Keeps w s0 (rtcSet a0 a1) := by
  unfold rtcSet
  try dsimp only
  repeat' first
    | with_reducible assumption
    | with_reducible refine keeps_record0 ?_
    | with_reducible refine keeps_setVlt ?_
    | with_reducible refine Keeps.ite (fun _ => ?_) fun _ => ?_

theorem keeps_rtcSync {w : Bool} {s0 a1 : State} {a0} (h0 : Keeps w s0 a1) : Keeps w s0 (rtcSync a0 a1) := by
  unfold rtcSync
  try dsimp only
  repeat' first
    | with_reducible assumption
    | with_reducible refine keeps_pumpRan ?_
    | with_reducible refine keeps_rtcSet ?_

theorem keeps_execRtcSync {w : Bool} {s0 a0 : State} (h0 : Keeps w s0 a0) : KeepsR w s0 (execRtcSync a0) := by
  unfold execRtcSync
  try dsimp only
  repeat' first
    | with_reducible assumption
    | with_reducible refine keeps_done ?_
    | with_reducible refine keeps_advanceTo ?_
    | with_reducible refine keeps_rtcSync ?_
    | with_reducible refine KeepsR.mk ?_
    | with_reducible refine KeepsR.ite (fun _ => ?_) fun _ => ?_

/-! ## PolderCheck -/

theorem keeps_claimBlocked {w : Bool} {s0 a3 : State} {a0 a1 a2} (h0 : Keeps w s0 a3) : Keeps w s0 (claimBlocked a0 a1 a2 a3) := by
  unfold claimBlocked
  try dsimp only
  repeat' first
    | with_reducible assumption
    | with_reducible refine keeps_record0 ?_

theorem keeps_fenceWrite {w : Bool} {s0 a1 : State} {a0} (h0 : Keeps w s0 a1) : Keeps w s0 (fenceWrite a0 a1) := by
  unfold fenceWrite
  try dsimp only
  repeat' first
    | with_reducible assumption
    | with_reducible refine keeps_wr ?_
    | with_reducible refine Keeps.ite (fun _ => ?_) fun _ => ?_

theorem keeps_modeChange {w : Bool} {s0 a1 : State} {a0} (h0 : Keeps w s0 a1) : Keeps w s0 (modeChange a0 a1) := by
  unfold modeChange
  try dsimp only
  repeat' first
    | with_reducible assumption
    | with_reducible refine keeps_recordReported ?_

theorem keeps_toTidemark {w : Bool} {s0 a0 : State} (h0 : Keeps w s0 a0) : Keeps w s0 (toTidemark a0) := by
  unfold toTidemark
  try dsimp only
  repeat' first
    | with_reducible assumption
    | with_reducible refine keeps_wr ?_
    | with_reducible refine keeps_modeChange ?_

theorem keeps_startMap {w : Bool} {s0 a0 : State} (h0 : Keeps w s0 a0) : Keeps w s0 (startMap a0) := by
  unfold startMap
  try dsimp only
  repeat' first
    | with_reducible assumption
    | with_reducible refine keeps_wr ?_
    | with_reducible refine keeps_takeEffect ?_

theorem keeps_modeCtrl {w : Bool} {s0 a1 : State} {a0} (h0 : Keeps w s0 a1) : Keeps w s0 (modeCtrl a0 a1) := by
  unfold modeCtrl
  try dsimp only
  repeat' first
    | with_reducible assumption
    | with_reducible refine keeps_fenceWrite ?_
    | with_reducible refine keeps_toTidemark ?_
    | with_reducible refine keeps_startMap ?_
    | with_reducible refine Keeps.ite (fun _ => ?_) fun _ => ?_

theorem keeps_execFenceNormalWrite {w : Bool} {s0 a3 : State} {a0 a1 a2} (h0 : Keeps w s0 a3) : KeepsR w s0 (execFenceNormalWrite a0 a1 a2 a3) := by
  unfold execFenceNormalWrite
  try dsimp only
  repeat' first
    | with_reducible assumption
    | with_reducible refine keeps_regWrite (fun _ _ _ => ?_) ?_
    | with_reducible refine keeps_modeCtrl ?_

theorem keeps_execPldTidemarkWrite {w : Bool} {s0 a3 : State} {a0 a1 a2} (h0 : Keeps w s0 a3) : KeepsR w s0 (execPldTidemarkWrite a0 a1 a2 a3) := by
  unfold execPldTidemarkWrite
  try dsimp only
  repeat' first
    | with_reducible assumption
    | with_reducible refine keeps_holdWord ?_
    | with_reducible refine keeps_violateAt ?_
    | with_reducible refine keeps_wr ?_
    | with_reducible refine keeps_regWrite (fun _ _ _ => ?_) ?_
    | with_reducible refine Keeps.ite (fun _ => ?_) fun _ => ?_

theorem keeps_execPldInvStart {w : Bool} {s0 a3 : State} {a0 a1 a2} (h0 : Keeps w s0 a3) : KeepsR w s0 (execPldInvStart a0 a1 a2 a3) := by
  unfold execPldInvStart
  try dsimp only
  repeat' first
    | with_reducible assumption
    | with_reducible refine keeps_wr ?_
    | with_reducible refine keeps_regWrite (fun _ _ _ => ?_) ?_
    | fail_if_no_progress with_reducible refine Keeps.upd ?_ rfl rfl rfl rfl

theorem keeps_execPldS2RootWrite {w : Bool} {s0 a3 : State} {a0 a1 a2} (h0 : Keeps w s0 a3) : KeepsR w s0 (execPldS2RootWrite a0 a1 a2 a3) := by
  unfold execPldS2RootWrite
  try dsimp only
  repeat' first
    | with_reducible assumption
    | with_reducible refine keeps_holdWord ?_
    | with_reducible refine keeps_violateAt ?_
    | with_reducible refine keeps_wr ?_
    | with_reducible refine keeps_regWrite (fun _ _ _ => ?_) ?_
    | with_reducible refine Keeps.ite (fun _ => ?_) fun _ => ?_

theorem keeps_execPldS2Inv {w : Bool} {s0 a3 : State} {a0 a1 a2} (h0 : Keeps w s0 a3) : KeepsR w s0 (execPldS2Inv a0 a1 a2 a3) := by
  unfold execPldS2Inv
  try dsimp only
  repeat' first
    | with_reducible assumption
    | with_reducible refine keeps_wr ?_
    | with_reducible refine keeps_regWrite (fun _ _ _ => ?_) ?_

theorem keeps_powerUpBlock {w : Bool} {s0 a1 : State} {a0} (h0 : Keeps w s0 a1) : Keeps w s0 (powerUpBlock a0 a1) := by
  unfold powerUpBlock
  try dsimp only
  repeat' first
    | with_reducible assumption
    | with_reducible refine keeps_orBits ?_
    | with_reducible refine keeps_clrBits ?_
    | split

theorem keeps_claimBit {w : Bool} {s0 a0 : State} {a1} (h0 : Keeps w s0 a0) : KeepsP w s0 (claimBit a0 a1) := by
  unfold claimBit
  try dsimp only
  repeat' first
    | with_reducible assumption
    | with_reducible refine keeps_tookFree ?_
    | with_reducible refine KeepsP.mk ?_
    | split

theorem keeps_execSecClaimWrite {w : Bool} {s0 a3 : State} {a0 a1 a2} (h0 : Keeps w s0 a3) : KeepsR w s0 (execSecClaimWrite a0 a1 a2 a3) := by
  unfold execSecClaimWrite
  try dsimp only
  repeat' first
    | with_reducible assumption
    | with_reducible refine keeps_wr ?_
    | with_reducible refine keeps_regWrite (fun _ _ _ => ?_) ?_
    | with_reducible refine keeps_claimBlocked ?_
    | with_reducible refine keeps_powerUpBlock ?_
    | with_reducible refine KeepsP.snd (keeps_claimBit ?_)
    | with_reducible refine Keeps.ite (fun _ => ?_) fun _ => ?_
    | with_reducible refine Keeps.foldl ?_ fun _ _ _ => ?_

theorem keeps_execDbgEnableWrite {w : Bool} {s0 a3 : State} {a0 a1 a2} (h0 : Keeps w s0 a3) : KeepsR w s0 (execDbgEnableWrite a0 a1 a2 a3) := by
  unfold execDbgEnableWrite
  try dsimp only
  repeat' first
    | with_reducible assumption
    | with_reducible refine keeps_wr ?_
    | with_reducible refine keeps_regWrite (fun _ _ _ => ?_) ?_

theorem keeps_execMapSwitchDone {w : Bool} {s0 a1 : State} {a0} (h0 : Keeps w s0 a1) : KeepsR w s0 (execMapSwitchDone a0 a1) := by
  unfold execMapSwitchDone
  try dsimp only
  repeat' first
    | with_reducible assumption
    | with_reducible refine keeps_wr ?_
    | with_reducible refine keeps_record0 ?_
    | with_reducible refine keeps_done ?_
    | with_reducible refine keeps_modeChange ?_
    | with_reducible refine KeepsR.mk ?_
    | fail_if_no_progress with_reducible refine Keeps.upd ?_ rfl rfl rfl rfl
    | with_reducible refine Keeps.ite (fun _ => ?_) fun _ => ?_
    | with_reducible refine KeepsR.ite (fun _ => ?_) fun _ => ?_
    | split

theorem keeps_execPldInvDone {w : Bool} {s0 a0 : State} (h0 : Keeps w s0 a0) : KeepsR w s0 (execPldInvDone a0) := by
  unfold execPldInvDone
  try dsimp only
  repeat' first
    | with_reducible assumption
    | with_reducible refine keeps_wr ?_
    | with_reducible refine KeepsR.mk ?_
    | fail_if_no_progress with_reducible refine Keeps.upd ?_ rfl rfl rfl rfl
    | with_reducible refine KeepsR.ite (fun _ => ?_) fun _ => ?_

theorem keeps_execPldReqMap {w : Bool} {s0 a3 : State} {a0 a1 a2} (h0 : Keeps w s0 a3) : KeepsR w s0 (execPldReqMap a0 a1 a2 a3) := by
  unfold execPldReqMap
  try dsimp only
  repeat' first
    | with_reducible assumption
    | with_reducible refine keeps_regWrite (fun _ _ _ => ?_) ?_
    | with_reducible refine keeps_modeCtrl ?_

theorem keeps_execPldReqTidemark {w : Bool} {s0 a3 : State} {a0 a1 a2} (h0 : Keeps w s0 a3) : KeepsR w s0 (execPldReqTidemark a0 a1 a2 a3) := by
  unfold execPldReqTidemark
  try dsimp only
  repeat' first
    | with_reducible assumption
    | with_reducible refine keeps_regWrite (fun _ _ _ => ?_) ?_
    | with_reducible refine keeps_modeCtrl ?_

theorem keeps_execPldS2InvDone {w : Bool} {s0 a1 : State} {a0} (h0 : Keeps w s0 a1) : KeepsR w s0 (execPldS2InvDone a0 a1) := by
  unfold execPldS2InvDone
  try dsimp only
  repeat' first
    | with_reducible assumption
    | with_reducible refine keeps_wr ?_
    | with_reducible refine KeepsR.mk ?_
    | fail_if_no_progress with_reducible refine Keeps.upd ?_ rfl rfl rfl rfl
    | with_reducible refine KeepsR.ite (fun _ => ?_) fun _ => ?_

/-! ## DikeWatch -/

theorem keeps_restartChains {w : Bool} {s0 a1 : State} {a0} (h0 : Keeps w s0 a1) : Keeps w s0 (restartChains a0 a1) := by
  unfold restartChains
  try dsimp only
  repeat' first
    | with_reducible assumption
    | with_reducible refine keeps_setOut ?_
    | with_reducible refine Keeps.ite (fun _ => ?_) fun _ => ?_
    | with_reducible refine Keeps.foldl ?_ fun _ _ _ => ?_

theorem keeps_loadKey {w : Bool} {s0 a0 : State} (h0 : Keeps w s0 a0) : Keeps w s0 (loadKey a0) := by
  unfold loadKey
  try dsimp only
  repeat' first
    | with_reducible assumption
    | with_reducible refine keeps_wr ?_
    | with_reducible refine keeps_record0 ?_
    | with_reducible refine keeps_restartChains ?_
    | fail_if_no_progress with_reducible refine Keeps.upd ?_ rfl rfl rfl rfl

theorem keeps_execDkwKeyLoad {w : Bool} {s0 a3 : State} {a0 a1 a2} (h0 : Keeps w s0 a3) : KeepsR w s0 (execDkwKeyLoad a0 a1 a2 a3) := by
  unfold execDkwKeyLoad
  try dsimp only
  repeat' first
    | with_reducible assumption
    | with_reducible refine keeps_regWrite (fun _ _ _ => ?_) ?_
    | with_reducible refine keeps_loadKey ?_
    | with_reducible refine Keeps.ite (fun _ => ?_) fun _ => ?_

theorem keeps_ringControl {w : Bool} {s0 a3 : State} {a0 a1 a2} (h0 : Keeps w s0 a3) : Keeps w s0 (ringControl a0 a1 a2 a3) := by
  unfold ringControl
  try dsimp only
  repeat' first
    | with_reducible assumption
    | with_reducible refine keeps_violateAt ?_
    | with_reducible refine keeps_wr ?_
    | with_reducible refine keeps_wrB ?_
    | with_reducible refine keeps_takeEffect ?_
    | with_reducible refine keeps_restartChains ?_
    | with_reducible refine Keeps.ite (fun _ => ?_) fun _ => ?_

theorem keeps_execDkwRingEnable {w : Bool} {s0 a3 : State} {a0 a1 a2} (h0 : Keeps w s0 a3) : KeepsR w s0 (execDkwRingEnable a0 a1 a2 a3) := by
  unfold execDkwRingEnable
  try dsimp only
  repeat' first
    | with_reducible assumption
    | with_reducible refine keeps_regWrite (fun _ _ _ => ?_) ?_
    | with_reducible refine keeps_ringControl ?_

theorem keeps_headSnap {w : Bool} {s0 a0 : State} (h0 : Keeps w s0 a0) : Keeps w s0 (headSnap a0) := by
  unfold headSnap
  try dsimp only
  repeat' first
    | with_reducible assumption
    | with_reducible refine keeps_wr ?_
    | with_reducible refine Keeps.foldl ?_ fun _ _ _ => ?_

theorem keeps_execDkwHeadSnap {w : Bool} {s0 a3 : State} {a0 a1 a2} (h0 : Keeps w s0 a3) : KeepsR w s0 (execDkwHeadSnap a0 a1 a2 a3) := by
  unfold execDkwHeadSnap
  try dsimp only
  repeat' first
    | with_reducible assumption
    | with_reducible refine keeps_regWrite (fun _ _ _ => ?_) ?_
    | with_reducible refine keeps_headSnap ?_
    | with_reducible refine Keeps.ite (fun _ => ?_) fun _ => ?_

theorem keeps_imageWrite {w : Bool} {s0 a3 : State} {a0 a1 a2} (h0 : Keeps w s0 a3) : Keeps w s0 (imageWrite a0 a1 a2 a3) := by
  unfold imageWrite
  try dsimp only
  repeat' first
    | with_reducible assumption
    | with_reducible refine keeps_holdWord ?_
    | with_reducible refine keeps_violateAt ?_
    | with_reducible refine keeps_wr ?_
    | with_reducible refine keeps_writeFlds ?_
    | with_reducible refine Keeps.ite (fun _ => ?_) fun _ => ?_
    | split

theorem keeps_execDkwImageWrite {w : Bool} {s0 a3 : State} {a0 a1 a2} (h0 : Keeps w s0 a3) : KeepsR w s0 (execDkwImageWrite a0 a1 a2 a3) := by
  unfold execDkwImageWrite
  try dsimp only
  repeat' first
    | with_reducible assumption
    | with_reducible refine keeps_regWrite (fun _ _ _ => ?_) ?_
    | with_reducible refine keeps_imageWrite ?_

theorem keeps_expectPush {w : Bool} {s0 a3 : State} {a0 a1 a2} (h0 : Keeps w s0 a3) : Keeps w s0 (expectPush a0 a1 a2 a3) := by
  unfold expectPush
  try dsimp only
  repeat' first
    | with_reducible assumption
    | with_reducible refine keeps_wr ?_
    | with_reducible refine keeps_record0 ?_
    | with_reducible refine keeps_putRegion ?_
    | with_reducible refine Keeps.ite (fun _ => ?_) fun _ => ?_

theorem keeps_execExpectPush {w : Bool} {s0 a3 : State} {a0 a1 a2} (h0 : Keeps w s0 a3) : KeepsR w s0 (execExpectPush a0 a1 a2 a3) := by
  unfold execExpectPush
  try dsimp only
  repeat' first
    | with_reducible assumption
    | with_reducible refine keeps_regWrite (fun _ _ _ => ?_) ?_
    | with_reducible refine keeps_expectPush ?_
    | split

theorem keeps_breachClear {w : Bool} {s0 a2 : State} {a0 a1} (h0 : Keeps w s0 a2) : Keeps w s0 (breachClear a0 a1 a2) := by
  unfold breachClear
  try dsimp only
  repeat' first
    | with_reducible assumption
    | with_reducible refine keeps_putRegion ?_
    | with_reducible refine Keeps.foldl ?_ fun _ _ _ => ?_

theorem keeps_execDkwBreachClear {w : Bool} {s0 a3 : State} {a0 a1 a2} (h0 : Keeps w s0 a3) : KeepsR w s0 (execDkwBreachClear a0 a1 a2 a3) := by
  unfold execDkwBreachClear
  try dsimp only
  repeat' first
    | with_reducible assumption
    | with_reducible refine keeps_regWrite (fun _ _ _ => ?_) ?_
    | with_reducible refine keeps_breachClear ?_
    | split

theorem keeps_relearn {w : Bool} {s0 a2 : State} {a0 a1} (h0 : Keeps w s0 a2) : Keeps w s0 (relearn a0 a1 a2) := by
  unfold relearn
  try dsimp only
  repeat' first
    | with_reducible assumption
    | with_reducible refine keeps_orBits ?_
    | with_reducible refine keeps_putRegion ?_
    | with_reducible refine Keeps.foldl ?_ fun _ _ _ => ?_

theorem keeps_execDkwRelearn {w : Bool} {s0 a3 : State} {a0 a1 a2} (h0 : Keeps w s0 a3) : KeepsR w s0 (execDkwRelearn a0 a1 a2 a3) := by
  unfold execDkwRelearn
  try dsimp only
  repeat' first
    | with_reducible assumption
    | with_reducible refine keeps_regWrite (fun _ _ _ => ?_) ?_
    | with_reducible refine keeps_relearn ?_
    | split

theorem keeps_dkwRingStore {s0 a1 : State} {a0} (h0 : Keeps true s0 a1) : Keeps true s0 (dkwRingStore a0 a1) := by
  unfold dkwRingStore
  try dsimp only
  repeat' first
    | with_reducible assumption
    | with_reducible refine keeps_wr ?_
    | with_reducible refine keeps_incSat ?_
    | with_reducible refine keeps_record0 ?_
    | with_reducible refine KeepsP.snd (keeps_devWrite ?_)
    | with_reducible refine Keeps.ite (fun _ => ?_) fun _ => ?_

theorem keeps_attest {s0 a1 : State} {a0} (h0 : Keeps true s0 a1) : Keeps true s0 (attest a0 a1) := by
  unfold attest
  try dsimp only
  repeat' first
    | with_reducible assumption
    | with_reducible refine keeps_record0 ?_
    | with_reducible refine keeps_setOut ?_
    | with_reducible refine keeps_sesRecord ?_
    | with_reducible refine keeps_dkwRingStore ?_
    | with_reducible refine keeps_exportSend ?_
    | with_reducible refine Keeps.ite (fun _ => ?_) fun _ => ?_

theorem keeps_breach {w : Bool} {s0 a4 : State} {a0 a1 a2 a3} (h0 : Keeps w s0 a4) : Keeps w s0 (breach a0 a1 a2 a3 a4) := by
  unfold breach
  try dsimp only
  repeat' first
    | with_reducible assumption
    | with_reducible refine keeps_incSat ?_
    | with_reducible refine keeps_record0 ?_
    | with_reducible refine keeps_orBits ?_
    | with_reducible refine keeps_raiseLine ?_
    | with_reducible refine keeps_notifyWardenAnd0 ?_
    | with_reducible refine keeps_putRegion ?_
    | with_reducible refine Keeps.ite (fun _ => ?_) fun _ => ?_

theorem keeps_dkwGetLayer {w : Bool} {s0 a1 : State} {a0} (h0 : Keeps w s0 a1) : KeepsA w s0 (dkwGetLayer a0 a1) := by
  unfold dkwGetLayer
  try dsimp only
  repeat' first
    | with_reducible assumption
    | with_reducible refine keeps_okR ?_
    | with_reducible refine keeps_no ?_
    | with_reducible refine KeepsA.ite (fun _ => ?_) fun _ => ?_

theorem keeps_dkwGetRegion {w : Bool} {s0 a1 : State} {a0} (h0 : Keeps w s0 a1) : KeepsA w s0 (dkwGetRegion a0 a1) := by
  unfold dkwGetRegion
  try dsimp only
  repeat' first
    | with_reducible assumption
    | with_reducible refine keeps_okR ?_

theorem keeps_dkwGetRing {w : Bool} {s0 a1 : State} {a0} (h0 : Keeps w s0 a1) : KeepsA w s0 (dkwGetRing a0 a1) := by
  unfold dkwGetRing
  try dsimp only
  repeat' first
    | with_reducible assumption
    | with_reducible refine keeps_okR ?_

theorem keeps_dkwSetImage {w : Bool} {s0 a1 : State} {a0} (h0 : Keeps w s0 a1) : KeepsA w s0 (dkwSetImage a0 a1) := by
  unfold dkwSetImage
  try dsimp only
  repeat' first
    | with_reducible assumption
    | with_reducible refine keeps_wr ?_
    | with_reducible refine keeps_record0 ?_
    | with_reducible refine keeps_no ?_
    | with_reducible refine keeps_did ?_
    | with_reducible refine KeepsA.ite (fun _ => ?_) fun _ => ?_
    | with_reducible refine Keeps.idd ?_
    | with_reducible refine KeepsA.mk ?_ fun _ _ => ?_

theorem keeps_dkwSetKey {w : Bool} {s0 a1 : State} {a0} (h0 : Keeps w s0 a1) : KeepsA w s0 (dkwSetKey a0 a1) := by
  unfold dkwSetKey
  try dsimp only
  repeat' first
    | with_reducible assumption
    | with_reducible refine keeps_wr ?_
    | with_reducible refine keeps_did ?_
    | with_reducible refine keeps_loadKey ?_
    | with_reducible refine Keeps.foldl ?_ fun _ _ _ => ?_

theorem keeps_setClass {w : Bool} {s0 a2 : State} {a0 a1} (h0 : Keeps w s0 a2) : KeepsA w s0 (setClass a0 a1 a2) := by
  unfold setClass
  try dsimp only
  repeat' first
    | with_reducible assumption
    | with_reducible refine keeps_no ?_
    | with_reducible refine keeps_internalCommit ?_
    | with_reducible refine KeepsA.ite (fun _ => ?_) fun _ => ?_

theorem keeps_dkwSetLayerLive {w : Bool} {s0 a1 : State} {a0} (h0 : Keeps w s0 a1) : KeepsA w s0 (dkwSetLayerLive a0 a1) := by
  unfold dkwSetLayerLive
  try dsimp only
  repeat' first
    | with_reducible assumption
    | with_reducible refine keeps_no ?_
    | with_reducible refine keeps_setClass ?_
    | with_reducible refine KeepsA.ite (fun _ => ?_) fun _ => ?_

theorem keeps_dkwSetRegion {w : Bool} {s0 a1 : State} {a0} (h0 : Keeps w s0 a1) : KeepsA w s0 (dkwSetRegion a0 a1) := by
  unfold dkwSetRegion
  try dsimp only
  repeat' first
    | with_reducible assumption
    | with_reducible refine keeps_internalCommit ?_

theorem keeps_dkwSetRing {w : Bool} {s0 a1 : State} {a0} (h0 : Keeps w s0 a1) : KeepsA w s0 (dkwSetRing a0 a1) := by
  unfold dkwSetRing
  try dsimp only
  repeat' first
    | with_reducible assumption
    | with_reducible refine keeps_wr ?_
    | with_reducible refine keeps_no ?_
    | with_reducible refine keeps_did ?_
    | with_reducible refine keeps_ringControl ?_
    | with_reducible refine KeepsA.ite (fun _ => ?_) fun _ => ?_

theorem keeps_dkwSetSecureLayer {w : Bool} {s0 a1 : State} {a0} (h0 : Keeps w s0 a1) : KeepsA w s0 (dkwSetSecureLayer a0 a1) := by
  unfold dkwSetSecureLayer
  try dsimp only
  repeat' first
    | with_reducible assumption
    | with_reducible refine keeps_no ?_
    | with_reducible refine keeps_setClass ?_
    | with_reducible refine KeepsA.ite (fun _ => ?_) fun _ => ?_

theorem keeps_execAttestRecord {s0 a1 : State} {a0} (h0 : Keeps true s0 a1) : KeepsR true s0 (execAttestRecord a0 a1) := by
  unfold execAttestRecord
  try dsimp only
  repeat' first
    | with_reducible assumption
    | with_reducible refine keeps_done ?_
    | with_reducible refine keeps_advanceTo ?_
    | with_reducible refine keeps_attest ?_
    | with_reducible refine KeepsR.mk ?_
    | with_reducible refine KeepsR.ite (fun _ => ?_) fun _ => ?_

theorem keeps_execAutoReadDone {w : Bool} {s0 a2 : State} {a0 a1} (h0 : Keeps w s0 a2) : KeepsR w s0 (execAutoReadDone a0 a1 a2) := by
  unfold execAutoReadDone
  try dsimp only
  repeat' first
    | with_reducible assumption
    | with_reducible refine keeps_done ?_
    | with_reducible refine keeps_polFault ?_
    | with_reducible refine keeps_putRegion ?_
    | with_reducible refine KeepsP.snd (keeps_fetchCheck ?_)
    | with_reducible refine KeepsR.mk ?_
    | with_reducible refine KeepsR.ite (fun _ => ?_) fun _ => ?_
    | split

theorem keeps_execDkwGetLayer {w : Bool} {s0 a1 : State} {a0} (h0 : Keeps w s0 a1) : KeepsR w s0 (execDkwGetLayer a0 a1) := by
  unfold execDkwGetLayer
  try dsimp only
  repeat' first
    | with_reducible assumption
    | with_reducible refine keeps_done ?_
    | with_reducible refine keeps_serve (fun _ _ _ => ?_) ?_
    | with_reducible refine keeps_dkwGetLayer ?_

theorem keeps_execDkwGetRegion {w : Bool} {s0 a1 : State} {a0} (h0 : Keeps w s0 a1) : KeepsR w s0 (execDkwGetRegion a0 a1) := by
  unfold execDkwGetRegion
  try dsimp only
  repeat' first
    | with_reducible assumption
    | with_reducible refine keeps_done ?_
    | with_reducible refine keeps_serve (fun _ _ _ => ?_) ?_
    | with_reducible refine keeps_dkwGetRegion ?_

theorem keeps_execDkwGetRing {w : Bool} {s0 a1 : State} {a0} (h0 : Keeps w s0 a1) : KeepsR w s0 (execDkwGetRing a0 a1) := by
  unfold execDkwGetRing
  try dsimp only
  repeat' first
    | with_reducible assumption
    | with_reducible refine keeps_done ?_
    | with_reducible refine keeps_serve (fun _ _ _ => ?_) ?_
    | with_reducible refine keeps_dkwGetRing ?_

theorem keeps_execDkwSetImage {w : Bool} {s0 a1 : State} {a0} (h0 : Keeps w s0 a1) : KeepsR w s0 (execDkwSetImage a0 a1) := by
  unfold execDkwSetImage
  try dsimp only
  repeat' first
    | with_reducible assumption
    | with_reducible refine keeps_done ?_
    | with_reducible refine keeps_serve (fun _ _ _ => ?_) ?_
    | with_reducible refine keeps_dkwSetImage ?_

theorem keeps_execDkwSetKey {w : Bool} {s0 a1 : State} {a0} (h0 : Keeps w s0 a1) : KeepsR w s0 (execDkwSetKey a0 a1) := by
  unfold execDkwSetKey
  try dsimp only
  repeat' first
    | with_reducible assumption
    | with_reducible refine keeps_done ?_
    | with_reducible refine keeps_serve (fun _ _ _ => ?_) ?_
    | with_reducible refine keeps_dkwSetKey ?_

theorem keeps_execDkwSetLayerLive {w : Bool} {s0 a1 : State} {a0} (h0 : Keeps w s0 a1) : KeepsR w s0 (execDkwSetLayerLive a0 a1) := by
  unfold execDkwSetLayerLive
  try dsimp only
  repeat' first
    | with_reducible assumption
    | with_reducible refine keeps_done ?_
    | with_reducible refine keeps_serve (fun _ _ _ => ?_) ?_
    | with_reducible refine keeps_dkwSetLayerLive ?_

theorem keeps_execDkwSetRegion {w : Bool} {s0 a1 : State} {a0} (h0 : Keeps w s0 a1) : KeepsR w s0 (execDkwSetRegion a0 a1) := by
  unfold execDkwSetRegion
  try dsimp only
  repeat' first
    | with_reducible assumption
    | with_reducible refine keeps_done ?_
    | with_reducible refine keeps_serve (fun _ _ _ => ?_) ?_
    | with_reducible refine keeps_dkwSetRegion ?_

theorem keeps_execDkwSetRing {w : Bool} {s0 a1 : State} {a0} (h0 : Keeps w s0 a1) : KeepsR w s0 (execDkwSetRing a0 a1) := by
  unfold execDkwSetRing
  try dsimp only
  repeat' first
    | with_reducible assumption
    | with_reducible refine keeps_done ?_
    | with_reducible refine keeps_serve (fun _ _ _ => ?_) ?_
    | with_reducible refine keeps_dkwSetRing ?_

theorem keeps_execDkwSetSecureLayer {w : Bool} {s0 a1 : State} {a0} (h0 : Keeps w s0 a1) : KeepsR w s0 (execDkwSetSecureLayer a0 a1) := by
  unfold execDkwSetSecureLayer
  try dsimp only
  repeat' first
    | with_reducible assumption
    | with_reducible refine keeps_done ?_
    | with_reducible refine keeps_serve (fun _ _ _ => ?_) ?_
    | with_reducible refine keeps_dkwSetSecureLayer ?_

theorem keeps_execMotionReadDone {w : Bool} {s0 a1 : State} {a0} (h0 : Keeps w s0 a1) : KeepsR w s0 (execMotionReadDone a0 a1) := by
  unfold execMotionReadDone
  try dsimp only
  repeat' first
    | with_reducible assumption
    | with_reducible refine keeps_wr ?_
    | with_reducible refine keeps_done ?_
    | with_reducible refine keeps_tookFree ?_
    | with_reducible refine keeps_polFault ?_
    | with_reducible refine keeps_setSlot ?_
    | with_reducible refine KeepsP.snd (keeps_fetchCheck ?_)
    | with_reducible refine KeepsR.mk ?_
    | with_reducible refine Keeps.ite (fun _ => ?_) fun _ => ?_
    | split

theorem keeps_execRegionCompare {w : Bool} {s0 a2 : State} {a0 a1} (h0 : Keeps w s0 a2) : KeepsR w s0 (execRegionCompare a0 a1 a2) := by
  unfold execRegionCompare
  try dsimp only
  repeat' first
    | with_reducible assumption
    | with_reducible refine keeps_wr ?_
    | with_reducible refine keeps_done ?_
    | with_reducible refine keeps_advanceTo ?_
    | with_reducible refine keeps_putRegion ?_
    | with_reducible refine keeps_breach ?_
    | with_reducible refine KeepsR.mk ?_
    | with_reducible refine Keeps.ite (fun _ => ?_) fun _ => ?_
    | with_reducible refine KeepsR.ite (fun _ => ?_) fun _ => ?_

/-! ## ScanOut -/

theorem keeps_linkReport {w : Bool} {s0 a1 : State} {a0} (h0 : Keeps w s0 a1) : Keeps w s0 (linkReport a0 a1) := by
  unfold linkReport
  try dsimp only
  repeat' first
    | with_reducible assumption
    | with_reducible refine keeps_record ?_
    | with_reducible refine keeps_notifyWardenAnd0 ?_

theorem keeps_setLink {w : Bool} {s0 a2 : State} {a0 a1} (h0 : Keeps w s0 a2) : Keeps w s0 (setLink a0 a1 a2) := by
  unfold setLink
  try dsimp only
  repeat' first
    | with_reducible assumption
    | with_reducible refine keeps_wr ?_
    | with_reducible refine keeps_tookFree ?_
    | with_reducible refine keeps_wrB ?_
    | with_reducible refine keeps_linkReport ?_
    | with_reducible refine Keeps.ite (fun _ => ?_) fun _ => ?_

theorem keeps_switchOff {w : Bool} {s0 a2 : State} {a0 a1} (h0 : Keeps w s0 a2) : Keeps w s0 (switchOff a0 a1 a2) := by
  unfold switchOff
  try dsimp only
  repeat' first
    | with_reducible assumption
    | with_reducible refine keeps_record ?_
    | with_reducible refine keeps_wr ?_
    | with_reducible refine keeps_replyOpt ?_
    | with_reducible refine keeps_setOut ?_
    | with_reducible refine keeps_setLink ?_
    | with_reducible refine Keeps.idd ?_
    | split

theorem keeps_setLockState {w : Bool} {s0 a2 : State} {a0 a1} (h0 : Keeps w s0 a2) : Keeps w s0 (setLockState a0 a1 a2) := by
  unfold setLockState
  try dsimp only
  repeat' first
    | with_reducible assumption
    | with_reducible refine keeps_record ?_
    | with_reducible refine keeps_wr ?_
    | with_reducible refine keeps_notifyWardenAnd0 ?_
    | with_reducible refine Keeps.ite (fun _ => ?_) fun _ => ?_

theorem keeps_stopTiming {w : Bool} {s0 a1 : State} {a0} (h0 : Keeps w s0 a1) : Keeps w s0 (stopTiming a0 a1) := by
  unfold stopTiming
  try dsimp only
  repeat' first
    | with_reducible assumption
    | with_reducible refine keeps_wr ?_
    | with_reducible refine keeps_setOut ?_
    | with_reducible refine keeps_setLockState ?_
    | with_reducible refine keeps_setGroups ?_
    | with_reducible refine keeps_resetsAt ?_
    | fail_if_no_progress with_reducible refine Keeps.upd ?_ rfl rfl rfl rfl
    | with_reducible refine Keeps.idd ?_
    | split

theorem keeps_defaultScaler {w : Bool} {s0 a1 : State} {a0} (h0 : Keeps w s0 a1) : Keeps w s0 (defaultScaler a0 a1) := by
  unfold defaultScaler
  try dsimp only
  repeat' first
    | with_reducible assumption
    | fail_if_no_progress with_reducible refine Keeps.upd ?_ rfl rfl rfl rfl

theorem keeps_setForce {w : Bool} {s0 a1 : State} {a0} (h0 : Keeps w s0 a1) : Keeps w s0 (setForce a0 a1) := by
  unfold setForce
  try dsimp only
  repeat' first
    | with_reducible assumption
    | with_reducible refine keeps_wr ?_
    | with_reducible refine Keeps.foldl ?_ fun _ _ _ => ?_

theorem keeps_configure {w : Bool} {s0 a2 : State} {a0 a1} (h0 : Keeps w s0 a2) : Keeps w s0 (configure a0 a1 a2) := by
  unfold configure
  try dsimp only
  repeat' first
    | with_reducible assumption
    | with_reducible refine keeps_wr ?_
    | with_reducible refine keeps_wrB ?_
    | with_reducible refine keeps_setOut ?_
    | with_reducible refine keeps_setLink ?_
    | with_reducible refine keeps_configChanged ?_ ?_
    | with_reducible refine keeps_defaultScaler ?_
    | with_reducible refine keeps_setForce ?_
    | with_reducible refine Keeps.ite (fun _ => ?_) fun _ => ?_
    | with_reducible refine Keeps.idd ?_
    | split

theorem keeps_hotplug {w : Bool} {s0 a3 : State} {a0 a1 a2} (h0 : Keeps w s0 a3) : Keeps w s0 (hotplug a0 a1 a2 a3) := by
  unfold hotplug
  try dsimp only
  repeat' first
    | with_reducible assumption
    | with_reducible refine keeps_record ?_
    | with_reducible refine keeps_notifyWardenAnd0 ?_

theorem keeps_dspGetOutput {w : Bool} {s0 a1 : State} {a0} (h0 : Keeps w s0 a1) : KeepsA w s0 (dspGetOutput a0 a1) := by
  unfold dspGetOutput
  try dsimp only
  repeat' first
    | with_reducible assumption
    | with_reducible refine keeps_okR ?_
    | with_reducible refine KeepsA.ite (fun _ => ?_) fun _ => ?_

theorem keeps_dspGetSink {s0 a1 : State} {a0} (h0 : Keeps true s0 a1) : KeepsA true s0 (dspGetSink a0 a1) := by
  unfold dspGetSink
  try dsimp only
  repeat' first
    | with_reducible assumption
    | with_reducible refine keeps_devPut ?_
    | with_reducible refine keeps_okR ?_

theorem keeps_dspSetFill {w : Bool} {s0 a1 : State} {a0} (h0 : Keeps w s0 a1) : KeepsA w s0 (dspSetFill a0 a1) := by
  unfold dspSetFill
  try dsimp only
  repeat' first
    | with_reducible assumption
    | with_reducible refine keeps_wr ?_
    | with_reducible refine keeps_did ?_

theorem keeps_dspSetLock {w : Bool} {s0 a1 : State} {a0} (h0 : Keeps w s0 a1) : KeepsA w s0 (dspSetLock a0 a1) := by
  unfold dspSetLock
  try dsimp only
  repeat' first
    | with_reducible assumption
    | with_reducible refine keeps_wr ?_
    | with_reducible refine keeps_tookFree ?_
    | with_reducible refine keeps_wrB ?_
    | with_reducible refine keeps_no ?_
    | with_reducible refine keeps_did ?_
    | with_reducible refine keeps_setOut ?_
    | with_reducible refine keeps_setLockState ?_
    | with_reducible refine Keeps.ite (fun _ => ?_) fun _ => ?_
    | with_reducible refine KeepsA.ite (fun _ => ?_) fun _ => ?_

theorem keeps_dspSetMode {w : Bool} {s0 a1 : State} {a0} (h0 : Keeps w s0 a1) : KeepsA w s0 (dspSetMode a0 a1) := by
  unfold dspSetMode
  try dsimp only
  repeat' first
    | with_reducible assumption
    | with_reducible refine keeps_okR ?_
    | with_reducible refine keeps_no ?_
    | with_reducible refine keeps_setOut ?_
    | with_reducible refine keeps_claimBlocked ?_
    | with_reducible refine keeps_configure ?_
    | with_reducible refine keeps_pend ?_ (fun _ _ => ?_)
    | with_reducible refine KeepsA.ite (fun _ => ?_) fun _ => ?_
    | with_reducible refine Keeps.idd ?_
    | split
    | with_reducible refine KeepsA.mk ?_ fun _ _ => ?_

theorem keeps_execDspGetOutput {w : Bool} {s0 a1 : State} {a0} (h0 : Keeps w s0 a1) : KeepsR w s0 (execDspGetOutput a0 a1) := by
  unfold execDspGetOutput
  try dsimp only
  repeat' first
    | with_reducible assumption
    | with_reducible refine keeps_done ?_
    | with_reducible refine keeps_serve (fun _ _ _ => ?_) ?_
    | with_reducible refine keeps_dspGetOutput ?_

theorem keeps_execDspGetSink {s0 a1 : State} {a0} (h0 : Keeps true s0 a1) : KeepsR true s0 (execDspGetSink a0 a1) := by
  unfold execDspGetSink
  try dsimp only
  repeat' first
    | with_reducible assumption
    | with_reducible refine keeps_done ?_
    | with_reducible refine keeps_serve (fun _ _ _ => ?_) ?_
    | with_reducible refine keeps_dspGetSink ?_

theorem keeps_execDspSetFill {w : Bool} {s0 a1 : State} {a0} (h0 : Keeps w s0 a1) : KeepsR w s0 (execDspSetFill a0 a1) := by
  unfold execDspSetFill
  try dsimp only
  repeat' first
    | with_reducible assumption
    | with_reducible refine keeps_done ?_
    | with_reducible refine keeps_serve (fun _ _ _ => ?_) ?_
    | with_reducible refine keeps_dspSetFill ?_

theorem keeps_execDspSetLock {w : Bool} {s0 a1 : State} {a0} (h0 : Keeps w s0 a1) : KeepsR w s0 (execDspSetLock a0 a1) := by
  unfold execDspSetLock
  try dsimp only
  repeat' first
    | with_reducible assumption
    | with_reducible refine keeps_done ?_
    | with_reducible refine keeps_serve (fun _ _ _ => ?_) ?_
    | with_reducible refine keeps_dspSetLock ?_

theorem keeps_execDspSetMode {w : Bool} {s0 a1 : State} {a0} (h0 : Keeps w s0 a1) : KeepsR w s0 (execDspSetMode a0 a1) := by
  unfold execDspSetMode
  try dsimp only
  repeat' first
    | with_reducible assumption
    | with_reducible refine keeps_done ?_
    | with_reducible refine keeps_serve (fun _ _ _ => ?_) ?_
    | with_reducible refine keeps_dspSetMode ?_

theorem keeps_trimAfter {w : Bool} {s0 a2 : State} {a0 a1} (h0 : Keeps w s0 a2) : Keeps w s0 (trimAfter a0 a1 a2) := by
  unfold trimAfter
  try dsimp only
  repeat' first
    | with_reducible assumption
    | with_reducible refine keeps_tookFree ?_
    | with_reducible refine keeps_wrI ?_

theorem keeps_lockStep {w : Bool} {s0 a2 : State} {a0 a1} (h0 : Keeps w s0 a2) : Keeps w s0 (lockStep a0 a1 a2) := by
  unfold lockStep
  try dsimp only
  repeat' first
    | with_reducible assumption
    | with_reducible refine keeps_wr ?_
    | with_reducible refine keeps_setOut ?_
    | with_reducible refine keeps_setLockState ?_
    | with_reducible refine keeps_trimAfter ?_
    | with_reducible refine Keeps.ite (fun _ => ?_) fun _ => ?_

theorem keeps_flip {w : Bool} {s0 a1 : State} {a0} (h0 : Keeps w s0 a1) : Keeps w s0 (flip a0 a1) := by
  unfold flip
  try dsimp only
  repeat' first
    | with_reducible assumption
    | with_reducible refine keeps_record ?_
    | with_reducible refine keeps_wr ?_
    | with_reducible refine keeps_raiseLines ?_
    | with_reducible refine keeps_replyOpt ?_
    | with_reducible refine keeps_setOut ?_
    | with_reducible refine keeps_sesFlip ?_
    | with_reducible refine keeps_lockStep ?_
    | split

theorem keeps_execFlip {w : Bool} {s0 a1 : State} {a0} (h0 : Keeps w s0 a1) : KeepsR w s0 (execFlip a0 a1) := by
  unfold execFlip
  try dsimp only
  repeat' first
    | with_reducible assumption
    | with_reducible refine keeps_done ?_
    | with_reducible refine keeps_advanceTo ?_
    | with_reducible refine keeps_anchorAt ?_
    | with_reducible refine keeps_anchorNow ?_
    | with_reducible refine keeps_flip ?_
    | with_reducible refine KeepsR.mk ?_
    | with_reducible refine KeepsR.ite (fun _ => ?_) fun _ => ?_

theorem keeps_relink {w : Bool} {s0 a2 : State} {a0 a1} (h0 : Keeps w s0 a2) : Keeps w s0 (relink a0 a1 a2) := by
  unfold relink
  try dsimp only
  repeat' first
    | with_reducible assumption
    | with_reducible refine keeps_setLink ?_
    | with_reducible refine keeps_setForce ?_
    | with_reducible refine Keeps.ite (fun _ => ?_) fun _ => ?_
    | split

theorem keeps_hpdRead {w : Bool} {s0 a3 : State} {a0 a1 a2} (h0 : Keeps w s0 a3) : Keeps w s0 (hpdRead a0 a1 a2 a3) := by
  unfold hpdRead
  try dsimp only
  repeat' first
    | with_reducible assumption
    | with_reducible refine keeps_wr ?_
    | with_reducible refine keeps_setOut ?_
    | with_reducible refine keeps_setLink ?_
    | with_reducible refine keeps_hotplug ?_
    | with_reducible refine keeps_relink ?_
    | with_reducible refine Keeps.ite (fun _ => ?_) fun _ => ?_
    | split

theorem keeps_execHpdPoll {w : Bool} {s0 a1 : State} {a0} (h0 : Keeps w s0 a1) : KeepsR w s0 (execHpdPoll a0 a1) := by
  unfold execHpdPoll
  try dsimp only
  repeat' first
    | with_reducible assumption
    | with_reducible refine keeps_done ?_
    | with_reducible refine keeps_hpdRead ?_
    | with_reducible refine Keeps.foldl ?_ fun _ _ _ => ?_

theorem keeps_execLinkStatusPoll {w : Bool} {s0 a3 : State} {a0 a1 a2} (h0 : Keeps w s0 a3) : KeepsR w s0 (execLinkStatusPoll a0 a1 a2 a3) := by
  unfold execLinkStatusPoll
  try dsimp only
  repeat' first
    | with_reducible assumption
    | with_reducible refine keeps_done ?_
    | with_reducible refine keeps_pumpRan ?_
    | with_reducible refine keeps_relink ?_
    | with_reducible refine KeepsR.mk ?_
    | with_reducible refine Keeps.ite (fun _ => ?_) fun _ => ?_
    | with_reducible refine KeepsR.ite (fun _ => ?_) fun _ => ?_

theorem keeps_vsync {w : Bool} {s0 a1 : State} {a0} (h0 : Keeps w s0 a1) : Keeps w s0 (vsync a0 a1) := by
  unfold vsync
  try dsimp only
  repeat' first
    | with_reducible assumption
    | with_reducible refine keeps_record ?_
    | with_reducible refine keeps_raiseLines ?_
    | with_reducible refine keeps_setOut ?_
    | with_reducible refine keeps_incWrap ?_

theorem keeps_execModeTimingStart {w : Bool} {s0 a2 : State} {a0 a1} (h0 : Keeps w s0 a2) : KeepsR w s0 (execModeTimingStart a0 a1 a2) := by
  unfold execModeTimingStart
  try dsimp only
  repeat' first
    | with_reducible assumption
    | with_reducible refine keeps_record ?_
    | with_reducible refine keeps_wr ?_
    | with_reducible refine keeps_done ?_
    | with_reducible refine keeps_advanceTo ?_
    | with_reducible refine keeps_setOut ?_
    | with_reducible refine keeps_setLink ?_
    | with_reducible refine keeps_setLockState ?_
    | with_reducible refine keeps_anchorNow ?_
    | with_reducible refine keeps_vsync ?_
    | with_reducible refine KeepsR.mk ?_
    | with_reducible refine KeepsR.ite (fun _ => ?_) fun _ => ?_
    | with_reducible refine Keeps.idd ?_
    | split

theorem keeps_execModeTimingStop {w : Bool} {s0 a1 : State} {a0} (h0 : Keeps w s0 a1) : KeepsR w s0 (execModeTimingStop a0 a1) := by
  unfold execModeTimingStop
  try dsimp only
  repeat' first
    | with_reducible assumption
    | with_reducible refine keeps_done ?_
    | with_reducible refine keeps_switchOff ?_
    | with_reducible refine keeps_stopTiming ?_
    | with_reducible refine keeps_configure ?_
    | with_reducible refine KeepsR.mk ?_
    | with_reducible refine Keeps.ite (fun _ => ?_) fun _ => ?_
    | split

theorem keeps_execTearingEffectEdge {w : Bool} {s0 a1 : State} {a0} (h0 : Keeps w s0 a1) : KeepsR w s0 (execTearingEffectEdge a0 a1) := by
  unfold execTearingEffectEdge
  try dsimp only
  repeat' first
    | with_reducible assumption
    | with_reducible refine keeps_setOut ?_
    | with_reducible refine keeps_anchorNow ?_
    | with_reducible refine KeepsR.mk ?_
    | with_reducible refine KeepsR.ite (fun _ => ?_) fun _ => ?_

theorem keeps_execVsync {w : Bool} {s0 a1 : State} {a0} (h0 : Keeps w s0 a1) : KeepsR w s0 (execVsync a0 a1) := by
  unfold execVsync
  try dsimp only
  repeat' first
    | with_reducible assumption
    | with_reducible refine keeps_done ?_
    | with_reducible refine keeps_advanceTo ?_
    | with_reducible refine keeps_anchorAt ?_
    | with_reducible refine keeps_vsync ?_
    | with_reducible refine KeepsR.mk ?_
    | with_reducible refine Keeps.ite (fun _ => ?_) fun _ => ?_
    | with_reducible refine KeepsR.ite (fun _ => ?_) fun _ => ?_

/-! ## TimeSync -/

theorem keeps_linkBit {w : Bool} {s0 a2 : State} {a0 a1} (h0 : Keeps w s0 a2) : Keeps w s0 (linkBit a0 a1 a2) := by
  unfold linkBit
  try dsimp only
  repeat' first
    | with_reducible assumption
    | with_reducible refine keeps_orBits ?_
    | with_reducible refine keeps_clrBits ?_
    | with_reducible refine Keeps.ite (fun _ => ?_) fun _ => ?_

theorem keeps_setMasters {w : Bool} {s0 a1 : State} {a0} (h0 : Keeps w s0 a1) : Keeps w s0 (setMasters a0 a1) := by
  unfold setMasters
  try dsimp only
  repeat' first
    | with_reducible assumption
    | with_reducible refine keeps_wr ?_
    | with_reducible refine keeps_record0 ?_
    | with_reducible refine keeps_setNet ?_
    | with_reducible refine Keeps.ite (fun _ => ?_) fun _ => ?_
    | split

theorem keeps_linkChange {w : Bool} {s0 a3 : State} {a0 a1 a2} (h0 : Keeps w s0 a3) : Keeps w s0 (linkChange a0 a1 a2 a3) := by
  unfold linkChange
  try dsimp only
  repeat' first
    | with_reducible assumption
    | with_reducible refine keeps_wr ?_
    | with_reducible refine keeps_record0 ?_
    | with_reducible refine keeps_wrB ?_
    | with_reducible refine keeps_linkBit ?_
    | with_reducible refine keeps_setMasters ?_
    | with_reducible refine Keeps.ite (fun _ => ?_) fun _ => ?_

theorem keeps_advanceDevice {w : Bool} {s0 a2 : State} {a0 a1} (h0 : Keeps w s0 a2) : Keeps w s0 (advanceDevice a0 a1 a2) := by
  induction a0 generalizing a2 with
  | zero => exact h0
  | succ n ih => unfold advanceDevice; exact Keeps.ite (fun _ => ih (keeps_passTime h0)) fun _ => h0

theorem keeps_setTimeState {w : Bool} {s0 a1 : State} {a0} (h0 : Keeps w s0 a1) : Keeps w s0 (setTimeState a0 a1) := by
  unfold setTimeState
  try dsimp only
  repeat' first
    | with_reducible assumption
    | with_reducible refine keeps_wr ?_
    | with_reducible refine keeps_record0 ?_
    | with_reducible refine keeps_raiseLines ?_
    | with_reducible refine keeps_notifyWardenAnd0 ?_
    | with_reducible refine keeps_rtcSync ?_
    | with_reducible refine Keeps.ite (fun _ => ?_) fun _ => ?_

theorem keeps_execHoldoverExpiry {w : Bool} {s0 a0 : State} (h0 : Keeps w s0 a0) : KeepsR w s0 (execHoldoverExpiry a0) := by
  unfold execHoldoverExpiry
  try dsimp only
  repeat' first
    | with_reducible assumption
    | with_reducible refine keeps_done ?_
    | with_reducible refine keeps_advanceTo ?_
    | with_reducible refine keeps_setTimeState ?_
    | with_reducible refine KeepsR.mk ?_
    | with_reducible refine KeepsR.ite (fun _ => ?_) fun _ => ?_

theorem keeps_execOnlLink {w : Bool} {s0 a2 : State} {a0 a1} (h0 : Keeps w s0 a2) : KeepsR w s0 (execOnlLink a0 a1 a2) := by
  unfold execOnlLink
  try dsimp only
  repeat' first
    | with_reducible assumption
    | with_reducible refine keeps_done ?_
    | with_reducible refine keeps_linkChange ?_
    | with_reducible refine KeepsR.mk ?_
    | with_reducible refine KeepsR.ite (fun _ => ?_) fun _ => ?_

theorem keeps_execPtpAnnounce {w : Bool} {s0 a3 : State} {a0 a1 a2} (h0 : Keeps w s0 a3) : KeepsR w s0 (execPtpAnnounce a0 a1 a2 a3) := by
  unfold execPtpAnnounce
  try dsimp only
  repeat' first
    | with_reducible assumption
    | with_reducible refine keeps_done ?_
    | with_reducible refine keeps_setMasters ?_
    | with_reducible refine KeepsR.mk ?_
    | with_reducible refine KeepsR.ite (fun _ => ?_) fun _ => ?_

theorem keeps_lockAfterStep {w : Bool} {s0 a1 : State} {a0} (h0 : Keeps w s0 a1) : Keeps w s0 (lockAfterStep a0 a1) := by
  unfold lockAfterStep
  try dsimp only
  repeat' first
    | with_reducible assumption
    | with_reducible refine keeps_setOut ?_
    | with_reducible refine keeps_setLockState ?_
    | with_reducible refine Keeps.ite (fun _ => ?_) fun _ => ?_
    | with_reducible refine Keeps.foldl ?_ fun _ _ _ => ?_

theorem keeps_stepWeir {w : Bool} {s0 a1 : State} {a0} (h0 : Keeps w s0 a1) : Keeps w s0 (stepWeir a0 a1) := by
  unfold stepWeir
  try dsimp only
  repeat' first
    | with_reducible assumption
    | fail_if_no_progress with_reducible refine Keeps.upd ?_ rfl rfl rfl rfl

theorem keeps_stepTime {w : Bool} {s0 a1 : State} {a0} (h0 : Keeps w s0 a1) : Keeps w s0 (stepTime a0 a1) := by
  unfold stepTime
  try dsimp only
  repeat' first
    | with_reducible assumption
    | with_reducible refine keeps_wr ?_
    | with_reducible refine keeps_record0 ?_
    | with_reducible refine keeps_incWrap ?_
    | with_reducible refine keeps_stepStamps ?_
    | with_reducible refine keeps_lockAfterStep ?_
    | with_reducible refine keeps_stepWeir ?_
    | fail_if_no_progress with_reducible refine Keeps.upd ?_ rfl rfl rfl rfl

theorem keeps_slewRate {w : Bool} {s0 a0 : State} (h0 : Keeps w s0 a0) : Keeps w s0 (slewRate a0) := by
  unfold slewRate
  try dsimp only
  repeat' first
    | with_reducible assumption
    | with_reducible refine keeps_setNet ?_
    | with_reducible refine keeps_tookFree ?_
    | with_reducible refine keeps_wrI ?_

theorem keeps_execPtpSync {w : Bool} {s0 a5 : State} {a0 a1 a2 a3 a4} (h0 : Keeps w s0 a5) : KeepsR w s0 (execPtpSync a0 a1 a2 a3 a4 a5) := by
  unfold execPtpSync
  try dsimp only
  repeat' first
    | with_reducible assumption
    | with_reducible refine keeps_wr ?_
    | with_reducible refine keeps_setNet ?_
    | with_reducible refine keeps_done ?_
    | with_reducible refine keeps_setTimeState ?_
    | with_reducible refine keeps_stepTime ?_
    | with_reducible refine keeps_slewRate ?_
    | with_reducible refine KeepsR.mk ?_
    | with_reducible refine Keeps.ite (fun _ => ?_) fun _ => ?_
    | with_reducible refine KeepsR.ite (fun _ => ?_) fun _ => ?_

theorem keeps_execPtpSyncTimeout {w : Bool} {s0 a1 : State} {a0} (h0 : Keeps w s0 a1) : KeepsR w s0 (execPtpSyncTimeout a0 a1) := by
  unfold execPtpSyncTimeout
  try dsimp only
  repeat' first
    | with_reducible assumption
    | with_reducible refine keeps_setNet ?_
    | with_reducible refine keeps_done ?_
    | with_reducible refine keeps_advanceTo ?_
    | with_reducible refine keeps_setMasters ?_
    | with_reducible refine keeps_setTimeState ?_
    | with_reducible refine Keeps.ite (fun _ => ?_) fun _ => ?_
    | split

end Sys2Proof.Machine
end

