-- ==== Sys2Proof/Laws/KeepsRecords.lean ====
section
/-! SUPPORT. What the functions of the recorder, the vault, the check-value unit and the encoder
keep of a state (Keeps): one lemma per function, each from those of the functions it calls. -/
namespace Sys2Proof.Machine

/-! ## Recorder -/

theorem keeps_setArchive {w : Bool} {s0 a1 : State} {a0} (h0 : Keeps w s0 a1) : Keeps w s0 (setArchive a0 a1) := by
  unfold setArchive
  try dsimp only
  repeat' first
    | with_reducible assumption
    | fail_if_no_progress with_reducible refine Keeps.upd ?_ rfl rfl rfl rfl

theorem keeps_archiveOne {s0 a0 : State} (h0 : Keeps true s0 a0) : Keeps true s0 (archiveOne a0) := by
  unfold archiveOne
  try dsimp only
  repeat' first
    | with_reducible assumption
    | with_reducible refine keeps_writeBytes ?_
    | with_reducible refine keeps_tookFrees ?_
    | with_reducible refine keeps_setArchive ?_

theorem keeps_archiveAll {s0 a1 : State} {a0} (h0 : Keeps true s0 a1) : Keeps true s0 (archiveAll a0 a1) := by
  induction a0 generalizing a1 with
  | zero => exact h0
  | succ n ih => unfold archiveAll; exact Keeps.ite (fun _ => h0) fun _ => ih (keeps_archiveOne h0)

theorem keeps_archiveLost {w : Bool} {s0 a0 : State} (h0 : Keeps w s0 a0) : Keeps w s0 (archiveLost a0) := by
  unfold archiveLost
  try dsimp only
  repeat' first
    | with_reducible assumption
    | with_reducible refine keeps_record0 ?_
    | with_reducible refine keeps_setArchive ?_
    | with_reducible refine Keeps.ite (fun _ => ?_) fun _ => ?_

theorem keeps_execArchiveBlockWrite {s0 a0 : State} (h0 : Keeps true s0 a0) : KeepsR true s0 (execArchiveBlockWrite a0) := by
  unfold execArchiveBlockWrite
  try dsimp only
  repeat' first
    | with_reducible assumption
    | with_reducible refine keeps_done ?_
    | with_reducible refine keeps_pumpRan ?_
    | with_reducible refine keeps_archiveOne ?_
    | with_reducible refine keeps_archiveLost ?_
    | with_reducible refine KeepsR.ite (fun _ => ?_) fun _ => ?_

theorem keeps_recordFreeze {w : Bool} {s0 a3 : State} {a0 a1 a2} (h0 : Keeps w s0 a3) : Keeps w s0 (recordFreeze a0 a1 a2 a3) := by
  unfold recordFreeze
  try dsimp only
  repeat' first
    | with_reducible assumption
    | with_reducible refine keeps_record0 ?_

theorem keeps_freeze {w : Bool} {s0 a2 : State} {a0 a1} (h0 : Keeps w s0 a2) : Keeps w s0 (freeze a0 a1 a2) := by
  unfold freeze
  try dsimp only
  repeat' first
    | with_reducible assumption
    | with_reducible refine keeps_settle ?_
    | with_reducible refine keeps_recordFreeze ?_
    | fail_if_no_progress with_reducible refine Keeps.upd ?_ rfl rfl rfl rfl

theorem keeps_thaw {w : Bool} {s0 a1 : State} {a0} (h0 : Keeps w s0 a1) : Keeps w s0 (thaw a0 a1) := by
  have h1 : Keeps w s0 { a1 with evr := { a1.evr with frozen := false, fifo := [], lostNow := 0 } } :=
    ⟨h0.queue, h0.mem, h0.wf, h0.free, h0.fuses, h0.warden, h0.chans, fun x => ⟨(h0.recorder x).1, Nat.zero_le _, (h0.recorder x).2.2⟩⟩
  have h2 : Keeps w s0 (a1.evr.fifo.foldl (fun s r => toRing r s) { a1 with evr := { a1.evr with frozen := false, fifo := [], lostNow := 0 } }) :=
    Keeps.foldl h1 fun _ _ h => keeps_toRing h
  exact keeps_recordFreeze (Keeps.ite (fun _ => keeps_record0 h2) fun _ => h2)

theorem keeps_freezeCmd {w : Bool} {s0 a1 : State} {a0} (h0 : Keeps w s0 a1) : KeepsA w s0 (freezeCmd a0 a1) := by
  unfold freezeCmd
  try dsimp only
  repeat' first
    | with_reducible assumption
    | with_reducible refine keeps_no ?_
    | with_reducible refine keeps_did ?_
    | with_reducible refine keeps_freeze ?_
    | with_reducible refine keeps_thaw ?_
    | with_reducible refine Keeps.ite (fun _ => ?_) fun _ => ?_
    | with_reducible refine KeepsA.ite (fun _ => ?_) fun _ => ?_

theorem keeps_execEvrFreeze {w : Bool} {s0 a1 : State} {a0} (h0 : Keeps w s0 a1) : KeepsR w s0 (execEvrFreeze a0 a1) := by
  unfold execEvrFreeze
  try dsimp only
  repeat' first
    | with_reducible assumption
    | with_reducible refine keeps_done ?_
    | with_reducible refine keeps_serve (fun _ _ _ => ?_) ?_
    | with_reducible refine keeps_freezeCmd ?_

theorem keeps_execEvrGetInfo {w : Bool} {s0 a1 : State} {a0} (h0 : Keeps w s0 a1) : KeepsR w s0 (execEvrGetInfo a0 a1) := by
  unfold execEvrGetInfo
  try dsimp only
  repeat' first
    | with_reducible assumption
    | with_reducible refine keeps_done ?_
    | with_reducible refine keeps_okR ?_
    | with_reducible refine keeps_serve (fun _ _ _ => ?_) ?_

theorem keeps_execEvrGetWeir {w : Bool} {s0 a1 : State} {a0} (h0 : Keeps w s0 a1) : KeepsR w s0 (execEvrGetWeir a0 a1) := by
  unfold execEvrGetWeir
  try dsimp only
  repeat' first
    | with_reducible assumption
    | with_reducible refine keeps_done ?_
    | with_reducible refine keeps_okR ?_
    | with_reducible refine keeps_serve (fun _ _ _ => ?_) ?_

theorem keeps_readRing {s0 a1 : State} {a0} (h0 : Keeps true s0 a1) : KeepsA true s0 (readRing a0 a1) := by
  unfold readRing
  try dsimp only
  repeat' first
    | with_reducible assumption
    | with_reducible refine keeps_tookFree ?_
    | with_reducible refine keeps_devPut ?_
    | with_reducible refine keeps_okR ?_
    | with_reducible refine keeps_no ?_
    | with_reducible refine KeepsA.ite (fun _ => ?_) fun _ => ?_
    | with_reducible refine Keeps.idd ?_
    | split
    | with_reducible refine KeepsA.mk ?_ fun _ _ => ?_

theorem keeps_execEvrRead {s0 a1 : State} {a0} (h0 : Keeps true s0 a1) : KeepsR true s0 (execEvrRead a0 a1) := by
  unfold execEvrRead
  try dsimp only
  repeat' first
    | with_reducible assumption
    | with_reducible refine keeps_done ?_
    | with_reducible refine keeps_serve (fun _ _ _ => ?_) ?_
    | with_reducible refine keeps_readRing ?_

theorem keeps_setArchiveCmd {w : Bool} {s0 a1 : State} {a0} (h0 : Keeps w s0 a1) : KeepsA w s0 (setArchiveCmd a0 a1) := by
  unfold setArchiveCmd
  try dsimp only
  repeat' first
    | with_reducible assumption
    | with_reducible refine keeps_wr ?_
    | with_reducible refine keeps_no ?_
    | with_reducible refine keeps_did ?_
    | with_reducible refine keeps_setArchive ?_
    | with_reducible refine KeepsA.ite (fun _ => ?_) fun _ => ?_

theorem keeps_execEvrSetArchive {w : Bool} {s0 a1 : State} {a0} (h0 : Keeps w s0 a1) : KeepsR w s0 (execEvrSetArchive a0 a1) := by
  unfold execEvrSetArchive
  try dsimp only
  repeat' first
    | with_reducible assumption
    | with_reducible refine keeps_done ?_
    | with_reducible refine keeps_serve (fun _ _ _ => ?_) ?_
    | with_reducible refine keeps_setArchiveCmd ?_

theorem keeps_weirSet {w : Bool} {s0 a4 : State} {a0 a1 a2 a3} (h0 : Keeps w s0 a4) : Keeps w s0 (weirSet a0 a1 a2 a3 a4) := by
  unfold weirSet
  try dsimp only
  repeat' first
    | with_reducible assumption
    | with_reducible refine keeps_setWeir ?_
    | with_reducible refine keeps_weirSummary ?_
    | with_reducible refine Keeps.ite (fun _ => ?_) fun _ => ?_

theorem keeps_setWeirCmd {w : Bool} {s0 a2 : State} {a0 a1} (h0 : Keeps w s0 a2) : KeepsA w s0 (setWeirCmd a0 a1 a2) := by
  unfold setWeirCmd
  try dsimp only
  repeat' first
    | with_reducible assumption
    | with_reducible refine keeps_no ?_
    | with_reducible refine keeps_did ?_
    | with_reducible refine keeps_weirSet ?_
    | with_reducible refine KeepsA.ite (fun _ => ?_) fun _ => ?_

theorem keeps_execEvrSetSecureWeir {w : Bool} {s0 a1 : State} {a0} (h0 : Keeps w s0 a1) : KeepsR w s0 (execEvrSetSecureWeir a0 a1) := by
  unfold execEvrSetSecureWeir
  try dsimp only
  repeat' first
    | with_reducible assumption
    | with_reducible refine keeps_done ?_
    | with_reducible refine keeps_serve (fun _ _ _ => ?_) ?_
    | with_reducible refine keeps_setWeirCmd ?_

theorem keeps_execEvrSetVaultSev {w : Bool} {s0 a1 : State} {a0} (h0 : Keeps w s0 a1) : KeepsR w s0 (execEvrSetVaultSev a0 a1) := by
  unfold execEvrSetVaultSev
  try dsimp only
  repeat' first
    | with_reducible assumption
    | with_reducible refine keeps_wr ?_
    | with_reducible refine keeps_done ?_
    | with_reducible refine keeps_did ?_
    | with_reducible refine keeps_serve (fun _ _ _ => ?_) ?_

theorem keeps_execEvrSetWeir {w : Bool} {s0 a1 : State} {a0} (h0 : Keeps w s0 a1) : KeepsR w s0 (execEvrSetWeir a0 a1) := by
  unfold execEvrSetWeir
  try dsimp only
  repeat' first
    | with_reducible assumption
    | with_reducible refine keeps_done ?_
    | with_reducible refine keeps_serve (fun _ _ _ => ?_) ?_
    | with_reducible refine keeps_setWeirCmd ?_

theorem keeps_snapshotCmd {s0 a1 : State} {a0} (h0 : Keeps true s0 a1) : KeepsA true s0 (snapshotCmd a0 a1) := by
  unfold snapshotCmd
  try dsimp only
  repeat' first
    | with_reducible assumption
    | with_reducible refine keeps_devPut ?_
    | with_reducible refine keeps_no ?_
    | with_reducible refine keeps_reply ?_
    | with_reducible refine keeps_pend ?_ (fun _ _ => ?_)
    | with_reducible refine keeps_freeze ?_
    | with_reducible refine keeps_thaw ?_
    | with_reducible refine KeepsA.ite (fun _ => ?_) fun _ => ?_
    | with_reducible refine Keeps.foldl ?_ fun _ _ _ => ?_

theorem keeps_execEvrSnapshot {s0 a1 : State} {a0} (h0 : Keeps true s0 a1) : KeepsR true s0 (execEvrSnapshot a0 a1) := by
  unfold execEvrSnapshot
  try dsimp only
  repeat' first
    | with_reducible assumption
    | with_reducible refine keeps_done ?_
    | with_reducible refine keeps_serve (fun _ _ _ => ?_) ?_
    | with_reducible refine keeps_snapshotCmd ?_

theorem keeps_execFreezeTimeout {w : Bool} {s0 a0 : State} (h0 : Keeps w s0 a0) : KeepsR w s0 (execFreezeTimeout a0) := by
  unfold execFreezeTimeout
  try dsimp only
  repeat' first
    | with_reducible assumption
    | with_reducible refine keeps_done ?_
    | with_reducible refine keeps_advanceTo ?_
    | with_reducible refine keeps_thaw ?_
    | with_reducible refine KeepsR.mk ?_
    | with_reducible refine KeepsR.ite (fun _ => ?_) fun _ => ?_

theorem keeps_execWeirSummary {w : Bool} {s0 a1 : State} {a0} (h0 : Keeps w s0 a1) : KeepsR w s0 (execWeirSummary a0 a1) := by
  unfold execWeirSummary
  try dsimp only
  repeat' first
    | with_reducible assumption
    | with_reducible refine keeps_setWeir ?_
    | with_reducible refine keeps_weirSummaryDue ?_
    | with_reducible refine keeps_done ?_
    | with_reducible refine keeps_advanceDevice ?_
    | with_reducible refine KeepsR.mk ?_
    | with_reducible refine KeepsR.ite (fun _ => ?_) fun _ => ?_

/-! ## Vault -/

theorem keeps_extend {w : Bool} {s0 a2 : State} {a0 a1} (h0 : Keeps w s0 a2) : Keeps w s0 (extend a0 a1 a2) := by
  unfold extend
  try dsimp only
  repeat' first
    | with_reducible assumption
    | with_reducible refine keeps_vltWrite ?_

theorem keeps_tearSync {w : Bool} {s0 a0 : State} (h0 : Keeps w s0 a0) : Keeps w s0 (tearSync a0) := by
  unfold tearSync
  try dsimp only
  repeat' first
    | with_reducible assumption
    | with_reducible refine keeps_tookFrees ?_
    | with_reducible refine keeps_setVlt ?_
    | with_reducible refine Keeps.ite (fun _ => ?_) fun _ => ?_

theorem keeps_startSync {w : Bool} {s0 a0 : State} (h0 : Keeps w s0 a0) : Keeps w s0 (startSync a0) := by
  unfold startSync
  try dsimp only
  repeat' first
    | with_reducible assumption
    | with_reducible refine keeps_wr ?_
    | with_reducible refine keeps_setVlt ?_
    | with_reducible refine Keeps.ite (fun _ => ?_) fun _ => ?_

theorem keeps_meterCtrlWrite {w : Bool} {s0 a1 : State} {a0} (h0 : Keeps w s0 a1) : Keeps w s0 (meterCtrlWrite a0 a1) := by
  unfold meterCtrlWrite
  try dsimp only
  repeat' first
    | with_reducible assumption
    | with_reducible refine keeps_wr ?_
    | with_reducible refine keeps_startSync ?_
    | with_reducible refine Keeps.ite (fun _ => ?_) fun _ => ?_

theorem keeps_cntInc {w : Bool} {s0 a1 : State} {a0} (h0 : Keeps w s0 a1) : Keeps w s0 (cntInc a0 a1) := by
  unfold cntInc
  try dsimp only
  repeat' first
    | with_reducible assumption
    | with_reducible refine keeps_vltWrite ?_

theorem keeps_execVltCntInc {w : Bool} {s0 a3 : State} {a0 a1 a2} (h0 : Keeps w s0 a3) : KeepsR w s0 (execVltCntInc a0 a1 a2 a3) := by
  unfold execVltCntInc
  try dsimp only
  repeat' first
    | with_reducible assumption
    | with_reducible refine keeps_violateAt ?_
    | with_reducible refine keeps_regWrite (fun _ _ _ => ?_) ?_
    | with_reducible refine keeps_cntInc ?_
    | with_reducible refine Keeps.ite (fun _ => ?_) fun _ => ?_

theorem keeps_execVltExtGo {w : Bool} {s0 a3 : State} {a0 a1 a2} (h0 : Keeps w s0 a3) : KeepsR w s0 (execVltExtGo a0 a1 a2 a3) := by
  unfold execVltExtGo
  try dsimp only
  repeat' first
    | with_reducible assumption
    | with_reducible refine keeps_violateAt ?_
    | with_reducible refine keeps_regWrite (fun _ _ _ => ?_) ?_
    | with_reducible refine keeps_extend ?_
    | with_reducible refine Keeps.ite (fun _ => ?_) fun _ => ?_

theorem keeps_finishSync {w : Bool} {s0 a0 : State} (h0 : Keeps w s0 a0) : Keeps w s0 (finishSync a0) := by
  unfold finishSync
  try dsimp only
  repeat' first
    | with_reducible assumption
    | with_reducible refine keeps_tookFrees ?_
    | with_reducible refine keeps_setVlt ?_
    | split

theorem keeps_critPut {w : Bool} {s0 a1 : State} {a0} (h0 : Keeps w s0 a1) : Keeps w s0 (critPut a0 a1) := by
  unfold critPut
  try dsimp only
  repeat' first
    | with_reducible assumption
    | with_reducible refine keeps_vltWrite ?_

theorem keeps_vaultWriteOne {w : Bool} {s0 a0 : State} (h0 : Keeps w s0 a0) : Keeps w s0 (vaultWriteOne a0) := by
  unfold vaultWriteOne
  split
  · next r t e =>
    exact keeps_critPut ⟨h0.queue, h0.mem, h0.wf, h0.free, h0.fuses, h0.warden, h0.chans, fun x => by
      have := h0.recorder x
      rw [RecorderBounded, e, List.length_cons] at this
      exact ⟨this.1, this.2.1, by show t.length ≤ 16; omega⟩⟩
  · exact h0

theorem keeps_flushSteps_vaultDrain {w : Bool} {s0 a1 : State} {a0} (h0 : Keeps w s0 a1) : Keeps w s0 (flushSteps.vaultDrain a0 a1) := by
  induction a0 generalizing a1 with
  | zero => exact h0
  | succ n ih => exact ih (keeps_vaultWriteOne h0)

theorem keeps_flushSteps {w : Bool} {s0 a0 : State} (h0 : Keeps w s0 a0) : Keeps w s0 (flushSteps a0) := by
  unfold flushSteps
  try dsimp only
  repeat' first
    | with_reducible assumption
    | with_reducible refine keeps_wr ?_
    | with_reducible refine keeps_settle ?_
    | with_reducible refine keeps_advanceTo ?_
    | with_reducible refine keeps_setVlt ?_
    | with_reducible refine keeps_startSync ?_
    | with_reducible refine keeps_finishSync ?_
    | with_reducible refine keeps_flushSteps_vaultDrain ?_

theorem keeps_execMeterSyncDone {w : Bool} {s0 a0 : State} (h0 : Keeps w s0 a0) : KeepsR w s0 (execMeterSyncDone a0) := by
  unfold execMeterSyncDone
  try dsimp only
  repeat' first
    | with_reducible assumption
    | with_reducible refine keeps_done ?_
    | with_reducible refine keeps_finishSync ?_

theorem keeps_execPowerFail {w : Bool} {s0 a0 : State} (h0 : Keeps w s0 a0) : KeepsR w s0 (execPowerFail a0) := by
  unfold execPowerFail
  try dsimp only
  repeat' first
    | with_reducible assumption
    | with_reducible refine keeps_wr ?_
    | with_reducible refine keeps_record0 ?_
    | with_reducible refine keeps_done ?_
    | with_reducible refine keeps_setVlt ?_
    | with_reducible refine keeps_cntInc ?_
    | with_reducible refine keeps_flushSteps ?_
    | with_reducible refine KeepsR.mk ?_
    | fail_if_no_progress with_reducible refine Keeps.upd ?_ rfl rfl rfl rfl
    | with_reducible refine KeepsR.ite (fun _ => ?_) fun _ => ?_

theorem keeps_tamperChange {w : Bool} {s0 a2 : State} {a0 a1} (h0 : Keeps w s0 a2) : Keeps w s0 (tamperChange a0 a1 a2) := by
  unfold tamperChange
  try dsimp only
  repeat' first
    | with_reducible assumption
    | with_reducible refine keeps_record0 ?_
    | with_reducible refine keeps_notifyWardenAnd0 ?_
    | with_reducible refine keeps_critPut ?_
    | fail_if_no_progress with_reducible refine Keeps.upd ?_ rfl rfl rfl rfl
    | with_reducible refine Keeps.ite (fun _ => ?_) fun _ => ?_

theorem keeps_tamperOne {w : Bool} {s0 a2 : State} {a0 a1} (h0 : Keeps w s0 a2) : Keeps w s0 (tamperOne a0 a1 a2) := by
  unfold tamperOne
  try dsimp only
  repeat' first
    | with_reducible assumption
    | with_reducible refine keeps_setVlt ?_
    | with_reducible refine keeps_tamperChange ?_
    | with_reducible refine Keeps.ite (fun _ => ?_) fun _ => ?_

theorem keeps_execTamperSample {w : Bool} {s0 a1 : State} {a0} (h0 : Keeps w s0 a1) : KeepsR w s0 (execTamperSample a0 a1) := by
  unfold execTamperSample
  try dsimp only
  repeat' first
    | with_reducible assumption
    | with_reducible refine keeps_done ?_
    | with_reducible refine keeps_advanceTo ?_
    | with_reducible refine keeps_tamperOne ?_
    | fail_if_no_progress with_reducible refine Keeps.upd ?_ rfl rfl rfl rfl
    | with_reducible refine Keeps.ite (fun _ => ?_) fun _ => ?_
    | with_reducible refine Keeps.foldl ?_ fun _ _ _ => ?_

theorem keeps_execVaultQueueWrite {w : Bool} {s0 a0 : State} (h0 : Keeps w s0 a0) : KeepsR w s0 (execVaultQueueWrite a0) := by
  unfold execVaultQueueWrite
  try dsimp only
  repeat' first
    | with_reducible assumption
    | with_reducible refine keeps_done ?_
    | with_reducible refine keeps_vaultWriteOne ?_
    | with_reducible refine Keeps.ite (fun _ => ?_) fun _ => ?_

theorem keeps_vbatMeasure {w : Bool} {s0 a1 : State} {a0} (h0 : Keeps w s0 a1) : Keeps w s0 (vbatMeasure a0 a1) := by
  unfold vbatMeasure
  try dsimp only
  repeat' first
    | with_reducible assumption
    | with_reducible refine keeps_record0 ?_
    | with_reducible refine keeps_setVlt ?_
    | with_reducible refine Keeps.ite (fun _ => ?_) fun _ => ?_

theorem keeps_execVbatMeasure {w : Bool} {s0 a1 : State} {a0} (h0 : Keeps w s0 a1) : KeepsR w s0 (execVbatMeasure a0 a1) := by
  unfold execVbatMeasure
  try dsimp only
  repeat' first
    | with_reducible assumption
    | with_reducible refine keeps_done ?_
    | with_reducible refine keeps_advanceTo ?_
    | with_reducible refine keeps_vbatMeasure ?_
    | fail_if_no_progress with_reducible refine Keeps.upd ?_ rfl rfl rfl rfl

theorem keeps_execVltGetCritical {s0 a1 : State} {a0} (h0 : Keeps true s0 a1) : KeepsR true s0 (execVltGetCritical a0 a1) := by
  unfold execVltGetCritical
  try dsimp only
  repeat' first
    | with_reducible assumption
    | with_reducible refine keeps_done ?_
    | with_reducible refine keeps_devPut ?_
    | with_reducible refine keeps_okR ?_
    | with_reducible refine keeps_serve (fun _ _ _ => ?_) ?_

theorem keeps_execVltGetMeters {s0 a1 : State} {a0} (h0 : Keeps true s0 a1) : KeepsR true s0 (execVltGetMeters a0 a1) := by
  unfold execVltGetMeters
  try dsimp only
  repeat' first
    | with_reducible assumption
    | with_reducible refine keeps_done ?_
    | with_reducible refine keeps_devPut ?_
    | with_reducible refine keeps_okR ?_
    | with_reducible refine keeps_serve (fun _ _ _ => ?_) ?_
    | split

theorem keeps_execVltGetStatus {w : Bool} {s0 a1 : State} {a0} (h0 : Keeps w s0 a1) : KeepsR w s0 (execVltGetStatus a0 a1) := by
  unfold execVltGetStatus
  try dsimp only
  repeat' first
    | with_reducible assumption
    | with_reducible refine keeps_done ?_
    | with_reducible refine keeps_okR ?_
    | with_reducible refine keeps_serve (fun _ _ _ => ?_) ?_

theorem keeps_execVltMeterSync {w : Bool} {s0 a3 : State} {a0 a1 a2} (h0 : Keeps w s0 a3) : KeepsR w s0 (execVltMeterSync a0 a1 a2 a3) := by
  unfold execVltMeterSync
  try dsimp only
  repeat' first
    | with_reducible assumption
    | with_reducible refine keeps_regWrite (fun _ _ _ => ?_) ?_
    | with_reducible refine keeps_meterCtrlWrite ?_

theorem keeps_execVltSetRtc {w : Bool} {s0 a1 : State} {a0} (h0 : Keeps w s0 a1) : KeepsR w s0 (execVltSetRtc a0 a1) := by
  unfold execVltSetRtc
  try dsimp only
  repeat' first
    | with_reducible assumption
    | with_reducible refine keeps_done ?_
    | with_reducible refine keeps_did ?_
    | with_reducible refine keeps_serve (fun _ _ _ => ?_) ?_
    | with_reducible refine keeps_rtcSet ?_

theorem keeps_execVltSetTamper {w : Bool} {s0 a1 : State} {a0} (h0 : Keeps w s0 a1) : KeepsR w s0 (execVltSetTamper a0 a1) := by
  unfold execVltSetTamper
  try dsimp only
  repeat' first
    | with_reducible assumption
    | with_reducible refine keeps_done ?_
    | with_reducible refine keeps_did ?_
    | with_reducible refine keeps_serve (fun _ _ _ => ?_) ?_
    | with_reducible refine keeps_vltWrite ?_

/-! ## CheckValue -/

theorem keeps_setCvu {w : Bool} {s0 a2 : State} {a0 a1} (h0 : Keeps w s0 a2) : Keeps w s0 (setCvu a0 a1 a2) := by
  unfold setCvu
  try dsimp only
  repeat' first
    | with_reducible assumption
    | fail_if_no_progress with_reducible refine Keeps.upd ?_ rfl rfl rfl rfl

theorem keeps_cvuAbort {w : Bool} {s0 a1 : State} {a0} (h0 : Keeps w s0 a1) : Keeps w s0 (cvuAbort a0 a1) := by
  unfold cvuAbort
  try dsimp only
  repeat' first
    | with_reducible assumption
    | with_reducible refine keeps_setCvu ?_
    | split

theorem keeps_cvuEnd {w : Bool} {s0 a4 : State} {a0 a1 a2 a3} (h0 : Keeps w s0 a4) : Keeps w s0 (cvuEnd a0 a1 a2 a3 a4) := by
  unfold cvuEnd
  try dsimp only
  repeat' first
    | with_reducible assumption
    | with_reducible refine keeps_wr ?_
    | with_reducible refine keeps_raiseLine ?_
    | with_reducible refine keeps_setCvu ?_
    | with_reducible refine Keeps.ite (fun _ => ?_) fun _ => ?_

theorem keeps_cvuFault {w : Bool} {s0 a4 : State} {a0 a1 a2 a3} (h0 : Keeps w s0 a4) : Keeps w s0 (cvuFault a0 a1 a2 a3 a4) := by
  unfold cvuFault
  try dsimp only
  repeat' first
    | with_reducible assumption
    | with_reducible refine keeps_record0 ?_
    | with_reducible refine keeps_cvuEnd ?_

theorem keeps_cvuStart {w : Bool} {s0 a2 : State} {a0 a1} (h0 : Keeps w s0 a2) : Keeps w s0 (cvuStart a0 a1 a2) := by
  unfold cvuStart
  try dsimp only
  repeat' first
    | with_reducible assumption
    | with_reducible refine keeps_wr ?_
    | with_reducible refine keeps_setCvu ?_
    | with_reducible refine keeps_cvuFault ?_
    | with_reducible refine Keeps.ite (fun _ => ?_) fun _ => ?_

theorem keeps_startWrite {w : Bool} {s0 a2 : State} {a0 a1} (h0 : Keeps w s0 a2) : Keeps w s0 (startWrite a0 a1 a2) := by
  unfold startWrite
  try dsimp only
  repeat' first
    | with_reducible assumption
    | with_reducible refine keeps_cvuAbort ?_
    | with_reducible refine keeps_cvuStart ?_
    | with_reducible refine Keeps.ite (fun _ => ?_) fun _ => ?_

theorem keeps_execCvuStart {w : Bool} {s0 a3 : State} {a0 a1 a2} (h0 : Keeps w s0 a3) : KeepsR w s0 (execCvuStart a0 a1 a2 a3) := by
  unfold execCvuStart
  try dsimp only
  repeat' first
    | with_reducible assumption
    | with_reducible refine keeps_regWrite (fun _ _ _ => ?_) ?_
    | with_reducible refine keeps_startWrite ?_

theorem keeps_execCvuStartAbort {w : Bool} {s0 a3 : State} {a0 a1 a2} (h0 : Keeps w s0 a3) : KeepsR w s0 (execCvuStartAbort a0 a1 a2 a3) := by
  unfold execCvuStartAbort
  try dsimp only
  repeat' first
    | with_reducible assumption
    | with_reducible refine keeps_regWrite (fun _ _ _ => ?_) ?_
    | with_reducible refine keeps_startWrite ?_

theorem keeps_cvuAbortPolder {w : Bool} {s0 a1 : State} {a0} (h0 : Keeps w s0 a1) : Keeps w s0 (cvuAbortPolder a0 a1) := by
  unfold cvuAbortPolder
  try dsimp only
  repeat' first
    | with_reducible assumption
    | with_reducible refine keeps_cvuAbort ?_
    | with_reducible refine Keeps.foldl ?_ fun _ _ _ => ?_

theorem keeps_putRun {w : Bool} {s0 a2 : State} {a0 a1} (h0 : Keeps w s0 a2) : Keeps w s0 (putRun a0 a1 a2) := by
  unfold putRun
  try dsimp only
  repeat' first
    | with_reducible assumption
    | with_reducible refine keeps_wr ?_
    | with_reducible refine Keeps.foldl ?_ fun _ _ _ => ?_

theorem keeps_leaveRun {w : Bool} {s0 a3 : State} {a0 a1 a2} (h0 : Keeps w s0 a3) : Keeps w s0 (leaveRun a0 a1 a2 a3) := by
  unfold leaveRun
  try dsimp only
  repeat' first
    | with_reducible assumption
    | with_reducible refine keeps_putRun ?_
    | with_reducible refine Keeps.ite (fun _ => ?_) fun _ => ?_

theorem keeps_putResult {w : Bool} {s0 a2 : State} {a0 a1} (h0 : Keeps w s0 a2) : Keeps w s0 (putResult a0 a1 a2) := by
  unfold putResult
  try dsimp only
  repeat' first
    | with_reducible assumption
    | with_reducible refine keeps_wr ?_
    | with_reducible refine Keeps.foldl ?_ fun _ _ _ => ?_

theorem keeps_freeRun {w : Bool} {s0 a1 : State} {a0} (h0 : Keeps w s0 a1) : Keeps w s0 (freeRun a0 a1) := by
  unfold freeRun
  try dsimp only
  repeat' first
    | with_reducible assumption
    | with_reducible refine keeps_tookFrees ?_
    | with_reducible refine keeps_putRun ?_

theorem keeps_cvuComplete {w : Bool} {s0 a3 : State} {a0 a1 a2} (h0 : Keeps w s0 a3) : Keeps w s0 (cvuComplete a0 a1 a2 a3) := by
  unfold cvuComplete
  try dsimp only
  repeat' first
    | with_reducible assumption
    | with_reducible refine keeps_record0 ?_
    | with_reducible refine keeps_cvuEnd ?_
    | with_reducible refine keeps_leaveRun ?_
    | with_reducible refine keeps_putResult ?_
    | with_reducible refine keeps_freeRun ?_
    | with_reducible refine Keeps.ite (fun _ => ?_) fun _ => ?_

theorem keeps_cvuPage {w : Bool} {s0 a3 : State} {a0 a1 a2} (h0 : Keeps w s0 a3) : KeepsP2 w s0 (cvuPage a0 a1 a2 a3) := by
  unfold cvuPage
  try dsimp only
  repeat' first
    | with_reducible assumption
    | with_reducible refine keeps_devPage ?_
    | with_reducible refine KeepsP2.mk ?_
    | with_reducible refine KeepsP2.elim (by assumption) ?_
    | split

theorem keeps_cvuScan {w : Bool} {s0 a3 : State} {a0 a1 a2} (h0 : Keeps w s0 a3) : KeepsP2 w s0 (cvuScan a0 a1 a2 a3) := by
  unfold cvuScan
  try dsimp only
  repeat' first
    | with_reducible assumption
    | with_reducible refine KeepsP2.snd (keeps_cvuPage ?_)
    | with_reducible refine KeepsP2.mk ?_
    | with_reducible refine KeepsP2.snd (KeepsP2.foldl ?_ fun _ _ _ => ?_)
    | split

theorem keeps_cvuMemFault {w : Bool} {s0 a4 : State} {a0 a1 a2 a3} (h0 : Keeps w s0 a4) : Keeps w s0 (cvuMemFault a0 a1 a2 a3 a4) := by
  unfold cvuMemFault
  try dsimp only
  repeat' first
    | with_reducible assumption
    | with_reducible refine keeps_polFault ?_
    | with_reducible refine keeps_cvuFault ?_
    | with_reducible refine keeps_freeRun ?_

theorem keeps_cvuFinish {w : Bool} {s0 a3 : State} {a0 a1 a2} (h0 : Keeps w s0 a3) : Keeps w s0 (cvuFinish a0 a1 a2 a3) := by
  unfold cvuFinish
  try dsimp only
  repeat' first
    | with_reducible assumption
    | with_reducible refine keeps_wr ?_
    | with_reducible refine keeps_tookFree ?_
    | with_reducible refine keeps_cvuEnd ?_
    | with_reducible refine keeps_leaveRun ?_
    | with_reducible refine keeps_cvuComplete ?_
    | with_reducible refine keeps_cvuMemFault ?_
    | with_reducible refine KeepsP2.snd (keeps_cvuScan ?_)
    | with_reducible refine Keeps.ite (fun _ => ?_) fun _ => ?_

theorem keeps_cvuOwn {w : Bool} {s0 a3 : State} {a0 a1 a2 a4} (h0 : Keeps w s0 a3) (h1 : ∀ b0, Keeps w s0 b0 → KeepsA w s0 (a4 b0)) : KeepsA w s0 (cvuOwn a0 a1 a2 a3 a4) := by
  unfold cvuOwn
  try dsimp only
  repeat' first
    | with_reducible assumption
    | with_reducible apply h1
    | with_reducible refine keeps_no ?_
    | with_reducible refine KeepsA.ite (fun _ => ?_) fun _ => ?_

theorem keeps_fieldReply {w : Bool} {s0 a2 : State} {a0 a1} (h0 : Keeps w s0 a2) : Keeps w s0 (fieldReply a0 a1 a2) := by
  unfold fieldReply
  try dsimp only
  repeat' first
    | with_reducible assumption
    | with_reducible refine keeps_reply ?_
    | with_reducible refine Keeps.ite (fun _ => ?_) fun _ => ?_
    | split

theorem keeps_cvuStop {w : Bool} {s0 a1 : State} {a0} (h0 : Keeps w s0 a1) : Keeps w s0 (cvuStop a0 a1) := by
  unfold cvuStop
  try dsimp only
  repeat' first
    | with_reducible assumption
    | with_reducible refine keeps_cvuFinish ?_
    | with_reducible refine keeps_fieldReply ?_
    | with_reducible refine Keeps.foldl ?_ fun _ _ _ => ?_
    | split

theorem keeps_cvuReset {w : Bool} {s0 a1 : State} {a0} (h0 : Keeps w s0 a1) : Keeps w s0 (cvuReset a0 a1) := by
  unfold cvuReset
  try dsimp only
  repeat' first
    | with_reducible assumption
    | with_reducible refine keeps_wr ?_
    | with_reducible refine keeps_putRun ?_
    | with_reducible refine keeps_putResult ?_
    | with_reducible refine keeps_cvuStop ?_
    | with_reducible refine Keeps.foldl ?_ fun _ _ _ => ?_

theorem keeps_putDescriptor {w : Bool} {s0 a2 : State} {a0 a1} (h0 : Keeps w s0 a2) : Keeps w s0 (putDescriptor a0 a1 a2) := by
  unfold putDescriptor
  try dsimp only
  repeat' first
    | with_reducible assumption
    | with_reducible refine keeps_wr ?_
    | with_reducible refine keeps_writeFlds ?_
    | with_reducible refine Keeps.foldl ?_ fun _ _ _ => ?_

theorem keeps_cvuRunCmd {w : Bool} {s0 a1 : State} {a0} (h0 : Keeps w s0 a1) : KeepsA w s0 (cvuRunCmd a0 a1) := by
  unfold cvuRunCmd
  try dsimp only
  repeat' first
    | with_reducible assumption
    | with_reducible refine keeps_no ?_
    | with_reducible refine keeps_did ?_
    | with_reducible refine keeps_cvuStart ?_
    | with_reducible refine keeps_cvuOwn ?_ (fun _ _ => ?_)
    | with_reducible refine keeps_putDescriptor ?_
    | with_reducible refine KeepsA.ite (fun _ => ?_) fun _ => ?_

theorem keeps_execCvuAbort {w : Bool} {s0 a1 : State} {a0} (h0 : Keeps w s0 a1) : KeepsR w s0 (execCvuAbort a0 a1) := by
  unfold execCvuAbort
  try dsimp only
  repeat' first
    | with_reducible assumption
    | with_reducible refine keeps_done ?_
    | with_reducible refine keeps_did ?_
    | with_reducible refine keeps_serve (fun _ _ _ => ?_) ?_
    | with_reducible refine keeps_cvuAbort ?_
    | with_reducible refine keeps_cvuOwn ?_ (fun _ _ => ?_)

theorem keeps_fieldCheckCmd {w : Bool} {s0 a1 : State} {a0} (h0 : Keeps w s0 a1) : KeepsA w s0 (fieldCheckCmd a0 a1) := by
  unfold fieldCheckCmd
  try dsimp only
  repeat' first
    | with_reducible assumption
    | with_reducible refine keeps_no ?_
    | with_reducible refine keeps_cvuStart ?_
    | with_reducible refine keeps_pend ?_ (fun _ _ => ?_)
    | with_reducible refine KeepsA.ite (fun _ => ?_) fun _ => ?_
    | with_reducible refine Keeps.idd ?_
    | split

theorem keeps_execCvuFieldCheck {w : Bool} {s0 a1 : State} {a0} (h0 : Keeps w s0 a1) : KeepsR w s0 (execCvuFieldCheck a0 a1) := by
  unfold execCvuFieldCheck
  try dsimp only
  repeat' first
    | with_reducible assumption
    | with_reducible refine keeps_done ?_
    | with_reducible refine keeps_serve (fun _ _ _ => ?_) ?_
    | with_reducible refine keeps_fieldCheckCmd ?_

theorem keeps_execCvuGetChannel {w : Bool} {s0 a1 : State} {a0} (h0 : Keeps w s0 a1) : KeepsR w s0 (execCvuGetChannel a0 a1) := by
  unfold execCvuGetChannel
  try dsimp only
  repeat' first
    | with_reducible assumption
    | with_reducible refine keeps_done ?_
    | with_reducible refine keeps_okR ?_
    | with_reducible refine keeps_no ?_
    | with_reducible refine keeps_serve (fun _ _ _ => ?_) ?_
    | with_reducible refine KeepsA.ite (fun _ => ?_) fun _ => ?_

theorem keeps_execCvuJobEnd {w : Bool} {s0 a2 : State} {a0 a1} (h0 : Keeps w s0 a2) : KeepsR w s0 (execCvuJobEnd a0 a1 a2) := by
  unfold execCvuJobEnd
  try dsimp only
  repeat' first
    | with_reducible assumption
    | with_reducible refine keeps_done ?_
    | with_reducible refine keeps_tookFree ?_
    | with_reducible refine keeps_cvuFinish ?_
    | with_reducible refine keeps_fieldReply ?_
    | with_reducible refine KeepsR.mk ?_
    | with_reducible refine KeepsR.ite (fun _ => ?_) fun _ => ?_
    | split

theorem keeps_execCvuLoad {w : Bool} {s0 a1 : State} {a0} (h0 : Keeps w s0 a1) : KeepsR w s0 (execCvuLoad a0 a1) := by
  unfold execCvuLoad
  try dsimp only
  repeat' first
    | with_reducible assumption
    | with_reducible refine keeps_done ?_
    | with_reducible refine keeps_did ?_
    | with_reducible refine keeps_serve (fun _ _ _ => ?_) ?_
    | with_reducible refine keeps_putRun ?_
    | with_reducible refine keeps_cvuOwn ?_ (fun _ _ => ?_)

theorem keeps_execCvuRun {w : Bool} {s0 a1 : State} {a0} (h0 : Keeps w s0 a1) : KeepsR w s0 (execCvuRun a0 a1) := by
  unfold execCvuRun
  try dsimp only
  repeat' first
    | with_reducible assumption
    | with_reducible refine keeps_done ?_
    | with_reducible refine keeps_serve (fun _ _ _ => ?_) ?_
    | with_reducible refine keeps_cvuRunCmd ?_

theorem keeps_execCvuSave {w : Bool} {s0 a1 : State} {a0} (h0 : Keeps w s0 a1) : KeepsR w s0 (execCvuSave a0 a1) := by
  unfold execCvuSave
  try dsimp only
  repeat' first
    | with_reducible assumption
    | with_reducible refine keeps_done ?_
    | with_reducible refine keeps_okR ?_
    | with_reducible refine keeps_serve (fun _ _ _ => ?_) ?_
    | with_reducible refine keeps_cvuOwn ?_ (fun _ _ => ?_)

theorem keeps_execCvuSetKey {w : Bool} {s0 a1 : State} {a0} (h0 : Keeps w s0 a1) : KeepsR w s0 (execCvuSetKey a0 a1) := by
  unfold execCvuSetKey
  try dsimp only
  repeat' first
    | with_reducible assumption
    | with_reducible refine keeps_wr ?_
    | with_reducible refine keeps_done ?_
    | with_reducible refine keeps_did ?_
    | with_reducible refine keeps_serve (fun _ _ _ => ?_) ?_
    | with_reducible refine keeps_cvuOwn ?_ (fun _ _ => ?_)
    | with_reducible refine Keeps.foldl ?_ fun _ _ _ => ?_

/-! ## Encode -/

theorem keeps_requestKey {w : Bool} {s0 a1 : State} {a0} (h0 : Keeps w s0 a1) : Keeps w s0 (requestKey a0 a1) := by
  unfold requestKey
  try dsimp only
  repeat' first
    | with_reducible assumption
    | with_reducible refine keeps_setSes ?_
    | with_reducible refine Keeps.ite (fun _ => ?_) fun _ => ?_
    | split

theorem keeps_execVcdKeyreq {w : Bool} {s0 a3 : State} {a0 a1 a2} (h0 : Keeps w s0 a3) : KeepsR w s0 (execVcdKeyreq a0 a1 a2 a3) := by
  unfold execVcdKeyreq
  try dsimp only
  repeat' first
    | with_reducible assumption
    | with_reducible refine keeps_violateAt ?_
    | with_reducible refine keeps_regWrite (fun _ _ _ => ?_) ?_
    | with_reducible refine keeps_requestKey ?_
    | with_reducible refine KeepsR.mk ?_
    | with_reducible refine Keeps.ite (fun _ => ?_) fun _ => ?_
    | split

theorem keeps_beginEncode {w : Bool} {s0 a2 : State} {a0 a1} (h0 : Keeps w s0 a2) : Keeps w s0 (beginEncode a0 a1 a2) := by
  unfold beginEncode
  try dsimp only
  repeat' first
    | with_reducible assumption
    | with_reducible refine keeps_setSes ?_
    | split

theorem keeps_putChunk {s0 a3 : State} {a0 a1 a2} (h0 : Keeps true s0 a3) : KeepsP true s0 (putChunk a0 a1 a2 a3) := by
  unfold putChunk
  try dsimp only
  repeat' first
    | with_reducible assumption
    | with_reducible refine keeps_wr ?_
    | with_reducible refine keeps_tookFree ?_
    | with_reducible refine keeps_devWrite ?_
    | with_reducible refine keeps_sesEvent ?_
    | with_reducible refine KeepsP.snd (keeps_devWrite ?_)
    | with_reducible refine KeepsP.mk ?_
    | with_reducible refine KeepsP.elim (by assumption) ?_
    | split

theorem keeps_execEncRingResume {s0 a1 : State} {a0} (h0 : Keeps true s0 a1) : KeepsR true s0 (execEncRingResume a0 a1) := by
  unfold execEncRingResume
  try dsimp only
  repeat' first
    | with_reducible assumption
    | with_reducible refine keeps_done ?_
    | with_reducible refine keeps_tookFree ?_
    | with_reducible refine keeps_setSes ?_
    | with_reducible refine keeps_sesStopIf ?_
    | with_reducible refine keeps_putChunk ?_
    | with_reducible refine KeepsR.mk ?_
    | with_reducible refine KeepsR.ite (fun _ => ?_) fun _ => ?_
    | split

theorem keeps_picChunk {s0 a3 : State} {a0 a1 a2} (h0 : Keeps true s0 a3) : Keeps true s0 (picChunk a0 a1 a2 a3) := by
  unfold picChunk
  try dsimp only
  repeat' first
    | with_reducible assumption
    | with_reducible refine keeps_record0 ?_
    | with_reducible refine keeps_setSes ?_
    | with_reducible refine keeps_putPic ?_
    | with_reducible refine keeps_sesEvent ?_
    | with_reducible refine keeps_sesNotify ?_
    | with_reducible refine keeps_sesStopIf ?_
    | with_reducible refine keeps_putChunk ?_
    | with_reducible refine Keeps.ite (fun _ => ?_) fun _ => ?_
    | split

theorem keeps_putRecords {s0 a3 : State} {a0 a1 a2} (h0 : Keeps true s0 a3) : Keeps true s0 (putRecords a0 a1 a2 a3) := by
  unfold putRecords
  try dsimp only
  repeat' first
    | with_reducible assumption
    | with_reducible refine keeps_setSes ?_
    | with_reducible refine keeps_picChunk ?_
    | with_reducible refine Keeps.foldl ?_ fun _ _ _ => ?_
    | split

theorem keeps_forward {w : Bool} {s0 a6 : State} {a0 a1 a2 a3 a4 a5} (h0 : Keeps w s0 a6) : Keeps w s0 (forward a0 a1 a2 a3 a4 a5 a6) := by
  unfold forward
  try dsimp only
  repeat' first
    | with_reducible assumption
    | with_reducible refine keeps_record0 ?_
    | with_reducible refine keeps_raiseLine ?_
    | with_reducible refine keeps_putPic ?_
    | with_reducible refine keeps_sendFragments ?_
    | with_reducible refine Keeps.ite (fun _ => ?_) fun _ => ?_
    | split

theorem keeps_rowChunks {s0 a6 : State} {a0 a1 a2 a3 a4 a5} (h0 : Keeps true s0 a6) : Keeps true s0 (rowChunks a0 a1 a2 a3 a4 a5 a6) := by
  unfold rowChunks
  try dsimp only
  repeat' first
    | with_reducible assumption
    | with_reducible refine keeps_picChunk ?_
    | with_reducible refine keeps_putRecords ?_
    | with_reducible refine keeps_forward ?_
    | with_reducible refine Keeps.ite (fun _ => ?_) fun _ => ?_
    | split

theorem keeps_reportOver {w : Bool} {s0 a3 : State} {a0 a1 a2} (h0 : Keeps w s0 a3) : Keeps w s0 (reportOver a0 a1 a2 a3) := by
  unfold reportOver
  try dsimp only
  repeat' first
    | with_reducible assumption
    | with_reducible refine keeps_record0 ?_
    | with_reducible refine keeps_sesEvent ?_
    | with_reducible refine Keeps.ite (fun _ => ?_) fun _ => ?_

theorem keeps_rowDone {s0 a6 : State} {a0 a1 a2 a3 a4 a5} (h0 : Keeps true s0 a6) : Keeps true s0 (rowDone a0 a1 a2 a3 a4 a5 a6) := by
  unfold rowDone
  split
  · exact h0
  · next v _ =>
    extract_lets spent q0 q1 q s1 s2
    have h1 : Keeps true s0 s1 := keeps_rowChunks (keeps_putPic (keeps_engineFree h0))
    have h2 : Keeps true s0 s2 := keeps_reportOver h1
    clear_value s2 s1 q
    refine Keeps.ite (fun _ => h1) fun _ => ?_
    refine keeps_endPic ?_
    split
    · exact Keeps.ite (fun _ => keeps_setSes h2) fun _ => h2
    · exact h2

theorem keeps_execEncRowDone {s0 a3 : State} {a0 a1 a2} (h0 : Keeps true s0 a3) : KeepsR true s0 (execEncRowDone a0 a1 a2 a3) := by
  unfold execEncRowDone
  try dsimp only
  repeat' first
    | with_reducible assumption
    | with_reducible refine keeps_done ?_
    | with_reducible refine keeps_sesCloseDue ?_
    | with_reducible refine keeps_rowDone ?_
    | with_reducible refine KeepsR.mk ?_
    | with_reducible refine KeepsR.ite (fun _ => ?_) fun _ => ?_
    | split

theorem keeps_firstRow {w : Bool} {s0 a2 : State} {a0 a1} (h0 : Keeps w s0 a2) : Keeps w s0 (firstRow a0 a1 a2) := by
  unfold firstRow
  try dsimp only
  repeat' first
    | with_reducible assumption
    | with_reducible refine keeps_setSes ?_
    | with_reducible refine keeps_putPic ?_
    | split

theorem keeps_rowPlan {w : Bool} {s0 a3 : State} {a0 a1 a2} (h0 : Keeps w s0 a3) : Keeps w s0 (rowPlan a0 a1 a2 a3) := by
  unfold rowPlan
  try dsimp only
  repeat' first
    | with_reducible assumption
    | with_reducible refine keeps_record0 ?_
    | with_reducible refine keeps_tookFree ?_
    | with_reducible refine keeps_putPic ?_
    | with_reducible refine Keeps.ite (fun _ => ?_) fun _ => ?_
    | split

theorem keeps_readSource {w : Bool} {s0 a4 : State} {a0 a1 a2 a3} (h0 : Keeps w s0 a4) : KeepsP2 w s0 (readSource a0 a1 a2 a3 a4) := by
  unfold readSource
  extract_lets n width base stride
  clear_value base stride width n
  exact KeepsP2.foldl h0 fun u x h => by
    dsimp only
    split
    · exact h
    · exact KeepsP2.snd (keeps_devRead h)

theorem keeps_readMemorySource {w : Bool} {s0 a4 : State} {a0 a1 a2 a3} (h0 : Keeps w s0 a4) : KeepsP w s0 (readMemorySource a0 a1 a2 a3 a4) := by
  unfold readMemorySource
  try dsimp only
  repeat' first
    | with_reducible assumption
    | with_reducible refine keeps_devRead ?_
    | with_reducible refine KeepsP2.snd (keeps_devRead ?_)
    | with_reducible refine KeepsP.mk ?_
    | with_reducible refine KeepsP2.elim (by assumption) ?_
    | split

theorem keeps_takeSource {w : Bool} {s0 a3 : State} {a0 a1 a2} (h0 : Keeps w s0 a3) : KeepsP w s0 (takeSource a0 a1 a2 a3) := by
  unfold takeSource
  split
  · exact KeepsP.mk h0
  · refine KeepsP.ite (fun _ => ?_) fun _ => ?_
    · split
      · next e => exact KeepsP.mk (keeps_putPic (KeepsP2.elim e (keeps_readSource h0)))
      · next e => exact KeepsP.mk (KeepsP2.elim (by assumption) (keeps_readSource h0))
    · split
      · exact keeps_readMemorySource h0
      · exact KeepsP.mk h0

theorem keeps_startRow {w : Bool} {s0 a4 : State} {a0 a1 a2 a3} (h0 : Keeps w s0 a4) : Keeps w s0 (startRow a0 a1 a2 a3 a4) := by
  unfold startRow
  try dsimp only
  repeat' first
    | with_reducible assumption
    | with_reducible refine keeps_sesStop ?_
    | with_reducible refine keeps_startUnit ?_
    | with_reducible refine keeps_firstRow ?_
    | with_reducible refine keeps_rowPlan ?_
    | with_reducible refine keeps_takeSource ?_
    | with_reducible refine KeepsP.elim (by assumption) ?_
    | with_reducible refine Keeps.ite (fun _ => ?_) fun _ => ?_
    | split

theorem keeps_execEncRowStart {w : Bool} {s0 a2 : State} {a0 a1} (h0 : Keeps w s0 a2) : KeepsR w s0 (execEncRowStart a0 a1 a2) := by
  unfold execEncRowStart
  try dsimp only
  repeat' first
    | with_reducible assumption
    | with_reducible refine keeps_done ?_
    | with_reducible refine keeps_chooseUnit ?_
    | with_reducible refine keeps_beginEncode ?_
    | with_reducible refine keeps_startRow ?_
    | with_reducible refine KeepsR.mk ?_
    | with_reducible refine KeepsU.elim (by assumption) ?_
    | with_reducible refine KeepsR.ite (fun _ => ?_) fun _ => ?_
    | split

end Sys2Proof.Machine
end

