-- ==== Sys2Proof/Laws/KeepsNetwork.lean ====
section
/-! SUPPORT. What the functions of onader, the manager, the network commands and the polder reset
keep of a state (Keeps): one lemma per function, each from those of the functions it calls. -/
namespace Sys2Proof.Machine

/-! ## Onader -/

theorem keeps_onlFrame {w : Bool} {s0 a4 : State} {a0 a1 a2 a3} (h0 : ∀ b0, Keeps w s0 b0 → Keeps w s0 (a3 b0)) (h1 : Keeps w s0 a4) : KeepsR w s0 (onlFrame a0 a1 a2 a3 a4) := by
  unfold onlFrame
  try dsimp only
  repeat' first
    | with_reducible assumption
    | with_reducible apply h0
    | with_reducible refine keeps_done ?_
    | with_reducible refine keeps_incWrap ?_
    | with_reducible refine KeepsR.mk ?_
    | with_reducible refine KeepsR.ite (fun _ => ?_) fun _ => ?_

theorem keeps_putRx {w : Bool} {s0 a1 : State} {a0} (h0 : Keeps w s0 a1) : Keeps w s0 (putRx a0 a1) := by
  unfold putRx
  try dsimp only
  repeat' first
    | with_reducible assumption
    | with_reducible refine keeps_setNet ?_

theorem keeps_setNext {w : Bool} {s0 a2 : State} {a0 a1} (h0 : Keeps w s0 a2) : Keeps w s0 (setNext a0 a1 a2) := by
  unfold setNext
  try dsimp only
  repeat' first
    | with_reducible assumption
    | with_reducible refine keeps_setNet ?_

theorem keeps_schedSend {w : Bool} {s0 a1 : State} {a0} (h0 : Keeps w s0 a1) : Keeps w s0 (schedSend a0 a1) := by
  unfold schedSend
  try dsimp only
  repeat' first
    | with_reducible assumption
    | with_reducible refine keeps_netSend ?_
    | split

theorem keeps_execDuplicateClear {w : Bool} {s0 a0 : State} (h0 : Keeps w s0 a0) : KeepsR w s0 (execDuplicateClear a0) := by
  unfold execDuplicateClear
  try dsimp only
  repeat' first
    | with_reducible assumption
    | with_reducible refine keeps_wr ?_
    | with_reducible refine keeps_done ?_
    | with_reducible refine keeps_advanceTo ?_
    | with_reducible refine KeepsR.mk ?_
    | with_reducible refine KeepsR.ite (fun _ => ?_) fun _ => ?_

theorem keeps_switchLearn {w : Bool} {s0 a1 : State} {a0} (h0 : Keeps w s0 a1) : Keeps w s0 (switchLearn a0 a1) := by
  unfold switchLearn
  try dsimp only
  repeat' first
    | with_reducible assumption
    | with_reducible refine keeps_setNet ?_

theorem keeps_execEthernetFrameRx {w : Bool} {s0 a1 : State} {a0} (h0 : Keeps w s0 a1) : KeepsR w s0 (execEthernetFrameRx a0 a1) := by
  unfold execEthernetFrameRx
  try dsimp only
  repeat' first
    | with_reducible assumption
    | with_reducible refine keeps_incSat ?_
    | with_reducible refine keeps_record0 ?_
    | with_reducible refine keeps_done ?_
    | with_reducible refine keeps_incWrap ?_
    | with_reducible refine keeps_switchLearn ?_
    | with_reducible refine KeepsR.mk ?_
    | with_reducible refine Keeps.ite (fun _ => ?_) fun _ => ?_
    | with_reducible refine KeepsR.ite (fun _ => ?_) fun _ => ?_
    | with_reducible refine Keeps.foldl ?_ fun _ _ _ => ?_
    | split

theorem keeps_execEventExportSend {w : Bool} {s0 a0 : State} (h0 : Keeps w s0 a0) : KeepsR w s0 (execEventExportSend a0) := by
  unfold execEventExportSend
  try dsimp only
  repeat' first
    | with_reducible assumption
    | with_reducible refine keeps_done ?_
    | with_reducible refine keeps_exportSend ?_
    | with_reducible refine KeepsR.mk ?_
    | fail_if_no_progress with_reducible refine Keeps.upd ?_ rfl rfl rfl rfl
    | with_reducible refine KeepsR.ite (fun _ => ?_) fun _ => ?_

theorem keeps_notifyWarden {w : Bool} {s0 a2 : State} {a0 a1} (h0 : Keeps w s0 a2) : Keeps w s0 (notifyWarden a0 a1 a2) := by
  unfold notifyWarden
  try dsimp only
  repeat' first
    | with_reducible assumption
    | with_reducible refine keeps_notifyPairs ?_

theorem keeps_peerEvent {w : Bool} {s0 a2 : State} {a0 a1} (h0 : Keeps w s0 a2) : Keeps w s0 (peerEvent a0 a1 a2) := by
  unfold peerEvent
  try dsimp only
  repeat' first
    | with_reducible assumption
    | with_reducible refine keeps_record0 ?_
    | with_reducible refine keeps_notifyWarden ?_

theorem keeps_setPeers {w : Bool} {s0 a1 : State} {a0} (h0 : Keeps w s0 a1) : Keeps w s0 (setPeers a0 a1) := by
  unfold setPeers
  try dsimp only
  repeat' first
    | with_reducible assumption
    | with_reducible refine keeps_wr ?_
    | with_reducible refine keeps_setNet ?_

theorem keeps_peerLeaves {w : Bool} {s0 a1 : State} {a0} (h0 : Keeps w s0 a1) : Keeps w s0 (peerLeaves a0 a1) := by
  unfold peerLeaves
  try dsimp only
  repeat' first
    | with_reducible assumption
    | with_reducible refine keeps_peerEvent ?_
    | with_reducible refine keeps_setPeers ?_
    | with_reducible refine Keeps.ite (fun _ => ?_) fun _ => ?_

theorem keeps_helloTaken {w : Bool} {s0 a2 : State} {a0 a1} (h0 : Keeps w s0 a2) : Keeps w s0 (helloTaken a0 a1 a2) := by
  unfold helloTaken
  try dsimp only
  repeat' first
    | with_reducible assumption
    | with_reducible refine keeps_wr ?_
    | with_reducible refine keeps_record0 ?_
    | with_reducible refine keeps_setNet ?_
    | with_reducible refine keeps_notifyWarden ?_
    | with_reducible refine keeps_peerEvent ?_
    | with_reducible refine keeps_setPeers ?_
    | with_reducible refine keeps_peerLeaves ?_
    | with_reducible refine Keeps.ite (fun _ => ?_) fun _ => ?_

theorem keeps_execHello {w : Bool} {s0 a3 : State} {a0 a1 a2} (h0 : Keeps w s0 a3) : KeepsR w s0 (execHello a0 a1 a2 a3) := by
  unfold execHello
  try dsimp only
  repeat' first
    | with_reducible assumption
    | with_reducible refine keeps_onlFrame (fun _ _ => ?_) ?_
    | with_reducible refine keeps_helloTaken ?_

theorem keeps_helloSend {w : Bool} {s0 a1 : State} {a0} (h0 : Keeps w s0 a1) : Keeps w s0 (helloSend a0 a1) := by
  unfold helloSend
  try dsimp only
  repeat' first
    | with_reducible assumption
    | with_reducible refine keeps_netSend ?_
    | split

theorem keeps_execHelloSend {w : Bool} {s0 a0 : State} (h0 : Keeps w s0 a0) : KeepsR w s0 (execHelloSend a0) := by
  unfold execHelloSend
  try dsimp only
  repeat' first
    | with_reducible assumption
    | with_reducible refine keeps_setNet ?_
    | with_reducible refine keeps_done ?_
    | with_reducible refine keeps_advanceTo ?_
    | with_reducible refine keeps_helloSend ?_

theorem keeps_keyreqTaken_go {w : Bool} {s0 a2 : State} {a0 a1} (h0 : Keeps w s0 a2) : Keeps w s0 (keyreqTaken.go a0 a1 a2) := by
  unfold keyreqTaken.go
  try dsimp only
  repeat' first
    | with_reducible assumption
    | with_reducible refine keeps_record0 ?_
    | with_reducible refine keeps_setNet ?_
    | with_reducible refine keeps_requestKey ?_
    | with_reducible refine Keeps.foldl ?_ fun _ _ _ => ?_

theorem keeps_keyreqTaken {w : Bool} {s0 a2 : State} {a0 a1} (h0 : Keeps w s0 a2) : Keeps w s0 (keyreqTaken a0 a1 a2) := by
  unfold keyreqTaken
  try dsimp only
  repeat' first
    | with_reducible assumption
    | with_reducible refine keeps_keyreqTaken_go ?_
    | with_reducible refine Keeps.ite (fun _ => ?_) fun _ => ?_
    | split

theorem keeps_execKeyreq {w : Bool} {s0 a3 : State} {a0 a1 a2} (h0 : Keeps w s0 a3) : KeepsR w s0 (execKeyreq a0 a1 a2 a3) := by
  unfold execKeyreq
  try dsimp only
  repeat' first
    | with_reducible assumption
    | with_reducible refine keeps_onlFrame (fun _ _ => ?_) ?_
    | with_reducible refine keeps_keyreqTaken ?_

theorem keeps_execPeerTimeout {w : Bool} {s0 a1 : State} {a0} (h0 : Keeps w s0 a1) : KeepsR w s0 (execPeerTimeout a0 a1) := by
  unfold execPeerTimeout
  try dsimp only
  repeat' first
    | with_reducible assumption
    | with_reducible refine keeps_done ?_
    | with_reducible refine keeps_advanceTo ?_
    | with_reducible refine keeps_peerLeaves ?_
    | with_reducible refine KeepsR.mk ?_
    | split

theorem keeps_execQbvListStart {w : Bool} {s0 a1 : State} {a0} (h0 : Keeps w s0 a1) : KeepsR w s0 (execQbvListStart a0 a1) := by
  unfold execQbvListStart
  try dsimp only
  repeat' first
    | with_reducible assumption
    | with_reducible refine keeps_setNet ?_
    | with_reducible refine keeps_advanceDevice ?_
    | with_reducible refine KeepsR.mk ?_
    | split

theorem keeps_rxSubmit {s0 a2 : State} {a0 a1} (h0 : Keeps true s0 a2) : Keeps true s0 (rxSubmit a0 a1 a2) := by
  unfold rxSubmit
  try dsimp only
  repeat' first
    | with_reducible assumption
    | with_reducible refine keeps_record0 ?_
    | with_reducible refine keeps_devWrite ?_
    | with_reducible refine keeps_setSes ?_
    | with_reducible refine keeps_putRx ?_
    | with_reducible refine KeepsP.elim (by assumption) ?_
    | with_reducible refine Keeps.ite (fun _ => ?_) fun _ => ?_
    | split

theorem keeps_execRxTimeout {s0 a1 : State} {a0} (h0 : Keeps true s0 a1) : KeepsR true s0 (execRxTimeout a0 a1) := by
  unfold execRxTimeout
  try dsimp only
  repeat' first
    | with_reducible assumption
    | with_reducible refine keeps_record0 ?_
    | with_reducible refine keeps_raiseLine ?_
    | with_reducible refine keeps_done ?_
    | with_reducible refine keeps_advanceTo ?_
    | with_reducible refine keeps_rxSubmit ?_
    | with_reducible refine KeepsR.mk ?_
    | split

theorem keeps_schedOutput {w : Bool} {s0 a2 : State} {a0 a1} (h0 : Keeps w s0 a2) : Keeps w s0 (schedOutput a0 a1 a2) := by
  unfold schedOutput
  try dsimp only
  repeat' first
    | with_reducible assumption
    | with_reducible refine keeps_wr ?_
    | with_reducible refine keeps_record0 ?_
    | with_reducible refine keeps_setOut ?_
    | with_reducible refine keeps_setLockState ?_
    | with_reducible refine keeps_notifyWarden ?_
    | with_reducible refine Keeps.ite (fun _ => ?_) fun _ => ?_

theorem keeps_schedApply {w : Bool} {s0 a3 : State} {a0 a1 a2} (h0 : Keeps w s0 a3) : Keeps w s0 (schedApply a0 a1 a2 a3) := by
  unfold schedApply
  try dsimp only
  repeat' first
    | with_reducible assumption
    | with_reducible refine keeps_wr ?_
    | with_reducible refine keeps_record0 ?_
    | with_reducible refine keeps_raiseLine ?_
    | with_reducible refine keeps_wrB ?_
    | with_reducible refine keeps_setNext ?_
    | with_reducible refine keeps_notifyWarden ?_
    | with_reducible refine keeps_schedOutput ?_
    | with_reducible refine Keeps.foldl ?_ fun _ _ _ => ?_

theorem keeps_schedTaken {w : Bool} {s0 a2 : State} {a0 a1} (h0 : Keeps w s0 a2) : Keeps w s0 (schedTaken a0 a1 a2) := by
  unfold schedTaken
  try dsimp only
  repeat' first
    | with_reducible assumption
    | with_reducible refine keeps_setNet ?_
    | with_reducible refine keeps_setNext ?_
    | with_reducible refine keeps_notifyWarden ?_
    | with_reducible refine keeps_schedApply ?_
    | with_reducible refine Keeps.ite (fun _ => ?_) fun _ => ?_
    | split

theorem keeps_execSched {w : Bool} {s0 a3 : State} {a0 a1 a2} (h0 : Keeps w s0 a3) : KeepsR w s0 (execSched a0 a1 a2 a3) := by
  unfold execSched
  try dsimp only
  repeat' first
    | with_reducible assumption
    | with_reducible refine keeps_onlFrame (fun _ _ => ?_) ?_
    | with_reducible refine keeps_schedTaken ?_

theorem keeps_execSchedApply {w : Bool} {s0 a1 : State} {a0} (h0 : Keeps w s0 a1) : KeepsR w s0 (execSchedApply a0 a1) := by
  unfold execSchedApply
  try dsimp only
  repeat' first
    | with_reducible assumption
    | with_reducible refine keeps_done ?_
    | with_reducible refine keeps_advanceDevice ?_
    | with_reducible refine keeps_schedApply ?_
    | with_reducible refine KeepsR.mk ?_
    | split

theorem keeps_execSchedSend {w : Bool} {s0 a0 : State} (h0 : Keeps w s0 a0) : KeepsR w s0 (execSchedSend a0) := by
  unfold execSchedSend
  try dsimp only
  repeat' first
    | with_reducible assumption
    | with_reducible refine keeps_setNet ?_
    | with_reducible refine keeps_done ?_
    | with_reducible refine keeps_advanceTo ?_
    | with_reducible refine keeps_schedSend ?_
    | with_reducible refine Keeps.foldl ?_ fun _ _ _ => ?_

theorem keeps_sliceTaken {s0 a2 : State} {a0 a1} (h0 : Keeps true s0 a2) : Keeps true s0 (sliceTaken a0 a1 a2) := by
  unfold sliceTaken
  try dsimp only
  repeat' first
    | with_reducible assumption
    | with_reducible refine keeps_record0 ?_
    | with_reducible refine keeps_putRx ?_
    | with_reducible refine keeps_rxSubmit ?_
    | with_reducible refine Keeps.ite (fun _ => ?_) fun _ => ?_
    | split

theorem keeps_execSlice {s0 a2 : State} {a0 a1} (h0 : Keeps true s0 a2) : KeepsR true s0 (execSlice a0 a1 a2) := by
  unfold execSlice
  try dsimp only
  repeat' first
    | with_reducible assumption
    | with_reducible refine keeps_onlFrame (fun _ _ => ?_) ?_
    | with_reducible refine keeps_sliceTaken ?_

/-! ## Manager -/

theorem keeps_mgrRow {w : Bool} {s0 a4 : State} {a0 a1 a2 a3} (h0 : ∀ b0 b1, Keeps w s0 b1 → Keeps w s0 (a3 b0 b1)) (h1 : Keeps w s0 a4) : KeepsR w s0 (mgrRow a0 a1 a2 a3 a4) := by
  unfold mgrRow
  try dsimp only
  repeat' first
    | with_reducible assumption
    | with_reducible apply h0
    | with_reducible refine keeps_onlFrame (fun _ _ => ?_) ?_
    | with_reducible refine KeepsR.mk ?_
    | with_reducible refine KeepsR.ite (fun _ => ?_) fun _ => ?_

theorem keeps_mgrAuthFail {w : Bool} {s0 a2 : State} {a0 a1} (h0 : Keeps w s0 a2) : Keeps w s0 (mgrAuthFail a0 a1 a2) := by
  unfold mgrAuthFail
  try dsimp only
  repeat' first
    | with_reducible assumption
    | with_reducible refine keeps_record0 ?_

theorem keeps_mgrInSession {w : Bool} {s0 a4 : State} {a0 a1 a2 a3} (h0 : ∀ b0 b1, Keeps w s0 b1 → Keeps w s0 (a3 b0 b1)) (h1 : Keeps w s0 a4) : Keeps w s0 (mgrInSession a0 a1 a2 a3 a4) := by
  unfold mgrInSession
  try dsimp only
  repeat' first
    | with_reducible assumption
    | with_reducible apply h0
    | with_reducible refine keeps_setNet ?_
    | with_reducible refine keeps_mgrAuthFail ?_
    | with_reducible refine Keeps.ite (fun _ => ?_) fun _ => ?_
    | split

theorem keeps_mgrHead {w : Bool} {s0 a0 : State} (h0 : Keeps w s0 a0) : Keeps w s0 (mgrHead a0) := by
  unfold mgrHead
  try dsimp only
  repeat' first
    | with_reducible assumption
    | with_reducible refine keeps_mgrMessage ?_
    | split

theorem keeps_mgrAcked {w : Bool} {s0 a2 : State} {a0 a1} (h0 : Keeps w s0 a2) : Keeps w s0 (mgrAcked a0 a1 a2) := by
  unfold mgrAcked
  try dsimp only
  repeat' first
    | with_reducible assumption
    | with_reducible refine keeps_setNet ?_
    | with_reducible refine keeps_dropHead ?_
    | with_reducible refine keeps_mgrHead ?_
    | with_reducible refine Keeps.ite (fun _ => ?_) fun _ => ?_

theorem keeps_execMgrAck {w : Bool} {s0 a2 : State} {a0 a1} (h0 : Keeps w s0 a2) : KeepsR w s0 (execMgrAck a0 a1 a2) := by
  unfold execMgrAck
  try dsimp only
  repeat' first
    | with_reducible assumption
    | with_reducible refine keeps_mgrRow (fun _ _ _ => ?_) ?_
    | with_reducible refine keeps_mgrInSession (fun _ _ _ => ?_) ?_
    | with_reducible refine keeps_mgrAcked ?_

theorem keeps_mgrEnd {w : Bool} {s0 a0 : State} (h0 : Keeps w s0 a0) : Keeps w s0 (mgrEnd a0) := by
  unfold mgrEnd
  try dsimp only
  repeat' first
    | with_reducible assumption
    | with_reducible refine keeps_wr ?_
    | with_reducible refine keeps_record0 ?_
    | with_reducible refine keeps_setNet ?_
    | with_reducible refine keeps_vacateKind ?_
    | split

theorem keeps_execMgrClose {w : Bool} {s0 a2 : State} {a0 a1} (h0 : Keeps w s0 a2) : KeepsR w s0 (execMgrClose a0 a1 a2) := by
  unfold execMgrClose
  try dsimp only
  repeat' first
    | with_reducible assumption
    | with_reducible refine keeps_mgrRow (fun _ _ _ => ?_) ?_
    | with_reducible refine keeps_mgrInSession (fun _ _ _ => ?_) ?_
    | with_reducible refine keeps_mgrEnd ?_

theorem keeps_mgrConfirm {w : Bool} {s0 a2 : State} {a0 a1} (h0 : Keeps w s0 a2) : Keeps w s0 (mgrConfirm a0 a1 a2) := by
  unfold mgrConfirm
  try dsimp only
  repeat' first
    | with_reducible assumption
    | with_reducible refine keeps_wr ?_
    | with_reducible refine keeps_record0 ?_
    | with_reducible refine keeps_setNet ?_
    | with_reducible refine keeps_mgrAuthFail ?_
    | with_reducible refine keeps_mgrHead ?_
    | with_reducible refine Keeps.ite (fun _ => ?_) fun _ => ?_
    | split

theorem keeps_execMgrConfirm {w : Bool} {s0 a2 : State} {a0 a1} (h0 : Keeps w s0 a2) : KeepsR w s0 (execMgrConfirm a0 a1 a2) := by
  unfold execMgrConfirm
  try dsimp only
  repeat' first
    | with_reducible assumption
    | with_reducible refine keeps_mgrRow (fun _ _ _ => ?_) ?_
    | with_reducible refine keeps_mgrConfirm ?_

theorem keeps_execMgrKeepalive {w : Bool} {s0 a2 : State} {a0 a1} (h0 : Keeps w s0 a2) : KeepsR w s0 (execMgrKeepalive a0 a1 a2) := by
  unfold execMgrKeepalive
  try dsimp only
  repeat' first
    | with_reducible assumption
    | with_reducible refine keeps_mgrRow (fun _ _ _ => ?_) ?_
    | with_reducible refine keeps_mgrInSession (fun _ _ _ => ?_) ?_

theorem keeps_mgrPush {w : Bool} {s0 a2 : State} {a0 a1} (h0 : Keeps w s0 a2) : Keeps w s0 (mgrPush a0 a1 a2) := by
  unfold mgrPush
  refine Keeps.ite (fun _ => keeps_mgrFrame h0) fun _ => Keeps.ite (fun hq => ?_) fun _ => keeps_mgrFrame (keeps_record0 (keeps_wr h0))
  rw [Bool.and_eq_true, decide_eq_true_eq] at hq
  exact keeps_mgrFrame (keeps_deliver (keeps_setNet h0) hq.2)

theorem keeps_execMgrMessage {w : Bool} {s0 a2 : State} {a0 a1} (h0 : Keeps w s0 a2) : KeepsR w s0 (execMgrMessage a0 a1 a2) := by
  unfold execMgrMessage
  try dsimp only
  repeat' first
    | with_reducible assumption
    | with_reducible refine keeps_mgrRow (fun _ _ _ => ?_) ?_
    | with_reducible refine keeps_mgrInSession (fun _ _ _ => ?_) ?_
    | with_reducible refine keeps_mgrPush ?_

theorem keeps_mgrOpen {w : Bool} {s0 a3 : State} {a0 a1 a2} (h0 : Keeps w s0 a3) : Keeps w s0 (mgrOpen a0 a1 a2 a3) := by
  unfold mgrOpen
  try dsimp only
  repeat' first
    | with_reducible assumption
    | with_reducible refine keeps_setNet ?_
    | with_reducible refine keeps_mgrSend ?_
    | with_reducible refine keeps_tookFrees ?_
    | with_reducible refine Keeps.ite (fun _ => ?_) fun _ => ?_

theorem keeps_execMgrOpen {w : Bool} {s0 a3 : State} {a0 a1 a2} (h0 : Keeps w s0 a3) : KeepsR w s0 (execMgrOpen a0 a1 a2 a3) := by
  unfold execMgrOpen
  try dsimp only
  repeat' first
    | with_reducible assumption
    | with_reducible refine keeps_mgrRow (fun _ _ _ => ?_) ?_
    | with_reducible refine keeps_mgrOpen ?_

theorem keeps_execMgrResend {w : Bool} {s0 a0 : State} (h0 : Keeps w s0 a0) : KeepsR w s0 (execMgrResend a0) := by
  unfold execMgrResend
  try dsimp only
  repeat' first
    | with_reducible assumption
    | with_reducible refine keeps_done ?_
    | with_reducible refine keeps_advanceTo ?_
    | with_reducible refine keeps_mgrHead ?_
    | with_reducible refine KeepsR.mk ?_
    | with_reducible refine KeepsR.ite (fun _ => ?_) fun _ => ?_
    | split

theorem keeps_execMgrSessionTimeout {w : Bool} {s0 a0 : State} (h0 : Keeps w s0 a0) : KeepsR w s0 (execMgrSessionTimeout a0) := by
  unfold execMgrSessionTimeout
  try dsimp only
  repeat' first
    | with_reducible assumption
    | with_reducible refine keeps_done ?_
    | with_reducible refine keeps_advanceTo ?_
    | with_reducible refine keeps_mgrEnd ?_
    | with_reducible refine KeepsR.mk ?_
    | split

theorem keeps_mgrClose {w : Bool} {s0 a0 : State} (h0 : Keeps w s0 a0) : Keeps w s0 (mgrClose a0) := by
  unfold mgrClose
  try dsimp only
  repeat' first
    | with_reducible assumption
    | with_reducible refine keeps_mgrFrame ?_
    | with_reducible refine keeps_mgrEnd ?_
    | split

/-! ## NetCommands -/

theorem keeps_deferred {w : Bool} {s0 a1 : State} {a0} (h0 : Keeps w s0 a1) : KeepsA w s0 (deferred a0 a1) := by
  unfold deferred
  try dsimp only
  repeat' first
    | with_reducible assumption
    | with_reducible refine keeps_claimBlocked ?_
    | with_reducible refine Keeps.idd ?_
    | with_reducible refine KeepsA.mk ?_ fun _ _ => ?_

theorem keeps_netClearStream {w : Bool} {s0 a1 : State} {a0} (h0 : Keeps w s0 a1) : KeepsA w s0 (netClearStream a0 a1) := by
  unfold netClearStream
  try dsimp only
  repeat' first
    | with_reducible assumption
    | with_reducible refine keeps_no ?_
    | with_reducible refine keeps_did ?_
    | with_reducible refine keeps_putRx ?_
    | with_reducible refine KeepsA.ite (fun _ => ?_) fun _ => ?_
    | split

theorem keeps_execNetClearStream {w : Bool} {s0 a1 : State} {a0} (h0 : Keeps w s0 a1) : KeepsR w s0 (execNetClearStream a0 a1) := by
  unfold execNetClearStream
  try dsimp only
  repeat' first
    | with_reducible assumption
    | with_reducible refine keeps_done ?_
    | with_reducible refine keeps_serve (fun _ _ _ => ?_) ?_
    | with_reducible refine keeps_netClearStream ?_

theorem keeps_netGetGroup {w : Bool} {s0 a1 : State} {a0} (h0 : Keeps w s0 a1) : KeepsA w s0 (netGetGroup a0 a1) := by
  unfold netGetGroup
  try dsimp only
  repeat' first
    | with_reducible assumption
    | with_reducible refine keeps_okR ?_
    | with_reducible refine keeps_no ?_
    | split

theorem keeps_execNetGetGroup {w : Bool} {s0 a1 : State} {a0} (h0 : Keeps w s0 a1) : KeepsR w s0 (execNetGetGroup a0 a1) := by
  unfold execNetGetGroup
  try dsimp only
  repeat' first
    | with_reducible assumption
    | with_reducible refine keeps_done ?_
    | with_reducible refine keeps_serve (fun _ _ _ => ?_) ?_
    | with_reducible refine keeps_netGetGroup ?_

theorem keeps_netGetInfo {w : Bool} {s0 a1 : State} {a0} (h0 : Keeps w s0 a1) : KeepsA w s0 (netGetInfo a0 a1) := by
  unfold netGetInfo
  try dsimp only
  repeat' first
    | with_reducible assumption
    | with_reducible refine keeps_okR ?_

theorem keeps_execNetGetInfo {w : Bool} {s0 a1 : State} {a0} (h0 : Keeps w s0 a1) : KeepsR w s0 (execNetGetInfo a0 a1) := by
  unfold execNetGetInfo
  try dsimp only
  repeat' first
    | with_reducible assumption
    | with_reducible refine keeps_done ?_
    | with_reducible refine keeps_serve (fun _ _ _ => ?_) ?_
    | with_reducible refine keeps_netGetInfo ?_

theorem keeps_netGetPeers {s0 a1 : State} {a0} (h0 : Keeps true s0 a1) : KeepsA true s0 (netGetPeers a0 a1) := by
  unfold netGetPeers
  try dsimp only
  repeat' first
    | with_reducible assumption
    | with_reducible refine keeps_devPut ?_
    | with_reducible refine keeps_okR ?_

theorem keeps_execNetGetPeers {s0 a1 : State} {a0} (h0 : Keeps true s0 a1) : KeepsR true s0 (execNetGetPeers a0 a1) := by
  unfold execNetGetPeers
  try dsimp only
  repeat' first
    | with_reducible assumption
    | with_reducible refine keeps_done ?_
    | with_reducible refine keeps_serve (fun _ _ _ => ?_) ?_
    | with_reducible refine keeps_netGetPeers ?_

theorem keeps_netGetStream {w : Bool} {s0 a1 : State} {a0} (h0 : Keeps w s0 a1) : KeepsA w s0 (netGetStream a0 a1) := by
  unfold netGetStream
  try dsimp only
  repeat' first
    | with_reducible assumption
    | with_reducible refine keeps_okR ?_
    | with_reducible refine keeps_no ?_
    | with_reducible refine KeepsA.ite (fun _ => ?_) fun _ => ?_
    | split

theorem keeps_execNetGetStream {w : Bool} {s0 a1 : State} {a0} (h0 : Keeps w s0 a1) : KeepsR w s0 (execNetGetStream a0 a1) := by
  unfold execNetGetStream
  try dsimp only
  repeat' first
    | with_reducible assumption
    | with_reducible refine keeps_done ?_
    | with_reducible refine keeps_serve (fun _ _ _ => ?_) ?_
    | with_reducible refine keeps_netGetStream ?_

theorem keeps_netSetExport {w : Bool} {s0 a1 : State} {a0} (h0 : Keeps w s0 a1) : KeepsA w s0 (netSetExport a0 a1) := by
  unfold netSetExport
  try dsimp only
  repeat' first
    | with_reducible assumption
    | with_reducible refine keeps_setNet ?_
    | with_reducible refine keeps_no ?_
    | with_reducible refine keeps_did ?_
    | with_reducible refine KeepsA.ite (fun _ => ?_) fun _ => ?_

theorem keeps_execNetSetExport {w : Bool} {s0 a1 : State} {a0} (h0 : Keeps w s0 a1) : KeepsR w s0 (execNetSetExport a0 a1) := by
  unfold execNetSetExport
  try dsimp only
  repeat' first
    | with_reducible assumption
    | with_reducible refine keeps_done ?_
    | with_reducible refine keeps_serve (fun _ _ _ => ?_) ?_
    | with_reducible refine keeps_netSetExport ?_

theorem keeps_groupRemove {w : Bool} {s0 a1 : State} {a0} (h0 : Keeps w s0 a1) : Keeps w s0 (groupRemove a0 a1) := by
  unfold groupRemove
  try dsimp only
  repeat' first
    | with_reducible assumption
    | with_reducible refine keeps_wr ?_
    | with_reducible refine keeps_setNext ?_

theorem keeps_netSetGroup {w : Bool} {s0 a1 : State} {a0} (h0 : Keeps w s0 a1) : KeepsA w s0 (netSetGroup a0 a1) := by
  unfold netSetGroup
  try dsimp only
  repeat' first
    | with_reducible assumption
    | with_reducible refine keeps_no ?_
    | with_reducible refine keeps_did ?_
    | with_reducible refine keeps_setNext ?_
    | with_reducible refine keeps_groupRemove ?_
    | with_reducible refine keeps_schedSend ?_
    | with_reducible refine Keeps.ite (fun _ => ?_) fun _ => ?_
    | with_reducible refine KeepsA.ite (fun _ => ?_) fun _ => ?_
    | split

theorem keeps_execNetSetGroup {w : Bool} {s0 a1 : State} {a0} (h0 : Keeps w s0 a1) : KeepsR w s0 (execNetSetGroup a0 a1) := by
  unfold execNetSetGroup
  try dsimp only
  repeat' first
    | with_reducible assumption
    | with_reducible refine keeps_done ?_
    | with_reducible refine keeps_serve (fun _ _ _ => ?_) ?_
    | with_reducible refine keeps_netSetGroup ?_

theorem keeps_netSetIdentity {w : Bool} {s0 a1 : State} {a0} (h0 : Keeps w s0 a1) : KeepsA w s0 (netSetIdentity a0 a1) := by
  unfold netSetIdentity
  try dsimp only
  repeat' first
    | with_reducible assumption
    | with_reducible refine keeps_wr ?_
    | with_reducible refine keeps_setNet ?_
    | with_reducible refine keeps_no ?_
    | with_reducible refine keeps_did ?_
    | with_reducible refine keeps_mgrClose ?_
    | with_reducible refine Keeps.ite (fun _ => ?_) fun _ => ?_
    | with_reducible refine KeepsA.ite (fun _ => ?_) fun _ => ?_

theorem keeps_execNetSetIdentity {w : Bool} {s0 a1 : State} {a0} (h0 : Keeps w s0 a1) : KeepsR w s0 (execNetSetIdentity a0 a1) := by
  unfold execNetSetIdentity
  try dsimp only
  repeat' first
    | with_reducible assumption
    | with_reducible refine keeps_done ?_
    | with_reducible refine keeps_serve (fun _ _ _ => ?_) ?_
    | with_reducible refine keeps_netSetIdentity ?_

theorem keeps_netSetMacsec {w : Bool} {s0 a1 : State} {a0} (h0 : Keeps w s0 a1) : KeepsA w s0 (netSetMacsec a0 a1) := by
  unfold netSetMacsec
  try dsimp only
  repeat' first
    | with_reducible assumption
    | with_reducible refine keeps_setNet ?_
    | with_reducible refine keeps_no ?_
    | with_reducible refine keeps_did ?_
    | with_reducible refine KeepsA.ite (fun _ => ?_) fun _ => ?_

theorem keeps_execNetSetMacsec {w : Bool} {s0 a1 : State} {a0} (h0 : Keeps w s0 a1) : KeepsR w s0 (execNetSetMacsec a0 a1) := by
  unfold execNetSetMacsec
  try dsimp only
  repeat' first
    | with_reducible assumption
    | with_reducible refine keeps_done ?_
    | with_reducible refine keeps_serve (fun _ _ _ => ?_) ?_
    | with_reducible refine keeps_netSetMacsec ?_

theorem keeps_netSetMgrKey {w : Bool} {s0 a1 : State} {a0} (h0 : Keeps w s0 a1) : KeepsA w s0 (netSetMgrKey a0 a1) := by
  unfold netSetMgrKey
  try dsimp only
  repeat' first
    | with_reducible assumption
    | with_reducible refine keeps_setNet ?_
    | with_reducible refine keeps_did ?_
    | with_reducible refine keeps_mgrClose ?_

theorem keeps_execNetSetMgrKey {w : Bool} {s0 a1 : State} {a0} (h0 : Keeps w s0 a1) : KeepsR w s0 (execNetSetMgrKey a0 a1) := by
  unfold execNetSetMgrKey
  try dsimp only
  repeat' first
    | with_reducible assumption
    | with_reducible refine keeps_done ?_
    | with_reducible refine keeps_serve (fun _ _ _ => ?_) ?_
    | with_reducible refine keeps_netSetMgrKey ?_

theorem keeps_netSetPort {w : Bool} {s0 a1 : State} {a0} (h0 : Keeps w s0 a1) : KeepsA w s0 (netSetPort a0 a1) := by
  unfold netSetPort
  try dsimp only
  repeat' first
    | with_reducible assumption
    | with_reducible refine keeps_wr ?_
    | with_reducible refine keeps_no ?_
    | with_reducible refine keeps_did ?_
    | with_reducible refine keeps_takeEffect ?_
    | with_reducible refine keeps_deferred ?_
    | with_reducible refine keeps_setMasters ?_
    | with_reducible refine keeps_linkChange ?_
    | with_reducible refine Keeps.ite (fun _ => ?_) fun _ => ?_
    | with_reducible refine KeepsA.ite (fun _ => ?_) fun _ => ?_

theorem keeps_execNetSetPort {w : Bool} {s0 a1 : State} {a0} (h0 : Keeps w s0 a1) : KeepsR w s0 (execNetSetPort a0 a1) := by
  unfold execNetSetPort
  try dsimp only
  repeat' first
    | with_reducible assumption
    | with_reducible refine keeps_done ?_
    | with_reducible refine keeps_serve (fun _ _ _ => ?_) ?_
    | with_reducible refine keeps_netSetPort ?_

theorem keeps_netSetPtp {w : Bool} {s0 a1 : State} {a0} (h0 : Keeps w s0 a1) : KeepsA w s0 (netSetPtp a0 a1) := by
  unfold netSetPtp
  try dsimp only
  repeat' first
    | with_reducible assumption
    | with_reducible refine keeps_wr ?_
    | with_reducible refine keeps_no ?_
    | with_reducible refine keeps_did ?_
    | with_reducible refine keeps_deferred ?_
    | with_reducible refine keeps_setMasters ?_
    | with_reducible refine KeepsA.ite (fun _ => ?_) fun _ => ?_

theorem keeps_execNetSetPtp {w : Bool} {s0 a1 : State} {a0} (h0 : Keeps w s0 a1) : KeepsR w s0 (execNetSetPtp a0 a1) := by
  unfold execNetSetPtp
  try dsimp only
  repeat' first
    | with_reducible assumption
    | with_reducible refine keeps_done ?_
    | with_reducible refine keeps_serve (fun _ _ _ => ?_) ?_
    | with_reducible refine keeps_netSetPtp ?_

theorem keeps_netSetQbv {w : Bool} {s0 a1 : State} {a0} (h0 : Keeps w s0 a1) : KeepsA w s0 (netSetQbv a0 a1) := by
  unfold netSetQbv
  try dsimp only
  repeat' first
    | with_reducible assumption
    | with_reducible refine keeps_setNet ?_
    | with_reducible refine keeps_no ?_
    | with_reducible refine keeps_did ?_
    | with_reducible refine KeepsA.ite (fun _ => ?_) fun _ => ?_

theorem keeps_execNetSetQbv {w : Bool} {s0 a1 : State} {a0} (h0 : Keeps w s0 a1) : KeepsR w s0 (execNetSetQbv a0 a1) := by
  unfold execNetSetQbv
  try dsimp only
  repeat' first
    | with_reducible assumption
    | with_reducible refine keeps_done ?_
    | with_reducible refine keeps_serve (fun _ _ _ => ?_) ?_
    | with_reducible refine keeps_netSetQbv ?_

theorem keeps_netSetRxStream {w : Bool} {s0 a1 : State} {a0} (h0 : Keeps w s0 a1) : KeepsA w s0 (netSetRxStream a0 a1) := by
  unfold netSetRxStream
  try dsimp only
  repeat' first
    | with_reducible assumption
    | with_reducible refine keeps_setNet ?_
    | with_reducible refine keeps_no ?_
    | with_reducible refine keeps_did ?_
    | with_reducible refine KeepsA.ite (fun _ => ?_) fun _ => ?_
    | split

theorem keeps_execNetSetRxStream {w : Bool} {s0 a1 : State} {a0} (h0 : Keeps w s0 a1) : KeepsR w s0 (execNetSetRxStream a0 a1) := by
  unfold execNetSetRxStream
  try dsimp only
  repeat' first
    | with_reducible assumption
    | with_reducible refine keeps_done ?_
    | with_reducible refine keeps_serve (fun _ _ _ => ?_) ?_
    | with_reducible refine keeps_netSetRxStream ?_

theorem keeps_netSetTxStream {w : Bool} {s0 a1 : State} {a0} (h0 : Keeps w s0 a1) : KeepsA w s0 (netSetTxStream a0 a1) := by
  unfold netSetTxStream
  try dsimp only
  repeat' first
    | with_reducible assumption
    | with_reducible refine keeps_setNet ?_
    | with_reducible refine keeps_no ?_
    | with_reducible refine keeps_did ?_
    | with_reducible refine KeepsA.ite (fun _ => ?_) fun _ => ?_
    | split

theorem keeps_execNetSetTxStream {w : Bool} {s0 a1 : State} {a0} (h0 : Keeps w s0 a1) : KeepsR w s0 (execNetSetTxStream a0 a1) := by
  unfold execNetSetTxStream
  try dsimp only
  repeat' first
    | with_reducible assumption
    | with_reducible refine keeps_done ?_
    | with_reducible refine keeps_serve (fun _ _ _ => ?_) ?_
    | with_reducible refine keeps_netSetTxStream ?_

theorem keeps_netReset {w : Bool} {s0 a1 : State} {a0} (h0 : Keeps w s0 a1) : Keeps w s0 (netReset a0 a1) := by
  unfold netReset
  try dsimp only
  repeat' first
    | with_reducible assumption
    | with_reducible refine keeps_setNet ?_

/-! ## PolderReset -/

theorem keeps_abortWork {w : Bool} {s0 a1 : State} {a0} (h0 : Keeps w s0 a1) : Keeps w s0 (abortWork a0 a1) := by
  unfold abortWork
  try dsimp only
  repeat' first
    | with_reducible assumption
    | with_reducible refine keeps_audFree ?_
    | with_reducible refine keeps_cvuStop ?_
    | with_reducible refine keeps_vcdAbort ?_
    | with_reducible refine keeps_gfxAbort ?_
    | split

theorem keeps_clearPending {w : Bool} {s0 a1 : State} {a0} (h0 : Keeps w s0 a1) : Keeps w s0 (clearPending a0 a1) := by
  unfold clearPending
  try dsimp only
  repeat' first
    | with_reducible assumption
    | with_reducible refine keeps_wr ?_
    | with_reducible refine keeps_slotStatus ?_
    | with_reducible refine keeps_sesCloseDue ?_
    | with_reducible refine keeps_setSlot ?_
    | split

theorem keeps_clearInstance {s0 a1 : State} {a0} (h0 : Keeps true s0 a1) : Keeps true s0 (clearInstance a0 a1) := by
  unfold clearInstance
  try dsimp only
  repeat' first
    | with_reducible assumption
    | with_reducible refine keeps_cvuReset ?_
    | with_reducible refine keeps_vcdReset ?_
    | with_reducible refine keeps_gfxReset ?_
    | with_reducible refine keeps_clearPending ?_
    | with_reducible refine keeps_freshInstance ?_
    | fail_if_no_progress with_reducible refine Keeps.upd ?_ rfl rfl rfl rfl
    | with_reducible refine Keeps.foldl ?_ fun _ _ _ => ?_

theorem keeps_unitLeft {w : Bool} {s0 a3 : State} {a0 a1 a2} (h0 : Keeps w s0 a3) : Keeps w s0 (unitLeft a0 a1 a2 a3) := by
  unfold unitLeft
  try dsimp only
  repeat' first
    | with_reducible assumption
    | with_reducible refine keeps_sesClosed ?_
    | with_reducible refine keeps_setGfxWin ?_
    | with_reducible refine keeps_tchLeave ?_
    | with_reducible refine Keeps.ite (fun _ => ?_) fun _ => ?_
    | with_reducible refine Keeps.foldl ?_ fun _ _ _ => ?_

theorem keeps_returnUnits {w : Bool} {s0 a3 : State} {a0 a1 a2} (h0 : Keeps w s0 a3) : Keeps w s0 (returnUnits a0 a1 a2 a3) := by
  unfold returnUnits
  try dsimp only
  repeat' first
    | with_reducible assumption
    | with_reducible refine keeps_unitLeft ?_
    | fail_if_no_progress with_reducible refine Keeps.upd ?_ rfl rfl rfl rfl
    | with_reducible refine Keeps.ite (fun _ => ?_) fun _ => ?_
    | with_reducible refine Keeps.foldl ?_ fun _ _ _ => ?_

theorem keeps_releasePair {w : Bool} {s0 a1 : State} {a0} (h0 : Keeps w s0 a1) : Keeps w s0 (releasePair a0 a1) := by
  unfold releasePair
  try dsimp only
  repeat' first
    | with_reducible assumption
    | with_reducible refine keeps_wr ?_
    | with_reducible refine keeps_clrBits ?_
    | with_reducible refine keeps_disablePair ?_
    | with_reducible refine Keeps.ite (fun _ => ?_) fun _ => ?_
    | split

theorem keeps_destroyPolder {w : Bool} {s0 a1 : State} {a0} (h0 : Keeps w s0 a1) : Keeps w s0 (destroyPolder a0 a1) := by
  unfold destroyPolder
  try dsimp only
  repeat' first
    | with_reducible assumption
    | with_reducible refine keeps_wr ?_
    | with_reducible refine keeps_returnUnits ?_
    | with_reducible refine keeps_sharesDefault ?_
    | with_reducible refine keeps_releasePair ?_
    | fail_if_no_progress with_reducible refine Keeps.upd ?_ rfl rfl rfl rfl
    | with_reducible refine Keeps.foldl ?_ fun _ _ _ => ?_

theorem keeps_execCrpPolderSquash {w : Bool} {s0 a1 : State} {a0} (h0 : Keeps w s0 a1) : KeepsR w s0 (execCrpPolderSquash a0 a1) := by
  unfold execCrpPolderSquash
  try dsimp only
  repeat' first
    | with_reducible assumption
    | with_reducible refine keeps_record0 ?_
    | with_reducible refine keeps_done ?_
    | with_reducible refine keeps_advanceTo ?_
    | with_reducible refine KeepsR.mk ?_
    | fail_if_no_progress with_reducible refine Keeps.upd ?_ rfl rfl rfl rfl
    | with_reducible refine KeepsR.ite (fun _ => ?_) fun _ => ?_
    | split

theorem keeps_refuseFlips {w : Bool} {s0 a1 : State} {a0} (h0 : Keeps w s0 a1) : Keeps w s0 (refuseFlips a0 a1) := by
  unfold refuseFlips
  try dsimp only
  repeat' first
    | with_reducible assumption
    | with_reducible refine keeps_wr ?_
    | with_reducible refine keeps_record0 ?_
    | fail_if_no_progress with_reducible refine Keeps.upd ?_ rfl rfl rfl rfl
    | with_reducible refine Keeps.foldl ?_ fun _ _ _ => ?_

theorem keeps_startReset {s0 a3 : State} {a0 a1 a2} (h0 : Keeps true s0 a3) : Keeps true s0 (startReset a0 a1 a2 a3) := by
  unfold startReset
  try dsimp only
  repeat' first
    | with_reducible assumption
    | with_reducible refine keeps_wr ?_
    | with_reducible refine keeps_audReset ?_
    | with_reducible refine keeps_disableSlots ?_
    | with_reducible refine keeps_gfxSchedule ?_
    | with_reducible refine keeps_capReset ?_
    | with_reducible refine keeps_cvuAbortPolder ?_
    | with_reducible refine keeps_cancelCommits ?_
    | with_reducible refine keeps_hapReset ?_
    | with_reducible refine keeps_netReset ?_
    | with_reducible refine keeps_tchReset ?_
    | with_reducible refine keeps_refuseFlips ?_
    | with_reducible refine keeps_polderChanged ?_
    | fail_if_no_progress with_reducible refine Keeps.upd ?_ rfl rfl rfl rfl
    | with_reducible refine Keeps.foldl ?_ fun _ _ _ => ?_

theorem keeps_hostLost {s0 a0 : State} (h0 : Keeps true s0 a0) : Keeps true s0 (hostLost a0) := by
  unfold hostLost
  try dsimp only
  repeat' first
    | with_reducible assumption
    | with_reducible refine keeps_freeLocks ?_
    | with_reducible refine keeps_vacateKind ?_
    | with_reducible refine keeps_startReset ?_
    | with_reducible refine Keeps.foldl ?_ fun _ _ _ => ?_

theorem keeps_execPciHotReset {s0 a1 : State} {a0} (h0 : Keeps true s0 a1) : KeepsR true s0 (execPciHotReset a0 a1) := by
  unfold execPciHotReset
  try dsimp only
  repeat' first
    | with_reducible assumption
    | with_reducible refine keeps_record0 ?_
    | with_reducible refine keeps_done ?_
    | with_reducible refine keeps_hostLost ?_
    | with_reducible refine KeepsR.mk ?_
    | with_reducible refine KeepsR.ite (fun _ => ?_) fun _ => ?_

theorem keeps_execPciLinkDown {s0 a0 : State} (h0 : Keeps true s0 a0) : KeepsR true s0 (execPciLinkDown a0) := by
  unfold execPciLinkDown
  try dsimp only
  repeat' first
    | with_reducible assumption
    | with_reducible refine keeps_record0 ?_
    | with_reducible refine keeps_done ?_
    | with_reducible refine keeps_hostLost ?_
    | with_reducible refine KeepsR.mk ?_
    | fail_if_no_progress with_reducible refine Keeps.upd ?_ rfl rfl rfl rfl
    | with_reducible refine KeepsR.ite (fun _ => ?_) fun _ => ?_

theorem keeps_execPciLinkUp {w : Bool} {s0 a0 : State} (h0 : Keeps w s0 a0) : KeepsR w s0 (execPciLinkUp a0) := by
  unfold execPciLinkUp
  try dsimp only
  repeat' first
    | with_reducible assumption
    | with_reducible refine keeps_done ?_
    | fail_if_no_progress with_reducible refine Keeps.upd ?_ rfl rfl rfl rfl

theorem keeps_polderReset {s0 a2 : State} {a0 a1} (h0 : Keeps true s0 a2) : KeepsA true s0 (polderReset a0 a1 a2) := by
  unfold polderReset
  try dsimp only
  repeat' first
    | with_reducible assumption
    | with_reducible refine keeps_no ?_
    | with_reducible refine keeps_pend ?_ (fun _ _ => ?_)
    | with_reducible refine keeps_startReset ?_
    | split

theorem keeps_execPolderDestroy {s0 a1 : State} {a0} (h0 : Keeps true s0 a1) : KeepsR true s0 (execPolderDestroy a0 a1) := by
  unfold execPolderDestroy
  try dsimp only
  repeat' first
    | with_reducible assumption
    | with_reducible refine keeps_done ?_
    | with_reducible refine keeps_serve (fun _ _ _ => ?_) ?_
    | with_reducible refine keeps_polderReset ?_

theorem keeps_execPolderReset {s0 a1 : State} {a0} (h0 : Keeps true s0 a1) : KeepsR true s0 (execPolderReset a0 a1) := by
  unfold execPolderReset
  try dsimp only
  repeat' first
    | with_reducible assumption
    | with_reducible refine keeps_done ?_
    | with_reducible refine keeps_serve (fun _ _ _ => ?_) ?_
    | with_reducible refine keeps_polderReset ?_

theorem keeps_execPolderResetDone {s0 a1 : State} {a0} (h0 : Keeps true s0 a1) : KeepsR true s0 (execPolderResetDone a0 a1) := by
  unfold execPolderResetDone
  try dsimp only
  repeat' first
    | with_reducible assumption
    | with_reducible refine keeps_wr ?_
    | with_reducible refine keeps_done ?_
    | with_reducible refine keeps_replyOpt ?_
    | with_reducible refine keeps_incWrap ?_
    | with_reducible refine keeps_clearInstance ?_
    | with_reducible refine keeps_destroyPolder ?_
    | with_reducible refine keeps_polderChanged ?_
    | with_reducible refine KeepsR.mk ?_
    | fail_if_no_progress with_reducible refine Keeps.upd ?_ rfl rfl rfl rfl
    | with_reducible refine Keeps.ite (fun _ => ?_) fun _ => ?_
    | with_reducible refine KeepsR.ite (fun _ => ?_) fun _ => ?_
    | split

theorem keeps_polderRevoke {w : Bool} {s0 a1 : State} {a0} (h0 : Keeps w s0 a1) : KeepsA w s0 (polderRevoke a0 a1) := by
  unfold polderRevoke
  try dsimp only
  repeat' first
    | with_reducible assumption
    | with_reducible refine keeps_no ?_
    | with_reducible refine keeps_did ?_
    | with_reducible refine keeps_returnUnits ?_
    | fail_if_no_progress with_reducible refine Keeps.upd ?_ rfl rfl rfl rfl
    | with_reducible refine KeepsA.ite (fun _ => ?_) fun _ => ?_
    | split

theorem keeps_execPolderRevoke {w : Bool} {s0 a1 : State} {a0} (h0 : Keeps w s0 a1) : KeepsR w s0 (execPolderRevoke a0 a1) := by
  unfold execPolderRevoke
  try dsimp only
  repeat' first
    | with_reducible assumption
    | with_reducible refine keeps_done ?_
    | with_reducible refine keeps_serve (fun _ _ _ => ?_) ?_
    | with_reducible refine keeps_polderRevoke ?_

theorem keeps_execPolderWorkAbort {w : Bool} {s0 a1 : State} {a0} (h0 : Keeps w s0 a1) : KeepsR w s0 (execPolderWorkAbort a0 a1) := by
  unfold execPolderWorkAbort
  try dsimp only
  repeat' first
    | with_reducible assumption
    | with_reducible refine keeps_done ?_
    | with_reducible refine keeps_advanceTo ?_
    | with_reducible refine keeps_reachQ ?_
    | with_reducible refine keeps_abortWork ?_
    | with_reducible refine KeepsR.mk ?_
    | fail_if_no_progress with_reducible refine Keeps.upd ?_ rfl rfl rfl rfl
    | with_reducible refine Keeps.ite (fun _ => ?_) fun _ => ?_
    | with_reducible refine KeepsR.ite (fun _ => ?_) fun _ => ?_
    | split

end Sys2Proof.Machine
end

