-- ==== Sys2Proof/Laws/KeepsSystem.lean ====
section
/-! SUPPORT. What the functions of boot, power, general I/O, the bus, the cores, the fabric and the step
keep of a state (Keeps): one lemma per function, each from those of the functions it calls. -/
namespace Sys2Proof.Machine

/-! ## Boot -/

theorem keeps_acceptManifest {w : Bool} {s0 a2 : State} {a0 a1} (h0 : Keeps w s0 a2) : Keeps w s0 (acceptManifest a0 a1 a2) := by
  unfold acceptManifest
  try dsimp only
  repeat' first
    | with_reducible assumption
    | with_reducible refine keeps_extend ?_
    | fail_if_no_progress with_reducible refine Keeps.upd ?_ rfl rfl rfl rfl

theorem keeps_zeroLoaded {s0 a0 : State} (h0 : Keeps true s0 a0) : Keeps true s0 (zeroLoaded a0) := by
  unfold zeroLoaded
  try dsimp only
  repeat' first
    | with_reducible assumption
    | with_reducible refine keeps_writeBytes ?_
    | with_reducible refine Keeps.foldl ?_ fun _ _ _ => ?_

theorem keeps_nextImage {w : Bool} {s0 a0 : State} (h0 : Keeps w s0 a0) : Keeps w s0 (nextImage a0) := by
  unfold nextImage
  try dsimp only
  repeat' first
    | with_reducible assumption
    | with_reducible refine keeps_wr ?_
    | fail_if_no_progress with_reducible refine Keeps.upd ?_ rfl rfl rfl rfl
    | with_reducible refine Keeps.ite (fun _ => ?_) fun _ => ?_

theorem keeps_outputOff {w : Bool} {s0 a1 : State} {a0} (h0 : Keeps w s0 a1) : Keeps w s0 (outputOff a0 a1) := by
  unfold outputOff
  try dsimp only
  repeat' first
    | with_reducible assumption
    | with_reducible refine keeps_switchOff ?_
    | with_reducible refine keeps_stopTiming ?_
    | with_reducible refine Keeps.ite (fun _ => ?_) fun _ => ?_

theorem keeps_imageFails {s0 a2 : State} {a0 a1} (h0 : Keeps true s0 a2) : Keeps true s0 (imageFails a0 a1 a2) := by
  unfold imageFails
  try dsimp only
  repeat' first
    | with_reducible assumption
    | with_reducible refine keeps_wr ?_
    | with_reducible refine keeps_record0 ?_
    | with_reducible refine keeps_wrAll ?_
    | with_reducible refine keeps_zeroLoaded ?_
    | with_reducible refine keeps_nextImage ?_
    | with_reducible refine keeps_outputOff ?_
    | fail_if_no_progress with_reducible refine Keeps.upd ?_ rfl rfl rfl rfl
    | with_reducible refine Keeps.foldl ?_ fun _ _ _ => ?_

theorem keeps_loadSegment {s0 a3 : State} {a0 a1 a2} (h0 : Keeps true s0 a3) : KeepsP true s0 (loadSegment a0 a1 a2 a3) := by
  unfold loadSegment
  try dsimp only
  repeat' first
    | with_reducible assumption
    | with_reducible refine keeps_writeBytes ?_
    | with_reducible refine KeepsP.mk ?_
    | fail_if_no_progress with_reducible refine Keeps.upd ?_ rfl rfl rfl rfl
    | split

theorem keeps_loadSegments {s0 a3 : State} {a0 a1 a2} (h0 : Keeps true s0 a3) : KeepsP true s0 (loadSegments a0 a1 a2 a3) := by
  unfold loadSegments
  try dsimp only
  repeat' first
    | with_reducible assumption
    | with_reducible refine KeepsP.snd (keeps_loadSegment ?_)
    | with_reducible refine KeepsP.mk ?_
    | with_reducible refine KeepsP.snd (KeepsP.foldl ?_ fun _ _ _ => ?_)
    | split

theorem keeps_recorderStart {w : Bool} {s0 a0 : State} (h0 : Keeps w s0 a0) : Keeps w s0 (recorderStart a0) := by
  unfold recorderStart
  try dsimp only
  repeat' first
    | with_reducible assumption
    | with_reducible refine keeps_takeEvent ?_
    | fail_if_no_progress with_reducible refine Keeps.upd ?_ rfl rfl rfl rfl
    | with_reducible refine Keeps.ite (fun _ => ?_) fun _ => ?_

theorem keeps_bootStep {w : Bool} {s0 a1 : State} {a0} (h0 : Keeps w s0 a1) : Keeps w s0 (bootStep a0 a1) := by
  unfold bootStep
  try dsimp only
  repeat' first
    | with_reducible assumption
    | with_reducible refine keeps_wr ?_
    | with_reducible refine keeps_record0 ?_

theorem keeps_firmwareStart {w : Bool} {s0 a0 : State} (h0 : Keeps w s0 a0) : Keeps w s0 (firmwareStart a0) := by
  unfold firmwareStart
  try dsimp only
  repeat' first
    | with_reducible assumption
    | with_reducible refine keeps_wr ?_
    | with_reducible refine keeps_record0 ?_
    | with_reducible refine keeps_recorderStart ?_
    | with_reducible refine keeps_bootStep ?_
    | with_reducible refine Keeps.ite (fun _ => ?_) fun _ => ?_
    | with_reducible refine Keeps.foldl ?_ fun _ _ _ => ?_

theorem keeps_takeRecord {w : Bool} {s0 a1 : State} {a0} (h0 : Keeps w s0 a1) : Keeps w s0 (takeRecord a0 a1) := by
  unfold takeRecord
  try dsimp only
  repeat' first
    | with_reducible assumption
    | with_reducible refine keeps_wrAll ?_
    | fail_if_no_progress with_reducible refine Keeps.upd ?_ rfl rfl rfl rfl
    | with_reducible refine Keeps.foldl ?_ fun _ _ _ => ?_

theorem keeps_bootFirmware {s0 a0 : State} (h0 : Keeps true s0 a0) : Keeps true s0 (bootFirmware a0) := by
  unfold bootFirmware
  try dsimp only
  repeat' first
    | with_reducible assumption
    | with_reducible refine keeps_wr ?_
    | with_reducible refine keeps_record0 ?_
    | with_reducible refine keeps_acceptManifest ?_
    | with_reducible refine keeps_imageFails ?_
    | with_reducible refine keeps_bootStep ?_
    | with_reducible refine keeps_firmwareStart ?_
    | with_reducible refine keeps_takeRecord ?_
    | with_reducible refine KeepsP.snd (keeps_loadSegments ?_)
    | with_reducible refine Keeps.ite (fun _ => ?_) fun _ => ?_

theorem keeps_deviceReset {s0 a3 : State} {a0 a1 a2} (h0 : Keeps true s0 a3) : Keeps true s0 (deviceReset a0 a1 a2 a3) := by
  have h1 := keeps_tearSync h0
  unfold deviceReset
  extract_lets s lost v src f
  refine keeps_wr (keeps_wrB (keeps_wr (keeps_wr ?_)))
  refine ⟨h1.queue, (fun e => nomatch e), (fun x => Memory.scramble_wf (lost := fun a => !nonVolatile a) (n := f) (m := s.mem) (h1.wf x)), ?_, h1.fuses, fun _ => ⟨Nat.zero_le _, (fun _ h => nomatch h), fun _ h => nomatch h⟩,
    fun _ _ => Nat.zero_le _, fun _ => ⟨Nat.zero_le _, Nat.zero_le _, Nat.zero_le _⟩⟩
  exact Nat.le_trans h1.free (Nat.le_trans (Nat.le_add_right _ 2) (Nat.le_add_right _ _))

theorem keeps_execBootGetInfo {w : Bool} {s0 a1 : State} {a0} (h0 : Keeps w s0 a1) : KeepsR w s0 (execBootGetInfo a0 a1) := by
  unfold execBootGetInfo
  try dsimp only
  repeat' first
    | with_reducible assumption
    | with_reducible refine keeps_done ?_
    | with_reducible refine keeps_okR ?_
    | with_reducible refine keeps_serve (fun _ _ _ => ?_) ?_

theorem bit_or {a b i : Nat} (h : bit a i = true) : bit (a ||| b) i = true := by
  have e (n : Nat) : bit n i = n.testBit i := by rw [bit, Nat.testBit_eq_decide_div_mod_eq]; rfl
  rw [e] at h ⊢
  rw [Nat.testBit_or, h, Bool.true_or]

theorem keeps_execBootOtpProgram {w : Bool} {s0 a1 : State} {a0} (h0 : Keeps w s0 a1) : KeepsR w s0 (execBootOtpProgram a0 a1) := by
  refine keeps_done (keeps_serve (fun q s h => ?_) h0)
  refine KeepsA.ite (fun _ => keeps_no h) fun _ => KeepsA.ite (fun _ => keeps_no h) fun _ => keeps_did (keeps_record0 ?_)
  refine ⟨h.queue, h.mem, h.wf, h.free, fun n i x => ?_, h.warden, h.chans, h.recorder⟩
  have := h.fuses n i x
  by_cases e : n = bits (q.w 2) 7 0
  · subst e
    rw [Tab.get_put_same]
    exact bit_or this
  · rw [Tab.get_put_ne _ _ _ _ _ e]
    exact this

theorem keeps_execDeviceReset {s0 a2 : State} {a0 a1} (h0 : Keeps true s0 a2) : KeepsR true s0 (execDeviceReset a0 a1 a2) := by
  unfold execDeviceReset
  try dsimp only
  repeat' first
    | with_reducible assumption
    | with_reducible refine keeps_done ?_
    | with_reducible refine keeps_deviceReset ?_
    | with_reducible refine Keeps.ite (fun _ => ?_) fun _ => ?_

theorem keeps_execDramInitDone {s0 a2 : State} {a0 a1} (h0 : Keeps true s0 a2) : KeepsR true s0 (execDramInitDone a0 a1 a2) := by
  unfold execDramInitDone
  try dsimp only
  repeat' first
    | with_reducible assumption
    | with_reducible refine keeps_done ?_
    | with_reducible refine keeps_wrAll ?_
    | with_reducible refine keeps_imageFails ?_
    | with_reducible refine keeps_dramTemp ?_
    | with_reducible refine KeepsR.mk ?_
    | with_reducible refine KeepsR.ite (fun _ => ?_) fun _ => ?_

theorem keeps_zeroStaging {s0 a0 : State} (h0 : Keeps true s0 a0) : Keeps true s0 (zeroStaging a0) :=
  ⟨h0.queue, (fun e => nomatch e), fun x => Memory.filter_wf _ (h0.wf x), h0.free, h0.fuses, h0.warden, h0.chans, h0.recorder⟩

theorem keeps_startHarts {w : Bool} {s0 a0 : State} (h0 : Keeps w s0 a0) : Keeps w s0 (startHarts a0) := by
  unfold startHarts
  try dsimp only
  repeat' first
    | with_reducible assumption
    | with_reducible refine keeps_setHart ?_
    | with_reducible refine Keeps.foldl ?_ fun _ _ _ => ?_

theorem keeps_release {s0 a0 : State} (h0 : Keeps true s0 a0) : Keeps true s0 (release a0) := by
  unfold release
  try dsimp only
  repeat' first
    | with_reducible assumption
    | with_reducible refine keeps_wr ?_
    | with_reducible refine keeps_bootStep ?_
    | with_reducible refine keeps_openWindow ?_
    | with_reducible refine keeps_notifyAll ?_
    | with_reducible refine keeps_zeroStaging ?_
    | with_reducible refine keeps_startHarts ?_
    | fail_if_no_progress with_reducible refine Keeps.upd ?_ rfl rfl rfl rfl
    | with_reducible refine Keeps.ite (fun _ => ?_) fun _ => ?_
    | with_reducible refine Keeps.idd ?_
    | split

theorem keeps_execHartRelease {s0 a0 : State} (h0 : Keeps true s0 a0) : KeepsR true s0 (execHartRelease a0) := by
  unfold execHartRelease
  try dsimp only
  repeat' first
    | with_reducible assumption
    | with_reducible refine keeps_wr ?_
    | with_reducible refine keeps_done ?_
    | with_reducible refine keeps_imageFails ?_
    | with_reducible refine keeps_release ?_
    | with_reducible refine KeepsP.snd (keeps_loadSegments ?_)
    | with_reducible refine KeepsR.mk ?_
    | with_reducible refine KeepsR.ite (fun _ => ?_) fun _ => ?_

theorem keeps_execHostBootWrite {s0 a3 : State} {a0 a1 a2} (h0 : Keeps true s0 a3) : KeepsR true s0 (execHostBootWrite a0 a1 a2 a3) := by
  unfold execHostBootWrite
  try dsimp only
  repeat' first
    | with_reducible assumption
    | with_reducible refine keeps_wr ?_
    | with_reducible refine keeps_done ?_
    | with_reducible refine keeps_turnedAway ?_
    | with_reducible refine keeps_bootFirmware ?_
    | with_reducible refine KeepsR.mk ?_
    | with_reducible refine KeepsO.elim (by assumption) ?_
    | with_reducible refine KeepsR.ite (fun _ => ?_) fun _ => ?_
    | split

theorem keeps_execPowerFailReset {s0 a1 : State} {a0} (h0 : Keeps true s0 a1) : KeepsR true s0 (execPowerFailReset a0 a1) := by
  unfold execPowerFailReset
  try dsimp only
  repeat' first
    | with_reducible assumption
    | with_reducible refine keeps_done ?_
    | with_reducible refine keeps_deviceReset ?_
    | with_reducible refine KeepsR.mk ?_
    | split

theorem keeps_execPwrReset {s0 a2 : State} {a0 a1} (h0 : Keeps true s0 a2) : KeepsR true s0 (execPwrReset a0 a1 a2) := by
  unfold execPwrReset
  try dsimp only
  repeat' first
    | with_reducible assumption
    | with_reducible refine keeps_done ?_
    | with_reducible refine keeps_no ?_
    | with_reducible refine keeps_serve (fun _ _ _ => ?_) ?_
    | with_reducible refine keeps_deviceReset ?_
    | with_reducible refine keeps_claimBlocked ?_
    | with_reducible refine KeepsA.ite (fun _ => ?_) fun _ => ?_
    | with_reducible refine Keeps.idd ?_
    | split
    | with_reducible refine KeepsA.mk ?_ fun _ _ => ?_

theorem keeps_execSplashHeartbeat {w : Bool} {s0 a0 : State} (h0 : Keeps w s0 a0) : KeepsR w s0 (execSplashHeartbeat a0) := by
  unfold execSplashHeartbeat
  try dsimp only
  repeat' first
    | with_reducible assumption
    | with_reducible refine keeps_done ?_
    | with_reducible refine keeps_advanceTo ?_
    | with_reducible refine keeps_setSlot ?_
    | with_reducible refine KeepsR.mk ?_
    | fail_if_no_progress with_reducible refine Keeps.upd ?_ rfl rfl rfl rfl
    | with_reducible refine KeepsR.ite (fun _ => ?_) fun _ => ?_
    | with_reducible refine Keeps.foldl ?_ fun _ _ _ => ?_

theorem keeps_splashCommit {w : Bool} {s0 a2 : State} {a0 a1} (h0 : Keeps w s0 a2) : Keeps w s0 (splashCommit a0 a1 a2) := by
  unfold splashCommit
  try dsimp only
  repeat' first
    | with_reducible assumption
    | with_reducible refine keeps_wr ?_
    | with_reducible refine keeps_rejectCommit ?_
    | with_reducible refine keeps_acceptCommit ?_
    | with_reducible refine keeps_enqueue ?_
    | fail_if_no_progress with_reducible refine Keeps.upd ?_ rfl rfl rfl rfl
    | with_reducible refine Keeps.foldl ?_ fun _ _ _ => ?_
    | split

theorem keeps_splashOutput {w : Bool} {s0 a2 : State} {a0 a1} (h0 : Keeps w s0 a2) : Keeps w s0 (splashOutput a0 a1 a2) := by
  unfold splashOutput
  try dsimp only
  repeat' first
    | with_reducible assumption
    | with_reducible refine keeps_splashCommit ?_
    | with_reducible refine keeps_configure ?_
    | with_reducible refine keeps_hotplug ?_
    | with_reducible refine Keeps.ite (fun _ => ?_) fun _ => ?_
    | split

theorem keeps_execSplashSegmentLoaded {s0 a0 : State} (h0 : Keeps true s0 a0) : KeepsR true s0 (execSplashSegmentLoaded a0) := by
  unfold execSplashSegmentLoaded
  try dsimp only
  repeat' first
    | with_reducible assumption
    | with_reducible refine keeps_wr ?_
    | with_reducible refine keeps_done ?_
    | with_reducible refine keeps_acceptManifest ?_
    | with_reducible refine keeps_imageFails ?_
    | with_reducible refine keeps_bootStep ?_
    | with_reducible refine keeps_splashOutput ?_
    | with_reducible refine KeepsP.snd (keeps_loadSegments ?_)
    | with_reducible refine KeepsR.mk ?_
    | with_reducible refine KeepsR.ite (fun _ => ?_) fun _ => ?_
    | with_reducible refine Keeps.foldl ?_ fun _ _ _ => ?_

theorem keeps_execStandbyWake {s0 a1 : State} {a0} (h0 : Keeps true s0 a1) : KeepsR true s0 (execStandbyWake a0 a1) := by
  unfold execStandbyWake
  try dsimp only
  repeat' first
    | with_reducible assumption
    | with_reducible refine keeps_done ?_
    | with_reducible refine keeps_deviceReset ?_
    | with_reducible refine KeepsR.mk ?_
    | with_reducible refine KeepsR.ite (fun _ => ?_) fun _ => ?_

theorem keeps_execThermalRestart {s0 a1 : State} {a0} (h0 : Keeps true s0 a1) : KeepsR true s0 (execThermalRestart a0 a1) := by
  unfold execThermalRestart
  try dsimp only
  repeat' first
    | with_reducible assumption
    | with_reducible refine keeps_done ?_
    | with_reducible refine keeps_advanceTo ?_
    | with_reducible refine keeps_deviceReset ?_
    | with_reducible refine KeepsR.mk ?_
    | with_reducible refine KeepsR.ite (fun _ => ?_) fun _ => ?_

theorem keeps_execTujanFirmwareStart {s0 a1 : State} {a0} (h0 : Keeps true s0 a1) : KeepsR true s0 (execTujanFirmwareStart a0 a1) := by
  unfold execTujanFirmwareStart
  try dsimp only
  repeat' first
    | with_reducible assumption
    | with_reducible refine keeps_done ?_
    | with_reducible refine keeps_writeBytes ?_
    | with_reducible refine keeps_imageFails ?_
    | with_reducible refine keeps_bootFirmware ?_
    | with_reducible refine KeepsR.mk ?_
    | with_reducible refine KeepsR.ite (fun _ => ?_) fun _ => ?_
    | split

theorem keeps_execTujanWatchdog {s0 a1 : State} {a0} (h0 : Keeps true s0 a1) : KeepsR true s0 (execTujanWatchdog a0 a1) := by
  unfold execTujanWatchdog
  try dsimp only
  repeat' first
    | with_reducible assumption
    | with_reducible refine keeps_done ?_
    | with_reducible refine keeps_deviceReset ?_

/-! ## Power -/

theorem keeps_blockReset {w : Bool} {s0 a1 : State} {a0} (h0 : Keeps w s0 a1) : Keeps w s0 (blockReset a0 a1) := by
  unfold blockReset
  try dsimp only
  repeat' first
    | with_reducible assumption
    | with_reducible refine keeps_wr ?_
    | with_reducible refine keeps_setOut ?_
    | with_reducible refine keeps_setHart ?_
    | with_reducible refine keeps_freeLocksOf ?_
    | with_reducible refine keeps_setTch ?_
    | fail_if_no_progress with_reducible refine Keeps.upd ?_ rfl rfl rfl rfl
    | with_reducible refine Keeps.ite (fun _ => ?_) fun _ => ?_
    | with_reducible refine Keeps.foldl ?_ fun _ _ _ => ?_

theorem keeps_dropSegments {s0 a0 : State} (h0 : Keeps true s0 a0) : Keeps true s0 (dropSegments a0) :=
  ⟨h0.queue, (fun e => nomatch e), (fun x => Memory.scramble_wf
      (lost := fun a => decide (dramBase + rd a0 (DMC_PASR_keep 0) * segmentBytes a0 ≤ a) && decide (a < dramTop)) (n := a0.free) (m := a0.mem) (h0.wf x)), Nat.le_trans h0.free (Nat.le_add_right _ _), h0.fuses, h0.warden, h0.chans,
    h0.recorder⟩

theorem keeps_execPumpGetStatus {w : Bool} {s0 a1 : State} {a0} (h0 : Keeps w s0 a1) : KeepsR w s0 (execPumpGetStatus a0 a1) := by
  unfold execPumpGetStatus
  try dsimp only
  repeat' first
    | with_reducible assumption
    | with_reducible refine keeps_done ?_
    | with_reducible refine keeps_okR ?_
    | with_reducible refine keeps_serve (fun _ _ _ => ?_) ?_

theorem keeps_transitionRefusal {w : Bool} {s0 a1 : State} {a0 a2 a3} (h0 : Keeps w s0 a1) : KeepsOA w s0 (transitionRefusal a0 a1 a2 a3) := by
  unfold transitionRefusal
  try dsimp only
  repeat' first
    | with_reducible assumption
    | with_reducible refine keeps_no ?_
    | with_reducible refine keeps_claimBlocked ?_
    | with_reducible refine KeepsOA.mk ?_
    | with_reducible refine KeepsOA.non
    | with_reducible refine KeepsOA.ite (fun _ => ?_) fun _ => ?_
    | with_reducible refine Keeps.idd ?_
    | split
    | with_reducible refine KeepsA.mk ?_ fun _ _ => ?_

theorem keeps_setTrans {w : Bool} {s0 a1 : State} {a0} (h0 : Keeps w s0 a1) : Keeps w s0 (setTrans a0 a1) := by
  unfold setTrans
  try dsimp only
  repeat' first
    | with_reducible assumption
    | fail_if_no_progress with_reducible refine Keeps.upd ?_ rfl rfl rfl rfl

theorem keeps_outputStops {w : Bool} {s0 a1 : State} {a0} (h0 : Keeps w s0 a1) : Keeps w s0 (outputStops a0 a1) := by
  unfold outputStops
  try dsimp only
  repeat' first
    | with_reducible assumption
    | with_reducible refine keeps_setOut ?_
    | with_reducible refine keeps_outputOff ?_
    | with_reducible refine Keeps.ite (fun _ => ?_) fun _ => ?_

theorem keeps_quietStep3 {s0 a1 : State} {a0} (h0 : Keeps true s0 a1) : Keeps true s0 (quietStep3 a0 a1) := by
  unfold quietStep3
  try dsimp only
  repeat' first
    | with_reducible assumption
    | with_reducible refine keeps_helloSend ?_
    | with_reducible refine keeps_snapToDram ?_
    | with_reducible refine keeps_outputStops ?_
    | fail_if_no_progress with_reducible refine Keeps.upd ?_ rfl rfl rfl rfl
    | with_reducible refine Keeps.foldl ?_ fun _ _ _ => ?_

theorem keeps_quietStart {s0 a3 : State} {a0 a1 a2} (h0 : Keeps true s0 a3) : Keeps true s0 (quietStart a0 a1 a2 a3) := by
  unfold quietStart
  try dsimp only
  repeat' first
    | with_reducible assumption
    | with_reducible refine keeps_wr ?_
    | with_reducible refine keeps_notifyAck ?_
    | with_reducible refine keeps_setTrans ?_
    | with_reducible refine keeps_quietStep3 ?_
    | with_reducible refine Keeps.ite (fun _ => ?_) fun _ => ?_
    | with_reducible refine Keeps.foldl ?_ fun _ _ _ => ?_

theorem keeps_execPwrEnterQuiet {s0 a1 : State} {a0} (h0 : Keeps true s0 a1) : KeepsR true s0 (execPwrEnterQuiet a0 a1) := by
  unfold execPwrEnterQuiet
  try dsimp only
  repeat' first
    | with_reducible assumption
    | with_reducible refine keeps_done ?_
    | with_reducible refine keeps_serve (fun _ _ _ => ?_) ?_
    | with_reducible refine keeps_pend ?_ (fun _ _ => ?_)
    | with_reducible refine keeps_transitionRefusal ?_
    | with_reducible refine keeps_quietStart ?_
    | with_reducible refine KeepsOA.elim (by assumption) ?_
    | split

theorem keeps_execPwrGetState {w : Bool} {s0 a1 : State} {a0} (h0 : Keeps w s0 a1) : KeepsR w s0 (execPwrGetState a0 a1) := by
  unfold execPwrGetState
  try dsimp only
  repeat' first
    | with_reducible assumption
    | with_reducible refine keeps_done ?_
    | with_reducible refine keeps_okR ?_
    | with_reducible refine keeps_serve (fun _ _ _ => ?_) ?_

theorem keeps_execPwrGetTelemetry {w : Bool} {s0 a1 : State} {a0} (h0 : Keeps w s0 a1) : KeepsR w s0 (execPwrGetTelemetry a0 a1) := by
  unfold execPwrGetTelemetry
  try dsimp only
  repeat' first
    | with_reducible assumption
    | with_reducible refine keeps_done ?_
    | with_reducible refine keeps_okR ?_
    | with_reducible refine keeps_serve (fun _ _ _ => ?_) ?_

theorem keeps_execPwrSetBlock {w : Bool} {s0 a1 : State} {a0} (h0 : Keeps w s0 a1) : KeepsR w s0 (execPwrSetBlock a0 a1) := by
  unfold execPwrSetBlock
  try dsimp only
  repeat' first
    | with_reducible assumption
    | with_reducible refine keeps_orBits ?_
    | with_reducible refine keeps_done ?_
    | with_reducible refine keeps_no ?_
    | with_reducible refine keeps_did ?_
    | with_reducible refine keeps_serve (fun _ _ _ => ?_) ?_
    | with_reducible refine keeps_claimBlocked ?_
    | with_reducible refine keeps_clrBits ?_
    | with_reducible refine keeps_blockReset ?_
    | with_reducible refine KeepsA.ite (fun _ => ?_) fun _ => ?_
    | with_reducible refine Keeps.idd ?_
    | with_reducible refine KeepsA.mk ?_ fun _ _ => ?_

theorem keeps_execPwrSetThermal {w : Bool} {s0 a1 : State} {a0} (h0 : Keeps w s0 a1) : KeepsR w s0 (execPwrSetThermal a0 a1) := by
  unfold execPwrSetThermal
  try dsimp only
  repeat' first
    | with_reducible assumption
    | with_reducible refine keeps_wr ?_
    | with_reducible refine keeps_done ?_
    | with_reducible refine keeps_no ?_
    | with_reducible refine keeps_did ?_
    | with_reducible refine keeps_serve (fun _ _ _ => ?_) ?_
    | with_reducible refine KeepsA.ite (fun _ => ?_) fun _ => ?_

theorem keeps_execPwrShutdown {s0 a1 : State} {a0} (h0 : Keeps true s0 a1) : KeepsR true s0 (execPwrShutdown a0 a1) := by
  unfold execPwrShutdown
  try dsimp only
  repeat' first
    | with_reducible assumption
    | with_reducible refine keeps_done ?_
    | with_reducible refine keeps_serve (fun _ _ _ => ?_) ?_
    | with_reducible refine keeps_pend ?_ (fun _ _ => ?_)
    | with_reducible refine keeps_transitionRefusal ?_
    | with_reducible refine keeps_quietStart ?_
    | with_reducible refine KeepsOA.elim (by assumption) ?_
    | split

theorem keeps_execQuietAck {s0 a1 : State} {a0} (h0 : Keeps true s0 a1) : KeepsR true s0 (execQuietAck a0 a1) := by
  unfold execQuietAck
  try dsimp only
  repeat' first
    | with_reducible assumption
    | with_reducible refine keeps_done ?_
    | with_reducible refine keeps_dropHead ?_
    | with_reducible refine keeps_clearUnacked ?_
    | with_reducible refine keeps_setTrans ?_
    | with_reducible refine keeps_quietStep3 ?_
    | with_reducible refine KeepsR.mk ?_
    | with_reducible refine KeepsR.ite (fun _ => ?_) fun _ => ?_
    | split

theorem keeps_recordWakes {w : Bool} {s0 a0 : State} (h0 : Keeps w s0 a0) : Keeps w s0 (recordWakes a0) := by
  unfold recordWakes
  try dsimp only
  repeat' first
    | with_reducible assumption
    | with_reducible refine keeps_record0 ?_
    | with_reducible refine Keeps.foldl ?_ fun _ _ _ => ?_

theorem keeps_execQuietAckTimeout {w : Bool} {s0 a0 : State} (h0 : Keeps w s0 a0) : KeepsR w s0 (execQuietAckTimeout a0) := by
  unfold execQuietAckTimeout
  try dsimp only
  repeat' first
    | with_reducible assumption
    | with_reducible refine keeps_wr ?_
    | with_reducible refine keeps_done ?_
    | with_reducible refine keeps_advanceTo ?_
    | with_reducible refine keeps_reply ?_
    | with_reducible refine keeps_notifyAll ?_
    | with_reducible refine keeps_setTrans ?_
    | with_reducible refine keeps_recordWakes ?_
    | with_reducible refine KeepsR.mk ?_
    | fail_if_no_progress with_reducible refine Keeps.upd ?_ rfl rfl rfl rfl
    | with_reducible refine KeepsR.ite (fun _ => ?_) fun _ => ?_
    | split

theorem keeps_execQuietEntryDone {w : Bool} {s0 a0 : State} (h0 : Keeps w s0 a0) : KeepsR w s0 (execQuietEntryDone a0) := by
  unfold execQuietEntryDone
  try dsimp only
  repeat' first
    | with_reducible assumption
    | with_reducible refine keeps_wr ?_
    | with_reducible refine keeps_record0 ?_
    | with_reducible refine keeps_tujanSend ?_
    | with_reducible refine keeps_done ?_
    | with_reducible refine keeps_wrAll ?_
    | with_reducible refine keeps_outputOff ?_
    | with_reducible refine keeps_setHart ?_
    | with_reducible refine keeps_clrBits ?_
    | with_reducible refine keeps_freeLocksOf ?_
    | with_reducible refine keeps_closeRows ?_
    | with_reducible refine keeps_setTrans ?_
    | with_reducible refine keeps_tchQuietEntry ?_
    | with_reducible refine KeepsR.mk ?_
    | with_reducible refine KeepsR.ite (fun _ => ?_) fun _ => ?_
    | with_reducible refine Keeps.foldl ?_ fun _ _ _ => ?_
    | split

theorem keeps_execQuietExitDone {w : Bool} {s0 a0 : State} (h0 : Keeps w s0 a0) : KeepsR w s0 (execQuietExitDone a0) := by
  unfold execQuietExitDone
  try dsimp only
  repeat' first
    | with_reducible assumption
    | with_reducible refine keeps_wr ?_
    | with_reducible refine keeps_record0 ?_
    | with_reducible refine keeps_done ?_
    | with_reducible refine keeps_notifyAll ?_
    | with_reducible refine keeps_recordWakes ?_
    | with_reducible refine keeps_tchQuietExit ?_
    | with_reducible refine KeepsR.mk ?_
    | fail_if_no_progress with_reducible refine Keeps.upd ?_ rfl rfl rfl rfl
    | with_reducible refine KeepsR.ite (fun _ => ?_) fun _ => ?_

theorem keeps_execShutdownComplete {s0 a1 : State} {a0} (h0 : Keeps true s0 a1) : KeepsR true s0 (execShutdownComplete a0 a1) := by
  unfold execShutdownComplete
  try dsimp only
  repeat' first
    | with_reducible assumption
    | with_reducible refine keeps_settle ?_
    | with_reducible refine keeps_done ?_
    | with_reducible refine keeps_advanceTo ?_
    | with_reducible refine keeps_reply ?_
    | with_reducible refine keeps_outputOff ?_
    | with_reducible refine keeps_startSync ?_
    | with_reducible refine keeps_finishSync ?_
    | with_reducible refine keeps_snapToFlash ?_
    | with_reducible refine keeps_archiveAll ?_
    | with_reducible refine KeepsR.mk ?_
    | fail_if_no_progress with_reducible refine Keeps.upd ?_ rfl rfl rfl rfl
    | with_reducible refine Keeps.ite (fun _ => ?_) fun _ => ?_
    | with_reducible refine Keeps.foldl ?_ fun _ _ _ => ?_
    | split

theorem keeps_thermalState {w : Bool} {s0 a5 : State} {a0 a1 a2 a3 a4} (h0 : Keeps w s0 a5) : Keeps w s0 (thermalState a0 a1 a2 a3 a4 a5) := by
  unfold thermalState
  try dsimp only
  repeat' first
    | with_reducible assumption
    | with_reducible refine keeps_wr ?_
    | with_reducible refine keeps_record0 ?_
    | with_reducible refine Keeps.ite (fun _ => ?_) fun _ => ?_

theorem keeps_execTelemetryRead {s0 a2 : State} {a0 a1} (h0 : Keeps true s0 a2) : KeepsR true s0 (execTelemetryRead a0 a1 a2) := by
  unfold execTelemetryRead
  try dsimp only
  repeat' first
    | with_reducible assumption
    | with_reducible refine keeps_wr ?_
    | with_reducible refine keeps_notifyWardenAnd0 ?_
    | with_reducible refine keeps_done ?_
    | with_reducible refine keeps_gfxSchedule ?_
    | with_reducible refine keeps_pumpRan ?_
    | with_reducible refine keeps_wrI ?_
    | with_reducible refine keeps_thermalState ?_
    | with_reducible refine KeepsR.ite (fun _ => ?_) fun _ => ?_
    | with_reducible refine Keeps.foldl ?_ fun _ _ _ => ?_

theorem keeps_execThermalShutdown {w : Bool} {s0 a2 : State} {a0 a1} (h0 : Keeps w s0 a2) : KeepsR w s0 (execThermalShutdown a0 a1 a2) := by
  unfold execThermalShutdown
  try dsimp only
  repeat' first
    | with_reducible assumption
    | with_reducible refine keeps_record0 ?_
    | with_reducible refine keeps_done ?_
    | with_reducible refine keeps_setTrans ?_
    | with_reducible refine keeps_flushSteps ?_
    | with_reducible refine KeepsR.mk ?_
    | fail_if_no_progress with_reducible refine Keeps.upd ?_ rfl rfl rfl rfl
    | with_reducible refine KeepsR.ite (fun _ => ?_) fun _ => ?_

theorem keeps_outputRestarts {w : Bool} {s0 a1 : State} {a0} (h0 : Keeps w s0 a1) : Keeps w s0 (outputRestarts a0 a1) := by
  unfold outputRestarts
  try dsimp only
  repeat' first
    | with_reducible assumption
    | with_reducible refine keeps_wr ?_
    | with_reducible refine keeps_setOut ?_
    | with_reducible refine keeps_configChanged ?_ ?_
    | with_reducible refine Keeps.ite (fun _ => ?_) fun _ => ?_

theorem keeps_execWakeEvent {s0 a0 : State} (h0 : Keeps true s0 a0) : KeepsR true s0 (execWakeEvent a0) := by
  unfold execWakeEvent
  try dsimp only
  repeat' first
    | with_reducible assumption
    | with_reducible refine keeps_wr ?_
    | with_reducible refine keeps_record0 ?_
    | with_reducible refine keeps_orBits ?_
    | with_reducible refine keeps_done ?_
    | with_reducible refine keeps_wrAll ?_
    | with_reducible refine keeps_startHarts ?_
    | with_reducible refine keeps_dropSegments ?_
    | with_reducible refine keeps_recordWakes ?_
    | with_reducible refine keeps_outputRestarts ?_
    | with_reducible refine KeepsR.mk ?_
    | fail_if_no_progress with_reducible refine Keeps.upd ?_ rfl rfl rfl rfl
    | with_reducible refine KeepsR.ite (fun _ => ?_) fun _ => ?_
    | with_reducible refine Keeps.foldl ?_ fun _ _ _ => ?_

/-! ## Gio -/

theorem keeps_setGio {w : Bool} {s0 a1 : State} {a0} (h0 : Keeps w s0 a1) : Keeps w s0 (setGio a0 a1) := by
  unfold setGio
  try dsimp only
  repeat' first
    | with_reducible assumption
    | fail_if_no_progress with_reducible refine Keeps.upd ?_ rfl rfl rfl rfl

theorem keeps_setUart {w : Bool} {s0 a2 : State} {a0 a1} (h0 : Keeps w s0 a2) : Keeps w s0 (setUart a0 a1 a2) := by
  unfold setUart
  try dsimp only
  repeat' first
    | with_reducible assumption
    | with_reducible refine keeps_wr ?_
    | with_reducible refine keeps_wrB ?_
    | with_reducible refine keeps_setGio ?_

theorem keeps_setI2c {w : Bool} {s0 a2 : State} {a0 a1} (h0 : Keeps w s0 a2) : Keeps w s0 (setI2c a0 a1 a2) := by
  unfold setI2c
  try dsimp only
  repeat' first
    | with_reducible assumption
    | with_reducible refine keeps_wr ?_
    | with_reducible refine keeps_wrB ?_
    | with_reducible refine keeps_setGio ?_

theorem keeps_setSpi {w : Bool} {s0 a2 : State} {a0 a1} (h0 : Keeps w s0 a2) : Keeps w s0 (setSpi a0 a1 a2) := by
  unfold setSpi
  try dsimp only
  repeat' first
    | with_reducible assumption
    | with_reducible refine keeps_wr ?_
    | with_reducible refine keeps_wrB ?_
    | with_reducible refine keeps_setGio ?_

theorem keeps_gpioFollow {w : Bool} {s0 a2 : State} {a0 a1} (h0 : Keeps w s0 a2) : Keeps w s0 (gpioFollow a0 a1 a2) := by
  unfold gpioFollow
  try dsimp only
  repeat' first
    | with_reducible assumption
    | with_reducible refine keeps_orBits ?_
    | fail_if_no_progress with_reducible refine Keeps.upd ?_ rfl rfl rfl rfl
    | with_reducible refine Keeps.ite (fun _ => ?_) fun _ => ?_

theorem keeps_gpioOut {w : Bool} {s0 a2 : State} {a0 a1} (h0 : Keeps w s0 a2) : Keeps w s0 (gpioOut a0 a1 a2) := by
  unfold gpioOut
  try dsimp only
  repeat' first
    | with_reducible assumption
    | with_reducible refine keeps_wr ?_
    | with_reducible refine keeps_gpioFollow ?_

theorem keeps_uartPush {w : Bool} {s0 a2 : State} {a0 a1} (h0 : Keeps w s0 a2) : Keeps w s0 (uartPush a0 a1 a2) := by
  unfold uartPush
  try dsimp only
  repeat' first
    | with_reducible assumption
    | with_reducible refine keeps_setUart ?_
    | with_reducible refine Keeps.ite (fun _ => ?_) fun _ => ?_

theorem keeps_execUartDataWrite {w : Bool} {s0 a3 : State} {a0 a1 a2} (h0 : Keeps w s0 a3) : KeepsR w s0 (execUartDataWrite a0 a1 a2 a3) := by
  unfold execUartDataWrite
  try dsimp only
  repeat' first
    | with_reducible assumption
    | with_reducible refine keeps_regWrite (fun _ _ _ => ?_) ?_
    | with_reducible refine keeps_uartPush ?_

theorem keeps_execI2cCmd {w : Bool} {s0 a3 : State} {a0 a1 a2} (h0 : Keeps w s0 a3) : KeepsR w s0 (execI2cCmd a0 a1 a2 a3) := by
  unfold execI2cCmd
  try dsimp only
  repeat' first
    | with_reducible assumption
    | with_reducible refine keeps_regWrite (fun _ _ _ => ?_) ?_
    | with_reducible refine keeps_setI2c ?_
    | with_reducible refine Keeps.ite (fun _ => ?_) fun _ => ?_

theorem keeps_execSpiTxWrite {w : Bool} {s0 a3 : State} {a0 a1 a2} (h0 : Keeps w s0 a3) : KeepsR w s0 (execSpiTxWrite a0 a1 a2 a3) := by
  unfold execSpiTxWrite
  try dsimp only
  repeat' first
    | with_reducible assumption
    | with_reducible refine keeps_regWrite (fun _ _ _ => ?_) ?_
    | with_reducible refine keeps_setSpi ?_
    | with_reducible refine Keeps.ite (fun _ => ?_) fun _ => ?_

theorem keeps_execGpioOutSet {w : Bool} {s0 a3 : State} {a0 a1 a2} (h0 : Keeps w s0 a3) : KeepsR w s0 (execGpioOutSet a0 a1 a2 a3) := by
  unfold execGpioOutSet
  try dsimp only
  repeat' first
    | with_reducible assumption
    | with_reducible refine keeps_regWrite (fun _ _ _ => ?_) ?_
    | with_reducible refine keeps_gpioOut ?_

theorem keeps_execGpioOutClr {w : Bool} {s0 a3 : State} {a0 a1 a2} (h0 : Keeps w s0 a3) : KeepsR w s0 (execGpioOutClr a0 a1 a2 a3) := by
  unfold execGpioOutClr
  try dsimp only
  repeat' first
    | with_reducible assumption
    | with_reducible refine keeps_regWrite (fun _ _ _ => ?_) ?_
    | with_reducible refine keeps_gpioOut ?_

theorem keeps_execUartDataRead {w : Bool} {s0 a2 : State} {a0 a1} (h0 : Keeps w s0 a2) : KeepsR w s0 (execUartDataRead a0 a1 a2) := by
  unfold execUartDataRead
  try dsimp only
  repeat' first
    | with_reducible assumption
    | with_reducible refine keeps_regRead (fun _ _ => ?_) ?_
    | with_reducible refine keeps_setUart ?_
    | with_reducible refine KeepsP.mk ?_
    | split

theorem keeps_execI2cRxRead {w : Bool} {s0 a2 : State} {a0 a1} (h0 : Keeps w s0 a2) : KeepsR w s0 (execI2cRxRead a0 a1 a2) := by
  unfold execI2cRxRead
  try dsimp only
  repeat' first
    | with_reducible assumption
    | with_reducible refine keeps_regRead (fun _ _ => ?_) ?_
    | with_reducible refine keeps_setI2c ?_
    | with_reducible refine KeepsP.mk ?_
    | split

theorem keeps_execSpiRxRead {w : Bool} {s0 a2 : State} {a0 a1} (h0 : Keeps w s0 a2) : KeepsR w s0 (execSpiRxRead a0 a1 a2) := by
  unfold execSpiRxRead
  try dsimp only
  repeat' first
    | with_reducible assumption
    | with_reducible refine keeps_regRead (fun _ _ => ?_) ?_
    | with_reducible refine keeps_setSpi ?_
    | with_reducible refine KeepsP.mk ?_
    | split

theorem keeps_execGpioEdge {w : Bool} {s0 a2 : State} {a0 a1} (h0 : Keeps w s0 a2) : KeepsR w s0 (execGpioEdge a0 a1 a2) := by
  unfold execGpioEdge
  try dsimp only
  repeat' first
    | with_reducible assumption
    | with_reducible refine keeps_done ?_
    | with_reducible refine keeps_setGio ?_
    | with_reducible refine keeps_gpioFollow ?_

theorem keeps_i2cError {w : Bool} {s0 a3 : State} {a0 a1 a2} (h0 : Keeps w s0 a3) : Keeps w s0 (i2cError a0 a1 a2 a3) := by
  unfold i2cError
  try dsimp only
  repeat' first
    | with_reducible assumption
    | with_reducible refine keeps_wr ?_
    | with_reducible refine keeps_record0 ?_
    | with_reducible refine keeps_setI2c ?_

theorem keeps_execI2cCmdDone {w : Bool} {s0 a2 : State} {a0 a1} (h0 : Keeps w s0 a2) : KeepsR w s0 (execI2cCmdDone a0 a1 a2) := by
  unfold execI2cCmdDone
  try dsimp only
  repeat' first
    | with_reducible assumption
    | with_reducible refine keeps_done ?_
    | with_reducible refine keeps_setI2c ?_
    | with_reducible refine keeps_i2cError ?_
    | with_reducible refine KeepsR.mk ?_
    | with_reducible refine KeepsR.ite (fun _ => ?_) fun _ => ?_
    | split

theorem keeps_execPmbusStep {w : Bool} {s0 a3 : State} {a0 a1 a2} (h0 : Keeps w s0 a3) : KeepsR w s0 (execPmbusStep a0 a1 a2 a3) := by
  unfold execPmbusStep
  try dsimp only
  repeat' first
    | with_reducible assumption
    | with_reducible refine keeps_record0 ?_
    | with_reducible refine keeps_done ?_
    | with_reducible refine keeps_advanceTo ?_
    | with_reducible refine KeepsR.mk ?_
    | fail_if_no_progress with_reducible refine Keeps.upd ?_ rfl rfl rfl rfl
    | with_reducible refine Keeps.ite (fun _ => ?_) fun _ => ?_
    | with_reducible refine KeepsR.ite (fun _ => ?_) fun _ => ?_

theorem keeps_execSpiWordDone {w : Bool} {s0 a2 : State} {a0 a1} (h0 : Keeps w s0 a2) : KeepsR w s0 (execSpiWordDone a0 a1 a2) := by
  unfold execSpiWordDone
  try dsimp only
  repeat' first
    | with_reducible assumption
    | with_reducible refine keeps_wr ?_
    | with_reducible refine keeps_done ?_
    | with_reducible refine keeps_setSpi ?_
    | with_reducible refine KeepsR.mk ?_
    | with_reducible refine KeepsR.ite (fun _ => ?_) fun _ => ?_
    | split

theorem keeps_uartStore {w : Bool} {s0 a4 : State} {a0 a1 a2 a3} (h0 : Keeps w s0 a4) : Keeps w s0 (uartStore a0 a1 a2 a3 a4) := by
  unfold uartStore
  try dsimp only
  repeat' first
    | with_reducible assumption
    | with_reducible refine keeps_wr ?_
    | with_reducible refine keeps_record0 ?_
    | with_reducible refine keeps_setUart ?_
    | with_reducible refine Keeps.ite (fun _ => ?_) fun _ => ?_

theorem keeps_execUartRxByte {w : Bool} {s0 a5 : State} {a0 a1 a2 a3 a4} (h0 : Keeps w s0 a5) : KeepsR w s0 (execUartRxByte a0 a1 a2 a3 a4 a5) := by
  unfold execUartRxByte
  try dsimp only
  repeat' first
    | with_reducible assumption
    | with_reducible refine keeps_wr ?_
    | with_reducible refine keeps_done ?_
    | with_reducible refine keeps_uartStore ?_
    | with_reducible refine KeepsR.mk ?_
    | with_reducible refine KeepsR.ite (fun _ => ?_) fun _ => ?_

theorem keeps_execUartTxDone {w : Bool} {s0 a1 : State} {a0} (h0 : Keeps w s0 a1) : KeepsR w s0 (execUartTxDone a0 a1) := by
  unfold execUartTxDone
  try dsimp only
  repeat' first
    | with_reducible assumption
    | with_reducible refine keeps_done ?_
    | with_reducible refine keeps_setUart ?_
    | with_reducible refine keeps_uartStore ?_
    | with_reducible refine KeepsR.mk ?_
    | with_reducible refine Keeps.ite (fun _ => ?_) fun _ => ?_
    | with_reducible refine KeepsR.ite (fun _ => ?_) fun _ => ?_
    | split

/-! ## BusRead -/

theorem keeps_readWord {w : Bool} {s0 a2 : State} {a0 a1} (h0 : Keeps w s0 a2) : KeepsP w s0 (readWord a0 a1 a2) := by
  unfold readWord
  try dsimp only
  repeat' first
    | with_reducible assumption
    | with_reducible refine KeepsP.mk ?_
    | fail_if_no_progress with_reducible refine Keeps.upd ?_ rfl rfl rfl rfl
    | split

theorem keeps_admittedRead {w : Bool} {s0 a2 : State} {a0 a1} (h0 : Keeps w s0 a2) : KeepsP w s0 (admittedRead a0 a1 a2) := by
  unfold admittedRead
  try dsimp only
  repeat' first
    | with_reducible assumption
    | with_reducible refine keeps_violateAt ?_
    | with_reducible refine KeepsP.snd (keeps_readWord ?_)
    | with_reducible refine KeepsP.mk ?_
    | split

theorem keeps_effectRead {w : Bool} {s0 a2 : State} {a0 a1} (h0 : Keeps w s0 a2) : KeepsOR w s0 (effectRead a0 a1 a2) := by
  unfold effectRead
  try dsimp only
  repeat' first
    | with_reducible assumption
    | with_reducible refine keeps_execMbxLockAcquire ?_
    | with_reducible refine keeps_execUartDataRead ?_
    | with_reducible refine keeps_execI2cRxRead ?_
    | with_reducible refine keeps_execSpiRxRead ?_
    | with_reducible refine KeepsOR.mk ?_
    | with_reducible refine KeepsOR.non
    | with_reducible refine KeepsOR.ite (fun _ => ?_) fun _ => ?_
    | split

theorem keeps_busRead {w : Bool} {s0 a3 : State} {a0 a1 a2} (h0 : Keeps w s0 a3) : KeepsR w s0 (busRead a0 a1 a2 a3) := by
  unfold busRead
  try dsimp only
  repeat' first
    | with_reducible assumption
    | with_reducible refine keeps_readTurned ?_
    | with_reducible refine keeps_done ?_
    | with_reducible refine keeps_effectRead ?_
    | with_reducible refine KeepsP.snd (keeps_admittedRead ?_)
    | with_reducible refine KeepsOR.non
    | with_reducible refine KeepsR.mk ?_
    | with_reducible refine KeepsO.elim (by assumption) ?_
    | with_reducible refine KeepsOR.elim (by assumption) ?_
    | fail_if_no_progress with_reducible refine Keeps.upd ?_ rfl rfl rfl rfl
    | with_reducible refine KeepsOR.ite (fun _ => ?_) fun _ => ?_
    | split

theorem keeps_execReg64LowRead {w : Bool} {s0 a3 : State} {a0 a1 a2} (h0 : Keeps w s0 a3) : KeepsR w s0 (execReg64LowRead a0 a1 a2 a3) := by
  unfold execReg64LowRead
  try dsimp only
  repeat' first
    | with_reducible assumption
    | with_reducible refine keeps_busRead ?_
    | with_reducible refine KeepsR.mk ?_
    | with_reducible refine KeepsR.ite (fun _ => ?_) fun _ => ?_
    | split

/-! ## Bus -/

theorem keeps_lockFollows {w : Bool} {s0 a1 : State} {a0} (h0 : Keeps w s0 a1) : Keeps w s0 (lockFollows a0 a1) := by
  unfold lockFollows
  try dsimp only
  repeat' first
    | with_reducible assumption
    | with_reducible refine keeps_wr ?_
    | with_reducible refine keeps_setOut ?_
    | with_reducible refine keeps_setLockState ?_
    | with_reducible refine Keeps.ite (fun _ => ?_) fun _ => ?_

theorem keeps_unlessRunning {w : Bool} {s0 a2 : State} {a0 a1} (h0 : Keeps w s0 a2) : Keeps w s0 (unlessRunning a0 a1 a2) := by
  unfold unlessRunning
  try dsimp only
  repeat' first
    | with_reducible assumption
    | with_reducible refine keeps_takeEffect ?_
    | with_reducible refine Keeps.ite (fun _ => ?_) fun _ => ?_

theorem keeps_domFollows {w : Bool} {s0 a1 : State} {a0} (h0 : Keeps w s0 a1) : Keeps w s0 (domFollows a0 a1) := by
  unfold domFollows
  try dsimp only
  repeat' first
    | with_reducible assumption
    | with_reducible refine keeps_wr ?_
    | with_reducible refine keeps_setAud ?_
    | with_reducible refine keeps_takeEffect ?_
    | with_reducible refine Keeps.ite (fun _ => ?_) fun _ => ?_

theorem keeps_hapFollows {w : Bool} {s0 a1 : State} {a0} (h0 : Keeps w s0 a1) : Keeps w s0 (hapFollows a0 a1) := by
  unfold hapFollows
  try dsimp only
  repeat' first
    | with_reducible assumption
    | with_reducible refine keeps_unlessRunning ?_
    | with_reducible refine keeps_hapEnter ?_
    | with_reducible refine keeps_hapClear ?_
    | with_reducible refine Keeps.ite (fun _ => ?_) fun _ => ?_

theorem keeps_idFollows {w : Bool} {s0 a0 : State} (h0 : Keeps w s0 a0) : Keeps w s0 (idFollows a0) := by
  unfold idFollows
  try dsimp only
  repeat' first
    | with_reducible assumption
    | fail_if_no_progress with_reducible refine Keeps.upd ?_ rfl rfl rfl rfl
    | with_reducible refine Keeps.ite (fun _ => ?_) fun _ => ?_

theorem keeps_gioFollows {w : Bool} {s0 a1 a2 : State} {a0} (h0 : Keeps w s0 a1) (h1 : Keeps w s0 a2) : Keeps w s0 (gioFollows a0 a1 a2) := by
  unfold gioFollows
  try dsimp only
  repeat' first
    | with_reducible assumption
    | with_reducible refine keeps_takeEffect ?_
    | with_reducible refine keeps_setUart ?_
    | with_reducible refine keeps_setI2c ?_
    | with_reducible refine keeps_setSpi ?_
    | with_reducible refine Keeps.ite (fun _ => ?_) fun _ => ?_

theorem keeps_linesFollow {w : Bool} {s0 a1 a2 : State} {a0} (h0 : Keeps w s0 a1) (h1 : Keeps w s0 a2) : Keeps w s0 (linesFollow a0 a1 a2) := by
  unfold linesFollow
  try dsimp only
  repeat' first
    | with_reducible assumption
    | with_reducible refine keeps_orBits ?_
    | with_reducible refine keeps_clrBits ?_

theorem keeps_unconnected {w : Bool} {s0 s : State} {n : Nat} (h : Keeps w s0 s) :
    Keeps w s0 (setChan n { chan s n with unacked := [] } s) := keeps_setChan h (Or.inr (Nat.le_refl _))

theorem keeps_emptied {w : Bool} {s0 s : State} {n : Nat} (h : Keeps w s0 s) : Keeps w s0 (setChan n { chan s n with q := [] } s) :=
  keeps_setChan h (Or.inl (Nat.zero_le _))

theorem keeps_follows {s0 a2 a3 : State} {a0 a1} (h0 : Keeps true s0 a2) (h1 : Keeps true s0 a3) : Keeps true s0 (follows a0 a1 a2 a3) := by
  unfold follows
  try dsimp only
  repeat' first
    | with_reducible assumption
    | with_reducible refine keeps_unconnected ?_
    | with_reducible refine keeps_emptied ?_
    | with_reducible refine keeps_orBits ?_
    | with_reducible refine keeps_gfxSchedule ?_
    | with_reducible refine keeps_rtLowered ?_
    | with_reducible refine keeps_lockFollows ?_
    | with_reducible refine keeps_unlessRunning ?_
    | with_reducible refine keeps_domFollows ?_
    | with_reducible refine keeps_hapFollows ?_
    | with_reducible refine keeps_idFollows ?_
    | with_reducible refine keeps_gioFollows ?_ ?_
    | with_reducible refine keeps_linesFollow ?_ ?_
    | with_reducible refine Keeps.ite (fun _ => ?_) fun _ => ?_
    | with_reducible refine Keeps.foldl ?_ fun _ _ _ => ?_

theorem keeps_fieldTake {w : Bool} {s0 a2 : State} {a0 a1} (h0 : Keeps w s0 a2) : Keeps w s0 (fieldTake a0 a1 a2) := by
  unfold fieldTake
  try dsimp only
  repeat' first
    | with_reducible assumption
    | with_reducible refine keeps_wr ?_
    | with_reducible refine keeps_orBits ?_
    | with_reducible refine keeps_clrBits ?_
    | with_reducible refine Keeps.ite (fun _ => ?_) fun _ => ?_
    | split

theorem keeps_fieldsTake {w : Bool} {s0 a5 : State} {a0 a1 a2 a3 a4} (h0 : Keeps w s0 a5) : Keeps w s0 (fieldsTake a0 a1 a2 a3 a4 a5) := by
  unfold fieldsTake
  try dsimp only
  repeat' first
    | with_reducible assumption
    | with_reducible refine keeps_violateAt ?_
    | with_reducible refine keeps_fieldTake ?_
    | with_reducible refine Keeps.ite (fun _ => ?_) fun _ => ?_
    | with_reducible refine Keeps.foldl ?_ fun _ _ _ => ?_

theorem keeps_claimsHit {w : Bool} {s0 a2 : State} {a0 a1} (h0 : Keeps w s0 a2) : Keeps w s0 (claimsHit a0 a1 a2) := by
  unfold claimsHit
  try dsimp only
  repeat' first
    | with_reducible assumption
    | with_reducible refine keeps_claimBlocked ?_
    | with_reducible refine Keeps.foldl ?_ fun _ _ _ => ?_

theorem keeps_crpWrite {w : Bool} {s0 a3 : State} {a0 a1 a2} (h0 : Keeps w s0 a3) : Keeps w s0 (crpWrite a0 a1 a2 a3) := by
  unfold crpWrite
  try dsimp only
  repeat' first
    | with_reducible assumption
    | with_reducible refine keeps_wr ?_
    | with_reducible refine keeps_claimsHit ?_
    | with_reducible refine keeps_blockReset ?_
    | with_reducible refine Keeps.ite (fun _ => ?_) fun _ => ?_
    | with_reducible refine Keeps.foldl ?_ fun _ _ _ => ?_
    | split

theorem keeps_gpioWrite {w : Bool} {s0 a4 : State} {a0 a1 a2 a3} (h0 : Keeps w s0 a4) : Keeps w s0 (gpioWrite a0 a1 a2 a3 a4) := by
  unfold gpioWrite
  try dsimp only
  repeat' first
    | with_reducible assumption
    | with_reducible refine keeps_violateAt ?_
    | with_reducible refine keeps_wr ?_
    | with_reducible refine keeps_clrBits ?_
    | with_reducible refine keeps_gpioFollow ?_
    | with_reducible refine keeps_gpioOut ?_
    | with_reducible refine Keeps.ite (fun _ => ?_) fun _ => ?_
    | split

theorem keeps_ownEffect {w : Bool} {s0 a4 : State} {a0 a1 a2 a3} (h0 : Keeps w s0 a4) : KeepsO w s0 (ownEffect a0 a1 a2 a3 a4) := by
  unfold ownEffect
  try dsimp only
  repeat' first
    | with_reducible assumption
    | with_reducible refine keeps_violateAt ?_
    | with_reducible refine keeps_wr ?_
    | with_reducible refine keeps_ringCfgWrite ?_
    | with_reducible refine keeps_vltWrite ?_
    | with_reducible refine keeps_clrBits ?_
    | with_reducible refine keeps_fieldTake ?_
    | with_reducible refine keeps_crpWrite ?_
    | with_reducible refine keeps_meterCtrlWrite ?_
    | with_reducible refine keeps_gpioWrite ?_
    | with_reducible refine keeps_queueCfgWrite ?_
    | with_reducible refine KeepsO.mk ?_
    | with_reducible refine KeepsO.non
    | with_reducible refine Keeps.ite (fun _ => ?_) fun _ => ?_
    | with_reducible refine KeepsO.ite (fun _ => ?_) fun _ => ?_
    | split

theorem keeps_admittedWrite {s0 a3 : State} {a0 a1 a2} (h0 : Keeps true s0 a3) : Keeps true s0 (admittedWrite a0 a1 a2 a3) := by
  unfold admittedWrite
  try dsimp only
  repeat' first
    | with_reducible assumption
    | with_reducible refine keeps_holdWord ?_
    | with_reducible refine keeps_violateAt ?_
    | with_reducible refine keeps_follows ?_ ?_
    | with_reducible refine keeps_fieldsTake ?_
    | with_reducible refine keeps_ownEffect ?_
    | with_reducible refine KeepsO.elim (by assumption) ?_
    | with_reducible refine Keeps.ite (fun _ => ?_) fun _ => ?_
    | split

theorem keeps_rowWrite {s0 a3 : State} {a0 a1 a2} (h0 : Keeps true s0 a3) : KeepsOR true s0 (rowWrite a0 a1 a2 a3) := by
  unfold rowWrite
  try dsimp only
  repeat' first
    | with_reducible assumption
    | with_reducible refine keeps_execAudGainWrite ?_
    | with_reducible refine keeps_execAudMeterClr ?_
    | with_reducible refine keeps_execAudSwap ?_
    | with_reducible refine keeps_execHostBootWrite ?_
    | with_reducible refine keeps_execMbxPush ?_
    | with_reducible refine keeps_execMbxPop ?_
    | with_reducible refine keeps_execFenceNormalWrite ?_
    | with_reducible refine keeps_execPldTidemarkWrite ?_
    | with_reducible refine keeps_execPldInvStart ?_
    | with_reducible refine keeps_execPldS2RootWrite ?_
    | with_reducible refine keeps_execPldS2Inv ?_
    | with_reducible refine keeps_execSecClaimWrite ?_
    | with_reducible refine keeps_execDbgEnableWrite ?_
    | with_reducible refine keeps_execEvlEnableWrite ?_
    | with_reducible refine keeps_execLayerHeartbeat ?_
    | with_reducible refine keeps_execCmpFlipPush ?_
    | with_reducible refine keeps_execCmpCommit ?_
    | with_reducible refine keeps_execEngineReset ?_
    | with_reducible refine keeps_execDkwKeyLoad ?_
    | with_reducible refine keeps_execDkwRingEnable ?_
    | with_reducible refine keeps_execDkwHeadSnap ?_
    | with_reducible refine keeps_execDkwImageWrite ?_
    | with_reducible refine keeps_execExpectPush ?_
    | with_reducible refine keeps_execDkwBreachClear ?_
    | with_reducible refine keeps_execDkwRelearn ?_
    | with_reducible refine keeps_execGfxDoorbell ?_
    | with_reducible refine keeps_execVcdDoorbell ?_
    | with_reducible refine keeps_execVcdKeyreq ?_
    | with_reducible refine keeps_execVcdEngReset ?_
    | with_reducible refine keeps_execHapTrigger ?_
    | with_reducible refine keeps_execCvuStart ?_
    | with_reducible refine keeps_execCvuStartAbort ?_
    | with_reducible refine keeps_execVltCntInc ?_
    | with_reducible refine keeps_execVltExtGo ?_
    | with_reducible refine keeps_execUartDataWrite ?_
    | with_reducible refine keeps_execI2cCmd ?_
    | with_reducible refine keeps_execSpiTxWrite ?_
    | with_reducible refine keeps_execGpioOutSet ?_
    | with_reducible refine keeps_execGpioOutClr ?_
    | with_reducible refine keeps_execMbxLockRelease ?_
    | with_reducible refine KeepsOR.mk ?_
    | with_reducible refine KeepsOR.non
    | with_reducible refine KeepsOR.ite (fun _ => ?_) fun _ => ?_
    | with_reducible refine KeepsR.ite (fun _ => ?_) fun _ => ?_
    | split

theorem keeps_busWrite {s0 a4 : State} {a0 a1 a2 a3} (h0 : Keeps true s0 a4) : KeepsR true s0 (busWrite a0 a1 a2 a3 a4) := by
  unfold busWrite
  try dsimp only
  repeat' first
    | with_reducible assumption
    | with_reducible refine keeps_wr ?_
    | with_reducible refine keeps_done ?_
    | with_reducible refine keeps_turnedAway ?_
    | with_reducible refine keeps_admittedWrite ?_
    | with_reducible refine keeps_rowWrite ?_
    | with_reducible refine KeepsOR.non
    | with_reducible refine KeepsR.mk ?_
    | with_reducible refine KeepsO.elim (by assumption) ?_
    | with_reducible refine KeepsOR.elim (by assumption) ?_
    | with_reducible refine Keeps.ite (fun _ => ?_) fun _ => ?_
    | with_reducible refine KeepsOR.ite (fun _ => ?_) fun _ => ?_
    | split

theorem keeps_execReg64HighWrite {s0 a3 : State} {a0 a1 a2} (h0 : Keeps true s0 a3) : KeepsR true s0 (execReg64HighWrite a0 a1 a2 a3) := by
  unfold execReg64HighWrite
  try dsimp only
  repeat' first
    | with_reducible assumption
    | with_reducible refine keeps_busWrite ?_
    | with_reducible refine KeepsR.mk ?_
    | with_reducible refine KeepsR.ite (fun _ => ?_) fun _ => ?_
    | split

theorem keeps_execRegisterWrite {s0 a4 : State} {a0 a1 a2 a3} (h0 : Keeps true s0 a4) : KeepsR true s0 (execRegisterWrite a0 a1 a2 a3 a4) := by
  unfold execRegisterWrite
  try dsimp only
  repeat' first
    | with_reducible assumption
    | with_reducible refine keeps_busWrite ?_
    | with_reducible refine KeepsR.mk ?_
    | with_reducible refine KeepsR.ite (fun _ => ?_) fun _ => ?_

/-! ## Cores -/

theorem keeps_putHart {w : Bool} {s0 a2 : State} {a0 a1} (h0 : Keeps w s0 a2) : Keeps w s0 (putHart a0 a1 a2) := by
  unfold putHart
  try dsimp only
  repeat' first
    | with_reducible assumption
    | with_reducible refine keeps_setHart ?_

theorem keeps_execCustom0ReservedFunct3 {w : Bool} {s0 a2 : State} {a0 a1} (h0 : Keeps w s0 a2) : KeepsR w s0 (execCustom0ReservedFunct3 a0 a1 a2) := by
  unfold execCustom0ReservedFunct3
  try dsimp only
  repeat' first
    | with_reducible assumption
    | with_reducible refine keeps_done ?_
    | with_reducible refine keeps_putHart ?_
    | with_reducible refine KeepsR.mk ?_
    | with_reducible refine KeepsR.ite (fun _ => ?_) fun _ => ?_

theorem keeps_execDebugHaltRequest {w : Bool} {s0 a1 : State} {a0} (h0 : Keeps w s0 a1) : KeepsR w s0 (execDebugHaltRequest a0 a1) := by
  unfold execDebugHaltRequest
  try dsimp only
  repeat' first
    | with_reducible assumption
    | with_reducible refine keeps_setHart ?_
    | with_reducible refine KeepsR.mk ?_
    | with_reducible refine KeepsR.ite (fun _ => ?_) fun _ => ?_

theorem keeps_execMret {w : Bool} {s0 a1 : State} {a0} (h0 : Keeps w s0 a1) : KeepsR w s0 (execMret a0 a1) := by
  unfold execMret
  try dsimp only
  repeat' first
    | with_reducible assumption
    | with_reducible refine keeps_done ?_
    | with_reducible refine keeps_putHart ?_
    | with_reducible refine KeepsR.mk ?_
    | with_reducible refine KeepsR.ite (fun _ => ?_) fun _ => ?_

theorem keeps_execPolderTagWrite {w : Bool} {s0 a3 : State} {a0 a1 a2} (h0 : Keeps w s0 a3) : KeepsR w s0 (execPolderTagWrite a0 a1 a2 a3) := by
  unfold execPolderTagWrite
  try dsimp only
  repeat' first
    | with_reducible assumption
    | with_reducible refine keeps_done ?_
    | with_reducible refine keeps_putHart ?_
    | with_reducible refine KeepsR.mk ?_
    | with_reducible refine KeepsR.ite (fun _ => ?_) fun _ => ?_

theorem keeps_execSlcall {w : Bool} {s0 a2 : State} {a0 a1} (h0 : Keeps w s0 a2) : KeepsR w s0 (execSlcall a0 a1 a2) := by
  unfold execSlcall
  try dsimp only
  repeat' first
    | with_reducible assumption
    | with_reducible refine keeps_done ?_
    | with_reducible refine keeps_putHart ?_
    | with_reducible refine KeepsR.mk ?_
    | with_reducible refine KeepsR.ite (fun _ => ?_) fun _ => ?_

theorem keeps_execSlret {w : Bool} {s0 a2 : State} {a0 a1} (h0 : Keeps w s0 a2) : KeepsR w s0 (execSlret a0 a1 a2) := by
  unfold execSlret
  try dsimp only
  repeat' first
    | with_reducible assumption
    | with_reducible refine keeps_done ?_
    | with_reducible refine keeps_putHart ?_
    | with_reducible refine KeepsR.mk ?_
    | with_reducible refine KeepsR.ite (fun _ => ?_) fun _ => ?_

theorem keeps_execSluice {w : Bool} {s0 a2 : State} {a0 a1} (h0 : Keeps w s0 a2) : KeepsR w s0 (execSluice a0 a1 a2) := by
  unfold execSluice
  try dsimp only
  repeat' first
    | with_reducible assumption
    | with_reducible refine keeps_done ?_
    | with_reducible refine keeps_putHart ?_
    | with_reducible refine KeepsR.mk ?_
    | with_reducible refine KeepsR.ite (fun _ => ?_) fun _ => ?_

theorem keeps_execTrapToMachine {w : Bool} {s0 a4 : State} {a0 a1 a2 a3} (h0 : Keeps w s0 a4) : KeepsR w s0 (execTrapToMachine a0 a1 a2 a3 a4) := by
  unfold execTrapToMachine
  try dsimp only
  repeat' first
    | with_reducible assumption
    | with_reducible refine keeps_done ?_
    | with_reducible refine keeps_putHart ?_
    | with_reducible refine KeepsR.mk ?_
    | with_reducible refine KeepsR.ite (fun _ => ?_) fun _ => ?_

theorem keeps_execTrapToSupervisor {w : Bool} {s0 a4 : State} {a0 a1 a2 a3} (h0 : Keeps w s0 a4) : KeepsR w s0 (execTrapToSupervisor a0 a1 a2 a3 a4) := by
  unfold execTrapToSupervisor
  try dsimp only
  repeat' first
    | with_reducible assumption
    | with_reducible refine keeps_done ?_
    | with_reducible refine keeps_putHart ?_
    | with_reducible refine KeepsR.mk ?_
    | with_reducible refine KeepsR.ite (fun _ => ?_) fun _ => ?_

theorem keeps_execWorldWatchdog {w : Bool} {s0 a1 : State} {a0} (h0 : Keeps w s0 a1) : KeepsR w s0 (execWorldWatchdog a0 a1) := by
  unfold execWorldWatchdog
  try dsimp only
  repeat' first
    | with_reducible assumption
    | with_reducible refine keeps_done ?_
    | with_reducible refine keeps_putHart ?_
    | with_reducible refine KeepsR.mk ?_
    | with_reducible refine KeepsR.ite (fun _ => ?_) fun _ => ?_

/-! ## Fabric -/

theorem keeps_aliasFault {w : Bool} {s0 a2 : State} {a0 a1} (h0 : Keeps w s0 a2) : Keeps w s0 (aliasFault a0 a1 a2) := by
  unfold aliasFault
  try dsimp only
  repeat' first
    | with_reducible assumption
    | with_reducible refine keeps_record0 ?_

theorem keeps_answer {w : Bool} {s0 a1 : State} {a0} (h0 : Keeps w s0 a1) : Keeps w s0 (answer a0 a1) := by
  unfold answer
  try dsimp only
  repeat' first
    | with_reducible assumption
    | fail_if_no_progress with_reducible refine Keeps.upd ?_ rfl rfl rfl rfl

theorem keeps_coreFault {w : Bool} {s0 a1 : State} {a0} (h0 : Keeps w s0 a1) : Keeps w s0 (coreFault a0 a1) := by
  unfold coreFault
  try dsimp only
  repeat' first
    | with_reducible assumption
    | with_reducible refine keeps_putHart ?_

theorem keeps_deniedOutcome {w : Bool} {s0 a3 : State} {a0 a1 a2} (h0 : Keeps w s0 a3) : Keeps w s0 (deniedOutcome a0 a1 a2 a3) := by
  unfold deniedOutcome
  try dsimp only
  repeat' first
    | with_reducible assumption
    | with_reducible refine keeps_polFault ?_
    | with_reducible refine keeps_answer ?_
    | with_reducible refine keeps_coreFault ?_
    | with_reducible refine Keeps.ite (fun _ => ?_) fun _ => ?_

theorem keeps_pldDenied {w : Bool} {s0 a4 : State} {a0 a1 a2 a3} (h0 : Keeps w s0 a4) : Keeps w s0 (pldDenied a0 a1 a2 a3 a4) := by
  unfold pldDenied
  try dsimp only
  repeat' first
    | with_reducible assumption
    | with_reducible refine keeps_pldDeny ?_
    | with_reducible refine keeps_deniedOutcome ?_

theorem keeps_pageDenied {w : Bool} {s0 a5 : State} {a0 a1 a2 a3 a4} (h0 : Keeps w s0 a5) : KeepsQ w s0 (pageDenied a0 a1 a2 a3 a4 a5) := by
  unfold pageDenied
  try dsimp only
  repeat' first
    | with_reducible assumption
    | with_reducible refine keeps_record0 ?_
    | with_reducible refine keeps_polderCheck ?_
    | with_reducible refine keeps_deniedOutcome ?_
    | with_reducible refine keeps_pldDenied ?_
    | with_reducible refine KeepsQ.mk ?_ ?_
    | with_reducible refine KeepsO.mk ?_
    | with_reducible refine KeepsO.non
    | with_reducible refine KeepsP.elim (by assumption) ?_
    | split

theorem keeps_rangeDenied {w : Bool} {s0 a5 : State} {a0 a1 a2 a3 a4} (h0 : Keeps w s0 a5) : KeepsQ w s0 (rangeDenied a0 a1 a2 a3 a4 a5) := by
  induction a4 generalizing a5 with
  | nil => exact KeepsQ.mk KeepsO.non h0
  | cons a t ih =>
    have h1 := keeps_pageDenied (a0 := a0) (a1 := a1) (a2 := a2) (a3 := a3) (a4 := a) h0
    unfold rangeDenied
    split
    · next e => exact KeepsQ.mk (KeepsO.mk (KeepsQ.elimO e h1)) (KeepsQ.elim e h1)
    · next e =>
      have h2 := KeepsQ.elim e h1
      exact KeepsQ.ite (fun _ => KeepsQ.mk (KeepsO.mk (keeps_coreFault h2)) h2) fun _ => ih h2

theorem keeps_poisonOutcome {w : Bool} {s0 a2 : State} {a0 a1} (h0 : Keeps w s0 a2) : Keeps w s0 (poisonOutcome a0 a1 a2) := by
  unfold poisonOutcome
  try dsimp only
  repeat' first
    | with_reducible assumption
    | with_reducible refine keeps_tookFree ?_
    | with_reducible refine keeps_polFault ?_
    | with_reducible refine keeps_answer ?_
    | with_reducible refine keeps_coreFault ?_
    | with_reducible refine Keeps.ite (fun _ => ?_) fun _ => ?_

theorem keeps_aliasWrite {s0 a3 : State} {a0 a1 a2} (h0 : Keeps true s0 a3) : Keeps true s0 (aliasWrite a0 a1 a2 a3) :=
  ⟨h0.queue, (fun e => nomatch e), fun x => Memory.setMany_wf (h0.wf x), h0.free, h0.fuses, h0.warden, h0.chans, h0.recorder⟩

theorem keeps_aliasAccess {s0 a3 : State} {a0 a1 a2} (h0 : Keeps true s0 a3) : Keeps true s0 (aliasAccess a0 a1 a2 a3) := by
  unfold aliasAccess
  try dsimp only
  repeat' first
    | with_reducible assumption
    | with_reducible refine keeps_aliasFault ?_
    | with_reducible refine keeps_answer ?_
    | with_reducible refine keeps_rangeDenied ?_
    | with_reducible refine keeps_ocmUncorrectable ?_
    | with_reducible refine keeps_poisonOutcome ?_
    | with_reducible refine keeps_ocmCorrected ?_
    | with_reducible refine keeps_aliasWrite ?_
    | with_reducible refine KeepsQ.elim (by assumption) ?_
    | with_reducible refine KeepsQ.elimO (by assumption) ?_
    | with_reducible refine Keeps.ite (fun _ => ?_) fun _ => ?_
    | split

theorem keeps_slcTouch {w : Bool} {s0 a2 : State} {a0 a1} (h0 : Keeps w s0 a2) : Keeps w s0 (slcTouch a0 a1 a2) := by
  unfold slcTouch
  try dsimp only
  repeat' first
    | with_reducible assumption
    | with_reducible refine keeps_tookFree ?_
    | fail_if_no_progress with_reducible refine Keeps.upd ?_ rfl rfl rfl rfl
    | with_reducible refine Keeps.ite (fun _ => ?_) fun _ => ?_
    | split

theorem keeps_slcLines {w : Bool} {s0 a3 : State} {a0 a1 a2} (h0 : Keeps w s0 a3) : Keeps w s0 (slcLines a0 a1 a2 a3) := by
  unfold slcLines
  try dsimp only
  repeat' first
    | with_reducible assumption
    | with_reducible refine keeps_slcTouch ?_
    | with_reducible refine Keeps.foldl ?_ fun _ _ _ => ?_

theorem keeps_plain {s0 a2 : State} {a0 a1} (h0 : Keeps true s0 a2) : Keeps true s0 (plain a0 a1 a2) := by
  unfold plain
  try dsimp only
  repeat' first
    | with_reducible assumption
    | with_reducible refine keeps_writeBytes ?_
    | with_reducible refine keeps_answer ?_
    | with_reducible refine Keeps.ite (fun _ => ?_) fun _ => ?_

theorem keeps_dramPerform {s0 a3 : State} {a0 a1 a2} (h0 : Keeps true s0 a3) : Keeps true s0 (dramPerform a0 a1 a2 a3) := by
  unfold dramPerform
  try dsimp only
  repeat' first
    | with_reducible assumption
    | with_reducible refine keeps_poisonOutcome ?_
    | with_reducible refine keeps_activate ?_
    | with_reducible refine keeps_slcLines ?_
    | with_reducible refine keeps_plain ?_
    | with_reducible refine keeps_dramUncorrectable ?_
    | with_reducible refine keeps_dramRetried ?_
    | with_reducible refine Keeps.ite (fun _ => ?_) fun _ => ?_
    | split

theorem keeps_dropTxn {w : Bool} {s0 a1 : State} {a0} (h0 : Keeps w s0 a1) : Keeps w s0 (dropTxn a0 a1) := by
  unfold dropTxn
  try dsimp only
  repeat' first
    | with_reducible assumption
    | fail_if_no_progress with_reducible refine Keeps.upd ?_ rfl rfl rfl rfl

theorem keeps_elsewhereAccess {s0 a3 : State} {a0 a1 a2} (h0 : Keeps true s0 a3) : Keeps true s0 (elsewhereAccess a0 a1 a2 a3) := by
  unfold elsewhereAccess
  try dsimp only
  repeat' first
    | with_reducible assumption
    | with_reducible refine keeps_pldDenied ?_
    | with_reducible refine keeps_plain ?_
    | with_reducible refine Keeps.ite (fun _ => ?_) fun _ => ?_

theorem keeps_execDmcRetrainDone {w : Bool} {s0 a2 : State} {a0 a1} (h0 : Keeps w s0 a2) : KeepsR w s0 (execDmcRetrainDone a0 a1 a2) := by
  unfold execDmcRetrainDone
  try dsimp only
  repeat' first
    | with_reducible assumption
    | with_reducible refine keeps_record0 ?_
    | with_reducible refine keeps_done ?_
    | with_reducible refine keeps_wrAll ?_
    | with_reducible refine keeps_passComplete ?_
    | with_reducible refine keeps_memDramState ?_
    | with_reducible refine KeepsR.mk ?_
    | fail_if_no_progress with_reducible refine Keeps.upd ?_ rfl rfl rfl rfl
    | with_reducible refine KeepsR.ite (fun _ => ?_) fun _ => ?_

theorem keeps_execDmcTrainingLost {w : Bool} {s0 a2 : State} {a0 a1} (h0 : Keeps w s0 a2) : KeepsR w s0 (execDmcTrainingLost a0 a1 a2) := by
  unfold execDmcTrainingLost
  try dsimp only
  repeat' first
    | with_reducible assumption
    | with_reducible refine keeps_record0 ?_
    | with_reducible refine keeps_done ?_
    | with_reducible refine keeps_wrAll ?_
    | with_reducible refine keeps_vcdDramFailed ?_
    | with_reducible refine keeps_memDramState ?_
    | with_reducible refine KeepsR.mk ?_
    | fail_if_no_progress with_reducible refine Keeps.upd ?_ rfl rfl rfl rfl
    | with_reducible refine KeepsR.ite (fun _ => ?_) fun _ => ?_

theorem keeps_execFabricTimeout {w : Bool} {s0 a1 : State} {a0} (h0 : Keeps w s0 a1) : KeepsR w s0 (execFabricTimeout a0 a1) := by
  unfold execFabricTimeout
  try dsimp only
  repeat' first
    | with_reducible assumption
    | with_reducible refine keeps_done ?_
    | with_reducible refine keeps_tookFree ?_
    | with_reducible refine keeps_polFault ?_
    | with_reducible refine keeps_advanceTo ?_
    | with_reducible refine keeps_answer ?_
    | with_reducible refine keeps_dropTxn ?_
    | with_reducible refine KeepsR.mk ?_
    | with_reducible refine Keeps.ite (fun _ => ?_) fun _ => ?_
    | with_reducible refine KeepsR.ite (fun _ => ?_) fun _ => ?_
    | split

theorem keeps_regAccess {s0 a2 : State} {a0 a1} (h0 : Keeps true s0 a2) : KeepsR true s0 (regAccess a0 a1 a2) := by
  unfold regAccess
  try dsimp only
  repeat' first
    | with_reducible assumption
    | with_reducible refine keeps_busWrite ?_
    | with_reducible refine keeps_busRead ?_
    | with_reducible refine KeepsR.ite (fun _ => ?_) fun _ => ?_

theorem keeps_physOf {w : Bool} {s0 a2 : State} {a0 a1} (h0 : Keeps w s0 a2) : KeepsP w s0 (physOf a0 a1 a2) := by
  unfold physOf
  try dsimp only
  repeat' first
    | with_reducible assumption
    | with_reducible refine KeepsP.snd (keeps_s2Translate ?_)
    | with_reducible refine KeepsP.mk ?_
    | split

theorem keeps_issue {w : Bool} {s0 a4 : State} {a0 a1 a2 a3} (h0 : Keeps w s0 a4) : Keeps w s0 (issue a0 a1 a2 a3 a4) := by
  unfold issue
  try dsimp only
  repeat' first
    | with_reducible assumption
    | fail_if_no_progress with_reducible refine Keeps.upd ?_ rfl rfl rfl rfl
    | with_reducible refine Keeps.ite (fun _ => ?_) fun _ => ?_

theorem keeps_outboundAccess {w : Bool} {s0 a3 : State} {a0 a1 a2} (h0 : Keeps w s0 a3) : Keeps w s0 (outboundAccess a0 a1 a2 a3) := by
  unfold outboundAccess
  try dsimp only
  repeat' first
    | with_reducible assumption
    | with_reducible refine keeps_record0 ?_
    | with_reducible refine keeps_tookFree ?_
    | with_reducible refine keeps_answer ?_
    | with_reducible refine keeps_pldDenied ?_
    | with_reducible refine keeps_issue ?_
    | with_reducible refine Keeps.ite (fun _ => ?_) fun _ => ?_
    | split

theorem keeps_ocmPerform {s0 a3 : State} {a0 a1 a2} (h0 : Keeps true s0 a3) : Keeps true s0 (ocmPerform a0 a1 a2 a3) := by
  unfold ocmPerform
  try dsimp only
  repeat' first
    | with_reducible assumption
    | with_reducible refine keeps_ocmUncorrectable ?_
    | with_reducible refine keeps_poisonOutcome ?_
    | with_reducible refine keeps_ocmCorrected ?_
    | with_reducible refine keeps_slcLines ?_
    | with_reducible refine keeps_plain ?_
    | with_reducible refine Keeps.ite (fun _ => ?_) fun _ => ?_
    | split

theorem keeps_physAccess {s0 a3 : State} {a0 a1 a2} (h0 : Keeps true s0 a3) : Keeps true s0 (physAccess a0 a1 a2 a3) := by
  unfold physAccess
  try dsimp only
  repeat' first
    | with_reducible assumption
    | with_reducible refine keeps_rangeDenied ?_
    | with_reducible refine keeps_aliasAccess ?_
    | with_reducible refine keeps_dramPerform ?_
    | with_reducible refine keeps_elsewhereAccess ?_
    | with_reducible refine keeps_issue ?_
    | with_reducible refine keeps_outboundAccess ?_
    | with_reducible refine keeps_ocmPerform ?_
    | with_reducible refine KeepsQ.elim (by assumption) ?_
    | with_reducible refine KeepsQ.elimO (by assumption) ?_
    | with_reducible refine Keeps.ite (fun _ => ?_) fun _ => ?_
    | split

theorem keeps_execMemoryAccess {s0 a1 : State} {a0} (h0 : Keeps true s0 a1) : KeepsR true s0 (execMemoryAccess a0 a1) := by
  unfold execMemoryAccess
  try dsimp only
  repeat' first
    | with_reducible assumption
    | with_reducible refine keeps_done ?_
    | with_reducible refine keeps_answer ?_
    | with_reducible refine keeps_coreFault ?_
    | with_reducible refine keeps_pldDenied ?_
    | with_reducible refine keeps_regAccess ?_
    | with_reducible refine keeps_physOf ?_
    | with_reducible refine keeps_physAccess ?_
    | with_reducible refine KeepsR.mk ?_
    | with_reducible refine KeepsP.elim (by assumption) ?_
    | with_reducible refine Keeps.ite (fun _ => ?_) fun _ => ?_
    | with_reducible refine KeepsR.ite (fun _ => ?_) fun _ => ?_
    | split

theorem keeps_execOcmAliasWrite {s0 a5 : State} {a0 a1 a2 a3 a4} (h0 : Keeps true s0 a5) : KeepsR true s0 (execOcmAliasWrite a0 a1 a2 a3 a4 a5) := by
  unfold execOcmAliasWrite
  try dsimp only
  repeat' first
    | with_reducible assumption
    | with_reducible refine keeps_execMemoryAccess ?_
    | with_reducible refine KeepsR.mk ?_
    | with_reducible refine KeepsR.ite (fun _ => ?_) fun _ => ?_

theorem keeps_execPciCompletionTimeout {w : Bool} {s0 a1 : State} {a0} (h0 : Keeps w s0 a1) : KeepsR w s0 (execPciCompletionTimeout a0 a1) := by
  unfold execPciCompletionTimeout
  try dsimp only
  repeat' first
    | with_reducible assumption
    | with_reducible refine keeps_record0 ?_
    | with_reducible refine keeps_done ?_
    | with_reducible refine keeps_tookFree ?_
    | with_reducible refine keeps_polFault ?_
    | with_reducible refine keeps_advanceTo ?_
    | with_reducible refine keeps_answer ?_
    | with_reducible refine keeps_dropTxn ?_
    | with_reducible refine KeepsR.mk ?_
    | with_reducible refine KeepsR.ite (fun _ => ?_) fun _ => ?_
    | split

theorem keeps_execPciLateCompletion {w : Bool} {s0 a1 : State} {a0} (h0 : Keeps w s0 a1) : KeepsR w s0 (execPciLateCompletion a0 a1) := by
  unfold execPciLateCompletion
  try dsimp only
  repeat' first
    | with_reducible assumption
    | with_reducible refine keeps_record0 ?_
    | with_reducible refine keeps_done ?_
    | with_reducible refine keeps_dropTxn ?_
    | with_reducible refine KeepsR.mk ?_
    | split

/-! ## Params -/

theorem keeps_devGetParam {w : Bool} {s0 a1 : State} {a0} (h0 : Keeps w s0 a1) : KeepsA w s0 (devGetParam a0 a1) := by
  unfold devGetParam
  try dsimp only
  repeat' first
    | with_reducible assumption
    | with_reducible refine keeps_okR ?_
    | with_reducible refine keeps_no ?_
    | with_reducible refine KeepsA.ite (fun _ => ?_) fun _ => ?_
    | split

theorem keeps_gioOwner {w : Bool} {s0 a3 : State} {a0 a1 a2} (h0 : Keeps w s0 a3) : KeepsA w s0 (gioOwner a0 a1 a2 a3) := by
  unfold gioOwner
  try dsimp only
  repeat' first
    | with_reducible assumption
    | with_reducible refine keeps_wr ?_
    | with_reducible refine keeps_record0 ?_
    | with_reducible refine keeps_no ?_
    | with_reducible refine keeps_did ?_
    | with_reducible refine KeepsA.ite (fun _ => ?_) fun _ => ?_

theorem keeps_devSetParam {w : Bool} {s0 a1 : State} {a0} (h0 : Keeps w s0 a1) : KeepsA w s0 (devSetParam a0 a1) := by
  unfold devSetParam
  try dsimp only
  repeat' first
    | with_reducible assumption
    | with_reducible refine keeps_wr ?_
    | with_reducible refine keeps_no ?_
    | with_reducible refine keeps_did ?_
    | with_reducible refine keeps_gioOwner ?_
    | with_reducible refine KeepsA.ite (fun _ => ?_) fun _ => ?_

theorem keeps_execDevGetParam {w : Bool} {s0 a1 : State} {a0} (h0 : Keeps w s0 a1) : KeepsR w s0 (execDevGetParam a0 a1) := by
  unfold execDevGetParam
  try dsimp only
  repeat' first
    | with_reducible assumption
    | with_reducible refine keeps_done ?_
    | with_reducible refine keeps_serve (fun _ _ _ => ?_) ?_
    | with_reducible refine keeps_devGetParam ?_

theorem keeps_execDevSetParam {w : Bool} {s0 a1 : State} {a0} (h0 : Keeps w s0 a1) : KeepsR w s0 (execDevSetParam a0 a1) := by
  unfold execDevSetParam
  try dsimp only
  repeat' first
    | with_reducible assumption
    | with_reducible refine keeps_done ?_
    | with_reducible refine keeps_serve (fun _ _ _ => ?_) ?_
    | with_reducible refine keeps_devSetParam ?_

/-! ## Placement -/

theorem keeps_dspGetEngines {w : Bool} {s0 a1 : State} {a0} (h0 : Keeps w s0 a1) : KeepsA w s0 (dspGetEngines a0 a1) := by
  unfold dspGetEngines
  try dsimp only
  repeat' first
    | with_reducible assumption
    | with_reducible refine keeps_okR ?_

theorem keeps_dspGetLayer {w : Bool} {s0 a1 : State} {a0} (h0 : Keeps w s0 a1) : KeepsA w s0 (dspGetLayer a0 a1) := by
  unfold dspGetLayer
  try dsimp only
  repeat' first
    | with_reducible assumption
    | with_reducible refine keeps_okR ?_

theorem keeps_dspGetOutputCommit {w : Bool} {s0 a1 : State} {a0} (h0 : Keeps w s0 a1) : KeepsA w s0 (dspGetOutputCommit a0 a1) := by
  unfold dspGetOutputCommit
  try dsimp only
  repeat' first
    | with_reducible assumption
    | with_reducible refine keeps_okR ?_

theorem keeps_dspGetScaler {w : Bool} {s0 a1 : State} {a0} (h0 : Keeps w s0 a1) : KeepsA w s0 (dspGetScaler a0 a1) := by
  unfold dspGetScaler
  try dsimp only
  repeat' first
    | with_reducible assumption
    | with_reducible refine keeps_okR ?_
    | with_reducible refine keeps_no ?_
    | with_reducible refine KeepsA.ite (fun _ => ?_) fun _ => ?_

theorem keeps_dspSetBackground {w : Bool} {s0 a1 : State} {a0} (h0 : Keeps w s0 a1) : KeepsA w s0 (dspSetBackground a0 a1) := by
  unfold dspSetBackground
  try dsimp only
  repeat' first
    | with_reducible assumption
    | with_reducible refine keeps_wr ?_
    | with_reducible refine keeps_did ?_

theorem keeps_dspSetBudget {w : Bool} {s0 a1 : State} {a0} (h0 : Keeps w s0 a1) : KeepsA w s0 (dspSetBudget a0 a1) := by
  unfold dspSetBudget
  try dsimp only
  repeat' first
    | with_reducible assumption
    | with_reducible refine keeps_no ?_
    | with_reducible refine keeps_internalCommit ?_
    | with_reducible refine KeepsA.ite (fun _ => ?_) fun _ => ?_

theorem keeps_dspSetCompose {w : Bool} {s0 a1 : State} {a0} (h0 : Keeps w s0 a1) : KeepsA w s0 (dspSetCompose a0 a1) := by
  unfold dspSetCompose
  try dsimp only
  repeat' first
    | with_reducible assumption
    | with_reducible refine keeps_no ?_
    | with_reducible refine keeps_internalCommit ?_
    | with_reducible refine KeepsA.ite (fun _ => ?_) fun _ => ?_

theorem keeps_dspSetLatch {w : Bool} {s0 a1 : State} {a0} (h0 : Keeps w s0 a1) : KeepsA w s0 (dspSetLatch a0 a1) := by
  unfold dspSetLatch
  try dsimp only
  repeat' first
    | with_reducible assumption
    | with_reducible refine keeps_no ?_
    | with_reducible refine keeps_internalCommit ?_
    | with_reducible refine KeepsA.ite (fun _ => ?_) fun _ => ?_

theorem keeps_dspSetScaler {w : Bool} {s0 a1 : State} {a0} (h0 : Keeps w s0 a1) : KeepsA w s0 (dspSetScaler a0 a1) := by
  unfold dspSetScaler
  try dsimp only
  repeat' first
    | with_reducible assumption
    | with_reducible refine keeps_no ?_
    | with_reducible refine keeps_did ?_
    | with_reducible refine keeps_writeFlds ?_
    | with_reducible refine keeps_internalCommit ?_
    | with_reducible refine KeepsA.ite (fun _ => ?_) fun _ => ?_
    | with_reducible refine Keeps.foldl ?_ fun _ _ _ => ?_

theorem keeps_dspSetSecureZ {w : Bool} {s0 a1 : State} {a0} (h0 : Keeps w s0 a1) : KeepsA w s0 (dspSetSecureZ a0 a1) := by
  unfold dspSetSecureZ
  try dsimp only
  repeat' first
    | with_reducible assumption
    | with_reducible refine keeps_no ?_
    | with_reducible refine keeps_internalCommit ?_
    | with_reducible refine KeepsA.ite (fun _ => ?_) fun _ => ?_

theorem keeps_dspSetWriteback {w : Bool} {s0 a1 : State} {a0} (h0 : Keeps w s0 a1) : KeepsA w s0 (dspSetWriteback a0 a1) := by
  unfold dspSetWriteback
  try dsimp only
  repeat' first
    | with_reducible assumption
    | with_reducible refine keeps_no ?_
    | with_reducible refine keeps_internalCommit ?_
    | with_reducible refine KeepsA.ite (fun _ => ?_) fun _ => ?_

theorem keeps_execDspGetEngines {w : Bool} {s0 a1 : State} {a0} (h0 : Keeps w s0 a1) : KeepsR w s0 (execDspGetEngines a0 a1) := by
  unfold execDspGetEngines
  try dsimp only
  repeat' first
    | with_reducible assumption
    | with_reducible refine keeps_done ?_
    | with_reducible refine keeps_serve (fun _ _ _ => ?_) ?_
    | with_reducible refine keeps_dspGetEngines ?_

theorem keeps_execDspGetLayer {w : Bool} {s0 a1 : State} {a0} (h0 : Keeps w s0 a1) : KeepsR w s0 (execDspGetLayer a0 a1) := by
  unfold execDspGetLayer
  try dsimp only
  repeat' first
    | with_reducible assumption
    | with_reducible refine keeps_done ?_
    | with_reducible refine keeps_serve (fun _ _ _ => ?_) ?_
    | with_reducible refine keeps_dspGetLayer ?_

theorem keeps_execDspGetOutputCommit {w : Bool} {s0 a1 : State} {a0} (h0 : Keeps w s0 a1) : KeepsR w s0 (execDspGetOutputCommit a0 a1) := by
  unfold execDspGetOutputCommit
  try dsimp only
  repeat' first
    | with_reducible assumption
    | with_reducible refine keeps_done ?_
    | with_reducible refine keeps_serve (fun _ _ _ => ?_) ?_
    | with_reducible refine keeps_dspGetOutputCommit ?_

theorem keeps_execDspGetScaler {w : Bool} {s0 a1 : State} {a0} (h0 : Keeps w s0 a1) : KeepsR w s0 (execDspGetScaler a0 a1) := by
  unfold execDspGetScaler
  try dsimp only
  repeat' first
    | with_reducible assumption
    | with_reducible refine keeps_done ?_
    | with_reducible refine keeps_serve (fun _ _ _ => ?_) ?_
    | with_reducible refine keeps_dspGetScaler ?_

theorem keeps_execDspSetBackground {w : Bool} {s0 a1 : State} {a0} (h0 : Keeps w s0 a1) : KeepsR w s0 (execDspSetBackground a0 a1) := by
  unfold execDspSetBackground
  try dsimp only
  repeat' first
    | with_reducible assumption
    | with_reducible refine keeps_done ?_
    | with_reducible refine keeps_serve (fun _ _ _ => ?_) ?_
    | with_reducible refine keeps_dspSetBackground ?_

theorem keeps_execDspSetBudget {w : Bool} {s0 a1 : State} {a0} (h0 : Keeps w s0 a1) : KeepsR w s0 (execDspSetBudget a0 a1) := by
  unfold execDspSetBudget
  try dsimp only
  repeat' first
    | with_reducible assumption
    | with_reducible refine keeps_done ?_
    | with_reducible refine keeps_serve (fun _ _ _ => ?_) ?_
    | with_reducible refine keeps_dspSetBudget ?_

theorem keeps_execDspSetCompose {w : Bool} {s0 a1 : State} {a0} (h0 : Keeps w s0 a1) : KeepsR w s0 (execDspSetCompose a0 a1) := by
  unfold execDspSetCompose
  try dsimp only
  repeat' first
    | with_reducible assumption
    | with_reducible refine keeps_done ?_
    | with_reducible refine keeps_serve (fun _ _ _ => ?_) ?_
    | with_reducible refine keeps_dspSetCompose ?_

theorem keeps_execDspSetLatch {w : Bool} {s0 a1 : State} {a0} (h0 : Keeps w s0 a1) : KeepsR w s0 (execDspSetLatch a0 a1) := by
  unfold execDspSetLatch
  try dsimp only
  repeat' first
    | with_reducible assumption
    | with_reducible refine keeps_done ?_
    | with_reducible refine keeps_serve (fun _ _ _ => ?_) ?_
    | with_reducible refine keeps_dspSetLatch ?_

theorem keeps_execDspSetScaler {w : Bool} {s0 a1 : State} {a0} (h0 : Keeps w s0 a1) : KeepsR w s0 (execDspSetScaler a0 a1) := by
  unfold execDspSetScaler
  try dsimp only
  repeat' first
    | with_reducible assumption
    | with_reducible refine keeps_done ?_
    | with_reducible refine keeps_serve (fun _ _ _ => ?_) ?_
    | with_reducible refine keeps_dspSetScaler ?_

theorem keeps_setSlotPlace {w : Bool} {s0 a2 : State} {a0 a1} (h0 : Keeps w s0 a2) : KeepsA w s0 (setSlotPlace a0 a1 a2) := by
  unfold setSlotPlace
  try dsimp only
  repeat' first
    | with_reducible assumption
    | with_reducible refine keeps_no ?_
    | with_reducible refine keeps_internalCommit ?_
    | with_reducible refine KeepsA.ite (fun _ => ?_) fun _ => ?_
    | split

theorem keeps_execDspSetSecureSlot {w : Bool} {s0 a1 : State} {a0} (h0 : Keeps w s0 a1) : KeepsR w s0 (execDspSetSecureSlot a0 a1) := by
  unfold execDspSetSecureSlot
  try dsimp only
  repeat' first
    | with_reducible assumption
    | with_reducible refine keeps_done ?_
    | with_reducible refine keeps_serve (fun _ _ _ => ?_) ?_
    | with_reducible refine keeps_setSlotPlace ?_

theorem keeps_execDspSetSecureZ {w : Bool} {s0 a1 : State} {a0} (h0 : Keeps w s0 a1) : KeepsR w s0 (execDspSetSecureZ a0 a1) := by
  unfold execDspSetSecureZ
  try dsimp only
  repeat' first
    | with_reducible assumption
    | with_reducible refine keeps_done ?_
    | with_reducible refine keeps_serve (fun _ _ _ => ?_) ?_
    | with_reducible refine keeps_dspSetSecureZ ?_

theorem keeps_execDspSetSlot {w : Bool} {s0 a1 : State} {a0} (h0 : Keeps w s0 a1) : KeepsR w s0 (execDspSetSlot a0 a1) := by
  unfold execDspSetSlot
  try dsimp only
  repeat' first
    | with_reducible assumption
    | with_reducible refine keeps_done ?_
    | with_reducible refine keeps_serve (fun _ _ _ => ?_) ?_
    | with_reducible refine keeps_setSlotPlace ?_

theorem keeps_execDspSetWriteback {w : Bool} {s0 a1 : State} {a0} (h0 : Keeps w s0 a1) : KeepsR w s0 (execDspSetWriteback a0 a1) := by
  unfold execDspSetWriteback
  try dsimp only
  repeat' first
    | with_reducible assumption
    | with_reducible refine keeps_done ?_
    | with_reducible refine keeps_serve (fun _ _ _ => ?_) ?_
    | with_reducible refine keeps_dspSetWriteback ?_

/-! ## Step -/

end Sys2Proof.Machine
end

