-- ==== Sys2Proof/Laws/Mailbox.lean ====
section
/-! SUPPORT. What the delivery of a message does to the channels, and which master a contended lock goes to. -/
namespace Sys2Proof.Machine

theorem chans_raiseLine (p n : Nat) (s : State) : (raiseLine p n s).chans = s.chans := by
  unfold raiseLine
  dsimp only
  split
  · rfl
  · split
    · unfold lineMessage; split <;> rfl
    · rfl

theorem chans_raiseLines (ps : List Nat) (n : Nat) (s : State) : (raiseLines ps n s).chans = s.chans := by
  unfold raiseLines
  induction ps generalizing s with
  | nil => rfl
  | cons p ps ih => rw [List.foldl_cons, ih, chans_raiseLine]

theorem chans_deliveryRx (n q : Nat) (s : State) : (deliveryRx n q s).chans = s.chans := by
  unfold deliveryRx
  dsimp only
  split
  · split
    · rw [chans_raiseLines]; rfl
    · split <;> rfl
  · rfl

theorem chans_deliveryWake (n : Nat) (s : State) : (deliveryWake n s).chans = s.chans := by
  unfold deliveryWake
  dsimp only
  split
  · rfl
  · split
    · rfl
    · split <;> rfl

theorem chans_mgrMessage (m : List Nat) (s : State) : (mgrMessage m s).chans = s.chans := by
  unfold mgrMessage
  split
  · unfold mgrFrame
    split
    · unfold mgrSend netSend; dsimp only; split <;> rfl
    · rfl
  · rfl

/-- R29, R33: delivery writes the message, stamped and numbered, behind the others of its channel. -/
theorem deliver_chan (n master polder : Nat) (secure wake : Bool) (m : Msg) (s : State) :
    chan (deliver n master polder secure wake m s) n =
      { q := (chan s n).q ++ [stamp master polder secure (chan s n).nextSeq :: m.tail], nextSeq := ((chan s n).nextSeq + 1) % 1024,
        unacked := if Msg.waitAck m then (chan s n).unacked ++ [⟨(chan s n).nextSeq, Msg.opcode m, s.now⟩] else (chan s n).unacked } := by
  unfold deliver
  extract_lets c w0 c1 s1 sA b s2 s3
  have h1 : chan s1 n = c1 := by rw [chan_setChan, if_pos rfl]
  have hA : chan sA n = c1 := by
    show chan (if _ then _ else _) n = _
    split
    · unfold chan; rw [chans_mgrMessage]; exact h1
    · exact h1
  have h3 : chan s3 n = c1 := by
    show chan (if _ then _ else _) n = _
    split
    · next hn =>
      unfold chan; rw [chans_deliveryRx]
      show chan s2 n = _
      show chan (if _ then _ else _) n = _
      split
      · rw [chan_setChan, if_neg (by omega)]; exact hA
      · exact hA
    · exact h1
  have : chan (if wake = true then deliveryWake n s3 else s3) n = chan s3 n := by
    split
    · unfold chan; rw [chans_deliveryWake]
    · rfl
  rw [this, h3]

/-- R43: among readers the first at or after the pointer, counting upward and wrapping, is granted. -/
theorem winner_of (p : Nat) (hp : 1 ≤ p) (hp2 : p ≤ 63) (m : Nat) (ms : List Nat) (hm : ∀ x ∈ m :: ms, 1 ≤ x ∧ x ≤ 63) :
    ∃ w ∈ m :: ms, lockWinner p (m :: ms) = some w ∧ ∀ x ∈ m :: ms, (w + 63 - p) % 63 ≤ (x + 63 - p) % 63 := by
  have key : ∀ k, (∀ i, i < k → ((p - 1 + i) % 63 + 1) ∉ m :: ms) ∨
      ∃ j, j < k ∧ ((p - 1 + j) % 63 + 1) ∈ m :: ms ∧ ∀ i, i < j → ((p - 1 + i) % 63 + 1) ∉ m :: ms := by
    intro k
    induction k with
    | zero => left; intro i hi; omega
    | succ k ih =>
      rcases ih with ih | ⟨j, h1, h2, h3⟩
      · by_cases c : ((p - 1 + k) % 63 + 1) ∈ m :: ms
        · right; exact ⟨k, Nat.lt_succ_self k, c, ih⟩
        · left; intro i hi
          by_cases e : i = k
          · subst e; exact c
          · exact ih i (by omega)
      · right; exact ⟨j, by omega, h2, h3⟩
  have idx : ∀ x, 1 ≤ x → x ≤ 63 → (p - 1 + (x + 63 - p) % 63) % 63 + 1 = x := by intro x h1 h2; omega
  rcases key 63 with h | ⟨j, h1, h2, h3⟩
  · have := hm m (List.mem_cons_self ..)
    have hx := h ((m + 63 - p) % 63) (by omega)
    rw [idx m this.1 this.2] at hx
    exact absurd (List.mem_cons_self ..) hx
  · refine ⟨_, h2, ?_, ?_⟩
    · unfold lockWinner
      rw [List.find?_map]
      have : List.find? ((fun x => (m :: ms).contains x) ∘ fun i => (p - 1 + i) % 63 + 1) (List.range 63) = some j := by
        rw [List.find?_range_eq_some]
        refine ⟨by simpa using h2, by simpa using h1, ?_⟩
        intro i hi
        have := h3 i hi
        simpa using this
      rw [this]; rfl
    · intro x hx
      have hb := hm x hx
      by_contra hc
      have := h3 ((x + 63 - p) % 63) (by omega)
      rw [idx x hb.1 hb.2] at this
      exact this hx

end Sys2Proof.Machine
end

