-- ==== Sys2Proof/Laws/Stores.lean ====
section
/-! SUPPORT. What the parts of an access to memory store, and that nothing else changes: the bytes from one address on. -/
namespace Sys2Proof.Machine

/-- Memory stays canonical, and the `n` bytes from `a` on are all that may differ. -/
structure Only (a n : Nat) (s t : State) : Prop where
  wf : MemoryCanonical t
  same : ∀ b, b < a ∨ a + n ≤ b → byteAt t b = byteAt s b

theorem Only.ofKeeps {a n : Nat} {s t u : State} (h : Only a n s t) (k : Keeps false t u) : Only a n s u :=
  ⟨k.wf h.wf, fun b hb => by unfold byteAt; rw [k.mem rfl]; exact h.same b hb⟩

theorem Only.ite {a n : Nat} {s x y : State} {c : Prop} [Decidable c] (h : c → Only a n s x) (k : ¬ c → Only a n s y) :
    Only a n s (if c then x else y) := by split; exact h ‹_›; exact k ‹_›

theorem only_writeBytes {a n : Nat} {bs} {s t : State} (h : Only a n s t) (e : bs.length = n) : Only a n s (writeBytes a bs t) :=
  ⟨Memory.setMany_wf h.wf, fun b hb => by
    rw [byteAt_writeBytes h.wf, if_neg (by omega)]; exact h.same b hb⟩

/-- An access with no more to it than its bytes. -/
theorem only_plain {r : MemReq} {a n : Nat} {s t : State} (h : Only a n s t) (e : r.dir = .write → r.data.length = n) :
    Only a n s (plain r a t) := by
  unfold plain
  exact Only.ite (fun c => only_writeBytes h (by simp [reqBytes, e c])) fun _ => h.ofKeeps (keeps_answer (Keeps.refl _))

theorem keeps_plain_read {r : MemReq} {a n : Nat} {s0 t : State} (h : Keeps false s0 t) (e : r.dir ≠ .write) : Keeps false s0 (plain r a t) := by
  unfold plain; rw [if_neg e]; exact keeps_answer h

/-- An access to OCM (R119, R123). -/
theorem only_ocm {r : MemReq} {c : Carried} {a n : Nat} {s t : State} (h : Only a n s t) (e : r.dir = .write → r.data.length = n) :
    Only a n s (ocmPerform r c a t) := by
  have h1 : Only a n s (slcLines c.polder a r.len t) := h.ofKeeps (keeps_slcLines (Keeps.refl _))
  unfold ocmPerform
  refine Only.ite (fun _ => only_plain h1 e) fun _ => Only.ite (fun _ => h1.ofKeeps (keeps_poisonOutcome (keeps_ocmUncorrectable (Keeps.refl _)))) fun _ => ?_
  split
  · exact h1.ofKeeps (keeps_poisonOutcome (keeps_ocmUncorrectable (Keeps.refl _)))
  · exact only_plain (Only.ite (fun _ => h1.ofKeeps (keeps_ocmCorrected (Keeps.refl _))) fun _ => h1) e

/-- An access to DRAM (R131, R143). -/
theorem only_dram {r : MemReq} {c : Carried} {a n : Nat} {s t : State} (h : Only a n s t) (e : r.dir = .write → r.data.length = n) :
    Only a n s (dramPerform r c a t) := by
  unfold dramPerform
  refine Only.ite (fun _ => h.ofKeeps (keeps_poisonOutcome (Keeps.refl _))) fun _ => Only.ite (fun _ => h) fun _ => ?_
  have h1 : Only a n s (activate a c.master (slcLines c.polder a r.len t)) := h.ofKeeps (keeps_activate (keeps_slcLines (Keeps.refl _)))
  refine Only.ite (fun _ => only_plain h1 e) fun _ => ?_
  split
  · exact h1.ofKeeps (keeps_poisonOutcome (keeps_dramUncorrectable (keeps_dramRetried (Keeps.refl _))))
  · exact only_plain (h1.ofKeeps (keeps_dramRetried (Keeps.refl _))) e
  · exact Only.ite (fun _ => h1.ofKeeps (keeps_poisonOutcome (Keeps.refl _))) fun _ => only_plain h1 e

theorem leBytes_len (n v : Nat) : (leBytes n v).length = n := by
  induction n generalizing v with
  | zero => rfl
  | succ n ih => simp [leBytes, ih]

/-- An access to an alias of OCM (R119). -/
theorem only_alias {r : MemReq} {c : Carried} {a n : Nat} {s t : State} (h : Only (aliasTarget a) n s t) (e2 : r.dir = .write → r.len.val = n) :
    Only (aliasTarget a) n s (aliasAccess r c a t) := by
  unfold aliasAccess
  refine Only.ite (fun _ => h.ofKeeps (keeps_aliasFault (Keeps.ite (fun _ => Keeps.refl _) fun _ => keeps_answer (Keeps.refl _)))) fun _ => ?_
  split
  · next eq => exact h.ofKeeps (KeepsQ.elimO eq (keeps_rangeDenied (Keeps.refl _)))
  · next eq =>
    have h1 := h.ofKeeps (KeepsQ.elim eq (keeps_rangeDenied (Keeps.refl _)))
    refine Only.ite (fun _ => Only.ite (fun _ => ?_) fun _ => ?_) fun _ => ?_
    · exact h1.ofKeeps (keeps_poisonOutcome (keeps_aliasFault (keeps_ocmUncorrectable (Keeps.refl _))))
    · exact h1.ofKeeps (keeps_poisonOutcome (keeps_ocmUncorrectable (Keeps.refl _)))
    · have h2 := Only.ite (c := r.ecc = .corrected) (fun _ => h1.ofKeeps (keeps_ocmCorrected (a0 := aliasTarget a) (Keeps.refl _))) fun _ => h1
      refine Only.ite (fun hd => ?_) fun _ => h2.ofKeeps (keeps_answer (Keeps.refl _))
      exact ⟨Memory.setMany_wf h2.wf, fun b hb => by
        unfold byteAt aliasWrite
        simp only []
        rw [Memory.get_setMany h2.wf, leBytes_len, e2 (by simpa using hd), if_neg (by omega)]; exact h2.same b hb⟩

/-- The address that an access to a physical address acts on. -/
def tgtOf (a : Nat) : Nat := if inAlias a then aliasTarget a else a

/-- An access to a physical address that is no register or page. -/
theorem only_phys {r : MemReq} {c : Carried} {a n : Nat} {s t : State} (h : Only (tgtOf a) n s t) (e : r.dir = .write → r.data.length = n) (e2 : r.dir = .write → r.len.val = n) :
    Only (tgtOf a) n s (physAccess r c a t) := by
  unfold physAccess
  by_cases ha : inAlias a = true
  · have : tgtOf a = aliasTarget a := by simp [tgtOf, ha]
    rw [if_pos ha, this]; rw [this] at h; exact only_alias h e2
  · have : tgtOf a = a := by simp [tgtOf, ha]
    rw [if_neg ha, this]; rw [this] at h
    refine Only.ite (fun _ => h.ofKeeps (keeps_outboundAccess (Keeps.refl _))) fun _ => Only.ite (fun _ => ?_) fun _ => ?_
    · split
      · next eq => exact h.ofKeeps (KeepsQ.elimO eq (keeps_rangeDenied (Keeps.refl _)))
      · next eq =>
        have h1 := h.ofKeeps (KeepsQ.elim eq (keeps_rangeDenied (Keeps.refl _)))
        split
        · exact Only.ite (fun _ => h1.ofKeeps (keeps_issue (Keeps.refl _))) fun _ => h1
        · exact Only.ite (fun _ => only_ocm h1 e) fun _ => only_dram h1 e
    · unfold elsewhereAccess
      exact Only.ite (fun _ => only_plain h e) fun _ => Only.ite (fun _ => h) fun _ => h.ofKeeps (keeps_pldDenied (Keeps.refl _))

end Sys2Proof.Machine
end

