-- ==== Sys2Proof/Laws/Pages.lean ====
section
/-! SUPPORT. What the page checks of R60, R76 and R78 see of a state, and that they refuse a normal-world access to a page that is not its polder's. -/
namespace Sys2Proof.Machine

/-- What the checks see of a state is as before. -/
structure Sees (s u : State) : Prop where
  mem : u.mem = s.mem
  regs : u.regs = s.regs
  gib : u.dmc.gib = s.dmc.gib
  ent : MapSettled s → MapSettled u

theorem Sees.refl (s : State) : Sees s s := ⟨rfl, rfl, rfl, id⟩

theorem Sees.trans {s u v : State} (h : Sees s u) (k : Sees u v) : Sees s v :=
  ⟨k.mem.trans h.mem, k.regs.trans h.regs, k.gib.trans h.gib, fun x => k.ent (h.ent x)⟩

/-- Whether the map is settled depends on memory, the registers and the entries held. -/
theorem settled_of {s u : State} (hm : u.mem = s.mem) (hr : u.regs = s.regs) (he : u.pld.entries = s.pld.entries) (h : MapSettled s) : MapSettled u := by
  intro p
  have : byteAt u (entryAddr u p) = byteAt s (entryAddr s p) := by
    simp only [byteAt, entryAddr, mapBase, rdA, rd, hm, hr]
  rw [he, this]; exact h p

/-- Second-stage translation leaves what the checks see. -/
theorem sees_s2 (p a : Nat) (w : Bool) (s : State) : Sees s (s2Translate p a w s).2 := by
  unfold s2Translate
  split
  · exact Sees.refl s
  · extract_lets cur old pick
    clear_value cur
    split
    · split
      · exact ⟨rfl, rfl, rfl, settled_of rfl rfl rfl⟩
      · exact ⟨rfl, rfl, rfl, settled_of rfl rfl rfl⟩
    · exact ⟨rfl, rfl, rfl, settled_of rfl rfl rfl⟩

theorem sees_phys (r : MemReq) (c : Carried) (s : State) : Sees s (physOf r c s).2 := by
  unfold physOf
  dsimp only
  split
  · split
    · split <;> exact Sees.refl s
    · exact Sees.refl s
  · split
    · exact sees_s2 ..
    · exact Sees.refl s

/-- The two cases of the statement: a normal-world access to `b`'s page must be refused in every state that sees what `s` sees. -/
structure Foreign (c : Carried) (s : State) (b : Nat) : Prop where
  sec : c.secure = false
  mas : c.master ≠ 9
  loc : inOcm b = true ∨ inDramRange b = true
  why : (rdB s PLD_MODE_STAT_mode = true ∧ MapSettled s ∧ pageGiven s b (isDeviceMaster c.master) c.polder = false) ∨
    (rdB s PLD_MODE_STAT_mode = false ∧ (tidemarkSecure s b = true ∨ rdB s PLD_MODE_CTRL_fence_normal = true))

/-- The checks do not tell the bytes of a page apart. -/
theorem same_page {x b : Nat} (h : x / 4096 = b / 4096) : inOcm x = inOcm b ∧ inDramRange x = inDramRange b ∧ ocmPage x = ocmPage b ∧ mapPage x = mapPage b ∧ ∀ s, tidemarkSecure s x = tidemarkSecure s b := by
  have h1 : inOcm x = inOcm b := by simp only [inOcm, ocmBase, ocmEnd]; congr 1 <;> exact decide_eq_decide.mpr (by omega)
  have h2 : ocmPage x = ocmPage b := by simp only [ocmPage, ocmBase]; omega
  have h3 : (x - dramBase) / 4096 = (b - dramBase) / 4096 := by simp only [dramBase]; omega
  refine ⟨h1, ?_, h2, ?_, ?_⟩
  · simp only [inDramRange, dramBase, dramTop]; congr 1 <;> exact decide_eq_decide.mpr (by omega)
  · simp only [mapPage, h1, h2, h3]
  · intro s
    simp only [tidemarkSecure, h1, h2, rdA]
    have : (decide (x < rd s PLD_TIDEMARK_tidemark * 2 ^ PLD_TIDEMARK_tidemark.lo)) = decide (b < rd s PLD_TIDEMARK_tidemark * 2 ^ PLD_TIDEMARK_tidemark.lo) := by
      have e : PLD_TIDEMARK_tidemark.lo = 21 := rfl
      rw [e]; exact decide_eq_decide.mpr (by omega)
    split
    · rfl
    · exact this

/-- R76, R78: the page check refuses. -/
theorem check_refuses {c : Carried} {s u : State} {b x : Nat} (hf : Foreign c s b) (hu : Sees s u) (hx : x / 4096 = b / 4096) :
    (polderCheck (decide (1 ≤ c.master) && decide (c.master ≤ 9)) c.secure c.polder x u).1 ≠ none := by
  obtain ⟨e1, e2, e3, e4, e5⟩ := same_page hx
  unfold polderCheck
  have hm : rdB u PLD_MODE_STAT_mode = rdB s PLD_MODE_STAT_mode := by simp only [rdB, rd, hu.regs]
  rw [hm]
  rcases hf.why with ⟨w1, w2, w3⟩ | ⟨w1, w2⟩
  · rw [if_pos w1]
    split
    · have hs := hu.ent w2 (mapPage x)
      have hb : byteAt u (entryAddr u (mapPage x)) = byteAt s (entryAddr s (mapPage b)) := by
        simp only [byteAt, entryAddr, mapBase, rdA, rd, hu.mem, hu.regs, e4]
      split
      · next e s1 eq =>
        have he : e = byteAt u (entryAddr u (mapPage x)) := by
          unfold lookupEntry at eq
          dsimp only at eq
          split at eq
          · cases eq
          · rw [if_neg (by rintro ⟨a1, a2⟩; rcases hs with h | h; exact a1 h; exact a2 h)] at eq
            cases eq; rfl
        rw [he, hb]
        simp only [pageGiven, isDeviceMaster] at w3
        simp only [checkEntry, hf.sec]
        generalize byteAt s (entryAddr s (mapPage b)) = e at w3
        cases h7 : bit e 7 <;> cases h6 : bit e 6 <;> cases h5 : bit e 5 <;> cases hd : (decide (1 ≤ c.master) && decide (c.master ≤ 9)) <;>
          simp only [h7, h6, h5, hd] at w3 ⊢ <;> by_cases hp : c.polder = 0 <;> by_cases ho : bits e 4 0 = c.polder <;>
          (simp_all <;> exact fun k => ho k.symm)
      · simp
    · simp
  · rw [if_neg (by rw [w1]; simp)]
    have hts : tidemarkSecure u x = tidemarkSecure s b := by
      rw [← e5 s]; simp only [tidemarkSecure, rdA, rd, hu.regs]; rfl
    have hfn : rdB u PLD_MODE_CTRL_fence_normal = rdB s PLD_MODE_CTRL_fence_normal := by simp only [rdB, rd, hu.regs]
    show tidemarkCheck u c.secure x ≠ none
    unfold tidemarkCheck
    rw [hts, hfn, hf.sec]
    split
    · simp
    · rcases w2 with w2 | w2
      · simp [w2]
      · split
        · simp
        · simp [w2]

/-- A page check that passes leaves what the checks see. -/
theorem sees_polderCheck {k sec : Bool} {p a : Nat} {u u1 : State} (h : polderCheck k sec p a u = (none, u1)) : Sees u u1 := by
  unfold polderCheck at h
  split at h
  · split at h
    · split at h
      · next e s1 eq =>
        have : u1 = s1 := by injection h with _ h; exact h.symm
        subst this
        unfold lookupEntry at eq
        dsimp only at eq
        have put : ∀ v, v = byteAt u (entryAddr u (mapPage a)) + 1 → MapSettled u →
            MapSettled { u with pld := { u.pld with entries := u.pld.entries.put (mapPage a) v } } := by
          intro v hv hs q
          by_cases hq : q = mapPage a
          · right
            subst hq
            show Tab.get 0 (Tab.put _ _ _) _ = _
            rw [Tab.get_put_same]; exact hv
          · show Tab.get 0 (Tab.put _ _ _) _ = 0 ∨ Tab.get 0 (Tab.put _ _ _) _ = _
            rw [Tab.get_put_ne _ _ _ _ _ hq]; exact hs q
        split at eq
        · cases eq
        · split at eq
          · split at eq
            · cases eq; exact ⟨rfl, rfl, rfl, settled_of rfl rfl rfl⟩
            · cases eq; exact ⟨rfl, rfl, rfl, fun hs => settled_of rfl rfl rfl (put _ rfl hs)⟩
          · cases eq; exact ⟨rfl, rfl, rfl, put _ rfl⟩
      · cases h
    · cases h
  · have : u1 = u := (congrArg Prod.snd h).symm
    rw [this]; exact Sees.refl _

/-- A page that is admitted is Tujan's or has passed the check. -/
theorem pageDenied_none {r : MemReq} {c : Carried} {rd wr : Bool} {a : Nat} {u u1 : State} (h : pageDenied r c rd wr a u = (none, u1)) :
    Sees u u1 ∧ ((inOcm a = true ∧ 22528 ≤ ocmPage a ∧ c.master = 9) ∨
      (polderCheck (decide (1 ≤ c.master) && decide (c.master ≤ 9)) c.secure c.polder a u).1 = none) := by
  unfold pageDenied at h
  dsimp only at h
  split at h
  · next ho =>
    split at h
    · cases h
    next hk =>
    split at h
    · cases h
    split at h
    · next h2 => cases h; exact ⟨Sees.refl _, Or.inl ⟨ho, h2, by by_contra hm; exact hk ⟨h2, hm⟩⟩⟩
    · split at h
      · cases h
      · next eq => cases h; exact ⟨sees_polderCheck eq, Or.inr (by rw [eq])⟩
  · split at h
    · cases h
    · next eq => cases h; exact ⟨sees_polderCheck eq, Or.inr (by rw [eq])⟩

/-- A range that touches a refused page is refused. -/
theorem range_refuses {r : MemReq} {c : Carried} {rd wr : Bool} {s : State} {b : Nat} (hf : Foreign c s b) (l : List Nat) (u : State) (hu : Sees s u)
    (hl : ∃ x ∈ l, x / 4096 = b / 4096) : ∃ y u2, rangeDenied r c rd wr l u = (some y, u2) := by
  induction l generalizing u with
  | nil => obtain ⟨x, hx, _⟩ := hl; cases hx
  | cons a l ih =>
    unfold rangeDenied
    cases hp : pageDenied r c rd wr a u with
    | mk o u1 =>
      cases o with
      | some y => exact ⟨y, u1, rfl⟩
      | none =>
        obtain ⟨k1, k2⟩ := pageDenied_none hp
        dsimp only
        split
        · exact ⟨_, _, rfl⟩
        · refine ih u1 (hu.trans k1) ?_
          obtain ⟨x, hx, hb⟩ := hl
          rcases List.mem_cons.mp hx with rfl | hx
          · exfalso
            rcases k2 with ⟨_, _, k⟩ | k
            · exact hf.mas k
            · exact check_refuses hf hu hb k
          · exact ⟨x, hx, hb⟩

/-- Every byte of a range is in a page that the range is checked by. -/
theorem mem_pageStarts {a n b : Nat} (h1 : a ≤ b) (h2 : b < a + n) : ∃ x ∈ pageStarts a n, x / 4096 = b / 4096 := by
  unfold pageStarts
  rw [if_neg (by omega)]
  by_cases h : a / 4096 = b / 4096
  · exact ⟨a, List.mem_cons_self .., h⟩
  · refine ⟨(b / 4096) * 4096, List.mem_cons_of_mem _ (List.mem_map.mpr ⟨b / 4096 - a / 4096 - 1, List.mem_range.mpr (by omega), by congr 1; omega⟩), by omega⟩

/-- An access to a physical address whose bytes reach a refused page changes no byte of memory. -/
theorem phys_refuses {r : MemReq} {c : Carried} {s u : State} {a b : Nat} (hf : Foreign c s b) (hu : Sees s u)
    (hb : tgtOf a ≤ b ∧ b < tgtOf a + r.len) : Keeps false u (physAccess r c a u) := by
  unfold physAccess
  dsimp only
  by_cases ha : inAlias a = true
  · have ht : tgtOf a = aliasTarget a := by simp [tgtOf, ha]
    rw [ht] at hb
    rw [if_pos ha]
    unfold aliasAccess
    dsimp only
    split
    · exact keeps_aliasFault (Keeps.ite (fun _ => Keeps.refl _) fun _ => keeps_answer (Keeps.refl _))
    · next hfm =>
      have hfm : aliasForm a r.len = true := by simpa using hfm
      simp only [aliasForm, Bool.and_eq_true, Bool.or_eq_true, beq_iff_eq, decide_eq_true_eq] at hfm
      obtain ⟨y, u2, he⟩ := range_refuses (r := r) (rd := true) (wr := r.dir == Dir.write) hf [aliasTarget a] u hu
        ⟨aliasTarget a, List.mem_cons_self .., by
          simp only [aliasTarget, ocmBase] at hb ⊢
          obtain ⟨⟨h4, h5⟩, h6⟩ := hfm
          rcases h4 with h4 | h4 <;> rw [h4] at h5 hb <;> omega⟩
      rw [he]
      exact KeepsQ.elimO he (keeps_rangeDenied (Keeps.refl _))
  · have ht : tgtOf a = a := by simp [tgtOf, ha]
    rw [ht] at hb
    rw [if_neg ha]
    refine Keeps.ite (fun _ => keeps_outboundAccess (Keeps.refl _)) fun _ => Keeps.ite (fun _ => ?_) fun _ => ?_
    · obtain ⟨y, u2, he⟩ := range_refuses (r := r) (rd := !(r.dir == Dir.write)) (wr := r.dir == Dir.write) hf (pageStarts a r.len) u hu
        (mem_pageStarts hb.1 hb.2)
      rw [he]
      exact KeepsQ.elimO he (keeps_rangeDenied (Keeps.refl _))
    · unfold elsewhereAccess
      split
      · next ho =>
        unfold plain
        rw [if_neg (by
          intro hd
          have h9 : (c.master == 9) = false := by simpa using hf.mas
          simp [elsewhereOk, h9, hd] at ho)]
        exact keeps_answer (Keeps.refl _)
      · exact Keeps.ite (fun _ => Keeps.refl _) fun _ => keeps_pldDenied (Keeps.refl _)

end Sys2Proof.Machine
end

