-- ==== Sys2Proof/Laws/Serve.lean ====
section
/-! SUPPORT. What Tujan's handling of a request comes to once the request is asked for and its checks pass, and what an admitted register
access comes to. -/
namespace Sys2Proof.Machine

theorem classRefusal_dropHead (n : Nat) (s : State) (r : Req) : classRefusal (dropHead n s) r = classRefusal s r := rfl

theorem senderResetting_dropHead (n : Nat) (s : State) (r : Req) : senderResetting (dropHead n s) r = senderResetting s r := rfl

theorem refRefusal_dropHead (n : Nat) (s : State) (r : Req) : refRefusal (dropHead n s) r = refRefusal s r := rfl

/-- A request that is asked for is served by its command's body; the reply carries the body's status and result. A refusal as not owner of
an own-scope or GET-class command is recorded first (R32). -/
theorem serve_asked {op k : Nat} {m : Msg} {s : State} (body : Req → State → Answer) (h : asked op k m s = true) :
    serve op k body s =
      (let a := body ⟨k, m⟩ (taken k s)
       a.after (reply ⟨k, Msg.opcode m, Msg.seq m⟩ a.status a.result
        (if a.status = ST_NOT_OWNER ∧ opClass (Msg.opcode m) ≤ 1 then recordRefusal ⟨k, m⟩ a.status a.state else a.state))) := by
  simp only [asked, Bool.and_eq_true, beq_iff_eq, Option.isNone_iff_eq_none, Bool.not_eq_true'] at h
  obtain ⟨⟨⟨⟨⟨⟨h1, h2⟩, h3⟩, h4⟩, h5⟩, h6⟩, h7⟩ := h
  simp only [serve, h1, h2, h3, serveReq, h4, classRefusal_dropHead, h5, senderResetting_dropHead, h6, refRefusal_dropHead, h7, taken]
  simp [Req.job, h2]

/-- A request that is asked for, whose command answers ST_OK with no more to do after its reply. -/
theorem serve_ok {op k : Nat} {m : Msg} {s t : State} {ws : List Nat} {body : Req → State → Answer} (h : asked op k m s = true)
    (hb : body ⟨k, m⟩ (taken k s) = ⟨ST_OK, ws, t, id⟩) : done (serve op k body s) = .next (answered k m ST_OK ws t) := by
  rw [serve_asked body h, hb]
  rfl

/-- A request that is asked for, whose command answers ST_OK and goes on after its reply. -/
theorem serve_after {op k : Nat} {m : Msg} {s t : State} {ws : List Nat} {f : State → State} {body : Req → State → Answer}
    (h : asked op k m s = true) (hb : body ⟨k, m⟩ (taken k s) = ⟨ST_OK, ws, t, f⟩) :
    done (serve op k body s) = .next (settle 4 (f (reply ⟨k, Msg.opcode m, Msg.seq m⟩ ST_OK ws t))) := by
  rw [serve_asked body h, hb]
  rfl

/-- A request that is asked for, whose command answers ST_PENDING and goes on after its reply. -/
theorem serve_pend {op k : Nat} {m : Msg} {s t : State} {f : State → State} {body : Req → State → Answer} (h : asked op k m s = true)
    (hb : body ⟨k, m⟩ (taken k s) = pend t f) :
    done (serve op k body s) = .next (settle 4 (f (reply ⟨k, Msg.opcode m, Msg.seq m⟩ ST_PENDING [] t))) := by
  rw [serve_asked body h, hb]
  rfl

/-- A request that is asked for, whose command makes a commit of Tujan's that passes. -/
theorem serve_commit {op k : Nat} {m : Msg} {s : State} {n : Nat} {fvs : List (Fld × Nat)} {body : Req → State → Answer}
    (h : asked op k m s = true) (hc : commitPasses k m n fvs s = true)
    (hb : body ⟨k, m⟩ (taken k s) = internalCommit (Req.job ⟨k, m⟩) n fvs (taken k s)) :
    done (serve op k body s) = .next (commitMade k m n fvs s) := by
  simp only [commitPasses, Bool.and_eq_true, Bool.or_eq_true, decide_eq_true_eq, Option.isNone_iff_eq_none] at hc
  have h1 : ¬ (n < 8 ∧ 8 ≤ (queuedOn (taken k s) n).length) := by
    have : queuedOn (taken k s) n = queuedOn s n := rfl
    rw [this]; omega
  have h2 : internalCommit (Req.job ⟨k, m⟩) n fvs (taken k s) =
      pend (fvs.foldl (fun s e => wr e.1 e.2 s) (taken k s))
        (fun s' => acceptCommit (tujanCommit k m n fvs s) (spansChecked (tujanCommit k m n fvs s) s')) := by
    have h3 := hc.2
    simp only [tujanCommit] at h3
    have h4 : (taken k s).now = s.now := rfl
    simp only [internalCommit, Req.job, h4, h1, h3, if_false, tujanCommit]
  exact serve_pend h (hb.trans h2)

/-- An admitted write of a register with a row of its own. -/
theorem regWrite_admitted {a : Access} {addr v : Nat} {hit : Bool} {eff : Carried → State → State} {s : State} (hh : hit = true)
    (h : admitted a addr v s = true) : regWrite a addr v hit eff s = .next (settle 4 (eff (carried s a addr) s)) := by
  simp only [admitted, Option.isNone_iff_eq_none] at h
  simp [regWrite, hh, h, done]

/-- A write that is turned away. -/
theorem regWrite_turned {a : Access} {addr v : Nat} {hit : Bool} {eff : Carried → State → State} {s s1 : State} (hh : hit = true)
    (h : turnedAway a addr 4 v s = some s1) : regWrite a addr v hit eff s = .next (settle 4 s1) := by
  simp [regWrite, hh, h, done]

/-- An admitted read of a register with a row of its own. -/
theorem regRead_readable {a : Access} {addr : Nat} {hit : Bool} {eff : State → Nat × State} {s : State} (hh : hit = true)
    (h : readable a addr s = true) : regRead a addr hit eff s = .next (settle 4 { (eff s).2 with busReply := (eff s).1 }) := by
  simp only [readable, Option.isNone_iff_eq_none] at h
  simp [regRead, hh, h, done]

/-- A packet that a context stands at has its effect on its payload words. -/
theorem gfxPacket_at {op k : Nat} {ws : List Nat} {s t : State} {eff : List Nat → State → State} (h : packetAt op k ws s t) :
    gfxPacket op k eff s = .next (settle 4 (gfxSchedule (eff ws t))) := by
  obtain ⟨h1, a, len, off, rest, hb, pb, s1, s2, h2, h3, h4, h5, h6, h7, h8, h9⟩ := h
  subst h8 h9
  subst h6
  simp [gfxPacket, h1, h2, h4, h5, h7, Nat.not_le.mpr h3, done]

/-- What becomes of a request that is refused before its command's own rules (R25, R30 to R32, R35, R57, R462). -/
theorem serve_refused (op k : Nat) (body : Req → State → Answer) (s : State) :
    (takeable s k = none → done (serve op k body s) = .next (settle 4 s)) ∧
    ∀ m : Msg, takeable s k = some m →
      (Msg.opcode m ≠ op ∨ (isRequest m = false ∧ badForm m = false) → done (serve op k body s) = .next (settle 4 s)) ∧
      (Msg.opcode m = op → badForm m = true → done (serve op k body s) = .next (answered k m ST_BAD_ARG [] (taken k s))) ∧
      (Msg.opcode m = op → isRequest m = true → badForm m = false →
        (∀ st, classRefusal s ⟨k, m⟩ = some st → done (serve op k body s) = .next (answered k m st [] (recordRefusal ⟨k, m⟩ st (taken k s)))) ∧
        (classRefusal s ⟨k, m⟩ = none → senderResetting s ⟨k, m⟩ = true → done (serve op k body s) = .next (answered k m ST_RESETTING [] (taken k s))) ∧
        (classRefusal s ⟨k, m⟩ = none → senderResetting s ⟨k, m⟩ = false → ∀ st, refRefusal s ⟨k, m⟩ = some st →
          done (serve op k body s) = .next (answered k m st [] (taken k s)))) := by
  refine ⟨fun h => by simp [serve, h, done], fun m h => ⟨?_, ?_, ?_⟩⟩
  · rintro (h1 | ⟨h1, h2⟩)
    · simp [serve, h, h1, done]
    · simp [serve, h, h1, h2, done]
  · intro h1 h2
    simp [serve, h, h1, h2, done, serveReq, answered, taken, Req.job]
  · intro h1 h2 h3
    refine ⟨fun st h4 => ?_, fun h4 h5 => ?_, fun h4 h5 st h6 => ?_⟩
    · simp [serve, h, h1, h2, h3, done, serveReq, answered, taken, Req.job, classRefusal_dropHead, h4]
    · simp [serve, h, h1, h2, h3, done, serveReq, answered, taken, Req.job, classRefusal_dropHead, senderResetting_dropHead, h4, h5]
    · simp [serve, h, h1, h2, h3, done, serveReq, answered, taken, Req.job, classRefusal_dropHead, senderResetting_dropHead, refRefusal_dropHead, h4, h5, h6]

@[simp] theorem rd_taken (k : Nat) (s : State) (f : Fld) : rd (taken k s) f = rd s f := rfl
@[simp] theorem hart_taken (k : Nat) (s : State) (h : Nat) : hart (taken k s) h = hart s h := rfl
@[simp] theorem polState_taken (k : Nat) (s : State) (p : Nat) : polState (taken k s) p = polState s p := rfl
@[simp] theorem grantee_taken (k : Nat) (s : State) (t p : Nat) : grantee (taken k s) t p = grantee s t p := rfl

end Sys2Proof.Machine
end

