-- ==== Sys2Proof/Laws/Parts.lean ====
section
/-! SUPPORT. What single operations of the blocks come to where their own checks pass. -/
namespace Sys2Proof.Machine

/-- A polder that runs exists. -/
theorem polder_runs (s : State) (p : Nat) (hp : p ≠ 0) (h : rd s (POL_STAT_state p) = 1) : polExists s p = true ∧ polState s p = 1 := by
  simp [polExists, polState, hp, h]

/-- The numbers of a window's polder and of the window in it. -/
theorem winKey_parts (p : Fin 32) (w : Fin 16) : winKey p w / 16 = p ∧ winKey p w % 16 = w := by
  simp only [winKey]
  omega

/-- A write to a polder's audio page where the polder has an audio budget. -/
theorem audPage_admitted {a : Access} {addr v : Nat} {hit : Bool} {eff : Nat → Carried → State → State} {s : State} (h1 : isPage addr = true)
    (h2 : hit = true) (h : admitted a addr v s = true) (h3 : audBudget s (pageOf addr) ≠ 0) :
    audPageWrite a addr v hit eff s = .next (settle 4 (eff (pageOf addr) (carried s a addr) s)) := by
  simp only [audPageWrite]
  rw [regWrite_admitted (by simp [h1, h2]) h]
  simp [h3]

/-- HAP_TRIGGER past its checks (R331). -/
theorem hapTrigger_ran {p c k st : Nat} {s s1 : State} (h1 : p = 0 ∨ polState s p ≠ 2) (h2 : hapHalted s = false)
    (h3 : hapState s c ≠ 0) (h4 : hapState s c ≠ 4)
    (h5 : (hapEntry s p c k).len = 0 ∨ mediaOwned s p (hapEntry s p c k).addr (2 * (hapEntry s p c k).len) = true)
    (h6 : hapOutcome c (hapEntry s p c k) s = (st, s1)) :
    hapTrigger p c k s = wr (HAP_TRIG_STATUS_effect p) k (wr (HAP_TRIG_STATUS_channel p) c (wr (HAP_TRIG_STATUS_status p) st s1)) := by
  show (match (if (p ≠ 0 ∧ polState s p = 2) ∨ hapHalted s = true then (ST_BUSY, s)
    else if hapState s c = 0 ∨ hapState s c = 4 then (ST_HAP_FAULT, s)
    else if (hapEntry s p c k).len ≠ 0 ∧ mediaOwned s p (hapEntry s p c k).addr (2 * (hapEntry s p c k).len) = false then (ST_BAD_ADDR, s)
    else hapOutcome c (hapEntry s p c k) s) with | (st, s1) => wr (HAP_TRIG_STATUS_effect p) k (wr (HAP_TRIG_STATUS_channel p) c (wr (HAP_TRIG_STATUS_status p) st s1))) = _
  have e1 : ¬ ((p ≠ 0 ∧ polState s p = 2) ∨ hapHalted s = true) := by
    rintro (⟨a, b⟩ | a)
    · exact h1.elim a (fun h => h b)
    · rw [h2] at a; exact Bool.noConfusion a
  have e2 : ¬ (hapState s c = 0 ∨ hapState s c = 4) := fun h => h.elim h3 h4
  have e3 : ¬ ((hapEntry s p c k).len ≠ 0 ∧ mediaOwned s p (hapEntry s p c k).addr (2 * (hapEntry s p c k).len) = false) := by
    rintro ⟨a, b⟩
    exact h5.elim a (fun h => Bool.noConfusion (h.symm.trans b))
  rw [if_neg e1, if_neg e2, if_neg e3, h6]

/-- An Onader frame of a class that is not discarded. -/
theorem onlFrame_taken {cls : Nat} {h : OnaderHeader} {len : Nat} {eff : State → State} {s : State} (h1 : onlClass h = cls) (h2 : domainOn s 6 = true)
    (h3 : onlDiscards s h len = false) (h4 : inQuiet s = false ∨ (cls ≠ clsSlice ∧ cls ≠ clsKeyreq)) : onlFrame cls h len eff s = .next (settle 4 (eff s)) := by
  have e : (inQuiet s && (cls == clsSlice || cls == clsKeyreq)) = false := by
    rcases h4 with h | ⟨a, b⟩
    · simp [h]
    · simp [a, b]
  simp [onlFrame, h1, h2, h3, e, done]

/-- The start register of a check-value channel. -/
theorem startReg_of (c : Fin 8) : startReg (0x20040050 + 0x100 * c.val) = some c.val := by
  have := c.isLt
  unfold startReg
  rw [if_pos (by omega)]
  congr 1; omega

end Sys2Proof.Machine
end

