-- ==== Sys2Proof/Laws/State.lean ====
section
/-! SUPPORT. What each named update of the state leaves of every field, so that no proof unfolds a record update; and a register field
read after one was written. -/
namespace Sys2Proof.Laws
open Sys2Proof.Machine

/-- A register field reads what was written to it, at its width. -/
@[simp] theorem rd_wr_same (f : Fld) (v : Nat) (s : State) : rd (wr f v s) f = v % 2 ^ f.width := by
  simp only [rd, wr, Tab.get_put_same]

/-- A register field keeps its value when another is written. -/
theorem rd_wr_other (f g : Fld) (v : Nat) (s : State) (h : g.key ≠ f.key) : rd (wr f v s) g = rd s g := by
  simp only [rd, wr, Tab.get_put_ne _ _ _ _ _ h]

/-! ## wr -/

@[simp] theorem wr_pending (f : Fld) (v : Nat) (s : State) : (wr f v s).pending = s.pending := rfl
@[simp] theorem wr_now (f : Fld) (v : Nat) (s : State) : (wr f v s).now = s.now := rfl
@[simp] theorem wr_devTime (f : Fld) (v : Nat) (s : State) : (wr f v s).devTime = s.devTime := rfl
@[simp] theorem wr_devFrac (f : Fld) (v : Nat) (s : State) : (wr f v s).devFrac = s.devFrac := rfl
@[simp] theorem wr_free (f : Fld) (v : Nat) (s : State) : (wr f v s).free = s.free := rfl
@[simp] theorem wr_busReply (f : Fld) (v : Nat) (s : State) : (wr f v s).busReply = s.busReply := rfl
@[simp] theorem wr_mem (f : Fld) (v : Nat) (s : State) : (wr f v s).mem = s.mem := rfl
@[simp] theorem wr_poison (f : Fld) (v : Nat) (s : State) : (wr f v s).poison = s.poison := rfl
@[simp] theorem wr_rdLatch (f : Fld) (v : Nat) (s : State) : (wr f v s).rdLatch = s.rdLatch := rfl
@[simp] theorem wr_wrHold (f : Fld) (v : Nat) (s : State) : (wr f v s).wrHold = s.wrHold := rfl
@[simp] theorem wr_chans (f : Fld) (v : Nat) (s : State) : (wr f v s).chans = s.chans := rfl
@[simp] theorem wr_held (f : Fld) (v : Nat) (s : State) : (wr f v s).held = s.held := rfl
@[simp] theorem wr_lockPtr (f : Fld) (v : Nat) (s : State) : (wr f v s).lockPtr = s.lockPtr := rfl
@[simp] theorem wr_warden (f : Fld) (v : Nat) (s : State) : (wr f v s).warden = s.warden := rfl
@[simp] theorem wr_harts (f : Fld) (v : Nat) (s : State) : (wr f v s).harts = s.harts := rfl
@[simp] theorem wr_pld (f : Fld) (v : Nat) (s : State) : (wr f v s).pld = s.pld := rfl
@[simp] theorem wr_resets (f : Fld) (v : Nat) (s : State) : (wr f v s).resets = s.resets := rfl
@[simp] theorem wr_grants (f : Fld) (v : Nat) (s : State) : (wr f v s).grants = s.grants := rfl
@[simp] theorem wr_touchGrants (f : Fld) (v : Nat) (s : State) : (wr f v s).touchGrants = s.touchGrants := rfl
@[simp] theorem wr_budget (f : Fld) (v : Nat) (s : State) : (wr f v s).budget = s.budget := rfl
@[simp] theorem wr_fabric (f : Fld) (v : Nat) (s : State) : (wr f v s).fabric = s.fabric := rfl
@[simp] theorem wr_wakes (f : Fld) (v : Nat) (s : State) : (wr f v s).wakes = s.wakes := rfl
@[simp] theorem wr_pci (f : Fld) (v : Nat) (s : State) : (wr f v s).pci = s.pci := rfl
@[simp] theorem wr_pumpLast (f : Fld) (v : Nat) (s : State) : (wr f v s).pumpLast = s.pumpLast := rfl
@[simp] theorem wr_dmc (f : Fld) (v : Nat) (s : State) : (wr f v s).dmc = s.dmc := rfl
@[simp] theorem wr_dsp (f : Fld) (v : Nat) (s : State) : (wr f v s).dsp = s.dsp := rfl
@[simp] theorem wr_gfx (f : Fld) (v : Nat) (s : State) : (wr f v s).gfx = s.gfx := rfl
@[simp] theorem wr_vcd (f : Fld) (v : Nat) (s : State) : (wr f v s).vcd = s.vcd := rfl
@[simp] theorem wr_net (f : Fld) (v : Nat) (s : State) : (wr f v s).net = s.net := rfl
@[simp] theorem wr_aud (f : Fld) (v : Nat) (s : State) : (wr f v s).aud = s.aud := rfl
@[simp] theorem wr_hap (f : Fld) (v : Nat) (s : State) : (wr f v s).hap = s.hap := rfl
@[simp] theorem wr_tch (f : Fld) (v : Nat) (s : State) : (wr f v s).tch = s.tch := rfl
@[simp] theorem wr_pwr (f : Fld) (v : Nat) (s : State) : (wr f v s).pwr = s.pwr := rfl
@[simp] theorem wr_gio (f : Fld) (v : Nat) (s : State) : (wr f v s).gio = s.gio := rfl
@[simp] theorem wr_evr (f : Fld) (v : Nat) (s : State) : (wr f v s).evr = s.evr := rfl
@[simp] theorem wr_vlt (f : Fld) (v : Nat) (s : State) : (wr f v s).vlt = s.vlt := rfl
@[simp] theorem wr_cvu (f : Fld) (v : Nat) (s : State) : (wr f v s).cvu = s.cvu := rfl
@[simp] theorem wr_otp (f : Fld) (v : Nat) (s : State) : (wr f v s).otp = s.otp := rfl

/-! ## wrB -/

@[simp] theorem wrB_pending (f : Fld) (v : Bool) (s : State) : (wrB f v s).pending = s.pending := rfl
@[simp] theorem wrB_now (f : Fld) (v : Bool) (s : State) : (wrB f v s).now = s.now := rfl
@[simp] theorem wrB_devTime (f : Fld) (v : Bool) (s : State) : (wrB f v s).devTime = s.devTime := rfl
@[simp] theorem wrB_devFrac (f : Fld) (v : Bool) (s : State) : (wrB f v s).devFrac = s.devFrac := rfl
@[simp] theorem wrB_free (f : Fld) (v : Bool) (s : State) : (wrB f v s).free = s.free := rfl
@[simp] theorem wrB_busReply (f : Fld) (v : Bool) (s : State) : (wrB f v s).busReply = s.busReply := rfl
@[simp] theorem wrB_mem (f : Fld) (v : Bool) (s : State) : (wrB f v s).mem = s.mem := rfl
@[simp] theorem wrB_poison (f : Fld) (v : Bool) (s : State) : (wrB f v s).poison = s.poison := rfl
@[simp] theorem wrB_rdLatch (f : Fld) (v : Bool) (s : State) : (wrB f v s).rdLatch = s.rdLatch := rfl
@[simp] theorem wrB_wrHold (f : Fld) (v : Bool) (s : State) : (wrB f v s).wrHold = s.wrHold := rfl
@[simp] theorem wrB_chans (f : Fld) (v : Bool) (s : State) : (wrB f v s).chans = s.chans := rfl
@[simp] theorem wrB_held (f : Fld) (v : Bool) (s : State) : (wrB f v s).held = s.held := rfl
@[simp] theorem wrB_lockPtr (f : Fld) (v : Bool) (s : State) : (wrB f v s).lockPtr = s.lockPtr := rfl
@[simp] theorem wrB_warden (f : Fld) (v : Bool) (s : State) : (wrB f v s).warden = s.warden := rfl
@[simp] theorem wrB_harts (f : Fld) (v : Bool) (s : State) : (wrB f v s).harts = s.harts := rfl
@[simp] theorem wrB_pld (f : Fld) (v : Bool) (s : State) : (wrB f v s).pld = s.pld := rfl
@[simp] theorem wrB_resets (f : Fld) (v : Bool) (s : State) : (wrB f v s).resets = s.resets := rfl
@[simp] theorem wrB_grants (f : Fld) (v : Bool) (s : State) : (wrB f v s).grants = s.grants := rfl
@[simp] theorem wrB_touchGrants (f : Fld) (v : Bool) (s : State) : (wrB f v s).touchGrants = s.touchGrants := rfl
@[simp] theorem wrB_budget (f : Fld) (v : Bool) (s : State) : (wrB f v s).budget = s.budget := rfl
@[simp] theorem wrB_fabric (f : Fld) (v : Bool) (s : State) : (wrB f v s).fabric = s.fabric := rfl
@[simp] theorem wrB_wakes (f : Fld) (v : Bool) (s : State) : (wrB f v s).wakes = s.wakes := rfl
@[simp] theorem wrB_pci (f : Fld) (v : Bool) (s : State) : (wrB f v s).pci = s.pci := rfl
@[simp] theorem wrB_pumpLast (f : Fld) (v : Bool) (s : State) : (wrB f v s).pumpLast = s.pumpLast := rfl
@[simp] theorem wrB_dmc (f : Fld) (v : Bool) (s : State) : (wrB f v s).dmc = s.dmc := rfl
@[simp] theorem wrB_dsp (f : Fld) (v : Bool) (s : State) : (wrB f v s).dsp = s.dsp := rfl
@[simp] theorem wrB_gfx (f : Fld) (v : Bool) (s : State) : (wrB f v s).gfx = s.gfx := rfl
@[simp] theorem wrB_vcd (f : Fld) (v : Bool) (s : State) : (wrB f v s).vcd = s.vcd := rfl
@[simp] theorem wrB_net (f : Fld) (v : Bool) (s : State) : (wrB f v s).net = s.net := rfl
@[simp] theorem wrB_aud (f : Fld) (v : Bool) (s : State) : (wrB f v s).aud = s.aud := rfl
@[simp] theorem wrB_hap (f : Fld) (v : Bool) (s : State) : (wrB f v s).hap = s.hap := rfl
@[simp] theorem wrB_tch (f : Fld) (v : Bool) (s : State) : (wrB f v s).tch = s.tch := rfl
@[simp] theorem wrB_pwr (f : Fld) (v : Bool) (s : State) : (wrB f v s).pwr = s.pwr := rfl
@[simp] theorem wrB_gio (f : Fld) (v : Bool) (s : State) : (wrB f v s).gio = s.gio := rfl
@[simp] theorem wrB_evr (f : Fld) (v : Bool) (s : State) : (wrB f v s).evr = s.evr := rfl
@[simp] theorem wrB_vlt (f : Fld) (v : Bool) (s : State) : (wrB f v s).vlt = s.vlt := rfl
@[simp] theorem wrB_cvu (f : Fld) (v : Bool) (s : State) : (wrB f v s).cvu = s.cvu := rfl
@[simp] theorem wrB_otp (f : Fld) (v : Bool) (s : State) : (wrB f v s).otp = s.otp := rfl

/-! ## wrI -/

@[simp] theorem wrI_pending (f : Fld) (v : Int) (s : State) : (wrI f v s).pending = s.pending := rfl
@[simp] theorem wrI_now (f : Fld) (v : Int) (s : State) : (wrI f v s).now = s.now := rfl
@[simp] theorem wrI_devTime (f : Fld) (v : Int) (s : State) : (wrI f v s).devTime = s.devTime := rfl
@[simp] theorem wrI_devFrac (f : Fld) (v : Int) (s : State) : (wrI f v s).devFrac = s.devFrac := rfl
@[simp] theorem wrI_free (f : Fld) (v : Int) (s : State) : (wrI f v s).free = s.free := rfl
@[simp] theorem wrI_busReply (f : Fld) (v : Int) (s : State) : (wrI f v s).busReply = s.busReply := rfl
@[simp] theorem wrI_mem (f : Fld) (v : Int) (s : State) : (wrI f v s).mem = s.mem := rfl
@[simp] theorem wrI_poison (f : Fld) (v : Int) (s : State) : (wrI f v s).poison = s.poison := rfl
@[simp] theorem wrI_rdLatch (f : Fld) (v : Int) (s : State) : (wrI f v s).rdLatch = s.rdLatch := rfl
@[simp] theorem wrI_wrHold (f : Fld) (v : Int) (s : State) : (wrI f v s).wrHold = s.wrHold := rfl
@[simp] theorem wrI_chans (f : Fld) (v : Int) (s : State) : (wrI f v s).chans = s.chans := rfl
@[simp] theorem wrI_held (f : Fld) (v : Int) (s : State) : (wrI f v s).held = s.held := rfl
@[simp] theorem wrI_lockPtr (f : Fld) (v : Int) (s : State) : (wrI f v s).lockPtr = s.lockPtr := rfl
@[simp] theorem wrI_warden (f : Fld) (v : Int) (s : State) : (wrI f v s).warden = s.warden := rfl
@[simp] theorem wrI_harts (f : Fld) (v : Int) (s : State) : (wrI f v s).harts = s.harts := rfl
@[simp] theorem wrI_pld (f : Fld) (v : Int) (s : State) : (wrI f v s).pld = s.pld := rfl
@[simp] theorem wrI_resets (f : Fld) (v : Int) (s : State) : (wrI f v s).resets = s.resets := rfl
@[simp] theorem wrI_grants (f : Fld) (v : Int) (s : State) : (wrI f v s).grants = s.grants := rfl
@[simp] theorem wrI_touchGrants (f : Fld) (v : Int) (s : State) : (wrI f v s).touchGrants = s.touchGrants := rfl
@[simp] theorem wrI_budget (f : Fld) (v : Int) (s : State) : (wrI f v s).budget = s.budget := rfl
@[simp] theorem wrI_fabric (f : Fld) (v : Int) (s : State) : (wrI f v s).fabric = s.fabric := rfl
@[simp] theorem wrI_wakes (f : Fld) (v : Int) (s : State) : (wrI f v s).wakes = s.wakes := rfl
@[simp] theorem wrI_pci (f : Fld) (v : Int) (s : State) : (wrI f v s).pci = s.pci := rfl
@[simp] theorem wrI_pumpLast (f : Fld) (v : Int) (s : State) : (wrI f v s).pumpLast = s.pumpLast := rfl
@[simp] theorem wrI_dmc (f : Fld) (v : Int) (s : State) : (wrI f v s).dmc = s.dmc := rfl
@[simp] theorem wrI_dsp (f : Fld) (v : Int) (s : State) : (wrI f v s).dsp = s.dsp := rfl
@[simp] theorem wrI_gfx (f : Fld) (v : Int) (s : State) : (wrI f v s).gfx = s.gfx := rfl
@[simp] theorem wrI_vcd (f : Fld) (v : Int) (s : State) : (wrI f v s).vcd = s.vcd := rfl
@[simp] theorem wrI_net (f : Fld) (v : Int) (s : State) : (wrI f v s).net = s.net := rfl
@[simp] theorem wrI_aud (f : Fld) (v : Int) (s : State) : (wrI f v s).aud = s.aud := rfl
@[simp] theorem wrI_hap (f : Fld) (v : Int) (s : State) : (wrI f v s).hap = s.hap := rfl
@[simp] theorem wrI_tch (f : Fld) (v : Int) (s : State) : (wrI f v s).tch = s.tch := rfl
@[simp] theorem wrI_pwr (f : Fld) (v : Int) (s : State) : (wrI f v s).pwr = s.pwr := rfl
@[simp] theorem wrI_gio (f : Fld) (v : Int) (s : State) : (wrI f v s).gio = s.gio := rfl
@[simp] theorem wrI_evr (f : Fld) (v : Int) (s : State) : (wrI f v s).evr = s.evr := rfl
@[simp] theorem wrI_vlt (f : Fld) (v : Int) (s : State) : (wrI f v s).vlt = s.vlt := rfl
@[simp] theorem wrI_cvu (f : Fld) (v : Int) (s : State) : (wrI f v s).cvu = s.cvu := rfl
@[simp] theorem wrI_otp (f : Fld) (v : Int) (s : State) : (wrI f v s).otp = s.otp := rfl

/-! ## orBits -/

@[simp] theorem orBits_pending (f : Fld) (v : Nat) (s : State) : (orBits f v s).pending = s.pending := rfl
@[simp] theorem orBits_now (f : Fld) (v : Nat) (s : State) : (orBits f v s).now = s.now := rfl
@[simp] theorem orBits_devTime (f : Fld) (v : Nat) (s : State) : (orBits f v s).devTime = s.devTime := rfl
@[simp] theorem orBits_devFrac (f : Fld) (v : Nat) (s : State) : (orBits f v s).devFrac = s.devFrac := rfl
@[simp] theorem orBits_free (f : Fld) (v : Nat) (s : State) : (orBits f v s).free = s.free := rfl
@[simp] theorem orBits_busReply (f : Fld) (v : Nat) (s : State) : (orBits f v s).busReply = s.busReply := rfl
@[simp] theorem orBits_mem (f : Fld) (v : Nat) (s : State) : (orBits f v s).mem = s.mem := rfl
@[simp] theorem orBits_poison (f : Fld) (v : Nat) (s : State) : (orBits f v s).poison = s.poison := rfl
@[simp] theorem orBits_rdLatch (f : Fld) (v : Nat) (s : State) : (orBits f v s).rdLatch = s.rdLatch := rfl
@[simp] theorem orBits_wrHold (f : Fld) (v : Nat) (s : State) : (orBits f v s).wrHold = s.wrHold := rfl
@[simp] theorem orBits_chans (f : Fld) (v : Nat) (s : State) : (orBits f v s).chans = s.chans := rfl
@[simp] theorem orBits_held (f : Fld) (v : Nat) (s : State) : (orBits f v s).held = s.held := rfl
@[simp] theorem orBits_lockPtr (f : Fld) (v : Nat) (s : State) : (orBits f v s).lockPtr = s.lockPtr := rfl
@[simp] theorem orBits_warden (f : Fld) (v : Nat) (s : State) : (orBits f v s).warden = s.warden := rfl
@[simp] theorem orBits_harts (f : Fld) (v : Nat) (s : State) : (orBits f v s).harts = s.harts := rfl
@[simp] theorem orBits_pld (f : Fld) (v : Nat) (s : State) : (orBits f v s).pld = s.pld := rfl
@[simp] theorem orBits_resets (f : Fld) (v : Nat) (s : State) : (orBits f v s).resets = s.resets := rfl
@[simp] theorem orBits_grants (f : Fld) (v : Nat) (s : State) : (orBits f v s).grants = s.grants := rfl
@[simp] theorem orBits_touchGrants (f : Fld) (v : Nat) (s : State) : (orBits f v s).touchGrants = s.touchGrants := rfl
@[simp] theorem orBits_budget (f : Fld) (v : Nat) (s : State) : (orBits f v s).budget = s.budget := rfl
@[simp] theorem orBits_fabric (f : Fld) (v : Nat) (s : State) : (orBits f v s).fabric = s.fabric := rfl
@[simp] theorem orBits_wakes (f : Fld) (v : Nat) (s : State) : (orBits f v s).wakes = s.wakes := rfl
@[simp] theorem orBits_pci (f : Fld) (v : Nat) (s : State) : (orBits f v s).pci = s.pci := rfl
@[simp] theorem orBits_pumpLast (f : Fld) (v : Nat) (s : State) : (orBits f v s).pumpLast = s.pumpLast := rfl
@[simp] theorem orBits_dmc (f : Fld) (v : Nat) (s : State) : (orBits f v s).dmc = s.dmc := rfl
@[simp] theorem orBits_dsp (f : Fld) (v : Nat) (s : State) : (orBits f v s).dsp = s.dsp := rfl
@[simp] theorem orBits_gfx (f : Fld) (v : Nat) (s : State) : (orBits f v s).gfx = s.gfx := rfl
@[simp] theorem orBits_vcd (f : Fld) (v : Nat) (s : State) : (orBits f v s).vcd = s.vcd := rfl
@[simp] theorem orBits_net (f : Fld) (v : Nat) (s : State) : (orBits f v s).net = s.net := rfl
@[simp] theorem orBits_aud (f : Fld) (v : Nat) (s : State) : (orBits f v s).aud = s.aud := rfl
@[simp] theorem orBits_hap (f : Fld) (v : Nat) (s : State) : (orBits f v s).hap = s.hap := rfl
@[simp] theorem orBits_tch (f : Fld) (v : Nat) (s : State) : (orBits f v s).tch = s.tch := rfl
@[simp] theorem orBits_pwr (f : Fld) (v : Nat) (s : State) : (orBits f v s).pwr = s.pwr := rfl
@[simp] theorem orBits_gio (f : Fld) (v : Nat) (s : State) : (orBits f v s).gio = s.gio := rfl
@[simp] theorem orBits_evr (f : Fld) (v : Nat) (s : State) : (orBits f v s).evr = s.evr := rfl
@[simp] theorem orBits_vlt (f : Fld) (v : Nat) (s : State) : (orBits f v s).vlt = s.vlt := rfl
@[simp] theorem orBits_cvu (f : Fld) (v : Nat) (s : State) : (orBits f v s).cvu = s.cvu := rfl
@[simp] theorem orBits_otp (f : Fld) (v : Nat) (s : State) : (orBits f v s).otp = s.otp := rfl

/-! ## clrBits -/

@[simp] theorem clrBits_pending (f : Fld) (v : Nat) (s : State) : (clrBits f v s).pending = s.pending := rfl
@[simp] theorem clrBits_now (f : Fld) (v : Nat) (s : State) : (clrBits f v s).now = s.now := rfl
@[simp] theorem clrBits_devTime (f : Fld) (v : Nat) (s : State) : (clrBits f v s).devTime = s.devTime := rfl
@[simp] theorem clrBits_devFrac (f : Fld) (v : Nat) (s : State) : (clrBits f v s).devFrac = s.devFrac := rfl
@[simp] theorem clrBits_free (f : Fld) (v : Nat) (s : State) : (clrBits f v s).free = s.free := rfl
@[simp] theorem clrBits_busReply (f : Fld) (v : Nat) (s : State) : (clrBits f v s).busReply = s.busReply := rfl
@[simp] theorem clrBits_mem (f : Fld) (v : Nat) (s : State) : (clrBits f v s).mem = s.mem := rfl
@[simp] theorem clrBits_poison (f : Fld) (v : Nat) (s : State) : (clrBits f v s).poison = s.poison := rfl
@[simp] theorem clrBits_rdLatch (f : Fld) (v : Nat) (s : State) : (clrBits f v s).rdLatch = s.rdLatch := rfl
@[simp] theorem clrBits_wrHold (f : Fld) (v : Nat) (s : State) : (clrBits f v s).wrHold = s.wrHold := rfl
@[simp] theorem clrBits_chans (f : Fld) (v : Nat) (s : State) : (clrBits f v s).chans = s.chans := rfl
@[simp] theorem clrBits_held (f : Fld) (v : Nat) (s : State) : (clrBits f v s).held = s.held := rfl
@[simp] theorem clrBits_lockPtr (f : Fld) (v : Nat) (s : State) : (clrBits f v s).lockPtr = s.lockPtr := rfl
@[simp] theorem clrBits_warden (f : Fld) (v : Nat) (s : State) : (clrBits f v s).warden = s.warden := rfl
@[simp] theorem clrBits_harts (f : Fld) (v : Nat) (s : State) : (clrBits f v s).harts = s.harts := rfl
@[simp] theorem clrBits_pld (f : Fld) (v : Nat) (s : State) : (clrBits f v s).pld = s.pld := rfl
@[simp] theorem clrBits_resets (f : Fld) (v : Nat) (s : State) : (clrBits f v s).resets = s.resets := rfl
@[simp] theorem clrBits_grants (f : Fld) (v : Nat) (s : State) : (clrBits f v s).grants = s.grants := rfl
@[simp] theorem clrBits_touchGrants (f : Fld) (v : Nat) (s : State) : (clrBits f v s).touchGrants = s.touchGrants := rfl
@[simp] theorem clrBits_budget (f : Fld) (v : Nat) (s : State) : (clrBits f v s).budget = s.budget := rfl
@[simp] theorem clrBits_fabric (f : Fld) (v : Nat) (s : State) : (clrBits f v s).fabric = s.fabric := rfl
@[simp] theorem clrBits_wakes (f : Fld) (v : Nat) (s : State) : (clrBits f v s).wakes = s.wakes := rfl
@[simp] theorem clrBits_pci (f : Fld) (v : Nat) (s : State) : (clrBits f v s).pci = s.pci := rfl
@[simp] theorem clrBits_pumpLast (f : Fld) (v : Nat) (s : State) : (clrBits f v s).pumpLast = s.pumpLast := rfl
@[simp] theorem clrBits_dmc (f : Fld) (v : Nat) (s : State) : (clrBits f v s).dmc = s.dmc := rfl
@[simp] theorem clrBits_dsp (f : Fld) (v : Nat) (s : State) : (clrBits f v s).dsp = s.dsp := rfl
@[simp] theorem clrBits_gfx (f : Fld) (v : Nat) (s : State) : (clrBits f v s).gfx = s.gfx := rfl
@[simp] theorem clrBits_vcd (f : Fld) (v : Nat) (s : State) : (clrBits f v s).vcd = s.vcd := rfl
@[simp] theorem clrBits_net (f : Fld) (v : Nat) (s : State) : (clrBits f v s).net = s.net := rfl
@[simp] theorem clrBits_aud (f : Fld) (v : Nat) (s : State) : (clrBits f v s).aud = s.aud := rfl
@[simp] theorem clrBits_hap (f : Fld) (v : Nat) (s : State) : (clrBits f v s).hap = s.hap := rfl
@[simp] theorem clrBits_tch (f : Fld) (v : Nat) (s : State) : (clrBits f v s).tch = s.tch := rfl
@[simp] theorem clrBits_pwr (f : Fld) (v : Nat) (s : State) : (clrBits f v s).pwr = s.pwr := rfl
@[simp] theorem clrBits_gio (f : Fld) (v : Nat) (s : State) : (clrBits f v s).gio = s.gio := rfl
@[simp] theorem clrBits_evr (f : Fld) (v : Nat) (s : State) : (clrBits f v s).evr = s.evr := rfl
@[simp] theorem clrBits_vlt (f : Fld) (v : Nat) (s : State) : (clrBits f v s).vlt = s.vlt := rfl
@[simp] theorem clrBits_cvu (f : Fld) (v : Nat) (s : State) : (clrBits f v s).cvu = s.cvu := rfl
@[simp] theorem clrBits_otp (f : Fld) (v : Nat) (s : State) : (clrBits f v s).otp = s.otp := rfl

/-! ## setHart -/

@[simp] theorem setHart_pending (n : Nat) (v : Hart) (s : State) : (setHart n v s).pending = s.pending := rfl
@[simp] theorem setHart_now (n : Nat) (v : Hart) (s : State) : (setHart n v s).now = s.now := rfl
@[simp] theorem setHart_devTime (n : Nat) (v : Hart) (s : State) : (setHart n v s).devTime = s.devTime := rfl
@[simp] theorem setHart_devFrac (n : Nat) (v : Hart) (s : State) : (setHart n v s).devFrac = s.devFrac := rfl
@[simp] theorem setHart_free (n : Nat) (v : Hart) (s : State) : (setHart n v s).free = s.free := rfl
@[simp] theorem setHart_busReply (n : Nat) (v : Hart) (s : State) : (setHart n v s).busReply = s.busReply := rfl
@[simp] theorem setHart_regs (n : Nat) (v : Hart) (s : State) : (setHart n v s).regs = s.regs := rfl
@[simp] theorem setHart_mem (n : Nat) (v : Hart) (s : State) : (setHart n v s).mem = s.mem := rfl
@[simp] theorem setHart_poison (n : Nat) (v : Hart) (s : State) : (setHart n v s).poison = s.poison := rfl
@[simp] theorem setHart_rdLatch (n : Nat) (v : Hart) (s : State) : (setHart n v s).rdLatch = s.rdLatch := rfl
@[simp] theorem setHart_wrHold (n : Nat) (v : Hart) (s : State) : (setHart n v s).wrHold = s.wrHold := rfl
@[simp] theorem setHart_chans (n : Nat) (v : Hart) (s : State) : (setHart n v s).chans = s.chans := rfl
@[simp] theorem setHart_held (n : Nat) (v : Hart) (s : State) : (setHart n v s).held = s.held := rfl
@[simp] theorem setHart_lockPtr (n : Nat) (v : Hart) (s : State) : (setHart n v s).lockPtr = s.lockPtr := rfl
@[simp] theorem setHart_warden (n : Nat) (v : Hart) (s : State) : (setHart n v s).warden = s.warden := rfl
@[simp] theorem setHart_harts (n : Nat) (v : Hart) (s : State) : (setHart n v s).harts = s.harts.put n v := rfl
@[simp] theorem setHart_pld (n : Nat) (v : Hart) (s : State) : (setHart n v s).pld = s.pld := rfl
@[simp] theorem setHart_resets (n : Nat) (v : Hart) (s : State) : (setHart n v s).resets = s.resets := rfl
@[simp] theorem setHart_grants (n : Nat) (v : Hart) (s : State) : (setHart n v s).grants = s.grants := rfl
@[simp] theorem setHart_touchGrants (n : Nat) (v : Hart) (s : State) : (setHart n v s).touchGrants = s.touchGrants := rfl
@[simp] theorem setHart_budget (n : Nat) (v : Hart) (s : State) : (setHart n v s).budget = s.budget := rfl
@[simp] theorem setHart_fabric (n : Nat) (v : Hart) (s : State) : (setHart n v s).fabric = s.fabric := rfl
@[simp] theorem setHart_wakes (n : Nat) (v : Hart) (s : State) : (setHart n v s).wakes = s.wakes := rfl
@[simp] theorem setHart_pci (n : Nat) (v : Hart) (s : State) : (setHart n v s).pci = s.pci := rfl
@[simp] theorem setHart_pumpLast (n : Nat) (v : Hart) (s : State) : (setHart n v s).pumpLast = s.pumpLast := rfl
@[simp] theorem setHart_dmc (n : Nat) (v : Hart) (s : State) : (setHart n v s).dmc = s.dmc := rfl
@[simp] theorem setHart_dsp (n : Nat) (v : Hart) (s : State) : (setHart n v s).dsp = s.dsp := rfl
@[simp] theorem setHart_gfx (n : Nat) (v : Hart) (s : State) : (setHart n v s).gfx = s.gfx := rfl
@[simp] theorem setHart_vcd (n : Nat) (v : Hart) (s : State) : (setHart n v s).vcd = s.vcd := rfl
@[simp] theorem setHart_net (n : Nat) (v : Hart) (s : State) : (setHart n v s).net = s.net := rfl
@[simp] theorem setHart_aud (n : Nat) (v : Hart) (s : State) : (setHart n v s).aud = s.aud := rfl
@[simp] theorem setHart_hap (n : Nat) (v : Hart) (s : State) : (setHart n v s).hap = s.hap := rfl
@[simp] theorem setHart_tch (n : Nat) (v : Hart) (s : State) : (setHart n v s).tch = s.tch := rfl
@[simp] theorem setHart_pwr (n : Nat) (v : Hart) (s : State) : (setHart n v s).pwr = s.pwr := rfl
@[simp] theorem setHart_gio (n : Nat) (v : Hart) (s : State) : (setHart n v s).gio = s.gio := rfl
@[simp] theorem setHart_evr (n : Nat) (v : Hart) (s : State) : (setHart n v s).evr = s.evr := rfl
@[simp] theorem setHart_vlt (n : Nat) (v : Hart) (s : State) : (setHart n v s).vlt = s.vlt := rfl
@[simp] theorem setHart_cvu (n : Nat) (v : Hart) (s : State) : (setHart n v s).cvu = s.cvu := rfl
@[simp] theorem setHart_otp (n : Nat) (v : Hart) (s : State) : (setHart n v s).otp = s.otp := rfl

/-! ## setChan -/

@[simp] theorem setChan_pending (n : Nat) (v : Chan) (s : State) : (setChan n v s).pending = s.pending := rfl
@[simp] theorem setChan_now (n : Nat) (v : Chan) (s : State) : (setChan n v s).now = s.now := rfl
@[simp] theorem setChan_devTime (n : Nat) (v : Chan) (s : State) : (setChan n v s).devTime = s.devTime := rfl
@[simp] theorem setChan_devFrac (n : Nat) (v : Chan) (s : State) : (setChan n v s).devFrac = s.devFrac := rfl
@[simp] theorem setChan_free (n : Nat) (v : Chan) (s : State) : (setChan n v s).free = s.free := rfl
@[simp] theorem setChan_busReply (n : Nat) (v : Chan) (s : State) : (setChan n v s).busReply = s.busReply := rfl
@[simp] theorem setChan_regs (n : Nat) (v : Chan) (s : State) : (setChan n v s).regs = s.regs := rfl
@[simp] theorem setChan_mem (n : Nat) (v : Chan) (s : State) : (setChan n v s).mem = s.mem := rfl
@[simp] theorem setChan_poison (n : Nat) (v : Chan) (s : State) : (setChan n v s).poison = s.poison := rfl
@[simp] theorem setChan_rdLatch (n : Nat) (v : Chan) (s : State) : (setChan n v s).rdLatch = s.rdLatch := rfl
@[simp] theorem setChan_wrHold (n : Nat) (v : Chan) (s : State) : (setChan n v s).wrHold = s.wrHold := rfl
@[simp] theorem setChan_chans (n : Nat) (v : Chan) (s : State) : (setChan n v s).chans = s.chans.put n v := rfl
@[simp] theorem setChan_held (n : Nat) (v : Chan) (s : State) : (setChan n v s).held = s.held := rfl
@[simp] theorem setChan_lockPtr (n : Nat) (v : Chan) (s : State) : (setChan n v s).lockPtr = s.lockPtr := rfl
@[simp] theorem setChan_warden (n : Nat) (v : Chan) (s : State) : (setChan n v s).warden = s.warden := rfl
@[simp] theorem setChan_harts (n : Nat) (v : Chan) (s : State) : (setChan n v s).harts = s.harts := rfl
@[simp] theorem setChan_pld (n : Nat) (v : Chan) (s : State) : (setChan n v s).pld = s.pld := rfl
@[simp] theorem setChan_resets (n : Nat) (v : Chan) (s : State) : (setChan n v s).resets = s.resets := rfl
@[simp] theorem setChan_grants (n : Nat) (v : Chan) (s : State) : (setChan n v s).grants = s.grants := rfl
@[simp] theorem setChan_touchGrants (n : Nat) (v : Chan) (s : State) : (setChan n v s).touchGrants = s.touchGrants := rfl
@[simp] theorem setChan_budget (n : Nat) (v : Chan) (s : State) : (setChan n v s).budget = s.budget := rfl
@[simp] theorem setChan_fabric (n : Nat) (v : Chan) (s : State) : (setChan n v s).fabric = s.fabric := rfl
@[simp] theorem setChan_wakes (n : Nat) (v : Chan) (s : State) : (setChan n v s).wakes = s.wakes := rfl
@[simp] theorem setChan_pci (n : Nat) (v : Chan) (s : State) : (setChan n v s).pci = s.pci := rfl
@[simp] theorem setChan_pumpLast (n : Nat) (v : Chan) (s : State) : (setChan n v s).pumpLast = s.pumpLast := rfl
@[simp] theorem setChan_dmc (n : Nat) (v : Chan) (s : State) : (setChan n v s).dmc = s.dmc := rfl
@[simp] theorem setChan_dsp (n : Nat) (v : Chan) (s : State) : (setChan n v s).dsp = s.dsp := rfl
@[simp] theorem setChan_gfx (n : Nat) (v : Chan) (s : State) : (setChan n v s).gfx = s.gfx := rfl
@[simp] theorem setChan_vcd (n : Nat) (v : Chan) (s : State) : (setChan n v s).vcd = s.vcd := rfl
@[simp] theorem setChan_net (n : Nat) (v : Chan) (s : State) : (setChan n v s).net = s.net := rfl
@[simp] theorem setChan_aud (n : Nat) (v : Chan) (s : State) : (setChan n v s).aud = s.aud := rfl
@[simp] theorem setChan_hap (n : Nat) (v : Chan) (s : State) : (setChan n v s).hap = s.hap := rfl
@[simp] theorem setChan_tch (n : Nat) (v : Chan) (s : State) : (setChan n v s).tch = s.tch := rfl
@[simp] theorem setChan_pwr (n : Nat) (v : Chan) (s : State) : (setChan n v s).pwr = s.pwr := rfl
@[simp] theorem setChan_gio (n : Nat) (v : Chan) (s : State) : (setChan n v s).gio = s.gio := rfl
@[simp] theorem setChan_evr (n : Nat) (v : Chan) (s : State) : (setChan n v s).evr = s.evr := rfl
@[simp] theorem setChan_vlt (n : Nat) (v : Chan) (s : State) : (setChan n v s).vlt = s.vlt := rfl
@[simp] theorem setChan_cvu (n : Nat) (v : Chan) (s : State) : (setChan n v s).cvu = s.cvu := rfl
@[simp] theorem setChan_otp (n : Nat) (v : Chan) (s : State) : (setChan n v s).otp = s.otp := rfl

/-! ## setHeld -/

@[simp] theorem setHeld_pending (k : Nat) (l : List Held) (s : State) : (setHeld k l s).pending = s.pending := rfl
@[simp] theorem setHeld_now (k : Nat) (l : List Held) (s : State) : (setHeld k l s).now = s.now := rfl
@[simp] theorem setHeld_devTime (k : Nat) (l : List Held) (s : State) : (setHeld k l s).devTime = s.devTime := rfl
@[simp] theorem setHeld_devFrac (k : Nat) (l : List Held) (s : State) : (setHeld k l s).devFrac = s.devFrac := rfl
@[simp] theorem setHeld_free (k : Nat) (l : List Held) (s : State) : (setHeld k l s).free = s.free := rfl
@[simp] theorem setHeld_busReply (k : Nat) (l : List Held) (s : State) : (setHeld k l s).busReply = s.busReply := rfl
@[simp] theorem setHeld_regs (k : Nat) (l : List Held) (s : State) : (setHeld k l s).regs = s.regs := rfl
@[simp] theorem setHeld_mem (k : Nat) (l : List Held) (s : State) : (setHeld k l s).mem = s.mem := rfl
@[simp] theorem setHeld_poison (k : Nat) (l : List Held) (s : State) : (setHeld k l s).poison = s.poison := rfl
@[simp] theorem setHeld_rdLatch (k : Nat) (l : List Held) (s : State) : (setHeld k l s).rdLatch = s.rdLatch := rfl
@[simp] theorem setHeld_wrHold (k : Nat) (l : List Held) (s : State) : (setHeld k l s).wrHold = s.wrHold := rfl
@[simp] theorem setHeld_chans (k : Nat) (l : List Held) (s : State) : (setHeld k l s).chans = s.chans := rfl
@[simp] theorem setHeld_held (k : Nat) (l : List Held) (s : State) : (setHeld k l s).held = s.held.put k l := rfl
@[simp] theorem setHeld_lockPtr (k : Nat) (l : List Held) (s : State) : (setHeld k l s).lockPtr = s.lockPtr := rfl
@[simp] theorem setHeld_warden (k : Nat) (l : List Held) (s : State) : (setHeld k l s).warden = s.warden := rfl
@[simp] theorem setHeld_harts (k : Nat) (l : List Held) (s : State) : (setHeld k l s).harts = s.harts := rfl
@[simp] theorem setHeld_pld (k : Nat) (l : List Held) (s : State) : (setHeld k l s).pld = s.pld := rfl
@[simp] theorem setHeld_resets (k : Nat) (l : List Held) (s : State) : (setHeld k l s).resets = s.resets := rfl
@[simp] theorem setHeld_grants (k : Nat) (l : List Held) (s : State) : (setHeld k l s).grants = s.grants := rfl
@[simp] theorem setHeld_touchGrants (k : Nat) (l : List Held) (s : State) : (setHeld k l s).touchGrants = s.touchGrants := rfl
@[simp] theorem setHeld_budget (k : Nat) (l : List Held) (s : State) : (setHeld k l s).budget = s.budget := rfl
@[simp] theorem setHeld_fabric (k : Nat) (l : List Held) (s : State) : (setHeld k l s).fabric = s.fabric := rfl
@[simp] theorem setHeld_wakes (k : Nat) (l : List Held) (s : State) : (setHeld k l s).wakes = s.wakes := rfl
@[simp] theorem setHeld_pci (k : Nat) (l : List Held) (s : State) : (setHeld k l s).pci = s.pci := rfl
@[simp] theorem setHeld_pumpLast (k : Nat) (l : List Held) (s : State) : (setHeld k l s).pumpLast = s.pumpLast := rfl
@[simp] theorem setHeld_dmc (k : Nat) (l : List Held) (s : State) : (setHeld k l s).dmc = s.dmc := rfl
@[simp] theorem setHeld_dsp (k : Nat) (l : List Held) (s : State) : (setHeld k l s).dsp = s.dsp := rfl
@[simp] theorem setHeld_gfx (k : Nat) (l : List Held) (s : State) : (setHeld k l s).gfx = s.gfx := rfl
@[simp] theorem setHeld_vcd (k : Nat) (l : List Held) (s : State) : (setHeld k l s).vcd = s.vcd := rfl
@[simp] theorem setHeld_net (k : Nat) (l : List Held) (s : State) : (setHeld k l s).net = s.net := rfl
@[simp] theorem setHeld_aud (k : Nat) (l : List Held) (s : State) : (setHeld k l s).aud = s.aud := rfl
@[simp] theorem setHeld_hap (k : Nat) (l : List Held) (s : State) : (setHeld k l s).hap = s.hap := rfl
@[simp] theorem setHeld_tch (k : Nat) (l : List Held) (s : State) : (setHeld k l s).tch = s.tch := rfl
@[simp] theorem setHeld_pwr (k : Nat) (l : List Held) (s : State) : (setHeld k l s).pwr = s.pwr := rfl
@[simp] theorem setHeld_gio (k : Nat) (l : List Held) (s : State) : (setHeld k l s).gio = s.gio := rfl
@[simp] theorem setHeld_evr (k : Nat) (l : List Held) (s : State) : (setHeld k l s).evr = s.evr := rfl
@[simp] theorem setHeld_vlt (k : Nat) (l : List Held) (s : State) : (setHeld k l s).vlt = s.vlt := rfl
@[simp] theorem setHeld_cvu (k : Nat) (l : List Held) (s : State) : (setHeld k l s).cvu = s.cvu := rfl
@[simp] theorem setHeld_otp (k : Nat) (l : List Held) (s : State) : (setHeld k l s).otp = s.otp := rfl

/-! ## dropHead -/

@[simp] theorem dropHead_pending (n : Nat) (s : State) : (dropHead n s).pending = s.pending := rfl
@[simp] theorem dropHead_now (n : Nat) (s : State) : (dropHead n s).now = s.now := rfl
@[simp] theorem dropHead_devTime (n : Nat) (s : State) : (dropHead n s).devTime = s.devTime := rfl
@[simp] theorem dropHead_devFrac (n : Nat) (s : State) : (dropHead n s).devFrac = s.devFrac := rfl
@[simp] theorem dropHead_free (n : Nat) (s : State) : (dropHead n s).free = s.free := rfl
@[simp] theorem dropHead_busReply (n : Nat) (s : State) : (dropHead n s).busReply = s.busReply := rfl
@[simp] theorem dropHead_regs (n : Nat) (s : State) : (dropHead n s).regs = s.regs := rfl
@[simp] theorem dropHead_mem (n : Nat) (s : State) : (dropHead n s).mem = s.mem := rfl
@[simp] theorem dropHead_poison (n : Nat) (s : State) : (dropHead n s).poison = s.poison := rfl
@[simp] theorem dropHead_rdLatch (n : Nat) (s : State) : (dropHead n s).rdLatch = s.rdLatch := rfl
@[simp] theorem dropHead_wrHold (n : Nat) (s : State) : (dropHead n s).wrHold = s.wrHold := rfl
@[simp] theorem dropHead_held (n : Nat) (s : State) : (dropHead n s).held = s.held := rfl
@[simp] theorem dropHead_lockPtr (n : Nat) (s : State) : (dropHead n s).lockPtr = s.lockPtr := rfl
@[simp] theorem dropHead_warden (n : Nat) (s : State) : (dropHead n s).warden = s.warden := rfl
@[simp] theorem dropHead_harts (n : Nat) (s : State) : (dropHead n s).harts = s.harts := rfl
@[simp] theorem dropHead_pld (n : Nat) (s : State) : (dropHead n s).pld = s.pld := rfl
@[simp] theorem dropHead_resets (n : Nat) (s : State) : (dropHead n s).resets = s.resets := rfl
@[simp] theorem dropHead_grants (n : Nat) (s : State) : (dropHead n s).grants = s.grants := rfl
@[simp] theorem dropHead_touchGrants (n : Nat) (s : State) : (dropHead n s).touchGrants = s.touchGrants := rfl
@[simp] theorem dropHead_budget (n : Nat) (s : State) : (dropHead n s).budget = s.budget := rfl
@[simp] theorem dropHead_fabric (n : Nat) (s : State) : (dropHead n s).fabric = s.fabric := rfl
@[simp] theorem dropHead_wakes (n : Nat) (s : State) : (dropHead n s).wakes = s.wakes := rfl
@[simp] theorem dropHead_pci (n : Nat) (s : State) : (dropHead n s).pci = s.pci := rfl
@[simp] theorem dropHead_pumpLast (n : Nat) (s : State) : (dropHead n s).pumpLast = s.pumpLast := rfl
@[simp] theorem dropHead_dmc (n : Nat) (s : State) : (dropHead n s).dmc = s.dmc := rfl
@[simp] theorem dropHead_dsp (n : Nat) (s : State) : (dropHead n s).dsp = s.dsp := rfl
@[simp] theorem dropHead_gfx (n : Nat) (s : State) : (dropHead n s).gfx = s.gfx := rfl
@[simp] theorem dropHead_vcd (n : Nat) (s : State) : (dropHead n s).vcd = s.vcd := rfl
@[simp] theorem dropHead_net (n : Nat) (s : State) : (dropHead n s).net = s.net := rfl
@[simp] theorem dropHead_aud (n : Nat) (s : State) : (dropHead n s).aud = s.aud := rfl
@[simp] theorem dropHead_hap (n : Nat) (s : State) : (dropHead n s).hap = s.hap := rfl
@[simp] theorem dropHead_tch (n : Nat) (s : State) : (dropHead n s).tch = s.tch := rfl
@[simp] theorem dropHead_pwr (n : Nat) (s : State) : (dropHead n s).pwr = s.pwr := rfl
@[simp] theorem dropHead_gio (n : Nat) (s : State) : (dropHead n s).gio = s.gio := rfl
@[simp] theorem dropHead_evr (n : Nat) (s : State) : (dropHead n s).evr = s.evr := rfl
@[simp] theorem dropHead_vlt (n : Nat) (s : State) : (dropHead n s).vlt = s.vlt := rfl
@[simp] theorem dropHead_cvu (n : Nat) (s : State) : (dropHead n s).cvu = s.cvu := rfl
@[simp] theorem dropHead_otp (n : Nat) (s : State) : (dropHead n s).otp = s.otp := rfl

/-! ## answer -/

@[simp] theorem answer_pending (v : Nat) (s : State) : (answer v s).pending = s.pending := rfl
@[simp] theorem answer_now (v : Nat) (s : State) : (answer v s).now = s.now := rfl
@[simp] theorem answer_devTime (v : Nat) (s : State) : (answer v s).devTime = s.devTime := rfl
@[simp] theorem answer_devFrac (v : Nat) (s : State) : (answer v s).devFrac = s.devFrac := rfl
@[simp] theorem answer_free (v : Nat) (s : State) : (answer v s).free = s.free := rfl
@[simp] theorem answer_busReply (v : Nat) (s : State) : (answer v s).busReply = v := rfl
@[simp] theorem answer_regs (v : Nat) (s : State) : (answer v s).regs = s.regs := rfl
@[simp] theorem answer_mem (v : Nat) (s : State) : (answer v s).mem = s.mem := rfl
@[simp] theorem answer_poison (v : Nat) (s : State) : (answer v s).poison = s.poison := rfl
@[simp] theorem answer_rdLatch (v : Nat) (s : State) : (answer v s).rdLatch = s.rdLatch := rfl
@[simp] theorem answer_wrHold (v : Nat) (s : State) : (answer v s).wrHold = s.wrHold := rfl
@[simp] theorem answer_chans (v : Nat) (s : State) : (answer v s).chans = s.chans := rfl
@[simp] theorem answer_held (v : Nat) (s : State) : (answer v s).held = s.held := rfl
@[simp] theorem answer_lockPtr (v : Nat) (s : State) : (answer v s).lockPtr = s.lockPtr := rfl
@[simp] theorem answer_warden (v : Nat) (s : State) : (answer v s).warden = s.warden := rfl
@[simp] theorem answer_harts (v : Nat) (s : State) : (answer v s).harts = s.harts := rfl
@[simp] theorem answer_pld (v : Nat) (s : State) : (answer v s).pld = s.pld := rfl
@[simp] theorem answer_resets (v : Nat) (s : State) : (answer v s).resets = s.resets := rfl
@[simp] theorem answer_grants (v : Nat) (s : State) : (answer v s).grants = s.grants := rfl
@[simp] theorem answer_touchGrants (v : Nat) (s : State) : (answer v s).touchGrants = s.touchGrants := rfl
@[simp] theorem answer_budget (v : Nat) (s : State) : (answer v s).budget = s.budget := rfl
@[simp] theorem answer_fabric (v : Nat) (s : State) : (answer v s).fabric = s.fabric := rfl
@[simp] theorem answer_wakes (v : Nat) (s : State) : (answer v s).wakes = s.wakes := rfl
@[simp] theorem answer_pci (v : Nat) (s : State) : (answer v s).pci = s.pci := rfl
@[simp] theorem answer_pumpLast (v : Nat) (s : State) : (answer v s).pumpLast = s.pumpLast := rfl
@[simp] theorem answer_dmc (v : Nat) (s : State) : (answer v s).dmc = s.dmc := rfl
@[simp] theorem answer_dsp (v : Nat) (s : State) : (answer v s).dsp = s.dsp := rfl
@[simp] theorem answer_gfx (v : Nat) (s : State) : (answer v s).gfx = s.gfx := rfl
@[simp] theorem answer_vcd (v : Nat) (s : State) : (answer v s).vcd = s.vcd := rfl
@[simp] theorem answer_net (v : Nat) (s : State) : (answer v s).net = s.net := rfl
@[simp] theorem answer_aud (v : Nat) (s : State) : (answer v s).aud = s.aud := rfl
@[simp] theorem answer_hap (v : Nat) (s : State) : (answer v s).hap = s.hap := rfl
@[simp] theorem answer_tch (v : Nat) (s : State) : (answer v s).tch = s.tch := rfl
@[simp] theorem answer_pwr (v : Nat) (s : State) : (answer v s).pwr = s.pwr := rfl
@[simp] theorem answer_gio (v : Nat) (s : State) : (answer v s).gio = s.gio := rfl
@[simp] theorem answer_evr (v : Nat) (s : State) : (answer v s).evr = s.evr := rfl
@[simp] theorem answer_vlt (v : Nat) (s : State) : (answer v s).vlt = s.vlt := rfl
@[simp] theorem answer_cvu (v : Nat) (s : State) : (answer v s).cvu = s.cvu := rfl
@[simp] theorem answer_otp (v : Nat) (s : State) : (answer v s).otp = s.otp := rfl

/-! ## tookFree -/

@[simp] theorem tookFree_pending (s : State) : (tookFree s).pending = s.pending := rfl
@[simp] theorem tookFree_now (s : State) : (tookFree s).now = s.now := rfl
@[simp] theorem tookFree_devTime (s : State) : (tookFree s).devTime = s.devTime := rfl
@[simp] theorem tookFree_devFrac (s : State) : (tookFree s).devFrac = s.devFrac := rfl
@[simp] theorem tookFree_free (s : State) : (tookFree s).free = s.free + 1 := rfl
@[simp] theorem tookFree_busReply (s : State) : (tookFree s).busReply = s.busReply := rfl
@[simp] theorem tookFree_regs (s : State) : (tookFree s).regs = s.regs := rfl
@[simp] theorem tookFree_mem (s : State) : (tookFree s).mem = s.mem := rfl
@[simp] theorem tookFree_poison (s : State) : (tookFree s).poison = s.poison := rfl
@[simp] theorem tookFree_rdLatch (s : State) : (tookFree s).rdLatch = s.rdLatch := rfl
@[simp] theorem tookFree_wrHold (s : State) : (tookFree s).wrHold = s.wrHold := rfl
@[simp] theorem tookFree_chans (s : State) : (tookFree s).chans = s.chans := rfl
@[simp] theorem tookFree_held (s : State) : (tookFree s).held = s.held := rfl
@[simp] theorem tookFree_lockPtr (s : State) : (tookFree s).lockPtr = s.lockPtr := rfl
@[simp] theorem tookFree_warden (s : State) : (tookFree s).warden = s.warden := rfl
@[simp] theorem tookFree_harts (s : State) : (tookFree s).harts = s.harts := rfl
@[simp] theorem tookFree_pld (s : State) : (tookFree s).pld = s.pld := rfl
@[simp] theorem tookFree_resets (s : State) : (tookFree s).resets = s.resets := rfl
@[simp] theorem tookFree_grants (s : State) : (tookFree s).grants = s.grants := rfl
@[simp] theorem tookFree_touchGrants (s : State) : (tookFree s).touchGrants = s.touchGrants := rfl
@[simp] theorem tookFree_budget (s : State) : (tookFree s).budget = s.budget := rfl
@[simp] theorem tookFree_fabric (s : State) : (tookFree s).fabric = s.fabric := rfl
@[simp] theorem tookFree_wakes (s : State) : (tookFree s).wakes = s.wakes := rfl
@[simp] theorem tookFree_pci (s : State) : (tookFree s).pci = s.pci := rfl
@[simp] theorem tookFree_pumpLast (s : State) : (tookFree s).pumpLast = s.pumpLast := rfl
@[simp] theorem tookFree_dmc (s : State) : (tookFree s).dmc = s.dmc := rfl
@[simp] theorem tookFree_dsp (s : State) : (tookFree s).dsp = s.dsp := rfl
@[simp] theorem tookFree_gfx (s : State) : (tookFree s).gfx = s.gfx := rfl
@[simp] theorem tookFree_vcd (s : State) : (tookFree s).vcd = s.vcd := rfl
@[simp] theorem tookFree_net (s : State) : (tookFree s).net = s.net := rfl
@[simp] theorem tookFree_aud (s : State) : (tookFree s).aud = s.aud := rfl
@[simp] theorem tookFree_hap (s : State) : (tookFree s).hap = s.hap := rfl
@[simp] theorem tookFree_tch (s : State) : (tookFree s).tch = s.tch := rfl
@[simp] theorem tookFree_pwr (s : State) : (tookFree s).pwr = s.pwr := rfl
@[simp] theorem tookFree_gio (s : State) : (tookFree s).gio = s.gio := rfl
@[simp] theorem tookFree_evr (s : State) : (tookFree s).evr = s.evr := rfl
@[simp] theorem tookFree_vlt (s : State) : (tookFree s).vlt = s.vlt := rfl
@[simp] theorem tookFree_cvu (s : State) : (tookFree s).cvu = s.cvu := rfl
@[simp] theorem tookFree_otp (s : State) : (tookFree s).otp = s.otp := rfl

/-! ## tookFrees -/

@[simp] theorem tookFrees_pending (n : Nat) (s : State) : (tookFrees n s).pending = s.pending := rfl
@[simp] theorem tookFrees_now (n : Nat) (s : State) : (tookFrees n s).now = s.now := rfl
@[simp] theorem tookFrees_devTime (n : Nat) (s : State) : (tookFrees n s).devTime = s.devTime := rfl
@[simp] theorem tookFrees_devFrac (n : Nat) (s : State) : (tookFrees n s).devFrac = s.devFrac := rfl
@[simp] theorem tookFrees_free (n : Nat) (s : State) : (tookFrees n s).free = s.free + n := rfl
@[simp] theorem tookFrees_busReply (n : Nat) (s : State) : (tookFrees n s).busReply = s.busReply := rfl
@[simp] theorem tookFrees_regs (n : Nat) (s : State) : (tookFrees n s).regs = s.regs := rfl
@[simp] theorem tookFrees_mem (n : Nat) (s : State) : (tookFrees n s).mem = s.mem := rfl
@[simp] theorem tookFrees_poison (n : Nat) (s : State) : (tookFrees n s).poison = s.poison := rfl
@[simp] theorem tookFrees_rdLatch (n : Nat) (s : State) : (tookFrees n s).rdLatch = s.rdLatch := rfl
@[simp] theorem tookFrees_wrHold (n : Nat) (s : State) : (tookFrees n s).wrHold = s.wrHold := rfl
@[simp] theorem tookFrees_chans (n : Nat) (s : State) : (tookFrees n s).chans = s.chans := rfl
@[simp] theorem tookFrees_held (n : Nat) (s : State) : (tookFrees n s).held = s.held := rfl
@[simp] theorem tookFrees_lockPtr (n : Nat) (s : State) : (tookFrees n s).lockPtr = s.lockPtr := rfl
@[simp] theorem tookFrees_warden (n : Nat) (s : State) : (tookFrees n s).warden = s.warden := rfl
@[simp] theorem tookFrees_harts (n : Nat) (s : State) : (tookFrees n s).harts = s.harts := rfl
@[simp] theorem tookFrees_pld (n : Nat) (s : State) : (tookFrees n s).pld = s.pld := rfl
@[simp] theorem tookFrees_resets (n : Nat) (s : State) : (tookFrees n s).resets = s.resets := rfl
@[simp] theorem tookFrees_grants (n : Nat) (s : State) : (tookFrees n s).grants = s.grants := rfl
@[simp] theorem tookFrees_touchGrants (n : Nat) (s : State) : (tookFrees n s).touchGrants = s.touchGrants := rfl
@[simp] theorem tookFrees_budget (n : Nat) (s : State) : (tookFrees n s).budget = s.budget := rfl
@[simp] theorem tookFrees_fabric (n : Nat) (s : State) : (tookFrees n s).fabric = s.fabric := rfl
@[simp] theorem tookFrees_wakes (n : Nat) (s : State) : (tookFrees n s).wakes = s.wakes := rfl
@[simp] theorem tookFrees_pci (n : Nat) (s : State) : (tookFrees n s).pci = s.pci := rfl
@[simp] theorem tookFrees_pumpLast (n : Nat) (s : State) : (tookFrees n s).pumpLast = s.pumpLast := rfl
@[simp] theorem tookFrees_dmc (n : Nat) (s : State) : (tookFrees n s).dmc = s.dmc := rfl
@[simp] theorem tookFrees_dsp (n : Nat) (s : State) : (tookFrees n s).dsp = s.dsp := rfl
@[simp] theorem tookFrees_gfx (n : Nat) (s : State) : (tookFrees n s).gfx = s.gfx := rfl
@[simp] theorem tookFrees_vcd (n : Nat) (s : State) : (tookFrees n s).vcd = s.vcd := rfl
@[simp] theorem tookFrees_net (n : Nat) (s : State) : (tookFrees n s).net = s.net := rfl
@[simp] theorem tookFrees_aud (n : Nat) (s : State) : (tookFrees n s).aud = s.aud := rfl
@[simp] theorem tookFrees_hap (n : Nat) (s : State) : (tookFrees n s).hap = s.hap := rfl
@[simp] theorem tookFrees_tch (n : Nat) (s : State) : (tookFrees n s).tch = s.tch := rfl
@[simp] theorem tookFrees_pwr (n : Nat) (s : State) : (tookFrees n s).pwr = s.pwr := rfl
@[simp] theorem tookFrees_gio (n : Nat) (s : State) : (tookFrees n s).gio = s.gio := rfl
@[simp] theorem tookFrees_evr (n : Nat) (s : State) : (tookFrees n s).evr = s.evr := rfl
@[simp] theorem tookFrees_vlt (n : Nat) (s : State) : (tookFrees n s).vlt = s.vlt := rfl
@[simp] theorem tookFrees_cvu (n : Nat) (s : State) : (tookFrees n s).cvu = s.cvu := rfl
@[simp] theorem tookFrees_otp (n : Nat) (s : State) : (tookFrees n s).otp = s.otp := rfl

/-! ## writeBytes -/

@[simp] theorem writeBytes_pending (a : Nat) (bs : List Nat) (s : State) : (writeBytes a bs s).pending = s.pending := rfl
@[simp] theorem writeBytes_now (a : Nat) (bs : List Nat) (s : State) : (writeBytes a bs s).now = s.now := rfl
@[simp] theorem writeBytes_devTime (a : Nat) (bs : List Nat) (s : State) : (writeBytes a bs s).devTime = s.devTime := rfl
@[simp] theorem writeBytes_devFrac (a : Nat) (bs : List Nat) (s : State) : (writeBytes a bs s).devFrac = s.devFrac := rfl
@[simp] theorem writeBytes_free (a : Nat) (bs : List Nat) (s : State) : (writeBytes a bs s).free = s.free := rfl
@[simp] theorem writeBytes_busReply (a : Nat) (bs : List Nat) (s : State) : (writeBytes a bs s).busReply = s.busReply := rfl
@[simp] theorem writeBytes_regs (a : Nat) (bs : List Nat) (s : State) : (writeBytes a bs s).regs = s.regs := rfl
@[simp] theorem writeBytes_rdLatch (a : Nat) (bs : List Nat) (s : State) : (writeBytes a bs s).rdLatch = s.rdLatch := rfl
@[simp] theorem writeBytes_wrHold (a : Nat) (bs : List Nat) (s : State) : (writeBytes a bs s).wrHold = s.wrHold := rfl
@[simp] theorem writeBytes_chans (a : Nat) (bs : List Nat) (s : State) : (writeBytes a bs s).chans = s.chans := rfl
@[simp] theorem writeBytes_held (a : Nat) (bs : List Nat) (s : State) : (writeBytes a bs s).held = s.held := rfl
@[simp] theorem writeBytes_lockPtr (a : Nat) (bs : List Nat) (s : State) : (writeBytes a bs s).lockPtr = s.lockPtr := rfl
@[simp] theorem writeBytes_warden (a : Nat) (bs : List Nat) (s : State) : (writeBytes a bs s).warden = s.warden := rfl
@[simp] theorem writeBytes_harts (a : Nat) (bs : List Nat) (s : State) : (writeBytes a bs s).harts = s.harts := rfl
@[simp] theorem writeBytes_pld (a : Nat) (bs : List Nat) (s : State) : (writeBytes a bs s).pld = s.pld := rfl
@[simp] theorem writeBytes_resets (a : Nat) (bs : List Nat) (s : State) : (writeBytes a bs s).resets = s.resets := rfl
@[simp] theorem writeBytes_grants (a : Nat) (bs : List Nat) (s : State) : (writeBytes a bs s).grants = s.grants := rfl
@[simp] theorem writeBytes_touchGrants (a : Nat) (bs : List Nat) (s : State) : (writeBytes a bs s).touchGrants = s.touchGrants := rfl
@[simp] theorem writeBytes_budget (a : Nat) (bs : List Nat) (s : State) : (writeBytes a bs s).budget = s.budget := rfl
@[simp] theorem writeBytes_fabric (a : Nat) (bs : List Nat) (s : State) : (writeBytes a bs s).fabric = s.fabric := rfl
@[simp] theorem writeBytes_wakes (a : Nat) (bs : List Nat) (s : State) : (writeBytes a bs s).wakes = s.wakes := rfl
@[simp] theorem writeBytes_pci (a : Nat) (bs : List Nat) (s : State) : (writeBytes a bs s).pci = s.pci := rfl
@[simp] theorem writeBytes_pumpLast (a : Nat) (bs : List Nat) (s : State) : (writeBytes a bs s).pumpLast = s.pumpLast := rfl
@[simp] theorem writeBytes_dmc (a : Nat) (bs : List Nat) (s : State) : (writeBytes a bs s).dmc = s.dmc := rfl
@[simp] theorem writeBytes_dsp (a : Nat) (bs : List Nat) (s : State) : (writeBytes a bs s).dsp = s.dsp := rfl
@[simp] theorem writeBytes_gfx (a : Nat) (bs : List Nat) (s : State) : (writeBytes a bs s).gfx = s.gfx := rfl
@[simp] theorem writeBytes_vcd (a : Nat) (bs : List Nat) (s : State) : (writeBytes a bs s).vcd = s.vcd := rfl
@[simp] theorem writeBytes_net (a : Nat) (bs : List Nat) (s : State) : (writeBytes a bs s).net = s.net := rfl
@[simp] theorem writeBytes_aud (a : Nat) (bs : List Nat) (s : State) : (writeBytes a bs s).aud = s.aud := rfl
@[simp] theorem writeBytes_hap (a : Nat) (bs : List Nat) (s : State) : (writeBytes a bs s).hap = s.hap := rfl
@[simp] theorem writeBytes_tch (a : Nat) (bs : List Nat) (s : State) : (writeBytes a bs s).tch = s.tch := rfl
@[simp] theorem writeBytes_pwr (a : Nat) (bs : List Nat) (s : State) : (writeBytes a bs s).pwr = s.pwr := rfl
@[simp] theorem writeBytes_gio (a : Nat) (bs : List Nat) (s : State) : (writeBytes a bs s).gio = s.gio := rfl
@[simp] theorem writeBytes_evr (a : Nat) (bs : List Nat) (s : State) : (writeBytes a bs s).evr = s.evr := rfl
@[simp] theorem writeBytes_vlt (a : Nat) (bs : List Nat) (s : State) : (writeBytes a bs s).vlt = s.vlt := rfl
@[simp] theorem writeBytes_cvu (a : Nat) (bs : List Nat) (s : State) : (writeBytes a bs s).cvu = s.cvu := rfl
@[simp] theorem writeBytes_otp (a : Nat) (bs : List Nat) (s : State) : (writeBytes a bs s).otp = s.otp := rfl

/-! ## sendMsix -/

@[simp] theorem sendMsix_pending (v : Nat) (s : State) : (sendMsix v s).pending = s.pending := rfl
@[simp] theorem sendMsix_now (v : Nat) (s : State) : (sendMsix v s).now = s.now := rfl
@[simp] theorem sendMsix_devTime (v : Nat) (s : State) : (sendMsix v s).devTime = s.devTime := rfl
@[simp] theorem sendMsix_devFrac (v : Nat) (s : State) : (sendMsix v s).devFrac = s.devFrac := rfl
@[simp] theorem sendMsix_free (v : Nat) (s : State) : (sendMsix v s).free = s.free := rfl
@[simp] theorem sendMsix_busReply (v : Nat) (s : State) : (sendMsix v s).busReply = s.busReply := rfl
@[simp] theorem sendMsix_regs (v : Nat) (s : State) : (sendMsix v s).regs = s.regs := rfl
@[simp] theorem sendMsix_mem (v : Nat) (s : State) : (sendMsix v s).mem = s.mem := rfl
@[simp] theorem sendMsix_poison (v : Nat) (s : State) : (sendMsix v s).poison = s.poison := rfl
@[simp] theorem sendMsix_rdLatch (v : Nat) (s : State) : (sendMsix v s).rdLatch = s.rdLatch := rfl
@[simp] theorem sendMsix_wrHold (v : Nat) (s : State) : (sendMsix v s).wrHold = s.wrHold := rfl
@[simp] theorem sendMsix_chans (v : Nat) (s : State) : (sendMsix v s).chans = s.chans := rfl
@[simp] theorem sendMsix_held (v : Nat) (s : State) : (sendMsix v s).held = s.held := rfl
@[simp] theorem sendMsix_lockPtr (v : Nat) (s : State) : (sendMsix v s).lockPtr = s.lockPtr := rfl
@[simp] theorem sendMsix_warden (v : Nat) (s : State) : (sendMsix v s).warden = s.warden := rfl
@[simp] theorem sendMsix_harts (v : Nat) (s : State) : (sendMsix v s).harts = s.harts := rfl
@[simp] theorem sendMsix_pld (v : Nat) (s : State) : (sendMsix v s).pld = s.pld := rfl
@[simp] theorem sendMsix_resets (v : Nat) (s : State) : (sendMsix v s).resets = s.resets := rfl
@[simp] theorem sendMsix_grants (v : Nat) (s : State) : (sendMsix v s).grants = s.grants := rfl
@[simp] theorem sendMsix_touchGrants (v : Nat) (s : State) : (sendMsix v s).touchGrants = s.touchGrants := rfl
@[simp] theorem sendMsix_budget (v : Nat) (s : State) : (sendMsix v s).budget = s.budget := rfl
@[simp] theorem sendMsix_fabric (v : Nat) (s : State) : (sendMsix v s).fabric = s.fabric := rfl
@[simp] theorem sendMsix_wakes (v : Nat) (s : State) : (sendMsix v s).wakes = s.wakes := rfl
@[simp] theorem sendMsix_pumpLast (v : Nat) (s : State) : (sendMsix v s).pumpLast = s.pumpLast := rfl
@[simp] theorem sendMsix_dmc (v : Nat) (s : State) : (sendMsix v s).dmc = s.dmc := rfl
@[simp] theorem sendMsix_dsp (v : Nat) (s : State) : (sendMsix v s).dsp = s.dsp := rfl
@[simp] theorem sendMsix_gfx (v : Nat) (s : State) : (sendMsix v s).gfx = s.gfx := rfl
@[simp] theorem sendMsix_vcd (v : Nat) (s : State) : (sendMsix v s).vcd = s.vcd := rfl
@[simp] theorem sendMsix_net (v : Nat) (s : State) : (sendMsix v s).net = s.net := rfl
@[simp] theorem sendMsix_aud (v : Nat) (s : State) : (sendMsix v s).aud = s.aud := rfl
@[simp] theorem sendMsix_hap (v : Nat) (s : State) : (sendMsix v s).hap = s.hap := rfl
@[simp] theorem sendMsix_tch (v : Nat) (s : State) : (sendMsix v s).tch = s.tch := rfl
@[simp] theorem sendMsix_pwr (v : Nat) (s : State) : (sendMsix v s).pwr = s.pwr := rfl
@[simp] theorem sendMsix_gio (v : Nat) (s : State) : (sendMsix v s).gio = s.gio := rfl
@[simp] theorem sendMsix_evr (v : Nat) (s : State) : (sendMsix v s).evr = s.evr := rfl
@[simp] theorem sendMsix_vlt (v : Nat) (s : State) : (sendMsix v s).vlt = s.vlt := rfl
@[simp] theorem sendMsix_cvu (v : Nat) (s : State) : (sendMsix v s).cvu = s.cvu := rfl
@[simp] theorem sendMsix_otp (v : Nat) (s : State) : (sendMsix v s).otp = s.otp := rfl

/-! ## raise -/

@[simp] theorem raise_pending (e : RaisedEv) (s : State) : (raise e s).pending = s.pending := rfl
@[simp] theorem raise_now (e : RaisedEv) (s : State) : (raise e s).now = s.now := rfl
@[simp] theorem raise_devTime (e : RaisedEv) (s : State) : (raise e s).devTime = s.devTime := rfl
@[simp] theorem raise_devFrac (e : RaisedEv) (s : State) : (raise e s).devFrac = s.devFrac := rfl
@[simp] theorem raise_free (e : RaisedEv) (s : State) : (raise e s).free = s.free := rfl
@[simp] theorem raise_busReply (e : RaisedEv) (s : State) : (raise e s).busReply = s.busReply := rfl
@[simp] theorem raise_regs (e : RaisedEv) (s : State) : (raise e s).regs = s.regs := rfl
@[simp] theorem raise_mem (e : RaisedEv) (s : State) : (raise e s).mem = s.mem := rfl
@[simp] theorem raise_poison (e : RaisedEv) (s : State) : (raise e s).poison = s.poison := rfl
@[simp] theorem raise_rdLatch (e : RaisedEv) (s : State) : (raise e s).rdLatch = s.rdLatch := rfl
@[simp] theorem raise_wrHold (e : RaisedEv) (s : State) : (raise e s).wrHold = s.wrHold := rfl
@[simp] theorem raise_chans (e : RaisedEv) (s : State) : (raise e s).chans = s.chans := rfl
@[simp] theorem raise_held (e : RaisedEv) (s : State) : (raise e s).held = s.held := rfl
@[simp] theorem raise_lockPtr (e : RaisedEv) (s : State) : (raise e s).lockPtr = s.lockPtr := rfl
@[simp] theorem raise_warden (e : RaisedEv) (s : State) : (raise e s).warden = s.warden := rfl
@[simp] theorem raise_harts (e : RaisedEv) (s : State) : (raise e s).harts = s.harts := rfl
@[simp] theorem raise_pld (e : RaisedEv) (s : State) : (raise e s).pld = s.pld := rfl
@[simp] theorem raise_resets (e : RaisedEv) (s : State) : (raise e s).resets = s.resets := rfl
@[simp] theorem raise_grants (e : RaisedEv) (s : State) : (raise e s).grants = s.grants := rfl
@[simp] theorem raise_touchGrants (e : RaisedEv) (s : State) : (raise e s).touchGrants = s.touchGrants := rfl
@[simp] theorem raise_budget (e : RaisedEv) (s : State) : (raise e s).budget = s.budget := rfl
@[simp] theorem raise_fabric (e : RaisedEv) (s : State) : (raise e s).fabric = s.fabric := rfl
@[simp] theorem raise_wakes (e : RaisedEv) (s : State) : (raise e s).wakes = s.wakes := rfl
@[simp] theorem raise_pci (e : RaisedEv) (s : State) : (raise e s).pci = s.pci := rfl
@[simp] theorem raise_pumpLast (e : RaisedEv) (s : State) : (raise e s).pumpLast = s.pumpLast := rfl
@[simp] theorem raise_dmc (e : RaisedEv) (s : State) : (raise e s).dmc = s.dmc := rfl
@[simp] theorem raise_dsp (e : RaisedEv) (s : State) : (raise e s).dsp = s.dsp := rfl
@[simp] theorem raise_gfx (e : RaisedEv) (s : State) : (raise e s).gfx = s.gfx := rfl
@[simp] theorem raise_vcd (e : RaisedEv) (s : State) : (raise e s).vcd = s.vcd := rfl
@[simp] theorem raise_net (e : RaisedEv) (s : State) : (raise e s).net = s.net := rfl
@[simp] theorem raise_aud (e : RaisedEv) (s : State) : (raise e s).aud = s.aud := rfl
@[simp] theorem raise_hap (e : RaisedEv) (s : State) : (raise e s).hap = s.hap := rfl
@[simp] theorem raise_tch (e : RaisedEv) (s : State) : (raise e s).tch = s.tch := rfl
@[simp] theorem raise_pwr (e : RaisedEv) (s : State) : (raise e s).pwr = s.pwr := rfl
@[simp] theorem raise_gio (e : RaisedEv) (s : State) : (raise e s).gio = s.gio := rfl
@[simp] theorem raise_vlt (e : RaisedEv) (s : State) : (raise e s).vlt = s.vlt := rfl
@[simp] theorem raise_cvu (e : RaisedEv) (s : State) : (raise e s).cvu = s.cvu := rfl
@[simp] theorem raise_otp (e : RaisedEv) (s : State) : (raise e s).otp = s.otp := rfl

/-! ## setWeir -/

@[simp] theorem setWeir_pending (c : Nat) (w : Weir) (s : State) : (setWeir c w s).pending = s.pending := rfl
@[simp] theorem setWeir_now (c : Nat) (w : Weir) (s : State) : (setWeir c w s).now = s.now := rfl
@[simp] theorem setWeir_devTime (c : Nat) (w : Weir) (s : State) : (setWeir c w s).devTime = s.devTime := rfl
@[simp] theorem setWeir_devFrac (c : Nat) (w : Weir) (s : State) : (setWeir c w s).devFrac = s.devFrac := rfl
@[simp] theorem setWeir_free (c : Nat) (w : Weir) (s : State) : (setWeir c w s).free = s.free := rfl
@[simp] theorem setWeir_busReply (c : Nat) (w : Weir) (s : State) : (setWeir c w s).busReply = s.busReply := rfl
@[simp] theorem setWeir_regs (c : Nat) (w : Weir) (s : State) : (setWeir c w s).regs = s.regs := rfl
@[simp] theorem setWeir_mem (c : Nat) (w : Weir) (s : State) : (setWeir c w s).mem = s.mem := rfl
@[simp] theorem setWeir_poison (c : Nat) (w : Weir) (s : State) : (setWeir c w s).poison = s.poison := rfl
@[simp] theorem setWeir_rdLatch (c : Nat) (w : Weir) (s : State) : (setWeir c w s).rdLatch = s.rdLatch := rfl
@[simp] theorem setWeir_wrHold (c : Nat) (w : Weir) (s : State) : (setWeir c w s).wrHold = s.wrHold := rfl
@[simp] theorem setWeir_chans (c : Nat) (w : Weir) (s : State) : (setWeir c w s).chans = s.chans := rfl
@[simp] theorem setWeir_held (c : Nat) (w : Weir) (s : State) : (setWeir c w s).held = s.held := rfl
@[simp] theorem setWeir_lockPtr (c : Nat) (w : Weir) (s : State) : (setWeir c w s).lockPtr = s.lockPtr := rfl
@[simp] theorem setWeir_warden (c : Nat) (w : Weir) (s : State) : (setWeir c w s).warden = s.warden := rfl
@[simp] theorem setWeir_harts (c : Nat) (w : Weir) (s : State) : (setWeir c w s).harts = s.harts := rfl
@[simp] theorem setWeir_pld (c : Nat) (w : Weir) (s : State) : (setWeir c w s).pld = s.pld := rfl
@[simp] theorem setWeir_resets (c : Nat) (w : Weir) (s : State) : (setWeir c w s).resets = s.resets := rfl
@[simp] theorem setWeir_grants (c : Nat) (w : Weir) (s : State) : (setWeir c w s).grants = s.grants := rfl
@[simp] theorem setWeir_touchGrants (c : Nat) (w : Weir) (s : State) : (setWeir c w s).touchGrants = s.touchGrants := rfl
@[simp] theorem setWeir_budget (c : Nat) (w : Weir) (s : State) : (setWeir c w s).budget = s.budget := rfl
@[simp] theorem setWeir_fabric (c : Nat) (w : Weir) (s : State) : (setWeir c w s).fabric = s.fabric := rfl
@[simp] theorem setWeir_wakes (c : Nat) (w : Weir) (s : State) : (setWeir c w s).wakes = s.wakes := rfl
@[simp] theorem setWeir_pci (c : Nat) (w : Weir) (s : State) : (setWeir c w s).pci = s.pci := rfl
@[simp] theorem setWeir_pumpLast (c : Nat) (w : Weir) (s : State) : (setWeir c w s).pumpLast = s.pumpLast := rfl
@[simp] theorem setWeir_dmc (c : Nat) (w : Weir) (s : State) : (setWeir c w s).dmc = s.dmc := rfl
@[simp] theorem setWeir_dsp (c : Nat) (w : Weir) (s : State) : (setWeir c w s).dsp = s.dsp := rfl
@[simp] theorem setWeir_gfx (c : Nat) (w : Weir) (s : State) : (setWeir c w s).gfx = s.gfx := rfl
@[simp] theorem setWeir_vcd (c : Nat) (w : Weir) (s : State) : (setWeir c w s).vcd = s.vcd := rfl
@[simp] theorem setWeir_net (c : Nat) (w : Weir) (s : State) : (setWeir c w s).net = s.net := rfl
@[simp] theorem setWeir_aud (c : Nat) (w : Weir) (s : State) : (setWeir c w s).aud = s.aud := rfl
@[simp] theorem setWeir_hap (c : Nat) (w : Weir) (s : State) : (setWeir c w s).hap = s.hap := rfl
@[simp] theorem setWeir_tch (c : Nat) (w : Weir) (s : State) : (setWeir c w s).tch = s.tch := rfl
@[simp] theorem setWeir_pwr (c : Nat) (w : Weir) (s : State) : (setWeir c w s).pwr = s.pwr := rfl
@[simp] theorem setWeir_gio (c : Nat) (w : Weir) (s : State) : (setWeir c w s).gio = s.gio := rfl
@[simp] theorem setWeir_vlt (c : Nat) (w : Weir) (s : State) : (setWeir c w s).vlt = s.vlt := rfl
@[simp] theorem setWeir_cvu (c : Nat) (w : Weir) (s : State) : (setWeir c w s).cvu = s.cvu := rfl
@[simp] theorem setWeir_otp (c : Nat) (w : Weir) (s : State) : (setWeir c w s).otp = s.otp := rfl

/-! ## setArchive -/

@[simp] theorem setArchive_pending (f : Archive → Archive) (s : State) : (setArchive f s).pending = s.pending := rfl
@[simp] theorem setArchive_now (f : Archive → Archive) (s : State) : (setArchive f s).now = s.now := rfl
@[simp] theorem setArchive_devTime (f : Archive → Archive) (s : State) : (setArchive f s).devTime = s.devTime := rfl
@[simp] theorem setArchive_devFrac (f : Archive → Archive) (s : State) : (setArchive f s).devFrac = s.devFrac := rfl
@[simp] theorem setArchive_free (f : Archive → Archive) (s : State) : (setArchive f s).free = s.free := rfl
@[simp] theorem setArchive_busReply (f : Archive → Archive) (s : State) : (setArchive f s).busReply = s.busReply := rfl
@[simp] theorem setArchive_regs (f : Archive → Archive) (s : State) : (setArchive f s).regs = s.regs := rfl
@[simp] theorem setArchive_mem (f : Archive → Archive) (s : State) : (setArchive f s).mem = s.mem := rfl
@[simp] theorem setArchive_poison (f : Archive → Archive) (s : State) : (setArchive f s).poison = s.poison := rfl
@[simp] theorem setArchive_rdLatch (f : Archive → Archive) (s : State) : (setArchive f s).rdLatch = s.rdLatch := rfl
@[simp] theorem setArchive_wrHold (f : Archive → Archive) (s : State) : (setArchive f s).wrHold = s.wrHold := rfl
@[simp] theorem setArchive_chans (f : Archive → Archive) (s : State) : (setArchive f s).chans = s.chans := rfl
@[simp] theorem setArchive_held (f : Archive → Archive) (s : State) : (setArchive f s).held = s.held := rfl
@[simp] theorem setArchive_lockPtr (f : Archive → Archive) (s : State) : (setArchive f s).lockPtr = s.lockPtr := rfl
@[simp] theorem setArchive_warden (f : Archive → Archive) (s : State) : (setArchive f s).warden = s.warden := rfl
@[simp] theorem setArchive_harts (f : Archive → Archive) (s : State) : (setArchive f s).harts = s.harts := rfl
@[simp] theorem setArchive_pld (f : Archive → Archive) (s : State) : (setArchive f s).pld = s.pld := rfl
@[simp] theorem setArchive_resets (f : Archive → Archive) (s : State) : (setArchive f s).resets = s.resets := rfl
@[simp] theorem setArchive_grants (f : Archive → Archive) (s : State) : (setArchive f s).grants = s.grants := rfl
@[simp] theorem setArchive_touchGrants (f : Archive → Archive) (s : State) : (setArchive f s).touchGrants = s.touchGrants := rfl
@[simp] theorem setArchive_budget (f : Archive → Archive) (s : State) : (setArchive f s).budget = s.budget := rfl
@[simp] theorem setArchive_fabric (f : Archive → Archive) (s : State) : (setArchive f s).fabric = s.fabric := rfl
@[simp] theorem setArchive_wakes (f : Archive → Archive) (s : State) : (setArchive f s).wakes = s.wakes := rfl
@[simp] theorem setArchive_pci (f : Archive → Archive) (s : State) : (setArchive f s).pci = s.pci := rfl
@[simp] theorem setArchive_pumpLast (f : Archive → Archive) (s : State) : (setArchive f s).pumpLast = s.pumpLast := rfl
@[simp] theorem setArchive_dmc (f : Archive → Archive) (s : State) : (setArchive f s).dmc = s.dmc := rfl
@[simp] theorem setArchive_dsp (f : Archive → Archive) (s : State) : (setArchive f s).dsp = s.dsp := rfl
@[simp] theorem setArchive_gfx (f : Archive → Archive) (s : State) : (setArchive f s).gfx = s.gfx := rfl
@[simp] theorem setArchive_vcd (f : Archive → Archive) (s : State) : (setArchive f s).vcd = s.vcd := rfl
@[simp] theorem setArchive_net (f : Archive → Archive) (s : State) : (setArchive f s).net = s.net := rfl
@[simp] theorem setArchive_aud (f : Archive → Archive) (s : State) : (setArchive f s).aud = s.aud := rfl
@[simp] theorem setArchive_hap (f : Archive → Archive) (s : State) : (setArchive f s).hap = s.hap := rfl
@[simp] theorem setArchive_tch (f : Archive → Archive) (s : State) : (setArchive f s).tch = s.tch := rfl
@[simp] theorem setArchive_pwr (f : Archive → Archive) (s : State) : (setArchive f s).pwr = s.pwr := rfl
@[simp] theorem setArchive_gio (f : Archive → Archive) (s : State) : (setArchive f s).gio = s.gio := rfl
@[simp] theorem setArchive_vlt (f : Archive → Archive) (s : State) : (setArchive f s).vlt = s.vlt := rfl
@[simp] theorem setArchive_cvu (f : Archive → Archive) (s : State) : (setArchive f s).cvu = s.cvu := rfl
@[simp] theorem setArchive_otp (f : Archive → Archive) (s : State) : (setArchive f s).otp = s.otp := rfl

/-! ## setOut -/

@[simp] theorem setOut_pending (n : Nat) (v : OutSt) (s : State) : (setOut n v s).pending = s.pending := rfl
@[simp] theorem setOut_now (n : Nat) (v : OutSt) (s : State) : (setOut n v s).now = s.now := rfl
@[simp] theorem setOut_devTime (n : Nat) (v : OutSt) (s : State) : (setOut n v s).devTime = s.devTime := rfl
@[simp] theorem setOut_devFrac (n : Nat) (v : OutSt) (s : State) : (setOut n v s).devFrac = s.devFrac := rfl
@[simp] theorem setOut_free (n : Nat) (v : OutSt) (s : State) : (setOut n v s).free = s.free := rfl
@[simp] theorem setOut_busReply (n : Nat) (v : OutSt) (s : State) : (setOut n v s).busReply = s.busReply := rfl
@[simp] theorem setOut_regs (n : Nat) (v : OutSt) (s : State) : (setOut n v s).regs = s.regs := rfl
@[simp] theorem setOut_mem (n : Nat) (v : OutSt) (s : State) : (setOut n v s).mem = s.mem := rfl
@[simp] theorem setOut_poison (n : Nat) (v : OutSt) (s : State) : (setOut n v s).poison = s.poison := rfl
@[simp] theorem setOut_rdLatch (n : Nat) (v : OutSt) (s : State) : (setOut n v s).rdLatch = s.rdLatch := rfl
@[simp] theorem setOut_wrHold (n : Nat) (v : OutSt) (s : State) : (setOut n v s).wrHold = s.wrHold := rfl
@[simp] theorem setOut_chans (n : Nat) (v : OutSt) (s : State) : (setOut n v s).chans = s.chans := rfl
@[simp] theorem setOut_held (n : Nat) (v : OutSt) (s : State) : (setOut n v s).held = s.held := rfl
@[simp] theorem setOut_lockPtr (n : Nat) (v : OutSt) (s : State) : (setOut n v s).lockPtr = s.lockPtr := rfl
@[simp] theorem setOut_warden (n : Nat) (v : OutSt) (s : State) : (setOut n v s).warden = s.warden := rfl
@[simp] theorem setOut_harts (n : Nat) (v : OutSt) (s : State) : (setOut n v s).harts = s.harts := rfl
@[simp] theorem setOut_pld (n : Nat) (v : OutSt) (s : State) : (setOut n v s).pld = s.pld := rfl
@[simp] theorem setOut_resets (n : Nat) (v : OutSt) (s : State) : (setOut n v s).resets = s.resets := rfl
@[simp] theorem setOut_grants (n : Nat) (v : OutSt) (s : State) : (setOut n v s).grants = s.grants := rfl
@[simp] theorem setOut_touchGrants (n : Nat) (v : OutSt) (s : State) : (setOut n v s).touchGrants = s.touchGrants := rfl
@[simp] theorem setOut_budget (n : Nat) (v : OutSt) (s : State) : (setOut n v s).budget = s.budget := rfl
@[simp] theorem setOut_fabric (n : Nat) (v : OutSt) (s : State) : (setOut n v s).fabric = s.fabric := rfl
@[simp] theorem setOut_wakes (n : Nat) (v : OutSt) (s : State) : (setOut n v s).wakes = s.wakes := rfl
@[simp] theorem setOut_pci (n : Nat) (v : OutSt) (s : State) : (setOut n v s).pci = s.pci := rfl
@[simp] theorem setOut_pumpLast (n : Nat) (v : OutSt) (s : State) : (setOut n v s).pumpLast = s.pumpLast := rfl
@[simp] theorem setOut_dmc (n : Nat) (v : OutSt) (s : State) : (setOut n v s).dmc = s.dmc := rfl
@[simp] theorem setOut_gfx (n : Nat) (v : OutSt) (s : State) : (setOut n v s).gfx = s.gfx := rfl
@[simp] theorem setOut_vcd (n : Nat) (v : OutSt) (s : State) : (setOut n v s).vcd = s.vcd := rfl
@[simp] theorem setOut_net (n : Nat) (v : OutSt) (s : State) : (setOut n v s).net = s.net := rfl
@[simp] theorem setOut_aud (n : Nat) (v : OutSt) (s : State) : (setOut n v s).aud = s.aud := rfl
@[simp] theorem setOut_hap (n : Nat) (v : OutSt) (s : State) : (setOut n v s).hap = s.hap := rfl
@[simp] theorem setOut_tch (n : Nat) (v : OutSt) (s : State) : (setOut n v s).tch = s.tch := rfl
@[simp] theorem setOut_pwr (n : Nat) (v : OutSt) (s : State) : (setOut n v s).pwr = s.pwr := rfl
@[simp] theorem setOut_gio (n : Nat) (v : OutSt) (s : State) : (setOut n v s).gio = s.gio := rfl
@[simp] theorem setOut_evr (n : Nat) (v : OutSt) (s : State) : (setOut n v s).evr = s.evr := rfl
@[simp] theorem setOut_vlt (n : Nat) (v : OutSt) (s : State) : (setOut n v s).vlt = s.vlt := rfl
@[simp] theorem setOut_cvu (n : Nat) (v : OutSt) (s : State) : (setOut n v s).cvu = s.cvu := rfl
@[simp] theorem setOut_otp (n : Nat) (v : OutSt) (s : State) : (setOut n v s).otp = s.otp := rfl

/-! ## setSlot -/

@[simp] theorem setSlot_pending (n : Nat) (v : SlotSt) (s : State) : (setSlot n v s).pending = s.pending := rfl
@[simp] theorem setSlot_now (n : Nat) (v : SlotSt) (s : State) : (setSlot n v s).now = s.now := rfl
@[simp] theorem setSlot_devTime (n : Nat) (v : SlotSt) (s : State) : (setSlot n v s).devTime = s.devTime := rfl
@[simp] theorem setSlot_devFrac (n : Nat) (v : SlotSt) (s : State) : (setSlot n v s).devFrac = s.devFrac := rfl
@[simp] theorem setSlot_free (n : Nat) (v : SlotSt) (s : State) : (setSlot n v s).free = s.free := rfl
@[simp] theorem setSlot_busReply (n : Nat) (v : SlotSt) (s : State) : (setSlot n v s).busReply = s.busReply := rfl
@[simp] theorem setSlot_regs (n : Nat) (v : SlotSt) (s : State) : (setSlot n v s).regs = s.regs := rfl
@[simp] theorem setSlot_mem (n : Nat) (v : SlotSt) (s : State) : (setSlot n v s).mem = s.mem := rfl
@[simp] theorem setSlot_poison (n : Nat) (v : SlotSt) (s : State) : (setSlot n v s).poison = s.poison := rfl
@[simp] theorem setSlot_rdLatch (n : Nat) (v : SlotSt) (s : State) : (setSlot n v s).rdLatch = s.rdLatch := rfl
@[simp] theorem setSlot_wrHold (n : Nat) (v : SlotSt) (s : State) : (setSlot n v s).wrHold = s.wrHold := rfl
@[simp] theorem setSlot_chans (n : Nat) (v : SlotSt) (s : State) : (setSlot n v s).chans = s.chans := rfl
@[simp] theorem setSlot_held (n : Nat) (v : SlotSt) (s : State) : (setSlot n v s).held = s.held := rfl
@[simp] theorem setSlot_lockPtr (n : Nat) (v : SlotSt) (s : State) : (setSlot n v s).lockPtr = s.lockPtr := rfl
@[simp] theorem setSlot_warden (n : Nat) (v : SlotSt) (s : State) : (setSlot n v s).warden = s.warden := rfl
@[simp] theorem setSlot_harts (n : Nat) (v : SlotSt) (s : State) : (setSlot n v s).harts = s.harts := rfl
@[simp] theorem setSlot_pld (n : Nat) (v : SlotSt) (s : State) : (setSlot n v s).pld = s.pld := rfl
@[simp] theorem setSlot_resets (n : Nat) (v : SlotSt) (s : State) : (setSlot n v s).resets = s.resets := rfl
@[simp] theorem setSlot_grants (n : Nat) (v : SlotSt) (s : State) : (setSlot n v s).grants = s.grants := rfl
@[simp] theorem setSlot_touchGrants (n : Nat) (v : SlotSt) (s : State) : (setSlot n v s).touchGrants = s.touchGrants := rfl
@[simp] theorem setSlot_budget (n : Nat) (v : SlotSt) (s : State) : (setSlot n v s).budget = s.budget := rfl
@[simp] theorem setSlot_fabric (n : Nat) (v : SlotSt) (s : State) : (setSlot n v s).fabric = s.fabric := rfl
@[simp] theorem setSlot_wakes (n : Nat) (v : SlotSt) (s : State) : (setSlot n v s).wakes = s.wakes := rfl
@[simp] theorem setSlot_pci (n : Nat) (v : SlotSt) (s : State) : (setSlot n v s).pci = s.pci := rfl
@[simp] theorem setSlot_pumpLast (n : Nat) (v : SlotSt) (s : State) : (setSlot n v s).pumpLast = s.pumpLast := rfl
@[simp] theorem setSlot_dmc (n : Nat) (v : SlotSt) (s : State) : (setSlot n v s).dmc = s.dmc := rfl
@[simp] theorem setSlot_gfx (n : Nat) (v : SlotSt) (s : State) : (setSlot n v s).gfx = s.gfx := rfl
@[simp] theorem setSlot_vcd (n : Nat) (v : SlotSt) (s : State) : (setSlot n v s).vcd = s.vcd := rfl
@[simp] theorem setSlot_net (n : Nat) (v : SlotSt) (s : State) : (setSlot n v s).net = s.net := rfl
@[simp] theorem setSlot_aud (n : Nat) (v : SlotSt) (s : State) : (setSlot n v s).aud = s.aud := rfl
@[simp] theorem setSlot_hap (n : Nat) (v : SlotSt) (s : State) : (setSlot n v s).hap = s.hap := rfl
@[simp] theorem setSlot_tch (n : Nat) (v : SlotSt) (s : State) : (setSlot n v s).tch = s.tch := rfl
@[simp] theorem setSlot_pwr (n : Nat) (v : SlotSt) (s : State) : (setSlot n v s).pwr = s.pwr := rfl
@[simp] theorem setSlot_gio (n : Nat) (v : SlotSt) (s : State) : (setSlot n v s).gio = s.gio := rfl
@[simp] theorem setSlot_evr (n : Nat) (v : SlotSt) (s : State) : (setSlot n v s).evr = s.evr := rfl
@[simp] theorem setSlot_vlt (n : Nat) (v : SlotSt) (s : State) : (setSlot n v s).vlt = s.vlt := rfl
@[simp] theorem setSlot_cvu (n : Nat) (v : SlotSt) (s : State) : (setSlot n v s).cvu = s.cvu := rfl
@[simp] theorem setSlot_otp (n : Nat) (v : SlotSt) (s : State) : (setSlot n v s).otp = s.otp := rfl

/-! ## setTile -/

@[simp] theorem setTile_pending (n b t : Nat) (v : Tile) (s : State) : (setTile n b t v s).pending = s.pending := rfl
@[simp] theorem setTile_now (n b t : Nat) (v : Tile) (s : State) : (setTile n b t v s).now = s.now := rfl
@[simp] theorem setTile_devTime (n b t : Nat) (v : Tile) (s : State) : (setTile n b t v s).devTime = s.devTime := rfl
@[simp] theorem setTile_devFrac (n b t : Nat) (v : Tile) (s : State) : (setTile n b t v s).devFrac = s.devFrac := rfl
@[simp] theorem setTile_free (n b t : Nat) (v : Tile) (s : State) : (setTile n b t v s).free = s.free := rfl
@[simp] theorem setTile_busReply (n b t : Nat) (v : Tile) (s : State) : (setTile n b t v s).busReply = s.busReply := rfl
@[simp] theorem setTile_regs (n b t : Nat) (v : Tile) (s : State) : (setTile n b t v s).regs = s.regs := rfl
@[simp] theorem setTile_mem (n b t : Nat) (v : Tile) (s : State) : (setTile n b t v s).mem = s.mem := rfl
@[simp] theorem setTile_poison (n b t : Nat) (v : Tile) (s : State) : (setTile n b t v s).poison = s.poison := rfl
@[simp] theorem setTile_rdLatch (n b t : Nat) (v : Tile) (s : State) : (setTile n b t v s).rdLatch = s.rdLatch := rfl
@[simp] theorem setTile_wrHold (n b t : Nat) (v : Tile) (s : State) : (setTile n b t v s).wrHold = s.wrHold := rfl
@[simp] theorem setTile_chans (n b t : Nat) (v : Tile) (s : State) : (setTile n b t v s).chans = s.chans := rfl
@[simp] theorem setTile_held (n b t : Nat) (v : Tile) (s : State) : (setTile n b t v s).held = s.held := rfl
@[simp] theorem setTile_lockPtr (n b t : Nat) (v : Tile) (s : State) : (setTile n b t v s).lockPtr = s.lockPtr := rfl
@[simp] theorem setTile_warden (n b t : Nat) (v : Tile) (s : State) : (setTile n b t v s).warden = s.warden := rfl
@[simp] theorem setTile_harts (n b t : Nat) (v : Tile) (s : State) : (setTile n b t v s).harts = s.harts := rfl
@[simp] theorem setTile_pld (n b t : Nat) (v : Tile) (s : State) : (setTile n b t v s).pld = s.pld := rfl
@[simp] theorem setTile_resets (n b t : Nat) (v : Tile) (s : State) : (setTile n b t v s).resets = s.resets := rfl
@[simp] theorem setTile_grants (n b t : Nat) (v : Tile) (s : State) : (setTile n b t v s).grants = s.grants := rfl
@[simp] theorem setTile_touchGrants (n b t : Nat) (v : Tile) (s : State) : (setTile n b t v s).touchGrants = s.touchGrants := rfl
@[simp] theorem setTile_budget (n b t : Nat) (v : Tile) (s : State) : (setTile n b t v s).budget = s.budget := rfl
@[simp] theorem setTile_fabric (n b t : Nat) (v : Tile) (s : State) : (setTile n b t v s).fabric = s.fabric := rfl
@[simp] theorem setTile_wakes (n b t : Nat) (v : Tile) (s : State) : (setTile n b t v s).wakes = s.wakes := rfl
@[simp] theorem setTile_pci (n b t : Nat) (v : Tile) (s : State) : (setTile n b t v s).pci = s.pci := rfl
@[simp] theorem setTile_pumpLast (n b t : Nat) (v : Tile) (s : State) : (setTile n b t v s).pumpLast = s.pumpLast := rfl
@[simp] theorem setTile_dmc (n b t : Nat) (v : Tile) (s : State) : (setTile n b t v s).dmc = s.dmc := rfl
@[simp] theorem setTile_gfx (n b t : Nat) (v : Tile) (s : State) : (setTile n b t v s).gfx = s.gfx := rfl
@[simp] theorem setTile_vcd (n b t : Nat) (v : Tile) (s : State) : (setTile n b t v s).vcd = s.vcd := rfl
@[simp] theorem setTile_net (n b t : Nat) (v : Tile) (s : State) : (setTile n b t v s).net = s.net := rfl
@[simp] theorem setTile_aud (n b t : Nat) (v : Tile) (s : State) : (setTile n b t v s).aud = s.aud := rfl
@[simp] theorem setTile_hap (n b t : Nat) (v : Tile) (s : State) : (setTile n b t v s).hap = s.hap := rfl
@[simp] theorem setTile_tch (n b t : Nat) (v : Tile) (s : State) : (setTile n b t v s).tch = s.tch := rfl
@[simp] theorem setTile_pwr (n b t : Nat) (v : Tile) (s : State) : (setTile n b t v s).pwr = s.pwr := rfl
@[simp] theorem setTile_gio (n b t : Nat) (v : Tile) (s : State) : (setTile n b t v s).gio = s.gio := rfl
@[simp] theorem setTile_evr (n b t : Nat) (v : Tile) (s : State) : (setTile n b t v s).evr = s.evr := rfl
@[simp] theorem setTile_vlt (n b t : Nat) (v : Tile) (s : State) : (setTile n b t v s).vlt = s.vlt := rfl
@[simp] theorem setTile_cvu (n b t : Nat) (v : Tile) (s : State) : (setTile n b t v s).cvu = s.cvu := rfl
@[simp] theorem setTile_otp (n b t : Nat) (v : Tile) (s : State) : (setTile n b t v s).otp = s.otp := rfl

/-! ## setPool -/

@[simp] theorem setPool_pending (n g t : Nat) (v : PoolEntry) (s : State) : (setPool n g t v s).pending = s.pending := rfl
@[simp] theorem setPool_now (n g t : Nat) (v : PoolEntry) (s : State) : (setPool n g t v s).now = s.now := rfl
@[simp] theorem setPool_devTime (n g t : Nat) (v : PoolEntry) (s : State) : (setPool n g t v s).devTime = s.devTime := rfl
@[simp] theorem setPool_devFrac (n g t : Nat) (v : PoolEntry) (s : State) : (setPool n g t v s).devFrac = s.devFrac := rfl
@[simp] theorem setPool_free (n g t : Nat) (v : PoolEntry) (s : State) : (setPool n g t v s).free = s.free := rfl
@[simp] theorem setPool_busReply (n g t : Nat) (v : PoolEntry) (s : State) : (setPool n g t v s).busReply = s.busReply := rfl
@[simp] theorem setPool_regs (n g t : Nat) (v : PoolEntry) (s : State) : (setPool n g t v s).regs = s.regs := rfl
@[simp] theorem setPool_mem (n g t : Nat) (v : PoolEntry) (s : State) : (setPool n g t v s).mem = s.mem := rfl
@[simp] theorem setPool_poison (n g t : Nat) (v : PoolEntry) (s : State) : (setPool n g t v s).poison = s.poison := rfl
@[simp] theorem setPool_rdLatch (n g t : Nat) (v : PoolEntry) (s : State) : (setPool n g t v s).rdLatch = s.rdLatch := rfl
@[simp] theorem setPool_wrHold (n g t : Nat) (v : PoolEntry) (s : State) : (setPool n g t v s).wrHold = s.wrHold := rfl
@[simp] theorem setPool_chans (n g t : Nat) (v : PoolEntry) (s : State) : (setPool n g t v s).chans = s.chans := rfl
@[simp] theorem setPool_held (n g t : Nat) (v : PoolEntry) (s : State) : (setPool n g t v s).held = s.held := rfl
@[simp] theorem setPool_lockPtr (n g t : Nat) (v : PoolEntry) (s : State) : (setPool n g t v s).lockPtr = s.lockPtr := rfl
@[simp] theorem setPool_warden (n g t : Nat) (v : PoolEntry) (s : State) : (setPool n g t v s).warden = s.warden := rfl
@[simp] theorem setPool_harts (n g t : Nat) (v : PoolEntry) (s : State) : (setPool n g t v s).harts = s.harts := rfl
@[simp] theorem setPool_pld (n g t : Nat) (v : PoolEntry) (s : State) : (setPool n g t v s).pld = s.pld := rfl
@[simp] theorem setPool_resets (n g t : Nat) (v : PoolEntry) (s : State) : (setPool n g t v s).resets = s.resets := rfl
@[simp] theorem setPool_grants (n g t : Nat) (v : PoolEntry) (s : State) : (setPool n g t v s).grants = s.grants := rfl
@[simp] theorem setPool_touchGrants (n g t : Nat) (v : PoolEntry) (s : State) : (setPool n g t v s).touchGrants = s.touchGrants := rfl
@[simp] theorem setPool_budget (n g t : Nat) (v : PoolEntry) (s : State) : (setPool n g t v s).budget = s.budget := rfl
@[simp] theorem setPool_fabric (n g t : Nat) (v : PoolEntry) (s : State) : (setPool n g t v s).fabric = s.fabric := rfl
@[simp] theorem setPool_wakes (n g t : Nat) (v : PoolEntry) (s : State) : (setPool n g t v s).wakes = s.wakes := rfl
@[simp] theorem setPool_pci (n g t : Nat) (v : PoolEntry) (s : State) : (setPool n g t v s).pci = s.pci := rfl
@[simp] theorem setPool_pumpLast (n g t : Nat) (v : PoolEntry) (s : State) : (setPool n g t v s).pumpLast = s.pumpLast := rfl
@[simp] theorem setPool_dmc (n g t : Nat) (v : PoolEntry) (s : State) : (setPool n g t v s).dmc = s.dmc := rfl
@[simp] theorem setPool_gfx (n g t : Nat) (v : PoolEntry) (s : State) : (setPool n g t v s).gfx = s.gfx := rfl
@[simp] theorem setPool_vcd (n g t : Nat) (v : PoolEntry) (s : State) : (setPool n g t v s).vcd = s.vcd := rfl
@[simp] theorem setPool_net (n g t : Nat) (v : PoolEntry) (s : State) : (setPool n g t v s).net = s.net := rfl
@[simp] theorem setPool_aud (n g t : Nat) (v : PoolEntry) (s : State) : (setPool n g t v s).aud = s.aud := rfl
@[simp] theorem setPool_hap (n g t : Nat) (v : PoolEntry) (s : State) : (setPool n g t v s).hap = s.hap := rfl
@[simp] theorem setPool_tch (n g t : Nat) (v : PoolEntry) (s : State) : (setPool n g t v s).tch = s.tch := rfl
@[simp] theorem setPool_pwr (n g t : Nat) (v : PoolEntry) (s : State) : (setPool n g t v s).pwr = s.pwr := rfl
@[simp] theorem setPool_gio (n g t : Nat) (v : PoolEntry) (s : State) : (setPool n g t v s).gio = s.gio := rfl
@[simp] theorem setPool_evr (n g t : Nat) (v : PoolEntry) (s : State) : (setPool n g t v s).evr = s.evr := rfl
@[simp] theorem setPool_vlt (n g t : Nat) (v : PoolEntry) (s : State) : (setPool n g t v s).vlt = s.vlt := rfl
@[simp] theorem setPool_cvu (n g t : Nat) (v : PoolEntry) (s : State) : (setPool n g t v s).cvu = s.cvu := rfl
@[simp] theorem setPool_otp (n g t : Nat) (v : PoolEntry) (s : State) : (setPool n g t v s).otp = s.otp := rfl

/-! ## setCvu -/

@[simp] theorem setCvu_pending (c : Nat) (j : Option CvuJob) (s : State) : (setCvu c j s).pending = s.pending := rfl
@[simp] theorem setCvu_now (c : Nat) (j : Option CvuJob) (s : State) : (setCvu c j s).now = s.now := rfl
@[simp] theorem setCvu_devTime (c : Nat) (j : Option CvuJob) (s : State) : (setCvu c j s).devTime = s.devTime := rfl
@[simp] theorem setCvu_devFrac (c : Nat) (j : Option CvuJob) (s : State) : (setCvu c j s).devFrac = s.devFrac := rfl
@[simp] theorem setCvu_free (c : Nat) (j : Option CvuJob) (s : State) : (setCvu c j s).free = s.free := rfl
@[simp] theorem setCvu_busReply (c : Nat) (j : Option CvuJob) (s : State) : (setCvu c j s).busReply = s.busReply := rfl
@[simp] theorem setCvu_regs (c : Nat) (j : Option CvuJob) (s : State) : (setCvu c j s).regs = s.regs := rfl
@[simp] theorem setCvu_mem (c : Nat) (j : Option CvuJob) (s : State) : (setCvu c j s).mem = s.mem := rfl
@[simp] theorem setCvu_poison (c : Nat) (j : Option CvuJob) (s : State) : (setCvu c j s).poison = s.poison := rfl
@[simp] theorem setCvu_rdLatch (c : Nat) (j : Option CvuJob) (s : State) : (setCvu c j s).rdLatch = s.rdLatch := rfl
@[simp] theorem setCvu_wrHold (c : Nat) (j : Option CvuJob) (s : State) : (setCvu c j s).wrHold = s.wrHold := rfl
@[simp] theorem setCvu_chans (c : Nat) (j : Option CvuJob) (s : State) : (setCvu c j s).chans = s.chans := rfl
@[simp] theorem setCvu_held (c : Nat) (j : Option CvuJob) (s : State) : (setCvu c j s).held = s.held := rfl
@[simp] theorem setCvu_lockPtr (c : Nat) (j : Option CvuJob) (s : State) : (setCvu c j s).lockPtr = s.lockPtr := rfl
@[simp] theorem setCvu_warden (c : Nat) (j : Option CvuJob) (s : State) : (setCvu c j s).warden = s.warden := rfl
@[simp] theorem setCvu_harts (c : Nat) (j : Option CvuJob) (s : State) : (setCvu c j s).harts = s.harts := rfl
@[simp] theorem setCvu_pld (c : Nat) (j : Option CvuJob) (s : State) : (setCvu c j s).pld = s.pld := rfl
@[simp] theorem setCvu_resets (c : Nat) (j : Option CvuJob) (s : State) : (setCvu c j s).resets = s.resets := rfl
@[simp] theorem setCvu_grants (c : Nat) (j : Option CvuJob) (s : State) : (setCvu c j s).grants = s.grants := rfl
@[simp] theorem setCvu_touchGrants (c : Nat) (j : Option CvuJob) (s : State) : (setCvu c j s).touchGrants = s.touchGrants := rfl
@[simp] theorem setCvu_budget (c : Nat) (j : Option CvuJob) (s : State) : (setCvu c j s).budget = s.budget := rfl
@[simp] theorem setCvu_fabric (c : Nat) (j : Option CvuJob) (s : State) : (setCvu c j s).fabric = s.fabric := rfl
@[simp] theorem setCvu_wakes (c : Nat) (j : Option CvuJob) (s : State) : (setCvu c j s).wakes = s.wakes := rfl
@[simp] theorem setCvu_pci (c : Nat) (j : Option CvuJob) (s : State) : (setCvu c j s).pci = s.pci := rfl
@[simp] theorem setCvu_pumpLast (c : Nat) (j : Option CvuJob) (s : State) : (setCvu c j s).pumpLast = s.pumpLast := rfl
@[simp] theorem setCvu_dmc (c : Nat) (j : Option CvuJob) (s : State) : (setCvu c j s).dmc = s.dmc := rfl
@[simp] theorem setCvu_dsp (c : Nat) (j : Option CvuJob) (s : State) : (setCvu c j s).dsp = s.dsp := rfl
@[simp] theorem setCvu_gfx (c : Nat) (j : Option CvuJob) (s : State) : (setCvu c j s).gfx = s.gfx := rfl
@[simp] theorem setCvu_vcd (c : Nat) (j : Option CvuJob) (s : State) : (setCvu c j s).vcd = s.vcd := rfl
@[simp] theorem setCvu_net (c : Nat) (j : Option CvuJob) (s : State) : (setCvu c j s).net = s.net := rfl
@[simp] theorem setCvu_aud (c : Nat) (j : Option CvuJob) (s : State) : (setCvu c j s).aud = s.aud := rfl
@[simp] theorem setCvu_hap (c : Nat) (j : Option CvuJob) (s : State) : (setCvu c j s).hap = s.hap := rfl
@[simp] theorem setCvu_tch (c : Nat) (j : Option CvuJob) (s : State) : (setCvu c j s).tch = s.tch := rfl
@[simp] theorem setCvu_pwr (c : Nat) (j : Option CvuJob) (s : State) : (setCvu c j s).pwr = s.pwr := rfl
@[simp] theorem setCvu_gio (c : Nat) (j : Option CvuJob) (s : State) : (setCvu c j s).gio = s.gio := rfl
@[simp] theorem setCvu_evr (c : Nat) (j : Option CvuJob) (s : State) : (setCvu c j s).evr = s.evr := rfl
@[simp] theorem setCvu_vlt (c : Nat) (j : Option CvuJob) (s : State) : (setCvu c j s).vlt = s.vlt := rfl
@[simp] theorem setCvu_cvu (c : Nat) (j : Option CvuJob) (s : State) : (setCvu c j s).cvu = s.cvu.put c j := rfl
@[simp] theorem setCvu_otp (c : Nat) (j : Option CvuJob) (s : State) : (setCvu c j s).otp = s.otp := rfl

/-! ## setHap -/

@[simp] theorem setHap_pending (c : Nat) (v : HapCh) (s : State) : (setHap c v s).pending = s.pending := rfl
@[simp] theorem setHap_now (c : Nat) (v : HapCh) (s : State) : (setHap c v s).now = s.now := rfl
@[simp] theorem setHap_devTime (c : Nat) (v : HapCh) (s : State) : (setHap c v s).devTime = s.devTime := rfl
@[simp] theorem setHap_devFrac (c : Nat) (v : HapCh) (s : State) : (setHap c v s).devFrac = s.devFrac := rfl
@[simp] theorem setHap_free (c : Nat) (v : HapCh) (s : State) : (setHap c v s).free = s.free := rfl
@[simp] theorem setHap_busReply (c : Nat) (v : HapCh) (s : State) : (setHap c v s).busReply = s.busReply := rfl
@[simp] theorem setHap_regs (c : Nat) (v : HapCh) (s : State) : (setHap c v s).regs = s.regs := rfl
@[simp] theorem setHap_mem (c : Nat) (v : HapCh) (s : State) : (setHap c v s).mem = s.mem := rfl
@[simp] theorem setHap_poison (c : Nat) (v : HapCh) (s : State) : (setHap c v s).poison = s.poison := rfl
@[simp] theorem setHap_rdLatch (c : Nat) (v : HapCh) (s : State) : (setHap c v s).rdLatch = s.rdLatch := rfl
@[simp] theorem setHap_wrHold (c : Nat) (v : HapCh) (s : State) : (setHap c v s).wrHold = s.wrHold := rfl
@[simp] theorem setHap_chans (c : Nat) (v : HapCh) (s : State) : (setHap c v s).chans = s.chans := rfl
@[simp] theorem setHap_held (c : Nat) (v : HapCh) (s : State) : (setHap c v s).held = s.held := rfl
@[simp] theorem setHap_lockPtr (c : Nat) (v : HapCh) (s : State) : (setHap c v s).lockPtr = s.lockPtr := rfl
@[simp] theorem setHap_warden (c : Nat) (v : HapCh) (s : State) : (setHap c v s).warden = s.warden := rfl
@[simp] theorem setHap_harts (c : Nat) (v : HapCh) (s : State) : (setHap c v s).harts = s.harts := rfl
@[simp] theorem setHap_pld (c : Nat) (v : HapCh) (s : State) : (setHap c v s).pld = s.pld := rfl
@[simp] theorem setHap_resets (c : Nat) (v : HapCh) (s : State) : (setHap c v s).resets = s.resets := rfl
@[simp] theorem setHap_grants (c : Nat) (v : HapCh) (s : State) : (setHap c v s).grants = s.grants := rfl
@[simp] theorem setHap_touchGrants (c : Nat) (v : HapCh) (s : State) : (setHap c v s).touchGrants = s.touchGrants := rfl
@[simp] theorem setHap_budget (c : Nat) (v : HapCh) (s : State) : (setHap c v s).budget = s.budget := rfl
@[simp] theorem setHap_fabric (c : Nat) (v : HapCh) (s : State) : (setHap c v s).fabric = s.fabric := rfl
@[simp] theorem setHap_wakes (c : Nat) (v : HapCh) (s : State) : (setHap c v s).wakes = s.wakes := rfl
@[simp] theorem setHap_pci (c : Nat) (v : HapCh) (s : State) : (setHap c v s).pci = s.pci := rfl
@[simp] theorem setHap_pumpLast (c : Nat) (v : HapCh) (s : State) : (setHap c v s).pumpLast = s.pumpLast := rfl
@[simp] theorem setHap_dmc (c : Nat) (v : HapCh) (s : State) : (setHap c v s).dmc = s.dmc := rfl
@[simp] theorem setHap_dsp (c : Nat) (v : HapCh) (s : State) : (setHap c v s).dsp = s.dsp := rfl
@[simp] theorem setHap_gfx (c : Nat) (v : HapCh) (s : State) : (setHap c v s).gfx = s.gfx := rfl
@[simp] theorem setHap_vcd (c : Nat) (v : HapCh) (s : State) : (setHap c v s).vcd = s.vcd := rfl
@[simp] theorem setHap_net (c : Nat) (v : HapCh) (s : State) : (setHap c v s).net = s.net := rfl
@[simp] theorem setHap_aud (c : Nat) (v : HapCh) (s : State) : (setHap c v s).aud = s.aud := rfl
@[simp] theorem setHap_hap (c : Nat) (v : HapCh) (s : State) : (setHap c v s).hap = s.hap.put c v := rfl
@[simp] theorem setHap_tch (c : Nat) (v : HapCh) (s : State) : (setHap c v s).tch = s.tch := rfl
@[simp] theorem setHap_pwr (c : Nat) (v : HapCh) (s : State) : (setHap c v s).pwr = s.pwr := rfl
@[simp] theorem setHap_gio (c : Nat) (v : HapCh) (s : State) : (setHap c v s).gio = s.gio := rfl
@[simp] theorem setHap_evr (c : Nat) (v : HapCh) (s : State) : (setHap c v s).evr = s.evr := rfl
@[simp] theorem setHap_vlt (c : Nat) (v : HapCh) (s : State) : (setHap c v s).vlt = s.vlt := rfl
@[simp] theorem setHap_cvu (c : Nat) (v : HapCh) (s : State) : (setHap c v s).cvu = s.cvu := rfl
@[simp] theorem setHap_otp (c : Nat) (v : HapCh) (s : State) : (setHap c v s).otp = s.otp := rfl

/-! ## setTch -/

@[simp] theorem setTch_pending (c : Nat) (v : TchCh) (s : State) : (setTch c v s).pending = s.pending := rfl
@[simp] theorem setTch_now (c : Nat) (v : TchCh) (s : State) : (setTch c v s).now = s.now := rfl
@[simp] theorem setTch_devTime (c : Nat) (v : TchCh) (s : State) : (setTch c v s).devTime = s.devTime := rfl
@[simp] theorem setTch_devFrac (c : Nat) (v : TchCh) (s : State) : (setTch c v s).devFrac = s.devFrac := rfl
@[simp] theorem setTch_free (c : Nat) (v : TchCh) (s : State) : (setTch c v s).free = s.free := rfl
@[simp] theorem setTch_busReply (c : Nat) (v : TchCh) (s : State) : (setTch c v s).busReply = s.busReply := rfl
@[simp] theorem setTch_regs (c : Nat) (v : TchCh) (s : State) : (setTch c v s).regs = s.regs := rfl
@[simp] theorem setTch_mem (c : Nat) (v : TchCh) (s : State) : (setTch c v s).mem = s.mem := rfl
@[simp] theorem setTch_poison (c : Nat) (v : TchCh) (s : State) : (setTch c v s).poison = s.poison := rfl
@[simp] theorem setTch_rdLatch (c : Nat) (v : TchCh) (s : State) : (setTch c v s).rdLatch = s.rdLatch := rfl
@[simp] theorem setTch_wrHold (c : Nat) (v : TchCh) (s : State) : (setTch c v s).wrHold = s.wrHold := rfl
@[simp] theorem setTch_chans (c : Nat) (v : TchCh) (s : State) : (setTch c v s).chans = s.chans := rfl
@[simp] theorem setTch_held (c : Nat) (v : TchCh) (s : State) : (setTch c v s).held = s.held := rfl
@[simp] theorem setTch_lockPtr (c : Nat) (v : TchCh) (s : State) : (setTch c v s).lockPtr = s.lockPtr := rfl
@[simp] theorem setTch_warden (c : Nat) (v : TchCh) (s : State) : (setTch c v s).warden = s.warden := rfl
@[simp] theorem setTch_harts (c : Nat) (v : TchCh) (s : State) : (setTch c v s).harts = s.harts := rfl
@[simp] theorem setTch_pld (c : Nat) (v : TchCh) (s : State) : (setTch c v s).pld = s.pld := rfl
@[simp] theorem setTch_resets (c : Nat) (v : TchCh) (s : State) : (setTch c v s).resets = s.resets := rfl
@[simp] theorem setTch_grants (c : Nat) (v : TchCh) (s : State) : (setTch c v s).grants = s.grants := rfl
@[simp] theorem setTch_touchGrants (c : Nat) (v : TchCh) (s : State) : (setTch c v s).touchGrants = s.touchGrants := rfl
@[simp] theorem setTch_budget (c : Nat) (v : TchCh) (s : State) : (setTch c v s).budget = s.budget := rfl
@[simp] theorem setTch_fabric (c : Nat) (v : TchCh) (s : State) : (setTch c v s).fabric = s.fabric := rfl
@[simp] theorem setTch_wakes (c : Nat) (v : TchCh) (s : State) : (setTch c v s).wakes = s.wakes := rfl
@[simp] theorem setTch_pci (c : Nat) (v : TchCh) (s : State) : (setTch c v s).pci = s.pci := rfl
@[simp] theorem setTch_pumpLast (c : Nat) (v : TchCh) (s : State) : (setTch c v s).pumpLast = s.pumpLast := rfl
@[simp] theorem setTch_dmc (c : Nat) (v : TchCh) (s : State) : (setTch c v s).dmc = s.dmc := rfl
@[simp] theorem setTch_dsp (c : Nat) (v : TchCh) (s : State) : (setTch c v s).dsp = s.dsp := rfl
@[simp] theorem setTch_gfx (c : Nat) (v : TchCh) (s : State) : (setTch c v s).gfx = s.gfx := rfl
@[simp] theorem setTch_vcd (c : Nat) (v : TchCh) (s : State) : (setTch c v s).vcd = s.vcd := rfl
@[simp] theorem setTch_net (c : Nat) (v : TchCh) (s : State) : (setTch c v s).net = s.net := rfl
@[simp] theorem setTch_aud (c : Nat) (v : TchCh) (s : State) : (setTch c v s).aud = s.aud := rfl
@[simp] theorem setTch_hap (c : Nat) (v : TchCh) (s : State) : (setTch c v s).hap = s.hap := rfl
@[simp] theorem setTch_pwr (c : Nat) (v : TchCh) (s : State) : (setTch c v s).pwr = s.pwr := rfl
@[simp] theorem setTch_gio (c : Nat) (v : TchCh) (s : State) : (setTch c v s).gio = s.gio := rfl
@[simp] theorem setTch_evr (c : Nat) (v : TchCh) (s : State) : (setTch c v s).evr = s.evr := rfl
@[simp] theorem setTch_vlt (c : Nat) (v : TchCh) (s : State) : (setTch c v s).vlt = s.vlt := rfl
@[simp] theorem setTch_cvu (c : Nat) (v : TchCh) (s : State) : (setTch c v s).cvu = s.cvu := rfl
@[simp] theorem setTch_otp (c : Nat) (v : TchCh) (s : State) : (setTch c v s).otp = s.otp := rfl

/-! ## setVlt -/

@[simp] theorem setVlt_pending (f : VltSt → VltSt) (s : State) : (setVlt f s).pending = s.pending := rfl
@[simp] theorem setVlt_now (f : VltSt → VltSt) (s : State) : (setVlt f s).now = s.now := rfl
@[simp] theorem setVlt_devTime (f : VltSt → VltSt) (s : State) : (setVlt f s).devTime = s.devTime := rfl
@[simp] theorem setVlt_devFrac (f : VltSt → VltSt) (s : State) : (setVlt f s).devFrac = s.devFrac := rfl
@[simp] theorem setVlt_free (f : VltSt → VltSt) (s : State) : (setVlt f s).free = s.free := rfl
@[simp] theorem setVlt_busReply (f : VltSt → VltSt) (s : State) : (setVlt f s).busReply = s.busReply := rfl
@[simp] theorem setVlt_regs (f : VltSt → VltSt) (s : State) : (setVlt f s).regs = s.regs := rfl
@[simp] theorem setVlt_mem (f : VltSt → VltSt) (s : State) : (setVlt f s).mem = s.mem := rfl
@[simp] theorem setVlt_poison (f : VltSt → VltSt) (s : State) : (setVlt f s).poison = s.poison := rfl
@[simp] theorem setVlt_rdLatch (f : VltSt → VltSt) (s : State) : (setVlt f s).rdLatch = s.rdLatch := rfl
@[simp] theorem setVlt_wrHold (f : VltSt → VltSt) (s : State) : (setVlt f s).wrHold = s.wrHold := rfl
@[simp] theorem setVlt_chans (f : VltSt → VltSt) (s : State) : (setVlt f s).chans = s.chans := rfl
@[simp] theorem setVlt_held (f : VltSt → VltSt) (s : State) : (setVlt f s).held = s.held := rfl
@[simp] theorem setVlt_lockPtr (f : VltSt → VltSt) (s : State) : (setVlt f s).lockPtr = s.lockPtr := rfl
@[simp] theorem setVlt_warden (f : VltSt → VltSt) (s : State) : (setVlt f s).warden = s.warden := rfl
@[simp] theorem setVlt_harts (f : VltSt → VltSt) (s : State) : (setVlt f s).harts = s.harts := rfl
@[simp] theorem setVlt_pld (f : VltSt → VltSt) (s : State) : (setVlt f s).pld = s.pld := rfl
@[simp] theorem setVlt_resets (f : VltSt → VltSt) (s : State) : (setVlt f s).resets = s.resets := rfl
@[simp] theorem setVlt_grants (f : VltSt → VltSt) (s : State) : (setVlt f s).grants = s.grants := rfl
@[simp] theorem setVlt_touchGrants (f : VltSt → VltSt) (s : State) : (setVlt f s).touchGrants = s.touchGrants := rfl
@[simp] theorem setVlt_budget (f : VltSt → VltSt) (s : State) : (setVlt f s).budget = s.budget := rfl
@[simp] theorem setVlt_fabric (f : VltSt → VltSt) (s : State) : (setVlt f s).fabric = s.fabric := rfl
@[simp] theorem setVlt_wakes (f : VltSt → VltSt) (s : State) : (setVlt f s).wakes = s.wakes := rfl
@[simp] theorem setVlt_pci (f : VltSt → VltSt) (s : State) : (setVlt f s).pci = s.pci := rfl
@[simp] theorem setVlt_pumpLast (f : VltSt → VltSt) (s : State) : (setVlt f s).pumpLast = s.pumpLast := rfl
@[simp] theorem setVlt_dmc (f : VltSt → VltSt) (s : State) : (setVlt f s).dmc = s.dmc := rfl
@[simp] theorem setVlt_dsp (f : VltSt → VltSt) (s : State) : (setVlt f s).dsp = s.dsp := rfl
@[simp] theorem setVlt_gfx (f : VltSt → VltSt) (s : State) : (setVlt f s).gfx = s.gfx := rfl
@[simp] theorem setVlt_vcd (f : VltSt → VltSt) (s : State) : (setVlt f s).vcd = s.vcd := rfl
@[simp] theorem setVlt_net (f : VltSt → VltSt) (s : State) : (setVlt f s).net = s.net := rfl
@[simp] theorem setVlt_aud (f : VltSt → VltSt) (s : State) : (setVlt f s).aud = s.aud := rfl
@[simp] theorem setVlt_hap (f : VltSt → VltSt) (s : State) : (setVlt f s).hap = s.hap := rfl
@[simp] theorem setVlt_tch (f : VltSt → VltSt) (s : State) : (setVlt f s).tch = s.tch := rfl
@[simp] theorem setVlt_pwr (f : VltSt → VltSt) (s : State) : (setVlt f s).pwr = s.pwr := rfl
@[simp] theorem setVlt_gio (f : VltSt → VltSt) (s : State) : (setVlt f s).gio = s.gio := rfl
@[simp] theorem setVlt_evr (f : VltSt → VltSt) (s : State) : (setVlt f s).evr = s.evr := rfl
@[simp] theorem setVlt_vlt (f : VltSt → VltSt) (s : State) : (setVlt f s).vlt = f s.vlt := rfl
@[simp] theorem setVlt_cvu (f : VltSt → VltSt) (s : State) : (setVlt f s).cvu = s.cvu := rfl
@[simp] theorem setVlt_otp (f : VltSt → VltSt) (s : State) : (setVlt f s).otp = s.otp := rfl

/-! ## setAud -/

@[simp] theorem setAud_pending (f : AudSt → AudSt) (s : State) : (setAud f s).pending = s.pending := rfl
@[simp] theorem setAud_now (f : AudSt → AudSt) (s : State) : (setAud f s).now = s.now := rfl
@[simp] theorem setAud_devTime (f : AudSt → AudSt) (s : State) : (setAud f s).devTime = s.devTime := rfl
@[simp] theorem setAud_devFrac (f : AudSt → AudSt) (s : State) : (setAud f s).devFrac = s.devFrac := rfl
@[simp] theorem setAud_free (f : AudSt → AudSt) (s : State) : (setAud f s).free = s.free := rfl
@[simp] theorem setAud_busReply (f : AudSt → AudSt) (s : State) : (setAud f s).busReply = s.busReply := rfl
@[simp] theorem setAud_regs (f : AudSt → AudSt) (s : State) : (setAud f s).regs = s.regs := rfl
@[simp] theorem setAud_mem (f : AudSt → AudSt) (s : State) : (setAud f s).mem = s.mem := rfl
@[simp] theorem setAud_poison (f : AudSt → AudSt) (s : State) : (setAud f s).poison = s.poison := rfl
@[simp] theorem setAud_rdLatch (f : AudSt → AudSt) (s : State) : (setAud f s).rdLatch = s.rdLatch := rfl
@[simp] theorem setAud_wrHold (f : AudSt → AudSt) (s : State) : (setAud f s).wrHold = s.wrHold := rfl
@[simp] theorem setAud_chans (f : AudSt → AudSt) (s : State) : (setAud f s).chans = s.chans := rfl
@[simp] theorem setAud_held (f : AudSt → AudSt) (s : State) : (setAud f s).held = s.held := rfl
@[simp] theorem setAud_lockPtr (f : AudSt → AudSt) (s : State) : (setAud f s).lockPtr = s.lockPtr := rfl
@[simp] theorem setAud_warden (f : AudSt → AudSt) (s : State) : (setAud f s).warden = s.warden := rfl
@[simp] theorem setAud_harts (f : AudSt → AudSt) (s : State) : (setAud f s).harts = s.harts := rfl
@[simp] theorem setAud_pld (f : AudSt → AudSt) (s : State) : (setAud f s).pld = s.pld := rfl
@[simp] theorem setAud_resets (f : AudSt → AudSt) (s : State) : (setAud f s).resets = s.resets := rfl
@[simp] theorem setAud_grants (f : AudSt → AudSt) (s : State) : (setAud f s).grants = s.grants := rfl
@[simp] theorem setAud_touchGrants (f : AudSt → AudSt) (s : State) : (setAud f s).touchGrants = s.touchGrants := rfl
@[simp] theorem setAud_budget (f : AudSt → AudSt) (s : State) : (setAud f s).budget = s.budget := rfl
@[simp] theorem setAud_fabric (f : AudSt → AudSt) (s : State) : (setAud f s).fabric = s.fabric := rfl
@[simp] theorem setAud_wakes (f : AudSt → AudSt) (s : State) : (setAud f s).wakes = s.wakes := rfl
@[simp] theorem setAud_pci (f : AudSt → AudSt) (s : State) : (setAud f s).pci = s.pci := rfl
@[simp] theorem setAud_pumpLast (f : AudSt → AudSt) (s : State) : (setAud f s).pumpLast = s.pumpLast := rfl
@[simp] theorem setAud_dmc (f : AudSt → AudSt) (s : State) : (setAud f s).dmc = s.dmc := rfl
@[simp] theorem setAud_dsp (f : AudSt → AudSt) (s : State) : (setAud f s).dsp = s.dsp := rfl
@[simp] theorem setAud_gfx (f : AudSt → AudSt) (s : State) : (setAud f s).gfx = s.gfx := rfl
@[simp] theorem setAud_vcd (f : AudSt → AudSt) (s : State) : (setAud f s).vcd = s.vcd := rfl
@[simp] theorem setAud_net (f : AudSt → AudSt) (s : State) : (setAud f s).net = s.net := rfl
@[simp] theorem setAud_aud (f : AudSt → AudSt) (s : State) : (setAud f s).aud = f s.aud := rfl
@[simp] theorem setAud_hap (f : AudSt → AudSt) (s : State) : (setAud f s).hap = s.hap := rfl
@[simp] theorem setAud_tch (f : AudSt → AudSt) (s : State) : (setAud f s).tch = s.tch := rfl
@[simp] theorem setAud_pwr (f : AudSt → AudSt) (s : State) : (setAud f s).pwr = s.pwr := rfl
@[simp] theorem setAud_gio (f : AudSt → AudSt) (s : State) : (setAud f s).gio = s.gio := rfl
@[simp] theorem setAud_evr (f : AudSt → AudSt) (s : State) : (setAud f s).evr = s.evr := rfl
@[simp] theorem setAud_vlt (f : AudSt → AudSt) (s : State) : (setAud f s).vlt = s.vlt := rfl
@[simp] theorem setAud_cvu (f : AudSt → AudSt) (s : State) : (setAud f s).cvu = s.cvu := rfl
@[simp] theorem setAud_otp (f : AudSt → AudSt) (s : State) : (setAud f s).otp = s.otp := rfl

/-! ## setGio -/

@[simp] theorem setGio_pending (f : GioSt → GioSt) (s : State) : (setGio f s).pending = s.pending := rfl
@[simp] theorem setGio_now (f : GioSt → GioSt) (s : State) : (setGio f s).now = s.now := rfl
@[simp] theorem setGio_devTime (f : GioSt → GioSt) (s : State) : (setGio f s).devTime = s.devTime := rfl
@[simp] theorem setGio_devFrac (f : GioSt → GioSt) (s : State) : (setGio f s).devFrac = s.devFrac := rfl
@[simp] theorem setGio_free (f : GioSt → GioSt) (s : State) : (setGio f s).free = s.free := rfl
@[simp] theorem setGio_busReply (f : GioSt → GioSt) (s : State) : (setGio f s).busReply = s.busReply := rfl
@[simp] theorem setGio_regs (f : GioSt → GioSt) (s : State) : (setGio f s).regs = s.regs := rfl
@[simp] theorem setGio_mem (f : GioSt → GioSt) (s : State) : (setGio f s).mem = s.mem := rfl
@[simp] theorem setGio_poison (f : GioSt → GioSt) (s : State) : (setGio f s).poison = s.poison := rfl
@[simp] theorem setGio_rdLatch (f : GioSt → GioSt) (s : State) : (setGio f s).rdLatch = s.rdLatch := rfl
@[simp] theorem setGio_wrHold (f : GioSt → GioSt) (s : State) : (setGio f s).wrHold = s.wrHold := rfl
@[simp] theorem setGio_chans (f : GioSt → GioSt) (s : State) : (setGio f s).chans = s.chans := rfl
@[simp] theorem setGio_held (f : GioSt → GioSt) (s : State) : (setGio f s).held = s.held := rfl
@[simp] theorem setGio_lockPtr (f : GioSt → GioSt) (s : State) : (setGio f s).lockPtr = s.lockPtr := rfl
@[simp] theorem setGio_warden (f : GioSt → GioSt) (s : State) : (setGio f s).warden = s.warden := rfl
@[simp] theorem setGio_harts (f : GioSt → GioSt) (s : State) : (setGio f s).harts = s.harts := rfl
@[simp] theorem setGio_pld (f : GioSt → GioSt) (s : State) : (setGio f s).pld = s.pld := rfl
@[simp] theorem setGio_resets (f : GioSt → GioSt) (s : State) : (setGio f s).resets = s.resets := rfl
@[simp] theorem setGio_grants (f : GioSt → GioSt) (s : State) : (setGio f s).grants = s.grants := rfl
@[simp] theorem setGio_touchGrants (f : GioSt → GioSt) (s : State) : (setGio f s).touchGrants = s.touchGrants := rfl
@[simp] theorem setGio_budget (f : GioSt → GioSt) (s : State) : (setGio f s).budget = s.budget := rfl
@[simp] theorem setGio_fabric (f : GioSt → GioSt) (s : State) : (setGio f s).fabric = s.fabric := rfl
@[simp] theorem setGio_wakes (f : GioSt → GioSt) (s : State) : (setGio f s).wakes = s.wakes := rfl
@[simp] theorem setGio_pci (f : GioSt → GioSt) (s : State) : (setGio f s).pci = s.pci := rfl
@[simp] theorem setGio_pumpLast (f : GioSt → GioSt) (s : State) : (setGio f s).pumpLast = s.pumpLast := rfl
@[simp] theorem setGio_dmc (f : GioSt → GioSt) (s : State) : (setGio f s).dmc = s.dmc := rfl
@[simp] theorem setGio_dsp (f : GioSt → GioSt) (s : State) : (setGio f s).dsp = s.dsp := rfl
@[simp] theorem setGio_gfx (f : GioSt → GioSt) (s : State) : (setGio f s).gfx = s.gfx := rfl
@[simp] theorem setGio_vcd (f : GioSt → GioSt) (s : State) : (setGio f s).vcd = s.vcd := rfl
@[simp] theorem setGio_net (f : GioSt → GioSt) (s : State) : (setGio f s).net = s.net := rfl
@[simp] theorem setGio_aud (f : GioSt → GioSt) (s : State) : (setGio f s).aud = s.aud := rfl
@[simp] theorem setGio_hap (f : GioSt → GioSt) (s : State) : (setGio f s).hap = s.hap := rfl
@[simp] theorem setGio_tch (f : GioSt → GioSt) (s : State) : (setGio f s).tch = s.tch := rfl
@[simp] theorem setGio_pwr (f : GioSt → GioSt) (s : State) : (setGio f s).pwr = s.pwr := rfl
@[simp] theorem setGio_gio (f : GioSt → GioSt) (s : State) : (setGio f s).gio = f s.gio := rfl
@[simp] theorem setGio_evr (f : GioSt → GioSt) (s : State) : (setGio f s).evr = s.evr := rfl
@[simp] theorem setGio_vlt (f : GioSt → GioSt) (s : State) : (setGio f s).vlt = s.vlt := rfl
@[simp] theorem setGio_cvu (f : GioSt → GioSt) (s : State) : (setGio f s).cvu = s.cvu := rfl
@[simp] theorem setGio_otp (f : GioSt → GioSt) (s : State) : (setGio f s).otp = s.otp := rfl

/-! ## setNet -/

@[simp] theorem setNet_pending (f : NetSt → NetSt) (s : State) : (setNet f s).pending = s.pending := rfl
@[simp] theorem setNet_now (f : NetSt → NetSt) (s : State) : (setNet f s).now = s.now := rfl
@[simp] theorem setNet_devTime (f : NetSt → NetSt) (s : State) : (setNet f s).devTime = s.devTime := rfl
@[simp] theorem setNet_devFrac (f : NetSt → NetSt) (s : State) : (setNet f s).devFrac = s.devFrac := rfl
@[simp] theorem setNet_free (f : NetSt → NetSt) (s : State) : (setNet f s).free = s.free := rfl
@[simp] theorem setNet_busReply (f : NetSt → NetSt) (s : State) : (setNet f s).busReply = s.busReply := rfl
@[simp] theorem setNet_regs (f : NetSt → NetSt) (s : State) : (setNet f s).regs = s.regs := rfl
@[simp] theorem setNet_mem (f : NetSt → NetSt) (s : State) : (setNet f s).mem = s.mem := rfl
@[simp] theorem setNet_poison (f : NetSt → NetSt) (s : State) : (setNet f s).poison = s.poison := rfl
@[simp] theorem setNet_rdLatch (f : NetSt → NetSt) (s : State) : (setNet f s).rdLatch = s.rdLatch := rfl
@[simp] theorem setNet_wrHold (f : NetSt → NetSt) (s : State) : (setNet f s).wrHold = s.wrHold := rfl
@[simp] theorem setNet_chans (f : NetSt → NetSt) (s : State) : (setNet f s).chans = s.chans := rfl
@[simp] theorem setNet_held (f : NetSt → NetSt) (s : State) : (setNet f s).held = s.held := rfl
@[simp] theorem setNet_lockPtr (f : NetSt → NetSt) (s : State) : (setNet f s).lockPtr = s.lockPtr := rfl
@[simp] theorem setNet_warden (f : NetSt → NetSt) (s : State) : (setNet f s).warden = s.warden := rfl
@[simp] theorem setNet_harts (f : NetSt → NetSt) (s : State) : (setNet f s).harts = s.harts := rfl
@[simp] theorem setNet_pld (f : NetSt → NetSt) (s : State) : (setNet f s).pld = s.pld := rfl
@[simp] theorem setNet_resets (f : NetSt → NetSt) (s : State) : (setNet f s).resets = s.resets := rfl
@[simp] theorem setNet_grants (f : NetSt → NetSt) (s : State) : (setNet f s).grants = s.grants := rfl
@[simp] theorem setNet_touchGrants (f : NetSt → NetSt) (s : State) : (setNet f s).touchGrants = s.touchGrants := rfl
@[simp] theorem setNet_budget (f : NetSt → NetSt) (s : State) : (setNet f s).budget = s.budget := rfl
@[simp] theorem setNet_fabric (f : NetSt → NetSt) (s : State) : (setNet f s).fabric = s.fabric := rfl
@[simp] theorem setNet_wakes (f : NetSt → NetSt) (s : State) : (setNet f s).wakes = s.wakes := rfl
@[simp] theorem setNet_pci (f : NetSt → NetSt) (s : State) : (setNet f s).pci = s.pci := rfl
@[simp] theorem setNet_pumpLast (f : NetSt → NetSt) (s : State) : (setNet f s).pumpLast = s.pumpLast := rfl
@[simp] theorem setNet_dmc (f : NetSt → NetSt) (s : State) : (setNet f s).dmc = s.dmc := rfl
@[simp] theorem setNet_dsp (f : NetSt → NetSt) (s : State) : (setNet f s).dsp = s.dsp := rfl
@[simp] theorem setNet_gfx (f : NetSt → NetSt) (s : State) : (setNet f s).gfx = s.gfx := rfl
@[simp] theorem setNet_vcd (f : NetSt → NetSt) (s : State) : (setNet f s).vcd = s.vcd := rfl
@[simp] theorem setNet_net (f : NetSt → NetSt) (s : State) : (setNet f s).net = f s.net := rfl
@[simp] theorem setNet_aud (f : NetSt → NetSt) (s : State) : (setNet f s).aud = s.aud := rfl
@[simp] theorem setNet_hap (f : NetSt → NetSt) (s : State) : (setNet f s).hap = s.hap := rfl
@[simp] theorem setNet_tch (f : NetSt → NetSt) (s : State) : (setNet f s).tch = s.tch := rfl
@[simp] theorem setNet_pwr (f : NetSt → NetSt) (s : State) : (setNet f s).pwr = s.pwr := rfl
@[simp] theorem setNet_gio (f : NetSt → NetSt) (s : State) : (setNet f s).gio = s.gio := rfl
@[simp] theorem setNet_evr (f : NetSt → NetSt) (s : State) : (setNet f s).evr = s.evr := rfl
@[simp] theorem setNet_vlt (f : NetSt → NetSt) (s : State) : (setNet f s).vlt = s.vlt := rfl
@[simp] theorem setNet_cvu (f : NetSt → NetSt) (s : State) : (setNet f s).cvu = s.cvu := rfl
@[simp] theorem setNet_otp (f : NetSt → NetSt) (s : State) : (setNet f s).otp = s.otp := rfl

/-! ## setTrans -/

@[simp] theorem setTrans_pending (t : Option PwrTrans) (s : State) : (setTrans t s).pending = s.pending := rfl
@[simp] theorem setTrans_now (t : Option PwrTrans) (s : State) : (setTrans t s).now = s.now := rfl
@[simp] theorem setTrans_devTime (t : Option PwrTrans) (s : State) : (setTrans t s).devTime = s.devTime := rfl
@[simp] theorem setTrans_devFrac (t : Option PwrTrans) (s : State) : (setTrans t s).devFrac = s.devFrac := rfl
@[simp] theorem setTrans_free (t : Option PwrTrans) (s : State) : (setTrans t s).free = s.free := rfl
@[simp] theorem setTrans_busReply (t : Option PwrTrans) (s : State) : (setTrans t s).busReply = s.busReply := rfl
@[simp] theorem setTrans_regs (t : Option PwrTrans) (s : State) : (setTrans t s).regs = s.regs := rfl
@[simp] theorem setTrans_mem (t : Option PwrTrans) (s : State) : (setTrans t s).mem = s.mem := rfl
@[simp] theorem setTrans_poison (t : Option PwrTrans) (s : State) : (setTrans t s).poison = s.poison := rfl
@[simp] theorem setTrans_rdLatch (t : Option PwrTrans) (s : State) : (setTrans t s).rdLatch = s.rdLatch := rfl
@[simp] theorem setTrans_wrHold (t : Option PwrTrans) (s : State) : (setTrans t s).wrHold = s.wrHold := rfl
@[simp] theorem setTrans_chans (t : Option PwrTrans) (s : State) : (setTrans t s).chans = s.chans := rfl
@[simp] theorem setTrans_held (t : Option PwrTrans) (s : State) : (setTrans t s).held = s.held := rfl
@[simp] theorem setTrans_lockPtr (t : Option PwrTrans) (s : State) : (setTrans t s).lockPtr = s.lockPtr := rfl
@[simp] theorem setTrans_warden (t : Option PwrTrans) (s : State) : (setTrans t s).warden = s.warden := rfl
@[simp] theorem setTrans_harts (t : Option PwrTrans) (s : State) : (setTrans t s).harts = s.harts := rfl
@[simp] theorem setTrans_pld (t : Option PwrTrans) (s : State) : (setTrans t s).pld = s.pld := rfl
@[simp] theorem setTrans_resets (t : Option PwrTrans) (s : State) : (setTrans t s).resets = s.resets := rfl
@[simp] theorem setTrans_grants (t : Option PwrTrans) (s : State) : (setTrans t s).grants = s.grants := rfl
@[simp] theorem setTrans_touchGrants (t : Option PwrTrans) (s : State) : (setTrans t s).touchGrants = s.touchGrants := rfl
@[simp] theorem setTrans_budget (t : Option PwrTrans) (s : State) : (setTrans t s).budget = s.budget := rfl
@[simp] theorem setTrans_fabric (t : Option PwrTrans) (s : State) : (setTrans t s).fabric = s.fabric := rfl
@[simp] theorem setTrans_wakes (t : Option PwrTrans) (s : State) : (setTrans t s).wakes = s.wakes := rfl
@[simp] theorem setTrans_pci (t : Option PwrTrans) (s : State) : (setTrans t s).pci = s.pci := rfl
@[simp] theorem setTrans_pumpLast (t : Option PwrTrans) (s : State) : (setTrans t s).pumpLast = s.pumpLast := rfl
@[simp] theorem setTrans_dmc (t : Option PwrTrans) (s : State) : (setTrans t s).dmc = s.dmc := rfl
@[simp] theorem setTrans_dsp (t : Option PwrTrans) (s : State) : (setTrans t s).dsp = s.dsp := rfl
@[simp] theorem setTrans_gfx (t : Option PwrTrans) (s : State) : (setTrans t s).gfx = s.gfx := rfl
@[simp] theorem setTrans_vcd (t : Option PwrTrans) (s : State) : (setTrans t s).vcd = s.vcd := rfl
@[simp] theorem setTrans_net (t : Option PwrTrans) (s : State) : (setTrans t s).net = s.net := rfl
@[simp] theorem setTrans_aud (t : Option PwrTrans) (s : State) : (setTrans t s).aud = s.aud := rfl
@[simp] theorem setTrans_hap (t : Option PwrTrans) (s : State) : (setTrans t s).hap = s.hap := rfl
@[simp] theorem setTrans_tch (t : Option PwrTrans) (s : State) : (setTrans t s).tch = s.tch := rfl
@[simp] theorem setTrans_gio (t : Option PwrTrans) (s : State) : (setTrans t s).gio = s.gio := rfl
@[simp] theorem setTrans_evr (t : Option PwrTrans) (s : State) : (setTrans t s).evr = s.evr := rfl
@[simp] theorem setTrans_vlt (t : Option PwrTrans) (s : State) : (setTrans t s).vlt = s.vlt := rfl
@[simp] theorem setTrans_cvu (t : Option PwrTrans) (s : State) : (setTrans t s).cvu = s.cvu := rfl
@[simp] theorem setTrans_otp (t : Option PwrTrans) (s : State) : (setTrans t s).otp = s.otp := rfl

/-! ## dropTxn -/

@[simp] theorem dropTxn_pending (tag : Nat) (s : State) : (dropTxn tag s).pending = s.pending := rfl
@[simp] theorem dropTxn_now (tag : Nat) (s : State) : (dropTxn tag s).now = s.now := rfl
@[simp] theorem dropTxn_devTime (tag : Nat) (s : State) : (dropTxn tag s).devTime = s.devTime := rfl
@[simp] theorem dropTxn_devFrac (tag : Nat) (s : State) : (dropTxn tag s).devFrac = s.devFrac := rfl
@[simp] theorem dropTxn_free (tag : Nat) (s : State) : (dropTxn tag s).free = s.free := rfl
@[simp] theorem dropTxn_busReply (tag : Nat) (s : State) : (dropTxn tag s).busReply = s.busReply := rfl
@[simp] theorem dropTxn_regs (tag : Nat) (s : State) : (dropTxn tag s).regs = s.regs := rfl
@[simp] theorem dropTxn_mem (tag : Nat) (s : State) : (dropTxn tag s).mem = s.mem := rfl
@[simp] theorem dropTxn_poison (tag : Nat) (s : State) : (dropTxn tag s).poison = s.poison := rfl
@[simp] theorem dropTxn_rdLatch (tag : Nat) (s : State) : (dropTxn tag s).rdLatch = s.rdLatch := rfl
@[simp] theorem dropTxn_wrHold (tag : Nat) (s : State) : (dropTxn tag s).wrHold = s.wrHold := rfl
@[simp] theorem dropTxn_chans (tag : Nat) (s : State) : (dropTxn tag s).chans = s.chans := rfl
@[simp] theorem dropTxn_held (tag : Nat) (s : State) : (dropTxn tag s).held = s.held := rfl
@[simp] theorem dropTxn_lockPtr (tag : Nat) (s : State) : (dropTxn tag s).lockPtr = s.lockPtr := rfl
@[simp] theorem dropTxn_warden (tag : Nat) (s : State) : (dropTxn tag s).warden = s.warden := rfl
@[simp] theorem dropTxn_harts (tag : Nat) (s : State) : (dropTxn tag s).harts = s.harts := rfl
@[simp] theorem dropTxn_pld (tag : Nat) (s : State) : (dropTxn tag s).pld = s.pld := rfl
@[simp] theorem dropTxn_resets (tag : Nat) (s : State) : (dropTxn tag s).resets = s.resets := rfl
@[simp] theorem dropTxn_grants (tag : Nat) (s : State) : (dropTxn tag s).grants = s.grants := rfl
@[simp] theorem dropTxn_touchGrants (tag : Nat) (s : State) : (dropTxn tag s).touchGrants = s.touchGrants := rfl
@[simp] theorem dropTxn_budget (tag : Nat) (s : State) : (dropTxn tag s).budget = s.budget := rfl
@[simp] theorem dropTxn_wakes (tag : Nat) (s : State) : (dropTxn tag s).wakes = s.wakes := rfl
@[simp] theorem dropTxn_pci (tag : Nat) (s : State) : (dropTxn tag s).pci = s.pci := rfl
@[simp] theorem dropTxn_pumpLast (tag : Nat) (s : State) : (dropTxn tag s).pumpLast = s.pumpLast := rfl
@[simp] theorem dropTxn_dmc (tag : Nat) (s : State) : (dropTxn tag s).dmc = s.dmc := rfl
@[simp] theorem dropTxn_dsp (tag : Nat) (s : State) : (dropTxn tag s).dsp = s.dsp := rfl
@[simp] theorem dropTxn_gfx (tag : Nat) (s : State) : (dropTxn tag s).gfx = s.gfx := rfl
@[simp] theorem dropTxn_vcd (tag : Nat) (s : State) : (dropTxn tag s).vcd = s.vcd := rfl
@[simp] theorem dropTxn_net (tag : Nat) (s : State) : (dropTxn tag s).net = s.net := rfl
@[simp] theorem dropTxn_aud (tag : Nat) (s : State) : (dropTxn tag s).aud = s.aud := rfl
@[simp] theorem dropTxn_hap (tag : Nat) (s : State) : (dropTxn tag s).hap = s.hap := rfl
@[simp] theorem dropTxn_tch (tag : Nat) (s : State) : (dropTxn tag s).tch = s.tch := rfl
@[simp] theorem dropTxn_pwr (tag : Nat) (s : State) : (dropTxn tag s).pwr = s.pwr := rfl
@[simp] theorem dropTxn_gio (tag : Nat) (s : State) : (dropTxn tag s).gio = s.gio := rfl
@[simp] theorem dropTxn_evr (tag : Nat) (s : State) : (dropTxn tag s).evr = s.evr := rfl
@[simp] theorem dropTxn_vlt (tag : Nat) (s : State) : (dropTxn tag s).vlt = s.vlt := rfl
@[simp] theorem dropTxn_cvu (tag : Nat) (s : State) : (dropTxn tag s).cvu = s.cvu := rfl
@[simp] theorem dropTxn_otp (tag : Nat) (s : State) : (dropTxn tag s).otp = s.otp := rfl

end Sys2Proof.Laws
end

