-- ==== Sys2Proof/Laws/Turned.lean ====
section
/-! SUPPORT. What becomes of an access to a register or page that is turned away, whatever row of the table its address has. -/
namespace Sys2Proof.Machine

/-- A write that is turned away leaves what turning it away makes of the state. -/
theorem reg_turned {a : Access} {addr v : Nat} {hit : Bool} {eff} {s s1 : State} (h : hit = true) (ht : turnedAway a addr 4 v s = some s1) :
    regWrite a addr v hit eff s = .next (settle 4 s1) := by
  simp [regWrite, h, ht, done]

/-- An if and else chain of optional answers, one link at a time. -/
theorem ite_some {c : Prop} [Decidable c] {x o : Out} {r : Option Out} (h : (if c then some x else r) = some o) :
    (c ∧ some x = some o) ∨ (¬ c ∧ r = some o) := by
  by_cases hc : c
  · rw [if_pos hc] at h; exact Or.inl ⟨hc, h⟩
  · rw [if_neg hc] at h; exact Or.inr ⟨hc, h⟩

/-- A write that is turned away, whatever row the address has. -/
theorem rowWrite_turned {a : Access} {addr : BitVec 40} {v : BitVec 32} {s s1 : State} (hb : addr.toNat ≠ 0x20000008)
    (ht : turnedAway a addr.toNat 4 v.toNat s = some s1)
    (hg : (turnedAway a addr.toNat 4 v.toNat (orBits CRP_PD_STAT_on 4 s)).isNone = false)
    (hv : (turnedAway a addr.toNat 4 v.toNat (orBits CRP_PD_STAT_on 8 s)).isNone = false) :
    ∀ o, rowWrite a addr v s = some o → o = .next (settle 4 s1) := by
  intro o ho
  unfold rowWrite at ho
  dsimp only at ho
  rcases ite_some ho with ⟨h, ho⟩ | ⟨-, ho⟩
  · exact absurd h hb
  rcases ite_some ho with ⟨h, ho⟩ | ⟨-, ho⟩
  · cases ho; exact reg_turned h ht
  rcases ite_some ho with ⟨h, ho⟩ | ⟨-, ho⟩
  · cases ho; exact reg_turned h ht
  rcases ite_some ho with ⟨h, ho⟩ | ⟨-, ho⟩
  · cases ho; exact reg_turned (by first | exact beq_iff_eq.mpr h | simp only [h.1, h.2, beq_self_eq_true, Bool.and_true, Bool.and_self] | simpa using h) ht
  rcases ite_some ho with ⟨h, ho⟩ | ⟨-, ho⟩
  · cases ho; exact reg_turned (by first | exact beq_iff_eq.mpr h | simp only [h.1, h.2, beq_self_eq_true, Bool.and_true, Bool.and_self] | simpa using h) ht
  rcases ite_some ho with ⟨h, ho⟩ | ⟨-, ho⟩
  · cases ho; exact reg_turned (by first | exact beq_iff_eq.mpr h | simp only [h.1, h.2, beq_self_eq_true, Bool.and_true, Bool.and_self] | simpa using h) ht
  rcases ite_some ho with ⟨h, ho⟩ | ⟨-, ho⟩
  · cases ho; exact reg_turned h ht
  rcases ite_some ho with ⟨h, ho⟩ | ⟨-, ho⟩
  · cases ho; exact reg_turned (by first | exact beq_iff_eq.mpr h | simp only [h.1, h.2, beq_self_eq_true, Bool.and_true, Bool.and_self] | simpa using h) ht
  rcases ite_some ho with ⟨h, ho⟩ | ⟨-, ho⟩
  · cases ho; exact reg_turned (by first | exact beq_iff_eq.mpr h | simp only [h.1, h.2, beq_self_eq_true, Bool.and_true, Bool.and_self] | simpa using h) ht
  rcases ite_some ho with ⟨h, ho⟩ | ⟨-, ho⟩
  · cases ho; exact reg_turned (by first | exact beq_iff_eq.mpr h | simp only [h.1, h.2, beq_self_eq_true, Bool.and_true, Bool.and_self] | simpa using h) ht
  rcases ite_some ho with ⟨h, ho⟩ | ⟨-, ho⟩
  · cases ho; unfold execEvlEnableWrite; exact reg_turned h ht
  rcases ite_some ho with ⟨h, ho⟩ | ⟨-, ho⟩
  · cases ho; unfold execLayerHeartbeat; exact reg_turned h ht
  rcases ite_some ho with ⟨h, ho⟩ | ⟨-, ho⟩
  · cases ho; exact reg_turned h ht
  rcases ite_some ho with ⟨h, ho⟩ | ⟨-, ho⟩
  · cases ho; exact reg_turned h ht
  rcases ite_some ho with ⟨h, ho⟩ | ⟨-, ho⟩
  · cases ho; exact reg_turned (by first | exact beq_iff_eq.mpr h | simp only [h.1, h.2, beq_self_eq_true, Bool.and_true, Bool.and_self] | simpa using h) ht
  rcases ite_some ho with ⟨h, ho⟩ | ⟨-, ho⟩
  · cases ho; exact reg_turned (by first | exact beq_iff_eq.mpr h | simp only [h.1, h.2, beq_self_eq_true, Bool.and_true, Bool.and_self] | simpa using h) ht
  rcases ite_some ho with ⟨h, ho⟩ | ⟨-, ho⟩
  · cases ho; exact reg_turned (by first | exact beq_iff_eq.mpr h | simp only [h.1, h.2, beq_self_eq_true, Bool.and_true, Bool.and_self] | simpa using h) ht
  rcases ite_some ho with ⟨h, ho⟩ | ⟨-, ho⟩
  · cases ho; exact reg_turned (by first | exact beq_iff_eq.mpr h | simp only [h.1, h.2, beq_self_eq_true, Bool.and_true, Bool.and_self] | simpa using h) ht
  rcases ite_some ho with ⟨h, ho⟩ | ⟨-, ho⟩
  · cases ho; exact reg_turned (by rw [decide_eq_true h.1, decide_eq_true h.2]; rfl) ht
  rcases ite_some ho with ⟨h, ho⟩ | ⟨-, ho⟩
  · cases ho; exact reg_turned h ht
  rcases ite_some ho with ⟨h, ho⟩ | ⟨-, ho⟩
  · cases ho; exact reg_turned h ht
  rcases ite_some ho with ⟨h, ho⟩ | ⟨-, ho⟩
  · cases ho; exact reg_turned h ht
  rcases ite_some ho with ⟨h, ho⟩ | ⟨-, ho⟩
  · cases ho
    obtain ⟨k, hk⟩ := Option.isSome_iff_exists.mp h
    unfold execGfxDoorbell
    rw [hk]; dsimp only
    rw [hg, Bool.and_false, if_neg (by simp)]
    exact reg_turned rfl ht
  rcases ite_some ho with ⟨h, ho⟩ | ⟨-, ho⟩
  · cases ho
    obtain ⟨⟨p, k⟩, hk⟩ := Option.isSome_iff_exists.mp h
    unfold execVcdDoorbell
    rw [hk]; dsimp only
    rw [hv, Bool.and_false, if_neg (by simp)]
    refine reg_turned ?_ ht
    unfold sesReg at hk
    split at hk
    · cases hk; simp; omega
    · cases hk
  rcases ite_some ho with ⟨h, ho⟩ | ⟨-, ho⟩
  · cases ho
    obtain ⟨⟨p, k⟩, hk⟩ := Option.isSome_iff_exists.mp h
    unfold execVcdKeyreq
    rw [hk]; dsimp only
    refine reg_turned ?_ ht
    unfold sesReg at hk
    split at hk
    · cases hk; simp; omega
    · cases hk
  rcases ite_some ho with ⟨h, ho⟩ | ⟨-, ho⟩
  · cases ho; exact reg_turned (by first | exact beq_iff_eq.mpr h | simp only [h.1, h.2, beq_self_eq_true, Bool.and_true, Bool.and_self] | simpa using h) ht
  rcases ite_some ho with ⟨h, ho⟩ | ⟨-, ho⟩
  · cases ho; unfold execAudSwap audPageWrite; exact reg_turned h ht
  rcases ite_some ho with ⟨h, ho⟩ | ⟨-, ho⟩
  · cases ho; unfold execAudMeterClr audPageWrite; exact reg_turned h ht
  rcases ite_some ho with ⟨h, ho⟩ | ⟨-, ho⟩
  · cases ho; unfold execAudGainWrite audPageWrite; exact reg_turned h ht
  rcases ite_some ho with ⟨h, ho⟩ | ⟨-, ho⟩
  · cases ho; unfold execHapTrigger; exact reg_turned h ht
  rcases ite_some ho with ⟨h, ho⟩ | ⟨-, ho⟩
  · cases ho; exact reg_turned (by simpa using h) ht
  rcases ite_some ho with ⟨h, ho⟩ | ⟨-, ho⟩
  · cases ho; exact reg_turned (by simpa using h) ht
  rcases ite_some ho with ⟨h, ho⟩ | ⟨-, ho⟩
  · cases ho; exact reg_turned (by first | exact beq_iff_eq.mpr h | simp only [h.1, h.2, beq_self_eq_true, Bool.and_true, Bool.and_self] | simpa using h) ht
  rcases ite_some ho with ⟨h, ho⟩ | ⟨-, ho⟩
  · cases ho; exact reg_turned (by first | exact beq_iff_eq.mpr h | simp only [h.1, h.2, beq_self_eq_true, Bool.and_true, Bool.and_self] | simpa using h) ht
  rcases ite_some ho with ⟨h, ho⟩ | ⟨-, ho⟩
  · cases ho; unfold execUartDataWrite; exact reg_turned h ht
  rcases ite_some ho with ⟨h, ho⟩ | ⟨-, ho⟩
  · cases ho; unfold execI2cCmd; exact reg_turned h ht
  rcases ite_some ho with ⟨h, ho⟩ | ⟨-, ho⟩
  · cases ho; unfold execSpiTxWrite; exact reg_turned h ht
  rcases ite_some ho with ⟨h, ho⟩ | ⟨-, ho⟩
  · cases ho; unfold execGpioOutSet; exact reg_turned h ht
  rcases ite_some ho with ⟨h, ho⟩ | ⟨-, ho⟩
  · cases ho; unfold execGpioOutClr; exact reg_turned h ht
  split at ho
  · split at ho
    · next h => rw [ht] at h; cases h
    · cases ho
  · cases ho

/-- A 32-bit write that is turned away, as a command. -/
theorem registerWrite_turned {a : Access} {addr : BitVec 40} {v : BitVec 64} {s s1 : State} (hr : (isReg addr.toNat || isPage addr.toNat) = true)
    (hm : msixAt s a addr.toNat = none) (hb : addr.toNat ≠ 0x20000008)
    (ht : turnedAway a addr.toNat 4 (v.setWidth 32).toNat s = some s1)
    (hg : (turnedAway a addr.toNat 4 (v.setWidth 32).toNat (orBits CRP_PD_STAT_on 4 s)).isNone = false)
    (hv : (turnedAway a addr.toNat 4 (v.setWidth 32).toNat (orBits CRP_PD_STAT_on 8 s)).isNone = false) :
    exec (.registerWrite a addr 4 v) s = .next (settle 4 s1) := by
  simp only [exec, execRegisterWrite, hr, if_true, busWrite, hm]
  have h4 : ((4 : Fin 17).val = 4) = True := by simp
  simp only [h4, if_true]
  cases ho : rowWrite a addr (v.setWidth 32) s with
  | some o => exact rowWrite_turned hb ht hg hv o ho
  | none => 
    have : (4 : Fin 17).val = 4 := rfl
    rw [this, ht]; rfl

/-- What an access carries does not depend on which domains are on. -/
theorem carried_orBits (f : Fld) (n : Nat) (s : State) (a : Access) (addr : Nat) (h : f = CRP_PD_STAT_on) : carried (orBits f n s) a addr = carried s a addr := by
  subst h
  have e : ∀ g : Fld, g.key ≠ CRP_PD_STAT_on.key → rd (orBits CRP_PD_STAT_on n s) g = rd s g := by
    intro g hg; exact Tab.get_put_ne _ _ _ _ _ hg
  unfold carried
  have hh : ∀ i, hart (orBits CRP_PD_STAT_on n s) i = hart s i := fun _ => rfl
  have hd : debugEnabled (orBits CRP_PD_STAT_on n s) 2 = debugEnabled s 2 := by
    unfold debugEnabled
    simp only [e DBG_ENABLE_enables (by decide)]
    rfl
  simp only [hh, hd, e DBG_ENABLE_sba_polder (by decide)]
  rfl

/-- An access through the fabric carries its own master ID. -/
theorem carried_master {a : Access} {addr : Nat} {s : State} (h : a.route = .fabric) : (carried s a addr).master = a.master.val := by
  unfold carried
  dsimp only
  split
  · rfl
  split
  · next h => exact h.symm
  split
  · next h => split <;> exact h.symm
  · rw [h]

/-- R96: a read of a page that is not admitted returns 0. -/
theorem page_read_turned {r : MemReq} {p : Nat} {s : State} (h1 : r.acc.route = .fabric) (h2 : r.dir = .read) (h6 : isPage p = true)
    (h7 : masterGone s (carried s r.acc p) = false)
    (h8 : (pageAdmits (pageOf p) (carried s r.acc p) || (carried s r.acc p).master == 9 || secureCore (carried s r.acc p)) = false) :
    regAccess r (BitVec.ofNat 40 p) s = .next (settle 4 { s with busReply := 0 }) := by
  have hp : 0x30000000 ≤ p ∧ p < 0x30200000 := by simpa [isPage] using h6
  have ha : (BitVec.ofNat 40 p).toNat = p := by rw [BitVec.toNat_ofNat]; exact Nat.mod_eq_of_lt (by omega)
  have hb : barDiscards r.acc p = false := by simp [barDiscards, h1]
  have hb2 : bar2Denied s r.acc p = false := by simp [bar2Denied, h1]
  have hg : ∀ b n o, b + 0x100 * n ≤ 0x30000000 → (gioRegAt p b n o).isSome = false := by
    intro b n o hb
    unfold gioRegAt; rw [if_neg (by omega)]; rfl
  have he : effectRead r.acc (BitVec.ofNat 40 p) s = none := by
    unfold effectRead
    have : lockAt p = none := if_neg (by omega)
    simp only [ha, this, hg 0x20900000 8 _ (by omega), hg 0x20901000 4 _ (by omega), hg 0x20902000 4 _ (by omega)]
    rfl
  simp only [regAccess, h2, busRead, ha, he, readTurned, h7, hb, hb2, h6, h8, msixAt, h1]
  simp [done]

end Sys2Proof.Machine
end

