-- ==== Sys2Proof/Tests/Slice0.lean ====
section
/-! SUPPORT. The model's own tests: the commands that are not well formed; the worked examples of the spec; one step of some commands; and,
for every statement of Certificates/Slice0/Obligations.lean, a state and operands that meet its hypotheses, one set for each clause.
The theorems are elaborated one after another, so that no more than one kernel evaluation is in memory at a time. -/
namespace Sys2Proof.Tests
open Sys2Proof.Machine
set_option linter.unusedVariables false
set_option Elab.async false

/-! ## States and messages that the tests are made of -/

/-- Register fields set. -/
def regs (l : List (Fld × Nat)) (s : State) : State := l.foldl (fun s e => wr e.1 e.2 s) s

/-- Tujan is ready, the recorder runs, every domain is on, pair 0 is open, and the secure world is warden. -/
def base : State :=
  { regs [(CRP_STATUS_tujan_ready, 1), (MBX_CH_CFG_enable 0, 1), (MBX_CH_CFG_enable 1, 1), (CRP_PD_STAT_on, 127)] State.reset with
    warden := ⟨1, none, [], none, 0⟩, evr := { EvrSt.reset with started := true } }

/-- A request of polder 0's secure world, core 1. -/
def msg (op : Nat) (ws : List Nat) : Msg := [1 + 2048, op + 65536 * (4 * ws.length)] ++ ws ++ List.replicate (14 - ws.length) 0

/-- The same by reference: a buffer, then further words. -/
def refMsg (op addr size : Nat) : Msg := [1 + 2048, op + 65536 * 12 + 2 ^ 25, addr % 2 ^ 32, addr / 2 ^ 32, size] ++ List.replicate 11 0

/-- A message at the head of channel 2k. -/
def asking (k : Nat) (m : Msg) (s : State) : State := setChan (2 * k) { chan s (2 * k) with q := [m] } s

/-- Tujan's access. -/
def tujan : Access := ⟨9, 0, true, .fabric⟩

/-- A core's access. -/
def core1 : Access := ⟨1, 0, true, .fabric⟩

/-- Hart 0 given a value. -/
def withHart (h : Hart) (s : State) : State := setHart 0 h s

/-- A hart that runs. -/
def hart0 : Hart := { Hart.reset with running := true }

/-- DRAM trained, 8 GiB of it. -/
def dram : State := wr (DMC_STATUS_init_done 0) 1 { base with dmc := { DmcSt.reset with gib := 8 } }

/-- An access of a device master in the normal world for polder 1. -/
def dev (m : Fin 64) : Access := ⟨m, 1, false, .fabric⟩

/-- A request to memory. -/
def req (a : Access) (d : Dir) (addr : BitVec 40) (len : Fin 65) : MemReq :=
  ⟨a, d, addr, len, if d = .write then List.replicate len 0xFF else [], 0, 0, .clean, .none, none⟩

/-- Output 0 runs at 256 by 32 pixels. -/
def lit : State :=
  regs [(SCN_STATUS_running 0, 1), ((SCN_HTIME0_h_active 0).inForce, 256), ((SCN_HTIME0_h_total 0).inForce, 300),
    ((SCN_VTIME0_v_active 0).inForce, 32), ((SCN_VTIME0_v_total 0).inForce, 40)] base

/-- A tile of output 0's band 0 that no engine has yet. -/
def tile0 : Tile := ⟨0, none, 0, 1000000, [], false, false⟩

/-- An entry with nothing in it. -/
def blank : Entry := ⟨0, 0, 0, 0, 0, 0, 0, none, false, 0, 0, []⟩

/-- Output 0 runs, with its last region at one pixel, everything scanned. -/
def watched : State :=
  regs [((DKW_OUT_REG_CTRL_enable 0 15).inForce, 1), ((DKW_OUT_REG_XY_y 0 15).inForce, 15), ((DKW_OUT_REG_WH_w 0 15).inForce, 1),
    ((DKW_OUT_REG_WH_h 0 15).inForce, 1)] (setOut 0 { OutSt.empty with scanned := 1000 } lit)

/-- A sink found on an input. -/
def sink0 : SinkInfo := ⟨0, 0, false, false, []⟩

/-- An output in the given place of its frame. -/
def outAt (n : Nat) (v : OutSt) (s : State) : State := setOut n v (wr (SCN_STATUS_running n) 1 s)

/-- All of DRAM is the normal world's. -/
def openDram : State := wr PLD_TIDEMARK_tidemark 0x8000 dram

/-- Window 511 stands before the words given, in a pass or not. -/
def packet (inPass : Bool) (ws : List Nat) : State :=
  setGfxWin 511 { GfxWin.empty with context := some 0, queue := [⟨0x1000000000, 4 * ws.length, false, 0, 0, 1⟩], resident := true, inPass := inPass }
    (writeNat 0x1000000000 (4 * ws.length) (ws.foldr (fun w a => w + 4294967296 * a) 0) (wr (POL_SHARE_gfx 31) 1 (wr (POL_STAT_state 31) 1 openDram)))

/-- What a window reads of the packet it stands at, and the state with that packet passed over. -/
def packetRead (op k : Nat) (s : State) : List Nat × State :=
  match gfxPos (gfxWin s k) with
  | (a, len, off) :: rest =>
    let h := devRead (gfxEng k) (a + 4 * off) 4 s
    let p := devRead (gfxEng k) (a + 4 * off + 4) (4 * packetWords op) h.2.2
    (leWords (packetWords op) p.2.1, setGfxWin k { gfxWin s k with pkt := off, pos := (a, len, off + 1 + bits (leNat h.2.1) 23 8) :: rest } p.2.2)
  | [] => ([], s)

/-- Whether a window stands at a packet of an opcode. -/
def packetStands (op k : Nat) (s : State) : Bool :=
  gfxReady s k && (match gfxPos (gfxWin s k) with
  | (a, len, off) :: _ =>
    let h := devRead (gfxEng k) (a + 4 * off) 4 s
    decide (off < len / 4) && decide (h.1 = 0) && !packetMalformed (gfxWin s k) len off (leNat h.2.1) && decide (bits (leNat h.2.1) 7 0 = op) &&
      decide ((devRead (gfxEng k) (a + 4 * off + 4) (4 * packetWords op) h.2.2).1 = 0)
  | [] => false)

theorem packetAt_of {op k : Nat} {s : State} (h : packetStands op k s = true) : packetAt op k (packetRead op k s).1 s (packetRead op k s).2 := by
  unfold packetStands at h
  unfold packetRead
  rw [Bool.and_eq_true] at h
  obtain ⟨h0, h1⟩ := h
  refine ⟨h0, ?_⟩
  rcases hp : gfxPos (gfxWin s k) with _ | ⟨⟨a, len, off⟩, rest⟩
  · rw [hp] at h1; simp at h1
  · rw [hp] at h1
    simp only [Bool.and_eq_true, decide_eq_true_eq, Bool.not_eq_true'] at h1
    obtain ⟨⟨⟨⟨h2, h3⟩, h4⟩, h5⟩, h6⟩ := h1
    refine ⟨a, len, off, rest, _, _, (devRead (gfxEng k) (a + 4 * off) 4 s).2.2,
      (devRead (gfxEng k) (a + 4 * off + 4) (4 * packetWords op) (devRead (gfxEng k) (a + 4 * off) 4 s).2.2).2.2, rfl, h2, ?_, h4, h5, ?_, rfl, rfl⟩
    · rw [← h3]
    · rw [← h6]

/-- Window 511 given a value. -/
def window (g : GfxWin) : State := setGfxWin 511 g (wr (POL_SHARE_gfx 31) 1 (wr (POL_STAT_state 31) 1 openDram))

/-- A decode session and an encode session with little in their descriptors. -/
def dec0 : VcdSes := VcdSes.opened [0]
def enc0 : VcdSes := VcdSes.opened [64, 0, 0, 0, 0, 65536]

/-- A picture with one unit, running on engine 15. -/
def pic0 : VcdPic := { VcdPic.begin 0 0 0 (some 0) 64 1 with next := 1, running := [(15, 0, 0)] }

/-- A source on a capture input. -/
def source0 : CapSource := ⟨true, false, .rgb8, 1920, 1080, 60000⟩

/-- Session 63 of polder 0, which has a share. -/
def session (v : VcdSes) (s : State) : State := setSes 63 (some v) (wr (POL_SHARE_vcd 0) 1 s)

/-- Capture input 3 captures. -/
def captures : State := regs [((CAP_CTRL_enable 3).inForce, 1), (CAP_STATUS_signal 3, 1)] base

/-- 32-bit words laid into memory. -/
def words (a : Nat) (ws : List Nat) (s : State) : State := writeNat a (4 * ws.length) (ws.foldr (fun w a => w + 4294967296 * a) 0) s

/-- An engine's choice of a unit. -/
def row0 : UnitChoice := ⟨63, 0, 0, true, none⟩

/-- An audio program with nothing in it, and a stream. -/
def prog0 : AudProg := ⟨0, 0, 0, [], [], [], [], [], [], [], 0⟩
def stream0 : Aes67 := ⟨false, 15, 0, 0, 1, 3, 1000000, 0, [], none, 0, 0⟩

/-- Memory holding the image of an audio program whose D0 section is END alone. -/
def image0 : State :=
  { base with mem := [(1073741824, 65), (1073741825, 85), (1073741826, 68), (1073741827, 80), (1073741828, 1), (1073741830, 24), (1073741832, 100),
                      (1073741836, 34), (1073741837, 217), (1073741838, 54), (1073741839, 201), (1073741840, 1), (1073741844, 24), (1073741848, 1),
                      (1073741868, 128), (1073741869, 187), (1073741923, 252)] }

/-- Haptic channel 7 in a state. -/
def haptic (st : Nat) (v : HapCh) (s : State) : State := setHap 7 v (regs [(HAP_CH_CTRL_enable 7, 1), (HAP_CH_STAT_state 7, st)] s)

/-- A contact of polder 0 on touch channel 1. -/
def contact0 : TchContact := ⟨19, (0, 0), [], 0, 0, 0, 0, 0, 0, true, true, 0, false⟩
def touched : State := setTch 1 { TchCh.empty with contacts := [contact0] } (wr (TCH_STUCK_seconds 1) 1 base)

/-- An Onader frame's header, to all, of system 0. -/
def header (cls len : Nat) : OnaderHeader := ⟨BitVec.ofNat 32 (1 + 16 * cls + 65536 * len), 0, 0x40000000, 0, 0⟩

/-- Port 5 is up and takes part in PTP. -/
def online (s : State) : State :=
  regs [(ONL_PORT_STAT_up 5, 1), (ONL_PORT_CFG_ptp 5, 1), (ONL_PTP_CFG_mode, 1), ((ONL_PORT_CFG_enable 5).inForce, 1)] s

/-- A frame from port 5. -/
def eth0 : EthFrame := ⟨5, false, 0, 0, .device, none, none, 0, none⟩

/-- A manager's session under an empty key. -/
def manager : MgrSes := ⟨0, 0, 0, [], 0, true, some 0, 1, 0, 0, 0⟩
def managed (m : MgrSes) : State := { base with net := { base.net with mgr := some m } }

/-- A manager's payload of a kind with its tag. -/
def mgrBody (kind : Nat) : List Nat := [kind % 256, 0, 0, 0, 0, 0, 0, 0, 0, 0, 0, 0]
def tagged (kind : Nat) : List Nat := mgrBody kind ++ mgrTag [] (onlBytes (header 7 28)) (mgrBody kind)
def payload (kind : Nat) : List (BitVec 8) := (tagged kind).map (BitVec.ofNat 8)

theorem payload_read (kind : Nat) : tagged kind = (payload kind).map (fun b => b.toNat) := by
  have h : ∀ x ∈ tagged kind, x < 256 := by
    intro x hx
    rcases List.mem_append.mp hx with h | h
    · simp only [mgrBody, List.mem_cons, List.not_mem_nil, or_false] at h
      omega
    · exact Laws.mgrTag_lt _ _ _ _ h
  unfold payload
  generalize tagged kind = l at h
  induction l with
  | nil => rfl
  | cons x l ih =>
    have hx := h x (List.mem_cons_self ..)
    simp only [List.map_cons, BitVec.toNat_ofNat]
    rw [← ih (fun y hy => h y (List.mem_cons_of_mem _ hy)), Nat.mod_eq_of_lt hx]

theorem tagged_length (kind : Nat) : (tagged kind).length = 28 := by simp [tagged, mgrBody, Laws.mgrTag_length]

theorem payload_length (kind : Nat) : (payload kind).length = 28 := by simp [payload, tagged_length]

theorem tagged_tag (kind : Nat) : tagOf (tagged kind) = mgrTag [] (onlBytes (header 7 28)) (unTagged (tagged kind)) := by
  have h : (mgrBody kind).length = 12 := rfl
  simp only [tagOf, unTagged, tagged_length]
  simp only [tagged, List.drop_append, List.take_append, h]
  rfl

/-- A receive stream, and a device with its identity set. -/
def rx0 : RxStream := ⟨65535, 0, 63, 0, 1, 0, 0, 0, [], [], 0, 0, 0, 0⟩
def identified : State := { base with net := { base.net with identity := some ⟨16383, 0, 0, 0, 0, 0⟩ } }

/-- A record. -/
def record1 : EvRec := ⟨1, 3, false, false, false, false, false, false, none, 1, 0, 0, 0, 0, 0⟩

/-- Both meter banks hold valid copies, bank A the newer. -/
def banked : State :=
  { base with vlt := { base.vlt with bankA := MeterBank.sealed 2 [], bankB := MeterBank.sealed 1 [], sync := some [] } }

theorem sealed_valid (g : Nat) (d : List Nat) : (MeterBank.sealed g d).valid = true := by
  simp [MeterBank.valid, MeterBank.sealed, MeterBank.check, MeterBank.words]

theorem newest_sealed (v : VltSt) (ha : v.bankA = MeterBank.sealed 2 []) (hb : v.bankB = MeterBank.sealed 1 []) : newestBank v = some false := by
  have ga : (MeterBank.sealed 2 []).gen = 2 := rfl
  have gb : (MeterBank.sealed 1 []).gen = 1 := rfl
  simp only [newestBank, ha, hb, sealed_valid, ga, gb]
  decide

theorem banked_newest : newestBank banked.vlt = some false := newest_sealed _ rfl rfl

/-- A weir entry with a suppressed record. -/
def weir1 : Weir := ⟨1, 1, 1, 0, 0, 1, 0, 0, none⟩

/-- A check-value job of 64 bytes of secure OCM, CRC-32, and one beyond it. -/
def job0 : CvuJob := ⟨0x40000000, 64, 512, 0, 0, 0, [], [], [], true, false, none⟩
def job1 : CvuJob := { job0 with addr := 0x30000000 }

/-- Channel 7 runs a job for polder 0, which has a share. -/
def running0 (j : CvuJob) : State := setCvu 7 (some j) (wr (POL_SHARE_cvu 0) 1 base)

/-- Records wait for a block of the archive. -/
def archived : State :=
  { base with evr := { base.evr with archive := ⟨true, 0, 0, 1, 0, List.replicate (max 1 (Config.archiveRecords 0)) record1, 0, []⟩ } }

/-- Power-on values sampled at a reset. -/
def reset0 : ResetInfo := ⟨1, 3000, false, 0⟩

/-- The state with Tujan not ready, and its power and boot state given. -/
def booting (p : PwrSt) (s : State) : State := wr CRP_STATUS_tujan_ready 0 { s with pwr := p }

/-- Tujan firmware has been loaded, and a step of the boot chain begun. -/
def loaded (stage : Nat) (s : State) : State := wr CRP_BOOT_STAT_stage stage (booting { s.pwr with loaded := [(0x40000000, 64)] } s)

/-- A transition of power state that waits for some parties, or whose acknowledgements have come. -/
def trans0 (ws : List Nat) (acked : Option Nat) : PwrTrans := ⟨⟨30, Op.PWR_ENTER_QUIET, 0⟩, false, 1, ws, 0, acked⟩
def inTrans (t : PwrTrans) (s : State) : State := { s with pwr := { s.pwr with trans := some t } }

/-- The acknowledgement of message 5 on pair 0, which is a preparing notification. -/
def ack5 : Msg := [2049, 2 ^ 28 + 4 * 2 ^ 16, 5]
def acking (t : PwrTrans) : State :=
  inTrans t (setChan 1 { chan base 1 with unacked := [⟨5, Op.PWR_STATE_CHANGED, 0⟩] } (asking 0 ack5 base))
def unacked5 : Unacked := ⟨5, Op.PWR_STATE_CHANGED, 0⟩

/-- Tujan still keeps the splash of output 7 alive. -/
def splashing : State := { base with pwr := { base.pwr with splash := [7] } }

/-! ## Witnesses that take more than a list of values -/

def crcFrom (c : Nat) (ws : List Nat) : Nat := crcBytes 32 0x1EDC6F41 true c (wordsBytes ws)
theorem crcFrom_append (c : Nat) (a b : List Nat) : crcFrom c (a ++ b) = crcFrom (crcFrom c a) b := by
  simp [crcFrom, crcBytes, wordsBytes, List.foldl_append]
def imageWords : List Nat := [0x50445541, 1 + 65536 * 24, 100, 3375814946, 1, 24, 1, 0, 0, 0, 0, 48000, 0, 0, 0, 0, 0, 0, 0, 0, 0, 0, 0, 0, 0xFC000000]
def crcWords : List Nat :=
  [0x50445541, 1 + 65536 * 24, 100, 0, 1] ++ ([24, 1, 0, 0, 0] ++ ([0, 48000, 0, 0, 0] ++ ([0, 0, 0, 0, 0] ++ [0, 0, 0, 0, 0xFC000000])))
theorem crc1 : crcFrom 0xFFFFFFFF [0x50445541, 1 + 65536 * 24, 100, 0, 1] = 3602292930 := by decide +kernel
theorem crc2 : crcFrom 3602292930 [24, 1, 0, 0, 0] = 3092835985 := by decide +kernel
theorem crc3 : crcFrom 3092835985 [0, 48000, 0, 0, 0] = 1408569493 := by decide +kernel
theorem crc4 : crcFrom 1408569493 [0, 0, 0, 0, 0] = 3079240849 := by decide +kernel
theorem crc5 : crcFrom 3079240849 [0, 0, 0, 0, 0xFC000000] = 3143930732 := by decide +kernel
theorem crc_all : crcFrom 0xFFFFFFFF crcWords = 3143930732 := by
  unfold crcWords
  rw [crcFrom_append, crcFrom_append, crcFrom_append, crcFrom_append, crc1, crc2, crc3, crc4, crc5]
theorem crc32c_of {ws : List Nat} {v : Nat} (h : crcFrom 0xFFFFFFFF ws = v) : crc32c (wordsBytes ws) = reflect 32 v ^^^ 0xFFFFFFFF := by
  subst h; rfl
theorem crc_words : crc32c (wordsBytes crcWords) = 3375814946 :=
  (crc32c_of crc_all).trans (by decide +kernel)
theorem image_crc : crc32c (wordsBytes (imageWords.take 3 ++ 0 :: imgWords imageWords 4 21)) = 3375814946 := by
  have e : imageWords.take 3 ++ 0 :: imgWords imageWords 4 21 = crcWords := by decide +kernel
  rw [e, crc_words]
theorem image_header : headerFault imageWords 100 = none := by
  unfold headerFault
  dsimp only
  rw [show imageWords.getD 2 0 / 4 - 4 = 21 from rfl, image_crc]
  decide +kernel
theorem test_AudioCommandsComplete_3 : ∃ (k : Fin 32) (m : Msg) (s : State) (p : Nat) (head : List Nat) (img : List Nat) (g : AudProg),
    asked Op.AUD_LOAD_PROGRAM k m s = true ∧ Req.polder ⟨k, m⟩ = some p ∧ (audPol s p).swap = none ∧ head = leWords (min 24 (Req.bufSize ⟨k, m⟩ / 4)) (readBytes s (Req.bufAddr ⟨k, m⟩) (min 96 (Req.bufSize ⟨k, m⟩))) ∧ img = head ++ (leWords (min (Req.bufSize ⟨k, m⟩ / 4) (readNat s (Req.bufAddr ⟨k, m⟩ + 8) 4 / 4)) (readBytes s (Req.bufAddr ⟨k, m⟩) (min (Req.bufSize ⟨k, m⟩) (readNat s (Req.bufAddr ⟨k, m⟩ + 8) 4)))).drop head.length ∧ headerFault img (Req.bufSize ⟨k, m⟩) = none ∧ g = imgProg img ∧ firstOffset (bodyFaults img g) = none ∧ domainFault s p img g = none ∧ taintFails g = false ∧ imgCost img g = g.cost ∧ g.cost ≤ audBudget s p ∧ (((List.range 32).flatMap (fun o => (audPol s o).active.toList ++ (if o = p then [] else (audPol s o).staged.toList))).map progWords).sum + progWords g ≤ 262144 :=
  ⟨0, refMsg Op.AUD_LOAD_PROGRAM 0x40000000 100, asking 0 (refMsg Op.AUD_LOAD_PROGRAM 0x40000000 100) image0, 0, imageWords.take 24, imageWords,
    imgProg imageWords, by decide +kernel, rfl, by decide +kernel, by decide +kernel, by decide +kernel, image_header, rfl, by decide +kernel,
    by decide +kernel, by decide +kernel, by decide +kernel, by decide +kernel, by decide +kernel⟩

theorem test_VaultComplete_14 : ∃ (k : Fin 32) (m : Msg) (s : State), asked Op.VLT_GET_METERS k m s = true ∧ newestBank s.vlt = none := by
  obtain ⟨c, hc⟩ : ∃ c : Nat, (c == (MeterBank.mk 0 [] 0).check) = false := ⟨(MeterBank.mk 0 [] 0).check + 1, by simp⟩
  refine ⟨0, refMsg Op.VLT_GET_METERS 0x40000000 512, asking 0 (refMsg Op.VLT_GET_METERS 0x40000000 512)
    { base with vlt := { base.vlt with bankA := ⟨0, [], c⟩, bankB := ⟨0, [], c⟩ } }, rfl, ?_⟩
  have h : (MeterBank.mk 0 [] c).valid = false := hc
  show newestBank { base.vlt with bankA := ⟨0, [], c⟩, bankB := ⟨0, [], c⟩ } = none
  simp only [newestBank, h]

/-- A row of a register table, found at an address, of the shape asked for. -/
theorem row_found {o : Option (Row × List Nat × Bool)} {wide high w : Bool}
    (h : o.any (fun x => x.1.wide == wide && x.2.2 == high && (!w || writable (x.1.flds x.2.1))) = true) :
    ∃ row ix, o = some (row, ix, high) ∧ row.wide = wide ∧ (w = true → writable (row.flds ix) = true) := by
  rcases o with _ | ⟨row, ix, b⟩
  · cases h
  · simp only [Option.any_some, Bool.and_eq_true, beq_iff_eq, Bool.or_eq_true, Bool.not_eq_true'] at h
    refine ⟨row, ix, by rw [h.1.2], h.1.1, fun hw => ?_⟩
    rcases h.2 with h | h
    · rw [hw] at h; cases h
    · exact h

theorem get_run (b n i : Nat) (h : i < n) : Memory.get ((List.range' b n).map (fun a => (a, (0xA0 : Byte)))) (b + i) = 0xA0 := by
  induction n generalizing b i with
  | zero => omega
  | succ n ih =>
    rw [List.range'_succ, List.map_cons]
    unfold Memory.get
    cases i with
    | zero => simp
    | succ i =>
      rw [if_neg (by omega), if_neg (by omega)]
      have := ih (b + 1) i (by omega)
      rw [show b + (i + 1) = b + 1 + i from by omega]
      exact this

/-- A map of 8 GiB stands at the base of DRAM, valid, secure and closed to devices throughout. -/
def mapped : State :=
  { regs [(PLD_MODE_STAT_switching, 1), (PLD_TIDEMARK_tidemark, 0x9000), (PLD_MAP_BASE_base.inForce, 0x1000000)] dram with
    mem := (List.range' 0x1000000000 25094).map (fun a => (a, 0xA0)) }

theorem mapped_byte (i : Nat) (h : i < 25094) : byteAt mapped (0x1000000000 + i) = 0xA0 := by
  unfold byteAt
  rw [show mapped.mem = (List.range' 0x1000000000 25094).map (fun a => (a, (0xA0 : Byte))) from rfl, get_run _ _ _ h]
  rfl

theorem test_ProtectionRegistersComplete_1 : ∃ (bad : Option (BitVec 40)) (s : State),
    rd s PLD_MODE_STAT_switching ≠ 0 ∧ mapResult s (bad.map (fun l => l.toNat)) = 1 := by
  refine ⟨none, mapped, by decide +kernel, ?_⟩
  have h0 : ownEntries mapped = (0x1000000000 + 24576, 518) := by decide +kernel
  have h1 : mapBase mapped = 0x1000000000 := by decide +kernel
  have h2 : mapPlaced mapped = true := by decide +kernel
  have h3 : badMapLine mapped none = none := by decide +kernel
  unfold mapResult
  have h4 : (List.range (ownEntries mapped).2).all (fun i => ownEntryOk (byteAt mapped ((ownEntries mapped).1 + i))) = true := by
    rw [List.all_eq_true]
    intro i hi
    rw [h0, List.mem_range] at hi
    rw [h0, Nat.add_assoc, mapped_byte _ (by simp only at hi; omega)]
    rfl
  have h5 : (List.range 4096).all (fun i => bankEntryOk (byteAt mapped (mapBase mapped + i))) = true := by
    rw [List.all_eq_true]
    intro i hi
    rw [List.mem_range] at hi
    rw [h1, mapped_byte _ (by omega)]
    rfl
  rw [Option.map_none, h2, h3, h4, h5]
  rfl

theorem test_RegisterAccessesComplete_0 : ∃ (a : Access) (addr : BitVec 40) (v : BitVec 64) (s : State) (h : Nat) (row : Row) (ix : List Nat),
    isReg addr.toNat = true ∧ msixAt s a addr.toNat = none ∧ rowWrite a addr (v.setWidth 32) s = none ∧
    admitted a addr.toNat (v.setWidth 32).toNat s = true ∧ regHome s addr.toNat = some h ∧ rowOf s addr.toNat = some (row, ix, false) ∧
    row.wide = false ∧ writable (row.flds ix) = true ∧ ownEffect (carried s a addr.toNat) addr.toNat h (v.setWidth 32).toNat s = none := by
  obtain ⟨row, ix, h1, h2, h3⟩ := row_found (o := rowOf base 0x20100050) (wide := false) (high := false) (w := true) (by decide +kernel)
  exact ⟨tujan, 0x20100050, 1000, base, 0x20100050, row, ix, by decide +kernel, by decide +kernel, rfl, by decide +kernel, by decide +kernel, h1, h2,
    h3 rfl, rfl⟩

theorem test_RegisterAccessesComplete_2 : ∃ (a : Access) (addr : BitVec 40) (v : BitVec 64) (s : State) (h : Nat) (row : Row) (ix : List Nat),
    isReg addr.toNat = true ∧ msixAt s a addr.toNat = none ∧ rowWrite a addr (v.setWidth 32) s = none ∧
    admitted a addr.toNat (v.setWidth 32).toNat s = true ∧ regHome s addr.toNat = some h ∧ rowOf s addr.toNat = some (row, ix, false) ∧
    row.wide = true ∧ writable (row.flds ix) = true := by
  obtain ⟨row, ix, h1, h2, h3⟩ := row_found (o := rowOf base 0x20100048) (wide := true) (high := false) (w := true) (by decide +kernel)
  exact ⟨tujan, 0x20100048, 1000, base, 0x20100048, row, ix, by decide +kernel, by decide +kernel, rfl, by decide +kernel, by decide +kernel, h1, h2,
    h3 rfl⟩

theorem test_RegisterAccessesComplete_3 : ∃ (a : Access) (addr : BitVec 40) (v : BitVec 32) (s : State) (h : Nat) (row : Row) (ix : List Nat),
    isPage addr.toNat = false ∧ msixAt s a addr.toNat = none ∧ rowWrite a addr v s = none ∧ admitted a addr.toNat v.toNat s = true ∧
    regHome s addr.toNat = some h ∧ rowOf s addr.toNat = some (row, ix, true) ∧ row.wide = true ∧ writable (row.flds ix) = true := by
  obtain ⟨row, ix, h1, h2, h3⟩ := row_found (o := rowOf base 0x2010004C) (wide := true) (high := true) (w := true) (by decide +kernel)
  exact ⟨tujan, 0x2010004C, 1000, base, 0x2010004C, row, ix, by decide +kernel, by decide +kernel, rfl, by decide +kernel, by decide +kernel, h1, h2,
    h3 rfl⟩

theorem test_RegisterAccessesComplete_4 : ∃ (a : Access) (addr : BitVec 40) (s : State) (h : Nat) (row : Row) (ix : List Nat),
    isPage addr.toNat = false ∧ msixAt s a addr.toNat = none ∧ effectRead a addr s = none ∧ readable a addr.toNat s = true ∧
    regHome s addr.toNat = some h ∧ rowOf s addr.toNat = some (row, ix, false) ∧ row.wide = true := by
  obtain ⟨row, ix, h1, h2, -⟩ := row_found (o := rowOf base 0x20100048) (wide := true) (high := false) (w := true) (by decide +kernel)
  exact ⟨tujan, 0x20100048, base, 0x20100048, row, ix, by decide +kernel, by decide +kernel, rfl, by decide +kernel, by decide +kernel, h1, h2⟩

/-- What a step makes of a state. -/
def after (s : State) : State := match step s with | .next t => t | _ => s

/-- A state with one command to come. -/
def toRun (c : Instr) (s : State) : State := { s with pending := [c] }

def goesOn (s : State) : Bool := match step s with | .next _ => true | _ => false

theorem ran (c : Instr) (s : State) (h : goesOn (toRun c s) = true) : step (toRun c s) = .next (after (toRun c s)) := by
  unfold goesOn at h
  unfold after
  cases hs : step (toRun c s) with
  | next t => rfl
  | fault f => rw [hs] at h; cases h
  | refused r => rw [hs] at h; cases h

/-- Eight messages wait on channel 0, and core 1 pushes another; the recorder holds a record, and the world that pushes is warden. -/
def crowded : State :=
  setChan 0 { chan base 0 with q := List.replicate 8 [0, 0] } { base with evr := { base.evr with ring := [record1], fifo := [record1] } }
def pushing : Instr := .mbxPush core1 0x20010040 1

theorem crowded_bounded : ChannelsBounded (toRun pushing crowded) := by
  intro n
  have h : (chan (toRun pushing crowded) n).q = if n = 0 then List.replicate 8 [0, 0] else [] := by
    show (chan (setChan 0 _ _) n).q = _
    rw [chan_setChan]
    split
    · rfl
    · rfl
  rw [h]
  split <;> simp

/-- A device reset comes while bit 0 of OTP field 2 is blown. -/
def blown : State := { base with pwr := { base.pwr with fuses := [(2, 1)] } }

theorem test_StepRunsTheFrontCommand : ∃ (c : Instr) (rest : List Instr) (s : State), s.pending = c :: rest :=
  ⟨pushing, [pushing], { base with pending := [pushing, pushing] }, rfl⟩

theorem test_EmptyQueueLetsTimePass : ∃ s : State, s.pending = [] := ⟨base, rfl⟩

theorem test_CommandsLeaveTheQueue : ∃ (c : Instr) (s t : State), exec c s = .next t :=
  ⟨pushing, crowded, after (toRun pushing crowded), ran pushing crowded (by decide +kernel)⟩

theorem test_StepsKeepMemoryCanonical : ∃ s t : State, MemoryCanonical s ∧ step s = .next t :=
  ⟨toRun (.memoryAccess (req tujan .write 0x40000000 8)) base, _, (by decide +kernel : Memory.wf base.mem = true), ran _ _ (by decide +kernel)⟩

theorem test_StepsKeepChannelsBounded : ∃ s t : State, ChannelsBounded s ∧ step s = .next t :=
  ⟨_, _, crowded_bounded, ran pushing crowded (by decide +kernel)⟩

theorem test_StepsKeepTheRecorderBounded : ∃ s t : State, RecorderBounded s ∧ step s = .next t :=
  ⟨_, _, ⟨by decide +kernel, by decide +kernel, by decide +kernel⟩, ran pushing crowded (by decide +kernel)⟩

theorem test_StepsKeepTheWardenLegal : ∃ s t : State, WardenLegal s ∧ step s = .next t :=
  ⟨_, _, ⟨by decide +kernel, fun c hc => (by cases hc), fun h hh => (by cases hh)⟩, ran pushing crowded (by decide +kernel)⟩

theorem test_BlownBitsStayBlown : ∃ (s t : State) (field bitNo : Nat), bit (Tab.get 0 s.pwr.fuses field) bitNo = true ∧ step s = .next t :=
  ⟨_, _, 2, 0, (by decide +kernel : bit (Tab.get 0 (toRun (.deviceReset false reset0) blown).pwr.fuses 2) 0 = true), ran (.deviceReset false reset0) blown (by decide +kernel)⟩

theorem test_FreeValuesAreDrawnOnce : ∃ s t : State, step s = .next t := ⟨_, _, ran (.deviceReset false reset0) blown (by decide +kernel)⟩

theorem test_CommandsThatStoreNothing : ∃ (c : Instr) (s t : State), storesNothing c = true ∧ exec c s = .next t :=
  ⟨pushing, crowded, after (toRun pushing crowded), rfl, ran pushing crowded (by decide +kernel)⟩

/-- Polder 1 uses pair 1, and is being reset. -/
def revoked : State := regs [(POL_STAT_state 1, 2), (MBX_CH_CFG_enable 2, 1)] base
def msg1 (op : Nat) : Msg := (10 + 64) :: (msg op []).tail

theorem test_RefusedRequestsOnlyReply_0 : ∃ (c : Instr) (op k : Nat) (s : State), asksFor c = some (op, k) ∧ takeable s k = none :=
  ⟨.pwrGetState 31, Op.PWR_GET_STATE, 31, State.reset, rfl, by decide +kernel⟩

theorem test_RefusedRequestsOnlyReply_1 : ∃ (c : Instr) (op k : Nat) (s : State) (m : Msg), asksFor c = some (op, k) ∧ takeable s k = some m ∧
    (Msg.opcode m ≠ op ∨ (isRequest m = false ∧ badForm m = false)) :=
  ⟨.pwrGetState 0, Op.PWR_GET_STATE, 0, asking 0 (msg Op.PWR_SHUTDOWN []) base, msg Op.PWR_SHUTDOWN [], rfl, by decide +kernel, by decide +kernel⟩

theorem test_RefusedRequestsOnlyReply_2 : ∃ (c : Instr) (op k : Nat) (s : State) (m : Msg), asksFor c = some (op, k) ∧ takeable s k = some m ∧
    Msg.opcode m = op ∧ badForm m = true :=
  ⟨.pwrGetState 0, Op.PWR_GET_STATE, 0, asking 0 [2049, Op.PWR_GET_STATE + 65536 * 57] base, [2049, Op.PWR_GET_STATE + 65536 * 57], rfl,
    by decide +kernel, by decide +kernel, by decide +kernel⟩

theorem test_RefusedRequestsOnlyReply_3 : ∃ (c : Instr) (op k : Nat) (s : State) (m : Msg) (st : Nat), asksFor c = some (op, k) ∧
    takeable s k = some m ∧ Msg.opcode m = op ∧ isRequest m = true ∧ badForm m = false ∧ classRefusal s ⟨k, m⟩ = some st :=
  ⟨.pwrShutdown 1, Op.PWR_SHUTDOWN, 1, asking 1 (msg1 Op.PWR_SHUTDOWN) base, msg1 Op.PWR_SHUTDOWN, ST_NOT_WARDEN, rfl, by decide +kernel,
    by decide +kernel, by decide +kernel, by decide +kernel, by decide +kernel⟩

theorem test_RefusedRequestsOnlyReply_4 : ∃ (c : Instr) (op k : Nat) (s : State) (m : Msg), asksFor c = some (op, k) ∧ takeable s k = some m ∧
    Msg.opcode m = op ∧ isRequest m = true ∧ badForm m = false ∧ classRefusal s ⟨k, m⟩ = none ∧ senderResetting s ⟨k, m⟩ = true :=
  ⟨.gfxCtxSetup 1, Op.GFX_CTX_SETUP, 1, asking 1 (msg1 Op.GFX_CTX_SETUP) revoked, msg1 Op.GFX_CTX_SETUP, rfl, by decide +kernel,
    by decide +kernel, by decide +kernel, by decide +kernel, by decide +kernel, by decide +kernel⟩

theorem test_RefusedRequestsOnlyReply_5 : ∃ (c : Instr) (op k : Nat) (s : State) (m : Msg) (st : Nat), asksFor c = some (op, k) ∧
    takeable s k = some m ∧ Msg.opcode m = op ∧ isRequest m = true ∧ badForm m = false ∧ classRefusal s ⟨k, m⟩ = none ∧
    senderResetting s ⟨k, m⟩ = false ∧ refRefusal s ⟨k, m⟩ = some st :=
  ⟨.evrRead 0, Op.EVR_READ, 0, asking 0 (refMsg Op.EVR_READ 0x40000000 63) base, refMsg Op.EVR_READ 0x40000000 63, ST_BAD_ARG, rfl,
    by decide +kernel, by decide +kernel, by decide +kernel, by decide +kernel, by decide +kernel, by decide +kernel, by decide +kernel⟩

theorem test_AccessesStoreOnlyWhereAddressed_0 : ∃ (r : MemReq) (s t : State) (a b : Nat), MemoryCanonical s ∧ meetsRegister r s = false ∧
    exec (.memoryAccess r) s = .next t ∧ storesAt r s = some a ∧ (b < a ∨ a + r.len ≤ b) :=
  ⟨req tujan .write 0x40000000 8, base, _, 0x40000000, 0x40000008, (by decide +kernel : Memory.wf base.mem = true), by decide +kernel,
    ran (.memoryAccess (req tujan .write 0x40000000 8)) base (by decide +kernel), by decide +kernel, by decide +kernel⟩

theorem test_AccessesStoreOnlyWhereAddressed_1 : ∃ (r : MemReq) (s t : State), MemoryCanonical s ∧ meetsRegister r s = false ∧
    exec (.memoryAccess r) s = .next t ∧ storesAt r s = none :=
  ⟨req tujan .read 0x40000000 8, base, _, (by decide +kernel : Memory.wf base.mem = true), by decide +kernel,
    ran (.memoryAccess (req tujan .read 0x40000000 8)) base (by decide +kernel), by decide +kernel⟩

theorem test_AccessesStoreOnlyWhereAddressed_2 : ∃ (ac : Access) (addr : BitVec 40) (size : Fin 17) (v : BitVec 64) (u : Bool) (s t : State)
    (r : MemReq) (a b : Nat), MemoryCanonical s ∧
    r = { acc := ac, dir := .write, addr := addr, len := size.castLE (by decide), data := (leBytes size v.toNat).map (BitVec.ofNat 8),
          block := 0, unit := 0, ecc := if u then .uncorrectable else .clean, retry := .none, outstanding := none } ∧
    meetsRegister r s = false ∧ exec (.ocmAliasWrite ac addr size v u) s = .next t ∧ storesAt r s = some a ∧ (b < a ∨ a + size ≤ b) :=
  ⟨tujan, 0x50000008, 8, 0xFF, false, base, _, _, 0x40000008, 0x40000010, (by decide +kernel : Memory.wf base.mem = true), rfl, by decide +kernel,
    ran (.ocmAliasWrite tujan 0x50000008 8 0xFF false) base (by decide +kernel), by decide +kernel, by decide +kernel⟩

theorem test_WideRegistersKeepTheirHalvesTogether_0 : ∃ (a : Access) (addr : BitVec 40) (s : State) (h : Nat) (row : Row) (ix : List Nat),
    isPage addr.toNat = false ∧ msixAt s a addr.toNat = none ∧ effectRead a addr s = none ∧ readable a addr.toNat s = true ∧
    regHome s addr.toNat = some h ∧ rowOf s addr.toNat = some (row, ix, false) ∧ row.wide = true := test_RegisterAccessesComplete_4

/-- Tujan has read the low word of a wide register, or has not. -/
def latched (w : Option Nat) : State := { base with rdLatch := [(wordKey 9 0x20100048, w)] }

theorem wide_read (b : Bool) : ∃ (r : MemReq) (s : State) (h : Nat) (row : Row) (ix : List Nat), r.dir = .read ∧ r.len = 4 ∧
    r.acc.route = .fabric ∧ cannotIssue r (carried s r.acc r.addr.toNat) s = false ∧ r.acc.master = 9 ∧ isReg r.addr.toNat = true ∧
    isPage r.addr.toNat = false ∧ effectRead r.acc r.addr s = none ∧ readable r.acc r.addr.toNat s = true ∧
    regHome s r.addr.toNat = some h ∧ rowOf s r.addr.toNat = some (row, ix, true) ∧ row.wide = true ∧
    Tab.get none s.rdLatch (wordKey 9 (r.addr.toNat - 4)) = if b then some 7 else none := by
  obtain ⟨row, ix, h1, h2, -⟩ := row_found (o := rowOf (latched (if b then some 7 else none)) 0x2010004C) (wide := true) (high := true) (w := true) (by cases b <;> decide +kernel)
  refine ⟨req tujan .read 0x2010004C 4, latched (if b then some 7 else none), 0x2010004C, row, ix, rfl, rfl, rfl, ?_, rfl, by decide +kernel, by decide +kernel, rfl, ?_, rfl, h1,
    h2, rfl⟩
  · cases b <;> decide +kernel
  · cases b <;> decide +kernel

theorem test_WideRegistersKeepTheirHalvesTogether_1 : ∃ (r : MemReq) (s : State) (h : Nat) (row : Row) (ix : List Nat) (w : Nat), r.dir = .read ∧
    r.len = 4 ∧ r.acc.route = .fabric ∧ cannotIssue r (carried s r.acc r.addr.toNat) s = false ∧ r.acc.master = 9 ∧ isReg r.addr.toNat = true ∧
    isPage r.addr.toNat = false ∧ effectRead r.acc r.addr s = none ∧ readable r.acc r.addr.toNat s = true ∧
    regHome s r.addr.toNat = some h ∧ rowOf s r.addr.toNat = some (row, ix, true) ∧ row.wide = true ∧
    Tab.get none s.rdLatch (wordKey 9 (r.addr.toNat - 4)) = some w := by
  obtain ⟨r, s, h, row, ix, e⟩ := wide_read true
  exact ⟨r, s, h, row, ix, 7, e⟩

theorem test_WideRegistersKeepTheirHalvesTogether_2 : ∃ (r : MemReq) (s : State) (h : Nat) (row : Row) (ix : List Nat), r.dir = .read ∧
    r.len = 4 ∧ r.acc.route = .fabric ∧ cannotIssue r (carried s r.acc r.addr.toNat) s = false ∧ r.acc.master = 9 ∧ isReg r.addr.toNat = true ∧
    isPage r.addr.toNat = false ∧ effectRead r.acc r.addr s = none ∧ readable r.acc r.addr.toNat s = true ∧
    regHome s r.addr.toNat = some h ∧ rowOf s r.addr.toNat = some (row, ix, true) ∧ row.wide = true ∧
    Tab.get none s.rdLatch (wordKey 9 (r.addr.toNat - 4)) = none := wide_read false

theorem test_WideRegistersKeepTheirHalvesTogether_3 : ∃ (a : Access) (addr : BitVec 40) (v : BitVec 64) (s : State) (h : Nat) (row : Row)
    (ix : List Nat), isReg addr.toNat = true ∧ msixAt s a addr.toNat = none ∧ rowWrite a addr (v.setWidth 32) s = none ∧
    admitted a addr.toNat (v.setWidth 32).toNat s = true ∧ regHome s addr.toNat = some h ∧ rowOf s addr.toNat = some (row, ix, false) ∧
    row.wide = true ∧ writable (row.flds ix) = true := test_RegisterAccessesComplete_2

theorem test_WideRegistersKeepTheirHalvesTogether_4 : ∃ (a : Access) (addr : BitVec 40) (v : BitVec 32) (s : State) (h : Nat) (row : Row)
    (ix : List Nat), isPage addr.toNat = false ∧ msixAt s a addr.toNat = none ∧ rowWrite a addr v s = none ∧
    admitted a addr.toNat v.toNat s = true ∧ regHome s addr.toNat = some h ∧ rowOf s addr.toNat = some (row, ix, true) ∧
    row.wide = true ∧ writable (row.flds ix) = true := test_RegisterAccessesComplete_3

theorem test_ForeignPagesCannotBeWritten_0 : ∃ (r : MemReq) (s t : State) (c : Carried) (b : Nat), MemoryCanonical s ∧ MapSettled s ∧
    rdB s PLD_MODE_STAT_mode = true ∧ meetsRegister r s = false ∧ c = carried s r.acc r.addr.toNat ∧ c.secure = false ∧ c.master ≠ 9 ∧
    (inOcm b = true ∨ inDramRange b = true) ∧ pageGiven s b (isDeviceMaster c.master) c.polder = false ∧ exec (.memoryAccess r) s = .next t :=
  ⟨req (dev 24) .write 0x40000000 8, wr PLD_MODE_STAT_mode 1 base, _, _, 0x40000007,
    (by decide +kernel : Memory.wf (wr PLD_MODE_STAT_mode 1 base).mem = true), fun _ => Or.inl rfl, by decide +kernel, by decide +kernel, rfl,
    by decide +kernel, by decide +kernel, by decide +kernel, by decide +kernel,
    ran (.memoryAccess (req (dev 24) .write 0x40000000 8)) (wr PLD_MODE_STAT_mode 1 base) (by decide +kernel)⟩

theorem test_ForeignPagesCannotBeWritten_1 : ∃ (r : MemReq) (s t : State) (c : Carried) (b : Nat), MemoryCanonical s ∧
    rdB s PLD_MODE_STAT_mode = false ∧ meetsRegister r s = false ∧ c = carried s r.acc r.addr.toNat ∧ c.secure = false ∧ c.master ≠ 9 ∧
    (inOcm b = true ∨ inDramRange b = true) ∧ (tidemarkSecure s b = true ∨ rdB s PLD_MODE_CTRL_fence_normal = true) ∧
    exec (.memoryAccess r) s = .next t :=
  ⟨req (dev 24) .write 0x40000000 8, base, _, _, 0x40000007, (by decide +kernel : Memory.wf base.mem = true), by decide +kernel, by decide +kernel,
    rfl, by decide +kernel, by decide +kernel, by decide +kernel, by decide +kernel,
    ran (.memoryAccess (req (dev 24) .write 0x40000000 8)) base (by decide +kernel)⟩

/-! ## The hypotheses of the statements -/

theorem test_MailboxStepsComplete :
    (∃ (a : Access) (addr : BitVec 40) (v : BitVec 32) (s : State) (n : Nat), chanRegAt s addr.toNat 0x40 = some n ∧
      admitted a addr.toNat v.toNat s = true ∧ bit v.toNat 0 = true ∧ (chan s n).q.length < 8) ∧
    (∃ (a : Access) (addr : BitVec 40) (v : BitVec 32) (s : State) (n : Nat), chanRegAt s addr.toNat 0x40 = some n ∧
      admitted a addr.toNat v.toNat s = true ∧ bit v.toNat 0 = true ∧ 8 ≤ (chan s n).q.length) ∧
    (∃ (a : Access) (addr : BitVec 40) (v : BitVec 32) (s : State) (n : Nat), chanRegAt s addr.toNat 0xC0 = some n ∧
      admitted a addr.toNat v.toNat s = true ∧ bit v.toNat 0 = true) ∧
    (∃ (n : Fin 32) (m : Fin 64) (ms : List (Fin 64)) (w : Nat) (s : State), rd s (MBX_LOCK_OWNER_owner n) = 0 ∧
      lockWinner (Tab.get 1 s.lockPtr n) ((m :: ms).map (fun x => x.val)) = some w) ∧
    (∃ (n : Fin 32) (m : Fin 64) (ms : List (Fin 64)) (s : State), rd s (MBX_LOCK_OWNER_owner n) ≠ 0) ∧
    (∃ (m : Fin 64) (n : Fin 32) (v : BitVec 32) (s : State), m.val ≠ 0 ∧ rd s (MBX_LOCK_OWNER_owner n) = m.val ∧ v.toNat = m.val) ∧
    (∃ (m : Fin 64) (n : Fin 32) (v : BitVec 32) (s : State), (¬ (m.val ≠ 0 ∧ rd s (MBX_LOCK_OWNER_owner n) = m.val ∧ v.toNat = m.val))) ∧
    (∃ (k : Fin 32) (s : State) (u : Unacked) (v : Unacked) (us : List Unacked) (vs : List Unacked), (chan s (2 * k)).unacked = u :: us ∧
      (chan s (2 * k + 1)).unacked = v :: vs ∧ bit (rd s MBX_CROSSWAIT_STAT_pair) k = false) ∧
    (∃ (k : Fin 32) (s : State) (h : Held) (hs : List Held), heldFor s k = h :: hs ∧ (chan s (2 * k + 1)).q.length < 8) ∧
    (∃ (k : Fin 32) (s : State) (h : Held) (hs : List Held), heldFor s k = h :: hs ∧ 8 ≤ (chan s (2 * k + 1)).q.length) ∧
    (∃ (k : Fin 32) (s : State) (m : Msg) (ms : List Msg) (u : Unacked), rdB s CRP_STATUS_tujan_ready = true ∧ (chan s (2 * k)).q = m :: ms ∧
      isRequest m = false ∧ badForm m = false ∧ ackTarget s k m = some u ∧ u.opcode ≠ Op.PWR_STATE_CHANGED) ∧
    (∃ (k : Fin 32) (s : State) (m : Msg) (ms : List Msg), rdB s CRP_STATUS_tujan_ready = true ∧ (chan s (2 * k)).q = m :: ms ∧
      isRequest m = false ∧ badForm m = false ∧ ackTarget s k m = none) ∧
    (∃ (k : Fin 32) (s : State) (m : Msg), takeable s k = some m ∧ Msg.opcode m ∉ commandOpcodes ∧ isRequest m = true ∧ badForm m = false) :=
  ⟨⟨core1, (0x20010040 : BitVec 40), (1 : BitVec 32), setChan 0 { chan base 0 with q := List.replicate 7 [0, 0] } base, 0, by decide +kernel,
    by decide +kernel, by decide +kernel, by decide +kernel⟩,
   ⟨core1, (0x20010040 : BitVec 40), (1 : BitVec 32), setChan 0 { chan base 0 with q := List.replicate 8 [0, 0] } base, 0, by decide +kernel,
    by decide +kernel, by decide +kernel, by decide +kernel⟩,
   ⟨tujan, (0x200100C0 : BitVec 40), (1 : BitVec 32), base, 0, by decide +kernel, by decide +kernel, by decide +kernel⟩,
   ⟨(31 : Fin 32), (63 : Fin 64), [1], 1, base, by decide +kernel, by decide +kernel⟩,
   ⟨(31 : Fin 32), (0 : Fin 64), [], wr (MBX_LOCK_OWNER_owner 31) 63 base, by decide +kernel⟩,
   ⟨(63 : Fin 64), (31 : Fin 32), (63 : BitVec 32), wr (MBX_LOCK_OWNER_owner 31) 63 base, by decide +kernel, by decide +kernel, by decide +kernel⟩,
   ⟨(63 : Fin 64), (31 : Fin 32), (62 : BitVec 32), wr (MBX_LOCK_OWNER_owner 31) 63 base, by decide +kernel⟩,
   ⟨(0 : Fin 32), setChan 0 { chan base 0 with unacked := [⟨0, 0, 0⟩] } (setChan 1 { chan base 1 with unacked := [⟨1, 0, 5⟩] } base), ⟨0, 0, 0⟩,
    ⟨1, 0, 5⟩, [], [], by decide +kernel, by decide +kernel, by decide +kernel⟩,
   ⟨(0 : Fin 32), setChan 1 { chan base 1 with q := List.replicate 7 [0, 0] } (setHeld 0 [⟨msg 0 [], false⟩] base), ⟨msg 0 [], false⟩, [],
    by decide +kernel, by decide +kernel⟩,
   ⟨(0 : Fin 32), setChan 1 { chan base 1 with q := List.replicate 8 [0, 0] } (setHeld 0 [⟨msg 0 [], false⟩] base), ⟨msg 0 [], false⟩, [],
    by decide +kernel, by decide +kernel⟩,
   ⟨(0 : Fin 32), setChan 1 { chan base 1 with unacked := [⟨5, 0, 0⟩] } (asking 0 [2049, 2 ^ 28 + 4 * 2 ^ 16, 5] base), [2049,
    2 ^ 28 + 4 * 2 ^ 16, 5], [], ⟨5, 0, 0⟩, by decide +kernel, by decide +kernel, by decide +kernel, by decide +kernel, by decide +kernel,
    by decide +kernel⟩,
   ⟨(0 : Fin 32), asking 0 [2049, 2 ^ 28 + 4 * 2 ^ 16, 5] base, [2049, 2 ^ 28 + 4 * 2 ^ 16, 5], [], by decide +kernel, by decide +kernel,
    by decide +kernel, by decide +kernel, by decide +kernel⟩,
   ⟨(0 : Fin 32), asking 0 (msg 0 []) base, msg 0 [], by decide +kernel, by decide +kernel, by decide +kernel, by decide +kernel⟩⟩

theorem test_WardenCommandsComplete :
    (∃ (k : Fin 32) (m : Msg) (s : State), asked Op.WARDEN_GET k m s = true) ∧
    (∃ (k : Fin 32) (m : Msg) (s : State), asked Op.WARDEN_CLAIM k m s = true ∧ s.warden.kind = 0 ∧ s.warden.window = none ∧ Req.kind ⟨k,
      m⟩ ∈ wardenOrder s) ∧
    (∃ (k : Fin 32) (m : Msg) (s : State) (t : Nat), asked Op.WARDEN_CLAIM k m s = true ∧ s.warden.kind = 0 ∧ s.warden.window = some t ∧
      s.now < t + claimWindow ∧ Req.kind ⟨k, m⟩ ∈ wardenOrder s ∧ (wardenOrder s).head? ≠ some (Req.kind ⟨k, m⟩)) ∧
    (∃ (s : State) (t : Nat) (w : Nat), s.warden.window = some t ∧
      (wardenOrder s).find? (fun k => s.warden.claims.any (fun c => c.kind == k)) = some w) ∧
    (∃ (k : Fin 32) (m : Msg) (s : State), asked Op.WARDEN_HANDOVER k m s = true ∧ s.warden.handover = none ∧
      bits (m.word 2) 1 0 ≠ s.warden.kind ∧ bits (m.word 2) 1 0 ∈ wardenOrder s) ∧
    (∃ (k : Fin 32) (m : Msg) (s : State) (h : Handover), asked Op.WARDEN_ACCEPT k m s = true ∧ s.warden.handover = some h ∧
      s.now < h.start + offerTime ∧ h.target = Req.kind ⟨k, m⟩) ∧
    (∃ (s : State) (h : Handover), s.warden.handover = some h) ∧
    (∃ (k : Fin 32) (m : Msg) (s : State), asked Op.WARDEN_RELEASE k m s = true ∧ s.warden.kind ≠ 0 ∧ s.warden.handover = none) :=
  ⟨⟨(0 : Fin 32), msg Op.WARDEN_GET [], asking 0 (msg Op.WARDEN_GET []) (base), by decide +kernel⟩,
   ⟨(0 : Fin 32), msg Op.WARDEN_CLAIM [], asking 0 (msg Op.WARDEN_CLAIM []) ({ base with warden := ⟨0, none, [], none, 0⟩ }), by decide +kernel,
    by decide +kernel, by decide +kernel, by decide +kernel⟩,
   ⟨(30 : Fin 32), 10 :: (msg Op.WARDEN_CLAIM []).tail,
    asking 30 (10 :: (msg Op.WARDEN_CLAIM []).tail) { base with warden := ⟨0, some 0, [], none, 0⟩ }, 0, by decide +kernel, by decide +kernel,
    by decide +kernel, by decide +kernel, by decide +kernel, by decide +kernel⟩,
   ⟨{ base with warden := ⟨0, some 0, [⟨3, ⟨31, 0, 0⟩⟩, ⟨2, ⟨30, 0, 0⟩⟩], none, 0⟩ }, 0, 2, by decide +kernel, by decide +kernel⟩,
   ⟨(0 : Fin 32), msg Op.WARDEN_HANDOVER [3], asking 0 (msg Op.WARDEN_HANDOVER [3]) (base), by decide +kernel, by decide +kernel,
    by decide +kernel, by decide +kernel⟩,
   ⟨(0 : Fin 32), msg Op.WARDEN_ACCEPT [],
    asking 0 (msg Op.WARDEN_ACCEPT []) ({ base with now := 999999999, warden := ⟨2, none, [], some ⟨1, 0, ⟨30, 0, 0⟩⟩, 0⟩ }), ⟨1, 0, ⟨30, 0, 0⟩⟩,
    by decide +kernel, by decide +kernel, by decide +kernel, by decide +kernel⟩,
   ⟨{ base with warden := ⟨2, none, [], some ⟨1, 0, ⟨30, 0, 0⟩⟩, 0⟩ }, ⟨1, 0, ⟨30, 0, 0⟩⟩, by decide +kernel⟩,
   ⟨(0 : Fin 32), msg Op.WARDEN_RELEASE [], asking 0 (msg Op.WARDEN_RELEASE []) (base), by decide +kernel, by decide +kernel, by decide +kernel⟩⟩

theorem test_DeviceCommandsComplete :
    (∃ (k : Fin 32) (m : Msg) (s : State), asked Op.DEV_GET_INFO k m s = true) ∧
    (∃ (k : Fin 32) (m : Msg) (s : State), asked Op.DEV_GET_STATUS k m s = true) ∧
    (∃ (k : Fin 32) (m : Msg) (s : State), asked Op.MBX_SET_RX k m s = true) ∧
    (∃ (k : Fin 32) (m : Msg) (s : State) (ws : List Nat), asked Op.DEV_GET_PARAM k m s = true ∧ paramRead ⟨k,
      m⟩ s (bits (m.word 2) 15 0) = some (true, ws)) ∧
    (∃ (k : Fin 32) (m : Msg) (s : State), asked Op.DEV_SET_PARAM k m s = true ∧ bits (m.word 2) 15 0 = 0x0130 ∧ 700 ≤ bits (m.word 3) 11 0 ∧
      bits (m.word 3) 11 0 + 10 ≤ bits (m.word 3) 27 16 ∧ bits (m.word 3) 27 16 ≤ 1150) ∧
    (∃ (k : Fin 32) (m : Msg) (s : State), asked Op.DEV_SET_PARAM k m s = true ∧ bits (m.word 2) 15 0 = 0x0600 ∧ 1 ≤ m.word 3 ∧ m.word 3 ≤ 1000) ∧
    (∃ (k : Fin 32) (m : Msg) (s : State), asked Op.DEV_SET_PARAM k m s = true ∧ bits (m.word 2) 15 0 = 0x0301 ∧ 256 ≤ bits (m.word 3) 15 0 ∧
      1 ≤ bits (m.word 3) 23 16) :=
  ⟨⟨(0 : Fin 32), msg Op.DEV_GET_INFO [], asking 0 (msg Op.DEV_GET_INFO []) (base), by decide +kernel⟩,
   ⟨(0 : Fin 32), msg Op.DEV_GET_STATUS [], asking 0 (msg Op.DEV_GET_STATUS []) (base), by decide +kernel⟩,
   ⟨(0 : Fin 32), msg Op.MBX_SET_RX [], asking 0 (msg Op.MBX_SET_RX []) (base), by decide +kernel⟩,
   ⟨(0 : Fin 32), msg Op.DEV_GET_PARAM [0x1716], asking 0 (msg Op.DEV_GET_PARAM [0x1716]) (base), [0], by decide +kernel, by decide +kernel⟩,
   ⟨(0 : Fin 32), msg Op.DEV_SET_PARAM [0x0130, 700 + 1150 * 65536], asking 0 (msg Op.DEV_SET_PARAM [0x0130, 700 + 1150 * 65536]) (base),
    by decide +kernel, by decide +kernel, by decide +kernel, by decide +kernel, by decide +kernel⟩,
   ⟨(0 : Fin 32), msg Op.DEV_SET_PARAM [0x0600, 1000], asking 0 (msg Op.DEV_SET_PARAM [0x0600, 1000]) (base), by decide +kernel,
    by decide +kernel, by decide +kernel, by decide +kernel⟩,
   ⟨(0 : Fin 32), msg Op.DEV_SET_PARAM [0x0301, 256 + 65536], asking 0 (msg Op.DEV_SET_PARAM [0x0301, 256 + 65536]) (base), by decide +kernel,
    by decide +kernel, by decide +kernel, by decide +kernel⟩⟩

theorem test_WorldInstructionsComplete :
    (∃ (h : Fin 8) (s : State), (hart s h).canRun = true) ∧
    (∃ (h : Fin 8) (w : BitVec 32) (s : State) (pa : Nat), (hart s h).canRun = true ∧ custom0 w.toNat 1 = true ∧ bits w.toNat 31 20 = 0 ∧
      (hart s h).priv ≠ 3 ∧ (hart s h).world = false ∧ (hart s h).virt = false ∧ (hart s h).sluiceEn = true ∧
      (hart s h).reg (bits w.toNat 19 15) % 4 = 0 ∧
      satpTranslate s (hart s h) (hart s h).secureBank.satp ((hart s h).reg (bits w.toNat 19 15)) = some pa ∧ pageSecure s pa = true ∧
      poisonedIn s pa 4 = false ∧ readNat s pa 4 = 0x0000000B) ∧
    (∃ (h : Fin 8) (w : BitVec 32) (s : State) (pa : Nat), (hart s h).canRun = true ∧ custom0 w.toNat 2 = true ∧ bits w.toNat 31 20 = 0 ∧
      bits w.toNat 11 7 = 0 ∧ (hart s h).priv ≠ 3 ∧ (hart s h).world = true ∧ (hart s h).virt = false ∧ (hart s h).haltPending = false ∧
      (hart s h).reg (bits w.toNat 19 15) % 4 = 0 ∧
      satpTranslate s (hart s h) (hart s h).normalBank.satp ((hart s h).reg (bits w.toNat 19 15)) = some pa ∧ pageSecure s pa = false) ∧
    (∃ (h : Fin 8) (guest : Bool) (v : BitVec 64) (s : State), (hart s h).canRun = true ∧ (hart s h).virt = false ∧ (hart s h).priv = 1 ∧
      (hart s h).world = false ∧ v.toNat % 32 ≠ 0 ∧ bit (hart s h).mpolderAllow (v.toNat % 32) = true) ∧
    (∃ (h : Fin 8) (w : BitVec 32) (s : State), (hart s h).canRun = true ∧ bits w.toNat 6 0 = 0b0001011 ∧ 3 ≤ bits w.toNat 14 12) :=
  ⟨⟨(0 : Fin 8), withHart hart0 base, by decide +kernel⟩,
   ⟨(0 : Fin 8), (0x0000900B : BitVec 32),
    withHart { hart0 with priv := 1, world := false, sluiceEn := true, x := [(1, 0x40000000)] } (writeNat 0x40000000 4 11 base), 0x40000000,
    by decide +kernel, by decide +kernel, by decide +kernel, by decide +kernel, by decide +kernel, by decide +kernel, by decide +kernel,
    by decide +kernel, by decide +kernel, by decide +kernel, by decide +kernel, by decide +kernel⟩,
   ⟨(0 : Fin 8), (0x0000200B : BitVec 32), withHart { hart0 with priv := 1, world := true } base,
    (satpTranslate (withHart { hart0 with priv := 1, world := true } base) (hart (withHart { hart0 with priv := 1, world := true } base) ((0 : Fin 8))) (hart (withHart { hart0 with priv := 1, world := true } base) ((0 : Fin 8))).normalBank.satp ((hart (withHart { hart0 with priv := 1, world := true } base) ((0 : Fin 8))).reg (bits ((0x0000200B : BitVec 32)).toNat 19 15))).getD 0,
    by decide +kernel, by decide +kernel, by decide +kernel, by decide +kernel, by decide +kernel, by decide +kernel, by decide +kernel,
    by decide +kernel, by decide +kernel, by decide +kernel, by decide +kernel⟩,
   ⟨(0 : Fin 8), false, (31 : BitVec 64), withHart { hart0 with priv := 1, world := false, mpolderAllow := 2 ^ 31 } base, by decide +kernel,
    by decide +kernel, by decide +kernel, by decide +kernel, by decide +kernel, by decide +kernel⟩,
   ⟨(0 : Fin 8), (0x0000300B : BitVec 32), withHart hart0 base, by decide +kernel, by decide +kernel, by decide +kernel⟩⟩

theorem test_TrapsComplete :
    (∃ (h : Fin 8) (interrupt : Bool) (code : Fin 64) (tval : BitVec 64) (s : State), (hart s h).canRun = true ∧
      (hart s h).goesToM interrupt code = true) ∧
    (∃ (h : Fin 8) (code : Fin 64) (tval : BitVec 64) (s : State), (hart s h).canRun = true ∧ (hart s h).priv ≠ 3 ∧
      bit (hart s h).medeleg code = true) ∧
    (∃ (h : Fin 8) (code : Fin 64) (tval : BitVec 64) (s : State), (hart s h).canRun = true ∧ (hart s h).priv ≠ 3 ∧
      bit (hart s h).mideleg code = true ∧ (hart s h).world = true) ∧
    (∃ (h : Fin 8) (s : State), (hart s h).canRun = true ∧ (hart s h).priv = 3 ∧ (hart s h).haltPending = false ∧
      (((hart s h).mpw = false ∨ (hart s h).mpv = false ∨ (hart s h).mpp = 3))) ∧
    (∃ (h : Fin 8) (s : State), (hart s h).canRun = true ∧ (hart s h).world = true ∧ (hart s h).priv ≠ 3 ∧ (hart s h).mwdog ≠ 0 ∧
      (hart s h).mwdogcnt < (hart s h).mwdog) ∧
    (∃ (h : Fin 8) (s : State), (hart s h).canRun = true ∧ debugEnabled s 2 = true) ∧
    (∃ (h : Fin 8) (s : State), (hart s h).canRun = true ∧ debugEnabled s 2 = false ∧ debugEnabled s 0 = true ∧ (hart s h).world = true) :=
  ⟨⟨(0 : Fin 8), false, (63 : Fin 64), (0 : BitVec 64), withHart hart0 base, by decide +kernel, by decide +kernel⟩,
   ⟨(0 : Fin 8), (63 : Fin 64), (0 : BitVec 64), withHart { hart0 with priv := 1, medeleg := 2 ^ 63 } base, by decide +kernel, by decide +kernel,
    by decide +kernel⟩,
   ⟨(0 : Fin 8), (63 : Fin 64), (0 : BitVec 64), withHart { hart0 with priv := 1, mideleg := 2 ^ 63 } base, by decide +kernel, by decide +kernel,
    by decide +kernel, by decide +kernel⟩,
   ⟨(0 : Fin 8), withHart hart0 base, by decide +kernel, by decide +kernel, by decide +kernel, by decide +kernel⟩,
   ⟨(0 : Fin 8), withHart { hart0 with priv := 1, mwdog := 1 } base, by decide +kernel, by decide +kernel, by decide +kernel, by decide +kernel,
    by decide +kernel⟩,
   ⟨(0 : Fin 8), withHart hart0 base, by decide +kernel, by decide +kernel⟩,
   ⟨(0 : Fin 8), withHart hart0 { base with otp := [(11, 4)] }, by decide +kernel, by decide +kernel, by decide +kernel, by decide +kernel⟩⟩

theorem test_ProtectionRegistersComplete :
    (∃ (a : Access) (addr : BitVec 40) (v : BitVec 32) (s : State), addr.toNat = 0x20020000 ∧ admitted a addr.toNat v.toNat s = true ∧
      bit v.toNat 0 = true ∧ rd s PLD_MODE_STAT_switching = 0 ∧ rd s PLD_MODE_STAT_mode = 0) ∧
    (∃ (bad : Option (BitVec 40)) (s : State), rd s PLD_MODE_STAT_switching ≠ 0 ∧ mapResult s (bad.map (fun l => l.toNat)) = 1) ∧
    (∃ (bad : Option (BitVec 40)) (s : State), rd s PLD_MODE_STAT_switching ≠ 0 ∧ mapResult s (bad.map (fun l => l.toNat)) ≠ 1 ∧
      badMapLine s (bad.map (fun l => l.toNat)) = none) ∧
    (∃ (a : Access) (addr : BitVec 40) (v : BitVec 32) (s : State), addr.toNat = 0x20020000 ∧ admitted a addr.toNat v.toNat s = true ∧
      bit v.toNat 1 = true ∧ rd s PLD_MODE_STAT_switching = 0 ∧ rd s PLD_MODE_STAT_mode ≠ 0) ∧
    (∃ (a : Access) (addr : BitVec 40) (v : BitVec 32) (s : State), addr.toNat = 0x20020000 ∧ admitted a addr.toNat v.toNat s = true ∧
      bits v.toNat 1 0 = 0 ∧ bits v.toNat 2 2 = 1) ∧
    (∃ (a : Access) (addr : BitVec 40) (v : BitVec 32) (s : State), addr.toNat = 0x20020000 ∧ admitted a addr.toNat v.toNat s = true ∧
      bits v.toNat 1 0 = 0 ∧ bits v.toNat 2 2 = 0 ∧ rd s PLD_MODE_CTRL_fence_normal ≠ 0) ∧
    (∃ (a : Access) (addr : BitVec 40) (v : BitVec 32) (s : State) (t : Nat), addr.toNat = 0x2002000C ∧ admitted a addr.toNat v.toNat s = true ∧
      t = bits (lowWord s (carried s a addr.toNat).master 0x20020008 (rdA s PLD_TIDEMARK_tidemark) + 4294967296 * v.toNat) 39 21 ∧
      0x1000000000 ≤ t * 0x200000 ∧ t * 0x200000 ≤ 0x2000000000) ∧
    (∃ (a : Access) (addr : BitVec 40) (v : BitVec 32) (s : State), addr.toNat = 0x20020020 ∧ admitted a addr.toNat v.toNat s = true ∧
      bit v.toNat 31 = true) ∧
    (∃ (s : State), rd s PLD_INV_STAT_busy ≠ 0) ∧
    (∃ (a : Access) (addr : BitVec 40) (v : BitVec 32) (s : State) (p : Nat) (full : Nat), s2RegAt addr.toNat = some (p, 4) ∧
      admitted a addr.toNat v.toNat s = true ∧
      full = lowWord s (carried s a addr.toNat).master (addr.toNat - 4) (rdA s (PLD_S2_ROOT_root p)) + 4294967296 * v.toNat ∧
      (bits full 63 60 = 0 ∨ bits full 63 60 = 9)) ∧
    (∃ (a : Access) (addr : BitVec 40) (v : BitVec 32) (s : State) (p : Nat), s2RegAt addr.toNat = some (p, 8) ∧
      admitted a addr.toNat v.toNat s = true ∧ bit v.toNat 0 = true) ∧
    (∃ (p : Fin 32) (s : State), rd s (PLD_S2_INV_busy p) ≠ 0) ∧
    (∃ (a : Access) (addr : BitVec 40) (v : BitVec 32) (s : State), addr.toNat = 0x20000200 ∧ admitted a addr.toNat v.toNat s = true ∧
      secureCore (carried s a addr.toNat) = true) ∧
    (∃ (a : Access) (addr : BitVec 40) (v : BitVec 32) (s : State), addr.toNat = 0x20A0F000 ∧ admitted a addr.toNat v.toNat s = true) ∧
    (∃ (a : Access) (addr : BitVec 40) (v : BitVec 32) (s : State) (p : Nat) (new : Nat), isPage addr.toNat = true ∧ pageOff addr.toNat = 0x600C ∧
      admitted a addr.toNat v.toNat s = true ∧ p = pageOf addr.toNat ∧
      new = lowWord s (carried s a addr.toNat).master (addr.toNat - 4) (rd s (POL_EVL_ENABLE_enable p)) + 4294967296 * v.toNat) :=
  ⟨⟨tujan, (0x20020000 : BitVec 40), (1 : BitVec 32), base, by decide +kernel, by decide +kernel, by decide +kernel, by decide +kernel,
    by decide +kernel⟩,
   test_ProtectionRegistersComplete_1,
   ⟨none, wr PLD_MODE_STAT_switching 1 base, by decide +kernel, by decide +kernel, by decide +kernel⟩,
   ⟨tujan, (0x20020000 : BitVec 40), (2 : BitVec 32), wr PLD_MODE_STAT_mode 1 base, by decide +kernel, by decide +kernel, by decide +kernel,
    by decide +kernel, by decide +kernel⟩,
   ⟨tujan, (0x20020000 : BitVec 40), (4 : BitVec 32), base, by decide +kernel, by decide +kernel, by decide +kernel, by decide +kernel⟩,
   ⟨tujan, (0x20020000 : BitVec 40), (0 : BitVec 32), wr PLD_MODE_CTRL_fence_normal 1 base, by decide +kernel, by decide +kernel,
    by decide +kernel, by decide +kernel, by decide +kernel⟩,
   ⟨tujan, (0x2002000C : BitVec 40), (0x20 : BitVec 32), holdWord 9 0x20020008 (some 0) base,
    bits (lowWord (holdWord 9 0x20020008 (some 0) base) (carried (holdWord 9 0x20020008 (some 0) base) tujan ((0x2002000C : BitVec 40)).toNat).master 0x20020008 (rdA (holdWord 9 0x20020008 (some 0) base) PLD_TIDEMARK_tidemark) + 4294967296 * ((0x20 : BitVec 32)).toNat) 39 21,
    by decide +kernel, by decide +kernel, rfl, by decide +kernel, by decide +kernel⟩,
   ⟨tujan, (0x20020020 : BitVec 40), (0x80000000 : BitVec 32), base, by decide +kernel, by decide +kernel, by decide +kernel⟩,
   ⟨wr PLD_INV_STAT_busy 1 base, by decide +kernel⟩,
   ⟨tujan, (0x200202F4 : BitVec 40), (0x90000000 : BitVec 32), base, 31,
    lowWord base (carried base tujan ((0x200202F4 : BitVec 40)).toNat).master (((0x200202F4 : BitVec 40)).toNat - 4) (rdA base (PLD_S2_ROOT_root 31)) + 4294967296 * ((0x90000000 : BitVec 32)).toNat,
    by decide +kernel, by decide +kernel, rfl, by decide +kernel⟩,
   ⟨tujan, (0x200202F8 : BitVec 40), (1 : BitVec 32), base, 31, by decide +kernel, by decide +kernel, by decide +kernel⟩,
   ⟨(31 : Fin 32), wr (PLD_S2_INV_busy 31) 1 base, by decide +kernel⟩,
   ⟨core1, (0x20000200 : BitVec 40), (0 : BitVec 32), withHart hart0 base, by decide +kernel, by decide +kernel, by decide +kernel⟩,
   ⟨core1, (0x20A0F000 : BitVec 40), (0 : BitVec 32), withHart hart0 base, by decide +kernel, by decide +kernel⟩,
   ⟨⟨11, 31, false, .fabric⟩, (0x301F600C : BitVec 40), (0 : BitVec 32), wr (POL_STAT_state 31) 1 base, pageOf ((0x301F600C : BitVec 40)).toNat,
    lowWord (wr (POL_STAT_state 31) 1 base) (carried (wr (POL_STAT_state 31) 1 base) (⟨11, 31, false,
    .fabric⟩) ((0x301F600C : BitVec 40)).toNat).master (((0x301F600C : BitVec 40)).toNat - 4) (rd (wr (POL_STAT_state 31) 1 base) (POL_EVL_ENABLE_enable (pageOf ((0x301F600C : BitVec 40)).toNat))) + 4294967296 * ((0 : BitVec 32)).toNat,
    by decide +kernel, by decide +kernel, by decide +kernel, rfl, rfl⟩⟩

theorem test_PolderCommandsComplete :
    (∃ (k : Fin 32) (m : Msg) (s : State), asked Op.POLDER_GET_INFO k m s = true ∧ Req.mayReadPolder s ⟨k, m⟩ (bits (m.word 2) 4 0) = true ∧
      polExists s (bits (m.word 2) 4 0) = true) ∧
    (∃ (k : Fin 32) (m : Msg) (s : State), asked Op.POLDER_GET_GRANTS k m s = true ∧ Req.mayReadPolder s ⟨k, m⟩ (bits (m.word 2) 4 0) = true ∧
      1 ≤ bits (m.word 2) 11 8 ∧ bits (m.word 2) 11 8 ≤ 8) ∧
    (∃ (k : Fin 32) (m : Msg) (s : State) (p : Nat), asked Op.POLDER_CREATE k m s = true ∧ p = bits (m.word 2) 4 0 ∧ p ≠ 0 ∧
      polExists s p = false) ∧
    (∃ (k : Fin 32) (m : Msg) (s : State), asked Op.POLDER_DESTROY k m s = true ∧ bits (m.word 2) 4 0 ≠ 0 ∧
      rd s (POL_STAT_state (bits (m.word 2) 4 0)) = 1) ∧
    (∃ (k : Fin 32) (m : Msg) (s : State), asked Op.POLDER_RESET k m s = true ∧ bits (m.word 2) 4 0 ≠ 0 ∧
      rd s (POL_STAT_state (bits (m.word 2) 4 0)) = 1) ∧
    (∃ (k : Fin 32) (m : Msg) (s : State) (p : Nat), asked Op.POLDER_GRANT k m s = true ∧ p = bits (m.word 2) 4 0 ∧ p ≠ 0 ∧
      rd s (POL_STAT_state p) = 1 ∧ bits (m.word 2) 11 8 = 9 ∧ 1 ≤ m.word 3 ∧ m.word 3 ≤ 24000 ∧ m.word 3 ≤ audBudget s 0) ∧
    (∃ (k : Fin 32) (m : Msg) (s : State) (p : Nat) (u : Nat), asked Op.POLDER_GRANT k m s = true ∧ p = bits (m.word 2) 4 0 ∧ p ≠ 0 ∧
      rd s (POL_STAT_state p) = 1 ∧ bits (m.word 2) 11 8 = 1 ∧ u = bits (m.word 2) 23 16 ∧ bits (m.word 2) 31 24 = 1 ∧ u < 64 ∧
      ((grantee s 1 u = 0 ∨ grantee s 1 u = p)) ∧ holdingWith s p 1 [u] ≤ 64) ∧
    (∃ (k : Fin 32) (m : Msg) (s : State) (p : Nat), asked Op.POLDER_REVOKE k m s = true ∧ p = bits (m.word 2) 4 0 ∧ p ≠ 0 ∧
      rd s (POL_STAT_state p) = 1 ∧ bits (m.word 2) 11 8 = 9 ∧ 1 ≤ m.word 3 ∧ m.word 3 ≤ audBudget s p ∧ (audPol s p).active = none) ∧
    (∃ (k : Fin 32) (m : Msg) (s : State) (p : Nat) (u : Nat), asked Op.POLDER_REVOKE k m s = true ∧ p = bits (m.word 2) 4 0 ∧ p ≠ 0 ∧
      rd s (POL_STAT_state p) = 1 ∧ bits (m.word 2) 11 8 = 8 ∧ u = bits (m.word 2) 23 16 ∧ bits (m.word 2) 31 24 = 1 ∧ 1 ≤ u ∧ grantee s 8 u = p) ∧
    (∃ (k : Fin 32) (m : Msg) (s : State) (p : Nat), asked Op.POLDER_SET_SHARE k m s = true ∧ p = bits (m.word 2) 4 0 ∧ p ≠ 0 ∧
      rd s (POL_STAT_state p) = 1 ∧ bits (m.word 2) 9 8 = 0) ∧
    (∃ (k : Fin 32) (m : Msg) (s : State) (p : Nat), asked Op.POLDER_ASSIGN_PAIR k m s = true ∧ p = bits (m.word 2) 12 8 ∧ p ≠ 0 ∧
      polExists s p = true ∧ 1 ≤ bits (m.word 2) 4 0 ∧ bits (m.word 2) 4 0 ≤ 29 ∧ bit (m.word 2) 24 = false) ∧
    (∃ (k : Fin 32) (m : Msg) (s : State) (p : Nat), asked Op.PCIE_SET_WINDOWS k m s = true ∧ p = bits (m.word 2) 4 0 ∧ p ≠ 0 ∧
      polExists s p = true ∧ bits (m.word 3) 22 0 + m.word 4 ≤ 2 ^ 23 ∧ bar4Size s = 0) :=
  ⟨⟨(0 : Fin 32), msg Op.POLDER_GET_INFO [], asking 0 (msg Op.POLDER_GET_INFO []) (base), by decide +kernel, by decide +kernel, by decide +kernel⟩,
   ⟨(0 : Fin 32), msg Op.POLDER_GET_GRANTS [8 * 256], asking 0 (msg Op.POLDER_GET_GRANTS [8 * 256]) (base), by decide +kernel, by decide +kernel,
    by decide +kernel, by decide +kernel⟩,
   ⟨(0 : Fin 32), msg Op.POLDER_CREATE [31], asking 0 (msg Op.POLDER_CREATE [31]) (base), bits ((msg Op.POLDER_CREATE [31]).word 2) 4 0,
    by decide +kernel, rfl, by decide +kernel, by decide +kernel⟩,
   ⟨(0 : Fin 32), msg Op.POLDER_DESTROY [31], asking 0 (msg Op.POLDER_DESTROY [31]) (wr (POL_STAT_state 31) 1 base), by decide +kernel,
    by decide +kernel, by decide +kernel⟩,
   ⟨(0 : Fin 32), msg Op.POLDER_RESET [31], asking 0 (msg Op.POLDER_RESET [31]) (wr (POL_STAT_state 31) 1 base), by decide +kernel,
    by decide +kernel, by decide +kernel⟩,
   ⟨(0 : Fin 32), msg Op.POLDER_GRANT [31 + 9 * 256, 24000], asking 0 (msg Op.POLDER_GRANT [31 + 9 * 256, 24000]) (wr (POL_STAT_state 31) 1 base),
    bits ((msg Op.POLDER_GRANT [31 + 9 * 256, 24000]).word 2) 4 0, by decide +kernel, rfl, by decide +kernel, by decide +kernel,
    by decide +kernel, by decide +kernel, by decide +kernel, by decide +kernel⟩,
   ⟨(0 : Fin 32), msg Op.POLDER_GRANT [31 + 256 + 63 * 65536 + 2 ^ 24],
    asking 0 (msg Op.POLDER_GRANT [31 + 256 + 63 * 65536 + 2 ^ 24]) (wr (POL_STAT_state 31) 1 base),
    bits ((msg Op.POLDER_GRANT [31 + 256 + 63 * 65536 + 2 ^ 24]).word 2) 4 0,
    bits ((msg Op.POLDER_GRANT [31 + 256 + 63 * 65536 + 2 ^ 24]).word 2) 23 16, by decide +kernel, rfl, by decide +kernel, by decide +kernel,
    by decide +kernel, rfl, by decide +kernel, by decide +kernel, by decide +kernel, by decide +kernel⟩,
   ⟨(0 : Fin 32), msg Op.POLDER_REVOKE [31 + 9 * 256, 100], asking 0 (msg Op.POLDER_REVOKE [31 + 9 * 256,
    100]) ({ wr (POL_STAT_state 31) 1 base with budget := [(31, 100)] }), bits ((msg Op.POLDER_REVOKE [31 + 9 * 256, 100]).word 2) 4 0,
    by decide +kernel, rfl, by decide +kernel, by decide +kernel, by decide +kernel, by decide +kernel, by decide +kernel, by decide +kernel⟩,
   ⟨(0 : Fin 32), msg Op.POLDER_REVOKE [31 + 8 * 256 + 65536 + 2 ^ 24],
    asking 0 (msg Op.POLDER_REVOKE [31 + 8 * 256 + 65536 + 2 ^ 24]) ({ wr (POL_STAT_state 31) 1 base with grants := [(unitKey 8 1, 31)] }),
    bits ((msg Op.POLDER_REVOKE [31 + 8 * 256 + 65536 + 2 ^ 24]).word 2) 4 0,
    bits ((msg Op.POLDER_REVOKE [31 + 8 * 256 + 65536 + 2 ^ 24]).word 2) 23 16, by decide +kernel, rfl, by decide +kernel, by decide +kernel,
    by decide +kernel, rfl, by decide +kernel, by decide +kernel, by decide +kernel⟩,
   ⟨(0 : Fin 32), msg Op.POLDER_SET_SHARE [31], asking 0 (msg Op.POLDER_SET_SHARE [31]) (wr (POL_STAT_state 31) 1 base),
    bits ((msg Op.POLDER_SET_SHARE [31]).word 2) 4 0, by decide +kernel, rfl, by decide +kernel, by decide +kernel, by decide +kernel⟩,
   ⟨(0 : Fin 32), msg Op.POLDER_ASSIGN_PAIR [29 + 31 * 256], asking 0 (msg Op.POLDER_ASSIGN_PAIR [29 + 31 * 256]) (wr (POL_STAT_state 31) 1 base),
    bits ((msg Op.POLDER_ASSIGN_PAIR [29 + 31 * 256]).word 2) 12 8, by decide +kernel, rfl, by decide +kernel, by decide +kernel,
    by decide +kernel, by decide +kernel, by decide +kernel⟩,
   ⟨(0 : Fin 32), msg Op.PCIE_SET_WINDOWS [31, 0, 2 ^ 23], asking 0 (msg Op.PCIE_SET_WINDOWS [31, 0, 2 ^ 23]) (wr (POL_STAT_state 31) 1 base),
    bits ((msg Op.PCIE_SET_WINDOWS [31, 0, 2 ^ 23]).word 2) 4 0, by decide +kernel, rfl, by decide +kernel, by decide +kernel, by decide +kernel,
    by decide +kernel⟩⟩

theorem test_PolderResetStepsComplete :
    (∃ (p : Fin 32) (s : State) (r : PReset), Tab.get none s.resets p = some r ∧ r.aborted = false ∧ workRuns s p = false) ∧
    (∃ (p : Fin 32) (s : State) (r : PReset), Tab.get none s.resets p = some r ∧ r.aborted = false ∧ workRuns s p = true) ∧
    (∃ (p : Fin 32) (s : State) (r : PReset) (t : Nat), Tab.get none s.resets p = some r ∧ r.q = some t ∧ r.squashed = false) ∧
    (∃ (p : Fin 32) (s : State) (r : PReset), Tab.get none s.resets p = some r ∧ r.squashed = true ∧ txnsOf s p = [] ∧ r.destroy = false) ∧
    (∃ (s : State), s.pci.linkUp = true) ∧
    (∃ (fl : Bool) (s : State), s.pci.linkUp = true) :=
  ⟨⟨(31 : Fin 32), { base with resets := [(31, some ⟨0, none, [], false, false, none, false⟩)] }, ⟨0, none, [], false, false, none, false⟩,
    by decide +kernel, by decide +kernel, by decide +kernel⟩,
   ⟨(31 : Fin 32),
    setAudPol 31 { audPol base 31 with ending := some (true, []) } { base with resets := [(31, some ⟨0, none, [], false, false, none, false⟩)] },
    ⟨0, none, [], false, false, none, false⟩, by decide +kernel, by decide +kernel, by decide +kernel⟩,
   ⟨(31 : Fin 32), { base with resets := [(31, some ⟨0, some 5, [], true, false, none, false⟩)] }, ⟨0, some 5, [], true, false, none, false⟩, 5,
    by decide +kernel, by decide +kernel, by decide +kernel⟩,
   ⟨(31 : Fin 32), { base with resets := [(31, some ⟨0, some 5, [], true, true, none, false⟩)] }, ⟨0, some 5, [], true, true, none, false⟩,
    by decide +kernel, by decide +kernel, by decide +kernel, by decide +kernel⟩,
   ⟨{ base with pci := ⟨true, [], [], none⟩ }, by decide +kernel⟩,
   ⟨true, { base with pci := ⟨true, [], [], none⟩ }, by decide +kernel⟩⟩

theorem test_MemoryStepsComplete :
    (∃ (bank : Fin 12) (s : State) (w : Nat), s.dmc.writeback.find? (fun w => ocmBank (8 * w) == bank.val) = some w) ∧
    (∃ (bank : Fin 12) (s : State), poisonedIn s (ocmBase + 0x800000 * bank.val + 8 * Tab.get 0 s.dmc.scrubPos bank) 8 = false) ∧
    (∃ (ch : Fin 16) (s : State), dramReady s = true ∧ selfRefresh s = false ∧ urgentOn s ch = false) ∧
    (∃ (ch : Fin 16) (s : State), dramReady s = true ∧ selfRefresh s = false ∧ urgentOn s ch = true ∧ rd s (DMC_REF_CTRL_postpone_en 0) = 1 ∧
      refreshDebt s ch < 8) ∧
    (∃ (ch : Fin 16) (s : State), dramReady s = true ∧ selfRefresh s = false ∧ urgentOn s ch = true ∧ rd s (DMC_REF_CTRL_postpone_en 0) = 1 ∧
      8 ≤ refreshDebt s ch) ∧
    (∃ (m : Fin 64) (ch : Fin 16) (s : State), realTime s m = true ∧ setBit (Tab.get 0 s.dmc.urgent ch) m ≠ 0) ∧
    (∃ (s : State), dramReady s = true) ∧
    (∃ (s : State), dramReady s = true ∧ dramFailed s = false ∧ selfRefresh s = false) ∧
    (∃ (ch : Fin 16) (temp : BitVec 16) (s : State), dramReady s = true ∧ dramFailed s = false ∧ selfRefresh s = false ∧ s.dmc.passCh = ch.val ∧
      0 < ch.val ∧ ch.val < 15) ∧
    (∃ (temp : BitVec 16) (s : State), dramReady s = true ∧ dramFailed s = false ∧ selfRefresh s = false ∧ s.dmc.passCh = 15) ∧
    (∃ (ch : Fin 16) (s : State), dramReady s = true ∧ dramFailed s = false) ∧
    (∃ (temp : BitVec 16) (s : State), dramFailed s = true ∧ s.dmc.permanent = false) ∧
    (∃ (s : State), dramReady s = true ∧ dramFailed s = false ∧ selfRefresh s = false ∧ anyUrgent s = false ∧ patrolSteps s ≠ 0 ∧
      (s.dmc.patrol + 1) % patrolSteps s ≠ 0) :=
  ⟨⟨(11 : Fin 12), { base with dmc := { DmcSt.reset with writeback := [0x8B00000] } }, 0x8B00000, by decide +kernel⟩,
   ⟨(0 : Fin 12), base, by decide +kernel⟩,
   ⟨(15 : Fin 16), dram, by decide +kernel, by decide +kernel, by decide +kernel⟩,
   ⟨(15 : Fin 16), setDebt 15 7 { dram with dmc := { dram.dmc with urgent := [(15, 1)] } }, by decide +kernel, by decide +kernel,
    by decide +kernel, by decide +kernel, by decide +kernel⟩,
   ⟨(15 : Fin 16), setDebt 15 8 { dram with dmc := { dram.dmc with urgent := [(15, 1)] } }, by decide +kernel, by decide +kernel,
    by decide +kernel, by decide +kernel, by decide +kernel⟩,
   ⟨(63 : Fin 64), (15 : Fin 16), wr (DMC_RT_MASK_masters 0) (2 ^ 63) base, by decide +kernel, by decide +kernel⟩,
   ⟨dram, by decide +kernel⟩,
   ⟨dram, by decide +kernel, by decide +kernel, by decide +kernel⟩,
   ⟨(14 : Fin 16), (0 : BitVec 16), { dram with dmc := { dram.dmc with passCh := 14 } }, by decide +kernel, by decide +kernel, by decide +kernel,
    by decide +kernel, by decide +kernel, by decide +kernel⟩,
   ⟨(0 : BitVec 16), { dram with dmc := { dram.dmc with passCh := 15 } }, by decide +kernel, by decide +kernel, by decide +kernel,
    by decide +kernel⟩,
   ⟨(15 : Fin 16), dram, by decide +kernel, by decide +kernel⟩,
   ⟨(0 : BitVec 16), wr (DMC_STATUS_failed 0) 1 dram, by decide +kernel, by decide +kernel⟩,
   ⟨dram, by decide +kernel, by decide +kernel, by decide +kernel, by decide +kernel, by decide +kernel, by decide +kernel⟩⟩

theorem test_MemoryCommandsComplete :
    (∃ (k : Fin 32) (m : Msg) (s : State), asked Op.MEM_GET_INFO k m s = true) ∧
    (∃ (k : Fin 32) (m : Msg) (s : State), asked Op.MEM_GET_OCM_REGION k m s = true) ∧
    (∃ (k : Fin 32) (m : Msg) (s : State), asked Op.MEM_GET_THROTTLE k m s = true) ∧
    (∃ (k : Fin 32) (m : Msg) (s : State), asked Op.MEM_SET_OCM_REGION k m s = true ∧ bits (m.word 3) 14 0 ≤ bits (m.word 4) 14 0 ∧
      bits (m.word 4) 14 0 ≤ 24575 ∧ ((4096 ≤ bits (m.word 3) 14 0 ∨ Req.fromSecure ⟨k, m⟩ = true))) ∧
    (∃ (k : Fin 32) (m : Msg) (s : State), asked Op.MEM_SET_PASR k m s = true ∧ 1 ≤ bits (m.word 2) 3 0 ∧ bits (m.word 2) 3 0 ≤ 8 ∧
      mapDropped s (bits (m.word 2) 3 0) = false) ∧
    (∃ (k : Fin 32) (m : Msg) (s : State), asked Op.MEM_SET_REFRESH k m s = true ∧ dramFailed s = false) ∧
    (∃ (k : Fin 32) (m : Msg) (s : State), asked Op.MEM_SET_ROWHAMMER k m s = true ∧ 256 ≤ bits (m.word 2) 15 0 ∧ bits (m.word 2) 23 16 ≠ 0) ∧
    (∃ (k : Fin 32) (m : Msg) (s : State), asked Op.MEM_SET_RT_MASTERS k m s = true) :=
  ⟨⟨(0 : Fin 32), msg Op.MEM_GET_INFO [], asking 0 (msg Op.MEM_GET_INFO []) (base), by decide +kernel⟩,
   ⟨(0 : Fin 32), msg Op.MEM_GET_OCM_REGION [], asking 0 (msg Op.MEM_GET_OCM_REGION []) (base), by decide +kernel⟩,
   ⟨(0 : Fin 32), msg Op.MEM_GET_THROTTLE [], asking 0 (msg Op.MEM_GET_THROTTLE []) (base), by decide +kernel⟩,
   ⟨(0 : Fin 32), msg Op.MEM_SET_OCM_REGION [], asking 0 (msg Op.MEM_SET_OCM_REGION []) (base), by decide +kernel, by decide +kernel,
    by decide +kernel, by decide +kernel⟩,
   ⟨(0 : Fin 32), msg Op.MEM_SET_PASR [8], asking 0 (msg Op.MEM_SET_PASR [8]) (base), by decide +kernel, by decide +kernel, by decide +kernel,
    by decide +kernel⟩,
   ⟨(0 : Fin 32), msg Op.MEM_SET_REFRESH [], asking 0 (msg Op.MEM_SET_REFRESH []) (base), by decide +kernel, by decide +kernel⟩,
   ⟨(0 : Fin 32), msg Op.MEM_SET_ROWHAMMER [256 + 65536], asking 0 (msg Op.MEM_SET_ROWHAMMER [256 + 65536]) (base), by decide +kernel,
    by decide +kernel, by decide +kernel⟩,
   ⟨(0 : Fin 32), msg Op.MEM_SET_RT_MASTERS [], asking 0 (msg Op.MEM_SET_RT_MASTERS []) (base), by decide +kernel⟩⟩

theorem test_RegisterAccessesComplete :
    (∃ (a : Access) (addr : BitVec 40) (v : BitVec 64) (s : State) (h : Nat) (row : Row) (ix : List Nat), isReg addr.toNat = true ∧
      msixAt s a addr.toNat = none ∧ rowWrite a addr (v.setWidth 32) s = none ∧ admitted a addr.toNat (v.setWidth 32).toNat s = true ∧
      regHome s addr.toNat = some h ∧ rowOf s addr.toNat = some (row, ix, false) ∧ row.wide = false ∧ writable (row.flds ix) = true ∧
      ownEffect (carried s a addr.toNat) addr.toNat h (v.setWidth 32).toNat s = none) ∧
    (∃ (a : Access) (addr : BitVec 40) (size : Fin 17) (v : BitVec 64) (s : State), isReg addr.toNat = true ∧ a.route = .fabric ∧
      masterGone s (carried s a addr.toNat) = false ∧ inBlock addr.toNat = true ∧ blockUp s addr.toNat = true ∧ size ≠ 4) ∧
    (∃ (a : Access) (addr : BitVec 40) (v : BitVec 64) (s : State) (h : Nat) (row : Row) (ix : List Nat), isReg addr.toNat = true ∧
      msixAt s a addr.toNat = none ∧ rowWrite a addr (v.setWidth 32) s = none ∧ admitted a addr.toNat (v.setWidth 32).toNat s = true ∧
      regHome s addr.toNat = some h ∧ rowOf s addr.toNat = some (row, ix, false) ∧ row.wide = true ∧ writable (row.flds ix) = true) ∧
    (∃ (a : Access) (addr : BitVec 40) (v : BitVec 32) (s : State) (h : Nat) (row : Row) (ix : List Nat), isPage addr.toNat = false ∧
      msixAt s a addr.toNat = none ∧ rowWrite a addr v s = none ∧ admitted a addr.toNat v.toNat s = true ∧ regHome s addr.toNat = some h ∧
      rowOf s addr.toNat = some (row, ix, true) ∧ row.wide = true ∧ writable (row.flds ix) = true) ∧
    (∃ (a : Access) (addr : BitVec 40) (s : State) (h : Nat) (row : Row) (ix : List Nat), isPage addr.toNat = false ∧
      msixAt s a addr.toNat = none ∧ effectRead a addr s = none ∧ readable a addr.toNat s = true ∧ regHome s addr.toNat = some h ∧
      rowOf s addr.toNat = some (row, ix, false) ∧ row.wide = true) :=
  ⟨test_RegisterAccessesComplete_0,
   ⟨tujan, (0x20000008 : BitVec 40), (16 : Fin 17), (0 : BitVec 64), base, by decide +kernel, by decide +kernel, by decide +kernel,
    by decide +kernel, by decide +kernel, by decide +kernel⟩,
   test_RegisterAccessesComplete_2,
   test_RegisterAccessesComplete_3,
   test_RegisterAccessesComplete_4⟩

theorem test_MemoryAccessesComplete :
    (∃ (r : MemReq) (s : State) (s1 : State) (s2 : State) (c : Carried) (a : Nat), c = carried s r.acc r.addr.toNat ∧ cannotIssue r c s = false ∧
      isDeviceMaster c.master = true ∧ r.acc.route = .fabric ∧ r.dir = .write ∧ r.outstanding = none ∧ physOf r c s = (some a, s1) ∧
      inOcm a = true ∧ rangeDenied r c false true (pageStarts a r.len) s1 = (none, s2)) ∧
    (∃ (r : MemReq) (s : State) (s1 : State) (s2 : State) (c : Carried) (a : Nat), c = carried s r.acc r.addr.toNat ∧ cannotIssue r c s = false ∧
      isDeviceMaster c.master = true ∧ r.acc.route = .fabric ∧ r.dir = .read ∧ r.ecc = .clean ∧ r.outstanding = none ∧ physOf r c s = (some a,
      s1) ∧ inOcm a = true ∧ rangeDenied r c true false (pageStarts a r.len) s1 = (none, s2) ∧ s2.poison = []) ∧
    (∃ (r : MemReq) (s : State) (s1 : State) (s2 : State) (x : State) (c : Carried) (a : Nat), c = carried s r.acc r.addr.toNat ∧
      cannotIssue r c s = false ∧ isDeviceMaster c.master = true ∧ r.acc.route = .fabric ∧ physOf r c s = (some a, s1) ∧
      ((inOcm a = true ∨ inDramRange a = true)) ∧ rangeDenied r c (!(r.dir == .write)) (r.dir == .write) (pageStarts a r.len) s1 = (some x, s2)) ∧
    (∃ (r : MemReq) (s : State) (c : Carried), c = carried s r.acc r.addr.toNat ∧ cannotIssue r c s = false ∧ isCoreMaster c.master = true ∧
      pmpAllows (hart s (c.master - 1)) r.addr.toNat r.len (permBit r.dir) = false) ∧
    (∃ (ac : Access) (addr : BitVec 40) (size : Fin 17) (v : BitVec 64) (s : State) (s1 : State) (c : Carried) (r : MemReq) (tgt : Nat) (new : Nat),
      r = { acc := ac, dir := .write, addr := addr, len := size.castLE (by decide), data := (leBytes size v.toNat).map (BitVec.ofNat 8), block := 0, unit := 0, ecc := .clean, retry := .none, outstanding := none } ∧
      c = carried s ac addr.toNat ∧ cannotIssue r c s = false ∧ isDeviceMaster c.master = true ∧ ac.route = .fabric ∧ inAlias addr.toNat = true ∧
      aliasForm addr.toNat size = true ∧ physOf r c s = (some addr.toNat, s) ∧ tgt = ocmBase + addr.toNat % 0x10000000 ∧
      rangeDenied r c true true [tgt] s = (none, s1) ∧ poisonedIn s1 tgt size = false ∧
      new = (if addr.toNat < 0x60000000 then readNat s1 tgt size ||| leNat (reqBytes r) else andNot (readNat s1 tgt size) (leNat (reqBytes r)))) ∧
    (∃ (tag : Nat) (s : State) (t : Txn), s.fabric.find? (fun t => t.tag == tag) = some t ∧ t.squashed = false ∧ t.write = true) ∧
    (∃ (tag : Nat) (s : State) (t : Txn), s.fabric.find? (fun t => t.tag == tag) = some t ∧ t.squashed = false ∧ t.pcie = true ∧ t.write = false) ∧
    (∃ (tag : Nat) (s : State) (t : Txn), s.fabric.find? (fun t => t.tag == tag && t.squashed) = some t) :=
  ⟨⟨req (dev 12) .write 0x43FFFFC0 64, base,
    (physOf (req (dev 12) .write 0x43FFFFC0 64) (carried base (req (dev 12) .write 0x43FFFFC0 64).acc (req (dev 12) .write 0x43FFFFC0 64).addr.toNat) base).2,
    (rangeDenied (req (dev 12) .write 0x43FFFFC0 64) (carried base (req (dev 12) .write 0x43FFFFC0 64).acc (req (dev 12) .write 0x43FFFFC0 64).addr.toNat) false true (pageStarts 0x43FFFFC0 ((req (dev 12) .write 0x43FFFFC0 64)).len) ((physOf (req (dev 12) .write 0x43FFFFC0 64) (carried base (req (dev 12) .write 0x43FFFFC0 64).acc (req (dev 12) .write 0x43FFFFC0 64).addr.toNat) base).2)).2,
    carried base (req (dev 12) .write 0x43FFFFC0 64).acc (req (dev 12) .write 0x43FFFFC0 64).addr.toNat, 0x43FFFFC0, rfl, by decide +kernel,
    by decide +kernel, by decide +kernel, by decide +kernel, by decide +kernel, by decide +kernel, by decide +kernel, by decide +kernel⟩,
   ⟨req (dev 12) .read 0x43FFFFC0 64, base,
    (physOf (req (dev 12) .read 0x43FFFFC0 64) (carried base (req (dev 12) .read 0x43FFFFC0 64).acc (req (dev 12) .read 0x43FFFFC0 64).addr.toNat) base).2,
    (rangeDenied (req (dev 12) .read 0x43FFFFC0 64) (carried base (req (dev 12) .read 0x43FFFFC0 64).acc (req (dev 12) .read 0x43FFFFC0 64).addr.toNat) true false (pageStarts 0x43FFFFC0 ((req (dev 12) .read 0x43FFFFC0 64)).len) ((physOf (req (dev 12) .read 0x43FFFFC0 64) (carried base (req (dev 12) .read 0x43FFFFC0 64).acc (req (dev 12) .read 0x43FFFFC0 64).addr.toNat) base).2)).2,
    carried base (req (dev 12) .read 0x43FFFFC0 64).acc (req (dev 12) .read 0x43FFFFC0 64).addr.toNat, 0x43FFFFC0, rfl, by decide +kernel,
    by decide +kernel, by decide +kernel, by decide +kernel, by decide +kernel, by decide +kernel, by decide +kernel, by decide +kernel,
    by decide +kernel, by decide +kernel⟩,
   ⟨req (dev 12) .write 0x44000000 64, base,
    (physOf (req (dev 12) .write 0x44000000 64) (carried base (req (dev 12) .write 0x44000000 64).acc (req (dev 12) .write 0x44000000 64).addr.toNat) base).2,
    (rangeDenied (req (dev 12) .write 0x44000000 64) (carried base (req (dev 12) .write 0x44000000 64).acc (req (dev 12) .write 0x44000000 64).addr.toNat) false true (pageStarts 0x44000000 ((req (dev 12) .write 0x44000000 64)).len) ((physOf (req (dev 12) .write 0x44000000 64) (carried base (req (dev 12) .write 0x44000000 64).acc (req (dev 12) .write 0x44000000 64).addr.toNat) base).2)).2,
    ((rangeDenied (req (dev 12) .write 0x44000000 64) (carried base (req (dev 12) .write 0x44000000 64).acc (req (dev 12) .write 0x44000000 64).addr.toNat) false true (pageStarts 0x44000000 ((req (dev 12) .write 0x44000000 64)).len) ((physOf (req (dev 12) .write 0x44000000 64) (carried base (req (dev 12) .write 0x44000000 64).acc (req (dev 12) .write 0x44000000 64).addr.toNat) base).2)).1).getD base,
    carried base (req (dev 12) .write 0x44000000 64).acc (req (dev 12) .write 0x44000000 64).addr.toNat, 0x44000000, rfl, by decide +kernel,
    by decide +kernel, by decide +kernel, by decide +kernel, by decide +kernel, by decide +kernel⟩,
   ⟨req core1 .read 0x40000000 4, withHart { hart0 with priv := 1, world := false } base,
    carried (withHart { hart0 with priv := 1, world := false } base) (req core1 .read 0x40000000 4).acc (req core1 .read 0x40000000 4).addr.toNat,
    rfl, by decide +kernel, by decide +kernel, by decide +kernel⟩,
   ⟨dev 12, (0x53FFFFF8 : BitVec 40), (8 : Fin 17), (1 : BitVec 64), base,
    (rangeDenied ({ acc := dev 12, dir := .write, addr := 0x53FFFFF8, len := 8, data := (leBytes 8 1).map (BitVec.ofNat 8), block := 0, unit := 0, ecc := .clean, retry := .none, outstanding := none }) (carried base (dev 12) ((0x53FFFFF8 : BitVec 40)).toNat) true true [(ocmBase + ((0x53FFFFF8 : BitVec 40)).toNat % 0x10000000)] base).2,
    carried base (dev 12) ((0x53FFFFF8 : BitVec 40)).toNat,
    { acc := dev 12, dir := .write, addr := 0x53FFFFF8, len := 8, data := (leBytes 8 1).map (BitVec.ofNat 8), block := 0, unit := 0, ecc := .clean, retry := .none, outstanding := none },
    ocmBase + ((0x53FFFFF8 : BitVec 40)).toNat % 0x10000000,
    (if ((0x53FFFFF8 : BitVec 40)).toNat < 0x60000000 then readNat ((rangeDenied ({ acc := dev 12, dir := .write, addr := 0x53FFFFF8, len := 8, data := (leBytes 8 1).map (BitVec.ofNat 8), block := 0, unit := 0, ecc := .clean, retry := .none, outstanding := none }) (carried base (dev 12) ((0x53FFFFF8 : BitVec 40)).toNat) true true [(ocmBase + ((0x53FFFFF8 : BitVec 40)).toNat % 0x10000000)] base).2) (ocmBase + ((0x53FFFFF8 : BitVec 40)).toNat % 0x10000000) ((8 : Fin 17)) ||| leNat (reqBytes ({ acc := dev 12, dir := .write, addr := 0x53FFFFF8, len := 8, data := (leBytes 8 1).map (BitVec.ofNat 8), block := 0, unit := 0, ecc := .clean, retry := .none, outstanding := none })) else andNot (readNat ((rangeDenied ({ acc := dev 12, dir := .write, addr := 0x53FFFFF8, len := 8, data := (leBytes 8 1).map (BitVec.ofNat 8), block := 0, unit := 0, ecc := .clean, retry := .none, outstanding := none }) (carried base (dev 12) ((0x53FFFFF8 : BitVec 40)).toNat) true true [(ocmBase + ((0x53FFFFF8 : BitVec 40)).toNat % 0x10000000)] base).2) (ocmBase + ((0x53FFFFF8 : BitVec 40)).toNat % 0x10000000) ((8 : Fin 17))) (leNat (reqBytes ({ acc := dev 12, dir := .write, addr := 0x53FFFFF8, len := 8, data := (leBytes 8 1).map (BitVec.ofNat 8), block := 0, unit := 0, ecc := .clean, retry := .none, outstanding := none })))),
    by decide +kernel, rfl, by decide +kernel, by decide +kernel, by decide +kernel, by decide +kernel, by decide +kernel, by decide +kernel, rfl,
    by decide +kernel, by decide +kernel, rfl⟩,
   ⟨7, { base with fabric := [⟨7, 12, 1, true, 0, 0, false, false, 0, 0⟩] }, ⟨7, 12, 1, true, 0, 0, false, false, 0, 0⟩, by decide +kernel,
    by decide +kernel, by decide +kernel⟩,
   ⟨7, { base with fabric := [⟨7, 12, 1, false, 0, 0, true, false, 0, 0⟩] }, ⟨7, 12, 1, false, 0, 0, true, false, 0, 0⟩, by decide +kernel,
    by decide +kernel, by decide +kernel, by decide +kernel⟩,
   ⟨7, { base with fabric := [⟨7, 12, 1, false, 0, 0, true, true, 0, 0⟩] }, ⟨7, 12, 1, false, 0, 0, true, true, 0, 0⟩, by decide +kernel⟩⟩

theorem test_FlipAndCommitStepsComplete :
    (∃ (a : Access) (addr : BitVec 40) (v : BitVec 32) (s : State) (p : Nat), isPage addr.toNat = true ∧ pageOff addr.toNat = 0xC28 ∧
      admitted a addr.toNat v.toNat s = true ∧ p = pageOf addr.toNat ∧ slotOwner s (v.toNat % 64) = p) ∧
    (∃ (p : Fin 32) (s : State) (j : FlipJob), s.dsp.flips = [j] ∧ j.polder = p.val ∧ flipOutcome s p j.slot j.entry = ST_OK) ∧
    (∃ (p : Fin 32) (s : State) (j : FlipJob), s.dsp.flips = [j] ∧ j.polder = p.val ∧ flipOutcome s p j.slot j.entry ≠ ST_OK) ∧
    (∃ (a : Access) (addr : BitVec 40) (v : BitVec 32) (s : State) (p : Nat), isPage addr.toNat = true ∧ pageOff addr.toNat = 0xC40 ∧
      admitted a addr.toNat v.toNat s = true ∧ p = pageOf addr.toNat ∧ refuses s p = false ∧ (queuedOn s (bits v.toNat 18 16)).length < 8 ∧
      refuses (incWrap (CMP_COMMIT_COUNT_count p) 1 s) p = false) ∧
    (∃ (s : State) (c : Commit) (rest : List Commit), s.dsp.waiting = c :: rest ∧ (queuedOn s c.output).length < 8 ∧
      commitFault { s with dsp := { s.dsp with waiting := rest } } c = none) ∧
    (∃ (s : State) (c : Commit) (rest : List Commit) (st : Nat) (at_ : Option Nat), s.dsp.waiting = c :: rest ∧ (queuedOn s c.output).length < 8 ∧
      commitFault { s with dsp := { s.dsp with waiting := rest } } c = some (st, at_)) ∧
    (∃ (n : Fin 8) (s : State), running s n = true ∧ (out s n).attested = true ∧ (out s n).latched = false ∧ (out s n).stopDue = false) ∧
    (∃ (a : Access) (addr : BitVec 40) (v : BitVec 32) (s : State) (m : Nat), isPage addr.toNat = true ∧ pageOff addr.toNat < 0xC00 ∧
      pageOff addr.toNat % 0x30 = 0x20 ∧ m = pageOff addr.toNat / 0x30 ∧ admitted a addr.toNat v.toNat s = true ∧
      slotOwner s m = pageOf addr.toNat) :=
  ⟨⟨core1, (0x30000C28 : BitVec 40), (0 : BitVec 32), withHart hart0 base, pageOf ((0x30000C28 : BitVec 40)).toNat, by decide +kernel,
    by decide +kernel, by decide +kernel, rfl, by decide +kernel⟩,
   ⟨(0 : Fin 32), { base with dsp := { base.dsp with flips := [⟨0, 63, ⟨0, 0, 0, 0, 0, 0, 0, none, false, 0, 0, []⟩⟩] } }, ⟨0, 63, ⟨0, 0, 0, 0, 0,
    0, 0, none, false, 0, 0, []⟩⟩, by decide +kernel, by decide +kernel, by decide +kernel⟩,
   ⟨(0 : Fin 32),
    setSlot 63 { SlotSt.empty with pending := List.replicate 4 ⟨0, 0, 0, 0, 0, 0, 0, none, false, 0, 0, []⟩ } { base with dsp := { base.dsp with flips := [⟨0, 63, ⟨0, 0, 0, 0, 0, 0, 0, none, false, 0, 0, []⟩⟩] } },
    ⟨0, 63, ⟨0, 0, 0, 0, 0, 0, 0, none, false, 0, 0, []⟩⟩, by decide +kernel, by decide +kernel, by decide +kernel⟩,
   ⟨core1, (0x30000C40 : BitVec 40), (0x70000 : BitVec 32), withHart hart0 base, pageOf ((0x30000C40 : BitVec 40)).toNat, by decide +kernel,
    by decide +kernel, by decide +kernel, rfl, by decide +kernel, by decide +kernel, by decide +kernel⟩,
   ⟨{ base with dsp := { base.dsp with waiting := [⟨0, none, 0, [], 0, 0, 0, none⟩] } }, ⟨0, none, 0, [], 0, 0, 0, none⟩, [], by decide +kernel,
    by decide +kernel, by decide +kernel⟩,
   ⟨{ base with dsp := { base.dsp with waiting := [(⟨0, none, 0, [((CMP_LAYER_CTRL_enable 0).inForce.key, 1), ((CMP_SLOT_PLACE_output 0).inForce.key, 0)], 0, 0, 0, none⟩)] } },
    ⟨0, none, 0, [((CMP_LAYER_CTRL_enable 0).inForce.key, 1), ((CMP_SLOT_PLACE_output 0).inForce.key, 0)], 0, 0, 0, none⟩, [],
    ((commitFault base (⟨0, none, 0, [((CMP_LAYER_CTRL_enable 0).inForce.key, 1), ((CMP_SLOT_PLACE_output 0).inForce.key, 0)], 0, 0, 0,
    none⟩)).getD (0, none)).1, ((commitFault base (⟨0, none, 0, [((CMP_LAYER_CTRL_enable 0).inForce.key, 1),
    ((CMP_SLOT_PLACE_output 0).inForce.key, 0)], 0, 0, 0, none⟩)).getD (0, none)).2, by decide +kernel, by decide +kernel, by decide +kernel⟩,
   ⟨(0 : Fin 8), setOut 0 { OutSt.empty with attested := true } lit, by decide +kernel, by decide +kernel, by decide +kernel, by decide +kernel⟩,
   ⟨core1, (0x30000BF0 : BitVec 40), (0 : BitVec 32), withHart hart0 base, pageOff ((0x30000BF0 : BitVec 40)).toNat / 0x30, by decide +kernel,
    by decide +kernel, by decide +kernel, rfl, by decide +kernel, by decide +kernel⟩⟩

theorem test_DisplayCommandsComplete :
    (∃ (k : Fin 32) (m : Msg) (s : State) (n : Nat), asked Op.DSP_GET_LAYER k m s = true ∧ n = bits (m.word 2) 5 0 ∧ Req.mayReadPolder s ⟨k,
      m⟩ (slotOwner s n) = true) ∧
    (∃ (k : Fin 32) (m : Msg) (s : State) (n : Nat), asked Op.DSP_GET_OUTPUT_COMMIT k m s = true ∧ n = bits (m.word 2) 2 0) ∧
    (∃ (k : Fin 32) (m : Msg) (s : State), asked Op.DSP_GET_ENGINES k m s = true) ∧
    (∃ (k : Fin 32) (m : Msg) (s : State), asked Op.DSP_GET_SCALER k m s = true ∧ bits (m.word 2) 9 8 ≠ 3) ∧
    (∃ (k : Fin 32) (m : Msg) (s : State) (n : Nat) (fvs : List (Fld × Nat)), asked Op.DSP_SET_SLOT k m s = true ∧ n = bits (m.word 2) 5 0 ∧
      slotOwner s n ≠ 0 ∧ placementFault (taken k s) n (bits (m.word 2) 11 8) (bits (m.word 2) 20 16) = none ∧ fvs = [(CMP_SLOT_PLACE_output n,
      bits (m.word 2) 11 8), (CMP_SLOT_PLACE_z n,
      bits (m.word 2) 20 16)] ++ unpackFlds (m.word 3) (clipXY n) ++ unpackFlds (m.word 4) (clipWH n) ∧
      commitPasses k m (min 8 (bits (m.word 2) 11 8)) fvs s = true) ∧
    (∃ (k : Fin 32) (m : Msg) (s : State) (n : Nat) (fvs : List (Fld × Nat)), asked Op.DSP_SET_SECURE_SLOT k m s = true ∧
      n = bits (m.word 2) 5 0 ∧ slotOwner s n = 0 ∧ placementFault (taken k s) n (bits (m.word 2) 11 8) (bits (m.word 2) 20 16) = none ∧
      fvs = [(CMP_SLOT_PLACE_output n, bits (m.word 2) 11 8), (CMP_SLOT_PLACE_z n,
      bits (m.word 2) 20 16)] ++ unpackFlds (m.word 3) (clipXY n) ++ unpackFlds (m.word 4) (clipWH n) ∧
      commitPasses k m (min 8 (bits (m.word 2) 11 8)) fvs s = true) ∧
    (∃ (k : Fin 32) (m : Msg) (s : State), asked Op.DSP_SET_SECURE_Z k m s = true ∧ bits (m.word 2) 12 8 ≤ 24 ∧
      (slotsOn (projected (taken k s)) (bits (m.word 2) 2 0)).any (fun i => slotOwner s i != 0 && decide (bits (m.word 2) 12 8 ≤ rd (projected (taken k s)) (CMP_SLOT_PLACE_z i).inForce)) = false ∧
      commitPasses k m (bits (m.word 2) 2 0) [(CMP_OUT_LATCH_secure_z (bits (m.word 2) 2 0), bits (m.word 2) 12 8)] s = true) ∧
    (∃ (k : Fin 32) (m : Msg) (s : State) (n : Nat), asked Op.DSP_SET_LATCH k m s = true ∧ n = bits (m.word 2) 2 0 ∧ bits (m.word 2) 14 8 ∈ [16,
      32, 48, 64] ∧ 1 ≤ bits (m.word 2) 20 16 ∧ bits (m.word 2) 20 16 ≤ 16 ∧ modeSet s n = false ∧ commitPasses k m n [(CMP_OUT_LATCH_lookahead n,
      bits (m.word 2) 14 8), (CMP_OUT_LATCH_berm n, bits (m.word 2) 20 16)] s = true) ∧
    (∃ (k : Fin 32) (m : Msg) (s : State) (n : Nat), asked Op.DSP_SET_BUDGET k m s = true ∧ n = bits (m.word 2) 2 0 ∧
      (demandOf s n).1 ≤ m.word 3 ∧ (demandOf s n).2 ≤ m.word 4 ∧ (demandOf (projected (taken k s)) n).1 ≤ m.word 3 ∧
      (demandOf (projected (taken k s)) n).2 ≤ m.word 4 ∧
      ceilingsOk (taken k s) n (if running s n then rd s (SCN_RATE_mhz n) else 0) (m.word 3) (m.word 4) = true ∧
      commitPasses k m n [(CMP_OUT_FETCH_BUDGET_bursts n, m.word 3), (CMP_OUT_PIX_BUDGET_pixels n, m.word 4)] s = true) ∧
    (∃ (k : Fin 32) (m : Msg) (s : State), asked Op.DSP_SET_BACKGROUND k m s = true) ∧
    (∃ (k : Fin 32) (m : Msg) (s : State) (n : Nat), asked Op.DSP_SET_COMPOSE k m s = true ∧ n = bits (m.word 2) 2 0 ∧ 1 ≤ bits (m.word 2) 11 8 ∧
      bits (m.word 2) 11 8 ≤ 8 ∧ commitPasses k m n [(CMP_OUT_COMPOSE_guard n, bits (m.word 2) 11 8), (CMP_OUT_COMPOSE_dither n,
      bits (m.word 2) 12 12)] s = true) ∧
    (∃ (k : Fin 32) (m : Msg) (s : State) (n : Nat) (fvs : List (Fld × Nat)), asked Op.DSP_SET_WRITEBACK k m s = true ∧
      n = bits (m.word 2) 31 29 ∧ m.word 3 % 64 = 0 ∧ m.word 3 < 65536 ∧ vActive s n = 0 ∧ hActive s n = 0 ∧ fvs = [(CMP_OUT_WB_CTRL_enable n,
      bits (m.word 2) 0 0), (CMP_OUT_WB_CTRL_count n, bits (m.word 2) 2 1), (CMP_OUT_WB_CTRL_polder n, bits (m.word 2) 8 4),
      (CMP_OUT_WB_STRIDE_stride n, m.word 3)] ++ (List.range 4).map (fun i => (CMP_OUT_WB_BASE_addr n i,
      bits (m.word (4 + 2 * i) + 4294967296 * m.word (5 + 2 * i)) 39 6)) ∧ commitPasses k m n fvs s = true) ∧
    (∃ (k : Fin 32) (m : Msg) (s : State) (c : Nat), asked Op.DSP_SET_SCALER k m s = true ∧ c = bits (m.word 2) 27 24 ∧ bits (m.word 2) 9 8 ≠ 3 ∧
      c ≤ phaseLimit (bits (m.word 2) 9 8) ∧ bits (m.word 2) 21 16 + c ≤ 64 ∧ bit (m.word 2) 31 = false) :=
  ⟨⟨(0 : Fin 32), msg Op.DSP_GET_LAYER [], asking 0 (msg Op.DSP_GET_LAYER []) (base), bits ((msg Op.DSP_GET_LAYER []).word 2) 5 0, by decide +kernel,
    rfl, by decide +kernel⟩,
   ⟨(0 : Fin 32), msg Op.DSP_GET_OUTPUT_COMMIT [], asking 0 (msg Op.DSP_GET_OUTPUT_COMMIT []) (base),
    bits ((msg Op.DSP_GET_OUTPUT_COMMIT []).word 2) 2 0, by decide +kernel, rfl⟩,
   ⟨(0 : Fin 32), msg Op.DSP_GET_ENGINES [], asking 0 (msg Op.DSP_GET_ENGINES []) (base), by decide +kernel⟩,
   ⟨(0 : Fin 32), msg Op.DSP_GET_SCALER [], asking 0 (msg Op.DSP_GET_SCALER []) (base), by decide +kernel, by decide +kernel⟩,
   ⟨(0 : Fin 32), msg Op.DSP_SET_SLOT [63, 0, 0], asking 0 (msg Op.DSP_SET_SLOT [63, 0, 0]) ({ base with grants := [(unitKey 1 63, 1)] }),
    bits ((msg Op.DSP_SET_SLOT [63, 0, 0]).word 2) 5 0, [(CMP_SLOT_PLACE_output (bits ((msg Op.DSP_SET_SLOT [63, 0, 0]).word 2) 5 0),
    bits ((msg Op.DSP_SET_SLOT [63, 0, 0]).word 2) 11 8), (CMP_SLOT_PLACE_z (bits ((msg Op.DSP_SET_SLOT [63, 0, 0]).word 2) 5 0),
    bits ((msg Op.DSP_SET_SLOT [63, 0, 0]).word 2) 20 16)] ++ unpackFlds ((msg Op.DSP_SET_SLOT [63, 0,
    0]).word 3) (clipXY (bits ((msg Op.DSP_SET_SLOT [63, 0, 0]).word 2) 5 0)) ++ unpackFlds ((msg Op.DSP_SET_SLOT [63, 0,
    0]).word 4) (clipWH (bits ((msg Op.DSP_SET_SLOT [63, 0, 0]).word 2) 5 0)), by decide +kernel, rfl, by decide +kernel, by decide +kernel, rfl,
    by decide +kernel⟩,
   ⟨(0 : Fin 32), msg Op.DSP_SET_SECURE_SLOT [], asking 0 (msg Op.DSP_SET_SECURE_SLOT []) (base),
    bits ((msg Op.DSP_SET_SECURE_SLOT []).word 2) 5 0, [(CMP_SLOT_PLACE_output (bits ((msg Op.DSP_SET_SECURE_SLOT []).word 2) 5 0),
    bits ((msg Op.DSP_SET_SECURE_SLOT []).word 2) 11 8), (CMP_SLOT_PLACE_z (bits ((msg Op.DSP_SET_SECURE_SLOT []).word 2) 5 0),
    bits ((msg Op.DSP_SET_SECURE_SLOT []).word 2) 20 16)] ++ unpackFlds ((msg Op.DSP_SET_SECURE_SLOT []).word 3) (clipXY (bits ((msg Op.DSP_SET_SECURE_SLOT []).word 2) 5 0)) ++ unpackFlds ((msg Op.DSP_SET_SECURE_SLOT []).word 4) (clipWH (bits ((msg Op.DSP_SET_SECURE_SLOT []).word 2) 5 0)),
    by decide +kernel, rfl, by decide +kernel, by decide +kernel, rfl, by decide +kernel⟩,
   ⟨(0 : Fin 32), msg Op.DSP_SET_SECURE_Z [], asking 0 (msg Op.DSP_SET_SECURE_Z []) (base), by decide +kernel, by decide +kernel,
    by decide +kernel, by decide +kernel⟩,
   ⟨(0 : Fin 32), msg Op.DSP_SET_LATCH [16 * 256 + 16 * 65536], asking 0 (msg Op.DSP_SET_LATCH [16 * 256 + 16 * 65536]) (base),
    bits ((msg Op.DSP_SET_LATCH [16 * 256 + 16 * 65536]).word 2) 2 0, by decide +kernel, rfl, by decide +kernel, by decide +kernel,
    by decide +kernel, by decide +kernel, by decide +kernel⟩,
   ⟨(0 : Fin 32), msg Op.DSP_SET_BUDGET [], asking 0 (msg Op.DSP_SET_BUDGET []) (base), bits ((msg Op.DSP_SET_BUDGET []).word 2) 2 0,
    by decide +kernel, rfl, by decide +kernel, by decide +kernel, by decide +kernel, by decide +kernel, by decide +kernel, by decide +kernel⟩,
   ⟨(0 : Fin 32), msg Op.DSP_SET_BACKGROUND [], asking 0 (msg Op.DSP_SET_BACKGROUND []) (base), by decide +kernel⟩,
   ⟨(0 : Fin 32), msg Op.DSP_SET_COMPOSE [8 * 256], asking 0 (msg Op.DSP_SET_COMPOSE [8 * 256]) (base),
    bits ((msg Op.DSP_SET_COMPOSE [8 * 256]).word 2) 2 0, by decide +kernel, rfl, by decide +kernel, by decide +kernel, by decide +kernel⟩,
   ⟨(0 : Fin 32), msg Op.DSP_SET_WRITEBACK [], asking 0 (msg Op.DSP_SET_WRITEBACK []) (base), bits ((msg Op.DSP_SET_WRITEBACK []).word 2) 31 29,
    [(CMP_OUT_WB_CTRL_enable (bits ((msg Op.DSP_SET_WRITEBACK []).word 2) 31 29), bits ((msg Op.DSP_SET_WRITEBACK []).word 2) 0 0),
    (CMP_OUT_WB_CTRL_count (bits ((msg Op.DSP_SET_WRITEBACK []).word 2) 31 29), bits ((msg Op.DSP_SET_WRITEBACK []).word 2) 2 1),
    (CMP_OUT_WB_CTRL_polder (bits ((msg Op.DSP_SET_WRITEBACK []).word 2) 31 29), bits ((msg Op.DSP_SET_WRITEBACK []).word 2) 8 4),
    (CMP_OUT_WB_STRIDE_stride (bits ((msg Op.DSP_SET_WRITEBACK []).word 2) 31 29),
    (msg Op.DSP_SET_WRITEBACK []).word 3)] ++ (List.range 4).map (fun i => (CMP_OUT_WB_BASE_addr (bits ((msg Op.DSP_SET_WRITEBACK []).word 2) 31 29) i,
    bits ((msg Op.DSP_SET_WRITEBACK []).word (4 + 2 * i) + 4294967296 * (msg Op.DSP_SET_WRITEBACK []).word (5 + 2 * i)) 39 6)), by decide +kernel,
    rfl, by decide +kernel, by decide +kernel, by decide +kernel, by decide +kernel, rfl, by decide +kernel⟩,
   ⟨(0 : Fin 32), msg Op.DSP_SET_SCALER [], asking 0 (msg Op.DSP_SET_SCALER []) (base), bits ((msg Op.DSP_SET_SCALER []).word 2) 27 24,
    by decide +kernel, rfl, by decide +kernel, by decide +kernel, by decide +kernel, by decide +kernel⟩⟩

theorem test_TileStepsComplete :
    (∃ (n : Fin 8) (b : Fin 512) (s : State) (g : Nat), running s n = true ∧ (out s n).attested = false ∧ b.val < bandCount s n ∧
      groupOf s n (out s n).prep b = none ∧ tile s n b 0 = none ∧
      (List.range (lookahead s n / 16 + 2)).find? (fun g => !(out s n).groups.any (fun e => e.1 == g)) = some g) ∧
    (∃ (s : State) (e : Nat) (d : Nat) (n : Nat) (b : Nat) (t : Nat) (v : Tile), (List.range 32).find? (engIdle s) = some e ∧
      firstTile (e / 4) (unstarted s) = some (d, n, b, t) ∧ tile s n b t = some v) ∧
    (∃ (e : Fin 32) (s : State) (s1 : State) (s2 : State) (n : Nat) (b : Nat) (t : Nat) (g : Nat) (v : Tile), engBusy s e = true ∧
      engTile s e = (n, b, t) ∧ tile s n b t = some v ∧ groupOf s n (out s n).prep b = some g ∧
      s1 = advanceTo (v.start + cycleTime (tileCost s n b t)) s ∧ s1.now < v.deadline ∧
      s2 = ((activeLayers s1 n).filter (fun l => !v.skip.contains l.slot)).foldl (fun s l => fetchLayer n b t l s) s1) ∧
    (∃ (e : Fin 32) (s : State) (s1 : State) (ts : List Nat),
      ts = s.now :: (Tab.get [] s.dsp.engFaults e).filter (fun t => decide (s.now < t + 1000000000)) ∧
      s1 = resetEngine e (recordReported Src.CMP_ENGINE_FAULT none [e,
      ts.length] { s with dsp := { s.dsp with engFaults := s.dsp.engFaults.put e ts } })) ∧
    (∃ (e : Fin 32) (s : State), engBusy s e = true ∧ rd s CMP_ENG_WDOG_cycles ≠ 0) ∧
    (∃ (a : Access) (addr : BitVec 40) (v : BitVec 32) (s : State), addr.toNat = 0x20202080 ∧ admitted a addr.toNat v.toNat s = true) ∧
    (∃ (e : Fin 32) (s : State), rdB s (CMP_ENG_STAT_in_reset e) = true) ∧
    (∃ (n : Fin 8) (b : Fin 512) (t : Fin 32) (m : Fin 64) (s : State) (v : Tile), tile s n b t = some v ∧ v.finished = false ∧
      v.abandoned = false ∧ v.skip.contains m.val = false ∧ slotActive s m = true ∧ placedOn s m = n ∧ (slot s m).inUse.isSome = true ∧
      usesBuffer (slot s m) = true ∧ (layerOf s m).format ≠ fmtSolid ∧ (((layerOf s m).visible s).inter (tileRect s n b t)).empty = false) ∧
    (∃ (n : Fin 8) (b : Fin 512) (t : Fin 32) (s : State) (v : Tile), tile s n b t = some v ∧ v.finished = false ∧ v.abandoned = false) ∧
    (∃ (n : Fin 8) (s : State) (s1 : State) (b : Nat) (t : Nat) (v : Tile) (words : List Nat), running s n = true ∧
      (out s n).cur = (out s n).prep ∧ (out s n).attested = false ∧ b = (out s n).scanned / max 1 (tilesPerBand s n) ∧
      t = (out s n).scanned % max 1 (tilesPerBand s n) ∧ tile s n b t = some v ∧ v.finished = true ∧
      (out s n).scanned + 1 < tilesPerBand s n * bandCount s n ∧ s1 = advanceTo (lineTime s n (16 * b)) s ∧
      passedWords s1 n (out s n).cur b t = some words) ∧
    (∃ (n : Fin 8) (b : Fin 512) (s : State) (f : Nat), wbFrame s n b = some f ∧ wbOn s n = true ∧ wbFilled s n f b = false) ∧
    (∃ (n : Fin 8) (b : Fin 512) (s : State) (s1 : State) (s2 : State) (f : Nat), wbFrame s n b = some f ∧ wbOn s n = true ∧
      s1 = (if f = (out s n).cur then advanceTo (lineTime s n (16 * (b.val + 2))) s else s) ∧
      s2 = (if freeBit s1 then wbRows n f b (tookFree s1) else tookFree s1)) ∧
    (∃ (n : Fin 8) (b : Fin 512) (s : State) (g : Nat) (f : Nat), (out s n).groups.find? (fun e => e.2.2 == b.val) = some (g, f, b.val) ∧
      (b.val + 1) * tilesPerBand s n ≤ (out s n).scanned ∧ wbOn s n = false) :=
  ⟨⟨(0 : Fin 8), (1 : Fin 512), lit, 0, by decide +kernel, by decide +kernel, by decide +kernel, by decide +kernel, by decide +kernel,
    by decide +kernel⟩,
   ⟨setTile 0 0 0 tile0 lit, 0, 1000000, 0, 0, 0, tile0, by decide +kernel, by decide +kernel, by decide +kernel⟩,
   ⟨(0 : Fin 32), wr (CMP_ENG_STAT_busy 0) 1 (setTile 0 0 0 tile0 (setOut 0 { OutSt.empty with groups := [(0, 0, 0)] } lit)),
    advanceTo (tile0.start + cycleTime (tileCost (wr (CMP_ENG_STAT_busy 0) 1 (setTile 0 0 0 tile0 (setOut 0 { OutSt.empty with groups := [(0, 0, 0)] } lit))) 0 0 0)) (wr (CMP_ENG_STAT_busy 0) 1 (setTile 0 0 0 tile0 (setOut 0 { OutSt.empty with groups := [(0, 0, 0)] } lit))),
    (advanceTo (tile0.start + cycleTime (tileCost (wr (CMP_ENG_STAT_busy 0) 1 (setTile 0 0 0 tile0 (setOut 0 { OutSt.empty with groups := [(0, 0, 0)] } lit))) 0 0 0)) (wr (CMP_ENG_STAT_busy 0) 1 (setTile 0 0 0 tile0 (setOut 0 { OutSt.empty with groups := [(0, 0, 0)] } lit)))),
    0, 0, 0, 0, tile0, by decide +kernel, by decide +kernel, by decide +kernel, by decide +kernel, rfl, by decide +kernel, rfl⟩,
   ⟨(0 : Fin 32), base, resetEngine ((0 : Fin 32)) (recordReported Src.CMP_ENGINE_FAULT none [((0 : Fin 32)),
    (base.now :: (Tab.get [] base.dsp.engFaults ((0 : Fin 32))).filter (fun t => decide (base.now < t + 1000000000))).length] { base with dsp := { base.dsp with engFaults := base.dsp.engFaults.put ((0 : Fin 32)) (base.now :: (Tab.get [] base.dsp.engFaults ((0 : Fin 32))).filter (fun t => decide (base.now < t + 1000000000))) } }),
    base.now :: (Tab.get [] base.dsp.engFaults ((0 : Fin 32))).filter (fun t => decide (base.now < t + 1000000000)), rfl, rfl⟩,
   ⟨(31 : Fin 32), wr (CMP_ENG_STAT_busy 31) 1 lit, by decide +kernel, by decide +kernel⟩,
   ⟨tujan, (0x20202080 : BitVec 40), (0 : BitVec 32), base, by decide +kernel, by decide +kernel⟩,
   ⟨(31 : Fin 32), wr (CMP_ENG_STAT_in_reset 31) 1 base, by decide +kernel⟩,
   ⟨(0 : Fin 8), (0 : Fin 512), (0 : Fin 32), (63 : Fin 64),
    setTile 0 0 0 tile0 (setSlot 63 { SlotSt.empty with inUse := some ⟨0, 0, 0, 0, 0, 0, 0, none, false, 0, 0, []⟩ } (regs [((CMP_LAYER_CTRL_enable 63).inForce,
    1), ((CMP_LAYER_DST_WH_w 63).inForce, 8), ((CMP_LAYER_DST_WH_h 63).inForce, 8), ((CMP_SLOT_CLIP_WH_w 63).inForce, 8),
    ((CMP_SLOT_CLIP_WH_h 63).inForce, 8), ((CMP_SLOT_PLACE_output 63).inForce, 0)] lit)), tile0, by decide +kernel, by decide +kernel,
    by decide +kernel, by decide +kernel, by decide +kernel, by decide +kernel, by decide +kernel, by decide +kernel, by decide +kernel,
    by decide +kernel⟩,
   ⟨(0 : Fin 8), (0 : Fin 512), (0 : Fin 32), setTile 0 0 0 tile0 lit, tile0, by decide +kernel, by decide +kernel, by decide +kernel⟩,
   ⟨(0 : Fin 8), setPool 0 0 0 ⟨0, 0, 0, true,
    [7]⟩ (setTile 0 0 0 { tile0 with finished := true } (setOut 0 { OutSt.empty with groups := [(0, 0, 0)] } lit)),
    advanceTo (lineTime (setPool 0 0 0 ⟨0, 0, 0, true,
    [7]⟩ (setTile 0 0 0 { tile0 with finished := true } (setOut 0 { OutSt.empty with groups := [(0, 0, 0)] } lit))) ((0 : Fin 8)) (16 * ((out (setPool 0 0 0 ⟨0,
    0, 0, true,
    [7]⟩ (setTile 0 0 0 { tile0 with finished := true } (setOut 0 { OutSt.empty with groups := [(0, 0, 0)] } lit))) ((0 : Fin 8))).scanned / max 1 (tilesPerBand (setPool 0 0 0 ⟨0,
    0, 0, true,
    [7]⟩ (setTile 0 0 0 { tile0 with finished := true } (setOut 0 { OutSt.empty with groups := [(0, 0, 0)] } lit))) ((0 : Fin 8)))))) (setPool 0 0 0 ⟨0,
    0, 0, true, [7]⟩ (setTile 0 0 0 { tile0 with finished := true } (setOut 0 { OutSt.empty with groups := [(0, 0, 0)] } lit))),
    (out (setPool 0 0 0 ⟨0, 0, 0, true,
    [7]⟩ (setTile 0 0 0 { tile0 with finished := true } (setOut 0 { OutSt.empty with groups := [(0, 0, 0)] } lit))) ((0 : Fin 8))).scanned / max 1 (tilesPerBand (setPool 0 0 0 ⟨0,
    0, 0, true, [7]⟩ (setTile 0 0 0 { tile0 with finished := true } (setOut 0 { OutSt.empty with groups := [(0, 0, 0)] } lit))) ((0 : Fin 8))),
    (out (setPool 0 0 0 ⟨0, 0, 0, true,
    [7]⟩ (setTile 0 0 0 { tile0 with finished := true } (setOut 0 { OutSt.empty with groups := [(0, 0, 0)] } lit))) ((0 : Fin 8))).scanned % max 1 (tilesPerBand (setPool 0 0 0 ⟨0,
    0, 0, true, [7]⟩ (setTile 0 0 0 { tile0 with finished := true } (setOut 0 { OutSt.empty with groups := [(0, 0, 0)] } lit))) ((0 : Fin 8))),
    { tile0 with finished := true }, [7], by decide +kernel, by decide +kernel, by decide +kernel, rfl, rfl, by decide +kernel, by decide +kernel,
    by decide +kernel, rfl, by decide +kernel⟩,
   ⟨(0 : Fin 8), (0 : Fin 512), setPool 0 0 0 ⟨0, 0, 0, true,
    [7]⟩ (wr (CMP_OUT_WB_CTRL_enable 0).inForce 1 (setOut 0 { OutSt.empty with groups := [(0, 0, 0)] } lit)), 0, by decide +kernel,
    by decide +kernel, by decide +kernel⟩,
   ⟨(0 : Fin 8), (1 : Fin 512), wr (CMP_OUT_WB_CTRL_enable 0).inForce 1 (setOut 0 { OutSt.empty with groups := [(0, 0, 1)] } lit),
    (if 0 = (out (wr (CMP_OUT_WB_CTRL_enable 0).inForce 1 (setOut 0 { OutSt.empty with groups := [(0, 0, 1)] } lit)) ((0 : Fin 8))).cur then advanceTo (lineTime (wr (CMP_OUT_WB_CTRL_enable 0).inForce 1 (setOut 0 { OutSt.empty with groups := [(0, 0, 1)] } lit)) ((0 : Fin 8)) (16 * (((1 : Fin 512)).val + 2))) (wr (CMP_OUT_WB_CTRL_enable 0).inForce 1 (setOut 0 { OutSt.empty with groups := [(0, 0, 1)] } lit)) else (wr (CMP_OUT_WB_CTRL_enable 0).inForce 1 (setOut 0 { OutSt.empty with groups := [(0, 0, 1)] } lit))),
    (if freeBit ((if 0 = (out (wr (CMP_OUT_WB_CTRL_enable 0).inForce 1 (setOut 0 { OutSt.empty with groups := [(0, 0, 1)] } lit)) ((0 : Fin 8))).cur then advanceTo (lineTime (wr (CMP_OUT_WB_CTRL_enable 0).inForce 1 (setOut 0 { OutSt.empty with groups := [(0, 0, 1)] } lit)) ((0 : Fin 8)) (16 * (((1 : Fin 512)).val + 2))) (wr (CMP_OUT_WB_CTRL_enable 0).inForce 1 (setOut 0 { OutSt.empty with groups := [(0, 0, 1)] } lit)) else (wr (CMP_OUT_WB_CTRL_enable 0).inForce 1 (setOut 0 { OutSt.empty with groups := [(0, 0, 1)] } lit)))) then wbRows ((0 : Fin 8)) 0 ((1 : Fin 512)) (tookFree ((if 0 = (out (wr (CMP_OUT_WB_CTRL_enable 0).inForce 1 (setOut 0 { OutSt.empty with groups := [(0, 0, 1)] } lit)) ((0 : Fin 8))).cur then advanceTo (lineTime (wr (CMP_OUT_WB_CTRL_enable 0).inForce 1 (setOut 0 { OutSt.empty with groups := [(0, 0, 1)] } lit)) ((0 : Fin 8)) (16 * (((1 : Fin 512)).val + 2))) (wr (CMP_OUT_WB_CTRL_enable 0).inForce 1 (setOut 0 { OutSt.empty with groups := [(0, 0, 1)] } lit)) else (wr (CMP_OUT_WB_CTRL_enable 0).inForce 1 (setOut 0 { OutSt.empty with groups := [(0, 0, 1)] } lit))))) else tookFree ((if 0 = (out (wr (CMP_OUT_WB_CTRL_enable 0).inForce 1 (setOut 0 { OutSt.empty with groups := [(0, 0, 1)] } lit)) ((0 : Fin 8))).cur then advanceTo (lineTime (wr (CMP_OUT_WB_CTRL_enable 0).inForce 1 (setOut 0 { OutSt.empty with groups := [(0, 0, 1)] } lit)) ((0 : Fin 8)) (16 * (((1 : Fin 512)).val + 2))) (wr (CMP_OUT_WB_CTRL_enable 0).inForce 1 (setOut 0 { OutSt.empty with groups := [(0, 0, 1)] } lit)) else (wr (CMP_OUT_WB_CTRL_enable 0).inForce 1 (setOut 0 { OutSt.empty with groups := [(0, 0, 1)] } lit))))),
    0, by decide +kernel, by decide +kernel, rfl, rfl⟩,
   ⟨(0 : Fin 8), (0 : Fin 512), setOut 0 { OutSt.empty with groups := [(0, 0, 0)], scanned := 1 } lit, 0, 0, by decide +kernel, by decide +kernel,
    by decide +kernel⟩⟩

theorem test_DikeWatchStepsComplete :
    (∃ (n : Fin 8) (r : Fin 16) (s : State) (s1 : State) (st : Nat) (used : Nat), running s n = true ∧ (out s n).cur = (out s n).prep ∧
      (out s n).attested = false ∧ regionOn s n r = true ∧ (region s n r).compared = false ∧
      ((regionRect s n r).y1.toNat - 1) / 16 * tilesPerBand s n + tilesPerBand s n ≤ (out s n).scanned ∧
      s1 = advanceTo (lineTime s n (regionRect s n r).y1.toNat) s ∧ regionStatus s1 n r (regionSignature s1 n r) = (st, used) ∧ st ∉ [2, 4, 5, 6]) ∧
    (∃ (n : Fin 8) (s : State), running s n = true ∧ (out s n).cur = (out s n).prep ∧ (out s n).attested = false ∧
      tilesPerBand s n * bandCount s n ≤ (out s n).scanned ∧ (regionsOn s n).all (fun r => (region s n r).compared) = true) ∧
    (∃ (m : Fin 64) (s : State) (s1 : State) (e : Entry) (f : Nat) (sig : BitVec 32), (slot s m).reading = some f ∧ (slot s m).inUse = some e ∧
      fetchCheck (slotOwner s m) (motionRanges s (layerOf s m) e) s = (0, s1) ∧
      sig.toNat = crc32c ((motionRanges s (layerOf s m) e).flatMap (fun r => devBytes s1 (slotOwner s m) r.1 r.2))) ∧
    (∃ (n : Fin 8) (r : Fin 16) (s : State) (s1 : State) (e : Entry), (slot s (regionSlot s n r)).inUse = some e ∧ (region s n r).auto = 1 ∧
      (region s n r).compared = false ∧
      fetchCheck (slotOwner s (regionSlot s n r)) (fetchRanges (layerOf s (regionSlot s n r)) e (regionRect s n r)) s = (0, s1)) ∧
    (∃ (a : Access) (addr : BitVec 40) (v : BitVec 32) (s : State) (n : Nat) (r : Nat), regionReg addr.toNat 0x10 = some (n, r) ∧
      admitted a addr.toNat v.toNat s = true ∧ (region s n r).pairs.length < 4) ∧
    (∃ (a : Access) (addr : BitVec 40) (v : BitVec 32) (s : State) (n : Nat), dkwOutReg addr.toNat 0 = some n ∧
      admitted a addr.toNat v.toNat s = true) ∧
    (∃ (a : Access) (addr : BitVec 40) (v : BitVec 32) (s : State) (n : Nat), dkwOutReg addr.toNat 4 = some n ∧
      admitted a addr.toNat v.toNat s = true) ∧
    (∃ (a : Access) (addr : BitVec 40) (v : BitVec 32) (s : State), addr.toNat = 0x20240020 ∧ admitted a addr.toNat v.toNat s = true ∧
      bit v.toNat 0 = true) ∧
    (∃ (a : Access) (addr : BitVec 40) (v : BitVec 32) (s : State), addr.toNat = 0x20240038 ∧ admitted a addr.toNat v.toNat s = true ∧
      bit v.toNat 16 = true ∧ ringSizeOk (bits v.toNat 14 0) = true ∧ rdB s DKW_RING_CTRL_enable = false) ∧
    (∃ (a : Access) (addr : BitVec 40) (v : BitVec 32) (s : State), addr.toNat = 0x20240050 ∧ admitted a addr.toNat v.toNat s = true ∧
      bit v.toNat 0 = true) ∧
    (∃ (a : Access) (addr : BitVec 40) (v : BitVec 32) (s : State) (i : Nat), i < 16 ∧ addr.toNat = 0x20240400 + 0x10 * i + 8 ∧
      admitted a addr.toNat v.toNat s = true ∧ imageHeld s i = false) :=
  ⟨⟨(0 : Fin 8), (15 : Fin 16), putRegion 0 15 { RegSt.empty with treated := 3 } watched,
    advanceTo (lineTime (putRegion 0 15 { RegSt.empty with treated := 3 } watched) ((0 : Fin 8)) (regionRect (putRegion 0 15 { RegSt.empty with treated := 3 } watched) ((0 : Fin 8)) ((15 : Fin 16))).y1.toNat) (putRegion 0 15 { RegSt.empty with treated := 3 } watched),
    3, 0, by decide +kernel, by decide +kernel, by decide +kernel, by decide +kernel, by decide +kernel, by decide +kernel, rfl,
    by decide +kernel, by decide +kernel⟩,
   ⟨(0 : Fin 8), putRegion 0 15 { RegSt.empty with compared := true } watched, by decide +kernel, by decide +kernel, by decide +kernel,
    by decide +kernel, by decide +kernel⟩,
   ⟨(63 : Fin 64), setSlot 63 { SlotSt.empty with reading := some 0, inUse := some blank } base,
    (setSlot 63 { SlotSt.empty with reading := some 0, inUse := some blank } base), blank, 0, (0 : BitVec 32), by decide +kernel,
    by decide +kernel, by decide +kernel, by decide +kernel⟩,
   ⟨(7 : Fin 8), (15 : Fin 16), setSlot 0 { SlotSt.empty with inUse := some blank } (putRegion 7 15 { RegSt.empty with auto := 1 } base),
    (setSlot 0 { SlotSt.empty with inUse := some blank } (putRegion 7 15 { RegSt.empty with auto := 1 } base)), blank, by decide +kernel,
    by decide +kernel, by decide +kernel, by decide +kernel⟩,
   ⟨core1, (0x20244FF0 : BitVec 40), (0 : BitVec 32), withHart hart0 base, 7, 15, by decide +kernel, by decide +kernel, by decide +kernel⟩,
   ⟨core1, (0x20246070 : BitVec 40), (0 : BitVec 32), withHart hart0 base, 7, by decide +kernel, by decide +kernel⟩,
   ⟨core1, (0x20246074 : BitVec 40), (0x8000 : BitVec 32), withHart hart0 base, 7, by decide +kernel, by decide +kernel⟩,
   ⟨core1, (0x20240020 : BitVec 40), (1 : BitVec 32), withHart hart0 base, by decide +kernel, by decide +kernel, by decide +kernel⟩,
   ⟨tujan, (0x20240038 : BitVec 40), (0x14000 : BitVec 32), base, by decide +kernel, by decide +kernel, by decide +kernel, by decide +kernel,
    by decide +kernel⟩,
   ⟨tujan, (0x20240050 : BitVec 40), (1 : BitVec 32), base, by decide +kernel, by decide +kernel, by decide +kernel⟩,
   ⟨core1, (0x202404F8 : BitVec 40), (0 : BitVec 32), withHart hart0 base, 15, by decide +kernel, by decide +kernel, by decide +kernel,
    by decide +kernel⟩⟩

theorem test_DikeWatchCommandsComplete :
    (∃ (k : Fin 32) (m : Msg) (s : State) (n : Nat), asked Op.DKW_GET_LAYER k m s = true ∧ n = bits (m.word 2) 5 0 ∧ Req.mayReadPolder s ⟨k,
      m⟩ (slotOwner s n) = true) ∧
    (∃ (k : Fin 32) (m : Msg) (s : State) (n : Nat) (r : Nat), asked Op.DKW_GET_REGION k m s = true ∧ n = bits (m.word 2) 2 0 ∧
      r = bits (m.word 2) 11 8) ∧
    (∃ (k : Fin 32) (m : Msg) (s : State), asked Op.DKW_GET_RING k m s = true) ∧
    (∃ (k : Fin 32) (m : Msg) (s : State) (n : Nat), asked Op.DKW_SET_LAYER_LIVE k m s = true ∧ n = bits (m.word 2) 5 0 ∧ slotOwner s n ≠ 0 ∧
      bits (m.word 3) 1 0 ≠ 2 ∧ projectedOutput (taken k s) n < 8 ∧ commitPasses k m (projectedOutput (taken k s) n) (classValues ⟨k,
      m⟩ n) s = true) ∧
    (∃ (k : Fin 32) (m : Msg) (s : State) (n : Nat), asked Op.DKW_SET_SECURE_LAYER k m s = true ∧ n = bits (m.word 2) 5 0 ∧
      (slotOwner s n = 0 ∨ bits (m.word 3) 1 0 ≠ 2) ∧ projectedOutput (taken k s) n < 8 ∧
      commitPasses k m (projectedOutput (taken k s) n) (classValues ⟨k, m⟩ n) s = true) ∧
    (∃ (k : Fin 32) (m : Msg) (s : State) (n : Nat) (r : Nat) (fvs : List (Fld × Nat)), asked Op.DKW_SET_REGION k m s = true ∧
      n = bits (m.word 2) 2 0 ∧ r = bits (m.word 2) 11 8 ∧
      fvs = unpackFlds (m.word 3) (regionXY n r) ++ unpackFlds (m.word 4) (regionWH n r) ++ unpackFlds (m.word 5) (regionCtrl n r) ∧
      commitPasses k m n fvs s = true) ∧
    (∃ (k : Fin 32) (m : Msg) (s : State) (i : Nat), asked Op.DKW_SET_IMAGE k m s = true ∧ i = bits (m.word 2) 3 0 ∧
      imageHeld (taken k s) i = false ∧ bits (m.word 5) 13 0 = 0) ∧
    (∃ (k : Fin 32) (m : Msg) (s : State), asked Op.DKW_SET_KEY k m s = true) ∧
    (∃ (k : Fin 32) (m : Msg) (s : State) (base : Nat), asked Op.DKW_SET_RING k m s = true ∧
      base = bits (m.word 2 + 4294967296 * m.word 3) 39 12 ∧ ringSizeOk (bits (m.word 4) 14 0) = true ∧
      rangeSecureK0 (taken k s) (base * 4096) (256 * bits (m.word 4) 14 0) = true) :=
  ⟨⟨(0 : Fin 32), msg Op.DKW_GET_LAYER [], asking 0 (msg Op.DKW_GET_LAYER []) (base), bits ((msg Op.DKW_GET_LAYER []).word 2) 5 0, by decide +kernel,
    rfl, by decide +kernel⟩,
   ⟨(0 : Fin 32), msg Op.DKW_GET_REGION [], asking 0 (msg Op.DKW_GET_REGION []) (base), bits ((msg Op.DKW_GET_REGION []).word 2) 2 0,
    bits ((msg Op.DKW_GET_REGION []).word 2) 11 8, by decide +kernel, rfl, rfl⟩,
   ⟨(0 : Fin 32), msg Op.DKW_GET_RING [], asking 0 (msg Op.DKW_GET_RING []) (base), by decide +kernel⟩,
   ⟨(0 : Fin 32), msg Op.DKW_SET_LAYER_LIVE [63, 1, 0, 1000], asking 0 (msg Op.DKW_SET_LAYER_LIVE [63, 1, 0,
    1000]) ({ wr (CMP_SLOT_PLACE_output 63).inForce 7 base with grants := [(unitKey 1 63, 1)] }), bits ((msg Op.DKW_SET_LAYER_LIVE [63, 1, 0,
    1000]).word 2) 5 0, by decide +kernel, rfl, by decide +kernel, by decide +kernel, by decide +kernel, by decide +kernel⟩,
   ⟨(0 : Fin 32), msg Op.DKW_SET_SECURE_LAYER [63, 2, 0, 1000], asking 0 (msg Op.DKW_SET_SECURE_LAYER [63, 2, 0,
    1000]) (wr (CMP_SLOT_PLACE_output 63).inForce 7 base), bits ((msg Op.DKW_SET_SECURE_LAYER [63, 2, 0, 1000]).word 2) 5 0, by decide +kernel,
    rfl, by decide +kernel, by decide +kernel, by decide +kernel⟩,
   ⟨(0 : Fin 32), msg Op.DKW_SET_REGION [], asking 0 (msg Op.DKW_SET_REGION []) (base), bits ((msg Op.DKW_SET_REGION []).word 2) 2 0,
    bits ((msg Op.DKW_SET_REGION []).word 2) 11 8,
    unpackFlds ((msg Op.DKW_SET_REGION []).word 3) (regionXY (bits ((msg Op.DKW_SET_REGION []).word 2) 2 0) (bits ((msg Op.DKW_SET_REGION []).word 2) 11 8)) ++ unpackFlds ((msg Op.DKW_SET_REGION []).word 4) (regionWH (bits ((msg Op.DKW_SET_REGION []).word 2) 2 0) (bits ((msg Op.DKW_SET_REGION []).word 2) 11 8)) ++ unpackFlds ((msg Op.DKW_SET_REGION []).word 5) (regionCtrl (bits ((msg Op.DKW_SET_REGION []).word 2) 2 0) (bits ((msg Op.DKW_SET_REGION []).word 2) 11 8)),
    by decide +kernel, rfl, rfl, rfl, by decide +kernel⟩,
   ⟨(0 : Fin 32), msg Op.DKW_SET_IMAGE [], asking 0 (msg Op.DKW_SET_IMAGE []) (base), bits ((msg Op.DKW_SET_IMAGE []).word 2) 3 0,
    by decide +kernel, rfl, by decide +kernel, by decide +kernel⟩,
   ⟨(0 : Fin 32), msg Op.DKW_SET_KEY [], asking 0 (msg Op.DKW_SET_KEY []) (base), by decide +kernel⟩,
   ⟨(0 : Fin 32), msg Op.DKW_SET_RING [0x40000000, 0, 64], asking 0 (msg Op.DKW_SET_RING [0x40000000, 0, 64]) base, 0x40000, by decide +kernel,
    by decide +kernel, by decide +kernel, by decide +kernel⟩⟩

theorem test_ScanOutStepsComplete :
    (∃ (n : Fin 8) (s : State), running s n = true ∧ (out s n).attested = true ∧ (out s n).vsynced = false ∧ (out s n).stopDue = false ∧
      stretchLines s n = 0) ∧
    (∃ (n : Fin 8) (s : State), running s n = true ∧ (out s n).vsynced = true ∧ (out s n).latched = true ∧ cmdMode s n = false) ∧
    (∃ (n : Fin 8) (s : State), running s n = true ∧ waitsTe s n = true ∧ (out s n).vsynced = true ∧ (out s n).latched = true ∧
      (out s n).te = false) ∧
    (∃ (n : Fin 8) (s : State) (j : Option Job) (ws : List Nat), (out s n).stopDue = true ∧ (out s n).mode = some (j, ws)) ∧
    (∃ (n : Fin 8) (trained : Bool) (s : State) (s1 : State) (s2 : State) (s4 : State), (out s n).configured = true ∧ running s n = false ∧
      s1 = advanceTo (startTime s n) s ∧ s2 = anchorNow n (vsyncStart s1 n) (incNow s1 n) (wr (SCN_STATUS_running n) 1 s1) ∧
      s4 = (if lockOn s n then setLockState n 1 else id) (vsync n (setOut n { out s2 n with cur := frameCounter s n, prep := frameCounter s n, attested := true, vsynced := false, latched := false, te := false, stopDue := false, lockRun := 0 } s2))) ∧
    (∃ (n : Nat) (us : Nat) (k : SinkInfo) (t : Option (Nat × Nat)) (s : State), 100000 ≤ us ∧ sinkPresent s n = true) ∧
    (∃ (n : Fin 6) (lost : Bool) (t : Trained) (s : State), running s n = true ∧ sinkPresent s n = true) :=
  ⟨⟨(7 : Fin 8), outAt 7 { OutSt.empty with attested := true } base, by decide +kernel, by decide +kernel, by decide +kernel, by decide +kernel,
    by decide +kernel⟩,
   ⟨(7 : Fin 8), outAt 7 { OutSt.empty with vsynced := true, latched := true } base, by decide +kernel, by decide +kernel, by decide +kernel,
    by decide +kernel⟩,
   ⟨(7 : Fin 8), outAt 7 { OutSt.empty with vsynced := true, latched := true } (regs [((SCN_FORMAT_cmd_mode 7).inForce, 1),
    ((SCN_FORMAT_te_en 7).inForce, 1)] base), by decide +kernel, by decide +kernel, by decide +kernel, by decide +kernel, by decide +kernel⟩,
   ⟨(7 : Fin 8), outAt 7 { OutSt.empty with stopDue := true, mode := some (none, []) } base, none, [], by decide +kernel, by decide +kernel⟩,
   ⟨(7 : Fin 8), false, setOut 7 { OutSt.empty with configured := true } base,
    advanceTo (startTime (setOut 7 { OutSt.empty with configured := true } base) ((7 : Fin 8))) (setOut 7 { OutSt.empty with configured := true } base),
    anchorNow ((7 : Fin 8)) (vsyncStart (advanceTo (startTime (setOut 7 { OutSt.empty with configured := true } base) ((7 : Fin 8))) (setOut 7 { OutSt.empty with configured := true } base)) ((7 : Fin 8))) (incNow (advanceTo (startTime (setOut 7 { OutSt.empty with configured := true } base) ((7 : Fin 8))) (setOut 7 { OutSt.empty with configured := true } base)) ((7 : Fin 8))) (wr (SCN_STATUS_running ((7 : Fin 8))) 1 (advanceTo (startTime (setOut 7 { OutSt.empty with configured := true } base) ((7 : Fin 8))) (setOut 7 { OutSt.empty with configured := true } base))),
    (if lockOn (setOut 7 { OutSt.empty with configured := true } base) ((7 : Fin 8)) then setLockState ((7 : Fin 8)) 1 else id) (vsync ((7 : Fin 8)) (setOut ((7 : Fin 8)) { out (anchorNow ((7 : Fin 8)) (vsyncStart (advanceTo (startTime (setOut 7 { OutSt.empty with configured := true } base) ((7 : Fin 8))) (setOut 7 { OutSt.empty with configured := true } base)) ((7 : Fin 8))) (incNow (advanceTo (startTime (setOut 7 { OutSt.empty with configured := true } base) ((7 : Fin 8))) (setOut 7 { OutSt.empty with configured := true } base)) ((7 : Fin 8))) (wr (SCN_STATUS_running ((7 : Fin 8))) 1 (advanceTo (startTime (setOut 7 { OutSt.empty with configured := true } base) ((7 : Fin 8))) (setOut 7 { OutSt.empty with configured := true } base)))) ((7 : Fin 8)) with cur := frameCounter (setOut 7 { OutSt.empty with configured := true } base) ((7 : Fin 8)), prep := frameCounter (setOut 7 { OutSt.empty with configured := true } base) ((7 : Fin 8)), attested := true, vsynced := false, latched := false, te := false, stopDue := false, lockRun := 0 } (anchorNow ((7 : Fin 8)) (vsyncStart (advanceTo (startTime (setOut 7 { OutSt.empty with configured := true } base) ((7 : Fin 8))) (setOut 7 { OutSt.empty with configured := true } base)) ((7 : Fin 8))) (incNow (advanceTo (startTime (setOut 7 { OutSt.empty with configured := true } base) ((7 : Fin 8))) (setOut 7 { OutSt.empty with configured := true } base)) ((7 : Fin 8))) (wr (SCN_STATUS_running ((7 : Fin 8))) 1 (advanceTo (startTime (setOut 7 { OutSt.empty with configured := true } base) ((7 : Fin 8))) (setOut 7 { OutSt.empty with configured := true } base)))))),
    by decide +kernel, by decide +kernel, rfl, rfl, rfl⟩,
   ⟨5, 100000, sink0, none, wr (SCN_STATUS_sink 5) 1 base, by decide +kernel, by decide +kernel⟩,
   ⟨(5 : Fin 6), true, some (1, 4), regs [(SCN_STATUS_sink 5, 1), (SCN_STATUS_running 5, 1)] base, by decide +kernel, by decide +kernel⟩⟩

theorem test_ScanOutCommandsComplete :
    (∃ (k : Fin 32) (m : Msg) (s : State) (n : Nat) (ws : List Nat), asked Op.DSP_SET_MODE k m s = true ∧ n = bits (m.word 2) 2 0 ∧
      ws = (List.range 9).map (fun i => m.word (i + 2)) ∧ bit (m.word 2) 3 = true ∧ (out s n).mode = none ∧ modeMalformed ws = false ∧
      modeSet s n = false ∧ running s n = false ∧ modeFault (taken k s) n ws = none) ∧
    (∃ (k : Fin 32) (m : Msg) (s : State) (s1 : State) (n : Nat), asked Op.DSP_SET_LOCK k m s = true ∧ n = bits (m.word 2) 2 0 ∧
      bit (m.word 2) 3 = true ∧ bit (m.word 2) 4 = false ∧ rd s (SCN_RATE_mhz n) = 0 ∧ modeSet s n = false ∧
      schedConflict s n (bits (m.word 2) 31 16) (m.word 3) 0 = false ∧ cmdModeComing s n = false ∧
      s1 = tookFree (wr (SCN_LOCK_PHASE_ns n) (m.word 3) (wr (SCN_LOCK_CTRL_group n) (bits (m.word 2) 31 16) (wr (SCN_LOCK_CTRL_max_stretch n) (bits (m.word 4) 13 0) (wrB (SCN_LOCK_CTRL_method n) false (wrB (SCN_LOCK_CTRL_enable n) true (taken k s))))))) ∧
    (∃ (k : Fin 32) (m : Msg) (s : State), asked Op.DSP_SET_FILL k m s = true) ∧
    (∃ (k : Fin 32) (m : Msg) (s : State) (n : Nat), asked Op.DSP_GET_OUTPUT k m s = true ∧ n = bits (m.word 2) 2 0 ∧ bit (m.word 2) 8 = true) ∧
    (∃ (k : Fin 32) (m : Msg) (s : State) (n : Nat) (sk : Sink), asked Op.DSP_GET_SINK k m s = true ∧ n = bits (m.word 2) 2 0 ∧
      (out s n).sink = some sk) :=
  ⟨⟨(0 : Fin 32), msg Op.DSP_SET_MODE [7 + 8 + 48 + 128 + 16384, 1280 + 65536 * 1650, 1390 + 65536 * 1430, 720 + 65536 * 752, 725 + 65536 * 730,
    74448, 60000, 0, 4500], asking 0 (msg Op.DSP_SET_MODE [7 + 8 + 48 + 128 + 16384, 1280 + 65536 * 1650, 1390 + 65536 * 1430, 720 + 65536 * 752,
    725 + 65536 * 730, 74448, 60000, 0, 4500]) (base), bits ((msg Op.DSP_SET_MODE [7 + 8 + 48 + 128 + 16384, 1280 + 65536 * 1650,
    1390 + 65536 * 1430, 720 + 65536 * 752, 725 + 65536 * 730, 74448, 60000, 0, 4500]).word 2) 2 0, [7 + 8 + 48 + 128 + 16384,
    1280 + 65536 * 1650, 1390 + 65536 * 1430, 720 + 65536 * 752, 725 + 65536 * 730, 74448, 60000, 0, 4500], by decide +kernel, rfl,
    by decide +kernel, by decide +kernel, by decide +kernel, by decide +kernel, by decide +kernel, by decide +kernel, by decide +kernel⟩,
   ⟨(0 : Fin 32), msg Op.DSP_SET_LOCK [15 + 65536], asking 0 (msg Op.DSP_SET_LOCK [15 + 65536]) (base),
    tookFree (wr (SCN_LOCK_PHASE_ns (bits ((msg Op.DSP_SET_LOCK [15 + 65536]).word 2) 2 0)) ((msg Op.DSP_SET_LOCK [15 + 65536]).word 3) (wr (SCN_LOCK_CTRL_group (bits ((msg Op.DSP_SET_LOCK [15 + 65536]).word 2) 2 0)) (bits ((msg Op.DSP_SET_LOCK [15 + 65536]).word 2) 31 16) (wr (SCN_LOCK_CTRL_max_stretch (bits ((msg Op.DSP_SET_LOCK [15 + 65536]).word 2) 2 0)) (bits ((msg Op.DSP_SET_LOCK [15 + 65536]).word 4) 13 0) (wrB (SCN_LOCK_CTRL_method (bits ((msg Op.DSP_SET_LOCK [15 + 65536]).word 2) 2 0)) false (wrB (SCN_LOCK_CTRL_enable (bits ((msg Op.DSP_SET_LOCK [15 + 65536]).word 2) 2 0)) true (taken ((0 : Fin 32)) (asking 0 (msg Op.DSP_SET_LOCK [15 + 65536]) (base)))))))),
    bits ((msg Op.DSP_SET_LOCK [15 + 65536]).word 2) 2 0, by decide +kernel, rfl, by decide +kernel, by decide +kernel, by decide +kernel,
    by decide +kernel, by decide +kernel, by decide +kernel, rfl⟩,
   ⟨(0 : Fin 32), msg Op.DSP_SET_FILL [], asking 0 (msg Op.DSP_SET_FILL []) (base), by decide +kernel⟩,
   ⟨(0 : Fin 32), msg Op.DSP_GET_OUTPUT [256 + 7], asking 0 (msg Op.DSP_GET_OUTPUT [256 + 7]) (base),
    bits ((msg Op.DSP_GET_OUTPUT [256 + 7]).word 2) 2 0, by decide +kernel, rfl, by decide +kernel⟩,
   ⟨(0 : Fin 32), refMsg Op.DSP_GET_SINK 0x40000005 4096,
    asking 0 (refMsg Op.DSP_GET_SINK 0x40000005 4096) (setOut 5 { OutSt.empty with sink := some ⟨0, 0, false, false, []⟩ } base),
    bits ((refMsg Op.DSP_GET_SINK 0x40000005 4096).word 2) 2 0, ⟨0, 0, false, false, []⟩, by decide +kernel, rfl, by decide +kernel⟩⟩

theorem test_PacketsComplete :
    (∃ (p : Fin 32) (w : Fin 16) (ws : List Nat) (s : State) (t : State), packetAt 0 (winKey p w) ws s t) ∧
    (∃ (p : Fin 32) (w : Fin 16) (ws : List Nat) (s : State) (t : State), packetAt 1 (winKey p w) ws s t) ∧
    (∃ (p : Fin 32) (w : Fin 16) (ws : List Nat) (s : State) (t : State), packetAt 2 (winKey p w) ws s t) ∧
    (∃ (p : Fin 32) (w : Fin 16) (d : DrawWork) (ws : List Nat) (s : State) (t : State), packetAt 3 (winKey p w) ws s t) ∧
    (∃ (p : Fin 32) (w : Fin 16) (ws : List Nat) (s : State) (t : State), packetAt 4 (winKey p w) ws s t ∧
      ws.all (fun c => decide (1 ≤ c) && decide (c ≤ 65535)) = true) ∧
    (∃ (p : Fin 32) (w : Fin 16) (ws : List Nat) (s : State) (t : State), packetAt 5 (winKey p w) ws s t) ∧
    (∃ (p : Fin 32) (w : Fin 16) (tiles : Nat) (cs : List FastClear) (ws : List Nat) (s : State) (t : State) (t1 : State),
      packetAt 6 (winKey p w) ws s t ∧
      t1 = setGfxWin (winKey p w) { gfxWin t (winKey p w) with ending := some (bit (ws.getD 0 0) 0, cs.map clearOf) } t) ∧
    (∃ (p : Fin 32) (w : Fin 16) (ws : List Nat) (bs : List Nat) (s : State) (t : State) (t1 : State), packetAt 7 (winKey p w) ws s t ∧
      devRead (gfxEng (winKey p w)) (bits (twoWord ws 0) 39 3 * 8) 8 t = (0, bs, t1)) ∧
    (∃ (p : Fin 32) (w : Fin 16) (ws : List Nat) (s : State) (t : State) (t1 : State), packetAt 8 (winKey p w) ws s t ∧
      devWrite (gfxEng (winKey p w)) (bits (twoWord ws 0) 39 3 * 8) (leBytes 8 (twoWord ws 2)) t = (0, t1)) ∧
    (∃ (p : Fin 32) (w : Fin 16) (ws : List Nat) (s : State) (t : State) (t1 : State), packetAt 9 (winKey p w) ws s t ∧
      devWrite (gfxEng (winKey p w)) (bits (twoWord ws 0) 39 3 * 8) (leBytes 8 t.devTime) t = (0, t1)) ∧
    (∃ (p : Fin 32) (w : Fin 16) (ws : List Nat) (s : State) (t : State), packetAt 10 (winKey p w) ws s t) ∧
    (∃ (p : Fin 32) (w : Fin 16) (ws : List Nat) (s : State) (t : State), packetAt 11 (winKey p w) ws s t) :=
  ⟨⟨(31 : Fin 32), (15 : Fin 16), (packetRead 0 511 (packet false [0])).1, packet false [0], (packetRead 0 511 (packet false [0])).2,
    packetAt_of (by decide +kernel)⟩,
   ⟨(31 : Fin 32), (15 : Fin 16), (packetRead 1 511 (packet false [0x301, 0x1000, 0x10, 4])).1, packet false [0x301, 0x1000, 0x10, 4],
    (packetRead 1 511 (packet false [0x301, 0x1000, 0x10, 4])).2, packetAt_of (by decide +kernel)⟩,
   ⟨(31 : Fin 32), (15 : Fin 16), (packetRead 2 511 (packet false [2])).1, packet false [2], (packetRead 2 511 (packet false [2])).2,
    packetAt_of (by decide +kernel)⟩,
   ⟨(31 : Fin 32), (15 : Fin 16), ⟨1, 1, 0, []⟩, (packetRead 3 511 (packet false [3])).1, packet false [3],
    (packetRead 3 511 (packet false [3])).2, packetAt_of (by decide +kernel)⟩,
   ⟨(31 : Fin 32), (15 : Fin 16), (packetRead 4 511 (packet false [0x304, 65535, 1, 1])).1, packet false [0x304, 65535, 1, 1],
    (packetRead 4 511 (packet false [0x304, 65535, 1, 1])).2, packetAt_of (by decide +kernel), by decide +kernel⟩,
   ⟨(31 : Fin 32), (15 : Fin 16), (packetRead 5 511 (packet false [5])).1, packet false [5], (packetRead 5 511 (packet false [5])).2,
    packetAt_of (by decide +kernel)⟩,
   ⟨(31 : Fin 32), (15 : Fin 16), 0, [], (packetRead 6 511 (packet true [0x106, 0])).1, packet true [0x106, 0],
    (packetRead 6 511 (packet true [0x106, 0])).2,
    setGfxWin (winKey ((31 : Fin 32)) ((15 : Fin 16))) { gfxWin ((packetRead 6 511 (packet true [0x106, 0])).2) (winKey ((31 : Fin 32)) ((15 : Fin 16))) with ending := some (bit (((packetRead 6 511 (packet true [0x106, 0])).1).getD 0 0) 0, ([]).map clearOf) } ((packetRead 6 511 (packet true [0x106,
    0])).2), packetAt_of (by decide +kernel), rfl⟩,
   ⟨(31 : Fin 32), (15 : Fin 16), (packetRead 7 511 (packet false [0x507, 0x1000, 0x10, 0, 0, 0])).1, List.replicate 8 0, packet false [0x507,
    0x1000, 0x10, 0, 0, 0], (packetRead 7 511 (packet false [0x507, 0x1000, 0x10, 0, 0, 0])).2, ((packetRead 7 511 (packet false [0x507, 0x1000,
    0x10, 0, 0, 0])).2), packetAt_of (by decide +kernel), by decide +kernel⟩,
   ⟨(31 : Fin 32), (15 : Fin 16), (packetRead 8 511 (packet false [0x408, 0x1000, 0x10, 7, 0])).1, packet false [0x408, 0x1000, 0x10, 7, 0],
    (packetRead 8 511 (packet false [0x408, 0x1000, 0x10, 7, 0])).2,
    (devWrite (gfxEng 511) 0x1000001000 (leBytes 8 7) ((packetRead 8 511 (packet false [0x408, 0x1000, 0x10, 7, 0])).2)).2,
    packetAt_of (by decide +kernel), by decide +kernel⟩,
   ⟨(31 : Fin 32), (15 : Fin 16), (packetRead 9 511 (packet false [0x209, 0x1000, 0x10])).1, packet false [0x209, 0x1000, 0x10],
    (packetRead 9 511 (packet false [0x209, 0x1000, 0x10])).2,
    (devWrite (gfxEng 511) 0x1000001000 (leBytes 8 (((packetRead 9 511 (packet false [0x209, 0x1000,
    0x10])).2)).devTime) ((packetRead 9 511 (packet false [0x209, 0x1000, 0x10])).2)).2, packetAt_of (by decide +kernel), by decide +kernel⟩,
   ⟨(31 : Fin 32), (15 : Fin 16), (packetRead 10 511 (packet false [0x20A, 0, 0])).1, packet false [0x20A, 0, 0],
    (packetRead 10 511 (packet false [0x20A, 0, 0])).2, packetAt_of (by decide +kernel)⟩,
   ⟨(31 : Fin 32), (15 : Fin 16), (packetRead 11 511 (packet false [11])).1, packet false [11], (packetRead 11 511 (packet false [11])).2,
    packetAt_of (by decide +kernel)⟩⟩

theorem test_GraphicsStepsComplete :
    (∃ (a : Access) (addr : BitVec 40) (v : BitVec 32) (s : State) (k : Nat) (len : Nat), gfxWindowAt addr.toNat 0x20 = some k ∧
      domainOn s 2 = true ∧ admitted a addr.toNat v.toNat s = true ∧ bit v.toNat 0 = true ∧ refuses s (k / 16) = false ∧ quietening s = false ∧
      (gfxWin s k).context.isSome = true ∧ len = rd s (GFX_CTX_SUB_LEN_bytes (k / 16) (k % 16)) ∧ len ≠ 0 ∧ len % 4 = 0 ∧
      (gfxWin s k).queue.length < 64) ∧
    (∃ (p : Fin 32) (w : Fin 16) (c : BitVec 16) (work : List GfxAccess) (s : State) (s1 : State), (gfxWin s (winKey p w)).todo ≠ 0 ∧
      c.toNat ≠ 0 ∧ (gfxWin s (winKey p w)).clusters &&& c.toNat = c.toNat ∧ gfxAccesses (winKey p w) work s = (0, s1) ∧
      2 ≤ (gfxWin s1 (winKey p w)).todo) ∧
    (∃ (p : Fin 32) (w : Fin 16) (s : State) (a : Nat) (len : Nat) (off : Nat) (q : GfxSub) (rest : List GfxSub), gfxReady s (winKey p w) = true ∧
      gfxPos (gfxWin s (winKey p w)) = [(a, len, off)] ∧ (gfxWin s (winKey p w)).queue = q :: rest ∧ len / 4 ≤ off ∧
      (gfxWin s (winKey p w)).inPass = false ∧ q.fence = 0 ∧ q.irq = false) ∧
    (∃ (p : Fin 32) (w : Fin 16) (s : State) (s1 : State) (a : Nat) (v : Nat) (x : Nat) (t : Option Nat), (gfxWin s (winKey p w)).wait = some (a,
      v, t) ∧ gfxPoll (winKey p w) a s = (0, x, s1) ∧ v ≤ x) ∧
    (∃ (p : Fin 32) (w : Fin 16) (s : State) (s1 : State) (a : Nat) (v : Nat) (x : Nat) (t : Nat), (gfxWin s (winKey p w)).wait = some (a, v,
      some t) ∧ gfxPoll (winKey p w) a (advanceTo t s) = (0, x, s1) ∧ x < v) ∧
    (∃ (p : Fin 32) (w : Fin 16) (s : State) (s1 : State), (gfxWin s (winKey p w)).clusters ≠ 0 ∧
      s1 = advanceTo ((gfxWin s (winKey p w)).since + 1000000 * rd s GFX_WDOG_ms) s) ∧
    (∃ (c : Fin 16) (s : State) (k : Nat) (rest : List Nat), gfxWhere s (fun g => bit g.clusters c) = k :: rest) :=
  ⟨⟨⟨11, 31, false, .fabric⟩, (0x301F1F20 : BitVec 40), (1 : BitVec 32),
    wr (GFX_CTX_SUB_LEN_bytes 31 15) 4 (window { GfxWin.empty with context := some 0, queue := List.replicate 63 ⟨0, 4, false, 0, 0, 1⟩ }), 511,
    rd (wr (GFX_CTX_SUB_LEN_bytes 31 15) 4 (window { GfxWin.empty with context := some 0, queue := List.replicate 63 ⟨0, 4, false, 0, 0, 1⟩ })) (GFX_CTX_SUB_LEN_bytes (511 / 16) (511 % 16)),
    by decide +kernel, by decide +kernel, by decide +kernel, by decide +kernel, by decide +kernel, by decide +kernel, by decide +kernel, rfl,
    by decide +kernel, by decide +kernel, by decide +kernel⟩,
   ⟨(31 : Fin 32), (15 : Fin 16), (0x8000 : BitVec 16), [], window { GfxWin.empty with context := some 0, todo := 2, clusters := 0x8001 },
    (window { GfxWin.empty with context := some 0, todo := 2, clusters := 0x8001 }), by decide +kernel, by decide +kernel, by decide +kernel,
    by decide +kernel, by decide +kernel⟩,
   ⟨(31 : Fin 32), (15 : Fin 16),
    window { GfxWin.empty with context := some 0, resident := true, queue := [⟨0x1000000000, 4, false, 0, 0, 1⟩], pos := [(0x1000000000, 4, 1)] },
    0x1000000000, 4, 1, ⟨0x1000000000, 4, false, 0, 0, 1⟩, [], by decide +kernel, by decide +kernel, by decide +kernel, by decide +kernel,
    by decide +kernel, by decide +kernel, by decide +kernel⟩,
   ⟨(31 : Fin 32), (15 : Fin 16), window { GfxWin.empty with wait := some (0x1000000000, 0, none) },
    (window { GfxWin.empty with wait := some (0x1000000000, 0, none) }), 0x1000000000, 0, 0, none, by decide +kernel, by decide +kernel,
    by decide +kernel⟩,
   ⟨(31 : Fin 32), (15 : Fin 16), window { GfxWin.empty with wait := some (0x1000000000, 1, some 1) },
    advanceTo 1 ((window { GfxWin.empty with wait := some (0x1000000000, 1, some 1) })), 0x1000000000, 1, 0, 1, by decide +kernel,
    by decide +kernel, by decide +kernel⟩,
   ⟨(31 : Fin 32), (15 : Fin 16), window { GfxWin.empty with clusters := 0x8000 },
    advanceTo ((gfxWin (window { GfxWin.empty with clusters := 0x8000 }) (winKey ((31 : Fin 32)) ((15 : Fin 16)))).since + 1000000 * rd (window { GfxWin.empty with clusters := 0x8000 }) GFX_WDOG_ms) (window { GfxWin.empty with clusters := 0x8000 }),
    by decide +kernel, rfl⟩,
   ⟨(15 : Fin 16), window { GfxWin.empty with clusters := 0x8000 }, 511, [], by decide +kernel⟩⟩

theorem test_GraphicsCommandsComplete :
    (∃ (k : Fin 32) (m : Msg) (s : State), asked Op.GFX_GET_INFO k m s = true) ∧
    (∃ (k : Fin 32) (m : Msg) (s : State) (p : Nat) (w : Nat), asked Op.GFX_GET_CONTEXT k m s = true ∧ p = bits (m.word 2) 4 0 ∧
      w = bits (m.word 2) 11 8 ∧ Req.mayReadPolder s ⟨k, m⟩ p = true) ∧
    (∃ (k : Fin 32) (m : Msg) (s : State) (p : Nat) (c : Nat) (key : Nat) (save : Nat), asked Op.GFX_CTX_SETUP k m s = true ∧ Req.polder ⟨k,
      m⟩ = some p ∧ c = bits (m.word 2) 7 0 ∧ key = 16 * p + bits (m.word 2) 11 8 ∧ bit (m.word 2) 12 = true ∧ bits (m.word 2) 14 13 ≠ 3 ∧
      save = (m.word 3 + 4294967296 * m.word 4) % 2 ^ 40 ∧ grantee s 2 c = p ∧ (gfxWin s key).context = none ∧ save % 4096 = 0 ∧
      spanOwned s p [] (save, save + 262143) = true) ∧
    (∃ (k : Fin 32) (m : Msg) (s : State) (p : Nat) (key : Nat), asked Op.GFX_CTX_SET_PRIORITY k m s = true ∧ Req.polder ⟨k, m⟩ = some p ∧
      key = 16 * p + bits (m.word 2) 3 0 ∧ (gfxWin s key).context.isSome = true ∧ bits (m.word 2) 9 8 ≠ 3) ∧
    (∃ (k : Fin 32) (m : Msg) (s : State) (p : Nat) (key : Nat), asked Op.GFX_CTX_RESTART k m s = true ∧ Req.polder ⟨k, m⟩ = some p ∧
      key = 16 * p + bits (m.word 2) 3 0 ∧ (gfxWin s key).context.isSome = true ∧ (gfxWin s key).stopped = true) ∧
    (∃ (k : Fin 32) (m : Msg) (s : State) (p : Nat) (key : Nat), asked Op.GFX_CTX_RELEASE k m s = true ∧ Req.polder ⟨k, m⟩ = some p ∧
      key = 16 * p + bits (m.word 2) 3 0 ∧ (gfxWin s key).context.isSome = true ∧ (gfxWin s key).queue = []) ∧
    (∃ (k : Fin 32) (m : Msg) (s : State) (p : Nat), asked Op.GFX_SET_AREA k m s = true ∧ p = bits (m.word 2) 4 0 ∧ p ≠ 0 ∧
      areaOk s p (bits (m.word 2) 15 8) (bits (m.word 2) 24 16) = true ∧ (gfxContexts s p).any (fun j => !(gfxWin s j).queue.isEmpty) = false) ∧
    (∃ (k : Fin 32) (m : Msg) (s : State), asked Op.GFX_SET_RESERVE k m s = true ∧ bits (m.word 2) 3 0 ≤ 8) ∧
    (∃ (k : Fin 32) (m : Msg) (s : State), asked Op.GFX_SET_RT k m s = true) ∧
    (∃ (k : Fin 32) (m : Msg) (s : State), asked Op.GFX_SET_SECURE_FLOOR k m s = true ∧ bits (m.word 2) 3 0 ≤ 8) :=
  ⟨⟨(0 : Fin 32), msg Op.GFX_GET_INFO [], asking 0 (msg Op.GFX_GET_INFO []) (base), by decide +kernel⟩,
   ⟨(0 : Fin 32), msg Op.GFX_GET_CONTEXT [], asking 0 (msg Op.GFX_GET_CONTEXT []) (base), bits ((msg Op.GFX_GET_CONTEXT []).word 2) 4 0,
    bits ((msg Op.GFX_GET_CONTEXT []).word 2) 11 8, by decide +kernel, rfl, rfl, by decide +kernel⟩,
   ⟨(0 : Fin 32), msg Op.GFX_CTX_SETUP [31 + 256 * 15 + 4096, 0, 0x10], asking 0 (msg Op.GFX_CTX_SETUP [31 + 256 * 15 + 4096, 0,
    0x10]) ({ dram with grants := [(unitKey 2 31, 0)] }), (Req.polder ⟨((0 : Fin 32)), (msg Op.GFX_CTX_SETUP [31 + 256 * 15 + 4096, 0,
    0x10])⟩).getD 0, bits ((msg Op.GFX_CTX_SETUP [31 + 256 * 15 + 4096, 0, 0x10]).word 2) 7 0, 16 * ((Req.polder ⟨((0 : Fin 32)),
    (msg Op.GFX_CTX_SETUP [31 + 256 * 15 + 4096, 0, 0x10])⟩).getD 0) + bits ((msg Op.GFX_CTX_SETUP [31 + 256 * 15 + 4096, 0, 0x10]).word 2) 11 8,
    0x1000000000, by decide +kernel, by decide +kernel, rfl, rfl, by decide +kernel, by decide +kernel, by decide +kernel, by decide +kernel,
    by decide +kernel, by decide +kernel, by decide +kernel⟩,
   ⟨(0 : Fin 32), msg Op.GFX_CTX_SET_PRIORITY [15 + 2 * 256],
    asking 0 (msg Op.GFX_CTX_SET_PRIORITY [15 + 2 * 256]) (setGfxWin 15 { GfxWin.empty with context := some 31 } base),
    (Req.polder ⟨((0 : Fin 32)), (msg Op.GFX_CTX_SET_PRIORITY [15 + 2 * 256])⟩).getD 0, 16 * ((Req.polder ⟨((0 : Fin 32)),
    (msg Op.GFX_CTX_SET_PRIORITY [15 + 2 * 256])⟩).getD 0) + bits ((msg Op.GFX_CTX_SET_PRIORITY [15 + 2 * 256]).word 2) 3 0, by decide +kernel,
    by decide +kernel, rfl, by decide +kernel, by decide +kernel⟩,
   ⟨(0 : Fin 32), msg Op.GFX_CTX_RESTART [15 + 256],
    asking 0 (msg Op.GFX_CTX_RESTART [15 + 256]) (setGfxWin 15 { GfxWin.empty with context := some 31, stopped := true } base),
    (Req.polder ⟨((0 : Fin 32)), (msg Op.GFX_CTX_RESTART [15 + 256])⟩).getD 0, 16 * ((Req.polder ⟨((0 : Fin 32)),
    (msg Op.GFX_CTX_RESTART [15 + 256])⟩).getD 0) + bits ((msg Op.GFX_CTX_RESTART [15 + 256]).word 2) 3 0, by decide +kernel, by decide +kernel,
    rfl, by decide +kernel, by decide +kernel⟩,
   ⟨(0 : Fin 32), msg Op.GFX_CTX_RELEASE [15],
    asking 0 (msg Op.GFX_CTX_RELEASE [15]) (setGfxWin 15 { GfxWin.empty with context := some 31 } base), (Req.polder ⟨((0 : Fin 32)),
    (msg Op.GFX_CTX_RELEASE [15])⟩).getD 0, 16 * ((Req.polder ⟨((0 : Fin 32)),
    (msg Op.GFX_CTX_RELEASE [15])⟩).getD 0) + bits ((msg Op.GFX_CTX_RELEASE [15]).word 2) 3 0, by decide +kernel, by decide +kernel, rfl,
    by decide +kernel, by decide +kernel⟩,
   ⟨(0 : Fin 32), msg Op.GFX_SET_AREA [31], asking 0 (msg Op.GFX_SET_AREA [31]) (base), bits ((msg Op.GFX_SET_AREA [31]).word 2) 4 0,
    by decide +kernel, rfl, by decide +kernel, by decide +kernel, by decide +kernel⟩,
   ⟨(0 : Fin 32), msg Op.GFX_SET_RESERVE [], asking 0 (msg Op.GFX_SET_RESERVE []) (base), by decide +kernel, by decide +kernel⟩,
   ⟨(0 : Fin 32), msg Op.GFX_SET_RT [], asking 0 (msg Op.GFX_SET_RT []) (base), by decide +kernel⟩,
   ⟨(0 : Fin 32), msg Op.GFX_SET_SECURE_FLOOR [], asking 0 (msg Op.GFX_SET_SECURE_FLOOR []) (base), by decide +kernel, by decide +kernel⟩⟩

theorem test_CodecStepsComplete :
    (∃ (a : Access) (addr : BitVec 40) (x : BitVec 32) (s : State) (p : Nat) (k : Nat) (n : Nat) (v : VcdSes), sesReg addr.toNat 0x0C = some (p,
      k) ∧ k < 64 ∧ domainOn s 3 = true ∧ admitted a addr.toNat x.toNat s = true ∧ sesPolder s k = p ∧ bit x.toNat 0 = true ∧ ses s k = some v ∧
      refuses s p = false ∧ quietening s = false ∧ v.closing = none ∧ v.writeBack = false ∧ v.queue.length < 32 ∧ v.encode = false ∧
      n = rd s (VCD_SES_LEN_bytes k) ∧ ((n = 0 ∨ spanOwned s p [] (rd s (VCD_SES_ADDR_addr k), rd s (VCD_SES_ADDR_addr k) + n - 1) = true))) ∧
    (∃ (e : Fin 16) (ready : List ReadyUnit) (s : State) (s1 : State) (c : UnitChoice), vcdIdle s e = true ∧
      chooseUnit ready (starve ready s) = some (c, s1) ∧ c.encode = false) ∧
    (∃ (e : Fin 16) (c : Bool) (blocks : List CodedBlock) (s : State) (s1 : State) (k : Nat) (p : VcdPic) (p1 : VcdPic) (u : Nat) (ep : Nat) (v : VcdSes),
      engineUnit s e = some (k, p, u, ep) ∧ ses s k = some v ∧ v.encode = false ∧
      blocks.foldl (fun rs b => writeBlock k v p.pool b rs) (readUnit k v p s) = (0, s1) ∧
      p1 = { p.left s e with finished := p.finished + 1, concealed := p.concealed || c }) ∧
    (∃ (a : Access) (addr : BitVec 40) (v : BitVec 32) (s : State), addr.toNat = 0x2040000C ∧ admitted a addr.toNat v.toNat s = true) ∧
    (∃ (k : Fin 64) (s : State) (v : VcdSes) (p : VcdPic), ses s k = some v ∧ v.pics.find? (fun p => !p.running.isEmpty) = some p) ∧
    (∃ (k : Fin 64) (i : Fin 24) (s : State) (s1 : State) (v : VcdSes) (x : PoolPic) (ms : List Nat), sesRuns s k = some v ∧
      v.pool.find? (fun x => x.idx == i.val && x.waiting) = some x ∧ ms = v.slots.filter (fun m => slotOwner s m == sesPolder s k) ∧
      s1 = setSes k (some { v with pool := v.pool.map (fun y => if y.idx == i.val then { y with waiting := false } else y) }) s) ∧
    (∃ (e : Fin 16) (ready : List ReadyUnit) (s : State) (s1 : State) (s2 : State) (c : UnitChoice) (v : VcdSes) (w : VcdSes) (p : VcdPic) (rest : List VcdPic),
      vcdIdle s e = true ∧ chooseUnit ready s = some (c, s1) ∧ c.encode = true ∧ ses s1 c.session = some v ∧ s2 = beginEncode c.session v s1 ∧
      ses s2 c.session = some w ∧ w.pics = p :: rest) ∧
    (∃ (e : Fin 16) (slice : List (BitVec 8)) (params : List (BitVec 8)) (s : State) (k : Nat) (r : Nat) (ep : Nat) (p : VcdPic) (v : VcdSes),
      engineUnit s e = some (k, p, r, ep) ∧ ses s k = some v ∧ v.encode = true ∧ r = p.finished ∧ p.time.isSome = true) ∧
    (∃ (k : Fin 64) (s : State) (v : VcdSes), ses s k = some v ∧ v.full = true ∧ v.stopped = false ∧ chunkFits s k v 32 = true) ∧
    (∃ (a : Access) (addr : BitVec 40) (x : BitVec 32) (s : State) (p : Nat) (k : Nat) (v : VcdSes), sesReg addr.toNat 0x2C = some (p, k) ∧
      k < 64 ∧ admitted a addr.toNat x.toNat s = true ∧ sesPolder s k = p ∧ bit x.toNat 0 = true ∧ ses s k = some v ∧ v.encode = true) ∧
    (∃ (c : Fin 4) (ago : Nat) (lines : List (List (Fin 1024 × Fin 1024 × Fin 1024))) (s : State) (s1 : State), capQueues s c = true ∧
      capFree s c = none ∧ s1 = incSat (CAP_COUNTS_dropped c) 1 s) ∧
    (∃ (c : Fin 4) (ago : Nat) (lines : List (List (Fin 1024 × Fin 1024 × Fin 1024))) (s : State) (s1 : State) (i : Nat), capQueues s c = true ∧
      capFree s c = some i ∧ capWrite c i (lines.map (fun l => l.map (fun x => (x.1.val, x.2.1.val, x.2.2.val)))) s = (0, s1) ∧
      (slot s1 (capSlot s c)).pending.length < 4) ∧
    (∃ (c : Fin 4) (src : CapSource) (s : State), src.locked = true ∧ src.hdcp = false ∧ rdB s (CAP_STATUS_signal c) = false) :=
  ⟨⟨core1, (0x30002DD4 : BitVec 40), (1 : BitVec 32),
    session ({ dec0 with queue := List.replicate 31 ⟨0, 0, false, false, false, 0, 0, 0⟩ }) (withHart hart0 base), 0, 63,
    rd (session ({ dec0 with queue := List.replicate 31 ⟨0, 0, false, false, false, 0, 0, 0⟩ }) (withHart hart0 base)) (VCD_SES_LEN_bytes 63),
    { dec0 with queue := List.replicate 31 ⟨0, 0, false, false, false, 0, 0, 0⟩ }, by decide +kernel, by decide +kernel, by decide +kernel,
    by decide +kernel, by decide +kernel, by decide +kernel, by decide +kernel, by decide +kernel, by decide +kernel, by decide +kernel,
    by decide +kernel, by decide +kernel, by decide +kernel, rfl, by decide +kernel⟩,
   ⟨(15 : Fin 16), [⟨63, 0, ⟨true, true, true, false, false, 1, 64, [], 0⟩⟩],
    session { VcdSes.opened [2048 * 4] with queue := [⟨0, 0, false, false, false, 0, 0, 0⟩] } base, ((chooseUnit ([⟨63, 0, ⟨true, true, true,
    false, false, 1, 64, [], 0⟩⟩]) (starve ([⟨63, 0, ⟨true, true, true, false, false, 1, 64, [],
    0⟩⟩]) ((session { VcdSes.opened [2048 * 4] with queue := [⟨0, 0, false, false, false, 0, 0, 0⟩] } base)))).getD ((⟨63, 0, 0, false,
    some ⟨true, true, true, false, false, 1, 64, [], 0⟩⟩), base)).2, ⟨63, 0, 0, false, some ⟨true, true, true, false, false, 1, 64, [], 0⟩⟩,
    by decide +kernel, by decide +kernel, by decide +kernel⟩,
   ⟨(15 : Fin 16), false, [], session ({ dec0 with pics := [pic0] }) base, (session ({ dec0 with pics := [pic0] }) base), 63, pic0,
    { pic0.left (session ({ dec0 with pics := [pic0] }) base) ((15 : Fin 16)) with finished := pic0.finished + 1, concealed := pic0.concealed || false },
    0, 0, { dec0 with pics := [pic0] }, by decide +kernel, by decide +kernel, by decide +kernel, by decide +kernel, rfl⟩,
   ⟨tujan, (0x2040000C : BitVec 40), (0x8000 : BitVec 32), withHart hart0 base, by decide +kernel, by decide +kernel⟩,
   ⟨(63 : Fin 64), session ({ dec0 with pics := [pic0] }) base, { dec0 with pics := [pic0] }, pic0, by decide +kernel, by decide +kernel⟩,
   ⟨(63 : Fin 64), (23 : Fin 24), session ({ dec0 with pool := [⟨23, 0, false, true, false⟩], slots := [63] }) base,
    setSes 63 (some { dec0 with pool := [⟨23, 0, false, false, false⟩], slots := [63] }) ((session ({ dec0 with pool := [⟨23, 0, false, true, false⟩], slots := [63] }) base)),
    { dec0 with pool := [⟨23, 0, false, true, false⟩], slots := [63] }, ⟨23, 0, false, true, false⟩,
    ({ dec0 with pool := [⟨23, 0, false, true, false⟩], slots := [63] }).slots.filter (fun m => slotOwner (session ({ dec0 with pool := [⟨23, 0, false, true, false⟩], slots := [63] }) base) m == sesPolder (session ({ dec0 with pool := [⟨23, 0, false, true, false⟩], slots := [63] }) base) ((63 : Fin 64))),
    by decide +kernel, by decide +kernel, rfl, by decide +kernel⟩,
   ⟨(15 : Fin 16), [], session { enc0 with pics := [VcdPic.begin 0 0 0 (some 0) 64 1] } base,
    ((chooseUnit [] ((session { enc0 with pics := [VcdPic.begin 0 0 0 (some 0) 64 1] } base))).getD (row0, base)).2,
    beginEncode row0.session ({ enc0 with pics := [VcdPic.begin 0 0 0 (some 0) 64 1] }) (((chooseUnit [] ((session { enc0 with pics := [VcdPic.begin 0 0 0 (some 0) 64 1] } base))).getD (row0,
    base)).2), row0, { enc0 with pics := [VcdPic.begin 0 0 0 (some 0) 64 1] }, { enc0 with pics := [VcdPic.begin 0 0 0 (some 0) 64 1] },
    VcdPic.begin 0 0 0 (some 0) 64 1, [], by decide +kernel, by decide +kernel, by decide +kernel, by decide +kernel, rfl, by decide +kernel,
    by decide +kernel⟩,
   ⟨(15 : Fin 16), [], [], session ({ enc0 with pics := [pic0] }) base, 63, pic0.finished, 0, pic0, { enc0 with pics := [pic0] },
    by decide +kernel, by decide +kernel, by decide +kernel, rfl, by decide +kernel⟩,
   ⟨(63 : Fin 64), session ({ enc0 with full := true }) base, { enc0 with full := true }, by decide +kernel, by decide +kernel, by decide +kernel,
    by decide +kernel⟩,
   ⟨core1, (0x30002DF4 : BitVec 40), (1 : BitVec 32), session enc0 (withHart hart0 base), 0, 63, enc0, by decide +kernel, by decide +kernel,
    by decide +kernel, by decide +kernel, by decide +kernel, by decide +kernel, by decide +kernel⟩,
   ⟨(3 : Fin 4), 0, [], setSlot 0 { SlotSt.empty with inUse := some { blank with origin := 68 } } captures,
    incSat (CAP_COUNTS_dropped ((3 : Fin 4))) 1 (setSlot 0 { SlotSt.empty with inUse := some { blank with origin := 68 } } captures),
    by decide +kernel, by decide +kernel, rfl⟩,
   ⟨(3 : Fin 4), 0, [], setSlot 0 { SlotSt.empty with pending := List.replicate 3 blank } captures,
    (setSlot 0 { SlotSt.empty with pending := List.replicate 3 blank } captures),
    (capFree (setSlot 0 { SlotSt.empty with pending := List.replicate 3 blank } captures) ((3 : Fin 4))).getD 0, by decide +kernel,
    by decide +kernel, by decide +kernel, by decide +kernel⟩,
   ⟨(3 : Fin 4), source0, base, by decide +kernel, by decide +kernel, by decide +kernel⟩⟩

theorem test_CodecCommandsComplete :
    (∃ (k : Fin 32) (m : Msg) (s : State), asked Op.VCD_GET_INFO k m s = true) ∧
    (∃ (k : Fin 32) (m : Msg) (s : State) (n : Nat) (v : VcdSes), asked Op.VCD_GET_SESSION k m s = true ∧ n = bits (m.word 2) 5 0 ∧
      Req.mayReadPolder s ⟨k, m⟩ (sesPolder s n) = true ∧ ses s n = some v) ∧
    (∃ (k : Fin 32) (m : Msg) (s : State) (s1 : State) (p : Nat) (n : Nat) (v : VcdSes), asked Op.VCD_OPEN_DECODE k m s = true ∧ Req.polder ⟨k,
      m⟩ = some p ∧ v = descOf ⟨k, m⟩ s ∧ n = bits (v.word 0) 5 0 ∧ sesPolder s n = p ∧ ses s n = none ∧ descOk false v = true ∧
      loadSum s false + v.load ≤ 3981312000 * 1000 ∧ sesBufferOk s p v = true ∧ encodeSourceOk s p v = true ∧ v.encode = false ∧
      s1 = wr (VCD_SES_RING_RD_offset n) 0 (wr (VCD_SES_RING_WR_offset n) 0 (wr (VCD_SES_DONE_number n) 0 (wr (VCD_SES_STAT_grain n) 0 (wr (VCD_SES_STAT_starved n) 0 (setSes n (some v) (taken k s))))))) ∧
    (∃ (k : Fin 32) (m : Msg) (s : State) (s1 : State) (p : Nat) (n : Nat) (v : VcdSes), asked Op.VCD_OPEN_ENCODE k m s = true ∧ Req.polder ⟨k,
      m⟩ = some p ∧ v = descOf ⟨k, m⟩ s ∧ n = bits (v.word 0) 5 0 ∧ sesPolder s n = p ∧ ses s n = none ∧ descOk true v = true ∧
      loadSum s true + v.load ≤ 3981312000 * 1000 ∧ sesBufferOk s p v = true ∧ encodeSourceOk s p v = true ∧ v.subframe = false ∧
      s1 = wr (VCD_SES_RING_RD_offset n) 0 (wr (VCD_SES_RING_WR_offset n) 0 (wr (VCD_SES_DONE_number n) 0 (wr (VCD_SES_STAT_grain n) 0 (wr (VCD_SES_STAT_starved n) 0 (setSes n (some v) (taken k s))))))) ∧
    (∃ (k : Fin 32) (m : Msg) (s : State) (p : Nat) (n : Nat) (v : VcdSes), asked Op.VCD_CLOSE k m s = true ∧ Req.polder ⟨k, m⟩ = some p ∧
      n = bits (m.word 2) 5 0 ∧ sesPolder s n = p ∧ ses s n = some v ∧ v.closing = none) ∧
    (∃ (k : Fin 32) (m : Msg) (s : State) (p : Nat) (n : Nat) (v : VcdSes) (ms : List Nat), asked Op.VCD_BIND_SLOTS k m s = true ∧ Req.polder ⟨k,
      m⟩ = some p ∧ n = bits (m.word 2) 5 0 ∧ sesPolder s n = p ∧ ses s n = some v ∧ v.encode = false ∧ bits (m.word 2) 10 8 ≤ 4 ∧
      ms = (List.range (bits (m.word 2) 10 8)).map (fun i => m.word 3 / 64 ^ i % 64) ∧ ms.all (fun x => slotOwner s x == p) = true) ∧
    (∃ (k : Fin 32) (m : Msg) (s : State) (p : Nat) (n : Nat) (v : VcdSes), asked Op.VCD_RESTART k m s = true ∧ Req.polder ⟨k, m⟩ = some p ∧
      n = bits (m.word 2) 5 0 ∧ sesPolder s n = p ∧ ses s n = some v ∧ v.stopped = true) ∧
    (∃ (k : Fin 32) (m : Msg) (s : State) (c : Nat), asked Op.CAP_GET_INPUT k m s = true ∧ c = bits (m.word 2) 1 0 ∧ bit (m.word 2) 8 = false) ∧
    (∃ (k : Fin 32) (m : Msg) (s : State) (s1 : State) (c : Nat) (addrs : List Nat), asked Op.CAP_SET_INPUT k m s = true ∧
      c = bits (m.word 2) 31 30 ∧ bit (m.word 2) 0 = false ∧ m.word 4 < 65536 ∧ m.word 4 % 64 = 0 ∧
      addrs = (List.range 4).map (fun i => (m.word (5 + 2 * i) + 4294967296 * m.word (6 + 2 * i)) % 2 ^ 40) ∧
      (addrs.take (bits (m.word 2) 9 8 + 1)).any (fun a => a % 64 != 0) = false ∧
      s1 = takeEffect (capFields c) ((List.range 4).foldl (fun s i => wr (CAP_BUF_addr c i) (addrs.getD i 0 / 64) s) (wr (CAP_STRIDE_stride c) (m.word 4) (wr (CAP_DELAY_us c) (m.word 3) (wr (CAP_CTRL_present c) (bits (m.word 2) 10 10) (wr (CAP_CTRL_buffers c) (bits (m.word 2) 9 8) (wr (CAP_CTRL_slot c) (bits (m.word 2) 6 1) (wrB (CAP_CTRL_enable c) false (taken k s))))))))) :=
  ⟨⟨(0 : Fin 32), msg Op.VCD_GET_INFO [], asking 0 (msg Op.VCD_GET_INFO []) (base), by decide +kernel⟩,
   ⟨(0 : Fin 32), msg Op.VCD_GET_SESSION [63], asking 0 (msg Op.VCD_GET_SESSION [63]) (session dec0 base),
    bits ((msg Op.VCD_GET_SESSION [63]).word 2) 5 0, dec0, by decide +kernel, rfl, by decide +kernel, by decide +kernel⟩,
   ⟨(0 : Fin 32), refMsg Op.VCD_OPEN_DECODE 0x40000000 64, asking 0 (refMsg Op.VCD_OPEN_DECODE 0x40000000 64) (words 0x40000000 [63 + 4 * 2048,
    64 + 64 * 65536, 1, 0, 0x10, 0, 1] dram), wr (VCD_SES_RING_RD_offset (bits ((descOf ⟨((0 : Fin 32)),
    (refMsg Op.VCD_OPEN_DECODE 0x40000000 64)⟩ (asking 0 (refMsg Op.VCD_OPEN_DECODE 0x40000000 64) (words 0x40000000 [63 + 4 * 2048,
    64 + 64 * 65536, 1, 0, 0x10, 0, 1] dram))).word 0) 5 0)) 0 (wr (VCD_SES_RING_WR_offset (bits ((descOf ⟨((0 : Fin 32)),
    (refMsg Op.VCD_OPEN_DECODE 0x40000000 64)⟩ (asking 0 (refMsg Op.VCD_OPEN_DECODE 0x40000000 64) (words 0x40000000 [63 + 4 * 2048,
    64 + 64 * 65536, 1, 0, 0x10, 0, 1] dram))).word 0) 5 0)) 0 (wr (VCD_SES_DONE_number (bits ((descOf ⟨((0 : Fin 32)),
    (refMsg Op.VCD_OPEN_DECODE 0x40000000 64)⟩ (asking 0 (refMsg Op.VCD_OPEN_DECODE 0x40000000 64) (words 0x40000000 [63 + 4 * 2048,
    64 + 64 * 65536, 1, 0, 0x10, 0, 1] dram))).word 0) 5 0)) 0 (wr (VCD_SES_STAT_grain (bits ((descOf ⟨((0 : Fin 32)),
    (refMsg Op.VCD_OPEN_DECODE 0x40000000 64)⟩ (asking 0 (refMsg Op.VCD_OPEN_DECODE 0x40000000 64) (words 0x40000000 [63 + 4 * 2048,
    64 + 64 * 65536, 1, 0, 0x10, 0, 1] dram))).word 0) 5 0)) 0 (wr (VCD_SES_STAT_starved (bits ((descOf ⟨((0 : Fin 32)),
    (refMsg Op.VCD_OPEN_DECODE 0x40000000 64)⟩ (asking 0 (refMsg Op.VCD_OPEN_DECODE 0x40000000 64) (words 0x40000000 [63 + 4 * 2048,
    64 + 64 * 65536, 1, 0, 0x10, 0, 1] dram))).word 0) 5 0)) 0 (setSes (bits ((descOf ⟨((0 : Fin 32)),
    (refMsg Op.VCD_OPEN_DECODE 0x40000000 64)⟩ (asking 0 (refMsg Op.VCD_OPEN_DECODE 0x40000000 64) (words 0x40000000 [63 + 4 * 2048,
    64 + 64 * 65536, 1, 0, 0x10, 0, 1] dram))).word 0) 5 0) (some (descOf ⟨((0 : Fin 32)),
    (refMsg Op.VCD_OPEN_DECODE 0x40000000 64)⟩ (asking 0 (refMsg Op.VCD_OPEN_DECODE 0x40000000 64) (words 0x40000000 [63 + 4 * 2048,
    64 + 64 * 65536, 1, 0, 0x10, 0,
    1] dram)))) (taken ((0 : Fin 32)) (asking 0 (refMsg Op.VCD_OPEN_DECODE 0x40000000 64) (words 0x40000000 [63 + 4 * 2048, 64 + 64 * 65536, 1, 0,
    0x10, 0, 1] dram)))))))), (Req.polder ⟨((0 : Fin 32)), (refMsg Op.VCD_OPEN_DECODE 0x40000000 64)⟩).getD 0, bits ((descOf ⟨((0 : Fin 32)),
    (refMsg Op.VCD_OPEN_DECODE 0x40000000 64)⟩ (asking 0 (refMsg Op.VCD_OPEN_DECODE 0x40000000 64) (words 0x40000000 [63 + 4 * 2048,
    64 + 64 * 65536, 1, 0, 0x10, 0, 1] dram))).word 0) 5 0, descOf ⟨((0 : Fin 32)),
    (refMsg Op.VCD_OPEN_DECODE 0x40000000 64)⟩ (asking 0 (refMsg Op.VCD_OPEN_DECODE 0x40000000 64) (words 0x40000000 [63 + 4 * 2048,
    64 + 64 * 65536, 1, 0, 0x10, 0, 1] dram)), by decide +kernel, by decide +kernel, rfl, rfl, by decide +kernel, by decide +kernel,
    by decide +kernel, by decide +kernel, by decide +kernel, by decide +kernel, by decide +kernel, rfl⟩,
   ⟨(0 : Fin 32), refMsg Op.VCD_OPEN_ENCODE 0x40000000 64, asking 0 (refMsg Op.VCD_OPEN_ENCODE 0x40000000 64) (words 0x40000000 [63 + 64,
    64 + 64 * 65536, 1, 0, 0x10, 65536, 0, 0, 65536] dram), wr (VCD_SES_RING_RD_offset (bits ((descOf ⟨((0 : Fin 32)),
    (refMsg Op.VCD_OPEN_ENCODE 0x40000000 64)⟩ (asking 0 (refMsg Op.VCD_OPEN_ENCODE 0x40000000 64) (words 0x40000000 [63 + 64, 64 + 64 * 65536, 1,
    0, 0x10, 65536, 0, 0, 65536] dram))).word 0) 5 0)) 0 (wr (VCD_SES_RING_WR_offset (bits ((descOf ⟨((0 : Fin 32)),
    (refMsg Op.VCD_OPEN_ENCODE 0x40000000 64)⟩ (asking 0 (refMsg Op.VCD_OPEN_ENCODE 0x40000000 64) (words 0x40000000 [63 + 64, 64 + 64 * 65536, 1,
    0, 0x10, 65536, 0, 0, 65536] dram))).word 0) 5 0)) 0 (wr (VCD_SES_DONE_number (bits ((descOf ⟨((0 : Fin 32)),
    (refMsg Op.VCD_OPEN_ENCODE 0x40000000 64)⟩ (asking 0 (refMsg Op.VCD_OPEN_ENCODE 0x40000000 64) (words 0x40000000 [63 + 64, 64 + 64 * 65536, 1,
    0, 0x10, 65536, 0, 0, 65536] dram))).word 0) 5 0)) 0 (wr (VCD_SES_STAT_grain (bits ((descOf ⟨((0 : Fin 32)),
    (refMsg Op.VCD_OPEN_ENCODE 0x40000000 64)⟩ (asking 0 (refMsg Op.VCD_OPEN_ENCODE 0x40000000 64) (words 0x40000000 [63 + 64, 64 + 64 * 65536, 1,
    0, 0x10, 65536, 0, 0, 65536] dram))).word 0) 5 0)) 0 (wr (VCD_SES_STAT_starved (bits ((descOf ⟨((0 : Fin 32)),
    (refMsg Op.VCD_OPEN_ENCODE 0x40000000 64)⟩ (asking 0 (refMsg Op.VCD_OPEN_ENCODE 0x40000000 64) (words 0x40000000 [63 + 64, 64 + 64 * 65536, 1,
    0, 0x10, 65536, 0, 0, 65536] dram))).word 0) 5 0)) 0 (setSes (bits ((descOf ⟨((0 : Fin 32)),
    (refMsg Op.VCD_OPEN_ENCODE 0x40000000 64)⟩ (asking 0 (refMsg Op.VCD_OPEN_ENCODE 0x40000000 64) (words 0x40000000 [63 + 64, 64 + 64 * 65536, 1,
    0, 0x10, 65536, 0, 0, 65536] dram))).word 0) 5 0) (some (descOf ⟨((0 : Fin 32)),
    (refMsg Op.VCD_OPEN_ENCODE 0x40000000 64)⟩ (asking 0 (refMsg Op.VCD_OPEN_ENCODE 0x40000000 64) (words 0x40000000 [63 + 64, 64 + 64 * 65536, 1,
    0, 0x10, 65536, 0, 0, 65536] dram)))) (taken ((0 : Fin 32)) (asking 0 (refMsg Op.VCD_OPEN_ENCODE 0x40000000 64) (words 0x40000000 [63 + 64,
    64 + 64 * 65536, 1, 0, 0x10, 65536, 0, 0, 65536] dram)))))))), (Req.polder ⟨((0 : Fin 32)),
    (refMsg Op.VCD_OPEN_ENCODE 0x40000000 64)⟩).getD 0, bits ((descOf ⟨((0 : Fin 32)),
    (refMsg Op.VCD_OPEN_ENCODE 0x40000000 64)⟩ (asking 0 (refMsg Op.VCD_OPEN_ENCODE 0x40000000 64) (words 0x40000000 [63 + 64, 64 + 64 * 65536, 1,
    0, 0x10, 65536, 0, 0, 65536] dram))).word 0) 5 0, descOf ⟨((0 : Fin 32)),
    (refMsg Op.VCD_OPEN_ENCODE 0x40000000 64)⟩ (asking 0 (refMsg Op.VCD_OPEN_ENCODE 0x40000000 64) (words 0x40000000 [63 + 64, 64 + 64 * 65536, 1,
    0, 0x10, 65536, 0, 0, 65536] dram)), by decide +kernel, by decide +kernel, rfl, rfl, by decide +kernel, by decide +kernel, by decide +kernel,
    by decide +kernel, by decide +kernel, by decide +kernel, by decide +kernel, rfl⟩,
   ⟨(0 : Fin 32), msg Op.VCD_CLOSE [63], asking 0 (msg Op.VCD_CLOSE [63]) (session dec0 base), (Req.polder ⟨((0 : Fin 32)),
    (msg Op.VCD_CLOSE [63])⟩).getD 0, bits ((msg Op.VCD_CLOSE [63]).word 2) 5 0, dec0, by decide +kernel, by decide +kernel, rfl,
    by decide +kernel, by decide +kernel, by decide +kernel⟩,
   ⟨(0 : Fin 32), msg Op.VCD_BIND_SLOTS [63 + 4 * 256, 63], asking 0 (msg Op.VCD_BIND_SLOTS [63 + 4 * 256, 63]) (session dec0 base),
    (Req.polder ⟨((0 : Fin 32)), (msg Op.VCD_BIND_SLOTS [63 + 4 * 256, 63])⟩).getD 0, bits ((msg Op.VCD_BIND_SLOTS [63 + 4 * 256,
    63]).word 2) 5 0, dec0, (List.range (bits ((msg Op.VCD_BIND_SLOTS [63 + 4 * 256,
    63]).word 2) 10 8)).map (fun i => (msg Op.VCD_BIND_SLOTS [63 + 4 * 256, 63]).word 3 / 64 ^ i % 64), by decide +kernel, by decide +kernel, rfl,
    by decide +kernel, by decide +kernel, by decide +kernel, by decide +kernel, rfl, by decide +kernel⟩,
   ⟨(0 : Fin 32), msg Op.VCD_RESTART [63], asking 0 (msg Op.VCD_RESTART [63]) (session { dec0 with stopped := true } base),
    (Req.polder ⟨((0 : Fin 32)), (msg Op.VCD_RESTART [63])⟩).getD 0, bits ((msg Op.VCD_RESTART [63]).word 2) 5 0, { dec0 with stopped := true },
    by decide +kernel, by decide +kernel, rfl, by decide +kernel, by decide +kernel, by decide +kernel⟩,
   ⟨(0 : Fin 32), msg Op.CAP_GET_INPUT [], asking 0 (msg Op.CAP_GET_INPUT []) (base), bits ((msg Op.CAP_GET_INPUT []).word 2) 1 0,
    by decide +kernel, rfl, by decide +kernel⟩,
   ⟨(0 : Fin 32), msg Op.CAP_SET_INPUT [3 * 2 ^ 30, 0, 65472], asking 0 (msg Op.CAP_SET_INPUT [3 * 2 ^ 30, 0, 65472]) (base),
    (let k : Fin 32 := (0 : Fin 32); let m : Msg := msg Op.CAP_SET_INPUT [3 * 2 ^ 30, 0, 65472]; let s : State := asking 0 (msg Op.CAP_SET_INPUT [3 * 2 ^ 30, 0, 65472]) (base); let c : Nat := bits ((msg Op.CAP_SET_INPUT [3 * 2 ^ 30, 0, 65472]).word 2) 31 30; let addrs : List Nat := (List.range 4).map (fun i => ((msg Op.CAP_SET_INPUT [3 * 2 ^ 30, 0, 65472]).word (5 + 2 * i) + 4294967296 * (msg Op.CAP_SET_INPUT [3 * 2 ^ 30, 0, 65472]).word (6 + 2 * i)) % 2 ^ 40); takeEffect (capFields c) ((List.range 4).foldl (fun s i => wr (CAP_BUF_addr c i) (addrs.getD i 0 / 64) s) (wr (CAP_STRIDE_stride c) (m.word 4) (wr (CAP_DELAY_us c) (m.word 3) (wr (CAP_CTRL_present c) (bits (m.word 2) 10 10) (wr (CAP_CTRL_buffers c) (bits (m.word 2) 9 8) (wr (CAP_CTRL_slot c) (bits (m.word 2) 6 1) (wrB (CAP_CTRL_enable c) false (taken k s))))))))),
    bits ((msg Op.CAP_SET_INPUT [3 * 2 ^ 30, 0, 65472]).word 2) 31 30, (List.range 4).map (fun i => ((msg Op.CAP_SET_INPUT [3 * 2 ^ 30, 0,
    65472]).word (5 + 2 * i) + 4294967296 * (msg Op.CAP_SET_INPUT [3 * 2 ^ 30, 0, 65472]).word (6 + 2 * i)) % 2 ^ 40), by decide +kernel, rfl,
    by decide +kernel, by decide +kernel, by decide +kernel, rfl, by decide +kernel, rfl⟩⟩

theorem test_AudioStepsComplete :
    (∃ (d : Fin 3) (rx : List (Fin 256 × List (BitVec 32))) (slips : List (Fin 8 × Bool)) (s : State) (s1 : State) (s2 : State) (s4 : State) (outs : List (Nat × List Int)),
      rdB s (AUD_DOM_CTRL_enable d).inForce = true ∧
      s1 = wr (AUD_DOM_SAMPLES_count d) (rd s (AUD_DOM_SAMPLES_count d) + 64) (advanceTo (sampleTime s d (rd s (AUD_DOM_SAMPLES_count d) + 64)) s) ∧
      audHalted s1 = false ∧ s2 = mediaBlock d (audSend d rx (slips.foldl (slipped d) s1)) ∧
      audBlocks d rx s2.aud.outside (bridgeRange d s2) = (outs, s4)) ∧
    (∃ (a : Access) (addr : BitVec 40) (v : BitVec 32) (s : State) (p : Nat) (g : AudProg), isPage addr.toNat = true ∧
      pageOff addr.toNat = 0x3100 ∧ admitted a addr.toNat v.toNat s = true ∧ p = pageOf addr.toNat ∧ audBudget s p ≠ 0 ∧ bit v.toNat 0 = true ∧
      bits v.toNat 2 1 = 0 ∧ polState s p ≠ 2 ∧ (audPol s p).staged = some g ∧ (audPol s p).swap = none) ∧
    (∃ (a : Access) (addr : BitVec 40) (v : BitVec 32) (s : State) (p : Nat), isPage addr.toNat = true ∧ 0x3400 ≤ pageOff addr.toNat ∧
      pageOff addr.toNat < 0x3800 ∧ admitted a addr.toNat v.toNat s = true ∧ p = pageOf addr.toNat ∧ audBudget s p ≠ 0) ∧
    (∃ (a : Access) (addr : BitVec 40) (v : BitVec 32) (s : State) (p : Nat) (r : Nat), isPage addr.toNat = true ∧
      ringAt (pageOff addr.toNat) = some r ∧ admitted a addr.toNat v.toNat s = true ∧ p = pageOf addr.toNat ∧ audBudget s p ≠ 0 ∧
      bit v.toNat 0 = true ∧ rdB s (AUD_RING_CFG_enable p r) = false ∧ 128 ≤ bits v.toNat 31 12) ∧
    (∃ (a : Access) (addr : BitVec 40) (v : BitVec 32) (s : State) (p : Nat), isPage addr.toNat = true ∧ pageOff addr.toNat = 0x3200 ∧
      admitted a addr.toNat v.toNat s = true ∧ p = pageOf addr.toNat ∧ audBudget s p ≠ 0) ∧
    (∃ (d : Fin 3) (v : BitVec 16) (s : State) (t : Nat), d ≠ 0 ∧ rdB s (AUD_DOM_CTRL_enable d).inForce = true ∧ (sgn 16 v.toNat).natAbs ≤ 10000 ∧
      rdB s (AUD_DOM_STAT_locked d) = false ∧ Tab.get none s.aud.since d = some t) ∧
    (∃ (d : Fin 3) (s : State), d ≠ 0 ∧ rdB s (AUD_DOM_CTRL_enable d).inForce = true ∧ rdB s (AUD_DOM_STAT_locked d) = true) ∧
    (∃ (i : Fin 16) (t : BitVec 64) (frames : List (List (BitVec 32))) (s : State) (a : Aes67) (l : Nat),
      s.net.aes.find? (fun a => !a.tx && a.index == i.val) = some a ∧ l = t.toNat + a.offsetNs ∧ s.devTime ≤ l ∧ domainOn s 6 = true) :=
  ⟨⟨0, [], [], base, _, _, _, _, by decide +kernel, rfl, by decide +kernel, rfl, rfl⟩,
   ⟨core1, (0x30003100 : BitVec 40), (1 : BitVec 32), setAudPol 0 { AudPol.empty with staged := some prog0 } (withHart hart0 base),
    pageOf ((0x30003100 : BitVec 40)).toNat, prog0, by decide +kernel, by decide +kernel, by decide +kernel, rfl, by decide +kernel,
    by decide +kernel, by decide +kernel, by decide +kernel, by decide +kernel, by decide +kernel⟩,
   ⟨core1, (0x300037FC : BitVec 40), (1 : BitVec 32), withHart hart0 base, pageOf ((0x300037FC : BitVec 40)).toNat, by decide +kernel,
    by decide +kernel, by decide +kernel, by decide +kernel, rfl, by decide +kernel⟩,
   ⟨core1, (0x300030E8 : BitVec 40), (0x80001 : BitVec 32), withHart hart0 base, pageOf ((0x300030E8 : BitVec 40)).toNat, 7, by decide +kernel,
    by decide +kernel, by decide +kernel, rfl, by decide +kernel, by decide +kernel, by decide +kernel, by decide +kernel⟩,
   ⟨core1, (0x30003200 : BitVec 40), (1 : BitVec 32), withHart hart0 base, pageOf ((0x30003200 : BitVec 40)).toNat, by decide +kernel,
    by decide +kernel, by decide +kernel, rfl, by decide +kernel⟩,
   ⟨(2 : Fin 3), (10000 : BitVec 16), setAud (fun a => { a with since := [(2, some 7)] }) (wr (AUD_DOM_CTRL_enable 2).inForce 1 base), 7,
    by decide +kernel, by decide +kernel, by decide +kernel, by decide +kernel, by decide +kernel⟩,
   ⟨(2 : Fin 3), regs [((AUD_DOM_CTRL_enable 2).inForce, 1), (AUD_DOM_STAT_locked 2, 1)] base, by decide +kernel, by decide +kernel,
    by decide +kernel⟩,
   ⟨(15 : Fin 16), (100 : BitVec 64), [], { base with net := { base.net with aes := [stream0] } }, stream0, 100, by decide +kernel,
    by decide +kernel, by decide +kernel, by decide +kernel⟩⟩

theorem test_AudioCommandsComplete :
    (∃ (k : Fin 32) (m : Msg) (s : State), asked Op.AUD_GET_INFO k m s = true) ∧
    (∃ (k : Fin 32) (m : Msg) (s : State) (p : Nat) (g : AudProg), asked Op.AUD_GET_PROGRAM k m s = true ∧ p = bits (m.word 2) 4 0 ∧
      Req.mayReadPolder s ⟨k, m⟩ p = true ∧ (audPol s p).active = some g ∧ (audPol s p).staged = none) ∧
    (∃ (k : Fin 32) (m : Msg) (s : State) (p : Nat) (g : AudProg), asked Op.AUD_GET_PATHS k m s = true ∧ p = bits (m.word 2) 4 0 ∧
      Req.mayReadPolder s ⟨k, m⟩ p = true ∧ (audPol s p).active = some g ∧ (wordsBytes g.paths).length ≤ Req.bufSize ⟨k, m⟩) ∧
    (∃ (k : Fin 32) (m : Msg) (s : State) (p : Nat) (head : List Nat) (img : List Nat) (g : AudProg), asked Op.AUD_LOAD_PROGRAM k m s = true ∧
      Req.polder ⟨k, m⟩ = some p ∧ (audPol s p).swap = none ∧ head = leWords (min 24 (Req.bufSize ⟨k, m⟩ / 4)) (readBytes s (Req.bufAddr ⟨k,
      m⟩) (min 96 (Req.bufSize ⟨k, m⟩))) ∧ img = head ++ (leWords (min (Req.bufSize ⟨k, m⟩ / 4) (readNat s (Req.bufAddr ⟨k,
      m⟩ + 8) 4 / 4)) (readBytes s (Req.bufAddr ⟨k, m⟩) (min (Req.bufSize ⟨k, m⟩) (readNat s (Req.bufAddr ⟨k, m⟩ + 8) 4)))).drop head.length ∧
      headerFault img (Req.bufSize ⟨k, m⟩) = none ∧ g = imgProg img ∧ firstOffset (bodyFaults img g) = none ∧ domainFault s p img g = none ∧
      taintFails g = false ∧ imgCost img g = g.cost ∧ g.cost ≤ audBudget s p ∧
      (((List.range 32).flatMap (fun o => (audPol s o).active.toList ++ (if o = p then [] else (audPol s o).staged.toList))).map progWords).sum + progWords g ≤ 262144) ∧
    (∃ (k : Fin 32) (m : Msg) (s : State) (p : Nat), asked Op.AUD_UNLOAD k m s = true ∧ Req.polder ⟨k, m⟩ = some p ∧ (audPol s p).swap = none ∧
      bit (m.word 2) 0 = false) ∧
    (∃ (k : Fin 32) (m : Msg) (s : State) (s1 : State) (p : Nat) (b : Nat) (src : Nat) (dst : Nat), asked Op.AUD_SET_BRIDGE k m s = true ∧
      Req.polder ⟨k, m⟩ = some p ∧ b = bits (m.word 2) 4 0 ∧ src = bits (m.word 2) 10 9 ∧ dst = bits (m.word 2) 12 11 ∧
      grantee s 4 (192 + b) = p ∧ (audProgs s p).any (fun g => progUses g (192 + b)) = false ∧ src ≠ dst ∧ src ≠ 3 ∧ dst ≠ 3 ∧
      s1 = takeEffect (brgFlds b) (wr (AUD_BRG_CFG_dst b) dst (wr (AUD_BRG_CFG_src b) src (wr (AUD_BRG_CFG_enable b) (bits (m.word 2) 8 8) (taken k s))))) ∧
    (∃ (k : Fin 32) (m : Msg) (s : State) (p : Nat) (u : Nat) (i : Nat) (o : Nat), asked Op.AUD_SET_SIDETONE k m s = true ∧ Req.polder ⟨k,
      m⟩ = some p ∧ u = bits (m.word 2) 2 0 ∧ i = bits (m.word 2) 14 8 ∧ o = bits (m.word 2) 22 16 ∧ grantee s 4 i = p ∧ grantee s 4 o = p ∧
      chanDomain s i false = 0 ∧ chanDomain s o true = 0) ∧
    (∃ (k : Fin 32) (m : Msg) (s : State) (d : Nat), asked Op.AUD_SET_DOMAIN k m s = true ∧ d = bits (m.word 2) 1 0 ∧ d ≠ 0 ∧ d ≠ 3 ∧
      bits (m.word 2) 4 3 ≠ 0 ∧ 32000 ≤ m.word 3 ∧ m.word 3 ≤ 192000 ∧ domainUsed s d = false ∧
      rdB (rebaseDomain d (taken k s)) (AUD_DOM_CTRL_enable d).inForce = true) ∧
    (∃ (k : Fin 32) (m : Msg) (s : State) (p : Nat) (v : Nat), asked Op.AUD_SET_TDM k m s = true ∧ p = bits (m.word 2) 2 0 ∧
      v = bits (m.word 2) 27 16 ∧ bits v 2 1 = 0 ∧ 1 ≤ bits v 7 3 ∧ bits v 7 3 ≤ 16 ∧ bits v 9 8 ≠ 3 ∧
      bits v 7 3 * rd s (AUD_DOM_CTRL_rate 0).inForce ≤ 768000) ∧
    (∃ (k : Fin 32) (m : Msg) (s : State), asked Op.AUD_SET_AES67 k m s = true ∧ mediaDomainOk s (bits (m.word 2) 1 0) = true) ∧
    (∃ (k : Fin 32) (m : Msg) (s : State) (e : Aes67), asked Op.NET_SET_AES67 k m s = true ∧ Req.bufSize ⟨k, m⟩ = 32 ∧ e = aesEntry ⟨k, m⟩ s 0 ∧
      128 ≤ e.first ∧ e.first + e.count ≤ 192 ∧ 250000 ≤ e.offsetNs ∧ e.offsetNs ≤ 20000000 ∧
      mediaDomainOk s (rd s AUD_AES67_CFG_domain.inForce) = true) :=
  ⟨⟨(0 : Fin 32), msg Op.AUD_GET_INFO [], asking 0 (msg Op.AUD_GET_INFO []) (base), by decide +kernel⟩,
   ⟨(0 : Fin 32), msg Op.AUD_GET_PROGRAM [], asking 0 (msg Op.AUD_GET_PROGRAM []) (setAudPol 0 { AudPol.empty with active := some prog0 } base),
    bits ((msg Op.AUD_GET_PROGRAM []).word 2) 4 0, prog0, by decide +kernel, rfl, by decide +kernel, by decide +kernel, by decide +kernel⟩,
   ⟨(0 : Fin 32), refMsg Op.AUD_GET_PATHS 0x40000000 4,
    asking 0 (refMsg Op.AUD_GET_PATHS 0x40000000 4) (setAudPol 0 { AudPol.empty with active := some prog0 } base),
    bits ((refMsg Op.AUD_GET_PATHS 0x40000000 4).word 2) 4 0, prog0, by decide +kernel, rfl, by decide +kernel, by decide +kernel,
    by decide +kernel⟩,
   test_AudioCommandsComplete_3,
   ⟨(0 : Fin 32), msg Op.AUD_UNLOAD [], asking 0 (msg Op.AUD_UNLOAD []) (base), (Req.polder ⟨((0 : Fin 32)), (msg Op.AUD_UNLOAD [])⟩).getD 0,
    by decide +kernel, by decide +kernel, by decide +kernel, by decide +kernel⟩,
   ⟨(0 : Fin 32), msg Op.AUD_SET_BRIDGE [31 + 512], asking 0 (msg Op.AUD_SET_BRIDGE [31 + 512]) (base),
    takeEffect (brgFlds (bits ((msg Op.AUD_SET_BRIDGE [31 + 512]).word 2) 4 0)) (wr (AUD_BRG_CFG_dst (bits ((msg Op.AUD_SET_BRIDGE [31 + 512]).word 2) 4 0)) (bits ((msg Op.AUD_SET_BRIDGE [31 + 512]).word 2) 12 11) (wr (AUD_BRG_CFG_src (bits ((msg Op.AUD_SET_BRIDGE [31 + 512]).word 2) 4 0)) (bits ((msg Op.AUD_SET_BRIDGE [31 + 512]).word 2) 10 9) (wr (AUD_BRG_CFG_enable (bits ((msg Op.AUD_SET_BRIDGE [31 + 512]).word 2) 4 0)) (bits ((msg Op.AUD_SET_BRIDGE [31 + 512]).word 2) 8 8) (taken ((0 : Fin 32)) (asking 0 (msg Op.AUD_SET_BRIDGE [31 + 512]) (base)))))),
    (Req.polder ⟨((0 : Fin 32)), (msg Op.AUD_SET_BRIDGE [31 + 512])⟩).getD 0, bits ((msg Op.AUD_SET_BRIDGE [31 + 512]).word 2) 4 0,
    bits ((msg Op.AUD_SET_BRIDGE [31 + 512]).word 2) 10 9, bits ((msg Op.AUD_SET_BRIDGE [31 + 512]).word 2) 12 11, by decide +kernel,
    by decide +kernel, rfl, rfl, rfl, by decide +kernel, by decide +kernel, by decide +kernel, by decide +kernel, by decide +kernel, rfl⟩,
   ⟨(0 : Fin 32), msg Op.AUD_SET_SIDETONE [], asking 0 (msg Op.AUD_SET_SIDETONE []) (base), (Req.polder ⟨((0 : Fin 32)),
    (msg Op.AUD_SET_SIDETONE [])⟩).getD 0, bits ((msg Op.AUD_SET_SIDETONE []).word 2) 2 0, bits ((msg Op.AUD_SET_SIDETONE []).word 2) 14 8,
    bits ((msg Op.AUD_SET_SIDETONE []).word 2) 22 16, by decide +kernel, by decide +kernel, rfl, rfl, rfl, by decide +kernel, by decide +kernel,
    by decide +kernel, by decide +kernel⟩,
   ⟨(0 : Fin 32), msg Op.AUD_SET_DOMAIN [2 + 8, 192000], asking 0 (msg Op.AUD_SET_DOMAIN [2 + 8,
    192000]) (wr (AUD_DOM_CTRL_enable 2).inForce 1 base), bits ((msg Op.AUD_SET_DOMAIN [2 + 8, 192000]).word 2) 1 0, by decide +kernel, rfl,
    by decide +kernel, by decide +kernel, by decide +kernel, by decide +kernel, by decide +kernel, by decide +kernel, by decide +kernel⟩,
   ⟨(0 : Fin 32), msg Op.AUD_SET_TDM [7 + 65536 * 8 * 16], asking 0 (msg Op.AUD_SET_TDM [7 + 65536 * 8 * 16]) (base),
    bits ((msg Op.AUD_SET_TDM [7 + 65536 * 8 * 16]).word 2) 2 0, bits ((msg Op.AUD_SET_TDM [7 + 65536 * 8 * 16]).word 2) 27 16, by decide +kernel,
    rfl, rfl, by decide +kernel, by decide +kernel, by decide +kernel, by decide +kernel, by decide +kernel⟩,
   ⟨(0 : Fin 32), msg Op.AUD_SET_AES67 [], asking 0 (msg Op.AUD_SET_AES67 []) (base), by decide +kernel, by decide +kernel⟩,
   ⟨(0 : Fin 32), refMsg Op.NET_SET_AES67 0x40000000 32,
    asking 0 (refMsg Op.NET_SET_AES67 0x40000000 32) (words 0x40000000 [7 * 32 + 184 * 256] base), aesEntry ⟨((0 : Fin 32)),
    (refMsg Op.NET_SET_AES67 0x40000000 32)⟩ (asking 0 (refMsg Op.NET_SET_AES67 0x40000000 32) (words 0x40000000 [7 * 32 + 184 * 256] base)) 0,
    by decide +kernel, by decide +kernel, rfl, by decide +kernel, by decide +kernel, by decide +kernel, by decide +kernel, by decide +kernel⟩⟩

theorem test_HapticsComplete :
    (∃ (a : Access) (addr : BitVec 40) (v : BitVec 32) (s : State) (s1 : State) (p : Nat) (c : Nat) (k : Nat) (st : Nat),
      isPage addr.toNat = true ∧ pageOff addr.toNat = 0x4400 ∧ admitted a addr.toNat v.toNat s = true ∧ p = pageOf addr.toNat ∧
      c = bits v.toNat 2 0 ∧ k = bits v.toNat 6 4 ∧ hapHolder s c = p ∧ ((p = 0 ∨ polState s p ≠ 2)) ∧ hapHalted s = false ∧ hapState s c ≠ 0 ∧
      hapState s c ≠ 4 ∧ (((hapEntry s p c k).len = 0 ∨ mediaOwned s p (hapEntry s p c k).addr (2 * (hapEntry s p c k).len) = true)) ∧
      hapOutcome c (hapEntry s p c k) s = (st, s1)) ∧
    (∃ (c : Fin 8) (f : BitVec 32) (i : BitVec 16) (s : State) (s1 : State) (s2 : State), rdB s (HAP_CH_CTRL_enable c) = true ∧ hapState s c ≠ 0 ∧
      hapState s c ≠ 4 ∧ hapHalted s = false ∧ s1 = advanceTo ((hapCh s c).last + 62500) s ∧
      s2 = hapBegin c (hapFlags c (bit f.toNat 0) (wr (HAP_CH_MEAS_current c) i.toNat (wr (HAP_CH_MEAS_accel c) (f.toNat / 65536) (setHap c { hapCh s1 c with last := s1.now } s1))))) ∧
    (∃ (c : Fin 8) (s : State) (t : Nat), (hapCh s c).odEnd = some t) ∧
    (∃ (c : Fin 8) (s : State) (s1 : State), hapState s c = 3 ∧ (hapCh s c).starts = none ∧ (hapCh s c).resting < 16 ∧
      s1 = advanceTo ((hapCh s c).brakeStart + 1000000 * rd s (HAP_CH_DRIVE_brake_max c)) s) ∧
    (∃ (c : Fin 8) (a : BitVec 16) (b : BitVec 16) (d : BitVec 16) (s : State), rd s (HAP_CH_LIMIT_ilim c) < (sgn 16 a.toNat).natAbs ∧
      rd s (HAP_CH_LIMIT_ilim c) < (sgn 16 b.toNat).natAbs ∧ rd s (HAP_CH_LIMIT_ilim c) < (sgn 16 d.toNat).natAbs ∧ hapState s c ≠ 0 ∧
      hapState s c ≠ 4 ∧ hapHalted s = false) ∧
    (∃ (c : Fin 8) (s : State), 16 ≤ (hapCh s c).invalid ∧ rdB s (HAP_CH_STAT_open_loop c) = false) ∧
    (∃ (k : Fin 32) (m : Msg) (s : State), asked Op.HAP_GET_CHANNEL k m s = true) ∧
    (∃ (k : Fin 32) (m : Msg) (s : State) (s1 : State) (c : Nat) (inom : Nat) (od : Nat) (bm : Nat), asked Op.HAP_SET_CHANNEL k m s = true ∧
      c = bits (m.word 2) 2 0 ∧ inom = bits (m.word 4) 11 0 ∧ od = bits (m.word 4) 16 12 ∧ bm = bits (m.word 4) 27 21 ∧ Req.polder ⟨k,
      m⟩ = some (hapHolder s c) ∧ inom ≠ 0 ∧ 8 ≤ od ∧ od ≤ 24 ∧ bits (m.word 4) 20 17 ≤ 8 ∧ bm ≠ 0 ∧ bm ≤ 100 ∧
      inom * od ≤ bits (m.word 5) 12 0 * 8 ∧ bit (m.word 3) 0 = true ∧
      s1 = takeEffect [HAP_CH_CTRL_dead c] ((List.range 5).foldl (fun s i => writeFlds (m.word (3 + i)) ((hapRegs c).getD i []) s) (taken k s)) ∧
      hapState s c = 0) ∧
    (∃ (k : Fin 32) (m : Msg) (s : State) (c : Nat), asked Op.HAP_RESTART k m s = true ∧ c = bits (m.word 2) 2 0 ∧ Req.polder ⟨k,
      m⟩ = some (hapHolder s c) ∧ hapState s c = 4 ∧
      hapLimitLow (rd s (HAP_CH_DRIVE_inom c)) (rd s (HAP_CH_DRIVE_od c)) (rd s (HAP_CH_LIMIT_ilim c)) = false) :=
  ⟨⟨core1, (0x30004400 : BitVec 40), (0x77 : BitVec 32), haptic 1 HapCh.empty (withHart hart0 base),
    (hapOutcome 7 (hapEntry ((haptic 1 HapCh.empty (withHart hart0 base))) 0 7 7) ((haptic 1 HapCh.empty (withHart hart0 base)))).2,
    pageOf ((0x30004400 : BitVec 40)).toNat, 7, 7,
    (hapOutcome 7 (hapEntry ((haptic 1 HapCh.empty (withHart hart0 base))) 0 7 7) ((haptic 1 HapCh.empty (withHart hart0 base)))).1,
    by decide +kernel, by decide +kernel, by decide +kernel, rfl, by decide +kernel, by decide +kernel, by decide +kernel, by decide +kernel,
    by decide +kernel, by decide +kernel, by decide +kernel, by decide +kernel, rfl⟩,
   ⟨(7 : Fin 8), (0 : BitVec 32), (0 : BitVec 16), haptic 2 HapCh.empty base,
    advanceTo ((hapCh (haptic 2 HapCh.empty base) ((7 : Fin 8))).last + 62500) (haptic 2 HapCh.empty base),
    hapBegin ((7 : Fin 8)) (hapFlags ((7 : Fin 8)) (bit ((0 : BitVec 32)).toNat 0) (wr (HAP_CH_MEAS_current ((7 : Fin 8))) ((0 : BitVec 16)).toNat (wr (HAP_CH_MEAS_accel ((7 : Fin 8))) (((0 : BitVec 32)).toNat / 65536) (setHap ((7 : Fin 8)) { hapCh (advanceTo ((hapCh (haptic 2 HapCh.empty base) ((7 : Fin 8))).last + 62500) (haptic 2 HapCh.empty base)) ((7 : Fin 8)) with last := (advanceTo ((hapCh (haptic 2 HapCh.empty base) ((7 : Fin 8))).last + 62500) (haptic 2 HapCh.empty base)).now } (advanceTo ((hapCh (haptic 2 HapCh.empty base) ((7 : Fin 8))).last + 62500) (haptic 2 HapCh.empty base)))))),
    by decide +kernel, by decide +kernel, by decide +kernel, by decide +kernel, rfl, rfl⟩,
   ⟨(7 : Fin 8), haptic 2 { HapCh.empty with odEnd := some 9 } base, 9, by decide +kernel⟩,
   ⟨(7 : Fin 8), haptic 3 { HapCh.empty with resting := 15 } base,
    advanceTo ((hapCh (haptic 3 { HapCh.empty with resting := 15 } base) ((7 : Fin 8))).brakeStart + 1000000 * rd (haptic 3 { HapCh.empty with resting := 15 } base) (HAP_CH_DRIVE_brake_max ((7 : Fin 8)))) (haptic 3 { HapCh.empty with resting := 15 } base),
    by decide +kernel, by decide +kernel, by decide +kernel, rfl⟩,
   ⟨(7 : Fin 8), (0x8000 : BitVec 16), (0x7FFF : BitVec 16), (0x7FFF : BitVec 16), haptic 2 HapCh.empty base, by decide +kernel,
    by decide +kernel, by decide +kernel, by decide +kernel, by decide +kernel, by decide +kernel⟩,
   ⟨(7 : Fin 8), haptic 2 { HapCh.empty with invalid := 16 } base, by decide +kernel, by decide +kernel⟩,
   ⟨(0 : Fin 32), msg Op.HAP_GET_CHANNEL [], asking 0 (msg Op.HAP_GET_CHANNEL []) (base), by decide +kernel⟩,
   ⟨(0 : Fin 32), msg Op.HAP_SET_CHANNEL [7, 1, 1 + 8 * 4096 + 100 * 2 ^ 21, 1], asking 0 (msg Op.HAP_SET_CHANNEL [7, 1,
    1 + 8 * 4096 + 100 * 2 ^ 21, 1]) (base),
    (let k : Fin 32 := (0 : Fin 32); let m : Msg := msg Op.HAP_SET_CHANNEL [7, 1, 1 + 8 * 4096 + 100 * 2 ^ 21, 1]; let s : State := asking 0 (msg Op.HAP_SET_CHANNEL [7, 1, 1 + 8 * 4096 + 100 * 2 ^ 21, 1]) (base); let c : Nat := bits ((msg Op.HAP_SET_CHANNEL [7, 1, 1 + 8 * 4096 + 100 * 2 ^ 21, 1]).word 2) 2 0; takeEffect [HAP_CH_CTRL_dead c] ((List.range 5).foldl (fun s i => writeFlds (m.word (3 + i)) ((hapRegs c).getD i []) s) (taken k s))),
    bits ((msg Op.HAP_SET_CHANNEL [7, 1, 1 + 8 * 4096 + 100 * 2 ^ 21, 1]).word 2) 2 0, bits ((msg Op.HAP_SET_CHANNEL [7, 1,
    1 + 8 * 4096 + 100 * 2 ^ 21, 1]).word 4) 11 0, bits ((msg Op.HAP_SET_CHANNEL [7, 1, 1 + 8 * 4096 + 100 * 2 ^ 21, 1]).word 4) 16 12,
    bits ((msg Op.HAP_SET_CHANNEL [7, 1, 1 + 8 * 4096 + 100 * 2 ^ 21, 1]).word 4) 27 21, by decide +kernel, rfl, rfl, rfl, rfl, by decide +kernel,
    by decide +kernel, by decide +kernel, by decide +kernel, by decide +kernel, by decide +kernel, by decide +kernel, by decide +kernel,
    by decide +kernel, rfl, by decide +kernel⟩,
   ⟨(0 : Fin 32), msg Op.HAP_RESTART [7], asking 0 (msg Op.HAP_RESTART [7]) (haptic 4 HapCh.empty base),
    bits ((msg Op.HAP_RESTART [7]).word 2) 2 0, by decide +kernel, rfl, by decide +kernel, by decide +kernel, by decide +kernel⟩⟩

theorem test_TouchComplete :
    (∃ (c : Fin 2) (steps : List (List (BitVec 16))) (sat : List (Fin 6 × Fin 64)) (listen : List (List (BitVec 16))) (s : State),
      tchScans s c = true) ∧
    (∃ (c : Fin 2) (s : State), rdB s (TCH_CTRL_enable c).inForce = true ∧ tchState s c = 0 ∧ tchQuiet s = false ∧ domainOn s 5 = true ∧
      (tch s c).viaQuiet = false ∧ (tch s c).flash = none) ∧
    (∃ (c : Fin 2) (id : Fin 20) (s : State) (s1 : State) (k : TchContact),
      (tch s c).contacts.find? (fun k => k.id == id.val && k.shown && !k.long) = some k ∧ k.silent = true ∧
      s1 = advanceTo (k.start + 600000000000) s) ∧
    (∃ (c : Fin 2) (id : Fin 20) (s : State) (s1 : State) (s2 : State) (k : TchContact),
      (tch s c).contacts.find? (fun k => k.id == id.val && k.shown) = some k ∧ rd s (TCH_STUCK_seconds c) ≠ 0 ∧
      s1 = advanceTo (k.start + 1000000000 * rd s (TCH_STUCK_seconds c)) s ∧ s2 = rebaseRecord c 3 k.owner (contactEvent Src.TCH_STUCK k.owner [c,
      unsgn 32 k.u,
      unsgn 32 k.v] (tchStat c (setTch c { rebaseNodes k.nodes (tch s1 c) with contacts := (rebaseNodes k.nodes (tch s1 c)).contacts.filter (fun x => x.id != k.id) } s1)))) ∧
    (∃ (c : Fin 2) (s : State) (r : List Nat), (tch s c).wake = some r ∧ rdB s (DMC_STATUS_self_refresh 0) = false) ∧
    (∃ (a : Access) (addr : BitVec 40) (v : BitVec 32) (s : State) (p : Nat) (c : Nat), isPage addr.toNat = true ∧
      queueAt (pageOff addr.toNat) 8 = some c ∧ admitted a addr.toNat v.toNat s = true ∧ p = pageOf addr.toNat ∧ holdsTouch s p c = true ∧
      bit v.toNat 0 = true ∧ rdB s (TCH_Q_CFG_enable p c) = false ∧ bits v.toNat 7 4 ≤ 10) ∧
    (∃ (c : Fin 2) (s : State) (j : Job), (tch s c).calib = some (0, j)) ∧
    (∃ (k : Fin 32) (m : Msg) (s : State) (c : Nat), asked Op.TCH_GET_INFO k m s = true ∧ c = bits (m.word 2) 0 0) ∧
    (∃ (k : Fin 32) (m : Msg) (s : State) (p : Nat) (c : Nat), asked Op.TCH_SET_CLICK k m s = true ∧ Req.polder ⟨k, m⟩ = some p ∧
      c = bits (m.word 2) 0 0 ∧ hapHolder s (bits (m.word 2) 14 12) = p ∧ holdsTouch s p c = true ∧ bit (m.word 2) 8 = false) ∧
    (∃ (k : Fin 32) (m : Msg) (s : State) (s2 : State) (c : Nat) (fs : List Nat), asked Op.TCH_SET_CHANNEL k m s = true ∧
      c = bits (m.word 2) 0 0 ∧ fs = (List.range 8).map (fun j => bits (m.word (7 + j / 2)) (15 + 16 * (j % 2)) (16 * (j % 2))) ∧ channelBad ⟨k,
      m⟩ fs = false ∧ (tch s c).calib = none ∧
      frameFits fs (fs.getD (rd s (TCH_STAT_freq c)) 0) (ceilDiv (bits (m.word 3) 14 8) (if bit (m.word 3) 1 then 16 else 32) * (if bit (m.word 3) 1 then 16 else 32)) (bits (m.word 4) 5 0) (bits (m.word 3) 31 24) = true ∧
      s2 = (List.range 8).foldl (fun s j => wr (TCH_FREQ_khz c j) (fs.getD j 0) s) (wr (TCH_STUCK_seconds c) (bits (m.word 11) 16 0) ((List.range 4).foldl (fun s i => writeFlds (m.word (3 + i)) ((tchRegs c).getD i []) s) (taken k s)))) ∧
    (∃ (k : Fin 32) (m : Msg) (s : State), asked Op.TCH_SET_MAP k m s = true) ∧
    (∃ (k : Fin 32) (m : Msg) (s : State) (w : Nat → Nat) (pairs : List (Nat × Nat)) (nodes : List Nat), asked Op.TCH_SET_SLIDER k m s = true ∧
      w = (fun i => readNat s (Req.bufAddr ⟨k, m⟩ + 4 * i) 4) ∧ pairs = (List.range (w 5)).map (fun i => (byteAt s (Req.bufAddr ⟨k,
      m⟩ + 24 + 2 * i), byteAt s (Req.bufAddr ⟨k, m⟩ + 25 + 2 * i))) ∧ nodes = pairs.map (fun e => nodeAt e.1 e.2) ∧ w 0 ≤ 1 ∧ w 1 ≤ 15 ∧
      w 2 ≤ 1 ∧ w 3 ≤ 31 ∧ 2 ≤ w 5 ∧ w 5 ≤ 32 ∧ 24 + 2 * w 5 ≤ Req.bufSize ⟨k, m⟩ ∧
      (pairs.any (fun e => decide (rd s (TCH_CTRL_tx (w 0)) ≤ e.1) || decide (rd s (TCH_CTRL_rx (w 0)) ≤ e.2))) = false ∧ nodes.Nodup ∧
      (nodes.any (fun x => (((tch s (w 0)).sliders.filter (fun e => e.1 != w 1)).flatMap (fun e => match e.2 with | some l => l.nodes | none => [])).contains x)) = false) ∧
    (∃ (k : Fin 32) (m : Msg) (s : State) (c : Nat), asked Op.TCH_CALIBRATE k m s = true ∧ c = bits (m.word 2) 0 0 ∧ (tch s c).contacts = [] ∧
      (tch s c).calib = none) ∧
    (∃ (k : Fin 32) (m : Msg) (s : State), asked Op.TCH_SAVE_SNAPSHOT k m s = true) ∧
    (∃ (k : Fin 32) (m : Msg) (s : State) (c : Nat), asked Op.TCH_REBASELINE k m s = true ∧ c = bits (m.word 2) 0 0) ∧
    (∃ (k : Fin 32) (m : Msg) (s : State) (c : Nat) (bs : List Nat), asked Op.TCH_GET_NODES k m s = true ∧ c = bits (m.word 2) 0 0 ∧
      bits (m.word 2) 3 1 = 2 ∧ bs = ((tchNodes s c).map (Tab.get 0 (tch s c).delta)).flatMap (fun x => leBytes 2 (unsgn 16 x)) ∧
      bs.length ≤ Req.bufSize ⟨k, m⟩) :=
  ⟨⟨(1 : Fin 2), [], [], [], regs [((TCH_CTRL_enable 1).inForce, 1), (TCH_STAT_state 1, 1)] base, by decide +kernel⟩,
   ⟨(1 : Fin 2), wr (TCH_CTRL_enable 1).inForce 1 base, by decide +kernel, by decide +kernel, by decide +kernel, by decide +kernel,
    by decide +kernel, by decide +kernel⟩,
   ⟨(1 : Fin 2), (19 : Fin 20), touched, advanceTo (contact0.start + 600000000000) touched, contact0, by decide +kernel, by decide +kernel, rfl⟩,
   ⟨(1 : Fin 2), (19 : Fin 20), touched, advanceTo (contact0.start + 1000000000 * rd touched (TCH_STUCK_seconds ((1 : Fin 2)))) touched,
    rebaseRecord ((1 : Fin 2)) 3 contact0.owner (contactEvent Src.TCH_STUCK contact0.owner [((1 : Fin 2)), unsgn 32 contact0.u,
    unsgn 32 contact0.v] (tchStat ((1 : Fin 2)) (setTch ((1 : Fin 2)) { rebaseNodes contact0.nodes (tch (advanceTo (contact0.start + 1000000000 * rd touched (TCH_STUCK_seconds ((1 : Fin 2)))) touched) ((1 : Fin 2))) with contacts := (rebaseNodes contact0.nodes (tch (advanceTo (contact0.start + 1000000000 * rd touched (TCH_STUCK_seconds ((1 : Fin 2)))) touched) ((1 : Fin 2)))).contacts.filter (fun x => x.id != contact0.id) } (advanceTo (contact0.start + 1000000000 * rd touched (TCH_STUCK_seconds ((1 : Fin 2)))) touched)))),
    contact0, by decide +kernel, by decide +kernel, rfl, rfl⟩,
   ⟨(1 : Fin 2), setTch 1 { TchCh.empty with wake := some [] } base, [], by decide +kernel, by decide +kernel⟩,
   ⟨core1, (0x30005048 : BitVec 40), (0xA1 : BitVec 32), withHart hart0 base, pageOf ((0x30005048 : BitVec 40)).toNat, 1, by decide +kernel,
    by decide +kernel, by decide +kernel, rfl, by decide +kernel, by decide +kernel, by decide +kernel, by decide +kernel⟩,
   ⟨(1 : Fin 2), setTch 1 { TchCh.empty with calib := some (0, ⟨0, 0, 0⟩) } base, ⟨0, 0, 0⟩, by decide +kernel⟩,
   ⟨(0 : Fin 32), msg Op.TCH_GET_INFO [], asking 0 (msg Op.TCH_GET_INFO []) (base), bits ((msg Op.TCH_GET_INFO []).word 2) 0 0, by decide +kernel,
    rfl⟩,
   ⟨(0 : Fin 32), msg Op.TCH_SET_CLICK [], asking 0 (msg Op.TCH_SET_CLICK []) (base), (Req.polder ⟨((0 : Fin 32)),
    (msg Op.TCH_SET_CLICK [])⟩).getD 0, bits ((msg Op.TCH_SET_CLICK []).word 2) 0 0, by decide +kernel, by decide +kernel, rfl, by decide +kernel,
    by decide +kernel, by decide +kernel⟩,
   ⟨(0 : Fin 32), msg Op.TCH_SET_CHANNEL [1, 256 + 65536 + 16777216, 4 + 256 + 4096 + 1048576, 1, 0, 100 + 6553600, 100 + 6553600, 100 + 6553600,
    100 + 6553600, 86400], asking 0 (msg Op.TCH_SET_CHANNEL [1, 256 + 65536 + 16777216, 4 + 256 + 4096 + 1048576, 1, 0, 100 + 6553600,
    100 + 6553600, 100 + 6553600, 100 + 6553600, 86400]) (base),
    (let k : Fin 32 := (0 : Fin 32); let m : Msg := msg Op.TCH_SET_CHANNEL [1, 256 + 65536 + 16777216, 4 + 256 + 4096 + 1048576, 1, 0, 100 + 6553600, 100 + 6553600, 100 + 6553600, 100 + 6553600, 86400]; let s : State := asking 0 (msg Op.TCH_SET_CHANNEL [1, 256 + 65536 + 16777216, 4 + 256 + 4096 + 1048576, 1, 0, 100 + 6553600, 100 + 6553600, 100 + 6553600, 100 + 6553600, 86400]) (base); let c : Nat := bits ((msg Op.TCH_SET_CHANNEL [1, 256 + 65536 + 16777216, 4 + 256 + 4096 + 1048576, 1, 0, 100 + 6553600, 100 + 6553600, 100 + 6553600, 100 + 6553600, 86400]).word 2) 0 0; let fs : List Nat := (List.range 8).map (fun j => bits ((msg Op.TCH_SET_CHANNEL [1, 256 + 65536 + 16777216, 4 + 256 + 4096 + 1048576, 1, 0, 100 + 6553600, 100 + 6553600, 100 + 6553600, 100 + 6553600, 86400]).word (7 + j / 2)) (15 + 16 * (j % 2)) (16 * (j % 2))); (List.range 8).foldl (fun s j => wr (TCH_FREQ_khz c j) (fs.getD j 0) s) (wr (TCH_STUCK_seconds c) (bits (m.word 11) 16 0) ((List.range 4).foldl (fun s i => writeFlds (m.word (3 + i)) ((tchRegs c).getD i []) s) (taken k s)))),
    bits ((msg Op.TCH_SET_CHANNEL [1, 256 + 65536 + 16777216, 4 + 256 + 4096 + 1048576, 1, 0, 100 + 6553600, 100 + 6553600, 100 + 6553600,
    100 + 6553600, 86400]).word 2) 0 0, (List.range 8).map (fun j => bits ((msg Op.TCH_SET_CHANNEL [1, 256 + 65536 + 16777216,
    4 + 256 + 4096 + 1048576, 1, 0, 100 + 6553600, 100 + 6553600, 100 + 6553600, 100 + 6553600,
    86400]).word (7 + j / 2)) (15 + 16 * (j % 2)) (16 * (j % 2))), by decide +kernel, rfl, rfl, by decide +kernel, by decide +kernel,
    by decide +kernel, rfl⟩,
   ⟨(0 : Fin 32), msg Op.TCH_SET_MAP [], asking 0 (msg Op.TCH_SET_MAP []) (base), by decide +kernel⟩,
   ⟨(0 : Fin 32), refMsg Op.TCH_SET_SLIDER 0x40000000 28, asking 0 (refMsg Op.TCH_SET_SLIDER 0x40000000 28) (regs [(TCH_CTRL_tx 1, 1),
    (TCH_CTRL_rx 1, 2)] (words 0x40000000 [1, 15, 1, 31, 0, 2, 0x01000000] base)),
    (fun i => readNat (asking 0 (refMsg Op.TCH_SET_SLIDER 0x40000000 28) (regs [(TCH_CTRL_tx 1, 1), (TCH_CTRL_rx 1, 2)] (words 0x40000000 [1, 15,
    1, 31, 0, 2, 0x01000000] base))) (Req.bufAddr ⟨((0 : Fin 32)), (refMsg Op.TCH_SET_SLIDER 0x40000000 28)⟩ + 4 * i) 4),
    (List.range (((fun i => readNat (asking 0 (refMsg Op.TCH_SET_SLIDER 0x40000000 28) (regs [(TCH_CTRL_tx 1, 1), (TCH_CTRL_rx 1,
    2)] (words 0x40000000 [1, 15, 1, 31, 0, 2, 0x01000000] base))) (Req.bufAddr ⟨((0 : Fin 32)),
    (refMsg Op.TCH_SET_SLIDER 0x40000000 28)⟩ + 4 * i) 4)) 5)).map (fun i => (byteAt (asking 0 (refMsg Op.TCH_SET_SLIDER 0x40000000 28) (regs [(TCH_CTRL_tx 1,
    1), (TCH_CTRL_rx 1, 2)] (words 0x40000000 [1, 15, 1, 31, 0, 2, 0x01000000] base))) (Req.bufAddr ⟨((0 : Fin 32)),
    (refMsg Op.TCH_SET_SLIDER 0x40000000 28)⟩ + 24 + 2 * i), byteAt (asking 0 (refMsg Op.TCH_SET_SLIDER 0x40000000 28) (regs [(TCH_CTRL_tx 1, 1),
    (TCH_CTRL_rx 1, 2)] (words 0x40000000 [1, 15, 1, 31, 0, 2, 0x01000000] base))) (Req.bufAddr ⟨((0 : Fin 32)),
    (refMsg Op.TCH_SET_SLIDER 0x40000000 28)⟩ + 25 + 2 * i))),
    ((List.range (((fun i => readNat (asking 0 (refMsg Op.TCH_SET_SLIDER 0x40000000 28) (regs [(TCH_CTRL_tx 1, 1), (TCH_CTRL_rx 1,
    2)] (words 0x40000000 [1, 15, 1, 31, 0, 2, 0x01000000] base))) (Req.bufAddr ⟨((0 : Fin 32)),
    (refMsg Op.TCH_SET_SLIDER 0x40000000 28)⟩ + 4 * i) 4)) 5)).map (fun i => (byteAt (asking 0 (refMsg Op.TCH_SET_SLIDER 0x40000000 28) (regs [(TCH_CTRL_tx 1,
    1), (TCH_CTRL_rx 1, 2)] (words 0x40000000 [1, 15, 1, 31, 0, 2, 0x01000000] base))) (Req.bufAddr ⟨((0 : Fin 32)),
    (refMsg Op.TCH_SET_SLIDER 0x40000000 28)⟩ + 24 + 2 * i), byteAt (asking 0 (refMsg Op.TCH_SET_SLIDER 0x40000000 28) (regs [(TCH_CTRL_tx 1, 1),
    (TCH_CTRL_rx 1, 2)] (words 0x40000000 [1, 15, 1, 31, 0, 2, 0x01000000] base))) (Req.bufAddr ⟨((0 : Fin 32)),
    (refMsg Op.TCH_SET_SLIDER 0x40000000 28)⟩ + 25 + 2 * i)))).map (fun e => nodeAt e.1 e.2), by decide +kernel, rfl, rfl, rfl, by decide +kernel,
    by decide +kernel, by decide +kernel, by decide +kernel, by decide +kernel, by decide +kernel, by decide +kernel, by decide +kernel,
    by decide +kernel, by decide +kernel⟩,
   ⟨(0 : Fin 32), msg Op.TCH_CALIBRATE [], asking 0 (msg Op.TCH_CALIBRATE []) (base), bits ((msg Op.TCH_CALIBRATE []).word 2) 0 0,
    by decide +kernel, rfl, by decide +kernel, by decide +kernel⟩,
   ⟨(0 : Fin 32), msg Op.TCH_SAVE_SNAPSHOT [], asking 0 (msg Op.TCH_SAVE_SNAPSHOT []) (base), by decide +kernel⟩,
   ⟨(0 : Fin 32), msg Op.TCH_REBASELINE [], asking 0 (msg Op.TCH_REBASELINE []) (base), bits ((msg Op.TCH_REBASELINE []).word 2) 0 0,
    by decide +kernel, rfl⟩,
   ⟨(0 : Fin 32), refMsg Op.TCH_GET_NODES 0x40000005 4096, asking 0 (refMsg Op.TCH_GET_NODES 0x40000005 4096) (base),
    bits ((refMsg Op.TCH_GET_NODES 0x40000005 4096).word 2) 0 0,
    ((tchNodes (asking 0 (refMsg Op.TCH_GET_NODES 0x40000005 4096) (base)) (bits ((refMsg Op.TCH_GET_NODES 0x40000005 4096).word 2) 0 0)).map (Tab.get 0 (tch (asking 0 (refMsg Op.TCH_GET_NODES 0x40000005 4096) (base)) (bits ((refMsg Op.TCH_GET_NODES 0x40000005 4096).word 2) 0 0)).delta)).flatMap (fun x => leBytes 2 (unsgn 16 x)),
    by decide +kernel, rfl, by decide +kernel, rfl, by decide +kernel⟩⟩

theorem test_TimeAndSwitchComplete :
    (∃ (p : Fin 6) (s : State), rdB s (ONL_PORT_STAT_up p) = false ∧ domainOn s 6 = true ∧ rdB s (ONL_PORT_CFG_enable p).inForce = true) ∧
    (∃ (p : Fin 6) (s : State), rdB s (ONL_PORT_STAT_up p) = true ∧ domainOn s 6 = true) ∧
    (∃ (p : Fin 6) (d : BitVec 8) (a : AnnounceInfo) (s : State), ptpPort s p d.toNat = true) ∧
    (∃ (p : Fin 6) (d : BitVec 8) (i : Nat) (o : Int) (f : Int) (s : State) (b : Announce), ptpPort s p d.toNat = true ∧
      bestMaster s = some (p.val, b) ∧ 250 < f.natAbs ∧ rd s ONL_PTP_STEP_TH_ns < o.natAbs) ∧
    (∃ (s : State) (s2 : State), s2 = setNet (fun v => { v with syncs := 0 }) (advanceTo (s.net.syncAt + 3 * s.net.syncInterval) s) ∧
      rd s2 ONL_TIME_STAT_state = 1) ∧
    (∃ (s : State), rd s ONL_TIME_STAT_state = 2) ∧
    (∃ (s : State), rd s ONL_TIME_STAT_state = 1) ∧
    (∃ (f : EthFrame) (s : State), domainOn s 6 = true ∧ f.port.val < 6 ∧ rdB s (ONL_PORT_STAT_up f.port.val) = true ∧
      rdB s (ONL_PORT_CFG_macsec f.port.val) = true ∧ f.protect = false) ∧
    (∃ (f : EthFrame) (s : State), domainOn s 6 = true ∧ f.port.val < 6 ∧ rdB s (ONL_PORT_STAT_up f.port.val) = true ∧
      rdB s (ONL_PORT_CFG_macsec f.port.val) = false ∧ f.onader = none) ∧
    (∃ (p : Fin 6) (s : State) (g : GateList), Tab.get none s.net.gatesNext p = some g) :=
  ⟨⟨(5 : Fin 6), wr (ONL_PORT_CFG_enable 5).inForce 1 base, by decide +kernel, by decide +kernel, by decide +kernel⟩,
   ⟨(5 : Fin 6), online base, by decide +kernel, by decide +kernel⟩,
   ⟨(5 : Fin 6), (0 : BitVec 8), ⟨0, 0, 0, 0, 0, 0, 0⟩, online base, by decide +kernel⟩,
   ⟨(5 : Fin 6), (0 : BitVec 8), 0, 100000000000, 251, { online base with net := { base.net with masters := [(5, some ⟨0, 0, 0, 0, 0, 0, 0⟩)] } },
    ⟨0, 0, 0, 0, 0, 0, 0⟩, by decide +kernel, by decide +kernel, by decide +kernel, by decide +kernel⟩,
   ⟨wr ONL_TIME_STAT_state 1 base,
    setNet (fun v => { v with syncs := 0 }) (advanceTo ((wr ONL_TIME_STAT_state 1 base).net.syncAt + 3 * (wr ONL_TIME_STAT_state 1 base).net.syncInterval) (wr ONL_TIME_STAT_state 1 base)),
    rfl, by decide +kernel⟩,
   ⟨wr ONL_TIME_STAT_state 2 base, by decide +kernel⟩,
   ⟨wr ONL_TIME_STAT_state 1 base, by decide +kernel⟩,
   ⟨eth0, wr (ONL_PORT_CFG_macsec 5) 1 (online base), by decide +kernel, by decide +kernel, by decide +kernel, by decide +kernel,
    by decide +kernel⟩,
   ⟨eth0, online base, by decide +kernel, by decide +kernel, by decide +kernel, by decide +kernel, by decide +kernel⟩,
   ⟨(5 : Fin 6), { base with net := { base.net with gatesNext := [(5, some ⟨1, 1, []⟩)] } }, ⟨1, 1, []⟩, by decide +kernel⟩⟩

theorem test_OnaderComplete :
    (∃ (s : State) (s1 : State), s1 = advanceTo (s.net.helloAt + 1000000000) s) ∧
    (∃ (h : OnaderHeader) (len : Nat) (x : HelloInfo) (s : State), onlClass h = clsHello ∧ domainOn s 6 = true ∧ onlDiscards s h len = false) ∧
    (∃ (h : OnaderHeader) (len : Nat) (x : SchedInfo) (s : State), onlClass h = clsSched ∧ domainOn s 6 = true ∧ onlDiscards s h len = false) ∧
    (∃ (h : OnaderHeader) (payload : List (BitVec 8)) (s : State), onlClass h = clsSlice ∧ domainOn s 6 = true ∧
      onlDiscards s h payload.length = false ∧ inQuiet s = false) ∧
    (∃ (h : OnaderHeader) (len : Nat) (n : Fin 65536) (s : State), onlClass h = clsKeyreq ∧ domainOn s 6 = true ∧ onlDiscards s h len = false ∧
      inQuiet s = false) ∧
    (∃ (d : Fin 16384) (s : State) (p : Peer), s.net.peers.find? (fun p => p.device == d.val) = some p) ∧
    (∃ (s : State), rdB s ONL_STATUS_dup = true) ∧
    (∃ (s : State) (s1 : State), s1 = advanceTo (s.net.schedAt + 1000000000) s) ∧
    (∃ (i : Fin 8) (s : State) (x : Sched) (own : Bool), schedNext s i = some (x, own)) ∧
    (∃ (n : Fin 65536) (s : State) (r : RxStream) (p : RxPic), s.net.rx.find? (fun r => r.stream == n.val) = some r ∧ r.asm = [p]) ∧
    (∃ (s : State) (a : Nat) (port : Nat) (m : Nat) (due : List (Nat × EvRec)), s.net.exportTo = some (a, port, m) ∧
      due = s.evr.exportQ.filter (fun e => decide (m ≤ e.2.sev)) ∧ due ≠ []) :=
  ⟨⟨base, advanceTo (base.net.helloAt + 1000000000) base, rfl⟩,
   ⟨header 1 0, 0, ⟨0, 0, 0, false⟩, base, by decide +kernel, by decide +kernel, by decide +kernel⟩,
   ⟨header 2 0, 0, ⟨0, 0, 0, 0, 0⟩, base, by decide +kernel, by decide +kernel, by decide +kernel⟩,
   ⟨header 3 0, [], base, by decide +kernel, by decide +kernel, by decide +kernel, by decide +kernel⟩,
   ⟨header 4 0, 0, (0 : Fin 65536), base, by decide +kernel, by decide +kernel, by decide +kernel, by decide +kernel⟩,
   ⟨(16383 : Fin 16384), { base with net := { base.net with peers := [⟨16383, 0, 0, 0, 0, 0⟩] } }, ⟨16383, 0, 0, 0, 0, 0⟩, by decide +kernel⟩,
   ⟨wr ONL_STATUS_dup 1 base, by decide +kernel⟩,
   ⟨base, advanceTo (base.net.schedAt + 1000000000) base, rfl⟩,
   ⟨(7 : Fin 8), setNext 7 (some (⟨0, 1000, 0, 0, 5, 1⟩, true)) base, ⟨0, 1000, 0, 0, 5, 1⟩, true, by decide +kernel⟩,
   ⟨(65535 : Fin 65536), { base with net := { base.net with rx := [⟨65535, 0, 63, 0, 1, 0, 0, 0, [⟨0, 0, []⟩], [], 0, 0, 0, 0⟩] } }, ⟨65535, 0,
    63, 0, 1, 0, 0, 0, [⟨0, 0, []⟩], [], 0, 0, 0, 0⟩, ⟨0, 0, []⟩, by decide +kernel, by decide +kernel⟩,
   ⟨{ base with net := { base.net with exportTo := some (1, 2, 3) }, evr := { base.evr with exportQ := [(1, record1)] } }, 1, 2, 3,
    ({ base with net := { base.net with exportTo := some (1, 2, 3) }, evr := { base.evr with exportQ := [(1, record1)] } }).evr.exportQ.filter (fun e => decide (3 ≤ e.2.sev)),
    by decide +kernel, rfl, by decide +kernel⟩⟩

theorem test_ManagerSessionComplete :
    (∃ (h : OnaderHeader) (a : BitVec 128) (p : List (BitVec 8)) (s : State), payWord (p.map (fun b => b.toNat)) 0 = 1 ∧ onlClass h = clsMgr ∧
      domainOn s 6 = true ∧ onlDiscards s h p.length = false) ∧
    (∃ (h : OnaderHeader) (p : List (BitVec 8)) (s : State) (m : MgrSes) (q : List Nat), q = p.map (fun b => b.toNat) ∧ payWord q 0 = 3 ∧
      onlClass h = clsMgr ∧ domainOn s 6 = true ∧ onlDiscards s h p.length = false ∧ s.net.mgr = some m ∧ m.up = false ∧ m.source = onlSource h ∧
      m.word = payWord q 1 ∧ s.now ≤ m.challenged + 1000000000 ∧ tagOf q = mgrTag m.key (onlBytes h) (unTagged q)) ∧
    (∃ (h : OnaderHeader) (p : List (BitVec 8)) (s : State) (m : MgrSes) (q : List Nat), q = p.map (fun b => b.toNat) ∧ payWord q 0 = 4 ∧
      onlClass h = clsMgr ∧ domainOn s 6 = true ∧ onlDiscards s h p.length = false ∧ mgrUp s = some m ∧ m.source = onlSource h ∧
      m.word = payWord q 1 ∧ tagOf q = mgrTag m.key (onlBytes h) (unTagged q) ∧ m.rxSeq.getD 0 ≤ payWord q 2) ∧
    (∃ (h : OnaderHeader) (p : List (BitVec 8)) (s : State) (m : MgrSes) (q : List Nat), q = p.map (fun b => b.toNat) ∧ payWord q 0 = 5 ∧
      onlClass h = clsMgr ∧ domainOn s 6 = true ∧ onlDiscards s h p.length = false ∧ mgrUp s = some m ∧ m.source = onlSource h ∧
      m.word = payWord q 1 ∧ tagOf q = mgrTag m.key (onlBytes h) (unTagged q)) ∧
    (∃ (h : OnaderHeader) (p : List (BitVec 8)) (s : State) (m : MgrSes) (q : List Nat), q = p.map (fun b => b.toNat) ∧ payWord q 0 = 6 ∧
      onlClass h = clsMgr ∧ domainOn s 6 = true ∧ onlDiscards s h p.length = false ∧ mgrUp s = some m ∧ m.source = onlSource h ∧
      m.word = payWord q 1 ∧ tagOf q = mgrTag m.key (onlBytes h) (unTagged q)) ∧
    (∃ (h : OnaderHeader) (p : List (BitVec 8)) (s : State) (m : MgrSes) (q : List Nat), q = p.map (fun b => b.toNat) ∧ payWord q 0 = 7 ∧
      onlClass h = clsMgr ∧ domainOn s 6 = true ∧ onlDiscards s h p.length = false ∧ mgrUp s = some m ∧ m.source = onlSource h ∧
      m.word = payWord q 1 ∧ tagOf q = mgrTag m.key (onlBytes h) (unTagged q) ∧ m.rxSeq.getD 0 ≤ payWord q 2) ∧
    (∃ (s : State) (m : MgrSes), mgrUp s = some m ∧ 1 ≤ m.tries ∧ m.tries ≤ 10) ∧
    (∃ (s : State) (m : MgrSes), mgrUp s = some m) :=
  ⟨⟨header 7 4, (0 : BitVec 128), [1, 0, 0, 0], base, by decide +kernel, by decide +kernel, by decide +kernel, by decide +kernel⟩,
   ⟨header 7 28, payload 3, managed ({ manager with up := false }), { manager with up := false }, tagged 3, payload_read 3, rfl,
    by decide +kernel, by decide +kernel, by rw [payload_length]; decide +kernel, by decide +kernel, by decide +kernel, by decide +kernel, rfl,
    by decide +kernel, tagged_tag 3⟩,
   ⟨header 7 28, payload 4, managed manager, manager, tagged 4, payload_read 4, rfl, by decide +kernel, by decide +kernel,
    by rw [payload_length]; decide +kernel, by decide +kernel, by decide +kernel, rfl, tagged_tag 4, by decide +kernel⟩,
   ⟨header 7 28, payload 5, managed manager, manager, tagged 5, payload_read 5, rfl, by decide +kernel, by decide +kernel,
    by rw [payload_length]; decide +kernel, by decide +kernel, by decide +kernel, rfl, tagged_tag 5⟩,
   ⟨header 7 28, payload 6, managed manager, manager, tagged 6, payload_read 6, rfl, by decide +kernel, by decide +kernel,
    by rw [payload_length]; decide +kernel, by decide +kernel, by decide +kernel, rfl, tagged_tag 6⟩,
   ⟨header 7 28, payload 7, managed manager, manager, tagged 7, payload_read 7, rfl, by decide +kernel, by decide +kernel,
    by rw [payload_length]; decide +kernel, by decide +kernel, by decide +kernel, rfl, tagged_tag 7, by decide +kernel⟩,
   ⟨managed ({ manager with tries := 10 }), { manager with tries := 10 }, by decide +kernel, by decide +kernel, by decide +kernel⟩,
   ⟨managed manager, manager, by decide +kernel⟩⟩

theorem test_NetworkCommandsComplete :
    (∃ (k : Fin 32) (m : Msg) (s : State), asked Op.NET_GET_INFO k m s = true) ∧
    (∃ (k : Fin 32) (m : Msg) (s : State), asked Op.NET_GET_PEERS k m s = true) ∧
    (∃ (k : Fin 32) (m : Msg) (s : State) (i : Nat), asked Op.NET_GET_GROUP k m s = true ∧ schedInForce s (bits (m.word 2) 15 0) = some i) ∧
    (∃ (k : Fin 32) (m : Msg) (s : State) (r : RxStream), asked Op.NET_GET_STREAM k m s = true ∧ rxStream s (bits (m.word 2) 15 0) = some r ∧
      Req.mayReadPolder s ⟨k, m⟩ r.polder = true) ∧
    (∃ (k : Fin 32) (m : Msg) (s : State) (p : Nat) (w : Nat) (n : Nat), asked Op.NET_SET_TX_STREAM k m s = true ∧ Req.polder ⟨k, m⟩ = some p ∧
      w = refWord ⟨k, m⟩ s 0 ∧ n = bits w 15 0 ∧ n ≠ 0 ∧ (s.net.tx.any (fun t => t.stream == n && t.polder != p)) = false ∧ bit w 16 = true ∧
      s.net.identity.isSome = true) ∧
    (∃ (k : Fin 32) (m : Msg) (s : State) (p : Nat) (w : Nat) (n : Nat), asked Op.NET_SET_RX_STREAM k m s = true ∧ Req.polder ⟨k, m⟩ = some p ∧
      w = refWord ⟨k, m⟩ s 0 ∧ n = bits w 15 0 ∧ n ≠ 0 ∧ bits (refWord ⟨k, m⟩ s 1) 25 16 ≤ 1000 ∧
      (s.net.rx.any (fun r => r.stream == n && r.polder != p)) = false ∧ bit w 22 = false) ∧
    (∃ (k : Fin 32) (m : Msg) (s : State) (r : RxStream), asked Op.NET_CLEAR_STREAM k m s = true ∧ rxStream s (bits (m.word 2) 15 0) = some r ∧
      Req.polder ⟨k, m⟩ = some r.polder) ∧
    (∃ (k : Fin 32) (m : Msg) (s : State) (w : Nat → Nat) (i : Identity), asked Op.NET_SET_IDENTITY k m s = true ∧ w = refWord ⟨k, m⟩ s ∧
      i = ⟨w 0, w 1, w 2, w 3, refAddr ⟨k, m⟩ s 16, refAddr ⟨k, m⟩ s 32⟩ ∧ w 0 ≤ 16383 ∧ w 1 ≤ 65535 ∧ w 2 ≤ 4094 ∧ s.net.identity = some i ∧
      ownDevice s = w 0) ∧
    (∃ (k : Fin 32) (m : Msg) (s : State) (p : Nat) (w : Nat), asked Op.NET_SET_PORT k m s = true ∧ p = bits (m.word 2) 2 0 ∧ w = m.word 3 ∧
      portSpeedOk p (bits w 3 1) = true ∧ bestMaster s = none ∧ rdB s (ONL_PORT_STAT_up p) = false ∧ bit w 5 = true) ∧
    (∃ (k : Fin 32) (m : Msg) (s : State) (s1 : State) (w : Nat) (hold : Nat), asked Op.NET_SET_PTP k m s = true ∧ w = m.word 2 ∧
      hold = bits w 27 16 ∧ 1 ≤ hold ∧ hold ≤ 3600 ∧ 1000 ≤ m.word 3 ∧ m.word 3 ≤ 1000000000 ∧ claimed s blkSwitch = false ∧
      s1 = wr ONL_PTP_STEP_TH_ns (m.word 3) (wr ONL_PTP_CFG_holdover hold (wr ONL_PTP_CFG_domain (bits w 15 8) (wr ONL_PTP_CFG_p2p (bits w 2 2) (wr ONL_PTP_CFG_mode (bits w 1 0) (taken k s)))))) ∧
    (∃ (k : Fin 32) (m : Msg) (s : State) (w : Nat → Nat) (sa : MacsecSa), asked Op.NET_SET_MACSEC k m s = true ∧ w = refWord ⟨k, m⟩ s ∧ w 0 ≤ 5 ∧
      w 1 ≤ 3 ∧ w 2 ≤ 1 ∧ sa = ⟨w 0, readNat s (Req.bufAddr ⟨k, m⟩ + 16) 8, w 1, w 2, readBytes s (Req.bufAddr ⟨k, m⟩ + 32) 32,
      readNat s (Req.bufAddr ⟨k, m⟩ + 24) 8⟩) ∧
    (∃ (k : Fin 32) (m : Msg) (s : State) (w : Nat → Nat) (g : GateList), asked Op.NET_SET_QBV k m s = true ∧ w = refWord ⟨k, m⟩ s ∧ w 0 ≤ 5 ∧
      1 ≤ w 1 ∧ w 1 ≤ 256 ∧ w 4 ≠ 0 ∧ 24 + 8 * w 1 ≤ Req.bufSize ⟨k, m⟩ ∧ g = ⟨readNat s (Req.bufAddr ⟨k, m⟩ + 8) 8, w 4,
      (List.range (w 1)).map (fun i => (w (6 + 2 * i) % 256, w (7 + 2 * i)))⟩) ∧
    (∃ (k : Fin 32) (m : Msg) (s : State) (g : Nat) (rate : Nat) (effective : Nat) (i : Nat), asked Op.NET_SET_GROUP k m s = true ∧
      g = bits (m.word 2) 15 0 ∧ rate = m.word 3 ∧ effective = m.word 6 + 4294967296 * m.word 7 ∧ bit (m.word 2) 17 = false ∧ 1000 ≤ rate ∧
      rate ≤ 240000 ∧ m.word 4 * rate < 1000000000000 ∧ m.word 5 ≤ 10000000 ∧ foreignOwner s g = false ∧ s.devTime + 100000000 ≤ effective ∧
      groupPlace s g = some i) ∧
    (∃ (k : Fin 32) (m : Msg) (s : State), asked Op.NET_SET_EXPORT k m s = true ∧ s.net.identity.isSome = true) ∧
    (∃ (k : Fin 32) (m : Msg) (s : State), asked Op.NET_SET_MGR_KEY k m s = true) :=
  ⟨⟨(0 : Fin 32), msg Op.NET_GET_INFO [], asking 0 (msg Op.NET_GET_INFO []) (base), by decide +kernel⟩,
   ⟨(0 : Fin 32), refMsg Op.NET_GET_PEERS 0x40000000 32, asking 0 (refMsg Op.NET_GET_PEERS 0x40000000 32) (base), by decide +kernel⟩,
   ⟨(0 : Fin 32), msg Op.NET_GET_GROUP [65535], asking 0 (msg Op.NET_GET_GROUP [65535]) (regs [(ONL_GRP_ID_valid 7, 1), (ONL_GRP_ID_group 7,
    65535)] base), 7, by decide +kernel, by decide +kernel⟩,
   ⟨(0 : Fin 32), msg Op.NET_GET_STREAM [65535], asking 0 (msg Op.NET_GET_STREAM [65535]) ({ base with net := { base.net with rx := [rx0] } }),
    rx0, by decide +kernel, by decide +kernel, by decide +kernel⟩,
   ⟨(0 : Fin 32), refMsg Op.NET_SET_TX_STREAM 0x40000000 32,
    asking 0 (refMsg Op.NET_SET_TX_STREAM 0x40000000 32) (words 0x40000000 [65535 + 65536] identified), (Req.polder ⟨((0 : Fin 32)),
    (refMsg Op.NET_SET_TX_STREAM 0x40000000 32)⟩).getD 0, refWord ⟨((0 : Fin 32)),
    (refMsg Op.NET_SET_TX_STREAM 0x40000000 32)⟩ (asking 0 (refMsg Op.NET_SET_TX_STREAM 0x40000000 32) (words 0x40000000 [65535 + 65536] identified)) 0,
    bits (refWord ⟨((0 : Fin 32)),
    (refMsg Op.NET_SET_TX_STREAM 0x40000000 32)⟩ (asking 0 (refMsg Op.NET_SET_TX_STREAM 0x40000000 32) (words 0x40000000 [65535 + 65536] identified)) 0) 15 0,
    by decide +kernel, by decide +kernel, rfl, rfl, by decide +kernel, by decide +kernel, by decide +kernel, by decide +kernel⟩,
   ⟨(0 : Fin 32), refMsg Op.NET_SET_RX_STREAM 0x40000000 36, asking 0 (refMsg Op.NET_SET_RX_STREAM 0x40000000 36) (words 0x40000000 [65535,
    1000 * 65536] identified), (Req.polder ⟨((0 : Fin 32)), (refMsg Op.NET_SET_RX_STREAM 0x40000000 36)⟩).getD 0, refWord ⟨((0 : Fin 32)),
    (refMsg Op.NET_SET_RX_STREAM 0x40000000 36)⟩ (asking 0 (refMsg Op.NET_SET_RX_STREAM 0x40000000 36) (words 0x40000000 [65535,
    1000 * 65536] identified)) 0, bits (refWord ⟨((0 : Fin 32)),
    (refMsg Op.NET_SET_RX_STREAM 0x40000000 36)⟩ (asking 0 (refMsg Op.NET_SET_RX_STREAM 0x40000000 36) (words 0x40000000 [65535,
    1000 * 65536] identified)) 0) 15 0, by decide +kernel, by decide +kernel, rfl, rfl, by decide +kernel, by decide +kernel, by decide +kernel,
    by decide +kernel⟩,
   ⟨(0 : Fin 32), msg Op.NET_CLEAR_STREAM [65535],
    asking 0 (msg Op.NET_CLEAR_STREAM [65535]) ({ base with net := { base.net with rx := [rx0] } }), rx0, by decide +kernel, by decide +kernel,
    by decide +kernel⟩,
   ⟨(0 : Fin 32), refMsg Op.NET_SET_IDENTITY 0x40000000 64,
    asking 0 (refMsg Op.NET_SET_IDENTITY 0x40000000 64) (words 0x40000000 [16383] identified), refWord ⟨((0 : Fin 32)),
    (refMsg Op.NET_SET_IDENTITY 0x40000000 64)⟩ (asking 0 (refMsg Op.NET_SET_IDENTITY 0x40000000 64) (words 0x40000000 [16383] identified)),
    ⟨16383, 0, 0, 0, 0, 0⟩, by decide +kernel, rfl, by decide +kernel, by decide +kernel, by decide +kernel, by decide +kernel, by decide +kernel,
    by decide +kernel⟩,
   ⟨(0 : Fin 32), msg Op.NET_SET_PORT [5, 7 + 32], asking 0 (msg Op.NET_SET_PORT [5, 7 + 32]) (base), bits ((msg Op.NET_SET_PORT [5,
    7 + 32]).word 2) 2 0, (msg Op.NET_SET_PORT [5, 7 + 32]).word 3, by decide +kernel, rfl, rfl, by decide +kernel, by decide +kernel,
    by decide +kernel, by decide +kernel⟩,
   ⟨(0 : Fin 32), msg Op.NET_SET_PTP [3600 * 65536, 1000000000], asking 0 (msg Op.NET_SET_PTP [3600 * 65536, 1000000000]) (base),
    wr ONL_PTP_STEP_TH_ns ((msg Op.NET_SET_PTP [3600 * 65536,
    1000000000]).word 3) (wr ONL_PTP_CFG_holdover (bits ((msg Op.NET_SET_PTP [3600 * 65536,
    1000000000]).word 2) 27 16) (wr ONL_PTP_CFG_domain (bits ((msg Op.NET_SET_PTP [3600 * 65536,
    1000000000]).word 2) 15 8) (wr ONL_PTP_CFG_p2p (bits ((msg Op.NET_SET_PTP [3600 * 65536,
    1000000000]).word 2) 2 2) (wr ONL_PTP_CFG_mode (bits ((msg Op.NET_SET_PTP [3600 * 65536,
    1000000000]).word 2) 1 0) (taken ((0 : Fin 32)) (asking 0 (msg Op.NET_SET_PTP [3600 * 65536, 1000000000]) (base))))))),
    (msg Op.NET_SET_PTP [3600 * 65536, 1000000000]).word 2, bits ((msg Op.NET_SET_PTP [3600 * 65536, 1000000000]).word 2) 27 16,
    by decide +kernel, rfl, rfl, by decide +kernel, by decide +kernel, by decide +kernel, by decide +kernel, by decide +kernel, rfl⟩,
   ⟨(0 : Fin 32), refMsg Op.NET_SET_MACSEC 0x40000000 64, asking 0 (refMsg Op.NET_SET_MACSEC 0x40000000 64) (words 0x40000000 [5, 3, 1] base),
    refWord ⟨((0 : Fin 32)), (refMsg Op.NET_SET_MACSEC 0x40000000 64)⟩ (asking 0 (refMsg Op.NET_SET_MACSEC 0x40000000 64) (words 0x40000000 [5, 3,
    1] base)), ⟨(refWord ⟨((0 : Fin 32)),
    (refMsg Op.NET_SET_MACSEC 0x40000000 64)⟩ (asking 0 (refMsg Op.NET_SET_MACSEC 0x40000000 64) (words 0x40000000 [5, 3, 1] base))) 0,
    readNat (asking 0 (refMsg Op.NET_SET_MACSEC 0x40000000 64) (words 0x40000000 [5, 3, 1] base)) (Req.bufAddr ⟨((0 : Fin 32)),
    (refMsg Op.NET_SET_MACSEC 0x40000000 64)⟩ + 16) 8, (refWord ⟨((0 : Fin 32)),
    (refMsg Op.NET_SET_MACSEC 0x40000000 64)⟩ (asking 0 (refMsg Op.NET_SET_MACSEC 0x40000000 64) (words 0x40000000 [5, 3, 1] base))) 1,
    (refWord ⟨((0 : Fin 32)), (refMsg Op.NET_SET_MACSEC 0x40000000 64)⟩ (asking 0 (refMsg Op.NET_SET_MACSEC 0x40000000 64) (words 0x40000000 [5,
    3, 1] base))) 2, readBytes (asking 0 (refMsg Op.NET_SET_MACSEC 0x40000000 64) (words 0x40000000 [5, 3, 1] base)) (Req.bufAddr ⟨((0 : Fin 32)),
    (refMsg Op.NET_SET_MACSEC 0x40000000 64)⟩ + 32) 32, readNat (asking 0 (refMsg Op.NET_SET_MACSEC 0x40000000 64) (words 0x40000000 [5, 3,
    1] base)) (Req.bufAddr ⟨((0 : Fin 32)), (refMsg Op.NET_SET_MACSEC 0x40000000 64)⟩ + 24) 8⟩, by decide +kernel, rfl, by decide +kernel,
    by decide +kernel, by decide +kernel, rfl⟩,
   ⟨(0 : Fin 32), refMsg Op.NET_SET_QBV 0x40000000 32, asking 0 (refMsg Op.NET_SET_QBV 0x40000000 32) (words 0x40000000 [5, 1, 0, 0, 1, 0, 0,
    1] base), refWord ⟨((0 : Fin 32)),
    (refMsg Op.NET_SET_QBV 0x40000000 32)⟩ (asking 0 (refMsg Op.NET_SET_QBV 0x40000000 32) (words 0x40000000 [5, 1, 0, 0, 1, 0, 0, 1] base)),
    ⟨readNat (asking 0 (refMsg Op.NET_SET_QBV 0x40000000 32) (words 0x40000000 [5, 1, 0, 0, 1, 0, 0, 1] base)) (Req.bufAddr ⟨((0 : Fin 32)),
    (refMsg Op.NET_SET_QBV 0x40000000 32)⟩ + 8) 8, (refWord ⟨((0 : Fin 32)),
    (refMsg Op.NET_SET_QBV 0x40000000 32)⟩ (asking 0 (refMsg Op.NET_SET_QBV 0x40000000 32) (words 0x40000000 [5, 1, 0, 0, 1, 0, 0, 1] base))) 4,
    (List.range ((refWord ⟨((0 : Fin 32)),
    (refMsg Op.NET_SET_QBV 0x40000000 32)⟩ (asking 0 (refMsg Op.NET_SET_QBV 0x40000000 32) (words 0x40000000 [5, 1, 0, 0, 1, 0, 0,
    1] base))) 1)).map (fun i => ((refWord ⟨((0 : Fin 32)),
    (refMsg Op.NET_SET_QBV 0x40000000 32)⟩ (asking 0 (refMsg Op.NET_SET_QBV 0x40000000 32) (words 0x40000000 [5, 1, 0, 0, 1, 0, 0,
    1] base))) (6 + 2 * i) % 256, (refWord ⟨((0 : Fin 32)),
    (refMsg Op.NET_SET_QBV 0x40000000 32)⟩ (asking 0 (refMsg Op.NET_SET_QBV 0x40000000 32) (words 0x40000000 [5, 1, 0, 0, 1, 0, 0,
    1] base))) (7 + 2 * i)))⟩, by decide +kernel, rfl, by decide +kernel, by decide +kernel, by decide +kernel, by decide +kernel,
    by decide +kernel, rfl⟩,
   ⟨(0 : Fin 32), msg Op.NET_SET_GROUP [65535, 240000, 0, 10000000, 0x10000000, 0], asking 0 (msg Op.NET_SET_GROUP [65535, 240000, 0, 10000000,
    0x10000000, 0]) (base), bits ((msg Op.NET_SET_GROUP [65535, 240000, 0, 10000000, 0x10000000, 0]).word 2) 15 0, (msg Op.NET_SET_GROUP [65535,
    240000, 0, 10000000, 0x10000000, 0]).word 3, (msg Op.NET_SET_GROUP [65535, 240000, 0, 10000000, 0x10000000,
    0]).word 6 + 4294967296 * (msg Op.NET_SET_GROUP [65535, 240000, 0, 10000000, 0x10000000, 0]).word 7, 0, by decide +kernel, rfl, rfl, rfl,
    by decide +kernel, by decide +kernel, by decide +kernel, by decide +kernel, by decide +kernel, by decide +kernel, by decide +kernel,
    by decide +kernel⟩,
   ⟨(0 : Fin 32), refMsg Op.NET_SET_EXPORT 0x40000000 32, asking 0 (refMsg Op.NET_SET_EXPORT 0x40000000 32) (identified), by decide +kernel,
    by decide +kernel⟩,
   ⟨(0 : Fin 32), msg Op.NET_SET_MGR_KEY [], asking 0 (msg Op.NET_SET_MGR_KEY []) (base), by decide +kernel⟩⟩

theorem test_RecorderComplete :
    (∃ (c : Fin 4096) (s : State) (s1 : State) (w : Weir), w = weirOf s c ∧ w.mode = 1 ∧ w.count ≠ 0 ∧ w.rate ≠ 0 ∧ s.evr.started = true ∧
      s1 = advanceDevice 8 (w.last + (weirOne - w.level + w.rate - 1) / w.rate) s) ∧
    (∃ (s : State), s.evr.frozen = true) ∧
    (∃ (s : State), s.evr.archive.isSet = true ∧ max 1 (Config.archiveRecords s.evr.archive.medium) ≤ s.evr.archive.waiting.length) ∧
    (∃ (k : Fin 32) (m : Msg) (s : State), asked Op.EVR_GET_INFO k m s = true) ∧
    (∃ (k : Fin 32) (m : Msg) (s : State) (n : Nat) (rs : List EvRec) (r : EvRec), asked Op.EVR_READ k m s = true ∧ n = readNat s (Req.bufAddr ⟨k,
      m⟩ + 4) 4 ∧ 1 ≤ n ∧ n ≤ 65536 ∧ rs = ((ringFrom s (readNat s (Req.bufAddr ⟨k, m⟩) 4)).filter (fun r => sees (taken k s) ⟨k,
      m⟩ r.polder r.secure)).take (min n ((Req.bufSize ⟨k, m⟩ - 32) / 32)) ∧ rs.head? = some r) ∧
    (∃ (k : Fin 32) (m : Msg) (s : State) (w : Weir), asked Op.EVR_GET_WEIR k m s = true ∧ w = weirOf s (bits (m.word 2) 11 0)) ∧
    (∃ (k : Fin 32) (m : Msg) (s : State) (c : Nat) (mode : Nat) (rate : Nat) (burst : Nat), asked Op.EVR_SET_WEIR k m s = true ∧
      c = bits (m.word 2) 11 0 ∧ mode = bits (m.word 2) 13 12 ∧ rate = bits (m.word 3) 15 0 ∧ burst = bits (m.word 3) 23 16 ∧
      protectedCode c = false ∧ mode ≠ 3 ∧ ((mode = 1 → 1 ≤ rate ∧ 1 ≤ burst))) ∧
    (∃ (k : Fin 32) (m : Msg) (s : State) (c : Nat) (mode : Nat) (rate : Nat) (burst : Nat), asked Op.EVR_SET_SECURE_WEIR k m s = true ∧
      c = bits (m.word 2) 11 0 ∧ mode = bits (m.word 2) 13 12 ∧ rate = bits (m.word 3) 15 0 ∧ burst = bits (m.word 3) 23 16 ∧
      (mode = 0 ∨ mode = 1) ∧ ((mode = 1 → 1 ≤ rate ∧ 1 ≤ burst))) ∧
    (∃ (k : Fin 32) (m : Msg) (s : State) (ms : Nat), asked Op.EVR_FREEZE k m s = true ∧ bit (m.word 2) 0 = true ∧ ms = bits (m.word 2) 29 16 ∧
      1 ≤ ms ∧ ms ≤ 10000 ∧ s.evr.frozen = false) ∧
    (∃ (k : Fin 32) (m : Msg) (s : State), asked Op.EVR_FREEZE k m s = true ∧ bit (m.word 2) 0 = false ∧ s.evr.frozen = true) ∧
    (∃ (k : Fin 32) (m : Msg) (s : State) (s1 : State), asked Op.EVR_SNAPSHOT k m s = true ∧ s.evr.frozen = false ∧ s1 = freeze 1 1 (taken k s)) ∧
    (∃ (k : Fin 32) (m : Msg) (s : State) (w : Nat → Nat), asked Op.EVR_SET_ARCHIVE k m s = true ∧ w = (fun i => readNat s (Req.bufAddr ⟨k,
      m⟩ + 4 * i) 4) ∧ w 0 ≤ 1 ∧ 1 ≤ w 2 ∧ w 3 ≤ 15 ∧ ((w 0 = 0 → w 1 + w 2 ≤ 0x20000000))) ∧
    (∃ (k : Fin 32) (m : Msg) (s : State), asked Op.EVR_SET_VAULT_SEV k m s = true) :=
  ⟨⟨(4095 : Fin 4096), setWeir 4095 weir1 base,
    advanceDevice 8 (weir1.last + (weirOne - weir1.level + weir1.rate - 1) / weir1.rate) (setWeir 4095 weir1 base), weir1, by decide +kernel,
    by decide +kernel, by decide +kernel, by decide +kernel, by decide +kernel, rfl⟩,
   ⟨{ base with evr := { base.evr with frozen := true } }, by decide +kernel⟩,
   ⟨archived, by decide +kernel,
    by rw [show archived.evr.archive.waiting = List.replicate (max 1 (Config.archiveRecords 0)) record1 from rfl, List.length_replicate]; exact Nat.le_refl _⟩,
   ⟨(0 : Fin 32), msg Op.EVR_GET_INFO [], asking 0 (msg Op.EVR_GET_INFO []) (base), by decide +kernel⟩,
   ⟨(0 : Fin 32), refMsg Op.EVR_READ 0x40000000 64, asking 0 (refMsg Op.EVR_READ 0x40000000 64) (words 0x40000000 [1,
    65536] { base with evr := { base.evr with ring := [record1], next := 2 } }),
    readNat (asking 0 (refMsg Op.EVR_READ 0x40000000 64) (words 0x40000000 [1,
    65536] { base with evr := { base.evr with ring := [record1], next := 2 } })) (Req.bufAddr ⟨((0 : Fin 32)),
    (refMsg Op.EVR_READ 0x40000000 64)⟩ + 4) 4,
    (let k : Fin 32 := (0 : Fin 32); let m : Msg := refMsg Op.EVR_READ 0x40000000 64; let s : State := asking 0 (refMsg Op.EVR_READ 0x40000000 64) (words 0x40000000 [1, 65536] { base with evr := { base.evr with ring := [record1], next := 2 } }); let n : Nat := readNat (asking 0 (refMsg Op.EVR_READ 0x40000000 64) (words 0x40000000 [1, 65536] { base with evr := { base.evr with ring := [record1], next := 2 } })) (Req.bufAddr ⟨((0 : Fin 32)), (refMsg Op.EVR_READ 0x40000000 64)⟩ + 4) 4; let r : EvRec := record1; ((ringFrom s (readNat s (Req.bufAddr ⟨k, m⟩) 4)).filter (fun r => sees (taken k s) ⟨k, m⟩ r.polder r.secure)).take (min n ((Req.bufSize ⟨k, m⟩ - 32) / 32))),
    record1, by decide +kernel, rfl, by decide +kernel, by decide +kernel, rfl, by decide +kernel⟩,
   ⟨(0 : Fin 32), msg Op.EVR_GET_WEIR [], asking 0 (msg Op.EVR_GET_WEIR []) (base),
    weirOf (asking 0 (msg Op.EVR_GET_WEIR []) (base)) (bits ((msg Op.EVR_GET_WEIR []).word 2) 11 0), by decide +kernel, rfl⟩,
   ⟨(0 : Fin 32), msg Op.EVR_SET_WEIR [], asking 0 (msg Op.EVR_SET_WEIR []) (base), bits ((msg Op.EVR_SET_WEIR []).word 2) 11 0,
    bits ((msg Op.EVR_SET_WEIR []).word 2) 13 12, bits ((msg Op.EVR_SET_WEIR []).word 3) 15 0, bits ((msg Op.EVR_SET_WEIR []).word 3) 23 16,
    by decide +kernel, rfl, rfl, rfl, rfl, by decide +kernel, by decide +kernel, by decide +kernel⟩,
   ⟨(0 : Fin 32), msg Op.EVR_SET_SECURE_WEIR [], asking 0 (msg Op.EVR_SET_SECURE_WEIR []) (base),
    bits ((msg Op.EVR_SET_SECURE_WEIR []).word 2) 11 0, bits ((msg Op.EVR_SET_SECURE_WEIR []).word 2) 13 12,
    bits ((msg Op.EVR_SET_SECURE_WEIR []).word 3) 15 0, bits ((msg Op.EVR_SET_SECURE_WEIR []).word 3) 23 16, by decide +kernel, rfl, rfl, rfl,
    rfl, by decide +kernel, by decide +kernel⟩,
   ⟨(0 : Fin 32), msg Op.EVR_FREEZE [1 + 65536 * 10000], asking 0 (msg Op.EVR_FREEZE [1 + 65536 * 10000]) (base),
    bits ((msg Op.EVR_FREEZE [1 + 65536 * 10000]).word 2) 29 16, by decide +kernel, by decide +kernel, rfl, by decide +kernel, by decide +kernel,
    by decide +kernel⟩,
   ⟨(0 : Fin 32), msg Op.EVR_FREEZE [0], asking 0 (msg Op.EVR_FREEZE [0]) ({ base with evr := { base.evr with frozen := true } }),
    by decide +kernel, by decide +kernel, by decide +kernel⟩,
   ⟨(0 : Fin 32), refMsg Op.EVR_SNAPSHOT 0x1000000000 2097152, asking 0 (refMsg Op.EVR_SNAPSHOT 0x1000000000 2097152) (dram),
    freeze 1 1 (taken ((0 : Fin 32)) (asking 0 (refMsg Op.EVR_SNAPSHOT 0x1000000000 2097152) (dram))), by decide +kernel, by decide +kernel, rfl⟩,
   ⟨(0 : Fin 32), refMsg Op.EVR_SET_ARCHIVE 0x40000000 16, asking 0 (refMsg Op.EVR_SET_ARCHIVE 0x40000000 16) (words 0x40000000 [0, 0x1FFFFFFF, 1,
    15] base), (fun i => readNat (asking 0 (refMsg Op.EVR_SET_ARCHIVE 0x40000000 16) (words 0x40000000 [0, 0x1FFFFFFF, 1,
    15] base)) (Req.bufAddr ⟨((0 : Fin 32)), (refMsg Op.EVR_SET_ARCHIVE 0x40000000 16)⟩ + 4 * i) 4), by decide +kernel, rfl, by decide +kernel,
    by decide +kernel, by decide +kernel, by decide +kernel⟩,
   ⟨(0 : Fin 32), msg Op.EVR_SET_VAULT_SEV [], asking 0 (msg Op.EVR_SET_VAULT_SEV []) (base), by decide +kernel⟩⟩

theorem test_VaultComplete :
    (∃ (s : State) (r : EvRec) (t : List EvRec), s.vlt.isolated = false ∧ s.evr.vaultQ = r :: t) ∧
    (∃ (a : Access) (addr : BitVec 40) (v : BitVec 32) (s : State), admitted a addr.toNat v.toNat s = true ∧ addr.toNat = 0x20050020 ∧
      bit v.toNat 0 = true ∧ bit v.toNat 2 = false ∧ s.vlt.isolated = false ∧ s.vlt.sync = none) ∧
    (∃ (s : State) (ws : List Nat) (b : Bool) (x : MeterBank), s.vlt.sync = some ws ∧ newestBank s.vlt = some b ∧
      x = MeterBank.sealed (wrapAdd 32 (bankOf s.vlt b).gen 1) (copied s.free ws (shadowWords s))) ∧
    (∃ (a : Access) (addr : BitVec 40) (v : BitVec 32) (s : State), admitted a addr.toNat v.toNat s = true ∧ addr.toNat = 0x200500A0 ∧
      vltMay (carried s a addr.toNat) (bits v.toNat 2 0) = true) ∧
    (∃ (a : Access) (addr : BitVec 40) (v : BitVec 32) (s : State), admitted a addr.toNat v.toNat s = true ∧ addr.toNat = 0x20050320 ∧
      bit v.toNat 31 = true ∧ vltMay (carried s a addr.toNat) (bits v.toNat 2 0) = true) ∧
    (∃ (pins : BitVec 4) (s : State) (s1 : State) (s2 : State), s1 = advanceTo (Tab.get 0 s.pumpLast 200 + 250000000) s ∧
      s2 = { s1 with pumpLast := s1.pumpLast.put 200 s1.now }) ∧
    (∃ (mv : BitVec 12) (s : State) (s1 : State), 2200 ≤ mv.toNat ∧ s1 = advanceTo (Tab.get 0 s.pumpLast 201 + 3600000000000) s) ∧
    (∃ (mv : BitVec 12) (s : State) (s1 : State), mv.toNat < 2200 ∧ s1 = advanceTo (Tab.get 0 s.pumpLast 201 + 3600000000000) s) ∧
    (∃ (s : State) (s1 : State) (s2 : State), s.vlt.pf = none ∧ s.pwr.off = 0 ∧
      s1 = cntInc 1 (wr VLT_STAT_pf_active 1 (setVlt (fun v => { v with pf := some s.now }) s)) ∧
      s2 = record0 Src.VLT_PWRFAIL none [s1.vlt.counters.getD 1 0] { s1 with pwr := { s1.pwr with trans := none } }) ∧
    (∃ (k : Fin 32) (m : Msg) (s : State), asked Op.VLT_GET_STATUS k m s = true) ∧
    (∃ (k : Fin 32) (m : Msg) (s : State), asked Op.VLT_GET_CRITICAL k m s = true) ∧
    (∃ (k : Fin 32) (m : Msg) (s : State), asked Op.VLT_SET_TAMPER k m s = true) ∧
    (∃ (k : Fin 32) (m : Msg) (s : State), asked Op.VLT_SET_RTC k m s = true) ∧
    (∃ (k : Fin 32) (m : Msg) (s : State) (b : Bool), asked Op.VLT_GET_METERS k m s = true ∧ newestBank s.vlt = some b) ∧
    (∃ (k : Fin 32) (m : Msg) (s : State), asked Op.VLT_GET_METERS k m s = true ∧ newestBank s.vlt = none) :=
  ⟨⟨{ base with evr := { base.evr with vaultQ := [record1] } }, record1, [], by decide +kernel, by decide +kernel⟩,
   ⟨tujan, (0x20050020 : BitVec 40), (1 : BitVec 32), base, by decide +kernel, by decide +kernel, by decide +kernel, by decide +kernel,
    by decide +kernel, by decide +kernel⟩,
   ⟨banked, [], false, MeterBank.sealed (wrapAdd 32 (bankOf banked.vlt false).gen 1) (copied banked.free ([]) (shadowWords banked)),
    by decide +kernel, banked_newest, rfl⟩,
   ⟨core1, (0x200500A0 : BitVec 40), (7 : BitVec 32), withHart hart0 base, by decide +kernel, by decide +kernel, by decide +kernel⟩,
   ⟨core1, (0x20050320 : BitVec 40), (0x80000007 : BitVec 32), withHart hart0 base, by decide +kernel, by decide +kernel, by decide +kernel,
    by decide +kernel⟩,
   ⟨(0 : BitVec 4), base, advanceTo (Tab.get 0 base.pumpLast 200 + 250000000) base,
    { (advanceTo (Tab.get 0 base.pumpLast 200 + 250000000) base) with pumpLast := (advanceTo (Tab.get 0 base.pumpLast 200 + 250000000) base).pumpLast.put 200 (advanceTo (Tab.get 0 base.pumpLast 200 + 250000000) base).now },
    rfl, rfl⟩,
   ⟨(2200 : BitVec 12), base, advanceTo (Tab.get 0 base.pumpLast 201 + 3600000000000) base, by decide +kernel, rfl⟩,
   ⟨(0 : BitVec 12), base, advanceTo (Tab.get 0 base.pumpLast 201 + 3600000000000) base, by decide +kernel, rfl⟩,
   ⟨base, cntInc 1 (wr VLT_STAT_pf_active 1 (setVlt (fun v => { v with pf := some base.now }) base)),
    record0 Src.VLT_PWRFAIL none [(cntInc 1 (wr VLT_STAT_pf_active 1 (setVlt (fun v => { v with pf := some base.now }) base))).vlt.counters.getD 1 0] { (cntInc 1 (wr VLT_STAT_pf_active 1 (setVlt (fun v => { v with pf := some base.now }) base))) with pwr := { (cntInc 1 (wr VLT_STAT_pf_active 1 (setVlt (fun v => { v with pf := some base.now }) base))).pwr with trans := none } },
    by decide +kernel, by decide +kernel, rfl, rfl⟩,
   ⟨(0 : Fin 32), msg Op.VLT_GET_STATUS [], asking 0 (msg Op.VLT_GET_STATUS []) (base), by decide +kernel⟩,
   ⟨(0 : Fin 32), refMsg Op.VLT_GET_CRITICAL 0x40000000 3072, asking 0 (refMsg Op.VLT_GET_CRITICAL 0x40000000 3072) (base), by decide +kernel⟩,
   ⟨(0 : Fin 32), msg Op.VLT_SET_TAMPER [], asking 0 (msg Op.VLT_SET_TAMPER []) (base), by decide +kernel⟩,
   ⟨(0 : Fin 32), msg Op.VLT_SET_RTC [], asking 0 (msg Op.VLT_SET_RTC []) (base), by decide +kernel⟩,
   ⟨(0 : Fin 32), refMsg Op.VLT_GET_METERS 0x40000000 512, asking 0 (refMsg Op.VLT_GET_METERS 0x40000000 512) (banked), false, by decide +kernel,
    banked_newest⟩,
   test_VaultComplete_14⟩

theorem test_CheckValueComplete :
    (∃ (a : Access) (c : Fin 8) (addr : BitVec 40) (v : BitVec 32) (s : State), admitted a addr.toNat v.toNat s = true ∧
      addr.toNat = 0x20040050 + 0x100 * c.val ∧ bit v.toNat 0 = true ∧ bit v.toNat 1 = false ∧ cvuJob s c = none) ∧
    (∃ (a : Access) (c : Fin 8) (addr : BitVec 40) (v : BitVec 32) (s : State) (j : CvuJob), admitted a addr.toNat v.toNat s = true ∧
      addr.toNat = 0x20040050 + 0x100 * c.val ∧ bit v.toNat 0 = false ∧ bit v.toNat 1 = true ∧ cvuJob s c = some j) ∧
    (∃ (c : Fin 8) (s : State) (s1 : State) (j : CvuJob) (bs : List Nat), cvuJob s c = some j ∧ j.abort = false ∧
      rd s (POL_SHARE_cvu (cvuHolder s c)) ≠ 0 ∧ cvuScan (cvuHolder s c) j.addr j.len (tookFree s) = (0, bs, s1)) ∧
    (∃ (c : Fin 8) (s : State) (s1 : State) (j : CvuJob) (e : Nat) (bs : List Nat), cvuJob s c = some j ∧ j.abort = false ∧
      rd s (POL_SHARE_cvu (cvuHolder s c)) ≠ 0 ∧ e ≠ 0 ∧ cvuScan (cvuHolder s c) j.addr j.len (tookFree s) = (e, bs, s1)) ∧
    (∃ (k : Fin 32) (m : Msg) (s : State) (c : Nat), asked Op.CVU_GET_CHANNEL k m s = true ∧ c = bits (m.word 2) 2 0 ∧ Req.mayReadPolder s ⟨k,
      m⟩ (cvuHolder s c) = true) ∧
    (∃ (k : Fin 32) (m : Msg) (s : State) (s1 : State) (c : Nat), asked Op.CVU_RUN k m s = true ∧ c = readNat s (Req.bufAddr ⟨k, m⟩) 4 ∧ c < 8 ∧
      Req.polder ⟨k, m⟩ = some (cvuHolder s c) ∧ cvuJob s c = none ∧ s1 = putDescriptor c (readBytes s (Req.bufAddr ⟨k, m⟩ + 4) 80) (taken k s) ∧
      (cvuFromRegs s1 c).bad = 0) ∧
    (∃ (k : Fin 32) (m : Msg) (s : State) (c : Nat), asked Op.CVU_SAVE k m s = true ∧ c = bits (m.word 2) 2 0 ∧ Req.polder ⟨k,
      m⟩ = some (cvuHolder s c) ∧ cvuJob s c = none) ∧
    (∃ (k : Fin 32) (m : Msg) (s : State) (c : Nat), asked Op.CVU_LOAD k m s = true ∧ c = bits (m.word 2) 2 0 ∧ Req.polder ⟨k,
      m⟩ = some (cvuHolder s c) ∧ cvuJob s c = none) ∧
    (∃ (k : Fin 32) (m : Msg) (s : State) (c : Nat), asked Op.CVU_SET_KEY k m s = true ∧ c = bits (m.word 2) 2 0 ∧ Req.polder ⟨k,
      m⟩ = some (cvuHolder s c) ∧ cvuJob s c = none) ∧
    (∃ (k : Fin 32) (m : Msg) (s : State) (c : Nat) (j : CvuJob), asked Op.CVU_ABORT k m s = true ∧ c = bits (m.word 2) 2 0 ∧ Req.polder ⟨k,
      m⟩ = some (cvuHolder s c) ∧ cvuJob s c = some j) ∧
    (∃ (k : Fin 32) (m : Msg) (s : State) (n : Nat) (offset : Nat) (len : Nat) (medium : Nat) (c : Nat), asked Op.CVU_FIELD_CHECK k m s = true ∧
      n = bits (m.word 2) 5 0 ∧ medium = bits (m.word 2) 8 8 ∧ offset = m.word 11 + 4294967296 * m.word 12 ∧
      len = m.word 13 + 4294967296 * m.word 14 ∧ 1 ≤ n ∧ n ≤ 32 ∧ 1 ≤ len ∧ ((medium = 0 → offset + len ≤ 0x20000000)) ∧ fieldChannel s = some c) :=
  ⟨⟨core1, (7 : Fin 8), (0x20040750 : BitVec 40), (1 : BitVec 32), withHart hart0 base, by decide +kernel, by decide +kernel, by decide +kernel,
    by decide +kernel, by decide +kernel⟩,
   ⟨core1, (7 : Fin 8), (0x20040750 : BitVec 40), (2 : BitVec 32), withHart hart0 (running0 job0), job0, by decide +kernel, by decide +kernel,
    by decide +kernel, by decide +kernel, by decide +kernel⟩,
   ⟨(7 : Fin 8), running0 job0, (cvuScan 0 0x40000000 64 (tookFree (running0 job0))).2.2, job0, List.replicate 64 0, by decide +kernel,
    by decide +kernel, by decide +kernel, by decide +kernel⟩,
   ⟨(7 : Fin 8), running0 job1, (cvuScan 0 0x30000000 64 (tookFree (running0 job1))).2.2, job1,
    (cvuScan 0 0x30000000 64 (tookFree (running0 job1))).1, [], by decide +kernel, by decide +kernel, by decide +kernel, by decide +kernel,
    by decide +kernel⟩,
   ⟨(0 : Fin 32), msg Op.CVU_GET_CHANNEL [], asking 0 (msg Op.CVU_GET_CHANNEL []) (base), bits ((msg Op.CVU_GET_CHANNEL []).word 2) 2 0,
    by decide +kernel, rfl, by decide +kernel⟩,
   ⟨(0 : Fin 32), refMsg Op.CVU_RUN 0x40000000 84, asking 0 (refMsg Op.CVU_RUN 0x40000000 84) (words 0x40000000 [7, 0x40000000, 0, 64, 0,
    1 + 16384] base), putDescriptor (readNat (asking 0 (refMsg Op.CVU_RUN 0x40000000 84) (words 0x40000000 [7, 0x40000000, 0, 64, 0,
    1 + 16384] base)) (Req.bufAddr ⟨((0 : Fin 32)),
    (refMsg Op.CVU_RUN 0x40000000 84)⟩) 4) (readBytes (asking 0 (refMsg Op.CVU_RUN 0x40000000 84) (words 0x40000000 [7, 0x40000000, 0, 64, 0,
    1 + 16384] base)) (Req.bufAddr ⟨((0 : Fin 32)),
    (refMsg Op.CVU_RUN 0x40000000 84)⟩ + 4) 80) (taken ((0 : Fin 32)) (asking 0 (refMsg Op.CVU_RUN 0x40000000 84) (words 0x40000000 [7,
    0x40000000, 0, 64, 0, 1 + 16384] base))), readNat (asking 0 (refMsg Op.CVU_RUN 0x40000000 84) (words 0x40000000 [7, 0x40000000, 0, 64, 0,
    1 + 16384] base)) (Req.bufAddr ⟨((0 : Fin 32)), (refMsg Op.CVU_RUN 0x40000000 84)⟩) 4, by decide +kernel, rfl, by decide +kernel,
    by decide +kernel, by decide +kernel, rfl, by decide +kernel⟩,
   ⟨(0 : Fin 32), msg Op.CVU_SAVE [], asking 0 (msg Op.CVU_SAVE []) (base), bits ((msg Op.CVU_SAVE []).word 2) 2 0, by decide +kernel, rfl,
    by decide +kernel, by decide +kernel⟩,
   ⟨(0 : Fin 32), msg Op.CVU_LOAD [], asking 0 (msg Op.CVU_LOAD []) (base), bits ((msg Op.CVU_LOAD []).word 2) 2 0, by decide +kernel, rfl,
    by decide +kernel, by decide +kernel⟩,
   ⟨(0 : Fin 32), msg Op.CVU_SET_KEY [], asking 0 (msg Op.CVU_SET_KEY []) (base), bits ((msg Op.CVU_SET_KEY []).word 2) 2 0, by decide +kernel,
    rfl, by decide +kernel, by decide +kernel⟩,
   ⟨(0 : Fin 32), msg Op.CVU_ABORT [7], asking 0 (msg Op.CVU_ABORT [7]) (running0 job0), bits ((msg Op.CVU_ABORT [7]).word 2) 2 0, job0,
    by decide +kernel, rfl, by decide +kernel, by decide +kernel⟩,
   ⟨(0 : Fin 32), msg Op.CVU_FIELD_CHECK [32, 0, 0, 0, 0, 0, 0, 0, 0, 0x1FFFFFFF, 0, 1, 0], asking 0 (msg Op.CVU_FIELD_CHECK [32, 0, 0, 0, 0, 0,
    0, 0, 0, 0x1FFFFFFF, 0, 1, 0]) (base), bits ((msg Op.CVU_FIELD_CHECK [32, 0, 0, 0, 0, 0, 0, 0, 0, 0x1FFFFFFF, 0, 1, 0]).word 2) 5 0,
    (msg Op.CVU_FIELD_CHECK [32, 0, 0, 0, 0, 0, 0, 0, 0, 0x1FFFFFFF, 0, 1, 0]).word 11 + 4294967296 * (msg Op.CVU_FIELD_CHECK [32, 0, 0, 0, 0, 0,
    0, 0, 0, 0x1FFFFFFF, 0, 1, 0]).word 12, (msg Op.CVU_FIELD_CHECK [32, 0, 0, 0, 0, 0, 0, 0, 0, 0x1FFFFFFF, 0, 1,
    0]).word 13 + 4294967296 * (msg Op.CVU_FIELD_CHECK [32, 0, 0, 0, 0, 0, 0, 0, 0, 0x1FFFFFFF, 0, 1, 0]).word 14,
    bits ((msg Op.CVU_FIELD_CHECK [32, 0, 0, 0, 0, 0, 0, 0, 0, 0x1FFFFFFF, 0, 1, 0]).word 2) 8 8,
    (fieldChannel (asking 0 (msg Op.CVU_FIELD_CHECK [32, 0, 0, 0, 0, 0, 0, 0, 0, 0x1FFFFFFF, 0, 1, 0]) (base))).getD 0, by decide +kernel, rfl,
    rfl, rfl, rfl, by decide +kernel, by decide +kernel, by decide +kernel, by decide +kernel, by decide +kernel⟩⟩

theorem test_BootComplete :
    (∃ (r : ResetInfo) (s : State) (p : Nat), s.vlt.pf = some p) ∧
    (∃ (r : ResetInfo) (s : State), s.pwr.off = 2) ∧
    (∃ (r : ResetInfo) (s : State), s.pwr.off = 1) ∧
    (∃ (k : Fin 32) (m : Msg) (r : ResetInfo) (s : State), asked Op.PWR_RESET k m s = true ∧ s.pwr.trans = none ∧
      rd s CRP_STATUS_power_state = 0 ∧ idxWhere 24 (fun b => claimed s b) = []) ∧
    (∃ (f : Option (List (BitVec 8))) (s : State), s.pwr.off = 0 ∧ s.pwr.copy < 3 ∧ imageStarted s = false ∧
      rdB s CRP_STATUS_tujan_ready = false ∧ imageSource s ≤ 2) ∧
    (∃ (bs : List (BitVec 8)) (s : State), s.pwr.off = 0 ∧ s.pwr.copy < 3 ∧ imageStarted s = false ∧ rdB s CRP_STATUS_tujan_ready = false ∧
      imageSource s = 4 ∧ bs.length ≤ 0x2000000) ∧
    (∃ (a : Access) (addr : BitVec 40) (v : BitVec 32) (s : State), addr.toNat = 0x20000008 ∧ a.route = Route.bar0 ∧ s.pci.linkUp = true ∧
      s.pwr.off = 0 ∧ s.pwr.copy < 3 ∧ imageSource s = 3 ∧ imageStarted s = false ∧ rdB s CRP_STATUS_tujan_ready = false) ∧
    (∃ (t : BitVec 16) (s : State), s.dmc.gib ≠ 0 ∧ dramReady s = false ∧ imageStarted s = true) ∧
    (∃ (t : BitVec 16) (s : State), s.dmc.gib ≠ 0 ∧ dramReady s = false ∧ imageStarted s = true) ∧
    (∃ (s : State) (s0 : State) (s1 : State) (m : Nat) (f : Nat) (r : Nat), imageStarted s = true ∧ rd s CRP_BOOT_STAT_stage = 5 ∧ m = manAt s 3 ∧
      s0 = wr CRP_BOOT_STAT_stage 6 s ∧ f = manifestFault s0 3 m ∧ (r, s1) = loadSegments 3 m [0] (acceptManifest 3 m s0)) ∧
    (∃ (s : State) (s1 : State) (s2 : State), s.pwr.splash ≠ [] ∧ s1 = advanceTo (s.pwr.splashAt + 250000000) s ∧
      s2 = s1.pwr.splash.foldl (fun s n => setSlot (56 + n) { slot s (56 + n) with beat := s1.devTime } s) s1) ∧
    (∃ (s : State) (s1 : State) (m : Nat), imageStarted s = true ∧ rd s CRP_BOOT_STAT_stage = 7 ∧ dramReady s = true ∧ m = manAt s 3 ∧
      loadSegments 3 m ((List.range (manField s m 0x18 4)).filter (fun i => i != 0)) (wr CRP_BOOT_STAT_stage 9 s) = (0, s1)) ∧
    (∃ (k : Fin 32) (m : Msg) (s : State) (n : Nat) (mask : Nat), asked Op.BOOT_OTP_PROGRAM k m s = true ∧ n = bits (m.word 2) 7 0 ∧
      mask = leNat ((List.range 8).flatMap (fun i => leBytes 4 (m.word (3 + i)))) % 2 ^ otpWidth n ∧ s.warden.kind = 1 ∧
      otpLocked s n mask = false) ∧
    (∃ (k : Fin 32) (m : Msg) (s : State), asked Op.BOOT_GET_INFO k m s = true) :=
  ⟨⟨reset0, { base with vlt := { base.vlt with pf := some 5 } }, 5, by decide +kernel⟩,
   ⟨reset0, { base with pwr := { base.pwr with off := 2 } }, by decide +kernel⟩,
   ⟨reset0, { base with pwr := { base.pwr with off := 1 } }, by decide +kernel⟩,
   ⟨(0 : Fin 32), msg Op.PWR_RESET [], reset0, asking 0 (msg Op.PWR_RESET []) (base), by decide +kernel, by decide +kernel, by decide +kernel,
    by decide +kernel⟩,
   ⟨none, booting { base.pwr with copy := 1, straps := 2 } base, by decide +kernel, by decide +kernel, by decide +kernel, by decide +kernel,
    by decide +kernel⟩,
   ⟨[], booting { base.pwr with straps := 4 } base, by decide +kernel, by decide +kernel, by decide +kernel, by decide +kernel, by decide +kernel,
    by decide +kernel⟩,
   ⟨⟨24, 0, false, .bar0⟩, (0x20000008 : BitVec 40), (0 : BitVec 32),
    booting { base.pwr with straps := 3 } { base with pci := { base.pci with linkUp := true } }, by decide +kernel, by decide +kernel,
    by decide +kernel, by decide +kernel, by decide +kernel, by decide +kernel, by decide +kernel, by decide +kernel⟩,
   ⟨(0 : BitVec 16), loaded 5 { base with dmc := { DmcSt.reset with gib := 8 } }, by decide +kernel, by decide +kernel, by decide +kernel⟩,
   ⟨(0 : BitVec 16), loaded 5 { base with dmc := { DmcSt.reset with gib := 8 } }, by decide +kernel, by decide +kernel, by decide +kernel⟩,
   ⟨loaded 5 base, wr CRP_BOOT_STAT_stage 6 (loaded 5 base),
    (loadSegments 3 (manAt (loaded 5 base) 3) [0] (acceptManifest 3 (manAt (loaded 5 base) 3) (wr CRP_BOOT_STAT_stage 6 (loaded 5 base)))).2,
    manAt (loaded 5 base) 3, manifestFault (wr CRP_BOOT_STAT_stage 6 (loaded 5 base)) 3 (manAt (loaded 5 base) 3),
    (loadSegments 3 (manAt (loaded 5 base) 3) [0] (acceptManifest 3 (manAt (loaded 5 base) 3) (wr CRP_BOOT_STAT_stage 6 (loaded 5 base)))).1,
    by decide +kernel, by decide +kernel, rfl, rfl, rfl, rfl⟩,
   ⟨splashing, advanceTo (splashing.pwr.splashAt + 250000000) splashing,
    (advanceTo (splashing.pwr.splashAt + 250000000) splashing).pwr.splash.foldl (fun s n => setSlot (56 + n) { slot s (56 + n) with beat := (advanceTo (splashing.pwr.splashAt + 250000000) splashing).devTime } s) (advanceTo (splashing.pwr.splashAt + 250000000) splashing),
    by decide +kernel, rfl, rfl⟩,
   ⟨loaded 7 dram, wr CRP_BOOT_STAT_stage 9 (loaded 7 dram), manAt (loaded 7 dram) 3, by decide +kernel, by decide +kernel, by decide +kernel,
    rfl, by decide +kernel⟩,
   ⟨(0 : Fin 32), msg Op.BOOT_OTP_PROGRAM [2, 3], asking 0 (msg Op.BOOT_OTP_PROGRAM [2, 3]) (base), bits ((msg Op.BOOT_OTP_PROGRAM [2,
    3]).word 2) 7 0, leNat ((List.range 8).flatMap (fun i => leBytes 4 ((msg Op.BOOT_OTP_PROGRAM [2,
    3]).word (3 + i)))) % 2 ^ otpWidth (bits ((msg Op.BOOT_OTP_PROGRAM [2, 3]).word 2) 7 0), by decide +kernel, rfl, rfl, by decide +kernel,
    by decide +kernel⟩,
   ⟨(0 : Fin 32), msg Op.BOOT_GET_INFO [], asking 0 (msg Op.BOOT_GET_INFO []) (base), by decide +kernel⟩⟩

theorem test_PowerComplete :
    (∃ (ts : List (BitVec 16)) (rs : List (BitVec 16)) (s : State) (s2 : State) (h : Nat) (x : List Int),
      x = (List.range 12).map (fun i => sgn 16 (ts.getD i 0).toNat) ∧ h = hottest x ∧
      s2 = (List.range 6).foldl (fun s i => wr (CRP_RAIL_mw i) (rs.getD i 0).toNat s) ((List.range 12).foldl (fun s k => wrI (CRP_TEMP_temp k) (x.getD k 0) s) (pumpRan 8 10000000 s)) ∧
      rdB (wr CRP_THERM_STAT_hottest h s2) CRP_THERM_STAT_warning = false ∧
      rdB (wr CRP_THERM_STAT_hottest h s2) CRP_THERM_STAT_throttled = false ∧ x.getD h 0 ≤ rd s CRP_THERM_CFG_warn ∧
      x.getD h 0 ≤ rd s CRP_THERM_CFG_throttle ∧
      rd s CRP_THERM_STAT_warning + 2 * rd s CRP_THERM_STAT_throttled = rd (wr CRP_THERM_STAT_hottest h s2) CRP_THERM_STAT_warning + 2 * rd (wr CRP_THERM_STAT_hottest h s2) CRP_THERM_STAT_throttled) ∧
    (∃ (i : Fin 12) (t : BitVec 16) (s : State) (s2 : State), 1250 ≤ sgn 16 t.toNat ∧ s.pwr.off = 0 ∧ s.vlt.pf = none ∧
      s2 = flushSteps (setTrans none (record0 Src.CRP_THERMAL none [i, unsgn 32 (sgn 16 t.toNat), 3] s))) ∧
    (∃ (k : Fin 32) (m : Msg) (s : State) (s1 : State) (u : Unacked) (t : PwrTrans), rdB s CRP_STATUS_tujan_ready = true ∧
      (chan s (2 * k)).q.head? = some m ∧ isRequest m = false ∧ badForm m = false ∧ ackTarget s k m = some u ∧ u.opcode = Op.PWR_STATE_CHANGED ∧
      s1 = clearUnacked (2 * k + 1) u.seq (dropHead (2 * k) s) ∧ s1.pwr.trans = some t ∧ t.acked = none ∧ t.waiting.contains k.val = true ∧
      t.waiting.filter (fun i => i != k.val) = []) ∧
    (∃ (k : Fin 32) (m : Msg) (s : State) (s1 : State) (u : Unacked) (t : PwrTrans) (ws : List Nat), rdB s CRP_STATUS_tujan_ready = true ∧
      (chan s (2 * k)).q.head? = some m ∧ isRequest m = false ∧ badForm m = false ∧ ackTarget s k m = some u ∧ u.opcode = Op.PWR_STATE_CHANGED ∧
      s1 = clearUnacked (2 * k + 1) u.seq (dropHead (2 * k) s) ∧ s1.pwr.trans = some t ∧ t.acked = none ∧ t.waiting.contains k.val = true ∧
      ws = t.waiting.filter (fun i => i != k.val) ∧ ws.isEmpty = false) ∧
    (∃ (s : State) (s1 : State) (t : PwrTrans), s.pwr.trans = some t ∧ t.acked = none ∧
      s1 = wr CRP_STATUS_power_state 0 (setTrans none (advanceTo (t.start + 1000000000) s))) ∧
    (∃ (s : State) (s1 : State) (s3 : State) (s4 : State) (t : PwrTrans), s.pwr.trans = some t ∧ t.shutdown = false ∧ t.acked.isSome = true ∧
      s1 = freeLocksOf (quietMasters t.kept) (clrBits CRP_PD_STAT_on (quietDomains t.kept) (s.pwr.restart.foldl (fun s n => outputOff n s) s)) ∧
      s3 = (List.range 16).foldl (fun s c => closeRows c s) (wrAll DMC_STATUS_self_refresh 1 ((List.range 8).foldl (fun s h => setHart h { hart s h with running := false } s) s1)) ∧
      s4 = setTrans none (tchQuietEntry (wr CRP_STATUS_power_state 1 (record0 Src.DMC_SELF_REFRESH none [1, rd s3 (DMC_PASR_keep 0)] s3)))) ∧
    (∃ (s : State) (s1 : State) (s2 : State) (s4 : State), rd s CRP_STATUS_power_state = 1 ∧ s.wakes.isEmpty = false ∧
      s1 = { (recordWakes s) with wakes := [] } ∧
      s2 = startHarts (orBits CRP_PD_STAT_on (rd s1 CRP_PD_CTRL_on &&& 31) (wr CRP_STATUS_warm 1 (wr CRP_STATUS_power_state 3 s1))) ∧
      s4 = record0 Src.DMC_SELF_REFRESH none [0,
      rd s2 (DMC_PASR_keep 0)] (wrAll DMC_STATUS_self_refresh 0 (dropSegments { s2 with pld := { s2.pld with entries := [] } }))) ∧
    (∃ (s : State) (s2 : State), rd s CRP_STATUS_power_state = 3 ∧
      s2 = tchQuietExit (wr CRP_STATUS_power_state 0 { (recordWakes s) with wakes := [] })) ∧
    (∃ (s : State) (s2 : State) (t : PwrTrans) (a : Nat), s.pwr.trans = some t ∧ t.shutdown = true ∧ t.acked = some a ∧
      s2 = (List.range 8).foldl (fun s n => outputOff n s) (settle 4 (reply t.job ST_OK [] (finishSync (startSync (snapToFlash 1 (snapToFlash 0 (archiveAll s.evr.archive.waiting.length s)))))))) ∧
    (∃ (k : Fin 32) (m : Msg) (s : State), asked Op.PWR_GET_STATE k m s = true) ∧
    (∃ (k : Fin 32) (m : Msg) (s : State) (pair : (Nat → Fld) → Nat → Nat), asked Op.PWR_GET_TELEMETRY k m s = true ∧
      pair = (fun f i => rd s (f (2 * i)) + 65536 * rd s (f (2 * i + 1)))) ∧
    (∃ (k : Fin 32) (m : Msg) (s : State), asked Op.PUMP_GET_STATUS k m s = true) ∧
    (∃ (k : Fin 32) (m : Msg) (s : State), asked Op.PWR_ENTER_QUIET k m s = true ∧ transitionRefusal ⟨k,
      m⟩ (taken k s) (bits (m.word 2) 7 0) (quietBlocks (bits (m.word 2) 7 0)) = none) ∧
    (∃ (k : Fin 32) (m : Msg) (s : State), asked Op.PWR_SHUTDOWN k m s = true ∧ transitionRefusal ⟨k, m⟩ (taken k s) 0 (List.range 24) = none) ∧
    (∃ (k : Fin 32) (m : Msg) (s : State), asked Op.PWR_SET_BLOCK k m s = true ∧ bits (m.word 2) 4 0 < 24 ∧ bits (m.word 2) 9 8 = 0) ∧
    (∃ (k : Fin 32) (m : Msg) (s : State) (b : Nat), asked Op.PWR_SET_BLOCK k m s = true ∧ b = bits (m.word 2) 4 0 ∧ b < 24 ∧
      bits (m.word 2) 9 8 = 1 ∧ claimed s b = false ∧ blockWorks (taken k s) b = false) ∧
    (∃ (k : Fin 32) (m : Msg) (s : State) (b : Nat), asked Op.PWR_SET_BLOCK k m s = true ∧ b = bits (m.word 2) 4 0 ∧ b < 24 ∧
      bits (m.word 2) 9 8 = 2 ∧ claimed s b = false ∧ blockWorks (taken k s) b = false) ∧
    (∃ (k : Fin 32) (m : Msg) (s : State) (w : Nat) (t : Nat), asked Op.PWR_SET_THERMAL k m s = true ∧ w = bits (m.word 2) 11 0 ∧
      t = bits (m.word 2) 27 16 ∧ 700 ≤ w ∧ w + 10 ≤ t ∧ t ≤ 1150) :=
  ⟨⟨([] : List (BitVec 16)), ([] : List (BitVec 16)), base,
    (let rs : List (BitVec 16) := ([] : List (BitVec 16)); let s : State := base; let x : List Int := (List.range 12).map (fun i => sgn 16 ((([] : List (BitVec 16))).getD i 0).toNat); (List.range 6).foldl (fun s i => wr (CRP_RAIL_mw i) (rs.getD i 0).toNat s) ((List.range 12).foldl (fun s k => wrI (CRP_TEMP_temp k) (x.getD k 0) s) (pumpRan 8 10000000 s))),
    hottest ((List.range 12).map (fun i => sgn 16 ((([] : List (BitVec 16))).getD i 0).toNat)),
    (List.range 12).map (fun i => sgn 16 ((([] : List (BitVec 16))).getD i 0).toNat), rfl, rfl, rfl, by decide +kernel, by decide +kernel,
    by decide +kernel, by decide +kernel, by decide +kernel⟩,
   ⟨(11 : Fin 12), (1250 : BitVec 16), base, flushSteps (setTrans none (record0 Src.CRP_THERMAL none [((11 : Fin 12)),
    unsgn 32 (sgn 16 ((1250 : BitVec 16)).toNat), 3] base)), by decide +kernel, by decide +kernel, by decide +kernel, rfl⟩,
   ⟨(0 : Fin 32), ack5, acking (trans0 [0] none),
    clearUnacked (2 * ((0 : Fin 32)) + 1) unacked5.seq (dropHead (2 * ((0 : Fin 32))) (acking (trans0 [0] none))), unacked5, trans0 [0] none,
    by decide +kernel, by decide +kernel, by decide +kernel, by decide +kernel, by decide +kernel, by decide +kernel, rfl, by decide +kernel,
    by decide +kernel, by decide +kernel, by decide +kernel⟩,
   ⟨(0 : Fin 32), ack5, acking (trans0 [0, 30] none),
    clearUnacked (2 * ((0 : Fin 32)) + 1) unacked5.seq (dropHead (2 * ((0 : Fin 32))) (acking (trans0 [0, 30] none))), unacked5, trans0 [0,
    30] none, (trans0 [0, 30] none).waiting.filter (fun i => i != ((0 : Fin 32)).val), by decide +kernel, by decide +kernel, by decide +kernel,
    by decide +kernel, by decide +kernel, by decide +kernel, rfl, by decide +kernel, by decide +kernel, by decide +kernel, rfl, by decide +kernel⟩,
   ⟨inTrans (trans0 [0] none) base,
    wr CRP_STATUS_power_state 0 (setTrans none (advanceTo ((trans0 [0] none).start + 1000000000) (inTrans (trans0 [0] none) base))),
    trans0 [0] none, by decide +kernel, by decide +kernel, rfl⟩,
   ⟨inTrans (trans0 [] (some 0)) base,
    (let s : State := inTrans (trans0 [] (some 0)) base; let t : PwrTrans := trans0 [] (some 0); freeLocksOf (quietMasters t.kept) (clrBits CRP_PD_STAT_on (quietDomains t.kept) (s.pwr.restart.foldl (fun s n => outputOff n s) s))),
    (let s : State := inTrans (trans0 [] (some 0)) base; let s1 : State := (let s : State := inTrans (trans0 [] (some 0)) base; let t : PwrTrans := trans0 [] (some 0); freeLocksOf (quietMasters t.kept) (clrBits CRP_PD_STAT_on (quietDomains t.kept) (s.pwr.restart.foldl (fun s n => outputOff n s) s))); (List.range 16).foldl (fun s c => closeRows c s) (wrAll DMC_STATUS_self_refresh 1 ((List.range 8).foldl (fun s h => setHart h { hart s h with running := false } s) s1))),
    setTrans none (tchQuietEntry (wr CRP_STATUS_power_state 1 (record0 Src.DMC_SELF_REFRESH none [1,
    rd ((let s : State := inTrans (trans0 [] (some 0)) base; let s1 : State := (let s : State := inTrans (trans0 [] (some 0)) base; let t : PwrTrans := trans0 [] (some 0); freeLocksOf (quietMasters t.kept) (clrBits CRP_PD_STAT_on (quietDomains t.kept) (s.pwr.restart.foldl (fun s n => outputOff n s) s))); (List.range 16).foldl (fun s c => closeRows c s) (wrAll DMC_STATUS_self_refresh 1 ((List.range 8).foldl (fun s h => setHart h { hart s h with running := false } s) s1)))) (DMC_PASR_keep 0)] ((let s : State := inTrans (trans0 [] (some 0)) base; let s1 : State := (let s : State := inTrans (trans0 [] (some 0)) base; let t : PwrTrans := trans0 [] (some 0); freeLocksOf (quietMasters t.kept) (clrBits CRP_PD_STAT_on (quietDomains t.kept) (s.pwr.restart.foldl (fun s n => outputOff n s) s))); (List.range 16).foldl (fun s c => closeRows c s) (wrAll DMC_STATUS_self_refresh 1 ((List.range 8).foldl (fun s h => setHart h { hart s h with running := false } s) s1))))))),
    trans0 [] (some 0), by decide +kernel, by decide +kernel, by decide +kernel, rfl, rfl, rfl⟩,
   ⟨wr CRP_STATUS_power_state 1 { base with wakes := [(0, 0)] },
    { (recordWakes (wr CRP_STATUS_power_state 1 { base with wakes := [(0, 0)] })) with wakes := [] },
    startHarts (orBits CRP_PD_STAT_on (rd ({ (recordWakes (wr CRP_STATUS_power_state 1 { base with wakes := [(0, 0)] })) with wakes := [] }) CRP_PD_CTRL_on &&& 31) (wr CRP_STATUS_warm 1 (wr CRP_STATUS_power_state 3 ({ (recordWakes (wr CRP_STATUS_power_state 1 { base with wakes := [(0, 0)] })) with wakes := [] })))),
    record0 Src.DMC_SELF_REFRESH none [0,
    rd (startHarts (orBits CRP_PD_STAT_on (rd ({ (recordWakes (wr CRP_STATUS_power_state 1 { base with wakes := [(0, 0)] })) with wakes := [] }) CRP_PD_CTRL_on &&& 31) (wr CRP_STATUS_warm 1 (wr CRP_STATUS_power_state 3 ({ (recordWakes (wr CRP_STATUS_power_state 1 { base with wakes := [(0, 0)] })) with wakes := [] }))))) (DMC_PASR_keep 0)] (wrAll DMC_STATUS_self_refresh 0 (dropSegments { (startHarts (orBits CRP_PD_STAT_on (rd ({ (recordWakes (wr CRP_STATUS_power_state 1 { base with wakes := [(0, 0)] })) with wakes := [] }) CRP_PD_CTRL_on &&& 31) (wr CRP_STATUS_warm 1 (wr CRP_STATUS_power_state 3 ({ (recordWakes (wr CRP_STATUS_power_state 1 { base with wakes := [(0, 0)] })) with wakes := [] }))))) with pld := { (startHarts (orBits CRP_PD_STAT_on (rd ({ (recordWakes (wr CRP_STATUS_power_state 1 { base with wakes := [(0, 0)] })) with wakes := [] }) CRP_PD_CTRL_on &&& 31) (wr CRP_STATUS_warm 1 (wr CRP_STATUS_power_state 3 ({ (recordWakes (wr CRP_STATUS_power_state 1 { base with wakes := [(0, 0)] })) with wakes := [] }))))).pld with entries := [] } })),
    by decide +kernel, by decide +kernel, rfl, rfl, rfl⟩,
   ⟨wr CRP_STATUS_power_state 3 base,
    tchQuietExit (wr CRP_STATUS_power_state 0 { (recordWakes (wr CRP_STATUS_power_state 3 base)) with wakes := [] }), by decide +kernel, rfl⟩,
   ⟨inTrans { trans0 [] (some 0) with shutdown := true } base,
    (let s : State := inTrans { trans0 [] (some 0) with shutdown := true } base; let t : PwrTrans := { trans0 [] (some 0) with shutdown := true }; (List.range 8).foldl (fun s n => outputOff n s) (settle 4 (reply t.job ST_OK [] (finishSync (startSync (snapToFlash 1 (snapToFlash 0 (archiveAll s.evr.archive.waiting.length s)))))))),
    { trans0 [] (some 0) with shutdown := true }, 0, by decide +kernel, by decide +kernel, by decide +kernel, rfl⟩,
   ⟨(0 : Fin 32), msg Op.PWR_GET_STATE [], asking 0 (msg Op.PWR_GET_STATE []) (base), by decide +kernel⟩,
   ⟨(0 : Fin 32), msg Op.PWR_GET_TELEMETRY [], asking 0 (msg Op.PWR_GET_TELEMETRY []) (base),
    fun f i => rd (asking 0 (msg Op.PWR_GET_TELEMETRY []) base) (f (2 * i)) + 65536 * rd (asking 0 (msg Op.PWR_GET_TELEMETRY []) base) (f (2 * i + 1)),
    by decide +kernel, rfl⟩,
   ⟨(0 : Fin 32), msg Op.PUMP_GET_STATUS [], asking 0 (msg Op.PUMP_GET_STATUS []) (base), by decide +kernel⟩,
   ⟨(0 : Fin 32), msg Op.PWR_ENTER_QUIET [], asking 0 (msg Op.PWR_ENTER_QUIET []) (base), by decide +kernel, by decide +kernel⟩,
   ⟨(0 : Fin 32), msg Op.PWR_SHUTDOWN [], asking 0 (msg Op.PWR_SHUTDOWN []) (base), by decide +kernel, by decide +kernel⟩,
   ⟨(0 : Fin 32), msg Op.PWR_SET_BLOCK [], asking 0 (msg Op.PWR_SET_BLOCK []) (base), by decide +kernel, by decide +kernel, by decide +kernel⟩,
   ⟨(0 : Fin 32), msg Op.PWR_SET_BLOCK [23 + 256], asking 0 (msg Op.PWR_SET_BLOCK [23 + 256]) (base),
    bits ((msg Op.PWR_SET_BLOCK [23 + 256]).word 2) 4 0, by decide +kernel, rfl, by decide +kernel, by decide +kernel, by decide +kernel,
    by decide +kernel⟩,
   ⟨(0 : Fin 32), msg Op.PWR_SET_BLOCK [23 + 512], asking 0 (msg Op.PWR_SET_BLOCK [23 + 512]) (base),
    bits ((msg Op.PWR_SET_BLOCK [23 + 512]).word 2) 4 0, by decide +kernel, rfl, by decide +kernel, by decide +kernel, by decide +kernel,
    by decide +kernel⟩,
   ⟨(0 : Fin 32), msg Op.PWR_SET_THERMAL [700 + 65536 * 1150], asking 0 (msg Op.PWR_SET_THERMAL [700 + 65536 * 1150]) (base),
    bits ((msg Op.PWR_SET_THERMAL [700 + 65536 * 1150]).word 2) 11 0, bits ((msg Op.PWR_SET_THERMAL [700 + 65536 * 1150]).word 2) 27 16,
    by decide +kernel, rfl, rfl, by decide +kernel, by decide +kernel, by decide +kernel⟩⟩

theorem test_GeneralIoComplete :
    (∃ (r : Fin 2) (t : BitVec 12) (s : State) (mv : Nat) (at_ : Nat), s.pwr.rails.getD r (0, 2, 0) = (mv, 0, at_) ∧ s.evr.started = true) ∧
    (∃ (r : Fin 2) (t : BitVec 12) (s : State) (mv : Nat) (at_ : Nat), s.pwr.rails.getD r (0, 2, 0) = (mv, 0, at_) ∧ s.evr.started = true) ∧
    (∃ (a : Access) (addr : BitVec 40) (v : BitVec 32) (u : Nat) (s : State), admitted a addr.toNat v.toNat s = true ∧
      gioRegAt addr.toNat 0x20900000 8 0 = some u ∧ (uart s u).tx.length < 64) ∧
    (∃ (a : Access) (addr : BitVec 40) (u : Nat) (b : Nat) (p : Bool) (f : Bool) (t : List (Nat × Bool × Bool)) (s : State) (s1 : State),
      readable a addr.toNat s = true ∧ gioRegAt addr.toNat 0x20900000 8 0 = some u ∧ (uart s u).rx = (b, p, f) :: t ∧
      s1 = setUart u ⟨(uart s u).tx, t⟩ s) ∧
    (∃ (a : Access) (addr : BitVec 40) (u : Nat) (s : State), readable a addr.toNat s = true ∧ gioRegAt addr.toNat 0x20900000 8 0 = some u ∧
      (uart s u).rx = []) ∧
    (∃ (u : Fin 8) (b : BitVec 8) (p : Bool) (f : Bool) (s : State), uartOn s u = true ∧ rdB s (GIO_UART_CFG_loopback u).inForce = false) ∧
    (∃ (u : Fin 8) (b : BitVec 8) (p : Bool) (f : Bool) (s : State), uartOn s u = true ∧ rdB s (GIO_UART_CFG_loopback u).inForce = false) ∧
    (∃ (u : Fin 8) (b : Nat) (t : List Nat) (rx : List (Nat × Bool × Bool)) (s : State), uart s u = ⟨b :: t, rx⟩ ∧ uartOn s u = true ∧
      rdB s (GIO_UART_CFG_loopback u).inForce = false) ∧
    (∃ (u : Fin 8) (b : Nat) (t : List Nat) (rx : List (Nat × Bool × Bool)) (s : State), uart s u = ⟨b :: t, rx⟩ ∧ uartOn s u = true ∧
      rdB s (GIO_UART_CFG_loopback u).inForce = true) ∧
    (∃ (a : Access) (addr : BitVec 40) (v : BitVec 32) (i : Nat) (s : State), admitted a addr.toNat v.toNat s = true ∧
      gioRegAt addr.toNat 0x20901000 4 8 = some i ∧ (i2c s i).cmds.length < 16) ∧
    (∃ (a : Access) (addr : BitVec 40) (i : Nat) (b : Nat) (t : List Nat) (s : State) (s1 : State), readable a addr.toNat s = true ∧
      gioRegAt addr.toNat 0x20901000 4 0xC = some i ∧ (i2c s i).rx = b :: t ∧ s1 = setI2c i ⟨(i2c s i).cmds, t⟩ s) ∧
    (∃ (i : Fin 4) (b : BitVec 8) (c : Nat) (t : List Nat) (s : State), (i2c s i).cmds = c :: t ∧ rdB s (GIO_I2C_CFG_enable i) = true ∧
      bit c 8 = false) ∧
    (∃ (i : Fin 4) (b : BitVec 8) (c : Nat) (t : List Nat) (s : State), (i2c s i).cmds = c :: t ∧ rdB s (GIO_I2C_CFG_enable i) = true ∧
      bit c 8 = true ∧ (i2c s i).rx.length < 16) ∧
    (∃ (i : Fin 4) (c : Nat) (t : List Nat) (s : State), (i2c s i).cmds = c :: t ∧ rdB s (GIO_I2C_CFG_enable i) = true) ∧
    (∃ (i : Fin 4) (c : Nat) (t : List Nat) (s : State), (i2c s i).cmds = c :: t ∧ rdB s (GIO_I2C_CFG_enable i) = true) ∧
    (∃ (a : Access) (addr : BitVec 40) (v : BitVec 32) (k : Nat) (s : State), admitted a addr.toNat v.toNat s = true ∧
      gioRegAt addr.toNat 0x20902000 4 8 = some k ∧ (spi s k).tx.length < 16) ∧
    (∃ (a : Access) (addr : BitVec 40) (k : Nat) (w : Nat) (t : List Nat) (s : State) (s1 : State), readable a addr.toNat s = true ∧
      gioRegAt addr.toNat 0x20902000 4 0xC = some k ∧ (spi s k).rx = w :: t ∧ s1 = setSpi k ⟨(spi s k).tx, t, (spi s k).cs⟩ s) ∧
    (∃ (k : Fin 4) (rx : BitVec 32) (w : Nat) (t : List Nat) (s : State), (spi s k).tx = w :: t ∧ rdB s (GIO_SPI_CFG_enable k) = true ∧
      (spi s k).rx.length < 16) ∧
    (∃ (k : Fin 4) (rx : BitVec 32) (w : Nat) (t : List Nat) (s : State), (spi s k).tx = w :: t ∧ rdB s (GIO_SPI_CFG_enable k) = true ∧
      16 ≤ (spi s k).rx.length) ∧
    (∃ (a : Access) (addr : BitVec 40) (v : BitVec 32) (b : Nat) (s : State), admitted a addr.toNat v.toNat s = true ∧
      gioRegAt addr.toNat 0x20903000 2 4 = some b) ∧
    (∃ (a : Access) (addr : BitVec 40) (v : BitVec 32) (b : Nat) (s : State), admitted a addr.toNat v.toNat s = true ∧
      gioRegAt addr.toNat 0x20903000 2 8 = some b) :=
  ⟨⟨(1 : Fin 2), (0 : BitVec 12), { base with pwr := { base.pwr with rails := [(700, 0, 0), (700, 0, 0)] } }, 700, 0, by decide +kernel,
    by decide +kernel⟩,
   ⟨(1 : Fin 2), (0 : BitVec 12), { base with pwr := { base.pwr with rails := [(700, 0, 0), (700, 0, 0)] } }, 700, 0, by decide +kernel,
    by decide +kernel⟩,
   ⟨tujan, (0x20900700 : BitVec 40), (255 : BitVec 32), 7, base, by decide +kernel, by decide +kernel, by decide +kernel⟩,
   ⟨tujan, (0x20900700 : BitVec 40), 7, 255, false, false, [], setUart 7 ⟨[], [(255, false, false)]⟩ base, setUart 7 ⟨(uart (setUart 7 ⟨[], [(255,
    false, false)]⟩ base) 7).tx, ([])⟩ (setUart 7 ⟨[], [(255, false, false)]⟩ base), by decide +kernel, by decide +kernel, by decide +kernel, rfl⟩,
   ⟨tujan, (0x20900700 : BitVec 40), 7, base, by decide +kernel, by decide +kernel, by decide +kernel⟩,
   ⟨(7 : Fin 8), (255 : BitVec 8), false, false, wr (GIO_UART_CFG_enable 7) 1 base, by decide +kernel, by decide +kernel⟩,
   ⟨(7 : Fin 8), (0 : BitVec 8), false, false, wr (GIO_UART_CFG_enable 7) 1 base, by decide +kernel, by decide +kernel⟩,
   ⟨(7 : Fin 8), 255, [], [], setUart 7 ⟨[255], []⟩ (wr (GIO_UART_CFG_enable 7) 1 base), by decide +kernel, by decide +kernel, by decide +kernel⟩,
   ⟨(7 : Fin 8), 255, [], [], setUart 7 ⟨[255], []⟩ (regs [(GIO_UART_CFG_enable 7, 1), ((GIO_UART_CFG_loopback 7).inForce, 1)] base),
    by decide +kernel, by decide +kernel, by decide +kernel⟩,
   ⟨tujan, (0x20901308 : BitVec 40), (255 : BitVec 32), 3, base, by decide +kernel, by decide +kernel, by decide +kernel⟩,
   ⟨tujan, (0x2090130C : BitVec 40), 3, 255, [], setI2c 3 ⟨[], [255]⟩ base, setI2c 3 ⟨(i2c (setI2c 3 ⟨[], [255]⟩ base) 3).cmds,
    ([])⟩ (setI2c 3 ⟨[], [255]⟩ base), by decide +kernel, by decide +kernel, by decide +kernel, rfl⟩,
   ⟨(3 : Fin 4), (0 : BitVec 8), 255, [], setI2c 3 ⟨[255], []⟩ (wr (GIO_I2C_CFG_enable 3) 1 base), by decide +kernel, by decide +kernel,
    by decide +kernel⟩,
   ⟨(3 : Fin 4), (0 : BitVec 8), 256, [], setI2c 3 ⟨[256], List.replicate 15 0⟩ (wr (GIO_I2C_CFG_enable 3) 1 base), by decide +kernel,
    by decide +kernel, by decide +kernel, by decide +kernel⟩,
   ⟨(3 : Fin 4), 255, [], setI2c 3 ⟨[255], []⟩ (wr (GIO_I2C_CFG_enable 3) 1 base), by decide +kernel, by decide +kernel⟩,
   ⟨(3 : Fin 4), 255, [], setI2c 3 ⟨[255], []⟩ (wr (GIO_I2C_CFG_enable 3) 1 base), by decide +kernel, by decide +kernel⟩,
   ⟨tujan, (0x20902308 : BitVec 40), (255 : BitVec 32), 3, base, by decide +kernel, by decide +kernel, by decide +kernel⟩,
   ⟨tujan, (0x2090230C : BitVec 40), 3, 255, [], setSpi 3 ⟨[], [255], false⟩ base, setSpi 3 ⟨(spi (setSpi 3 ⟨[], [255], false⟩ base) 3).tx, ([]),
    (spi (setSpi 3 ⟨[], [255], false⟩ base) 3).cs⟩ (setSpi 3 ⟨[], [255], false⟩ base), by decide +kernel, by decide +kernel, by decide +kernel,
    rfl⟩,
   ⟨(3 : Fin 4), (0 : BitVec 32), 255, [], setSpi 3 ⟨[255], List.replicate 15 0, false⟩ (wr (GIO_SPI_CFG_enable 3) 1 base), by decide +kernel,
    by decide +kernel, by decide +kernel⟩,
   ⟨(3 : Fin 4), (0 : BitVec 32), 255, [], setSpi 3 ⟨[255], List.replicate 16 0, false⟩ (wr (GIO_SPI_CFG_enable 3) 1 base), by decide +kernel,
    by decide +kernel, by decide +kernel⟩,
   ⟨tujan, (0x20903104 : BitVec 40), (255 : BitVec 32), 1, base, by decide +kernel, by decide +kernel⟩,
   ⟨tujan, (0x20903108 : BitVec 40), (255 : BitVec 32), 1, base, by decide +kernel, by decide +kernel⟩⟩

theorem test_PushesAreNumberedOrRefused :
    (∃ (a : Access) (addr : BitVec 40) (v : BitVec 32) (s : State) (n : Nat), chanRegAt s addr.toNat 0x40 = some n ∧
      admitted a addr.toNat v.toNat s = true ∧ bit v.toNat 0 = true ∧ (chan s n).q.length < 8) ∧
    (∃ (a : Access) (addr : BitVec 40) (v : BitVec 32) (s : State) (n : Nat), chanRegAt s addr.toNat 0x40 = some n ∧
      admitted a addr.toNat v.toNat s = true ∧ bit v.toNat 0 = true ∧ 8 ≤ (chan s n).q.length) :=
  ⟨⟨core1, (0x20010040 : BitVec 40), (1 : BitVec 32), setChan 0 { chan base 0 with q := List.replicate 7 [0, 0] } base, 0, by decide +kernel,
    by decide +kernel, by decide +kernel, by decide +kernel⟩,
   ⟨core1, (0x20010040 : BitVec 40), (1 : BitVec 32), setChan 0 { chan base 0 with q := List.replicate 8 [0, 0] } base, 0, by decide +kernel,
    by decide +kernel, by decide +kernel, by decide +kernel⟩⟩

theorem test_LocksHaveOneOwner :
    (∃ (n : Fin 32) (m : Fin 64) (ms : List (Fin 64)) (s : State), readersWf (m :: ms) = true ∧ 1 ≤ lockPointer s n ∧ lockPointer s n ≤ 63 ∧
      rd s (MBX_LOCK_OWNER_owner n) = 0) ∧
    (∃ (n : Fin 32) (m : Fin 64) (ms : List (Fin 64)) (s : State), rd s (MBX_LOCK_OWNER_owner n) ≠ 0) ∧
    (∃ (m : Fin 64) (n : Fin 32) (v : BitVec 32) (s : State), m.val ≠ 0 ∧ rd s (MBX_LOCK_OWNER_owner n) = m.val ∧ v.toNat = m.val) ∧
    (∃ (m : Fin 64) (n : Fin 32) (v : BitVec 32) (s : State), (¬ (m.val ≠ 0 ∧ rd s (MBX_LOCK_OWNER_owner n) = m.val ∧ v.toNat = m.val))) :=
  ⟨⟨(31 : Fin 32), (63 : Fin 64), [1], base, by decide +kernel, by decide +kernel, by decide +kernel, by decide +kernel⟩,
   ⟨(31 : Fin 32), (0 : Fin 64), [], wr (MBX_LOCK_OWNER_owner 31) 63 base, by decide +kernel⟩,
   ⟨(63 : Fin 64), (31 : Fin 32), (63 : BitVec 32), wr (MBX_LOCK_OWNER_owner 31) 63 base, by decide +kernel, by decide +kernel, by decide +kernel⟩,
   ⟨(63 : Fin 64), (31 : Fin 32), (62 : BitVec 32), wr (MBX_LOCK_OWNER_owner 31) 63 base, by decide +kernel⟩⟩

theorem test_TrapsUseTheBankOfTheirWorld :
    (∃ (h : Fin 8) (code : Fin 64) (tval : BitVec 64) (s : State), (hart s h).canRun = true ∧ (hart s h).priv ≠ 3 ∧
      bit (hart s h).medeleg code = true) ∧
    (∃ (h : Fin 8) (code : Fin 64) (tval : BitVec 64) (s : State), (hart s h).canRun = true ∧ (hart s h).priv ≠ 3 ∧
      bit (hart s h).mideleg code = true ∧ (hart s h).world = false ∧ (((hart s h).priv ≠ 1 ∨ (hart s h).sie = true ∨ (hart s h).virt = true))) ∧
    (∃ (h : Fin 8) (interrupt : Bool) (code : Fin 64) (tval : BitVec 64) (s : State), (hart s h).canRun = true ∧
      (hart s h).goesToM interrupt code = true) ∧
    (∃ (h : Fin 8) (s : State), (hart s h).canRun = true ∧ (hart s h).priv = 3 ∧ (hart s h).haltPending = false ∧
      (((hart s h).mpw = false ∨ (hart s h).mpv = false ∨ (hart s h).mpp = 3))) :=
  ⟨⟨(0 : Fin 8), (63 : Fin 64), (0 : BitVec 64), withHart { hart0 with priv := 1, world := true, medeleg := 2 ^ 63 } base, by decide +kernel,
    by decide +kernel, by decide +kernel⟩,
   ⟨(0 : Fin 8), (63 : Fin 64), (0 : BitVec 64), withHart { hart0 with priv := 0, world := false, mideleg := 2 ^ 63 } base, by decide +kernel,
    by decide +kernel, by decide +kernel, by decide +kernel, by decide +kernel⟩,
   ⟨(0 : Fin 8), false, (63 : Fin 64), (0 : BitVec 64), withHart { hart0 with world := true } base, by decide +kernel, by decide +kernel⟩,
   ⟨(0 : Fin 8), withHart { hart0 with mpp := 3 } base, by decide +kernel, by decide +kernel, by decide +kernel, by decide +kernel⟩⟩

theorem test_OnlyTujanWritesDeviceRegisters :
    (∃ (a : Access) (addr : BitVec 40) (v : BitVec 64) (s : State), a.route = .fabric ∧ tujansAlone addr.toNat = true ∧
      (carried s a addr.toNat).master ≠ 9 ∧ masterGone s (carried s a addr.toNat) = false ∧ blockUp s addr.toNat = true ∧ addr.toNat % 4 = 0) ∧
    (∃ (a : Access) (addr : BitVec 40) (s : State), a.route = .fabric ∧ tujansAlone addr.toNat = true ∧
      masterGone s (carried s a addr.toNat) = false ∧ blockUp s addr.toNat = true ∧ addr.toNat % 4 = 0) :=
  ⟨⟨core1, (0x2000FFFC : BitVec 40), (0 : BitVec 64), withHart hart0 base, by decide +kernel, by decide +kernel, by decide +kernel,
    by decide +kernel, by decide +kernel, by decide +kernel⟩,
   ⟨core1, (0x2080FFFC : BitVec 40), withHart hart0 base, by decide +kernel, by decide +kernel, by decide +kernel, by decide +kernel,
    by decide +kernel⟩⟩

theorem test_PagesAdmitTheirPolder :
    (∃ (a : Access) (addr : BitVec 40) (v : BitVec 64) (s : State), a.route = .fabric ∧ isPage addr.toNat = true ∧
      masterGone s (carried s a addr.toNat) = false ∧ (¬ ((carried s a addr.toNat).polder = pageOf addr.toNat ∧
      (pageOf addr.toNat = 0 → (carried s a addr.toNat).secure = true)))) ∧
    (∃ (r : MemReq) (s : State) (s1 : State) (p : Nat), r.acc.route = .fabric ∧ r.dir = .read ∧
      cannotIssue r (carried s r.acc r.addr.toNat) s = false ∧ isCoreMaster (carried s r.acc r.addr.toNat).master = false ∧
      physOf r (carried s r.acc r.addr.toNat) s = (some p, s1) ∧ isPage p = true ∧ masterGone s1 (carried s1 r.acc p) = false ∧
      (¬ ((carried s1 r.acc p).polder = pageOf p ∧ (pageOf p = 0 → (carried s1 r.acc p).secure = true))) ∧ (carried s1 r.acc p).master ≠ 9) ∧
    (∃ (r : MemReq) (s : State) (c : Carried), r.acc.route = .fabric ∧ r.dir = .read ∧ c = carried s r.acc r.addr.toNat ∧
      cannotIssue r c s = false ∧ isCoreMaster c.master = true ∧ c.secure = false ∧
      pmpAllows (hart s (c.master - 1)) r.addr.toNat r.len 0 = true ∧ isPage r.addr.toNat = true ∧ c.polder ≠ pageOf r.addr.toNat) ∧
    (∃ (a : Access) (addr : Nat) (v : Nat) (s : State), a.route = .fabric ∧ isPage addr = true ∧ masterGone s (carried s a addr) = false ∧
      blockUp s addr = true ∧ addr % 4 = 0 ∧ mbxAddr s addr = none ∧ (carried s a addr).polder = pageOf addr ∧
      ((pageOf addr = 0 → (carried s a addr).secure = true))) ∧
    (∃ (a : Access) (addr : Nat) (s : State), a.route = .fabric ∧ isPage addr = true ∧ masterGone s (carried s a addr) = false ∧
      blockUp s addr = true ∧ addr % 4 = 0 ∧ mbxAddr s addr = none ∧ (((carried s a addr).master = 9 ∨ secureCore (carried s a addr) = true))) :=
  ⟨⟨dev 11, (0x301F0C00 : BitVec 40), (0 : BitVec 64), base, by decide +kernel, by decide +kernel, by decide +kernel, by decide +kernel⟩,
   ⟨req (dev 11) .read 0x301F0C00 4, base, base, 0x301F0C00, by decide +kernel, by decide +kernel, by decide +kernel, by decide +kernel,
    by decide +kernel, by decide +kernel, by decide +kernel, by decide +kernel, by decide +kernel⟩,
   ⟨req core1 .read 0x301F0C00 4, withHart { hart0 with priv := 1, world := false, spolder := 1, pmpcfg := [31], pmpaddr := [2 ^ 54 - 1] } base,
    carried (withHart { hart0 with priv := 1, world := false, spolder := 1, pmpcfg := [31], pmpaddr := [2 ^ 54 - 1] } base) (req core1 .read 0x301F0C00 4).acc (req core1 .read 0x301F0C00 4).addr.toNat,
    by decide +kernel, by decide +kernel, rfl, by decide +kernel, by decide +kernel, by decide +kernel, by decide +kernel, by decide +kernel,
    by decide +kernel⟩,
   ⟨dev 11, 0x30010C00, 0, base, by decide +kernel, by decide +kernel, by decide +kernel, by decide +kernel, by decide +kernel, by decide +kernel,
    by decide +kernel, by decide +kernel⟩,
   ⟨core1, 0x301F0C00, withHart { hart0 with world := true } base, by decide +kernel, by decide +kernel, by decide +kernel, by decide +kernel,
    by decide +kernel, by decide +kernel, by decide +kernel⟩⟩

/-! ## The commands that are not well formed -/

theorem test_wf_no_length : Instr.wf (.memoryAccess ⟨tujan, .read, 0x40000000, 0, [], 0, 0, .clean, .none, none⟩) = false := by decide
theorem test_wf_data_missing : Instr.wf (.memoryAccess ⟨tujan, .write, 0x40000000, 2, [1], 0, 0, .clean, .none, none⟩) = false := by decide
theorem test_wf_data_of_a_read : Instr.wf (.memoryAccess ⟨tujan, .read, 0x40000000, 1, [1], 0, 0, .clean, .none, none⟩) = false := by decide
theorem test_wf_no_reader : Instr.wf (.mbxLockAcquire 0 []) = false := by decide
theorem test_wf_reader_twice : Instr.wf (.mbxLockAcquire 0 [5, 5]) = false := by decide
theorem test_wf_reader_zero : Instr.wf (.mbxLockAcquire 0 [0]) = false := by decide
theorem test_wf_readers : Instr.wf (.mbxLockAcquire 31 [63, 1]) = true := by decide

/-! ## The spec's worked examples -/

/-- A CRC job with a parameter set of Table CVU-1 over the nine bytes 0x31 to 0x39. -/
def crcJob (w poly init : Nat) (ref : Bool) (xorout : Nat) : CvuJob :=
  ⟨0, 9, (if ref then 12 else 0) + 16 * w + 2 ^ 14, poly, init, xorout, [], [], [], true, false, none⟩
def crcOf (j : CvuJob) : Nat := j.crcResult (j.crc [0x31, 0x32, 0x33, 0x34, 0x35, 0x36, 0x37, 0x38, 0x39])

/-- Table CVU-1. -/
theorem test_crc_5_usb : crcOf (crcJob 5 0x05 0x1F true 0x1F) = 0x19 := by decide +kernel
theorem test_crc_8_smbus : crcOf (crcJob 8 0x07 0 false 0) = 0xF4 := by decide +kernel
theorem test_crc_16_ibm_3740 : crcOf (crcJob 16 0x1021 0xFFFF false 0) = 0x29B1 := by decide +kernel
theorem test_crc_16_arc : crcOf (crcJob 16 0x8005 0 true 0) = 0xBB3D := by decide +kernel
theorem test_crc_32_iso_hdlc : crcOf (crcJob 32 0x04C11DB7 0xFFFFFFFF true 0xFFFFFFFF) = 0xCBF43926 := by decide +kernel
theorem test_crc_32c : crcOf (crcJob 32 0x1EDC6F41 0xFFFFFFFF true 0xFFFFFFFF) = 0xE3069283 := by decide +kernel
theorem test_crc_64_xz : crcOf (crcJob 64 0x42F0E1EBA9EA3693 (2 ^ 64 - 1) true (2 ^ 64 - 1)) = 0x995DC9BBDF1939FA := by decide +kernel

/-- The field-check example of the check-value chapter: two jobs give what one gives. -/
theorem test_crc_in_two_jobs :
    let j := crcJob 32 0x04C11DB7 0xFFFFFFFF true 0xFFFFFFFF
    let r := j.crc [0x31, 0x32, 0x33, 0x34]
    { j with cfg := j.cfg + 2 ^ 13, run := [r] }.crcResult ({ j with cfg := j.cfg + 2 ^ 13, run := [r] }.crc [0x35, 0x36, 0x37, 0x38, 0x39]) =
      0xCBF43926 := by decide +kernel

/-- The win-celebration pixel of the four-screen cabinet: effective alpha, premultiplied source, blend, and pool word. -/
theorem test_premultiplied : premultiplied 0 4095 false ⟨exp8 255, exp8 200, exp8 0, exp8 128⟩ = ⟨2056, 1613, 0, 2056⟩ := by decide +kernel
theorem test_blend : blend ⟨exp8 20, exp8 40, exp8 200, 4095⟩ ⟨2056, 1613, 0, 2056⟩ = ⟨2216, 1933, 1599, 4095⟩ := by decide +kernel
theorem test_pool_word : poolWord false none false false ⟨2216, 1933, 1599, 4095⟩ = 0x19078E2A := by decide +kernel
theorem test_signature_bytes : codeBytes false 0x19078E2A = [0x2A, 0x02, 0xE3, 0x01, 0x90, 0x01] := by decide +kernel

/-- Table DMC-4: the address 0x12_3456_7840 with 64 GiB and the reset masks. -/
theorem test_dram_channel : dramChannel { State.reset with dmc := { DmcSt.reset with gib := 64 } } 0x234567840 = 14 := by decide +kernel
theorem test_dram_bank : dramBank { State.reset with dmc := { DmcSt.reset with gib := 64 } } 0x234567840 = 10 := by decide +kernel
theorem test_dram_row : dramRow { State.reset with dmc := { DmcSt.reset with gib := 64 } } 0x234567840 = 0x468A := by decide +kernel

/-- A layer with its format, widths, heights and stripes given. -/
def layer13 (format srcW srcH dstW dstH : Nat) (twoTaps striped : Bool) : Layer :=
  ⟨13, true, format, 0, false, twoTaps, striped, false, 0, false, 0, 0, srcW, srcH, 0, 0, dstW, dstH, 0, 0, 4095, (0, 0, 0), 3, 0, 0, 0, 8192, 8192⟩

/-- The validation example of the harbour console, and Table CMP-15's ticker. -/
theorem test_demand_yuv : fetchDemand (layer13 0x10 3840 2160 3840 2160 false false) = 197640 := by decide +kernel
theorem test_demand_striped : fetchDemand (layer13 0x01 7680 1440 3840 720 false true) = 695520 := by decide +kernel
theorem test_demand_two_taps : fetchDemand (layer13 0x01 7680 1440 3840 720 true false) = 692640 := by decide +kernel
theorem test_demand_ticker : fetchDemand (layer13 0x01 1920 120 3840 240 false false) = 14520 := by decide +kernel

/-- The example of a code word: SCN_STALE_TILE on output 3. -/
theorem test_event_code : evCode (Src.SCN_OUT 3) 1 = 0x761 := by decide +kernel

/-- Table APC-2's examples: SLCALL x1, x10 and SLRET x1. -/
theorem test_slcall_word : custom0 0x0005108B 1 = true ∧ bits 0x0005108B 11 7 = 1 ∧ bits 0x0005108B 19 15 = 10 := by decide +kernel
theorem test_slret_word : custom0 0x0000A00B 2 = true ∧ bits 0x0000A00B 19 15 = 1 := by decide +kernel

/-- Finger A on the Lantern Cove main screen, column sums 120, 400 and 280, row sums 200, 500 and 100. -/
theorem test_touch_position :
    panelPos (fun i j => ([[30, 75, 15], [100, 250, 50], [70, 175, 35]].getD (i.toNat - 9) []).getD (j.toNat - 58) 0) 10 59 = (653, 3768) := by
  decide +kernel

/-! ## One step each -/

/-- R41, R43: master 63 wins a free lock whose pointer is 63, and the pointer wraps. -/
theorem test_lock_wraps : (after (toRun (.mbxLockAcquire 7 [2, 63]) { base with lockPtr := [(7, 63)] })).lockPtr = [(7, 1)] := by decide +kernel

/-- R33: the ninth message is refused and marks the channel. -/
theorem test_push_overflow : (chan (after (toRun pushing crowded)) 0).q.length = 8 ∧ rd (after (toRun pushing crowded)) (MBX_CH_STAT_tx_overflow 0) = 1 := by
  decide +kernel

/-- R8: a read-only field keeps its value. -/
theorem test_read_only : rd (after (toRun (.registerWrite tujan 0x20100058 4 5) base)) (DMC_RH_THROTTLED_masters 0) = 0 := by decide +kernel

/-- R12: the halves of DMC_RT_MASK are applied together. -/
theorem test_wide_write : rd (after (toRun (.reg64HighWrite tujan 0x2010004C 1) { base with wrHold := [(wordKey 9 0x20100048, some 2)] }))
    (DMC_RT_MASK_masters 0) = 2 ^ 32 + 2 := by decide +kernel

/-- A store reaches its last byte, and R119: the set and clear aliases act on the memory behind them. -/
theorem test_byte_written : byteAt (after (toRun (.memoryAccess (req tujan .write 0x43000000 4)) base)) 0x43000003 = 255 := by decide +kernel

/-- An unwritten byte reads 0, the model's choice (notes/assumptions/2.md). -/
theorem test_byte_unwritten : byteAt (after (toRun (.memoryAccess (req tujan .write 0x43000000 4)) base)) 0x43000004 = 0 := by decide +kernel
theorem test_clear_alias : byteAt (after (toRun (.ocmAliasWrite tujan 0x63000000 4 0x0F false) (writeNat 0x43000000 4 0xFF base))) 0x43000000 = 0xF0 := by
  decide +kernel

end Sys2Proof.Tests
end

/-! PROOFS. The frame of memory, and the register accesses that no row of the table describes by itself. -/
namespace Sys2Proof.Proofs
open Sys2Proof Sys2Proof.Machine

/-! ## The frame of memory -/

/-- What every command keeps, whatever its outcome: the parts that `Keeps` names, and memory itself under the commands that store
nothing. One arm per row of the table, each the lemma of that row's meaning. -/
theorem keeps_exec (c : Instr) (s : State) : KeepsR (!storesNothing c) s (exec c s) := by
  cases c with
  | registerWrite => exact keeps_execRegisterWrite (Keeps.refl s)
  | reg64LowRead => exact keeps_execReg64LowRead (Keeps.refl s)
  | reg64HighWrite => exact keeps_execReg64HighWrite (Keeps.refl s)
  | memoryAccess => exact keeps_execMemoryAccess (Keeps.refl s)
  | ocmEccWriteback => exact keeps_execOcmEccWriteback (Keeps.refl s)
  | ocmAliasWrite => exact keeps_execOcmAliasWrite (Keeps.refl s)
  | fabricTimeout => exact keeps_execFabricTimeout (Keeps.refl s)
  | pciCompletionTimeout => exact keeps_execPciCompletionTimeout (Keeps.refl s)
  | pciLateCompletion => exact keeps_execPciLateCompletion (Keeps.refl s)
  | pciLinkDown => exact keeps_execPciLinkDown (Keeps.refl s)
  | pciHotReset => exact keeps_execPciHotReset (Keeps.refl s)
  | mbxPush => exact keeps_execMbxPush (Keeps.refl s)
  | mbxPop => exact keeps_execMbxPop (Keeps.refl s)
  | mbxLockAcquire => exact keeps_execMbxLockAcquire (Keeps.refl s)
  | mbxLockRelease => exact keeps_execMbxLockRelease (Keeps.refl s)
  | mbxCrosswait => exact keeps_execMbxCrosswait (Keeps.refl s)
  | tujanHoldDrain => exact keeps_execTujanHoldDrain (Keeps.refl s)
  | partyAck => exact keeps_execPartyAck (Keeps.refl s)
  | devGetInfo => exact keeps_execDevGetInfo (Keeps.refl s)
  | devGetStatus => exact keeps_execDevGetStatus (Keeps.refl s)
  | wardenGet => exact keeps_execWardenGet (Keeps.refl s)
  | devGetParam => exact keeps_execDevGetParam (Keeps.refl s)
  | devSetParam => exact keeps_execDevSetParam (Keeps.refl s)
  | wardenClaim => exact keeps_execWardenClaim (Keeps.refl s)
  | claimWindowClose => exact keeps_execClaimWindowClose (Keeps.refl s)
  | wardenAccept => exact keeps_execWardenAccept (Keeps.refl s)
  | wardenHandover => exact keeps_execWardenHandover (Keeps.refl s)
  | handoverLapse => exact keeps_execHandoverLapse (Keeps.refl s)
  | wardenRelease => exact keeps_execWardenRelease (Keeps.refl s)
  | mbxSetRx => exact keeps_execMbxSetRx (Keeps.refl s)
  | sluice => exact keeps_execSluice (Keeps.refl s)
  | slcall => exact keeps_execSlcall (Keeps.refl s)
  | slret => exact keeps_execSlret (Keeps.refl s)
  | polderTagWrite => exact keeps_execPolderTagWrite (Keeps.refl s)
  | trapToMachine => exact keeps_execTrapToMachine (Keeps.refl s)
  | mret => exact keeps_execMret (Keeps.refl s)
  | worldWatchdog => exact keeps_execWorldWatchdog (Keeps.refl s)
  | pldReqMap => exact keeps_execPldReqMap (Keeps.refl s)
  | mapSwitchDone => exact keeps_execMapSwitchDone (Keeps.refl s)
  | pldReqTidemark => exact keeps_execPldReqTidemark (Keeps.refl s)
  | fenceNormalWrite => exact keeps_execFenceNormalWrite (Keeps.refl s)
  | pldTidemarkWrite => exact keeps_execPldTidemarkWrite (Keeps.refl s)
  | pldInvStart => exact keeps_execPldInvStart (Keeps.refl s)
  | pldInvDone => exact keeps_execPldInvDone (Keeps.refl s)
  | pldS2RootWrite => exact keeps_execPldS2RootWrite (Keeps.refl s)
  | pldS2Inv => exact keeps_execPldS2Inv (Keeps.refl s)
  | pldS2InvDone => exact keeps_execPldS2InvDone (Keeps.refl s)
  | secClaimWrite => exact keeps_execSecClaimWrite (Keeps.refl s)
  | dbgEnableWrite => exact keeps_execDbgEnableWrite (Keeps.refl s)
  | polderGetInfo => exact keeps_execPolderGetInfo (Keeps.refl s)
  | polderGetGrants => exact keeps_execPolderGetGrants (Keeps.refl s)
  | polderCreate => exact keeps_execPolderCreate (Keeps.refl s)
  | polderDestroy => exact keeps_execPolderDestroy (Keeps.refl s)
  | polderGrant => exact keeps_execPolderGrant (Keeps.refl s)
  | polderRevoke => exact keeps_execPolderRevoke (Keeps.refl s)
  | polderSetShare => exact keeps_execPolderSetShare (Keeps.refl s)
  | polderReset => exact keeps_execPolderReset (Keeps.refl s)
  | polderWorkAbort => exact keeps_execPolderWorkAbort (Keeps.refl s)
  | crpPolderSquash => exact keeps_execCrpPolderSquash (Keeps.refl s)
  | polderResetDone => exact keeps_execPolderResetDone (Keeps.refl s)
  | polderAssignPair => exact keeps_execPolderAssignPair (Keeps.refl s)
  | pcieSetWindows => exact keeps_execPcieSetWindows (Keeps.refl s)
  | evlEnableWrite => exact keeps_execEvlEnableWrite (Keeps.refl s)
  | dramRefresh => exact keeps_execDramRefresh (Keeps.refl s)
  | urgentFlagChange => exact keeps_execUrgentFlagChange (Keeps.refl s)
  | refreshWindowStart => exact keeps_execRefreshWindowStart (Keeps.refl s)
  | zqCalibration => exact keeps_execZqCalibration (Keeps.refl s)
  | retrainStep => exact keeps_execRetrainStep (Keeps.refl s)
  | dmcTrainingLost => exact keeps_execDmcTrainingLost (Keeps.refl s)
  | dmcRetrainDone => exact keeps_execDmcRetrainDone (Keeps.refl s)
  | ocmScrubPass => exact keeps_execOcmScrubPass (Keeps.refl s)
  | dramPatrol => exact keeps_execDramPatrol (Keeps.refl s)
  | memGetInfo => exact keeps_execMemGetInfo (Keeps.refl s)
  | memGetOcmRegion => exact keeps_execMemGetOcmRegion (Keeps.refl s)
  | memGetThrottle => exact keeps_execMemGetThrottle (Keeps.refl s)
  | memSetOcmRegion => exact keeps_execMemSetOcmRegion (Keeps.refl s)
  | memSetPasr => exact keeps_execMemSetPasr (Keeps.refl s)
  | memSetRefresh => exact keeps_execMemSetRefresh (Keeps.refl s)
  | memSetRowhammer => exact keeps_execMemSetRowhammer (Keeps.refl s)
  | memSetRtMasters => exact keeps_execMemSetRtMasters (Keeps.refl s)
  | cmpFlipPush => exact keeps_execCmpFlipPush (Keeps.refl s)
  | flipValidate => exact keeps_execFlipValidate (Keeps.refl s)
  | cmpCommit => exact keeps_execCmpCommit (Keeps.refl s)
  | commitValidate => exact keeps_execCommitValidate (Keeps.refl s)
  | latchPoint => exact keeps_execLatchPoint (Keeps.refl s)
  | layerHeartbeat => exact keeps_execLayerHeartbeat (Keeps.refl s)
  | dspGetLayer => exact keeps_execDspGetLayer (Keeps.refl s)
  | dspGetOutputCommit => exact keeps_execDspGetOutputCommit (Keeps.refl s)
  | dspSetSlot => exact keeps_execDspSetSlot (Keeps.refl s)
  | dspSetSecureSlot => exact keeps_execDspSetSecureSlot (Keeps.refl s)
  | dspSetLatch => exact keeps_execDspSetLatch (Keeps.refl s)
  | dspSetBudget => exact keeps_execDspSetBudget (Keeps.refl s)
  | dspSetBackground => exact keeps_execDspSetBackground (Keeps.refl s)
  | dspSetSecureZ => exact keeps_execDspSetSecureZ (Keeps.refl s)
  | bandEligible => exact keeps_execBandEligible (Keeps.refl s)
  | tileDispatch => exact keeps_execTileDispatch (Keeps.refl s)
  | tileComplete => exact keeps_execTileComplete (Keeps.refl s)
  | engineFault => exact keeps_execEngineFault (Keeps.refl s)
  | engineWatchdog => exact keeps_execEngineWatchdog (Keeps.refl s)
  | engineReset => exact keeps_execEngineReset (Keeps.refl s)
  | engineReturn => exact keeps_execEngineReturn (Keeps.refl s)
  | layerUnderrun => exact keeps_execLayerUnderrun (Keeps.refl s)
  | tileAbandoned => exact keeps_execTileAbandoned (Keeps.refl s)
  | wbBandComplete => exact keeps_execWbBandComplete (Keeps.refl s)
  | wbBandDrop => exact keeps_execWbBandDrop (Keeps.refl s)
  | poolEntryRelease => exact keeps_execPoolEntryRelease (Keeps.refl s)
  | dspGetEngines => exact keeps_execDspGetEngines (Keeps.refl s)
  | dspGetScaler => exact keeps_execDspGetScaler (Keeps.refl s)
  | dspSetCompose => exact keeps_execDspSetCompose (Keeps.refl s)
  | dspSetWriteback => exact keeps_execDspSetWriteback (Keeps.refl s)
  | dspSetScaler => exact keeps_execDspSetScaler (Keeps.refl s)
  | regionCompare => exact keeps_execRegionCompare (Keeps.refl s)
  | attestRecord => exact keeps_execAttestRecord (Keeps.refl s)
  | motionReadDone => exact keeps_execMotionReadDone (Keeps.refl s)
  | autoReadDone => exact keeps_execAutoReadDone (Keeps.refl s)
  | expectPush => exact keeps_execExpectPush (Keeps.refl s)
  | dkwBreachClear => exact keeps_execDkwBreachClear (Keeps.refl s)
  | dkwRelearn => exact keeps_execDkwRelearn (Keeps.refl s)
  | dkwKeyLoad => exact keeps_execDkwKeyLoad (Keeps.refl s)
  | dkwRingEnable => exact keeps_execDkwRingEnable (Keeps.refl s)
  | dkwHeadSnap => exact keeps_execDkwHeadSnap (Keeps.refl s)
  | dkwImageWrite => exact keeps_execDkwImageWrite (Keeps.refl s)
  | dkwGetLayer => exact keeps_execDkwGetLayer (Keeps.refl s)
  | dkwGetRegion => exact keeps_execDkwGetRegion (Keeps.refl s)
  | dkwGetRing => exact keeps_execDkwGetRing (Keeps.refl s)
  | dkwSetLayerLive => exact keeps_execDkwSetLayerLive (Keeps.refl s)
  | dkwSetSecureLayer => exact keeps_execDkwSetSecureLayer (Keeps.refl s)
  | dkwSetRegion => exact keeps_execDkwSetRegion (Keeps.refl s)
  | dkwSetImage => exact keeps_execDkwSetImage (Keeps.refl s)
  | dkwSetKey => exact keeps_execDkwSetKey (Keeps.refl s)
  | dkwSetRing => exact keeps_execDkwSetRing (Keeps.refl s)
  | vsync => exact keeps_execVsync (Keeps.refl s)
  | flip => exact keeps_execFlip (Keeps.refl s)
  | tileScan => exact keeps_execTileScan (Keeps.refl s)
  | hpdPoll => exact keeps_execHpdPoll (Keeps.refl s)
  | linkStatusPoll => exact keeps_execLinkStatusPoll (Keeps.refl s)
  | modeTimingStop => exact keeps_execModeTimingStop (Keeps.refl s)
  | modeTimingStart => exact keeps_execModeTimingStart (Keeps.refl s)
  | dspGetOutput => exact keeps_execDspGetOutput (Keeps.refl s)
  | dspGetSink => exact keeps_execDspGetSink (Keeps.refl s)
  | dspSetMode => exact keeps_execDspSetMode (Keeps.refl s)
  | dspSetLock => exact keeps_execDspSetLock (Keeps.refl s)
  | dspSetFill => exact keeps_execDspSetFill (Keeps.refl s)
  | gfxDoorbell => exact keeps_execGfxDoorbell (Keeps.refl s)
  | gfxBoundary => exact keeps_execGfxBoundary (Keeps.refl s)
  | gfxSubmissionDone => exact keeps_execGfxSubmissionDone (Keeps.refl s)
  | nop => exact keeps_execNop (Keeps.refl s)
  | call => exact keeps_execCall (Keeps.refl s)
  | state => exact keeps_execState (Keeps.refl s)
  | draw => exact keeps_execDraw (Keeps.refl s)
  | dispatch => exact keeps_execDispatch (Keeps.refl s)
  | renderBegin => exact keeps_execRenderBegin (Keeps.refl s)
  | renderEnd => exact keeps_execRenderEnd (Keeps.refl s)
  | waitGe => exact keeps_execWaitGe (Keeps.refl s)
  | waitGeMet => exact keeps_execWaitGeMet (Keeps.refl s)
  | waitGeTimeout => exact keeps_execWaitGeTimeout (Keeps.refl s)
  | write64 => exact keeps_execWrite64 (Keeps.refl s)
  | timestamp => exact keeps_execTimestamp (Keeps.refl s)
  | residencyInv => exact keeps_execResidencyInv (Keeps.refl s)
  | barrier => exact keeps_execBarrier (Keeps.refl s)
  | gfxWatchdog => exact keeps_execGfxWatchdog (Keeps.refl s)
  | gfxGetInfo => exact keeps_execGfxGetInfo (Keeps.refl s)
  | gfxGetContext => exact keeps_execGfxGetContext (Keeps.refl s)
  | gfxCtxSetup => exact keeps_execGfxCtxSetup (Keeps.refl s)
  | gfxCtxSetPriority => exact keeps_execGfxCtxSetPriority (Keeps.refl s)
  | gfxCtxRestart => exact keeps_execGfxCtxRestart (Keeps.refl s)
  | gfxCtxRelease => exact keeps_execGfxCtxRelease (Keeps.refl s)
  | gfxSetArea => exact keeps_execGfxSetArea (Keeps.refl s)
  | gfxSetReserve => exact keeps_execGfxSetReserve (Keeps.refl s)
  | gfxSetRt => exact keeps_execGfxSetRt (Keeps.refl s)
  | gfxSetSecureFloor => exact keeps_execGfxSetSecureFloor (Keeps.refl s)
  | vcdDoorbell => exact keeps_execVcdDoorbell (Keeps.refl s)
  | vcdUnitStart => exact keeps_execVcdUnitStart (Keeps.refl s)
  | vcdUnitDone => exact keeps_execVcdUnitDone (Keeps.refl s)
  | vcdEngReset => exact keeps_execVcdEngReset (Keeps.refl s)
  | vcdPicWatchdog => exact keeps_execVcdPicWatchdog (Keeps.refl s)
  | vcdPictureOutput => exact keeps_execVcdPictureOutput (Keeps.refl s)
  | encRowStart => exact keeps_execEncRowStart (Keeps.refl s)
  | encRowDone => exact keeps_execEncRowDone (Keeps.refl s)
  | encRingResume => exact keeps_execEncRingResume (Keeps.refl s)
  | vcdKeyreq => exact keeps_execVcdKeyreq (Keeps.refl s)
  | capPictureDone => exact keeps_execCapPictureDone (Keeps.refl s)
  | capSignal => exact keeps_execCapSignal (Keeps.refl s)
  | vcdGetInfo => exact keeps_execVcdGetInfo (Keeps.refl s)
  | vcdGetSession => exact keeps_execVcdGetSession (Keeps.refl s)
  | capGetInput => exact keeps_execCapGetInput (Keeps.refl s)
  | vcdOpenDecode => exact keeps_execVcdOpenDecode (Keeps.refl s)
  | vcdOpenEncode => exact keeps_execVcdOpenEncode (Keeps.refl s)
  | vcdClose => exact keeps_execVcdClose (Keeps.refl s)
  | vcdBindSlots => exact keeps_execVcdBindSlots (Keeps.refl s)
  | vcdRestart => exact keeps_execVcdRestart (Keeps.refl s)
  | capSetInput => exact keeps_execCapSetInput (Keeps.refl s)
  | audBlock d rx slips => exact keeps_execAudBlock (a0 := d) (a1 := rx) (a2 := slips) (Keeps.refl s)
  | audSwap => exact keeps_execAudSwap (Keeps.refl s)
  | audGainWrite => exact keeps_execAudGainWrite (Keeps.refl s)
  | audRingEnable => exact keeps_execAudRingEnable (Keeps.refl s)
  | audDomainLock => exact keeps_execAudDomainLock (Keeps.refl s)
  | audMeterClr => exact keeps_execAudMeterClr (Keeps.refl s)
  | audGetInfo => exact keeps_execAudGetInfo (Keeps.refl s)
  | audGetProgram => exact keeps_execAudGetProgram (Keeps.refl s)
  | audGetPaths => exact keeps_execAudGetPaths (Keeps.refl s)
  | audLoadProgram => exact keeps_execAudLoadProgram (Keeps.refl s)
  | audUnload => exact keeps_execAudUnload (Keeps.refl s)
  | audSetBridge => exact keeps_execAudSetBridge (Keeps.refl s)
  | audSetSidetone => exact keeps_execAudSetSidetone (Keeps.refl s)
  | audSetDomain => exact keeps_execAudSetDomain (Keeps.refl s)
  | audSetTdm => exact keeps_execAudSetTdm (Keeps.refl s)
  | audSetAes67 => exact keeps_execAudSetAes67 (Keeps.refl s)
  | hapTrigger => exact keeps_execHapTrigger (Keeps.refl s)
  | hapControlSample => exact keeps_execHapControlSample (Keeps.refl s)
  | hapOverdriveEnd => exact keeps_execHapOverdriveEnd (Keeps.refl s)
  | hapBrakeEnd => exact keeps_execHapBrakeEnd (Keeps.refl s)
  | hapOvercurrent => exact keeps_execHapOvercurrent (Keeps.refl s)
  | hapSenseLost => exact keeps_execHapSenseLost (Keeps.refl s)
  | hapGetChannel => exact keeps_execHapGetChannel (Keeps.refl s)
  | hapSetChannel => exact keeps_execHapSetChannel (Keeps.refl s)
  | hapRestart => exact keeps_execHapRestart (Keeps.refl s)
  | touchFrame => exact keeps_execTouchFrame (Keeps.refl s)
  | tchStart => exact keeps_execTchStart (Keeps.refl s)
  | tchLongContact => exact keeps_execTchLongContact (Keeps.refl s)
  | tchStuck => exact keeps_execTchStuck (Keeps.refl s)
  | touchWakeRecord => exact keeps_execTouchWakeRecord (Keeps.refl s)
  | tchQueueEnable => exact keeps_execTchQueueEnable (Keeps.refl s)
  | tchGetInfo => exact keeps_execTchGetInfo (Keeps.refl s)
  | tchSetClick => exact keeps_execTchSetClick (Keeps.refl s)
  | tchSetChannel => exact keeps_execTchSetChannel (Keeps.refl s)
  | tchSetMap => exact keeps_execTchSetMap (Keeps.refl s)
  | tchSetSlider => exact keeps_execTchSetSlider (Keeps.refl s)
  | tchCalibrate => exact keeps_execTchCalibrate (Keeps.refl s)
  | tchCalibrateDone => exact keeps_execTchCalibrateDone (Keeps.refl s)
  | tchSaveSnapshot => exact keeps_execTchSaveSnapshot (Keeps.refl s)
  | tchRebaseline => exact keeps_execTchRebaseline (Keeps.refl s)
  | tchGetNodes => exact keeps_execTchGetNodes (Keeps.refl s)
  | onlLink => exact keeps_execOnlLink (Keeps.refl s)
  | ptpSync => exact keeps_execPtpSync (Keeps.refl s)
  | ptpSyncTimeout => exact keeps_execPtpSyncTimeout (Keeps.refl s)
  | holdoverExpiry => exact keeps_execHoldoverExpiry (Keeps.refl s)
  | helloSend => exact keeps_execHelloSend (Keeps.refl s)
  | hello => exact keeps_execHello (Keeps.refl s)
  | peerTimeout => exact keeps_execPeerTimeout (Keeps.refl s)
  | duplicateClear => exact keeps_execDuplicateClear (Keeps.refl s)
  | schedSend => exact keeps_execSchedSend (Keeps.refl s)
  | sched => exact keeps_execSched (Keeps.refl s)
  | schedApply => exact keeps_execSchedApply (Keeps.refl s)
  | slice => exact keeps_execSlice (Keeps.refl s)
  | rxTimeout => exact keeps_execRxTimeout (Keeps.refl s)
  | keyreq => exact keeps_execKeyreq (Keeps.refl s)
  | mgrOpen => exact keeps_execMgrOpen (Keeps.refl s)
  | mgrConfirm => exact keeps_execMgrConfirm (Keeps.refl s)
  | mgrMessage => exact keeps_execMgrMessage (Keeps.refl s)
  | mgrAck => exact keeps_execMgrAck (Keeps.refl s)
  | mgrKeepalive => exact keeps_execMgrKeepalive (Keeps.refl s)
  | mgrClose => exact keeps_execMgrClose (Keeps.refl s)
  | mgrResend => exact keeps_execMgrResend (Keeps.refl s)
  | mgrSessionTimeout => exact keeps_execMgrSessionTimeout (Keeps.refl s)
  | netGetInfo => exact keeps_execNetGetInfo (Keeps.refl s)
  | netGetPeers => exact keeps_execNetGetPeers (Keeps.refl s)
  | netGetGroup => exact keeps_execNetGetGroup (Keeps.refl s)
  | netGetStream => exact keeps_execNetGetStream (Keeps.refl s)
  | netSetTxStream => exact keeps_execNetSetTxStream (Keeps.refl s)
  | netSetRxStream => exact keeps_execNetSetRxStream (Keeps.refl s)
  | netClearStream => exact keeps_execNetClearStream (Keeps.refl s)
  | netSetIdentity => exact keeps_execNetSetIdentity (Keeps.refl s)
  | netSetPort => exact keeps_execNetSetPort (Keeps.refl s)
  | netSetPtp => exact keeps_execNetSetPtp (Keeps.refl s)
  | netSetMacsec => exact keeps_execNetSetMacsec (Keeps.refl s)
  | netSetQbv => exact keeps_execNetSetQbv (Keeps.refl s)
  | netSetGroup => exact keeps_execNetSetGroup (Keeps.refl s)
  | netSetExport => exact keeps_execNetSetExport (Keeps.refl s)
  | netSetAes67 => exact keeps_execNetSetAes67 (Keeps.refl s)
  | netSetMgrKey => exact keeps_execNetSetMgrKey (Keeps.refl s)
  | weirSummary => exact keeps_execWeirSummary (Keeps.refl s)
  | freezeTimeout => exact keeps_execFreezeTimeout (Keeps.refl s)
  | archiveBlockWrite => exact keeps_execArchiveBlockWrite (Keeps.refl s)
  | vaultQueueWrite => exact keeps_execVaultQueueWrite (Keeps.refl s)
  | vltMeterSync => exact keeps_execVltMeterSync (Keeps.refl s)
  | meterSyncDone => exact keeps_execMeterSyncDone (Keeps.refl s)
  | vltCntInc => exact keeps_execVltCntInc (Keeps.refl s)
  | vltExtGo => exact keeps_execVltExtGo (Keeps.refl s)
  | tamperSample => exact keeps_execTamperSample (Keeps.refl s)
  | vbatMeasure => exact keeps_execVbatMeasure (Keeps.refl s)
  | rtcSync => exact keeps_execRtcSync (Keeps.refl s)
  | powerFail => exact keeps_execPowerFail (Keeps.refl s)
  | powerFailReset => exact keeps_execPowerFailReset (Keeps.refl s)
  | cvuStart => exact keeps_execCvuStart (Keeps.refl s)
  | cvuStartAbort => exact keeps_execCvuStartAbort (Keeps.refl s)
  | cvuJobEnd => exact keeps_execCvuJobEnd (Keeps.refl s)
  | evrGetInfo => exact keeps_execEvrGetInfo (Keeps.refl s)
  | evrRead => exact keeps_execEvrRead (Keeps.refl s)
  | evrGetWeir => exact keeps_execEvrGetWeir (Keeps.refl s)
  | vltGetStatus => exact keeps_execVltGetStatus (Keeps.refl s)
  | vltGetCritical => exact keeps_execVltGetCritical (Keeps.refl s)
  | cvuGetChannel => exact keeps_execCvuGetChannel (Keeps.refl s)
  | cvuFieldCheck => exact keeps_execCvuFieldCheck (Keeps.refl s)
  | cvuRun => exact keeps_execCvuRun (Keeps.refl s)
  | cvuSave => exact keeps_execCvuSave (Keeps.refl s)
  | cvuLoad => exact keeps_execCvuLoad (Keeps.refl s)
  | cvuSetKey => exact keeps_execCvuSetKey (Keeps.refl s)
  | cvuAbort => exact keeps_execCvuAbort (Keeps.refl s)
  | evrSetWeir => exact keeps_execEvrSetWeir (Keeps.refl s)
  | evrFreeze => exact keeps_execEvrFreeze (Keeps.refl s)
  | evrSnapshot => exact keeps_execEvrSnapshot (Keeps.refl s)
  | evrSetArchive => exact keeps_execEvrSetArchive (Keeps.refl s)
  | evrSetSecureWeir => exact keeps_execEvrSetSecureWeir (Keeps.refl s)
  | evrSetVaultSev => exact keeps_execEvrSetVaultSev (Keeps.refl s)
  | vltSetTamper => exact keeps_execVltSetTamper (Keeps.refl s)
  | vltSetRtc => exact keeps_execVltSetRtc (Keeps.refl s)
  | vltGetMeters => exact keeps_execVltGetMeters (Keeps.refl s)
  | deviceReset => exact keeps_execDeviceReset (Keeps.refl s)
  | tujanWatchdog => exact keeps_execTujanWatchdog (Keeps.refl s)
  | hostBootWrite => exact keeps_execHostBootWrite (Keeps.refl s)
  | dramInitDone => exact keeps_execDramInitDone (Keeps.refl s)
  | hartRelease => exact keeps_execHartRelease (Keeps.refl s)
  | splashHeartbeat => exact keeps_execSplashHeartbeat (Keeps.refl s)
  | telemetryRead => exact keeps_execTelemetryRead (Keeps.refl s)
  | thermalShutdown => exact keeps_execThermalShutdown (Keeps.refl s)
  | quietAck => exact keeps_execQuietAck (Keeps.refl s)
  | quietAckTimeout => exact keeps_execQuietAckTimeout (Keeps.refl s)
  | quietEntryDone => exact keeps_execQuietEntryDone (Keeps.refl s)
  | wakeEvent => exact keeps_execWakeEvent (Keeps.refl s)
  | quietExitDone => exact keeps_execQuietExitDone (Keeps.refl s)
  | shutdownComplete => exact keeps_execShutdownComplete (Keeps.refl s)
  | standbyWake => exact keeps_execStandbyWake (Keeps.refl s)
  | thermalRestart => exact keeps_execThermalRestart (Keeps.refl s)
  | pwrGetState => exact keeps_execPwrGetState (Keeps.refl s)
  | pwrGetTelemetry => exact keeps_execPwrGetTelemetry (Keeps.refl s)
  | bootGetInfo => exact keeps_execBootGetInfo (Keeps.refl s)
  | pumpGetStatus => exact keeps_execPumpGetStatus (Keeps.refl s)
  | pwrEnterQuiet => exact keeps_execPwrEnterQuiet (Keeps.refl s)
  | pwrShutdown => exact keeps_execPwrShutdown (Keeps.refl s)
  | pwrSetBlock => exact keeps_execPwrSetBlock (Keeps.refl s)
  | pwrReset => exact keeps_execPwrReset (Keeps.refl s)
  | pwrSetThermal => exact keeps_execPwrSetThermal (Keeps.refl s)
  | bootOtpProgram => exact keeps_execBootOtpProgram (Keeps.refl s)
  | pmbusStep => exact keeps_execPmbusStep (Keeps.refl s)
  | uartDataWrite => exact keeps_execUartDataWrite (Keeps.refl s)
  | uartDataRead => exact keeps_execUartDataRead (Keeps.refl s)
  | uartRxByte => exact keeps_execUartRxByte (Keeps.refl s)
  | i2cCmd => exact keeps_execI2cCmd (Keeps.refl s)
  | i2cRxRead => exact keeps_execI2cRxRead (Keeps.refl s)
  | i2cCmdDone => exact keeps_execI2cCmdDone (Keeps.refl s)
  | spiTxWrite => exact keeps_execSpiTxWrite (Keeps.refl s)
  | spiRxRead => exact keeps_execSpiRxRead (Keeps.refl s)
  | spiWordDone => exact keeps_execSpiWordDone (Keeps.refl s)
  | gpioOutSet => exact keeps_execGpioOutSet (Keeps.refl s)
  | gpioOutClr => exact keeps_execGpioOutClr (Keeps.refl s)
  | gpioEdge => exact keeps_execGpioEdge (Keeps.refl s)
  | pciLinkUp => exact keeps_execPciLinkUp (Keeps.refl s)
  | undefinedOpcode => exact keeps_execUndefinedOpcode (Keeps.refl s)
  | custom0ReservedFunct3 => exact keeps_execCustom0ReservedFunct3 (Keeps.refl s)
  | trapToSupervisor => exact keeps_execTrapToSupervisor (Keeps.refl s)
  | gfxClusterFault => exact keeps_execGfxClusterFault (Keeps.refl s)
  | ocmScrubRead => exact keeps_execOcmScrubRead (Keeps.refl s)
  | ethernetFrameRx => exact keeps_execEthernetFrameRx (Keeps.refl s)
  | qbvListStart => exact keeps_execQbvListStart (Keeps.refl s)
  | ptpAnnounce => exact keeps_execPtpAnnounce (Keeps.refl s)
  | eventExportSend => exact keeps_execEventExportSend (Keeps.refl s)
  | aes67PacketRx => exact keeps_execAes67PacketRx (Keeps.refl s)
  | tearingEffectEdge => exact keeps_execTearingEffectEdge (Keeps.refl s)
  | uartTxDone => exact keeps_execUartTxDone (Keeps.refl s)
  | tujanFirmwareStart => exact keeps_execTujanFirmwareStart (Keeps.refl s)
  | splashSegmentLoaded => exact keeps_execSplashSegmentLoaded (Keeps.refl s)
  | debugHaltRequest => exact keeps_execDebugHaltRequest (Keeps.refl s)

/-- A command that stores nothing leaves memory as it was. -/
theorem exec_mem_of_storesNothing {c : Instr} {s t : State} (hc : storesNothing c = true) (ht : exec c s = .next t) : t.mem = s.mem := by
  have hk : Keeps (!storesNothing c) s t := keeps_exec c s t ht
  exact hk.mem (by rw [hc]; rfl)

/-- Settles O50: under such a command memory is as it was, and a byte is read from memory alone. -/
theorem commandsThatStoreNothing : Obligations.CommandsThatStoreNothing := by
  unfold Obligations.CommandsThatStoreNothing
  intro c s t hc ht a
  unfold byteAt
  rw [exec_mem_of_storesNothing hc ht]

/-! ## Writes and reads of registers -/

/-- No register address lies in a doorbell page. -/
theorem isPage_of_isReg {addr : Nat} (h : isReg addr = true) : isPage addr = false := by
  simp only [isReg, Bool.and_eq_true, decide_eq_true_eq] at h
  simp only [isPage, Bool.and_eq_false_iff, decide_eq_false_iff_not]
  omega

theorem registerWrite_eq_busWrite {a : Access} {addr : BitVec 40} {size : Fin 17} {v : BitVec 64} {s : State} (h : isReg addr.toNat = true) :
    exec (.registerWrite a addr size v) s = busWrite a addr size (v.setWidth 32) s := by
  simp [exec, execRegisterWrite, h]

theorem reg64HighWrite_eq_busWrite {a : Access} {addr : BitVec 40} {v : BitVec 32} {s : State} {row : Row} {ix : List Nat}
    (hrow : rowOf s addr.toNat = some (row, ix, true)) (hwide : row.wide = true) (hwr : writable (row.flds ix) = true) :
    exec (.reg64HighWrite a addr v) s = busWrite a addr 4 v s := by
  simp [exec, execReg64HighWrite, hrow, hwide, hwr]

theorem reg64LowRead_eq_busRead {a : Access} {addr : BitVec 40} {size : Fin 17} {s : State} {row : Row} {ix : List Nat}
    (hrow : rowOf s addr.toNat = some (row, ix, false)) (hwide : row.wide = true) :
    exec (.reg64LowRead a addr size) s = busRead a addr size s := by
  simp [exec, execReg64LowRead, hrow, hwide]

/-- A 32-bit write that no row of its own describes and that its block takes. -/
theorem busWrite_admitted {a : Access} {addr : BitVec 40} {v : BitVec 32} {s : State} (hmsix : msixAt s a addr.toNat = none)
    (hown : rowWrite a addr v s = none) (hadm : admitted a addr.toNat v.toNat s = true) :
    busWrite a addr 4 v s = .next (settle 4 (admittedWrite (carried s a addr.toNat) addr.toNat v.toNat s)) := by
  simp only [admitted, Option.isNone_iff_eq_none] at hadm
  simp [busWrite, hmsix, hown, hadm, done]

/-- A write that is not of 32 bits and that is turned away. -/
theorem busWrite_turned_of_size {a : Access} {addr : BitVec 40} {size : Nat} {v : BitVec 32} {s s1 : State} (hsize : size ≠ 4)
    (hmsix : msixAt s a addr.toNat = none) (ht : turnedAway a addr.toNat size v.toNat s = some s1) :
    busWrite a addr size v s = .next (settle 4 s1) := by
  simp [busWrite, hmsix, hsize, ht, done]

/-- A 32-bit read that no row of its own describes and that its block answers. -/
theorem busRead_readable {a : Access} {addr : BitVec 40} {s : State} (hmsix : msixAt s a addr.toNat = none)
    (hown : effectRead a addr s = none) (hread : readable a addr.toNat s = true) :
    busRead a addr 4 s = .next (settle 4 { (admittedRead (carried s a addr.toNat) addr.toNat s).2 with
      busReply := (admittedRead (carried s a addr.toNat) addr.toNat s).1 }) := by
  simp only [readable, Option.isNone_iff_eq_none] at hread
  simp [busRead, hmsix, hown, hread, done]

/-- The MSI-X table is reached through BAR0 alone. -/
theorem msixAt_fabric {a : Access} {addr : Nat} {s : State} (h : a.route = .fabric) : msixAt s a addr = none := by
  simp [msixAt, h]

/-- R7: a write of a register that is not of 32 bits is turned away with kind 1. -/
theorem turnedAway_of_size {a : Access} {addr size v : Nat} {s : State} (hreg : isReg addr = true) (hroute : a.route = .fabric)
    (hgone : masterGone s (carried s a addr) = false) (hblk : inBlock addr = true) (hup : blockUp s addr = true) (hsize : size ≠ 4) :
    turnedAway a addr size v s = some (violateAt (carried s a addr) 1 addr v s) := by
  simp [turnedAway, hgone, barDiscards, bootDiscards, hroute, isPage_of_isReg hreg, hreg, hblk, hup, hsize]

section
variable {c : Carried} {addr v h : Nat} {s : State} {row : Row} {ix : List Nat}

/-- R8: an admitted write of a 32-bit register. -/
theorem admittedWrite_narrow (hpage : isPage addr = false) (hhome : regHome s addr = some h) (hrow : rowOf s addr = some (row, ix, false))
    (hwide : row.wide = false) (hwr : writable (row.flds ix) = true) (hown : ownEffect c addr h v s = none) :
    admittedWrite c addr v s = follows addr h s (fieldsTake c addr v (row.flds ix) (val32 v) s) := by
  simp [admittedWrite, hpage, hhome, hrow, hwide, hwr, hown]

/-- R12: an admitted write of a low word is held for its writer. -/
theorem admittedWrite_low (hpage : isPage addr = false) (hhome : regHome s addr = some h) (hrow : rowOf s addr = some (row, ix, false))
    (hwide : row.wide = true) (hwr : writable (row.flds ix) = true) :
    admittedWrite c addr v s = holdWord c.master addr (some v) s := by
  simp [admittedWrite, hpage, hhome, hrow, hwide, hwr]

/-- R12: an admitted write of a high word applies both words and holds nothing any more. -/
theorem admittedWrite_high (hpage : isPage addr = false) (hhome : regHome s addr = some h) (hrow : rowOf s addr = some (row, ix, true))
    (hwide : row.wide = true) (hwr : writable (row.flds ix) = true) :
    admittedWrite c addr v s = follows addr h s (fieldsTake c addr v (row.flds ix)
      (val64 s (Tab.get none s.wrHold (wordKey c.master (addr - 4))) v) (holdWord c.master (addr - 4) none s)) := by
  simp [admittedWrite, hpage, hhome, hrow, hwide, hwr]

/-- R11: an admitted read of a low word latches the high word for its reader. -/
theorem admittedRead_low (hpage : isPage addr = false) (hhome : regHome s addr = some h) (hrow : rowOf s addr = some (row, ix, false))
    (hwide : row.wide = true) :
    admittedRead c addr s = (lo32 (regValue s h row ix),
      { s with rdLatch := s.rdLatch.put (wordKey c.master addr) (some (hi32 (regValue s h row ix))) }) := by
  simp [admittedRead, readWord, hpage, hhome, hrow, hwide]

end

/-- Settles O11: each clause is the bus's part of the access (taken, or turned away for its width) and then what the register's row makes
of it. -/
theorem registerAccessesComplete : Obligations.RegisterAccessesComplete := by
  unfold Obligations.RegisterAccessesComplete
  refine ⟨?fields, ?width, ?lowWord, ?highWord, ?lowRead⟩
  case fields =>
    intro a addr v s h row ix hreg hmsix hown hadm hhome hrow hwide hwr heff
    rw [registerWrite_eq_busWrite hreg]
    refine (busWrite_admitted hmsix hown hadm).trans ?_
    rw [admittedWrite_narrow (isPage_of_isReg hreg) hhome hrow hwide hwr heff]
  case width =>
    intro a addr size v s hreg hroute hgone hblk hup hsize
    have hval : size.val ≠ 4 := fun e => hsize (Fin.ext e)
    rw [registerWrite_eq_busWrite hreg]
    exact busWrite_turned_of_size hval (msixAt_fabric hroute) (turnedAway_of_size hreg hroute hgone hblk hup hval)
  case lowWord =>
    intro a addr v s h row ix hreg hmsix hown hadm hhome hrow hwide hwr
    rw [registerWrite_eq_busWrite hreg]
    refine (busWrite_admitted hmsix hown hadm).trans ?_
    rw [admittedWrite_low (isPage_of_isReg hreg) hhome hrow hwide hwr]
  case highWord =>
    intro a addr v s h row ix hpage hmsix hown hadm hhome hrow hwide hwr
    rw [reg64HighWrite_eq_busWrite hrow hwide hwr, busWrite_admitted hmsix hown hadm, admittedWrite_high hpage hhome hrow hwide hwr]
  case lowRead =>
    intro a addr s h row ix hpage hmsix hown hread hhome hrow hwide
    rw [reg64LowRead_eq_busRead hrow hwide]
    refine (busRead_readable hmsix hown hread).trans ?_
    rw [admittedRead_low hpage hhome hrow hwide]

end Sys2Proof.Proofs

/-! PROOFS. The channels' bound, requests refused before their command's own rules, and the steps of the mailboxes. -/
namespace Sys2Proof.Proofs
open Sys2Proof Sys2Proof.Machine

/-! ## The channels' bound -/

/-- What a step keeps is what its command keeps of the state with the queue's rest; of the queue alone it says nothing. -/
theorem keeps_step {s t : State} (h : step s = .next t) : ∃ q, Keeps true { s with pending := q } t := by
  unfold step at h
  split at h
  · cases h
    exact ⟨s.pending, keeps_passTime (Keeps.refl s)⟩
  next c rest _ =>
    have hk : Keeps (!storesNothing c) { s with pending := rest } t := keeps_exec c _ t h
    exact ⟨rest, hk.weaken⟩

/-- Settles O45: what any command keeps of the channels (`Keeps.chans`), for the command that the step runs. -/
theorem stepsKeepChannelsBounded : Obligations.StepsKeepChannelsBounded := by
  unfold Obligations.StepsKeepChannelsBounded
  intro s t hs ht
  obtain ⟨_, hk⟩ := keeps_step ht
  exact hk.chans hs

/-! ## Requests refused before their command's own rules -/

/-- Every command that a party sends to Tujan is served from the head of its channel (`serve`), with rules of its own. -/
theorem exec_asksFor {c : Instr} {op k : Nat} (h : asksFor c = some (op, k)) :
    ∃ body : Req → State → Answer, ∀ s, exec c s = done (serve op k body s) := by
  cases c <;> cases h
  all_goals exact ⟨_, fun _ => rfl⟩

/-- Settles O51: what `serve` does with a request before it asks the command's rules does not depend on them. -/
theorem refusedRequestsOnlyReply : Obligations.RefusedRequestsOnlyReply := by
  unfold Obligations.RefusedRequestsOnlyReply
  intro c op k s hc
  obtain ⟨body, hexec⟩ := exec_asksFor hc
  rw [hexec s]
  exact serve_refused op k body s

/-! ## Locks (R41 to R43) -/

section
variable {n : Fin 32} {m : Fin 64} {ms : List (Fin 64)} {s : State}

/-- R41, R43: a free lock goes to the winner among its readers, and the pointer moves past it. -/
theorem exec_mbxLockAcquire_free {w : Nat} (hfree : rd s (MBX_LOCK_OWNER_owner n) = 0)
    (hwin : lockWinner (lockPointer s n) ((m :: ms).map (fun x => x.val)) = some w) :
    exec (.mbxLockAcquire n (m :: ms)) s = .next { wr (MBX_LOCK_OWNER_owner n) w s with
      lockPtr := s.lockPtr.put n (nextPointer w), busReply := lockReply w m } := by
  show execMbxLockAcquire n (m :: ms) s = _
  simp only [execMbxLockAcquire, hfree, hwin]
  rfl

/-- R41: the reads of an owned lock return its owner, and change nothing. -/
theorem exec_mbxLockAcquire_owned (howned : rd s (MBX_LOCK_OWNER_owner n) ≠ 0) :
    exec (.mbxLockAcquire n (m :: ms)) s =
      .next { s with busReply := if rd s (MBX_LOCK_OWNER_owner n) = m.val then 0 else rd s (MBX_LOCK_OWNER_owner n) } :=
  if_pos howned

/-- R42: the owner's write of its own ID frees the lock. -/
theorem exec_mbxLockRelease_owner {v : BitVec 32} (h : m.val ≠ 0 ∧ rd s (MBX_LOCK_OWNER_owner n) = m.val ∧ v.toNat = m.val) :
    exec (.mbxLockRelease m n v) s = .next (wr (MBX_LOCK_OWNER_owner n) 0 s) :=
  if_pos h

/-- R42: any other write of a lock is recorded. -/
theorem exec_mbxLockRelease_other {v : BitVec 32} (h : ¬ (m.val ≠ 0 ∧ rd s (MBX_LOCK_OWNER_owner n) = m.val ∧ v.toNat = m.val)) :
    exec (.mbxLockRelease m n v) s = .next (settle 4 (record0 Src.MBX_LOCK_VIOLATION none [m, v.toNat, n] s)) :=
  if_neg h

/-- R43: of well-formed readers, the one that a free lock with a legal pointer is granted to. -/
theorem lockWinner_of_readers (hwf : readersWf (m :: ms) = true) (hlo : 1 ≤ lockPointer s n) (hhi : lockPointer s n ≤ 63) :
    ∃ w ∈ m :: ms, 1 ≤ w.val ∧ lockWinner (lockPointer s n) ((m :: ms).map (fun x => x.val)) = some w.val ∧
      ∀ x ∈ m :: ms, (w.val + 63 - lockPointer s n) % 63 ≤ (x.val + 63 - lockPointer s n) % 63 := by
  have hids : ∀ x ∈ (m :: ms).map (fun x => x.val), 1 ≤ x ∧ x ≤ 63 := by
    simp only [readersWf, Bool.and_eq_true, List.all_eq_true, bne_iff_ne] at hwf
    intro x hx
    obtain ⟨y, hy, rfl⟩ := List.mem_map.mp hx
    have := hwf.2 y hy
    omega
  obtain ⟨x, hx, hwin, hfirst⟩ := winner_of (lockPointer s n) hlo hhi m.val (ms.map (fun x : Fin 64 => x.val)) hids
  rw [← List.map_cons] at hx
  obtain ⟨w, hw, rfl⟩ := List.mem_map.mp hx
  exact ⟨w, hw, (hids _ hx).1, hwin, fun y hy => hfirst _ (List.mem_map_of_mem hy)⟩

end

/-- R43: the pointer after a grant is the winner's ID plus 1, wrapping from 63 to 1. -/
theorem nextPointer_eq {w : Nat} (hlo : 1 ≤ w) (hhi : w ≤ 63) : nextPointer w = if w = 63 then 1 else w + 1 := by
  unfold nextPointer
  split <;> omega

/-- Settles O54: the readers' winner gets the lock, and each other clause is the rule of one access. -/
theorem locksHaveOneOwner : Obligations.LocksHaveOneOwner := by
  unfold Obligations.LocksHaveOneOwner
  refine ⟨fun _ => rfl, ?free, fun n m ms s => exec_mbxLockAcquire_owned, ?release, ?violation⟩
  case free =>
    intro n m ms s hwf hlo hhi hfree
    obtain ⟨w, hmem, hpos, hwin, hfirst⟩ := lockWinner_of_readers hwf hlo hhi
    refine ⟨w, hmem, _, exec_mbxLockAcquire_free hfree hwin, hfirst, ?owner, ?pointer, ?reply, rfl⟩
    case owner =>
      exact (Laws.rd_wr_same _ _ s).trans (Nat.mod_eq_of_lt w.isLt)
    case pointer =>
      exact (Tab.get_put_same ..).trans (nextPointer_eq hpos (by omega))
    case reply =>
      simp only [lockReply, Fin.ext_iff, eq_comm]
  case release =>
    intro m n v s hm howner hv
    exact ⟨_, exec_mbxLockRelease_owner ⟨hm, howner, hv⟩, Laws.rd_wr_same .., rfl⟩
  case violation =>
    intro m n v s h
    exact ⟨_, exec_mbxLockRelease_other h, rfl⟩

/-! ## Pushes (R33) -/

section
variable {a : Access} {addr : BitVec 40} {v : BitVec 32} {s : State} {n : Nat}

/-- An admitted push of a channel's staged message. -/
theorem exec_mbxPush (hreg : chanRegAt s addr.toNat 0x40 = some n) (hadm : admitted a addr.toNat v.toNat s = true)
    (hbit : bit v.toNat 0 = true) : exec (.mbxPush a addr v) s = .next (settle 4 (push n (carried s a addr.toNat) s)) := by
  show execMbxPush a addr v s = _
  rw [execMbxPush, regWrite_admitted (Option.isSome_of_eq_some hreg) hadm]
  simp only [hreg, hbit, if_true]

/-- R33: with room, the message is delivered. -/
theorem push_room {c : Carried} (h : (chan s n).q.length < 8) : push n c s = deliver n c.master c.polder c.secure true (staged s n) s :=
  if_pos h

/-- R33: without room, the overflow is marked and recorded. -/
theorem push_full {c : Carried} (h : 8 ≤ (chan s n).q.length) :
    push n c s = record0 Src.MBX_TX_OVERFLOW (chanPolder s n) [n, c.master] (wr (MBX_CH_STAT_tx_overflow n) 1 s) :=
  if_neg (Nat.not_lt.mpr h)

/-- An admitted pop removes its channel's head message. -/
theorem exec_mbxPop (hreg : chanRegAt s addr.toNat 0xC0 = some n) (hadm : admitted a addr.toNat v.toNat s = true)
    (hbit : bit v.toNat 0 = true) : exec (.mbxPop a addr v) s = .next (settle 4 (dropHead n s)) := by
  show execMbxPop a addr v s = _
  rw [execMbxPop, regWrite_admitted (Option.isSome_of_eq_some hreg) hadm]
  simp only [hreg, hbit, if_true]

end

/-- Settles O53: what delivery does to its channel (`deliver_chan`), and what a refused push leaves. -/
theorem pushesAreNumberedOrRefused : Obligations.PushesAreNumberedOrRefused := by
  unfold Obligations.PushesAreNumberedOrRefused
  refine ⟨fun _ => rfl, ?room, ?full⟩
  case room =>
    intro a addr v s n hreg hadm hbit hroom
    rw [exec_mbxPush hreg hadm hbit, push_room hroom]
    refine ⟨_, rfl, ?queue, ?number⟩
    case queue =>
      rw [deliver_chan]
      rfl
    case number => rw [deliver_chan]
  case full =>
    intro a addr v s n hreg hadm hbit hfull
    refine ⟨_, exec_mbxPush hreg hadm hbit, ?_⟩
    rw [push_full hfull]
    exact ⟨fun _ => rfl, Laws.rd_wr_same .., rfl⟩

/-! ## The steps of the mailboxes -/

section
variable {k : Fin 32} {s : State}

/-- R38: a cross-wait of a pair that is not yet marked. -/
theorem exec_mbxCrosswait {u v : Unacked} {us vs : List Unacked} (hu : (chan s (2 * k)).unacked = u :: us)
    (hv : (chan s (2 * k + 1)).unacked = v :: vs) (hbit : bit (rd s MBX_CROSSWAIT_STAT_pair) k = false) :
    exec (.mbxCrosswait k) s = .next (settle 4 (
      let s1 := record0 Src.MBX_CROSSWAIT (chanPolder s (2 * k)) [k, u.seq, v.seq]
        (orBits MBX_CROSSWAIT_STAT_pair (2 ^ k.val) (advanceTo (max u.time v.time + 10000000) s))
      if k.val < 30 then raiseLines (pairPolders s k) 0 s1 else if k.val = 30 then sendMsix 0 s1 else s1)) := by
  have hat : crosswaitAt s k = some (max u.time v.time + 10000000, u.seq, v.seq) := by
    simp only [crosswaitAt, hu, hv]
  show execMbxCrosswait k s = _
  simp only [execMbxCrosswait, hat, hbit, done]
  rfl

/-- R35: held messages wait on while their channel is full. -/
theorem drainHeld_full {h : Held} {hs : List Held} (hfull : 8 ≤ (chan s (2 * k + 1)).q.length) :
    drainHeld k (h :: hs) s = setHeld k (h :: hs) s :=
  if_neg (Nat.not_lt.mpr hfull)

/-- R35: the first of a pair's held messages is delivered where its channel has room, and the others follow. -/
theorem drainHeld_room {h : Held} {hs : List Held} (hroom : (chan s (2 * k + 1)).q.length < 8) :
    drainHeld k (h :: hs) s = drainHeld k hs (deliver (2 * k + 1) 9 0 true true h.msg s) :=
  if_pos hroom

/-- R35: Tujan drains what it holds for a pair. -/
theorem exec_tujanHoldDrain {hs : List Held} (h : heldFor s k = hs) : exec (.tujanHoldDrain k) s = .next (settle 4 (drainHeld k hs s)) := by
  subst h
  rfl

/-- R36: a message at the head of its channel that is no request: it is taken, and clears the message it acknowledges, if any. -/
theorem exec_partyAck {m : Msg} {ms : List Msg} (hready : rdB s CRP_STATUS_tujan_ready = true) (hq : (chan s (2 * k)).q = m :: ms)
    (hreq : isRequest m = false) (hform : badForm m = false) :
    exec (.partyAck k) s = match ackTarget s k m with
      | some u => if u.opcode = Op.PWR_STATE_CHANGED then .next s else .next (clearUnacked (2 * k + 1) u.seq (taken k s))
      | none => .next (taken k s) := by
  show execPartyAck k s = _
  simp only [execPartyAck, hready, hq, List.head?_cons, hreq, hform]
  rfl

/-- R57: a request with no command's opcode. -/
theorem exec_undefinedOpcode {m : Msg} (hm : takeable s k = some m) (hop : Msg.opcode m ∉ commandOpcodes) (hreq : isRequest m = true)
    (hform : badForm m = false) : exec (.undefinedOpcode k) s = .next (answered k m ST_UNSUPPORTED [] (taken k s)) := by
  show execUndefinedOpcode k s = _
  simp only [execUndefinedOpcode, hm, hop, hreq, hform]
  rfl

end

/-- Settles O1: each clause is one case of its step. -/
theorem mailboxStepsComplete : Obligations.MailboxStepsComplete := by
  unfold Obligations.MailboxStepsComplete
  refine ⟨?pushed, ?overflow, ?popped, ?granted, fun n m ms s => exec_mbxLockAcquire_owned, ?released,
    fun m n v s => exec_mbxLockRelease_other, fun k s u v us vs => exec_mbxCrosswait, ?drained, ?held, ?acked, ?noted,
    fun k s m => exec_undefinedOpcode⟩
  case pushed =>
    intro a addr v s n hreg hadm hbit hroom
    rw [exec_mbxPush hreg hadm hbit, push_room hroom]
  case overflow =>
    intro a addr v s n hreg hadm hbit hfull
    rw [exec_mbxPush hreg hadm hbit, push_full hfull]
  case popped =>
    intro a addr v s n hreg hadm hbit
    exact exec_mbxPop hreg hadm hbit
  case granted =>
    intro n m ms w s hfree hwin
    exact exec_mbxLockAcquire_free hfree hwin
  case released =>
    intro m n v s hm howner hv
    exact exec_mbxLockRelease_owner ⟨hm, howner, hv⟩
  case drained =>
    intro k s h hs hheld hroom
    rw [exec_tujanHoldDrain hheld, drainHeld_room hroom]
  case held =>
    intro k s h hs hheld hfull
    rw [exec_tujanHoldDrain hheld, drainHeld_full hfull]
  case acked =>
    intro k s m ms u hready hq hreq hform hack hop
    rw [exec_partyAck hready hq hreq hform, hack]
    exact if_neg hop
  case noted =>
    intro k s m ms hready hq hreq hform hack
    rw [exec_partyAck hready hq hreq hform, hack]

end Sys2Proof.Proofs

/-! PROOFS. The warden, the resets and the boot chain, and the state after reset. -/
namespace Sys2Proof.Proofs
open Sys2Proof Sys2Proof.Machine

/-! ## The warden -/

/-- Time that passes leaves the warden as it is. -/
@[simp] theorem advanceTo_warden (t : Nat) (s : State) : (advanceTo t s).warden = s.warden := rfl

/-- Time that passes leaves the order of the candidates as it is. -/
@[simp] theorem wardenOrder_advanceTo (t : Nat) (s : State) : wardenOrder (advanceTo t s) = wardenOrder s := rfl

/-- What WARDEN_GET answers (Table MBX-12). -/
theorem wardenGet_taken (r : Req) (k : Nat) (s : State) :
    wardenGet r (taken k s) = ⟨ST_OK, [wardenWord s, (s.now - s.warden.changedAt) / 1000000], taken k s, id⟩ := rfl

/-- While no claim window is over, none is closed. -/
theorem closeOverdue_open {s : State} (h : ∀ t, s.warden.window = some t → s.now < t + claimWindow) : closeOverdue s = s := by
  unfold closeOverdue
  split
  next t ht => exact if_neg (Nat.not_le.mpr (h t ht))
  next => rfl

/-- While no offer's second has passed, none lapses. -/
theorem lapseOverdue_standing {s : State} (h : ∀ x, s.warden.handover = some x → s.now < x.start + offerTime) : lapseOverdue s = s := by
  unfold lapseOverdue
  split
  next x hx => exact if_neg (Nat.not_le.mpr (h x hx))
  next => rfl

section
variable {r : Req} {s : State}

/-- R50: a claim to a vacant position outside a claim window. -/
theorem wardenClaim_vacant (hvac : s.warden.kind = 0) (hwin : s.warden.window = none) (hcand : r.kind ∈ wardenOrder s) :
    wardenClaim r s = ⟨ST_OK, [], takePosition r.kind s, fun t => wardenChanged (answerClaims r.kind s.warden.claims t)⟩ := by
  have hopen : closeOverdue s = s := closeOverdue_open (by simp [hwin])
  simp only [wardenClaim, hopen, hcand, hvac, hwin]
  rfl

/-- R51: a claim in an open window by a kind that is not first in the order. -/
theorem wardenClaim_waits {t : Nat} (hvac : s.warden.kind = 0) (hwin : s.warden.window = some t) (hnow : s.now < t + claimWindow)
    (hcand : r.kind ∈ wardenOrder s) (hfirst : (wardenOrder s).head? ≠ some r.kind) :
    wardenClaim r s = pend { s with warden := { s.warden with claims := s.warden.claims ++ [⟨r.kind, r.job⟩] } } id := by
  have hopen : closeOverdue s = s := closeOverdue_open fun t' ht => by rw [hwin] at ht; cases ht; exact hnow
  simp [wardenClaim, hopen, hcand, hvac, hwin, hfirst]

/-- Table MBX-9 step 3: the window closes at an instant with a winner. -/
theorem closeWindow_winner {t w : Nat} (h : (wardenOrder s).find? (fun k => s.warden.claims.any (fun c => c.kind == k)) = some w) :
    closeWindow (advanceTo t s) = wardenChanged (answerClaims w s.warden.claims (takePosition w (advanceTo t s))) := by
  simp only [closeWindow, wardenOrder_advanceTo, advanceTo_warden, h, concludeWindow]

/-- Table MBX-10: a handover to another candidate while none is pending. -/
theorem wardenHandover_offers (hnone : s.warden.handover = none) (hother : bits (r.w 2) 1 0 ≠ s.warden.kind)
    (hcand : bits (r.w 2) 1 0 ∈ wardenOrder s) :
    wardenHandover r s = pend { s with warden := { s.warden with handover := some ⟨bits (r.w 2) 1 0, s.now, r.job⟩ } }
      (notifyAck (kindPair (bits (r.w 2) 1 0)) Op.WARDEN_OFFER [s.warden.kind]) := by
  have hstands : lapseOverdue s = s := lapseOverdue_standing (by simp [hnone])
  simp [wardenHandover, hstands, hother, hcand, hnone]

/-- R55: the target accepts while the offer stands. -/
theorem wardenAccept_target {h : Handover} (hho : s.warden.handover = some h) (hnow : s.now < h.start + offerTime) (htarget : h.target = r.kind) :
    wardenAccept r s = ⟨ST_OK, [], takePosition h.target s, fun t => wardenChanged (reply h.job ST_OK [] t)⟩ := by
  have hstands : lapseOverdue s = s := lapseOverdue_standing fun x hx => by rw [hho] at hx; cases hx; exact hnow
  simp [wardenAccept, hstands, hho, htarget]

/-- R54: a pending handover lapses at an instant. -/
theorem lapse_pending {t : Nat} {h : Handover} (hho : s.warden.handover = some h) :
    lapse (advanceTo t s) = reply h.job ST_HANDOVER_LAPSED [] { advanceTo t s with warden := { s.warden with handover := none } } := by
  simp only [lapse, advanceTo_warden, hho]

end

/-- Settles O2: each command is served once it is asked for, and its rules are the case its hypotheses name. -/
theorem wardenCommandsComplete : Obligations.WardenCommandsComplete := by
  unfold Obligations.WardenCommandsComplete
  refine ⟨⟨rfl, rfl⟩, ?get, ?claim, ?waits, ?close, ?handover, ?accept, ?lapse, ?release⟩
  case get =>
    intro k m s hask
    exact (serve_ok hask (wardenGet_taken ..)).trans (by unfold wardenWord; rfl)
  case claim =>
    intro k m s hask hvac hwin hcand
    exact (serve_after (body := wardenClaim) hask (wardenClaim_vacant hvac hwin hcand) :)
  case waits =>
    intro k m s t hask hvac hwin hnow hcand hfirst
    exact (serve_pend (body := wardenClaim) hask (wardenClaim_waits hvac hwin hnow hcand hfirst) :)
  case close =>
    intro s t w hwin hfind
    show execClaimWindowClose s = _
    simp only [execClaimWindowClose, hwin, done]
    rw [closeWindow_winner hfind]
  case handover =>
    intro k m s hask hnone hother hcand
    exact (serve_pend (body := wardenHandover) hask (wardenHandover_offers hnone hother hcand) :)
  case accept =>
    intro k m s h hask hho hnow htarget
    exact (serve_after (body := wardenAccept) hask (wardenAccept_target hho hnow htarget) :)
  case lapse =>
    intro s h hho
    show execHandoverLapse s = _
    simp only [execHandoverLapse, hho, done]
    rw [lapse_pending hho]
  case release =>
    intro k m s hask _ _
    exact serve_after hask rfl

/-! ## Resets and the boot chain -/

/-- The device is on, no image runs yet, and one is left to try: what the start of the boot chain asks, whatever its source (R417, R419). -/
def bootWaits (s : State) : Prop :=
  s.pwr.off = 0 ∧ s.pwr.copy < 3 ∧ imageStarted s = false ∧ rdB s CRP_STATUS_tujan_ready = false

section
variable {s : State}

/-- R414: the ROM tries an image that flash or eMMC holds. -/
theorem exec_tujanFirmwareStart_stored {f : Option (List (BitVec 8))} (hw : bootWaits s) (hsrc : imageSource s ≤ 2) :
    exec (.tujanFirmwareStart f) s = .next (settle 4 (bootFirmware s)) := by
  obtain ⟨hoff, hcopy, himg, hready⟩ := hw
  have hcases : imageSource s = 0 ∨ imageSource s = 1 ∨ imageSource s = 2 := by omega
  show execTujanFirmwareStart f s = _
  rcases hcases with h | h | h <;> simp [execTujanFirmwareStart, hoff, Nat.not_le.mpr hcopy, himg, hready, h, done]

/-- R419: the ROM tries the file that the network gives, staged where it belongs. -/
theorem exec_tujanFirmwareStart_network {bs : List (BitVec 8)} (hw : bootWaits s) (hsrc : imageSource s = 4) (hlen : bs.length ≤ 0x2000000) :
    exec (.tujanFirmwareStart (some bs)) s =
      .next (settle 4 (bootFirmware (writeBytes 0x43000000 (bs.map (fun b => b.toNat)) s))) := by
  obtain ⟨hoff, hcopy, himg, hready⟩ := hw
  show execTujanFirmwareStart (some bs) s = _
  simp [execTujanFirmwareStart, hoff, Nat.not_le.mpr hcopy, himg, hready, hsrc, Nat.not_lt.mpr hlen, done]

/-- R419: the host's write starts the chain in PCIe boot. -/
theorem exec_hostBootWrite_starts {a : Access} {addr : BitVec 40} {v : BitVec 32} (haddr : addr.toNat = 0x20000008)
    (hroute : a.route = Route.bar0) (hlink : s.pci.linkUp = true) (hw : bootWaits s) (hsrc : imageSource s = 3) :
    exec (.hostBootWrite a addr v) s = .next (settle 4 (bootFirmware (wr CRP_HOST_BOOT_length v.toNat s))) := by
  obtain ⟨hoff, hcopy, himg, hready⟩ := hw
  show execHostBootWrite a addr v s = _
  simp [execHostBootWrite, haddr, hroute, hlink, hoff, hcopy, himg, hready, hsrc, done]

/-- R141, R420: training's end while DRAM trains. -/
theorem exec_dramInitDone {ok : Bool} {t : BitVec 16} (hgib : s.dmc.gib ≠ 0) (hready : dramReady s = false) (himg : imageStarted s = true) :
    exec (.dramInitDone ok t) s =
      .next (settle 4 (if ok then dramTemp t.toNat (wrAll DMC_STATUS_init_done 1 s) else imageFails 2 10 s)) := by
  show execDramInitDone ok t s = _
  cases ok <;> simp [execDramInitDone, hgib, hready, himg, done]

/-- Table CRP-6 steps 6 and 7 begun after step 5: kind 3's manifest is at fault, its first segment fails, or the splash is shown. -/
theorem exec_splashSegmentLoaded {s0 s1 : State} {m r : Nat} (himg : imageStarted s = true) (hstage : rd s CRP_BOOT_STAT_stage = 5)
    (hm : m = manAt s 3) (hs0 : s0 = wr CRP_BOOT_STAT_stage 6 s) (hload : (r, s1) = loadSegments 3 m [0] (acceptManifest 3 m s0)) :
    exec .splashSegmentLoaded s = .next (settle 4 (
      if manifestFault s0 3 m ≠ 0 then imageFails 3 (manifestFault s0 3 m) s0 else if r ≠ 0 then imageFails 3 r s1 else
        (List.range 8).foldl (fun s n => splashOutput (segDest s1 m 0) n s) (bootStep 7 (bootStep 6 s1)))) := by
  subst hm hs0
  show execSplashSegmentLoaded s = _
  simp only [execSplashSegmentLoaded, himg, hstage, ← hload, done, ne_eq, not_true_eq_false, or_false, reduceCtorEq, if_false]
  split
  · rfl
  · split <;> rfl

/-- R421: the splash is kept alive. -/
theorem exec_splashHeartbeat {s1 s2 : State} (h : s.pwr.splash ≠ []) (h1 : s1 = advanceTo (s.pwr.splashAt + 250000000) s)
    (h2 : s2 = s1.pwr.splash.foldl (fun s n => setSlot (56 + n) { slot s (56 + n) with beat := s1.devTime } s) s1) :
    exec .splashHeartbeat s = .next (settle 4 { s2 with pwr := { s2.pwr with splashAt := s2.now } }) := by
  subst h2 h1
  exact if_neg (by simpa using h)

/-- R423: the harts are released where the other segments are good. -/
theorem exec_hartRelease {s1 : State} (himg : imageStarted s = true) (hstage : rd s CRP_BOOT_STAT_stage = 7) (hready : dramReady s = true)
    (hload : loadSegments 3 (manAt s 3) ((List.range (manField s (manAt s 3) 0x18 4)).filter (fun i => i != 0))
      (wr CRP_BOOT_STAT_stage 9 s) = (0, s1)) :
    exec .hartRelease s = .next (settle 4 (release s1)) := by
  show execHartRelease s = _
  simp [execHartRelease, himg, hstage, hready, hload, done]

section
variable {k : Fin 32} {m : Msg}

/-- R436: a reset asked for in ACTIVE while no block is claimed. -/
theorem exec_pwrReset {r : ResetInfo} (hask : asked Op.PWR_RESET k m s = true) (htrans : s.pwr.trans = none)
    (hstate : rd s CRP_STATUS_power_state = 0) (hclaims : idxWhere 24 (fun b => claimed s b) = []) :
    exec (.pwrReset k r) s = .next (settle 4 (deviceReset 6 false r (reply ⟨k, Msg.opcode m, Msg.seq m⟩ ST_OK [] (taken k s)))) := by
  refine serve_after hask (f := deviceReset 6 false r) ?_
  have htrans' : (taken k s).pwr.trans = none := htrans
  have hclaims' : idxWhere 24 (fun b => claimed (taken k s) b) = [] := hclaims
  simp [htrans', hclaims', hstate]

/-- R415: fuses blown by a polder warden. -/
theorem exec_bootOtpProgram {n mask : Nat} (hask : asked Op.BOOT_OTP_PROGRAM k m s = true) (hn : n = bits (m.word 2) 7 0)
    (hmask : mask = leNat ((List.range 8).flatMap (fun i => leBytes 4 (m.word (3 + i)))) % 2 ^ otpWidth n) (hkind : s.warden.kind = 1)
    (hlock : otpLocked s n mask = false) :
    exec (.bootOtpProgram k) s = .next (answered k m ST_OK [] (record0 Src.CRP_OTP none [n, popCount 256 (andNot mask (Tab.get 0 s.pwr.fuses n)), 0]
      { taken k s with pwr := { s.pwr with fuses := s.pwr.fuses.put n (Tab.get 0 s.pwr.fuses n ||| mask) } })) := by
  refine serve_ok hask ?_
  have hkind' : (taken k s).warden.kind = 1 := hkind
  have hlock' : otpLocked (taken k s) n mask = false := hlock
  simp only [Req.w, ← hn, ← hmask, hkind', hlock']
  rfl

end

end

/-- Settles O36: the resets are their causes' device resets; the boot steps are taken where their conditions hold; the commands are served. -/
theorem bootComplete : Obligations.BootComplete := by
  unfold Obligations.BootComplete
  refine ⟨fun _ _ => rfl, fun _ _ => rfl, fun _ _ => rfl, ?powerFail, ?thermal, fun _ _ h => if_pos h, ?pwrReset, ?stored, ?network, ?host,
    ?trained, ?untrained, ?splash, ?heartbeat, ?release, ?otp, ?info⟩
  case powerFail =>
    intro r s p hp
    show execPowerFailReset r s = _
    simp only [execPowerFailReset, hp, done]
  case thermal =>
    intro r s hoff
    exact if_pos hoff
  case pwrReset =>
    intro k m r s hask htrans hstate hclaims
    exact exec_pwrReset hask htrans hstate hclaims
  case stored =>
    intro f s hoff hcopy himg hready hsrc
    exact exec_tujanFirmwareStart_stored ⟨hoff, hcopy, himg, hready⟩ hsrc
  case network =>
    intro bs s hoff hcopy himg hready hsrc hlen
    exact exec_tujanFirmwareStart_network ⟨hoff, hcopy, himg, hready⟩ hsrc hlen
  case host =>
    intro a addr v s haddr hroute hlink hoff hcopy hsrc himg hready
    exact exec_hostBootWrite_starts haddr hroute hlink ⟨hoff, hcopy, himg, hready⟩ hsrc
  case trained =>
    intro t s hgib hready himg
    rw [exec_dramInitDone hgib hready himg, if_pos rfl]
  case untrained =>
    intro t s hgib hready himg
    rw [exec_dramInitDone hgib hready himg, if_neg Bool.false_ne_true]
  case splash =>
    intro s s0 s1 m f r himg hstage hm hs0 hf hload
    subst hf
    exact exec_splashSegmentLoaded himg hstage hm hs0 hload
  case heartbeat =>
    intro s s1 s2 hsplash h1 h2
    exact exec_splashHeartbeat hsplash h1 h2
  case release =>
    intro s s1 m himg hstage hready hm hload
    subst hm
    exact exec_hartRelease himg hstage hready hload
  case otp =>
    intro k m s n mask hask hn hmask hkind hlock
    exact exec_bootOtpProgram hask hn hmask hkind hlock
  case info =>
    intro k m s hask
    exact serve_ok hask rfl

/-! ## The state after reset -/

/-- Settles O41: the reset state lists nothing, so that each read of it gives its table's default. -/
theorem resetValues : Obligations.ResetValues := by
  unfold Obligations.ResetValues
  exact ⟨fun _ => rfl, fun _ => ⟨rfl, rfl⟩, fun _ => ⟨rfl, rfl⟩, fun _ => rfl, rfl, rfl, rfl, rfl, rfl, fun _ => rfl, rfl⟩

/-- Settles O42: what the reset state holds of each kind is nothing. -/
theorem resetMeetsTheInvariants : Obligations.ResetMeetsTheInvariants := by
  unfold Obligations.ResetMeetsTheInvariants
  refine ⟨rfl, fun _ => Nat.zero_le 8, ⟨Nat.zero_le 3, ?claims, ?handover⟩, ⟨Nat.zero_le _, Nat.zero_le _, Nat.zero_le _⟩⟩
  case claims => exact fun _ hc => (List.not_mem_nil hc).elim
  case handover => exact fun _ hh => nomatch hh

end Sys2Proof.Proofs

/-! PROOFS. Accesses to memory: where they store, and that the page checks keep foreign pages. -/
namespace Sys2Proof.Proofs
open Sys2Proof Sys2Proof.Machine

/-! ## Where an access stores -/

/-- A byte is read from memory alone. -/
theorem byteAt_of_keeps {s t : State} (h : Keeps false s t) (b : Nat) : byteAt t b = byteAt s b := by
  unfold byteAt
  rw [h.mem rfl]

theorem only_refl {a n : Nat} {s : State} (hs : MemoryCanonical s) : Only a n s s := ⟨hs, fun _ _ => rfl⟩

section
variable {r : MemReq} {s t : State}

/-- A request that can be made is well formed: a write stores as many bytes as it is long. -/
theorem data_length_of_canIssue {c : Carried} (h : cannotIssue r c s = false) (hw : r.dir = .write) : r.data.length = r.len.val := by
  have hwf : r.wf = true := by simp_all [cannotIssue]
  simp_all [MemReq.wf]

/-- An access that reaches nothing stores nothing: a read returns 0. -/
theorem keeps_unreached {u : State} (h : Keeps false s u) : Keeps false s (if r.dir = .write then u else answer 0 u) :=
  Keeps.ite (fun _ => h) fun _ => keeps_answer h

/-- On the fabric and through BAR4 an access comes to the address that its translation gives. -/
theorem memoryAddress_of_route (h0 : r.acc.route ≠ .bar0) (h2 : r.acc.route ≠ .bar2) :
    memoryAddress r s = (physOf r (carried s r.acc r.addr.toNat) s).1 := by
  unfold memoryAddress
  split
  · exact absurd ‹_› h0
  · exact absurd ‹_› h2
  · rfl

/-- There it meets a register or page where its address lies in one. -/
theorem meetsRegister_of_route (h0 : r.acc.route ≠ .bar0) (h2 : r.acc.route ≠ .bar2) :
    meetsRegister r s = (memoryAddress r s).any (fun a => isReg a || isPage a) := by
  unfold meetsRegister
  split
  · exact absurd ‹_› h0
  · exact absurd ‹_› h2
  · rfl

/-- What an access comes to that no register or page takes: it changes no memory, or it acts at its physical address. -/
theorem memoryAccess_cases (hreg : meetsRegister r s = false) (ht : exec (.memoryAccess r) s = .next t) :
    Keeps false s t ∨
    cannotIssue r (carried s r.acc r.addr.toNat) s = false ∧ ∃ a, memoryAddress r s = some a ∧
      t = settle 4 (physAccess r (carried s r.acc r.addr.toNat) a (physOf r (carried s r.acc r.addr.toNat) s).2) := by
  have ht : execMemoryAccess r s = .next t := ht
  unfold execMemoryAccess at ht
  dsimp only at ht
  split at ht
  case isTrue => exact .inl (KeepsR.mk (Keeps.refl s) t ht)
  case isFalse hissue =>
  split at ht
  case isTrue => exact .inl (keeps_done (keeps_coreFault (Keeps.refl s)) t ht)
  case isFalse =>
  split at ht
  case h_1 hroute =>
    rw [if_neg (by simpa [meetsRegister, hroute] using hreg)] at ht
    exact .inl (keeps_done (keeps_unreached (Keeps.refl s)) t ht)
  case h_2 hroute =>
    rw [if_neg (by simpa [meetsRegister, hroute] using hreg)] at ht
    exact .inl (keeps_done (keeps_unreached (Keeps.refl s)) t ht)
  case h_3 hnot0 hnot2 =>
    have haddr := memoryAddress_of_route (s := s) hnot0 hnot2
    rw [meetsRegister_of_route hnot0 hnot2, haddr] at hreg
    split at ht
    case h_1 s1 hphys =>
      have hs1 : Keeps false s s1 := KeepsP.elim hphys (keeps_physOf (Keeps.refl s))
      split at ht
      · exact .inl (keeps_done (keeps_unreached hs1) t ht)
      · exact .inl (keeps_done (keeps_pldDenied hs1) t ht)
    case h_2 a s1 hphys =>
      rw [hphys] at hreg
      rw [if_neg (by simpa using hreg)] at ht
      refine .inr ⟨by simpa using hissue, a, by rw [haddr, hphys], ?_⟩
      rw [hphys]
      cases ht
      rfl

/-- An access changes no bytes but as many as it is long, from where it acts on. -/
theorem only_memoryAccess {a n : Nat} (hs : MemoryCanonical s) (hreg : meetsRegister r s = false) (ht : exec (.memoryAccess r) s = .next t)
    (ha : ∀ p, memoryAddress r s = some p → tgtOf p = a) (hn : r.dir = .write → r.len.val = n) : Only a n s t := by
  rcases memoryAccess_cases hreg ht with hk | ⟨hissue, p, hp, rfl⟩
  · exact (only_refl hs).ofKeeps hk
  · obtain rfl := ha p hp
    have hlen : r.dir = .write → r.data.length = n := fun hw => (data_length_of_canIssue hissue hw).trans (hn hw)
    have hphys : Only (tgtOf p) n s (physOf r (carried s r.acc r.addr.toNat) s).2 := (only_refl hs).ofKeeps (keeps_physOf (Keeps.refl s))
    exact (only_phys hphys hlen hn).ofKeeps (keeps_settle (Keeps.refl _))

/-- A write that comes to an address stores there. -/
theorem tgtOf_eq_of_storesAt {a p : Nat} (h : storesAt r s = some a) (hp : memoryAddress r s = some p) : tgtOf p = a := by
  unfold storesAt at h
  split at h
  · rw [hp] at h; exact Option.some.inj h
  · cases h

end

/-- Settles O52: an access acts on the bytes from its target on (`only_memoryAccess`); one that stores nothing, on none. -/
theorem accessesStoreOnlyWhereAddressed : Obligations.AccessesStoreOnlyWhereAddressed := by
  unfold Obligations.AccessesStoreOnlyWhereAddressed
  have writes : ∀ (r : MemReq) (s t : State) (a : Nat), MemoryCanonical s → meetsRegister r s = false → exec (.memoryAccess r) s = .next t →
      storesAt r s = some a → ∀ b, b < a ∨ a + r.len ≤ b → byteAt t b = byteAt s b :=
    fun r s t a hs hreg ht ha => (only_memoryAccess hs hreg ht (fun _ => tgtOf_eq_of_storesAt ha) fun _ => rfl).same
  refine ⟨writes, ?reads, ?aliases⟩
  case reads =>
    intro r s t hs hreg ht hnone b
    cases hp : memoryAddress r s with
    | none => exact (only_memoryAccess (a := b + 1) hs hreg ht (by simp [hp]) fun _ => rfl).same b (.inl b.lt_succ_self)
    | some p =>
      have hread : r.dir ≠ .write := fun hw => by simp [storesAt, hw, hp] at hnone
      exact (only_memoryAccess (a := tgtOf p) (n := 0) hs hreg ht (by simp [hp]) (absurd · hread)).same b (Nat.lt_or_ge ..)
  case aliases =>
    rintro ac addr size v u s t r a hs rfl hreg ht ha
    have ht : execOcmAliasWrite ac addr size v u s = .next t := ht
    unfold execOcmAliasWrite at ht
    split at ht
    · exact writes _ s t a hs hreg ht ha
    · cases ht
      exact fun _ _ => rfl

/-! ## Foreign pages -/

/-- A normal-world access changes no byte of a page that the page checks refuse it. -/
theorem byteAt_of_foreign {r : MemReq} {s t : State} {b : Nat} (hs : MemoryCanonical s) (hreg : meetsRegister r s = false)
    (ht : exec (.memoryAccess r) s = .next t) (hf : Foreign (carried s r.acc r.addr.toNat) s b) : byteAt t b = byteAt s b := by
  rcases memoryAccess_cases hreg ht with hk | ⟨-, a, ha, rfl⟩
  · exact byteAt_of_keeps hk b
  · by_cases hb : tgtOf a ≤ b ∧ b < tgtOf a + r.len
    · have hphys := Keeps.trans (keeps_physOf (Keeps.refl s)) (phys_refuses hf (sees_phys r (carried s r.acc r.addr.toNat) s) hb)
      exact byteAt_of_keeps (keeps_settle hphys) b
    · exact (only_memoryAccess (a := tgtOf a) hs hreg ht (by simp [ha]) fun _ => rfl).same b (by omega)

/-- Settles O59: in either mode the page checks refuse the access (`Foreign`). -/
theorem foreignPagesCannotBeWritten : Obligations.ForeignPagesCannotBeWritten := by
  unfold Obligations.ForeignPagesCannotBeWritten
  refine ⟨?map, ?tidemark⟩
  case map =>
    rintro r s t c b hs hsettled hmode hreg rfl hsec hmas hloc hgiven ht
    exact byteAt_of_foreign hs hreg ht ⟨hsec, hmas, hloc, .inl ⟨hmode, hsettled, hgiven⟩⟩
  case tidemark =>
    rintro r s t c b hs hmode hreg rfl hsec hmas hloc hwhy ht
    exact byteAt_of_foreign hs hreg ht ⟨hsec, hmas, hloc, .inr ⟨hmode, hwhy⟩⟩

end Sys2Proof.Proofs

/-! PROOFS. The world instructions, traps and returns of the application cores. -/
namespace Sys2Proof.Proofs
open Sys2Proof Sys2Proof.Machine

/-! ## Commands of a hart that runs -/

section
variable {h : Fin 8} {s : State}

theorem exec_sluice {w : BitVec 32} (hrun : (hart s h).canRun = true) (hw : custom0 w.toNat 0 = true) :
    exec (.sluice h w) s = .next (settle 4 (putHart h (sluiceHart w.toNat (hart s h)) s)) :=
  if_pos (by rw [hrun, hw]; rfl)

theorem exec_slcall {w : BitVec 32} (hrun : (hart s h).canRun = true) (hw : custom0 w.toNat 1 = true) :
    exec (.slcall h w) s = .next (settle 4 (putHart h (slcallHart s w.toNat (hart s h)) s)) :=
  if_pos (by rw [hrun, hw]; rfl)

theorem exec_slret {w : BitVec 32} (hrun : (hart s h).canRun = true) (hw : custom0 w.toNat 2 = true) :
    exec (.slret h w) s = .next (settle 4 (putHart h (slretHart s w.toNat (hart s h)) s)) :=
  if_pos (by rw [hrun, hw]; rfl)

theorem exec_polderTagWrite {guest : Bool} {v : BitVec 64} (hrun : (hart s h).canRun = true) :
    exec (.polderTagWrite h guest v) s = .next (settle 4 (putHart h (tagWriteHart guest v.toNat (hart s h)) s)) :=
  if_pos hrun

theorem exec_custom0ReservedFunct3 {w : BitVec 32} (hrun : (hart s h).canRun = true) (hop : bits w.toNat 6 0 = 0b0001011)
    (hf : 3 ≤ bits w.toNat 14 12) :
    exec (.custom0ReservedFunct3 h w) s = .next (settle 4 (putHart h ((hart s h).exception excIllegal w.toNat) s)) :=
  if_pos (by rw [hrun, hop, decide_eq_true hf]; rfl)

theorem exec_trapToMachine {interrupt : Bool} {code : Fin 64} {tval : BitVec 64} (hrun : (hart s h).canRun = true)
    (hm : (hart s h).goesToM interrupt code = true) :
    exec (.trapToMachine h interrupt code tval) s = .next (settle 4 (putHart h ((hart s h).trapM interrupt code tval.toNat) s)) :=
  if_pos (by rw [hrun, hm]; rfl)

theorem exec_trapToSupervisor_exception {code : Fin 64} {tval : BitVec 64} (hrun : (hart s h).canRun = true) (hpriv : (hart s h).priv ≠ 3)
    (hdeleg : bit (hart s h).medeleg code = true) :
    exec (.trapToSupervisor h false code tval) s = .next (settle 4 (putHart h ((hart s h).trapS false code tval.toNat) s)) :=
  if_pos (by rw [hrun, bne_iff_ne.mpr hpriv]; exact hdeleg)

theorem exec_trapToSupervisor_interrupt {code : Fin 64} {tval : BitVec 64} (hrun : (hart s h).canRun = true) (hpriv : (hart s h).priv ≠ 3)
    (hdeleg : bit (hart s h).mideleg code = true) :
    exec (.trapToSupervisor h true code tval) s = .next (settle 4 (putHart h (delegatedHart true code tval.toNat (hart s h)) s)) :=
  if_pos (by rw [hrun, bne_iff_ne.mpr hpriv]; exact hdeleg)

theorem exec_mret (hrun : (hart s h).canRun = true) : exec (.mret h) s = .next (settle 4 (putHart h (mretHart (hart s h)) s)) :=
  if_pos hrun

theorem exec_worldWatchdog (hrun : (hart s h).canRun = true) (hworld : (hart s h).world = true) (hpriv : (hart s h).priv ≠ 3)
    (hlimit : (hart s h).mwdog ≠ 0) (hcount : (hart s h).mwdogcnt < (hart s h).mwdog) :
    exec (.worldWatchdog h) s =
      .next (settle 4 (putHart h ({ hart s h with mwdogcnt := (hart s h).mwdog }.trapM true 24 0) s)) :=
  if_pos (by rw [hrun, hworld, bne_iff_ne.mpr hpriv, bne_iff_ne.mpr hlimit, decide_eq_true hcount]; rfl)

/-- R89: the debugger may halt either world. -/
theorem exec_debugHaltRequest_secure (hrun : (hart s h).canRun = true) (hdbg : debugEnabled s 2 = true) :
    exec (.debugHaltRequest h) s = .next (setHart h { hart s h with halted := true } s) := by
  show execDebugHaltRequest h s = _
  simp only [execDebugHaltRequest, hrun, hdbg, Bool.not_true, Bool.false_eq_true, if_false, if_true]

/-- R89: the debugger may halt the normal world, and the hart is in the secure one. -/
theorem exec_debugHaltRequest_waits (hrun : (hart s h).canRun = true) (hsecure : debugEnabled s 2 = false)
    (hnormal : debugEnabled s 0 = true) (hworld : (hart s h).world = true) :
    exec (.debugHaltRequest h) s = .next (setHart h { hart s h with haltPending := true } s) := by
  show execDebugHaltRequest h s = _
  simp only [execDebugHaltRequest, hrun, hsecure, hnormal, hworld, Bool.not_true, Bool.false_eq_true, Bool.true_or, if_false, if_true]

end

/-! ## What they do to the hart -/

section
variable {h : Hart}

/-- R89: without a request that waits, nothing takes effect on a return. -/
theorem takeHalt_none (hp : h.haltPending = false) : h.takeHalt = h := by
  simp only [Hart.takeHalt, hp, Bool.false_and, Bool.false_eq_true, if_false]

/-- R64: a call to an aligned address of a secure page that holds SLUICE has no reason to fail. -/
theorem slcallReason_none {s : State} {target pa : Nat} (halign : target % 4 = 0)
    (htrans : satpTranslate s h h.secureBank.satp target = some pa) (hsec : pageSecure s pa = true) (hpoison : poisonedIn s pa 4 = false)
    (hword : readNat s pa 4 = 0x0000000B) : slcallReason s h target = none := by
  simp [slcallReason, halign, htrans, hsec, hpoison, hword]

/-- R63: a call that is legal and has no reason to fail. -/
theorem slcallHart_calls {s : State} {w : Nat} (hrsv : bits w 31 20 = 0) (hpriv : h.priv ≠ 3) (hworld : h.world = false)
    (hvirt : h.virt = false) (hen : h.sluiceEn = true) (hreason : slcallReason s h (h.reg (bits w 19 15)) = none) :
    slcallHart s w h = { h.setReg (bits w 11 7) h.nextPc with
      swret := h.nextPc, swcallerPriv := h.priv, swcallerPolder := h.spolder, world := true, mwdogcnt := 0, pc := h.reg (bits w 19 15) } := by
  simp [slcallHart, hrsv, hpriv, hworld, hvirt, hen, hreason]

/-- R65: a return to an aligned address of a page that is not secure has no reason to fail. -/
theorem slretReason_none {s : State} {target pa : Nat} (halign : target % 4 = 0)
    (htrans : satpTranslate s h h.normalBank.satp target = some pa) (hsec : pageSecure s pa = false) : slretReason s h target = none := by
  simp [slretReason, halign, htrans, hsec]

/-- R65: a return that is legal and has no reason to fail, with no halt waiting. -/
theorem slretHart_returns {s : State} {w : Nat} (hrsv : bits w 31 20 = 0) (hrd : bits w 11 7 = 0) (hpriv : h.priv ≠ 3)
    (hworld : h.world = true) (hvirt : h.virt = false) (hhalt : h.haltPending = false)
    (hreason : slretReason s h (h.reg (bits w 19 15)) = none) :
    slretHart s w h = { h with world := false, pc := h.reg (bits w 19 15) } := by
  simp only [slretHart, hrsv, hrd, hpriv, hworld, hvirt, hreason]
  exact takeHalt_none hhalt

/-- R72: a tag write in the normal world at HS, with an allowed polder. -/
theorem tagWriteHart_allowed {guest : Bool} {v : Nat} (hvirt : h.virt = false) (hpriv : h.priv = 1) (hworld : h.world = false)
    (hv : v % 32 ≠ 0) (hallow : bit h.mpolderAllow (v % 32) = true) :
    tagWriteHart guest v h = if guest then { h with pc := h.nextPc, svpolder := v % 32 } else { h with pc := h.nextPc, spolder := v % 32 } := by
  simp [tagWriteHart, hvirt, hpriv, hworld, hv, hallow]

/-- R70: a delegated interrupt in the secure world stays pending. -/
theorem delegatedHart_secure {code tval : Nat} (hworld : h.world = true) :
    delegatedHart true code tval h = { h with mip := setBit h.mip code } := by
  simp [delegatedHart, hworld]

/-- R69: a delegated interrupt that the normal world takes now. -/
theorem delegatedHart_taken {code tval : Nat} (hworld : h.world = false) (htakes : h.priv ≠ 1 ∨ h.sie = true ∨ h.virt = true) :
    delegatedHart true code tval h = { h.trapS true code 0 with mip := clrBit h.mip code } := by
  have hnow : (h.priv == 1 && !h.sie && !h.virt) = false := by
    rcases htakes with hp | hs | hv
    · simp [hp]
    · simp [hs]
    · simp [hv]
  simp [delegatedHart, hworld, hnow]

/-- R69: MRET in machine mode that does not return into the secure world with V set, with no halt waiting. -/
theorem mretHart_returns (hpriv : h.priv = 3) (hhalt : h.haltPending = false) (hlegal : h.mpw = false ∨ h.mpv = false ∨ h.mpp = 3) :
    mretHart h = { h with priv := h.mpp, virt := h.mpv && h.mpp != 3, world := h.mpw, mie := h.mpie, mpie := true, mpp := 0, mpv := false,
                          pc := h.mepc } := by
  have hno : ¬ (h.priv ≠ 3 ∨ (h.mpw = true ∧ h.mpv = true ∧ h.mpp ≠ 3)) := by
    rintro (hp | ⟨hw, hv, hp⟩)
    · exact hp hpriv
    · simp [hw, hv, hp] at hlegal
  exact (if_neg hno).trans (takeHalt_none hhalt)

/-! ## The supervisor banks (R69) -/

theorem causeWord_exception (code : Nat) : causeWord false code = code := Nat.zero_add code

/-- R69: an exception delegated to supervisor mode. -/
theorem trapS_exception {code tval : Nat} :
    h.trapS false code tval = { h.setBank { h.bank with sepc := h.pc, scause := code, stval := tval } with
      spp := h.priv == 1, spv := h.virt, spie := h.sie, sie := false, priv := 1, virt := false,
      pc := trapTarget h.bank.stvec false code } := by
  simp only [Hart.trapS, causeWord_exception]

/-- A trap into supervisor mode stays in its world. -/
@[simp] theorem trapS_world {interrupt : Bool} {code tval : Nat} : (h.trapS interrupt code tval).world = h.world := by
  simp only [Hart.trapS, Hart.setBank]
  split <;> rfl

/-- A trap into supervisor mode in the secure world saves into that world's bank. -/
theorem trapS_secureBank {interrupt : Bool} {code tval : Nat} (hworld : h.world = true) :
    (h.trapS interrupt code tval).secureBank = { h.secureBank with sepc := h.pc, scause := causeWord interrupt code, stval := tval } ∧
      (h.trapS interrupt code tval).normalBank = h.normalBank := by
  simp [Hart.trapS, Hart.setBank, Hart.bank, hworld]

/-- A trap into supervisor mode in the normal world saves into that world's bank. -/
theorem trapS_normalBank {interrupt : Bool} {code tval : Nat} (hworld : h.world = false) :
    (h.trapS interrupt code tval).normalBank = { h.normalBank with sepc := h.pc, scause := causeWord interrupt code, stval := tval } ∧
      (h.trapS interrupt code tval).secureBank = h.secureBank := by
  simp [Hart.trapS, Hart.setBank, Hart.bank, hworld]

/-- A trap into supervisor mode saves into the bank that its world uses. -/
theorem trapS_bank {interrupt : Bool} {code tval : Nat} :
    (h.trapS interrupt code tval).bank = { h.bank with sepc := h.pc, scause := causeWord interrupt code, stval := tval } := by
  cases hw : h.world with
  | true => simp [Hart.bank, hw, (trapS_secureBank hw).1]
  | false => simp [Hart.bank, hw, (trapS_normalBank hw).1]

end

/-! ## The obligations -/

/-- Settles O4: each instruction is executed, and its own rule is the case its hypotheses name. -/
theorem worldInstructionsComplete : Obligations.WorldInstructionsComplete := by
  unfold Obligations.WorldInstructionsComplete
  refine ⟨?sluice, ?call, ?ret, ?tag, fun h w s => exec_custom0ReservedFunct3⟩
  case sluice =>
    intro h s hrun
    exact exec_sluice hrun (by decide)
  case call =>
    intro h w s pa hrun hw hrsv hpriv hworld hvirt hen halign htrans hsec hpoison hword
    rw [exec_slcall hrun hw, slcallHart_calls hrsv hpriv hworld hvirt hen (slcallReason_none halign htrans hsec hpoison hword)]
  case ret =>
    intro h w s pa hrun hw hrsv hrd hpriv hworld hvirt hhalt halign htrans hsec
    rw [exec_slret hrun hw, slretHart_returns hrsv hrd hpriv hworld hvirt hhalt (slretReason_none halign htrans hsec)]
  case tag =>
    intro h guest v s hrun hvirt hpriv hworld hv hallow
    rw [exec_polderTagWrite hrun, tagWriteHart_allowed hvirt hpriv hworld hv hallow]

/-- Settles O5: each trap, return or halt is taken, and its own rule is the case its hypotheses name. -/
theorem trapsComplete : Obligations.TrapsComplete := by
  unfold Obligations.TrapsComplete
  refine ⟨fun h interrupt code tval s => exec_trapToMachine, ?exception, ?pending, ?mret, fun h s => exec_worldWatchdog,
    fun h s => exec_debugHaltRequest_secure, fun h s => exec_debugHaltRequest_waits⟩
  case exception =>
    intro h code tval s hrun hpriv hdeleg
    rw [exec_trapToSupervisor_exception hrun hpriv hdeleg, trapS_exception]
  case pending =>
    intro h code tval s hrun hpriv hdeleg hworld
    rw [exec_trapToSupervisor_interrupt hrun hpriv hdeleg, delegatedHart_secure hworld]
  case mret =>
    intro h s hrun hpriv hhalt hlegal
    rw [exec_mret hrun, mretHart_returns hpriv hhalt hlegal]

/-- Settles O56: a delegated trap saves into its world's bank (`trapS_bank`); a trap into machine mode and MRET touch neither bank. -/
theorem trapsUseTheBankOfTheirWorld : Obligations.TrapsUseTheBankOfTheirWorld := by
  unfold Obligations.TrapsUseTheBankOfTheirWorld
  refine ⟨fun _ => rfl, ?exception, ?interrupt, ?machine, ?mret⟩
  case exception =>
    intro h code tval s hrun hpriv hdeleg
    refine ⟨_, exec_trapToSupervisor_exception hrun hpriv hdeleg, trapS_world, ?_, rfl, fun hw => (trapS_secureBank hw).2,
      fun hw => (trapS_normalBank hw).2⟩
    rw [trapS_bank, causeWord_exception]
  case interrupt =>
    intro h code tval s hrun hpriv hdeleg hworld htakes
    refine ⟨_, exec_trapToSupervisor_interrupt hrun hpriv hdeleg, ?_⟩
    rw [delegatedHart_taken hworld htakes]
    exact ⟨trapS_world.trans hworld, (trapS_normalBank hworld).1, (trapS_normalBank hworld).2⟩
  case machine =>
    intro h interrupt code tval s hrun hm
    exact ⟨_, exec_trapToMachine hrun hm, rfl, rfl, rfl⟩
  case mret =>
    intro h s hrun hpriv hhalt hlegal
    refine ⟨_, exec_mret hrun, ?_⟩
    rw [mretHart_returns hpriv hhalt hlegal]
    exact ⟨rfl, rfl, rfl⟩

end Sys2Proof.Proofs

/-! PROOFS. The registers of the polder check, the block claims, the debug gate and the event lines. -/
namespace Sys2Proof.Proofs
open Sys2Proof Sys2Proof.Machine

/-! ## Flags -/

theorem rdB_of_ne_zero {s : State} {f : Fld} (h : rd s f ≠ 0) : rdB s f = true := bne_iff_ne.mpr h

theorem rdB_of_zero {s : State} {f : Fld} (h : rd s f = 0) : rdB s f = false := by rw [rdB, h]; rfl

/-! ## The mode of the polder check (R82, R83) -/

section
variable {v : Nat} {s : State}

/-- R83: raising the fence. -/
theorem fenceWrite_raised (hv : v = 1) : fenceWrite v s = wr PLD_MODE_CTRL_fence_normal 1 s := if_pos hv

/-- R83: lowering the raised fence, which takes effect only while no polder from 1 to 31 exists. -/
theorem fenceWrite_lowered (hv : v = 0) (hup : rd s PLD_MODE_CTRL_fence_normal ≠ 0) :
    fenceWrite v s = if anyPolder s then wr PLD_MODE_STAT_result 5 s else wr PLD_MODE_CTRL_fence_normal 0 s := by
  subst hv
  exact (if_neg Nat.zero_ne_one).trans (if_pos (rdB_of_ne_zero hup))

/-- A write of PLD_MODE_CTRL without a request is its fence's alone. -/
theorem modeCtrl_fence (h : bits v 1 0 = 0) : modeCtrl v s = fenceWrite (bits v 2 2) s := by
  have h0 : bit v 0 = false := by simp only [bits, bit, beq_eq_false_iff_ne] at h ⊢; omega
  have h1 : bit v 1 = false := by simp only [bits, bit, beq_eq_false_iff_ne] at h ⊢; omega
  simp only [modeCtrl, h0, h1, Bool.false_eq_true, if_false, ite_self]

/-- R82: a request for map mode in tidemark mode. -/
theorem modeCtrl_map (hreq : bit v 0 = true) (hswitch : rd s PLD_MODE_STAT_switching = 0) (hmode : rd s PLD_MODE_STAT_mode = 0) :
    modeCtrl v s = startMap (fenceWrite (bits v 2 2) s) := by
  simp only [modeCtrl, hreq, rdB_of_zero hswitch, rdB_of_zero hmode, Bool.false_eq_true, if_false, if_true]

/-- R83: a request for tidemark mode in map mode. -/
theorem modeCtrl_tidemark (hreq : bit v 1 = true) (hswitch : rd s PLD_MODE_STAT_switching = 0) (hmode : rd s PLD_MODE_STAT_mode ≠ 0) :
    modeCtrl v s = toTidemark (fenceWrite (bits v 2 2) s) := by
  simp only [modeCtrl, hreq, rdB_of_zero hswitch, rdB_of_ne_zero hmode, Bool.false_eq_true, if_false, if_true]

end

section
variable {a : Access} {addr : BitVec 40} {v : BitVec 32} {s : State}

/-- An admitted write of PLD_MODE_CTRL with req_map. -/
theorem exec_pldReqMap (haddr : addr.toNat = 0x20020000) (hadm : admitted a addr.toNat v.toNat s = true) (hreq : bit v.toNat 0 = true) :
    exec (.pldReqMap a addr v) s = .next (settle 4 (modeCtrl v.toNat s)) := by
  show execPldReqMap a addr v s = _
  unfold execPldReqMap
  exact regWrite_admitted (by rw [haddr, hreq]; rfl) hadm

/-- An admitted write of PLD_MODE_CTRL with req_tidemark. -/
theorem exec_pldReqTidemark (haddr : addr.toNat = 0x20020000) (hadm : admitted a addr.toNat v.toNat s = true) (hreq : bit v.toNat 1 = true) :
    exec (.pldReqTidemark a addr v) s = .next (settle 4 (modeCtrl v.toNat s)) := by
  show execPldReqTidemark a addr v s = _
  unfold execPldReqTidemark
  exact regWrite_admitted (by rw [haddr, hreq]; rfl) hadm

/-- An admitted write of PLD_MODE_CTRL with no request. -/
theorem exec_fenceNormalWrite (haddr : addr.toNat = 0x20020000) (hadm : admitted a addr.toNat v.toNat s = true)
    (hreq : bits v.toNat 1 0 = 0) : exec (.fenceNormalWrite a addr v) s = .next (settle 4 (fenceWrite (bits v.toNat 2 2) s)) := by
  show execFenceNormalWrite a addr v s = _
  unfold execFenceNormalWrite
  refine (regWrite_admitted (by rw [haddr]; rfl) hadm).trans ?_
  rw [modeCtrl_fence hreq]

/-- R77: an admitted write of the tidemark with a value in the DRAM range. -/
theorem exec_pldTidemarkWrite {t : Nat} (haddr : addr.toNat = 0x2002000C) (hadm : admitted a addr.toNat v.toNat s = true)
    (ht : t = bits (lowWord s (carried s a addr.toNat).master 0x20020008 (rdA s PLD_TIDEMARK_tidemark) + 4294967296 * v.toNat) 39 21)
    (hlo : 0x1000000000 ≤ t * 0x200000) (hhi : t * 0x200000 ≤ 0x2000000000) :
    exec (.pldTidemarkWrite a addr v) s = .next (settle 4 (wr PLD_TIDEMARK_tidemark t
      (holdWord (carried s a addr.toNat).master 0x20020008 none s))) := by
  show execPldTidemarkWrite a addr v s = _
  unfold execPldTidemarkWrite
  refine (regWrite_admitted (by rw [haddr]; rfl) hadm).trans ?_
  dsimp only
  rw [← ht, if_pos ⟨hlo, hhi⟩, Nat.mul_div_cancel t (by decide)]

/-! ## Invalidations and second-stage roots (R81, R85, R86) -/

/-- R81: an admitted start of an invalidation. -/
theorem exec_pldInvStart (haddr : addr.toNat = 0x20020020) (hadm : admitted a addr.toNat v.toNat s = true) (hstart : bit v.toNat 31 = true) :
    exec (.pldInvStart a addr v) s = .next (settle 4
      { wr PLD_INV_STAT_busy 1 (wr PLD_INV_CTRL_pages (bits v.toNat 23 0) s) with
        pld := { s.pld with inv := s.pld.inv ++ [(mapPage (rdA s PLD_INV_ADDR_addr), bits v.toNat 23 0)] } }) := by
  show execPldInvStart a addr v s = _
  unfold execPldInvStart
  exact regWrite_admitted (by rw [haddr, hstart]; rfl) hadm

/-- R81: the end of an invalidation that runs. -/
theorem exec_pldInvDone (hbusy : rd s PLD_INV_STAT_busy ≠ 0) : exec .pldInvDone s = .next (wr PLD_INV_STAT_busy 0
    { s with pld := { s.pld with entries := s.pld.entries.filter (fun e => !s.pld.inv.any (fun r => invCovers r e.1)), inv := [] } }) :=
  if_pos (rdB_of_ne_zero hbusy)

/-- The polder whose register lies at an address. -/
theorem polder_of_s2RegAt {n p k : Nat} (h : s2RegAt n = some (p, k)) : (n - 0x20020100) / 16 = p := by
  unfold s2RegAt at h
  split at h
  · cases h; rfl
  · cases h

/-- R86: an admitted write of a second-stage root, with mode 0 or 9. -/
theorem exec_pldS2RootWrite {p full : Nat} (hreg : s2RegAt addr.toNat = some (p, 4)) (hadm : admitted a addr.toNat v.toNat s = true)
    (hfull : full = lowWord s (carried s a addr.toNat).master (addr.toNat - 4) (rdA s (PLD_S2_ROOT_root p)) + 4294967296 * v.toNat)
    (hmode : bits full 63 60 = 0 ∨ bits full 63 60 = 9) :
    exec (.pldS2RootWrite a addr v) s = .next (settle 4 (wr (PLD_S2_ROOT_writer p) (carried s a addr.toNat).polder
      (wr (PLD_S2_ROOT_mode p) (bits full 63 60) (wr (PLD_S2_ROOT_root p) (bits full 39 14)
        (holdWord (carried s a addr.toNat).master (addr.toNat - 4) none s))))) := by
  show execPldS2RootWrite a addr v s = _
  unfold execPldS2RootWrite
  refine (regWrite_admitted (by rw [hreg]; rfl) hadm).trans ?_
  dsimp only
  rw [polder_of_s2RegAt hreg, ← hfull, if_pos hmode]

/-- R85: an admitted start of a second-stage invalidation. -/
theorem exec_pldS2Inv {p : Nat} (hreg : s2RegAt addr.toNat = some (p, 8)) (hadm : admitted a addr.toNat v.toNat s = true)
    (hstart : bit v.toNat 0 = true) : exec (.pldS2Inv a addr v) s = .next (settle 4 (wr (PLD_S2_INV_busy p) 1 s)) := by
  show execPldS2Inv a addr v s = _
  unfold execPldS2Inv
  refine (regWrite_admitted (by rw [hreg, hstart]; rfl) hadm).trans ?_
  rw [polder_of_s2RegAt hreg]

/-- R85: the end of a second-stage invalidation that runs. -/
theorem exec_pldS2InvDone {p : Fin 32} (hbusy : rd s (PLD_S2_INV_busy p) ≠ 0) : exec (.pldS2InvDone p) s =
    .next (wr (PLD_S2_INV_busy p) 0 { s with pld := { s.pld with s2 := s.pld.s2.filter (fun e => e.1 / 2 ^ 53 != p.val) } }) :=
  if_pos (rdB_of_ne_zero hbusy)

/-! ## Claims, the debug gate and the event lines (R87, R89, R100) -/

/-- R87: an admitted write of the secure claim by a secure-world core. -/
theorem exec_secClaimWrite (haddr : addr.toNat = 0x20000200) (hadm : admitted a addr.toNat v.toNat s = true)
    (hcore : secureCore (carried s a addr.toNat) = true) :
    exec (.secClaimWrite a addr v) s = .next (settle 4 ((idxWhere 24 (bit v.toNat)).foldl
      (fun s k => if blockIsUp s k then s else powerUpBlock k s) (wr CRP_SEC_CLAIM_claim (bits v.toNat 23 0) s))) := by
  show execSecClaimWrite a addr v s = _
  unfold execSecClaimWrite
  refine (regWrite_admitted (by rw [haddr]; rfl) hadm).trans ?_
  rw [if_pos hcore]

/-- R89: an admitted write of the debug gate. -/
theorem exec_dbgEnableWrite (haddr : addr.toNat = 0x20A0F000) (hadm : admitted a addr.toNat v.toNat s = true) :
    exec (.dbgEnableWrite a addr v) s = .next (settle 4 (wr DBG_ENABLE_sba_polder (bits v.toNat 8 4)
      (wr DBG_ENABLE_enables (rd s DBG_ENABLE_enables &&& bits v.toNat 3 0) s))) := by
  show execDbgEnableWrite a addr v s = _
  unfold execDbgEnableWrite
  exact regWrite_admitted (by rw [haddr]; rfl) hadm

/-- R100: an admitted write of a page's event-line enables. -/
theorem exec_evlEnableWrite {p new : Nat} (hpage : isPage addr.toNat = true) (hoff : pageOff addr.toNat = 0x600C)
    (hadm : admitted a addr.toNat v.toNat s = true) (hp : p = pageOf addr.toNat)
    (hnew : new = lowWord s (carried s a addr.toNat).master (addr.toNat - 4) (rd s (POL_EVL_ENABLE_enable p)) + 4294967296 * v.toNat) :
    exec (.evlEnableWrite a addr v) s = .next (settle 4 ((idxWhere 64 (fun n => bit new n && !bit (rd s (POL_EVL_ENABLE_enable p)) n &&
      bit (rd s (POL_EVL_PENDING_pending p)) n)).foldl (fun s n => lineMessage p n s)
        (wr (POL_EVL_ENABLE_enable p) new (holdWord (carried s a addr.toNat).master (addr.toNat - 4) none s)))) := by
  subst hp hnew
  show execEvlEnableWrite a addr v s = _
  unfold execEvlEnableWrite
  exact regWrite_admitted (by rw [hpage, hoff]; rfl) hadm

end

/-! ## The end of a switch to map mode (R82) -/

section
variable {bad : Option (BitVec 40)} {s : State}

/-- Table PLD-3 step 4: the map is valid. -/
theorem exec_mapSwitchDone_valid (hswitch : rd s PLD_MODE_STAT_switching ≠ 0) (hresult : mapResult s (bad.map (fun l => l.toNat)) = 1) :
    exec (.mapSwitchDone bad) s = .next (settle 4 (recordReported Src.PLD_MODE_CHANGE none [1, 1] (wr PLD_MODE_STAT_mode 1
      { wr PLD_MODE_STAT_result 1 (wr PLD_MODE_STAT_switching 0 s) with pld := { s.pld with entries := [] } }))) := by
  show execMapSwitchDone bad s = _
  simp only [execMapSwitchDone, rdB_of_ne_zero hswitch, hresult, Bool.not_true, Bool.false_eq_true, if_false, if_true]
  rfl

/-- Table PLD-3 step 4': the map is not valid, and every line of it can be read. -/
theorem exec_mapSwitchDone_invalid (hswitch : rd s PLD_MODE_STAT_switching ≠ 0) (hresult : mapResult s (bad.map (fun l => l.toNat)) ≠ 1)
    (hline : badMapLine s (bad.map (fun l => l.toNat)) = none) :
    exec (.mapSwitchDone bad) s = .next (settle 4 (record0 Src.PLD_MAP_INVALID none [mapResult s (bad.map (fun l => l.toNat))]
      (wr PLD_MODE_STAT_result (mapResult s (bad.map (fun l => l.toNat))) (wr PLD_MODE_STAT_switching 0 s)))) := by
  show execMapSwitchDone bad s = _
  simp only [execMapSwitchDone, rdB_of_ne_zero hswitch, hresult, hline, Bool.not_true, Bool.false_eq_true, if_false]
  rfl

end

/-- Settles O6: each register's rule (`exec_…` above), in the case its hypotheses name. -/
theorem protectionRegistersComplete : Obligations.ProtectionRegistersComplete := by
  unfold Obligations.ProtectionRegistersComplete
  refine ⟨?map, fun bad s => exec_mapSwitchDone_valid, fun bad s => exec_mapSwitchDone_invalid, ?tidemark, ?raised, ?lowered,
    fun a addr v s t => exec_pldTidemarkWrite, fun a addr v s => exec_pldInvStart, fun s => exec_pldInvDone,
    fun a addr v s p full => exec_pldS2RootWrite, fun a addr v s p => exec_pldS2Inv, fun p s => exec_pldS2InvDone,
    fun a addr v s => exec_secClaimWrite, fun a addr v s => exec_dbgEnableWrite, fun a addr v s p new => exec_evlEnableWrite⟩
  case map =>
    intro a addr v s haddr hadm hreq hswitch hmode
    rw [exec_pldReqMap haddr hadm hreq, modeCtrl_map hreq hswitch hmode]
    rfl
  case tidemark =>
    intro a addr v s haddr hadm hreq hswitch hmode
    rw [exec_pldReqTidemark haddr hadm hreq, modeCtrl_tidemark hreq hswitch hmode]
    rfl
  case raised =>
    intro a addr v s haddr hadm hreq hfence
    rw [exec_fenceNormalWrite haddr hadm hreq, fenceWrite_raised hfence]
  case lowered =>
    intro a addr v s haddr hadm hreq hfence hup
    rw [exec_fenceNormalWrite haddr hadm hreq, fenceWrite_lowered hfence hup]

end Sys2Proof.Proofs

/-! PROOFS. What accesses to memory come to, and transactions that stay in the fabric. -/
namespace Sys2Proof.Proofs
open Sys2Proof Sys2Proof.Machine

/-! ## Places of the address map -/

/-- An address of OCM or DRAM lies in no register block, in no page, outside the aliases and the outbound window. -/
theorem memory_apart {a : Nat} (h : inOcm a = true ∨ inDramRange a = true) :
    (isReg a || isPage a) = false ∧ inAlias a = false ∧ inOutbound a = false := by
  simp only [inOcm, inDramRange, Bool.and_eq_true, decide_eq_true_eq] at h
  simp only [ocmBase, ocmEnd, dramBase, dramTop] at h
  simp only [isReg, isPage, inAlias, inOutbound, Bool.or_eq_false_iff, Bool.and_eq_false_iff, decide_eq_false_iff_not]
  omega

/-- An address of the aliases lies in no register block or page. -/
theorem inAlias_apart {a : Nat} (h : inAlias a = true) : (isReg a || isPage a) = false := by
  simp only [inAlias, Bool.and_eq_true, decide_eq_true_eq] at h
  simp only [isReg, isPage, Bool.or_eq_false_iff, Bool.and_eq_false_iff, decide_eq_false_iff_not]
  omega

/-- No application core is a device master. -/
theorem isCoreMaster_of_device {m : Nat} (h : isDeviceMaster m = true) : isCoreMaster m = false := by
  simp only [isDeviceMaster, isCoreMaster, Bool.not_eq_true', Bool.and_eq_false_iff, decide_eq_false_iff_not] at h ⊢
  omega

/-! ## The system-level cache -/

@[simp] theorem slcTouch_poison (p line : Nat) (s : State) : (slcTouch p line s).poison = s.poison := by
  unfold slcTouch
  split
  · rfl
  · split <;> rfl

/-- Looking lines up poisons nothing. -/
@[simp] theorem slcLines_poison (p a n : Nat) (s : State) : (slcLines p a n s).poison = s.poison := by
  unfold slcLines
  induction List.range _ generalizing s with
  | nil => rfl
  | cons i is ih => rw [List.foldl_cons, ih, slcTouch_poison]

/-! ## Accesses at a physical address -/

section
variable {r : MemReq} {c : Carried} {a : Nat} {s s1 s2 : State}

/-- R78: a check refuses the access. -/
theorem physAccess_refused {x : State} (hmem : inOcm a = true ∨ inDramRange a = true)
    (hden : rangeDenied r c (!(r.dir == .write)) (r.dir == .write) (pageStarts a r.len) s = (some x, s2)) : physAccess r c a s = x := by
  obtain ⟨-, halias, hout⟩ := memory_apart hmem
  have hin : (inOcm a || inDramRange a) = true := by simpa using hmem
  simp only [physAccess, halias, hout, hin, hden, Bool.false_eq_true, if_false, if_true]

/-- R78: every check admits the access, and OCM performs it. -/
theorem physAccess_ocm (hocm : inOcm a = true) (hstays : r.outstanding = none)
    (hden : rangeDenied r c (!(r.dir == .write)) (r.dir == .write) (pageStarts a r.len) s = (none, s2)) :
    physAccess r c a s = ocmPerform r c a s2 := by
  obtain ⟨-, halias, hout⟩ := memory_apart (.inl hocm)
  simp only [physAccess, halias, hout, hocm, hden, hstays, Bool.true_or, Bool.false_eq_true, if_false, if_true]

/-- R119: OCM stores a write's bytes. -/
theorem ocmPerform_write (hdir : r.dir = .write) : ocmPerform r c a s = writeBytes a (reqBytes r) (slcLines c.polder a r.len s) := by
  simp only [ocmPerform, plain, hdir, if_true]

/-- R123: OCM returns the bytes of a read without an error and without poison. -/
theorem ocmPerform_read (hdir : r.dir = .read) (hecc : r.ecc = .clean) (hpoison : s.poison = []) :
    ocmPerform r c a s =
      { slcLines c.polder a r.len s with busReply := readNat (slcLines c.polder a r.len s) a r.len } := by
  simp [ocmPerform, plain, hdir, hecc, hpoison, answer]

/-- R119: the read-modify-write at an aliased address that passes the checks, of a word without poison. -/
theorem physAccess_aliasWrite (halias : inAlias a = true) (hform : aliasForm a r.len = true) (hdir : r.dir = .write) (hecc : r.ecc = .clean)
    (hden : rangeDenied r c true true [aliasTarget a] s = (none, s1)) (hpoison : poisonedIn s1 (aliasTarget a) r.len = false) :
    physAccess r c a s = aliasWrite a r.len (leNat (reqBytes r)) s1 := by
  simp [physAccess, aliasAccess, halias, hform, hdir, hecc, hden, hpoison]

/-- R78: a device master's access on the fabric, at the physical address that its second stage gives. -/
theorem exec_memoryAccess_device (hc : c = carried s r.acc r.addr.toNat) (hissue : cannotIssue r c s = false)
    (hdev : isDeviceMaster c.master = true) (hroute : r.acc.route = .fabric) (hphys : physOf r c s = (some a, s1))
    (hplace : (isReg a || isPage a) = false) : exec (.memoryAccess r) s = .next (settle 4 (physAccess r c a s1)) := by
  subst hc
  show execMemoryAccess r s = _
  simp only [execMemoryAccess, hissue, isCoreMaster_of_device hdev, hroute, hphys, hplace, Bool.false_and, Bool.false_eq_true, if_false, done]

/-- R60: a core's access that PMP refuses. -/
theorem exec_memoryAccess_pmp (hc : c = carried s r.acc r.addr.toNat) (hissue : cannotIssue r c s = false)
    (hcore : isCoreMaster c.master = true) (hpmp : pmpAllows (hart s (c.master - 1)) r.addr.toNat r.len (permBit r.dir) = false) :
    exec (.memoryAccess r) s = .next (settle 4 (coreFault r s)) := by
  subst hc
  show execMemoryAccess r s = _
  simp only [execMemoryAccess, hissue, hcore, hpmp, Bool.not_false, Bool.and_self, Bool.false_eq_true, if_false, if_true, done]

end

/-! ## Transactions that stay in the fabric (R105, R108) -/

section
variable {tag : Nat} {s : State} {t : Txn}

theorem exec_fabricTimeout_write (ht : s.fabric.find? (fun t => t.tag == tag) = some t) (hsq : t.squashed = false) (hw : t.write = true) :
    exec (.fabricTimeout tag) s =
      .next (settle 4 (polFault t.polder t.block t.unit 3 (dropTxn tag (advanceTo (t.issued + 2000000) s)))) := by
  show execFabricTimeout tag s = _
  simp [execFabricTimeout, ht, hsq, hw, done]

theorem exec_pciCompletionTimeout_read (ht : s.fabric.find? (fun t => t.tag == tag) = some t) (hsq : t.squashed = false)
    (hpcie : t.pcie = true) (hw : t.write = false) :
    exec (.pciCompletionTimeout tag) s = .next (settle 4 (polFault t.polder t.block t.unit 3
      (record0 Src.PCI_COMPLETION_TIMEOUT (some t.polder) [t.polder, lo32 t.addr, hi32 t.addr]
        (tookFree { dropTxn tag (advanceTo (t.issued + 50000000) s) with
          busReply := freeVal 64 (dropTxn tag (advanceTo (t.issued + 50000000) s)) })))) := by
  show execPciCompletionTimeout tag s = _
  simp only [execPciCompletionTimeout, ht, hsq, hpcie, hw, Bool.not_true, Bool.or_self, Bool.false_eq_true, if_false, done]
  rfl

theorem exec_pciLateCompletion_squashed (ht : s.fabric.find? (fun t => t.tag == tag && t.squashed) = some t) :
    exec (.pciLateCompletion tag) s =
      .next (settle 4 (record0 Src.PCI_LATE_COMPLETION (some t.polder) [tag] (dropTxn tag s))) := by
  show execPciLateCompletion tag s = _
  simp only [execPciLateCompletion, ht, done]

end

/-- Settles O12: each access comes to its physical address, and its outcome there is the case its hypotheses name. -/
theorem memoryAccessesComplete : Obligations.MemoryAccessesComplete := by
  unfold Obligations.MemoryAccessesComplete
  refine ⟨?write, ?read, ?refused, fun r s c => exec_memoryAccess_pmp, ?aliases, fun tag s t => exec_fabricTimeout_write,
    fun tag s t => exec_pciCompletionTimeout_read, fun tag s t => exec_pciLateCompletion_squashed⟩
  case write =>
    intro r s s1 s2 c a hc hissue hdev hroute hdir hstays hphys hocm hden
    rw [exec_memoryAccess_device hc hissue hdev hroute hphys (memory_apart (.inl hocm)).1,
      physAccess_ocm hocm hstays (by rw [hdir]; exact hden), ocmPerform_write hdir]
  case read =>
    intro r s s1 s2 c a hc hissue hdev hroute hdir hecc hstays hphys hocm hden hpoison
    rw [exec_memoryAccess_device hc hissue hdev hroute hphys (memory_apart (.inl hocm)).1,
      physAccess_ocm hocm hstays (by rw [hdir]; exact hden), ocmPerform_read hdir hecc hpoison]
  case refused =>
    intro r s s1 s2 x c a hc hissue hdev hroute hphys hmem hden
    rw [exec_memoryAccess_device hc hissue hdev hroute hphys (memory_apart hmem).1, physAccess_refused hmem hden]
  case aliases =>
    rintro ac addr size v s s1 c r tgt new rfl hc hissue hdev hroute halias hform hphys rfl hden hpoison rfl
    show execOcmAliasWrite ac addr size v false s = _
    rw [execOcmAliasWrite, if_pos halias]
    refine (exec_memoryAccess_device hc hissue hdev hroute hphys (inAlias_apart halias)).trans ?_
    rw [physAccess_aliasWrite halias hform rfl rfl hden hpoison]
    rfl

end Sys2Proof.Proofs

/-! PROOFS. The commands on polders, the steps of a polder's reset, and the loss and return of the PCIe link. -/
namespace Sys2Proof.Proofs
open Sys2Proof Sys2Proof.Machine

/-! ## The polder and the units that a command names (R91, R93) -/

section
variable {p type u lo hi most : Nat} {s : State}

/-- R93: a polder from 1 to 31 that exists is refused by no command that a resetting polder may be named in. -/
theorem namedRefusal_exists (hp : p ≠ 0) (hex : polExists s p = true) : namedRefusal s p false = none := by
  simp [namedRefusal, hp, hex]

/-- R93: an active polder from 1 to 31 is refused by no command. -/
theorem namedRefusal_active (hp : p ≠ 0) (hact : rd s (POL_STAT_state p) = 1) : namedRefusal s p true = none := by
  obtain ⟨hex, hstate⟩ := polder_runs s p hp hact
  simp [namedRefusal, hp, hex, hstate]

/-- One unit of a type, within Table POL-1. -/
theorem namedUnits_one (htype : unitRange type = some (lo, hi, most)) (hlo : lo ≤ u) (hhi : u ≤ hi) : namedUnits type u 1 = some [u] := by
  have hin : 0 < 1 ∧ lo ≤ u ∧ u + 1 ≤ hi + 1 := ⟨Nat.one_pos, hlo, Nat.succ_le_succ hhi⟩
  simp only [namedUnits, htype]
  rw [if_pos hin]
  rfl

/-- A unit that is no touch queue is noted in the grant table. -/
theorem giveUnits_one (htouch : type ≠ 6) : giveUnits p type [u] s = { s with grants := s.grants.put (unitKey type u) p } := if_neg htouch

/-- R95: a unit whose holder keeps nothing in it goes back to polder 0 by its entry in the grant table alone. -/
theorem returnUnits_one (hgfx : type ≠ 2) (hses : type ≠ 3) (htouch : type ≠ 6) :
    returnUnits p type [u] s = { s with grants := s.grants.put (unitKey type u) 0 } := by
  have hleft : unitLeft p type u s = s := by rw [unitLeft, if_neg hgfx, if_neg hses, if_neg htouch]
  simp only [returnUnits, List.foldl_cons, List.foldl_nil, hleft, if_neg htouch]

/-- A touch queue apart, a polder holds what the grant table says. -/
theorem holdsUnit_of_grantee (htouch : type ≠ 6) (hheld : grantee s type u = p) : holdsUnit s p type u = true := by
  simp [holdsUnit, htouch, hheld]

end

/-! ## The commands' own rules (Table POL-2) -/

section
variable {q : Req} {p u : Nat} {s : State}

/-- A reader whom R32 admits learns of a polder that exists. -/
theorem polderGetInfo_admitted (hp : p = bits (q.w 2) 4 0) (hread : q.mayReadPolder s p = true) (hex : polExists s p = true) :
    polderGetInfo q s = okR [polState s p + 4 * polLocation s p + 16 * (pairOf s p).getD 0, shareWord s p, lo32 (slotBitmap s p),
      hi32 (slotBitmap s p), audBudget s p] s := by
  subst hp
  simp [polderGetInfo, hread, hex]

/-- A reader whom R32 admits learns which units of a type from 1 to 8 a polder holds. -/
theorem polderGetGrants_units {t : Nat} (hp : p = bits (q.w 2) 4 0) (ht : t = bits (q.w 2) 11 8) (hread : q.mayReadPolder s p = true)
    (hlo : 1 ≤ t) (hhi : t ≤ 8) : polderGetGrants q s = okR (bitmapWords 8 (grantBitmap s p t)) s := by
  have hrange : ¬ (t = 0 ∨ 9 < t) := by omega
  have hunits : t ≠ 9 := by omega
  simp only [polderGetGrants, ← hp, ← ht, if_neg hrange, hread, if_neg hunits, Bool.not_true, Bool.false_eq_true, if_false]

/-- A polder just created (R95), before its pair is decided: its registers fresh, its shares 16, active at its location. -/
def createdAt (p loc : Nat) (s : State) : State :=
  wr (POL_STAT_state p) 1 (wr (POL_STAT_location p) loc (wr (POL_RESET_COUNT_count p) 0 (sharesDefault p (freshInstance p s))))

/-- R92, R95: the creation of an absent polder, with its own pair where that one is free. -/
theorem polderCreate_absent (hp : p = bits (q.w 2) 4 0) (hne : p ≠ 0) (habsent : polExists s p = false) :
    polderCreate q s = ⟨ST_OK, [], (let s1 := createdAt p (bits (q.w 2) 9 8) s
        if p < 30 ∧ chanOn s1 (2 * p) = false then assignPair p p 0 s1 else s1),
      fun t => if bits (q.w 2) 9 8 = 3 then polderChanged p t
        else notifyAck 0 Op.POLDER_PLACED [p + 256 * bits (q.w 2) 9 8] (polderChanged p t)⟩ := by
  simp only [polderCreate, ← hp, if_neg hne, habsent, Bool.false_eq_true, if_false]
  rfl

/-- R95, R105: the reset of an active polder begins behind the first reply. -/
theorem polderReset_active {destroy : Bool} (hp : p = bits (q.w 2) 4 0) (hne : p ≠ 0) (hact : rd s (POL_STAT_state p) = 1) :
    polderReset destroy q s = pend s (startReset p (some q.job) destroy) := by
  simp only [polderReset, ← hp, namedRefusal_active hne hact]

/-- R91: operations that polder 0's audio budget still has. -/
theorem polderGrant_budget (hp : p = bits (q.w 2) 4 0) (hne : p ≠ 0) (hact : rd s (POL_STAT_state p) = 1) (htype : bits (q.w 2) 11 8 = 9)
    (hlo : 1 ≤ q.w 3) (hhi : q.w 3 ≤ 24000) (hleft : q.w 3 ≤ audBudget s 0) :
    polderGrant q s = did { s with budget := s.budget.put p (audBudget s p + q.w 3) } := by
  have hcount : ¬ (q.w 3 = 0 ∨ 24000 < q.w 3) := by omega
  simp only [polderGrant, ← hp, namedRefusal_active hne hact, htype, if_true, if_neg hcount, if_neg (Nat.not_lt.mpr hleft)]

/-- R91, R94: a layer slot that no other polder holds. -/
theorem polderGrant_slot (hp : p = bits (q.w 2) 4 0) (hne : p ≠ 0) (hact : rd s (POL_STAT_state p) = 1) (htype : bits (q.w 2) 11 8 = 1)
    (hu : u = bits (q.w 2) 23 16) (hcount : bits (q.w 2) 31 24 = 1) (hlt : u < 64) (hfree : grantee s 1 u = 0 ∨ grantee s 1 u = p)
    (hroom : holdingWith s p 1 [u] ≤ 64) : polderGrant q s = did { s with grants := s.grants.put (256 + u) p } := by
  have hunits : namedUnits 1 u 1 = some [u] := namedUnits_one (hi := 63) rfl (Nat.zero_le u) (Nat.le_of_lt_succ hlt)
  have hother : [u].any (fun u => grantee s 1 u != 0 && grantee s 1 u != p) = false := by
    rcases hfree with h | h <;> simp [h]
  simp only [polderGrant, ← hp, ← hu, namedRefusal_active hne hact, htype, hcount, hunits, hother, giveUnits_one (by decide : 1 ≠ 6),
    unitRange, Nat.not_lt.mpr hroom]
  rfl

/-- R94: operations of its budget that a polder without an active program returns. -/
theorem polderRevoke_budget (hp : p = bits (q.w 2) 4 0) (hne : p ≠ 0) (hact : rd s (POL_STAT_state p) = 1) (htype : bits (q.w 2) 11 8 = 9)
    (hlo : 1 ≤ q.w 3) (hheld : q.w 3 ≤ audBudget s p) (hidle : (audPol s p).active = none) :
    polderRevoke q s = did { s with budget := s.budget.put p (audBudget s p - q.w 3) } := by
  have hcount : ¬ (q.w 3 = 0 ∨ audBudget s p < q.w 3) := by omega
  simp only [polderRevoke, ← hp, namedRefusal_active hne hact, htype, if_true, if_neg hcount, hidle, Nat.not_lt_zero, if_false]

/-- R94: a unit of type 8, which is never in use. -/
theorem polderRevoke_unit8 (hp : p = bits (q.w 2) 4 0) (hne : p ≠ 0) (hact : rd s (POL_STAT_state p) = 1) (htype : bits (q.w 2) 11 8 = 8)
    (hu : u = bits (q.w 2) 23 16) (hcount : bits (q.w 2) 31 24 = 1) (hlo : 1 ≤ u) (hheld : grantee s 8 u = p) :
    polderRevoke q s = did { s with grants := s.grants.put (2048 + u) 0 } := by
  have hhi : u ≤ 255 := by subst hu; exact Nat.le_of_lt_succ (Nat.mod_lt _ (by decide))
  have hunits : namedUnits 8 u 1 = some [u] := namedUnits_one rfl hlo hhi
  simp only [polderRevoke, ← hp, ← hu, namedRefusal_active hne hact, htype, hcount, hunits, List.all_cons, List.all_nil,
    holdsUnit_of_grantee (by decide : 8 ≠ 6) hheld, List.any_cons, List.any_nil, unitBusy,
    returnUnits_one (by decide : 8 ≠ 2) (by decide : 8 ≠ 3) (by decide : 8 ≠ 6)]
  rfl

/-- R103: the share of the graphics engine, and whether the polder is frozen by it. -/
theorem polderSetShare_gfx (hp : p = bits (q.w 2) 4 0) (hne : p ≠ 0) (hact : rd s (POL_STAT_state p) = 1) (hengine : bits (q.w 2) 9 8 = 0) :
    polderSetShare q s = did (raiseLine p 1 (
      let s1 := wr (POL_SHARE_gfx p) (bits (q.w 2) 23 16) s
      wrB (POL_STAT_frozen p) (rd s1 (POL_SHARE_gfx p) == 0 || rd s1 (POL_SHARE_vcd p) == 0 || rd s1 (POL_SHARE_cvu p) == 0) s1)) := by
  simp only [polderSetShare, ← hp, namedRefusal_active hne hact, hengine]
  rfl

/-- R95: a pair from 1 to 29 given to a polder alone. -/
theorem polderAssignPair_alone {k : Nat} (hp : p = bits (q.w 2) 12 8) (hne : p ≠ 0) (hex : polExists s p = true) (hk : k = bits (q.w 2) 4 0)
    (hlo : 1 ≤ k) (hhi : k ≤ 29) (hshare : bit (q.w 2) 24 = false) :
    polderAssignPair q s = did (assignPair k p (bits (q.w 2) 21 16) s) := by
  have hpair : ¬ (k = 0 ∨ 29 < k) := by omega
  simp only [polderAssignPair, ← hp, ← hk, namedRefusal_exists hne hex, if_neg hpair, hshare, Bool.false_eq_true, if_false]

/-- R111: an outbound window within its 32 GiB, on a part without BAR4. -/
theorem pcieSetWindows_outbound (hp : p = bits (q.w 2) 4 0) (hne : p ≠ 0) (hex : polExists s p = true)
    (hroom : bits (q.w 3) 22 0 + q.w 4 ≤ 2 ^ 23) (hbar : bar4Size s = 0) :
    pcieSetWindows q s = did { s with pci := { s.pci with outbound := s.pci.outbound.put p (bits (q.w 3) 22 0, q.w 4) } } := by
  simp only [pcieSetWindows, ← hp, namedRefusal_exists hne hex, if_neg (Nat.not_lt.mpr hroom), hbar, if_true]

end

/-- Settles O7: each command is served once it is asked for, and its rules are the case its hypotheses name. -/
theorem polderCommandsComplete : Obligations.PolderCommandsComplete := by
  unfold Obligations.PolderCommandsComplete
  refine ⟨?info, ?grants, ?create, ?destroy, ?reset, ?grantBudget, ?grantSlot, ?revokeBudget, ?revokeUnit, ?share, ?pair, ?windows⟩
  case info =>
    intro k m s hask hread hex
    exact serve_ok hask (polderGetInfo_admitted (q := ⟨k, m⟩) (s := taken k s) rfl hread hex)
  case grants =>
    intro k m s hask hread hlo hhi
    exact serve_ok hask (polderGetGrants_units (q := ⟨k, m⟩) (s := taken k s) rfl rfl hread hlo hhi)
  case create =>
    intro k m s p hask hp hne habsent
    exact (serve_after (body := polderCreate) hask (polderCreate_absent (s := taken k s) hp hne habsent) :)
  case destroy =>
    intro k m s hask hne hact
    exact serve_pend hask (polderReset_active (q := ⟨k, m⟩) (s := taken k s) rfl hne hact)
  case reset =>
    intro k m s hask hne hact
    exact serve_pend hask (polderReset_active (q := ⟨k, m⟩) (s := taken k s) rfl hne hact)
  case grantBudget =>
    intro k m s p hask hp hne hact htype hlo hhi hleft
    exact serve_ok hask (polderGrant_budget (q := ⟨k, m⟩) (s := taken k s) hp hne hact htype hlo hhi hleft)
  case grantSlot =>
    intro k m s p u hask hp hne hact htype hu hcount hlt hfree hroom
    exact serve_ok hask (polderGrant_slot (q := ⟨k, m⟩) (s := taken k s) hp hne hact htype hu hcount hlt hfree hroom)
  case revokeBudget =>
    intro k m s p hask hp hne hact htype hlo hheld hidle
    exact serve_ok hask (polderRevoke_budget (q := ⟨k, m⟩) (s := taken k s) hp hne hact htype hlo hheld hidle)
  case revokeUnit =>
    intro k m s p u hask hp hne hact htype hu hcount hlo hheld
    exact serve_ok hask (polderRevoke_unit8 (q := ⟨k, m⟩) (s := taken k s) hp hne hact htype hu hcount hlo hheld)
  case share =>
    intro k m s p hask hp hne hact hengine
    exact serve_ok hask (polderSetShare_gfx (q := ⟨k, m⟩) (s := taken k s) hp hne hact hengine)
  case pair =>
    intro k m s p hask hp hne hex hlo hhi hshare
    exact serve_ok hask (polderAssignPair_alone (q := ⟨k, m⟩) (s := taken k s) hp hne hex rfl hlo hhi hshare)
  case windows =>
    intro k m s p hask hp hne hex hroom hbar
    exact serve_ok hask (pcieSetWindows_outbound (q := ⟨k, m⟩) (s := taken k s) hp hne hex hroom hbar)

/-! ## The steps of a polder's reset (Table POL-7) and the PCIe link (R113) -/

section
variable {p : Fin 32} {r : PReset} {s : State}

/-- Table POL-7 step 2: the work's end, at once where nothing runs, or by an abort at R + 2 ms. -/
theorem exec_polderWorkAbort (hreset : Tab.get none s.resets p = some r) (hwaits : r.aborted = false) :
    exec (.polderWorkAbort p) s = .next (settle 4 (
      let s1 := if workRuns s p then abortWork p (advanceTo (r.start + 2000000) s) else s
      reachQ p { s1 with resets := s1.resets.put p (some { r with aborted := true }) })) := by
  show execPolderWorkAbort p s = _
  simp only [execPolderWorkAbort, hreset, hwaits, Bool.false_eq_true, if_false, done]

/-- Table POL-7 step 5: the transactions left 100 microseconds after Q are squashed. -/
theorem exec_crpPolderSquash {t : Nat} (hreset : Tab.get none s.resets p = some r) (hq : r.q = some t) (hwaits : r.squashed = false) :
    exec (.crpPolderSquash p) s = .next (settle 4 (record0 Src.CRP_POLDER_SQUASH (some p.val) [p, (txnsOf (advanceTo (t + 100000) s) p).length]
      { advanceTo (t + 100000) s with
        resets := (advanceTo (t + 100000) s).resets.put p (some { r with squashed := true }),
        fabric := (advanceTo (t + 100000) s).fabric.filterMap (fun t =>
          if t.polder == p.val && !t.squashed then (if t.pcie && !t.write then some { t with squashed := true } else none) else some t) })) := by
  show execCrpPolderSquash p s = _
  simp only [execCrpPolderSquash, hreset, hq, hwaits, Bool.false_eq_true, if_false, done]

/-- R105: the reset is over once none of the polder's transactions is left in the fabric. -/
theorem exec_polderResetDone (hreset : Tab.get none s.resets p = some r) (hsquashed : r.squashed = true) (hfabric : txnsOf s p = [])
    (hkept : r.destroy = false) :
    exec (.polderResetDone p) s = .next (settle 4 (polderChanged p (replyOpt r.job ST_OK [] (incWrap (POL_RESET_COUNT_count p) 1
      (wr (POL_STAT_state p) 1 (clearInstance p { s with resets := s.resets.put p none })))))) := by
  show execPolderResetDone p s = _
  simp only [execPolderResetDone, hreset, hsquashed, hfabric, hkept, List.isEmpty_nil, Bool.not_true, Bool.or_self, Bool.false_eq_true,
    if_false, done]

/-- R113: the link goes down. -/
theorem exec_pciLinkDown (hup : s.pci.linkUp = true) :
    exec .pciLinkDown s = .next (settle 4 (hostLost (record0 Src.PCI_LINK_DOWN none [] { s with pci := { s.pci with linkUp := false } }))) := by
  show execPciLinkDown s = _
  simp only [execPciLinkDown, hup, Bool.not_true, Bool.false_eq_true, if_false, done]

/-- R113: a hot reset or a function-level reset. -/
theorem exec_pciHotReset {fl : Bool} (hup : s.pci.linkUp = true) :
    exec (.pciHotReset fl) s = .next (settle 4 (hostLost (record0 Src.PCI_HOT_RESET none [if fl then 2 else 1] s))) := by
  show execPciHotReset fl s = _
  simp only [execPciHotReset, hup, Bool.not_true, Bool.false_eq_true, if_false, done]

end

/-- Settles O8: each step is taken where its conditions hold. -/
theorem polderResetStepsComplete : Obligations.PolderResetStepsComplete := by
  unfold Obligations.PolderResetStepsComplete
  refine ⟨?idle, ?working, fun p s r t => exec_crpPolderSquash, fun p s r => exec_polderResetDone, fun s => exec_pciLinkDown,
    fun fl s => exec_pciHotReset, fun s => rfl⟩
  case idle =>
    intro p s r hreset hwaits hidle
    simp only [exec_polderWorkAbort hreset hwaits, hidle, Bool.false_eq_true, if_false]
  case working =>
    intro p s r hreset hwaits hruns
    simp only [exec_polderWorkAbort hreset hwaits, hruns, if_true]

end Sys2Proof.Proofs

/-! PROOFS. The commands of the codec and of the capture inputs. -/
namespace Sys2Proof.Proofs
open Sys2Proof Sys2Proof.Machine

/-! ## Opening a session (R284, R288, R299, R301) -/

/-- A session just opened: its descriptor's, with its counters and ring at their start and the loads of both directions counted again. -/
def sessionOpened (n : Nat) (v : VcdSes) (s : State) : State :=
  let s1 := wr (VCD_SES_RING_RD_offset n) 0 (wr (VCD_SES_RING_WR_offset n) 0 (wr (VCD_SES_DONE_number n) 0 (wr (VCD_SES_STAT_grain n) 0
    (wr (VCD_SES_STAT_starved n) 0 (setSes n (some v) s)))))
  wr VCD_LOAD_ENC_samples (loadSum s1 true / 1000) (wr VCD_LOAD_DEC_samples (loadSum s1 false / 1000) s1)

/-- What an open asks of its sender, the session named and the descriptor, in either direction, but for R301. -/
def openable (encode : Bool) (q : Req) (p n : Nat) (v : VcdSes) (s : State) : Prop :=
  q.polder = some p ∧ v = descOf q s ∧ n = bits (v.word 0) 5 0 ∧ sesPolder s n = p ∧ ses s n = none ∧ descOk encode v = true ∧
    loadSum s encode + v.load ≤ 3981312000 * 1000 ∧ sesBufferOk s p v = true ∧ encodeSourceOk s p v = true

section
variable {q : Req} {p n : Nat} {v : VcdSes} {s : State}

/-- R288, R299: an open that passes every check, of a session that R301 does not concern. -/
theorem vcdOpen_passes {encode : Bool} (hopen : openable encode q p n v s) (hframes : (v.encode && v.subframe) = false) :
    vcdOpen encode q s = did (sessionOpened n v s) := by
  obtain ⟨hpol, hv, hn, howner, hclosed, hdesc, hload, hbuffer, hsource⟩ := hopen
  simp only [vcdOpen, hpol, ← hv, ← hn, howner, hclosed, hdesc, if_neg (Nat.not_lt.mpr hload), hbuffer, hsource, hframes, ne_eq,
    not_true_eq_false, Option.isSome_none, Bool.not_true, Bool.false_and, Bool.false_eq_true, if_false]
  rfl

/-! ## Commands on an open session (Table VCD-7) -/

/-- A session that is open and held by the sender's polder is the one its command is about. -/
theorem onSession_open {f : Nat → Nat → VcdSes → Answer} (hpol : q.polder = some p) (hn : n = bits (q.w 2) 5 0) (howner : sesPolder s n = p)
    (hopen : ses s n = some v) : onSession q f s = f p n v := by
  simp only [onSession, hpol, ← hn, howner, hopen, ne_eq, not_true_eq_false, if_false]

/-- A reader whom R32 admits learns an open session's descriptor, status and cropping. -/
theorem vcdGetSession_open (hn : n = bits (q.w 2) 5 0) (hread : q.mayReadPolder s (sesPolder s n) = true) (hopen : ses s n = some v) :
    vcdGetSession q s = okR ((List.range 8).map (fun i => v.desc.getD i 0) ++ [sesStatWord s n, v.crop]) s := by
  simp only [vcdGetSession, ← hn, hread, hopen, Bool.not_true, Bool.false_eq_true, if_false]

section
variable (hpol : q.polder = some p) (hn : n = bits (q.w 2) 5 0) (howner : sesPolder s n = p) (hopen : ses s n = some v)
include hpol hn howner hopen

/-- The close of a session that is not closing yet: its queue is cut to what has begun. -/
theorem vcdClose_open (hclosing : v.closing = none) :
    vcdClose q s = pend (setSes n (some { v with closing := some q.job, queue := v.queue.take v.begun }) s) sesCloseDue := by
  rw [vcdClose, onSession_open hpol hn howner hopen, hclosing]
  rfl

/-- R295: up to four slots of the polder's, bound to a decode session. -/
theorem vcdBindSlots_owned {ms : List Nat} (hdecode : v.encode = false) (hcount : bits (q.w 2) 10 8 ≤ 4)
    (hms : ms = (List.range (bits (q.w 2) 10 8)).map (fun i => q.w 3 / 64 ^ i % 64)) (hslots : ms.all (fun x => slotOwner s x == p) = true) :
    vcdBindSlots q s = did (setSes n (some { v with slots := ms }) s) := by
  have hform : ¬ (4 < bits (q.w 2) 10 8 ∨ v.encode = true) := by simp [hdecode, hcount]
  simp only [vcdBindSlots, onSession_open hpol hn howner hopen, if_neg hform, ← hms, hslots, Bool.not_true, Bool.false_eq_true, if_false]

/-- R107: the restart of a stopped session. -/
theorem vcdRestart_stopped (hstopped : v.stopped = true) :
    vcdRestart q s = did (sesRelease n (setSes n (some { v with
      stopped := false, pics := [], bands := [], keyPend := v.keyPend || v.encode,
      pool := v.pool.filter (fun x => !v.pics.any (fun p => p.pool == x.idx)), begun := max v.begun (min 1 v.queue.length) }) s)) := by
  rw [vcdRestart, onSession_open hpol hn howner hopen, hstopped]
  rfl

end

end

/-! ## Capture inputs (R308, R310) -/

section
variable {q : Req} {c : Nat} {s : State}

/-- CAP_GET_INPUT of an input's settings, status and counters. -/
theorem capGetInput_status (hc : c = bits (q.w 2) 1 0) (hpage : bit (q.w 2) 8 = false) :
    capGetInput q s = okR ([capCtrl s c, rd s (CAP_DELAY_us c), rd s (CAP_STRIDE_stride c), capStatus s c,
      rd s (CAP_TIMING_h c) + 65536 * rd s (CAP_TIMING_v c), rd s (CAP_RATE_mhz c)] ++ twoWords (rd s (CAP_TIME_time c)) ++
      [rd s (CAP_COUNTS_queued c) + 65536 * rd s (CAP_COUNTS_dropped c)]) s := by
  simp only [capGetInput, ← hc, hpage, Bool.false_eq_true, if_false]

/-- The settings of an input that is disabled, written and in force. -/
def inputDisabled (c slot buffers present delay stride : Nat) (addrs : List Nat) (s : State) : State :=
  takeEffect (capFields c) ((List.range 4).foldl (fun s i => wr (CAP_BUF_addr c i) (addrs.getD i 0 / 64) s) (wr (CAP_STRIDE_stride c) stride
    (wr (CAP_DELAY_us c) delay (wr (CAP_CTRL_present c) present (wr (CAP_CTRL_buffers c) buffers
      (wr (CAP_CTRL_slot c) slot (wrB (CAP_CTRL_enable c) false s)))))))

/-- CAP_SET_INPUT of a disabled input whose stride and buffers are aligned. -/
theorem capSetInput_disables {addrs : List Nat} (hc : c = bits (q.w 2) 31 30) (hoff : bit (q.w 2) 0 = false) (hlt : q.w 4 < 65536)
    (hstride : q.w 4 % 64 = 0)
    (haddrs : addrs = (List.range 4).map (fun i => (q.w (5 + 2 * i) + 4294967296 * q.w (6 + 2 * i)) % 2 ^ 40))
    (haligned : (addrs.take (bits (q.w 2) 9 8 + 1)).any (fun a => a % 64 != 0) = false) :
    capSetInput q s = did (wrB (CAP_STATUS_stopped c) (rdB s (CAP_STATUS_hdcp c) && rdB s (CAP_STATUS_signal c))
      (inputDisabled c (bits (q.w 2) 6 1) (bits (q.w 2) 9 8) (bits (q.w 2) 10 10) (q.w 3) (q.w 4) addrs s)) := by
  have hform : ¬ (65536 ≤ q.w 4 ∨ q.w 4 % 64 ≠ 0 ∨ (addrs.take (bits (q.w 2) 9 8 + 1)).any (fun a => a % 64 != 0) = true) := by
    simp [haligned, hstride, hlt]
  simp only [capSetInput, ← hc, ← haddrs, hoff, if_neg hform, Bool.false_eq_true, false_and, if_false]
  rfl

end

/-- Settles O24: each command is served once it is asked for, and its rules are the case its hypotheses name. -/
theorem codecCommandsComplete : Obligations.CodecCommandsComplete := by
  unfold Obligations.CodecCommandsComplete
  refine ⟨fun k m s hask => serve_ok hask rfl, ?session, ?openDecode, ?openEncode, ?close, ?bind, ?restart, ?getInput, ?setInput⟩
  case session =>
    intro k m s n v hask hn hread hopen
    exact serve_ok hask (vcdGetSession_open (q := ⟨k, m⟩) (s := taken k s) hn hread hopen)
  case openDecode =>
    rintro k m s s1 p n v hask hpol hv hn howner hclosed hdesc hload hbuffer hsource hdecode rfl
    have hopen : openable false ⟨k, m⟩ p n v (taken k s) := ⟨hpol, hv, hn, howner, hclosed, hdesc, hload, hbuffer, hsource⟩
    exact serve_ok hask (vcdOpen_passes hopen (by rw [hdecode, Bool.false_and]))
  case openEncode =>
    rintro k m s s1 p n v hask hpol hv hn howner hclosed hdesc hload hbuffer hsource hwhole rfl
    have hopen : openable true ⟨k, m⟩ p n v (taken k s) := ⟨hpol, hv, hn, howner, hclosed, hdesc, hload, hbuffer, hsource⟩
    exact serve_ok hask (vcdOpen_passes hopen (by rw [hwhole, Bool.and_false]))
  case close =>
    intro k m s p n v hask hpol hn howner hopen hclosing
    exact serve_pend hask (vcdClose_open (q := ⟨k, m⟩) (s := taken k s) hpol hn howner hopen hclosing)
  case bind =>
    intro k m s p n v ms hask hpol hn howner hopen hdecode hcount hms hslots
    exact serve_ok hask (vcdBindSlots_owned (q := ⟨k, m⟩) (s := taken k s) hpol hn howner hopen hdecode hcount hms hslots)
  case restart =>
    intro k m s p n v hask hpol hn howner hopen hstopped
    exact serve_ok hask (vcdRestart_stopped (q := ⟨k, m⟩) (s := taken k s) hpol hn howner hopen hstopped)
  case getInput =>
    intro k m s c hask hc hpage
    exact serve_ok hask (capGetInput_status (q := ⟨k, m⟩) (s := taken k s) hc hpage)
  case setInput =>
    rintro k m s s1 c addrs hask hc hoff hlt hstride haddrs haligned rfl
    exact serve_ok hask (capSetInput_disables (q := ⟨k, m⟩) (s := taken k s) hc hoff hlt hstride haddrs haligned)

end Sys2Proof.Proofs

/-! PROOFS. The memory controllers' own steps, and the commands of Table MEM-1. -/
namespace Sys2Proof.Proofs
open Sys2Proof Sys2Proof.Machine

/-! ## The scrubber of OCM (R123, R124) -/

section
variable {bank : Fin 12} {s : State}

/-- R123: the oldest corrected word that a bank still holds is written back. -/
theorem exec_ocmEccWriteback_held {w : Nat} (hheld : s.dmc.writeback.find? (fun w => ocmBank (8 * w) == bank.val) = some w) :
    exec (.ocmEccWriteback bank) s = .next { s with dmc := { s.dmc with writeback := s.dmc.writeback.erase w } } := by
  show execOcmEccWriteback bank s = _
  simp only [execOcmEccWriteback, hheld]

/-- R124: past a word without an error and without poison the scrubber only moves on. -/
theorem exec_ocmScrubRead_clean
    (hpoison : poisonedIn s (ocmBase + 0x800000 * bank.val + 8 * Tab.get 0 s.dmc.scrubPos bank) 8 = false) :
    exec (.ocmScrubRead bank .clean) s = .next (settle 4 (wr OCM_SCRUB_STAT_position
      (ocmOffset (ocmBase + 0x800000 * bank.val + 8 * Tab.get 0 s.dmc.scrubPos bank) / 65536) { s with dmc := { s.dmc with
        scrubPos := s.dmc.scrubPos.put bank ((Tab.get 0 s.dmc.scrubPos bank + 1) % 0x100000), scrubGrant := s.dmc.scrubGrant.put bank s.now,
        scrubBoost := s.dmc.scrubBoost.put bank
          (if Tab.get 0 s.dmc.scrubGrant bank + 100000 ≤ s.now then 31 else Tab.get 0 s.dmc.scrubBoost bank - 1),
        scrubCorrected := s.dmc.scrubCorrected } })) := by
  show execOcmScrubRead bank .clean s = _
  simp only [execOcmScrubRead, hpoison, reduceCtorEq, Bool.false_eq_true, or_self, if_false, done]
  rfl

end

/-! ## Refresh and row hammer (R131 to R138) -/

section
variable {ch : Fin 16} {s : State}

/-- R131, R133: a real-time master raises its urgent flag on a channel, which holds one from then on. -/
theorem exec_urgentFlagChange_raise {m : Fin 64} (hrt : realTime s m = true) (hflag : setBit (Tab.get 0 s.dmc.urgent ch) m ≠ 0) :
    exec (.urgentFlagChange m ch true) s = .next (orBits (DMC_STATUS_urgent (ch.val / 4)) (2 ^ (ch.val % 4))
      { s with dmc := { s.dmc with urgent := s.dmc.urgent.put ch (setBit (Tab.get 0 s.dmc.urgent ch) m) } }) := by
  show execUrgentFlagChange m ch true s = _
  simp only [execUrgentFlagChange, hrt, hflag, Bool.not_true, Bool.and_false, Bool.false_eq_true, if_false, if_true]

section
variable (hready : dramReady s = true)
include hready

/-- R136, R138: a new refresh window. -/
theorem exec_refreshWindowStart_ready : exec .refreshWindowStart s = .next (wrAll DMC_RH_THROTTLED_masters 0
    { advanceTo (s.dmc.windowStart + refreshWindow) s with dmc := { (advanceTo (s.dmc.windowStart + refreshWindow) s).dmc with
      trackers := [], windowStart := s.dmc.windowStart + refreshWindow } }) := by
  show execRefreshWindowStart s = _
  simp only [execRefreshWindowStart, hready, Bool.not_true, Bool.false_eq_true, if_false]

variable (hself : selfRefresh s = false)
include hself

/-- R132: a refresh that falls due while no urgent flag is held is made. -/
theorem exec_dramRefresh_calm (hcalm : urgentOn s ch = false) : exec (.dramRefresh ch) s = .next (settle 4 (refreshOne ch s)) := by
  show execDramRefresh ch s = _
  simp only [execDramRefresh, hready, hself, hcalm, Bool.not_true, Bool.or_self, Bool.false_and, Bool.false_eq_true, if_false, done]

/-- R133: under an urgent flag a due refresh is postponed until eight are owed, then one is forced. -/
theorem exec_dramRefresh_urgent (hurgent : urgentOn s ch = true) (hpostpone : rd s (DMC_REF_CTRL_postpone_en 0) = 1) :
    exec (.dramRefresh ch) s =
      if refreshDebt s ch < 8 then .next (setDebt ch (refreshDebt s ch + 1) s)
      else .next (settle 4 (record0 Src.DMC_REFRESH_FORCED none [ch, refreshDebt s ch]
        (orBits (DMC_REF_STAT_forced (ch.val / 4)) (2 ^ (ch.val % 4)) (refreshOne ch s)))) := by
  have hen : rdB s (DMC_REF_CTRL_postpone_en 0) = true := rdB_of_ne_zero (by rw [hpostpone]; exact Nat.one_ne_zero)
  show execDramRefresh ch s = _
  simp only [execDramRefresh, hready, hself, hurgent, hen, Bool.not_true, Bool.or_self, Bool.and_self, Bool.false_eq_true, if_false,
    if_true, done]

end

end

/-! ## Calibration, training and the patrol (R141 to R144, R433, R434) -/

section
variable {ch : Fin 16} {temp : BitVec 16} {s : State}

/-- R144: an attempt at retraining that succeeds. -/
theorem exec_dmcRetrainDone_success (hfailed : dramFailed s = true) (hretries : s.dmc.permanent = false) :
    exec (.dmcRetrainDone true temp) s = .next (settle 4 (
      let s2 : State := { passComplete temp.toNat s with dmc := { (passComplete temp.toNat s).dmc with attempts := 0, reason := 4, retries := [] } }
      memDramState 4 (record0 Src.DMC_RETRAIN_DONE none [rd s2 (DMC_TRAIN_STAT_passes 0), unsgn 32 (sgn 16 temp.toNat)]
        (wrAll DMC_STATUS_retraining 0 (wrAll DMC_STATUS_failed 0 s2))))) := by
  show execDmcRetrainDone true temp s = _
  simp only [execDmcRetrainDone, hfailed, hretries, Bool.not_true, Bool.or_self, Bool.false_eq_true, if_false, if_true, done]

section
variable (hready : dramReady s = true) (htrained : dramFailed s = false)
include hready htrained

/-- R143: a periodic check finds a channel's eye below its margin. -/
theorem exec_dmcTrainingLost_eye : exec (.dmcTrainingLost ch .eye) s =
    .next (settle 4 (vcdDramFailed (memDramState 1 (record0 Src.DMC_TRAINING_LOST none [ch, 1]
      (wrAll DMC_STATUS_retraining 1 (wrAll DMC_STATUS_failed 1 { s with dmc := { s.dmc with reason := 1, attempts := 0 } })))))) := by
  show execDmcTrainingLost ch .eye s = _
  simp only [execDmcTrainingLost, hready, htrained, Bool.not_true, Bool.or_self, Bool.false_eq_true, if_false, done]

variable (hself : selfRefresh s = false)
include hself

/-- R141: a ZQ calibration, 100 ms after the last. -/
theorem exec_zqCalibration_running : exec .zqCalibration s =
    .next (settle 4 (pumpRan 2 100000000 { advanceTo (s.dmc.lastZq + 100000000) s with
      dmc := { (advanceTo (s.dmc.lastZq + 100000000) s).dmc with lastZq := (advanceTo (s.dmc.lastZq + 100000000) s).now } })) := by
  show execZqCalibration s = _
  simp only [execZqCalibration, hready, htrained, hself, Bool.not_true, Bool.or_self, Bool.false_eq_true, if_false, done]

/-- R141: a retraining pass that has begun goes on to its next channel, and completes with channel 15. -/
theorem exec_retrainStep_due (hch : s.dmc.passCh = ch.val) (hbegun : 0 < ch.val) :
    exec (.retrainStep ch temp) s =
      if ch.val = 15 then .next (settle 4 (pumpRan 3 0 (passComplete temp.toNat
        { closeRows ch s with dmc := { (closeRows ch s).dmc with passCh := 0 } })))
      else .next { closeRows ch s with dmc := { (closeRows ch s).dmc with passCh := ch.val + 1 } } := by
  have hfirst : (ch.val == 0) = false := beq_eq_false_iff_ne.mpr (Nat.ne_of_gt hbegun)
  show execRetrainStep ch temp s = _
  simp only [execRetrainStep, hready, htrained, hself, hch, hfirst, bne_self_eq_false, Bool.not_true, Bool.or_self, Bool.false_and,
    Bool.false_eq_true, if_false, done]

/-- R433, R434: a step of the patrol that finds no error and does not end its pass. -/
theorem exec_dramPatrol_within (hcalm : anyUrgent s = false) (hinstalled : patrolSteps s ≠ 0)
    (hwithin : (s.dmc.patrol + 1) % patrolSteps s ≠ 0) :
    exec (.dramPatrol false) s = .next (settle 4 { s with dmc := { s.dmc with patrol := (s.dmc.patrol + 1) % patrolSteps s } }) := by
  have hsteps : (patrolSteps s == 0) = false := beq_eq_false_iff_ne.mpr hinstalled
  show execDramPatrol false s = _
  simp only [execDramPatrol, hready, htrained, hself, hcalm, hsteps, if_neg hwithin, Bool.not_true, Bool.or_self, Bool.false_eq_true,
    if_false, done]

end

end

/-- Settles O9: each step is taken where its conditions hold. -/
theorem memoryStepsComplete : Obligations.MemoryStepsComplete := by
  unfold Obligations.MemoryStepsComplete
  refine ⟨fun bank s w => exec_ocmEccWriteback_held, fun bank s => exec_ocmScrubRead_clean, fun s => rfl,
    fun ch s => exec_dramRefresh_calm, ?postponed, ?forced, fun m ch s => exec_urgentFlagChange_raise,
    fun s => exec_refreshWindowStart_ready, fun s => exec_zqCalibration_running, ?channel, ?lastChannel,
    fun ch s => exec_dmcTrainingLost_eye, fun temp s => exec_dmcRetrainDone_success, fun s => exec_dramPatrol_within⟩
  case postponed =>
    intro ch s hready hself hurgent hpostpone hroom
    rw [exec_dramRefresh_urgent hready hself hurgent hpostpone, if_pos hroom]
  case forced =>
    intro ch s hready hself hurgent hpostpone hfull
    rw [exec_dramRefresh_urgent hready hself hurgent hpostpone, if_neg (Nat.not_lt.mpr hfull)]
  case channel =>
    intro ch temp s hready htrained hself hch hbegun hlt
    rw [exec_retrainStep_due hready htrained hself hch hbegun, if_neg (Nat.ne_of_lt hlt)]
  case lastChannel =>
    intro temp s hready htrained hself hch
    exact exec_retrainStep_due (ch := 15) hready htrained hself hch (by decide)

/-! ## The commands' own rules (Table MEM-1) -/

section
variable {q : Req} {s : State}

/-- R116, R146: a region of pages in order within OCM, below page 4096 only for polder 0's secure world. -/
theorem memSetOcmRegion_allowed (horder : bits (q.w 3) 14 0 ≤ bits (q.w 4) 14 0) (hend : bits (q.w 4) 14 0 ≤ 24575)
    (hright : 4096 ≤ bits (q.w 3) 14 0 ∨ q.fromSecure = true) :
    memSetOcmRegion q s =
      did (setRegion (bits (q.w 2) 5 0) (bits (q.w 2) 9 8) (bits (q.w 3) 14 0) (bits (q.w 4) 14 0) (bits (q.w 2) 14 12) s) := by
  have hpages : ¬ (bits (q.w 4) 14 0 < bits (q.w 3) 14 0 ∨ 24575 < bits (q.w 4) 14 0) := by omega
  have howner : ¬ (bits (q.w 3) 14 0 < 4096 ∧ q.fromSecure = false) := by
    rcases hright with hhigh | hsecure
    · exact fun h => Nat.not_lt.mpr hhigh h.1
    · simp [hsecure]
  simp only [memSetOcmRegion, if_neg hpages, if_neg howner]

/-- R139, R140: a number of segments from 1 to 8 that keeps the polder map. -/
theorem memSetPasr_kept (hlo : 1 ≤ bits (q.w 2) 3 0) (hhi : bits (q.w 2) 3 0 ≤ 8) (hmap : mapDropped s (bits (q.w 2) 3 0) = false) :
    memSetPasr q s = did (wr (DMC_PASR_keep 0) (bits (q.w 2) 3 0) s) := by
  have hkeep : ¬ (bits (q.w 2) 3 0 = 0 ∨ 8 < bits (q.w 2) 3 0) := by omega
  simp only [memSetPasr, if_neg hkeep, hmap, Bool.false_eq_true, if_false]

/-- R132, R133: the mode of refresh, while DRAM has not lost its training. -/
theorem memSetRefresh_trained (htrained : dramFailed s = false) :
    memSetRefresh q s = did (wr (DMC_REF_CTRL_postpone_en 0) (bits (q.w 2) 1 1) (wr (DMC_REF_CTRL_mode 0) (bits (q.w 2) 0 0) s)) := by
  simp only [memSetRefresh, htrained, Bool.false_eq_true, if_false]

/-- R146: a threshold of at least 256 and a rate that is not 0. -/
theorem memSetRowhammer_valid (hthresh : 256 ≤ bits (q.w 2) 15 0) (hrate : bits (q.w 2) 23 16 ≠ 0) :
    memSetRowhammer q s = did (wr (DMC_RH_RATE_acts 0) (bits (q.w 2) 23 16) (wr (DMC_RH_THRESH_thresh 0) (bits (q.w 2) 15 0) s)) := by
  have hform : ¬ (bits (q.w 2) 15 0 < 256 ∨ bits (q.w 2) 23 16 = 0) := by omega
  simp only [memSetRowhammer, if_neg hform]

end

/-- Settles O10: each command is served once it is asked for, and its rules are the case its hypotheses name. -/
theorem memoryCommandsComplete : Obligations.MemoryCommandsComplete := by
  unfold Obligations.MemoryCommandsComplete
  refine ⟨fun k m s hask => serve_ok hask rfl, fun k m s hask => serve_ok hask rfl, fun k m s hask => serve_ok hask rfl, ?region, ?pasr,
    ?refresh, ?rowhammer, fun k m s hask => serve_ok hask rfl⟩
  case region =>
    intro k m s hask horder hend hright
    exact serve_ok hask (memSetOcmRegion_allowed (q := ⟨k, m⟩) (s := taken k s) horder hend hright)
  case pasr =>
    intro k m s hask hlo hhi hmap
    exact serve_ok hask (memSetPasr_kept (q := ⟨k, m⟩) (s := taken k s) hlo hhi hmap)
  case refresh =>
    intro k m s hask htrained
    exact serve_ok hask (memSetRefresh_trained (q := ⟨k, m⟩) (s := taken k s) htrained)
  case rowhammer =>
    intro k m s hask hthresh hrate
    exact serve_ok hask (memSetRowhammer_valid (q := ⟨k, m⟩) (s := taken k s) hthresh hrate)

end Sys2Proof.Proofs

/-! PROOFS. The steps of flips, commits, latch points and heartbeats, and the display commands on slots, budgets, latches and scalers. -/
namespace Sys2Proof.Proofs
open Sys2Proof Sys2Proof.Machine

/-! ## Flips (R153, R154) -/

section
variable {a : Access} {addr : BitVec 40} {v : BitVec 32} {s : State}

/-- R154: an admitted write of CMP_FLIP_PUSH. -/
theorem exec_cmpFlipPush (hpage : isPage addr.toNat = true) (hoff : pageOff addr.toNat = 0xC28)
    (hadm : admitted a addr.toNat v.toNat s = true) :
    exec (.cmpFlipPush a addr v) s = .next (settle 4 (flipPush addr.toNat v.toNat (carried s a addr.toNat) s)) :=
  regWrite_admitted (by rw [atDoorbell, hpage, hoff]; rfl) hadm

end

/-- R154: the entry that a polder has staged waits for validation, for a slot the polder holds. -/
theorem flipPush_owned {addr v p m : Nat} {c : Carried} {s : State} (hp : p = pageOf addr) (hm : m = v % 64) (howner : slotOwner s m = p) :
    ∃ e : Entry, e.buf0 = rdA s (CMP_FLIP_BUF0_addr p) ∧ e.buf1 = rdA s (CMP_FLIP_BUF1_addr p) ∧ e.fence = rdA s (CMP_FLIP_FENCE_addr p) ∧
      e.target = rd s (CMP_FLIP_TARGET_target p) ∧ e.time = rd s (CMP_FLIP_TIME_time p) ∧
      flipPush addr v c s = { wr (CMP_FLIP_STATUS_seq p) 0 (wr (CMP_FLIP_STATUS_slot p) m (wr (CMP_FLIP_STATUS_status p) ST_PENDING s)) with
        dsp := { s.dsp with flips := s.dsp.flips ++ [⟨p, m, e⟩] } } := by
  subst hp hm
  exact ⟨⟨0, _, _, _, _, _, s.now, none, false, 0, 0, []⟩, rfl, rfl, rfl, rfl, rfl, if_neg (not_not.mpr howner)⟩

/-- R154, R160: the validation of the only flip that waits: its outcome is its polder's status. -/
theorem exec_flipValidate_only {p : Fin 32} {j : FlipJob} {s : State} (hflips : s.dsp.flips = [j]) (hpolder : j.polder = p.val) :
    exec (.flipValidate p) s = .next (settle 4 (
      let st := flipOutcome s p j.slot j.entry
      let s1 : State := { s with dsp := { s.dsp with flips := [] } }
      wr (CMP_FLIP_STATUS_seq p) (if st = ST_OK then rd s (CMP_LAYER_LSTAT_next_seq j.slot) else 0) (wr (CMP_FLIP_STATUS_status p) st
        (if st = ST_OK then enqueue j.slot j.entry s1 else record0 Src.CMP_FLIP_REJECTED (some p.val) [j.slot, st] s1)))) := by
  have hfind : s.dsp.flips.find? (fun j => j.polder == p.val) = some j := by simp [hflips, hpolder]
  have hrest : s.dsp.flips.erase j = [] := by simp [hflips]
  show execFlipValidate p s = _
  simp only [execFlipValidate, hfind, hrest, List.any_nil, Bool.false_eq_true, if_false, done]

/-! ## Commits (R159, R160, R164, R173) -/

section
variable {a : Access} {addr : BitVec 40} {v : BitVec 32} {s : State}

/-- R159: an admitted write of CMP_COMMIT. -/
theorem exec_cmpCommit (hpage : isPage addr.toNat = true) (hoff : pageOff addr.toNat = 0xC40)
    (hadm : admitted a addr.toNat v.toNat s = true) :
    exec (.cmpCommit a addr v) s = .next (settle 4 (commitDoorbell addr.toNat v.toNat (carried s a addr.toNat) s)) :=
  regWrite_admitted (by rw [atDoorbell, hpage, hoff]; rfl) hadm

/-- R159, R173: a doorbell that is not refused, with room in its output's queue: its commit waits for validation. -/
theorem commitDoorbell_taken {addr v p n : Nat} {cr : Carried} (hp : p = pageOf addr) (hn : n = bits v 18 16) (hrefuses : refuses s p = false)
    (hroom : (queuedOn s n).length < 8) :
    ∃ c : Commit, c.id = bits v 15 0 ∧ c.polder = some p ∧ c.output = n ∧ c.count = rd s (CMP_COMMIT_COUNT_count p) ∧
      commitDoorbell addr v cr s = { commitStatus c ST_PENDING 0 none 0 (incWrap (CMP_COMMIT_COUNT_count p) 1 s) with
        dsp := { (commitStatus c ST_PENDING 0 none 0 (incWrap (CMP_COMMIT_COUNT_count p) 1 s)).dsp with
          waiting := (commitStatus c ST_PENDING 0 none 0 (incWrap (CMP_COMMIT_COUNT_count p) 1 s)).dsp.waiting ++ [c] } } := by
  subst hp hn
  exact ⟨⟨_, _, _, _, _, 0, s.now, none⟩, rfl, rfl, rfl, rfl,
    (if_neg (Bool.eq_false_iff.mp hrefuses)).trans (if_neg (Nat.not_le.mpr hroom))⟩

section
variable {c : Commit} {rest : List Commit} (hwaiting : s.dsp.waiting = c :: rest) (hroom : (queuedOn s c.output).length < 8)
include hwaiting hroom

/-- R160: the next commit passes every check. -/
theorem exec_commitValidate_passes (hfault : commitFault { s with dsp := { s.dsp with waiting := rest } } c = none) :
    exec .commitValidate s = .next (settle 4 (acceptCommit c (spansChecked c { s with dsp := { s.dsp with waiting := rest } }))) := by
  show execCommitValidate s = _
  simp only [execCommitValidate, hwaiting, if_neg (Nat.not_le.mpr hroom), hfault, done]

/-- R160: the next commit fails a check. -/
theorem exec_commitValidate_fails {st : Nat} {at_ : Option Nat}
    (hfault : commitFault { s with dsp := { s.dsp with waiting := rest } } c = some (st, at_)) :
    exec .commitValidate s = .next (settle 4 (rejectCommit c st at_ { s with dsp := { s.dsp with waiting := rest } })) := by
  show execCommitValidate s = _
  simp only [execCommitValidate, hwaiting, if_neg (Nat.not_le.mpr hroom), hfault, done]

end

end

/-! ## Latch points and heartbeats (R163, R165, R171, R208) -/

/-- R163, R165: the latch point of an output whose frame has its attestation record. -/
theorem exec_latchPoint_due {n : Fin 8} {s : State} (hruns : running s n = true) (hattested : (out s n).attested = true)
    (hlatched : (out s n).latched = false) (hstop : (out s n).stopDue = false) :
    exec (.latchPoint n) s =
      .next (settle 4 (latch n (((out s n).cur + 1) % 4294967296) (advanceTo (lineTime s n (latchLine s n)) s))) := by
  show execLatchPoint n s = _
  simp only [execLatchPoint, hruns, hattested, hlatched, hstop, Bool.not_false, Bool.and_self, if_true, done]

/-- R171, R208: an admitted heartbeat to a slot that its polder holds. -/
theorem exec_layerHeartbeat_owned {a : Access} {addr : BitVec 40} {v : BitVec 32} {s : State} {m : Nat} (hpage : isPage addr.toNat = true)
    (hslots : pageOff addr.toNat < 0xC00) (hoff : pageOff addr.toNat % 0x30 = 0x20) (hm : m = pageOff addr.toNat / 0x30)
    (hadm : admitted a addr.toNat v.toNat s = true) (howner : slotOwner s m = pageOf addr.toNat) :
    exec (.layerHeartbeat a addr v) s = .next (settle 4 { setSlot m { slot s m with beat := s.devTime } s with
      pwr := { s.pwr with splash := s.pwr.splash.filter (fun n => 56 + n != m) } }) := by
  subst hm
  show execLayerHeartbeat a addr v s = _
  unfold execLayerHeartbeat
  refine (regWrite_admitted (by rw [hpage, decide_eq_true hslots, hoff]; rfl) hadm).trans ?_
  rw [if_neg (not_not.mpr howner)]

/-- Settles O13: each write is admitted and each step taken, and its own rule is the case its hypotheses name. -/
theorem flipAndCommitStepsComplete : Obligations.FlipAndCommitStepsComplete := by
  unfold Obligations.FlipAndCommitStepsComplete
  refine ⟨?push, ?queued, ?refused, ?commit, fun s c rest => exec_commitValidate_passes, ?rejected, fun n s => exec_latchPoint_due,
    fun a addr v s m => exec_layerHeartbeat_owned⟩
  case push =>
    intro a addr v s p hpage hoff hadm hp howner
    obtain ⟨e, hbuf0, hbuf1, hfence, htarget, htime, hpush⟩ := flipPush_owned (c := carried s a addr.toNat) hp rfl howner
    exact ⟨e, hbuf0, hbuf1, hfence, htarget, htime, by rw [exec_cmpFlipPush hpage hoff hadm, hpush]⟩
  case queued =>
    intro p s j hflips hpolder hok
    simp only [exec_flipValidate_only hflips hpolder, hok, if_true]
  case refused =>
    intro p s j hflips hpolder hbad
    simp only [exec_flipValidate_only hflips hpolder, if_neg hbad]
  case commit =>
    intro a addr v s p hpage hoff hadm hp hrefuses hroom _
    obtain ⟨c, hid, hpolder, houtput, hcount, hdoorbell⟩ := commitDoorbell_taken (cr := carried s a addr.toNat) hp rfl hrefuses hroom
    exact ⟨c, hid, hpolder, houtput, hcount, by rw [exec_cmpCommit hpage hoff hadm, hdoorbell]⟩
  case rejected =>
    intro s c rest st at_ hwaiting hroom hfault
    exact exec_commitValidate_fails hwaiting hroom hfault

/-! ## What the display commands read (R464) -/

section
variable {q : Req} {n : Nat} {s : State}

/-- R464: a reader whom R32 admits learns a slot's content and status besides its placement. -/
theorem dspGetLayer_admitted (hn : n = bits (q.w 2) 5 0) (hread : q.mayReadPolder s (slotOwner s n) = true) :
    dspGetLayer q s = okR ((contentWords n).map (packForce s) ++ [packFlds s (lstatWord n)] ++
      [packForce s [CMP_SLOT_PLACE_output n, CMP_SLOT_PLACE_z n] + 65536 * slotOwner s n, packForce s (clipXY n), packForce s (clipWH n)]) s := by
  simp only [dspGetLayer, ← hn, hread, if_true]

/-- R200: the phases of one of the three scaler tables. -/
theorem dspGetScaler_table (htable : bits (q.w 2) 9 8 ≠ 3) :
    dspGetScaler q s = okR ((List.range (min (phaseLimit (bits (q.w 2) 9 8)) (64 - bits (q.w 2) 21 16))).flatMap (fun i =>
      (coefWords (bits (q.w 2) 2 0) (bits (q.w 2) 9 8) (bits (q.w 2) 21 16 + i)).map (packFlds s))) s :=
  if_neg htable

/-! ## The commits that the display commands make -/

/-- R148: the placement, on an output or on none (log 35), of a slot that is the sender's to place and that no rule refuses. -/
theorem setSlotPlace_free {secure : Bool} {fvs : List (Fld × Nat)} (hn : n = bits (q.w 2) 5 0) (hsecure : (slotOwner s n == 0) = secure)
    (hplace : placementFault s n (bits (q.w 2) 11 8) (bits (q.w 2) 20 16) = none)
    (hfvs : fvs = [(CMP_SLOT_PLACE_output n, bits (q.w 2) 11 8), (CMP_SLOT_PLACE_z n, bits (q.w 2) 20 16)] ++
      unpackFlds (q.w 3) (clipXY n) ++ unpackFlds (q.w 4) (clipWH n)) :
    setSlotPlace secure q s = internalCommit q.job (min 8 (bits (q.w 2) 11 8)) fvs s := by
  simp only [setSlotPlace, ← hn, hsecure, hplace, hfvs, ne_eq, not_true_eq_false, if_false]

/-- R150: a secure z above no slot of another polder. -/
theorem dspSetSecureZ_clear (hn : n = bits (q.w 2) 2 0) (hz : bits (q.w 2) 12 8 ≤ 24)
    (hclear : (slotsOn (projected s) n).any (fun i => slotOwner s i != 0 &&
      decide (bits (q.w 2) 12 8 ≤ rd (projected s) (CMP_SLOT_PLACE_z i).inForce)) = false) :
    dspSetSecureZ q s = internalCommit q.job n [(CMP_OUT_LATCH_secure_z n, bits (q.w 2) 12 8)] s := by
  simp only [dspSetSecureZ, ← hn, hclear, Nat.not_lt.mpr hz, Bool.false_eq_true, or_self, if_false]

/-- R163: the lookahead and berm of an output without a mode. -/
theorem dspSetLatch_noMode (hn : n = bits (q.w 2) 2 0) (hla : bits (q.w 2) 14 8 ∈ [16, 32, 48, 64]) (hlo : 1 ≤ bits (q.w 2) 20 16)
    (hhi : bits (q.w 2) 20 16 ≤ 16) (hmode : modeSet s n = false) :
    dspSetLatch q s =
      internalCommit q.job n [(CMP_OUT_LATCH_lookahead n, bits (q.w 2) 14 8), (CMP_OUT_LATCH_berm n, bits (q.w 2) 20 16)] s := by
  simp only [dspSetLatch, ← hn, hla, hmode, Nat.not_lt.mpr hlo, Nat.not_lt.mpr hhi, not_true_eq_false, Bool.false_eq_true, false_and,
    or_self, if_false]

/-- R170, R199: budgets that cover the output's demands, in force and with its queued commits, under the device's ceilings. -/
theorem dspSetBudget_covers (hn : n = bits (q.w 2) 2 0) (hfetch : (demandOf s n).1 ≤ q.w 3) (hpix : (demandOf s n).2 ≤ q.w 4)
    (hfetch' : (demandOf (projected s) n).1 ≤ q.w 3) (hpix' : (demandOf (projected s) n).2 ≤ q.w 4)
    (hceil : ceilingsOk s n (if running s n then rd s (SCN_RATE_mhz n) else 0) (q.w 3) (q.w 4) = true) :
    dspSetBudget q s = internalCommit q.job n [(CMP_OUT_FETCH_BUDGET_bursts n, q.w 3), (CMP_OUT_PIX_BUDGET_pixels n, q.w 4)] s := by
  have hdemands : ([demandOf s n, demandOf (projected s) n].any (fun e => decide (q.w 3 < e.1) || decide (q.w 4 < e.2))) = false := by
    simp [hfetch, hpix, hfetch', hpix']
  simp only [dspSetBudget, ← hn, hdemands, hceil, Bool.not_true, Bool.or_self, Bool.false_eq_true, if_false]

/-- A composition guard from 1 to 8. -/
theorem dspSetCompose_guard (hn : n = bits (q.w 2) 2 0) (hlo : 1 ≤ bits (q.w 2) 11 8) (hhi : bits (q.w 2) 11 8 ≤ 8) :
    dspSetCompose q s =
      internalCommit q.job n [(CMP_OUT_COMPOSE_guard n, bits (q.w 2) 11 8), (CMP_OUT_COMPOSE_dither n, bits (q.w 2) 12 12)] s := by
  simp only [dspSetCompose, ← hn, Nat.not_lt.mpr hlo, Nat.not_lt.mpr hhi, or_self, if_false]

/-- R195: while an output has no active lines, write-back to it stores no bytes that a polder would have to own. -/
theorem wbSpan_noMode {base stride : Nat} (hlines : vActive s n = 0) : wbSpan s n base stride = [] := if_pos (.inl hlines)

/-- R195: write-back of an output without a mode, with an aligned stride. -/
theorem dspSetWriteback_noMode {fvs : List (Fld × Nat)} (hn : n = bits (q.w 2) 31 29) (hstride : q.w 3 % 64 = 0) (hlt : q.w 3 < 65536)
    (hlines : vActive s n = 0) (hpixels : hActive s n = 0)
    (hfvs : fvs = [(CMP_OUT_WB_CTRL_enable n, bits (q.w 2) 0 0), (CMP_OUT_WB_CTRL_count n, bits (q.w 2) 2 1),
      (CMP_OUT_WB_CTRL_polder n, bits (q.w 2) 8 4), (CMP_OUT_WB_STRIDE_stride n, q.w 3)] ++
        (List.range 4).map (fun i => (CMP_OUT_WB_BASE_addr n i, bits (q.w (4 + 2 * i) + 4294967296 * q.w (5 + 2 * i)) 39 6))) :
    dspSetWriteback q s = internalCommit q.job n fvs s := by
  have hform : ¬ (q.w 3 % 64 ≠ 0 ∨ 65536 ≤ q.w 3 ∨ q.w 3 < 4 * hActive s n) := by omega
  have hbuffers (base : Nat → Nat) : (List.range (bits (q.w 2) 2 1 + 1)).all (fun i =>
      (wbSpan s n (base i * 64) (q.w 3)).all (spanOwned s (bits (q.w 2) 8 4) [])) = true :=
    List.all_eq_true.mpr fun i _ => by rw [wbSpan_noMode hlines]; rfl
  simp only [dspSetWriteback, ← hn, if_neg hform, hbuffers, hfvs, Bool.not_true, Bool.false_eq_true, if_false]

/-- R200: phases of a table that fit a message and the table, written without their application, whatever their taps sum to (log 38). -/
theorem dspSetScaler_phases {c : Nat} (hc : c = bits (q.w 2) 27 24) (htable : bits (q.w 2) 9 8 ≠ 3)
    (hfits : c ≤ phaseLimit (bits (q.w 2) 9 8)) (hend : bits (q.w 2) 21 16 + c ≤ 64) (happly : bit (q.w 2) 31 = false) :
    dspSetScaler q s = did ((((List.range c).flatMap (fun i =>
      coefWords (bits (q.w 2) 2 0) (bits (q.w 2) 9 8) (bits (q.w 2) 21 16 + i))).zipIdx).foldl (fun s e => writeFlds (q.w (3 + e.2)) e.1 s) s) := by
  simp only [dspSetScaler, ← hc, htable, Nat.not_lt.mpr hfits, Nat.not_lt.mpr hend, happly, or_self, Bool.not_false, if_false, if_true]

end

/-- Settles O14: each command is served once it is asked for, and its rules are the case its hypotheses name. -/
theorem displayCommandsComplete : Obligations.DisplayCommandsComplete := by
  unfold Obligations.DisplayCommandsComplete
  refine ⟨?getLayer, ?getOutput, fun k m s hask => serve_ok hask rfl, ?getScaler, ?slot, ?secureSlot, ?secureZ, ?latch, ?budget,
    fun k m s hask => serve_ok hask rfl, ?compose, ?writeback, ?scaler⟩
  case getLayer =>
    intro k m s n hask hn hread
    exact serve_ok hask (dspGetLayer_admitted (q := ⟨k, m⟩) (s := taken k s) hn hread)
  case getOutput =>
    rintro k m s n hask rfl
    exact serve_ok hask rfl
  case getScaler =>
    intro k m s hask htable
    exact serve_ok hask (dspGetScaler_table (q := ⟨k, m⟩) (s := taken k s) htable)
  case slot =>
    intro k m s n fvs hask hn howner hplace hfvs hpasses
    exact serve_commit hask hpasses
      (setSlotPlace_free (q := ⟨k, m⟩) (s := taken k s) hn (beq_eq_false_iff_ne.mpr howner) hplace hfvs)
  case secureSlot =>
    intro k m s n fvs hask hn howner hplace hfvs hpasses
    exact serve_commit hask hpasses (setSlotPlace_free (q := ⟨k, m⟩) (s := taken k s) hn (beq_iff_eq.mpr howner) hplace hfvs)
  case secureZ =>
    intro k m s hask hz hclear hpasses
    exact serve_commit hask hpasses (dspSetSecureZ_clear (q := ⟨k, m⟩) (s := taken k s) rfl hz hclear)
  case latch =>
    intro k m s n hask hn hla hlo hhi hmode hpasses
    exact serve_commit hask hpasses (dspSetLatch_noMode (q := ⟨k, m⟩) (s := taken k s) hn hla hlo hhi hmode)
  case budget =>
    intro k m s n hask hn hfetch hpix hfetch' hpix' hceil hpasses
    exact serve_commit hask hpasses (dspSetBudget_covers (q := ⟨k, m⟩) (s := taken k s) hn hfetch hpix hfetch' hpix' hceil)
  case compose =>
    intro k m s n hask hn hlo hhi hpasses
    exact serve_commit hask hpasses (dspSetCompose_guard (q := ⟨k, m⟩) (s := taken k s) hn hlo hhi)
  case writeback =>
    intro k m s n fvs hask hn hstride hlt hlines hpixels hfvs hpasses
    exact serve_commit hask hpasses
      (dspSetWriteback_noMode (q := ⟨k, m⟩) (s := taken k s) hn hstride hlt hlines hpixels hfvs)
  case scaler =>
    intro k m s c hask hc htable hfits hend happly
    exact serve_ok hask (dspSetScaler_phases (q := ⟨k, m⟩) (s := taken k s) hc htable hfits hend happly)

end Sys2Proof.Proofs

/-! PROOFS. The steps of bands, tiles, engines, the band-tile pool, scan-out's reads and write-back. -/
namespace Sys2Proof.Proofs
open Sys2Proof Sys2Proof.Machine

/-! ## Bands and the pool (R175, R192, R235) -/

section
variable {n : Fin 8} {b : Fin 512} {s : State}

/-- R175, R192, R235: the band of the frame being composed that comes next takes a free group. -/
theorem exec_bandEligible_free {g : Nat} (hruns : running s n = true) (hattested : (out s n).attested = false)
    (hband : b.val < bandCount s n) (hgroup : groupOf s n (out s n).prep b = none) (htile : tile s n b 0 = none)
    (hfree : (List.range (lookahead s n / 16 + 2)).find? (fun g => !(out s n).groups.any (fun e => e.1 == g)) = some g) :
    exec (.bandEligible n b) s = .next (
      let s1 := advanceTo (frameLineTime s n (16 * (b.val : Int) - lookahead s n)) s
      (List.range (tilesPerBand s n)).foldl (fun t i => setPool n g i { poolEntry t n g i with band := b, written := false }
          (setTile n b i ⟨0, none, 0, bandDeadline s1 n b, [], false, false⟩ t))
        (setGroups n ((out s n).groups ++ [(g, (out s n).prep, b.val)]) s1)) := by
  show execBandEligible n b s = _
  simp only [execBandEligible, hruns, hattested, decide_eq_false (Nat.not_le.mpr hband), hgroup, htile, hfree, Bool.not_true,
    Bool.false_and, Bool.or_self, Option.isSome_none, Bool.false_eq_true, if_false]

/-- R192: the entries of a band that scan-out has read are released at once where there is no write-back to wait for. -/
theorem exec_poolEntryRelease_read {g f : Nat} (hgroup : (out s n).groups.find? (fun e => e.2.2 == b.val) = some (g, f, b.val))
    (hread : (b.val + 1) * tilesPerBand s n ≤ (out s n).scanned) (hwb : wbOn s n = false) :
    exec (.poolEntryRelease n b) s = .next (setGroups n ((out s n).groups.filter (fun e => e.1 != g)) s) := by
  show execPoolEntryRelease n b s = _
  simp only [execPoolEntryRelease, hgroup, decide_eq_true hread, hwb, Bool.or_true, Bool.not_true, Bool.not_false, Bool.true_or,
    Bool.false_eq_true, if_true, if_false]

end

/-! ## Engines (R176 to R179) -/

section
variable {s : State}

/-- R176: the lowest-numbered idle engine takes the first tile; one of an output that is not its home is a steal. -/
theorem exec_tileDispatch_first {e d n b t : Nat} {v : Tile} (hidle : (List.range 32).find? (engIdle s) = some e)
    (hfirst : firstTile (e / 4) (unstarted s) = some (d, n, b, t)) (htile : tile s n b t = some v) :
    exec .tileDispatch s = .next (
      let s1 := wr (CMP_ENG_STAT_epoch e) v.epoch (wr (CMP_ENG_STAT_tile e) t (wr (CMP_ENG_STAT_band e) b (wr (CMP_ENG_STAT_output e) n
        (wr (CMP_ENG_STAT_busy e) 1 (setTile n b t { v with engine := some e, start := s.now, skip := (out s n).drops } s)))))
      if n = e / 4 then { s1 with dsp := { s1.dsp with engStart := s1.dsp.engStart.put e s.now } }
      else incWrap CMP_ENG_STEALS_count 1 { s1 with dsp := { s1.dsp with engStart := s1.dsp.engStart.put e s.now } }) := by
  show execTileDispatch s = _
  simp only [execTileDispatch, hidle, hfirst, htile]

variable {e : Fin 32}

/-- R177, R178: a tile finished before its deadline is written to its entry of the pool, and its engine is idle again. -/
theorem exec_tileComplete_inTime {s1 s2 : State} {n b t g : Nat} {v : Tile} (hbusy : engBusy s e = true) (hengine : engTile s e = (n, b, t))
    (htile : tile s n b t = some v) (hgroup : groupOf s n (out s n).prep b = some g)
    (hs1 : s1 = advanceTo (v.start + cycleTime (tileCost s n b t)) s) (hdeadline : s1.now < v.deadline)
    (hs2 : s2 = ((activeLayers s1 n).filter (fun l => !v.skip.contains l.slot)).foldl (fun s l => fetchLayer n b t l s) s1) :
    exec (.tileComplete e) s = .next (settle 4 (
      let skip := v.skip ++ (out s2 n).drops.filter (fun m => !(out s1 n).drops.contains m)
      engRelease e (setTile n b t { v with engine := none, finished := true, skip := skip }
        (setPool n g t ⟨b, (out s2 n).prep % 256, v.epoch, true, tileWords s2 n skip b t⟩ s2)))) := by
  show execTileComplete e s = _
  simp only [execTileComplete, hbusy, hengine, htile, hgroup, ← hs1, ← hs2, if_neg (Nat.not_le.mpr hdeadline), Bool.not_true,
    Bool.false_eq_true, if_false, done]

/-- R179: an engine that has held its tile longer than the watchdog's cycles is reset. -/
theorem exec_engineWatchdog_busy (hbusy : engBusy s e = true) (hcycles : rd s CMP_ENG_WDOG_cycles ≠ 0) :
    exec (.engineWatchdog e) s =
      .next (settle 4 (resetEngine e (advanceTo (Tab.get 0 s.dsp.engStart e + cycleTime (rd s CMP_ENG_WDOG_cycles + 1)) s))) := by
  show execEngineWatchdog e s = _
  simp only [execEngineWatchdog, hbusy, beq_eq_false_iff_ne.mpr hcycles, Bool.not_true, Bool.or_self, Bool.false_eq_true, if_false, done]

/-- R178, R179: an admitted write of CMP_ENG_RESET. -/
theorem exec_engineReset {a : Access} {addr : BitVec 40} {v : BitVec 32} (haddr : addr.toNat = 0x20202080)
    (hadm : admitted a addr.toNat v.toNat s = true) : exec (.engineReset a addr v) s = .next (settle 4 (engReset v.toNat s)) :=
  regWrite_admitted (eff := fun _ s => engReset v.toNat s) (beq_iff_eq.mpr haddr) hadm

/-- R178: an engine in reset returns to service. -/
theorem exec_engineReturn_inReset (hreset : rdB s (CMP_ENG_STAT_in_reset e) = true) :
    exec (.engineReturn e) s = .next (clrBits CMP_ENG_RESET_reset (2 ^ e.val)
      (wr (CMP_ENG_STAT_in_reset e) 0 (advanceTo (Tab.get 0 s.dsp.engReset e + cycleTime 64) s))) := by
  show execEngineReturn e s = _
  simp only [execEngineReturn, hreset, Bool.not_true, Bool.false_eq_true, if_false]

end

/-! ## Tiles that are open, and tiles that are scanned (R196, R197, R235) -/

section
variable {n : Fin 8} {s : State} {v : Tile}

section
variable {b : Fin 512} {t : Fin 32} {m : Fin 64} (htile : tile s n b t = some v) (hfinished : v.finished = false) (habandoned : v.abandoned = false)
include htile hfinished habandoned

/-- R196: an open tile goes on without a layer of its own buffer whose data is incomplete. -/
theorem exec_layerUnderrun_open (hskip : v.skip.contains m.val = false) (hactive : slotActive s m = true)
    (hplaced : placedOn s m = n) (huse : (slot s m).inUse.isSome = true) (hbuffer : usesBuffer (slot s m) = true)
    (hsolid : (layerOf s m).format ≠ fmtSolid) (hvisible : (((layerOf s m).visible s).inter (tileRect s n b t)).empty = false) :
    exec (.layerUnderrun n b t m) s = .next (settle 4 (dropLayer n m b (setTile n b t { v with skip := v.skip ++ [m.val] }
      (advanceTo (frameLineTime s n (16 * (b.val : Int) - rd s (CMP_OUT_COMPOSE_guard n).inForce)) s)))) := by
  have huse' : (slot s m).inUse.isNone = false := by rw [← Option.not_isSome, huse]; rfl
  show execLayerUnderrun n b t m s = _
  simp only [execLayerUnderrun, htile, hfinished, habandoned, hskip, hactive, hplaced, huse', hbuffer, beq_eq_false_iff_ne.mpr hsolid,
    hvisible, bne_self_eq_false, Bool.not_true, Bool.or_self, Bool.false_eq_true, if_false, done]

/-- R197: a tile that is open at its deadline is abandoned. -/
theorem exec_tileAbandoned_open : exec (.tileAbandoned n b t) s = .next (settle 4 (abandonTile n b t 1 (advanceTo v.deadline s))) := by
  show execTileAbandoned n b t s = _
  simp only [execTileAbandoned, htile, hfinished, habandoned, Bool.or_self, Bool.false_eq_true, if_false, done]

end

/-- R235: the words of a finished tile that is not its frame's last pass to scan-out as the pool holds them. -/
theorem exec_tileScan_passes {s1 : State} {b t : Nat} {words : List Nat} (hruns : running s n = true) (hcur : (out s n).cur = (out s n).prep)
    (hattested : (out s n).attested = false) (hb : b = (out s n).scanned / max 1 (tilesPerBand s n))
    (ht : t = (out s n).scanned % max 1 (tilesPerBand s n)) (htile : tile s n b t = some v) (hfinished : v.finished = true)
    (hmore : (out s n).scanned + 1 < tilesPerBand s n * bandCount s n) (hs1 : s1 = advanceTo (lineTime s n (16 * b)) s)
    (hwords : passedWords s1 n (out s n).cur b t = some words) :
    exec (.tileScan n) s = .next (settle 4 (setOut n { out s n with scanned := (out s n).scanned + 1 }
      { s1 with dsp := { s1.dsp with shown := s1.dsp.shown.put (tileKey n b t) words } })) := by
  have hleft : ¬ tilesPerBand s n * bandCount s n ≤ (out s n).scanned := by omega
  have hcur' : ((out s n).cur != (out s n).prep) = false := bne_eq_false_iff_eq.mpr hcur
  show execTileScan n s = _
  simp only [execTileScan, ← hb, ← ht, htile, hruns, hcur', hattested, hfinished, decide_eq_false hleft, ← hs1, hwords, Nat.ne_of_lt hmore,
    Option.isSome_some, Option.isNone_some, Option.getD_some, Bool.not_true, Bool.false_and, Bool.or_self, Bool.false_eq_true, if_true,
    if_false, done]

end

/-! ## Write-back (R193 to R195) -/

section
variable {n : Fin 8} {b : Fin 512} {s s1 s2 : State} {f : Nat} (hframe : wbFrame s n b = some f) (hon : wbOn s n = true)
include hframe hon

/-- R193, R194: a band whose every tile holds the frame's tag is copied at once, without fill. -/
theorem exec_wbBandComplete_whole (hwhole : wbFilled s n f b = false) :
    exec (.wbBandComplete n b) s = .next (settle 4 (wbBandDone n f b false false (wbRows n f b s))) := by
  show execWbBandComplete n b s = _
  simp only [execWbBandComplete, hframe, hon, hwhole, Bool.not_true, Bool.false_and, Bool.false_eq_true, if_false, done]

/-- R194: a band that write-back has not copied in time is given up. -/
theorem exec_wbBandDrop_late (hs1 : s1 = if f = (out s n).cur then advanceTo (lineTime s n (16 * (b.val + 2))) s else s)
    (hs2 : s2 = if freeBit s1 then wbRows n f b (tookFree s1) else tookFree s1) :
    exec (.wbBandDrop n b) s = .next (settle 4 (record0 Src.CMP_WB_DROP (some (rd s (CMP_OUT_WB_CTRL_polder n).inForce)) [n, b, f]
      (wbBandDone n f b true (wbFilled s1 n f b) s2))) := by
  show execWbBandDrop n b s = _
  simp only [execWbBandDrop, hframe, hon, ← hs1, ← hs2, Bool.not_true, Bool.false_eq_true, if_false, done]

end

/-- Settles O15: each step is taken where its conditions hold. -/
theorem tileStepsComplete : Obligations.TileStepsComplete := by
  unfold Obligations.TileStepsComplete
  refine ⟨?eligible, ?dispatch, ?complete, ?fault, fun e s => exec_engineWatchdog_busy, fun a addr v s => exec_engineReset,
    fun e s => exec_engineReturn_inReset, fun n b t m s v => exec_layerUnderrun_open, fun n b t s v => exec_tileAbandoned_open,
    fun n s s1 b t v words => exec_tileScan_passes, fun n b s f => exec_wbBandComplete_whole, fun n b s s1 s2 f => exec_wbBandDrop_late,
    fun n b s g f => exec_poolEntryRelease_read⟩
  case eligible =>
    intro n b s g hruns hattested hband hgroup htile hfree
    exact ⟨_, rfl, exec_bandEligible_free hruns hattested hband hgroup htile hfree⟩
  case dispatch =>
    intro s e d n b t v hidle hfirst htile
    exact ⟨_, rfl, exec_tileDispatch_first hidle hfirst htile⟩
  case complete =>
    intro e s s1 s2 n b t g v hbusy hengine htile hgroup hs1 hdeadline hs2
    exact ⟨_, rfl, exec_tileComplete_inTime hbusy hengine htile hgroup hs1 hdeadline hs2⟩
  case fault =>
    rintro e s _ _ rfl rfl
    rfl

end Sys2Proof.Proofs

/-! PROOFS. The dike watch: region comparison, motion and AUTO reads, attestation, its doorbells and its commands. -/
namespace Sys2Proof.Proofs
open Sys2Proof Sys2Proof.Machine

/-! ## Regions and attestation records (R215, R216, R222) -/

section
variable {n : Fin 8} {r : Fin 16} {s s1 : State} {st used : Nat} (hruns : running s n = true) (hcur : (out s n).cur = (out s n).prep)
  (hattested : (out s n).attested = false)
include hruns hcur hattested

/-- R215, R216: a comparison whose status is no breach (2, 4 or 5) and that learns nothing (6). -/
theorem exec_regionCompare_clear (hon : regionOn s n r = true) (hwaits : (region s n r).compared = false)
    (hscanned : ((regionRect s n r).y1.toNat - 1) / 16 * tilesPerBand s n + tilesPerBand s n ≤ (out s n).scanned)
    (hs1 : s1 = advanceTo (lineTime s n (regionRect s n r).y1.toNat) s)
    (hstatus : regionStatus s1 n r (regionSignature s1 n r) = (st, used)) (hst : st ∉ [2, 4, 5, 6]) :
    exec (.regionCompare n r) s = .next (settle 4 (wr (DKW_OUT_REG_STAT_status n r) st
      (wr (DKW_OUT_REG_LAST_sig n r) (regionSignature s1 n r) (putRegion n r { region s1 n r with compared := true, used := used } s1)))) := by
  have hcur' : ((out s n).cur != (out s n).prep) = false := bne_eq_false_iff_eq.mpr hcur
  have hpassed : ¬ (out s n).scanned < (((regionRect s n r).y1.toNat - 1) / 16 + 1) * tilesPerBand s n := by
    rw [Nat.add_one_mul]
    exact Nat.not_lt.mpr hscanned
  simp only [List.mem_cons, List.not_mem_nil, or_false, not_or] at hst
  obtain ⟨hdiffers, hnone, hunread, hlearns⟩ := hst
  have hbreach : ¬ (st = 2 ∨ st = 4 ∨ st = 5) := by simp only [hdiffers, hnone, hunread, or_self, not_false_eq_true]
  show execRegionCompare n r s = _
  simp only [execRegionCompare, hruns, hcur', hattested, hon, hwaits, decide_eq_false hpassed, ← hs1, hstatus,
    beq_eq_false_iff_ne.mpr hlearns, if_neg hbreach, Bool.not_true, Bool.not_false, Bool.and_true, Bool.or_self, Bool.false_eq_true, if_false,
    done]

/-- R222: the record of a frame with every tile scanned and every region compared. -/
theorem exec_attestRecord_due (hscanned : tilesPerBand s n * bandCount s n ≤ (out s n).scanned)
    (hcompared : (regionsOn s n).all (fun r => (region s n r).compared) = true) :
    exec (.attestRecord n) s = .next (settle 4 (attest n (advanceTo (lineTime s n (vActive s n)) s))) := by
  have hcur' : ((out s n).cur != (out s n).prep) = false := bne_eq_false_iff_eq.mpr hcur
  show execAttestRecord n s = _
  simp only [execAttestRecord, hruns, hcur', hattested, decide_eq_false (Nat.not_lt.mpr hscanned), hcompared, Bool.not_true, Bool.or_self,
    Bool.false_eq_true, if_false, done]

end

/-! ## Motion and AUTO reads (R211, R218) -/

section
variable {s s1 : State} {e : Entry}

/-- R211: a motion read that no check denies gives the signature of what it read, and counts the run of equal ones. -/
theorem exec_motionReadDone_permitted {m : Fin 64} {f sig : Nat} (hreading : (slot s m).reading = some f) (huse : (slot s m).inUse = some e)
    (hcheck : fetchCheck (slotOwner s m) (motionRanges s (layerOf s m) e) s = (0, s1))
    (hsig : sig = crc32c ((motionRanges s (layerOf s m) e).flatMap (fun r => devBytes s1 (slotOwner s m) r.1 r.2))) :
    exec (.motionReadDone m) s = .next (settle 4 (wr (DKW_SLOT_STATE_run m)
      (if (slot s m).sig = some sig then satAdd 8 (rd s1 (DKW_SLOT_STATE_run m)) 1 else 1)
      (setSlot m { slot s1 m with reading := none, sig := some sig } s1))) := by
  subst hsig
  show execMotionReadDone m s = _
  simp only [execMotionReadDone, hreading, huse, hcheck, OfNat.zero_ne_ofNat, if_true, if_false, done]

/-- R218: an AUTO read that no check denies gives the signature that its region's comparison expects. -/
theorem exec_autoReadDone_permitted {n : Fin 8} {r : Fin 16} (huse : (slot s (regionSlot s n r)).inUse = some e)
    (hauto : (region s n r).auto = 1) (hwaits : (region s n r).compared = false)
    (hcheck : fetchCheck (slotOwner s (regionSlot s n r)) (fetchRanges (layerOf s (regionSlot s n r)) e (regionRect s n r)) s = (0, s1)) :
    exec (.autoReadDone n r) s =
      .next (putRegion n r { region s n r with auto := 2, expected := some (autoSignature s1 n r e) } s1) := by
  show execAutoReadDone n r s = _
  simp only [execAutoReadDone, huse, hauto, hwaits, hcheck, ne_eq, not_true_eq_false, Bool.false_eq_true, or_self, if_true, if_false]

end

/-! ## Doorbells (R213, R217, R219, R221, R224, R225, R227) -/

/-- R217: a pair finds room in its region's queue. -/
theorem expectPush_room {n r tag : Nat} {s : State} (hroom : (region s n r).pairs.length < 4) :
    expectPush n r tag s = wr (DKW_OUT_REG_EXPECT_STAT_queued n r) ((region s n r).pairs.length + 1)
      (putRegion n r { region s n r with pairs := (region s n r).pairs ++ [(rd s (DKW_OUT_REG_EXPECT_value n r), tag)] } s) :=
  if_neg (Nat.not_le.mpr hroom)

/-- R225: the ring goes from disabled to enabled, with a size of Table DKW-10. -/
theorem ringControl_enables {c : Carried} {addr v : Nat} {s : State} (henable : bit v 16 = true) (hsize : ringSizeOk (bits v 14 0) = true)
    (hwas : rdB s DKW_RING_CTRL_enable = false) :
    ringControl c addr v s = restartChains 3 (wr DKW_RING_RD_index 0 (wr DKW_RING_WR_index 0
      (takeEffect [DKW_RING_BASE_base, DKW_RING_CTRL_size] (wrB DKW_RING_CTRL_enable true (wr DKW_RING_CTRL_size (bits v 14 0) s))))) := by
  simp only [ringControl, henable, hsize, hwas, Bool.not_true, Bool.not_false, Bool.and_false, Bool.and_true, Bool.false_eq_true, if_true,
    if_false]

/-- R213: the SIZE word of an image that no configuration refers to. -/
theorem imageWrite_size {c : Carried} {i v : Nat} {s : State} (hheld : imageHeld s i = false) :
    imageWrite c (0x20240400 + 0x10 * i + 8) v s = writeFlds v [DKW_IMG_SIZE_w i, DKW_IMG_SIZE_h i] s := by
  have hindex : (0x20240400 + 0x10 * i + 8 - 0x20240400) / 0x10 = i := by omega
  have hoff : (0x20240400 + 0x10 * i + 8) % 0x10 = 8 := by omega
  simp only [imageWrite, hindex, hoff, hheld, Bool.false_eq_true, if_false]

section
variable {a : Access} {addr : BitVec 40} {v : BitVec 32} {s : State} (hadm : admitted a addr.toNat v.toNat s = true)
include hadm

/-- R217: an admitted write of a region's EXPECT_PUSH register. -/
theorem exec_expectPush_admitted {n r : Nat} (hreg : regionReg addr.toNat 0x10 = some (n, r)) :
    exec (.expectPush a addr v) s = .next (settle 4 (expectPush n r v.toNat s)) := by
  show execExpectPush a addr v s = _
  simp only [execExpectPush, hreg, Option.isSome_some, regWrite_admitted rfl hadm]

/-- R221: an admitted write of an output's breach bits. -/
theorem exec_dkwBreachClear_admitted {n : Nat} (hreg : dkwOutReg addr.toNat 0 = some n) :
    exec (.dkwBreachClear a addr v) s = .next (settle 4 (breachClear n v.toNat s)) := by
  show execDkwBreachClear a addr v s = _
  simp only [execDkwBreachClear, hreg, Option.isSome_some, regWrite_admitted rfl hadm]

/-- R219: an admitted write of an output's RELEARN register. -/
theorem exec_dkwRelearn_admitted {n : Nat} (hreg : dkwOutReg addr.toNat 4 = some n) :
    exec (.dkwRelearn a addr v) s = .next (settle 4 (relearn n v.toNat s)) := by
  show execDkwRelearn a addr v s = _
  simp only [execDkwRelearn, hreg, Option.isSome_some, regWrite_admitted rfl hadm]

/-- R224: an admitted write of DKW_KEY_CTRL that loads the key. -/
theorem exec_dkwKeyLoad_loads (haddr : addr.toNat = 0x20240020) (hload : bit v.toNat 0 = true) :
    exec (.dkwKeyLoad a addr v) s = .next (settle 4 (loadKey s)) := by
  show execDkwKeyLoad a addr v s = _
  simp only [execDkwKeyLoad, regWrite_admitted (beq_iff_eq.mpr haddr) hadm, if_pos hload]

/-- R225: an admitted write of DKW_RING_CTRL. -/
theorem exec_dkwRingEnable_admitted (haddr : addr.toNat = 0x20240038) :
    exec (.dkwRingEnable a addr v) s = .next (settle 4 (ringControl (carried s a addr.toNat) addr.toNat v.toNat s)) :=
  regWrite_admitted (eff := fun c s => ringControl c addr.toNat v.toNat s) (beq_iff_eq.mpr haddr) hadm

/-- R227: an admitted write of DKW_HEAD_SNAP that latches the heads. -/
theorem exec_dkwHeadSnap_snaps (haddr : addr.toNat = 0x20240050) (hsnap : bit v.toNat 0 = true) :
    exec (.dkwHeadSnap a addr v) s = .next (settle 4 (headSnap s)) := by
  show execDkwHeadSnap a addr v s = _
  simp only [execDkwHeadSnap, regWrite_admitted (beq_iff_eq.mpr haddr) hadm, if_pos hsnap]

/-- R213: an admitted write of a word of the image table. -/
theorem exec_dkwImageWrite_admitted (hlo : 0x20240400 ≤ addr.toNat) (hhi : addr.toNat < 0x20240500) :
    exec (.dkwImageWrite a addr v) s = .next (settle 4 (imageWrite (carried s a addr.toNat) addr.toNat v.toNat s)) :=
  regWrite_admitted (eff := fun c s => imageWrite c addr.toNat v.toNat s) (by rw [decide_eq_true hlo, decide_eq_true hhi]; rfl) hadm

end

/-- Settles O16: each step is taken where its conditions hold, each write is admitted, and its own rule is the case its hypotheses name. -/
theorem dikeWatchStepsComplete : Obligations.DikeWatchStepsComplete := by
  unfold Obligations.DikeWatchStepsComplete
  refine ⟨fun n r s s1 st used => exec_regionCompare_clear, fun n s => exec_attestRecord_due, fun m s s1 e f sig => exec_motionReadDone_permitted,
    fun n r s s1 e => exec_autoReadDone_permitted, ?expect, fun a addr v s n hreg hadm => exec_dkwBreachClear_admitted hadm hreg,
    fun a addr v s n hreg hadm => exec_dkwRelearn_admitted hadm hreg, fun a addr v s haddr hadm => exec_dkwKeyLoad_loads hadm haddr, ?ring,
    fun a addr v s haddr hadm => exec_dkwHeadSnap_snaps hadm haddr, ?image⟩
  case expect =>
    intro a addr v s n r hreg hadm hroom
    rw [exec_expectPush_admitted hadm hreg, expectPush_room hroom]
  case ring =>
    intro a addr v s haddr hadm henable hsize hwas
    rw [exec_dkwRingEnable_admitted hadm haddr, ringControl_enables henable hsize hwas]
  case image =>
    intro a addr v s i hi haddr hadm hheld
    rw [exec_dkwImageWrite_admitted hadm (by omega) (by omega), haddr, imageWrite_size hheld]

/-! ## The commands' own rules (Table DKW-13) -/

section
variable {q : Req} {n : Nat} {s : State}

/-- R464: a reader whom R32 admits learns a slot's class in force (log 37) and its state. -/
theorem dkwGetLayer_admitted (hn : n = bits (q.w 2) 5 0) (hread : q.mayReadPolder s (slotOwner s n) = true) :
    dkwGetLayer q s = okR [packForce s (classWord n), rd s (DKW_SLOT_MAXAGE_us n).inForce, rd s (DKW_SLOT_HBPERIOD_us n).inForce,
      packForce s (motionXY n), packForce s (motionWH n), rd s (DKW_SLOT_BLANK_rgb n).inForce,
      packFlds s [DKW_SLOT_STATE_state n, DKW_SLOT_STATE_action n, DKW_SLOT_STATE_dropped n, DKW_SLOT_STATE_run n],
      rd s (DKW_SLOT_AGE_us n)] s := by
  simp only [dkwGetLayer, ← hn, hread, Bool.not_true, Bool.false_eq_true, if_false]

/-- R201: the classes of a slot that the projected placement shows on an output are a commit on that output. -/
theorem setClass_placed (hplaced : projectedOutput s n < 8) :
    setClass q n s = internalCommit q.job (projectedOutput s n) (classValues q n) s := by
  simp only [setClass, Nat.ne_of_lt hplaced, false_and, if_false]

/-- R201: the warden may give a polder's slot any class but SUPERVISED. -/
theorem dkwSetLayerLive_placed (hn : n = bits (q.w 2) 5 0) (howner : slotOwner s n ≠ 0) (hclass : bits (q.w 3) 1 0 ≠ 2)
    (hplaced : projectedOutput s n < 8) :
    dkwSetLayerLive q s = internalCommit q.job (projectedOutput s n) (classValues q n) s := by
  simp only [dkwSetLayerLive, ← hn, if_neg howner, if_neg hclass, setClass_placed hplaced]

/-- R201: the secure world may give any slot any class, but SUPERVISED only to one of polder 0's. -/
theorem dkwSetSecureLayer_placed (hn : n = bits (q.w 2) 5 0) (hclass : slotOwner s n = 0 ∨ bits (q.w 3) 1 0 ≠ 2)
    (hplaced : projectedOutput s n < 8) :
    dkwSetSecureLayer q s = internalCommit q.job (projectedOutput s n) (classValues q n) s := by
  have hright : ¬ (slotOwner s n ≠ 0 ∧ bits (q.w 3) 1 0 = 2) := by
    rw [not_and_or, not_not]
    exact hclass
  simp only [dkwSetSecureLayer, ← hn, if_neg hright, setClass_placed hplaced]

/-- R213: an image that no configuration refers to is emptied by a width of 0. -/
theorem dkwSetImage_empties (hn : n = bits (q.w 2) 3 0) (hheld : imageHeld s n = false) (hempty : bits (q.w 5) 13 0 = 0) :
    dkwSetImage q s = did (wr (DKW_IMG_FMT_stride n) (bits (q.w 6) 31 16) (wr (DKW_IMG_FMT_format n) (bits (q.w 6) 5 0)
      (wr (DKW_IMG_SIZE_h n) (bits (q.w 5) 29 16) (wr (DKW_IMG_SIZE_w n) 0
        (wr (DKW_IMG_ADDR_addr n) (bits (q.w 3 + 4294967296 * q.w 4) 39 6) s))))) := by
  simp only [dkwSetImage, ← hn, hheld, hempty, Nat.mul_div_cancel _ (by decide : 0 < 64), ne_eq, not_true_eq_false, Bool.false_eq_true,
    false_and, if_false]

/-- R225, R229: a ring of a size of Table DKW-10 over secure-class memory of polder 0. -/
theorem dkwSetRing_secure {base : Nat} (hbase : base = bits (q.w 2 + 4294967296 * q.w 3) 39 12) (hsize : ringSizeOk (bits (q.w 4) 14 0) = true)
    (hsecure : rangeSecureK0 s (base * 4096) (256 * bits (q.w 4) 14 0) = true) :
    dkwSetRing q s = did (wr DKW_STREAM_rec (bits (q.w 5) 15 8) (wr DKW_STREAM_onl (bits (q.w 5) 7 0)
      (ringControl ⟨9, 0, true⟩ 0x20240038 (q.w 4) (wr DKW_RING_BASE_base base s)))) := by
  simp only [dkwSetRing, ← hbase, hsize, hsecure, Bool.not_true, Bool.or_self, Bool.false_eq_true, if_false]

end

/-- Settles O17: each command is served once it is asked for, and its rules are the case its hypotheses name. -/
theorem dikeWatchCommandsComplete : Obligations.DikeWatchCommandsComplete := by
  unfold Obligations.DikeWatchCommandsComplete
  refine ⟨?getLayer, ?getRegion, fun k m s hask => serve_ok hask rfl, ?layerLive, ?secureLayer, ?setRegion, ?image,
    fun k m s hask => serve_ok hask rfl, ?ring⟩
  case getLayer =>
    intro k m s n hask hn hread
    exact serve_ok hask (dkwGetLayer_admitted (q := ⟨k, m⟩) (s := taken k s) hn hread)
  case getRegion =>
    rintro k m s n r hask rfl rfl
    exact serve_ok hask rfl
  case layerLive =>
    intro k m s n hask hn howner hclass hplaced hpasses
    exact serve_commit hask hpasses (dkwSetLayerLive_placed (q := ⟨k, m⟩) (s := taken k s) hn howner hclass hplaced)
  case secureLayer =>
    intro k m s n hask hn hclass hplaced hpasses
    exact serve_commit hask hpasses (dkwSetSecureLayer_placed (q := ⟨k, m⟩) (s := taken k s) hn hclass hplaced)
  case setRegion =>
    rintro k m s n r fvs hask rfl rfl rfl hpasses
    exact serve_commit hask hpasses rfl
  case image =>
    intro k m s i hask hi hheld hempty
    exact serve_ok hask (dkwSetImage_empties (q := ⟨k, m⟩) (s := taken k s) hi hheld hempty)
  case ring =>
    intro k m s base hask hbase hsize hsecure
    exact serve_ok hask (dkwSetRing_secure (q := ⟨k, m⟩) (s := taken k s) hbase hsize hsecure)

end Sys2Proof.Proofs

/-! PROOFS. Scan-out and the display links: VSYNC, FLIP, mode sets, hot plug and link maintenance, and the scan-out commands. -/
namespace Sys2Proof.Proofs
open Sys2Proof Sys2Proof.Machine

/-! ## The frame of a running output (R233, R234, R239) -/

section
variable {n : Fin 8} {s : State} (hruns : running s n = true)
include hruns

/-- R233: VSYNC of a frame with its attestation record that stretch (R249) inserts no line into. -/
theorem exec_vsync_unstretched (hattested : (out s n).attested = true) (hvsynced : (out s n).vsynced = false)
    (hstop : (out s n).stopDue = false) (hlines : stretchLines s n = 0) :
    exec (.vsync n) s = .next (settle 4 (vsync n (advanceTo (lineTime s n (vsyncStart s n)) s))) := by
  show execVsync n s = _
  simp only [execVsync, hruns, hattested, hvsynced, hstop, hlines, Nat.add_zero, Bool.not_false, Bool.and_self, if_true, done]

section
variable (hvsynced : (out s n).vsynced = true) (hlatched : (out s n).latched = true)
include hvsynced hlatched

/-- R234: in video mode no tearing-effect edge is waited for, and line 0 follows the frame's last line. -/
theorem exec_flip_videoMode (hvideo : cmdMode s n = false) :
    exec (.flip n) s =
      .next (settle 4 (flip n (anchorAt n (vTotal s n) 0 (out s n).inc (advanceTo (lineTime s n (vTotal s n)) s)))) := by
  have hwaits : waitsTe s n = false := by rw [waitsTe, hvideo, Bool.false_and]
  show execFlip n s = _
  simp only [execFlip, hruns, hvsynced, hlatched, hwaits, hvideo, Bool.and_self, Bool.false_eq_true, if_true, if_false, done]

/-- R239: the first tearing-effect edge after the latch point. -/
theorem exec_tearingEffectEdge_first (hwaits : waitsTe s n = true) (hte : (out s n).te = false) :
    exec (.tearingEffectEdge n) s =
      .next (setOut n { out (anchorNow n 0 (out s n).inc s) n with te := true } (anchorNow n 0 (out s n).inc s)) := by
  show execTearingEffectEdge n s = _
  simp only [execTearingEffectEdge, hruns, hwaits, hvsynced, hlatched, hte, Bool.not_false, Bool.and_self, if_true]

end

end

/-! ## The steps of a mode set (Table SCN-4, R241, R242) -/

section
variable {n : Fin 8} {s : State}

/-- R241, R242: the old timing stops where a mode set is due to stop it. -/
theorem exec_modeTimingStop_due {j : Option Job} {ws : List Nat} (hstop : (out s n).stopDue = true)
    (hmode : (out s n).mode = some (j, ws)) :
    exec (.modeTimingStop n) s =
      .next (settle 4 (if bit (modeWord ws 2) 3 then configure n ws (stopTiming n s) else switchOff n j (stopTiming n s))) := by
  show execModeTimingStop n s = _
  simp only [execModeTimingStop, hstop, hmode, done]

/-- R241: the new timing of a configured output starts, its frame counter going on. -/
theorem exec_modeTimingStart_configured {trained : Bool} {s1 s2 s4 : State} (hconfigured : (out s n).configured = true)
    (hstopped : running s n = false) (hs1 : s1 = advanceTo (startTime s n) s)
    (hs2 : s2 = anchorNow n (vsyncStart s1 n) (incNow s1 n) (wr (SCN_STATUS_running n) 1 s1))
    (hs4 : s4 = (if lockOn s n then setLockState n 1 else id) (vsync n (setOut n { out s2 n with
      cur := frameCounter s n, prep := frameCounter s n, attested := true, vsynced := false, latched := false, te := false,
      stopDue := false, lockRun := 0 } s2))) :
    exec (.modeTimingStart n trained) s = .next (settle 4 ((if trained && sinkPresent s4 n then setLink n true else id)
      (record (Src.SCN_OUT n) 5 none [frameCounter s4 n, 1] s4))) := by
  show execModeTimingStart n trained s = _
  simp only [execModeTimingStart, hconfigured, hstopped, ← hs1, ← hs2, ← hs4, Bool.not_true, Bool.or_self, Bool.false_eq_true, if_false,
    done]

end

/-! ## Hot plug and link maintenance (R245 to R247) -/

/-- R245, R246: a low level held for 100 ms where a sink is known disconnects it. -/
theorem hpdRead_disconnects {n us : Nat} {k : SinkInfo} {t : Option (Nat × Nat)} {s : State} (hheld : 100000 ≤ us)
    (hsink : sinkPresent s n = true) :
    hpdRead n (.level false us k) t s =
      setLink n false (hotplug n false false (wr (SCN_STATUS_sink n) 0 (setOut n { out s n with sink := none } s))) := by
  simp only [hpdRead, hsink, Nat.not_lt.mpr hheld, Bool.false_eq_true, or_self, if_false]

/-- R247: the link status of a running output with a sink is read. -/
theorem exec_linkStatusPoll_running {n : Fin 6} {lost : Bool} {t : Trained} {s : State} (hruns : running s n = true)
    (hsink : sinkPresent s n = true) :
    exec (.linkStatusPoll n lost t) s = .next (settle 4 (if lost || !rdB s (SCN_STATUS_link_up n)
      then relink n (trainedAt t) (pumpRan 6 100000000 s) else pumpRan 6 100000000 s)) := by
  show execLinkStatusPoll n lost t s = _
  simp only [execLinkStatusPoll, hruns, hsink, Bool.not_true, Bool.or_self, Bool.false_eq_true, if_false, done]

/-- Settles O18: each step is taken where its conditions hold, and a reading that disconnects is the case its hypotheses name. -/
theorem scanOutStepsComplete : Obligations.ScanOutStepsComplete := by
  unfold Obligations.ScanOutStepsComplete
  exact ⟨fun n s => exec_vsync_unstretched, fun n s => exec_flip_videoMode,
    fun n s hruns hwaits hvsynced hlatched hte => exec_tearingEffectEdge_first hruns hvsynced hlatched hwaits hte,
    fun n s j ws => exec_modeTimingStop_due, fun n trained s s1 s2 s4 => exec_modeTimingStart_configured, fun reads s => rfl,
    fun n us k t s => hpdRead_disconnects, fun n lost t s => exec_linkStatusPoll_running⟩

/-! ## The commands' own rules (R236, R241 to R244, R248, R253 to R255) -/

section
variable {q : Req} {n : Nat} {s : State}

/-- R241 to R244: a valid mode for an output that has none is configured after the answer ST_PENDING. -/
theorem dspSetMode_noMode {ws : List Nat} (hn : n = bits (q.w 2) 2 0) (hws : ws = (List.range 9).map (fun i => q.w (i + 2)))
    (hon : bit (q.w 2) 3 = true) (hidle : (out s n).mode = none) (hformed : modeMalformed ws = false) (hmode : modeSet s n = false)
    (hstopped : running s n = false) (hvalid : modeFault s n ws = none) :
    dspSetMode q s = pend (setOut n { out s n with mode := some (some q.job, ws) } s) (configure n ws) := by
  simp only [dspSetMode, ← hn, ← hws, hon, hidle, hformed, hmode, hstopped, hvalid, Option.isSome_none, Bool.not_true, Bool.and_false,
    Bool.false_and, Bool.false_eq_true, if_true, if_false]

/-- R248, R253 to R255: lock without stretch is enabled on an output with no mode; no frame rate bounds its phase (R255), and R253
compares none. -/
theorem dspSetLock_noMode {s1 : State} (hn : n = bits (q.w 2) 2 0) (hon : bit (q.w 2) 3 = true) (hmethod : bit (q.w 2) 4 = false)
    (hrate : rd s (SCN_RATE_mhz n) = 0) (hmode : modeSet s n = false)
    (hsched : schedConflict s n (bits (q.w 2) 31 16) (q.w 3) 0 = false) (hvideo : cmdModeComing s n = false)
    (hs1 : s1 = tookFree (wr (SCN_LOCK_PHASE_ns n) (q.w 3) (wr (SCN_LOCK_CTRL_group n) (bits (q.w 2) 31 16)
      (wr (SCN_LOCK_CTRL_max_stretch n) (bits (q.w 4) 13 0) (wrB (SCN_LOCK_CTRL_method n) false
        (wrB (SCN_LOCK_CTRL_enable n) true s)))))) :
    dspSetLock q s = did (if lockState s1 n = 0 then setLockState n 1 s1 else s1) := by
  simp only [dspSetLock, ← hn, hon, hmethod, hrate, hmode, hsched, hvideo, ← hs1, ne_eq, not_true_eq_false, Bool.not_true, Bool.and_false,
    Bool.false_and, Bool.false_eq_true, false_and, if_false]

/-- The second half of what DSP_GET_OUTPUT reads of an output: its pace, fill, raster position and lock. -/
theorem dspGetOutput_secondHalf (hn : n = bits (q.w 2) 2 0) (hhalf : bit (q.w 2) 8 = true) :
    dspGetOutput q s = okR [rd s (SCN_PACE_INC_frac n), rd s (SCN_PACE_INC_int n), rd s (SCN_FILL_rgb n),
      (if running s n then (rasterPos s n).1 + 65536 * (rasterPos s n).2 else 0), rd s (SCN_LINK_DELAY_ns n), rd s (SCN_LOCK_PHASE_ns n),
      rd s (SCN_LOCK_ERR_ns n), lo32 (rd s (SCN_LOCK_TARGET_time n)), hi32 (rd s (SCN_LOCK_TARGET_time n)),
      packFlds s [SCN_LOCK_CTRL_enable n, SCN_LOCK_CTRL_method n, SCN_LOCK_CTRL_max_stretch n, SCN_LOCK_CTRL_group n]] s := by
  simp only [dspGetOutput, ← hn, hhalf, if_true]

/-- DSP_GET_SINK of a sink that is known; its EDID goes to the buffer, whose address shares word 2 with the output (log 42). -/
theorem dspGetSink_known {sk : Sink} (hn : n = bits (q.w 2) 2 0) (hsink : (out s n).sink = some sk) :
    dspGetSink q s = okR [rd s (SCN_STATUS_sink n) + (2 * sk.rate + 32 * sk.lanes + 256 * b2n sk.dsc + 512 * b2n sk.varTotal)]
      (devPut 0 (q.bufAddr - n) (sk.edid.take q.bufSize) s) := by
  simp only [dspGetSink, ← hn, hsink]

end

/-- Settles O19: each command is served once it is asked for, and its rules are the case its hypotheses name. -/
theorem scanOutCommandsComplete : Obligations.ScanOutCommandsComplete := by
  unfold Obligations.ScanOutCommandsComplete
  refine ⟨?mode, ?lock, fun k m s hask => serve_ok hask rfl, ?output, ?sink⟩
  case mode =>
    intro k m s n ws hask hn hws hon hidle hformed hmode hstopped hvalid
    exact serve_pend hask (dspSetMode_noMode (q := ⟨k, m⟩) (s := taken k s) hn hws hon hidle hformed hmode hstopped hvalid)
  case lock =>
    intro k m s s1 n hask hn hon hmethod hrate hmode hsched hvideo hs1
    exact serve_ok hask (dspSetLock_noMode (q := ⟨k, m⟩) (s := taken k s) hn hon hmethod hrate hmode hsched hvideo hs1)
  case output =>
    intro k m s n hask hn hhalf
    exact serve_ok hask (dspGetOutput_secondHalf (q := ⟨k, m⟩) (s := taken k s) hn hhalf)
  case sink =>
    intro k m s n sk hask hn hsink
    exact serve_ok hask (dspGetSink_known (q := ⟨k, m⟩) (s := taken k s) hn hsink)

end Sys2Proof.Proofs

/-! PROOFS. The graphics unit: packets, the doorbell, boundaries, waits, completions and faults, and the graphics commands. -/
namespace Sys2Proof.Proofs
open Sys2Proof Sys2Proof.Machine

/-! ## Packets (R263) -/

/-- R279: a checked access that answers reason 0 stops no context. -/
theorem gfxStopIf_passed (k : Nat) (s : State) : gfxStopIf k (0, s) = s := if_pos rfl

section
variable {p : Fin 32} {w : Fin 16} {ws : List Nat} {s t t1 : State}

/-- R263, R265: a DISPATCH whose counts are in range has a batch to run for each 4,096 workgroups. -/
theorem exec_dispatch_counted (hat : packetAt 4 (winKey p w) ws s t)
    (hcounts : ws.all (fun c => decide (1 ≤ c) && decide (c ≤ 65535)) = true) :
    exec (.dispatch p w) s = .next (settle 4 (gfxSchedule
      (gfxUnits (winKey p w) (ceilDiv (ws.getD 0 0 * ws.getD 1 0 * ws.getD 2 0) 4096) t))) := by
  show execDispatch p w s = _
  rw [execDispatch, gfxPacket_at hat, if_pos hcounts]

/-- R264: a WAIT_GE whose read passes goes on where the word holds the value, and waits where it does not. -/
theorem exec_waitGe_read {bs : List Nat} (hat : packetAt 7 (winKey p w) ws s t)
    (hread : devRead (gfxEng (winKey p w)) (bits (twoWord ws 0) 39 3 * 8) 8 t = (0, bs, t1)) :
    exec (.waitGe p w) s = .next (settle 4 (gfxSchedule
      (if twoWord ws 2 ≤ leNat bs then t1 else setGfxWin (winKey p w) { gfxWin t1 (winKey p w) with
        wait := some (bits (twoWord ws 0) 39 3 * 8, twoWord ws 2,
          if ws.getD 4 0 = 0 then none else some (t1.now + 1000 * ws.getD 4 0)) } t1))) := by
  show execWaitGe p w s = _
  simp only [execWaitGe, gfxPacket_at hat, hread]

/-- A WRITE64 whose write passes. -/
theorem exec_write64_written (hat : packetAt 8 (winKey p w) ws s t)
    (hwrite : devWrite (gfxEng (winKey p w)) (bits (twoWord ws 0) 39 3 * 8) (leBytes 8 (twoWord ws 2)) t = (0, t1)) :
    exec (.write64 p w) s = .next (settle 4 (gfxSchedule t1)) := by
  show execWrite64 p w s = _
  rw [execWrite64, gfxPacket_at hat, hwrite, gfxStopIf_passed]

/-- A TIMESTAMP whose write passes. -/
theorem exec_timestamp_written (hat : packetAt 9 (winKey p w) ws s t)
    (hwrite : devWrite (gfxEng (winKey p w)) (bits (twoWord ws 0) 39 3 * 8) (leBytes 8 t.devTime) t = (0, t1)) :
    exec (.timestamp p w) s = .next (settle 4 (gfxSchedule t1)) := by
  show execTimestamp p w s = _
  rw [execTimestamp, gfxPacket_at hat, hwrite, gfxStopIf_passed]

end

/-- Settles O20: a packet at which its context stands has its effect (`gfxPacket_at`), in the case its hypotheses name. -/
theorem packetsComplete : Obligations.PacketsComplete := by
  unfold Obligations.PacketsComplete
  refine ⟨?nop, ?call, ?state, ?draw, fun p w ws s t => exec_dispatch_counted, ?renderBegin, ?renderEnd,
    fun p w ws bs s t t1 => exec_waitGe_read, fun p w ws s t t1 => exec_write64_written,
    fun p w ws s t t1 => exec_timestamp_written, ?residencyInv, ?barrier⟩
  case nop => exact fun p w ws s t hat => show execNop p w s = _ by rw [execNop, gfxPacket_at hat]
  case call => exact fun p w ws s t hat => show execCall p w s = _ by rw [execCall, gfxPacket_at hat]
  case state => exact fun p w ws s t hat => show execState p w s = _ by rw [execState, gfxPacket_at hat]
  case draw => exact fun p w d ws s t hat => show execDraw p w d s = _ by rw [execDraw, gfxPacket_at hat]
  case renderBegin => exact fun p w ws s t hat => show execRenderBegin p w s = _ by rw [execRenderBegin, gfxPacket_at hat]
  case renderEnd =>
    rintro p w tiles cs ws s t t1 hat rfl
    show execRenderEnd p w tiles cs s = _
    rw [execRenderEnd, gfxPacket_at hat]
  case residencyInv => exact fun p w ws s t hat => show execResidencyInv p w s = _ by rw [execResidencyInv, gfxPacket_at hat]
  case barrier => exact fun p w ws s t hat => show execBarrier p w s = _ by rw [execBarrier, gfxPacket_at hat]

/-! ## The doorbell (R260) -/

/-- R260: a legal length for a bound window with room queues a submission with the window's next number. -/
theorem gfxDoorbell_queues {k addr v len : Nat} {c : Carried} {s : State} (hring : bit v 0 = true) (hrefuses : refuses s (k / 16) = false)
    (hquiet : quietening s = false) (hpower : domainOn s 2 = true) (hbound : (gfxWin s k).context.isSome = true)
    (hlen : len = rd s (GFX_CTX_SUB_LEN_bytes (k / 16) (k % 16))) (hsome : len ≠ 0) (haligned : len % 4 = 0)
    (hroom : (gfxWin s k).queue.length < 64) :
    gfxDoorbell k addr v c s = gfxSchedule (wr (GFX_CTX_DB_STATUS_number (k / 16) (k % 16)) (gfxWin s k).next
      (wr (GFX_CTX_DB_STATUS_status (k / 16) (k % 16)) ST_OK (setGfxWin k { gfxWin s k with
        next := nextNumber (gfxWin s k).next,
        queue := (gfxWin s k).queue ++ [⟨rdA s (GFX_CTX_SUB_ADDR_addr (k / 16) (k % 16)), len,
          rdB s (GFX_CTX_SUB_LEN_irq (k / 16) (k % 16)), rdA s (GFX_CTX_SUB_FENCE_addr (k / 16) (k % 16)),
          rd s (GFX_CTX_SUB_VALUE_value (k / 16) (k % 16)), (gfxWin s k).next⟩] } s))) := by
  have hlegal : ((gfxWin s k).context.isNone || len == 0 || len % 4 != 0) = false := by
    rw [← Option.not_isSome, hbound, beq_false_of_ne hsome, haligned]
    rfl
  simp only [gfxDoorbell, hring, hrefuses, hquiet, hpower, ← hlen, hlegal, Nat.not_le.mpr hroom, Bool.not_true, Bool.or_self,
    Bool.false_eq_true, if_false]

/-- R281: with PD_GFX on, an admitted doorbell is an admitted register write like any other. -/
theorem exec_gfxDoorbell_admitted {a : Access} {addr : BitVec 40} {v : BitVec 32} {k : Nat} {s : State}
    (hreg : gfxWindowAt addr.toNat 0x20 = some k) (hpower : domainOn s 2 = true) (hadm : admitted a addr.toNat v.toNat s = true) :
    exec (.gfxDoorbell a addr v) s = .next (settle 4 (gfxDoorbell k addr.toNat v.toNat (carried s a addr.toNat) s)) := by
  show execGfxDoorbell a addr v s = _
  simp only [execGfxDoorbell, hreg, hpower, Bool.not_true, Bool.false_and, Bool.false_eq_true, if_false, regWrite_admitted rfl hadm]

/-! ## Boundaries, completions, waits and faults (R261, R262, R264 to R266, R268, R279) -/

section
variable {p : Fin 32} {w : Fin 16} {s s1 : State}

/-- R265, R266: a unit that is not its packet's last ends on clusters that its context held, which are free from then on. -/
theorem exec_gfxBoundary_inner {c : BitVec 16} {work : List GfxAccess} (hunits : (gfxWin s (winKey p w)).todo ≠ 0) (hc : c.toNat ≠ 0)
    (hheld : (gfxWin s (winKey p w)).clusters &&& c.toNat = c.toNat) (hwork : gfxAccesses (winKey p w) work s = (0, s1))
    (hmore : 2 ≤ (gfxWin s1 (winKey p w)).todo) :
    exec (.gfxBoundary p w c work) s = .next (settle 4 (gfxSchedule (setGfxWin (winKey p w) { gfxWin s1 (winKey p w) with
      todo := (gfxWin s1 (winKey p w)).todo - 1, clusters := andNot (gfxWin s1 (winKey p w)).clusters c.toNat, since := s1.now } s1))) := by
  have hleft : (gfxWin s1 (winKey p w)).todo - 1 ≠ 0 := by omega
  show execGfxBoundary p w c work s = _
  simp only [execGfxBoundary, hunits, hc, hheld, hwork, hleft, ne_eq, not_true_eq_false, or_self, if_false, done]

/-- R261, R262: the current submission is executed to its end outside a pass, and asks for neither a fence nor an interrupt. -/
theorem exec_gfxSubmissionDone_silent {a len off : Nat} {q : GfxSub} {rest : List GfxSub} (hready : gfxReady s (winKey p w) = true)
    (hpos : gfxPos (gfxWin s (winKey p w)) = [(a, len, off)]) (hqueue : (gfxWin s (winKey p w)).queue = q :: rest) (hend : len / 4 ≤ off)
    (hpass : (gfxWin s (winKey p w)).inPass = false) (hfence : q.fence = 0) (hirq : q.irq = false) :
    exec (.gfxSubmissionDone p w) s = .next (settle 4 (gfxSchedule (wr (GFX_CTX_DONE_number p w) q.number
      (setGfxWin (winKey p w) { gfxWin s (winKey p w) with queue := rest, pos := [] } s)))) := by
  show execGfxSubmissionDone p w s = _
  simp only [execGfxSubmissionDone, hready, hpos, hqueue, Nat.not_lt.mpr hend, hpass, hfence, hirq, Bool.false_eq_true, if_true, if_false,
    done]

section
variable {a v x : Nat}

/-- R264: a poll finds the value reached. -/
theorem exec_waitGeMet_reached {t : Option Nat} (hwait : (gfxWin s (winKey p w)).wait = some (a, v, t))
    (hpoll : gfxPoll (winKey p w) a s = (0, x, s1)) (hreached : v ≤ x) :
    exec (.waitGeMet p w) s =
      .next (settle 4 (gfxSchedule (setGfxWin (winKey p w) { gfxWin s1 (winKey p w) with wait := none } s1))) := by
  show execWaitGeMet p w s = _
  simp only [execWaitGeMet, hwait, hpoll, hreached, if_true, done]

/-- R264: the poll at the timeout finds the value not reached. -/
theorem exec_waitGeTimeout_unreached {t : Nat} (hwait : (gfxWin s (winKey p w)).wait = some (a, v, some t))
    (hpoll : gfxPoll (winKey p w) a (advanceTo t s) = (0, x, s1)) (hshort : x < v) :
    exec (.waitGeTimeout p w) s = .next (settle 4 (gfxSchedule (gfxStop (winKey p w) 9 s1))) := by
  show execWaitGeTimeout p w s = _
  simp only [execWaitGeTimeout, hwait, hpoll, Nat.not_le.mpr hshort, if_false, done]

end

/-- R268: the watchdog stops a context that still holds clusters. -/
theorem exec_gfxWatchdog_holding (hheld : (gfxWin s (winKey p w)).clusters ≠ 0)
    (hs1 : s1 = advanceTo ((gfxWin s (winKey p w)).since + 1000000 * rd s GFX_WDOG_ms) s) :
    exec (.gfxWatchdog p w) s = .next (settle 4 (gfxSchedule (gfxStop (winKey p w) 6
      (record0 Src.GFX_WATCHDOG (some p.val) [w, (gfxWin s (winKey p w)).clusters] s1)))) := by
  show execGfxWatchdog p w s = _
  simp only [execGfxWatchdog, if_neg hheld, ← hs1, done]

end

/-- R279: the fault of a cluster stops the context that uses it. -/
theorem exec_gfxClusterFault_used {c : Fin 16} {s : State} {k : Nat} {rest : List Nat}
    (hused : gfxWhere s (fun g => bit g.clusters c) = k :: rest) :
    exec (.gfxClusterFault c) s = .next (settle 4 (gfxSchedule (gfxStop k 5 s))) := by
  show execGfxClusterFault c s = _
  simp only [execGfxClusterFault, hused, done]

/-- Settles O21: the doorbell is admitted and queues its submission; each other step is taken where its conditions hold. -/
theorem graphicsStepsComplete : Obligations.GraphicsStepsComplete := by
  unfold Obligations.GraphicsStepsComplete
  refine ⟨?doorbell, fun p w c work s s1 => exec_gfxBoundary_inner, fun p w s a len off q rest => exec_gfxSubmissionDone_silent,
    fun p w s s1 a v x t => exec_waitGeMet_reached, fun p w s s1 a v x t => exec_waitGeTimeout_unreached,
    fun p w s s1 => exec_gfxWatchdog_holding, fun c s k rest => exec_gfxClusterFault_used⟩
  case doorbell =>
    intro a addr v s k len hreg hpower hadm hring hrefuses hquiet hbound hlen hsome haligned hroom
    rw [exec_gfxDoorbell_admitted hreg hpower hadm, gfxDoorbell_queues hring hrefuses hquiet hpower hbound hlen hsome haligned hroom]

/-! ## The commands' own rules (Table GFX-3) -/

section
variable {q : Req} {p : Nat} {s : State}

/-- A reader whom R32 admits learns a window's status, counters and last fault, and its polder's working area. -/
theorem gfxGetContext_admitted {w : Nat} (hp : p = bits (q.w 2) 4 0) (hw : w = bits (q.w 2) 11 8) (hread : q.mayReadPolder s p = true) :
    gfxGetContext q s = okR [gfxStatWord s (16 * p + w), rd s (GFX_CTX_DONE_number p w),
      rd s (GFX_CTX_FAULT_reason p w) + 256 * rd s (GFX_CTX_FAULT_offset p w), rd s (GFX_CTX_FAULT_SUB_number p w),
      rd s (GFX_CTX_SPILLS_count p w), rd s (GFX_CTX_NONRES_count p w), rd s (GFX_CTX_TESS_CLAMP_count p w),
      rd s (GFX_CTX_PEAK_kib p w), rd s (GFX_AREA_first p) + 512 * rd s (GFX_AREA_count p)] s := by
  simp only [gfxGetContext, ← hp, ← hw, hread, Bool.not_true, Bool.false_eq_true, if_false]

/-- R258: a compute context below priority 3 is bound to a free window; R270's reserve is asked of graphics contexts alone. -/
theorem gfxCtxSetup_compute {c key save : Nat} (hpol : q.polder = some p) (hc : c = bits (q.w 2) 7 0)
    (hkey : key = 16 * p + bits (q.w 2) 11 8) (hcompute : bit (q.w 2) 12 = true) (hprio : bits (q.w 2) 14 13 ≠ 3)
    (hsave : save = (q.w 3 + 4294967296 * q.w 4) % 2 ^ 40) (howner : grantee s 2 c = p) (hfree : (gfxWin s key).context = none)
    (haligned : save % 4096 = 0) (hspan : spanOwned s p [] (save, save + 262143) = true) :
    gfxCtxSetup q s = did (setGfxWin key { GfxWin.empty with
      context := some c, compute := true, prio := bits (q.w 2) 14 13, save := save } s) := by
  simp only [gfxCtxSetup, hpol, ← hc, ← hkey, ← hsave, hcompute, hprio, howner, hfree, haligned, hspan, ne_eq, not_true_eq_false,
    Option.isSome_none, Bool.true_eq_false, Bool.not_true, Bool.false_and, Bool.false_eq_true, false_and, or_self, if_false]

section
variable {key : Nat} (hpol : q.polder = some p) (hkey : key = 16 * p + bits (q.w 2) 3 0) (hbound : (gfxWin s key).context.isSome = true)
include hpol hkey hbound

/-- R282: a bound window of the sender's is the one its command is about. -/
theorem onWindow_bound (f : Nat → GfxWin → Answer) : onWindow q f s = f key (gfxWin s key) := by
  have hnone : (gfxWin s key).context.isNone = false := by rw [← Option.not_isSome, hbound, Bool.not_true]
  simp only [onWindow, hpol, ← hkey, hnone, Bool.false_eq_true, if_false]

/-- R266, R282: a priority below 3 asks for no permission, and is taken on at the window's next boundary. -/
theorem gfxCtxSetPriority_bound (hprio : bits (q.w 2) 9 8 ≠ 3) :
    gfxCtxSetPriority q s = did (gfxSchedule (setGfxWin key { gfxWin s key with newPrio := some (bits (q.w 2) 9 8) } s)) := by
  simp only [gfxCtxSetPriority, onWindow_bound hpol hkey hbound, hprio, false_and, if_false]

/-- R262, R279: a stopped context goes on with its next submission, or with none. -/
theorem gfxCtxRestart_stopped (hstopped : (gfxWin s key).stopped = true) :
    gfxCtxRestart q s = did (gfxSchedule (setGfxWin key { gfxWin s key with
      stopped := false, queue := if bit (q.w 2) 8 then [] else (gfxWin s key).queue.tail, pos := [], inPass := false, passBytes := 0,
      ending := none, saved := false } s)) := by
  simp only [gfxCtxRestart, onWindow_bound hpol hkey hbound, hstopped, Bool.not_true, Bool.false_eq_true, if_false]

/-- R270: a window without queued work is released. -/
theorem gfxCtxRelease_idle (hidle : (gfxWin s key).queue = []) :
    gfxCtxRelease q s = did (gfxSchedule (setGfxWin key GfxWin.empty s)) := by
  simp only [gfxCtxRelease, onWindow_bound hpol hkey hbound, hidle, List.isEmpty_nil, Bool.not_true, Bool.false_eq_true, if_false]

end

/-- R269: a range that is free, owned and large enough, for a polder other than 0 without queued graphics work. -/
theorem gfxSetArea_idle (hp : p = bits (q.w 2) 4 0) (hne : p ≠ 0) (hok : areaOk s p (bits (q.w 2) 15 8) (bits (q.w 2) 24 16) = true)
    (hidle : (gfxContexts s p).any (fun j => !(gfxWin s j).queue.isEmpty) = false) :
    gfxSetArea q s = did (wr (GFX_AREA_count p) (bits (q.w 2) 24 16) (wr (GFX_AREA_first p) (bits (q.w 2) 15 8) s)) := by
  simp only [gfxSetArea, ← hp, hne, hok, hidle, Bool.not_true, Bool.false_eq_true, false_and, if_false]

/-- R267, R282: at most 8 clusters are reserved. -/
theorem gfxSetReserve_inRange (hn : bits (q.w 2) 3 0 ≤ 8) :
    gfxSetReserve q s = did (gfxSchedule (wr GFX_RESERVE_count (bits (q.w 2) 3 0) s)) := if_neg (Nat.not_lt.mpr hn)

/-- R267, R282: the secure world's floor is at most 8 clusters. -/
theorem gfxSetSecureFloor_inRange (hn : bits (q.w 2) 3 0 ≤ 8) :
    gfxSetSecureFloor q s = did (gfxSchedule (wr GFX_RESERVE_floor (bits (q.w 2) 3 0) s)) := if_neg (Nat.not_lt.mpr hn)

end

/-- Settles O22: each command is served once it is asked for, and its rules are the case its hypotheses name. -/
theorem graphicsCommandsComplete : Obligations.GraphicsCommandsComplete := by
  unfold Obligations.GraphicsCommandsComplete
  refine ⟨fun k m s hask => serve_ok hask rfl, ?context, ?setup, ?priority, ?restart, ?release, ?area, ?reserve,
    fun k m s hask => serve_ok hask rfl, ?floor⟩
  case context =>
    intro k m s p w hask hp hw hread
    exact serve_ok hask (gfxGetContext_admitted (q := ⟨k, m⟩) (s := taken k s) hp hw hread)
  case setup =>
    intro k m s p c key save hask hpol hc hkey hcompute hprio hsave howner hfree haligned hspan
    exact serve_ok hask
      (gfxCtxSetup_compute (q := ⟨k, m⟩) (s := taken k s) hpol hc hkey hcompute hprio hsave howner hfree haligned hspan)
  case priority =>
    intro k m s p key hask hpol hkey hbound hprio
    exact serve_ok hask (gfxCtxSetPriority_bound (q := ⟨k, m⟩) (s := taken k s) hpol hkey hbound hprio)
  case restart =>
    intro k m s p key hask hpol hkey hbound hstopped
    exact serve_ok hask (gfxCtxRestart_stopped (q := ⟨k, m⟩) (s := taken k s) hpol hkey hbound hstopped)
  case release =>
    intro k m s p key hask hpol hkey hbound hidle
    exact serve_ok hask (gfxCtxRelease_idle (q := ⟨k, m⟩) (s := taken k s) hpol hkey hbound hidle)
  case area =>
    intro k m s p hask hp hne hok hidle
    exact serve_ok hask (gfxSetArea_idle (q := ⟨k, m⟩) (s := taken k s) hp hne hok hidle)
  case reserve =>
    intro k m s hask hn
    exact serve_ok hask (gfxSetReserve_inRange (q := ⟨k, m⟩) (s := taken k s) hn)
  case floor =>
    intro k m s hask hn
    exact serve_ok hask (gfxSetSecureFloor_inRange (q := ⟨k, m⟩) (s := taken k s) hn)

end Sys2Proof.Proofs

/-! PROOFS. The codec's doorbells, engines, decode units, encode rows and pictures, and the capture inputs. -/
namespace Sys2Proof.Proofs
open Sys2Proof Sys2Proof.Machine

/-! ## The doorbells of a session (R290, R303) -/

section
variable {addr p k x : Nat} {c : Carried} {v : VcdSes} {s : State}

/-- R290: an open decode session with room queues a submission of an empty range, or of one that its polder owns, under its next number. -/
theorem sesDoorbell_queues {n : Nat} (howner : sesPolder s k = p) (hring : bit x 0 = true) (hopen : ses s k = some v)
    (hrefuses : refuses s p = false) (hquiet : quietening s = false) (hpower : domainOn s 3 = true) (hclosing : v.closing = none)
    (hmemory : v.writeBack = false) (hroom : v.queue.length < 32) (hdecode : v.encode = false) (hn : n = rd s (VCD_SES_LEN_bytes k))
    (hrange : n = 0 ∨ spanOwned s p [] (rd s (VCD_SES_ADDR_addr k), rd s (VCD_SES_ADDR_addr k) + n - 1) = true) :
    sesDoorbell p k addr x c s = wr (VCD_SES_DB_STATUS_number k) (v.next % 65536) (wr (VCD_SES_DB_STATUS_status k) ST_OK
      (setSes k (some { v with
        next := (v.next + 1) % 2 ^ 32,
        queue := v.queue ++ [⟨rd s (VCD_SES_ADDR_addr k), n, rdB s (VCD_SES_LEN_eos k), rdB s (VCD_SES_LEN_discont k),
          rdB s (VCD_SES_LEN_key k), rd s (VCD_SES_TS_ts k), v.next, s.now⟩] }) s)) := by
  have hallowed : (n != 0 && !spanOwned s p [] (rd s (VCD_SES_ADDR_addr k), rd s (VCD_SES_ADDR_addr k) + n - 1)) = false := by
    rcases hrange with rfl | howned
    · rfl
    · rw [howned, Bool.not_true, Bool.and_false]
  simp only [sesDoorbell, howner, hring, hopen, hrefuses, hquiet, hpower, hclosing, hmemory, hdecode, ← hn, hallowed, Nat.not_le.mpr hroom,
    ne_eq, not_true_eq_false, Option.isSome_none, Bool.not_true, Bool.false_and, Bool.or_self, Bool.false_eq_true, if_false]

/-- R303: the key picture is asked of an open encode session. -/
theorem requestKey_encode (hopen : ses s k = some v) (hencode : v.encode = true) :
    requestKey k s = setSes k (some { v with keyPend := true }) s := by
  simp only [requestKey, hopen, hencode, if_true]

section
variable {a : Access} {addr : BitVec 40} {x : BitVec 32} (hk : k < 64) (hadm : admitted a addr.toNat x.toNat s = true)
include hk hadm

/-- R290: with PD_VCD on, an admitted doorbell is an admitted register write like any other. -/
theorem exec_vcdDoorbell_admitted (hreg : sesReg addr.toNat 0x0C = some (p, k)) (hpower : domainOn s 3 = true) :
    exec (.vcdDoorbell a addr x) s = .next (settle 4 (sesDoorbell p k addr.toNat x.toNat (carried s a addr.toNat) s)) := by
  show execVcdDoorbell a addr x s = _
  simp only [execVcdDoorbell, hreg, hpower, Bool.not_true, Bool.false_and, Bool.false_eq_true, if_false,
    regWrite_admitted (decide_eq_true hk) hadm]

/-- R303: an admitted write of the key bit by the session's polder. -/
theorem exec_vcdKeyreq_admitted (hreg : sesReg addr.toNat 0x2C = some (p, k)) (howner : sesPolder s k = p) (hkey : bit x.toNat 0 = true) :
    exec (.vcdKeyreq a addr x) s = .next (settle 4 (requestKey k s)) := by
  show execVcdKeyreq a addr x s = _
  simp only [execVcdKeyreq, hreg, regWrite_admitted (decide_eq_true hk) hadm, howner, hkey, ne_eq, not_true_eq_false, if_false, if_true]

end

end

/-! ## Engines and decode units (R283, R285, R286) -/

section
variable {e : Fin 16} {k : Nat} {p : VcdPic} {v : VcdSes} {s s1 : State}

/-- R285: the choice falls on a decode unit. -/
theorem exec_vcdUnitStart_decode {ready : List ReadyUnit} {c : UnitChoice} (hidle : vcdIdle s e = true)
    (hchoice : chooseUnit ready (starve ready s) = some (c, s1)) (hdecode : c.encode = false) :
    exec (.vcdUnitStart e ready) s = .next (settle 4 (startDecode e c s1)) := by
  show execVcdUnitStart e ready s = _
  simp only [execVcdUnitStart, hidle, hchoice, hdecode, Bool.not_true, Bool.false_eq_true, if_false, done]

/-- R286, R289: no access of the unit is refused; the picture counts it, and with its last unit it is decoded. -/
theorem unitDone_written {concealed : Bool} {blocks : List CodedBlock} {p1 : VcdPic} (hopen : ses s k = some v)
    (hwrites : blocks.foldl (fun rs b => writeBlock k v p.pool b rs) (readUnit k v p s) = (0, s1))
    (hp1 : p1 = { p.left s e with finished := p.finished + 1, concealed := p.concealed || concealed }) :
    unitDone e k p concealed blocks s =
      if p1.finished = p1.units then decoded k p1 (putPic k p1 (engineFree e s1)) else putPic k p1 (engineFree e s1) := by
  subst hp1
  simp only [unitDone, hopen, hwrites]

/-- R286: the unit that an engine holds of a decode session ends. -/
theorem exec_vcdUnitDone_decode {u ep : Nat} {concealed : Bool} {blocks : List CodedBlock} (hunit : engineUnit s e = some (k, p, u, ep))
    (hopen : ses s k = some v) (hdecode : v.encode = false) :
    exec (.vcdUnitDone e (.done concealed blocks)) s = .next (settle 4 (sesCloseDue (unitDone e k p concealed blocks s))) := by
  show execVcdUnitDone e (.done concealed blocks) s = _
  simp only [execVcdUnitDone, hunit, hopen, hdecode, Bool.false_eq_true, if_false, done]

/-- R286: an admitted write of VCD_ENG_RESET. -/
theorem exec_vcdEngReset_admitted {a : Access} {addr : BitVec 40} {w : BitVec 32} (haddr : addr.toNat = 0x2040000C)
    (hadm : admitted a addr.toNat w.toNat s = true) : exec (.vcdEngReset a addr w) s =
      .next (settle 4 ((idxWhere 16 (bit w.toNat)).foldl (fun s e => vcdEngineReset e s) s)) :=
  regWrite_admitted (eff := fun _ s => (idxWhere 16 (bit w.toNat)).foldl (fun s e => vcdEngineReset e s) s) (beq_iff_eq.mpr haddr) hadm

/-! ## Pictures (R295, R297) -/

/-- R297: the watchdog takes the oldest picture that has units running. -/
theorem exec_vcdPicWatchdog_running {k : Fin 64} (hopen : ses s k = some v) (holdest : v.pics.find? (fun p => !p.running.isEmpty) = some p) :
    exec (.vcdPicWatchdog k) s = .next (settle 4 (loseP k p (advanceTo (s.now +
      ceilDiv ((6 * p.luma + 1 - picCycles s p) * 100000) (73728 * p.running.length)) s))) := by
  show execVcdPicWatchdog k s = _
  simp only [execVcdPicWatchdog, hopen, holdest, done]

/-- R295: a waiting picture of a session that runs is output. -/
theorem exec_vcdPictureOutput_waiting {k : Fin 64} {i : Fin 24} {x : PoolPic} {ms : List Nat} (hruns : sesRuns s k = some v)
    (hwaits : v.pool.find? (fun x => x.idx == i.val && x.waiting) = some x)
    (hms : ms = v.slots.filter (fun m => slotOwner s m == sesPolder s k))
    (hs1 : s1 = setSes k (some { v with pool := v.pool.map (fun y => if y.idx == i.val then { y with waiting := false } else y) }) s) :
    exec (.vcdPictureOutput k i) s = .next (settle 4 (ms.foldl (fun s m => queueToSlot k v x m s)
      (if ms.isEmpty then s1 else noteLateness k x.time s1))) := by
  show execVcdPictureOutput k i s = _
  simp only [execVcdPictureOutput, hruns, hwaits, ← hms, ← hs1, done]

/-! ## Encode rows and the ring (R301, R306, R307) -/

/-- R285, R301: the choice falls on an encode row, of the session's oldest picture. -/
theorem exec_encRowStart_encode {ready : List ReadyUnit} {c : UnitChoice} {w : VcdSes} {s2 : State} {rest : List VcdPic}
    (hidle : vcdIdle s e = true) (hchoice : chooseUnit ready s = some (c, s1)) (hencode : c.encode = true)
    (hopen : ses s1 c.session = some v) (hs2 : s2 = beginEncode c.session v s1) (hbegun : ses s2 c.session = some w)
    (hpics : w.pics = p :: rest) :
    exec (.encRowStart e ready) s = .next (settle 4 (startRow e c.session c.unit p s2)) := by
  show execEncRowStart e ready s = _
  simp only [execEncRowStart, hidle, hchoice, hencode, hopen, ← hs2, hbegun, hpics, Bool.not_true, Bool.false_eq_true, if_false, done]

/-- R306: the row that ends is the picture's next, and the picture has its time. -/
theorem exec_encRowDone_inOrder {slice params : List (BitVec 8)} {r ep : Nat} (hunit : engineUnit s e = some (k, p, r, ep))
    (hopen : ses s k = some v) (hencode : v.encode = true) (hnext : r = p.finished) (htime : p.time.isSome = true) :
    exec (.encRowDone e slice params) s = .next (settle 4
      (sesCloseDue (rowDone e k r p (slice.map (fun b => b.toNat)) (params.map (fun b => b.toNat)) s))) := by
  have hends : ¬ (v.encode = false ∨ r ≠ p.finished ∨ p.time.isNone = true) := by simp [hencode, hnext, Option.isSome_iff_ne_none.mp htime]
  show execEncRowDone e slice params s = _
  simp only [execEncRowDone, hunit, hopen, if_neg hends, done]

/-- R307: room for the gap chunk ends the loss of a session that is not stopped. -/
theorem exec_encRingResume_fits {k : Fin 64} (hopen : ses s k = some v) (hfull : v.full = true) (hruns : v.stopped = false)
    (hfits : chunkFits s k v 32 = true) :
    exec (.encRingResume k) s = .next (settle 4 (sesStopIf k (putChunk k v
      (chunkBytes 4 k 0 false false false false (freeVal 64 s) (leBytes 4 v.lost))
      (setSes k (some { v with full := false, lost := 0, keyPend := true }) (tookFree s))))) := by
  show execEncRingResume k s = _
  simp only [execEncRingResume, hopen, hfull, hruns, hfits, Bool.true_eq_false, Bool.false_eq_true, or_self, if_false, done]

end

/-! ## Captures (R308 to R310) -/

/-- The entry that a captured picture queues for its slot: buffer `i`, first active line at `t`, for presentation after the input's delay
where the input asks for it. -/
def captureEntry (c i t lines : Nat) (s : State) : Entry where
  seq := 0
  buf0 := rdA s (CAP_BUF_addr c i).inForce
  buf1 := if rd s (CAP_STATUS_format c) = 0x13 then
    rdA s (CAP_BUF_addr c i).inForce + rd s (CAP_STRIDE_stride c).inForce * lines else 0
  fence := 0
  target := 0
  time := if rdB s (CAP_CTRL_present c).inForce then (t + 1000 * rd s (CAP_DELAY_us c).inForce) % 2 ^ 64 else 0
  accepted := s.now
  stamp := some t
  concealed := false
  origin := 65 + c
  tag := i
  checked := []

section
variable {c : Fin 4} {s s1 : State} {ago : Nat} {lines : List (List (Fin 1024 × Fin 1024 × Fin 1024))}

/-- R309: no buffer of the input is free. -/
theorem exec_capPictureDone_dropped (hqueues : capQueues s c = true) (hfree : capFree s c = none)
    (hs1 : s1 = incSat (CAP_COUNTS_dropped c) 1 s) : exec (.capPictureDone c ago lines) s =
      .next (settle 4 (record0 Src.CAP_DROP (some (capPolder s c)) [c, rd s1 (CAP_COUNTS_dropped c)] s1)) := by
  show execCapPictureDone c ago lines s = _
  simp only [execCapPictureDone, hqueues, hfree, ← hs1, Bool.not_true, Bool.false_eq_true, if_false, done]

/-- R309: a picture written to a free buffer, queued for a slot with room, whose heartbeat it is. -/
theorem exec_capPictureDone_queued {i : Nat} {e : Entry} (hqueues : capQueues s c = true) (hfree : capFree s c = some i)
    (hwrites : capWrite c i (lines.map (fun l => l.map (fun x => (x.1.val, x.2.1.val, x.2.2.val)))) s = (0, s1))
    (hroom : (slot s1 (capSlot s c)).pending.length < 4) (he : e = captureEntry c i (s1.devTime - ago) lines.length s1) :
    exec (.capPictureDone c ago lines) s = .next (settle 4 (incWrap (CAP_COUNTS_queued c) 1
      (wr (CAP_TIME_time c) (s1.devTime - ago) (setSlot (capSlot s c) { slot (enqueue (capSlot s c) e s1) (capSlot s c) with
        beat := (enqueue (capSlot s c) e s1).devTime } (enqueue (capSlot s c) e s1))))) := by
  subst he
  show execCapPictureDone c ago lines s = _
  simp only [execCapPictureDone, hqueues, hfree, hwrites, Nat.not_le.mpr hroom, captureEntry, Bool.not_true, Bool.false_eq_true, if_false,
    done]

/-- R308: the lock of a source without encryption, on an input that saw none, stops nothing. -/
theorem exec_capSignal_locks {src : CapSource} (hlocked : src.locked = true) (hhdcp : src.hdcp = false)
    (hwas : rdB s (CAP_STATUS_signal c) = false) :
    exec (.capSignal c src) s = .next (settle 4 (wr (CAP_RATE_mhz c) src.mhz.toNat (wr (CAP_TIMING_v c) src.v.toNat
      (wr (CAP_TIMING_h c) src.h.toNat (wr (CAP_STATUS_format c) (capCode src.format) (wrB (CAP_STATUS_unsupported c)
        (capCode src.format == 0) (wrB (CAP_STATUS_hdcp c) false (wrB (CAP_STATUS_signal c) true s)))))))) := by
  show execCapSignal c src s = _
  simp only [execCapSignal, hlocked, hhdcp, hwas, Bool.false_and, Bool.true_and, Bool.or_self, Bool.false_eq_true, if_false, if_true, done]

end

/-- Settles O23: each doorbell and reset is admitted, each other step is taken where its conditions hold, and its own rule is the case its
hypotheses name. -/
theorem codecStepsComplete : Obligations.CodecStepsComplete := by
  unfold Obligations.CodecStepsComplete
  refine ⟨?doorbell, fun e ready s s1 c => exec_vcdUnitStart_decode, ?unitDone, fun a addr v s => exec_vcdEngReset_admitted,
    fun k s v p => exec_vcdPicWatchdog_running, fun k i s s1 v x ms => exec_vcdPictureOutput_waiting,
    fun e ready s s1 s2 c v w p rest => exec_encRowStart_encode, fun e slice params s k r ep p v => exec_encRowDone_inOrder,
    fun k s v => exec_encRingResume_fits, ?keyreq, fun c ago lines s s1 => exec_capPictureDone_dropped, ?captured,
    fun c src s => exec_capSignal_locks⟩
  case doorbell =>
    intro a addr x s p k n v hreg hk hpower hadm howner hring hopen hrefuses hquiet hclosing hmemory hroom hdecode hn hrange
    rw [exec_vcdDoorbell_admitted hk hadm hreg hpower,
      sesDoorbell_queues howner hring hopen hrefuses hquiet hpower hclosing hmemory hroom hdecode hn hrange]
  case unitDone =>
    intro e c blocks s s1 k p p1 u ep v hunit hopen hdecode hwrites hp1
    rw [exec_vcdUnitDone_decode hunit hopen hdecode, unitDone_written hopen hwrites hp1]
  case keyreq =>
    intro a addr x s p k v hreg hk hadm howner hkey hopen hencode
    rw [exec_vcdKeyreq_admitted hk hadm hreg howner hkey, requestKey_encode hopen hencode]
  case captured =>
    intro c ago lines s s1 i hqueues hfree hwrites hroom
    exact ⟨captureEntry c i (s1.devTime - ago) lines.length s1, rfl, rfl, rfl, rfl,
      exec_capPictureDone_queued hqueues hfree hwrites hroom rfl⟩

end Sys2Proof.Proofs

/-! PROOFS. What every step keeps, the queue of commands, the idle step, and the device and parameter commands. -/
namespace Sys2Proof.Proofs
open Sys2Proof Sys2Proof.Machine

/-! ## What every step keeps -/

/-- Settles O46: what any command keeps of the recorder (`Keeps.recorder`), for the command that the step runs. -/
theorem stepsKeepTheRecorderBounded : Obligations.StepsKeepTheRecorderBounded := by
  unfold Obligations.StepsKeepTheRecorderBounded
  intro s t hs ht
  obtain ⟨_, hk⟩ := keeps_step ht
  exact hk.recorder hs

/-- Settles O48: what any command keeps of the blown fuses (`Keeps.fuses`), for the command that the step runs. -/
theorem blownBitsStayBlown : Obligations.BlownBitsStayBlown := by
  unfold Obligations.BlownBitsStayBlown
  intro s t field bitNo hblown ht
  obtain ⟨_, hk⟩ := keeps_step ht
  exact hk.fuses field bitNo hblown

/-- Settles O44: what any command keeps of memory's form (`Keeps.wf`), for the command that the step runs. -/
theorem stepsKeepMemoryCanonical : Obligations.StepsKeepMemoryCanonical := by
  unfold Obligations.StepsKeepMemoryCanonical
  intro s t hs ht
  obtain ⟨_, hk⟩ := keeps_step ht
  exact hk.wf hs

/-- Settles O49: what any command keeps of the counter of free values (`Keeps.free`), for the command that the step runs. -/
theorem freeValuesAreDrawnOnce : Obligations.FreeValuesAreDrawnOnce := by
  unfold Obligations.FreeValuesAreDrawnOnce
  intro s t ht
  obtain ⟨_, hk⟩ := keeps_step ht
  exact hk.free

/-! ## The queue of commands, and the idle step -/

/-- Settles O43: what any command keeps of the queue behind it (`Keeps.queue`). -/
theorem commandsLeaveTheQueue : Obligations.CommandsLeaveTheQueue := by
  unfold Obligations.CommandsLeaveTheQueue
  intro c s t ht
  exact (keeps_exec c s t ht).queue

/-- Settles O39: a step looks at the queue's front alone. -/
theorem stepRunsTheFrontCommand : Obligations.StepRunsTheFrontCommand := by
  unfold Obligations.StepRunsTheFrontCommand
  intro c rest s hpending
  rw [step, hpending]

/-- R363, R367: a nanosecond advances device time by 10^9 units of 10^-9 ns and the adjustment. -/
theorem passTime_one (s : State) : passTime 1 s = { s with
    now := s.now + 1
    devTime := (s.devTime + (s.devFrac + (1000000000 + rdI s ONL_TIME_RATE_adj).toNat) / 1000000000) % 2 ^ 64
    devFrac := (s.devFrac + (1000000000 + rdI s ONL_TIME_RATE_adj).toNat) % 1000000000
    vlt := rtcAfter 1 s.vlt } := by
  simp only [passTime, Nat.cast_one, one_mul, Nat.cast_ofNat]

/-- Settles O40: on an empty queue a step is the passing of a nanosecond (`passTime_one`; log 6). -/
theorem emptyQueueLetsTimePass : Obligations.EmptyQueueLetsTimePass := by
  unfold Obligations.EmptyQueueLetsTimePass
  intro s hpending
  have hidle : step s = .next (passTime 1 s) := by simp only [step, hpending]
  rw [hidle, passTime_one]

/-! ## The device and parameter commands (Tables MBX-12 and MBX-13) -/

section
variable {q : Req} {s : State}

/-- R58: an object that the sender may read. -/
theorem devGetParam_readable {ws : List Nat} (hread : paramRead q s (bits (q.w 2) 15 0) = some (true, ws)) :
    devGetParam q s = okR ws s := by
  simp only [devGetParam, hread, if_true]

/-- Table MBX-13, object 0x0130: thresholds in range and 1 degree apart. -/
theorem devSetParam_thresholds (hobject : bits (q.w 2) 15 0 = 0x0130) (hlo : 700 ≤ bits (q.w 3) 11 0)
    (hgap : bits (q.w 3) 11 0 + 10 ≤ bits (q.w 3) 27 16) (hhi : bits (q.w 3) 27 16 ≤ 1150) :
    devSetParam q s = did (wr CRP_THERM_CFG_throttle (bits (q.w 3) 27 16) (wr CRP_THERM_CFG_warn (bits (q.w 3) 11 0) s)) := by
  simp [devSetParam, hobject, hlo, hgap, hhi]

/-- Table MBX-13, object 0x0600: a graphics watchdog of 1 to 1000 ms. -/
theorem devSetParam_watchdog (hobject : bits (q.w 2) 15 0 = 0x0600) (hlo : 1 ≤ q.w 3) (hhi : q.w 3 ≤ 1000) :
    devSetParam q s = did (wr GFX_WDOG_ms (q.w 3) s) := by
  simp [devSetParam, hobject, hlo, hhi]

/-- Table MBX-13, object 0x0301: row-hammer thresholds in range. -/
theorem devSetParam_rowhammer (hobject : bits (q.w 2) 15 0 = 0x0301) (hthresh : 256 ≤ bits (q.w 3) 15 0)
    (hacts : 1 ≤ bits (q.w 3) 23 16) :
    devSetParam q s = did (wr (DMC_RH_RATE_acts 0) (bits (q.w 3) 23 16) (wr (DMC_RH_THRESH_thresh 0) (bits (q.w 3) 15 0) s)) := by
  simp [devSetParam, hobject, hthresh, hacts]

end

/-- Settles O3: each command is served once it is asked for, and its rules are the case its hypotheses name. -/
theorem deviceCommandsComplete : Obligations.DeviceCommandsComplete := by
  unfold Obligations.DeviceCommandsComplete
  refine ⟨fun k m s hask => serve_ok hask rfl, fun k m s hask => serve_ok hask rfl, fun k m s hask => serve_ok hask rfl, ?getParam,
    ?thresholds, ?watchdog, ?rowhammer⟩
  case getParam =>
    intro k m s ws hask hread
    exact serve_ok hask (devGetParam_readable (q := ⟨k, m⟩) (s := taken k s) hread)
  case thresholds =>
    intro k m s hask hobject hlo hgap hhi
    exact serve_ok hask (devSetParam_thresholds (q := ⟨k, m⟩) (s := taken k s) hobject hlo hgap hhi)
  case watchdog =>
    intro k m s hask hobject hlo hhi
    exact serve_ok hask (devSetParam_watchdog (q := ⟨k, m⟩) (s := taken k s) hobject hlo hhi)
  case rowhammer =>
    intro k m s hask hobject hthresh hacts
    exact serve_ok hask (devSetParam_rowhammer (q := ⟨k, m⟩) (s := taken k s) hobject hthresh hacts)

end Sys2Proof.Proofs

/-! PROOFS. The audio engine's blocks, lock observations, packets and doorbells, and its commands. -/
namespace Sys2Proof.Proofs
open Sys2Proof Sys2Proof.Machine

/-! ## Blocks, lock observations and packets (R314, R315, R325, R382) -/

section
variable {d : Fin 3} {s : State}

/-- R315, R325: a block boundary of an enabled domain of an engine that runs. -/
theorem exec_audBlock_runs {rx : List (Fin 256 × List (BitVec 32))} {slips : List (Fin 8 × Bool)} {s1 s2 s4 : State}
    {outs : List (Nat × List Int)} (henabled : rdB s (AUD_DOM_CTRL_enable d).inForce = true)
    (hs1 : s1 = wr (AUD_DOM_SAMPLES_count d) (rd s (AUD_DOM_SAMPLES_count d) + 64)
      (advanceTo (sampleTime s d (rd s (AUD_DOM_SAMPLES_count d) + 64)) s))
    (hruns : audHalted s1 = false) (hs2 : s2 = mediaBlock d (audSend d rx (slips.foldl (slipped d) s1)))
    (hblocks : audBlocks d rx s2.aud.outside (bridgeRange d s2) = (outs, s4)) :
    exec (.audBlock d rx slips) s = .next (settle 4 (tookFrees 32768 (setAud (fun a => { a with
      out := a.out.filter (fun e => chanDomain s4 e.1 true != d.val) ++ a.ready.filter (fun e => chanDomain s4 e.1 true == d.val),
      ready := a.ready.filter (fun e => chanDomain s4 e.1 true != d.val) ++ outs }) s4))) := by
  show execAudBlock d rx slips s = _
  simp only [execAudBlock, henabled, ← hs1, hruns, ← hs2, hblocks, Bool.not_true, Bool.false_eq_true, if_false, done]

section
variable (hslaved : d ≠ 0) (henabled : rdB s (AUD_DOM_CTRL_enable d).inForce = true)
include hslaved henabled

/-- R314: a domain that does not hold lock, seen in range once more after it was first. -/
theorem exec_audDomainLock_locks {v : BitVec 16} {t : Nat} (hrange : (sgn 16 v.toNat).natAbs ≤ 10000)
    (hlocked : rdB s (AUD_DOM_STAT_locked d) = false) (hsince : Tab.get none s.aud.since d = some t) :
    exec (.audDomainLock d (some v)) s = .next (settle 4
      (domainEvent d (wr (AUD_DOM_STAT_locked d) 1 (wr (AUD_DOM_STAT_offset d) v.toNat (rebaseDomain d (advanceTo (t + 100000000) s)))))) := by
  show execAudDomainLock d (some v) s = _
  simp only [execAudDomainLock, hslaved, henabled, Option.bind_some, hrange, hlocked, hsince, Bool.true_eq_false, or_self,
    Bool.false_eq_true, if_true, if_false, done]

/-- R314: a locked domain whose reference shows no edge. -/
theorem exec_audDomainLock_loses (hlocked : rdB s (AUD_DOM_STAT_locked d) = true) :
    exec (.audDomainLock d none) s = .next (settle 4
      (domainEvent d (wr (AUD_DOM_STAT_locked d) 0 (setAud (fun a => { a with since := a.since.put d none }) s)))) := by
  show execAudDomainLock d none s = _
  simp only [execAudDomainLock, hslaved, henabled, Option.bind_none, hlocked, Bool.true_eq_false, or_self, if_true, if_false, done]

end

end

/-- R382: a packet of a receive stream that has not left the buffer yet. -/
theorem exec_aes67PacketRx_held {i : Fin 16} {t : BitVec 64} {frames : List (List (BitVec 32))} {s : State} {a : Aes67} {l : Nat}
    (hstream : s.net.aes.find? (fun a => !a.tx && a.index == i.val) = some a) (hl : l = t.toNat + a.offsetNs) (htime : s.devTime ≤ l)
    (hpower : domainOn s 6 = true) :
    exec (.aes67PacketRx i t frames) s = .next { s with net := { s.net with aes := s.net.aes.map (fun x => if !x.tx && x.index == i.val then
      { a with held := a.held ++ [(l, frames.map (fun f => f.map (fun v => sgn 32 v.toNat)))], due := some (a.due.getD l) } else x) } } := by
  show execAes67PacketRx i t frames s = _
  simp only [execAes67PacketRx, hstream, ← hl, Nat.not_lt.mpr htime, hpower, Bool.true_eq_false, or_self, if_false]

/-! ## The audio doorbells (R326 to R328) -/

/-- R326: a swap without a crossfade, which needs no budget for two programs. -/
theorem swapWrite_begins {p v addr : Nat} {c : Carried} {s : State} {g : AudProg} (hgo : bit v 0 = true) (hfade : bits v 2 1 = 0)
    (hpolder : polState s p ≠ 2) (hstaged : (audPol s p).staged = some g) (hswap : (audPol s p).swap = none) :
    swapWrite p v addr c s =
      setAudPol p { audPol s p with swap := some ⟨s.now, 0, [], none⟩ } (wr (AUD_SWAP_STATUS_state p) 1 (wr (AUD_SWAP_STATUS_status p) ST_BUSY s)) := by
  simp [swapWrite, hgo, hfade, fadeLength, hpolder, hstaged, hswap]

/-- R328: a ring of 128 frames or more raises no record for its length. -/
theorem ringCfgWrite_long {p r addr v : Nat} {c : Carried} {s : State} (hframes : 128 ≤ bits v 31 12) :
    ringCfgWrite p r addr v c s = ringCfg p r v s := by
  rw [ringCfgWrite, if_neg (Nat.not_lt.mpr hframes)]

section
variable {a : Access} {addr : BitVec 40} {v : BitVec 32} {s : State} (hpage : isPage addr.toNat = true)
  (hadm : admitted a addr.toNat v.toNat s = true) (hbudget : audBudget s (pageOf addr.toNat) ≠ 0)
include hpage hadm hbudget

/-- R326: an admitted write of AUD_SWAP. -/
theorem exec_audSwap_admitted (hoff : pageOff addr.toNat = 0x3100) : exec (.audSwap a addr v) s =
    .next (settle 4 (swapWrite (pageOf addr.toNat) v.toNat addr.toNat (carried s a addr.toNat) s)) :=
  audPage_admitted (eff := fun p c => swapWrite p v.toNat addr.toNat c) hpage (beq_iff_eq.mpr hoff) hadm hbudget

/-- R327: an admitted write of a gain. -/
theorem exec_audGainWrite_admitted (hlo : 0x3400 ≤ pageOff addr.toNat) (hhi : pageOff addr.toNat < 0x3800) :
    exec (.audGainWrite a addr v) s =
      .next (settle 4 (wr (AUD_GAIN_gain (pageOf addr.toNat) ((pageOff addr.toNat - 0x3400) / 4)) v.toNat s)) :=
  audPage_admitted (eff := fun p _ => wr (AUD_GAIN_gain p ((pageOff addr.toNat - 0x3400) / 4)) v.toNat) hpage
    (decide_eq_true (p := 0x3400 ≤ pageOff addr.toNat ∧ pageOff addr.toNat < 0x3800) ⟨hlo, hhi⟩) hadm hbudget

/-- R328: an admitted write that enables a ring port. -/
theorem exec_audRingEnable_admitted {r : Nat} (hring : ringAt (pageOff addr.toNat) = some r) (hon : bit v.toNat 0 = true)
    (hwas : rdB s (AUD_RING_CFG_enable (pageOf addr.toNat) r) = false) : exec (.audRingEnable a addr v) s =
      .next (settle 4 (ringCfgWrite (pageOf addr.toNat) r addr.toNat v.toNat (carried s a addr.toNat) s)) := by
  show execAudRingEnable a addr v s = _
  simp only [execAudRingEnable, hring, Option.getD_some]
  exact audPage_admitted hpage (by rw [hon, hwas]; rfl) hadm hbudget

/-- R328: an admitted write of AUD_METER_CLR. -/
theorem exec_audMeterClr_admitted (hoff : pageOff addr.toNat = 0x3200) :
    exec (.audMeterClr a addr v) s = .next (settle 4 (clearMeters (pageOf addr.toNat) v.toNat s)) :=
  audPage_admitted (eff := fun p _ => clearMeters p v.toNat) hpage (beq_iff_eq.mpr hoff) hadm hbudget

end

/-- Settles O25: each doorbell is admitted, each other step is taken where its conditions hold, and its own rule is the case its
hypotheses name. -/
theorem audioStepsComplete : Obligations.AudioStepsComplete := by
  unfold Obligations.AudioStepsComplete
  refine ⟨fun d rx slips s s1 s2 s4 outs => exec_audBlock_runs, ?swap, ?gain, ?ring, ?meters, ?locks,
    fun d s => exec_audDomainLock_loses, fun i t frames s a l => exec_aes67PacketRx_held⟩
  case swap =>
    rintro a addr v s p g hpage hoff hadm rfl hbudget hgo hfade hpolder hstaged hswap
    rw [exec_audSwap_admitted hpage hadm hbudget hoff, swapWrite_begins hgo hfade hpolder hstaged hswap]
  case gain =>
    rintro a addr v s p hpage hlo hhi hadm rfl hbudget
    exact exec_audGainWrite_admitted hpage hadm hbudget hlo hhi
  case ring =>
    rintro a addr v s p r hpage hring hadm rfl hbudget hon hwas hframes
    rw [exec_audRingEnable_admitted hpage hadm hbudget hring hon hwas, ringCfgWrite_long hframes]
  case meters =>
    rintro a addr v s p hpage hoff hadm rfl hbudget
    exact exec_audMeterClr_admitted hpage hadm hbudget hoff
  case locks =>
    intro d v s t hslaved henabled hrange hlocked hsince
    exact exec_audDomainLock_locks hslaved henabled hrange hlocked hsince

/-! ## The commands' own rules (Table AUD-8) -/

section
variable {q : Req} {p : Nat} {s : State}

/-- AUD_GET_PROGRAM of a polder with an active program alone. -/
theorem audGetProgram_active {g : AudProg} (hp : p = bits (q.w 2) 4 0) (hread : q.mayReadPolder s p = true)
    (hactive : (audPol s p).active = some g) (hstaged : (audPol s p).staged = none) :
    audGetProgram q s = okR [packFlds s [AUD_PROG_STAT_active p, AUD_PROG_STAT_staged p, AUD_PROG_STAT_cost p], g.crc, 0, g.paths.length / 3] s := by
  simp only [audGetProgram, ← hp, hread, hactive, hstaged, Bool.not_true, Bool.false_eq_true, if_false]

/-- R325: the paths of the active program, into a buffer with room for them (log 42). -/
theorem audGetPaths_fit {g : AudProg} (hp : p = bits (q.w 2) 4 0) (hread : q.mayReadPolder s p = true)
    (hactive : (audPol s p).active = some g) (hfits : (wordsBytes g.paths).length ≤ q.bufSize) :
    audGetPaths q s = okR [] (devPut 0 (q.bufAddr - p) (wordsBytes g.paths) s) := by
  simp only [audGetPaths, ← hp, hread, hactive, Nat.not_lt.mpr hfits, Bool.not_true, Bool.false_eq_true, if_false]

/-- R324: an image that passes every check, while no swap is under way. -/
theorem audLoadProgram_passes {head img : List Nat} {g : AudProg} (hpol : q.polder = some p) (hswap : (audPol s p).swap = none)
    (hhead : head = leWords (min 24 (q.bufSize / 4)) (readBytes s q.bufAddr (min 96 q.bufSize)))
    (himg : img = head ++ (leWords (min (q.bufSize / 4) (readNat s (q.bufAddr + 8) 4 / 4)) (readBytes s q.bufAddr
      (min q.bufSize (readNat s (q.bufAddr + 8) 4)))).drop head.length)
    (hheader : headerFault img q.bufSize = none) (hg : g = imgProg img) (hbody : firstOffset (bodyFaults img g) = none)
    (hdomain : domainFault s p img g = none) (htaint : taintFails g = false) (hcost : imgCost img g = g.cost) (hbudget : g.cost ≤ audBudget s p)
    (hmemory : (((List.range 32).flatMap (fun o => (audPol s o).active.toList ++
      (if o = p then [] else (audPol s o).staged.toList))).map progWords).sum + progWords g ≤ 262144) :
    audLoadProgram q s =
      did (record0 Src.AUD_PROGRAM_LOADED (some p) [g.crc, g.cost] (progStat p (setAudPol p { audPol s p with staged := some g } s))) := by
  simp only [audLoadProgram, hpol, hswap, ← hhead, ← himg, hheader, ← hg, hbody, hdomain, htaint, hcost, Nat.not_lt.mpr hbudget,
    Nat.not_lt.mpr hmemory, ne_eq, not_true_eq_false, Bool.false_eq_true, if_false]

/-- AUD_UNLOAD of the staged program. -/
theorem audUnload_staged (hpol : q.polder = some p) (hswap : (audPol s p).swap = none) (hstaged : bit (q.w 2) 0 = false) :
    audUnload q s = did (progStat p (setAudPol p { audPol s p with staged := none } s)) := by
  simp only [audUnload, hpol, hswap, hstaged, Option.isSome_none, Bool.false_eq_true, if_false]

/-- R318: a bridge of the sender's that no program uses, between two domains. -/
theorem audSetBridge_idle {b src dst : Nat} {s1 : State} (hpol : q.polder = some p) (hb : b = bits (q.w 2) 4 0) (hsrc : src = bits (q.w 2) 10 9)
    (hdst : dst = bits (q.w 2) 12 11) (howner : grantee s 4 (192 + b) = p) (hidle : (audProgs s p).any (fun g => progUses g (192 + b)) = false)
    (hne : src ≠ dst) (hsrc3 : src ≠ 3) (hdst3 : dst ≠ 3)
    (hs1 : s1 = takeEffect (brgFlds b) (wr (AUD_BRG_CFG_dst b) dst (wr (AUD_BRG_CFG_src b) src (wr (AUD_BRG_CFG_enable b) (bits (q.w 2) 8 8) s)))) :
    audSetBridge q s = did (wr (AUD_BRG_CFG_offset b) (satSgn 16 (bridgeOffset s1 b)) s1) := by
  simp only [audSetBridge, hpol, ← hb, ← hsrc, ← hdst, howner, hidle, hne, hsrc3, hdst3, ← hs1, ne_eq, not_true_eq_false, or_self,
    Bool.false_eq_true, if_false]

/-- R319, R329: a side-tone unit between two channels that the sender holds in the primary domain. -/
theorem audSetSidetone_primary {u i o : Nat} (hpol : q.polder = some p) (hu : u = bits (q.w 2) 2 0) (hi : i = bits (q.w 2) 14 8)
    (ho : o = bits (q.w 2) 22 16) (hin : grantee s 4 i = p) (hout : grantee s 4 o = p) (hdin : chanDomain s i false = 0)
    (hdout : chanDomain s o true = 0) :
    audSetSidetone q s = did (wr (AUD_ST_CFG_enable u) (bits (q.w 2) 23 23) (wr (AUD_ST_CFG_gain u) (bits (q.w 3) 7 0)
      (wr (AUD_ST_CFG_out u) o (wr (AUD_ST_CFG_in u) i s)))) := by
  simp only [audSetSidetone, hpol, ← hu, ← hi, ← ho, hin, hout, hdin, hdout, ne_eq, not_true_eq_false, or_self, if_false]

/-- R313: a slaved domain that nothing runs in, with a reference and a rate in range, and that was enabled. -/
theorem audSetDomain_slaved {d : Nat} (hd : d = bits (q.w 2) 1 0) (hd0 : d ≠ 0) (hd3 : d ≠ 3) (href : bits (q.w 2) 4 3 ≠ 0)
    (hlo : 32000 ≤ q.w 3) (hhi : q.w 3 ≤ 192000) (hunused : domainUsed s d = false)
    (hwas : rdB (rebaseDomain d s) (AUD_DOM_CTRL_enable d).inForce = true) :
    audSetDomain q s = did (setAud (fun a => { a with since := a.since.put d none }) (wr (AUD_DOM_STAT_offset d) 0
      (wr (AUD_DOM_STAT_locked d) 0 (takeEffect (domFlds d) (wr (AUD_DOM_CTRL_rate d) (q.w 3) (wr (AUD_DOM_CTRL_ref d) (bits (q.w 2) 4 3)
        (wr (AUD_DOM_CTRL_enable d) (bits (q.w 2) 2 2) (rebaseDomain d s)))))))) := by
  simp only [audSetDomain, ← hd, hd0, beq_eq_false_iff_ne.mpr hd3, beq_eq_false_iff_ne.mpr href, Nat.not_lt.mpr hlo, Nat.not_lt.mpr hhi,
    hunused, hwas, decide_false, Bool.or_self, Bool.false_eq_true, if_false, if_true]

/-- R316, R319: a TDM port in the primary domain, whose slots fit the rate. -/
theorem audSetTdm_primary {v : Nat} (hp : p = bits (q.w 2) 2 0) (hv : v = bits (q.w 2) 27 16) (hdomain : bits v 2 1 = 0)
    (hlo : 1 ≤ bits v 7 3) (hhi : bits v 7 3 ≤ 16) (hwidth : bits v 9 8 ≠ 3)
    (hrate : bits v 7 3 * rd s (AUD_DOM_CTRL_rate 0).inForce ≤ 768000) :
    audSetTdm q s = did (takeEffect (tdmFlds p) (writeFlds v (tdmFlds p) s)) := by
  simp only [audSetTdm, ← hp, ← hv, hdomain, Nat.ne_of_gt hlo, Nat.not_lt.mpr hhi, hwidth, Nat.not_lt.mpr hrate, ne_eq, not_true_eq_false,
    OfNat.zero_ne_ofNat, false_and, or_self, if_false]

/-- R317: a domain that the AES67 channels may be in. -/
theorem audSetAes67_allowed (hdomain : mediaDomainOk s (bits (q.w 2) 1 0) = true) :
    audSetAes67 q s = did (takeEffect [AUD_AES67_CFG_domain] (wr AUD_AES67_CFG_domain (bits (q.w 2) 1 0) s)) := by
  simp only [audSetAes67, hdomain, if_true]

/-- R382: one stream whose channels and link offset are in range (log 43). -/
theorem netSetAes67_one {e : Aes67} (hsize : q.bufSize = 32) (he : e = aesEntry q s 0) (hfirst : 128 ≤ e.first)
    (hlast : e.first + e.count ≤ 192) (hlo : 250000 ≤ e.offsetNs) (hhi : e.offsetNs ≤ 20000000)
    (hdomain : mediaDomainOk s (rd s AUD_AES67_CFG_domain.inForce) = true) :
    netSetAes67 q s = did { s with net := { s.net with aes := [e] } } := by
  have hentries : (List.range (32 / 32)).map (aesEntry q s) = [e] := by rw [he]; rfl
  have hcount : ¬ 64 < e.count := by omega
  have hdir (t : Bool) : (decide (64 < (([e].filter (fun e => e.tx == t)).map (·.count)).sum) ||
      !decide (([e].filter (fun e => e.tx == t)).map (·.index)).Nodup) = false := by
    by_cases ht : e.tx = t <;> simp [ht, hcount]
  simp only [netSetAes67, hentries, hdir, hsize, hdomain, Nat.not_lt.mpr hfirst, Nat.not_lt.mpr hlast, Nat.not_lt.mpr hlo,
    Nat.not_lt.mpr hhi, List.any_cons, List.any_nil, decide_false, Nat.mod_self, bne_self_eq_false, Bool.not_true, Bool.or_self,
    Bool.false_eq_true, if_false]

end

/-- Settles O26: each command is served once it is asked for, and its rules are the case its hypotheses name. -/
theorem audioCommandsComplete : Obligations.AudioCommandsComplete := by
  unfold Obligations.AudioCommandsComplete
  refine ⟨fun k m s hask => serve_ok hask rfl, ?program, ?paths, ?load, ?unload, ?bridge, ?sidetone, ?domain, ?tdm, ?aes67, ?streams⟩
  case program =>
    intro k m s p g hask hp hread hactive hstaged
    exact serve_ok hask (audGetProgram_active (q := ⟨k, m⟩) (s := taken k s) hp hread hactive hstaged)
  case paths =>
    intro k m s p g hask hp hread hactive hfits
    exact serve_ok hask (audGetPaths_fit (q := ⟨k, m⟩) (s := taken k s) hp hread hactive hfits)
  case load =>
    intro k m s p head img g hask hpol hswap hhead himg hheader hg hbody hdomain htaint hcost hbudget hmemory
    exact serve_ok hask (audLoadProgram_passes (q := ⟨k, m⟩) (s := taken k s) hpol hswap hhead himg hheader hg hbody hdomain htaint hcost
      hbudget hmemory)
  case unload =>
    intro k m s p hask hpol hswap hstaged
    exact serve_ok hask (audUnload_staged (q := ⟨k, m⟩) (s := taken k s) hpol hswap hstaged)
  case bridge =>
    intro k m s s1 p b src dst hask hpol hb hsrc hdst howner hidle hne hsrc3 hdst3 hs1
    exact serve_ok hask (audSetBridge_idle (q := ⟨k, m⟩) (s := taken k s) hpol hb hsrc hdst howner hidle hne hsrc3 hdst3 hs1)
  case sidetone =>
    intro k m s p u i o hask hpol hu hi ho hin hout hdin hdout
    exact serve_ok hask (audSetSidetone_primary (q := ⟨k, m⟩) (s := taken k s) hpol hu hi ho hin hout hdin hdout)
  case domain =>
    intro k m s d hask hd hd0 hd3 href hlo hhi hunused hwas
    exact serve_ok hask (audSetDomain_slaved (q := ⟨k, m⟩) (s := taken k s) hd hd0 hd3 href hlo hhi hunused hwas)
  case tdm =>
    intro k m s p v hask hp hv hdomain hlo hhi hwidth hrate
    exact serve_ok hask (audSetTdm_primary (q := ⟨k, m⟩) (s := taken k s) hp hv hdomain hlo hhi hwidth hrate)
  case aes67 =>
    intro k m s hask hdomain
    exact serve_ok hask (audSetAes67_allowed (q := ⟨k, m⟩) (s := taken k s) hdomain)
  case streams =>
    intro k m s e hask hsize he hfirst hlast hlo hhi hdomain
    exact serve_ok hask (netSetAes67_one (q := ⟨k, m⟩) (s := taken k s) hsize he hfirst hlast hlo hhi hdomain)

end Sys2Proof.Proofs

/-! PROOFS. The haptic channels: triggers, control samples, overdrive, braking, faults and commands. -/
namespace Sys2Proof.Proofs
open Sys2Proof Sys2Proof.Machine

/-! ## Triggers (R331, R335) -/

/-- R335: an admitted write of HAP_TRIGGER that names a channel its polder holds. -/
theorem exec_hapTrigger_held {a : Access} {addr : BitVec 40} {v : BitVec 32} {s : State} {p c k : Nat} (hpage : isPage addr.toNat = true)
    (hoff : pageOff addr.toNat = 0x4400) (hadm : admitted a addr.toNat v.toNat s = true) (hp : p = pageOf addr.toNat)
    (hc : c = bits v.toNat 2 0) (hk : k = bits v.toNat 6 4) (hholder : hapHolder s c = p) :
    exec (.hapTrigger a addr v) s = .next (settle 4 (hapTrigger p c k s)) := by
  subst hp hc hk
  show execHapTrigger a addr v s = _
  unfold execHapTrigger
  refine (regWrite_admitted (by rw [hpage, hoff]; rfl) hadm).trans ?_
  rw [triggerWrite, if_pos hholder]

/-! ## Control samples, overdrive and braking (R331 to R334) -/

section
variable {c : Fin 8} {s : State}

/-- R331: the next control sample of an enabled channel that is neither off nor in fault. -/
theorem exec_hapControlSample_due {f : BitVec 32} {i : BitVec 16} {s1 s2 : State} (henabled : rdB s (HAP_CH_CTRL_enable c) = true)
    (hoff : hapState s c ≠ 0) (hfault : hapState s c ≠ 4) (hruns : hapHalted s = false) (hs1 : s1 = advanceTo ((hapCh s c).last + 62500) s)
    (hs2 : s2 = hapBegin c (hapFlags c (bit f.toNat 0) (wr (HAP_CH_MEAS_current c) i.toNat (wr (HAP_CH_MEAS_accel c) (f.toNat / 65536)
      (setHap c { hapCh s1 c with last := s1.now } s1))))) :
    exec (.hapControlSample c f i) s = .next (settle 4 (if hapState s2 c = 3 then
      setHap c { hapCh s2 c with resting := if belowRest s2 c (sgn 16 (f.toNat / 65536)) then (hapCh s2 c).resting + 1 else 0, target := 0 } s2
      else hapTrack c (hapDrive c s2))) := by
  show execHapControlSample c f i s = _
  simp only [execHapControlSample, henabled, beq_eq_false_iff_ne.mpr hoff, beq_eq_false_iff_ne.mpr hfault, hruns, ← hs1, ← hs2,
    Bool.not_true, Bool.or_self, Bool.false_eq_true, if_false, done]
  split <;> rfl

/-- R333: the end of an overdrive window that is open. -/
theorem exec_hapOverdriveEnd_open {t : Nat} (hopen : (hapCh s c).odEnd = some t) :
    exec (.hapOverdriveEnd c) s = .next (setHap c { hapCh (advanceTo t s) c with odEnd := none } (advanceTo t s)) := by
  show execHapOverdriveEnd c s = _
  simp only [execHapOverdriveEnd, hopen]

/-- R334: braking that brake_max ends. -/
theorem exec_hapBrakeEnd_late {s1 : State} (hbrakes : hapState s c = 3) (hstarts : (hapCh s c).starts = none)
    (hresting : (hapCh s c).resting < 16)
    (hs1 : s1 = advanceTo ((hapCh s c).brakeStart + 1000000 * rd s (HAP_CH_DRIVE_brake_max c)) s) :
    exec (.hapBrakeEnd c) s = .next (settle 4 (hapPendStat c none (hapEnter c 1 (setHap c { hapCh s1 c with
      pend := none, resting := 0, starts := (hapCh s c).pend.map (fun f => (f, true)) } s1)))) := by
  show execHapBrakeEnd c s = _
  simp only [execHapBrakeEnd, hbrakes, hstarts, Nat.not_le.mpr hresting, ← hs1, Option.isSome_none, ne_eq, not_true_eq_false,
    Bool.false_eq_true, or_self, false_and, if_false, done]

/-! ## Faults (R336) -/

/-- R336: three current samples above the limit. -/
theorem exec_hapOvercurrent_above {a b d : BitVec 16} (ha : rd s (HAP_CH_LIMIT_ilim c) < (sgn 16 a.toNat).natAbs)
    (hb : rd s (HAP_CH_LIMIT_ilim c) < (sgn 16 b.toNat).natAbs) (hd : rd s (HAP_CH_LIMIT_ilim c) < (sgn 16 d.toNat).natAbs)
    (hoff : hapState s c ≠ 0) (hfault : hapState s c ≠ 4) (hruns : hapHalted s = false) :
    exec (.hapOvercurrent c a b d) s = .next (settle 4 (hapNotify c 1 (raiseLine (hapHolder s c) 55
      (orBits (HAP_EVENT_fault (hapHolder s c)) (2 ^ c.val) (record0 Src.HAP_OVERCURRENT (some (hapHolder s c)) [c, unsgn 32 (sgn 16 d.toNat)]
        (wr (HAP_CH_MEAS_current c) d.toNat (hapEnter c 4 (hapClear c s)))))))) := by
  show execHapOvercurrent c a b d s = _
  simp only [execHapOvercurrent, decide_eq_true ha, decide_eq_true hb, decide_eq_true hd, beq_eq_false_iff_ne.mpr hoff,
    beq_eq_false_iff_ne.mpr hfault, hruns, Bool.and_self, Bool.not_true, Bool.or_self, Bool.false_eq_true, if_false, done]

/-- R336: sixteen frames without the valid flag open the loop. -/
theorem exec_hapSenseLost_opens (hinvalid : 16 ≤ (hapCh s c).invalid) (hclosed : rdB s (HAP_CH_STAT_open_loop c) = false) :
    exec (.hapSenseLost c) s = .next (settle 4
      (hapNotify c 2 (record0 Src.HAP_SENSE_LOST (some (hapHolder s c)) [c] (wr (HAP_CH_STAT_open_loop c) 1 s)))) := by
  show execHapSenseLost c s = _
  simp only [execHapSenseLost, Nat.not_lt.mpr hinvalid, hclosed, Bool.false_eq_true, or_self, if_false, done]

end

/-! ## The commands' own rules (Table AUD-8) -/

/-- R336: a limit that the drive current reaches is not too low. -/
theorem hapLimitLow_eq_false {inom od ilim : Nat} (h : inom * od ≤ ilim * 8) : hapLimitLow inom od ilim = false :=
  decide_eq_false (Nat.not_lt.mpr h)

section
variable {q : Req} {c : Nat} {s : State}

/-- R336, R337: the holder's settings, in range, that enable a channel that is off. -/
theorem hapSetChannel_enables {s1 : State} {inom od bm : Nat} (hc : c = bits (q.w 2) 2 0) (hinom : inom = bits (q.w 4) 11 0)
    (hod : od = bits (q.w 4) 16 12) (hbm : bm = bits (q.w 4) 27 21) (howner : q.polder = some (hapHolder s c)) (hinom0 : inom ≠ 0)
    (hodLo : 8 ≤ od) (hodHi : od ≤ 24) (hodMs : bits (q.w 4) 20 17 ≤ 8) (hbm0 : bm ≠ 0) (hbmHi : bm ≤ 100)
    (hlimit : inom * od ≤ bits (q.w 5) 12 0 * 8) (hon : bit (q.w 3) 0 = true)
    (hs1 : s1 = takeEffect [HAP_CH_CTRL_dead c] ((List.range 5).foldl (fun s i => writeFlds (q.w (3 + i)) ((hapRegs c).getD i []) s) s))
    (hoff : hapState s c = 0) : hapSetChannel q s = did (hapEnter c 1 s1) := by
  simp only [hapSetChannel, ← hc, ← hinom, ← hod, ← hbm, howner, hinom0, Nat.not_lt.mpr hodLo, Nat.not_lt.mpr hodHi, Nat.not_lt.mpr hodMs,
    hbm0, Nat.not_lt.mpr hbmHi, hapLimitLow_eq_false hlimit, hon, ← hs1, hoff, ne_eq, not_true_eq_false, Bool.false_eq_true, or_self,
    if_false, if_true]

/-- R336: a channel in fault restarts where its limit is not too low. -/
theorem hapRestart_fault (hc : c = bits (q.w 2) 2 0) (howner : q.polder = some (hapHolder s c)) (hfault : hapState s c = 4)
    (hlimit : hapLimitLow (rd s (HAP_CH_DRIVE_inom c)) (rd s (HAP_CH_DRIVE_od c)) (rd s (HAP_CH_LIMIT_ilim c)) = false) :
    hapRestart q s = did (hapEnter c 1 s) := by
  simp only [hapRestart, ← hc, howner, hfault, hlimit, ne_eq, not_true_eq_false, Bool.false_eq_true, if_false]

end

/-- Settles O27: each step is taken where its conditions hold, each command is served once it is asked for, and its own rule is the case its
hypotheses name. -/
theorem hapticsComplete : Obligations.HapticsComplete := by
  unfold Obligations.HapticsComplete
  refine ⟨?trigger, fun c f i s s1 s2 => exec_hapControlSample_due, fun c s t => exec_hapOverdriveEnd_open,
    fun c s s1 => exec_hapBrakeEnd_late, fun c a b d s => exec_hapOvercurrent_above, fun c s => exec_hapSenseLost_opens,
    fun k m s hask => serve_ok hask rfl, ?setChannel, ?restart⟩
  case trigger =>
    intro a addr v s s1 p c k st hpage hoff hadm hp hc hk hholder hpolder hruns hst0 hst4 hwave houtcome
    rw [exec_hapTrigger_held hpage hoff hadm hp hc hk hholder, hapTrigger_ran hpolder hruns hst0 hst4 hwave houtcome]
  case setChannel =>
    intro k m s s1 c inom od bm hask hc hinom hod hbm howner hinom0 hodLo hodHi hodMs hbm0 hbmHi hlimit hon hs1 hoff
    exact serve_ok hask (hapSetChannel_enables (q := ⟨k, m⟩) (s := taken k s) hc hinom hod hbm howner hinom0 hodLo hodHi hodMs hbm0 hbmHi
      hlimit hon hs1 hoff)
  case restart =>
    intro k m s c hask hc howner hfault hlimit
    exact serve_ok hask (hapRestart_fault (q := ⟨k, m⟩) (s := taken k s) hc howner hfault hlimit)

end Sys2Proof.Proofs

/-! PROOFS. The touch channels: frames, starts, contacts that last, queues, calibration and commands. -/
namespace Sys2Proof.Proofs
open Sys2Proof Sys2Proof.Machine

/-! ## Frames, starts, contacts that last and calibration (R338, R340, R354 to R357) -/

section
variable {c : Fin 2} {s : State}

/-- R338: the next frame of a channel that scans. -/
theorem exec_touchFrame_scans {steps : List (List (BitVec 16))} {sat : List (Fin 6 × Fin 64)} {listen : List (List (BitVec 16))}
    (hscans : tchScans s c = true) :
    exec (.touchFrame c steps sat listen) s = .next (settle 4 (touchFrame c (steps.map (fun l => l.map (fun x => sgn 16 x.toNat)))
      (sat.map (fun e => (e.1.val, e.2.val))) (listen.map (fun l => l.map (fun x => sgn 16 x.toNat)))
      (advanceTo ((tch s c).endAt + framePeriod s c) s))) := by
  show execTouchFrame c steps sat listen s = _
  simp only [execTouchFrame, hscans, Bool.not_true, Bool.false_eq_true, if_false, done]

/-- R354: the start of an enabled channel that has no snapshot, neither from QUIET nor in flash. -/
theorem exec_tchStart_bare (henabled : rdB s (TCH_CTRL_enable c).inForce = true) (hoff : tchState s c = 0) (hquiet : tchQuiet s = false)
    (hpower : domainOn s 5 = true) (hvia : (tch s c).viaQuiet = false) (hflash : (tch s c).flash = none) :
    exec (.tchStart c) s = .next (settle 4 (tchStat c (wr (TCH_STAT_state c) 1
      (wrB (TCH_STAT_snap_valid c) false (setTch c { tch s c with
        started := 0, sums := [], suspects := [], contacts := [], endAt := s.now, viaQuiet := false, hopped := false, calm := 0 } s))))) := by
  show execTchStart c s = _
  simp only [execTchStart, henabled, hoff, hquiet, hpower, hvia, hflash, Bool.not_true, bne_self_eq_false, Bool.or_self,
    Bool.false_eq_true, if_false, Option.filter_none, Option.isSome_none, done]

/-- R356: the long contact of one that no record follows. -/
theorem exec_tchLongContact_silent {id : Fin 20} {s1 : State} {k : TchContact}
    (hcontact : (tch s c).contacts.find? (fun k => k.id == id.val && k.shown && !k.long) = some k) (hsilent : k.silent = true)
    (hs1 : s1 = advanceTo (k.start + 600000000000) s) :
    exec (.tchLongContact c id) s = .next (settle 4
      (contactEvent Src.TCH_LONG_CONTACT k.owner [c, k.owner] (setTch c { tch s1 c with
        contacts := (tch s1 c).contacts.map (fun x => if x.id == k.id then { x with long := true } else x) } s1))) := by
  show execTchLongContact c id s = _
  simp only [execTchLongContact, hcontact, hsilent, ← hs1, if_true, done]

/-- R356: a contact that is stuck ends, with its nodes re-baselined. -/
theorem exec_tchStuck_ends {id : Fin 20} {s1 s2 : State} {k : TchContact}
    (hcontact : (tch s c).contacts.find? (fun k => k.id == id.val && k.shown) = some k) (hseconds : rd s (TCH_STUCK_seconds c) ≠ 0)
    (hs1 : s1 = advanceTo (k.start + 1000000000 * rd s (TCH_STUCK_seconds c)) s)
    (hs2 : s2 = rebaseRecord c 3 k.owner (contactEvent Src.TCH_STUCK k.owner [c, unsgn 32 k.u, unsgn 32 k.v] (tchStat c (setTch c
      { rebaseNodes k.nodes (tch s1 c) with contacts := (rebaseNodes k.nodes (tch s1 c)).contacts.filter (fun x => x.id != k.id) } s1)))) :
    exec (.tchStuck c id) s = .next (settle 4 (if k.silent then s2 else
      (queueRecords k.owner c [eventRecord c 4 (rd s2 (TCH_FRAME_count c)) k true] s2).2)) := by
  show execTchStuck c id s = _
  simp only [execTchStuck, hcontact, hseconds, ← hs1, ← hs2, if_false, done]

/-- R357: a wake record that waits, with DRAM out of self-refresh. -/
theorem exec_touchWakeRecord_due {r : List Nat} (hwake : (tch s c).wake = some r) (hdram : rdB s (DMC_STATUS_self_refresh 0) = false) :
    exec (.touchWakeRecord c) s = .next (settle 4 (queueRecords 0 c [r] (setTch c { tch s c with wake := none } s)).2) := by
  show execTouchWakeRecord c s = _
  simp only [execTouchWakeRecord, hwake, hdram, Bool.false_and, Bool.false_eq_true, if_false, done]

/-- R340: the end of a calibration whose frames have all come. -/
theorem exec_tchCalibrateDone_due {j : Job} (hcalib : (tch s c).calib = some (0, j)) :
    exec (.tchCalibrateDone c) s = .next (settle 4 (reply j ST_OK [] (tookFrees (tchNodes s c).length (setTch c { tch s c with
      calib := none,
      code := (List.range (tchNodes s c).length).map (fun i => ((tchNodes s c).getD i 0, Config.freeValue (s.free + i) % 64)) } s)))) := by
  show execTchCalibrateDone c s = _
  simp only [execTchCalibrateDone, hcalib, done]

end

/-! ## Queues (R348) -/

/-- R348: an admitted write that enables a queue which its polder holds. -/
theorem exec_tchQueueEnable_held {a : Access} {addr : BitVec 40} {v : BitVec 32} {s : State} {p c : Nat} (hpage : isPage addr.toNat = true)
    (hqueue : queueAt (pageOff addr.toNat) 8 = some c) (hadm : admitted a addr.toNat v.toNat s = true) (hp : p = pageOf addr.toNat)
    (hholds : holdsTouch s p c = true) (hon : bit v.toNat 0 = true) (hwas : rdB s (TCH_Q_CFG_enable p c) = false)
    (hsize : bits v.toNat 7 4 ≤ 10) : exec (.tchQueueEnable a addr v) s = .next (settle 4 (queueCfg p c v.toNat s)) := by
  subst hp
  show execTchQueueEnable a addr v s = _
  simp only [execTchQueueEnable, hqueue, Option.getD_some]
  refine (regWrite_admitted (by rw [hpage, hon, hwas]; rfl) hadm).trans ?_
  rw [queueCfgWrite, hholds, if_neg (Nat.not_lt.mpr hsize)]
  rfl

/-! ## The commands' own rules (Table TCH-6) -/

section
variable {q : Req} {c : Nat} {s : State}

/-- R353: a rule removed for a polder that holds the haptic channel and the touch channel's queue. -/
theorem tchSetClick_removes {p : Nat} (hpol : q.polder = some p) (hc : c = bits (q.w 2) 0 0) (hhaptic : hapHolder s (bits (q.w 2) 14 12) = p)
    (hholds : holdsTouch s p c = true) (hoff : bit (q.w 2) 8 = false) :
    tchSetClick q s = did { s with tch := { s.tch with clicks := s.tch.clicks.put (clickKey c p (bits (q.w 2) 7 4)) none } } := by
  simp only [tchSetClick, hpol, ← hc, hhaptic, hholds, hoff, ne_eq, not_true_eq_false, Bool.true_eq_false, or_self, Bool.false_and,
    Bool.false_eq_true, if_false]

/-- R338, R359: settings in range that fit the frame rate, while no calibration runs. -/
theorem tchSetChannel_fits {s2 : State} {fs : List Nat} (hc : c = bits (q.w 2) 0 0)
    (hfs : fs = (List.range 8).map (fun j => bits (q.w (7 + j / 2)) (15 + 16 * (j % 2)) (16 * (j % 2)))) (hranges : channelBad q fs = false)
    (hcalib : (tch s c).calib = none)
    (hfits : frameFits fs (fs.getD (rd s (TCH_STAT_freq c)) 0) (ceilDiv (bits (q.w 3) 14 8) (if bit (q.w 3) 1 then 16 else 32) *
      (if bit (q.w 3) 1 then 16 else 32)) (bits (q.w 4) 5 0) (bits (q.w 3) 31 24) = true)
    (hs2 : s2 = (List.range 8).foldl (fun s j => wr (TCH_FREQ_khz c j) (fs.getD j 0) s) (wr (TCH_STUCK_seconds c) (bits (q.w 11) 16 0)
      ((List.range 4).foldl (fun s i => writeFlds (q.w (3 + i)) ((tchRegs c).getD i []) s) s))) :
    tchSetChannel q s = did (if (tchStartFlds c).any (fun f => rd s2 f != rd s2 f.inForce) then
      tchStop c false (takeEffect (tchStartFlds c) s2) else s2) := by
  simp only [tchSetChannel, ← hc, ← hfs, hranges, hcalib, hfits, ← hs2, Option.isSome_none, Bool.not_true, Bool.false_eq_true, if_false]

/-- R352: a slider of nodes on the panel that no other slider has (log 42). -/
theorem tchSetSlider_free {w : Nat → Nat} {pairs : List (Nat × Nat)} {nodes : List Nat} (hw : w = (fun i => readNat s (q.bufAddr + 4 * i) 4))
    (hpairs : pairs = (List.range (w 5)).map (fun i => (byteAt s (q.bufAddr + 24 + 2 * i), byteAt s (q.bufAddr + 25 + 2 * i))))
    (hnodes : nodes = pairs.map (fun e => nodeAt e.1 e.2))
    (hform : ¬ (1 < w 0 ∨ 15 < w 1 ∨ 1 < w 2 ∨ 31 < w 3 ∨ w 5 < 2 ∨ 32 < w 5 ∨ q.bufSize < 24 + 2 * w 5))
    (hpanel : (pairs.any (fun e => decide (rd s (TCH_CTRL_tx (w 0)) ≤ e.1) || decide (rd s (TCH_CTRL_rx (w 0)) ≤ e.2))) = false)
    (hnodup : nodes.Nodup)
    (hfree : (nodes.any (fun x => (sliderNodes { tch s (w 0) with sliders := (tch s (w 0)).sliders.filter (fun e => e.1 != w 1) }).contains x)) =
      false) :
    tchSetSlider q s = did (setTch (w 0) { tch s (w 0) with
      sliders := (tch s (w 0)).sliders.put (w 1) (some ⟨nodes, w 2 == 1, sgn 32 (w 4), some (w 3), none⟩) } s) := by
  subst hw hpairs hnodes
  unfold tchSetSlider
  refine (if_neg hform).trans ((if_neg ?_).trans rfl)
  rintro (houtside | hdouble | htaken)
  · exact Bool.false_ne_true (hpanel.symm.trans houtside)
  · exact of_decide_eq_false ((Bool.not_eq_true' _).mp hdouble) hnodup
  · exact Bool.false_ne_true (hfree.symm.trans htaken)

/-- R340: a calibration begins while nothing touches the panel. -/
theorem tchCalibrate_begins (hc : c = bits (q.w 2) 0 0) (hcontacts : (tch s c).contacts = []) (hcalib : (tch s c).calib = none) :
    tchCalibrate q s = pend (setTch c { tch s c with calib := some (64, q.job) } s) id := by
  simp only [tchCalibrate, ← hc, hcontacts, hcalib, List.isEmpty_nil, Option.isSome_none, Bool.not_true, Bool.or_self, Bool.false_eq_true,
    if_false]

/-- R347: the deltas of every node, into a buffer with room for them (log 42). -/
theorem tchGetNodes_deltas {bs : List Nat} (hc : c = bits (q.w 2) 0 0) (htable : bits (q.w 2) 3 1 = 2)
    (hbs : bs = ((tchNodes s c).map (Tab.get 0 (tch s c).delta)).flatMap (fun x => leBytes 2 (unsgn 16 x))) (hfits : bs.length ≤ q.bufSize) :
    tchGetNodes q s = okR [rd s (TCH_FRAME_count c)] (devPut 0 (q.bufAddr - bits (q.w 2) 3 0) bs s) := by
  have hform : ¬ (4 < 2 ∨ q.bufSize < bs.length) := by omega
  simp only [tchGetNodes, ← hc, htable, ← hbs, if_neg hform]

end

/-- Settles O28: each step is taken where its conditions hold, each command is served once it is asked for, and its own rule is the case its
hypotheses name. -/
theorem touchComplete : Obligations.TouchComplete := by
  unfold Obligations.TouchComplete
  refine ⟨fun c steps sat listen s => exec_touchFrame_scans, fun c s => exec_tchStart_bare, fun c id s s1 k => exec_tchLongContact_silent,
    fun c id s s1 s2 k => exec_tchStuck_ends, fun c s r => exec_touchWakeRecord_due, fun a addr v s p c => exec_tchQueueEnable_held,
    fun c s j => exec_tchCalibrateDone_due, ?getInfo, ?click, ?channel, fun k m s hask => serve_ok hask rfl, ?slider, ?calibrate,
    ?snapshot, ?rebaseline, ?nodes⟩
  case getInfo =>
    rintro k m s c hask rfl
    exact serve_ok hask rfl
  case click =>
    intro k m s p c hask hpol hc hhaptic hholds hoff
    exact serve_ok hask (tchSetClick_removes (q := ⟨k, m⟩) (s := taken k s) hpol hc hhaptic hholds hoff)
  case channel =>
    intro k m s s2 c fs hask hc hfs hranges hcalib hfits hs2
    exact serve_ok hask (tchSetChannel_fits (q := ⟨k, m⟩) (s := taken k s) hc hfs hranges hcalib hfits hs2)
  case slider =>
    intro k m s w pairs nodes hask hw hpairs hnodes h0 h1 h2 h3 h5lo h5hi hsize hpanel hnodup hfree
    exact serve_ok hask (tchSetSlider_free (q := ⟨k, m⟩) (s := taken k s) hw hpairs hnodes (by omega) hpanel hnodup hfree)
  case calibrate =>
    intro k m s c hask hc hcontacts hcalib
    exact serve_pend hask (tchCalibrate_begins (q := ⟨k, m⟩) (s := taken k s) hc hcontacts hcalib)
  case snapshot =>
    intro k m s hask
    exact serve_pend (f := fun s => reply ⟨k, Msg.opcode m, Msg.seq m⟩ ST_OK [] (snapToFlash (bits (m.word 2) 0 0) s)) hask rfl
  case rebaseline =>
    rintro k m s c hask rfl
    exact serve_ok hask rfl
  case nodes =>
    intro k m s c bs hask hc htable hbs hfits
    exact serve_ok hask (tchGetNodes_deltas (q := ⟨k, m⟩) (s := taken k s) hc htable hbs hfits)

end Sys2Proof.Proofs

/-! PROOFS. Links, PTP messages, the time states and the switch; Onader frames, their timers and exported events. -/
namespace Sys2Proof.Proofs
open Sys2Proof Sys2Proof.Machine

/-! ## Links (R360) -/

section
variable {p : Fin 6} {s : State}

/-- R360: the link of an enabled port comes up. -/
theorem exec_onlLink_up (hwas : rdB s (ONL_PORT_STAT_up p) = false) (hpower : domainOn s 6 = true)
    (henabled : rdB s (ONL_PORT_CFG_enable p).inForce = true) :
    exec (.onlLink p true) s = .next (settle 4 (linkChange p true (rd s (ONL_PORT_CFG_speed p).inForce) s)) := by
  show execOnlLink p true s = _
  simp only [execOnlLink, hwas, hpower, henabled, Bool.true_eq_false, or_self, and_false, if_false, done]

/-- R360: a link that is up goes down. -/
theorem exec_onlLink_down (hwas : rdB s (ONL_PORT_STAT_up p) = true) (hpower : domainOn s 6 = true) :
    exec (.onlLink p false) s = .next (settle 4 (linkChange p false (rd s (ONL_PORT_CFG_speed p).inForce) s)) := by
  show execOnlLink p false s = _
  simp only [execOnlLink, hwas, hpower, Bool.true_eq_false, Bool.false_eq_true, or_self, false_and, if_false, done]

/-! ## Masters and time states (R363 to R367, Table ONL-2) -/

/-- R364: an Announce on a port that takes part in PTP. -/
theorem exec_ptpAnnounce_heard {d : BitVec 8} {a : AnnounceInfo} (hport : ptpPort s p d.toNat = true) :
    exec (.ptpAnnounce p d a) s = .next (settle 4 (setMasters (s.net.masters.put p (some ⟨a.priority1.toNat, a.clockClass.toNat,
      a.accuracy.toNat, a.variance.toNat, a.priority2.toNat, a.identity.toNat, a.steps.toNat⟩)) s)) := by
  show execPtpAnnounce p d a s = _
  simp only [execPtpAnnounce, hport, Bool.not_true, Bool.false_eq_true, if_false, done]

/-- R367: a Sync from the best master, out of range and beyond the step threshold. -/
theorem exec_ptpSync_steps {d : BitVec 8} {i : Nat} {o f : Int} {b : Announce} (hport : ptpPort s p d.toNat = true)
    (hbest : bestMaster s = some (p.val, b)) (hrange : 250 < f.natAbs) (hstep : rd s ONL_PTP_STEP_TH_ns < o.natAbs) :
    exec (.ptpSync p d i o f) s = .next (settle 4 (stepTime (-o) (wr ONL_TIME_OFFSET_ns (satSgn 32 f)
      (setNet (fun v => { v with syncs := 0, syncAt := s.now, syncInterval := i }) s)))) := by
  have hsteady : ¬ 16 ≤ 0 := by decide
  show execPtpSync p d i o f s = _
  simp only [execPtpSync, hport, hbest, Option.map_some, bne_self_eq_false, Nat.not_le.mpr hrange, if_pos hstep, Bool.not_true, Bool.or_self,
    Bool.false_eq_true, if_false, hsteady, done]

/-- Table ONL-2: three intervals without a valid Sync end SYNC. -/
theorem exec_ptpSyncTimeout_holds {s2 : State}
    (hs2 : s2 = setNet (fun v => { v with syncs := 0 }) (advanceTo (s.net.syncAt + 3 * s.net.syncInterval) s))
    (hsync : rd s2 ONL_TIME_STAT_state = 1) :
    exec (.ptpSyncTimeout false) s = .next (settle 4 (setTimeState 2 (setNet (fun v => { v with holdSince := s2.now }) s2))) := by
  show execPtpSyncTimeout false s = _
  simp only [execPtpSyncTimeout, Bool.false_eq_true, if_false, ← hs2, hsync, if_true, done]

/-- Table ONL-2: the end of HOLDOVER. -/
theorem exec_holdoverExpiry_due (hholds : rd s ONL_TIME_STAT_state = 2) : exec .holdoverExpiry s = .next (settle 4
    (setTimeState 3 (advanceTo (s.net.holdSince + 1000000000 * rd s ONL_PTP_CFG_holdover) s))) := by
  show execHoldoverExpiry s = _
  simp only [execHoldoverExpiry, hholds, ne_eq, not_true_eq_false, if_false, done]

/-- R399: the vault's clock set in SYNC. -/
theorem exec_rtcSync_due (hsync : rd s ONL_TIME_STAT_state = 1) : exec .rtcSync s = .next (settle 4
    (rtcSync 3600000000000 (advanceTo (Tab.get 0 s.pumpLast 9 + 3600000000000) s))) := by
  show execRtcSync s = _
  simp only [execRtcSync, hsync, ne_eq, not_true_eq_false, if_false, done]

/-! ## The switch (R361, R362) -/

section
variable {f : EthFrame} (hpower : domainOn s 6 = true) (hup : rdB s (ONL_PORT_STAT_up f.port.val) = true)
include hpower hup

/-- R362: a frame without the protection that its port requires. -/
theorem exec_ethernetFrameRx_unprotected (hport : f.port.val < 6) (hmacsec : rdB s (ONL_PORT_CFG_macsec f.port.val) = true) (hprotect : f.protect = false) :
    exec (.ethernetFrameRx f) s = .next (settle 4
      (record0 Src.ONL_MACSEC none [f.port.val] (incSat (ONL_PORT_MACSEC_ERR_count f.port.val) 1 s))) := by
  show execEthernetFrameRx f s = _
  simp only [execEthernetFrameRx, hpower, hport, hup, hmacsec, hprotect, Bool.true_eq_false, and_false, or_self, and_self, if_false,
    if_true, done]

/-- R361: a frame on a port without MACsec that is no Onader frame. -/
theorem exec_ethernetFrameRx_forwarded (hmacsec : rdB s (ONL_PORT_CFG_macsec f.port.val) = false) (honader : f.onader = none) :
    exec (.ethernetFrameRx f) s = .next (settle 4 ((egress (switchLearn f s) f).foldl
      (fun s q => if q < 6 ∧ bit f.full.toNat q = true then incSat (ONL_PORT_STAT_drops q) 1 s else s) (switchLearn f s))) := by
  show execEthernetFrameRx f s = _
  simp only [execEthernetFrameRx, hpower, hup, hmacsec, honader, Bool.true_eq_false, Bool.false_eq_true, false_and, and_false, or_self,
    if_false, done]

end

/-- R361: the start of the gate control list that waits for a port. -/
theorem exec_qbvListStart_waiting {g : GateList} (hwaiting : Tab.get none s.net.gatesNext p = some g) :
    exec (.qbvListStart p) s = .next (setNet (fun v => { v with
      gates := v.gates.put p (some g), gatesNext := v.gatesNext.put p none }) (advanceDevice 8 g.start s)) := by
  show execQbvListStart p s = _
  simp only [execQbvListStart, hwaiting]

end

/-- Settles O29: each step is taken where its conditions hold. -/
theorem timeAndSwitchComplete : Obligations.TimeAndSwitchComplete := by
  unfold Obligations.TimeAndSwitchComplete
  exact ⟨fun p s => exec_onlLink_up, fun p s => exec_onlLink_down, fun p d a s => exec_ptpAnnounce_heard,
    fun p d i o f s b => exec_ptpSync_steps, fun s s2 => exec_ptpSyncTimeout_holds, fun s => exec_holdoverExpiry_due,
    fun s => exec_rtcSync_due, fun f s hpower hport hup => exec_ethernetFrameRx_unprotected hpower hup hport,
    fun f s hpower _ hup => exec_ethernetFrameRx_forwarded hpower hup,
    fun p s g => exec_qbvListStart_waiting⟩

/-! ## The timers of Onader traffic, and exported events (R371 to R373, R376, R381) -/

section
variable {s : State}

/-- R371: a peer in the table that is no longer heard. -/
theorem exec_peerTimeout_due {d : Fin 16384} {p : Peer} (hpeer : s.net.peers.find? (fun p => p.device == d.val) = some p) :
    exec (.peerTimeout d) s = .next (settle 4 (peerLeaves d (advanceTo (p.heard + 3000000000) s))) := by
  show execPeerTimeout d s = _
  simp only [execPeerTimeout, hpeer, done]

/-- R371: the duplicate is no longer heard. -/
theorem exec_duplicateClear_due (hdup : rdB s ONL_STATUS_dup = true) :
    exec .duplicateClear s = .next (settle 4 (wr ONL_STATUS_dup 0 (advanceTo (s.net.dupAt + 5000000000) s))) := by
  show execDuplicateClear s = _
  simp only [execDuplicateClear, hdup, if_true, done]

/-- R373: the effective time of a schedule that is held. -/
theorem exec_schedApply_due {i : Fin 8} {x : Sched} {own : Bool} (hheld : schedNext s i = some (x, own)) :
    exec (.schedApply i) s = .next (settle 4 (schedApply i x own (advanceDevice 8 x.effective s))) := by
  show execSchedApply i s = _
  simp only [execSchedApply, hheld, done]

/-- R376: the only picture in reassembly is submitted as far as it has come. -/
theorem exec_rxTimeout_only {n : Fin 65536} {r : RxStream} {p : RxPic} (hstream : s.net.rx.find? (fun r => r.stream == n.val) = some r)
    (hasm : r.asm = [p]) :
    exec (.rxTimeout n) s = .next (settle 4 (raiseLine r.polder 59 (record0 Src.ONL_RX_INCOMPLETE (some r.polder)
      (r.stream :: twoWords p.time) (rxSubmit { r with incomplete := r.incomplete + 1 } p (advanceTo (p.first + 1000000 * r.timeout) s))))) := by
  show execRxTimeout n s = _
  simp only [execRxTimeout, hstream, hasm, List.foldl_nil, done]

/-- R381: the records that are due, where there are any. -/
theorem exec_eventExportSend_due {a port m : Nat} {due : List (Nat × EvRec)} (hto : s.net.exportTo = some (a, port, m))
    (hdue : due = s.evr.exportQ.filter (fun e => decide (m ≤ e.2.sev))) (hsome : due ≠ []) :
    exec .eventExportSend s = .next (settle 4 (exportSend 2 1 ((due.take 40).flatMap (fun e => e.2.bytes))
      { s with evr := { s.evr with exportQ := due.drop 40 } })) := by
  have htake : (due.take 40).isEmpty = false := by
    cases due with
    | nil => exact absurd rfl hsome
    | cons e t => rfl
  show execEventExportSend s = _
  simp only [execEventExportSend, hto, ← hdue, htake, Bool.false_eq_true, if_false, done]

end

/-- Settles O30: each frame that is not discarded is acted on (`onlFrame_taken`), and each timer's step is taken where its conditions hold. -/
theorem onaderComplete : Obligations.OnaderComplete := by
  unfold Obligations.OnaderComplete
  refine ⟨?helloSend, fun h len x s hcls hpower htaken => onlFrame_taken hcls hpower htaken (.inr ⟨by decide, by decide⟩),
    fun h len x s hcls hpower htaken => onlFrame_taken hcls hpower htaken (.inr ⟨by decide, by decide⟩),
    fun h payload s hcls hpower htaken hquiet => onlFrame_taken hcls hpower htaken (.inl hquiet),
    fun h len n s hcls hpower htaken hquiet => onlFrame_taken hcls hpower htaken (.inl hquiet), fun d s p => exec_peerTimeout_due,
    fun s => exec_duplicateClear_due, ?schedSend, fun i s x own => exec_schedApply_due, fun n s r p => exec_rxTimeout_only,
    fun s a port m due => exec_eventExportSend_due⟩
  case helloSend =>
    rintro s s1 rfl
    rfl
  case schedSend =>
    rintro s s1 rfl
    rfl

end Sys2Proof.Proofs

/-! PROOFS. The remote manager's session, and the network commands. -/
namespace Sys2Proof.Proofs
open Sys2Proof Sys2Proof.Machine

/-! ## The remote manager's session (R379, R380, Table ONL-6) -/

section
variable {h : OnaderHeader} {p : List (BitVec 8)} {q : List Nat} {s : State} {m : MgrSes}

/-- Table ONL-6: a frame of the row's kind that is not discarded. -/
theorem mgrRow_taken {kind : Nat} {eff : List Nat → State → State} (hq : q = p.map (fun b => b.toNat)) (hkind : payWord q 0 = kind)
    (hcls : onlClass h = clsMgr) (hpower : domainOn s 6 = true) (htaken : onlDiscards s h p.length = false) :
    mgrRow kind h p eff s = .next (settle 4 (eff q s)) := by
  subst hq
  have hlength : (p.map (fun b => b.toNat)).length = p.length := List.length_map ..
  simp only [mgrRow, hkind, hlength, ne_eq, not_true_eq_false, if_false]
  exact onlFrame_taken hcls hpower htaken (.inr ⟨by decide, by decide⟩)

/-- Table ONL-6 steps 3 and 4: the confirmation of a session's challenge. -/
theorem mgrConfirm_authentic (hses : s.net.mgr = some m) (hdown : m.up = false) (hsource : m.source = onlSource h) (hword : m.word = payWord q 1)
    (htime : s.now ≤ m.challenged + 1000000000) (htag : tagOf q = mgrTag m.key (onlBytes h) (unTagged q)) :
    mgrConfirm h q s = mgrHead (record0 Src.ONL_MGR_SESSION none [1] (wr ONL_STATUS_mgr 1
      (setNet (fun v => { v with mgr := some { m with up := true, valid := s.now } }) s))) := by
  simp only [mgrConfirm, hses, hdown, ← hsource, ← hword, ← htag, Nat.not_lt.mpr htime, ne_eq, not_true_eq_false, or_self,
    Bool.false_eq_true, if_false]

/-- R380: an authentic frame of the session that is up, acted on unless its number is below the last accepted. -/
theorem mgrInSession_authentic {kind : Nat} {act : MgrSes → State → State} (hup : mgrUp s = some m) (hsource : m.source = onlSource h)
    (hword : m.word = payWord q 1) (htag : tagOf q = mgrTag m.key (onlBytes h) (unTagged q))
    (hseq : kind = 5 ∨ m.rxSeq.getD 0 ≤ payWord q 2) :
    mgrInSession kind h q act s = act { m with valid := s.now } (setNet (fun v => { v with mgr := some { m with valid := s.now } }) s) := by
  have hnew : ¬ (kind ≠ 5 ∧ payWord q 2 < m.rxSeq.getD 0) := by omega
  simp only [mgrInSession, hup, ← hsource, ← hword, ← htag, hnew, ne_eq, not_true_eq_false, or_self, if_false]

/-- R380: a frame that only keeps its session alive does so whatever its number. -/
theorem mgrInSession_idle {kind : Nat} (hup : mgrUp s = some m) (hsource : m.source = onlSource h) (hword : m.word = payWord q 1)
    (htag : tagOf q = mgrTag m.key (onlBytes h) (unTagged q)) :
    mgrInSession kind h q (fun _ s => s) s = setNet (fun v => { v with mgr := some { m with valid := s.now } }) s := by
  simp only [mgrInSession, hup, ← hsource, ← hword, ← htag, ne_eq, not_true_eq_false, or_self, if_false, ite_self]

/-- R380: a message that has been sent and not acknowledged is sent again. -/
theorem exec_mgrResend_due (hup : mgrUp s = some m) (hsent : 1 ≤ m.tries) (htries : m.tries ≤ 10) :
    exec .mgrResend s = .next (settle 4 (mgrHead (advanceTo (m.sentAt + 100000000) s))) := by
  show execMgrResend s = _
  simp only [execMgrResend, hup, hsent, htries, and_self, if_true, done]

/-- R380: a session without valid frames ends. -/
theorem exec_mgrSessionTimeout_due (hup : mgrUp s = some m) :
    exec .mgrSessionTimeout s = .next (settle 4 (mgrEnd (advanceTo (m.valid + 2000000000) s))) := by
  show execMgrSessionTimeout s = _
  simp only [execMgrSessionTimeout, hup, done]

end

/-- Settles O31: each frame is taken (`mgrRow_taken`), and what it does is the case its hypotheses name. -/
theorem managerSessionComplete : Obligations.ManagerSessionComplete := by
  unfold Obligations.ManagerSessionComplete
  refine ⟨fun h a p s hkind hcls hpower htaken => mgrRow_taken rfl hkind hcls hpower htaken, ?confirm, ?message, ?ack, ?keepalive, ?close,
    fun s m => exec_mgrResend_due, fun s m => exec_mgrSessionTimeout_due⟩
  case confirm =>
    intro h p s m q hq hkind hcls hpower htaken hses hdown hsource hword htime htag
    show mgrRow 3 h p (mgrConfirm h) s = _
    rw [mgrRow_taken hq hkind hcls hpower htaken, mgrConfirm_authentic hses hdown hsource hword htime htag]
  case message =>
    intro h p s m q hq hkind hcls hpower htaken hup hsource hword htag hseq
    show mgrRow 4 h p (fun p => mgrInSession 4 h p (mgrPush p)) s = _
    rw [mgrRow_taken hq hkind hcls hpower htaken, mgrInSession_authentic hup hsource hword htag (.inr hseq)]
  case ack =>
    intro h p s m q hq hkind hcls hpower htaken hup hsource hword htag
    show mgrRow 5 h p (fun p => mgrInSession 5 h p (mgrAcked p)) s = _
    rw [mgrRow_taken hq hkind hcls hpower htaken, mgrInSession_authentic hup hsource hword htag (.inl rfl)]
  case keepalive =>
    intro h p s m q hq hkind hcls hpower htaken hup hsource hword htag
    show mgrRow 6 h p (fun p => mgrInSession 6 h p (fun _ s => s)) s = _
    rw [mgrRow_taken hq hkind hcls hpower htaken, mgrInSession_idle hup hsource hword htag]
  case close =>
    intro h p s m q hq hkind hcls hpower htaken hup hsource hword htag hseq
    show mgrRow 7 h p (fun p => mgrInSession 7 h p (fun _ s => mgrEnd s)) s = _
    rw [mgrRow_taken hq hkind hcls hpower htaken, mgrInSession_authentic hup hsource hword htag (.inr hseq)]

/-! ## The network commands' own rules (Table ONL-8) -/

section
variable {q : Req} {s : State}

/-- A group whose schedule is in force. -/
theorem netGetGroup_inForce {i : Nat} (hplace : schedInForce s (bits (q.w 2) 15 0) = some i) :
    netGetGroup q s = okR ([rd s (ONL_GRP_ID_group i) + 65536 * rd s (ONL_GRP_ID_valid i) + 131072 * rd s (ONL_GRP_ID_owner i),
      rd s (ONL_GRP_RATE_mhz i), rd s (ONL_GRP_PHASE_ns i), rd s (ONL_GRP_LATENCY_us i), rd s (ONL_GRP_VERSION_version i)] ++
        twoWords (rd s (ONL_GRP_EFFECTIVE_time i))) s := by
  simp only [netGetGroup, hplace]

/-- R378: a receive stream of a polder that the sender may read. -/
theorem netGetStream_bound {r : RxStream} (hstream : rxStream s (bits (q.w 2) 15 0) = some r) (hread : q.mayReadPolder s r.polder = true) :
    netGetStream q s = okR [r.lateness, r.pictures, r.incomplete, r.dropped] s := by
  simp only [netGetStream, hstream, hread, if_true]

/-- R375: a transmit stream bound to the sender's polder, on a device with an identity. -/
theorem netSetTxStream_binds {p w n : Nat} (hpol : q.polder = some p) (hw : w = refWord q s 0) (hn : n = bits w 15 0) (hn0 : n ≠ 0)
    (hforeign : (s.net.tx.any (fun t => t.stream == n && t.polder != p)) = false) (hbind : bit w 16 = true)
    (hidentity : s.net.identity.isSome = true) :
    netSetTxStream q s = did (setNet (fun v => { v with
      tx := s.net.tx.filter (fun t => t.stream != n) ++ [⟨n, p, refAddr q s 4, bits w 25 20, bits w 19 17⟩] }) s) := by
  have hsome : s.net.identity.isNone = false := by rw [← Option.not_isSome, hidentity]; rfl
  simp only [netSetTxStream, hpol, ← hw, ← hn, hn0, hforeign, hbind, hsome, Bool.not_true, Bool.false_eq_true, if_false]

/-- R376: a receive stream of the sender's polder, or of none, unbound. -/
theorem netSetRxStream_unbinds {p w n : Nat} (hpol : q.polder = some p) (hw : w = refWord q s 0) (hn : n = bits w 15 0) (hn0 : n ≠ 0)
    (htimeout : bits (refWord q s 1) 25 16 ≤ 1000) (hforeign : (s.net.rx.any (fun r => r.stream == n && r.polder != p)) = false)
    (hunbind : bit w 22 = false) :
    netSetRxStream q s = did (setNet (fun v => { v with rx := s.net.rx.filter (fun r => r.stream != n) }) s) := by
  simp only [netSetRxStream, hpol, ← hw, ← hn, hn0, Nat.not_lt.mpr htimeout, hforeign, hunbind, or_self, Bool.not_false, Bool.false_eq_true,
    if_false, if_true]

/-- R378: the counters of a stream of the sender's polder. -/
theorem netClearStream_bound {r : RxStream} (hstream : rxStream s (bits (q.w 2) 15 0) = some r) (howner : q.polder = some r.polder) :
    netClearStream q s = did (putRx { r with lateness := 0, pictures := 0, incomplete := 0, dropped := 0 } s) := by
  simp only [netClearStream, hstream, howner, ne_eq, not_true_eq_false, if_false]

/-- R370: the identity that is held already. -/
theorem netSetIdentity_held {w : Nat → Nat} {i : Identity} (hw : w = refWord q s)
    (hi : i = ⟨w 0, w 1, w 2, w 3, refAddr q s 16, refAddr q s 32⟩) (h0 : w 0 ≤ 16383) (h1 : w 1 ≤ 65535) (h2 : w 2 ≤ 4094)
    (hheld : s.net.identity = some i) (hdevice : ownDevice s = w 0) :
    netSetIdentity q s = did (wr ONL_ID_system (w 1) (wr ONL_ID_set 1 (wr ONL_ID_device (w 0)
      (setNet (fun v => { v with identity := some i }) s)))) := by
  simp only [netSetIdentity, ← hw, ← hi, Nat.not_lt.mpr h0, Nat.not_lt.mpr h1, Nat.not_lt.mpr h2, hheld, hdevice, or_self, if_false, if_true]

/-- R360: a port whose link is down, while no master is heard. -/
theorem netSetPort_down {p w : Nat} (hp : p = bits (q.w 2) 2 0) (hw : w = q.w 3) (hspeed : portSpeedOk p (bits w 3 1) = true)
    (hmaster : bestMaster s = none) (hdown : rdB s (ONL_PORT_STAT_up p) = false) (hptp : bit w 5 = true) :
    netSetPort q s = did (takeEffect [ONL_PORT_CFG_enable p, ONL_PORT_CFG_speed p, ONL_PORT_CFG_phy_delay p]
      (wr (ONL_PORT_CFG_phy_delay p) (bits w 31 16) (wr (ONL_PORT_CFG_ptp p) (bits w 5 5) (wr (ONL_PORT_CFG_macsec p) (bits w 4 4)
        (wr (ONL_PORT_CFG_speed p) (bits w 3 1) (wr (ONL_PORT_CFG_enable p) (bits w 0 0) s)))))) := by
  simp only [netSetPort, ← hp, ← hw, hspeed, hmaster, hdown, hptp, ptpProtected, Bool.not_true, Bool.false_and, Bool.and_false,
    Bool.false_eq_true, if_false, if_true]

/-- R364, R383: settings in range, while the network is not claimed. -/
theorem netSetPtp_unclaimed {w hold : Nat} {s1 : State} (hw : w = q.w 2) (hhold : hold = bits w 27 16) (hlo : 1 ≤ hold) (hhi : hold ≤ 3600)
    (hstepLo : 1000 ≤ q.w 3) (hstepHi : q.w 3 ≤ 1000000000) (hfree : claimed s blkSwitch = false)
    (hs1 : s1 = wr ONL_PTP_STEP_TH_ns (q.w 3) (wr ONL_PTP_CFG_holdover hold (wr ONL_PTP_CFG_domain (bits w 15 8) (wr ONL_PTP_CFG_p2p (bits w 2 2)
      (wr ONL_PTP_CFG_mode (bits w 1 0) s))))) :
    netSetPtp q s = did (setMasters (if bits w 1 0 != 0 && bits w 15 8 == rd s ONL_PTP_CFG_domain then s1.net.masters else []) s1) := by
  simp only [netSetPtp, ← hw, ← hhold, Nat.not_lt.mpr hlo, Nat.not_lt.mpr hhi, Nat.not_lt.mpr hstepLo, Nat.not_lt.mpr hstepHi, ptpProtected,
    hfree, ← hs1, Bool.and_false, Bool.false_and, Bool.false_eq_true, or_self, if_false]

/-- R362: an association of a port, in place of the one with its SCI and number. -/
theorem netSetMacsec_valid {w : Nat → Nat} {sa : MacsecSa} (hw : w = refWord q s) (h0 : w 0 ≤ 5) (h1 : w 1 ≤ 3) (h2 : w 2 ≤ 1)
    (hsa : sa = ⟨w 0, readNat s (q.bufAddr + 16) 8, w 1, w 2, readBytes s (q.bufAddr + 32) 32, readNat s (q.bufAddr + 24) 8⟩) :
    netSetMacsec q s = did (setNet (fun v => { v with
      macsec := v.macsec.filter (fun x => !(x.port == sa.port && x.sci == sa.sci && x.an == sa.an)) ++ [sa] }) s) := by
  simp only [netSetMacsec, ← hw, Nat.not_lt.mpr h0, Nat.not_lt.mpr h1, Nat.not_lt.mpr h2, or_self, if_false, hsa]

/-- R361: a gate control list for a port, of 1 to 256 entries that the buffer holds. -/
theorem netSetQbv_valid {w : Nat → Nat} {g : GateList} (hw : w = refWord q s)
    (hform : ¬ (5 < w 0 ∨ 256 < w 1 ∨ w 1 = 0 ∨ w 4 = 0 ∨ q.bufSize < 24 + 8 * w 1))
    (hg : g = ⟨readNat s (q.bufAddr + 8) 8, w 4, (List.range (w 1)).map (fun i => (w (6 + 2 * i) % 256, w (7 + 2 * i)))⟩) :
    netSetQbv q s = did (setNet (fun v => { v with gatesNext := v.gatesNext.put (w 0) (some g) }) s) := by
  simp only [netSetQbv, ← hw, if_neg hform, hg]

/-- R372, R374: a schedule in range, far enough ahead, of a group that no other device owns. -/
theorem netSetGroup_valid {g rate effective i : Nat} (hg : g = bits (q.w 2) 15 0) (hrate : rate = q.w 3)
    (heffective : effective = q.w 6 + 4294967296 * q.w 7) (hset : bit (q.w 2) 17 = false)
    (hform : ¬ (rate < 1000 ∨ 240000 < rate ∨ 1000000000000 ≤ q.w 4 * rate ∨ 10000000 < q.w 5)) (hforeign : foreignOwner s g = false)
    (hahead : s.devTime + 100000000 ≤ effective) (hplace : groupPlace s g = some i) :
    netSetGroup q s = did (schedSend i (setNext i
      (some (⟨g, rate, q.w 4, q.w 5, effective, (versionOf s i + 1) % 2 ^ 32⟩, bit (q.w 2) 16)) s)) := by
  simp only [netSetGroup, ← hg, ← hrate, ← heffective, hset, if_neg hform, hforeign, Nat.not_lt.mpr hahead, hplace, Bool.and_false,
    Bool.false_eq_true, or_self, if_false]

/-- R381: the destination of exported events, on a device with an identity. -/
theorem netSetExport_identified (hidentity : s.net.identity.isSome = true) :
    netSetExport q s = did (setNet (fun v => { v with
      exportTo := if refAddr q s 4 = 0 then none else some (refAddr q s 4, bits (refWord q s 0) 15 0, bits (refWord q s 0) 19 16) }) s) := by
  have hsome : s.net.identity.isNone = false := by rw [← Option.not_isSome, hidentity]; rfl
  simp only [netSetExport, hsome, Bool.false_eq_true, if_false]

end

/-- Settles O32: each command is served once it is asked for, and its rules are the case its hypotheses name. -/
theorem networkCommandsComplete : Obligations.NetworkCommandsComplete := by
  unfold Obligations.NetworkCommandsComplete
  refine ⟨fun k m s hask => serve_ok hask rfl, fun k m s hask => serve_ok hask rfl, ?getGroup, ?getStream, ?tx, ?rx, ?clear, ?identity, ?port,
    ?ptp, ?macsec, ?qbv, ?group, ?toAddress, fun k m s hask => serve_ok hask rfl⟩
  case getGroup =>
    intro k m s i hask hplace
    exact serve_ok hask (netGetGroup_inForce (q := ⟨k, m⟩) (s := taken k s) hplace)
  case getStream =>
    intro k m s r hask hstream hread
    exact serve_ok hask (netGetStream_bound (q := ⟨k, m⟩) (s := taken k s) hstream hread)
  case tx =>
    intro k m s p w n hask hpol hw hn hn0 hforeign hbind hidentity
    exact serve_ok hask (netSetTxStream_binds (q := ⟨k, m⟩) (s := taken k s) hpol hw hn hn0 hforeign hbind hidentity)
  case rx =>
    intro k m s p w n hask hpol hw hn hn0 htimeout hforeign hunbind
    exact serve_ok hask (netSetRxStream_unbinds (q := ⟨k, m⟩) (s := taken k s) hpol hw hn hn0 htimeout hforeign hunbind)
  case clear =>
    intro k m s r hask hstream howner
    exact serve_ok hask (netClearStream_bound (q := ⟨k, m⟩) (s := taken k s) hstream howner)
  case identity =>
    intro k m s w i hask hw hi h0 h1 h2 hheld hdevice
    exact serve_ok hask (netSetIdentity_held (q := ⟨k, m⟩) (s := taken k s) hw hi h0 h1 h2 hheld hdevice)
  case port =>
    intro k m s p w hask hp hw hspeed hmaster hdown hptp
    exact serve_ok hask (netSetPort_down (q := ⟨k, m⟩) (s := taken k s) hp hw hspeed hmaster hdown hptp)
  case ptp =>
    intro k m s s1 w hold hask hw hhold hlo hhi hstepLo hstepHi hfree hs1
    exact serve_ok hask (netSetPtp_unclaimed (q := ⟨k, m⟩) (s := taken k s) hw hhold hlo hhi hstepLo hstepHi hfree hs1)
  case macsec =>
    intro k m s w sa hask hw h0 h1 h2 hsa
    exact serve_ok hask (netSetMacsec_valid (q := ⟨k, m⟩) (s := taken k s) hw h0 h1 h2 hsa)
  case qbv =>
    intro k m s w g hask hw h0 h1lo h1hi h4 hsize hg
    exact serve_ok hask (netSetQbv_valid (q := ⟨k, m⟩) (s := taken k s) hw (by omega) hg)
  case group =>
    intro k m s g rate effective i hask hg hrate heffective hset hlo hhi hphase hlatency hforeign hahead hplace
    exact serve_ok hask (netSetGroup_valid (q := ⟨k, m⟩) (s := taken k s) hg hrate heffective hset
      (by simp only [not_or, Nat.not_lt, Nat.not_le]; exact ⟨hlo, hhi, hphase, hlatency⟩) hforeign hahead hplace)
  case toAddress =>
    intro k m s hask hidentity
    exact serve_ok hask (netSetExport_identified (q := ⟨k, m⟩) (s := taken k s) hidentity)

end Sys2Proof.Proofs

/-! PROOFS. The event recorder, the vault and the check-value unit. -/
namespace Sys2Proof.Proofs
open Sys2Proof Sys2Proof.Machine

/-! ## The recorder's own steps (R390, R393, R395) -/

section
variable {s : State}

/-- R390: the bucket of a rate-limited code with suppressed occurrences holds one record again. -/
theorem exec_weirSummary_due {c : Fin 4096} {s1 : State} {w : Weir} (hw : w = weirOf s c) (hmode : w.mode = 1) (hcount : w.count ≠ 0)
    (hrate : w.rate ≠ 0) (hstarted : s.evr.started = true)
    (hs1 : s1 = advanceDevice 8 (w.last + (weirOne - w.level + w.rate - 1) / w.rate) s) :
    exec (.weirSummary c) s = .next (settle 4 (weirSummaryDue c (setWeir c ((weirOf s1 c).refill s1.devTime) s1))) := by
  show execWeirSummary c s = _
  simp only [execWeirSummary, ← hw, hmode, hcount, hrate, hstarted, ← hs1, ne_eq, not_true_eq_false, Bool.not_true, Bool.false_eq_true,
    or_self, if_false, done]

/-- R393: the end of a freeze whose thaw has not come. -/
theorem exec_freezeTimeout_frozen (hfrozen : s.evr.frozen = true) :
    exec .freezeTimeout s = .next (settle 4 (thaw 0 (advanceTo s.evr.freezeEnd s))) := by
  show execFreezeTimeout s = _
  simp only [execFreezeTimeout, hfrozen, Bool.not_true, Bool.false_eq_true, if_false, done]

/-- R395: a block's worth of records waits for the archive. -/
theorem exec_archiveBlockWrite_waiting (hset : s.evr.archive.isSet = true)
    (hwaiting : max 1 (Config.archiveRecords s.evr.archive.medium) ≤ s.evr.archive.waiting.length) :
    exec .archiveBlockWrite s = .next (settle 4 (pumpRan 7 0 (archiveOne (archiveLost s)))) := by
  show execArchiveBlockWrite s = _
  simp only [execArchiveBlockWrite, hset, Nat.not_lt.mpr hwaiting, decide_false, Bool.not_true, Bool.or_self, Bool.false_eq_true, if_false,
    done]

/-! ## The recorder's commands (Table EVR-5) -/

section
variable {q : Req}

/-- R388: the records that the sender may receive, where there are any. -/
theorem readRing_some {n : Nat} {rs : List EvRec} {r : EvRec} (hn : n = readNat s (q.bufAddr + 4) 4) (hlo : 1 ≤ n) (hhi : n ≤ 65536)
    (hrs : rs = ((ringFrom s (readNat s q.bufAddr 4)).filter (fun r => sees s q r.polder r.secure)).take (min n ((q.bufSize - 32) / 32)))
    (hhead : rs.head? = some r) :
    readRing q s = okR [r.seq, rs.length] (devPut 0 (q.bufAddr + 32) (rs.flatMap EvRec.bytes) s) := by
  have hcons : rs = r :: rs.tail := List.eq_cons_of_mem_head? hhead
  simp only [readRing, ← hn, Nat.ne_of_gt hlo, Nat.not_lt.mpr hhi, or_self, if_false, ← hrs]
  rw [hcons]

/-- R392, R410: an entry in range that the command may set. -/
theorem setWeirCmd_valid {secure : Bool} {c mode rate burst : Nat} (hc : c = bits (q.w 2) 11 0) (hmode : mode = bits (q.w 2) 13 12)
    (hrate : rate = bits (q.w 3) 15 0) (hburst : burst = bits (q.w 3) 23 16) (hallowed : (!secure && protectedCode c) = false)
    (hform : ¬ (mode = 3 ∨ (mode = 1 ∧ (rate = 0 ∨ burst = 0)) ∨ (mode = 2 ∧ protectedCode c = true))) :
    setWeirCmd secure q s = did (weirSet c mode rate burst s) := by
  simp only [setWeirCmd, ← hc, ← hmode, ← hrate, ← hburst, hallowed, if_neg hform, Bool.false_eq_true, if_false]

/-- R393: a freeze, for a time in range, of a ring that is not frozen. -/
theorem freezeCmd_freezes {ms : Nat} (hfreeze : bit (q.w 2) 0 = true) (hms : ms = bits (q.w 2) 29 16) (hlo : 1 ≤ ms) (hhi : ms ≤ 10000)
    (hthawed : s.evr.frozen = false) : freezeCmd q s = did (freeze ms 0 s) := by
  simp only [freezeCmd, hfreeze, ← hms, Nat.ne_of_gt hlo, Nat.not_lt.mpr hhi, hthawed, or_self, Bool.false_eq_true, if_false, if_true]

/-- R393: the thaw of a ring that is frozen. -/
theorem freezeCmd_thaws (hthaw : bit (q.w 2) 0 = false) (hfrozen : s.evr.frozen = true) : freezeCmd q s = did (thaw 0 s) := by
  simp only [freezeCmd, hthaw, hfrozen, Bool.false_eq_true, if_false, if_true]

/-- The number of the record in slot 0 of the ring, 0 where none is. -/
def slotZeroSeq (s : State) : Nat := match s.evr.ring.find? (fun r => r.seq % 65536 == 0) with | some r => r.seq | none => 0

/-- The 65,536 slots of a frozen ring copied to the buffer of a request. -/
def ringCopied (q : Req) (s : State) : State :=
  (List.range 65536).foldl (fun t i => devPut 0 (q.bufAddr + 32 * i)
    (Tab.get (List.replicate 32 0) (ringImage (q.polder == some 0) s) i) t) s

/-- R394: a snapshot of a ring that is not frozen: frozen and copied before the reply that it is pending, thawed after. -/
theorem snapshotCmd_thawed (hthawed : s.evr.frozen = false) :
    snapshotCmd q s =
      pend (ringCopied q (freeze 1 1 s)) (fun t => reply q.job ST_OK [slotZeroSeq (freeze 1 1 s)] (thaw 1 t)) :=
  if_neg (Bool.eq_false_iff.mp hthawed)

/-- R394: the snapshot that a request asks for: its final reply follows the copy that it is pending. -/
theorem exec_evrSnapshot_thawed {k : Fin 32} {m : Msg} (hask : asked Op.EVR_SNAPSHOT k m s = true) (hthawed : s.evr.frozen = false) :
    exec (.evrSnapshot k) s = .next (settle 4 (reply ⟨k, Msg.opcode m, Msg.seq m⟩ ST_OK [slotZeroSeq (freeze 1 1 (taken k s))]
      (thaw 1 (reply ⟨k, Msg.opcode m, Msg.seq m⟩ ST_PENDING [] (ringCopied ⟨k, m⟩ (freeze 1 1 (taken k s))))))) :=
  serve_pend (t := ringCopied ⟨k, m⟩ (freeze 1 1 (taken k s)))
    (f := fun t => reply (Req.job ⟨k, m⟩) ST_OK [slotZeroSeq (freeze 1 1 (taken k s))] (thaw 1 t)) hask
    (snapshotCmd_thawed (q := ⟨k, m⟩) (s := taken k s) hthawed)

/-- R395: a region that its medium can hold (log 42). -/
theorem setArchiveCmd_valid {w : Nat → Nat} (hw : w = (fun i => readNat s (q.bufAddr + 4 * i) 4))
    (hform : ¬ (1 < w 0 ∨ w 2 = 0 ∨ 15 < w 3 ∨ (w 0 = 0 ∧ 0x20000000 < w 1 + w 2))) :
    setArchiveCmd q s = did (wr EVR_ARCH_sev (w 3) (setArchive (fun a =>
      { a with isSet := true, medium := w 0, offset := w 1, size := w 2, next := 0, blocks := [] }) s)) := by
  subst hw
  exact if_neg hform

end

end

/-- Settles O33: each step is taken where its conditions hold, each command is served once it is asked for, and its own rule is the case its
hypotheses name. -/
theorem recorderComplete : Obligations.RecorderComplete := by
  unfold Obligations.RecorderComplete
  refine ⟨fun c s s1 w => exec_weirSummary_due, fun s => exec_freezeTimeout_frozen, fun s => exec_archiveBlockWrite_waiting,
    fun k m s hask => serve_ok hask rfl, ?read, ?getWeir, ?setWeir, ?setSecureWeir, ?freeze, ?thaw, ?snapshot, ?archive,
    fun k m s hask => serve_ok hask rfl⟩
  case read =>
    intro k m s n rs r hask hn hlo hhi hrs hhead
    exact serve_ok hask (readRing_some (q := ⟨k, m⟩) (s := taken k s) hn hlo hhi hrs hhead)
  case getWeir =>
    rintro k m s w hask rfl
    exact serve_ok hask rfl
  case setWeir =>
    intro k m s c mode rate burst hask hc hmode hrate hburst hopen hmode3 hbucket
    exact serve_ok hask (setWeirCmd_valid (q := ⟨k, m⟩) (s := taken k s) hc hmode hrate hburst (by rw [hopen]; rfl)
      (by rw [hopen]; simp only [Bool.false_eq_true, and_false, or_false]; omega))
  case setSecureWeir =>
    intro k m s c mode rate burst hask hc hmode hrate hburst hmodes hbucket
    exact serve_ok hask (setWeirCmd_valid (q := ⟨k, m⟩) (s := taken k s) hc hmode hrate hburst rfl (by omega))
  case freeze =>
    intro k m s ms hask hfreeze hms hlo hhi hthawed
    exact serve_ok hask (freezeCmd_freezes (q := ⟨k, m⟩) (s := taken k s) hfreeze hms hlo hhi hthawed)
  case thaw =>
    intro k m s hask hthaw hfrozen
    exact serve_ok hask (freezeCmd_thaws (q := ⟨k, m⟩) (s := taken k s) hthaw hfrozen)
  case snapshot =>
    rintro k m s s1 hask hthawed rfl
    exact exec_evrSnapshot_thawed hask hthawed
  case archive =>
    intro k m s w hask hw h0 h2 h3 hsize
    exact serve_ok hask (setArchiveCmd_valid (q := ⟨k, m⟩) (s := taken k s) hw (by omega))

/-! ## The vault's steps (R396 to R398, R402, R403) -/

section
variable {s : State}

/-- R397: the oldest record of the vault queue, while the vault is not isolated. -/
theorem exec_vaultQueueWrite_oldest {r : EvRec} {t : List EvRec} (hopen : s.vlt.isolated = false) (hqueue : s.evr.vaultQ = r :: t) :
    exec .vaultQueueWrite s = .next (settle 4 (critPut r.bytes { s with evr := { s.evr with vaultQ := t } })) := by
  show execVaultQueueWrite s = _
  simp only [execVaultQueueWrite, vaultWriteOne, hopen, hqueue, Bool.false_eq_true, if_false, done]

/-- R396: a sync starts while none runs, unless the shadow's change count is odd. -/
theorem startSync_idle (hopen : s.vlt.isolated = false) (hidle : s.vlt.sync = none) :
    startSync s = if readNat s (rdA s VLT_METER_SRC_addr) 4 % 2 = 1 then wr VLT_METER_CTRL_torn 1 s
      else setVlt (fun x => { x with sync := some (shadowWords s) }) s := by
  simp only [startSync, hopen, hidle, Option.isSome_none, Bool.or_self, Bool.false_eq_true, if_false]

/-- R396: the end of a sync while a bank is valid. -/
theorem finishSync_newest {ws : List Nat} {b : Bool} (hsync : s.vlt.sync = some ws) (hnewest : newestBank s.vlt = some b) :
    finishSync s = tookFrees 123 { s with vlt := { putBank (!b)
      (MeterBank.sealed (wrapAdd 32 (bankOf s.vlt b).gen 1) (copied s.free ws (shadowWords s))) s.vlt with sync := none } } := by
  simp only [finishSync, hsync, hnewest, syncTarget, setVlt]

section
variable {mv : BitVec 12} {s1 : State} (hs1 : s1 = advanceTo (Tab.get 0 s.pumpLast 201 + 3600000000000) s)
include hs1

/-- R402: VBAT at 2.2 V or above. -/
theorem exec_vbatMeasure_good (hgood : 2200 ≤ mv.toNat) :
    exec (.vbatMeasure mv) s = .next (settle 4 (setVlt (fun v => { v with vbat := mv.toNat })
      { s1 with pumpLast := s1.pumpLast.put 201 s1.now })) := by
  show execVbatMeasure mv s = _
  simp only [execVbatMeasure, ← hs1, vbatMeasure, Nat.not_lt.mpr hgood, decide_false, Bool.or_false, if_false, done]

/-- R402: VBAT below 2.2 V. -/
theorem exec_vbatMeasure_low (hlow : mv.toNat < 2200) :
    exec (.vbatMeasure mv) s = .next (settle 4 (record0 Src.VLT_BATTERY none [mv.toNat] (setVlt
      (fun v => { v with vbat := mv.toNat, vbatLow := true }) { s1 with pumpLast := s1.pumpLast.put 201 s1.now }))) := by
  show execVbatMeasure mv s = _
  simp only [execVbatMeasure, ← hs1, vbatMeasure, hlow, decide_true, Bool.or_true, if_true, done]

end

/-- R403: the supply fails on a device that is on. -/
theorem exec_powerFail_running {s1 s2 : State} (hfirst : s.vlt.pf = none) (hon : s.pwr.off = 0)
    (hs1 : s1 = cntInc 1 (wr VLT_STAT_pf_active 1 (setVlt (fun v => { v with pf := some s.now }) s)))
    (hs2 : s2 = record0 Src.VLT_PWRFAIL none [s1.vlt.counters.getD 1 0] { s1 with pwr := { s1.pwr with trans := none } }) :
    exec .powerFail s = .next (settle 4 (flushSteps s2)) := by
  show execPowerFail s = _
  simp only [execPowerFail, hfirst, hon, ← hs1, ← hs2, Option.isSome_none, Bool.false_eq_true, ne_eq, not_true_eq_false, or_self, if_false,
    done]

/-! ## The vault's registers (R396, R400, R401) -/

section
variable {a : Access} {addr : BitVec 40} {v : BitVec 32} (hadm : admitted a addr.toNat v.toNat s = true)
include hadm

/-- R396: an admitted write of VLT_METER_CTRL that asks for a sync and clears nothing. -/
theorem exec_vltMeterSync_starts (haddr : addr.toNat = 0x20050020) (hsync : bit v.toNat 0 = true) (hkeep : bit v.toNat 2 = false) :
    exec (.vltMeterSync a addr v) s = .next (settle 4 (startSync s)) := by
  refine (regWrite_admitted (eff := fun _ s => meterCtrlWrite v.toNat s) (beq_iff_eq.mpr haddr) hadm).trans ?_
  simp only [meterCtrlWrite, hsync, hkeep, Bool.false_eq_true, if_false, if_true]

/-- R400: an admitted write that names a counter of its writer's. -/
theorem exec_vltCntInc_allowed (haddr : addr.toNat = 0x200500A0) (hmay : vltMay (carried s a addr.toNat) (bits v.toNat 2 0) = true) :
    exec (.vltCntInc a addr v) s = .next (settle 4 (cntInc (bits v.toNat 2 0) s)) := by
  show execVltCntInc a addr v s = _
  unfold execVltCntInc
  rw [regWrite_admitted (beq_iff_eq.mpr haddr) hadm, if_pos hmay]

/-- R401: an admitted write that extends a slot of its writer's. -/
theorem exec_vltExtGo_allowed (haddr : addr.toNat = 0x20050320) (hgo : bit v.toNat 31 = true)
    (hmay : vltMay (carried s a addr.toNat) (bits v.toNat 2 0) = true) :
    exec (.vltExtGo a addr v) s = .next (settle 4 (extend (bits v.toNat 2 0) (extData s) s)) := by
  show execVltExtGo a addr v s = _
  unfold execVltExtGo
  rw [regWrite_admitted (beq_iff_eq.mpr haddr) hadm, hgo, if_pos hmay]
  rfl

end

end

/-- Settles O34: each step is taken where its conditions hold, each write is admitted, each command is served once it is asked for, and its
own rule is the case its hypotheses name. -/
theorem vaultComplete : Obligations.VaultComplete := by
  unfold Obligations.VaultComplete
  refine ⟨fun s r t => exec_vaultQueueWrite_oldest, ?meterSync, ?syncDone, fun a addr v s => exec_vltCntInc_allowed,
    fun a addr v s => exec_vltExtGo_allowed, ?tamper, fun mv s s1 hgood hs1 => exec_vbatMeasure_good hs1 hgood,
    fun mv s s1 hlow hs1 => exec_vbatMeasure_low hs1 hlow, fun s s1 s2 => exec_powerFail_running, fun k m s hask => serve_ok hask rfl,
    fun k m s hask => serve_ok hask rfl, fun k m s hask => serve_ok hask rfl, fun k m s hask => serve_ok hask rfl, ?meters, ?noMeters⟩
  case meterSync =>
    intro a addr v s hadm haddr hsync hkeep hopen hidle
    rw [exec_vltMeterSync_starts hadm haddr hsync hkeep, startSync_idle hopen hidle]
  case syncDone =>
    rintro s ws b x hsync hnewest rfl
    exact congrArg (fun t => Host.Outcome.next (settle 4 t)) (finishSync_newest hsync hnewest)
  case tamper =>
    rintro pins s s1 s2 rfl rfl
    rfl
  case meters =>
    intro k m s b hask hnewest
    have hbank : newestBank (taken k s).vlt = some b := hnewest
    refine serve_ok hask ?_
    simp only [hbank, okR]
    rfl
  case noMeters =>
    intro k m s hask hnewest
    have hbank : newestBank (taken k s).vlt = none := hnewest
    refine serve_ok hask ?_
    simp only [hbank, okR]

/-! ## The check-value unit's registers and job ends (R404, R405, R407, R408) -/

section
variable {a : Access} {c : Fin 8} {addr : BitVec 40} {v : BitVec 32} {s : State} (hadm : admitted a addr.toNat v.toNat s = true)
  (haddr : addr.toNat = 0x20040050 + 0x100 * c.val)
include hadm haddr

/-- R404: an admitted write of a channel's start register that asks for go. -/
theorem exec_cvuStart_admitted (hgo : bit v.toNat 0 = true) :
    exec (.cvuStart a addr v) s = .next (settle 4 (startWrite c v.toNat s)) := by
  have hreg : startReg addr.toNat = some c.val := haddr ▸ startReg_of c
  show execCvuStart a addr v s = _
  simp only [execCvuStart, hreg, Option.getD_some]
  exact regWrite_admitted (by rw [hgo]; rfl) hadm

/-- R408: an admitted write of a channel's start register that asks for an abort. -/
theorem exec_cvuStartAbort_admitted (habort : bit v.toNat 1 = true) :
    exec (.cvuStartAbort a addr v) s = .next (settle 4 (startWrite c v.toNat s)) := by
  have hreg : startReg addr.toNat = some c.val := haddr ▸ startReg_of c
  show execCvuStartAbort a addr v s = _
  simp only [execCvuStartAbort, hreg, Option.getD_some]
  exact regWrite_admitted (by rw [habort]; rfl) hadm

end

section
variable {c v : Nat} {s : State} {j : CvuJob}

/-- R404: go alone starts the job of an idle channel's registers. -/
theorem startWrite_go (hgo : bit v 0 = true) (hkeep : bit v 1 = false) (hidle : cvuJob s c = none) :
    startWrite c v s = cvuStart c (cvuFromRegs s c) s := by
  simp only [startWrite, hgo, hkeep, hidle, Option.isNone_none, Bool.and_self, Bool.false_eq_true, if_false, if_true]

/-- R408: an abort asked of a channel that runs. -/
theorem cvuAbort_runs (hruns : cvuJob s c = some j) : cvuAbort c s = setCvu c (some { j with abort := true }) s := by
  simp only [cvuAbort, hruns]

/-- R408: an abort alone starts nothing. -/
theorem startWrite_abort (hgo : bit v 0 = false) (habort : bit v 1 = true) (hruns : cvuJob s c = some j) :
    startWrite c v s = setCvu c (some { j with abort := true }) s := by
  simp only [startWrite, hgo, habort, cvuAbort_runs hruns, Bool.false_and, Bool.false_eq_true, if_false, if_true]

section
variable {s1 : State} {bs : List Nat} (hkeep : j.abort = false)
include hkeep

/-- R405: a job that is not aborted and whose bytes have all been read. -/
theorem cvuFinish_read (hscan : cvuScan (cvuHolder s c) j.addr j.len s = (0, bs, s1)) :
    cvuFinish c none j s = cvuComplete c j bs (wr (CVU_CH_DONE_bytes c) bs.length s1) := by
  simp only [cvuFinish, hkeep, Bool.false_eq_true, if_false, Option.getD_none, Nat.min_self, hscan, ne_eq, not_true_eq_false,
    Option.isSome_none, false_and]

/-- R404: a job that is not aborted and that a page stops. -/
theorem cvuFinish_stopped {e : Nat} (hstopped : e ≠ 0) (hscan : cvuScan (cvuHolder s c) j.addr j.len s = (e, bs, s1)) :
    cvuFinish c none j s = cvuMemFault c e (j.addr + bs.length) j (wr (CVU_CH_DONE_bytes c) bs.length s1) := by
  simp only [cvuFinish, hkeep, Bool.false_eq_true, if_false, Option.getD_none, Nat.min_self, hscan, if_pos hstopped]

end

/-- R104, R404: the end of a running job of a polder with a share, without a timeout. -/
theorem exec_cvuJobEnd_shared {c : Fin 8} (hjob : cvuJob s c = some j) (hshare : rd s (POL_SHARE_cvu (cvuHolder s c)) ≠ 0) :
    exec (.cvuJobEnd c none) s = .next (settle 4 (fieldReply c j (cvuFinish c none j (tookFree s)))) := by
  show execCvuJobEnd c none s = _
  simp only [execCvuJobEnd, hjob, cvuMayEnd, bne_iff_ne.mpr hshare, Bool.or_true, Bool.true_or, Bool.not_true, Bool.false_eq_true, if_false,
    Option.map_none, done]

end

/-! ## The check-value unit's commands (Table EVR-5, R408 to R410) -/

section
variable {q : Req} {c : Nat} {s : State}

/-- R410: an own-scope command of the channel's holder, on an idle channel where it asks for one. -/
theorem cvuOwn_holder {idle : Bool} {body : State → Answer} (howner : q.polder = some (cvuHolder s c))
    (hidle : idle = true → cvuJob s c = none) : cvuOwn idle q c s body = body s := by
  have hbusy : (idle && (cvuJob s c).isSome) = false := by
    cases idle with
    | false => rfl
    | true => rw [hidle rfl]; rfl
  simp only [cvuOwn, howner, hbusy, ne_eq, not_true_eq_false, Bool.false_eq_true, if_false]

/-- R410: a descriptor without a parameter fault, for an idle channel of the sender's. -/
theorem cvuRunCmd_starts {s1 : State} (hc : c = readNat s q.bufAddr 4) (hlt : c < 8) (howner : q.polder = some (cvuHolder s c))
    (hidle : cvuJob s c = none) (hs1 : s1 = putDescriptor c (readBytes s (q.bufAddr + 4) 80) s) (hgood : (cvuFromRegs s1 c).bad = 0) :
    cvuRunCmd q s = did (cvuStart c (cvuFromRegs s1 c) s1) := by
  simp only [cvuRunCmd, ← hc, Nat.not_le.mpr hlt, cvuOwn_holder howner fun _ => hidle, ← hs1, hgood, ne_eq, not_true_eq_false, if_false]

/-- R409: a field that its medium holds, with an idle channel of polder 0 (log 47). -/
theorem fieldCheckCmd_starts {n offset len medium : Nat} (hn : n = bits (q.w 2) 5 0) (hmedium : medium = bits (q.w 2) 8 8)
    (hoffset : offset = q.w 11 + 4294967296 * q.w 12) (hlen : len = q.w 13 + 4294967296 * q.w 14)
    (hform : ¬ (n = 0 ∨ 32 < n ∨ len = 0 ∨ (medium = 0 ∧ 0x20000000 < offset + len))) (hchannel : fieldChannel s = some c) :
    fieldCheckCmd q s = pend (cvuStart c
      { addr := flashAddr medium offset, len := len, cfg := 2 + 16384, poly := 0, init := 0, xorout := 0, expect := [], run := [],
        key := ((List.range 8).flatMap (fun i => leBytes 4 (q.w (3 + i)))).take n, began := rd s (POL_SHARE_cvu 0) != 0, abort := false,
        field := some q.job } s) id := by
  have hwideOffset : wide [q.w 11, q.w 12] = offset := hoffset.symm
  have hwideLen : wide [q.w 13, q.w 14] = len := hlen.symm
  simp only [fieldCheckCmd, ← hn, ← hmedium, hwideOffset, hwideLen, if_neg hform, hchannel]

end

/-- Settles O35: each write is admitted, each job end is taken where its conditions hold, each command is served once it is asked for, and
its own rule is the case its hypotheses name. -/
theorem checkValueComplete : Obligations.CheckValueComplete := by
  unfold Obligations.CheckValueComplete
  refine ⟨?start, ?startAbort, ?complete, ?stopped, ?getChannel, ?run, ?save, ?load, ?key, ?abort, ?field⟩
  case start =>
    intro a c addr v s hadm haddr hgo hkeep hidle
    rw [exec_cvuStart_admitted hadm haddr hgo, startWrite_go hgo hkeep hidle]
  case startAbort =>
    intro a c addr v s j hadm haddr hgo habort hruns
    rw [exec_cvuStartAbort_admitted hadm haddr habort, startWrite_abort hgo habort hruns]
  case complete =>
    intro c s s1 j bs hjob hkeep hshare hscan
    rw [exec_cvuJobEnd_shared hjob hshare, cvuFinish_read (s := tookFree s) hkeep hscan]
  case stopped =>
    intro c s s1 j e bs hjob hkeep hshare hstopped hscan
    rw [exec_cvuJobEnd_shared hjob hshare, cvuFinish_stopped (s := tookFree s) hkeep hstopped hscan]
  case getChannel =>
    rintro k m s c hask rfl hread
    have hreader : Req.mayReadPolder (taken k s) ⟨k, m⟩ (cvuHolder (taken k s) (bits (m.word 2) 2 0)) = true := hread
    refine serve_ok hask (if_neg ?_)
    exact fun h => Bool.false_ne_true ((congrArg (!·) hreader).symm.trans h)
  case run =>
    intro k m s s1 c hask hc hlt howner hidle hs1 hgood
    exact serve_ok hask (cvuRunCmd_starts (q := ⟨k, m⟩) (s := taken k s) hc hlt howner hidle hs1 hgood)
  case save =>
    rintro k m s c hask rfl howner hidle
    exact serve_ok hask (cvuOwn_holder (q := ⟨k, m⟩) (s := taken k s) howner fun _ => hidle)
  case load =>
    rintro k m s c hask rfl howner hidle
    exact serve_ok hask (cvuOwn_holder (q := ⟨k, m⟩) (s := taken k s) howner fun _ => hidle)
  case key =>
    rintro k m s c hask rfl howner hidle
    exact serve_ok hask (cvuOwn_holder (q := ⟨k, m⟩) (s := taken k s) howner fun _ => hidle)
  case abort =>
    rintro k m s c j hask rfl howner hruns
    have hruns' : cvuJob (taken k s) (bits (m.word 2) 2 0) = some j := hruns
    refine serve_ok hask ((cvuOwn_holder (idle := false) (q := ⟨k, m⟩) (s := taken k s) howner fun h => nomatch h).trans ?_)
    exact congrArg did (cvuAbort_runs hruns')
  case field =>
    intro k m s n offset len medium c hask hn hmedium hoffset hlen hnLo hnHi hlenLo hsize hchannel
    exact serve_pend hask (fieldCheckCmd_starts (q := ⟨k, m⟩) (s := taken k s) hn hmedium hoffset hlen (by omega) hchannel)

end Sys2Proof.Proofs

/-! PROOFS. Power states, thermal telemetry and shutdown, and the power commands; the general I/O units. -/
namespace Sys2Proof.Proofs
open Sys2Proof Sys2Proof.Machine

/-! ## Thermal telemetry and shutdown (R431, R432) -/

section
variable {s : State}

/-- R431: a thermal state that does not hold and whose threshold is not passed stays as it is. -/
theorem thermalState_cool {f : Fld} {level sensor : Nat} {threshold t : Int} (hclear : rdB s f = false) (hcool : t ≤ threshold) :
    thermalState f level threshold sensor t s = s := by
  simp only [thermalState, hclear, Int.not_lt.mpr hcool, and_false, Bool.false_eq_true, false_and, if_false]

/-- R431: a reading of the sensors and rails in which no thermal state changes. -/
theorem exec_telemetryRead_cool {ts rs : List (BitVec 16)} {s3 : State} {h : Nat} {x : List Int}
    (hx : x = (List.range 12).map (fun i => sgn 16 (ts.getD i 0).toNat)) (hh : h = hottest x)
    (hs3 : s3 = wr CRP_THERM_STAT_hottest h ((List.range 6).foldl (fun s i => wr (CRP_RAIL_mw i) (rs.getD i 0).toNat s)
      ((List.range 12).foldl (fun s k => wrI (CRP_TEMP_temp k) (x.getD k 0) s) (pumpRan 8 10000000 s))))
    (hwarning : rdB s3 CRP_THERM_STAT_warning = false) (hthrottled : rdB s3 CRP_THERM_STAT_throttled = false)
    (hwarn : x.getD h 0 ≤ rd s CRP_THERM_CFG_warn) (hthrottle : x.getD h 0 ≤ rd s CRP_THERM_CFG_throttle)
    (hword : rd s CRP_THERM_STAT_warning + 2 * rd s CRP_THERM_STAT_throttled =
      rd s3 CRP_THERM_STAT_warning + 2 * rd s3 CRP_THERM_STAT_throttled) :
    exec (.telemetryRead ts rs) s = .next (settle 4 s3) := by
  show execTelemetryRead ts rs s = _
  simp only [execTelemetryRead, ← hx, ← hh, ← hs3, thermalState_cool hwarning hwarn, thermalState_cool hthrottled hthrottle, hword, if_true,
    done]

/-- R432: 125.0 degrees or more on a device that is on and whose supply has not failed. -/
theorem exec_thermalShutdown_hot {i : Fin 12} {t : BitVec 16} {s2 : State} (hhot : 1250 ≤ sgn 16 t.toNat) (hon : s.pwr.off = 0)
    (hsupply : s.vlt.pf = none)
    (hs2 : s2 = flushSteps (setTrans none (record0 Src.CRP_THERMAL none [i, unsgn 32 (sgn 16 t.toNat), 3] s))) :
    exec (.thermalShutdown i t) s = .next (settle 4 { s2 with pwr := { s2.pwr with off := 2, offAt := s2.now } }) := by
  show execThermalShutdown i t s = _
  simp only [execThermalShutdown, Int.not_lt.mpr hhot, hon, hsupply, ← hs2, ne_eq, not_true_eq_false, Option.isSome_none, Bool.false_eq_true,
    or_self, if_false, done]

end

/-! ## Entering QUIET, leaving it, and shutting down (Tables CRP-8 and CRP-9, R428) -/

section
variable {s s1 : State} {t : PwrTrans}

/-- What an acknowledgement of the preparing notification by pair `k` does to a transition that waits for it. -/
def ackTaken (k : Nat) (t : PwrTrans) (s : State) : State :=
  let t1 := { t with waiting := t.waiting.filter (fun i => i != k) }
  if t1.waiting.isEmpty then quietStep3 t1 s else setTrans (some t1) s

/-- The last acknowledgement waited for goes on to step 3. -/
theorem ackTaken_last {k : Nat} (hlast : t.waiting.filter (fun i => i != k) = []) :
    ackTaken k t s = quietStep3 { t with waiting := [] } s := by
  simp only [ackTaken, hlast, List.isEmpty_nil, if_true]

/-- An acknowledgement before the last leaves the others waited for. -/
theorem ackTaken_oneOfSeveral {k : Nat} {ws : List Nat} (hws : ws = t.waiting.filter (fun i => i != k)) (hmore : ws.isEmpty = false) :
    ackTaken k t s = setTrans (some { t with waiting := ws }) s := by
  simp only [ackTaken, ← hws, hmore, Bool.false_eq_true, if_false]

/-- Table CRP-8 step 2: the acknowledgement by a party that the transition waits for. -/
theorem exec_quietAck_awaited {k : Fin 32} {m : Msg} {u : Unacked} (hready : rdB s CRP_STATUS_tujan_ready = true)
    (hhead : (chan s (2 * k)).q.head? = some m) (hack : isRequest m = false) (hform : badForm m = false) (htarget : ackTarget s k m = some u)
    (hopcode : u.opcode = Op.PWR_STATE_CHANGED) (hs1 : s1 = clearUnacked (2 * k + 1) u.seq (dropHead (2 * k) s))
    (htrans : s1.pwr.trans = some t) (hopen : t.acked = none) (hawaited : t.waiting.contains k.val = true) :
    exec (.quietAck k) s = .next (settle 4 (ackTaken k t s1)) := by
  show execQuietAck k s = _
  simp only [execQuietAck, hready, hhead, hack, hform, htarget, hopcode, ← hs1, htrans, hopen, hawaited, Bool.or_self, Bool.false_eq_true,
    ne_eq, not_true_eq_false, Option.isSome_none, Bool.not_true, if_false, ackTaken, done]
  split <;> rfl

/-- Table CRP-8 step 2: a second without every acknowledgement. -/
theorem exec_quietAckTimeout_open (htrans : s.pwr.trans = some t) (hopen : t.acked = none)
    (hs1 : s1 = wr CRP_STATUS_power_state 0 (setTrans none (advanceTo (t.start + 1000000000) s))) :
    exec .quietAckTimeout s = .next (settle 4
      (notifyAll Op.PWR_STATE_CHANGED [0] (reply t.job ST_PWR_NACK [] { (recordWakes s1) with wakes := [] }))) := by
  show execQuietAckTimeout s = _
  simp only [execQuietAckTimeout, htrans, hopen, ← hs1, Option.isSome_none, Bool.false_eq_true, if_false, done]

/-- Table CRP-8 steps 4 to 6 of a transition to QUIET that every party has acknowledged. -/
theorem exec_quietEntryDone_acked {s3 s4 : State} (htrans : s.pwr.trans = some t) (hquiet : t.shutdown = false) (hacked : t.acked.isSome = true)
    (hs1 : s1 = freeLocksOf (quietMasters t.kept)
      (clrBits CRP_PD_STAT_on (quietDomains t.kept) (s.pwr.restart.foldl (fun s n => outputOff n s) s)))
    (hs3 : s3 = (List.range 16).foldl (fun s c => closeRows c s) (wrAll DMC_STATUS_self_refresh 1
      ((List.range 8).foldl (fun s h => setHart h { hart s h with running := false } s) s1)))
    (hs4 : s4 = setTrans none (tchQuietEntry (wr CRP_STATUS_power_state 1
      (record0 Src.DMC_SELF_REFRESH none [1, rd s3 (DMC_PASR_keep 0)] s3)))) :
    exec .quietEntryDone s = .next (settle 4 (record0 Src.CRP_POWER_STATE none [1, 0]
      (tujanSend t.job.pair true false (mkMsg t.job.opcode flagReply [ST_OK + 65536 * t.job.seq]) s4))) := by
  have hnone : t.acked.isNone = false := by rw [← Option.not_isSome, hacked]; rfl
  show execQuietEntryDone s = _
  simp only [execQuietEntryDone, htrans, hquiet, hnone, ← hs1, ← hs3, ← hs4, Bool.or_self, Bool.false_eq_true, if_false, done]

/-- Table CRP-9 steps 1 to 5: a wake event latched in QUIET. -/
theorem exec_wakeEvent_quiet {s2 s4 : State} (hquiet : rd s CRP_STATUS_power_state = 1) (hwakes : s.wakes.isEmpty = false)
    (hs1 : s1 = { (recordWakes s) with wakes := [] })
    (hs2 : s2 = startHarts (orBits CRP_PD_STAT_on (rd s1 CRP_PD_CTRL_on &&& 31)
      (wr CRP_STATUS_warm 1 (wr CRP_STATUS_power_state 3 s1))))
    (hs4 : s4 = record0 Src.DMC_SELF_REFRESH none [0, rd s2 (DMC_PASR_keep 0)] (wrAll DMC_STATUS_self_refresh 0
      (dropSegments { s2 with pld := { s2.pld with entries := [] } }))) :
    exec .wakeEvent s = .next (settle 4 (s4.pwr.restart.foldl (fun s n => outputRestarts n s) s4)) := by
  subst hs4
  show execWakeEvent s = _
  simp only [execWakeEvent, hquiet, hwakes, ← hs1, ← hs2, ne_eq, not_true_eq_false, Bool.false_eq_true, or_self, if_false, done]
  rfl

/-- Table CRP-9 step 6: back to ACTIVE. -/
theorem exec_quietExitDone_leaving {s2 : State} (hleaving : rd s CRP_STATUS_power_state = 3)
    (hs2 : s2 = tchQuietExit (wr CRP_STATUS_power_state 0 { (recordWakes s) with wakes := [] })) :
    exec .quietExitDone s = .next (settle 4 (record0 Src.CRP_POWER_STATE none [0, 1] (notifyAll Op.PWR_STATE_CHANGED [0]
      { s2 with pwr := { s2.pwr with restart := [] } }))) := by
  show execQuietExitDone s = _
  simp only [execQuietExitDone, hleaving, ← hs2, ne_eq, not_true_eq_false, if_false, done]

/-- R428: the work of a shutdown that every party has acknowledged is complete. -/
theorem exec_shutdownComplete_acked {s2 : State} {a : Nat} (htrans : s.pwr.trans = some t) (hshutdown : t.shutdown = true)
    (hacked : t.acked = some a)
    (hs2 : s2 = (List.range 8).foldl (fun s n => outputOff n s) (settle 4 (reply t.job ST_OK [] (finishSync (startSync (snapToFlash 1
      (snapToFlash 0 (archiveAll s.evr.archive.waiting.length s)))))))) :
    exec (.shutdownComplete true) s = .next (settle 4 { s2 with pwr := { s2.pwr with trans := none, off := 1, offAt := s2.now } }) := by
  show execShutdownComplete true s = _
  simp only [execShutdownComplete, htrans, hshutdown, hacked, if_true, ← hs2, done]

end

/-! ## The power commands (Table CRP-12) -/

section
variable {k : Fin 32} {m : Msg} {s : State}

/-- R424: a request for QUIET that nothing refuses is pending. -/
theorem exec_pwrEnterQuiet_starts (hask : asked Op.PWR_ENTER_QUIET k m s = true)
    (hfree : transitionRefusal ⟨k, m⟩ (taken k s) (bits (m.word 2) 7 0) (quietBlocks (bits (m.word 2) 7 0)) = none) :
    exec (.pwrEnterQuiet k) s = .next (settle 4 (quietStart ⟨k, Msg.opcode m, Msg.seq m⟩ false (bits (m.word 2) 7 0)
      (reply ⟨k, Msg.opcode m, Msg.seq m⟩ ST_PENDING [] (taken k s)))) := by
  refine serve_pend (t := taken k s) (f := quietStart ⟨k, Msg.opcode m, Msg.seq m⟩ false (bits (m.word 2) 7 0)) hask ?_
  simp only [Req.w, hfree]
  rfl

/-- R428: a request for a shutdown that nothing refuses is pending. -/
theorem exec_pwrShutdown_starts (hask : asked Op.PWR_SHUTDOWN k m s = true)
    (hfree : transitionRefusal ⟨k, m⟩ (taken k s) 0 (List.range 24) = none) :
    exec (.pwrShutdown k) s = .next (settle 4 (quietStart ⟨k, Msg.opcode m, Msg.seq m⟩ true 0
      (reply ⟨k, Msg.opcode m, Msg.seq m⟩ ST_PENDING [] (taken k s)))) := by
  refine serve_pend (t := taken k s) (f := quietStart ⟨k, Msg.opcode m, Msg.seq m⟩ true 0) hask ?_
  simp only [hfree]
  rfl

/-- R412: a block is ungated whether it works or not. -/
theorem exec_pwrSetBlock_ungates (hask : asked Op.PWR_SET_BLOCK k m s = true) (hb : bits (m.word 2) 4 0 < 24)
    (hact : bits (m.word 2) 9 8 = 0) :
    exec (.pwrSetBlock k) s = .next (answered k m ST_OK [] (clrBits CRP_CLK_GATE_gate (2 ^ bits (m.word 2) 4 0) (taken k s))) :=
  serve_ok hask ((if_neg (by simp only [Req.w]; omega)).trans (if_pos hact))

/-- R88, R412: a block that is neither claimed nor at work is gated, or reset. -/
theorem exec_pwrSetBlock_idle {b act : Nat} (hask : asked Op.PWR_SET_BLOCK k m s = true) (hb : b = bits (m.word 2) 4 0) (hlt : b < 24)
    (hact : bits (m.word 2) 9 8 = act) (hacts : act = 1 ∨ act = 2) (hfree : claimed s b = false) (hidle : blockWorks (taken k s) b = false) :
    exec (.pwrSetBlock k) s = .next (answered k m ST_OK []
      (if act = 1 then orBits CRP_CLK_GATE_gate (2 ^ b) (taken k s) else blockReset b (taken k s))) := by
  have hfree' : claimed (taken k s) b = false := hfree
  refine serve_ok hask ?_
  rcases hacts with rfl | rfl <;>
    simp [Req.w, ← hb, hact, Nat.not_le.mpr hlt, hfree', hidle, did]

/-- R431: thresholds in range. -/
theorem exec_pwrSetThermal_valid {w t : Nat} (hask : asked Op.PWR_SET_THERMAL k m s = true) (hw : w = bits (m.word 2) 11 0)
    (ht : t = bits (m.word 2) 27 16) (hlow : 700 ≤ w) (hapart : w + 10 ≤ t) (hhigh : t ≤ 1150) :
    exec (.pwrSetThermal k) s =
      .next (answered k m ST_OK [] (wr CRP_THERM_CFG_throttle t (wr CRP_THERM_CFG_warn w (taken k s)))) := by
  subst hw ht
  exact serve_ok hask (if_neg (by simp only [Req.w]; omega))

end

/-- Settles O37: each step is taken where its conditions hold, each command is served once it is asked for, and its own rule is the case its
hypotheses name. -/
theorem powerComplete : Obligations.PowerComplete := by
  unfold Obligations.PowerComplete
  refine ⟨?telemetry, fun i t s s2 => exec_thermalShutdown_hot, ?lastAck, ?oneAck, fun s s1 t => exec_quietAckTimeout_open,
    fun s s1 s3 s4 t => exec_quietEntryDone_acked, fun s s1 s2 s4 => exec_wakeEvent_quiet, fun s s2 => exec_quietExitDone_leaving,
    fun s s2 t a => exec_shutdownComplete_acked, fun k m s hask => serve_ok hask rfl, ?getTelemetry, fun k m s hask => serve_ok hask rfl,
    fun k m s => exec_pwrEnterQuiet_starts, fun k m s => exec_pwrShutdown_starts, fun k m s => exec_pwrSetBlock_ungates, ?gated, ?reset,
    fun k m s w t => exec_pwrSetThermal_valid⟩
  case telemetry =>
    intro ts rs s s2 h x hx hh hs2 hwarning hthrottled hwarn hthrottle hword
    exact exec_telemetryRead_cool hx hh (congrArg _ hs2) hwarning hthrottled hwarn hthrottle hword
  case lastAck =>
    intro k m s s1 u t hready hhead hack hform htarget hopcode hs1 htrans hopen hawaited hlast
    rw [exec_quietAck_awaited hready hhead hack hform htarget hopcode hs1 htrans hopen hawaited, ackTaken_last hlast]
  case oneAck =>
    intro k m s s1 u t ws hready hhead hack hform htarget hopcode hs1 htrans hopen hawaited hws hmore
    rw [exec_quietAck_awaited hready hhead hack hform htarget hopcode hs1 htrans hopen hawaited, ackTaken_oneOfSeveral hws hmore]
  case getTelemetry =>
    rintro k m s pair hask rfl
    exact serve_ok hask rfl
  case gated =>
    intro k m s b hask hb hlt hact hfree hidle
    rw [exec_pwrSetBlock_idle hask hb hlt hact (.inl rfl) hfree hidle, if_pos rfl]
  case reset =>
    intro k m s b hask hb hlt hact hfree hidle
    rw [exec_pwrSetBlock_idle hask hb hlt hact (.inr rfl) hfree hidle, if_neg (by decide)]

/-! ## The adaptive rails (R439) -/

section
variable {r : Fin 2} {t : BitVec 12} {s : State} {mv at_ : Nat} (hrail : s.pwr.rails.getD r (0, 2, 0) = (mv, 0, at_))
  (hstarted : s.evr.started = true)
include hrail hstarted

/-- R439: an acknowledged step of a good rail, at most 10 mV towards the target. -/
theorem exec_pmbusStep_acknowledged : exec (.pmbusStep r t true) s =
    .next { s with pwr := { s.pwr with rails := s.pwr.rails.set r (max (mv - 10) (min (mv + 10) t.toNat), 1, s.now) } } := by
  show execPmbusStep r t true s = _
  simp only [execPmbusStep, hrail, hstarted, Nat.reduceEqDiff, Bool.true_eq_false, or_self, if_false, if_true]

/-- R439: the first command of a good rail, not acknowledged. -/
theorem exec_pmbusStep_unacknowledged : exec (.pmbusStep r t false) s = .next (settle 4 (record0 Src.GIO_PMBUS_FAULT none [0x20 + r, 1]
    { s with pwr := { s.pwr with rails := s.pwr.rails.set r (mv, 2, s.now) } })) := by
  show execPmbusStep r t false s = _
  simp only [execPmbusStep, hrail, hstarted, Nat.reduceEqDiff, Bool.true_eq_false, Bool.false_eq_true, or_self, if_false, if_true, done]

end

/-! ## The UARTs (R448) -/

section
variable {a : Access} {addr : BitVec 40} {v : BitVec 32} {s : State}

/-- R448: a byte written with room for it. -/
theorem exec_uartDataWrite_room {u : Nat} (hadm : admitted a addr.toNat v.toNat s = true) (hreg : gioRegAt addr.toNat 0x20900000 8 0 = some u)
    (hroom : (uart s u).tx.length < 64) :
    exec (.uartDataWrite a addr v) s = .next (settle 4 (setUart u ⟨(uart s u).tx ++ [v.toNat % 256], (uart s u).rx⟩ s)) := by
  show execUartDataWrite a addr v s = _
  simp only [execUartDataWrite, hreg, Option.isSome_some, Option.getD_some]
  rw [regWrite_admitted rfl hadm]
  simp only [uartPush, Nat.not_le.mpr hroom, if_false]

/-- R448: the oldest byte received, read. -/
theorem exec_uartDataRead_byte {u b : Nat} {p f : Bool} {t : List (Nat × Bool × Bool)} {s1 : State} (hread : readable a addr.toNat s = true)
    (hreg : gioRegAt addr.toNat 0x20900000 8 0 = some u) (hrx : (uart s u).rx = (b, p, f) :: t) (hs1 : s1 = setUart u ⟨(uart s u).tx, t⟩ s) :
    exec (.uartDataRead a addr) s = .next (settle 4 { s1 with busReply := b + 256 * b2n p + 512 * b2n f + 1024 }) := by
  show execUartDataRead a addr s = _
  simp only [execUartDataRead, hreg, Option.isSome_some, Option.getD_some]
  rw [regRead_readable rfl hread]
  simp only [hrx, hs1]

/-- R448: a read with no byte received. -/
theorem exec_uartDataRead_empty {u : Nat} (hread : readable a addr.toNat s = true) (hreg : gioRegAt addr.toNat 0x20900000 8 0 = some u)
    (hrx : (uart s u).rx = []) : exec (.uartDataRead a addr) s = .next (settle 4 { s with busReply := 0 }) := by
  show execUartDataRead a addr s = _
  simp only [execUartDataRead, hreg, Option.isSome_some, Option.getD_some]
  rw [regRead_readable rfl hread]
  simp only [hrx]

section
variable {u : Fin 8} {b : BitVec 8} {p f : Bool} (hon : uartOn s u = true) (hline : rdB s (GIO_UART_CFG_loopback u).inForce = false)
include hon hline

/-- R448: a frame received from the line. -/
theorem exec_uartRxByte_frame : exec (.uartRxByte u b p f false) s =
    .next (settle 4 (uartStore u b.toNat (p && rdB s (GIO_UART_CFG_parity u).inForce) f s)) := by
  show execUartRxByte u b p f false s = _
  simp only [execUartRxByte, hon, hline, Bool.not_true, Bool.or_self, Bool.false_eq_true, if_false, done]

/-- R448: a break on the line. -/
theorem exec_uartRxByte_break : exec (.uartRxByte u b p f true) s =
    .next (settle 4 (uartStore u 0 false true (wr (GIO_UART_STAT_brk u) 1 s))) := by
  show execUartRxByte u b p f true s = _
  simp only [execUartRxByte, hon, hline, Bool.not_true, Bool.or_self, Bool.false_eq_true, if_false, if_true, done]

end

/-- R448: a byte sent leaves the FIFO; with loopback it is received. -/
theorem exec_uartTxDone_byte {u : Fin 8} {b : Nat} {t : List Nat} {rx : List (Nat × Bool × Bool)} (huart : uart s u = ⟨b :: t, rx⟩)
    (hon : uartOn s u = true) : exec (.uartTxDone u) s = .next (settle 4
      (if rdB s (GIO_UART_CFG_loopback u).inForce then uartStore u b false false (setUart u ⟨t, rx⟩ s) else setUart u ⟨t, rx⟩ s)) := by
  show execUartTxDone u s = _
  simp only [execUartTxDone, huart, hon, Bool.not_true, Bool.false_eq_true, if_false, done]

/-! ## The I2C controllers (R449) -/

/-- R449: a command queued with room for it. -/
theorem exec_i2cCmd_room {i : Nat} (hadm : admitted a addr.toNat v.toNat s = true) (hreg : gioRegAt addr.toNat 0x20901000 4 8 = some i)
    (hroom : (i2c s i).cmds.length < 16) :
    exec (.i2cCmd a addr v) s = .next (settle 4 (setI2c i ⟨(i2c s i).cmds ++ [v.toNat % 4096], (i2c s i).rx⟩ s)) := by
  show execI2cCmd a addr v s = _
  simp only [execI2cCmd, hreg, Option.isSome_some, Option.getD_some]
  rw [regWrite_admitted rfl hadm]
  simp only [Nat.not_le.mpr hroom, if_false]

/-- R449: the oldest byte read from the bus. -/
theorem exec_i2cRxRead_byte {i b : Nat} {t : List Nat} {s1 : State} (hread : readable a addr.toNat s = true)
    (hreg : gioRegAt addr.toNat 0x20901000 4 0xC = some i) (hrx : (i2c s i).rx = b :: t) (hs1 : s1 = setI2c i ⟨(i2c s i).cmds, t⟩ s) :
    exec (.i2cRxRead a addr) s = .next (settle 4 { s1 with busReply := b }) := by
  show execI2cRxRead a addr s = _
  simp only [execI2cRxRead, hreg, Option.isSome_some, Option.getD_some]
  rw [regRead_readable rfl hread]
  simp only [hrx, hs1]

section
variable {i : Fin 4} {c : Nat} {t : List Nat} (hcmds : (i2c s i).cmds = c :: t) (hon : rdB s (GIO_I2C_CFG_enable i) = true)
include hcmds hon

/-- R449: a write that is done. -/
theorem exec_i2cCmdDone_write {b : BitVec 8} (hwrite : bit c 8 = false) :
    exec (.i2cCmdDone i (.done b)) s = .next (settle 4 (setI2c i ⟨t, (i2c s i).rx⟩ s)) := by
  show execI2cCmdDone i (.done b) s = _
  simp only [execI2cCmdDone, hcmds, hon, hwrite, Bool.not_true, Bool.false_and, Bool.false_eq_true, if_false, done]

/-- R449: a read that is done, with room for its byte. -/
theorem exec_i2cCmdDone_read {b : BitVec 8} (hread : bit c 8 = true) (hroom : (i2c s i).rx.length < 16) :
    exec (.i2cCmdDone i (.done b)) s = .next (settle 4 (setI2c i ⟨t, (i2c s i).rx ++ [b.toNat]⟩ s)) := by
  show execI2cCmdDone i (.done b) s = _
  simp only [execI2cCmdDone, hcmds, hon, hread, Nat.not_le.mpr hroom, decide_false, Bool.not_true, Bool.and_false, Bool.false_eq_true,
    if_false, if_true, done]

/-- R449: a command that is not acknowledged. -/
theorem exec_i2cCmdDone_nack : exec (.i2cCmdDone i .nack) s =
    .next (settle 4 (i2cError (GIO_I2C_STAT_nack i) i (afterStop (c :: t)) s)) := by
  show execI2cCmdDone i .nack s = _
  simp only [execI2cCmdDone, hcmds, hon, Bool.not_true, Bool.false_eq_true, if_false, done]

/-- R449: arbitration lost. -/
theorem exec_i2cCmdDone_arbLost : exec (.i2cCmdDone i .arbLost) s =
    .next (settle 4 (i2cError (GIO_I2C_STAT_arb_lost i) i [] s)) := by
  show execI2cCmdDone i .arbLost s = _
  simp only [execI2cCmdDone, hcmds, hon, Bool.not_true, Bool.false_eq_true, if_false, done]

end

/-! ## The SPI controllers (R450) -/

/-- R450: a word written with room for it. -/
theorem exec_spiTxWrite_room {k : Nat} (hadm : admitted a addr.toNat v.toNat s = true) (hreg : gioRegAt addr.toNat 0x20902000 4 8 = some k)
    (hroom : (spi s k).tx.length < 16) :
    exec (.spiTxWrite a addr v) s = .next (settle 4 (setSpi k ⟨(spi s k).tx ++ [v.toNat], (spi s k).rx, (spi s k).cs⟩ s)) := by
  show execSpiTxWrite a addr v s = _
  simp only [execSpiTxWrite, hreg, Option.isSome_some, Option.getD_some]
  rw [regWrite_admitted rfl hadm]
  simp only [Nat.not_le.mpr hroom, if_false]

/-- R450: the oldest word received, read. -/
theorem exec_spiRxRead_word {k w : Nat} {t : List Nat} {s1 : State} (hread : readable a addr.toNat s = true)
    (hreg : gioRegAt addr.toNat 0x20902000 4 0xC = some k) (hrx : (spi s k).rx = w :: t)
    (hs1 : s1 = setSpi k ⟨(spi s k).tx, t, (spi s k).cs⟩ s) :
    exec (.spiRxRead a addr) s = .next (settle 4 { s1 with busReply := w }) := by
  show execSpiRxRead a addr s = _
  simp only [execSpiRxRead, hreg, Option.isSome_some, Option.getD_some]
  rw [regRead_readable rfl hread]
  simp only [hrx, hs1]

section
variable {k : Fin 4} {rx : BitVec 32} {w : Nat} {t : List Nat} (htx : (spi s k).tx = w :: t) (hon : rdB s (GIO_SPI_CFG_enable k) = true)
include htx hon

/-- R450: a word shifted, with room for the word received. -/
theorem exec_spiWordDone_room (hroom : (spi s k).rx.length < 16) : exec (.spiWordDone k rx) s = .next (settle 4 (setSpi k ⟨t, (spi s k).rx ++
    [rx.toNat % 2 ^ (rd s (GIO_SPI_CFG_bits k).inForce + 1)], (spi s k).cs⟩ s)) := by
  show execSpiWordDone k rx s = _
  simp only [execSpiWordDone, htx, hon, Nat.not_le.mpr hroom, Bool.not_true, Bool.false_eq_true, if_false, done]

/-- R450: a word shifted while the receive FIFO is full. -/
theorem exec_spiWordDone_full (hfull : 16 ≤ (spi s k).rx.length) : exec (.spiWordDone k rx) s = .next (settle 4
    (setSpi k ⟨t, (spi s k).rx, (spi s k).cs⟩ (wr (GIO_SPI_STAT_rx_overflow k) 1 s))) := by
  show execSpiWordDone k rx s = _
  simp only [execSpiWordDone, htx, hon, hfull, Bool.not_true, Bool.false_eq_true, if_false, if_true, done]

end

/-! ## The GPIO banks (R446, R451) -/

section
variable {b : Nat} (hadm : admitted a addr.toNat v.toNat s = true)
include hadm

/-- R446, R451: the outputs that an access may reach, set. -/
theorem exec_gpioOutSet_admitted (hreg : gioRegAt addr.toNat 0x20903000 2 4 = some b) : exec (.gpioOutSet a addr v) s = .next (settle 4
    (gpioOut b (rd s (GIO_GPIO_OUT_out b) ||| (v.toNat &&& gpioMask s b (carried s a addr.toNat))) s)) := by
  show execGpioOutSet a addr v s = _
  simp only [execGpioOutSet, hreg, Option.isSome_some, Option.getD_some]
  rw [regWrite_admitted rfl hadm]

/-- R446, R451: the outputs that an access may reach, cleared. -/
theorem exec_gpioOutClr_admitted (hreg : gioRegAt addr.toNat 0x20903000 2 8 = some b) : exec (.gpioOutClr a addr v) s = .next (settle 4
    (gpioOut b (andNot (rd s (GIO_GPIO_OUT_out b)) (v.toNat &&& gpioMask s b (carried s a addr.toNat))) s)) := by
  show execGpioOutClr a addr v s = _
  simp only [execGpioOutClr, hreg, Option.isSome_some, Option.getD_some]
  rw [regWrite_admitted rfl hadm]

end

end

/-- Settles O38: each step is taken where its unit runs and holds what the step moves, and each register access is admitted to its unit. -/
theorem generalIoComplete : Obligations.GeneralIoComplete := by
  unfold Obligations.GeneralIoComplete
  refine ⟨fun r t s mv at_ => exec_pmbusStep_acknowledged, fun r t s mv at_ => exec_pmbusStep_unacknowledged,
    fun a addr v u s => exec_uartDataWrite_room, fun a addr u b p f t s s1 => exec_uartDataRead_byte,
    fun a addr u s => exec_uartDataRead_empty, fun u b p f s => exec_uartRxByte_frame, fun u b p f s => exec_uartRxByte_break, ?txLine,
    ?txLoopback, fun a addr v i s => exec_i2cCmd_room, fun a addr i b t s s1 => exec_i2cRxRead_byte,
    fun i b c t s hcmds hon => exec_i2cCmdDone_write hcmds hon, fun i b c t s hcmds hon => exec_i2cCmdDone_read hcmds hon,
    fun i c t s => exec_i2cCmdDone_nack,
    fun i c t s => exec_i2cCmdDone_arbLost, fun a addr v k s => exec_spiTxWrite_room, fun a addr k w t s s1 => exec_spiRxRead_word,
    fun k rx w t s => exec_spiWordDone_room, fun k rx w t s => exec_spiWordDone_full, fun a addr v b s => exec_gpioOutSet_admitted,
    fun a addr v b s => exec_gpioOutClr_admitted, fun n level s => rfl⟩
  case txLine =>
    intro u b t rx s huart hon hline
    rw [exec_uartTxDone_byte huart hon, hline]
    rfl
  case txLoopback =>
    intro u b t rx s huart hon hloop
    rw [exec_uartTxDone_byte huart hon, hloop, if_pos rfl]

end Sys2Proof.Proofs
